-- ==== Sys2Proof/Syntax.lean ====
section
/-! DEFINITION. The commands of a KX1024 package: one constructor per row of the command table. An operand that names a list of
readings, lines or answers is what the environment supplies at that moment (a fetch, a sensor, another package); the comment of
the meaning in Machine/ says what each operand is. -/

namespace Sys2Proof

/-- A reduction-buffer slot as the image declares it (R224): format, kind, geometry (a vector's length in `cols`), contributor. -/
structure Machine.SlotDecl where
  fp32 : Bool
  tiled : Bool
  rows : Nat
  cols : Nat
  contributor : Nat
  deriving DecidableEq, Repr

/-- A page of an object promoted again for an adopter (R395): its lines (line, tag, flags, bytes) as `storePage` takes them. -/
structure Machine.FoundPage where
  obj : Nat
  page : Nat
  lines : List (Nat × Nat × Nat × List Nat)
  deriving DecidableEq, Repr

/-- A command. -/
inductive Instr where
  /-- ENTRY_DISPATCH (R281): The sequencer reads the next schedule-queue entry and dispatches it to its stream, or waits while
  that stream is full. -/
  | entryDispatch (core : Nat)
  /-- ENTRY_COMPLETE (R285): A dispatched entry's descriptor completes and the core performs SIG0 to SIG3 in order. -/
  | entryComplete (core stream : Nat)
  /-- STEP_ADV (R286): After every earlier entry completes, the core advances its step counter and optimiser registers and
  continues at position 0 or at EVAL_POS. -/
  | stepAdv (core : Nat)
  /-- EVAL_END (R286): At the end of an eval slot, the entry waits as STEP_ADV does, performs its signals and continues at
  position 0. -/
  | evalEnd (core : Nat)
  /-- TUMBLER_WAIT (R287): A stream head evaluates a tumbler wait against COUNT and either releases or holds. -/
  | tumblerWait (core stream : Nat)
  /-- TUMBLER_ADD (R287): A signal adds its AMOUNT to a tumbler's COUNT, and the waiting heads are evaluated again. -/
  | tumblerAdd (core obj amount path : Nat) (subst : Bool) (dup : Option Nat)
  /-- LATCH_TAKE (R292): A blocking take waits until the latch serves it, then lowers COUNT and draws from OVF. -/
  | latchTake (core stream : Nat)
  /-- LATCH_TRY (R292): A try takes the amount at once, or records the shortfall in UDF and proceeds. -/
  | latchTry (core stream : Nat)
  /-- LATCH_POST (R292): A post repays UDF, raises COUNT, moves excess into OVF and serves waiting takes in normal or ticket
  order. -/
  | latchPost (core obj amount path : Nat) (subst : Bool) (dup : Option Nat)
  /-- LEND_ENTER (R300): A core whose waiting heads all qualify enters Lend, returns its grant and stops its hinge-array and
  vector-engine clocks. -/
  | lendEnter (core : Nat) (times : List (Nat × Nat))
  /-- LEND_EXIT (R301): A satisfied wait, save request, Hold or deadbolt takes the core out of Lend, and it resumes when the
  pool holds its grant. -/
  | lendExit (core cycles : Nat)
  /-- CORE_HEARTBEAT (R392): Every 1 µs the synchronisation block of a core in Run, Trim or Lend sends a heartbeat to its
  fabric island. -/
  | coreHeartbeat (core waitCycles : Nat)
  /-- HEARTBEAT_MISS (R392): A fabric island that misses eight consecutive heartbeats of a core acts on the core's silence. -/
  | heartbeatMiss (core : Nat)
  /-- SYN_SCRUB (R304): Every 16 µs the scrubber compares both copies of every synchronisation object of the core. -/
  | synScrub (core : Nat) (upsets : List (Nat × Nat × Nat × Nat))
  /-- CONTEXT_SAVE_REQUEST (R302): A core receives a context-save request and its units begin stopping at their save
  boundaries. -/
  | contextSaveRequest (core : Nat)
  /-- FREEZE_POINT (R302): Once every stream has stopped at its boundary, the synchronisation state is saved consistently. -/
  | freezePoint (core : Nat)
  /-- CONTEXT_RESTORE (R303): A save is loaded into a core or an adopter, the synchronisation block is restored in full and
  the waiting heads are evaluated again. -/
  | contextRestore (core owner gen step : Nat)
  /-- MATRIX_PRODUCT (R94): The hinge array executes an OP 0x10 matrix descriptor over its output tiles in row-major order. -/
  | matrixProduct (core chunks stall after : Nat)
  /-- TILE_WRITE_OUT (R60): A finished bank is converted through write-out to its destinations once a tile-queue slot is free
  when one is needed. -/
  | tileWriteOut (core wait : Nat)
  /-- ELEM (R139): The vector engine applies an element-wise chain to every active lane of every vector. -/
  | elem (core : Nat) (work : Nat × Nat)
  /-- REDUCE (R149): The vector engine reduces along rows, columns or all elements in fixed order. -/
  | reduce (core : Nat) (work : Nat × Nat)
  /-- SCAN (R151): The vector engine computes a plain or segmented prefix operation in fixed order. -/
  | scan (core : Nat) (work : Nat × Nat)
  /-- PERMUTE (R152): The vector engine applies a lane pattern or a row gather. -/
  | permute (core : Nat) (work : Nat × Nat)
  /-- NORM (R153): The vector engine computes forward RMS or layer normalisation. -/
  | norm (core : Nat) (work : Nat × Nat)
  /-- SOFTMAX (R153): The vector engine computes a forward soft-maximum. -/
  | softmax (core : Nat) (work : Nat × Nat)
  /-- ROW_RECOMPUTE (R118): The vector engine recomputes normalisation or soft-maximum rows and produces dX and optionally Y.
  -/
  | rowRecompute (core : Nat) (work : Nat × Nat)
  /-- VLT_LINE_READ (R168): A vault controller serves a line read and checks the line. -/
  | vltLineRead (vault line src : Nat) (err : List Nat)
  /-- VLT_LINE_WRITE (R168): A vault controller stores a full-line write with CRC, tag and flags. -/
  | vltLineWrite (vault line src tag : Nat) (data : List Nat)
  /-- NARROW_WRITE (R174): A write narrower than a line is performed as an indivisible read-modify-write. -/
  | narrowWrite (vault line src tag off : Nat) (bytes err : List Nat)
  /-- VLT_REFETCH (R171): The second read of a failed line completes and the controller takes the transient or lasting path.
  -/
  | vltRefetch (vault line : Nat) (err : List Nat)
  /-- PAGE_MIGRATE_DONE (R177): The page copy ends; the retirement entry is set, remap entries are freed and POISON lines are
  recomputed. -/
  | pageMigrateDone (vault : Nat) (reserveBad : Bool)
  /-- RECOMPUTE (R172): A core suspends the descriptor in hand, issues the recompute descriptor ahead of its queue and resumes
  afterwards. -/
  | recompute (core : Nat)
  /-- VLT_RECOMPUTE_READ (R171): After the recompute stores the line, the controller reads it again and delivers it or leaves
  it POISON. -/
  | vltRecomputeRead (vault line : Nat) (err : List Nat)
  /-- RCMP_TIMEOUT (R171): A recompute that does not store the line within RCMP_TIMEOUT leaves it POISON, or delivers a TEST
  line as stored. -/
  | rcmpTimeout (vault line : Nat)
  /-- REFRESH_DUE (R182): A bank's refresh falls due and is issued or postponed. -/
  | refreshDue (vault bank : Nat) (pending : Bool)
  /-- REFRESH_REPAY (R183): An idle bank repays its postponed refreshes back to back. -/
  | refreshRepay (vault bank : Nat)
  /-- PATROL_SCRUB (R180): The patrol scrub reads the next line of the vault and checks it. -/
  | patrolScrub (vault : Nat) (err : List Nat)
  /-- TEMP_SAMPLE (R184): Every 1 ms the DRAM layer sensors are sampled and the vault temperature formed. -/
  | tempSample (vault l0 l1 l2 l3 : Nat)
  /-- BAND_CHANGE (R184): A temperature band change takes effect at the start of the next refresh interval. -/
  | bandChange (vault : Nat)
  /-- STG_ACCESS (R185): Stage memory serves a port's access with bank arbitration and SEC-DED checking. -/
  | stgAccess (core port byte retries ecc : Nat) (data : List Nat)
  /-- OPTIM (R201): A lane descriptor applies the fused optimiser update in moment and master passes per bank. -/
  | optim (core : Nat)
  /-- SCALE (R214): A lane descriptor multiplies every element of a line range in place. -/
  | scale (core : Nat)
  /-- DIGEST (R215): A lane descriptor computes a SHA-256 value over a line range from per-bank leaves. -/
  | digest (core : Nat)
  /-- ZERO (R216): A lane descriptor writes a line range as zero bytes. -/
  | zero (core : Nat)
  /-- LANE_TOKEN_GRANT (R202): A freed lane token goes to the bank with pending work whose last pass ended earliest. -/
  | laneTokenGrant (core units waitCycles : Nat)
  /-- LANE_PASS_CLAIM (R203): A lane claims its pass set when none of its lines is in service or locked, and reads it. -/
  | lanePassClaim (core bank : Nat) (errs : List (Nat × List Nat))
  /-- LANE_PASS_WRITE (R199): After its compute phase, the lane writes each output line whole with fresh metadata. -/
  | lanePassWrite (core bank : Nat)
  /-- LANE_PASS_BOUNDARY (R208): At a pass boundary the token returns and the controller repays refresh debt before releasing
  waiting requests. -/
  | lanePassBoundary (core bank actCycles : Nat)
  /-- MASTER_GATHER (R239): The fabric island gathers master halves into dense FP32 tiles after checking their tags. -/
  | masterGather (core : Nat)
  /-- RED (R327): A reduction descriptor reads its slot out and sends leaf chunks up the fixed tree. -/
  | red (core : Nat)
  /-- MOVE (R331): A move descriptor copies or broadcasts lines with the issuing core's step tag. -/
  | move (core : Nat)
  /-- DCMP (R331): A digest-compare descriptor sends a DIGEST result to the owner's fabric island for comparison. -/
  | dcmp (core : Nat)
  /-- PROMOTE (R258): A tier request promotes an object from its home tier, or joins, defers or answers HIT. -/
  | promote (src : Nat)
  /-- EVICT (R258): A tier request evicts an unpinned resident object, writing back dirty pages. -/
  | evict (src : Nat)
  /-- PIN (R258): A tier request raises the object's pin count. -/
  | pin (src : Nat)
  /-- UNPIN (R258): A tier request lowers the object's pin count. -/
  | unpin (src : Nat)
  /-- FLUSH (R258): A tier request starts cleaning the dirty pages of a resident object. -/
  | flush (src : Nat)
  /-- PROMOTE_PAGE_DONE (R260): A promoted page is stored in its frame; after the last page the object is RESIDENT. -/
  | promotePageDone (obj : Nat) (lines : List (Nat × Nat × Nat × List Nat))
  /-- STAGING_FRAME_FREE (R262): With a staging frame free, the next dirty page is fenced and copied into it. -/
  | stagingFrameFree (obj : Nat)
  /-- STAGING_COPY_DONE (R262): The staging copy ends; the frame turns clean, the fence lifts and the page is programmed to
  the home tier. -/
  | stagingCopyDone (obj : Nat)
  /-- FLASH_PROGRAM_DONE (R263): A stripe unit's program completes, or fails and is retried in another block. -/
  | flashProgramDone (obj page unit block : Nat) (ok : Bool)
  /-- STREAM_FILL_START (R265): The tier manager starts filling the next instance once RELEASE_TMB allows it. -/
  | streamFillStart (win : Nat)
  /-- STREAM_FILL_DONE (R265): The last page of an instance is stored and FILL_TMB is signalled in every reader. -/
  | streamFillDone (win : Nat) (lines : List (Nat × Nat × Nat × Nat × List Nat))
  /-- SUBSTITUTE (R267): A FILL_TMB wait lasting SUBST_WAIT makes the reader substitute the shadow copy. -/
  | substitute (core stream waited : Nat)
  /-- SPACE2_DMA_WRITE (R254): A DMA write into tier-virtual space loads a COLD object's backing store, or is discarded and
  counted. -/
  | space2DmaWrite (obj byte tag : Nat) (data : List Nat)
  /-- FLASH_UNIT_READ (R274): A stripe unit arrives from flash and is decoded by the hard-decision LDPC decoder. -/
  | flashUnitRead (dst obj page unit corrected : Nat) (failed : List Nat)
  /-- READ_RETRY (R274): A reread at the next read-retry level completes and is decoded again. -/
  | readRetry (dst obj page unit corrected : Nat) (failed : List Nat)
  /-- RELOCATE (R275): A block needing retry level 4 or higher is rewritten into a fresh block. -/
  | relocate (block dst2 : Nat)
  /-- STATIC_WEAR_LEVEL (R277): A cold block's data is moved to a worn block. -/
  | staticWearLevel (block dst2 : Nat)
  /-- READ_DISTURB_RELOCATE (R277): A block read 500,000 times since erase is relocated. -/
  | readDisturbRelocate (block dst2 : Nat)
  /-- FLASH_FIRST_INIT (R483): Hub firmware reads factory bad-block marks and builds the bad-block table, channel by channel.
  -/
  | flashFirstInit (channel : Nat) (luns : List (Nat × Nat × Nat × Nat)) (bad : List Nat)
  /-- TIER_QUERY (R279): A write of OBJ latches the object's state for the following reads. -/
  | tierQuery (obj : Nat)
  /-- LANE_FAIL (R312): A port fails an UP lane on low OMA, lost lock, frame or symbol counts, or replay budget. -/
  | laneFail (port lane cause reading : Nat)
  /-- LANESET (R312): A LANESET control flit changes the link's lane set from a named SEQ. -/
  | laneset (port lane mask : Nat)
  /-- LANE_RETRAIN (R312): Every PRG_RETRAIN.MS a FAILED lane attempts retraining. -/
  | laneRetrain (port lane : Nat)
  /-- LANE_TRAINING_DONE (R313): Training exchanges identity and digest; a matching lane comes UP, a mismatch stays in
  TRAINING. -/
  | laneTrainingDone (port lane pkg pport mode digest : Nat)
  /-- FLIT_RECEIVE (R317): A receiver checks a flit's CRC and SEQ, accepts or discards it, and reads ACK and credits. -/
  | flitReceive (port lane : Nat) (bytes : List Nat)
  /-- NAK (R317): A received NAK makes the transmitter resend every unacknowledged flit in order. -/
  | nak (port lane seq : Nat)
  /-- ACK_TIMEOUT (R317): ACK not advancing for 2 µs with flits outstanding starts a replay. -/
  | ackTimeout (port lane : Nat)
  /-- REPLAY_BUDGET_EXPIRY (R317): An episode lasting PRG_REPLAY_BUDGET, or a flit sent eight times, fails lanes and restarts
  the episode. -/
  | replayBudgetExpiry (port lane : Nat)
  /-- LINK_DOWN (R321): On link loss, credits are resynchronised by the link form. -/
  | linkDown (port lane : Nat)
  /-- CREDIT_RETURN_SEND (R319): Gathered credit returns are sent within 200 ns. -/
  | creditReturnSend (port lane : Nat)
  /-- RESYNC (R321): A receiver's RESYNC stops the sender's DATA on the keyway until acknowledgement. -/
  | resync (port kw epoch : Nat)
  /-- RESYNC_ACK (R321): The sender reports the credits it holds; the receiver grants afresh. -/
  | resyncAck (port kw epoch credits : Nat)
  /-- RESYNC_SET (R321): The sender takes the granted credit count and resumes. -/
  | resyncSet (port kw epoch credits : Nat)
  /-- RESET (R322): A keyway reset discards partial messages, completes transactions with RESET and restarts KSEQ. -/
  | reset (port kw epoch : Nat)
  /-- RESET_ACK (R322): RESET_ACK completes a keyway reset. -/
  | resetAck (port kw epoch : Nat)
  /-- KW_NAK (R332): A KW_NAK completes or reissues the named transaction according to its code. -/
  | kwNak (port kw code txn gen : Nat)
  /-- READ_REQ (R324): A home reads the requested lines, or a control-register slot, and answers READ_RSP. -/
  | readReq (src : Nat)
  /-- READ_RSP (R324): The first response to a transaction is taken and later ones discarded. -/
  | readRsp (src : Nat)
  /-- WRITE (R324): A home stores lines with their tag and POISON, or writes a control-register slot, then answers WRITE_ACK.
  -/
  | write (src : Nat)
  /-- WRITE_ACK (R325): A write acknowledgement completes its transaction. -/
  | writeAck (src : Nat)
  /-- SIGNAL (R324): A SIGNAL message is applied at its target core unless its serial is old, with its path set carried. -/
  | signal (src : Nat)
  /-- SIG_ACK (R324): A signal acknowledgement completes its transaction. -/
  | sigAck (src : Nat)
  /-- RED_PART (R328): A node adds an accepted chunk in tree order, or discards a repeat. -/
  | redPart (src : Nat) (desc : Option Nat) (diffs : Nat)
  /-- RED_ACK (R324): A reduction acknowledgement completes its chunk's transaction. -/
  | redAck (src : Nat)
  /-- FLUSH_REQ (R297): A gateway issues a flush read ordered behind its accepted host-bound writes. -/
  | flushReq (src : Nat)
  /-- FLUSH_READ_DONE (R297): The flush read completes and FLUSH_RSP is returned to the core. -/
  | flushReadDone (serial : Nat)
  /-- FLUSH_RSP (R297): When every flush of a hasp has completed, the hasp writes its flag. -/
  | flushRsp (src : Nat)
  /-- DIGEST_MESSAGE (R245): The owner's fabric island collects digest results and counts the comparison. -/
  | digestMessage (src : Nat)
  /-- DIGEST_ACK (R324): A digest acknowledgement completes DCMP. -/
  | digestAck (src : Nat)
  /-- NORM_MESSAGE (R330): A core stores n2, computes the clip factor and signals NORM_TMB. -/
  | normMessage (src : Nat)
  /-- NORM_ACK (R324): A norm acknowledgement completes its transaction. -/
  | normAck (src : Nat)
  /-- NAK_MESSAGE (R332): A message NAK completes or reissues the transaction according to its code. -/
  | nakMessage (src : Nat)
  /-- TXN_TIMEOUT (R325): A transaction timer expiry reissues the request with GEN+1 or completes it UNREACHABLE. -/
  | txnTimeout (die txn : Nat)
  /-- CTRL_PLANE_SCRUB (R333): Every 32 µs the control-plane copies are compared. -/
  | ctrlPlaneScrub (port : Nat) (causes : List Nat)
  /-- IMAGE_LOAD (R355): A gateway leads an image load: fetch, verify, announce the digest and collect READY. -/
  | imageLoad (head : List Nat) (secs : List (List Nat))
  /-- READY (R355): A package reports READY or a refusal code to the lead. -/
  | ready (report : Option (Nat × Nat)) (lead : Nat) (digest head : List Nat) (secs : List (List Nat))
  /-- SEAL (R355): On SEAL a package writes its sections, loads tables, applies REGLOAD and seals. -/
  | seal (ack : Option Nat) (lead : Nat) (slots : List (Nat × Nat × Machine.SlotDecl)) (sweep : List Nat)
  /-- ABORT (R355): On ABORT every package discards its staged sections. -/
  | abort (code pkg : Nat)
  /-- QUIESCE (R359): The lead stops step jobs and the hubs drain work towards a quiesce point. -/
  | quiesce (order : Nat × Nat)
  /-- QUIET (R359): A package meeting every quiesce condition checks its ledgers and reports QUIET. -/
  | quiet (arrived : Option Nat)
  /-- LEAD_TAKEOVER (R339): After 100 µs without an answer from the lead, the qualifying gateway takes over the lead. -/
  | leadTakeover (announced : Option Nat) (reach others : List Nat)
  /-- HUB_HEARTBEAT (R411): Every 20 µs a hub sends a heartbeat to the lead's hub. -/
  | hubHeartbeat (arrived : Option Nat)
  /-- PACKAGE_LOST (R411): The lead declares a package lost after 100 µs without heartbeats and with every link down. -/
  | packageLost (pkg : Nat) (announced : Bool) (reach : List Nat)
  /-- STAGING_TIMEOUT (R482): A package not answering over staging links within 10 s is reported ABORTED. -/
  | stagingTimeout (pkg : Nat)
  /-- HOST_SQ_TAIL (R368): A doorbell write advances a submission ring's tail and the gateway fetches new jobs. -/
  | hostSqTail (ring value : Nat) (jobs : List Nat)
  /-- HOST_CQ_HEAD (R368): A doorbell write releases completion entries so held entries can be written. -/
  | hostCqHead (ring value : Nat)
  /-- HOST_EVQ_HEAD (R368): A doorbell write releases event entries. -/
  | hostEvqHead (value : Nat)
  /-- STEP (R371): The step gateway checks the step, copies inputs, writes LR and signals step start. -/
  | step
  /-- COPY_IN (R370): A gateway copies host data into device memory with the given tag. -/
  | copyIn
  /-- COPY_OUT (R369): A gateway copies device data to host memory and completes behind the last write. -/
  | copyOut
  /-- HOST_CQ_POST (R372): A domain write makes the gateway write, or forward, a completion entry. -/
  | hostCqPost (ring value : Nat) (subst : Bool)
  /-- STEP_GATEWAY_SELECT (R377): When no STEP job is in progress, the lowest attached gateway becomes step gateway. -/
  | stepGatewaySelect (attached : List Nat) (holder : Option Nat)
  /-- PROBE (R378): A write outstanding for PROBE_US without a read behind it triggers a probe read. -/
  | probe
  /-- DMA_READ_TIMEOUT (R385): A timed-out DMA read is reissued once, then the job completes HOST_TIMEOUT. -/
  | dmaReadTimeout (serial : Nat)
  /-- DETACH (R381): A DETACH command ends the session, marks in-doubt writes torn and spools. -/
  | detach
  /-- ATTACH (R384): A valid ATTACH replays retained data, writes the torn report and held entries, and reattaches. -/
  | attach (epoch : Nat)
  /-- PERST_N (R380): A fundamental reset of the host port detaches the session. -/
  | perstN
  /-- HOT_RESET (R380): A hot reset of the host port detaches the session. -/
  | hotReset
  /-- LINK_DISABLE (R380): Link disable detaches the session. -/
  | linkDisable
  /-- DATA_LINK_DOWN (R380): Loss of the PCIe data link detaches the session. -/
  | dataLinkDown
  /-- BME_CLEAR (R380): Clearing Bus Master Enable detaches the session. -/
  | bmeClear
  /-- FUNCTION_LEVEL_RESET (R380): A Function Level Reset detaches the session. -/
  | functionLevelReset
  /-- HOST_WIN_CFG (R365): A window register write is taken, refused while VALID, or taken freely while DETACHED. -/
  | hostWinCfg (win value : Nat) (cfg : Bool)
  /-- HOST_RING_CFG (R368): A ring base or configuration write is refused while enabled unless it clears ENABLE. -/
  | hostRingCfg (kind ring value : Nat) (base : Bool)
  /-- FAULT_RECORD (R389): A fault record enters the queue, merges or is dropped, and its class's hub action begins. -/
  | faultRecord (remote : List Nat) (lines : List (Nat × Nat × Nat × List Nat))
  /-- DEADBOLT_DARK (R394): Once its lane passes reach their boundaries the core is DARK and the lead orders a restore. -/
  | deadboltDark (core : Nat)
  /-- REFILL_DONE (R403): Refill and re-promotion complete and the adopter loads the save and reports READY. -/
  | refillDone (lost : List Nat) (remote : List (Nat × Nat × Nat × List Nat)) (objs : List Machine.FoundPage)
  /-- START_SAVE (R397): When stream 3 reaches the step-start wait, the core takes its start save and mirror. -/
  | startSave (core : Nat)
  /-- DERIVATION_SAVE (R397): A core that has completed every lane descriptor of the step takes its derivation save. -/
  | derivationSave (core : Nat)
  /-- DERIVATION_POINT (R398): When every working core holds D(s), the lead signals the derivation tumbler everywhere. -/
  | derivationPoint (step : Nat) (ready : List (Nat × List (Nat × Nat)))
  /-- RESTORE (R398): On RESTORE every package stops its units, resets keyways, clears or loads slots and loads saves. -/
  | restore (step gen : Nat) (moves : List (Nat × Nat × Nat))
  /-- RESUME (R398): On RESUME the partition replays from its restore generation. -/
  | resume (ready : List Nat)
  /-- SNAPSHOT_EPOCH (R407): A due epoch write-protects every page of the snapshot set and streaming begins. -/
  | snapshotEpoch (done : List Nat) (loss durable : Option Nat)
  /-- SNAPSHOT_READBACK_DONE (R410): After read-back every core loads S(s) and the verify step starts. -/
  | snapshotReadbackDone (lines : List (Nat × Nat × Nat × Nat × List Nat))
  /-- H1_LOCKSTEP_MISMATCH (R41): H1's comparator raises the fault line and H1 is held in reset. -/
  | h1LockstepMismatch
  /-- H1_RESTART_DONE (R41): H1 restarts from boot flash and gateway submissions resume. -/
  | h1RestartDone
  /-- PROVISION (R423): The ward generates and fuses the identity key and enters Provisioned. -/
  | provision (block : List Nat)
  /-- FIELD_KEYS (R423): The ward fuses owner keys into slots 5–9 and enters Field. -/
  | fieldKeys (block : List Nat)
  /-- RETURN (R423): The ward enters Returned. -/
  | returnPart (block : List Nat)
  /-- RETURN_AUTH (R423): The ward blows the RA fuse, permitting D3. -/
  | returnAuth (block : List Nat)
  /-- REPROVISION (R423): The ward advances the field bank, clears RA and enters Provisioned. -/
  | reprovision (block : List Nat)
  /-- SVN_COMMIT (R428): The ward raises the rollback counters to the running SVNs. -/
  | svnCommit (block : List Nat)
  /-- OPEN_D2 (R432): A signed token opens a D2 debug session with its scope. -/
  | openD2 (block : List Nat)
  /-- OPEN_D3 (R434): The ward clears field keys, unseals and refuses images, and opens the internal chains. -/
  | openD3 (block : List Nat)
  /-- NONCE_REQ (R425): The ward draws a new outstanding nonce and discards the old one. -/
  | nonceReq
  /-- RNG_HEALTH_FAIL (R418): An entropy health failure makes the ward refuse random-bit operations and queue a record. -/
  | rngHealthFail (cause : Nat)
  /-- DEBUG_LEVEL_SET (R431): A write of LEVEL sets D0 or D1, refusing 2 and 3. -/
  | debugLevelSet (level : Nat)
  /-- CLOSE (R432): Closing a D2 session resumes halted cores and clears TOKEN_VALID. -/
  | close
  /-- DEBUG_HALT (R433): A halt stops a core's streams at the freeze point while it stays in Run. -/
  | debugHalt (core : Nat)
  /-- DEBUG_RESUME (R431): The debug port resumes a halted core. -/
  | debugResume (core : Nat)
  /-- DEBUG_STEP (R431): The debug port single-steps a halted core's sequencer by one entry. -/
  | debugStep (core : Nat)
  /-- DEBUG_REG_WRITE (R433): The debug port writes a halted core's registers or stage memory under the access codes. -/
  | debugRegWrite (core off value : Nat) (stage : Bool)
  /-- DEBUG_VAULT_READ (R431): The debug port reads vault lines as SCOPE permits. -/
  | debugVaultRead (vault line : Nat)
  /-- DEBUG_VAULT_WRITE (R433): The debug port writes vault lines with the halted core's tag and sets TAINT. -/
  | debugVaultWrite (vault line : Nat) (data : List Nat)
  /-- BYPASS (R435): The boundary-scan BYPASS instruction. -/
  | bypass (tdi : List Nat)
  /-- IDCODE (R435): The boundary-scan IDCODE instruction. -/
  | idcode (tdi : List Nat)
  /-- SAMPLE_PRELOAD (R435): The boundary-scan SAMPLE/PRELOAD instruction. -/
  | samplePreload (pins tdi : List Nat)
  /-- EXTEST (R435): The boundary-scan EXTEST instruction, in Standby only. -/
  | extest (pins tdi : List Nat)
  /-- INTERNAL_CHAIN (R435): An internal-chain scan instruction, in D3 only. -/
  | internalChain (tdi : List Nat)
  /-- GET_VERSION (R429): SPDM GET_VERSION request. -/
  | getVersion (p : Nat) (req : List Nat)
  /-- GET_CAPABILITIES (R429): SPDM GET_CAPABILITIES request. -/
  | getCapabilities (p : Nat) (req : List Nat)
  /-- NEGOTIATE_ALGORITHMS (R429): SPDM NEGOTIATE_ALGORITHMS request. -/
  | negotiateAlgorithms (p : Nat) (req : List Nat)
  /-- GET_DIGESTS (R429): SPDM GET_DIGESTS request. -/
  | getDigests (p : Nat) (req : List Nat)
  /-- GET_CERTIFICATE (R429): SPDM GET_CERTIFICATE request for slot 0. -/
  | getCertificate (p : Nat) (req : List Nat)
  /-- CHALLENGE (R429): SPDM CHALLENGE answered with a ward-signed CHALLENGE_AUTH. -/
  | challenge (p : Nat) (req : List Nat)
  /-- GET_MEASUREMENTS (R430): SPDM GET_MEASUREMENTS returns the measurement blocks. -/
  | getMeasurements (p : Nat) (req : List Nat)
  /-- SPDM_BUSY_TIMEOUT (R429): A request waiting 100 ms behind another path's request is answered Busy. -/
  | spdmBusyTimeout (p : Nat)
  /-- POWER_RUN (R437): A request to enter Run, from Standby or Hold. -/
  | powerRun
  /-- POWER_HOLD (R438): A request to enter Hold closes D2 and waits for a quiesce point. -/
  | powerHold
  /-- HOLD_ENTRY (R438): At the quiesce point cores go Dark, ports keep alive and vaults self-refresh. -/
  | holdEntry
  /-- POWER_STANDBY (R439): A request to enter Standby discards vault contents, or is refused without DISCARD. -/
  | powerStandby (discard : Bool)
  /-- POWER_OFF (R437): A request to go from Standby to Off. -/
  | powerOff
  /-- POWER_GOOD (R446): Input and PWREN holding for 2 ms declare power-good, sample straps and start the boot chain. -/
  | powerGood (input : Nat × Bool)
  /-- PWREN_LOW (R447): PWREN falling stops the converters and the package is Off. -/
  | pwrenLow
  /-- UNDER_VOLTAGE (R447): Input below the falling lockout turns the package Off. -/
  | underVoltage
  /-- OVER_VOLTAGE (R447): Input above the over-voltage shutdown for 10 µs turns the package Off. -/
  | overVoltage
  /-- BROWNOUT (R447): Input below 45.0 V for 20 µs lowers every die pool to 75%. -/
  | brownout (mv4 : Nat)
  /-- BROWNOUT_END (R447): Input above 45.5 V for 1 ms restores the die pools. -/
  | brownoutEnd
  /-- CONVERTER_FAULT (R449): A converter leaving its limits disconnects itself and the controller acts by converters left. -/
  | converterFault (conv cause : Nat)
  /-- GRANT_REQUEST (R451): A unit's grant request is served by its die pool in arrival order. -/
  | grantRequest (island units : Nat)
  /-- POWER_SAMPLE (R452): Every 1 µs the controller samples input power and enforces the peak and sustained limits. -/
  | powerSample (mv4 centiamp watt10 watt1s cut : Nat)
  /-- THROTTLE_LINE (R452): A converter over 13 A asserts the throttle line and every core retunes to 0.6 GHz. -/
  | throttleLine (conv centiamp cut : Nat)
  /-- THERMAL_SAMPLE (R454): Every 1 ms die temperatures are reported and checked against throttle and trip limits. -/
  | thermalSample (dies lid : List Nat) (others : List (Nat × Nat × Nat))
  /-- RETUNE (R28): A commanded frequency stops an island's clock, retunes within 150 ns and restarts it. -/
  | retune (island mhz : Nat)
  /-- REFCLK_LOSS (R463): REFCLK_SYS lost fails every photonic lane, stops flash and queues a PACKAGE record. -/
  | refclkLoss (offset : Nat)
  /-- PWR_LIMIT (R468): A PWR_LIMIT write is clamped to range and sets the input limits. -/
  | pwrLimit (value : Nat)
  /-- WARM_RESET (R484): A keyed WARM command detaches sessions, closes D2, self-refreshes vaults and reboots. -/
  | warmReset (key : Nat)
  /-- COLD_RESET (R470): A keyed COLD command resets the whole package and reruns the boot chain. -/
  | coldReset (key : Nat)
  /-- MCTP_RESET (R470): The MCTP reset command resets the package cold, or warm with its option. -/
  | mctpReset (warm : Bool)
  /-- BOOT_STAGE (R476): A stage of the boot chain from power-good to Standby completes. -/
  | bootStage (feed : Nat) (sfdpBad : Bool)
  /-- BRINGUP_STAGE (R479): A stage of the Standby-to-Run bring-up completes. -/
  | bringupStage (bad : List (Nat × Nat)) (vaults : List (Nat × Nat) × List (Nat × Nat × Nat))
  /-- RELAY_GO (R498): The gateway relays a register access to another package and stores its result. -/
  | relayGo (write : Bool)
  /-- TS_CORR_GO (R500): H4 records T0 and sends a sample request to the named island. -/
  | tsCorrGo (island : Nat)
  /-- TS_CORR_SAMPLE (R500): The island's count arrives; H4 records T1 and sets VALID. -/
  | tsCorrSample (count : Nat)
  /-- TLM_CORRELATION (R500): Every CORR_US the hub repeats the correlation of every island. -/
  | tlmCorrelation (counts : List Nat)
  /-- CLK_MEAS_WINDOW (R501): Every 1 ms the hub reports each island's mean clock frequency. -/
  | clkMeasWindow (means : List Nat)
  /-- SET_ENDPOINT_ID (R503): MCTP control command assigning the endpoint ID. -/
  | setEndpointId (b op eid : Nat)
  /-- GET_ENDPOINT_ID (R503): MCTP control command returning the endpoint ID. -/
  | getEndpointId (b : Nat)
  /-- GET_MCTP_VERSION_SUPPORT (R503): MCTP control command returning version support. -/
  | getMctpVersionSupport (b typ : Nat)
  /-- GET_MESSAGE_TYPE_SUPPORT (R503): MCTP control command returning supported message types. -/
  | getMessageTypeSupport (b : Nat)
  /-- GET_VENDOR_DEFINED_MSG_SUPPORT (R503): MCTP control command returning vendor-defined message support. -/
  | getVendorDefinedMsgSupport (b sel : Nat)
  /-- REG_READ (R504): Vendor-defined command reading a register slot, locally or as a relay. -/
  | regRead (b addr : Nat)
  /-- REG_WRITE (R504): Vendor-defined command writing a register slot, locally or as a relay. -/
  | regWrite (b addr value : Nat)
  /-- WARD_SUBMIT (R504): Vendor-defined command submitting a ward command block. -/
  | wardSubmit (b : Nat) (block : List Nat)
  /-- WARD_RESULT (R504): Vendor-defined command returning the ward mailbox status and result. -/
  | wardResult (b : Nat)
  /-- NONCE (R504): Vendor-defined command returning a new nonce. -/
  | nonce (b : Nat)
  /-- RECOVERY_WRITE (R504): Vendor-defined command writing part of a firmware set in recovery. -/
  | recoveryWrite (b off : Nat) (data : List Nat)
  /-- GET_TID (R505): PLDM GetTID command. -/
  | getTid (b : Nat)
  /-- GET_PLDM_VERSION (R505): PLDM GetPLDMVersion command. -/
  | getPldmVersion (b typ : Nat)
  /-- GET_PLDM_TYPES (R505): PLDM GetPLDMTypes command. -/
  | getPldmTypes (b : Nat)
  /-- GET_PLDM_COMMANDS (R505): PLDM GetPLDMCommands command. -/
  | getPldmCommands (b typ : Nat)
  /-- GET_PDR_REPOSITORY_INFO (R505): PLDM GetPDRRepositoryInfo command. -/
  | getPdrRepositoryInfo (b : Nat)
  /-- GET_PDR (R505): PLDM GetPDR command. -/
  | getPdr (b handle : Nat)
  /-- GET_SENSOR_READING (R506): PLDM GetSensorReading returns a numeric sensor's latest value. -/
  | getSensorReading (b sensor : Nat)
  /-- GET_STATE_SENSOR_READINGS (R507): PLDM GetStateSensorReadings returns state sensor values. -/
  | getStateSensorReadings (b sensor : Nat)
  /-- SET_NUMERIC_SENSOR_ENABLE (R505): PLDM SetNumericSensorEnable command. -/
  | setNumericSensorEnable (b sensor op : Nat)
  /-- SET_EVENT_RECEIVER (R508): PLDM SetEventReceiver enables platform event messages. -/
  | setEventReceiver (b enable eid : Nat)
  /-- RC_READ (R19): A read covering the low half of an RC register returns and clears it. -/
  | rcRead (path off : Nat)
  /-- HALF_READ_LATCH (R19): A 4-byte read of a 64-bit register's low half latches the high half. -/
  | halfReadLatch (path off : Nat)
  /-- FLTQ_REC_LATCH (R519): A read of slot 0 of a fault-queue entry latches the whole record. -/
  | fltqRecLatch (path entry slot : Nat)
  /-- CNS_RING_TAIL (R76): A write of the census ring tail frees records, applied alongside a same-cycle record write. -/
  | cnsRingTail (core value : Nat)
  /-- HUB_VLOG_TAIL (R521): A write of the violation log tail frees entries. -/
  | hubVlogTail (value : Nat)
  /-- SWEEP (R523): H4 copies every counter and census total into a buffer, clearing them if asked. -/
  | sweep (clear : Bool)
  /-- VLOG_ENTRY_CLOSE (R520): When an entry's 1 ms ends, H4 writes it to the log ring or drops it. -/
  | vlogEntryClose (counter island : Nat)
  /-- REGISTER_WRITE (R20): A register write without behaviour of its own is taken field by field, counting refused changes.
  -/
  | registerWrite (path off bytes value : Nat)
  /-- HASP (R297): A hasp descriptor whose waits are satisfied sends a flush to each gateway in its path set, clears the bits,
  and waits to write its flag. -/
  | hasp (core : Nat)
  /-- CORE_PARITY (R391): A parity error in a core's sequencer, stream or register state is detected by the core, which queues
  a CORE_PARITY record within 1 µs. -/
  | coreParity (core cause : Nat)
  /-- CORE_RAIL (R391): The power controller finds a core rail or island clock out of limits and queues a CORE_RAIL record
  within 2 µs. -/
  | coreRail (core cause measured : Nat)
  /-- WARD_LOCKSTEP (R40): The ward's lockstep comparison disagrees; the disagreement is corrected, counted in
  WARD_LOCKSTEP_CORR_CNT and reported as a masked record. -/
  | wardLockstep
  /-- FRAME_RECEIVE (R309): A lane receiver aligns on a 10,880-bit frame, decodes both RS codewords and passes five flits on,
  or discards them all as uncorrectable and counts the frame. -/
  | frameReceive (port lane corrected : Nat) (flits : List (List Nat)) (uncorrectable : Bool)
  /-- PROBE_READ_DONE (R378): A probe read completes, so every earlier host-bound write is delivered and its retained spool
  copy is freed. -/
  | probeReadDone (serial : Nat)
  /-- DMA_READ_COMPLETION (R385): A PCIe completion for a gateway's DMA read arrives, and its data is stored, or it carries
  UR, CA or poison and the job ends HOST_ABORT or HOST_POISON. -/
  | dmaReadCompletion (serial status : Nat) (data : List Nat)
  /-- BLOCK_ERASE_DONE (R276): A flash block erase completes; on a failure reported by READ STATUS ENHANCED the block is
  retired and its valid units are rewritten from the block into a spare. -/
  | blockEraseDone (block dst2 : Nat) (ok : Bool)
  /-- PLDM_EVENT_ACK (R508): The event receiver acknowledges a PlatformEventMessage; the hub drops the event from its 32
  pending and releases SMB_ALERT_N when none remain. -/
  | pldmEventAck (n : Nat)
  deriving DecidableEq, Repr

end Sys2Proof
end

