-- ==== Sys2Proof/Decode.lean ====
section
/-! DEFINITION. Decoding of the command table's words. -/

namespace Sys2Proof

/-- The command that a word spells by the table's bits. No row of the table gives bits, so no word spells one (log entry 1). -/
def decodeTableWord (_nbits _w : Nat) : Option Instr := none

end Sys2Proof
end

