-- ==== Sys2Proof/Word.lean ====
section
/-! DEFINITION. The word types of the KX1024 and their plainest arithmetic (R7, R11). -/

namespace Sys2Proof

/-- A byte of memory. -/
abbrev Byte := BitVec 8
/-- A 64-bit register slot (R492). -/
abbrev Slot64 := BitVec 64
/-- The 48-bit counts of tumblers and step counters. -/
abbrev Count48 := BitVec 48
/-- A binary32 pattern. -/
abbrev F32 := BitVec 32

/-- The field `[hi:lo]` of a natural number read as a bit pattern (R7). -/
def bitsOf (n lo width : Nat) : Nat := n / 2 ^ lo % 2 ^ width

/-- `n` with the field of `width` bits at `lo` replaced by the low bits of `v`. -/
def setBits (n lo width v : Nat) : Nat :=
  n - bitsOf n lo width * 2 ^ lo + v % 2 ^ width * 2 ^ lo

/-- Bit `i` of `n`. -/
def bitAt (n i : Nat) : Bool := n.testBit i

/-- `⌈a / b⌉`. -/
def ceilDiv (a b : Nat) : Nat := (a + b - 1) / b

/-- Little-endian value of a list of bytes, byte 0 first (R11). -/
def leNat : List Nat → Nat
  | [] => 0
  | b :: bs => b + 256 * leNat bs

/-- The `n` little-endian bytes of a value, byte 0 first (R11). -/
def leBytes : Nat → Nat → List Nat
  | 0, _ => []
  | n + 1, v => v % 256 :: leBytes n (v / 256)

/-- The `n` big-endian bytes of a value (used where the spec departs from R11: R344). -/
def beBytes (n v : Nat) : List Nat := (leBytes n v).reverse

/-- Big-endian value of a list of bytes. -/
def beNat (bs : List Nat) : Nat := leNat bs.reverse

/-- Two's-complement reading of a `w`-bit field. -/
def signExt (w v : Nat) : Int := if v < 2 ^ (w - 1) then (v : Int) else (v : Int) - 2 ^ w

end Sys2Proof
end

