-- ==== Sys2Proof/Machine/Crypto.lean ====
section
/-! DEFINITION. The check codes and the cryptography of the package: CRC-32C (R165), SHA-256 (R215, R344) and ECDSA over
P-256 (R427). All functions are total and structurally recursive. -/

namespace Sys2Proof.Machine

/-! ## CRC-32C -/

/-- Eight shift steps of the reflected Castagnoli polynomial (R165). -/
def crcBits : Nat → Nat → Nat
  | 0, c => c
  | n + 1, c => crcBits n (if c % 2 = 1 then (c / 2) ^^^ 0x82F63B78 else c / 2)

/-- The running CRC over a list of bytes. -/
def crcStep (c : Nat) : List Nat → Nat
  | [] => c
  | b :: bs => crcStep (crcBits 8 (c ^^^ (b % 256))) bs

/-- CRC-32C of a list of bytes (R165). -/
def crc32c (bs : List Nat) : Nat := crcStep 0xFFFFFFFF bs ^^^ 0xFFFFFFFF

/-- The CRC of a line: its data bytes, then the two bytes of its tag (R164, R165). -/
def lineCrc (data : List Nat) (tag : Nat) : Nat := crc32c (data ++ [tag % 256, tag / 256 % 256])

/-! ## SHA-256 -/

def m32 : Nat := 2 ^ 32

/-- Rotate a 32-bit word right. -/
def rotr (x n : Nat) : Nat := (x / 2 ^ n + x * 2 ^ (32 - n)) % m32

def shaK : List Nat :=
  [0x428a2f98, 0x71374491, 0xb5c0fbcf, 0xe9b5dba5, 0x3956c25b, 0x59f111f1, 0x923f82a4, 0xab1c5ed5]
    ++ [0xd807aa98, 0x12835b01, 0x243185be, 0x550c7dc3, 0x72be5d74, 0x80deb1fe, 0x9bdc06a7, 0xc19bf174]
    ++ [0xe49b69c1, 0xefbe4786, 0x0fc19dc6, 0x240ca1cc, 0x2de92c6f, 0x4a7484aa, 0x5cb0a9dc, 0x76f988da]
    ++ [0x983e5152, 0xa831c66d, 0xb00327c8, 0xbf597fc7, 0xc6e00bf3, 0xd5a79147, 0x06ca6351, 0x14292967]
    ++ [0x27b70a85, 0x2e1b2138, 0x4d2c6dfc, 0x53380d13, 0x650a7354, 0x766a0abb, 0x81c2c92e, 0x92722c85]
    ++ [0xa2bfe8a1, 0xa81a664b, 0xc24b8b70, 0xc76c51a3, 0xd192e819, 0xd6990624, 0xf40e3585, 0x106aa070]
    ++ [0x19a4c116, 0x1e376c08, 0x2748774c, 0x34b0bcb5, 0x391c0cb3, 0x4ed8aa4a, 0x5b9cca4f, 0x682e6ff3]
    ++ [0x748f82ee, 0x78a5636f, 0x84c87814, 0x8cc70208, 0x90befffa, 0xa4506ceb, 0xbef9a3f7, 0xc67178f2]

def shaH0 : List Nat :=
  [0x6a09e667, 0xbb67ae85, 0x3c6ef372, 0xa54ff53a, 0x510e527f, 0x9b05688c, 0x1f83d9ab, 0x5be0cd19]

/-- The message schedule, newest word first: extend the list by `n` words. -/
def shaExtend : Nat → List Nat → List Nat
  | 0, w => w
  | n + 1, w =>
    let a := w.getD 14 0
    let b := w.getD 1 0
    let s0 := rotr a 7 ^^^ rotr a 18 ^^^ (a / 2 ^ 3)
    let s1 := rotr b 17 ^^^ rotr b 19 ^^^ (b / 2 ^ 10)
    shaExtend n ((w.getD 15 0 + s0 + w.getD 6 0 + s1) % m32 :: w)

/-- One round over the eight working words. -/
def shaRound (v : List Nat) (k w : Nat) : List Nat :=
  let a := v.getD 0 0
  let e := v.getD 4 0
  let s1 := rotr e 6 ^^^ rotr e 11 ^^^ rotr e 25
  let ch := (e &&& v.getD 5 0) ^^^ ((m32 - 1 - e) &&& v.getD 6 0)
  let t1 := (v.getD 7 0 + s1 + ch + k + w) % m32
  let s0 := rotr a 2 ^^^ rotr a 13 ^^^ rotr a 22
  let mj := (a &&& v.getD 1 0) ^^^ (a &&& v.getD 2 0) ^^^ (v.getD 1 0 &&& v.getD 2 0)
  let t2 := (s0 + mj) % m32
  [(t1 + t2) % m32, a, v.getD 1 0, v.getD 2 0, (v.getD 3 0 + t1) % m32, e, v.getD 5 0, v.getD 6 0]

def shaRounds : List Nat → List Nat → List Nat → List Nat
  | v, k :: ks, w :: ws => shaRounds (shaRound v k w) ks ws
  | v, _, _ => v

/-- Big-endian words of a list of bytes. -/
def beWords : List Nat → List Nat
  | a :: b :: c :: d :: r => (((a * 256 + b) * 256 + c) * 256 + d) :: beWords r
  | _ => []

/-- The compression function on one block of 64 bytes. -/
def shaBlock (h block : List Nat) : List Nat :=
  let ws := (shaExtend 48 (beWords block).reverse).reverse
  (h.zip (shaRounds h shaK ws)).map (fun p => (p.1 + p.2) % m32)

/-- The compression over `n` blocks. -/
def shaBlocks : Nat → List Nat → List Nat → List Nat
  | 0, h, _ => h
  | n + 1, h, bs => shaBlocks n (shaBlock h (bs.take 64)) (bs.drop 64)

/-- SHA-256 of a list of bytes, as its 32 bytes. -/
def sha256 (bs : List Nat) : List Nat :=
  let n := bs.length
  let pad := (119 - n % 64) % 64
  let m := bs ++ [0x80] ++ List.replicate pad 0 ++ beBytes 8 (8 * n)
  (shaBlocks (m.length / 64) shaH0 m).flatMap (beBytes 4)

/-! ## P-256 -/

def p256P : Nat := 0xffffffff00000001000000000000000000000000ffffffffffffffffffffffff
def p256N : Nat := 0xffffffff00000000ffffffffffffffffbce6faada7179e84f3b9cac2fc632551
def p256B : Nat := 0x5ac635d8aa3a93e7b3ebbd55769886bc651d06b0cc53b0f63bce3c3e27d2604b
def p256G : Nat × Nat :=
  (0x6b17d1f2e12c4247f8bce6e563a440f277037d812deb33a0f4a13945d898c296,
    0x4fe342e2fe1a7f9b8ee7eb4a7c0f9e162bce33576b315ececbb6406837bf51f5)

/-- `b ^ e mod m` by `n` squarings. -/
def powMod (m : Nat) : Nat → Nat → Nat → Nat → Nat
  | 0, _, _, r => r
  | n + 1, b, e, r => powMod m n (b * b % m) (e / 2) (if e % 2 = 1 then r * b % m else r)

/-- The inverse modulo a prime (Fermat). -/
def invMod (m a : Nat) : Nat := powMod m 256 (a % m) (m - 2) 1

/-- A point of P-256; none is the point at infinity. -/
abbrev EcPoint := Option (Nat × Nat)

/-- Addition of two points. -/
def ecAdd : EcPoint → EcPoint → EcPoint
  | none, q => q
  | p, none => p
  | some (x1, y1), some (x2, y2) =>
    if x1 = x2 ∧ (y1 + y2) % p256P = 0 then none
    else
      let l := if x1 = x2 then (3 * x1 * x1 + (p256P - 3)) % p256P * invMod p256P (2 * y1 % p256P) % p256P
        else (y2 + p256P - y1) % p256P * invMod p256P ((x2 + p256P - x1) % p256P) % p256P
      let x3 := (l * l + 2 * p256P - x1 - x2) % p256P
      some (x3, (l * (x1 + p256P - x3) + p256P - y1) % p256P)

/-- `k` times a point, over the low `n` bits of `k`. -/
def ecMul : Nat → Nat → EcPoint → EcPoint → EcPoint
  | 0, _, _, r => r
  | n + 1, k, p, r => ecMul n (k / 2) (ecAdd p p) (if k % 2 = 1 then ecAdd r p else r)

/-- Is a pair of coordinates a point of the curve. -/
def onCurve (x y : Nat) : Bool :=
  decide (x < p256P) && decide (y < p256P)
    && decide (y * y % p256P = (x * x * x + (p256P - 3) * x + p256B) % p256P)

/-- ECDSA verification: public key, message digest as a number, signature (R427). -/
def ecdsaVerify (x y h r s : Nat) : Bool :=
  onCurve x y && decide (0 < r) && decide (r < p256N) && decide (0 < s) && decide (s < p256N)
    && (let w := invMod p256N s
        match ecAdd (ecMul 256 (h * w % p256N) (some p256G) none) (ecMul 256 (r * w % p256N) (some (x, y)) none) with
        | none => false
        | some (v, _) => decide (v % p256N = r))

/-- ECDSA signature with private key `d` and secret `k`. -/
def ecdsaSign (d k h : Nat) : Nat × Nat :=
  match ecMul 256 (k % p256N) (some p256G) none with
  | none => (0, 0)
  | some (x, _) => (x % p256N, invMod p256N k * (h + x % p256N * d) % p256N)

end Sys2Proof.Machine
end

