-- ==== Sys2Proof/Config.lean ====
section
/-! DEFINITION. What the spec leaves open or an implementation fixes: the free values of the model. Each is opaque,
so no proof can see what it is (log entry 2). -/

namespace Sys2Proof.Config

/-- Result bits of the vector engine's transcendental functions where R140 and R141 state only an error bound:
the function's code and the FP32 operand give an FP32 pattern. Read through `Num.ofF32`. -/
opaque transcend : Nat → Nat → Nat

/-- Bits of the `n`th random draw of the ward's generator (R418): nonces, keys and signature secrets. -/
opaque randomBits : Nat → Nat

/-- The stored element code of an element of an infinity block or a NaN block, which R62 and R49 do not give. It is a function
of the format code, TENSOR_ID, the element's logical index, the block's values as written out (sign, magnitude, exponent) and the
element's place among them, so the same product stores the same bits again (R90). -/
opaque blockCode : (fmt tensorId index : Nat) → List (Bool × Nat × Int) → (place : Nat) → Nat

/-- Bytes of a free answer that the spec does not lay out: a kind of answer, the serial of the draw, a byte index. -/
opaque freeByte : Nat → Nat → Nat → Nat

/-- A free choice among alternatives that the spec leaves open: a kind of choice and the serial of the draw. -/
opaque freeChoice : Nat → Nat → Nat

/-- The micro-batch count that an image declares (R241, R242): the spec does not say where the image holds it. The argument is the
image's header. -/
opaque microBatches : Nat → Nat

/-- What accumulators A0 to A3 of a bank lane's units hold after a compute phase, which R190 does not say: the serial of the draw. -/
opaque laneAcc : Nat → BitVec 32

/-- The Vymal public keys that wafer test writes into keyring slots 1 to 4 (R419), x then y as one number: the spec does not
give them. -/
opaque vymalKey : Nat → Nat

/-- The bytes of a trace event (R431, R502), whose layout no file of the spec gives: the island, the kind of event, the serial of the
draw. -/
opaque traceEvent : Nat → Nat → Nat → List Nat

/-- Share of the load limit that a die pool gets for a sustained limit in W below the reset value (R451): limit and die. -/
opaque poolShare : Nat → Nat → Nat

/-- Enables of the PCI Express Device Control register (R376), which the host sets by configuration accesses that the spec leaves to PCI
Express: Relaxed Ordering (0), ID-Based Ordering (1); the hub time. -/
opaque devCtl : Nat → Nat → Bool

/-- What a monitor of the photonics reads when nothing has been reported of it (R335, R336): the receive OMA of a lane of a port
(0), or the laser input of a wavelength of an engine (1); its number, 8 × port or engine + lane, and the hub time of the reading. -/
opaque optic : Nat → Nat → Nat → Nat

end Sys2Proof.Config
end

