-- ==== Sys2Proof/Machine/Num.lean ====
section
/-! DEFINITION. Exact numbers, the one rounding function, and the arithmetic of FP32 and ES40 (R44 to R60, R66, R67).
A finite number is kept exactly as a sign, a magnitude and a power of two. -/

namespace Sys2Proof.Machine

/-- A number as the units see it: NaN without payload (R49), an infinity, or `(-1)^s * m * 2^e`. -/
inductive Num where
  | nan
  | inf (s : Bool)
  | fin (s : Bool) (m : Nat) (e : Int)
  deriving DecidableEq, Repr

namespace Num

/-- +0. -/
def zero : Num := .fin false 0 0
/-- 1. -/
def one : Num := .fin false 1 0

/-- The sign of a number; a NaN has none. -/
def sign : Num → Bool
  | .nan => false
  | .inf s => s
  | .fin s _ _ => s

def isNan : Num → Bool
  | .nan => true
  | _ => false
def isInf : Num → Bool
  | .inf _ => true
  | _ => false
def isFin : Num → Bool
  | .fin _ _ _ => true
  | _ => false
def isZero : Num → Bool
  | .fin _ 0 _ => true
  | _ => false
/-- Finite and not zero. -/
def isFinNz (x : Num) : Bool := x.isFin && !x.isZero

/-- Sign, magnitude and exponent of a number as plain data; an infinity has magnitude 0 and exponent 1, a NaN exponent 2. -/
def parts : Num → Bool × Nat × Int
  | .nan => (false, 0, 2)
  | .inf s => (s, 0, 1)
  | .fin s m e => (s, m, if m = 0 then 0 else e)

/-- The number with its sign set. -/
def withSign (s : Bool) : Num → Num
  | .nan => .nan
  | .inf _ => .inf s
  | .fin _ m e => .fin s m e

def neg : Num → Num
  | .nan => .nan
  | .inf s => .inf (!s)
  | .fin s m e => .fin (!s) m e

def abs : Num → Num := withSign false

/-- Number of bits of a magnitude. -/
def bitLen (m : Nat) : Nat := if m = 0 then 0 else m.log2 + 1

/-- `⌊log2 |x|⌋` of a finite nonzero number. -/
def topExp (m : Nat) (e : Int) : Int := e + (bitLen m : Int) - 1

/-- Compare two magnitudes `m1 * 2^e1` and `m2 * 2^e2` exactly: is the first below the second. -/
def magLt (m1 : Nat) (e1 : Int) (m2 : Nat) (e2 : Int) : Bool :=
  let b := min e1 e2
  decide (m1 * 2 ^ (e1 - b).toNat < m2 * 2 ^ (e2 - b).toNat)

/-- Exact order of two numbers that are not NaN: `x < y` (the two zeros are equal). -/
def lt : Num → Num → Bool
  | .nan, _ => false
  | _, .nan => false
  | .inf s, .inf t => s && !t
  | .inf s, .fin _ _ _ => s
  | .fin _ _ _, .inf t => !t
  | .fin s m e, .fin t n f =>
    if m = 0 ∧ n = 0 then false
    else if m = 0 then !t
    else if n = 0 then s
    else if s ≠ t then s
    else if s then magLt n f m e else magLt m e n f

/-- Exact equality of values; a NaN equals nothing. -/
def eqv (x y : Num) : Bool := !x.isNan && !y.isNan && !lt x y && !lt y x

/-- Multiply by a power of two, exactly. -/
def scale2 (k : Int) : Num → Num
  | .fin s m e => .fin s m (e + k)
  | x => x

/-- The exact product (R50: ∞ × 0 is NaN). -/
def mulExact : Num → Num → Num
  | .nan, _ => .nan
  | _, .nan => .nan
  | .inf s, .inf t => .inf (s != t)
  | .inf s, .fin t n _ => if n = 0 then .nan else .inf (s != t)
  | .fin s m _, .inf t => if m = 0 then .nan else .inf (s != t)
  | .fin s m e, .fin t n f => .fin (s != t) (m * n) (e + f)

/-- The exact sum (R50: ∞ − ∞ is NaN). A zero sum of opposite signs is +0, as rounding to nearest even gives. -/
def addExact : Num → Num → Num
  | .nan, _ => .nan
  | _, .nan => .nan
  | .inf s, .inf t => if s = t then .inf s else .nan
  | .inf s, .fin _ _ _ => .inf s
  | .fin _ _ _, .inf t => .inf t
  | .fin s m e, .fin t n f =>
    let b := min e f
    let a : Int := (if s then -1 else 1) * (m * 2 ^ (e - b).toNat : Nat)
    let c : Int := (if t then -1 else 1) * (n * 2 ^ (f - b).toNat : Nat)
    let r := a + c
    if r = 0 then .fin (s && t) 0 0 else .fin (decide (r < 0)) r.natAbs b

end Num

/-- A binary floating-point format: precision with the hidden bit, exponent of the smallest normal, exponent width,
whether it has infinities and NaNs, and the largest finite value as `top * 2^topE`. -/
structure Flt where
  prec : Nat
  emin : Int
  expBits : Nat
  hasInf : Bool
  hasNan : Bool
  top : Nat
  topE : Int
  deriving DecidableEq, Repr

/-- IEEE 754 binary32. -/
def fltF32 : Flt := ⟨24, -126, 8, true, true, 2 ^ 24 - 1, 104⟩
/-- BF16 (R46). -/
def fltBf16 : Flt := ⟨8, -126, 8, true, true, 2 ^ 8 - 1, 120⟩
/-- FP16 (R46). -/
def fltF16 : Flt := ⟨11, -14, 5, true, true, 2 ^ 11 - 1, 5⟩
/-- E5M2 (R46): largest finite 57,344 = 7 × 2^13. -/
def fltE5M2 : Flt := ⟨3, -14, 5, true, true, 7, 13⟩
/-- E4M3 with infinities (R46): largest finite 240 = 15 × 2^4. -/
def fltE4M3 : Flt := ⟨4, -6, 4, true, true, 15, 4⟩
/-- E3M2 (R46): largest finite 28. -/
def fltE3M2 : Flt := ⟨3, -2, 3, false, false, 7, 2⟩
/-- E2M3 (R46): largest finite 7.5. -/
def fltE2M3 : Flt := ⟨4, 0, 2, false, false, 15, -1⟩
/-- E2M1 (R46): largest finite 6. -/
def fltE2M1 : Flt := ⟨2, 0, 2, false, false, 3, 1⟩
/-- The import format (R48): largest finite 448 = 14 × 2^5, no infinity. -/
def fltE4M3NI : Flt := ⟨4, -6, 4, false, true, 14, 5⟩
/-- The ES40 accumulator (R57). -/
def fltES40 : Flt := ⟨30, -510, 10, true, true, 2 ^ 30 - 1, 482⟩

/-- Exponent of the last place of `f` at a magnitude `m * 2^e`. -/
def Flt.ulp (f : Flt) (m : Nat) (e : Int) : Int :=
  max (Num.topExp m e - (f.prec - 1 : Nat)) (f.emin - (f.prec - 1 : Nat))

/-- A magnitude split into last places of `f`: `q`, the last place, and the rest `r` of `2^d` parts. -/
def Flt.split (f : Flt) (m : Nat) (e : Int) : Nat × Int × Nat × Nat :=
  let u := f.ulp m e
  if u ≤ e then (m * 2 ^ (e - u).toNat, u, 0, 0)
  else
    let d := (u - e).toNat
    (m / 2 ^ d, u, m % 2 ^ d, d)

/-- Does a nearest-even rounding go up: rest `r` of `2^d`, above the integer `q` (R66). -/
def rneUp (q r d : Nat) : Bool :=
  decide (2 ^ d < 2 * r) || (decide (2 * r = 2 ^ d) && decide (0 < r) && decide (q % 2 = 1))

/-- Does a stochastic rounding go up with the 32-bit draw `rnd` (R67). -/
def srUp (rnd r d : Nat) : Bool := decide (2 ^ 32 ≤ r * 2 ^ 32 / 2 ^ d + rnd)

/-- A finite magnitude rounded to last places of `f`, with no upper limit; `rnd` is the draw of R67, or none for
nearest even. -/
def Flt.roundMag (f : Flt) (rnd : Option Nat) (m : Nat) (e : Int) : Nat × Int :=
  if m = 0 then (0, 0)
  else
    let (q, u, r, d) := f.split m e
    let up := match rnd with
      | none => rneUp q r d
      | some w => srUp w r d
    (if up then q + 1 else q, u)

/-- Does a magnitude exceed the largest finite value of `f`. -/
def Flt.over (f : Flt) (m : Nat) (e : Int) : Bool := Num.magLt f.top f.topE m e

/-- IEEE rounding to `f`, to nearest even, with overflow to ∞ (R50). -/
def Flt.round (f : Flt) : Num → Num
  | .nan => .nan
  | .inf s => .inf s
  | .fin s m e =>
    let (q, u) := f.roundMag none m e
    if f.over q u then .inf s else .fin s q u

/-- The bit pattern of a magnitude of `f` that is exact in it: exponent field and fraction. -/
def Flt.magBits (f : Flt) (m : Nat) (e : Int) : Nat :=
  if m = 0 then 0
  else
    let fb := f.prec - 1
    let t := Num.topExp m e
    let bias : Int := 1 - f.emin
    let q : Nat := if f.ulp m e ≤ e then m * 2 ^ (e - f.ulp m e).toNat else m / 2 ^ (f.ulp m e - e).toNat
    if t < f.emin then q else (t + bias).toNat * 2 ^ fb + (q - 2 ^ fb)

/-- Width of a code of `f`. -/
def Flt.width (f : Flt) : Nat := 1 + f.expBits + (f.prec - 1)

/-- The magnitude bits of ∞ in a format that has one. -/
def Flt.infMag (f : Flt) : Nat := (2 ^ f.expBits - 1) * 2 ^ (f.prec - 1)

/-- The canonical quiet NaN of R49 and R57: fraction with its top bit set, sign clear. -/
def Flt.nanBits (f : Flt) : Nat := f.infMag + 2 ^ (f.prec - 2)

/-- The code of a number that is exact in `f` (an infinity or NaN in a format without one gives its largest magnitude). -/
def Flt.encode (f : Flt) : Num → Nat
  | .nan => if f.hasNan then f.nanBits else f.magBits f.top f.topE
  | .inf s => (if s then 2 ^ (f.width - 1) else 0) + (if f.hasInf then f.infMag else f.magBits f.top f.topE)
  | .fin s m e => (if s then 2 ^ (f.width - 1) else 0) + f.magBits m e

/-- The number of a code of `f` (R46, R48, R57). The import format has one NaN pattern and no infinity. -/
def Flt.decode (f : Flt) (c : Nat) : Num :=
  let fb := f.prec - 1
  let frac := c % 2 ^ fb
  let ex := c / 2 ^ fb % 2 ^ f.expBits
  let s := (c / 2 ^ (f.width - 1)).testBit 0
  if ex = 2 ^ f.expBits - 1 ∧ f.hasInf then (if frac = 0 then .inf s else .nan)
  else if f.hasNan ∧ !f.hasInf ∧ ex = 2 ^ f.expBits - 1 ∧ frac = 2 ^ fb - 1 then .nan
  else if ex = 0 then .fin s frac (f.emin - fb)
  else .fin s (2 ^ fb + frac) ((ex : Int) - 1 + f.emin - fb)

/-- FP32 pattern to number and back. -/
def Num.ofF32 (b : Nat) : Num := fltF32.decode b
def Num.toF32 (x : Num) : Nat := fltF32.encode (fltF32.round x)

/-- FP32 operations, each rounded once to nearest even (R50, R139). -/
def f32Add (x y : Num) : Num := fltF32.round (Num.addExact x y)
def f32Sub (x y : Num) : Num := f32Add x y.neg
def f32Mul (x y : Num) : Num := fltF32.round (Num.mulExact x y)
def f32Fma (x y z : Num) : Num := fltF32.round (Num.addExact (Num.mulExact x y) z)

/-- A quotient with enough bits and a sticky bit for one rounding in any format of this file. -/
def Num.divExact : Num → Num → Num
  | .nan, _ => .nan
  | _, .nan => .nan
  | .inf _, .inf _ => .nan
  | .inf s, .fin t _ _ => .inf (s != t)
  | .fin s _ _, .inf t => .fin (s != t) 0 0
  | .fin s m e, .fin t n f =>
    if n = 0 then (if m = 0 then .nan else .inf (s != t))
    else if m = 0 then .fin (s != t) 0 0
    else
      let k := Num.bitLen n + 64
      let q := m * 2 ^ k / n
      let st := if m * 2 ^ k % n = 0 then 0 else 1
      .fin (s != t) (2 * q + st) (e - f - k - 1)

def f32Div (x y : Num) : Num := fltF32.round (Num.divExact x y)
/-- The FP32 reciprocal, to nearest even (R60). -/
def f32Recip (x : Num) : Num := f32Div Num.one x

/-- The square root with a sticky bit; of a negative number NaN; of −0, −0. -/
def Num.sqrtExact : Num → Num
  | .nan => .nan
  | .inf s => if s then .nan else .inf false
  | .fin s m e =>
    if m = 0 then .fin s 0 0
    else if s then .nan
    else
      let e' : Int := if e % 2 = 0 then e - 128 else e - 129
      let m' := m * 2 ^ (e - e').toNat
      let r := Nat.sqrt m'
      let st := if r * r = m' then 0 else 1
      .fin false (2 * r + st) (e' / 2 - 1)

def f32Sqrt (x : Num) : Num := fltF32.round (Num.sqrtExact x)

/-- ES40 operations: one rounding to nearest even, subnormals kept (R58). -/
def es40Add (x y : Num) : Num := fltES40.round (Num.addExact x y)
def es40Mul (x y : Num) : Num := fltES40.round (Num.mulExact x y)

/-- The 32-bit draw of R67 for a seed, a tensor identifier and a logical index. -/
def srDraw (seed tensorId index : Nat) : Nat :=
  let m64 := 2 ^ 64
  let z := (seed + 0x9e3779b97f4a7c15 * (tensorId + 1)) % m64
  let z := (z ^^^ index) % m64
  let z := ((z ^^^ (z / 2 ^ 30)) * 0xbf58476d1ce4e5b9) % m64
  let z := ((z ^^^ (z / 2 ^ 27)) * 0x94d049bb133111eb) % m64
  let z := z ^^^ (z / 2 ^ 31)
  z / 2 ^ 32 % 2 ^ 32

end Sys2Proof.Machine
end

