-- ==== Sys2Proof/Machine/Formats.lean ====
section
/-! DEFINITION. Element formats, scales, format fields, the square-tiled layout and write-out with its census
(R44 to R56, R60 to R72, R81 to R84, R146, R527). -/

namespace Sys2Proof.Machine

/-- The element formats of R44. -/
inductive Fmt where
  | fp32 | bf16 | fp16 | e5m2 | e4m3 | e3m2 | e2m3 | e2m1 | e4m3ni | es40
  deriving DecidableEq, Repr

/-- Format code to format; 0xA to 0xF are reserved (R44). -/
def Fmt.ofCode : Nat → Option Fmt
  | 0 => some .fp32 | 1 => some .bf16 | 2 => some .fp16 | 3 => some .e5m2 | 4 => some .e4m3
  | 5 => some .e3m2 | 6 => some .e2m3 | 7 => some .e2m1 | 8 => some .e4m3ni | 9 => some .es40
  | _ => none

def Fmt.code : Fmt → Nat
  | .fp32 => 0 | .bf16 => 1 | .fp16 => 2 | .e5m2 => 3 | .e4m3 => 4
  | .e3m2 => 5 | .e2m3 => 6 | .e2m1 => 7 | .e4m3ni => 8 | .es40 => 9

def Fmt.flt : Fmt → Flt
  | .fp32 => fltF32 | .bf16 => fltBf16 | .fp16 => fltF16 | .e5m2 => fltE5M2 | .e4m3 => fltE4M3
  | .e3m2 => fltE3M2 | .e2m3 => fltE2M3 | .e2m1 => fltE2M1 | .e4m3ni => fltE4M3NI | .es40 => fltES40

/-- Bits an element takes in memory (R44). -/
def Fmt.bits : Fmt → Nat
  | .fp32 => 32 | .bf16 => 16 | .fp16 => 16 | .e5m2 => 8 | .e4m3 => 8
  | .e3m2 => 6 | .e2m3 => 6 | .e2m1 => 4 | .e4m3ni => 8 | .es40 => 64

/-- Formats whose elements carry a fine scale (R51). -/
def Fmt.fine : Fmt → Bool
  | .e5m2 | .e4m3 | .e3m2 | .e2m3 | .e2m1 | .e4m3ni => true
  | _ => false

/-- `emax` of R61. -/
def Fmt.emax : Fmt → Int
  | .e5m2 => 15 | .e4m3 => 7 | .e3m2 => 4 | .e2m3 => 2 | .e2m1 => 2 | _ => 0

/-- The three narrow formats without infinities and NaNs. -/
def Fmt.noSpecials : Fmt → Bool
  | .e3m2 | .e2m3 | .e2m1 => true
  | _ => false

/-- Bytes of element data of a tile, and of the whole tile (R82). -/
def Fmt.dataSize (f : Fmt) : Nat := 128 * 128 * f.bits / 8
def Fmt.footprint (f : Fmt) : Nat := f.dataSize + (if f.fine then 256 else 0)

/-! ## Reading -/

/-- An element with its fine scale, exactly (R51, R52); the coarse scale is not applied. -/
def decodeFine (f : Fmt) (code fine : Nat) : Num :=
  let x := f.flt.decode (if f = .es40 then code % 2 ^ 40 else code)
  if !f.fine then x
  else if fine = 0xFF then .nan
  else if fine = 0xFE then
    match x with
    | .nan => .nan
    | .inf s => .inf s
    | .fin s m _ => if m = 0 then .fin s 0 0 else .inf s
  else x.scale2 ((fine : Int) - 127)

/-- The coarse scale that a unit uses for an FP32 pattern, and whether the pattern is illegal (R54). -/
def coarseOf (bits : Nat) : Num × Bool :=
  let ex := bits / 2 ^ 23 % 256
  if bits / 2 ^ 31 % 2 = 0 ∧ 0 < ex ∧ ex < 255 then (Num.ofF32 bits, false) else (Num.one, true)

/-- The vector engine's and the lanes' read of an element (R55): the FP32 value, and whether the read overflowed or
flushed. -/
def decodeRead (f : Fmt) (code fine coarse : Nat) : Num × Bool × Bool :=
  let p := Num.mulExact (decodeFine f code fine) (coarseOf coarse).1
  let r := fltF32.round p
  (r, p.isFin && r.isInf, p.isFinNz && r.isZero)

/-! ## Format fields -/

/-- A violation found while a descriptor is read: the byte offset of the field and the offending value (R520). -/
structure Viol where
  field : Nat
  value : Nat
  deriving DecidableEq, Repr

/-- A format field as a unit reads it (R56). `fmt = none`: reserved code (R45). `mode`: 0 none, 1 auto (stored on a read),
2 fixed. -/
structure FmtField where
  fmt : Option Fmt
  mode : Nat
  sr : Bool
  sat : Bool
  fixed : Nat
  coarse : Nat
  tensorId : Nat
  deriving DecidableEq, Repr

/-- The fine code that a read uses for a block whose scale byte holds `stored` (R56, log entry 104): the byte with SCALE_MODE 1,
FIXED_CODE with 2, the factor 1 with 0. -/
def FmtField.fineOf (x : FmtField) (stored : Nat) : Nat :=
  if x.mode = 1 then stored else if x.mode = 2 then x.fixed else 0x7F

/-- The fine code that SCALE_MODE puts in the place of every stored one, none with SCALE_MODE 1 (R56). -/
def FmtField.fixedFine (x : FmtField) : Option Nat := if x.mode = 1 then none else some (x.fineOf 0)

/-- A field `[lo+w-1:lo]` of the bytes at `off` of a descriptor held as a little-endian number (R21). -/
def dfld (d off lo w : Nat) : Nat := bitsOf d (8 * off + lo) w

/-- The format field at `off`. `out`: it is an output; `es40`: code 0x9 is permitted there (R45); `expert`: the numeric
write-out bit of the expert mask (R527, R35). The list holds its violations but for a reserved code, which a descriptor
counts once whatever the number of its fields (`reservedViol`). -/
def FmtField.read (d off : Nat) (out es40 expert : Bool) : FmtField × List Viol :=
  let code := dfld d off 0 4
  let f0 := Fmt.ofCode code
  let f1 := if code = 9 ∧ !es40 then none else f0
  let f := if out ∧ code = 8 then some .e4m3 else f1
  let fine := match f with
    | some g => g.fine
    | none => false
  let m0 := dfld d off 4 2
  let dflt := if fine then 1 else 0
  let m1 := if !fine then 0 else if m0 = 3 then 1 else m0
  let expM := m1 == 2 && !expert
  let m := if expM then dflt else m1
  let sr0 := dfld d off 6 1 == 1
  let sat0 := dfld d off 7 1 == 1
  let fx := dfld d (off + 1) 0 8
  let co := dfld d (off + 4) 0 32
  let v : List Viol :=
    (if out && code == 8 then [⟨off, code⟩] else [])
      ++ (if fine && m0 == 3 then [⟨off, m0⟩] else [])
      ++ (if expM then [⟨off, m1⟩] else [])
      ++ (if out && sr0 && !expert then [⟨off, 1⟩] else [])
      ++ (if out && sat0 && !expert then [⟨off, 1⟩] else [])
      ++ (if 0xFD < fx then [⟨off + 1, fx⟩] else [])
      ++ (if (coarseOf co).2 then [⟨off + 4, co⟩] else [])
  (⟨f, m, out && sr0 && expert, out && sat0 && expert, min fx 0xFD, co, dfld d (off + 8) 0 32⟩, v)

/-- The one violation of a descriptor some of whose format fields carry a reserved code (R45): the first of them, by its
offset and what it reads as. -/
def reservedViol (d : Nat) (fs : List (Nat × Option Fmt)) : List Viol :=
  match fs.find? (fun p => p.2.isNone) with
  | some p => [⟨p.1, dfld d p.1 0 4⟩]
  | none => []

/-! ## The tile layout -/

/-- In-tile index of element `(r, c)` (R81). -/
def tileIndex (r c : Nat) : Nat :=
  1024 * (4 * (r / 32) + c / 32) + 64 * (4 * (r / 8 % 4) + c / 8 % 4) + 8 * (r % 8) + c % 8

/-- Row and column of an in-tile index: the inverse of `tileIndex`. -/
def tileRC (i : Nat) : Nat × Nat :=
  let q := i / 1024
  let b := i / 64 % 16
  (32 * (q / 4) + 8 * (b / 4) + i / 8 % 8, 32 * (q % 4) + 8 * (b % 4) + i % 8)

/-- Scale-area byte of the block that holds in-tile index `i` (R82). -/
def scaleByte (f : Fmt) (i : Nat) : Nat := f.dataSize + i / 64

/-- Byte offset of tile `(ti, tj)` of a tensor with a row stride in tiles (R83). -/
def tileOffset (f : Fmt) (rstride ti tj : Nat) : Nat := (ti * rstride + tj) * f.footprint

/-- The code of the element at in-tile index `i`, read from a tile's bytes (R47). -/
def tileCode (f : Fmt) (rd : Nat → Nat) (i : Nat) : Nat :=
  match f with
  | .e2m1 => rd (i / 2) / 2 ^ (4 * (i % 2)) % 16
  | .e3m2 | .e2m3 =>
    (rd (3 * (i / 4)) + 2 ^ 8 * rd (3 * (i / 4) + 1) + 2 ^ 16 * rd (3 * (i / 4) + 2)) / 2 ^ (6 * (i % 4)) % 64
  | _ => leNat ((List.range (f.bits / 8)).map (fun k => rd (i * (f.bits / 8) + k)))

/-- The bytes of a list of codes packed from in-tile index 0 on (R47); whole groups of bytes. -/
def packCodes (f : Fmt) : List Nat → List Nat
  | [] => []
  | a :: b :: c :: e :: cs =>
    match f with
    | .e2m1 => (a % 16 + 16 * (b % 16)) :: (c % 16 + 16 * (e % 16)) :: packCodes f cs
    | .e3m2 | .e2m3 => leBytes 3 (a % 64 + 64 * (b % 64) + 4096 * (c % 64) + 262144 * (e % 64)) ++ packCodes f cs
    | _ => leBytes (f.bits / 8) a ++ leBytes (f.bits / 8) b ++ leBytes (f.bits / 8) c ++ leBytes (f.bits / 8) e
        ++ packCodes f cs
  | a :: cs =>
    match f with
    | .e2m1 | .e3m2 | .e2m3 => leBytes 3 (a % 64) ++ packCodes f cs
    | _ => leBytes (f.bits / 8) a ++ packCodes f cs

/-! ## Census -/

/-- One set of census counts of a descriptor (R70), exact. -/
structure Census where
  elem : Nat
  ovf : Nat
  sat : Nat
  ftz : Nat
  nan : Nat
  nearOvf : Nat
  nearVan : Nat
  deriving DecidableEq, Repr

def Census.zero : Census := ⟨0, 0, 0, 0, 0, 0, 0⟩

def Census.add (a b : Census) : Census :=
  ⟨a.elem + b.elem, a.ovf + b.ovf, a.sat + b.sat, a.ftz + b.ftz, a.nan + b.nan, a.nearOvf + b.nearOvf,
    a.nearVan + b.nearVan⟩

/-- The seven counts in the order of R513. -/
def Census.list (c : Census) : List Nat := [c.elem, c.ovf, c.sat, c.ftz, c.nan, c.nearOvf, c.nearVan]

/-! ## Write-out -/

/-- One element handed to write-out: the result before conversion, the value `v` after the coarse scales (R60 step 1)
and its logical index (R68). -/
structure WoElem where
  orig : Num
  v : Num
  index : Nat
  deriving DecidableEq, Repr

/-- What write-out needs beside the values: format field, seed, census near counting. -/
structure WoCtx where
  fmt : Fmt
  mode : Nat
  sr : Bool
  sat : Bool
  fixed : Nat
  tensorId : Nat
  seed : Nat
  nearEn : Bool
  deriving DecidableEq, Repr

/-- The larger of two finite magnitudes. -/
def maxMag (a b : Nat × Int) : Nat × Int := if Num.magLt a.1 a.2 b.1 b.2 then b else a

/-- The fine code of a block with SCALE_MODE 1 (R61): the code, and whether the exponent passed 126. -/
def selectFine (f : Fmt) (vs : List Num) : Nat × Bool :=
  if vs.any Num.isNan && f.noSpecials then (0xFF, false)
  else if vs.any Num.isInf && f.noSpecials then (0xFE, false)
  else
    let m := vs.foldl (fun a v => match v with
      | .fin _ k e => maxMag a (k, e)
      | _ => a) (0, 0)
    if m.1 = 0 then (0x7F, false)
    else
      let e0 := Num.topExp m.1 m.2 - f.emax
      let e1 := if f.flt.over m.1 (m.2 - e0) then e0 + 1 else e0
      let e2 := if e1 < -127 then -127 else e1
      if 126 < e2 then (0xFD, true) else ((e2 + 127).toNat, false)

/-- Round one finite quotient to an element of the format (R60 step 4, R62, R64): the number written, overflowed. -/
def roundElem (x : WoCtx) (e : WoElem) (s : Bool) (m : Nat) (k : Int) : Num × Bool :=
  let rnd := if x.sr then some (srDraw x.seed x.tensorId e.index) else none
  let (q, u) := x.fmt.flt.roundMag rnd m k
  if x.fmt.flt.over q u then (.inf s, true) else (.fin s q u, false)

/-- Does a magnitude, in units of the block's fine factor `2 ^ fexp`, exceed half of the largest magnitude that the output can
hold, before the coarse scale (R71); SCALE_MODE 0 with fine scales counts as the fixed factor 1 (log entry 104). -/
def WoCtx.near (x : WoCtx) (fexp : Int) (m : Nat) (k : Int) : Bool :=
  x.nearEn && (if x.mode = 1 then Num.magLt x.fmt.flt.top (x.fmt.flt.topE + 126 - 1) m (k + fexp)
    else Num.magLt x.fmt.flt.top (x.fmt.flt.topE - 1) m k)

/-- An element that does not fit (R62, R70): the largest finite code with SAT; else infinity, or, in a format without that code,
the largest finite code counted in OVF. The last happens in a block with kept elements only (R146; elsewhere the block takes code
0xFE, see `writeBlock`). An element written as the largest finite code is written finite, so it counts in NEAR_OVF as R70 says
of every element (log entry 105). -/
def overflowElem (x : WoCtx) (fexp : Int) (s : Bool) : Nat × Census :=
  let f := x.fmt
  let largest := (if s then 2 ^ (f.flt.width - 1) else 0) + f.flt.magBits f.flt.top f.flt.topE
  let near := if x.near fexp f.flt.top f.flt.topE then 1 else 0
  if x.sat then (largest, { Census.zero with elem := 1, sat := 1, nearOvf := near })
  else if f.flt.hasInf then (f.flt.encode (.inf s), { Census.zero with elem := 1, ovf := 1 })
  else (largest, { Census.zero with elem := 1, ovf := 1, nearOvf := near })

/-- What became of one element: its code and its census counts. `fine` is the block's code (127 in a format without
fine scales). An infinity that meets a format without an infinity code (a block with kept elements, R146) is written as the
largest finite code (log entry 105). -/
def writeElem (x : WoCtx) (fine : Nat) (e : WoElem) : Nat × Census :=
  let f := x.fmt
  let c0 : Census := { Census.zero with elem := 1 }
  let fexp : Int := if f.fine then (fine : Int) - 127 else 0
  match e.v with
  | .nan => (f.flt.encode .nan, { c0 with nan := 1 })
  | .inf s =>
    if e.orig.isFin then overflowElem x fexp s
    else if f.flt.hasInf then (f.flt.encode (.inf s), c0)
    else ((if s then 2 ^ (f.flt.width - 1) else 0) + f.flt.magBits f.flt.top f.flt.topE,
      { c0 with nearOvf := if x.near fexp f.flt.top f.flt.topE then 1 else 0 })
  | .fin s m k =>
    let (w, o) := roundElem x e s m (k - fexp)
    if o then overflowElem x fexp s
    else
      let code := f.flt.encode w
      let flushed := w.isZero && e.orig.isFinNz
      let (wm, we) := match w with
        | .fin _ a b => (a, b)
        | _ => (0, 0)
      let van := decide (0 < wm) && Num.magLt wm we 1 (f.flt.emin - (f.flt.prec - 1 : Nat) + 1)
      (code, { c0 with ftz := if flushed then 1 else 0,
                       nearOvf := if x.near fexp wm we then 1 else 0,
                       nearVan := if x.nearEn && van then 1 else 0 })

/-- The free code of an element of an infinity or NaN block (log entry 6): the block's values `vs`, the element's place. -/
def WoCtx.blockCode (x : WoCtx) (vs : List Num) (place : Nat) (e : WoElem) : Nat :=
  Config.blockCode x.fmt.code x.tensorId e.index (vs.map Num.parts) place

/-- The elements of an infinity block (0xFE) of E3M2, E2M3 or E2M1 that no kept element shares: a nonzero element
takes some nonzero code, which the spec does not give (a free value, log entry 6). -/
def infBlockElem (x : WoCtx) (vs : List Num) (place : Nat) (e : WoElem) : Nat × Census :=
  let c0 : Census := { Census.zero with elem := 1 }
  let s := e.v.sign
  let sg := if s then 2 ^ (x.fmt.flt.width - 1) else 0
  if e.v.isZero then (sg, { c0 with ftz := if e.orig.isFinNz then 1 else 0 })
  else (sg + (1 + x.blockCode vs place e % (2 ^ (x.fmt.flt.width - 1) - 1)),
    if e.orig.isFinNz then { c0 with ovf := 1 } else c0)

/-- The elements of a NaN block (0xFF): the codes below the scale are not given (a free value, log entry 6). Every element counts in
NAN as R70 says, one that MASK_ZERO makes zero included, of which R145 says ELEM only (DESIGN CHOICE, log entry 105). -/
def nanBlockElem (x : WoCtx) (vs : List Num) (place : Nat) (e : WoElem) : Nat × Census :=
  (x.blockCode vs place e % 2 ^ x.fmt.flt.width, { Census.zero with elem := 1, nan := 1 })

/-- One element of a partly kept block with stored code 0xFE or 0xFF (R146). -/
def keptSpecialElem (x : WoCtx) (fine : Nat) (e : WoElem) : Nat × Census :=
  let c0 : Census := { Census.zero with elem := 1 }
  let sg := if e.v.sign then 2 ^ (x.fmt.flt.width - 1) else 0
  if fine = 0xFF then (sg, { c0 with nan := 1 })
  else if e.v.isNan ∧ x.fmt.flt.hasNan then (x.fmt.flt.encode .nan, { c0 with nan := 1 })
  else if e.v.isZero then (sg, { c0 with ftz := if e.orig.isFinNz then 1 else 0 })
  else (sg + x.fmt.flt.magBits x.fmt.flt.top x.fmt.flt.topE, if e.orig.isFinNz then { c0 with ovf := 1 } else c0)

/-- What write-out makes of one block: its fine code, one entry per element (none: kept), its census. -/
structure WoBlock where
  fine : Nat
  codes : List (Option Nat)
  census : Census
  deriving DecidableEq, Repr

def WoBlock.of (fine : Nat) (rs : List (Option (Nat × Census))) : WoBlock :=
  ⟨fine, rs.map (fun r => r.map (fun p => p.1)),
    rs.foldl (fun a r => match r with
      | some p => a.add p.2
      | none => a) Census.zero⟩

/-- Write-out of one block of up to 64 elements in order of in-tile index (R60 to R64, R146). `none` marks a kept
element; `stored` is the block's stored fine code, used when a kept element shares it. With SCALE_MODE 0 a block of a format
with fine scales is stored with the factor 1, code 0x7F (the spec gives no byte; log entry 104). A finite element whose `v` became ∞ in
step 1 of R60 makes an infinity block of E3M2, E2M3 and E2M1 by R61 also with SAT = 1; elsewhere R62 saturates it (DESIGN CHOICE,
log entry 105). -/
def writeBlock (x : WoCtx) (stored : Nat) (es : List (Option WoElem)) : WoBlock :=
  let f := x.fmt
  let ws := es.filterMap id
  let vs := ws.map (fun e => e.v)
  let kept := es.any Option.isNone
  let idx := es.zip (List.range es.length)
  if !f.fine then WoBlock.of 0x7F (es.map (fun o => o.map (writeElem x 0x7F)))
  else if kept then
    if f.noSpecials ∧ vs.any Num.isNan ∧ stored ≠ 0xFF then
      WoBlock.of 0xFF (es.map (fun o => o.map (fun e =>
        ((if e.v.sign then 2 ^ (f.flt.width - 1) else 0), { Census.zero with elem := 1, nan := 1 }))))
    else if stored = 0xFE ∨ stored = 0xFF then
      WoBlock.of stored (es.map (fun o => o.map (keptSpecialElem x stored)))
    else
      WoBlock.of stored (es.map (fun o => o.map (writeElem { x with mode := 2 } stored)))
  else
    let (sel, beyond) := if x.mode = 1 then selectFine f vs
      else if f.noSpecials && vs.any Num.isNan then (0xFF, false)
      else if f.noSpecials && vs.any Num.isInf then (0xFE, false)
      else ((if x.mode = 2 then x.fixed else 0x7F), false)
    let ovfAny := ws.any (fun e => match e.v with
      | .fin s m k => (roundElem x e s m (k - ((sel : Int) - 127))).2
      | _ => false)
    let fine := if sel = 0xFF then 0xFF
      else if f.noSpecials && !x.sat && (beyond || ovfAny) then 0xFE else sel
    if f.noSpecials ∧ fine = 0xFF then
      WoBlock.of 0xFF (idx.map (fun p => p.1.map (nanBlockElem x vs p.2)))
    else if f.noSpecials ∧ fine = 0xFE then
      WoBlock.of 0xFE (idx.map (fun p => p.1.map (infBlockElem x vs p.2)))
    else WoBlock.of fine (es.map (fun o => o.map (writeElem x fine)))

end Sys2Proof.Machine
end

