-- ==== Sys2Proof/Machine/Maps.lean ====
section
/-! DEFINITION. Sparse data by key in one canonical form: strictly rising keys, and no entry equal to what an
unlisted key reads as. Every table of the state (registers, cores, memory bytes, keyways, ...) is one of these. -/

namespace Sys2Proof.Machine

/-- A sparse table: what an unlisted key holds is given by the reader (`d : Nat → V`). -/
abbrev SMap (V : Type) := List (Nat × V)

/-- The value at key `k`: that of the first entry with the key; an unlisted key holds `d k`. -/
def SMap.get {V : Type} (d : Nat → V) : SMap V → Nat → V
  | [], k => d k
  | (a, v) :: m, k => if a = k then v else SMap.get d m k

/-- Insert below the keys that follow, keeping the order; an old entry at the key goes. -/
def SMap.put {V : Type} : SMap V → Nat → V → SMap V
  | [], k, v => [(k, v)]
  | (a, w) :: m, k, v =>
    if a = k then (k, v) :: m else if k < a then (k, v) :: (a, w) :: m else (a, w) :: SMap.put m k v

/-- Remove what is listed at a key. -/
def SMap.erase {V : Type} (m : SMap V) (k : Nat) : SMap V := m.filter (fun e => decide (e.1 ≠ k))

/-- Write `v` at key `k`; writing what an unlisted key holds removes the entry. -/
def SMap.set {V : Type} [DecidableEq V] (d : Nat → V) (m : SMap V) (k : Nat) (v : V) : SMap V :=
  if v = d k then SMap.erase m k else SMap.put m k v

/-- The canonical form: every key is above `lo`, keys rise strictly, no entry equals the unlisted value. -/
def SMap.wfFrom {V : Type} [DecidableEq V] (d : Nat → V) : Nat → SMap V → Bool
  | _, [] => true
  | lo, (a, v) :: m => decide (lo ≤ a) && decide (v ≠ d a) && SMap.wfFrom d (a + 1) m

/-- The canonical form of a whole table. -/
def SMap.wf {V : Type} [DecidableEq V] (d : Nat → V) (m : SMap V) : Bool := SMap.wfFrom d 0 m

/-- Read-modify-write of one key. -/
def SMap.upd {V : Type} [DecidableEq V] (d : Nat → V) (m : SMap V) (k : Nat) (f : V → V) : SMap V :=
  SMap.set d m k (f (SMap.get d m k))

/-- The entries of a run of values at consecutive keys. -/
def SMap.entries {V : Type} [DecidableEq V] (d : Nat → V) (k : Nat) : List V → SMap V
  | [] => []
  | v :: vs => if v = d k then SMap.entries d (k + 1) vs else (k, v) :: SMap.entries d (k + 1) vs

/-- Write a run of values at consecutive keys: the entries below it, its own, the entries above it. -/
def SMap.setRange {V : Type} [DecidableEq V] (d : Nat → V) (m : SMap V) (k : Nat) (vs : List V) : SMap V :=
  m.filter (fun e => decide (e.1 < k)) ++ SMap.entries d k vs ++ m.filter (fun e => decide (k + vs.length ≤ e.1))

/-- The table without the keys `lo ≤ k < hi`. -/
def SMap.clearRange {V : Type} (m : SMap V) (lo hi : Nat) : SMap V :=
  m.filter (fun e => decide (e.1 < lo ∨ hi ≤ e.1))

/-- The listed entries of `lo ≤ k < hi`. -/
def SMap.slice {V : Type} (m : SMap V) (lo hi : Nat) : SMap V :=
  m.filter (fun e => decide (lo ≤ e.1 ∧ e.1 < hi))

/-- Read a run of `n` values from consecutive keys. -/
def SMap.getRange {V : Type} (d : Nat → V) (m : SMap V) (k n : Nat) : List V :=
  (List.range n).map (fun i => SMap.get d (SMap.slice m k (k + n)) (k + i))

/-- Put every listed entry of one table into another. -/
def SMap.putAll {V : Type} [DecidableEq V] (d : Nat → V) (m : SMap V) : SMap V → SMap V
  | [] => m
  | (k, v) :: r => SMap.putAll d (SMap.set d m k v) r

/-- Apply a change of the whole state for each index below `n`, in increasing order. -/
def forUpTo {σ : Type} : Nat → (Nat → σ → σ) → σ → σ
  | 0, _, s => s
  | n + 1, f, s => f n (forUpTo n f s)

/-- Apply a change of the state for each element of a list, in order. -/
def forEach {σ α : Type} : List α → (α → σ → σ) → σ → σ
  | [], _, s => s
  | a :: as, f, s => forEach as f (f a s)

end Sys2Proof.Machine
end

