-- ==== Sys2Proof/Machine/Regs.lean ====
section
/-! DEFINITION. The register map of the package: every register of the spec's field maps and counter tables, with
its sub-block, its place, its fields, their access codes and their reset values (R16, R489 to R493), written from
the field maps of the chapters that R493 names. A register name with an index is one `Reg` with `count` instances. -/

namespace Sys2Proof.Machine

/-- The access codes of R16. -/
inductive Acc where
  | ro | rw | wo | w1c | rc | rws | rwl
  deriving DecidableEq, Repr

/-- One field of a register: its bits, its access code and its reset value. -/
structure Field where
  lo : Nat
  hi : Nat
  acc : Acc
  rst : Nat
  deriving DecidableEq, Repr

/-- The sub-blocks of R493, and the doorbell pages of R494. -/
inductive SubBlock where
  | door | host | hubMgmt | hubImg | hubFlt | hubBoot | hubFltq | hubLog | ward | pwrState | pwr | tier | prgPkg
  | prgPort | prgIsl | coreBase | coreBwd | coreStg | coreTrn | coreSub | coreRec | coreAdr | hng | ve | cns | cnsTot
  | syn | vlt | lane
  deriving DecidableEq, Repr

/-- Register offset of instance 0 of a sub-block (R491, R493), its stride and its number of instances. -/
def SubBlock.place : SubBlock → Nat × Nat × Nat
  | .door => (0x0000000, 0, 1)
  | .host => (0x0010000, 0, 1)
  | .hubMgmt => (0x0020000, 0, 1)
  | .hubImg => (0x0022000, 0, 1)
  | .hubFlt => (0x0023000, 0, 1)
  | .hubBoot => (0x0024000, 0, 1)
  | .hubFltq => (0x0028000, 0, 1)
  | .hubLog => (0x0029000, 0, 1)
  | .ward => (0x0030000, 0, 1)
  | .pwrState => (0x0040000, 0, 1)
  | .pwr => (0x0041000, 0, 1)
  | .tier => (0x0050000, 0, 1)
  | .prgPkg => (0x0060000, 0, 1)
  | .prgPort => (0x0080000, 0x8000, 16)
  | .prgIsl => (0x0100000, 0x10000, 8)
  | .coreBase => (0x1000000, 0x20000, 128)
  | .coreBwd => (0x1000400, 0x20000, 128)
  | .coreStg => (0x1000800, 0x20000, 128)
  | .coreTrn => (0x1000C00, 0x20000, 128)
  | .coreSub => (0x1001000, 0x20000, 128)
  | .coreRec => (0x1001400, 0x20000, 128)
  | .coreAdr => (0x1001800, 0x20000, 128)
  | .hng => (0x1004000, 0x20000, 128)
  | .ve => (0x1005000, 0x20000, 128)
  | .cns => (0x1006000, 0x20000, 128)
  | .cnsTot => (0x1007000, 0x20000, 128)
  | .syn => (0x1008000, 0x20000, 128)
  | .vlt => (0x100C000, 0x20000, 128)
  | .lane => (0x100E000, 0x20000, 128)

/-- A register of the package. `prgIslViolCnt` is PRG_VIOL_CNT of a fabric island; `prgViolCnt` that of a port. -/
inductive Reg where
  | coreSrSeed | cnsCtl | cnsRingBase | cnsRingSize | cnsRingHead | cnsRingTail | cnsRecDropCnt | hngCtl
  | hngStatus | hngDescSeq | hngMacCycCnt | hngStallPwrCnt | hngStallBankCnt | hngStallQfullCnt
  | hngStallOpndCnt | hngTurnCycCnt | hngTurnCnt | hngTurnMissCnt | hngOverlapCnt | hngViolCnt | coreFrozenMap
  | coreBwdCtl | coreWgradSkipCnt | veCtl | veStatus | veDescSeq | veActCycCnt | veStallPwrCnt | veStallTqCnt
  | veStallSrcCnt | veStallWrCnt | veFp32OvfCnt | veFp32InvCnt | vePermOorCnt | veTqMismatchCnt | veOverlapCnt
  | veViolCnt | vltCtl | vltScrubPeriod | vltRetireRsv | vltStatus | vltTemp | vltRemap | vltRetire
  | vltRcmpRange | vltRcmpDesc | vltFlipCtl | vltFlipAddr | vltFlipData | vltFlipMeta | vltCrcMismatchCnt
  | vltTransientCnt | vltLastingCnt | vltRecomputeCnt | vltPoisonReadCnt | vltRmwCnt | vltRefreshPostponeCnt
  | vltRefreshForcedCnt | vltScrubLineCnt | vltMigrateWaitCnt | vltViolCnt | coreStgCeCnt | coreStgUeCnt
  | coreStgConflictCnt | laneCtl | laneStatus | laneDescSeq | lanePassCnt | laneActCycCnt | laneGrantWaitCnt
  | laneBusyWaitCnt | laneRefreshHoldCnt | lanePassRetryCnt | laneViolCnt | coreOptCtl | coreOptLr
  | coreOptBeta1 | coreOptBeta2 | coreOptMaxnorm | coreOptP1 | coreOptP2 | coreOptNorm2 | coreOptClip
  | coreOptT | coreOptStatus | coreTagGateCnt | coreTagSkewCnt | coreClipStepCnt | coreDigestCnt
  | coreDigestMismatchCnt | coreGatherViolCnt | tierCtl | tierObjTableBase | tierObjCount | tierWinTableBase
  | tierWinCount | tierQuery | tierStatus | tierFlashWear | tierPromotePageCnt | tierWbPageCnt | tierMissCnt
  | tierDeferCnt | tierEvictRefusedCnt | tierOccupiedCnt | tierWbWaitCnt | tierStrayWriteCnt | tierFlashCeCnt
  | tierFlashRetryCnt | tierFlashUeCnt | tierFlashBadCnt | tierViolCnt | coreSubstCnt | coreSubstStatus
  | synSqBase | synLendCtl | synTmbCount | synTmbMark | synTmbCfg | synLatchCfg | synLatchState | synLatchOvf
  | synLatchUdf | synPathSet | synStatus | synSigCnt | synWaitCycCnt | synLendCycCnt | synLendCnt
  | synLatchOvfCnt | synLatchUdfCnt | synBoundCnt | synRefusedCnt | synHaspCnt | synViolCnt | prgPortCfg
  | prgPortStatus | prgWlMap | prgKwBase | prgKwCount | prgLaneMon | prgArb | prgReplayBudget | prgTxnTimeout
  | prgRetrain | prgRouteBase | prgLaserMon | prgRedCtl | prgFlitTxCnt | prgFlitRxCnt | prgFecCorrSymCnt
  | prgFecUncorrCnt | prgCrcErrCnt | prgReplayCnt | prgLaneFailCnt | prgLinkFailCnt | prgCreditResyncCnt
  | prgPeerViolCnt | prgCtrlMismatchCnt | prgViolCnt | prgKwResetCnt | prgTxnTimeoutCnt | prgDupDiscardCnt
  | prgIslViolCnt | hubImageStatus | hubImageId | hubImageDigest | hubExpertMask | hubFeed | hubFencedLo
  | hubFencedHi | hubImageRefuseCnt | hubImageViolCnt | hostCtl | hostSession | hostSessionCtl | hostLink
  | hostStepCfg | hostSpoolBase | hostSqBase | hostCqBase | hostEvqBase | hostSqCfg | hostEvqCfg | hostCqCfg
  | hostSqTail | hostCqHead | hostEvqHead | hostSqHead | hostCqTail | hostEvqTail | hostCqPost | hostWinAddr
  | hostWinCfg | hostFlushAddr | hostTornBase | hostTornSize | hostProtBase | hostTornCnt | hostProbeCnt
  | hostFlushCnt | hostDetachCnt | hostRingFullCnt | hostDmaErrCnt | hostWinViolCnt | hostViolCnt
  | hubFltqStatus | hubAdoptStatus | hubRestoreStatus | hubCkptCfg | hubCkptMapBase | hubCkptLossAddr
  | hubCkptTol | hubCkptStatus | coreSaveBase | coreSnapBase | coreRecoveryCfg | hubFltqMergeCnt
  | hubFltqDropCnt | hubDeadboltCnt | hubReplayCnt | hubLineRepairCnt | hubRefillRestartCnt | hubSnapCowCnt
  | hubSnapWaitCnt | hubSnapDeferCnt | hubRestoreCnt | wardLifecycle | wardDebugCtl | wardDebugStatus
  | wardMboxCtl | wardMboxStatus | wardMboxData | wardDbgNonce | wardIdPub | wardSvn | pwrCtl | pwrStatus
  | pwrCoreState | wardVerifyCnt | wardSigFailCnt | wardLockstepCorrCnt | wardRngFailCnt | wardViolCnt
  | pwrHoldCnt | pwrReqRefusedCnt | pwrLimit | pwrIn | pwrConvStatus | pwrLastOff | pwrPool | pwrFmax
  | pwrTempDie | pwrTempLid | pwrPeakCnt | pwrPeakLimitCnt | pwrOvercurrentCnt | pwrBrownoutCnt
  | pwrConvFaultCnt | pwrThrottleMsCnt | pwrViolCnt | hubResetCtl | hubResetStatus | hubPkgNum | hubBootTime
  | hubWarmResetCnt | hubBootFallbackCnt | hubId | hubFwVersion | hubMcodeVersion | hubPhotVersion
  | hubScratch | hubRegWriteRejCnt | hubRelayCtl | hubRelayStatus | hubRelayAddr | hubRelayData | hubTs
  | hubTlmCtl | hubTsCorrCtl | hubTsCorrT0 | hubTsCorrIsl | hubTsCorrT1 | hubClkMeas | hubTraceSel
  | hubTraceHead | hubTraceWrap | hubTraceBase | hubTraceWin | hubMctpEid | hubMctpCtl | hubMctpViolCnt
  | hubVlogBase | hubVlogSize | hubVlogHead | hubVlogTail | hubVlogDropCnt | hubSweepCtl | hubSweepAddr
  | hubSweepStatus | coreAddrViolCnt | hubAddrViolCnt | cnsTot | hubFltqRec
  deriving DecidableEq, Repr

/-- Where a register lies in its sub-block and what it holds. -/
structure RegDesc where
  sub : SubBlock
  off : Nat
  count : Nat
  wide : Bool
  fields : List Field
  deriving DecidableEq, Repr

/-- The field map of each register. -/
def Reg.desc : Reg → RegDesc
  | .coreSrSeed => ⟨.coreBase, 0x0, 1, true, [⟨0, 63, .rwl, 0⟩]⟩
  | .cnsCtl => ⟨.cns, 0x0, 1, false, [⟨0, 0, .rwl, 1⟩, ⟨1, 1, .rwl, 1⟩]⟩
  | .cnsRingBase => ⟨.cns, 0x8, 1, true, [⟨6, 55, .rwl, 0⟩]⟩
  | .cnsRingSize => ⟨.cns, 0x10, 1, false, [⟨0, 20, .rwl, 0x1000⟩]⟩
  | .cnsRingHead => ⟨.cns, 0x18, 1, false, [⟨0, 19, .ro, 0⟩]⟩
  | .cnsRingTail => ⟨.cns, 0x20, 1, false, [⟨0, 19, .rw, 0⟩]⟩
  | .cnsRecDropCnt => ⟨.cns, 0x28, 1, false, [⟨0, 31, .rc, 0⟩]⟩
  | .hngCtl => ⟨.hng, 0x0, 1, false, [⟨0, 3, .rwl, 4⟩, ⟨4, 4, .rwl, 1⟩]⟩
  | .hngStatus => ⟨.hng, 0x8, 1, false, [⟨0, 0, .ro, 0⟩, ⟨1, 4, .ro, 0⟩, ⟨5, 5, .ro, 0⟩, ⟨6, 6, .ro, 0⟩, ⟨7, 11, .ro, 0x10⟩]⟩
  | .hngDescSeq => ⟨.hng, 0x10, 1, false, [⟨0, 31, .ro, 0⟩]⟩
  | .hngMacCycCnt => ⟨.hng, 0x18, 1, true, [⟨0, 63, .rc, 0⟩]⟩
  | .hngStallPwrCnt => ⟨.hng, 0x20, 1, true, [⟨0, 63, .rc, 0⟩]⟩
  | .hngStallBankCnt => ⟨.hng, 0x28, 1, true, [⟨0, 63, .rc, 0⟩]⟩
  | .hngStallQfullCnt => ⟨.hng, 0x30, 1, true, [⟨0, 63, .rc, 0⟩]⟩
  | .hngStallOpndCnt => ⟨.hng, 0x38, 1, true, [⟨0, 63, .rc, 0⟩]⟩
  | .hngTurnCycCnt => ⟨.hng, 0x40, 1, true, [⟨0, 63, .rc, 0⟩]⟩
  | .hngTurnCnt => ⟨.hng, 0x48, 1, false, [⟨0, 31, .rc, 0⟩]⟩
  | .hngTurnMissCnt => ⟨.hng, 0x50, 1, false, [⟨0, 31, .rc, 0⟩]⟩
  | .hngOverlapCnt => ⟨.hng, 0x58, 1, false, [⟨0, 31, .rc, 0⟩]⟩
  | .hngViolCnt => ⟨.hng, 0x60, 1, false, [⟨0, 31, .rc, 0⟩]⟩
  | .coreFrozenMap => ⟨.coreBwd, 0x0, 64, true, [⟨0, 63, .rwl, 0⟩]⟩
  | .coreBwdCtl => ⟨.coreBwd, 0x200, 1, false, [⟨0, 0, .rwl, 1⟩]⟩
  | .coreWgradSkipCnt => ⟨.coreBwd, 0x208, 1, false, [⟨0, 31, .rc, 0⟩]⟩
  | .veCtl => ⟨.ve, 0x0, 1, false, [⟨0, 4, .rwl, 8⟩, ⟨5, 5, .rwl, 1⟩]⟩
  | .veStatus => ⟨.ve, 0x8, 1, false, [⟨0, 0, .ro, 0⟩, ⟨1, 8, .ro, 0⟩, ⟨9, 9, .ro, 0⟩, ⟨10, 14, .ro, 0⟩]⟩
  | .veDescSeq => ⟨.ve, 0x10, 1, false, [⟨0, 31, .ro, 0⟩]⟩
  | .veActCycCnt => ⟨.ve, 0x18, 1, true, [⟨0, 63, .rc, 0⟩]⟩
  | .veStallPwrCnt => ⟨.ve, 0x20, 1, true, [⟨0, 63, .rc, 0⟩]⟩
  | .veStallTqCnt => ⟨.ve, 0x28, 1, true, [⟨0, 63, .rc, 0⟩]⟩
  | .veStallSrcCnt => ⟨.ve, 0x30, 1, true, [⟨0, 63, .rc, 0⟩]⟩
  | .veStallWrCnt => ⟨.ve, 0x38, 1, true, [⟨0, 63, .rc, 0⟩]⟩
  | .veFp32OvfCnt => ⟨.ve, 0x40, 1, true, [⟨0, 63, .rc, 0⟩]⟩
  | .veFp32InvCnt => ⟨.ve, 0x48, 1, true, [⟨0, 63, .rc, 0⟩]⟩
  | .vePermOorCnt => ⟨.ve, 0x50, 1, false, [⟨0, 31, .rc, 0⟩]⟩
  | .veTqMismatchCnt => ⟨.ve, 0x58, 1, false, [⟨0, 31, .rc, 0⟩]⟩
  | .veOverlapCnt => ⟨.ve, 0x60, 1, false, [⟨0, 31, .rc, 0⟩]⟩
  | .veViolCnt => ⟨.ve, 0x68, 1, false, [⟨0, 31, .rc, 0⟩]⟩
  | .vltCtl => ⟨.vlt, 0x0, 1, false, [⟨0, 2, .rwl, 4⟩, ⟨3, 3, .rwl, 1⟩, ⟨4, 4, .rwl, 1⟩, ⟨16, 31, .rwl, 0xc8⟩]⟩
  | .vltScrubPeriod => ⟨.vlt, 0x8, 1, false, [⟨0, 31, .rwl, 0x3840⟩]⟩
  | .vltRetireRsv => ⟨.vlt, 0x10, 1, false, [⟨0, 2, .rwl, 4⟩]⟩
  | .vltStatus => ⟨.vlt, 0x18, 1, false, [⟨0, 1, .ro, 0⟩, ⟨2, 4, .ro, 0⟩, ⟨5, 8, .ro, 0⟩, ⟨9, 11, .ro, 0⟩, ⟨12, 12, .ro, 0⟩]⟩
  | .vltTemp => ⟨.vlt, 0x20, 1, false, [⟨0, 7, .ro, 0⟩, ⟨8, 15, .ro, 0⟩, ⟨16, 23, .ro, 0⟩, ⟨24, 31, .ro, 0⟩]⟩
  | .vltRemap => ⟨.vlt, 0x28, 8, false, [⟨0, 0, .rws, 0⟩, ⟨1, 26, .rws, 0⟩, ⟨27, 29, .rws, 0⟩, ⟨30, 30, .rws, 0⟩]⟩
  | .vltRetire => ⟨.vlt, 0x68, 4, false, [⟨0, 0, .rws, 0⟩, ⟨1, 12, .rws, 0⟩, ⟨13, 24, .rws, 0⟩]⟩
  | .vltRcmpRange => ⟨.vlt, 0x88, 16, true, [⟨0, 25, .rwl, 0⟩, ⟨26, 51, .rwl, 0⟩, ⟨52, 58, .rwl, 0⟩, ⟨59, 59, .rwl, 0⟩]⟩
  | .vltRcmpDesc => ⟨.vlt, 0x108, 16, true, [⟨5, 55, .rwl, 0⟩]⟩
  | .vltFlipCtl => ⟨.vlt, 0x188, 1, false, [⟨0, 0, .rw, 0⟩, ⟨1, 1, .rw, 0⟩, ⟨2, 2, .rw, 0⟩]⟩
  | .vltFlipAddr => ⟨.vlt, 0x190, 1, false, [⟨0, 25, .rw, 0⟩]⟩
  | .vltFlipData => ⟨.vlt, 0x198, 16, true, [⟨0, 63, .rw, 0⟩]⟩
  | .vltFlipMeta => ⟨.vlt, 0x218, 1, true, [⟨0, 47, .rw, 0⟩]⟩
  | .vltCrcMismatchCnt => ⟨.vlt, 0x220, 1, false, [⟨0, 31, .rc, 0⟩]⟩
  | .vltTransientCnt => ⟨.vlt, 0x228, 1, false, [⟨0, 31, .rc, 0⟩]⟩
  | .vltLastingCnt => ⟨.vlt, 0x230, 1, false, [⟨0, 31, .rc, 0⟩]⟩
  | .vltRecomputeCnt => ⟨.vlt, 0x238, 1, false, [⟨0, 31, .rc, 0⟩]⟩
  | .vltPoisonReadCnt => ⟨.vlt, 0x240, 1, false, [⟨0, 31, .rc, 0⟩]⟩
  | .vltRmwCnt => ⟨.vlt, 0x248, 1, true, [⟨0, 63, .rc, 0⟩]⟩
  | .vltRefreshPostponeCnt => ⟨.vlt, 0x250, 1, true, [⟨0, 63, .rc, 0⟩]⟩
  | .vltRefreshForcedCnt => ⟨.vlt, 0x258, 1, false, [⟨0, 31, .rc, 0⟩]⟩
  | .vltScrubLineCnt => ⟨.vlt, 0x260, 1, true, [⟨0, 63, .rc, 0⟩]⟩
  | .vltMigrateWaitCnt => ⟨.vlt, 0x268, 1, false, [⟨0, 31, .rc, 0⟩]⟩
  | .vltViolCnt => ⟨.vlt, 0x270, 1, false, [⟨0, 31, .rc, 0⟩]⟩
  | .coreStgCeCnt => ⟨.coreStg, 0x0, 1, false, [⟨0, 31, .rc, 0⟩]⟩
  | .coreStgUeCnt => ⟨.coreStg, 0x8, 1, false, [⟨0, 31, .rc, 0⟩]⟩
  | .coreStgConflictCnt => ⟨.coreStg, 0x10, 1, true, [⟨0, 63, .rc, 0⟩]⟩
  | .laneCtl => ⟨.lane, 0x0, 1, false, [⟨0, 5, .rwl, 0x20⟩]⟩
  | .laneStatus => ⟨.lane, 0x8, 1, false, [⟨0, 0, .ro, 0⟩, ⟨1, 6, .ro, 0⟩, ⟨7, 7, .ro, 0⟩, ⟨8, 14, .ro, 0⟩, ⟨15, 15, .ro, 0⟩]⟩
  | .laneDescSeq => ⟨.lane, 0x10, 1, false, [⟨0, 31, .ro, 0⟩]⟩
  | .lanePassCnt => ⟨.lane, 0x18, 1, true, [⟨0, 63, .rc, 0⟩]⟩
  | .laneActCycCnt => ⟨.lane, 0x20, 1, true, [⟨0, 63, .rc, 0⟩]⟩
  | .laneGrantWaitCnt => ⟨.lane, 0x28, 1, true, [⟨0, 63, .rc, 0⟩]⟩
  | .laneBusyWaitCnt => ⟨.lane, 0x30, 1, false, [⟨0, 31, .rc, 0⟩]⟩
  | .laneRefreshHoldCnt => ⟨.lane, 0x38, 1, false, [⟨0, 31, .rc, 0⟩]⟩
  | .lanePassRetryCnt => ⟨.lane, 0x40, 1, false, [⟨0, 31, .rc, 0⟩]⟩
  | .laneViolCnt => ⟨.lane, 0x48, 1, false, [⟨0, 31, .rc, 0⟩]⟩
  | .coreOptCtl => ⟨.coreTrn, 0x0, 1, false, [⟨0, 0, .rwl, 1⟩, ⟨1, 1, .rwl, 1⟩, ⟨2, 2, .rwl, 0⟩, ⟨3, 10, .rwl, 0⟩]⟩
  | .coreOptLr => ⟨.coreTrn, 0x8, 1, false, [⟨0, 31, .rw, 0⟩]⟩
  | .coreOptBeta1 => ⟨.coreTrn, 0x10, 1, false, [⟨0, 31, .rwl, 0x3f666666⟩]⟩
  | .coreOptBeta2 => ⟨.coreTrn, 0x18, 1, false, [⟨0, 31, .rwl, 0x3f7fbe77⟩]⟩
  | .coreOptMaxnorm => ⟨.coreTrn, 0x20, 1, false, [⟨0, 31, .rwl, 0x7f800000⟩]⟩
  | .coreOptP1 => ⟨.coreTrn, 0x28, 1, false, [⟨0, 31, .ro, 0x3f800000⟩]⟩
  | .coreOptP2 => ⟨.coreTrn, 0x30, 1, false, [⟨0, 31, .ro, 0x3f800000⟩]⟩
  | .coreOptNorm2 => ⟨.coreTrn, 0x38, 1, false, [⟨0, 31, .ro, 0⟩]⟩
  | .coreOptClip => ⟨.coreTrn, 0x40, 1, false, [⟨0, 31, .ro, 0x3f800000⟩]⟩
  | .coreOptT => ⟨.coreTrn, 0x48, 1, true, [⟨0, 47, .ro, 0⟩]⟩
  | .coreOptStatus => ⟨.coreTrn, 0x50, 1, false, [⟨0, 0, .ro, 0⟩, ⟨1, 1, .ro, 0⟩, ⟨2, 2, .ro, 0⟩]⟩
  | .coreTagGateCnt => ⟨.coreTrn, 0x58, 1, false, [⟨0, 31, .rc, 0⟩]⟩
  | .coreTagSkewCnt => ⟨.coreTrn, 0x60, 1, false, [⟨0, 31, .rc, 0⟩]⟩
  | .coreClipStepCnt => ⟨.coreTrn, 0x68, 1, false, [⟨0, 31, .rc, 0⟩]⟩
  | .coreDigestCnt => ⟨.coreTrn, 0x70, 1, false, [⟨0, 31, .rc, 0⟩]⟩
  | .coreDigestMismatchCnt => ⟨.coreTrn, 0x78, 1, false, [⟨0, 31, .rc, 0⟩]⟩
  | .coreGatherViolCnt => ⟨.coreTrn, 0x80, 1, false, [⟨0, 31, .rc, 0⟩]⟩
  | .tierCtl => ⟨.tier, 0x0, 1, false, [⟨0, 2, .rwl, 1⟩, ⟨3, 3, .rwl, 1⟩, ⟨4, 4, .rwl, 1⟩]⟩
  | .tierObjTableBase => ⟨.tier, 0x8, 1, true, [⟨0, 63, .rwl, 0⟩]⟩
  | .tierObjCount => ⟨.tier, 0x10, 1, false, [⟨0, 13, .rwl, 0⟩]⟩
  | .tierWinTableBase => ⟨.tier, 0x18, 1, true, [⟨0, 63, .rwl, 0⟩]⟩
  | .tierWinCount => ⟨.tier, 0x20, 1, false, [⟨0, 6, .rwl, 0⟩]⟩
  | .tierQuery => ⟨.tier, 0x28, 1, true, [⟨0, 12, .rw, 0⟩, ⟨13, 15, .ro, 0⟩, ⟨16, 19, .ro, 0⟩, ⟨20, 31, .ro, 0⟩, ⟨32, 47, .ro, 0⟩]⟩
  | .tierStatus => ⟨.tier, 0x30, 1, false, [⟨0, 15, .ro, 0⟩, ⟨16, 19, .ro, 0⟩, ⟨20, 31, .ro, 0⟩]⟩
  | .tierFlashWear => ⟨.tier, 0x38, 1, false, [⟨0, 7, .ro, 0⟩]⟩
  | .tierPromotePageCnt => ⟨.tier, 0x40, 1, true, [⟨0, 63, .rc, 0⟩]⟩
  | .tierWbPageCnt => ⟨.tier, 0x48, 1, true, [⟨0, 63, .rc, 0⟩]⟩
  | .tierMissCnt => ⟨.tier, 0x50, 1, true, [⟨0, 63, .rc, 0⟩]⟩
  | .tierDeferCnt => ⟨.tier, 0x58, 1, false, [⟨0, 31, .rc, 0⟩]⟩
  | .tierEvictRefusedCnt => ⟨.tier, 0x60, 1, false, [⟨0, 31, .rc, 0⟩]⟩
  | .tierOccupiedCnt => ⟨.tier, 0x68, 1, false, [⟨0, 31, .rc, 0⟩]⟩
  | .tierWbWaitCnt => ⟨.tier, 0x70, 1, false, [⟨0, 31, .rc, 0⟩]⟩
  | .tierStrayWriteCnt => ⟨.tier, 0x78, 1, false, [⟨0, 31, .rc, 0⟩]⟩
  | .tierFlashCeCnt => ⟨.tier, 0x80, 1, true, [⟨0, 63, .rc, 0⟩]⟩
  | .tierFlashRetryCnt => ⟨.tier, 0x88, 1, false, [⟨0, 31, .rc, 0⟩]⟩
  | .tierFlashUeCnt => ⟨.tier, 0x90, 1, false, [⟨0, 31, .rc, 0⟩]⟩
  | .tierFlashBadCnt => ⟨.tier, 0x98, 1, false, [⟨0, 31, .rc, 0⟩]⟩
  | .tierViolCnt => ⟨.tier, 0xA0, 1, false, [⟨0, 31, .rc, 0⟩]⟩
  | .coreSubstCnt => ⟨.coreSub, 0x0, 1, false, [⟨0, 31, .rc, 0⟩]⟩
  | .coreSubstStatus => ⟨.coreSub, 0x8, 1, false, [⟨0, 0, .ro, 0⟩]⟩
  | .synSqBase => ⟨.syn, 0x0, 1, true, [⟨6, 55, .rwl, 0⟩]⟩
  | .synLendCtl => ⟨.syn, 0x8, 1, false, [⟨0, 15, .rwl, 0xfa0⟩, ⟨16, 16, .rwl, 1⟩]⟩
  | .synTmbCount => ⟨.syn, 0x10, 256, true, [⟨0, 47, .ro, 0⟩]⟩
  | .synTmbMark => ⟨.syn, 0x810, 256, true, [⟨0, 47, .rwl, 0⟩]⟩
  | .synTmbCfg => ⟨.syn, 0x1010, 256, false, [⟨0, 20, .rwl, 0x100000⟩, ⟨21, 22, .rwl, 0⟩]⟩
  | .synLatchCfg => ⟨.syn, 0x1810, 64, false, [⟨0, 20, .rwl, 1⟩, ⟨21, 21, .rwl, 0⟩]⟩
  | .synLatchState => ⟨.syn, 0x1A10, 64, false, [⟨0, 20, .ro, 0⟩, ⟨21, 24, .ro, 0⟩, ⟨25, 28, .ro, 0⟩]⟩
  | .synLatchOvf => ⟨.syn, 0x1C10, 64, true, [⟨0, 47, .ro, 0⟩]⟩
  | .synLatchUdf => ⟨.syn, 0x1E10, 64, true, [⟨0, 47, .ro, 0⟩]⟩
  | .synPathSet => ⟨.syn, 0x2010, 1, false, [⟨0, 3, .ro, 0⟩, ⟨4, 4, .ro, 0⟩]⟩
  | .synStatus => ⟨.syn, 0x2018, 1, false, [⟨0, 1, .ro, 0⟩, ⟨8, 9, .ro, 0⟩, ⟨16, 17, .ro, 0⟩, ⟨24, 25, .ro, 0⟩, ⟨2, 4, .ro, 0⟩, ⟨10, 12, .ro, 0⟩, ⟨18, 20, .ro, 0⟩, ⟨26, 28, .ro, 0⟩, ⟨31, 31, .ro, 0⟩]⟩
  | .synSigCnt => ⟨.syn, 0x2020, 1, true, [⟨0, 63, .rc, 0⟩]⟩
  | .synWaitCycCnt => ⟨.syn, 0x2028, 1, true, [⟨0, 63, .rc, 0⟩]⟩
  | .synLendCycCnt => ⟨.syn, 0x2030, 1, true, [⟨0, 63, .rc, 0⟩]⟩
  | .synLendCnt => ⟨.syn, 0x2038, 1, false, [⟨0, 31, .rc, 0⟩]⟩
  | .synLatchOvfCnt => ⟨.syn, 0x2040, 1, false, [⟨0, 31, .rc, 0⟩]⟩
  | .synLatchUdfCnt => ⟨.syn, 0x2048, 1, false, [⟨0, 31, .rc, 0⟩]⟩
  | .synBoundCnt => ⟨.syn, 0x2050, 1, false, [⟨0, 31, .rc, 0⟩]⟩
  | .synRefusedCnt => ⟨.syn, 0x2058, 1, false, [⟨0, 31, .rc, 0⟩]⟩
  | .synHaspCnt => ⟨.syn, 0x2060, 1, false, [⟨0, 31, .rc, 0⟩]⟩
  | .synViolCnt => ⟨.syn, 0x2068, 1, false, [⟨0, 31, .rc, 0⟩]⟩
  | .prgPortCfg => ⟨.prgPort, 0x0, 1, false, [⟨0, 0, .rwl, 0⟩, ⟨1, 3, .rwl, 7⟩, ⟨4, 4, .rwl, 0⟩, ⟨5, 12, .rwl, 0xff⟩]⟩
  | .prgPortStatus => ⟨.prgPort, 0x8, 1, false, [⟨0, 7, .ro, 0⟩, ⟨8, 15, .ro, 0⟩, ⟨16, 23, .ro, 0⟩, ⟨24, 24, .ro, 0⟩, ⟨25, 25, .ro, 0⟩]⟩
  | .prgWlMap => ⟨.prgPort, 0x10, 8, false, [⟨0, 5, .rwl, 0⟩, ⟨6, 9, .rwl, 0⟩, ⟨10, 10, .rwl, 0⟩]⟩
  | .prgKwBase => ⟨.prgPort, 0x50, 1, true, [⟨0, 55, .rwl, 0⟩]⟩
  | .prgKwCount => ⟨.prgPort, 0x58, 1, false, [⟨0, 12, .rwl, 0⟩]⟩
  | .prgLaneMon => ⟨.prgPort, 0x60, 1, true, [⟨0, 7, .ro, 0⟩, ⟨8, 15, .ro, 0⟩, ⟨16, 23, .ro, 0⟩, ⟨24, 31, .ro, 0⟩, ⟨32, 39, .ro, 0⟩, ⟨40, 47, .ro, 0⟩, ⟨48, 55, .ro, 0⟩, ⟨56, 63, .ro, 0⟩]⟩
  | .prgArb => ⟨.prgPort, 0x68, 1, false, [⟨0, 3, .rwl, 3⟩, ⟨4, 7, .rwl, 1⟩]⟩
  | .prgReplayBudget => ⟨.prgPkg, 0x0, 1, false, [⟨0, 15, .rwl, 0x14⟩]⟩
  | .prgTxnTimeout => ⟨.prgPkg, 0x8, 1, false, [⟨0, 15, .rwl, 0x64⟩]⟩
  | .prgRetrain => ⟨.prgPkg, 0x10, 1, false, [⟨0, 15, .rwl, 0x64⟩]⟩
  | .prgRouteBase => ⟨.prgPkg, 0x18, 1, true, [⟨0, 55, .rwl, 0⟩]⟩
  | .prgLaserMon => ⟨.prgPkg, 0x20, 8, true, [⟨0, 7, .ro, 0⟩, ⟨8, 15, .ro, 0⟩, ⟨16, 23, .ro, 0⟩, ⟨24, 31, .ro, 0⟩, ⟨32, 39, .ro, 0⟩, ⟨40, 47, .ro, 0⟩, ⟨48, 55, .ro, 0⟩, ⟨56, 63, .ro, 0⟩]⟩
  | .prgRedCtl => ⟨.prgIsl, 0x0, 1, false, [⟨0, 0, .rwl, 0⟩, ⟨1, 1, .rwl, 0⟩]⟩
  | .prgFlitTxCnt => ⟨.prgPort, 0x70, 1, true, [⟨0, 63, .rc, 0⟩]⟩
  | .prgFlitRxCnt => ⟨.prgPort, 0x78, 1, true, [⟨0, 63, .rc, 0⟩]⟩
  | .prgFecCorrSymCnt => ⟨.prgPort, 0x80, 1, true, [⟨0, 63, .rc, 0⟩]⟩
  | .prgFecUncorrCnt => ⟨.prgPort, 0x88, 1, false, [⟨0, 31, .rc, 0⟩]⟩
  | .prgCrcErrCnt => ⟨.prgPort, 0x90, 1, false, [⟨0, 31, .rc, 0⟩]⟩
  | .prgReplayCnt => ⟨.prgPort, 0x98, 1, false, [⟨0, 31, .rc, 0⟩]⟩
  | .prgLaneFailCnt => ⟨.prgPort, 0xA0, 1, false, [⟨0, 31, .rc, 0⟩]⟩
  | .prgLinkFailCnt => ⟨.prgPort, 0xA8, 1, false, [⟨0, 31, .rc, 0⟩]⟩
  | .prgCreditResyncCnt => ⟨.prgPort, 0xB0, 1, false, [⟨0, 31, .rc, 0⟩]⟩
  | .prgPeerViolCnt => ⟨.prgPort, 0xB8, 1, false, [⟨0, 31, .rc, 0⟩]⟩
  | .prgCtrlMismatchCnt => ⟨.prgPort, 0xC0, 1, false, [⟨0, 31, .rc, 0⟩]⟩
  | .prgViolCnt => ⟨.prgPort, 0xC8, 1, false, [⟨0, 31, .rc, 0⟩]⟩
  | .prgKwResetCnt => ⟨.prgIsl, 0x8, 1, false, [⟨0, 31, .rc, 0⟩]⟩
  | .prgTxnTimeoutCnt => ⟨.prgIsl, 0x10, 1, false, [⟨0, 31, .rc, 0⟩]⟩
  | .prgDupDiscardCnt => ⟨.prgIsl, 0x18, 1, false, [⟨0, 31, .rc, 0⟩]⟩
  | .prgIslViolCnt => ⟨.prgIsl, 0x20, 1, false, [⟨0, 31, .rc, 0⟩]⟩
  | .hubImageStatus => ⟨.hubImg, 0x0, 1, false, [⟨0, 2, .ro, 0⟩, ⟨8, 15, .ro, 0⟩, ⟨16, 17, .ro, 0⟩, ⟨18, 20, .ro, 7⟩, ⟨21, 21, .ro, 0⟩]⟩
  | .hubImageId => ⟨.hubImg, 0x8, 1, true, [⟨0, 63, .ro, 0⟩]⟩
  | .hubImageDigest => ⟨.hubImg, 0x10, 4, true, [⟨0, 63, .ro, 0⟩]⟩
  | .hubExpertMask => ⟨.hubImg, 0x30, 1, false, [⟨0, 31, .ro, 0⟩]⟩
  | .hubFeed => ⟨.hubImg, 0x38, 1, false, [⟨0, 3, .ro, 0⟩, ⟨4, 7, .ro, 0⟩]⟩
  | .hubFencedLo => ⟨.hubImg, 0x40, 1, true, [⟨0, 63, .ro, 0⟩]⟩
  | .hubFencedHi => ⟨.hubImg, 0x48, 1, true, [⟨0, 63, .ro, 0⟩]⟩
  | .hubImageRefuseCnt => ⟨.hubImg, 0x50, 1, false, [⟨0, 31, .rc, 0⟩]⟩
  | .hubImageViolCnt => ⟨.hubImg, 0x58, 1, false, [⟨0, 31, .rc, 0⟩]⟩
  | .hostCtl => ⟨.host, 0x0, 1, false, [⟨0, 0, .rw, 1⟩, ⟨1, 1, .rw, 1⟩, ⟨16, 31, .rw, 8⟩]⟩
  | .hostSession => ⟨.host, 0x8, 1, true, [⟨0, 1, .ro, 1⟩, ⟨32, 47, .ro, 0⟩, ⟨48, 63, .ro, 0⟩]⟩
  | .hostSessionCtl => ⟨.host, 0x10, 1, true, [⟨0, 1, .wo, 0⟩, ⟨32, 47, .wo, 0⟩]⟩
  | .hostLink => ⟨.host, 0x18, 1, false, [⟨0, 3, .ro, 0⟩, ⟨4, 9, .ro, 0⟩, ⟨10, 10, .ro, 0⟩]⟩
  | .hostStepCfg => ⟨.host, 0x20, 1, false, [⟨0, 7, .rwl, 0⟩]⟩
  | .hostSpoolBase => ⟨.host, 0x28, 1, true, [⟨0, 55, .rwl, 0⟩]⟩
  | .hostSqBase => ⟨.host, 0x30, 16, true, [⟨0, 63, .rw, 0⟩]⟩
  | .hostCqBase => ⟨.host, 0xB0, 16, true, [⟨0, 63, .rw, 0⟩]⟩
  | .hostEvqBase => ⟨.host, 0x130, 1, true, [⟨0, 63, .rw, 0⟩]⟩
  | .hostSqCfg => ⟨.host, 0x138, 16, false, [⟨0, 4, .rw, 4⟩, ⟨5, 5, .rw, 0⟩]⟩
  | .hostEvqCfg => ⟨.host, 0x1B8, 1, false, [⟨0, 4, .rw, 4⟩, ⟨5, 5, .rw, 0⟩]⟩
  | .hostCqCfg => ⟨.host, 0x1C0, 16, false, [⟨0, 4, .rw, 4⟩, ⟨5, 5, .rw, 0⟩, ⟨8, 13, .rw, 3⟩]⟩
  | .hostSqTail => ⟨.door, 0x0, 16, false, [⟨0, 15, .rw, 0⟩]⟩
  | .hostCqHead => ⟨.door, 0x8, 16, false, [⟨0, 15, .rw, 0⟩]⟩
  | .hostEvqHead => ⟨.door, 0x10, 1, false, [⟨0, 15, .rw, 0⟩]⟩
  | .hostSqHead => ⟨.host, 0x240, 16, false, [⟨0, 15, .ro, 0⟩]⟩
  | .hostCqTail => ⟨.host, 0x2C0, 16, false, [⟨0, 15, .ro, 0⟩]⟩
  | .hostEvqTail => ⟨.host, 0x340, 1, false, [⟨0, 15, .ro, 0⟩]⟩
  | .hostCqPost => ⟨.host, 0x348, 16, true, [⟨0, 63, .wo, 0⟩]⟩
  | .hostWinAddr => ⟨.host, 0x3C8, 64, true, [⟨0, 63, .rw, 0⟩]⟩
  | .hostWinCfg => ⟨.host, 0x5C8, 64, true, [⟨0, 0, .rw, 0⟩, ⟨1, 1, .rw, 0⟩, ⟨2, 2, .rw, 0⟩, ⟨3, 3, .rw, 0⟩, ⟨12, 38, .rw, 0⟩]⟩
  | .hostFlushAddr => ⟨.host, 0x7C8, 1, true, [⟨0, 63, .rw, 0⟩]⟩
  | .hostTornBase => ⟨.host, 0x7D0, 1, true, [⟨0, 63, .rw, 0⟩]⟩
  | .hostTornSize => ⟨.host, 0x7D8, 1, false, [⟨0, 31, .rw, 0⟩]⟩
  | .hostProtBase => ⟨.host, 0x7E0, 1, true, [⟨0, 63, .rw, 0⟩]⟩
  | .hostTornCnt => ⟨.host, 0x7E8, 1, true, [⟨0, 63, .rc, 0⟩]⟩
  | .hostProbeCnt => ⟨.host, 0x7F0, 1, true, [⟨0, 63, .rc, 0⟩]⟩
  | .hostFlushCnt => ⟨.host, 0x7F8, 1, false, [⟨0, 31, .rc, 0⟩]⟩
  | .hostDetachCnt => ⟨.host, 0x800, 1, false, [⟨0, 31, .rc, 0⟩]⟩
  | .hostRingFullCnt => ⟨.host, 0x808, 1, false, [⟨0, 31, .rc, 0⟩]⟩
  | .hostDmaErrCnt => ⟨.host, 0x810, 1, false, [⟨0, 31, .rc, 0⟩]⟩
  | .hostWinViolCnt => ⟨.host, 0x818, 1, false, [⟨0, 31, .rc, 0⟩]⟩
  | .hostViolCnt => ⟨.host, 0x820, 1, false, [⟨0, 31, .rc, 0⟩]⟩
  | .hubFltqStatus => ⟨.hubFlt, 0x0, 1, false, [⟨0, 6, .ro, 0⟩, ⟨7, 7, .ro, 0⟩, ⟨8, 14, .ro, 0⟩]⟩
  | .hubAdoptStatus => ⟨.hubFlt, 0x8, 1, true, [⟨0, 2, .rws, 0⟩, ⟨3, 9, .rws, 0⟩, ⟨10, 16, .rws, 0⟩, ⟨17, 19, .rws, 0⟩, ⟨20, 51, .rws, 0⟩]⟩
  | .hubRestoreStatus => ⟨.hubFlt, 0x10, 1, true, [⟨0, 47, .rws, 0⟩, ⟨48, 49, .rws, 0⟩, ⟨50, 52, .rws, 0⟩]⟩
  | .hubCkptCfg => ⟨.hubFlt, 0x18, 1, false, [⟨0, 11, .rwl, 0⟩, ⟨12, 15, .rwl, 0⟩, ⟨16, 31, .rwl, 0⟩]⟩
  | .hubCkptMapBase => ⟨.hubFlt, 0x20, 1, true, [⟨0, 55, .rwl, 0⟩]⟩
  | .hubCkptLossAddr => ⟨.hubFlt, 0x28, 1, true, [⟨0, 55, .rwl, 0⟩]⟩
  | .hubCkptTol => ⟨.hubFlt, 0x30, 1, false, [⟨0, 31, .rwl, 0⟩]⟩
  | .hubCkptStatus => ⟨.hubFlt, 0x38, 1, true, [⟨0, 47, .ro, 0⟩, ⟨48, 48, .ro, 0⟩]⟩
  | .coreSaveBase => ⟨.coreRec, 0x0, 1, true, [⟨0, 55, .rwl, 0⟩]⟩
  | .coreSnapBase => ⟨.coreRec, 0x8, 1, true, [⟨0, 55, .rwl, 0⟩]⟩
  | .coreRecoveryCfg => ⟨.coreRec, 0x10, 1, false, [⟨0, 7, .rwl, 0⟩]⟩
  | .hubFltqMergeCnt => ⟨.hubFlt, 0x40, 1, false, [⟨0, 31, .rc, 0⟩]⟩
  | .hubFltqDropCnt => ⟨.hubFlt, 0x48, 1, false, [⟨0, 31, .rc, 0⟩]⟩
  | .hubDeadboltCnt => ⟨.hubFlt, 0x50, 1, false, [⟨0, 31, .rc, 0⟩]⟩
  | .hubReplayCnt => ⟨.hubFlt, 0x58, 1, false, [⟨0, 31, .rc, 0⟩]⟩
  | .hubLineRepairCnt => ⟨.hubFlt, 0x60, 1, false, [⟨0, 31, .rc, 0⟩]⟩
  | .hubRefillRestartCnt => ⟨.hubFlt, 0x68, 1, false, [⟨0, 31, .rc, 0⟩]⟩
  | .hubSnapCowCnt => ⟨.hubFlt, 0x70, 1, true, [⟨0, 63, .rc, 0⟩]⟩
  | .hubSnapWaitCnt => ⟨.hubFlt, 0x78, 1, false, [⟨0, 31, .rc, 0⟩]⟩
  | .hubSnapDeferCnt => ⟨.hubFlt, 0x80, 1, false, [⟨0, 31, .rc, 0⟩]⟩
  | .hubRestoreCnt => ⟨.hubFlt, 0x88, 1, false, [⟨0, 31, .rc, 0⟩]⟩
  | .wardLifecycle => ⟨.ward, 0x0, 1, false, [⟨0, 1, .ro, 0⟩, ⟨2, 3, .ro, 0⟩, ⟨4, 4, .ro, 0⟩, ⟨5, 5, .ro, 0⟩]⟩
  | .wardDebugCtl => ⟨.ward, 0x8, 1, false, [⟨0, 1, .rw, 0⟩, ⟨2, 2, .wo, 0⟩]⟩
  | .wardDebugStatus => ⟨.ward, 0x10, 1, false, [⟨0, 1, .ro, 0⟩, ⟨2, 2, .ro, 0⟩, ⟨3, 3, .ro, 0⟩, ⟨4, 7, .ro, 0⟩, ⟨8, 15, .ro, 0⟩]⟩
  | .wardMboxCtl => ⟨.ward, 0x18, 1, false, [⟨0, 0, .wo, 0⟩, ⟨1, 1, .wo, 0⟩, ⟨16, 25, .rw, 0⟩]⟩
  | .wardMboxStatus => ⟨.ward, 0x20, 1, false, [⟨0, 0, .ro, 0⟩, ⟨8, 15, .ro, 0⟩]⟩
  | .wardMboxData => ⟨.ward, 0x28, 128, true, [⟨0, 63, .rw, 0⟩]⟩
  | .wardDbgNonce => ⟨.ward, 0x428, 2, true, [⟨0, 63, .ro, 0⟩]⟩
  | .wardIdPub => ⟨.ward, 0x438, 8, true, [⟨0, 63, .ro, 0⟩]⟩
  | .wardSvn => ⟨.ward, 0x478, 1, false, [⟨0, 7, .ro, 0⟩, ⟨8, 15, .ro, 0⟩, ⟨16, 23, .ro, 0⟩]⟩
  | .pwrCtl => ⟨.pwrState, 0x0, 1, false, [⟨0, 2, .wo, 0⟩, ⟨3, 3, .wo, 0⟩]⟩
  | .pwrStatus => ⟨.pwrState, 0x8, 1, false, [⟨0, 2, .ro, 1⟩, ⟨3, 5, .ro, 0⟩, ⟨6, 6, .ro, 0⟩]⟩
  | .pwrCoreState => ⟨.pwrState, 0x10, 4, true, (List.range 32).map (fun i => ⟨2 * i, 2 * i + 1, .ro, 0⟩)⟩
  | .wardVerifyCnt => ⟨.ward, 0x480, 1, false, [⟨0, 31, .rc, 0⟩]⟩
  | .wardSigFailCnt => ⟨.ward, 0x488, 1, false, [⟨0, 31, .rc, 0⟩]⟩
  | .wardLockstepCorrCnt => ⟨.ward, 0x490, 1, false, [⟨0, 31, .rc, 0⟩]⟩
  | .wardRngFailCnt => ⟨.ward, 0x498, 1, false, [⟨0, 31, .rc, 0⟩]⟩
  | .wardViolCnt => ⟨.ward, 0x4A0, 1, false, [⟨0, 31, .rc, 0⟩]⟩
  | .pwrHoldCnt => ⟨.pwrState, 0x30, 1, false, [⟨0, 31, .rc, 0⟩]⟩
  | .pwrReqRefusedCnt => ⟨.pwrState, 0x38, 1, false, [⟨0, 31, .rc, 0⟩]⟩
  | .pwrLimit => ⟨.pwr, 0x0, 1, true, [⟨0, 15, .rw, 0xaf0⟩, ⟨16, 31, .rw, 0xce4⟩, ⟨32, 39, .rw, 5⟩]⟩
  | .pwrIn => ⟨.pwr, 0x8, 1, true, [⟨0, 15, .ro, 0⟩, ⟨16, 31, .ro, 0⟩, ⟨32, 47, .ro, 0⟩, ⟨48, 63, .ro, 0⟩]⟩
  | .pwrConvStatus => ⟨.pwr, 0x10, 1, false, [⟨0, 5, .ro, 0x3f⟩, ⟨6, 11, .ro, 0⟩]⟩
  | .pwrLastOff => ⟨.pwr, 0x18, 1, false, [⟨0, 2, .ro, 0⟩]⟩
  | .pwrPool => ⟨.pwr, 0x20, 8, false, [⟨0, 11, .ro, 0xfa0⟩, ⟨12, 23, .ro, 0⟩]⟩
  | .pwrFmax => ⟨.pwr, 0x60, 136, false, [⟨0, 11, .rwl, 0x578⟩]⟩
  | .pwrTempDie => ⟨.pwr, 0x4A0, 8, false, [⟨0, 7, .ro, 0⟩]⟩
  | .pwrTempLid => ⟨.pwr, 0x4E0, 1, false, [⟨0, 7, .ro, 0⟩, ⟨8, 15, .ro, 0⟩, ⟨16, 23, .ro, 0⟩, ⟨24, 31, .ro, 0⟩]⟩
  | .pwrPeakCnt => ⟨.pwr, 0x4E8, 1, false, [⟨0, 31, .rc, 0⟩]⟩
  | .pwrPeakLimitCnt => ⟨.pwr, 0x4F0, 1, false, [⟨0, 31, .rc, 0⟩]⟩
  | .pwrOvercurrentCnt => ⟨.pwr, 0x4F8, 1, false, [⟨0, 31, .rc, 0⟩]⟩
  | .pwrBrownoutCnt => ⟨.pwr, 0x500, 1, false, [⟨0, 31, .rc, 0⟩]⟩
  | .pwrConvFaultCnt => ⟨.pwr, 0x508, 1, false, [⟨0, 31, .rc, 0⟩]⟩
  | .pwrThrottleMsCnt => ⟨.pwr, 0x510, 1, false, [⟨0, 31, .rc, 0⟩]⟩
  | .pwrViolCnt => ⟨.pwr, 0x518, 1, false, [⟨0, 31, .rc, 0⟩]⟩
  | .hubResetCtl => ⟨.hubBoot, 0x0, 1, false, [⟨0, 1, .wo, 0⟩, ⟨16, 31, .wo, 0⟩]⟩
  | .hubResetStatus => ⟨.hubBoot, 0x8, 1, false, [⟨0, 2, .ro, 0⟩, ⟨3, 3, .ro, 0⟩, ⟨4, 4, .ro, 0⟩, ⟨5, 5, .ro, 0⟩, ⟨6, 13, .ro, 0⟩, ⟨14, 18, .ro, 0⟩]⟩
  | .hubPkgNum => ⟨.hubBoot, 0x10, 1, false, [⟨0, 5, .ro, 0⟩, ⟨6, 6, .ro, 0⟩, ⟨7, 7, .ro, 0⟩]⟩
  | .hubBootTime => ⟨.hubBoot, 0x18, 1, false, [⟨0, 31, .ro, 0⟩]⟩
  | .hubWarmResetCnt => ⟨.hubBoot, 0x20, 1, false, [⟨0, 31, .rc, 0⟩]⟩
  | .hubBootFallbackCnt => ⟨.hubBoot, 0x28, 1, false, [⟨0, 31, .rc, 0⟩]⟩
  | .hubId => ⟨.hubMgmt, 0x0, 1, false, [⟨0, 7, .ro, 0xa1⟩, ⟨8, 23, .ro, 0x1024⟩]⟩
  | .hubFwVersion => ⟨.hubMgmt, 0x8, 1, true, [⟨0, 63, .ro, 0⟩]⟩
  | .hubMcodeVersion => ⟨.hubMgmt, 0x10, 1, true, [⟨0, 63, .ro, 0⟩]⟩
  | .hubPhotVersion => ⟨.hubMgmt, 0x18, 1, true, [⟨0, 63, .ro, 0⟩]⟩
  | .hubScratch => ⟨.hubMgmt, 0x20, 1, true, [⟨0, 63, .rw, 0⟩]⟩
  | .hubRegWriteRejCnt => ⟨.hubMgmt, 0x78, 1, false, [⟨0, 31, .rc, 0⟩]⟩
  | .hubRelayCtl => ⟨.hubMgmt, 0x58, 1, false, [⟨0, 0, .wo, 0⟩, ⟨1, 1, .wo, 0⟩]⟩
  | .hubRelayStatus => ⟨.hubMgmt, 0x60, 1, false, [⟨0, 0, .ro, 0⟩, ⟨1, 3, .ro, 0⟩]⟩
  | .hubRelayAddr => ⟨.hubMgmt, 0x68, 1, true, [⟨0, 55, .rw, 0⟩]⟩
  | .hubRelayData => ⟨.hubMgmt, 0x70, 1, true, [⟨0, 63, .rw, 0⟩]⟩
  | .hubTs => ⟨.hubMgmt, 0x28, 1, true, [⟨0, 63, .ro, 0⟩]⟩
  | .hubTlmCtl => ⟨.hubMgmt, 0x30, 1, false, [⟨0, 15, .rw, 0x64⟩]⟩
  | .hubTsCorrCtl => ⟨.hubMgmt, 0x38, 1, false, [⟨0, 7, .rw, 0⟩, ⟨8, 8, .wo, 0⟩, ⟨9, 9, .ro, 0⟩, ⟨10, 10, .ro, 0⟩]⟩
  | .hubTsCorrT0 => ⟨.hubMgmt, 0x40, 1, true, [⟨0, 63, .ro, 0⟩]⟩
  | .hubTsCorrIsl => ⟨.hubMgmt, 0x48, 1, true, [⟨0, 63, .ro, 0⟩]⟩
  | .hubTsCorrT1 => ⟨.hubMgmt, 0x50, 1, true, [⟨0, 47, .ro, 0⟩, ⟨48, 63, .ro, 0⟩]⟩
  | .hubClkMeas => ⟨.hubMgmt, 0x100, 168, false, [⟨0, 11, .ro, 0⟩]⟩
  | .hubTraceSel => ⟨.hubMgmt, 0x1000, 1, true, [⟨11, 23, .rw, 0⟩]⟩
  | .hubTraceHead => ⟨.hubMgmt, 0x1008, 1, true, [⟨0, 23, .ro, 0⟩]⟩
  | .hubTraceWrap => ⟨.hubMgmt, 0x1010, 1, false, [⟨0, 31, .ro, 0⟩]⟩
  | .hubTraceBase => ⟨.hubMgmt, 0x1018, 1, true, [⟨0, 55, .rwl, 0⟩]⟩
  | .hubTraceWin => ⟨.hubMgmt, 0x1800, 256, true, [⟨0, 63, .ro, 0⟩]⟩
  | .hubMctpEid => ⟨.hubMgmt, 0x800, 1, false, [⟨0, 7, .ro, 0⟩, ⟨8, 15, .ro, 0⟩]⟩
  | .hubMctpCtl => ⟨.hubMgmt, 0x808, 1, false, [⟨0, 0, .rw, 1⟩, ⟨1, 1, .rw, 1⟩]⟩
  | .hubMctpViolCnt => ⟨.hubMgmt, 0x810, 1, false, [⟨0, 31, .rc, 0⟩]⟩
  | .hubVlogBase => ⟨.hubLog, 0x0, 1, true, [⟨0, 55, .rw, 0⟩]⟩
  | .hubVlogSize => ⟨.hubLog, 0x8, 1, false, [⟨0, 16, .rw, 0⟩]⟩
  | .hubVlogHead => ⟨.hubLog, 0x10, 1, false, [⟨0, 15, .ro, 0⟩]⟩
  | .hubVlogTail => ⟨.hubLog, 0x18, 1, false, [⟨0, 15, .rw, 0⟩]⟩
  | .hubVlogDropCnt => ⟨.hubLog, 0x20, 1, false, [⟨0, 31, .rc, 0⟩]⟩
  | .hubSweepCtl => ⟨.hubLog, 0x28, 1, false, [⟨0, 0, .wo, 0⟩, ⟨1, 1, .wo, 0⟩]⟩
  | .hubSweepAddr => ⟨.hubLog, 0x30, 1, true, [⟨0, 55, .rw, 0⟩]⟩
  | .hubSweepStatus => ⟨.hubLog, 0x38, 1, false, [⟨0, 0, .ro, 0⟩, ⟨1, 1, .ro, 0⟩, ⟨2, 2, .ro, 0⟩]⟩
  | .coreAddrViolCnt => ⟨.coreAdr, 0x0, 1, false, [⟨0, 31, .rc, 0⟩]⟩
  | .hubAddrViolCnt => ⟨.hubMgmt, 0x80, 1, false, [⟨0, 31, .rc, 0⟩]⟩
  | .cnsTot => ⟨.cnsTot, 0x0, 256, true, [⟨0, 63, .ro, 0⟩]⟩
  | .hubFltqRec => ⟨.hubFltq, 0x0, 512, true, [⟨0, 63, .ro, 0⟩]⟩

/-- The distance of two instances of an indexed register: one slot, or one doorbell page (R492, R494). -/
def RegDesc.stride (d : RegDesc) : Nat := if d.sub = .door then 0x1000 else 8

/-- The name of the register ends in _CNT (R509). -/
def Reg.isCnt : Reg → Bool
  | .cnsRecDropCnt | .hngMacCycCnt | .hngStallPwrCnt | .hngStallBankCnt | .hngStallQfullCnt | .hngStallOpndCnt
  | .hngTurnCycCnt | .hngTurnCnt | .hngTurnMissCnt | .hngOverlapCnt | .hngViolCnt | .coreWgradSkipCnt
  | .veActCycCnt | .veStallPwrCnt | .veStallTqCnt | .veStallSrcCnt | .veStallWrCnt | .veFp32OvfCnt
  | .veFp32InvCnt | .vePermOorCnt | .veTqMismatchCnt | .veOverlapCnt | .veViolCnt | .vltCrcMismatchCnt
  | .vltTransientCnt | .vltLastingCnt | .vltRecomputeCnt | .vltPoisonReadCnt | .vltRmwCnt
  | .vltRefreshPostponeCnt | .vltRefreshForcedCnt | .vltScrubLineCnt | .vltMigrateWaitCnt | .vltViolCnt
  | .coreStgCeCnt | .coreStgUeCnt | .coreStgConflictCnt | .lanePassCnt | .laneActCycCnt | .laneGrantWaitCnt
  | .laneBusyWaitCnt | .laneRefreshHoldCnt | .lanePassRetryCnt | .laneViolCnt | .coreTagGateCnt
  | .coreTagSkewCnt | .coreClipStepCnt | .coreDigestCnt | .coreDigestMismatchCnt | .coreGatherViolCnt
  | .tierPromotePageCnt | .tierWbPageCnt | .tierMissCnt | .tierDeferCnt | .tierEvictRefusedCnt
  | .tierOccupiedCnt | .tierWbWaitCnt | .tierStrayWriteCnt | .tierFlashCeCnt | .tierFlashRetryCnt
  | .tierFlashUeCnt | .tierFlashBadCnt | .tierViolCnt | .coreSubstCnt | .synSigCnt | .synWaitCycCnt
  | .synLendCycCnt | .synLendCnt | .synLatchOvfCnt | .synLatchUdfCnt | .synBoundCnt | .synRefusedCnt
  | .synHaspCnt | .synViolCnt | .prgFlitTxCnt | .prgFlitRxCnt | .prgFecCorrSymCnt | .prgFecUncorrCnt
  | .prgCrcErrCnt | .prgReplayCnt | .prgLaneFailCnt | .prgLinkFailCnt | .prgCreditResyncCnt | .prgPeerViolCnt
  | .prgCtrlMismatchCnt | .prgViolCnt | .prgKwResetCnt | .prgTxnTimeoutCnt | .prgDupDiscardCnt
  | .prgIslViolCnt | .hubImageRefuseCnt | .hubImageViolCnt | .hostTornCnt | .hostProbeCnt | .hostFlushCnt
  | .hostDetachCnt | .hostRingFullCnt | .hostDmaErrCnt | .hostWinViolCnt | .hostViolCnt | .hubFltqMergeCnt
  | .hubFltqDropCnt | .hubDeadboltCnt | .hubReplayCnt | .hubLineRepairCnt | .hubRefillRestartCnt
  | .hubSnapCowCnt | .hubSnapWaitCnt | .hubSnapDeferCnt | .hubRestoreCnt | .wardVerifyCnt | .wardSigFailCnt
  | .wardLockstepCorrCnt | .wardRngFailCnt | .wardViolCnt | .pwrHoldCnt | .pwrReqRefusedCnt | .pwrPeakCnt
  | .pwrPeakLimitCnt | .pwrOvercurrentCnt | .pwrBrownoutCnt | .pwrConvFaultCnt | .pwrThrottleMsCnt
  | .pwrViolCnt | .hubWarmResetCnt | .hubBootFallbackCnt | .hubRegWriteRejCnt | .hubMctpViolCnt
  | .hubVlogDropCnt | .coreAddrViolCnt | .hubAddrViolCnt => true
  | _ => false

/-- Number of register names. -/
def Reg.total : Nat := 304

/-- Every register name. -/
def allRegs : List Reg := (List.range Reg.total).map Reg.ofNat

/-- Register offset of instance `inst` of the block and index `idx` of the name (R492). -/
def Reg.offset (r : Reg) (inst idx : Nat) : Nat :=
  r.desc.sub.place.1 + inst * r.desc.sub.place.2.1 + r.desc.off + idx * r.desc.stride

/-- The instance and index of a register that lies at a register offset, when it does. -/
def Reg.locate (r : Reg) (o : Nat) : Option (Nat × Nat) :=
  let d := r.desc
  let (base, step, n) := d.sub.place
  if o < base + d.off then none
  else
    let rel := o - base - d.off
    let inst := if step = 0 then 0 else rel / step
    let q := if step = 0 then rel else rel % step
    if inst < n ∧ q / d.stride < d.count ∧ q % d.stride = 0 then some (inst, q / d.stride) else none

/-- The register at a register offset (a slot's first byte), with its block instance and its index. -/
def regAt (o : Nat) : Option (Reg × Nat × Nat) :=
  allRegs.findSome? (fun r => (r.locate o).map (fun p => (r, p.1, p.2)))

/-- The reset value of a register: its fields' reset values in their places. PWR_FMAX_n is 0x578 for a core and
0x640 for a fabric island (R468). -/
def Reg.resetOf (r : Reg) (idx : Nat) : Nat :=
  if r = .pwrFmax ∧ 128 ≤ idx then 0x640
  else r.desc.fields.foldl (fun a f => a + f.rst * 2 ^ f.lo) 0

end Sys2Proof.Machine
end

