-- ==== Sys2Proof/Machine/State.lean ====
section
/-! DEFINITION. The state of one KX1024 package: its registers, its memories, its units and the queue of commands. -/

namespace Sys2Proof.Machine

/-- Why the machine stops with a fault. No command of this block ends in one (see NOTES.md). -/
inductive Fault where
  /-- Raised by nothing: every violation of the spec is counted and the block goes on. Safe. -/
  | none
  deriving DecidableEq, Repr

/-- Why a command has no meaning. -/
inductive Refusal where
  /-- Raised by the dispatcher for a command not modelled yet. Safe. -/
  | notModelled (mnemonic : String)
  /-- Raised by INTERNAL_CHAIN in D3: the spec does not say what a scan of the internal chains does. Safe. -/
  | internalChain
  deriving DecidableEq, Repr

/-! ### Faults and messages -/

/-- The record kinds of R517 with their codes. -/
inductive FaultKind where
  | vltTransient | vltRecomputed | vltTest | vltLasting | vltRetired | vltRetireFail | vltHot | stgUe | stgCeRepeat
  | trnNonfinite | trnTagSkew | trnDigestMismatch | tierWbFail | tierFlashUe | tierSpareLow
  | synBound | synLatchOvf | synLatchUdf | synTallyLimit | synDupMismatch
  | prgLaneFail | prgLaserLow | prgTrainMismatch | prgUnreachable | prgPeerViol | prgCtrlMismatch
  | coreHang | coreRail | coreParity | fltAdoptExhausted | fltShardLost | fltRestoreMismatch | fltPackageLost
  | wardRngFail | wardLockstep | pwrConvFault | pwrConvDegraded | pwrBrownout | pwrOvercurrent | pwrHot
  | pwrRefclkLoss | bootCcb | bootFence | bootHistory | hubH1Lockstep | hubConservation
  | session | protReport | reattached | hostViol
  deriving DecidableEq, Repr

/-- The payload layouts of R516. -/
inductive Payload where
  | line (addr reader flags tag crcStored crcComputed outcome entry page reserve : Nat)
  | sync (obj objKind stream amount a b c : Nat)
  | prg (port lanes keyway cause peerPkg peerPort value : Nat)
  | gen (cause sub d a b c : Nat)
  deriving DecidableEq, Repr

/-- A fault record (R515). `cls`: 0 NOTE, 1 STEP, 2 CORE, 3 RUN, 4 PACKAGE; `core` is the core it concerns (not a byte of
the record). -/
structure FaultRec where
  kind : FaultKind
  cls : Nat
  masked : Bool
  island : Nat
  count : Nat
  hubTime : Nat
  step : Nat
  seq : Nat
  payload : Payload
  core : Option Nat
  deriving DecidableEq, Repr

/-- A record in the queue, its handling window (R390) and whether it has been copied to the event rings. -/
structure FltEntry where
  record : FaultRec
  openWin : Bool
  copied : Bool
  deriving DecidableEq, Repr

/-- An open violation entry of H4 (R520). `counter` is the register offset of the counter. -/
structure OpenViol where
  counter : Nat
  island : Nat
  op : Nat
  count : Nat
  descSeq : Nat
  field : Nat
  hubTime : Nat
  value : Nat
  deriving DecidableEq, Repr

/-- A signal or post on its way to a core (R284, R296, R373): `op` 1 tumbler add, 2 latch post; `src` is the sending unit (R303): an
island, or `2 ^ 10` plus the keyway's key for a message from another package. -/
structure Sig where
  op : Nat
  obj : Nat
  amount : Nat
  path : Nat
  subst : Bool
  src : Nat
  deriving DecidableEq, Repr

/-! ### A core -/

/-- One set of census counts of a descriptor on its way to the totals (R70 to R74). -/
structure CensusSet where
  fmt : Nat
  unit : Nat
  sr : Bool
  sat : Bool
  counts : Census
  deriving DecidableEq, Repr

/-- A dispatched schedule-queue entry (R282, R285). `kind` 0 DESC, 1 SYNC, 2 STEP_ADV, 3 EVAL_END; `waited` waits are satisfied; `target`
is the target of the tumbler wait in hand; `arrived`: the latch take in hand has reached its latch; `stuck`: its wait lies beyond the
bound and holds the stream (R289); `subst` are the stream-window instances that its waits took from the shadow copy (window, instance,
address of the copy, R267); `issued`: the head has moved past it; `taken`: a unit of stream 3 has it in hand; `done`: its descriptor has
completed. `desc` is the descriptor as issued. -/
structure Entry where
  pos : Nat
  kind : Nat
  cls : Nat
  layer : Nat
  addr : Nat
  waits : List Nat
  sigs : List Nat
  skip : Bool
  eval : Bool
  waited : Nat
  target : Option Nat
  stuck : Bool
  subst : List (Nat × Nat × Nat)
  arrived : Bool
  issued : Bool
  taken : Bool
  done : Bool
  desc : Nat
  census : List CensusSet
  deriving DecidableEq, Repr

/-- A waiting latch take or held try, in arrival order (R293, R294). -/
structure Take where
  latch : Nat
  stream : Nat
  amount : Nat
  deriving DecidableEq, Repr

/-- A hasp in progress (R297): the gateways whose flush is outstanding, those that came back
TORN, its descriptor, the substitution mark of its flag (R373), and whether its flag write is on its way. -/
structure HaspRun where
  pos : Nat
  flushes : List Nat
  torn : List Nat
  desc : Nat
  mark : Bool
  written : Bool
  deriving DecidableEq, Repr

/-- Use of an accumulator bank (R77, R95): free, a tile in progress (partial), final and waiting for its write-out, or held
with no descriptor at work on it. -/
inductive BankUse where
  | free
  | active
  | final
  | held
  deriving DecidableEq, Repr

/-- An accumulator bank: ES40 patterns by `128 * row + col` (unlisted: +0), whether the bank counts as held (a continued bank
does until the descriptor that continues it writes out, R95) with its tag, and for a tile in progress its descriptor's position,
its coordinates and its next chunk (R107). -/
structure Bank where
  use : BankUse
  held : Bool
  tag : Nat
  pos : Nat
  ti : Nat
  tj : Nat
  next : Nat
  acc : SMap Nat
  deriving DecidableEq, Repr

/-- A bank with nothing in it. -/
def Bank.empty : Bank := ⟨.free, false, 0, 0, 0, 0, 0, []⟩

/-- The pinned register (R102): operand address, format field (128 bits), role (false left, true right) and the tile's
bytes (unlisted: zero). -/
structure PinReg where
  addr : Nat
  fmt : Nat
  role : Bool
  tile : SMap Nat
  deriving DecidableEq, Repr

/-- A tile-queue slot (R99): its header, and the element codes and scale bytes of the tile (unlisted: zero, 0x7F). -/
structure TqSlot where
  pos : Nat
  ti : Nat
  tj : Nat
  fmt : Nat
  rows : Nat
  cols : Nat
  stepTag : Nat
  last : Bool
  codes : SMap Nat
  scales : SMap Nat
  deriving DecidableEq, Repr

/-- The matrix descriptor in hand: the next output tile to begin, the bank of the tile in progress, tiles that have reached every
destination so far, whether the write-out of the next one has ended while some of its lines are not yet stored, whether a tile
has continued a held bank, whether its output overlaps an operand (R94), whether PIN_SEL's operand comes from the pinned
register (R103), whether its HOLD is honoured (R95), and its census set. -/
structure HngJob where
  desc : Nat
  pos : Nat
  eval : Bool
  rcmp : Bool
  nextTile : Nat
  bank : Option Nat
  written : Nat
  leaving : Bool
  contFound : Bool
  overlap : Bool
  fromReg : Bool
  hold : Bool
  census : CensusSet
  deriving DecidableEq, Repr

/-- What a recompute suspends (R172): the descriptor in hand and the banks. -/
structure HngSaved where
  job : Option HngJob
  banks : List Bank
  deriving DecidableEq, Repr

/-- The hinge array of a core (R77, R99, R102, R107). -/
structure Hng where
  banks : List Bank
  pin : Option PinReg
  tq : List TqSlot
  job : Option HngJob
  saved : Option HngSaved
  deriving DecidableEq, Repr

def Hng.idle : Hng := ⟨List.replicate 4 Bank.empty, none, [], none, none⟩

/-- A walk position of the vector engine (R160): batch, tile (for a row operation tile row), row of vectors and vector within it,
and pass. -/
structure VePos where
  batch : Nat
  tile : Nat
  row : Nat
  pass : Nat
  vec : Nat
  deriving DecidableEq, Repr

/-- The vector-engine descriptor in hand: the next vector of its walk, the slots it reads now and those it has retired, whether a
LAST slot ended the supply (R155), the row-state store as FP32 patterns (R129, R160), the results so far of a reduction or of
gain sums (R122, R148), bytes of the present tiles not yet stored by line (none: not written), lines of vaults written and not
yet known to be stored, output tiles whose TILE_TMB waits for them (R157), and the counts of its census sets. -/
structure VeJob where
  desc : Nat
  pos : Nat
  eval : Bool
  rcmp : Bool
  walk : VePos
  held : Nat
  retired : Nat
  lastSeen : Bool
  rowState : List Nat
  result : List Nat
  ov : SMap (List (Option Nat))
  stores : List (Nat × Nat)
  due : Nat
  counts : List Census
  deriving DecidableEq, Repr

/-- The vector engine of a core: its descriptor, what a recompute suspends (R172), and the OP of its last descriptor. -/
structure Ve where
  job : Option VeJob
  saved : Option (Option VeJob)
  lastOp : Nat
  deriving DecidableEq, Repr

/-- A request that waits for a lock, a page migration, a fence or a pass set (R171, R177, R203, R262): a read, or a write
of `bytes` from byte `off`. `unit`: the unit that waits for the line and takes it once it is delivered, by its number: its island
plus 256 times its place there (a core's sequencer 0, hinge array 1, vector engine 2). `rcmp`: a recompute's write (R171 step 1). -/
structure VltReq where
  src : Nat
  line : Nat
  write : Bool
  off : Nat
  tag : Nat
  bytes : List Nat
  unit : Option Nat
  rcmp : Bool
  deriving DecidableEq, Repr

/-- A line buffer of a lane (R190): which line it holds, data and metadata: as the lane read it, or as it wrote it. -/
structure LaneLine where
  line : Nat
  tag : Nat
  crc : Nat
  flags : Nat
  data : List Nat
  deriving DecidableEq, Repr

/-- Progress of one bank through a lane descriptor (R199 to R208). `next` items are done; `size` items are in the batch
whose master work is in hand (R201), `sub` of them finished; `part` items are in the pass in hand; `master`: its next pass
is a master pass; `claimed` counts the lines of its pass set, which stand in the first line buffers; `failed` is a line whose outcome
it waits for (R204); `waits`: its write waits for a snapshot frame (R408). -/
structure LaneBank where
  next : Nat
  size : Nat
  sub : Nat
  part : Nat
  master : Bool
  token : Bool
  claimed : Option Nat
  written : Bool
  stopped : Bool
  failed : Option Nat
  waiting : List VltReq
  waits : Bool
  deriving DecidableEq, Repr

def LaneBank.zero : LaneBank := ⟨0, 0, 0, 0, false, false, none, false, false, none, [], false⟩

/-- The registers of a bank lane (R190): K0 to K15 (the constants, or the hash state of R215), A0 to A3 of the 16 units, the line
buffers LB0 to LB15. They hold what they held when no pass is in hand. -/
structure LaneUnit where
  k : List Nat
  acc : List Nat
  lb : List LaneLine
  deriving DecidableEq, Repr

/-- A bank lane at reset: every register zero (log entry 5). -/
def LaneUnit.zero : LaneUnit :=
  ⟨List.replicate 16 0, List.replicate 64 0, List.replicate 16 ⟨0, 0, 0, 0, List.replicate 128 0⟩⟩

/-- A lane descriptor in hand (R193) with its constants as issued (R229), the step tag it carries (R197), per-bank
progress and the counts of its census sets. -/
structure LaneJob where
  desc : Nat
  pos : Nat
  eval : Bool
  rcmp : Bool
  tag : Nat
  banks : SMap LaneBank
  counts : List Census
  deriving DecidableEq, Repr

/-- The lanes of a vault: the descriptor in hand, what a recompute suspends, the registers by bank; `passes` counts ended passes, and
`ended` gives the serial of each bank's last one (the order of R202). -/
structure Lane where
  job : Option LaneJob
  saved : Option (Option LaneJob × SMap LaneUnit)
  units : SMap LaneUnit
  passes : Nat
  ended : SMap Nat
  deriving DecidableEq, Repr

def Lane.idle : Lane := ⟨none, none, [], 0, []⟩

/-- What a locked line waits for (R171). -/
inductive LockPhase where
  | refetch
  | recompute
  | reread
  deriving DecidableEq, Repr

/-- A line locked by the refetch-or-recompute rule: what the first read saw, who read, what it waits for and the
requests that wait in arrival order. -/
structure LineLock where
  line : Nat
  req : VltReq
  flags : Nat
  tag : Nat
  crcStored : Nat
  crcComputed : Nat
  test : Bool
  lane : Bool
  phase : LockPhase
  waiting : List VltReq
  deriving DecidableEq, Repr

/-- A page retirement in progress (R177). -/
structure Retiring where
  page : Nat
  reserve : Nat
  waiting : List VltReq
  deriving DecidableEq, Repr

/-- A line as the controller has delivered it to a unit that waited for it (R168, R171), by the unit's number, until the unit takes
it. -/
structure Delivered where
  reader : Nat
  line : Nat
  tag : Nat
  flags : Nat
  data : List Nat
  deriving DecidableEq, Repr

/-- The vault controller's state of one vault that is no register. `scrubSkipped` are lines that the patrol scrub skipped in the row
group it is in, `scrubDue` those that it returns to now (R180). `escalate`: a second lasting fault met a retirement in
progress, and the hub's action on it is due (R178, R390). `heldWrites` wait for a fence or a snapshot frame (R261, R408). -/
structure Vlt where
  locks : List LineLock
  delivered : List Delivered
  escalate : Bool
  badSpares : List Nat
  debt : SMap Nat
  bandNext : Option Nat
  retiring : Option Retiring
  scrubPos : Nat
  scrubSkipped : List Nat
  scrubDue : List Nat
  selfRefresh : Bool
  hubOnly : Bool
  heldWrites : List VltReq
  deriving DecidableEq, Repr

def Vlt.idle : Vlt := ⟨[], [], false, [], [], none, none, 0, [], [], false, false, []⟩

/-- A recompute waiting or running on a core (R172): the descriptor's address, the vault and line that asked, its unit, and
whether the line still waits for it (not after RCMP_TIMEOUT). -/
structure RcmpReq where
  descAddr : Nat
  vault : Nat
  line : Nat
  unit : Nat
  live : Bool
  deriving DecidableEq, Repr

/-- The deadbolt states of R393. -/
inductive Fence where
  | none
  | suspect
  | fencing
  | dark
  | adopted
  deriving DecidableEq, Repr

/-- A core and its vault: everything that is no register. `step` is the step counter (R34); `evalRun`: an eval slot is running; `streams`
are the four streams, oldest entry first; `inbound` is the buffer of R303, `held` the posts held at their latches by R294; `dup` are the
synchronisation objects whose second copy differs (R304: kind 0 tumbler, 1 latch, 2 path set, 3 hasp flag; object; field 0 COUNT, 1 MARK
or OVF, 2 UDF, 3 the configuration; second copy); `substs` are the waits that the core took from a shadow copy (tumbler, target, window,
instance, address of the copy, R267); `released`: a wait of a lent core has been satisfied (R301); `adopts` is the fenced core whose ranks
it has adopted (R395); `normAt` is the step of the last norm message applied (R324: a repeat changes nothing). -/
structure Core where
  step : Nat
  pos : Nat
  evalRun : Bool
  streams : List (List Entry)
  takes : List Take
  held : List Sig
  dup : List (Nat × Nat × Nat × Nat)
  substs : List (Nat × Nat × Nat × Nat × Nat)
  sigSeen : SMap Nat
  hasp : Option HaspRun
  lent : Bool
  released : Bool
  saveReq : Bool
  frozen : Bool
  inbound : List Sig
  withhold : Bool
  boundStop : Bool
  halted : Bool
  missed : Nat
  rcmpQ : List RcmpReq
  rcmpRun : Option RcmpReq
  hng : Hng
  ve : Ve
  lane : Lane
  vlt : Vlt
  fence : Fence
  adopter : Option Nat
  adopts : Option Nat
  stgFix : SMap Nat
  lrSample : Nat
  normAt : Option Nat
  deriving DecidableEq, Repr

/-- A core with nothing in it. -/
def Core.reset : Core :=
  ⟨0, 0, false, [[], [], [], []], [], [], [], [], [], none, false, false, false, false, [], false, false, false, 0, [], none,
    Hng.idle, ⟨none, none, 0⟩, Lane.idle, Vlt.idle, .none, none, none, [], 0, none⟩

/-- A context save (R302, R397): the core as it stood, its registers, the step, the generation (`gen`: 0 a requested save, 1 S(s), 2
D(s)), and the vault that holds it (the core's own, or its successor's for the mirror), and which of the two save slots. -/
structure Save where
  core : Nat
  home : Nat
  slot : Nat
  step : Nat
  gen : Nat
  state : Core
  regs : List (Nat × BitVec 64)
  slots : List (Nat × Nat)
  deriving DecidableEq, Repr

/-- What leaves the package, in the order in which it leaves. -/
inductive Out where
  /-- The lead's list of the shards that still have a copy on a surviving package (R411). -/
  | shardsLeft (shards : List Nat)
  /-- Line data to a reader: island, vault, line, status (0 OK, 1 POISON, 2 TEST), data. -/
  | lineData (reader vault line status : Nat) (data : List Nat)
  /-- A frame sent on a lane of a port (R309): its frame word (lane index, frame count, lane status) and its five flits, 256 bytes
  each (R315). -/
  | frame (port lane count status : Nat) (flits : List (List Nat))
  /-- What this end sends on a lane in training (R313): its package and port number, port mode, and 8 bytes of the image digest. -/
  | training (port lane pkg mode digest : Nat)
  /-- A host-bound write of this gateway: bus address, bytes, Relaxed Ordering, ID-Based Ordering (R376). -/
  | pcieWrite (addr : Nat) (bytes : List Nat) (ro ido : Bool)
  /-- A read of host memory by the gateway: bus address, length, tag of the job or flush. -/
  | pcieRead (addr len tag : Nat)
  /-- A page of an object on its way to its remote home (R263): keyway, object, page, its lines that are not zero. -/
  | tierPage (keyway obj page : Nat) (lines : List (Nat × List Nat))
  /-- A read of a page of an object at its remote home (R273). -/
  | tierRead (keyway obj page : Nat)
  /-- Bytes that hub DMA writes into the remote backing store of an object, with their tag (R254). -/
  | tierWrite (keyway obj byte tag : Nat) (bytes : List Nat)
  /-- An MSI-X vector raised (R375). -/
  | msix (vec : Nat)
  /-- The lead's report of a refused image to the host (R31, R355): the package that refuses, its code, IMAGE_ID. -/
  | imageRefused (pkg code id : Nat)
  | fencedCore (pkg core : Nat)
  /-- A message between hubs: kind, package, fields. -/
  | hub (kind pkg : Nat) (args : List Nat)
  /-- A message over MCTP from its type byte on, or over the DOE mailbox: binding (0 SMBus, 1 PCIe, 2 DOE), bytes. -/
  | mctp (binding : Nat) (bytes : List Nat)
  /-- A register value answered to a reader: path, value. -/
  | regData (path value : Nat)
  /-- Bits shifted out on TDO by a boundary-scan operation (R435). -/
  | tdo (bits : List Nat)
  /-- A pin of the package driven to a level. -/
  | pin (name : Nat) (level : Bool)
  deriving DecidableEq, Repr

/-! ### Reduction-buffer slots -/

/-- The reduction buffers of the eight fabric islands. `decls` and `data` are keyed by `island * 2048 + slot`, `data`
with the element below (an unlisted element holds +0); `counts` is the declared number of slots of an island;
`reading` are the slots whose read-out is not yet acknowledged (R326). -/
structure Slots where
  counts : SMap Nat
  decls : SMap (Option SlotDecl)
  data : SMap Nat
  reading : List Nat
  deriving DecidableEq, Repr

def Slots.none : Slots := ⟨[], [], [], []⟩
/-! ### The structure image -/

/-- A virtual rank (R347) and the core at which it stands now (R395). `role`: 0 working, 1 replica. -/
structure VRank where
  pkg : Nat
  core : Nat
  role : Nat
  stage : Nat
  dp : Nat
  deriving DecidableEq, Repr

/-- A shard (R348): its tensor and tiles, owner, replicas, common-feed mark, and vault byte of its first group. -/
structure Shard where
  tensor : Nat
  t0 : Nat
  tiles : Nat
  owner : Nat
  reps : List Nat
  common : Bool
  base : Nat
  deriving DecidableEq, Repr

/-- An image load in progress (R355): its ring and job, the header with directory and signature as fetched, the sections
as fetched (in directory order), the digest announced, the packages that have reported with their codes, and whether SEAL
has been sent, the package that leads, and the gateway that was the lead before. `ring` 16: this package does not lead. -/
structure Staged where
  ring : Nat
  jid : Nat
  head : List Nat
  secs : List (List Nat)
  digest : List Nat
  ready : List (Nat × Nat)
  sealing : Bool
  lead : Nat
  oldLead : Nat
  deriving DecidableEq, Repr

/-- What the package holds of its image: the packages with their feed domains and gateway indices, the tables of R347 to R349 and R352,
the mirror ring, the digest interval (R243), the micro-batches of a step (R241, R242), the protection report's shards, a load that is held
or staged, a quiesce job in hand (ring, job) with the packages that are quiet, the gateways' answers to the lead, packages declared lost,
and IMAGE_ID of the last load led here that ended in a refusal (R31), and whether the partition stands at a quiesce point. -/
structure Img where
  packages : List Nat
  feeds : List (Nat × Nat)
  gateways : List (Nat × Nat)
  ranks : List VRank
  shards : List Shard
  red : List Nat
  bcast : List Nat
  dig : List Nat
  adopt : List Nat
  reserved : Nat
  mirror : List Nat
  digestInt : Nat
  microBatches : Nat
  ckptInt : Nat
  held : Option (Nat × Nat)
  staged : Option Staged
  quiesce : Option (Nat × Nat)
  quiet : List Nat
  sealed : List Nat
  lost : List Nat
  lostRep : List Nat
  refusedId : Option Nat
  point : Bool
  deriving DecidableEq, Repr

def Img.none : Img := ⟨[], [], [], [], [], [], [], [], [], 0, [], 0, 0, 0, .none, .none, .none, [], [], [], [], .none, false⟩

/-! ### The fabric -/

/-- The lane states of R312. -/
inductive PLaneState where
  | dark
  | training
  | up
  | spare
  | keepalive
  | failed
  deriving DecidableEq, Repr

/-- A lane of a port (R309, R312): its state, the hub times of the uncorrectable frames and the corrected symbols (time, count)
that arrived in the last millisecond, the counts of the replay episode, whether it is the spare that has joined the link, and the
frames sent (16 bits). -/
structure PLane where
  state : PLaneState
  uncorr : List Nat
  corr : List (Nat × Nat)
  epUncorr : Nat
  epCorr : Nat
  joined : Bool
  frames : Nat
  deriving DecidableEq, Repr

def PLane.dark : PLane := ⟨.dark, [], [], 0, 0, false, 0⟩

/-- A sequenced flit (R315) kept for replay, and how often it has been sent. -/
structure Flit where
  seq : Nat
  kw : Nat
  ctl : Bool
  kseq : Nat
  payload : List Nat
  sends : Nat
  deriving DecidableEq, Repr

/-- A link (R310, R317), keyed by port and lowest lane: up or not, the next SEQ to send and to accept, the flits not yet
acknowledged (oldest first), the flits outstanding at the start of the episode, an episode seen by the receiver, whether a
NAK for the expected value is out, bad SEQs and bad ACKs in a row (R332), the next lane, the peer's lane set, and whether an ACK is due
to the peer. -/
structure Link where
  up : Bool
  txSeq : Nat
  rxSeq : Nat
  unacked : List Flit
  episode : Option Nat
  rxEpisode : Option Nat
  naked : Bool
  badSeq : Nat
  badAck : Nat
  turn : Nat
  peerMask : Nat
  ackDue : Bool
  deriving DecidableEq, Repr

def Link.down : Link := ⟨false, 0, 0, [], none, none, false, 0, 0, 0, 0xFF, false⟩

/-- The arbiter of a port (R320): whose turn it is of classes 1 and 2, the flits sent in that turn, and the keyway served last in
class 0, in classes 1 and 3, and in class 2. -/
structure Arb where
  turn : Nat
  used : Nat
  last0 : Nat
  last1 : Nat
  last2 : Nat
  deriving DecidableEq, Repr

def Arb.start : Arb := ⟨1, 0, 0, 0, 0⟩

/-- A keyway of a port (R318, R319, R321, R322), keyed by `4096 * port + keyway`: its table entry, the credits held as sender, the
receiver's ledger (free, granted, occupied, returns pending), the DATA flits and control payloads that wait to be sent, KSEQ of both
directions, the partial message received, its epoch, DATA stopped by a RESYNC (1 to be answered, 2 answered), RESYNC and RESET sent and
not answered, the serials of SIGNAL messages, and the peer violations merged since the last record (R332). -/
structure Kw where
  cls : Nat
  access : Nat
  peer : Nat
  peerPort : Nat
  die : Nat
  rx : Nat
  fwdPort : Nat
  fwdKw : Nat
  held : Nat
  free : Nat
  out : Nat
  occ : Nat
  pend : Nat
  txq : List (Nat × List Nat)
  ctlq : List (List Nat)
  kseqTx : Nat
  kseqRx : Nat
  part : List Nat
  epoch : Nat
  stop : Nat
  resync : Bool
  reset : Bool
  sigTx : Nat
  sigRx : Nat
  violAt : Option Nat
  violN : Nat
  deriving DecidableEq, Repr

/-- A message without its transaction number (R324). `core` is the 4-bit field. -/
structure Msg where
  kind : Nat
  core : Nat
  addr : Nat
  body : List Nat
  deriving DecidableEq, Repr

/-- Who waits for a transaction (R325): part of a fabric descriptor of a core, a node of a reduction, a destination of its root, a signal, a
flush or flag of a hasp, a job of the gateway,
a relay (0 the relay window, 1 and 2 MCTP), a page or the trailer of a checkpoint, 32 lines read back from one, half an update group to
be repaired from a source (128 * package + core), or a completion
entry forwarded to another gateway. -/
inductive TxnFor where
  | job (core pos part : Nat)
  | node (group tag : Nat)
  | dest (group tag ix : Nat)
  | norm
  | sig
  | flush (core pos gw : Nat)
  | flag (core pos : Nat)
  | relay (who : Nat)
  | host (job : Nat)
  | ckpt (vault page : Nat)
  | ckptRead (vault line : Nat)
  | repair (vault line source : Nat)
  | post
  deriving DecidableEq, Repr

/-- An outstanding transaction of a fabric island, keyed by `2 ^ 24 * island + number`: its keyway, its message for a
reissue, its generation, and whether its timer has expired once, or while an event was pending on its route (R325). -/
structure Txn where
  owner : TxnFor
  pkg : Nat
  cls : Nat
  kw : Nat
  msg : Msg
  gen : Nat
  expired : Bool
  waits : Bool
  deriving DecidableEq, Repr

/-- A message that has arrived whole, or a control payload: `src` is the keyway's key, `2 ^ 16 + port` and lane for a link,
or `2 ^ 17` plus the island for a message within the package. `core` is 16 or more once its wait has been counted. -/
structure InMsg where
  src : Nat
  die : Nat
  kind : Nat
  core : Nat
  txn : Nat
  gen : Nat
  addr : Nat
  body : List Nat
  deriving DecidableEq, Repr

/-- An internal node of a reduction tree hosted here (R328), for one chunk: its children's values as FP32 patterns with their
FTZ counts. -/
structure RedNode where
  group : Nat
  tag : Nat
  level : Nat
  ix : Nat
  chunk : Nat
  compress : Bool
  left : Option (List Nat × Nat)
  right : Option (List Nat × Nat)
  deriving DecidableEq, Repr

/-- A root hosted here (R329): the result's chunks, FTZ counts, the descriptor it uses and the destinations whose lines are
not yet stored. -/
structure RedRoot where
  group : Nat
  tag : Nat
  chunks : SMap (List Nat)
  ftz : Nat
  desc : Nat
  left : List Nat
  deriving DecidableEq, Repr

/-- A request of a fabric descriptor that waits for one of the core's 128 transactions (R325). -/
structure Todo where
  part : Nat
  pkg : Nat
  die : Nat
  msg : Msg
  deriving DecidableEq, Repr

/-- A fabric descriptor of a core in hand (R325, R327, R331): its step tag at issue, the next part to read, the lines
answered by destination, the requests that wait, whether every part has been read, and a failure. -/
structure FabJob where
  core : Nat
  pos : Nat
  desc : Nat
  tag : Nat
  next : Nat
  acks : SMap Nat
  todo : List Todo
  sent : Bool
  failed : Bool
  deriving DecidableEq, Repr

/-- The Proing fabric of the package. `arb` are the arbiters of the ports. `routes` lists, by `4 * package + class`, the keyways of the
route in order, `cur` the one in use; `descs` are the RED descriptors that cores of the package have issued, by group, tag and rank;
`accepted` the chunks accepted (group, tag, level, index, chunk); `digests` the digest results by group, tag and rank. -/
structure Prg where
  lanes : SMap PLane
  arb : SMap Arb
  links : SMap Link
  kws : SMap (Option Kw)
  routes : SMap (List Nat)
  cur : SMap Nat
  txns : SMap (Option Txn)
  nextTxn : SMap Nat
  inbox : List InMsg
  nodes : List RedNode
  roots : List RedRoot
  accepted : List (Nat × Nat × Nat × Nat × Nat)
  descs : List (Nat × Nat × Nat × Nat)
  digests : List (Nat × Nat × Nat × List Nat)
  jobs : List FabJob
  oma : SMap (Option Nat)
  laser : SMap (Option Nat)
  strays : SMap (Option (Nat × Nat))
  deriving DecidableEq, Repr

def Prg.none : Prg := ⟨[], [], [], [], [], [], [], [], [], [], [], [], [], [], [], [], [], []⟩

/-! ### Memory tiers -/

/-- What a frame of a vault holds (R261, R265): `none` belongs to no object; `frozen`, `scratch` and `slot` are resident
frames whose state never changes. A fenced frame remembers whether it is dirty, or belongs to a frozen or a scratch object. -/
inductive Frame where
  | none
  | free
  | clean
  | dirty
  | fencedDirty
  | fencedClean
  | fencedFrozen
  | fencedScratch
  | frozen
  | scratch
  | slot
  deriving DecidableEq, Repr

/-- A tier request (R256): `src` is the issuing core, or 128 plus the submission ring; `pos` its schedule-queue position or
JOB_ID; `raised`: it has raised the pin count. -/
structure TierReq where
  req : Nat
  pin : Bool
  obj : Nat
  src : Nat
  pos : Nat
  status : Nat
  tmb : Nat
  raised : Bool
  deriving DecidableEq, Repr

/-- A request that has completed with a status code and whose status word waits to be stored (R257). -/
structure TierAnswer where
  req : TierReq
  code : Nat
  word : Nat
  deriving DecidableEq, Repr

/-- The object states of R255. -/
inductive ObjState where
  | cold
  | promoting
  | resident
  | cleaning
  | evicting
  deriving DecidableEq, Repr

/-- An object (R250) and its state. `kind` 0 frozen, 1 state, 2 scratch; `home` 0 flash, 1 remote, 2 none; `res` its vault
and first page; `joined` the requests that complete with the transit in hand, `flushed` those that wait for the last
program of a cleaning; `promote` the promotions for which it is evicted; `next` the page at which the transit stands; `waits`: that
page has met a pass set (R203). -/
structure TierObj where
  kind : Nat
  home : Nat
  group : Nat
  pages : Nat
  res : Option (Nat × Nat)
  shadow : Nat
  back : Nat
  state : ObjState
  pins : Nat
  deferred : List TierReq
  joined : List TierReq
  flushed : List (Nat × TierReq)
  promote : List TierReq
  next : Nat
  failed : Bool
  waits : Bool
  round : Nat
  deriving DecidableEq, Repr

/-- A stripe unit on its way (R274): the read-retry level reached, the blocks that still fail, delivered or not. -/
structure FetchUnit where
  level : Nat
  bad : List Nat
  done : Bool
  deriving DecidableEq, Repr

/-- A page being read from flash: for the object itself (`dst` 0) or for window `dst - 1`. -/
structure Fetch where
  dst : Nat
  obj : Nat
  page : Nat
  units : SMap (Option FetchUnit)
  deriving DecidableEq, Repr

/-- A staging frame in use (R262): its vault and number, the object's page, whether the copy is made, the units not yet
programmed, and the cleaning that staged it, if one did. -/
structure Staging where
  vault : Nat
  frame : Nat
  obj : Nat
  page : Nat
  copied : Bool
  left : List Nat
  round : Option Nat
  deriving DecidableEq, Repr

/-- A stream window (R264): the home core, the slots' first page, the instance counter, whether it is being filled, in which vault and
with which object, and whether a page of the fill has met a pass set (R203). -/
structure Window where
  subst : Bool
  depth : Nat
  home : Nat
  die : Nat
  fill : Nat
  readers : Nat
  release : Nat
  len : Nat
  pages : Nat
  list : Nat
  base : Nat
  wait : Nat
  u : Nat
  filling : Bool
  fillHome : Nat
  waits : Bool
  obj : Nat
  deriving DecidableEq, Repr

/-- A LUN of the card as firmware keeps it (R276, R277): the blocks set aside as spares that are left, how many there were at first
initialisation, the block that holds the bad-block table, the rated erase cycles, its blocks (good and bad), and the stripe units that a
block holds. -/
structure Lun where
  spareBlocks : List Nat
  spares0 : Nat
  table : Nat
  rated : Nat
  blocks : Nat
  perBlock : Nat
  deriving DecidableEq, Repr

/-- Spares left. -/
def Lun.spares (l : Lun) : Nat := l.spareBlocks.length

/-- Why a block's data has to move (R275, R277). -/
inductive MoveWhy where
  | retry
  | wear
  | disturb
  deriving DecidableEq, Repr

/-- The tier manager and the flash of the card. `flash` is the content by object, page, line and byte (132 bytes a line: data, tag, FLAGS,
zero); `heads` gives for a block the headers of the units programmed in it since its last erase, as (unit key, program sequence number),
and `progSeq` the last such number (R270); `dir`, the tier directory, gives the block of a stripe unit; `erases` and `reads` are kept per
block; `moves` are the blocks whose data has to move, oldest first (R273, R275, R277); `tables` are the channels with a bad-block table,
and `bootCopy` the bad blocks in the boot flash's copy of it (R276); `arrivals` are the objects whose promotion from flash is in progress,
oldest first, and `lastWin` the window that a channel has served last (R273). -/
structure Tier where
  objs : SMap (Option TierObj)
  wins : List Window
  fetch : List Fetch
  staging : List Staging
  flash : SMap Nat
  heads : SMap (List (Nat × Nat))
  progSeq : Nat
  dir : SMap Nat
  erases : SMap Nat
  reads : SMap Nat
  badBlocks : List Nat
  moves : List (MoveWhy × Nat)
  luns : SMap (Option Lun)
  tables : List Nat
  bootCopy : List Nat
  arrivals : List Nat
  lastWin : SMap Nat
  answers : List TierAnswer
  stopped : Bool
  deriving DecidableEq, Repr

def Tier.empty : Tier := ⟨[], [], [], [], [], [], 0, [], [], [], [], [], [], [], [], [], [], [], false⟩

/-! ### Snapshots and checkpoints -/

/-- A snapshot streaming to the checkpoint store (R407 to R409): the pages (vault, page) still protected, the copied frames
(vault, frame, page), the pages sent and not yet acknowledged, the loss that the trailer takes, and whether the store has
the trailer, the start saves that belong to it, the first page of each core's snapshot area when the epoch opened, every page of the
set, and, at the lead, the packages whose pages are all stored. -/
structure Snap where
  step : Nat
  guarded : List (Nat × Nat)
  copied : List (Nat × Nat × Nat)
  sent : List (Nat × Nat)
  loss : Option Nat
  saves : List Save
  areas : List (Nat × Nat)
  pages : List (Nat × Nat)
  stored : List Nat
  deriving DecidableEq, Repr

/-! ### The host attachment -/

/-- Where an entry held by the gateway goes: a completion ring, the event ring, host memory (a hasp flag), or a domain address (a
domain flag of a hasp whose flush came back TORN, R298), or the gateway that carries such a hasp's host flag. -/
inductive HeldTo where
  | cq (n : Nat)
  | evq
  | flag (win off : Nat)
  | domain (addr : Nat)
  | hostFlag (gw addr : Nat)
  deriving DecidableEq, Repr

/-- An entry that waits for room in its ring, or in the spool (R368, R381); `late`: behind a write that follows the reattach (R369). -/
structure Held where
  dest : HeldTo
  bytes : List Nat
  vecs : List Nat
  counted : Bool
  spooled : Bool
  late : Bool
  deriving DecidableEq, Repr

/-- A host-bound write that H0 has accepted (R367, R378): its serial, window, offset, bytes, step tag, and whether it is
retained (R379), torn, or lost. -/
structure HostWr where
  serial : Nat
  win : Nat
  off : Nat
  bytes : List Nat
  tag : Nat
  ro : Bool
  retain : Bool
  torn : Bool
  deriving DecidableEq, Repr

/-- A torn extent (R382); `gone`: its data was not kept, so no reattach resends it. -/
structure Torn where
  win : Nat
  off : Nat
  len : Nat
  tag : Nat
  resent : Bool
  lost : Bool
  flag : Bool
  overflow : Bool
  gone : Bool
  deriving DecidableEq, Repr

/-- What a DMA read of host memory serves. -/
inductive RdKind where
  | flush (src txn gen core : Nat)
  | rsp (src txn gen : Nat)
  | probe
  | attach
  | copyIn (job : Nat)
  | list
  | input
  deriving DecidableEq, Repr

/-- An outstanding DMA read: address and length left, where its data goes, the serial of the last write before it, and
whether it has been reissued (R385). -/
structure HostRd where
  serial : Nat
  kind : RdKind
  addr : Nat
  left : Nat
  dst : Nat
  tag : Nat
  upto : Nat
  retried : Bool
  deriving DecidableEq, Repr

/-- A job that the gateway has fetched (R369): its ring, its 64 bytes and the serial of its fetch. `begun`: it is in
progress; `next` lines have been asked for, `stored` lines have arrived; `status` a failure met. -/
structure HostJob where
  ring : Nat
  raw : Nat
  id : Nat
  begun : Bool
  next : Nat
  stored : Nat
  status : Nat
  deriving DecidableEq, Repr

/-- The STEP job in progress (R371): its ring, bytes and serial, whether its input list has arrived, the inputs not yet
asked for, lines still to come, a failure met, whether the learning rate has been written, and the packages whose cores have
been signalled. -/
structure StepJob where
  ring : Nat
  raw : Nat
  id : Nat
  listed : Bool
  inputs : List Nat
  todo : Nat
  status : Nat
  lrSent : Bool
  started : List Nat
  deriving DecidableEq, Repr

/-- The gateway (H0 and H1). `wraps` are the rings on an odd pass (0 to 15 completion, 16 event); `doubt` the writes not
known to be delivered; `spool` the retained data; `wins` the windows recorded at a detach (address, configuration);
`after` the writes accepted while REPLAYING, and `flushQ` the flush requests that wait behind them; `queued` the jobs between head and
tail of a submission ring as host memory holds them; `holder` another gateway that holds the STEP job in progress; `stepGw` the step
gateway; `cause` and `stepAt` the cause of the last detach and the step counter then; `misuse` the open HOST_VIOL event (row, events,
hub time). -/
structure HostSt where
  held : List Held
  wraps : List Nat
  doubt : List HostWr
  spool : List HostWr
  torn : List Torn
  wins : List (Nat × Nat)
  after : List HostWr
  flushQ : List InMsg
  queued : SMap (List Nat)
  reads : List HostRd
  jobs : List HostJob
  step : Option StepJob
  holder : Option Nat
  stepGw : Option Nat
  serial : Nat
  cause : Nat
  stepAt : Nat
  misuse : Option (Nat × Nat × Nat)
  deriving DecidableEq, Repr

def HostSt.empty : HostSt := ⟨[], [], [], [], [], [], [], [], [], [], [], none, none, none, 0, 0, 0, none⟩


/-! ### Recovery -/

/-- A durable checkpoint in the store as this package knows it (R409): its step, the loss of its trailer, the start saves, and this
package's pages in it (vault, page). -/
structure Ckpt where
  step : Nat
  loss : Nat
  saves : List Save
  pages : List (Nat × Nat)
  deriving DecidableEq, Repr

/-- A record that the hub acts on at the next restore generation (R390, R406): the generation and step that must have been taken, and the
digest results that it was queued for (rank, 32 bytes). -/
structure Later where
  record : FaultRec
  gen : Nat
  step : Nat
  results : List (Nat × List Nat)
  deriving DecidableEq, Repr

/-- What the hub keeps of recovery (R390 to R413): deadbolted cores that wait for an adopter, in the order of their records, and those for
which none is left; the adoption in hand (fenced core, adopter), with the shards that its refill takes from another copy and those without
one; cores whose own vault is no refill source; adopters that load the restored save when their refill ends; records acted on at the next
restore generation; copies found in a digest minority (core, step); update groups being repaired (vault, first line, source as 128 *
package + core, requests open); the step whose derivation point has been signalled; the saves that every working core of another package
holds (package, generation, step); the durable checkpoints, newest first; the verify step in progress (step, trailer loss) and its loss,
once it is known; the step of a snapshot epoch put off (R407); whether the partition stops at its restore generation. -/
structure FltSt where
  waitAdopt : List Nat
  noAdopter : List Nat
  adopting : Option (Nat × Nat)
  copies : List Nat
  gone : List Nat
  ownBad : List Nat
  loads : List Nat
  later : List Later
  misses : List (Nat × Nat)
  repairs : List (Nat × Nat × Nat × Nat)
  derived : Option Nat
  peerSaves : List (Nat × Nat × Nat)
  ckpts : List Ckpt
  verify : Option (Nat × Nat)
  verifyLoss : Option Nat
  defer : Option Nat
  stopAtGen : Bool
  deriving DecidableEq, Repr

def FltSt.none : FltSt := ⟨[], [], .none, [], [], [], [], [], [], [], .none, [], [], .none, .none, .none, false⟩

/-! ### Ward, boot, power, hub -/

/-- The ward (R417 to R435). `slots` holds the public keys of the field slots (x, then y, as one number; 0 is empty)
by `16 * bank + slot`; `priv` is slot 0; `nonce` the outstanding nonce; `answer` the
payload of the last command; `rngBad`: the entropy source has failed; `d3`: the internal chains are open; `block`: the command block
in hand since its GO (BUSY, R425); `cause`: the result code that the last verification named (R427; log entry 130). -/
structure Ward where
  slots : SMap Nat
  priv : Nat
  nonce : Option Nat
  answer : List Nat
  rngBad : Bool
  d3 : Bool
  block : Option (List Nat)
  cause : Nat
  deriving DecidableEq, Repr

/-- The boot flash and the boot in progress (R470 to R486). `objs` are, by TYPE - 1, the running objects: 32 digest bytes and
trailer bytes 0 to 15; `dir` the set that the chain tries; `tried` that the other one has failed; `warm`: the boot follows a
warm reset; `toRun`: the state to return to is Run; `wantRun`: a Run request is held; `cold`: a cold request waits for the
next stage boundary; `bringup`: bring-up to Run is in progress; `tested`: the vaults have
been tested since they were powered; `unsaved` are entries of a vault (vault; remap entry, or 8 and the retirement entry) that could not
be written to the fault history (R486). -/
structure BootSt where
  flash : SMap Nat
  recovery : Bool
  objs : List (List Nat)
  dir : Nat
  tried : Bool
  warm : Bool
  toRun : Bool
  wantRun : Bool
  cold : Bool
  bringup : Bool
  tested : Bool
  unsaved : List (Nat × Nat)
  deriving DecidableEq, Repr

/-- The power controller (R445 to R463): grants by island, lane allowances of the DRAM pool by compute die in units (R202, R451:
unlisted 328), requests that wait (island, units), commanded frequencies; a
brown-out (the caps before it, its start, the lowest input); hub times of the samples above SUSTAINED_W in the last 50 ms,
whether the last sample was above, whether a cap is applied, the hub time of the last raise; locations that throttle; the
readings that no register holds, by sensor; DISCARD of a pending request. -/
structure Pwr where
  grants : SMap Nat
  lanes : SMap Nat
  asks : List (Nat × Nat)
  freq : SMap Nat
  brown : Option (List Nat × Nat × Nat)
  exc : List Nat
  above : Bool
  capped : Bool
  raised : Nat
  hot : List Nat
  temps : SMap Nat
  discard : Bool
  deriving DecidableEq, Repr

def Pwr.off : Pwr := ⟨[], [], [], [], none, [], false, false, 0, [], [], false⟩

/-- SPDM on a path (R429): how far the exchange is (0 none, 1 version, 2 capabilities, 3 algorithms), and the messages of the
transcripts. -/
structure Spdm where
  stage : Nat
  vca : List Nat
  m1 : List Nat
  l1 : List Nat
  deriving DecidableEq, Repr

def Spdm.none : Spdm := ⟨0, [], [], []⟩

/-- A pending PlatformEventMessage (R508). -/
structure PldmEvent where
  sensor : Nat
  numeric : Bool
  data : List Nat
  deriving DecidableEq, Repr

/-- The hub beside its registers: latched high halves (path, register offset, value), latched fault-queue record, the
correlation asked for (island, T0), the two newest telemetry samples by island (hub time, count, MHz), H1 held in reset, relays in progress
(requester, address, write), SPDM by path, PLDM: terminus identifier, receiver (binding, endpoint), disabled sensors, alarm
level by sensor, state by sensor, events pending; boundary-scan instruction, shift register, update register; events on their way to
the trace unit (island, kind: 0 issue, 1 completion, 2 wait, 3 release, 4 fault; R431); the sweep in progress (R523), with its
CLEAR. -/
structure Hub where
  halves : List (Nat × Nat × Nat)
  recLatch : Option (Nat × List Nat)
  corr : Option (Nat × Nat)
  samples : SMap (List (Nat × Nat × Nat))
  h1Down : Bool
  relays : List (Nat × Nat × Bool)
  spdm : SMap Spdm
  tid : Nat
  receiver : Option (Nat × Nat)
  disabled : List Nat
  levels : SMap Nat
  events : List PldmEvent
  scanIr : Nat
  scanDr : Nat
  scanOut : Nat
  traceIn : List (Nat × Nat)
  sweeping : Option Bool
  deriving DecidableEq, Repr

def Ward.reset : Ward := ⟨[], 0, none, [], false, false, none, 0⟩
def BootSt.reset : BootSt := ⟨[], false, [], 0, false, false, false, false, false, false, false, []⟩

def Hub.reset : Hub := ⟨[], none, none, [], false, [], [], 0, none, [], [], [], 0, 0, 0, [], none⟩

/-! ### The whole machine -/

/-- The state of the package. `sigRetry` are signals and posts back with their senders, in sending order, with the core addressed
(R30, R284, R303). -/
structure State where
  regs : SMap (BitVec 64)
  vmem : List Host.Cell
  stg : List Host.Cell
  cores : SMap Core
  saves : List Save
  sigRetry : List (Nat × Sig)
  fltq : List FltEntry
  fltIn : List FaultRec
  fltSeq : Nat
  viols : List OpenViol
  slots : Slots
  frames : SMap Frame
  tier : Tier
  snap : Option Snap
  host : HostSt
  img : Img
  prg : Prg
  flt : FltSt
  ward : Ward
  boot : BootSt
  pwr : Pwr
  hub : Hub
  runStop : Bool
  outbox : List Out
  freeIx : Nat
  pending : List Instr
  deriving DecidableEq, Repr

/-- The package right after power-good (R470, R472): every register at its reset value (an unlisted register holds it), every
memory with nothing listed, no command waiting; the stages of R476 are still to run. PWR_STATUS.STATE holds its reset value, 1. -/
def State.reset : State :=
  ⟨[], [], [], [], [], [], [], [], 0, [], Slots.none, [], Tier.empty, none, HostSt.empty, Img.none, Prg.none, FltSt.none,
    Ward.reset, BootSt.reset, Pwr.off, Hub.reset, false, [], 0, []⟩

end Sys2Proof.Machine
end

