-- ==== Sys2Proof/Machine/Ops.lean ====
section
/-! DEFINITION. The named operations over registers, cores, fault records, violations and the two memories. Every
meaning reads and writes the machine through these. -/

namespace Sys2Proof.Machine

/-! ## Registers -/

/-- The key of a register in `State.regs`: its name, its block instance and its index. -/
def regKey (r : Reg) (inst idx : Nat) : Nat := r.ctorIdx * 2 ^ 20 + inst % 256 * 2 ^ 12 + idx % 2 ^ 12

/-- What an unlisted register holds: its reset value. -/
def regDefault (k : Nat) : BitVec 64 := BitVec.ofNat 64 ((Reg.ofNat (k / 2 ^ 20)).resetOf (k % 2 ^ 12))

/-- The value of a register. -/
def State.rd (s : State) (r : Reg) (inst idx : Nat) : Nat := (SMap.get regDefault s.regs (regKey r inst idx)).toNat

/-- Set a register (all bits; the access codes are `regWrite`'s matter). -/
def State.wr (s : State) (r : Reg) (inst idx v : Nat) : State :=
  { s with regs := SMap.set regDefault s.regs (regKey r inst idx) (BitVec.ofNat 64 v) }

/-- A field `[lo+w-1:lo]` of a register. -/
def State.rdF (s : State) (r : Reg) (inst idx lo w : Nat) : Nat := bitsOf (s.rd r inst idx) lo w

/-- Set a field of a register. -/
def State.wrF (s : State) (r : Reg) (inst idx lo w v : Nat) : State :=
  s.wr r inst idx (setBits (s.rd r inst idx) lo w v)

/-- Add to a counter (R509): 32 bits saturate, 64 bits count modulo 2^64. -/
def State.bump (s : State) (r : Reg) (inst n : Nat) : State :=
  let v := s.rd r inst 0 + n
  s.wr r inst 0 (if r.desc.wide then v % 2 ^ 64 else min v (2 ^ 32 - 1))

/-! ## Cores -/

def State.core (s : State) (g : Nat) : Core := SMap.get (fun _ => Core.reset) s.cores g
def State.setCore (s : State) (g : Nat) (c : Core) : State :=
  { s with cores := SMap.set (fun _ => Core.reset) s.cores g c }
def State.updCore (s : State) (g : Nat) (f : Core → Core) : State := s.setCore g (f (s.core g))
/-- The vault controller state of core `g`'s vault. -/
def State.vlt (s : State) (g : Nat) : Vlt := (s.core g).vlt
def State.updVlt (s : State) (g : Nat) (f : Vlt → Vlt) : State := s.updCore g (fun c => { c with vlt := f c.vlt })

/-- Send something out of the package. -/
def State.send (s : State) (o : Out) : State := { s with outbox := s.outbox ++ [o] }

/-- The package's own number in the domain. -/
def State.pkg (s : State) : Nat := s.rdF .hubPkgNum 0 0 0 6
/-- The expert-mask bit of a function class (R35, R350). -/
def State.expert (s : State) (cls : Nat) : Bool := (s.rd .hubExpertMask 0 0).testBit cls
/-- Hub time (R501). -/
def State.hubTime (s : State) : Nat := s.rd .hubTs 0 0
/-- The step tag of a core: bits [15:0] of its step counter. -/
def State.stepTag (s : State) (g : Nat) : Nat := (s.core g).step % 2 ^ 16
/-- PWR_CORE_STATE_j: 0 Run, 1 Trim, 2 Lend, 3 Dark (R436, R443). -/
def State.coreState (s : State) (g : Nat) : Nat := s.rdF .pwrCoreState 0 (g / 32) (2 * (g % 32)) 2
def State.setCoreState (s : State) (g v : Nat) : State := s.wrF .pwrCoreState 0 (g / 32) (2 * (g % 32)) 2 v
/-- The package state: 0 Off, 1 Standby, 2 Hold, 3 Run (R436). -/
def State.pwrState (s : State) : Nat := s.rdF .pwrStatus 0 0 0 3
/-- A core that can execute: the package is in Run, the core exists and is not Dark (R436, R440). -/
def State.active (s : State) (g : Nat) : Bool :=
  decide (g < 128) && decide (s.pwrState = 3) && decide (s.coreState g ≠ 3)
/-- The next serial of the free values. -/
def State.fresh (s : State) (n : Nat) : State := { s with freeIx := s.freeIx + n }

/-! ## The trace (R431, R502) -/

/-- The debug level (R431). -/
def State.dbgLevel (s : State) : Nat := s.rdF .wardDebugStatus 0 0 0 2

/-- An event of an island goes to the hub trace unit at D1 and above, once the image gives the ring. -/
def State.trace (s : State) (island kind : Nat) : State :=
  if s.dbgLevel = 0 ∨ s.rd .hubTraceBase 0 0 = 0 then s
  else { s with hub := { s.hub with traceIn := s.hub.traceIn ++ [(island, kind)] } }

/-! ## Violations (R520) -/

/-- Number of the island that a register's counter belongs to (R27, R493). R27 names no island of the hub for HUB_REG_WRITE_REJ_CNT,
HUB_ADDR_VIOL_CNT, HUB_IMAGE_VIOL_CNT and the hub's other management blocks: they are H4's here (DESIGN CHOICE, log entry 125). -/
def islandOf (r : Reg) (inst : Nat) : Nat :=
  if r = .hubMctpViolCnt then 165 else match r.desc.sub with
  | .prgPort => 144 + inst
  | .prgIsl => 128 + inst
  | .vlt | .lane => 136 + inst / 16
  | .ward => 166
  | .pwr | .pwrState => 167
  | .door | .host => 160
  | .tier => 163
  | .hubBoot => 165
  | .prgPkg | .hubMgmt | .hubImg | .hubFlt | .hubFltq | .hubLog => 164
  | _ => inst

/-- Open or extend a violation entry (R520); with a log size of 0 nothing opens (R521). -/
def State.violEvent (s : State) (counter island op seq field value : Nat) : State :=
  if s.rd .hubVlogSize 0 0 = 0 then s
  else if s.viols.any (fun v => v.counter == counter && v.island == island) then
    { s with viols := s.viols.map (fun v =>
        if v.counter = counter ∧ v.island = island then { v with count := min (v.count + 1) 0xFFFF } else v) }
  else
    { s with viols := s.viols ++ [⟨counter, island, op, 1, seq, field, s.hubTime, value⟩] }

/-- Count a violation and send the violation event: counter, its block instance, OP and DESC_SEQ of the descriptor
(0xFF and 0xFFFF_FFFF for a register access), byte offset of the field and the offending value. -/
def State.viol (s : State) (r : Reg) (inst op seq field value : Nat) : State :=
  (s.bump r inst 1).violEvent (r.offset inst 0) (islandOf r inst) op seq field value

/-- Count every violation of a list for one descriptor. -/
def State.viols' (s : State) (r : Reg) (inst op seq : Nat) (vs : List Viol) : State :=
  forEach vs (fun v s => s.viol r inst op seq v.field v.value) s

/-- A violation by a register access that no other counter counts: R15 and R491 by the hub (R511). -/
def State.hubAddrViol (s : State) (addr : Nat) : State := s.viol .hubAddrViolCnt 0 0xFF 0xFFFFFFFF 0xFF addr
/-- A host address that no window, or none that permits the access, holds (R366). -/
def State.winViol (s : State) (a : Nat) : State := s.viol .hostWinViolCnt 0 0xFF 0xFFFFFFFF 0xFF a
/-- A refused register write (R20). -/
def State.regReject (s : State) (off : Nat) : State := s.viol .hubRegWriteRejCnt 0 0xFF 0xFFFFFFFF 0xFF off
/-- A violation of R15 by a unit of a core (R511). -/
def State.coreAddrViol (s : State) (g op seq field addr : Nat) : State := s.viol .coreAddrViolCnt g op seq field addr

/-! ## Fault records (R515 to R517) -/

/-- The code of a record kind (R517). -/
def FaultKind.code : FaultKind → Nat
  | .vltTransient => 0x0101 | .vltRecomputed => 0x0102 | .vltTest => 0x0103 | .vltLasting => 0x0104
  | .vltRetired => 0x0105 | .vltRetireFail => 0x0106 | .vltHot => 0x0107 | .stgUe => 0x0110
  | .stgCeRepeat => 0x0111 | .trnNonfinite => 0x0201 | .trnTagSkew => 0x0202 | .trnDigestMismatch => 0x0203
  | .tierWbFail => 0x0301 | .tierFlashUe => 0x0302 | .tierSpareLow => 0x0303 | .synBound => 0x0401
  | .synLatchOvf => 0x0402 | .synLatchUdf => 0x0403 | .synTallyLimit => 0x0404 | .synDupMismatch => 0x0405
  | .prgLaneFail => 0x0501 | .prgLaserLow => 0x0502 | .prgTrainMismatch => 0x0503 | .prgUnreachable => 0x0504
  | .prgPeerViol => 0x0505 | .prgCtrlMismatch => 0x0506 | .coreHang => 0x0601 | .coreRail => 0x0602
  | .coreParity => 0x0603 | .fltAdoptExhausted => 0x0610 | .fltShardLost => 0x0611
  | .fltRestoreMismatch => 0x0612 | .fltPackageLost => 0x0613 | .wardRngFail => 0x0701
  | .wardLockstep => 0x0702 | .pwrConvFault => 0x0801 | .pwrConvDegraded => 0x0802 | .pwrBrownout => 0x0803
  | .pwrOvercurrent => 0x0804 | .pwrHot => 0x0805 | .pwrRefclkLoss => 0x0806 | .bootCcb => 0x0901
  | .bootFence => 0x0902 | .bootHistory => 0x0903 | .hubH1Lockstep => 0x0A01 | .hubConservation => 0x0A02
  | .session => 0x0B01 | .protReport => 0x0B02 | .reattached => 0x0B03 | .hostViol => 0x0B04

/-- The class of a record kind (R517). PRG_UNREACHABLE is RUN here; its PACKAGE form is made where a loss is declared. -/
def FaultKind.cls : FaultKind → Nat
  | .vltLasting | .stgUe | .trnTagSkew | .trnDigestMismatch => 1
  | .vltRetireFail | .stgCeRepeat | .synDupMismatch | .coreHang | .coreRail | .coreParity => 2
  | .trnNonfinite | .tierWbFail | .tierFlashUe | .synBound | .synTallyLimit | .prgUnreachable
  | .fltAdoptExhausted | .fltShardLost | .fltRestoreMismatch | .wardRngFail | .hubConservation => 3
  | .fltPackageLost | .pwrRefclkLoss => 4
  | _ => 0

/-- Kinds that are masked by construction (R515 MASKED). -/
def FaultKind.masked : FaultKind → Bool
  | .wardLockstep | .pwrConvFault => true
  | _ => false

/-- The lowest-indexed working core that is not fenced (R515 STEP). -/
def State.lowCore (s : State) : Nat :=
  ((List.range 128).find? (fun g => decide ((s.core g).fence = Fence.none) && s.active g)).getD 0

/-- The core whose step counter a record carries (R515): the reporting core, the vault's core, or the lowest working
core. -/
def State.queue (s : State) (k : FaultKind) (island : Nat) (core : Option Nat) (p : Payload) : State :=
  let g := core.getD s.lowCore
  { s with fltIn := s.fltIn ++ [⟨k, k.cls, k.masked, island, 1, 0, (s.core g).step, 0, p, core⟩] }

/-- A record whose class or mask differs from its kind's. -/
def State.queueAs (s : State) (k : FaultKind) (cls : Nat) (masked : Bool) (island : Nat) (core : Option Nat)
    (p : Payload) : State :=
  let g := core.getD s.lowCore
  { s with fltIn := s.fltIn ++ [⟨k, cls, masked, island, 1, 0, (s.core g).step, 0, p, core⟩] }

/-! ## Room in the fault queue (R389) -/

def State.fltFatals (s : State) : Nat := (s.fltq.filter (fun e => decide (1 ≤ e.record.cls))).length
/-- Unreserved entries in use: the notes, and fatal records beyond the eighth. -/
def State.fltUnreserved (s : State) : Nat := (s.fltq.length - s.fltFatals) + (s.fltFatals - 8)

/-- May a record enter (R389). -/
def State.fltRoom (s : State) (cls : Nat) : Bool :=
  decide (s.fltUnreserved < 56) || (decide (1 ≤ cls) && decide (s.fltFatals < 8))

/-- A record of class STEP or above of a core, its vault, its lanes or its stage memory finds the queue full: the unit holds it and
stalls; the spec does not say how far: in the model the core's units and its vault start nothing (DEDUCED, log entry 115). -/
def State.recordHeld (s : State) (g : Nat) : Bool :=
  !s.fltRoom 1 && s.fltIn.any (fun r => decide (1 ≤ r.cls) && r.core == some g)
/-- The same for a record of another island. -/
def State.stalled (s : State) (island : Nat) : Bool :=
  !s.fltRoom 1 && s.fltIn.any (fun r => decide (1 ≤ r.cls) && r.island == island)

/-! ## Domain addresses (R13, R14, R186, R489) -/

/-- What an address names: a vault byte, a stage-memory byte, a tier-virtual byte, a host-window byte, a register
offset, or nothing. -/
inductive Loc where
  | vault (g byte : Nat)
  | stage (g byte : Nat)
  | tier (obj byte : Nat)
  | window (w byte : Nat)
  | ctrl (off : Nat)
  | bad
  deriving DecidableEq, Repr

/-- Package of a domain address. -/
def addrPkg (a : Nat) : Nat := bitsOf a 50 6
/-- Space of a domain address. -/
def addrSpace (a : Nat) : Nat := bitsOf a 46 4

/-- The place that a domain address names within its package. -/
def locOf (a : Nat) : Loc :=
  let o := bitsOf a 0 46
  let g := bitsOf o 33 7
  match addrSpace a with
  | 0 => if bitsOf o 40 6 = 0 then .vault g (bitsOf o 0 33) else .bad
  | 1 => if bitsOf o 40 6 = 0 ∧ bitsOf o 0 33 < 0x1800000 then .stage g (bitsOf o 0 33) else .bad
  | 2 => .tier (bitsOf o 33 13) (bitsOf o 0 33)
  | 3 => if o.testBit 45 then .window (bitsOf o 39 6) (bitsOf o 0 39)
         else if bitsOf o 26 19 = 0 then .ctrl (bitsOf o 0 26) else .bad
  | _ => .bad

/-- Does the address violate R15 as well (R511). -/
def addrBad (a : Nat) : Bool := match locOf a with
  | .bad => true
  | _ => false

/-- The domain address of a vault byte. -/
def vaultAddr (pkg g byte : Nat) : Nat := pkg * 2 ^ 50 + g * 2 ^ 33 + byte
/-- The domain address of a stage-memory byte. -/
def stageAddr (pkg g byte : Nat) : Nat := pkg * 2 ^ 50 + 2 ^ 46 + g * 2 ^ 33 + byte

/-! ## Vault lines (R162 to R167) -/

/-- Bytes of a stored line: 128 data, 4 CRC, 2 TAG, FLAGS, FLAGS_N (R164). -/
def lineBytes : Nat := 136
/-- Lines of a bank with its eight spares (R162). -/
def bankLines : Nat := 2 ^ 19 + 8

/-- What an unlisted byte of vault memory reads as: the line that bring-up writes everywhere, zero data, tag 0, its CRC,
FLAGS 0 and FLAGS_N 0xFF (R480; log entry 4). -/
def vmemDefault (k : Nat) : BitVec 8 :=
  let o := k % lineBytes
  if 128 ≤ o ∧ o < 132 then BitVec.ofNat 8 ((leBytes 4 3319782869).getD (o - 128) 0)
  else if o = 135 then 0xFF else 0

/-- What an unlisted byte of stage memory reads as (log entry 4). -/
def stgDefault (_ : Nat) : BitVec 8 := 0

/-- Bank of a line (R163). -/
def lineBank (l : Nat) : Nat := l / 8 % 128
/-- Index of a line within its bank. -/
def lineInBank (l : Nat) : Nat := l / 1024 * 8 + l % 8
/-- Page of a line. -/
def linePage (l : Nat) : Nat := l / 2 ^ 14

/-- Key of the first byte of a place of a bank. -/
def placeKey (g bank idx : Nat) : Nat := ((g * 128 + bank) * bankLines + idx) * lineBytes

/-- The page that stands for a page after retirement: its reserve page, or what stands for that once it is retired in its turn; there
are four entries (R177). -/
def State.retirePage (s : State) (g : Nat) : Nat → Nat → Nat
  | 0, p => p
  | k + 1, p =>
    match (List.range 4).find? (fun n => (s.rd .vltRetire g n).testBit 0 && s.rdF .vltRetire g n 1 12 == p) with
    | some n => State.retirePage s g k (s.rdF .vltRetire g n 13 12)
    | none => p

/-- The line that stands for a line after retirement: the reserve page's, at the same offset (R177). -/
def State.retireMap (s : State) (g l : Nat) : Nat := s.retirePage g 4 (linePage l) * 2 ^ 14 + l % 2 ^ 14

/-- The remap entry that catches a line, if any (R176). -/
def State.remapEntry (s : State) (g l : Nat) : Option Nat :=
  (List.range 8).find? (fun n => (s.rd .vltRemap g n).testBit 0 && s.rdF .vltRemap g n 1 26 == l)

/-- Key of the place where a line of a vault lies now. -/
def State.lineKey (s : State) (g l : Nat) : Nat :=
  let l' := s.retireMap g l
  match s.remapEntry g l' with
  | some n => placeKey g (lineBank l') (2 ^ 19 + s.rdF .vltRemap g n 27 3)
  | none => placeKey g (lineBank l') (lineInBank l')

/-- A stored line as it stands. -/
structure RawLine where
  data : List Nat
  crc : Nat
  tag : Nat
  flags : Nat
  flagsN : Nat
  deriving DecidableEq, Repr

def bytesNat (bs : List (BitVec 8)) : List Nat := bs.map BitVec.toNat
def natBytes (bs : List Nat) : List (BitVec 8) := bs.map (BitVec.ofNat 8)

/-- The line stored at a place. -/
def State.rawAt (s : State) (k : Nat) : RawLine :=
  let bs := bytesNat (SMap.getRange vmemDefault s.vmem k 136)
  ⟨bs.take 128, leNat ((bs.drop 128).take 4), leNat ((bs.drop 132).take 2), bs.getD 134 0, bs.getD 135 0⟩

/-- Store a line at a place, every byte of it. -/
def State.putRaw (s : State) (k : Nat) (r : RawLine) : State :=
  let bs := natBytes (r.data.take 128 ++ leBytes 4 r.crc ++ leBytes 2 r.tag ++ [r.flags % 256, r.flagsN % 256])
  { s with vmem := SMap.setRange vmemDefault s.vmem k bs }

def State.rawLine (s : State) (g l : Nat) : RawLine := s.rawAt (s.lineKey g l)

/-- Does a line pass its check (R166). -/
def RawLine.ok (r : RawLine) : Bool := decide (r.crc = lineCrc r.data r.tag) && decide (r.flagsN = 255 - r.flags)
/-- FLAGS bits (R164). -/
def RawLine.poison (r : RawLine) : Bool := r.flags.testBit 2
def RawLine.test (r : RawLine) : Bool := r.flags.testBit 3

/-- A line with a fresh CRC and complement. -/
def freshLine (data : List Nat) (tag flags : Nat) : RawLine :=
  ⟨data, lineCrc data tag, tag % 2 ^ 16, flags, 255 - flags⟩

/-- Exclusive or of two byte lists, the second extended by zeros. -/
def xorBytes : List Nat → List Nat → List Nat
  | a :: as, b :: bs => (a ^^^ (b % 256)) :: xorBytes as bs
  | as, [] => as
  | [], _ => []

/-- A line with an error pattern over its 136 bytes, as a read of the DRAM array shows it. -/
def RawLine.flip (r : RawLine) (e : List Nat) : RawLine :=
  let m := xorBytes (leBytes 4 r.crc ++ leBytes 2 r.tag ++ [r.flags, r.flagsN]) (e.drop 128)
  ⟨xorBytes r.data (e.take 128), leNat (m.take 4), leNat ((m.drop 4).take 2), m.getD 6 0, m.getD 7 0⟩

/-- The pattern of the flip mask: 128 data bytes and 6 metadata bytes (R181). -/
def State.flipPattern (s : State) (g : Nat) : List Nat :=
  (List.range 16).flatMap (fun i => leBytes 8 (s.rd .vltFlipData g i)) ++ leBytes 6 (s.rd .vltFlipMeta g 0)

/-- The flip mask is armed for this kind of access to this line. -/
def State.flipArmed (s : State) (g l mode : Nat) : Bool :=
  (s.rd .vltFlipCtl g 0).testBit 0 && s.rdF .vltFlipCtl g 0 1 1 == mode
    && (!(s.rd .vltFlipCtl g 0).testBit 2 || s.rdF .vltFlipAddr g 0 0 26 == l)

/-- A line write that passes through the controller, to the place of line `l` or to a spare of it, with the flip mask of MODE 0:
the line is then stored with TEST set (R181). -/
def State.ctrlStore (s : State) (g l k : Nat) (r : RawLine) : State :=
  if s.flipArmed g l 0 then
    let f := r.flip (s.flipPattern g)
    (s.putRaw k { f with flags := setBits r.flags 3 1 1, flagsN := 255 - setBits r.flags 3 1 1 }).wrF .vltFlipCtl g 0 0 1 0
  else s.putRaw k r

/-- A line read that the controller performs, with the flip mask of MODE 1 over what it shows; the stored line is unchanged (R181). -/
def State.ctrlRead (s : State) (g l : Nat) : State × RawLine :=
  if s.flipArmed g l 1 then (s.wrF .vltFlipCtl g 0 0 1 0, (s.rawLine g l).flip (s.flipPattern g))
  else (s, s.rawLine g l)

/-- A full-line store through the controller (R168, R181). -/
def State.storeLine (s : State) (g l : Nat) (data : List Nat) (tag flags : Nat) : State :=
  s.ctrlStore g l (s.lineKey g l) (freshLine data tag flags)

/-- One data byte of a vault as a unit reads it: zero in a POISON line (R173). -/
def State.vByte (s : State) (g b : Nat) : Nat :=
  let k := s.lineKey g (b / 128)
  if (SMap.get vmemDefault s.vmem (k + 134)).toNat.testBit 2 then 0
  else (SMap.get vmemDefault s.vmem (k + b % 128)).toNat

/-! ## Stage memory (R185, R186) -/

/-- Bytes of a core's stage memory. -/
def stgBytes : Nat := 0x1800000
def State.stgByte (s : State) (g b : Nat) : Nat := (SMap.get stgDefault s.stg (g * stgBytes + b)).toNat
def State.putStg (s : State) (g b : Nat) (bs : List Nat) : State :=
  { s with stg := SMap.setRange stgDefault s.stg (g * stgBytes + b) (natBytes bs) }

/-! ## Reads and writes of data by address -/

/-- The core at whose vault or stage memory an access to core `g`'s lands: its adopter once it is adopted (R395). -/
def State.home (s : State) (g : Nat) : Nat :=
  match (s.core g).fence, (s.core g).adopter with
  | .adopted, some a => a
  | _, _ => g

/-- Bytes `off` to `off + n - 1` of the line at a domain address, for a unit of the package; zeros where nothing is. -/
def State.lineSpan (s : State) (line off n : Nat) : List Nat :=
  if addrPkg line ≠ s.pkg then List.replicate n 0
  else match locOf line with
    | .vault g b =>
      let k := s.lineKey (s.home g) (b / 128)
      if (SMap.get vmemDefault s.vmem (k + 134)).toNat.testBit 2 then List.replicate n 0
      else bytesNat (SMap.getRange vmemDefault s.vmem (k + off) n)
    | .stage g b => bytesNat (SMap.getRange stgDefault s.stg (s.home g * stgBytes + b + off) n)
    | _ => List.replicate n 0

/-- One byte by domain address. -/
def State.byteAt (s : State) (a : Nat) : Nat := (s.lineSpan (a / 128 * 128) (a % 128) 1).headD 0

/-- A run of bytes by domain address: what its lines hold. -/
def State.bytesAt (s : State) (a n : Nat) : List Nat :=
  if n = 0 then []
  else if a / 128 = (a + n - 1) / 128 then s.lineSpan (a / 128 * 128) (a % 128) n
  else (((List.range ((a + n - 1) / 128 - a / 128 + 1)).flatMap (fun i => s.lineSpan ((a / 128 + i) * 128) 0 128)).drop
    (a % 128)).take n

/-- Memory as it stands, with some regions (address, length) read at once. -/
def State.reader (s : State) (regions : List (Nat × Nat)) : Nat → Nat :=
  let cs := regions.map (fun r => (r.1, (s.bytesAt r.1 r.2).toArray))
  fun b => match cs.find? (fun c => decide (c.1 ≤ b) && decide (b < c.1 + c.2.size)) with
    | some c => c.2.getD (b - c.1) 0
    | none => s.byteAt b
/-- A little-endian number of `n` bytes by domain address. -/
def State.natAt (s : State) (a n : Nat) : Nat := leNat (s.bytesAt a n)

/-- The data of a line with some bytes replaced from byte `off` on. -/
def mergeBytes (data : List Nat) (off : Nat) (bs : List Nat) : List Nat :=
  (data.take off ++ bs ++ data.drop (off + bs.length)).take 128

/-! ## Monitors of the photonics (R334 to R336) -/

/-- PRG_LANE_MON_k: the receive OMA of every lane whose receiver is on, as last reported; where nothing has been, it is free. -/
def State.omaShown (s : State) (port : Nat) : Nat :=
  (List.range 8).foldl (fun a w =>
    let v := match (SMap.get (fun _ => PLane.dark) s.prg.lanes (8 * port + w)).state, SMap.get (fun _ => none) s.prg.oma (8 * port + w) with
      | .dark, _ => 0
      | _, some v => v
      | _, none => Config.optic 0 (8 * port + w) s.hubTime % 2 ^ 8
    a + v * 2 ^ (8 * w)) 0

/-- PRG_LASER_MON_k: the laser input at every wavelength of an engine, in a package that is powered; as last reported, else free. -/
def State.laserShown (s : State) (engine : Nat) : Nat :=
  if s.pwrState = 0 then 0
  else (List.range 8).foldl (fun a w =>
    a + (SMap.get (fun _ => none) s.prg.laser (8 * engine + w)).getD (Config.optic 1 (8 * engine + w) s.hubTime % 2 ^ 8) * 2 ^ (8 * w)) 0

end Sys2Proof.Machine
end

