-- ==== Sys2Proof/Machine/MemOps.lean ====
section
/-! DEFINITION. The vault controller's service of reads and writes: the line check, the refetch-or-recompute rule, remap
and retirement, narrow writes (R166 to R178), and the reads and writes that units make through it. -/

namespace Sys2Proof.Machine

/-- Island of the hub's firmware and DMA, H4 (R27). -/
def hubIsland : Nat := 164
/-- Islands of the flash channels and of the tier manager (R27). -/
def islandH2 : Nat := 162
def islandH3 : Nat := 163

/-- Island of the vault controller of core `g`'s vault (R27). -/
def vltIsland (g : Nat) : Nat := 136 + g / 16

/-- The lock on a line of a vault. -/
def State.lockOf (s : State) (g l : Nat) : Option LineLock := (s.vlt g).locks.find? (fun k => k.line == l)
def State.locked (s : State) (g l : Nat) : Bool := (s.lockOf g l).isSome

/-- Change the lock of a line. -/
def State.updLock (s : State) (g l : Nat) (f : LineLock → LineLock) : State :=
  s.updVlt g (fun v => { v with locks := v.locks.map (fun k => if k.line = l then f k else k) })

/-- The line payload of a record (R516). -/
def linePayload (s : State) (g l reader : Nat) (k : LineLock) (outcome entry reserve : Nat) : Payload :=
  .line (vaultAddr s.pkg g (l * 128)) reader k.flags k.tag k.crcStored k.crcComputed outcome entry (linePage l) reserve

/-- A record of the vault controller about a locked line. -/
def State.lineRecord (s : State) (g : Nat) (k : LineLock) (kind : FaultKind) (outcome entry : Nat) : State :=
  s.queue kind (vltIsland g) (some g) (linePayload s g k.line k.req.src k outcome entry 0xFFFF)

/-- What a lock holds when no first read is known. -/
def noLock (l : Nat) (req : VltReq) (r : RawLine) (lane : Bool) (ph : LockPhase) : LineLock :=
  ⟨l, req, r.flags, r.tag, r.crc, lineCrc r.data r.tag, r.test, lane, ph, []⟩

/-- Steps 1 and 2 of R171: lock the line, count the mismatch; the second read is the next command. -/
def State.lineFail (s : State) (g : Nat) (req : VltReq) (r : RawLine) (lane : Bool) : State :=
  (s.updVlt g (fun v => { v with locks := v.locks ++ [noLock req.line req r lane .refetch] })).bump
    .vltCrcMismatchCnt g 1

/-- A core that received poison does not advance its step counter until released (R173, R187). -/
def State.withhold (s : State) (island : Nat) : State :=
  if island < 128 then s.updCore island (fun c => { c with withhold := true }) else s
/-- The core for which a request is made: the requester, or the core whose descriptor a fabric island has in hand (R405). -/
def VltReq.user (q : VltReq) : Nat := match q.unit with
  | some u => if 128 ≤ q.src ∧ q.src < 136 ∧ 1 ≤ u / 256 ∧ u / 256 < 2 ^ 12 then 16 * (q.src - 128) + (u / 256 - 1) % 16 else q.src
  | none => q.src

/-- A read that meets a POISON line (R173). -/
def State.poisonRead (s : State) (g : Nat) (req : VltReq) (r : RawLine) : State :=
  (((s.bump .vltPoisonReadCnt g 1).lineRecord g (noLock req.line req r false .refetch) .vltLasting 4
    ((s.remapEntry g (s.retireMap g req.line)).getD 0xF)).withhold req.user)

/-! ### Hooks of a stored line -/

/-- The frame of a vault that holds a page of a line: its number in the tier manager's table (R261). -/
def frameKey (g page : Nat) : Nat := g * 4096 + page

/-- A line that stays lost: its data as read, marked POISON (R171 step 4). -/
def RawLine.lost (r : RawLine) : RawLine := freshLine r.data r.tag (setBits (r.flags % 16) 2 1 1)

/-- A read by which the controller copies a line: a first read that fails its check counts, a second one that passes is a transient
(R171 steps 2 and 3, R181). -/
def State.checkedRead (s : State) (g l : Nat) : State × RawLine :=
  let (s1, r) := s.ctrlRead g l
  if r.ok then (s1, r)
  else
    let r2 := s.rawLine g l
    let s2 := s1.bump .vltCrcMismatchCnt g 1
    if r2.ok then ((s2.bump .vltTransientCnt g 1).lineRecord g
      (noLock l ⟨0xFF, l, false, 0, 0, [], none, false⟩ r false .refetch) .vltTransient 0 0xF, r2)
    else (s2, r2)

/-- A copy of one page of a vault to another, line by line, data, tag and flags as they are, each to where the line of the other
page lies (R176); a line that fails its check is a lasting fault and is written POISON (R171, R177, R262, R408). -/
def State.copyPage (s : State) (g p q : Nat) : State :=
  forUpTo (2 ^ 14) (fun i s =>
    let l := p * 2 ^ 14 + i
    let d := q * 2 ^ 14 + i
    let (s1, r) := s.checkedRead g l
    let s2 := if r.ok then s1 else s1.bump .vltLastingCnt g 1
    s2.ctrlStore g d (s2.lineKey g d) (if r.ok then r else r.lost)) s

def State.frame (s : State) (g page : Nat) : Frame := SMap.get (fun _ => Frame.none) s.frames (frameKey g page)
def State.setFrame (s : State) (g page : Nat) (f : Frame) : State :=
  { s with frames := SMap.set (fun _ => Frame.none) s.frames (frameKey g page) f }

def Frame.fenced : Frame → Bool
  | .fencedDirty | .fencedClean | .fencedFrozen | .fencedScratch => true
  | _ => false

/-- First page of a core's snapshot area (R408). -/
def State.snapArea (s : State) (g : Nat) : Nat := bitsOf (s.rd .coreSnapBase g 0) 21 12
/-- Page of frame `n` of a core's snapshot area, as it was when the epoch opened: a fenced vault is still streamed (R408, R409). -/
def State.snapPage (s : State) (g n : Nat) : Nat :=
  ((s.snap.bind (fun q => q.areas.find? (fun a => a.1 == g))).map (fun a => a.2)).getD (s.snapArea g) + n

/-- A write to this page must first copy it (R408). -/
def State.guarded (s : State) (g page : Nat) : Bool := match s.snap with
  | some q => q.guarded.contains (g, page)
  | none => false

/-- The lowest free frame of a core's snapshot area. -/
def State.snapFree (s : State) (g : Nat) : Option Nat := match s.snap with
  | some q => (List.range 8).find? (fun n => !q.copied.any (fun c => c.1 == g && c.2.1 == n))
  | none => none

/-- A write to this page waits for a snapshot frame. -/
def State.snapHeld (s : State) (g page : Nat) : Bool := s.guarded g page && (s.snapFree g).isNone

/-- A protected page stands in frame `n` of the snapshot area: its protection is lifted (R408). -/
def State.notePageCopied (s : State) (g page n : Nat) : State :=
  { s with snap := s.snap.map (fun q => { q with
      guarded := q.guarded.filter (· != (g, page))
      copied := q.copied ++ [(g, n, page)] }) }

/-- Copy on the first write to a protected page: the page goes to a snapshot frame (R408). -/
def State.snapCopy (s : State) (g page : Nat) : State :=
  match s.guarded g page, s.snapFree g with
  | true, some n => ((s.copyPage g page (s.snapPage g n)).bump .hubSnapCowCnt 0 1).notePageCopied g page n
  | _, _ => s

/-- A write to a frame changes its state, or counts as a stray write (R261, R265). -/
def State.frameWrite (s : State) (g page : Nat) : State :=
  match s.frame g page with
  | .clean => s.setFrame g page .dirty
  | .fencedClean => s.setFrame g page .fencedDirty
  | .free | .frozen | .fencedFrozen | .slot => s.bump .tierStrayWriteCnt 0 1
  | _ => s

/-- Effects of a write on the page it falls in (R261, R408). -/
def State.noteWrite (s : State) (g l : Nat) : State := (s.snapCopy g (linePage l)).frameWrite g (linePage l)

/-- A write waits for a fence (counted in TIER_WB_WAIT_CNT) or for a snapshot frame (counted in HUB_SNAP_WAIT_CNT). -/
def State.holdWrite (s : State) (g : Nat) (req : VltReq) : State :=
  (s.updVlt g (fun v => { v with heldWrites := v.heldWrites ++ [req] })).bump
    (if (s.frame g (linePage req.line)).fenced then .tierWbWaitCnt else .hubSnapWaitCnt) 0 1
def State.writeHeld (s : State) (g l : Nat) : Bool := (s.frame g (linePage l)).fenced || s.snapHeld g (linePage l)

/-- A page of the vault under migration holds writes; reads go on (R177 step 3). -/
def State.migrating (s : State) (g l : Nat) : Bool :=
  match (s.vlt g).retiring with
  | some r => r.page == linePage (s.retireMap g l)
  | none => false

/-- May a write of a line not be stored yet: a fence, a snapshot frame or a migration holds it (R177, R261, R408). -/
def State.parked (s : State) (g l : Nat) : Bool := s.writeHeld g l || s.migrating g l

/-- A write that may not be stored yet waits for what holds it (R177, R261, R408). -/
def State.parkWrite (s : State) (g : Nat) (req : VltReq) : State :=
  if s.writeHeld g req.line then s.holdWrite g req
  else (s.updVlt g (fun v => { v with retiring := v.retiring.map (fun r => { r with waiting := r.waiting ++ [req] }) })).bump
    .vltMigrateWaitCnt g 1

/-- Store a whole line for a writer: the hooks, then the store (R168). -/
def State.putLine (s : State) (g l : Nat) (data : List Nat) (tag flags : Nat) : State :=
  (s.noteWrite g l).storeLine g l data tag flags

/-- The merge of a narrow write on a line as read (R174 steps 3 to 5). The bytes of a POISON line that the write leaves alone become
zeros (DESIGN CHOICE, log entry 124). -/
def State.mergeLine (s : State) (g : Nat) (req : VltReq) (r : RawLine) : State :=
  let data := if r.poison then List.replicate 128 0 else r.data
  let fl := 2 + (if r.poison then 4 else 0)
  (s.putLine g req.line (mergeBytes data req.off req.bytes) req.tag fl).bump .vltRmwCnt g 1

/-- A whole-line write request. -/
def VltReq.full (r : VltReq) : Bool := decide (r.off = 0 ∧ 128 ≤ r.bytes.length)

/-- Answer a read with the line as the controller has it: to a unit that waits, as delivered to it (R168); the patrol scrub
(reader 0xFF) takes no data. -/
def State.answerRead (s : State) (g : Nat) (req : VltReq) (r : RawLine) (status : Nat) : State :=
  if req.src == 0xFF then s
  else match req.unit with
    | some u => s.updVlt g (fun v => { v with delivered := v.delivered ++ [⟨u, req.line, r.tag, r.flags, r.data⟩] })
    | none => s.send (.lineData req.src g req.line status (if r.poison then List.replicate 128 0 else r.data))

/-- A write whose line has been read, or needs no read, is stored, once nothing holds it. -/
def State.finishWrite (s : State) (g : Nat) (req : VltReq) (r : RawLine) : State :=
  if s.parked g req.line then s.parkWrite g req
  else if req.full then s.putLine g req.line req.bytes req.tag 0
  else s.mergeLine g req r

/-- A request whose line has passed its check, or that needs no check: a read is answered, a write stored. -/
def State.finishReq (s : State) (g : Nat) (req : VltReq) (r : RawLine) : State :=
  if req.write then s.finishWrite g req r
  else if req.src == 0xFF then s
  else if r.poison then (s.poisonRead g req r).answerRead g req r 1
  else s.answerRead g req r 0

/-- The controller's service of one request at the head of its line (R168, R171 steps 1 and 2, R173, R174): `err` is
the error pattern of the DRAM read; MODE 1 of the flip mask applies to reads only, never to a read-modify-write's (R181). -/
def State.serveHead (s : State) (g : Nat) (req : VltReq) (err : List Nat) : State :=
  if req.write ∧ req.full then s.putLine g req.line req.bytes req.tag 0
  else
    let armed := !req.write && s.flipArmed g req.line 1
    let s1 := if armed then s.wrF .vltFlipCtl g 0 0 1 0 else s
    let r0 := (s.rawLine g req.line).flip err
    let r := if armed then r0.flip (s.flipPattern g) else r0
    if r.ok then s1.finishReq g req r else s1.lineFail g req r false

/-- Progress of a bank in the lane descriptor in hand, and the registers of its lane. -/
def State.laneBank (s : State) (g b : Nat) : LaneBank :=
  match (s.core g).lane.job with
  | some j => SMap.get (fun _ => LaneBank.zero) j.banks b
  | none => LaneBank.zero
def State.laneUnit (s : State) (g b : Nat) : LaneUnit := SMap.get (fun _ => LaneUnit.zero) (s.core g).lane.units b

/-- The pass set that a bank has claimed, as its line buffers hold it. -/
def State.claimedSet (s : State) (g b : Nat) : Option (List LaneLine) :=
  (s.laneBank g b).claimed.map (fun n => (s.laneUnit g b).lb.take n)

/-- The claimed pass set that keeps lines of a bank from the controller (R203): a DIGEST pass holds its set only while it reads. -/
def State.busySet (s : State) (g b : Nat) : List LaneLine :=
  match (s.core g).lane.job with
  | some j => if bitsOf j.desc 0 8 = 0x42 then [] else (s.claimedSet g b).getD []
  | none => []

/-- The bank whose claimed pass set holds a line (R203). -/
def State.busyBank (s : State) (g l : Nat) : Option Nat :=
  if (s.busySet g (lineBank l)).any (fun x => x.line == l) then some (lineBank l) else none

/-- Change one bank's progress in the lane descriptor in hand. -/
def LaneJob.updBank (j : LaneJob) (b : Nat) (f : LaneBank → LaneBank) : LaneJob :=
  { j with banks := SMap.upd (fun _ => LaneBank.zero) j.banks b f }
def State.updLane (s : State) (g : Nat) (f : Lane → Lane) : State := s.updCore g (fun c => { c with lane := f c.lane })
def State.updLaneUnit (s : State) (g b : Nat) (f : LaneUnit → LaneUnit) : State :=
  s.updLane g (fun l => { l with units := SMap.upd (fun _ => LaneUnit.zero) l.units b f })
def State.updLaneBank (s : State) (g b : Nat) (f : LaneBank → LaneBank) : State :=
  s.updLane g (fun l => { l with job := l.job.map (fun j => j.updBank b f) })

/-- A request to a busy line waits for the pass set, and counts once (R203). -/
def State.busyWait (s : State) (g b : Nat) (req : VltReq) : State :=
  (s.updLaneBank g b (fun k => { k with waiting := k.waiting ++ [req] })).bump .laneBusyWaitCnt g 1

/-- One request that no lock stops: it waits for a pass set, a fence, a snapshot frame or a migration, or is served. -/
def State.vltAdmit (s : State) (g : Nat) (req : VltReq) (err : List Nat) : State :=
  if (s.busyBank g req.line).isSome then s.busyWait g (lineBank req.line) req
  else if req.write && s.parked g req.line then s.parkWrite g req
  else s.serveHead g req err

/-- The line that the recompute running on a core was asked for. -/
def State.rcmpFor (s : State) (c g l : Nat) : Bool := match (s.core c).rcmpRun with
  | some q => q.live && q.vault == g && q.line == l
  | none => false

/-- One request reaching the controller: it waits for a lock, which admits only the writes of the recompute that it asked for
(R171 step 1), or goes on as `vltAdmit` says. -/
def State.vltRequest (s : State) (g : Nat) (req : VltReq) (err : List Nat) : State :=
  if s.locked g req.line ∧ !(req.rcmp && s.rcmpFor req.src g req.line) then s.updLock g req.line (fun k => { k with waiting := k.waiting ++ [req] })
  else s.vltAdmit g req err

/-- Serve the requests that waited, in arrival order. -/
def State.serveWaiting (s : State) (g : Nat) (rs : List VltReq) : State :=
  forEach rs (fun r s => s.vltRequest g r []) s

/-- Writes of a vault that wait for nothing any more are served one by one in arrival order; one that takes the last snapshot frame
leaves the next waiting as it was (R261, R408). -/
def State.releaseWrites (s : State) (g : Nat) : State :=
  forEach (s.vlt g).heldWrites (fun r s =>
    if s.writeHeld g r.line then s.updVlt g (fun v => { v with heldWrites := v.heldWrites ++ [r] }) else s.vltRequest g r [])
    (s.updVlt g (fun v => { v with heldWrites := [] }))

/-- Step 9 of R171: release the lock and serve what waited. -/
def State.unlock (s : State) (g l : Nat) : State :=
  match s.lockOf g l with
  | none => s
  | some k => (s.updVlt g (fun v => { v with locks := v.locks.filter (fun x => x.line != l) })).serveWaiting g k.waiting

/-! ### Lasting faults -/

/-- Spares of a bank that serve a valid entry. -/
def State.sparesInUse (s : State) (g bank : Nat) : List Nat :=
  (List.range 8).filterMap (fun n =>
    if (s.rd .vltRemap g n).testBit 0 ∧ lineBank (s.rdF .vltRemap g n 1 26) = bank
    then some (s.rdF .vltRemap g n 27 3) else none)

/-- The lowest unused spare of a bank that is not bad (R176). -/
def State.freeSpare (s : State) (g bank : Nat) : Option Nat :=
  (List.range 8).find? (fun x => !(s.sparesInUse g bank).contains x && !(s.vlt g).badSpares.contains (bank * 8 + x))

/-- The lowest free remap entry. -/
def State.freeRemap (s : State) (g : Nat) : Option Nat :=
  (List.range 8).find? (fun n => !(s.rd .vltRemap g n).testBit 0)

/-- The unused reserve page with the highest number (R177 step 1). -/
def State.reservePage (s : State) (g : Nat) : Option Nat :=
  let cnt := min (s.rdF .vltRetireRsv g 0 0 3) 4
  ((List.range cnt).map (fun i => 4095 - i)).find? (fun p =>
    !(List.range 4).any (fun n => (s.rd .vltRetire g n).testBit 0 && s.rdF .vltRetire g n 13 12 == p))

/-- Set a remap entry for a line and write the line's data as read into the spare, marked POISON (R171 step 4). -/
def State.takeRemap (s : State) (g n l spare : Nat) (r : RawLine) : State :=
  (s.wr .vltRemap g n (1 + l * 2 + spare * 2 ^ 27 + 2 ^ 30)).ctrlStore g l (placeKey g (lineBank l) (2 ^ 19 + spare)) r.lost

/-- A line is left where it lies, its data as read, marked POISON. -/
def State.leavePoison (s : State) (g l : Nat) (r : RawLine) : State := s.ctrlStore g l (s.lineKey g l) r.lost

/-- Begin the retirement of the page where a line lies now (R177), or fail it for want of a reserve page (R178). One in progress goes on. -/
def State.beginRetire (s : State) (g : Nat) (k : LineLock) : State :=
  if (s.vlt g).retiring.isSome then s
  else match s.reservePage g with
    | none => s.lineRecord g k .vltRetireFail 6 0xF
    | some p => s.updVlt g (fun v => { v with retiring := some ⟨linePage (s.retireMap g k.line), p, []⟩ })

/-- Steps 4 and 5 of R171 for a line that is not TEST: a remap entry, or the retirement of the page; the line holds its
data as read marked POISON; the remap entry where it now lies. During a retirement it escalates (R178). -/
def State.lastingFault (s : State) (g : Nat) (k : LineLock) (r : RawLine) : State × Nat :=
  let l' := s.retireMap g k.line
  let bank := lineBank l'
  let s0 := (s.bump .vltLastingCnt g 1).updVlt g (fun v => { v with escalate := v.escalate || v.retiring.isSome })
  match s.remapEntry g l' with
  | some n =>
    let bad := s.rdF .vltRemap g n 27 3
    let s1 := s0.updVlt g (fun v => { v with badSpares := v.badSpares ++ [bank * 8 + bad] })
    (match s1.freeSpare g bank with
      | some x => (s1.takeRemap g n l' x r, n)
      | none => ((s1.beginRetire g k).leavePoison g k.line r, 0xF))
  | none =>
    match s0.freeRemap g, s0.freeSpare g bank with
    | some n, some x => (s0.takeRemap g n l' x r, n)
    | _, _ => ((s0.beginRetire g k).leavePoison g k.line r, 0xF)

/-- The valid recompute range that a line lies in; of several the lowest, since R172 names no order among them (DESIGN CHOICE, log
entry 124). -/
def State.rcmpRange (s : State) (g l : Nat) : Option Nat :=
  (List.range 16).find? (fun n => (s.rd .vltRcmpRange g n).testBit 59
    && decide (s.rdF .vltRcmpRange g n 0 26 ≤ l) && decide (l ≤ s.rdF .vltRcmpRange g n 26 26))

/-- Unit that runs a descriptor by its OP (R281): 0 hinge array, 1 vector engine, 2 lanes, 3 fabric and hub. -/
def opStream (op : Nat) : Option Nat :=
  if op = 0x10 then some 0
  else if 0x20 ≤ op ∧ op ≤ 0x3F then some 1
  else if 0x40 ≤ op ∧ op ≤ 0x4F then some 2
  else if op = 0x50 ∨ op = 0x51 ∨ op = 0x53 ∨ op = 0x58 ∨ op = 0x60 ∨ op = 0x70 then some 3
  else none

/-- The failed line of a lane has its outcome (R204 step 4): good data let the lane try the pass again; a POISON or TEST
line stops the bank, and the core withholds its step advance. -/
def State.laneSettle (s : State) (g l : Nat) (good : Bool) : State :=
  let b := lineBank l
  let f : LaneBank → LaneBank := fun k =>
    if k.failed = some l then { k with failed := none, stopped := k.stopped || !good } else k
  let s1 := s.updLane g (fun n => { n with
    job := n.job.map (fun j => j.updBank b f)
    saved := n.saved.map (fun o => (o.1.map (fun j => j.updBank b f), o.2)) })
  if good then s1.bump .lanePassRetryCnt g 1
  else (((s1.wrF .laneStatus g 0 7 1 1).wrF .laneStatus g 0 8 7 b).withhold g)

/-- Step 8 of R171: a TEST line is delivered as stored, any other is left marked POISON, one that its recompute has stored and that
fails its check again too, and is answered as R173 states; a lane stops its bank (R204). -/
def State.leaveLost (s : State) (g : Nat) (k : LineLock) (entry : Nat) : State :=
  let r := s.rawLine g k.line
  let s1 :=
    if k.test then
      let s2 := s.lineRecord g k .vltTest 5 0xF
      if k.lane then s2.laneSettle g k.line false
      else if k.req.write then s2.finishWrite g k.req r
      else s2.answerRead g k.req r 2
    else
      let s0 := if r.poison then s else s.leavePoison g k.line r
      let s2 := (s0.lineRecord g k .vltLasting 4 entry).withhold k.req.user
      if k.lane then (s2.bump .vltPoisonReadCnt g 1).laneSettle g k.line false
      else if k.req.write then s2.finishWrite g k.req r.lost
      else if k.req.src = 0xFF then s2
      else (s2.bump .vltPoisonReadCnt g 1).answerRead g k.req r.lost 1
  s1.unlock g k.line

/-- A locked line has passed a read (R171 steps 3 and 7): its request is served, or its lane may try again (R204: a line that
carries POISON or TEST then stops that try). -/
def State.finishLock (s : State) (g : Nat) (k : LineLock) (r : RawLine) : State :=
  if k.lane then s.laneSettle g k.line true else s.finishReq g k.req r

/-- Step 6 of R171: ask for a recompute, or go to step 8. -/
def State.askRecompute (s : State) (g : Nat) (k : LineLock) (entry : Nat) : State :=
  match s.rcmpRange g k.line with
  | some n =>
    if (s.rd .vltCtl g 0).testBit 3 then
      let c := s.home (s.rdF .vltRcmpRange g n 52 7)
      let a := s.rdF .vltRcmpDesc g n 5 51 * 32
      let req : RcmpReq := ⟨a, g, k.line, (opStream (s.byteAt a)).getD 1, true⟩
      (s.updLock g k.line (fun k => { k with phase := .recompute })).updCore c
        (fun c => { c with rcmpQ := c.rcmpQ ++ [req] })
    else s.leaveLost g k entry
  | none => s.leaveLost g k entry

/-- The recompute of the line asked for has stored its output: the controller reads the line again and the suspended
descriptor resumes (R171 step 7, R172). -/
def State.rcmpDone (s : State) (g : Nat) : State :=
  match (s.core g).rcmpRun with
  | some q => (if q.live then s.updLock q.vault q.line (fun k => { k with phase := .reread }) else s).updCore g
      (fun c => { c with rcmpRun := none })
  | none => s

/-- The line of a vault waits for its recompute no longer (R171 step 7). -/
def RcmpReq.drop (g l : Nat) (q : RcmpReq) : RcmpReq := if q.vault = g ∧ q.line = l then { q with live := false } else q
def State.rcmpDrop (s : State) (g l : Nat) : State :=
  match s.rcmpRange g l with
  | some n => s.updCore (s.home (s.rdF .vltRcmpRange g n 52 7)) (fun c => { c with
      rcmpQ := c.rcmpQ.map (RcmpReq.drop g l), rcmpRun := c.rcmpRun.map (RcmpReq.drop g l) })
  | none => s

/-! ### Reads and writes by units -/

/-- Lines of a byte range. -/
def lineRange (b n : Nat) : List Nat :=
  if n = 0 then [] else (List.range ((b + n - 1) / 128 - b / 128 + 1)).map (fun i => b / 128 + i)

/-- Vault lines that a domain address range touches, as (core, line). -/
def State.linesOf (s : State) (a n : Nat) : List (Nat × Nat) :=
  if addrPkg a ≠ s.pkg then []
  else match locOf a with
    | .vault _ _ => (lineRange a n).filterMap (fun l => match locOf (128 * l) with
      | .vault g b => some (s.home g, b / 128)
      | _ => none)
    | _ => []

/-- The line as delivered to a unit that waited for it. -/
def State.deliveredTo (s : State) (reader : Nat) (p : Nat × Nat) : Option Delivered :=
  (s.vlt p.1).delivered.find? (fun d => d.reader == reader && d.line == p.2)

/-- A write of the reader itself to the line waits for a fence, a snapshot frame or a migration, so its read waits behind it: requests
from one source to one line complete in issue order (R168). -/
def State.writeParked (s : State) (src : Nat) (p : Nat × Nat) : Bool :=
  let q := fun (r : VltReq) => r.write && r.src == src % 256 && r.line == p.2
  let v := s.vlt p.1
  v.heldWrites.any q || (match v.retiring with
    | some r => r.waiting.any q
    | none => false)

/-- Is a line readable by a unit at once: delivered to it, or free and passing its check. -/
def State.lineReady (s : State) (reader : Nat) (p : Nat × Nat) : Bool :=
  (s.deliveredTo reader p).isSome
    || !s.writeParked reader p && !s.recordHeld p.1 && (!s.locked p.1 p.2 && (s.busyBank p.1 p.2).isNone && !s.flipArmed p.1 p.2 1 && (s.rawLine p.1 p.2).ok)

/-- A unit's own wait for a line: `reader` is the unit's number, its island the source. -/
def unitReq (reader l : Nat) : VltReq := ⟨reader % 256, l, false, 0, 0, [], some reader, false⟩

/-- Numbers of the units of a core that read vault lines beside its sequencer, whose number is the core's own. -/
def hngUnit (g : Nat) : Nat := g + 256
def veUnit (g : Nat) : Nat := g + 512
/-- Numbers of a fabric island's readers: for a core's descriptor of operation `op`, and for a message of a source. -/
def fabUnit (g op : Nat) : Nat := 128 + g / 16 + 256 * (1 + g % 16 + 16 * op)
def msgUnit (die src : Nat) : Nat := 128 + die + 256 * (2 ^ 12 + src)
/-- Number of the reader of a job of the gateway. -/
def jobUnit (id : Nat) : Nat := hubIsland + 256 * (1 + id)

/-- Requests that wait for a locked or busy line. -/
def State.lineWaiters (s : State) (g l : Nat) : List VltReq :=
  match s.lockOf g l with
  | some k => k.req :: k.waiting
  | none => (s.laneBank g (lineBank l)).waiting

/-- A unit meets a line that is not ready: its request waits for the lock or the pass set, or the controller takes the line through R171.
A unit asks once however often it looks, and not before its own write to the line has been stored, or while the vault stalls (R389). -/
def State.unitWait (s : State) (reader g l : Nat) : State :=
  if s.writeParked reader (g, l) || s.recordHeld g || (s.lineWaiters g l).contains (unitReq reader l) then s else s.vltRequest g (unitReq reader l) []

/-- Memory as a unit sees it: each line that was delivered to it as it was then. -/
def State.view (s : State) (reader : Nat) (ls : List (Nat × Nat)) : State :=
  forEach ls (fun p t => match s.deliveredTo reader p with
    | some d => t.putRaw (s.lineKey p.1 p.2) (freshLine d.data d.tag d.flags)
    | none => t) s

/-- A unit takes what was delivered to it. -/
def State.takeDelivered (s : State) (reader : Nat) (p : Nat × Nat) : State :=
  if (s.deliveredTo reader p).isSome then s.updVlt p.1 (fun v => { v with
    delivered := v.delivered.filter (fun d => !(d.reader == reader && d.line == p.2)) })
  else s

/-- The reads of a unit (R168): when some line is not ready the unit waits (`none`); otherwise every POISON line not answered by
the controller counts and is recorded (R173), and the unit sees memory as the second state shows it. -/
def State.gateReads (s : State) (reader : Nat) (ls : List (Nat × Nat)) : State × Option State :=
  match ls.find? (fun p => !s.lineReady reader p) with
  | some (g, l) => (s.unitWait reader g l, none)
  | none =>
    let s1 := forEach (ls.filter (fun p => (s.rawLine p.1 p.2).poison && (s.deliveredTo reader p).isNone)).eraseDups
      (fun p s => s.poisonRead p.1 (unitReq reader p.2) (s.rawLine p.1 p.2)) s
    (forEach ls (fun p s => s.takeDelivered reader p) s1, some (s1.view reader ls))

/-- Units give up what was delivered to them: they suspend, freeze or go dark, and read again when they resume. -/
def State.dropWhere (s : State) (p : Nat → Bool) : State :=
  forUpTo 128 (fun g s => if (s.vlt g).delivered.any (fun d => p d.reader)
    then s.updVlt g (fun v => { v with delivered := v.delivered.filter (fun d => !p d.reader) }) else s) s
/-- Every unit of an island, and one unit. -/
def State.dropDelivered (s : State) (island : Nat) : State := s.dropWhere (fun u => u % 256 == island)
def State.dropUnit (s : State) (unit : Nat) : State := s.dropWhere (fun u => u == unit)

/-- Pieces of a byte run that fall in one line each: line, offset in the line, bytes. -/
def linePieces : Nat → Nat → List Nat → List (Nat × Nat × List Nat)
  | 0, _, _ => []
  | n + 1, b, bs =>
    if bs.isEmpty then []
    else
      let k := 128 - b % 128
      (b / 128, b % 128, bs.take k) :: linePieces n (b + k) (bs.drop k)

/-- Does a write of `src` to a line of the vault still wait: for a lock, a pass set, a fence, a snapshot frame or a page
migration. -/
def State.writeWaits (s : State) (src : Nat) (p : Nat × Nat) : Bool :=
  let q := fun (r : VltReq) => r.write && r.src == src && r.line == p.2
  let v := s.vlt p.1
  v.heldWrites.any q || v.locks.any (fun k => q k.req || k.waiting.any q)
    || (match v.retiring with
      | some r => r.waiting.any q
      | none => false)
    || (s.laneBank p.1 (lineBank p.2)).waiting.any q

/-- Has every write of `src` to some lines been stored. -/
def State.writesDone (s : State) (src : Nat) (ls : List (Nat × Nat)) : Bool := ls.all (fun p => !s.writeWaits src p)

/-- A unit's write of a byte run into the vaults from a domain address on; whole lines as full writes, the rest as narrow writes (R168,
R174). `rcmp`: a recompute's write. What lies past the last vault is discarded (R15). -/
def State.writeLines (s : State) (src a : Nat) (bs : List Nat) (tag : Nat) (rcmp : Bool) : State :=
  forEach (linePieces (bs.length / 128 + 2) a bs) (fun p s => match locOf (128 * p.1) with
    | .vault g b => s.vltRequest (s.home g) ⟨src, b / 128, true, p.2.1, tag, p.2.2, none, rcmp⟩ []
    | _ => if 128 ≤ src then s.hubAddrViol (128 * p.1) else s) s

/-- A unit's write of bytes at a domain address of its own package; a write in a reserved space is discarded and counted by the core or
the hub (R15, R511); one into space 2 is discarded and counted (R254). -/
def State.writeAt (s : State) (src a : Nat) (bs : List Nat) (tag : Nat) (rcmp : Bool) : State :=
  if addrPkg a ≠ s.pkg then s
  else match locOf a with
    | .vault _ _ => s.writeLines src a bs tag rcmp
    | .stage g b => s.putStg (s.home g) b (bs.take (stgBytes - b))
    | .tier _ _ => s.viol .tierViolCnt 0 0xFF 0xFFFFFFFF 0xFF a
    | .bad => if 128 ≤ src then s.hubAddrViol a else s.coreAddrViol src 0xFF 0xFFFFFFFF 0xFF a
    | _ => s

/-- Does an address lie in a core that is fencing or dark and has no adopter yet: a write there, and a read of its stage memory, is
refused and goes back to its sender; the vault serves fabric reads (R30, R393, R394). -/
def State.fencedOff (s : State) (a : Nat) : Bool := match locOf a with
  | .vault g _ | .stage g _ => decide ((s.core g).fence = .fencing ∨ (s.core g).fence = .dark)
  | _ => false

/-- Can lines from a domain address on be stored at once: no lock, pass set, fence, migration or snapshot wait holds them, and
their core is not on its way to an adopter (R171, R177, R203, R261, R395, R408). -/
def State.canStore (s : State) (a n : Nat) : Bool :=
  !s.fencedOff a && (s.linesOf a (128 * n)).all (fun p =>
    !s.locked p.1 p.2 && (s.busyBank p.1 p.2).isNone && !s.writeHeld p.1 p.2 && !s.migrating p.1 p.2)

/-- The counter of what holds a line's write, if it counts. -/
def State.waitCounter (s : State) (a n : Nat) : Option (Reg × Nat) :=
  (s.linesOf a (128 * n)).findSome? (fun p =>
    if (s.busyBank p.1 p.2).isSome then some (.laneBusyWaitCnt, p.1)
    else if (s.frame p.1 (linePage p.2)).fenced then some (.tierWbWaitCnt, 0)
    else if s.snapHeld p.1 (linePage p.2) then some (.hubSnapWaitCnt, 0)
    else if s.migrating p.1 p.2 then some (.vltMigrateWaitCnt, p.1) else none)

end Sys2Proof.Machine
end

