-- ==== Sys2Proof/Machine/SyncOps.lean ====
section
/-! DEFINITION. Shared operations of the synchronisation block: waits, tumblers, latches, signals, streams (R281 to R296,
R303). -/

namespace Sys2Proof.Machine

def m48 : Nat := 2 ^ 48

/-! ## The fault queue (R389) -/

/-- The FAULT_N pin follows the queue (R459): low while a record of class STEP or above is held. -/
def State.faultPin (s : State) (before : State) : State :=
  if (s.fltFatals == 0) = (before.fltFatals == 0) then s else s.send (.pin 1 (s.fltFatals == 0))

/-- Entries of some classes leave the queue: their handling is closed (R389). -/
def State.closeRecords (s : State) (p : Nat → Bool) : State :=
  ({ s with fltq := s.fltq.filter (fun e => !p e.record.cls) }).faultPin s

/-- A core whose sequencer and streams run: active, not fenced, not at a freeze point, with no fault record held back. -/
def State.running (s : State) (g : Nat) : Bool :=
  s.active g && decide ((s.core g).fence = .none) && !(s.core g).frozen && !s.recordHeld g

/-- A core whose units may complete what they have in hand: active, not being fenced, not past its freeze point, with no fault
record held back (R302, R389, R393). -/
def State.works (s : State) (g : Nat) : Bool :=
  s.active g && decide ((s.core g).fence = .none ∨ (s.core g).fence = .suspect) && !(s.core g).frozen && !s.recordHeld g

/-! ## Streams and their entries -/

def Core.stream (c : Core) (st : Nat) : List Entry := c.streams.getD st []
def Core.setStream (c : Core) (st : Nat) (es : List Entry) : Core := { c with streams := c.streams.set st es }

/-- The head of a stream: its first entry that has not been passed (R285). -/
def Core.head (c : Core) (st : Nat) : Option Entry := (c.stream st).find? (fun e => !e.issued)

/-- Change the head of a stream. -/
def updFirst {α : Type} (p : α → Bool) (f : α → α) : List α → List α
  | [] => []
  | e :: es => if p e then f e :: es else e :: updFirst p f es

def State.updHead (s : State) (g st : Nat) (f : Entry → Entry) : State :=
  s.updCore g (fun c => c.setStream st (updFirst (fun e => !e.issued) f (c.stream st)))

/-- The issued entry of a stream whose descriptor is in its unit. -/
def Core.inUnit (c : Core) (st : Nat) : Option Entry := (c.stream st).find? (fun e => e.issued && !e.done)

def State.updInUnit (s : State) (g st : Nat) (f : Entry → Entry) : State :=
  s.updCore g (fun c => c.setStream st (updFirst (fun e => e.issued && !e.done) f (c.stream st)))

/-- The descriptor in a stream's unit has completed: its entry may complete, with these census sets (R285). -/
def State.descDone (s : State) (g st : Nat) (cs : List CensusSet) : State :=
  s.updInUnit g st (fun e => { e with done := true, census := cs })

/-- The first entry of stream 3 with an operation code that no unit has in hand. -/
def Core.nextFor (c : Core) (op : Nat) : Option Entry :=
  (c.stream 3).find? (fun e => e.issued && !e.done && !e.taken && e.kind == 0 && !e.skip && bitsOf e.desc 0 8 == op)

/-- Change the entry of stream 3 at a schedule-queue position. -/
def State.updAt (s : State) (g pos : Nat) (f : Entry → Entry) : State :=
  s.updCore g (fun c => c.setStream 3 (updFirst (fun e => e.issued && !e.done && e.pos == pos) f (c.stream 3)))
/-- A unit takes an entry of stream 3 in hand. -/
def State.takeEntry (s : State) (g pos : Nat) : State := s.updAt g pos (fun e => { e with taken := true })
/-- The descriptor of an entry of stream 3 has completed (R285). -/
def State.descDoneAt (s : State) (g pos : Nat) (cs : List CensusSet) : State :=
  s.updAt g pos (fun e => { e with done := true, census := cs })

/-- Replace the fenced core's fields by the adopter's in an address of an adopted rank (R395). -/
def State.adr (s : State) (g a : Nat) : Nat :=
  match (s.core g).adopts with
  | some f => if addrPkg a = s.pkg ∧ addrSpace a ≤ 1 ∧ bitsOf a 33 7 = f then setBits a 33 7 g else a
  | none => a

/-- Bytes of a descriptor by its OP. -/
def descLen (op : Nat) : Nat :=
  if op = 0x10 ∨ op = 0x30 then 128
  else if 0x20 ≤ op ∧ op ≤ 0x3F then 192
  else if 0x40 ≤ op ∧ op ≤ 0x4F then 128
  else if op = 0x53 ∨ op = 0x70 then 32
  else 64

/-- Alignment of a descriptor: its length rounded up to a power of two (R21). -/
def descAlign (op : Nat) : Nat := if descLen op = 192 then 256 else descLen op

/-! ## Wait fields (R283) -/

def waitOp (w : Nat) : Nat :=
  let o := bitsOf w 0 3
  let l := bitsOf w 8 8
  if 4 ≤ o then 0 else if 2 ≤ o ∧ 64 ≤ l then 0 else o
def waitAdv (w : Nat) : Bool := w.testBit 3
def waitObj (w : Nat) : Nat := bitsOf w 8 8
def waitArg (w : Nat) : Nat := bitsOf w 16 24

/-- Violations of a wait field that its own bits show. -/
def waitViols (off w : Nat) : List Viol :=
  let o := bitsOf w 0 3
  if 4 ≤ o then [⟨off, o⟩] else if 2 ≤ o ∧ 64 ≤ bitsOf w 8 8 then [⟨off + 1, bitsOf w 8 8⟩] else []

/-- The wait in hand of an entry. -/
def Entry.wait (e : Entry) : Nat := e.waits.getD e.waited 0

/-! ## Latches (R292 to R294) -/

structure LatchVal where
  cap : Nat
  ticket : Bool
  count : Nat
  ovf : Nat
  udf : Nat
  deriving DecidableEq, Repr

def State.latch (s : State) (g m : Nat) : LatchVal :=
  ⟨s.rdF .synLatchCfg g m 0 21, (s.rd .synLatchCfg g m).testBit 21, s.rdF .synLatchState g m 0 21,
    s.rdF .synLatchOvf g m 0 48, s.rdF .synLatchUdf g m 0 48⟩


/-- The take of R292 on a latch whose COUNT holds the amount. -/
def LatchVal.take (v : LatchVal) (a : Nat) : LatchVal :=
  let c := v.count - a
  let m := min v.ovf (v.cap - c)
  { v with count := c + m, ovf := v.ovf - m }

/-- The post of R292. -/
def LatchVal.post (v : LatchVal) (n : Nat) : LatchVal :=
  let r := min n v.udf
  let t := v.count + (n - r)
  { v with udf := v.udf - r, count := min t v.cap, ovf := v.ovf + (t - v.cap) }

/-- The try of R292 that cannot be served. -/
def LatchVal.short (v : LatchVal) (a : Nat) : LatchVal := { v with udf := v.udf + a - v.count, count := 0 }

/-- Amount of a take as the latch reads it: at least 1, at most the capacity, 1 in ticket mode (R283, R293). -/
def LatchVal.amount (v : LatchVal) (a : Nat) : Nat := if v.ticket then 1 else min (max a 1) v.cap

/-- Does that reading count as a violation. -/
def LatchVal.amountViol (v : LatchVal) (a : Nat) : Bool := a != v.amount a

/-- The largest tally (R294). -/
def tallyMax : Nat := 2 ^ 47 - 1

def latchRecord (m st a : Nat) (v : LatchVal) : Payload := .sync m 1 st a v.count v.ovf v.udf

/-- A wait of a head has been satisfied: the next wait, or the entry issues (R285 steps 1 and 2). OP 0 is satisfied at
once. -/
def Entry.settle (e : Entry) : Nat → Entry
  | 0 => e
  | n + 1 =>
    if 2 ≤ e.waited then { e with issued := true, done := decide (e.kind = 1) || e.skip, target := none, arrived := false }
    else if waitOp e.wait = 0 then Entry.settle { e with waited := e.waited + 1, target := none, arrived := false } n
    else e

/-- Entries of kind STEP_ADV and EVAL_END begin their waits only when every earlier entry has completed (R286); they do
not issue to a unit. -/
def Entry.closing (e : Entry) : Bool := decide (e.kind = 2 ∨ e.kind = 3)

/-- Pass the waits of OP 0 without issuing. -/
def Entry.skipNone (e : Entry) : Nat → Entry
  | 0 => e
  | n + 1 =>
    if e.waited < 2 ∧ waitOp e.wait = 0 then
      Entry.skipNone { e with waited := e.waited + 1, target := none, arrived := false } n
    else e

/-- Waits of OP 0 at the front of a head are passed. Closing entries stay at the head until their own command. -/
def Entry.norm (e : Entry) : Entry := if e.closing then e.skipNone 2 else e.settle 4

/-- One wait of a head is satisfied. -/
def Entry.satisfy (e : Entry) : Entry := { e with waited := e.waited + 1, target := none, arrived := false }.norm

/-! ### Shadow copies (R267) -/

/-- Readers of a window: cores of its die. -/
def Window.readerCores (w : Window) : List Nat :=
  (List.range 16).filterMap (fun n => if w.readers.testBit n then some (16 * w.die + n) else none)

/-- The window whose FILL_TMB is a tumbler of a core that reads it, itself or for the rank it has adopted. -/
def State.fillWin (s : State) (g n : Nat) : Option (Nat × Window) :=
  ((List.range s.tier.wins.length).zip s.tier.wins).find? (fun p =>
    p.2.fill == n && p.2.readerCores.any (fun r => s.home r == g))

def State.obj (s : State) (o : Nat) : Option TierObj := SMap.get (fun _ => none) s.tier.objs o

/-- The list entry of an instance, and its object (R264, R265). -/
def Window.entryAddr (w : Window) (u : Nat) : Nat := w.list + 2 * (u % w.len)
def State.winObj (s : State) (w : Window) (u : Nat) : Nat := s.natAt (w.entryAddr u) 2
def State.winLines (s : State) (w : Window) (u : Nat) : List (Nat × Nat) := s.linesOf (w.entryAddr u) 2

/-- An instance that is skipped: its object is no streamed frozen object with a home, or too large (R264, R265). -/
def State.winSkips (s : State) (w : Window) (o : Nat) : Bool := match s.obj o with
  | some x => x.kind != 0 || decide (2 ≤ x.home) || x.res.isSome || decide (w.pages < x.pages)
  | none => true

/-- SHADOW_ADDR of an instance's object; zero where it has none, and for a skipped instance, which no substitution serves (R267). -/
def State.winShadow (s : State) (w : Window) (u : Nat) : Nat :=
  if s.winSkips w (s.winObj w u) then 0 else ((s.obj (s.winObj w u)).map (fun x => x.shadow)).getD 0

/-- Descriptor `d` with the operand whose address is at `aOff` and format field at `fOff` taken from the shadow copy at `shadow`, when it
lies in the slot; `false`: it is not at the start of a tile and stays. -/
def shadowOf (slot len shadow : Nat) (d aOff fOff : Nat) : Nat × Bool :=
  let a := dfld d aOff 0 64 % 2 ^ 56
  match Fmt.ofCode (dfld d fOff 0 4) with
  | some f =>
    if slot ≤ a ∧ a < slot + len then
      if (a - slot) % f.footprint = 0 then
        (setBits (setBits d (8 * aOff) 64 (shadow + (a - slot) / f.footprint * 8448)) (8 * fOff) 6 (7 + 16), true)
      else (d, false)
    else (d, true)
  | none => (d, true)

/-- Operand address and format offsets of a descriptor (R93, R117, R135). -/
def operandFields (d : Nat) : List (Nat × Nat) :=
  let op := dfld d 0 0 8
  if op = 0x10 then [(16, 64), (24, 80)] ++ (if dfld d 1 3 1 = 1 then [(40, 112)] else [])
  else if op = 0x30 then [(16, 64), (24, 80)]
  else if 0x20 ≤ op ∧ op ≤ 0x3F then [(16, 112), (24, 128), (32, 144)]
  else []

/-- A descriptor with its operands in the slots of some instances taken from their shadow copies, and the operands that are not at the
start of a tile. -/
def State.shadowDesc (s : State) (us : List (Nat × Nat × Nat)) (d : Nat) : Nat × Nat :=
  us.foldl (fun a p => match s.tier.wins[p.1]? with
    | some w =>
      let slot := vaultAddr s.pkg w.home ((w.base + p.2.1 % w.depth * w.pages) * 2 ^ 21)
      (operandFields d).foldl (fun a q =>
        let r := shadowOf slot (w.pages * 2 ^ 21) p.2.2 a.1 q.1 q.2
        (r.1, if r.2 then a.2 else a.2 + 1)) a
    | none => a) (d, 0)

/-- The entries of a stream that have just issued. -/
def Entry.fresh (e : Entry) : Bool := e.issued && !e.done && e.desc == 0 && e.kind == 0

/-- Read the descriptor of an entry that has just issued (R285 step 2), with its substitutions (R267). -/
def State.fetchDesc (s : State) (g st : Nat) : State :=
  forEach ((s.core g).stream st) (fun e s =>
    if e.fresh then
      let r := s.shadowDesc e.subst (s.natAt e.addr (descLen (s.byteAt e.addr)))
      let s1 := (forUpTo r.2 (fun _ s => s.viol .tierViolCnt 0 (dfld r.1 0 0 8) e.pos 0xFF e.addr) s).trace g 0
      s1.updCore g (fun c => c.setStream st (updFirst (fun x => x.fresh && x.pos == e.pos) (fun x => { x with desc := r.1 })
        (c.stream st)))
    else s) s

/-- The head of a stream passes waits as `f` says; a lent core notes that one has been satisfied (R301). -/
def State.passHead (s : State) (g st : Nat) (f : Entry → Entry) : State :=
  match (s.core g).head st with
  | none => s
  | some e =>
    let s0 := (s.updHead g st f).fetchDesc g st
    let s1 := if e.waited < (f e).waited ∧ waitOp e.wait ≠ 0 then s0.trace g 3 else s0
    if e.waited < (f e).waited ∧ (s.core g).lent then s1.updCore g (fun c => { c with released := true }) else s1

/-- Heads that have no wait before them go on at once, one after the other (R285). -/
def State.normHead (s : State) (g st : Nat) : State :=
  forUpTo 9 (fun _ s => match (s.core g).head st with
    | some e => if e.target.isNone ∧ !e.arrived ∧ e.norm ≠ e then s.passHead g st Entry.norm else s
    | none => s) s

/-- The wait in hand of a head is satisfied. -/
def State.satisfyHead (s : State) (g st : Nat) : State := (s.passHead g st Entry.satisfy).normHead g st

/-! ### Two copies (R304) -/

/-- What the first copy of an object's field holds. -/
def State.copy0 (s : State) (g kind obj field : Nat) : Nat :=
  if kind = 0 then
    (if field = 1 then s.rdF .synTmbMark g obj 0 48 else if field = 3 then s.rdF .synTmbCfg g obj 0 23
     else s.rdF .synTmbCount g obj 0 48)
  else if kind = 1 then
    (if field = 1 then s.rdF .synLatchOvf g obj 0 48 else if field = 2 then s.rdF .synLatchUdf g obj 0 48
     else if field = 3 then s.rdF .synLatchCfg g obj 0 22 else s.rdF .synLatchState g obj 0 21)
  else if kind = 2 then s.rdF .synPathSet g 0 0 4
  else s.rdF .synPathSet g 0 4 1

/-- A disagreement of the two copies. -/
def State.dupMismatch (s : State) (g kind obj a b : Nat) : State :=
  s.queue .synDupMismatch g (some g) (.sync obj kind 0 0 a b 0)

/-- An update of an object is compared across its copies. -/
def State.compare (s : State) (g kind obj : Nat) : State :=
  forEach ((s.core g).dup.filter (fun d => d.1 == kind && d.2.1 == obj)) (fun d s =>
    s.dupMismatch g kind obj (s.copy0 g kind obj d.2.2.1) d.2.2.2) s

/-- The second copy of a field shows `v` (a fault has struck it, or an update has reached it); where it agrees nothing is kept. -/
def State.setCopy1 (s : State) (g kind obj field v : Nat) : State :=
  s.updCore g (fun c => { c with
    dup := c.dup.filter (fun d => !(d.1 == kind && d.2.1 == obj && d.2.2.1 == field))
      ++ (if v = s.copy0 g kind obj field then [] else [(kind, obj, field, v)]) })

/-- A field of an object has changed from `old`: the second copy, where it differs, moves as far. -/
def State.copyMove (s : State) (g kind obj field old w : Nat) : State :=
  match (s.core g).dup.find? (fun d => d.1 == kind && d.2.1 == obj && d.2.2.1 == field) with
  | some d => s.setCopy1 g kind obj field ((d.2.2.2 + s.copy0 g kind obj field + 2 ^ w - old) % 2 ^ w)
  | none => s

/-- A latch takes new counts, in both copies. -/
def State.setLatch (s : State) (g m : Nat) (v : LatchVal) : State :=
  let o := s.latch g m
  let s1 := ((s.wrF .synLatchState g m 0 21 v.count).wrF .synLatchOvf g m 0 48 v.ovf).wrF .synLatchUdf g m 0 48 v.udf
  (((s1.copyMove g 1 m 0 o.count 21).copyMove g 1 m 1 o.ovf 48).copyMove g 1 m 2 o.udf 48).compare g 1 m

/-- SYN_LATCH_STATE.SHORT of a stream. -/
def State.setShort (s : State) (g m st : Nat) (b : Bool) : State := s.wrF .synLatchState g m (25 + st) 1 (if b then 1 else 0)

/-- Serve the waiting takes of a latch in arrival order (R293). In normal mode every take that fits the current COUNT is
served; in ticket mode the oldest while COUNT holds one. `n` bounds the number of services. -/
def State.serveTakes (s : State) (g m : Nat) : Nat → State
  | 0 => s
  | n + 1 =>
    let v := s.latch g m
    let ws := (s.core g).takes.filter (fun t => t.latch == m)
    let pick := if v.ticket then ws.head?.filter (fun t => decide (t.amount ≤ v.count))
      else ws.find? (fun t => decide (t.amount ≤ v.count))
    match pick with
    | none => s
    | some t =>
      let s1 := (s.setLatch g m (v.take t.amount)).updCore g (fun c => { c with takes := c.takes.filter (· != t) })
      State.serveTakes ((s1.setShort g m t.stream false).satisfyHead g t.stream) g m n

/-- Update the WAITERS field (R305). -/
def State.setWaiters (s : State) (g m : Nat) : State :=
  s.wrF .synLatchState g m 21 4 (((s.core g).takes.filter (fun t => t.latch == m)).length)

/-- A post of `n` would pass the tally limit: it is held at the latch (R294). -/
def State.postHeld (s : State) (g m n : Nat) : Bool := decide (tallyMax < ((s.latch g m).post n).ovf)

/-- One post applied at its latch (R292, R294). -/
def State.applyPost1 (s : State) (g m n : Nat) : State :=
  let v := s.latch g m
  let v' := v.post n
  let s1 := s.setLatch g m v'
  let s2 := if v.ovf < v'.ovf then
      (s1.bump .synLatchOvfCnt g 1).queue .synLatchOvf g (some g) (latchRecord m 0 n v')
    else s1
  s2.serveTakes g m 5

/-- A held try is evaluated again when posts have lowered UDF (R294). -/
def State.retryTry (s : State) (g m : Nat) : State :=
  forUpTo 4 (fun st s =>
    match (s.core g).head st with
    | some e =>
      if e.arrived ∧ waitOp e.wait = 3 ∧ waitObj e.wait = m then
        let v := s.latch g m
        let a := v.amount (waitArg e.wait)
        if (v.short a).udf ≤ tallyMax then
          (if a ≤ v.count then
            ((s.setLatch g m (v.take a)).setShort g m st false).satisfyHead g st
          else
            ((((s.setLatch g m (v.short a)).setShort g m st true).bump .synLatchUdfCnt g 1).queue .synLatchUdf g (some g)
              (latchRecord m st a (v.short a))).satisfyHead g st)
        else s
      else s
    | none => s) s

/-- A post of `n` at a latch; in ticket mode it acts as `n` successive signals (R293): what repays UDF, one signal per
waiting take, then the rest. -/
def State.applyPost (s : State) (g m n : Nat) : State :=
  let s1 := if (s.latch g m).ticket then
      let n1 := min n (s.latch g m).udf
      let w := min (n - n1) ((s.core g).takes.filter (fun t => t.latch == m)).length
      let s2 := if n1 = 0 then s else s.applyPost1 g m n1
      let s3 := forUpTo w (fun _ s => s.applyPost1 g m 1) s2
      if n - n1 - w = 0 then s3 else s3.applyPost1 g m (n - n1 - w)
    else s.applyPost1 g m n
  (s1.retryTry g m).setWaiters g m

/-! ## Tumblers (R287 to R291) -/

/-- `(MARK + OFFSET) mod 2^48` with OFFSET a signed 24-bit field. -/
def tmbTarget (mark off : Nat) : Nat := (mark + (if off < 2 ^ 23 then off else off + (m48 - 2 ^ 24))) % m48

/-- `(COUNT - target) mod 2^48 < 2^47`. -/
def tmbReached (count target : Nat) : Bool := decide ((count + (m48 - target % m48)) % m48 < 2 ^ 47)

/-- `(target - COUNT) mod 2^48`. -/
def tmbAhead (count target : Nat) : Nat := (target + (m48 - count % m48)) % m48

def State.tmbCount (s : State) (g n : Nat) : Nat := s.rdF .synTmbCount g n 0 48
def State.tmbMark (s : State) (g n : Nat) : Nat := s.rdF .synTmbMark g n 0 48
def State.tmbBound (s : State) (g n : Nat) : Nat := min (max (s.rdF .synTmbCfg g n 0 21) 1) (2 ^ 20)
def State.tmbAdvStream (s : State) (g n : Nat) : Nat := s.rdF .synTmbCfg g n 21 2

/-- The mark of a released wait with ADV (R288): from the tumbler's ADV_STREAM it advances, from another it counts. -/
def State.markAdvance (s : State) (g st n target : Nat) (e : Entry) : State :=
  if waitAdv e.wait then
    if s.tmbAdvStream g n = st then ((s.wrF .synTmbMark g n 0 48 target).setCopy1 g 0 n 1 target).compare g 0 n
    else s.viol .synViolCnt g e.kind e.pos (16 + 8 * e.waited) 1
  else s

/-- The instance whose fill a wait of a core was taken for from the shadow copy, if any (R267). -/
def State.substOf (s : State) (g n target : Nat) : Option (Nat × Nat × Nat) :=
  ((s.core g).substs.find? (fun x => x.1 == n && x.2.1 == target)).map (fun x => x.2.2)

/-- A head's wait on FILL_TMB is satisfied by the shadow copy of instance `p` (window, instance, R267). -/
def State.substHead (s : State) (g st : Nat) (p : Nat × Nat × Nat) (e : Entry) (target : Nat) : State :=
  ((s.updHead g st (fun e => { e with subst := e.subst ++ [p] })).markAdvance g st (waitObj e.wait) target e).satisfyHead g st

/-- Does a reader substitute the instance that its wait on FILL_TMB for a target waits for, once it has lasted `waited` µs: the window
admits it and the object has a shadow copy (R265, R267). -/
def State.shadowFor (s : State) (g n target waited : Nat) : Option (Nat × Nat × Nat) := match s.fillWin g n with
  | some (i, w) =>
    let u := tmbAhead 1 target
    if w.subst && decide (w.wait ≤ waited) && s.winShadow w u != 0 then some (i, u, s.winShadow w u) else none
  | none => none

/-- A core substitutes an instance for a wait: it is counted and marks the step (R267). -/
def State.takeShadow (s : State) (g n target : Nat) (p : Nat × Nat × Nat) : State :=
  ((s.updCore g (fun c => { c with substs := c.substs ++ [(n, target, p)] })).bump .coreSubstCnt g 1).wrF .coreSubstStatus g 0 0 1 1

/-- The lines that the tier manager reads to substitute an instance are there. -/
def State.shadowReady (s : State) (g n target : Nat) : Bool := match s.fillWin g n with
  | some (_, w) => (s.winLines w (tmbAhead 1 target)).all (s.lineReady islandH3)
  | none => false

/-- One evaluation of a head's tumbler wait (R287, R289): released, or held; beyond the bound it is counted and
recorded, and the stream is held. A first evaluation that finds a stream window's fill late is a deadline miss (R266), though the core
may have substituted its instance before; a wait whose instance the core takes from the shadow copy is satisfied, at once with a
SUBST_WAIT of 0 (R267). -/
def State.evalTumbler (s : State) (g st : Nat) (e : Entry) : State :=
  let n := waitObj e.wait
  let target := e.target.getD (tmbTarget (s.tmbMark g n) (waitArg e.wait))
  let cnt := s.tmbCount g n
  let late := e.target.isNone && !tmbReached cnt target
  let s0 := if late && (s.fillWin g n).isSome then s.bump .tierMissCnt 0 1 else s
  if e.stuck then s
  else match s.substOf g n target with
  | some p => s0.substHead g st p e target
  | none =>
    if tmbReached cnt target then (s.markAdvance g st n target e).satisfyHead g st
    else match (if s.tmbBound g n < tmbAhead cnt target ∨ !s.shadowReady g n target then none else s0.shadowFor g n target 0) with
    | some p => (s0.takeShadow g n target p).substHead g st p e target
    | none =>
      let s0 := if e.target.isNone then s0.trace g 2 else s0
      let stuck := decide (s.tmbBound g n < tmbAhead cnt target)
      let s1 := s0.updHead g st (fun e => { e with target := some target, stuck := stuck })
      if stuck then
        ((s1.bump .synBoundCnt g 1).updCore g (fun c => { c with boundStop := true })).queue .synBound g (some g)
          (.sync n 0 st 0 cnt target 0)
      else s1

/-- Every waiting head on a tumbler is evaluated again against the new COUNT (R287, R291). -/
def State.wakeHeads (s : State) (g n : Nat) : State :=
  forUpTo 4 (fun st s =>
    match (s.core g).head st with
    | some e => if e.target.isSome ∧ waitOp e.wait = 1 ∧ waitObj e.wait = n then s.evalTumbler g st e else s
    | none => s) s

/-- A signal adds to a tumbler, in both copies (R287, R304). -/
def State.tmbAdd (s : State) (g n amount : Nat) : State :=
  let old := s.tmbCount g n
  let s1 := ((s.wrF .synTmbCount g n 0 48 ((old + amount) % m48)).copyMove g 0 n 0 old 48).compare g 0 n
  let s2 := s1.updCore g (fun c =>
    { c with sigSeen := SMap.upd (fun _ => 0) c.sigSeen n (fun k => min (k + 1) 8) })
  s2.wakeHeads g n

/-! ## Signals (R284, R296, R303) -/

/-- Bits of gateways are set in a core's path set, in both copies (R296, R304). -/
def State.pathOr (s : State) (g bits : Nat) : State :=
  let old := s.rdF .synPathSet g 0 0 4
  ((s.wrF .synPathSet g 0 0 4 (old ||| bits % 16)).copyMove g 2 0 0 old 4).compare g 2 0

/-- Step 2 of a hasp clears the path set and SUBST_SEEN, in both copies (R297, R304, R373). -/
def State.pathClear (s : State) (g : Nat) : State :=
  let old := s.rdF .synPathSet g 0 0 4
  let seen := s.rdF .synPathSet g 0 4 1
  ((((s.wrF .synPathSet g 0 0 5 0).copyMove g 2 0 0 old 4).compare g 2 0).copyMove g 3 0 0 seen 1).compare g 3 0

/-- A signal or post is applied: it counts, and its path set and substitution mark join the core's (R296, R306, R373). -/
def State.noteSig (s : State) (g : Nat) (x : Sig) : State :=
  let s1 := (s.bump .synSigCnt g 1).pathOr g x.path
  if x.subst then (s1.wrF .synPathSet g 0 4 1 1).compare g 3 0 else s1

/-- A post reaches its latch: applied, or held there with a record at the tally limit (R294). -/
def State.postSig (s : State) (g : Nat) (x : Sig) : State :=
  if s.postHeld g x.obj x.amount then
    (s.updCore g (fun c => { c with held := c.held ++ [x] })).queue .synTallyLimit g (some g)
      (latchRecord x.obj 0 x.amount (s.latch g x.obj))
  else (s.noteSig g x).applyPost g x.obj x.amount

/-- A signal or post reaches the synchronisation block of its core (R284, R287, R292, R294): a latch index above 63 is discarded and
counted; a post behind a held one of its latch waits in the inbound buffer. -/
def State.applySig (s : State) (g : Nat) (x : Sig) : State :=
  if x.op = 1 then (s.noteSig g x).tmbAdd g (x.obj % 256) x.amount
  else if 64 ≤ x.obj then s.viol .synViolCnt g 0xFF 0xFFFFFFFF 0xFF x.obj
  else if (s.core g).held.any (fun h => h.obj == x.obj) then s.updCore g (fun c => { c with inbound := c.inbound ++ [x] })
  else s.postSig g x

/-- May a message reach a core now: it is active and not being deadbolted (its fabric island holds the message, R393), its inbound
buffer has room (R303), and no earlier message of its sender to this core is back with the sender. -/
def State.sigOpen (s : State) (g : Nat) (x : Sig) : Bool :=
  let c := s.core g
  s.active g && decide (c.fence ≠ .fencing) && decide (c.fence ≠ .dark) && decide (c.inbound.length < 64)
    && !s.sigRetry.any (fun e => e.2.src == x.src && s.home e.1 == g)

/-- A message for a core of the package, which leads to its adopter (R284, R303, R393, R395): refused, and then it waits with its
sender, or buffered after its freeze point, or applied. A message that a full buffer turns away counts; one that its sender holds back behind
a refused one has not reached the core. -/
def State.deliverSig (s : State) (g0 : Nat) (x : Sig) : State :=
  let g := s.home g0
  let c := s.core g
  if !s.sigOpen g x then
    let turned := decide (64 ≤ c.inbound.length) && !s.sigRetry.any (fun e => e.2.src == x.src && s.home e.1 == g)
    { (if turned then s.bump .synRefusedCnt g 1 else s) with sigRetry := s.sigRetry ++ [(g0, x)] }
  else if c.frozen then s.updCore g (fun c => { c with inbound := c.inbound ++ [x] })
  else s.applySig g x

/-- Senders send again what a core has refused, in their order (R284, R303). -/
def State.resend (s : State) (g : Nat) : State :=
  forEach s.sigRetry (fun e s =>
    if s.home e.1 = g ∧ s.sigOpen g e.2 then s.deliverSig e.1 e.2
    else { s with sigRetry := s.sigRetry ++ [e] }) { s with sigRetry := [] }

/-- Posts held at a latch, and those behind them in the inbound buffer, that now fit, in arrival order (R294). -/
def State.drainHeld (s : State) (g m : Nat) : Nat → State
  | 0 => s
  | k + 1 =>
    let c := s.core g
    match c.held.find? (fun x => x.obj == m) with
    | some x =>
      if s.postHeld g m x.amount then s
      else State.drainHeld ((s.updCore g (fun c => { c with held := c.held.filter (fun x => x.obj != m) })).postSig g x) g m k
    | none => match (if c.frozen then none else c.inbound.find? (fun x => x.op == 2 && x.obj == m)) with
      | some x => State.drainHeld ((s.updCore g (fun c => { c with inbound := c.inbound.erase x })).postSig g x) g m k
      | none => s

/-- A latch has changed: held posts that fit are applied, and what was refused for want of room comes again. -/
def State.latchMoved (s : State) (g m : Nat) : State := ((s.drainHeld g m 128).setWaiters g m).resend g

/-- The path set and substitution mark that a core's signals carry (R296, R373). -/
def State.sigOf (s : State) (g op obj amount : Nat) : Sig :=
  ⟨op, obj, amount, s.rdF .synPathSet g 0 0 4, (s.rd .synPathSet g 0).testBit 4, g⟩

/-- Add `n` to a tumbler of the core itself, as a unit of the core signals it; 0xFF in a descriptor names none. -/
def State.selfTmb (s : State) (g n amount : Nat) : State :=
  if amount = 0 then s else s.deliverSig g (s.sigOf g 1 n amount)

end Sys2Proof.Machine
end

