-- ==== Sys2Proof/Machine/FabricOps.lean ====
section
/-! DEFINITION. Shared operations of the fabric: lanes and links, flits, keyways and their credits, routes, messages and
transactions (R310 to R325, R332, R528). -/

namespace Sys2Proof.Machine

def State.updPrg (s : State) (f : Prg → Prg) : State := { s with prg := f s.prg }

/-! ## Lanes and links (R310 to R312) -/

def laneKey (port lane : Nat) : Nat := 8 * port + lane
def State.plane (s : State) (port lane : Nat) : PLane := SMap.get (fun _ => PLane.dark) s.prg.lanes (laneKey port lane)

/-- Mask of the lanes of a port in a state. -/
def State.laneMask (s : State) (port : Nat) (p : PLaneState → Bool) : Nat :=
  (List.range 8).foldl (fun m w => if p (s.plane port w).state then m + 2 ^ w else m) 0

/-- A replay episode is in progress on a link, at either end (R317). -/
def Link.inEpisode (l : Link) : Bool := l.episode.isSome || l.rxEpisode.isSome

/-- PRG_PORT_STATUS_k follows the lanes and the episodes of the port (R335). -/
def State.portStatus (s : State) (port : Nat) : State :=
  let ep := (List.range 8).any (fun w =>
    let l := SMap.get (fun _ => Link.down) s.prg.links (laneKey port w)
    l.inEpisode)
  s.wr .prgPortStatus port 0
    (s.laneMask port (· == .up) + s.laneMask port (· == .failed) * 2 ^ 8 + s.laneMask port (· == .training) * 2 ^ 16
      + (if s.laneMask port (· == .keepalive) = 0 then 0 else 2 ^ 24) + (if ep then 2 ^ 25 else 0))

def State.setPLane (s : State) (port lane : Nat) (l : PLane) : State :=
  (s.updPrg (fun p => { p with lanes := SMap.set (fun _ => PLane.dark) p.lanes (laneKey port lane) l })).portStatus port

/-- Direct mode of a port (R310). -/
def State.directPort (s : State) (port : Nat) : Bool := s.rdF .prgPortCfg port 0 0 1 == 0
/-- Peer of a lane in wavelength-routed mode: package and port, when the map names one. -/
def State.wlPeer (s : State) (port lane : Nat) : Option (Nat × Nat) :=
  if (s.rd .prgWlMap port lane).testBit 10 then some (s.rdF .prgWlMap port lane 0 6, s.rdF .prgWlMap port lane 6 4) else none

/-- Key of the link of a lane: the lowest lane of the port that reaches the same peer (R310). -/
def State.linkOf (s : State) (port lane : Nat) : Nat :=
  if s.directPort port then laneKey port 0
  else laneKey port (((List.range 8).find? (fun w => s.wlPeer port w == s.wlPeer port lane)).getD lane)

def State.link (s : State) (k : Nat) : Link := SMap.get (fun _ => Link.down) s.prg.links k
def State.updLink (s : State) (k : Nat) (f : Link → Link) : State :=
  (s.updPrg (fun p => { p with links := SMap.upd (fun _ => Link.down) p.links k f })).portStatus (k / 8)

/-- Lane SPARE of a port that holds a spare (R311). -/
def State.spareLane (s : State) (port : Nat) : Option Nat :=
  if (s.rd .prgPortCfg port 0).testBit 4 then some (s.rdF .prgPortCfg port 0 1 3) else none

/-- Lanes in use on a link, in increasing order. -/
def State.linkLanes (s : State) (k : Nat) : List Nat :=
  (List.range 8).filter (fun w => s.linkOf (k / 8) w == k && (s.plane (k / 8) w).state == .up)

/-- A lane that carries flits: all of them, or idle and control flits only (R312). -/
def PLaneState.carries : PLaneState → Bool
  | .up | .spare | .keepalive => true
  | _ => false
/-- Lanes on which idle and control flits of a link go, in increasing order (R311, R312). -/
def State.ctlLanes (s : State) (k : Nat) : List Nat :=
  (List.range 8).filter (fun w => s.linkOf (k / 8) w == k && (s.plane (k / 8) w).state.carries)

/-- The counts of an episode start again. -/
def State.clearEpisode (s : State) (l : Nat) : State :=
  forEach (s.linkLanes l) (fun w s => s.setPLane (l / 8) w { s.plane (l / 8) w with epUncorr := 0, epCorr := 0 }) s

/-- The receiving end of a link meets a bad flit, or a SEQ that lies ahead: its episode lasts until it has accepted the `n` flits that it
knows to be outstanding (R317; DESIGN CHOICE, log entry 127). -/
def State.openEpisode (s : State) (l n : Nat) : State :=
  (if (s.link l).inEpisode then s else s.clearEpisode l).updLink l (fun q => { q with rxEpisode := some (max n (q.rxEpisode.getD 0)) })

/-- A lane trains: this end sends its package and port number, its port mode and the first 8 bytes of the image digest (R313). Its
monitors are read anew (R335, R336). -/
def State.trainLane (s : State) (port lane mode digest : Nat) : State :=
  ((s.setPLane port lane { PLane.dark with state := .training }).updPrg (fun p => { p with
    oma := SMap.set (fun _ => none) p.oma (laneKey port lane) none
    laser := SMap.set (fun _ => none) p.laser (laneKey (port / 2) lane) none })).send (.training port lane s.pkg mode digest)
/-- A lane trains under the sealed image. -/
def State.trainSealed (s : State) (port lane : Nat) : State :=
  s.trainLane port lane (s.rdF .prgPortCfg port 0 0 1) (s.rd .hubImageDigest 0 0)

/-! ## Keyways (R318) -/

def kwKey (port kw : Nat) : Nat := 4096 * port + kw % 4096
def State.kw (s : State) (k : Nat) : Option Kw := SMap.get (fun _ => none) s.prg.kws k
def State.updKw (s : State) (k : Nat) (f : Kw → Kw) : State :=
  s.updPrg (fun p => { p with kws := SMap.upd (fun _ => none) p.kws k (fun o => o.map f) })

/-- Key of the link that a keyway travels on: its port's in direct mode, else that of the lane to its peer. -/
def State.kwLink (s : State) (k : Nat) (q : Kw) : Nat :=
  let port := k / 4096
  if s.directPort port then laneKey port 0
  else laneKey port (((List.range 8).find? (fun w => s.wlPeer port w == some (q.peer, q.peerPort))).getD 7)

/-- Is the link of a keyway up. -/
def State.kwUp (s : State) (k : Nat) : Bool := match s.kw k with
  | some q => (s.link (s.kwLink k q)).up
  | none => false

/-- Keyways that travel on a link. -/
def State.linkKws (s : State) (l : Nat) : List Nat :=
  (s.prg.kws.filter (fun e => match e.2 with
    | some q => s.kwLink e.1 q == l
    | none => false)).map (fun e => e.1)

/-- The route that lists a keyway: its key, if any. -/
def State.routeOfKw (s : State) (k : Nat) : Option Nat := (s.prg.routes.find? (fun e => e.2.contains k)).map (fun e => e.1)
def State.route (s : State) (pkg cls : Nat) : List Nat := SMap.get (fun _ => []) s.prg.routes (4 * pkg + cls)
/-- The keyway in use on a route: key in the list, when the route is not absent. -/
def State.routeKw (s : State) (r : Nat) : Option Nat :=
  (SMap.get (fun _ => []) s.prg.routes r)[SMap.get (fun _ => 0) s.prg.cur r]?

/-- The keyway that holds the byte stream of a keyway: the primary of its route, or itself (R323: KSEQ runs end to end). -/
def State.streamKw (s : State) (k : Nat) : Nat := match s.routeOfKw k with
  | some r => (SMap.get (fun _ => []) s.prg.routes r).headD k
  | none => k
/-- The keyway that carries a keyway's stream now. -/
def State.carrier (s : State) (k : Nat) : Nat := match s.routeOfKw k with
  | some r => (s.routeKw r).getD k
  | none => k

/-! ## Flits (R315, R316) -/

def flitBytes (typ len seq ack kw kseq crKw crN : Nat) (payload : List Nat) : List Nat :=
  let b := [typ + 16 * len] ++ leBytes 2 seq ++ leBytes 2 ack ++ leBytes 2 kw ++ leBytes 2 kseq
    ++ leBytes 3 (crKw + 4096 * crN) ++ (payload ++ List.replicate (240 - payload.length) 0).take 240
  b ++ leBytes 4 (crc32c b)

/-- The lane status bits of a frame word (R309), whose code the spec does not give: those of PRG_PORT_STATUS in its order (UP,
FAILED, TRAINING, KEEPALIVE), then SPARE (DESIGN CHOICE, log entry 40). -/
def PLaneState.bits : PLaneState → Nat
  | .up => 1
  | .failed => 2
  | .training => 4
  | .keepalive => 8
  | .spare => 16
  | .dark => 0

/-- A flit leaves in a frame of its own, which idle flits fill (R309; DESIGN CHOICE, log entry 40). -/
def State.sendFrame (s : State) (port lane : Nat) (bytes : List Nat) : State :=
  let p := s.plane port lane
  let idle := flitBytes 0 0 0 (s.link (s.linkOf port lane)).rxSeq 0 0 0 0 []
  (s.updPrg (fun q => { q with
      lanes := SMap.set (fun _ => PLane.dark) q.lanes (laneKey port lane) { p with frames := (p.frames + 1) % 2 ^ 16 } })).send
    (.frame port lane p.frames p.state.bits [bytes, idle, idle, idle, idle])

/-- Put a flit on the next of the lanes of a link (R310), which carries the ACK that was due; with no lane nothing leaves. -/
def State.sendFlit (s : State) (l : Nat) (ls : List Nat) (bytes : List Nat) : State :=
  match ls[(s.link l).turn % max 1 ls.length]? with
  | some w => (s.updLink l (fun q => { q with turn := (q.turn + 1) % max 1 ls.length, ackDue := false })).sendFrame (l / 8) w bytes
  | none => s

/-- An unsequenced flit: IDLE (type 0) with credit returns, or CTRL (type 2) with a payload. -/
def State.sendIdle (s : State) (l crKw crN : Nat) : State :=
  s.sendFlit l (s.ctlLanes l) (flitBytes 0 0 0 (s.link l).rxSeq 0 0 crKw crN [])
def State.sendCtrl (s : State) (l : Nat) (payload : List Nat) : State :=
  s.sendFlit l (s.ctlLanes l) (flitBytes 2 0 0 (s.link l).rxSeq 0 0 0 0 payload)
/-- An ACK that is due and that no flit has carried yet goes on an idle flit (R316, R317). -/
def State.sendAcks (s : State) : State :=
  forEach (s.prg.links.filter (fun e => e.2.up && e.2.ackDue)) (fun e s => s.sendIdle e.1 0 0) s

/-- One NAK for the expected value of a link (R317), of which `n` flits are known to be outstanding. -/
def State.sendNak (s : State) (l n : Nat) : State :=
  let s1 := s.openEpisode l n
  if (s.link l).naked then s1
  else (s1.sendCtrl l (1 :: leBytes 2 (s.link l).rxSeq)).updLink l (fun q => { q with naked := true })

/-- Send a flit of the replay buffer. -/
def State.putOut (s : State) (l : Nat) (f : Flit) : State :=
  s.sendFlit l (s.linkLanes l) (flitBytes (if f.ctl then 3 else 1) (ceilDiv f.payload.length 16) f.seq (s.link l).rxSeq f.kw f.kseq 0 0
    f.payload)

/-- Send a new sequenced flit: it enters the replay buffer (R317). -/
def State.sendSeq (s : State) (l kw : Nat) (ctl : Bool) (kseq : Nat) (payload : List Nat) : State :=
  let f : Flit := ⟨(s.link l).txSeq, kw, ctl, kseq, payload, 1⟩
  ((s.updLink l (fun q => { q with txSeq := (q.txSeq + 1) % 2 ^ 16, unacked := q.unacked ++ [f] })).putOut l f).bump
    .prgFlitTxCnt (l / 8) 1

/-- Sequenced flits that a port keeps until they are acknowledged (R317). -/
def State.portUnacked (s : State) (port : Nat) : Nat :=
  ((List.range 8).map (fun w => (s.link (laneKey port w)).unacked.length)).foldl (· + ·) 0
/-- May a new sequenced flit go on a link: it is up with a lane in use, and the port's replay buffer of 4,096 flits has room
(R317). -/
def State.linkRoom (s : State) (l : Nat) : Bool :=
  (s.link l).up && !(s.linkLanes l).isEmpty && decide (s.portUnacked (l / 8) < 4096)

/-- Has a keyway a flit to send now: a control payload, or data with a credit (R316, R319). -/
def State.kwReady (s : State) (k : Nat) (q : Kw) : Bool :=
  s.linkRoom (s.kwLink k q) && (!q.ctlq.isEmpty || (!q.txq.isEmpty && q.held != 0 && q.stop == 0))

/-- Send the next flit of a keyway: its control payloads go before its data. -/
def State.sendNext (s : State) (k : Nat) : State := match s.kw k with
  | none => s
  | some q =>
    let l := s.kwLink k q
    match q.ctlq, q.txq with
    | c :: cs, _ => (s.sendSeq l (k % 4096) true 0 c).updKw k (fun q => { q with ctlq := cs })
    | [], d :: ds => (s.sendSeq l (k % 4096) false d.1 d.2).updKw k (fun q => { q with txq := ds, held := q.held - 1 })
    | [], [] => s

/-- The next of a list of keyways after the one served last, round and round. -/
def nextAfter (last : Nat) (ks : List Nat) : Option Nat := (ks.find? (fun k => decide (last < k))).orElse (fun _ => ks.head?)

/-- The keyway whose flit a port sends next (R320): class 0 first, then classes 1 and 2 in turns by the weights of PRG_ARB, class 3
in the turns of class 1; round-robin within a class. -/
def State.arbitrate (s : State) (port : Nat) : Option (Nat × Arb) :=
  let a := SMap.get (fun _ => Arb.start) s.prg.arb port
  let ready := fun (p : Nat → Bool) => (s.prg.kws.filter (fun e => e.1 / 4096 == port && (match e.2 with
    | some q => p q.cls && s.kwReady e.1 q
    | none => false))).map (fun e => e.1)
  let k1 := ready (fun c => c == 1 || c == 3)
  let k2 := ready (fun c => c == 2)
  let weight := fun lo => max 1 (s.rdF .prgArb port 0 lo 4)
  let used := fun (c : Nat) => if a.turn = c then a.used + 1 else 1
  let serve := fun (c w : Nat) (b : Arb) => if w ≤ used c then { b with turn := 3 - c, used := 0 } else { b with turn := c, used := used c }
  match nextAfter a.last0 (ready (fun c => c == 0)) with
  | some k => some (k, { a with last0 := k })
  | none =>
    if (if a.turn = 1 then !k1.isEmpty else k2.isEmpty) then
      (nextAfter a.last1 k1).map (fun k => (k, serve 1 (weight 0) { a with last1 := k }))
    else (nextAfter a.last2 k2).map (fun k => (k, serve 2 (weight 4) { a with last2 := k }))

/-- Send what a port's keyways hold as far as their links, the replay buffer and their credits let them (R316, R319, R320). -/
def State.pumpPort (s : State) (port : Nat) : Nat → State
  | 0 => s
  | n + 1 => match s.arbitrate port with
    | none => s
    | some (k, a) =>
      State.pumpPort ((s.sendNext k).updPrg (fun p => { p with arb := SMap.set (fun _ => Arb.start) p.arb port a })) port n
/-- A port goes on sending, since something has changed at one of its keyways. -/
def State.pump (s : State) (k : Nat) : State :=
  let port := k / 4096
  s.pumpPort port ((s.prg.kws.map (fun e => match e.2 with
    | some q => if e.1 / 4096 = port then q.ctlq.length + q.txq.length else 0
    | none => 0)).foldl (· + ·) 0)

/-- Routes whose traffic an alternate carries return to their primary, where its link is up: a quiesce point (R323). -/
def State.backToPrimary (s : State) : State :=
  s.updPrg (fun p => { p with cur := p.cur.filter (fun e => !s.kwUp ((SMap.get (fun _ => []) p.routes e.1).headD 0)) })

/-- A control payload of a keyway (R316). -/
def State.sendKwCtl (s : State) (k : Nat) (payload : List Nat) : State :=
  (s.updKw k (fun q => { q with ctlq := q.ctlq ++ [payload] })).pump k

/-! ## Messages (R324) -/

def pad16 (bs : List Nat) : List Nat := bs ++ List.replicate ((16 - bs.length % 16) % 16) 0
def msgBytes (m : Msg) (txn gen : Nat) : List Nat :=
  [m.kind, m.core % 16] ++ leBytes 2 m.body.length ++ leBytes 3 txn ++ leBytes 1 gen ++ leBytes 8 m.addr ++ pad16 m.body

/-- Pieces of a message's bytes, one flit each. -/
def pieces240 : Nat → List Nat → List (List Nat)
  | 0, _ => []
  | n + 1, bs => if bs.isEmpty then [] else bs.take 240 :: pieces240 n (bs.drop 240)

/-- Give the flits of a message the next KSEQs of their stream and queue them on the keyway that carries it. -/
def State.sendOnKw (s : State) (k : Nat) (m : Msg) (txn gen : Nat) : State :=
  let o := s.streamKw k
  let c := s.carrier k
  let ps := pieces240 40 (msgBytes m txn gen)
  let n := ((s.kw o).map (fun q => q.kseqTx)).getD 0
  let fl := ((List.range ps.length).map (fun i => (n + i) % 2 ^ 16)).zip ps
  let s1 := s.updKw o (fun q => { q with kseqTx := (n + ps.length) % 2 ^ 16 })
  (s1.updKw c (fun q => { q with txq := q.txq ++ fl })).pump c

/-- Source of a message within the package: the island that sent it. -/
def localSrc (die : Nat) : Nat := 2 ^ 17 + die
/-- No keyway: a message within the package, or a request without a route. -/
def noKw : Nat := 2 ^ 20

def State.pushIn (s : State) (m : InMsg) : State := s.updPrg (fun p => { p with inbox := p.inbox ++ [m] })

/-- Answer a message on the way it came: to the island that sent it, or on its keyway. -/
def State.reply (s : State) (i : InMsg) (m : Msg) : State :=
  if localSrc 0 ≤ i.src then s.pushIn ⟨localSrc i.die, i.src - localSrc 0, m.kind, m.core, i.txn, i.gen, m.addr, m.body⟩
  else s.sendOnKw i.src m i.txn i.gen

/-! ## Transactions (R325) -/

def txnKey (die n : Nat) : Nat := 2 ^ 24 * die + n % 2 ^ 24
def State.txn (s : State) (k : Nat) : Option Txn := SMap.get (fun _ => none) s.prg.txns k
def State.setTxn (s : State) (k : Nat) (t : Option Txn) : State :=
  s.updPrg (fun p => { p with txns := SMap.set (fun _ => none) p.txns k t })

/-- The keyway of a transaction: the checkpoint store's for its pages (R409), else the one in use on its route. -/
def State.ownKw (s : State) (t : Txn) : Option Nat := match t.owner with
  | .ckpt _ _ | .ckptRead _ _ => some (kwKey (s.rdF .hubCkptCfg 0 0 12 4) (s.rdF .hubCkptCfg 0 0 0 12))
  | _ => s.routeKw (4 * t.pkg + t.cls)

/-- Send a transaction's message: within the package to island `die`, or on its route; without a route it stays unsent. -/
def State.sendTxn (s : State) (k die : Nat) (t : Txn) : State :=
  if t.pkg = s.pkg then
    (s.setTxn k (some { t with kw := noKw })).pushIn
      ⟨localSrc (k / 2 ^ 24), die, t.msg.kind, t.msg.core, k % 2 ^ 24, t.gen % 256, t.msg.addr, t.msg.body⟩
  else match s.ownKw t with
    | some q => (s.setTxn k (some { t with kw := q })).sendOnKw q t.msg (k % 2 ^ 24) (t.gen % 256)
    | none => s.setTxn k (some { t with kw := noKw })

/-- The compute die that an address names. -/
def addrDie (a : Nat) : Nat := bitsOf a 37 3

/-- A request of island `d` (R324, R325): it takes the island's next transaction number. -/
def State.request (s : State) (d : Nat) (owner : TxnFor) (pkg cls : Nat) (m : Msg) (die : Nat) : State :=
  let n := SMap.get (fun _ => 0) s.prg.nextTxn d
  let s1 := s.updPrg (fun p => { p with nextTxn := SMap.set (fun _ => 0) p.nextTxn d ((n + 1) % 2 ^ 24) })
  s1.sendTxn (txnKey d n) die ⟨owner, pkg, cls, noKw, m, 0, false, false⟩

/-- Transactions of a core's descriptors in flight; a core has 128 (R325). -/
def State.inFlight (s : State) (core : Nat) : Nat :=
  (s.prg.txns.filter (fun e => match e.2 with
    | some t => (match t.owner with
      | .job c _ _ => c == core
      | _ => false)
    | none => false)).length

/-- The signal field of R284 in its remote form. -/
def sigField (op obj pkg core amount : Nat) : Nat := op + obj * 2 ^ 8 + pkg * 2 ^ 16 + core * 2 ^ 22 + amount * 2 ^ 32

/-- A signal for a core of another package leaves as a SIGNAL message with the keyway's next serial (R324). -/
def State.remoteSig (s : State) (g pkg core : Nat) (x : Sig) : State :=
  let k := (s.routeKw (4 * pkg)).map s.streamKw
  let n := ((k.bind s.kw).map (fun q => q.sigTx + 1)).getD 0
  let s1 := match k with
    | some k => s.updKw k (fun q => { q with sigTx := n })
    | none => s
  s1.request (g / 16) .sig pkg 0 ⟨5, core % 16, vaultAddr pkg core 0,
    leBytes 8 (sigField x.op x.obj pkg core x.amount) ++ leBytes 4 n
      ++ [x.path % 16 + (if x.subst then 16 else 0), 0, 0, 0]⟩ (core / 16)

/-- A signal to a core wherever it is. -/
def State.signalTo (s : State) (g pkg core : Nat) (x : Sig) : State :=
  if pkg = s.pkg then s.deliverSig core x else s.remoteSig g pkg core x

/-! ## Violations of peers (R332) -/

/-- A peer violation of a row of R332 on a keyway of a port: counted; one record a millisecond and keyway. -/
def State.peerViol (s : State) (port kw row : Nat) : State :=
  let k := kwKey port kw
  let s1 := s.bump .prgPeerViolCnt port 1
  let rec1 := fun (s : State) (pk pp n : Nat) =>
    s.queue .prgPeerViol (144 + port) none (.prg port 0 kw row pk pp n)
  let within := fun (t : Nat) => decide (s.hubTime < t + 1000000)
  match s.kw k with
  | none =>
    let put := fun (x : Nat × Nat) (s : State) => s.updPrg (fun p => { p with strays := SMap.set (fun _ => none) p.strays k (some x) })
    match SMap.get (fun _ => none) s.prg.strays k with
    | some (t, n) => if within t then put (t, n + 1) s1 else put (s.hubTime, 0) (rec1 s1 0 0 (n + 1))
    | none => put (s.hubTime, 0) (rec1 s1 0 0 1)
  | some q =>
    if (q.violAt.map within).getD false then s1.updKw k (fun q => { q with violN := q.violN + 1 })
    else (rec1 s1 q.peer q.peerPort (q.violN + 1)).updKw k (fun q => { q with violAt := some s.hubTime, violN := 0 })

/-- The receiver starts the keyway form of the credit resynchronisation (R321). -/
def State.startResync (s : State) (k : Nat) : State :=
  match s.kw k with
  | none => s
  | some q =>
    let e := (q.epoch + 1) % 2 ^ 16
    ((s.updKw k (fun q => { q with epoch := e, resync := true })).sendKwCtl k (0x10 :: leBytes 2 e)).bump
      .prgCreditResyncCnt (k / 4096) 1

/-- Both ends of a keyway reset (R322): partial messages and queued flits go, KSEQ restarts at 0. -/
def State.clearKw (s : State) (k : Nat) : State :=
  s.updKw k (fun q => { q with part := [], txq := [], kseqTx := 0, kseqRx := 0 })

/-- Reissue every transaction of a keyway with the next generation (R322, R325). -/
def State.reissueKw (s : State) (k : Nat) : State :=
  forEach (s.prg.txns.filter (fun e => match e.2 with
    | some t => t.kw == k
    | none => false)) (fun e s => match e.2 with
      | some t => s.sendTxn e.1 0 { t with gen := t.gen + 1 }
      | none => s) s

/-- Start a keyway reset (R322): RESET with a new epoch, the keyway cleared, its transactions reissued unless a restore
discards them. -/
def State.startReset (s : State) (k : Nat) (reissue : Bool) : State :=
  match s.kw k with
  | none => s
  | some q =>
    let e := (q.epoch + 1) % 2 ^ 16
    let s1 := (((s.clearKw k).updKw k (fun q => { q with epoch := e, reset := true })).sendKwCtl k (0x13 :: leBytes 2 e)).bump
      .prgKwResetCnt q.die 1
    if reissue then s1.reissueKw k else s1

end Sys2Proof.Machine
end

