-- ==== Sys2Proof/Machine/HostOps.lean ====
section
/-! DEFINITION. Shared operations of the gateway: records as bytes, rings and held entries, host-bound writes, the spool
and the torn table (R365 to R368, R372 to R382, R515, R516). -/

namespace Sys2Proof.Machine

/-! ## Records as bytes (R515, R516) -/

/-- The 31 bytes of a payload. -/
def Payload.bytes : Payload → List Nat
  | .line a r f t cs cc o e p v =>
    leBytes 8 a ++ leBytes 1 r ++ leBytes 1 f ++ leBytes 2 t ++ leBytes 4 cs ++ leBytes 4 cc ++ leBytes 1 o
      ++ leBytes 1 (e % 16) ++ leBytes 2 p ++ leBytes 2 v ++ List.replicate 5 0
  | .sync o k st n a b c =>
    leBytes 1 o ++ leBytes 1 (k % 4 + 4 * (st % 4)) ++ leBytes 4 (n % 2 ^ 24) ++ leBytes 6 a ++ leBytes 6 b
      ++ leBytes 6 c ++ List.replicate 7 0
  | .prg po l kw c pp pq v =>
    leBytes 1 (po % 16) ++ leBytes 1 l ++ leBytes 2 (kw % 2 ^ 12) ++ leBytes 1 c ++ leBytes 1 (pp % 64)
      ++ leBytes 2 (pq % 16) ++ leBytes 8 v ++ List.replicate 15 0
  | .gen ca su d a b c =>
    leBytes 1 ca ++ leBytes 1 su ++ leBytes 2 d ++ leBytes 4 a ++ leBytes 8 b ++ leBytes 8 c ++ List.replicate 7 0

/-- The 64 bytes of a record of package `pkg`; byte 63 holds PHASE in an event ring. -/
def FaultRec.bytes (r : FaultRec) (pkg : Nat) : List Nat :=
  leBytes 2 r.kind.code
    ++ [r.cls % 8 + (if r.masked then 8 else 0) + (if 1 < r.count then 16 else 0), pkg % 64, r.island % 256, 0]
    ++ leBytes 2 r.count ++ leBytes 8 r.hubTime ++ leBytes 6 r.step ++ [0, 0] ++ leBytes 4 r.seq ++ [0, 0, 0, 0]
    ++ r.payload.bytes ++ [0]

/-! ## The gateway -/

/-- The package's gateway number, when the image makes it one (R337). -/
def State.gateway (s : State) : Option Nat :=
  let n := s.rdF .hubImageStatus 0 0 18 3
  if n = 7 then none else some n

/-- This package's host port is in use: the sealed image makes it a gateway, or, with no image sealed, a host has attached it once
(R339, R384). -/
def State.hosted (s : State) : Bool :=
  s.gateway.isSome || (s.img.packages.isEmpty && s.rdF .hostSession 0 0 32 16 != 0)

def State.updHost (s : State) (f : HostSt → HostSt) : State := { s with host := f s.host }
/-- HOST_SESSION.STATE: 0 ATTACHED, 1 DETACHED, 2 REPLAYING. -/
def State.session (s : State) : Nat := s.rdF .hostSession 0 0 0 2
def State.attached (s : State) : Bool := s.session == 0
def State.hostViol (s : State) (field value : Nat) : State := s.viol .hostViolCnt 0 0xFF 0xFFFFFFFF field value

/-- An event of R385 is gathered into one HOST_VIOL event a millisecond (row, events, hub time it opened). -/
def State.misuseSeen (s : State) (row : Nat) : State :=
  s.updHost (fun h => { h with misuse := match h.misuse with
    | some (r, n, t) => some (r, n + 1, t)
    | none => some (row, 1, s.hubTime) })
/-- An event of R385 that names no counter of its own counts in HOST_VIOL_CNT. -/
def State.misuse (s : State) (row : Nat) : State := (s.hostViol 0xFF row).misuseSeen row
/-- A DMA read has failed (R385): rows 5 to 8. -/
def State.dmaErr (s : State) (row : Nat) : State := (s.bump .hostDmaErrCnt 0 1).misuseSeen row

/-! ### Rings (R368, R374) -/

/-- Entries of a ring of configuration register `r`: 2^LOG2, LOG2 from 4 to 16. -/
def State.ringEntries (s : State) (r : Reg) (n : Nat) : Nat := 2 ^ min (max (s.rdF r 0 n 0 5) 4) 16

/-- Configuration, base, head and tail registers, index and entry length of a ring. -/
structure RingRegs where
  cfg : Reg
  base : Reg
  head : Reg
  tail : Reg
  ix : Nat
  len : Nat
  id : Nat
  deriving DecidableEq, Repr

def HeldTo.ring : HeldTo → Option RingRegs
  | .cq n => some ⟨.hostCqCfg, .hostCqBase, .hostCqHead, .hostCqTail, n, 32, n⟩
  | .evq => some ⟨.hostEvqCfg, .hostEvqBase, .hostEvqHead, .hostEvqTail, 0, 64, 16⟩
  | .flag _ _ | .domain _ | .hostFlag _ _ => none

/-- A ring that can take an entry: enabled and not full. -/
def State.ringRoom (s : State) (r : RingRegs) : Bool :=
  (s.rd r.cfg 0 r.ix).testBit 5
    && decide ((s.rdF r.tail 0 r.ix 0 16 + 1) % s.ringEntries r.cfg r.ix ≠ s.rdF r.head 0 r.ix 0 16 % s.ringEntries r.cfg r.ix)

/-- The window of a number as the gateway judges it: address, configuration (R365, R381). -/
def State.winOf (s : State) (w : Nat) : Nat × Nat :=
  if s.session = 1 then s.host.wins.getD w (0, 0) else (s.rd .hostWinAddr 0 w, s.rd .hostWinCfg 0 w)
/-- Length of a window in bytes. -/
def winLen (cfg : Nat) : Nat := bitsOf cfg 12 27 * 4096

/-- The window that holds a host address range and gives a permission bit (1 DEV_WRITE, 2 DEV_READ). -/
def State.winFor (s : State) (a n perm : Nat) : Option Nat :=
  (List.range 64).find? (fun w =>
    let p := s.winOf w
    p.2.testBit 0 && p.2.testBit perm && decide (p.1 ≤ a) && decide (a + n ≤ p.1 + winLen p.2))

/-- May a range of a window be accessed (R366). -/
def State.winOk (s : State) (w off n perm : Nat) : Bool :=
  let p := s.winOf w
  p.2.testBit 0 && p.2.testBit perm && decide (off + n ≤ winLen p.2)

/-- Write an entry now: with its PHASE and SPOOLED bits at the ring's tail, then its vectors behind it (R368, R374,
R375). -/
def State.writeEntry (s : State) (h : Held) : State :=
  match h.dest.ring with
  | some r =>
    let n := s.ringEntries r.cfg r.ix
    let t := s.rdF r.tail 0 r.ix 0 16 % n
    let odd := s.host.wraps.contains r.id
    let b := h.bytes.getD (r.len - 1) 0 % 128 + (if odd then 0 else 128)
    let bs1 := (h.bytes.take (r.len - 1)) ++ [b]
    let bs := if h.spooled ∧ r.len = 32 then bs1.set 11 (setBits (bs1.getD 11 0) 1 1 1) else bs1
    let s1 := (s.send (.pcieWrite (s.rd r.base 0 r.ix + r.len * t) bs false false)).wr r.tail 0 r.ix ((t + 1) % n)
    let s2 := if t + 1 = n then s1.updHost (fun q => { q with
        wraps := if odd then q.wraps.filter (· != r.id) else q.wraps ++ [r.id] }) else s1
    forEach (if r.len = 32 then [max 3 (s.rdF .hostCqCfg 0 r.ix 8 6)] else h.vecs) (fun v s => s.send (.msix v)) s2
  | none => match h.dest with
    | .flag w o => if s.winOk w o h.bytes.length 1 then s.send (.pcieWrite ((s.winOf w).1 + o) h.bytes false false)
        else s.winViol (w * 2 ^ 39 + o)
    | .domain a => s.request 0 .post (addrPkg a) 0 ⟨3, bitsOf a 33 4, a, h.bytes⟩ (addrDie a)
    | .hostFlag gw a => match s.img.gateways.find? (fun p => p.2 == gw) with
      | some (p, _) => s.request 0 .post p 0 ⟨3, 0, a, h.bytes⟩ 0
      | none => s
    | _ => s

/-- A HOST_VIOL event, which makes no further event when its own ring holds it back. -/
def Held.isMisuse (h : Held) : Bool := decide (h.dest = .evq) && decide (leNat (h.bytes.take 2) = FaultKind.code .hostViol)

/-- Write held entries in order as far as their rings have room; what stays counts once in HOST_RING_FULL_CNT. `done` are
the rings that may take no more in this walk. -/
def State.drainRings (s : State) : List Held → List Nat → List Held → State
  | [], _, keep => s.updHost (fun h => { h with held := keep.reverse })
  | h :: hs, stopped, keep =>
    match h.dest.ring with
    | none => State.drainRings (s.writeEntry h) hs stopped keep
    | some r =>
      if !stopped.contains r.id && s.ringRoom r then State.drainRings (s.writeEntry h) hs stopped keep
      else
        let s0 := s.bump .hostRingFullCnt 0 1
        let s1 := if h.counted then s else if h.isMisuse then s0 else s0.misuseSeen 9
        State.drainRings s1 hs (r.id :: stopped) ({ h with counted := true } :: keep)

/-- Write what can be written; a session that is not ATTACHED holds everything (R381). -/
def State.drain (s : State) : State := if s.attached then s.drainRings s.host.held [] [] else s

/-- Hand an entry to its ring. -/
def State.pushEntry (s : State) (dest : HeldTo) (bytes vecs : List Nat) : State :=
  (s.updHost (fun h => { h with held := h.held ++ [⟨dest, bytes, vecs, false, !s.attached,
    s.session == 2 && !h.after.isEmpty⟩] })).drain

/-- A completion entry (R374) in ring `n`, whose vector it raises when it is written (R375). -/
def State.complete (s : State) (n jid status op value : Nat) (subst : Bool) (sq : Nat) : State :=
  s.pushEntry (.cq n) (leBytes 8 jid ++ leBytes 2 status ++ [op % 256, if subst then 1 else 0] ++ leBytes 4 (sq % 16)
    ++ leBytes 8 value ++ List.replicate 8 0) []

/-- An event entry: a record of the fault queue, or a gateway event (R374, R375). -/
def State.eventEntry (s : State) (r : FaultRec) (vecs : List Nat) : State :=
  if s.hosted then s.pushEntry .evq (r.bytes s.pkg) vecs else s

/-- A gateway event record; it takes no SEQ (R517, R518). -/
def State.gwEvent (s : State) (k : FaultKind) (p : Payload) (vecs : List Nat) : State :=
  s.eventEntry ⟨k, 0, false, 160, 1, s.hubTime, (s.core s.lowCore).step, 0, p, none⟩ vecs

/-! ### Host-bound writes (R365 to R367, R376 to R381) -/

/-- Bytes in use in the areas of the spool (R379). -/
def State.retainedBytes (s : State) : Nat := (s.host.spool.map (fun w => w.bytes.length)).foldl (· + ·) 0
def State.heldBytes (s : State) : Nat := (s.host.held.map (fun h => h.bytes.length)).foldl (· + ·) 0

/-- The window that holds the most torn entries, the lowest of equals. -/
def fullestWin (ts : List Torn) : Nat :=
  (List.range 64).foldl (fun b w =>
    if (ts.filter (fun t => t.win == b)).length < (ts.filter (fun t => t.win == w)).length then w else b) 0

/-- Add an extent to the torn table: merged with an adjacent one of its window, and, when 32,767 entries are in use, the
entries of the fullest window give way to one that covers it (R381, R382). -/
def State.tornAdd (s : State) (t : Torn) : State :=
  let s1 := s.bump .hostTornCnt 0 t.len
  let adj := fun (e : Torn) => e.win == t.win && e.flag == t.flag && e.lost == t.lost && e.gone == t.gone && !e.overflow && !t.flag
    && (e.off + e.len == t.off || t.off + t.len == e.off)
  if s.host.torn.any (fun e => e.win == t.win && e.overflow) then s1
  else match s.host.torn.find? adj with
    | some e => s1.updHost (fun h => { h with torn := h.torn.map (fun x =>
        if x = e then { e with
          off := min e.off t.off
          len := e.len + t.len
          tag := if t.off < e.off then t.tag else e.tag } else x) })
    | none =>
      let w := fullestWin s1.host.torn
      let full := decide (32767 ≤ s1.host.torn.length)
      let s2 := if full then
          s1.updHost (fun h => { h with torn := (h.torn.filter (fun x => x.win != w))
            ++ [⟨w, 0, winLen (s.winOf w).2, 0, false, false, false, true, false⟩] })
        else s1
      if full && w == t.win then s2 else s2.updHost (fun h => { h with torn := h.torn ++ [t] })

/-- What becomes of a host-bound write: taken, discarded as a window violation, or not accepted yet. -/
inductive WrRes where
  | ok
  | viol
  | wait
  deriving DecidableEq, Repr

/-- H0 puts a write on the link, a data write with the attributes that HOST_CTL and Device Control both enable (R376). -/
def State.linkWrite (s : State) (w : HostWr) : State :=
  s.send (.pcieWrite ((s.winOf w.win).1 + w.off) w.bytes (w.ro && (s.rd .hostCtl 0 0).testBit 0 && Config.devCtl 0 s.hubTime)
    (w.ro && (s.rd .hostCtl 0 0).testBit 1 && Config.devCtl 1 s.hubTime))

/-- A host-bound write reaches this gateway: `data` says that it is line data of a MOVE or COPY_OUT and not a flag. -/
def State.hostBound (s : State) (win off : Nat) (bytes : List Nat) (tag : Nat) (data : Bool) : State × WrRes :=
  if !s.winOk win off bytes.length 1 then (s.winViol (win * 2 ^ 39 + off), .viol)
  else
    let keep := (s.winOf win).2.testBit 3
    let w : HostWr := ⟨s.host.serial + 1, win, off, bytes, tag, data, keep, false⟩
    let room := s.retainedBytes + bytes.length ≤ 60 * 2 ^ 20
    if s.session = 1 then
      (if 3 * 2 ^ 20 ≤ s.heldBytes then (s, .wait)
       else if !data then
         (((s.pushEntry (.flag win off) bytes []).tornAdd ⟨win, off, bytes.length, tag, true, false, true, false, false⟩), .ok)
       else if keep && room then
         (((s.updHost (fun h => { h with serial := h.serial + 1, spool := h.spool ++ [{ w with torn := true }] })).tornAdd
           ⟨win, off, bytes.length, tag, false, false, false, false, false⟩), .ok)
       else (s.tornAdd ⟨win, off, bytes.length, tag, false, keep, false, false, keep⟩, .ok))
    else if s.session = 2 then
      (s.updHost (fun h => { h with serial := h.serial + 1, after := h.after ++ [w] }), .ok)
    else if w.retain && !room then (s, .wait)
    else
      ((s.linkWrite w).updHost (fun h => { h with
        serial := h.serial + 1
        doubt := h.doubt ++ [w]
        spool := if w.retain then h.spool ++ [w] else h.spool }), .ok)

/-- A post of HOST_CQ_POST is not accepted while the completion area of a session that is not ATTACHED is full (R381). -/
def State.postWaits (s : State) : Bool := s.gateway.isSome && !s.attached && decide (3 * 2 ^ 20 ≤ s.heldBytes)

/-- A read that H0 issued behind the writes up to a serial has completed: they are delivered (R378). -/
def State.delivered (s : State) (upto : Nat) : State :=
  s.updHost (fun h => { h with
    doubt := h.doubt.filter (fun w => decide (upto < w.serial))
    spool := h.spool.filter (fun w => w.torn || decide (upto < w.serial)) })

/-- Issue a read of host memory. -/
def State.hostRead (s : State) (kind : RdKind) (addr len dst tag : Nat) : State :=
  let n := s.host.serial + 1
  (s.updHost (fun h => { h with serial := n, reads := h.reads ++ [⟨n, kind, addr, len, dst, tag, h.serial, false⟩] })).send
    (.pcieRead addr len n)

/-- The address that flush and probe reads read (R378). -/
def State.flushAddr (s : State) : Nat :=
  if s.rd .hostFlushAddr 0 0 = 0 then s.rd .hostCqBase 0 0 else s.rd .hostFlushAddr 0 0

end Sys2Proof.Machine
end

