-- ==== Sys2Proof/Machine/ImgOps.lean ====
section
/-! DEFINITION. The tables of the structure image as units read them: virtual ranks, groups and the reduction tree (R328,
R347 to R349). -/

namespace Sys2Proof.Machine

def State.updImg (s : State) (f : Img → Img) : State := { s with img := f s.img }

/-! ## Virtual ranks (R347) -/

/-- The core at which a virtual rank stands: package and global index. -/
def State.rankAt (s : State) (v : Nat) : Option (Nat × Nat) := (s.img.ranks[v]?).map (fun r => (r.pkg, r.core))

/-- A rank address with the fields of the rank's core filled in (R347). -/
def State.rankAddr (s : State) (v a : Nat) : Nat := match s.rankAt v with
  | some (p, g) => setBits (setBits a 33 7 g) 50 6 p
  | none => a

/-- The virtual ranks of a core of this package, in increasing order. -/
def State.ranksOf (s : State) (g : Nat) : List Nat :=
  (List.range s.img.ranks.length).filter (fun v => s.rankAt v == some (s.pkg, g))

/-- A core that runs a schedule queue: it holds a rank and is not fenced (R352). -/
def State.working (s : State) (g : Nat) : Bool := !(s.ranksOf g).isEmpty && decide ((s.core g).fence = .none)
def State.workers (s : State) : List Nat := (List.range 128).filter s.working

/-- HUB_IMAGE_STATUS.STATE: 0 none, 1 staging, 2 ready, 3 sealed, 4 quiescing, 5 quiet (R361). -/
def State.imageState (s : State) : Nat := s.rdF .hubImageStatus 0 0 0 3
/-- The partition has a sealed image: its tables are loaded (R355). -/
def State.isSealed (s : State) : Bool := !s.img.packages.isEmpty

/-! ## The lead (R339) -/

/-- Package of the partition's lead. -/
def State.leadPkg (s : State) : Option Nat :=
  (s.img.gateways.find? (fun p => p.2 == s.rdF .hubImageStatus 0 0 16 2)).map (fun p => p.1)
def State.isLead (s : State) : Bool := s.leadPkg == some s.pkg
/-- Tell the lead's hub something; at the lead itself nothing leaves. -/
def State.tellLead (s : State) (kind : Nat) (args : List Nat) : State := match s.leadPkg with
  | some p => if p = s.pkg then s else s.send (.hub kind p args)
  | none => s
/-- The other packages of the partition. -/
def State.peers (s : State) : List Nat := s.img.packages.filter (· != s.pkg)
def State.tellAll (s : State) (kind : Nat) (args : List Nat) : State :=
  forEach s.peers (fun p s => s.send (.hub kind p args)) s

/-! ## Saves (R397) -/

/-- A core's save of a generation and step. -/
def State.saveOf (s : State) (g gen step : Nat) : Option Save :=
  s.saves.find? (fun x => x.core == g && x.gen == gen && x.step == step)
/-- Tumbler that starts a step (R371). -/
def State.startTmb (s : State) : Nat := s.rdF .hostStepCfg 0 0 0 8
/-- A working core that has not taken the start save of its step waits at the step-start tumbler for it (R397). -/
def State.needsStartSave (s : State) (g : Nat) : Bool :=
  s.isSealed && s.working g && (s.saveOf g 1 (s.core g).step).isNone

/-! ## Groups (R349) -/

/-- A group entry of a REDUCTION, BROADCAST or DIGEST section. -/
structure Group where
  elems : Nat
  contribN : Nat
  destN : Nat
  rankList : Nat
  nodeList : Nat
  destList : Nat
  norm : Bool
  deriving DecidableEq, Repr

def secNat (b : List Nat) (off n : Nat) : Nat := leNat ((b.drop off).take n)

def groupRaw (b : List Nat) (i : Nat) : Group :=
  let o := 32 * i
  ⟨secNat b o 4 % 2 ^ 25, secNat b (o + 4) 2, secNat b (o + 6) 2, secNat b (o + 8) 4, secNat b (o + 12) 4,
    secNat b (o + 16) 4, (secNat b (o + 20) 1).testBit 0⟩

/-- Entries of a group section: the array ends where the first list begins. `red` says that rank and node lists count. -/
def groupCount (b : List Nat) (red : Bool) : Nat → Nat → Nat → Nat
  | 0, i, _ => i
  | n + 1, i, lim =>
    if 32 * (i + 1) ≤ lim then
      let g := groupRaw b i
      let l1 := min lim g.destList
      let l2 := if red then min (min l1 g.rankList) (if 1 < g.contribN then g.nodeList else l1) else l1
      groupCount b red n (i + 1) l2
    else i
def groupsIn (b : List Nat) (red : Bool) : Nat := groupCount b red 65537 0 b.length

def groupAt (b : List Nat) (red : Bool) (i : Nat) : Option Group :=
  if i < min (groupsIn b red) 65536 then some (groupRaw b i) else none

/-- Contributors of a reduction group, by increasing rank. -/
def Group.ranks (g : Group) (b : List Nat) : List Nat :=
  (List.range g.contribN).map (fun i => secNat b (g.rankList + 2 * i) 2)
/-- Host of an internal node: package and compute die. -/
def Group.nodeHost (g : Group) (b : List Nat) (i : Nat) : Nat × Nat :=
  let w := secNat b (g.nodeList + 2 * i) 2
  (bitsOf w 0 6, bitsOf w 6 3)
/-- Destinations: virtual rank and rank address. -/
def Group.dests (g : Group) (b : List Nat) : List (Nat × Nat) :=
  (List.range g.destN).map (fun i => (secNat b (g.destList + 16 * i) 2, secNat b (g.destList + 16 * i + 8) 8))

/-! ## The fixed tree (R328) -/

/-- Number of values at a level of the tree of `n` leaves. -/
def treeWidth (n : Nat) : Nat → Nat
  | 0 => n
  | l + 1 => ceilDiv (treeWidth n l) 2

/-- The sum that takes the value at a level and index: its level and index, and whether the value is its right operand; an
odd last value passes up unchanged; `none` at the root. -/
def treeUp (n : Nat) : Nat → Nat → Nat → Option (Nat × Nat × Bool)
  | 0, _, _ => none
  | f + 1, l, i =>
    let m := treeWidth n l
    if m ≤ 1 then none
    else if m % 2 = 1 ∧ i = m - 1 then treeUp n f (l + 1) (m / 2)
    else some (l + 1, i / 2, i % 2 == 1)
def treeParent (n l i : Nat) : Option (Nat × Nat × Bool) := treeUp n 16 l i

/-- Position of the sum at a level and index in the node list. -/
def nodePos (n l i : Nat) : Nat := ((List.range (l - 1)).map (fun k => treeWidth n k / 2)).foldl (· + ·) 0 + i

/-- The reduction group of an index, and the norm group. -/
def State.redGroup (s : State) (i : Nat) : Option Group := groupAt s.img.red true i
def State.normGroup (s : State) : Option Nat :=
  (List.range (groupsIn s.img.red true)).find? (fun i => (groupRaw s.img.red i).norm)

/-- Shards in the order of the norm group: by owner rank, then by position (R330). -/
def State.normOrder (s : State) : List Nat :=
  ((List.range s.img.shards.length).map (fun i => (((s.img.shards[i]?).map (fun x => x.owner)).getD 0, i))).mergeSort
    (fun a b => decide (a.1 < b.1 ∨ (a.1 = b.1 ∧ a.2 ≤ b.2))) |>.map (fun p => p.2)

/-- Owner and replica ranks of a shard. -/
def Shard.ranks (x : Shard) : List Nat := x.owner :: x.reps

/-- The shard that a digest group names: the shard of the same owner and replicas, taken in order among the groups of the same
list (R245, R349). -/
def State.digestShard (s : State) (dg : Nat) : Option Nat :=
  let ranks := fun (i : Nat) => (groupRaw s.img.dig i).dests s.img.dig |>.map (fun d => d.1)
  let k := ((List.range dg).filter (fun i => ranks i == ranks dg)).length
  ((List.range s.img.shards.length).filter (fun i => (s.img.shards[i]?).any (fun x => x.ranks == ranks dg)))[k]?

end Sys2Proof.Machine
end

