-- ==== Sys2Proof/Machine/Flags.lean ====
section
/-! DEFINITION. The census: per-run totals, the record ring and the fold of a descriptor's counts (R70 to R76, R513). -/

namespace Sys2Proof.Machine

/-- Index of a total: set, format code, counter (R513). Code 0x9 has format index 8. -/
def totIdx (set fmt c : Nat) : Nat := 128 * set + 8 * (if fmt = 9 then 8 else fmt % 8) + c

/-- Add one count to a per-run total, modulo 2^64 (R72). -/
def State.addTot (s : State) (g set fmt c n : Nat) : State :=
  s.wr .cnsTot g (totIdx set fmt c) ((s.rd .cnsTot g (totIdx set fmt c) + n) % 2 ^ 64)

/-- What the seven 32-bit descriptor counters hold folds into the totals at completion: training in set 0, eval in set 1
(R72, R73). Their carries have been added when they happened (`State.carryTotals`). -/
def State.foldTotals (s : State) (g : Nat) (eval : Bool) (k : CensusSet) : State :=
  forEach (k.counts.list.zip (List.range 7))
    (fun p s => s.addTot g (if eval then 1 else 0) k.fmt p.2 (p.1 % 2 ^ 32)) s

/-- A 32-bit descriptor counter that carries adds 2^32 to its total at once (R72): the set's counts were `old`. -/
def State.carryTotals (s : State) (g : Nat) (eval : Bool) (old : Census) (k : CensusSet) : State :=
  forEach ((old.list.zip k.counts.list).zip (List.range 7)) (fun p s =>
    if p.1.1 / 2 ^ 32 = p.1.2 / 2 ^ 32 then s
    else s.addTot g (if eval then 1 else 0) k.fmt p.2 ((p.1.2 / 2 ^ 32 - p.1.1 / 2 ^ 32) * 2 ^ 32)) s

/-- Ring size in force: a power of two from 64 to 2^20 (R75). -/
def State.ringSize (s : State) (g : Nat) : Nat :=
  max 64 (2 ^ (max 1 (s.rdF .cnsRingSize g 0 0 21)).log2)

/-- The 64 bytes of a census record (R74). For the fabric ELEM is not reduced. -/
def censusRecord (seq tag : Nat) (eval : Bool) (k : CensusSet) (island : Nat) : List Nat :=
  let wrap := k.counts.list.any (fun n => decide (2 ^ 32 ≤ n))
  leBytes 4 seq ++ leBytes 2 tag ++ [k.fmt % 16 + k.unit * 16]
    ++ [(if eval then 1 else 0) + (if wrap then 2 else 0) + (if k.sr then 4 else 0) + (if k.sat then 8 else 0)]
    ++ leBytes 8 (if k.unit = 3 then k.counts.elem % 2 ^ 48 else k.counts.elem % 2 ^ 32)
    ++ leBytes 4 k.counts.ovf ++ leBytes 4 k.counts.sat ++ leBytes 4 k.counts.ftz ++ leBytes 4 k.counts.nan
    ++ leBytes 4 k.counts.nearOvf ++ leBytes 4 k.counts.nearVan ++ leBytes 4 island ++ List.replicate 20 0

/-- Write a census record into the ring, or drop and count it when the ring is full (R74, R75). -/
def State.writeRecord (s : State) (g : Nat) (bs : List Nat) : State :=
  if (s.rd .cnsCtl g 0).testBit 0 then
    let n := s.ringSize g
    let h := s.rdF .cnsRingHead g 0 0 20 % n
    if (h + 1) % n = s.rdF .cnsRingTail g 0 0 20 then s.bump .cnsRecDropCnt g 1
    else
      let a := s.rdF .cnsRingBase g 0 6 50 * 64 + 64 * h
      (s.writeAt g a bs (s.stepTag g) false).wrF .cnsRingHead g 0 0 20 ((h + 1) % n)
  else s

/-- CENSUS_RECORD: on completion the counts fold into the totals and a record is written, one per set (R74, R158). -/
def State.foldCensus (s : State) (g seq : Nat) (eval : Bool) (ks : List CensusSet) : State :=
  forEach ks (fun k s => (s.foldTotals g eval k).writeRecord g (censusRecord seq (s.stepTag g) eval k g)) s

end Sys2Proof.Machine
end

