-- ==== Sys2Proof/Machine/Operands.lean ====
section
/-! DEFINITION. Operand forms: where a unit's source or output may lie, tensor elements by address, tile write-out and
additions into reduction-buffer slots (R45, R51, R60, R68, R82 to R87, R133, R224 to R226). -/

namespace Sys2Proof.Machine

/-- The default of the numeric write-out class of the expert mask (R527, R350). -/
def State.woExpert (s : State) : Bool := s.expert 0

/-- An address field of a descriptor as a unit reads it: bits [6:0] cleared, the adopter's fields replaced (R395);
`true` when the cleared bits counted. -/
def State.addrField (s : State) (g raw : Nat) : Nat × Bool :=
  (s.adr g (raw % 2 ^ 56 / 128 * 128), decide (raw % 128 ≠ 0))

/-- May a unit of core `g` use this address as an operand or output: a vault of the package, or its own stage memory
(R87, R133). -/
def State.unitAddrOk (s : State) (g a : Nat) : Bool :=
  addrPkg a == s.pkg && (match locOf a with
    | .vault _ _ => true
    | .stage h _ => h == g
    | _ => false)

/-- End of the memory in which an address that a unit may use lies: the vault space of the package, or the stage memory. -/
def memTop (a : Nat) : Nat := match locOf a with
  | .vault _ _ => a / 2 ^ 40 * 2 ^ 40 + 2 ^ 40
  | .stage _ _ => a / 2 ^ 33 * 2 ^ 33 + stgBytes
  | _ => a

/-- Does a tensor region of `len` bytes from an address on lie where a unit of core `g` may use it, its later tiles included
(R83, R87, R133). -/
def State.regionOk (s : State) (g a len : Nat) : Bool := s.unitAddrOk g a && decide (a + len ≤ memTop a)

/-- Does a tensor region of `len` bytes violate R15: at its base, or where it runs past the vault space or the stage memory (R511). -/
def regionBad (a len : Nat) : Bool := match locOf a with
  | .bad => true
  | .vault _ _ | .stage _ _ => decide (memTop a < a + len)
  | _ => false

/-- An address lies in stage memory. -/
def inStage (a : Nat) : Bool := addrSpace a == 1

/-- A tensor operand as a unit reads it: none when its format is reserved or its address violates (it reads as +0). `fixed`: the
fine code that SCALE_MODE puts in the place of the stored ones (R56). A tile that starts at or after `memTop` of the tensor's
address lies where the unit may not read, and reads as +0 (R87, R133). -/
structure Tensor where
  fmt : Fmt
  addr : Nat
  rstride : Nat
  coarse : Nat
  fixed : Option Nat
  deriving DecidableEq, Repr

/-- Byte reader of a unit: memory, or a buffer that stands for the tile at an address. -/
abbrev ByteRd := Nat → Nat

/-- Code and fine code of the stored element `(i, j)` of a tensor. -/
def Tensor.codeAt (t : Tensor) (rd : ByteRd) (i j : Nat) : Nat × Nat :=
  let base := t.addr + tileOffset t.fmt t.rstride (i / 128) (j / 128)
  let x := tileIndex (i % 128) (j % 128)
  if memTop t.addr ≤ base then (0, 127)
  else (tileCode t.fmt (fun b => rd (base + b)) x, if t.fmt.fine then t.fixed.getD (rd (base + scaleByte t.fmt x)) else 127)

/-- The exact element with its fine factor (R58). -/
def Tensor.fineAt (t : Tensor) (rd : ByteRd) (i j : Nat) : Num :=
  let c := t.codeAt rd i j
  decodeFine t.fmt c.1 c.2

/-- Lines of the tile `(ti, tj)` of a tensor. -/
def State.tileLines (s : State) (t : Tensor) (ti tj : Nat) : List (Nat × Nat) :=
  s.linesOf (t.addr + tileOffset t.fmt t.rstride ti tj) t.fmt.footprint

/-! ## Write-out of a tile -/

/-- Write-out context of an output of core `g`. -/
def State.woCtx (s : State) (g : Nat) (f : Fmt) (x : FmtField) : WoCtx :=
  ⟨f, x.mode, x.sr, x.sat, x.fixed, x.tensorId, s.rd .coreSrSeed g 0, (s.rd .cnsCtl g 0).testBit 1⟩

/-- The converted tile: codes by in-tile index (128 x 128), scale bytes of the 256 blocks, blocks left alone (every
element kept), its census. -/
structure TileOut where
  codes : List Nat
  scales : List Nat
  skipped : List Nat
  census : Census
  deriving DecidableEq, Repr

/-- One element of a tile handed to write-out: padding, kept (its stored code), already coded (raw), or a value. -/
inductive TileElem where
  | pad
  | keep
  | raw (code : Nat)
  | val (e : WoElem)
  deriving DecidableEq, Repr

/-- Convert one 8 x 8 block of a tile. `oldCode` and `oldScale` are what the block stores (R84, R132, R146). -/
def convBlock (x : WoCtx) (oldScale : Nat) (oldCode : Nat → Nat) (es : List TileElem) :
    List Nat × Nat × Bool × Census :=
  if es.all (fun e => e == .pad) then (List.replicate 64 0, 0x7F, false, Census.zero)
  else
    let live := es.filter (fun e => e != .pad)
    if live.all (fun e => e == .keep) then ([], oldScale, true, Census.zero)
    else
      let os : List (Option WoElem) := live.filterMap (fun e => match e with
        | .val w => some (some w)
        | .keep => some none
        | _ => none)
      let b := writeBlock x oldScale os
      let rec lay : List TileElem → List (Option Nat) → Nat → List Nat
        | [], _, _ => []
        | .pad :: r, cs, i => 0 :: lay r cs (i + 1)
        | .raw c :: r, cs, i => c :: lay r cs (i + 1)
        | .keep :: r, cs, i => oldCode i :: lay r (cs.drop 1) (i + 1)
        | .val _ :: r, c :: cs, i => c.getD 0 :: lay r cs (i + 1)
        | .val _ :: r, [], i => 0 :: lay r [] (i + 1)
      let raws := es.countP (fun e => match e with
        | .raw _ => true
        | _ => false)
      (lay es b.codes 0, b.fine, false, b.census.add { Census.zero with elem := raws })

/-- Convert a whole tile block by block in index order. `elem` gives the element at an in-tile index. -/
def convTile (x : WoCtx) (oldScale : Nat → Nat) (oldCode : Nat → Nat) (elem : Nat → TileElem) : TileOut :=
  (List.range 256).foldl (fun a b =>
    let r := convBlock x (oldScale b) (fun i => oldCode (64 * b + i))
      ((List.range 64).map (fun i => elem (64 * b + i)))
    { codes := a.codes ++ (if r.2.2.1 then (List.range 64).map (fun i => oldCode (64 * b + i)) else r.1),
      scales := a.scales ++ [r.2.1],
      skipped := if r.2.2.1 then a.skipped ++ [b] else a.skipped,
      census := a.census.add r.2.2.2 }) ⟨[], [], [], Census.zero⟩

/-- Bytes of a converted tile as stored (R82). -/
def TileOut.bytes (t : TileOut) (f : Fmt) : List Nat := packCodes f t.codes ++ (if f.fine then t.scales else [])

/-- Write-out multiplies by the FP32 reciprocal of the output's coarse scale (R60 step 1). -/
def recipCoarse (c : Nat) : Num := f32Recip (coarseOf c).1

/-- Store a converted tile at an address, when the address may be written (R87, R133). A tile every block of which is
kept is not written (R146). -/
def State.storeTile (s : State) (g a : Nat) (f : Fmt) (t : TileOut) (rcmp : Bool) : State :=
  if !s.unitAddrOk g a || t.skipped.length == 256 then s else s.writeAt g a (t.bytes f) (s.stepTag g) rcmp

/-! ## Reduction-buffer slots -/

def slotKey (island slot : Nat) : Nat := island * 2048 + slot
/-- Declared slots of an island. -/
def State.slotCount (s : State) (d : Nat) : Nat := SMap.get (fun _ => 0) s.slots.counts d
/-- A slot index as a unit reads it: clamped to the declared count (R93, R326). -/
def State.slotClamp (s : State) (d n : Nat) : Nat := min n (s.slotCount d - 1)
def State.slotDecl (s : State) (d n : Nat) : Option SlotDecl := SMap.get (fun _ => none) s.slots.decls (slotKey d n)

def SlotDecl.fmt (d : SlotDecl) : Fmt := if d.fp32 then .fp32 else .bf16
/-- Elements that a slot stores: whole tiles when tiled. -/
def SlotDecl.extent (d : SlotDecl) : Nat :=
  if d.tiled then ceilDiv d.rows 128 * ceilDiv d.cols 128 * 16384 else d.cols

def elemKey (island slot e : Nat) : Nat := slotKey island slot * 2 ^ 27 + e
def State.slotElem (s : State) (d n e : Nat) : Nat := SMap.get (fun _ => 0) s.slots.data (elemKey d n e)
def State.setSlotElem (s : State) (d n e v : Nat) : State :=
  { s with slots := { s.slots with data := SMap.set (fun _ => 0) s.slots.data (elemKey d n e) v } }

/-- Place of element `(r, c)` of slot tile `(ti, tj)`. -/
def SlotDecl.tiledIdx (d : SlotDecl) (ti tj r c : Nat) : Nat :=
  (ti * ceilDiv d.cols 128 + tj) * 16384 + tileIndex r c

/-- Census of an element without fine scales, from its exact value before conversion (R70, R71, R225). -/
def plainCensus (f : Fmt) (near : Bool) (exact : Num) (w : Num) : Census :=
  let c0 : Census := { Census.zero with elem := 1 }
  match w with
  | .nan => { c0 with nan := 1 }
  | .inf _ => if exact.isFin then { c0 with ovf := 1 } else c0
  | .fin _ m e =>
    { c0 with
      ftz := if m = 0 ∧ exact.isFinNz then 1 else 0
      nearOvf := if near && Num.magLt f.flt.top (f.flt.topE - 1) m e then 1 else 0
      nearVan := if near && decide (0 < m) && Num.magLt m e 1 (f.flt.emin - (f.flt.prec - 1 : Nat) + 1) then 1 else 0 }

/-- Add a value into a slot element with one rounding to the slot format (R225). -/
def State.slotAdd1 (s : State) (d n e : Nat) (f : Fmt) (near : Bool) (v : Num) : State × Census :=
  let b := f.flt.decode (s.slotElem d n e)
  let x := Num.addExact b v
  let w := f.flt.round x
  (s.setSlotElem d n e (f.flt.encode w), plainCensus f near x w)

/-- Place of element `(r, c)` of a slot, clamped to the slot's extent (a vector's element is `c`), and whether it was
clamped (R224). -/
def SlotDecl.index (q : SlotDecl) (r c : Nat) : Nat × Bool :=
  let r' := if q.tiled then min r (q.rows - 1) else 0
  let c' := min c (q.cols - 1)
  (if q.tiled then q.tiledIdx (r' / 128) (c' / 128) (r' % 128) (c' % 128) else c', r' != r || c' != c)

/-- The fabric island whose slots a core uses: its die's, or that of the core whose ranks it has adopted (R395). -/
def State.slotDie (s : State) (g : Nat) : Nat := ((s.core g).adopts.getD g) / 16
/-- Does a core stand for the contributor of a slot. -/
def State.contributes (s : State) (g c : Nat) : Bool := c == g || (s.core g).adopts == some c

/-- Additions by a unit of core `g` into slot `n` of its die (R224, R225), as (row, column, value): discarded and counted
when the core is not the contributor or the kind is wrong; an element beyond the extent is clamped, and the add counted
once; an add during a read-out counts in PRG_VIOL_CNT and belongs to the next read-out (R326). `unit` is the writing
unit's violation counter. -/
def State.slotAddAll (s : State) (g : Nat) (unit : Reg) (op seq fo n : Nat) (tiled : Bool) (vs : List (Nat × Nat × Num)) :
    State × Census :=
  let d := s.slotDie g
  match s.slotDecl d n with
  | none => (s.viol unit g op seq fo n, Census.zero)
  | some q =>
    if !s.contributes g q.contributor || q.tiled != tiled then (s.viol unit g op seq fo n, Census.zero)
    else
      let near := (s.rd .cnsCtl g 0).testBit 1
      let s0 := if s.slots.reading.contains (slotKey d n) then s.viol .prgIslViolCnt d op seq fo n else s
      let s1 := if vs.any (fun p => (q.index p.1 p.2.1).2) then s0.viol unit g op seq fo n else s0
      vs.foldl (fun a p =>
        let r := a.1.slotAdd1 d n (q.index p.1 p.2.1).1 q.fmt near p.2.2
        (r.1, a.2.add r.2)) (s1, Census.zero)

/-- Format code of a slot's census set (R225). -/
def State.slotFmt (s : State) (g n : Nat) : Nat :=
  match s.slotDecl (s.slotDie g) n with
  | some q => q.fmt.code
  | none => 0

end Sys2Proof.Machine
end

