-- ==== Sys2Proof/Machine/LaneOps.lean ====
section
/-! DEFINITION. Bank-lane descriptors as the controller reads them, and their end (R193 to R198, R213 to R215, R229). -/

namespace Sys2Proof.Machine

/-- A lane descriptor as read. `work`: it has work to do; `base` is the first line; `out` is where a digest goes. -/
structure LaneDesc where
  op : Nat
  work : Bool
  noTag : Bool
  lanes : Nat
  groups : Nat
  last : Nat
  count : Nat
  base : Nat
  elem : Nat
  out : Option Nat
  consts : List Nat
  fg : FmtField
  fm : FmtField
  fv : FmtField
  viols : List Viol
  deriving DecidableEq, Repr

/-- A constant of the descriptor. -/
def LaneDesc.const (x : LaneDesc) (n : Nat) : Num := Num.ofF32 (x.consts.getD n 0)

def lineOfVault (g : Nat) : Loc → Option Nat
  | .vault h b => if h = g then some b else none
  | _ => none

/-- LANES_MAX as the controller reads it, and whether it counts (R218). -/
def State.lanesMax (s : State) (g : Nat) : Nat × Bool :=
  let n := s.rdF .laneCtl g 0 0 6
  if n = 0 then (1, true) else if 32 < n then (32, true) else (n, false)

def someFmt (fs : List Fmt) (x : FmtField) : Bool := match x.fmt with
  | some f => fs.contains f
  | none => false

/-- Violations of a lane's format field: its code is R194's to judge and its SCALE_MODE reads as 0, so of its first byte ROUND and
SAT alone count. -/
def laneFmt (off : Nat) (vs : List Viol) : List Viol := vs.filter (fun v => v.field != off || v.value == 1)

/-- The lane descriptor `d` as the controller of core `g`'s vault reads it (R193 to R195). -/
def State.laneParse (s : State) (g d : Nat) : LaneDesc :=
  let op := dfld d 0 0 8
  let ex := s.expert 5
  let nt := dfld d 1 0 1
  let ln := dfld d 2 0 6
  let pg := dfld d 2 6 2
  let exV : List Viol := if ex then [] else
    (if nt = 0 then [] else [⟨1, nt⟩]) ++ (if ln = 32 then [] else [⟨2, ln⟩]) ++ (if pg = 0 then [] else [⟨2, pg⟩])
  let ln' := if ex then ln else 32
  let pg' := if ex then pg else 0
  let lnV : List Viol := if ln' = 0 ∨ 32 < ln' then [⟨2, ln'⟩] else []
  let pgV : List Viol := if pg' = 3 then [⟨2, 3⟩] else []
  let lmV : List Viol := if (s.lanesMax g).2 then [⟨0xFF, s.rdF .laneCtl g 0 0 6⟩] else []
  let count := dfld d 4 0 32
  let raw := dfld d 8 0 64
  let a := s.adr g (raw % 2 ^ 56)
  let own := if addrPkg a = s.pkg then lineOfVault g (locOf a) else none
  let byte := own.getD 0
  let byte' := if op = 0x40 then setBits (byte / 1024 * 1024) 17 1 0 else byte / 128 * 128
  let l0 := byte' / 128
  let lim := if op = 0x40 then (32768 - l0 / 2048) * 128 - lineBank l0 else 2 ^ 26 - l0
  let fg := FmtField.read d 64 (op == 0x41) false s.woExpert
  let fm := FmtField.read d 80 true false s.woExpert
  let fv := FmtField.read d 96 true false s.woExpert
  let okG := someFmt [.fp32, .bf16, .fp16] fg.1
  let okMV := someFmt [.bf16, .fp16] fm.1 && someFmt [.bf16, .fp16] fv.1
  let fmtOk := if op = 0x40 then okG && okMV else if op = 0x41 then okG else true
  let vl := dfld d 3 0 8
  let oraw := dfld d 24 0 64
  let oa := s.adr g (oraw % 2 ^ 56 / 32 * 32)
  let oOk := addrPkg oa == s.pkg && (match locOf oa with
    | .vault h _ => h == g
    | .stage h _ => h == g
    | _ => false)
  let known := decide (0x40 ≤ op ∧ op ≤ 0x43)
  let work := known && count != 0 && own.isSome && fmtOk
  let vs : List Viol :=
    if !known then [⟨0, op⟩]
    else exV ++ lnV ++ pgV ++ lmV ++
      (if op = 0x40 ∧ 128 < vl then [⟨3, vl⟩] else [])
      ++ (if own.isNone then [⟨8, raw⟩]
          else (if byte' = byte then [] else [⟨8, raw⟩]) ++ (if lim < count then [⟨4, count⟩] else []))
      ++ (if op = 0x42 then (if oraw % 32 = 0 then [] else [⟨24, oraw⟩]) ++ (if oOk then [] else [⟨24, oraw⟩]) else [])
      ++ (if fmtOk then [] else [⟨64, dfld d 64 0 4⟩])
      ++ (if op = 0x40 then laneFmt 64 fg.2 ++ laneFmt 80 fm.2 ++ laneFmt 96 fv.2 else if op = 0x41 then laneFmt 64 fg.2 else [])
  { op := op, work := work, noTag := ex && nt == 1, lanes := min (max ln' 1) 32
    groups := if pg' = 3 then 0 else pg', last := if vl = 0 then 128 else min vl 128
    count := min count lim, base := l0, elem := dfld d 16 0 64
    out := if op = 0x42 ∧ oOk then some oa else none
    consts := (List.range 8).map (fun n => dfld d (32 + 4 * n) 0 32), fg := fg.1, fm := fm.1, fv := fv.1, viols := vs }

/-! ## Work of a bank (R198, R199) -/

/-- Lines of bank `b` below line `x` of the vault. -/
def bankBelow (b x : Nat) : Nat := 8 * (x / 1024) + min (x % 1024 - 8 * b) 8

/-- The line at an index of a bank: the inverse of `lineInBank`. -/
def bankLine (b k : Nat) : Nat := k / 8 * 1024 + 8 * b + k % 8

/-- First group of an OPTIM descriptor that falls in bank `b`. -/
def LaneDesc.firstGroup (x : LaneDesc) (b : Nat) : Nat := (b + 128 - lineBank x.base) % 128

/-- Items of the descriptor in a bank: update groups for OPTIM, lines otherwise. -/
def LaneDesc.items (x : LaneDesc) (b : Nat) : Nat :=
  if !x.work then 0
  else if x.op = 0x40 then (if x.firstGroup b < x.count then (x.count - 1 - x.firstGroup b) / 128 + 1 else 0)
  else bankBelow b (x.base + x.count) - bankBelow b x.base

/-- The `k`th item of a bank: its group number, or its line. -/
def LaneDesc.item (x : LaneDesc) (b k : Nat) : Nat :=
  if x.op = 0x40 then x.firstGroup b + 128 * k else bankLine b (bankBelow b x.base + k)

/-- Line of slot `s` of update group `i` placed from base line `l0` (R198). -/
def groupLine (l0 i s : Nat) : Nat :=
  let p := lineBank l0 + i
  (2 * (l0 / 2048 + p / 128) + s / 8) * 1024 + p % 128 * 8 + s % 8

/-- The bank has passes to run. -/
def LaneBank.pending (k : LaneBank) (x : LaneDesc) (b : Nat) : Bool := !k.stopped && decide (k.next < x.items b)

/-- Nothing of the bank is outstanding. -/
def LaneBank.over (k : LaneBank) (x : LaneDesc) (b : Nat) : Bool := !k.pending x b && !k.token && k.claimed.isNone

/-! ## The end of a descriptor -/

/-- Bytes of the state words of the hash. -/
def hashBytes (h : List Nat) : List Nat := h.flatMap (beBytes 4)

/-- Eight words in K0 to K15: the high half of word `n` in K(2n), its low half in K(2n + 1) (R190). -/
def packK (ws : List Nat) : List Nat := ws.flatMap (fun w => [w / 2 ^ 16 % 2 ^ 16, w % 2 ^ 16])

/-- The words that K0 to K15 hold. -/
def wordsK : List Nat → List Nat
  | h :: l :: ks => (h * 2 ^ 16 + l) :: wordsK ks
  | _ => []

/-- The hash state of a bank: the initial value before its first line, then what K0 to K15 hold (R215 step 1). -/
def State.bankHash (s : State) (g b : Nat) : List Nat :=
  if (s.laneBank g b).next = 0 then shaH0 else wordsK (s.laneUnit g b).k

/-- A leaf: the hash state of a bank closed after its `n` lines (R215 step 1). -/
def leafOf (h : List Nat) (n : Nat) : List Nat :=
  hashBytes (shaBlock h (0x80 :: List.replicate 55 0 ++ beBytes 8 (1024 * n)))

/-- The result of DIGEST, when no bank has stopped (R215 steps 2 and 3). -/
def State.digestResult (s : State) (g : Nat) (j : LaneJob) (x : LaneDesc) : State :=
  match x.out with
  | none => s
  | some a =>
    if (List.range 128).any (fun b => (SMap.get (fun _ => LaneBank.zero) j.banks b).stopped) then s
    else
      let leaves := (List.range 128).flatMap (fun b =>
        if x.items b = 0 then [] else leafOf (s.bankHash g b) (x.items b))
      s.writeAt g a (sha256 leaves) j.tag j.rcmp

/-- Tokens that a vault holds. -/
def LaneJob.tokens (j : LaneJob) : Nat := (j.banks.filter (fun e => e.2.token)).length

/-- Pending lane work of a vault: items of its descriptor that no pass has ended. -/
def State.laneWork (s : State) (g : Nat) : Nat := match (s.core g).lane.job with
  | some j =>
    let x := s.laneParse g j.desc
    ((List.range 128).map (fun b =>
      let k := SMap.get (fun _ => LaneBank.zero) j.banks b
      if k.pending x b then x.items b - k.next else 0)).sum
  | none => 0

/-- The lane allowance of a vault controller island in units of 62.5 mW (R202, R451). -/
def State.laneUnits (s : State) (die : Nat) : Nat := SMap.get (fun _ => 328) s.pwr.lanes die

/-- The tokens that an island's allowance leaves to a vault: 40 mW each, at a lowered allowance shared by pending lane work, never
more than 32 (R202, R451; log entry 109). -/
def State.laneShare (s : State) (g : Nat) : Nat :=
  let n := s.laneUnits (g / 16) * 25 / 16
  if 512 ≤ n then 32
  else
    let vs := (List.range 16).map (fun i => g / 16 * 16 + i)
    let w := (vs.map s.laneWork).sum
    let others := (vs.map (fun v => ((s.core v).lane.job.map LaneJob.tokens).getD 0)).sum
      - ((s.core g).lane.job.map LaneJob.tokens).getD 0
    min 32 (min (n - others) (n * s.laneWork g / max 1 w))

/-- The census sets of a lane descriptor: M, V and the master for OPTIM, one for SCALE (R213, R214). -/
def LaneJob.sets (j : LaneJob) (x : LaneDesc) : List CensusSet :=
  let c := fun n => j.counts.getD n Census.zero
  let code := fun (f : FmtField) => (f.fmt.map Fmt.code).getD 0
  if x.op = 0x40 then
    [⟨code x.fm, 2, x.fm.sr, x.fm.sat, c 0⟩, ⟨code x.fv, 2, x.fv.sr, x.fv.sat, c 1⟩, ⟨0, 2, false, false, c 2⟩]
  else if x.op = 0x41 then [⟨code x.fg, 2, x.fg.sr, x.fg.sat, c 0⟩]
  else []

/-- Complete the lane descriptor in hand once every pass it needs has ended (R196); a recompute's gives way to what it
suspended (R172). -/
def State.laneClose (s : State) (g : Nat) : State :=
  match (s.core g).lane.job with
  | none => s
  | some j =>
    let x := s.laneParse g j.desc
    if (List.range 128).all (fun b => (SMap.get (fun _ => LaneBank.zero) j.banks b).over x b) then
      let s1 := if x.work && x.op == 0x42 then s.digestResult g j x else s
      if j.rcmp then
        (s1.updLane g (fun l => match l.saved with
          | some v => { l with job := v.1, units := v.2, saved := none }
          | none => { l with job := none })).rcmpDone g
      else (s1.updLane g (fun l => { l with job := none })).descDone g 2 (if x.work then j.sets x else [])
    else s

/-! ## Issue -/

/-- The constants that the sequencer writes into an OPTIM descriptor at issue (R229), with the learning rate sampled when
the step's first commit gate opened. -/
def State.optPatch (s : State) (g d : Nat) : Nat :=
  if (s.rd .coreOptCtl g 0).testBit 0 then
    let b1 := s.rdF .coreOptBeta1 g 0 0 32
    let b2 := s.rdF .coreOptBeta2 g 0 0 32
    let bc := fun (p b : Nat) =>
      (f32Recip (f32Sub Num.one (f32Mul (Num.ofF32 p) (Num.ofF32 b)))).toF32
    let lr := (f32Mul (Num.ofF32 (s.core g).lrSample) (Num.ofF32 (dfld d 32 0 32))).toF32
    let put := fun (d n v : Nat) => setBits d (8 * (32 + 4 * n)) 32 v
    put (put (put (put (put (put d 0 lr) 1 b1) 2 b2) 5 (bc (s.rdF .coreOptP1 g 0 0 32) b1)) 6
      (bc (s.rdF .coreOptP2 g 0 0 32) b2)) 7 (s.rdF .coreOptClip g 0 0 32)
  else d

/-- The first OPTIM descriptor of a step opens its commit gate: the learning rate is sampled (R229). -/
def State.openGate (s : State) (g : Nat) : State :=
  if (s.rd .coreOptStatus g 0).testBit 1 then s
  else (s.wrF .coreOptStatus g 0 1 1 1).updCore g (fun c => { c with lrSample := s.rdF .coreOptLr g 0 0 32 })

/-- The controller accepts a lane descriptor: constants, range checks, status (R193 to R197, R229). -/
def State.laneStart (s : State) (g d pos : Nat) (eval rcmp : Bool) : State :=
  let s0 := if dfld d 0 0 8 = 0x40 ∧ !rcmp then s.openGate g else s
  let d' := if dfld d 0 0 8 = 0x40 then s0.optPatch g d else d
  let x := s0.laneParse g d'
  let s1 := if rcmp then s0 else (s0.wr .laneDescSeq g 0 pos).wrF .laneStatus g 0 7 9 (if x.viols.isEmpty then 0 else 2 ^ 8)
  let s2 := s1.viols' .laneViolCnt g x.op pos x.viols
  (s2.updLane g (fun l => { l with
    job := some ⟨d', pos, eval, rcmp, s.stepTag g, [], [Census.zero, Census.zero, Census.zero]⟩ })).laneClose g

end Sys2Proof.Machine
end

