-- ==== Sys2Proof/Machine/Vault.lean ====
section
/-! DEFINITION. Commands of the vaults and of stage memory (R162 to R189). -/

namespace Sys2Proof.Machine

/-- The vaults of the package are served: the package is in Run and the vault is not in self-refresh (R436, R438). -/
def State.vaultUp (s : State) (g : Nat) : Bool :=
  decide (g < 128) && decide (s.pwrState = 3) && !(s.vlt g).selfRefresh && !s.recordHeld g

/-- A requester that a fenced core's vault still serves: the hub, and fabric reads (R393). -/
def State.vaultServes (s : State) (g src : Nat) (write : Bool) : Bool :=
  match (s.core g).fence with
  | .none | .suspect => true
  | _ => decide (160 ≤ src) || (!write && decide (128 ≤ src))

/-- Exactly 128 bytes: padded with zeros or cut. -/
def pad128 (bs : List Nat) : List Nat := (bs.map (· % 256) ++ List.replicate 128 0).take 128

/-- VLT_LINE_READ (R168, R171, R173): `err` is the error pattern that the DRAM array lays over the line, if any. -/
def execVltLineRead (vault line src : Nat) (err : List Nat) (s : State) : Host.Outcome State Fault Refusal :=
  .next (if s.vaultUp vault && s.vaultServes vault src false && decide (line < 2 ^ 26)
    then s.vltRequest vault ⟨src, line, false, 0, 0, [], none, false⟩ err else s)

/-- The tag that a write stores: a core's, bits [15:0] of its step counter; any other writer's, its request's tag field (R167). -/
def State.writerTag (s : State) (src tag : Nat) : Nat := if src < 128 then s.stepTag src else tag % 2 ^ 16

/-- VLT_LINE_WRITE (R167, R168, R181, R261, R408): a full-line write with CRC, tag and flags. -/
def execVltLineWrite (vault line src tag : Nat) (data : List Nat) (s : State) : Host.Outcome State Fault Refusal :=
  .next (if s.vaultUp vault && s.vaultServes vault src true && decide (line < 2 ^ 26)
    then s.vltRequest vault ⟨src, line, true, 0, s.writerTag src tag, pad128 data, none, false⟩ [] else s)

/-- NARROW_WRITE (R167, R174): bytes of one line from `off` on, as an indivisible read-modify-write; what covers the whole
line is a full write. -/
def execNarrowWrite (vault line src tag off : Nat) (bytes err : List Nat) (s : State) :
    Host.Outcome State Fault Refusal :=
  .next (if s.vaultUp vault && s.vaultServes vault src true && decide (line < 2 ^ 26) && decide (off < 128)
    then s.vltRequest vault ⟨src, line, true, off, s.writerTag src tag, (bytes.map (· % 256)).take (128 - off), none, false⟩ err
    else s)

/-- A further read of a locked line, with the error pattern that it shows. The flip mask of MODE 1 lies over it where it is armed, but
never over a scrub's or a read-modify-write's (R181). -/
def State.lockRead (s : State) (g : Nat) (k : LineLock) (err : List Nat) : State × RawLine :=
  if k.req.src = 0xFF ∨ k.req.write = true then (s, (s.rawLine g k.line).flip err)
  else
    let (s1, r) := s.ctrlRead g k.line
    (s1, r.flip err)

/-- VLT_REFETCH (R171 steps 2 to 6): the second read of a locked line. -/
def execVltRefetch (vault line : Nat) (err : List Nat) (s : State) : Host.Outcome State Fault Refusal :=
  .next ((match s.lockOf vault line with
    | none => s
    | some k =>
      if k.phase ≠ LockPhase.refetch then s
      else
        let (s, r) := s.lockRead vault k err
        if r.ok then
          (((s.bump .vltTransientCnt vault 1).lineRecord vault k .vltTransient 0 0xF).finishLock vault k r).unlock
            vault line
        else if r.test then (s.updLock vault line (fun k => { k with test := true })).askRecompute vault
          { k with test := true } 0xF
        else
          let (s1, entry) := s.lastingFault vault { k with test := false } r
          (s1.updLock vault line (fun k => { k with test := false })).askRecompute vault
            { k with test := false } entry).laneClose vault)

/-- Free every remap entry whose line lies in a page (R177 step 5). -/
def State.freeRemaps (s : State) (g page : Nat) : State :=
  forUpTo 8 (fun n s =>
    if (s.rd .vltRemap g n).testBit 0 ∧ linePage (s.rdF .vltRemap g n 1 26) = page
    then s.wr .vltRemap g n 0 else s) s

/-- The pages that a retired page stands for: those of the entries that lead to its reserve page. -/
def State.retiredPages (s : State) (g reserve : Nat) : List Nat :=
  ((List.range 4).filterMap (fun n =>
    let p := s.rdF .vltRetire g n 1 12
    if (s.rd .vltRetire g n).testBit 0 ∧ s.retirePage g 4 p = reserve then some p else none)).eraseDups

/-- Ask for a recompute of every POISON line of a page that lies in a recompute range (R177 step 6). -/
def State.recomputePage (s : State) (g page : Nat) : State :=
  forUpTo (2 ^ 14) (fun i s =>
    let l := page * 2 ^ 14 + i
    let r := s.rawLine g l
    if r.poison ∧ (s.rcmpRange g l).isSome ∧ (s.rd .vltCtl g 0).testBit 3 ∧ !s.locked g l then
      let k := noLock l ⟨0xFF, l, false, 0, 0, [], none, false⟩ r false .recompute
      (s.updVlt g (fun v => { v with locks := v.locks ++ [k] })).askRecompute g k 0xF
    else s) s

/-- No pass in progress holds a line that satisfies `p` (R177, R207, R262). -/
def State.passClear (s : State) (g : Nat) (p : Nat → Bool) : Bool := match (s.core g).lane.job with
  | some j => j.banks.all (fun e => (s.busySet g e.1).all (fun x => !p x.line))
  | none => true
/-- No pass in progress holds a line of a page. -/
def State.pageQuiet (s : State) (g page : Nat) : Bool := s.passClear g (fun l => linePage l == page)

/-- PAGE_MIGRATE_DONE (R177 steps 2 and 4 to 6, R178, R207): `reserveBad` says that a line of the reserve page failed its check
twice after it was written. The page that is retired is the one where the failed line lay: for a page already retired, its reserve
page. -/
def execPageMigrateDone (vault : Nat) (reserveBad : Bool) (s : State) : Host.Outcome State Fault Refusal :=
  .next (match (s.vlt vault).retiring with
    | none => s
    | some r =>
      if !s.passClear vault (fun l => linePage (s.retireMap vault l) == r.page) then s
      else
      let n := ((List.range 4).find? (fun n => !(s.rd .vltRetire vault n).testBit 0)).getD 0
      let line := r.page * 2 ^ 14
      let pay := fun (o e : Nat) => Payload.line (vaultAddr s.pkg vault (line * 128)) 0xFF 0 0 0 0 o e r.page r.reserve
      let fin := fun (t : State) => (t.updVlt vault (fun v => { v with retiring := none })).serveWaiting vault r.waiting
      if reserveBad then fin (s.queue .vltRetireFail (vltIsland vault) (some vault) (pay 7 0xF))
      else
        let s1 := (s.copyPage vault r.page r.reserve).wr .vltRetire vault n (1 + r.page * 2 + r.reserve * 2 ^ 13)
        let s2 := (s1.freeRemaps vault r.page).queue .vltRetired (vltIsland vault) (some vault) (pay 0 (8 + n))
        fin (forEach (s2.retiredPages vault r.reserve) (fun p s => s.recomputePage vault p) s2))

/-- VLT_RECOMPUTE_READ (R171 step 7): the read after the recompute stored the line. -/
def execVltRecomputeRead (vault line : Nat) (err : List Nat) (s : State) : Host.Outcome State Fault Refusal :=
  .next ((match s.lockOf vault line with
    | none => s
    | some k =>
      if k.phase ≠ LockPhase.reread then s
      else
        let (s, r) := s.lockRead vault k err
        if r.ok ∧ !r.poison then
          let s1 := (s.bump .vltRecomputeCnt vault 1).lineRecord vault
            { k with flags := if k.test then setBits k.flags 3 1 1 else k.flags } .vltRecomputed 3 0xF
          (s1.finishLock vault k r).unlock vault line
        else s.leaveLost vault k ((s.remapEntry vault (s.retireMap vault line)).getD 0xF)).laneClose vault)

/-- RCMP_TIMEOUT (R171 steps 7 and 8): the recompute has not stored the line in time. One that has, so that the line carries neither
POISON nor TEST any more, is read again when it ends. -/
def execRcmpTimeout (vault line : Nat) (s : State) : Host.Outcome State Fault Refusal :=
  .next ((match s.lockOf vault line with
    | none => s
    | some k =>
      let r := s.rawLine vault line
      if k.phase ≠ LockPhase.recompute ∨ (r.ok ∧ !r.poison ∧ !r.test) then s
      else (s.rcmpDrop vault line).leaveLost vault k
        ((s.remapEntry vault (s.retireMap vault line)).getD 0xF)).laneClose vault)

/-! ## Refresh and temperature -/

/-- The refresh debt of a bank (R183). -/
def State.debt (s : State) (g b : Nat) : Nat := SMap.get (fun _ => 0) (s.vlt g).debt b
def State.setDebt (s : State) (g b n : Nat) : State :=
  s.updVlt g (fun v => { v with debt := SMap.set (fun _ => 0) v.debt b n })
/-- POSTPONE_MAX, at most 4 (R37, R183). -/
def State.postponeMax (s : State) (g : Nat) : Nat := min (s.rdF .vltCtl g 0 0 3) 4
/-- A lane pass of the vault holds the bank (R208: a DIGEST pass only while it reads). -/
def State.passOn (s : State) (g b : Nat) : Bool :=
  match (s.core g).lane.job with
  | some j => bitsOf j.desc 0 8 != 0x42 && (s.laneBank g b).claimed.isSome
  | none => false

/-- REFRESH_DUE (R182, R183, R208): a bank's refresh falls due; `pending` says that the bank has requests pending. A busy
bank postpones it into its debt. With the debt at the limit the bank is refreshed at once, unless a pass must first reach
its boundary; with a limit of 0 it is forced at once, or at that boundary. -/
def execRefreshDue (vault bank : Nat) (pending : Bool) (s : State) : Host.Outcome State Fault Refusal :=
  .next (if s.vaultUp vault && decide (bank < 128) && (pending || s.passOn vault bank) then
      let d := s.debt vault bank + 1
      if s.postponeMax vault = 0 then
        (if s.passOn vault bank then s.setDebt vault bank d else s.bump .vltRefreshForcedCnt vault 1)
      else
        let s1 := s.bump .vltRefreshPostponeCnt vault 1
        if s.postponeMax vault ≤ d ∧ !s.passOn vault bank then
          (s1.setDebt vault bank 0).bump .vltRefreshForcedCnt vault d
        else s1.setDebt vault bank d
    else s)

/-- REFRESH_REPAY (R183): an idle bank repays its debt back to back. -/
def execRefreshRepay (vault bank : Nat) (s : State) : Host.Outcome State Fault Refusal :=
  .next (if s.vaultUp vault && decide (bank < 128) && !s.passOn vault bank then s.setDebt vault bank 0 else s)

/-- What the controller does with a bank's debt when its pass set is released (R208): the whole debt at the limit (or
with a limit of 0), counted as forced; one refresh of a smaller debt. -/
def State.boundaryRefresh (s : State) (g b : Nat) : State :=
  let d := s.debt g b
  if d = 0 then s
  else
    let s1 := s.bump .laneRefreshHoldCnt g 1
    if s.postponeMax g ≤ d then (s1.setDebt g b 0).bump .vltRefreshForcedCnt g d else s1.setDebt g b (d - 1)

/-- The line that the patrol scrub reads next: one that it returns to, else the next in order (R180). -/
def Vlt.scrubNext (v : Vlt) : Nat := v.scrubDue.headD v.scrubPos

/-- The scrub moves past its next line; `skip`: it skips that line, to return to it after the rest of the row group. -/
def Vlt.scrubMove (v : Vlt) (skip : Bool) : Vlt :=
  match v.scrubDue with
  | l :: ds => { v with scrubDue := ds, scrubSkipped := if skip then v.scrubSkipped ++ [l] else v.scrubSkipped }
  | [] =>
    let sk := if skip then v.scrubSkipped ++ [v.scrubPos] else v.scrubSkipped
    if (v.scrubPos + 1) % 8 = 0 then { v with scrubPos := (v.scrubPos + 1) % 2 ^ 26, scrubSkipped := [], scrubDue := sk }
    else { v with scrubPos := v.scrubPos + 1, scrubSkipped := sk }

/-- PATROL_SCRUB (R180): the next line is read and checked; a locked line, or one under a lane pass, is skipped and
returned to after its row group. A POISON line that passes its check has no reader, so nothing counts or is recorded (DESIGN CHOICE,
log entry 124). -/
def execPatrolScrub (vault : Nat) (err : List Nat) (s : State) : Host.Outcome State Fault Refusal :=
  .next (if s.vaultUp vault && (s.rd .vltCtl vault 0).testBit 4 then
      let l := (s.vlt vault).scrubNext
      let skip := s.locked vault l || (s.busyBank vault l).isSome
      let s1 := s.updVlt vault (fun v => v.scrubMove skip)
      if skip then s1
      else
        let s2 := s1.bump .vltScrubLineCnt vault 1
        let r := (s.rawLine vault l).flip err
        if r.ok then s2 else s2.lineFail vault ⟨0xFF, l, false, 0, 0, [], none, false⟩ r false
    else s)

/-- The temperature band after a reading, from the band before (R184). -/
def bandOf (b t : Nat) : Nat :=
  if 105 ≤ t then 3
  else if b = 0 then (if 95 < t then 2 else if 85 < t then 1 else 0)
  else if b = 1 then (if 95 < t then 2 else if t < 83 then 0 else 1)
  else (if t < 83 then 0 else if t < 93 then 1 else 2)

/-- TEMP_SAMPLE (R184): the four layer sensors of a vault; the vault temperature is the highest. A band change waits for
the next refresh interval. -/
def execTempSample (vault l0 l1 l2 l3 : Nat) (s : State) : Host.Outcome State Fault Refusal :=
  .next (if s.vaultUp vault then
      let t := max (max (l0 % 256) (l1 % 256)) (max (l2 % 256) (l3 % 256))
      let b := s.rdF .vltStatus vault 0 0 2
      let s1 := s.wr .vltTemp vault 0 (l0 % 256 + l1 % 256 * 2 ^ 8 + l2 % 256 * 2 ^ 16 + l3 % 256 * 2 ^ 24)
      s1.updVlt vault (fun v => { v with bandNext := if bandOf b t = b then none else some (bandOf b t) })
    else s)

/-- BAND_CHANGE (R184): at the start of the next refresh interval the band changes; the hot band queues a record. -/
def execBandChange (vault : Nat) (s : State) : Host.Outcome State Fault Refusal :=
  .next (match (s.vlt vault).bandNext with
    | none => s
    | some b =>
      let s1 := (s.wrF .vltStatus vault 0 0 2 b).updVlt vault (fun v => { v with bandNext := none })
      if b = 2 then s1.queue .vltHot (vltIsland vault) (some vault) (.gen b (vault % 16) 0 (s.rd .vltTemp vault 0) 0 0)
      else s1)

/-! ## Stage memory -/

/-- Corrections of a stage-memory word in the step so far (R390). -/
def State.fixes (s : State) (g w : Nat) : Nat := SMap.get (fun _ => 0) (s.core g).stgFix w

/-- STG_ACCESS (R185 to R187, R390): one access of a port to the word that holds `byte`: a read or a write of `data`
(`data` empty: a read), `retries` cycles lost to ports of higher priority, and what the SEC-DED code finds in the word:
0 nothing, 1 a single-bit error, 2 a double-bit error. An address that stage-memory space does not have reads as zero and takes no
write (R15): the core counts it, or the hub when the fabric and hub port asked (R511). -/
def execStgAccess (core port byte retries ecc : Nat) (data : List Nat) (s : State) :
    Host.Outcome State Fault Refusal :=
  .next (if s.active core && !s.recordHeld core then
      if stgBytes ≤ byte then
        let a := stageAddr s.pkg core byte
        let s1 := if port = 5 then s.hubAddrViol a else s.coreAddrViol core 0xFF 0xFFFFFFFF 0xFF a
        if data.isEmpty then s1.send (.lineData core port (byte / 8) 0 (List.replicate 8 0)) else s1
      else
        let w := byte / 8
        let s0 := s.bump .coreStgConflictCnt core retries
        let s1 :=
          if ecc = 1 then
            let n := s0.fixes core w + 1
            let t := (s0.bump .coreStgCeCnt core 1).updCore core
              (fun c => { c with stgFix := SMap.set (fun _ => 0) c.stgFix w n })
            if n = 8 then t.queue .stgCeRepeat core (some core) (.gen 0 0 0 (8 * w) n 0) else t
          else if ecc = 2 then
            (((s0.bump .coreStgUeCnt core 1).queue .stgUe core (some core) (.gen 0 0 0 (8 * w) 0 0)).withhold core)
          else s0
        if data.isEmpty then
          s1.send (.lineData core port w (if ecc = 2 then 1 else 0)
            (if ecc = 2 then List.replicate 8 0 else (List.range 8).map (fun i => s1.stgByte core (8 * w + i))))
        else s1.putStg core byte ((data.map (· % 256)).take (stgBytes - byte))
    else s)

end Sys2Proof.Machine
end

