-- ==== Sys2Proof/Machine/Lanes.lean ====
section
/-! DEFINITION. Commands of the bank lanes: lane descriptors, tokens and passes (R190 to R219, R229, R234 to R236). -/

namespace Sys2Proof.Machine

/-! ## Lane descriptors -/

/-- The lanes take up the descriptor at the head of stream 2 when it is one of the command's operations, and complete it
when nothing of it is left. A step stopped on a non-finite norm issues no OPTIM descriptor (R231). -/
def State.laneExec (s : State) (g : Nat) (ops : Nat → Bool) : State :=
  if !s.running g then s
  else match (s.core g).lane.job, (s.core g).inUnit 2 with
    | none, some e =>
      let op := dfld e.desc 0 0 8
      if (s.core g).saveReq || e.kind != 0 || e.skip || !ops op
        || (op == 0x40 && (s.rd .coreOptStatus g 0).testBit 2) then s
      else s.laneStart g e.desc e.pos e.eval false
    | some j, _ => if ops (dfld j.desc 0 0 8) then s.laneClose g else s
    | none, none => s

/-- OPTIM (R193, R201, R229): the fused optimiser update is accepted; its passes follow. -/
def execOptim (core : Nat) (s : State) : Host.Outcome State Fault Refusal :=
  .next (s.laneExec core (fun o => o == 0x40))

/-- SCALE (R193, R214). -/
def execScale (core : Nat) (s : State) : Host.Outcome State Fault Refusal :=
  .next (s.laneExec core (fun o => o == 0x41))

/-- DIGEST (R193, R215). -/
def execDigest (core : Nat) (s : State) : Host.Outcome State Fault Refusal :=
  .next (s.laneExec core (fun o => o == 0x42))

/-- ZERO (R193, R216). A lane operation code that R193 does not list is taken up here: no work, counted. -/
def execZero (core : Nat) (s : State) : Host.Outcome State Fault Refusal :=
  .next (s.laneExec core (fun o => o == 0x43 || decide (0x44 ≤ o)))

/-! ## Tokens -/

/-- Warm or hot: the lane pass limit is 0.75 µs (R184, R200). -/
def State.shortPass (s : State) (g : Nat) : Bool := decide (s.rdF .vltStatus g 0 0 2 ≠ 0)

/-- Items of the pass that a bank starts next (R200, R201): a master pass takes the batch in hand, one group at a time in
the warm and hot bands; any other pass a new batch. -/
def State.passSize (s : State) (g : Nat) (x : LaneDesc) (b : Nat) (k : LaneBank) : Nat :=
  let warm := s.shortPass g
  let left := x.items b - k.next
  if x.op = 0x40 then
    (if k.master then (if warm then min 1 (k.size - k.sub) else k.size - k.sub)
     else min left (if warm ∨ x.groups = 1 then 1 else 2))
  else min left (if x.op = 0x42 then (if warm then 2 else 4) else if warm then 8 else 16)

/-- The items of the pass of a bank. -/
def LaneBank.passItems (k : LaneBank) (x : LaneDesc) (b n : Nat) : List Nat :=
  (List.range n).map (fun i => x.item b (k.next + (if k.master then k.sub else 0) + i))

/-- Slots that a group's pass reads (R198, R209, R210). -/
def LaneDesc.readSlots (x : LaneDesc) (master : Bool) : List Nat :=
  if master then [4, 5, 6, 7, 8, 9, 10, 11]
  else (if x.fg.fmt = some .fp32 then [0, 1, 2, 3] else [0, 1]) ++ [4, 5, 6, 7]

/-- Lines of a pass set, in the order in which they are read. -/
def LaneBank.passLines (k : LaneBank) (x : LaneDesc) (b n : Nat) : List Nat :=
  if x.op = 0x40 then (k.passItems x b n).flatMap (fun i => (x.readSlots k.master).map (groupLine x.base i))
  else k.passItems x b n

/-- May a pass claim a line (R203, R207): it is not locked, but for the line whose recompute this pass belongs to; its page
is not migrating, and its frame not fenced for write-back. -/
def State.mayClaim (s : State) (g : Nat) (rcmp : Bool) (l : Nat) : Bool :=
  (!s.locked g l || (rcmp && s.rcmpFor g g l))
    && !s.migrating g l
    && !(s.frame g (linePage l)).fenced

/-- A bank's next pass set must wait for the end of a page migration or of a fence (R207). -/
def State.passBarred (s : State) (g : Nat) (x : LaneDesc) (b : Nat) (k : LaneBank) : Bool :=
  (k.passLines x b (s.passSize g x b k)).any (fun l => s.migrating g l || (s.frame g (linePage l)).fenced)

/-- Banks that wait for a token (R202, R207). -/
def State.laneWaiters (s : State) (g : Nat) (j : LaneJob) (x : LaneDesc) : List Nat :=
  (List.range 128).filter (fun b =>
    let k := SMap.get (fun _ => LaneBank.zero) j.banks b
    k.pending x b && !k.token && k.claimed.isNone && k.failed.isNone && !s.passBarred g x b k)

/-- The bank whose last pass ended earliest, the lowest of equals (R202). -/
def Lane.earliest (n : Lane) (bs : List Nat) : Option Nat :=
  let t := SMap.get (fun _ => 0) n.ended
  bs.foldl (fun o b => match o with
    | some a => if t b < t a then some b else o
    | none => some b) none

/-- LANE_TOKEN_GRANT (R202, R37, R451): a free token goes to the bank that has waited longest since a pass. `units` is the
allowance that the power controller now grants the vault controller island from the DRAM pool; `waitCycles` are the array cycles
that banks waited for tokens, which count only where a bank waits. -/
def execLaneTokenGrant (core units waitCycles : Nat) (s : State) : Host.Outcome State Fault Refusal :=
  .next (if !s.running core || (s.core core).saveReq then s
    else
      let s0 := { s with pwr := { s.pwr with lanes := SMap.set (fun _ => 328) s.pwr.lanes (core / 16) (min units 328) } }
      match (s0.core core).lane.job with
      | none => s0
      | some j =>
        let x := s0.laneParse core j.desc
        match (s0.core core).lane.earliest (s0.laneWaiters core j x) with
        | none => s0
        | some b =>
          let s1 := s0.bump .laneGrantWaitCnt core waitCycles
          let cap := min (min 32 (s1.lanesMax core).1) (min x.lanes (s1.laneShare core))
          if j.tokens < cap then s1.updLaneBank core b (fun k => { k with token := true }) else s1)

/-! ## Claim and read -/

/-- What a lane's read of its pass set shows: every line good, or the first that is not (its place, its line as read). -/
def State.laneRead (s : State) (g : Nat) (errs : List (Nat × List Nat)) :
    List Nat → Nat → List LaneLine → List LaneLine ⊕ (Nat × RawLine)
  | [], _, acc => .inl acc.reverse
  | l :: ls, i, acc =>
    let r := (s.rawLine g l).flip (((errs.find? (fun e => e.1 == i)).map (fun e => e.2)).getD [])
    if r.ok && !r.poison && !r.test then State.laneRead s g errs ls (i + 1) (⟨l, r.tag, r.crc, r.flags, r.data⟩ :: acc)
    else .inr (l, r)

/-- The token of an abandoned or ended pass returns (R202). -/
def State.returnToken (s : State) (g b : Nat) : State :=
  s.updLaneBank g b (fun k => { k with token := false, claimed := none, written := false, waits := false })

/-- A pass of a bank has ended: the last of the vault so far (R202). -/
def State.passEnded (s : State) (g b : Nat) : State :=
  s.updLane g (fun l => { l with passes := l.passes + 1, ended := SMap.set (fun _ => 0) l.ended b (l.passes + 1) })

/-- A line of the pass set cannot be used (R204): the pass is abandoned. A line that fails its check goes to the
controller, unless it is the one under recompute here; a POISON or TEST line stops the bank. -/
def State.laneReadFail (s : State) (g b l : Nat) (r : RawLine) : State :=
  let req : VltReq := ⟨vltIsland g, l, false, 0, 0, [], none, false⟩
  let s1 := (s.returnToken g b).updLaneBank g b (fun k => { k with failed := some l })
  if !r.ok ∧ !s1.locked g l then s1.lineFail g req r true
  else if r.ok ∧ r.test ∧ !r.poison then
    (s1.lineRecord g (noLock l req r true .refetch) .vltTest 5 0xF).laneSettle g l false
  else if r.ok then (s1.poisonRead g req r).laneSettle g l false
  else s1.laneSettle g l false

/-- Bytes of a line, as the hash takes it: two blocks. -/
def hashLine (h : List Nat) (data : List Nat) : List Nat := shaBlock (shaBlock h (data.take 64)) (data.drop 64)

/-- A pass of `n` items is claimed: its lines stand in the first line buffers, its constants in K0 to K15, which hold the hash state
for DIGEST. ZERO reads nothing: its buffers hold what it is to write. -/
def State.laneClaim (s : State) (g b : Nat) (x : LaneDesc) (n : Nat) (got : List LaneLine) : State :=
  (s.updLaneBank g b (fun k => { k with part := n, claimed := some got.length })).updLaneUnit g b (fun u => { u with
    k := if x.op = 0x42 then u.k else packK x.consts, lb := got ++ u.lb.drop got.length })

/-- LANE_PASS_CLAIM (R199, R203, R204, R207): the bank's lane claims its pass set and reads it. `errs` gives the error
pattern of a read by its place in the reading order. A set that may not be claimed returns the token. A DIGEST pass
releases its set when it has read it (R208). -/
def execLanePassClaim (core bank : Nat) (errs : List (Nat × List Nat)) (s : State) : Host.Outcome State Fault Refusal :=
  .next (match (s.core core).lane.job with
    | none => s
    | some j =>
      let k := s.laneBank core bank
      let x := s.laneParse core j.desc
      if !s.running core || (s.core core).saveReq || !k.token || k.claimed.isSome || !k.pending x bank then s
      else
        let n := s.passSize core x bank k
        let ls := k.passLines x bank n
        if !ls.all (s.mayClaim core j.rcmp) then s.returnToken core bank
        else if x.op = 0x43 then s.laneClaim core bank x n (ls.map (fun l => ⟨l, 0, 0, 0, List.replicate 128 0⟩))
        else match s.laneRead core errs ls 0 [] with
          | .inl got =>
            let s1 := s.laneClaim core bank x n got
            if x.op = 0x42 then s1.boundaryRefresh core bank else s1
          | .inr p => (s.laneReadFail core bank p.1 p.2).laneClose core)

/-! ## Compute and write -/

/-- A line that a lane writes. -/
structure LaneWrite where
  line : Nat
  data : List Nat
  merged : Bool
  deriving DecidableEq, Repr

/-- What a pass computes: its output lines in writing order, groups gated, tag skews (group, the tags read), census. -/
structure PassOut where
  outs : List LaneWrite
  gated : Nat
  skews : List (Nat × List Nat)
  counts : List Census
  deriving DecidableEq, Repr

def PassOut.zero : PassOut := ⟨[], 0, [], [Census.zero, Census.zero, Census.zero]⟩

/-- A line of the pass set as it was read. -/
def gotLine (got : List LaneLine) (l : Nat) : LaneLine := (got.find? (fun x => x.line == l)).getD ⟨l, 0, 0, 0, []⟩

/-- The `e`th word of `w` bytes of a line. -/
def wordAt (data : List Nat) (w e : Nat) : Nat := leNat ((data.drop (w * e)).take w)

/-- An operand as the lane decodes it (R55, R191) with the events of the read. -/
def laneOperand (x : FmtField) (code : Nat) : Num × Census :=
  match x.fmt with
  | some f =>
    let r := decodeRead f code 127 x.coarse
    (r.1, { Census.zero with ovf := if r.2.1 then 1 else 0, ftz := if r.2.2 then 1 else 0 })
  | none => (Num.zero, Census.zero)

/-- A result converted to a 16-bit or FP32 format (R60). -/
def laneConvert (cx : WoCtx) (x : FmtField) (v : Num) (index : Nat) : Nat × Census :=
  writeElem cx 127 ⟨v, f32Mul v (recipCoarse x.coarse), index⟩

/-- One element of the moment pass (R209): the codes of M and V, and the counts of the M and V sets. -/
def momentElem (x : LaneDesc) (cm cv : WoCtx) (g m v index : Nat) : (Nat × Nat) × Census × Census :=
  let dg := laneOperand x.fg g
  let dm := laneOperand x.fm m
  let dv := laneOperand x.fv v
  let a := f32Sub Num.one (x.const 1)
  let b := f32Sub Num.one (x.const 2)
  let g1 := f32Mul (x.const 7) dg.1
  let m1 := f32Fma (x.const 1) dm.1 (f32Mul a g1)
  let v1 := f32Fma (x.const 2) dv.1 (f32Mul b (f32Mul g1 g1))
  let wm := laneConvert cm x.fm m1 index
  let wv := laneConvert cv x.fv v1 index
  ((wm.1, wv.1), ((dg.2.add dm.2).add dv.2).add wm.2, wv.2)

/-- One element of the master pass (R210): the FP32 bits of `w1`, the reads' events (M set) and the master set. -/
def masterElem (x : LaneDesc) (m v hi lo : Nat) : Nat × Census × Census :=
  let dm := laneOperand x.fm m
  let dv := laneOperand x.fv v
  let mh := f32Mul dm.1 (x.const 5)
  let vh := f32Mul dv.1 (x.const 6)
  let d := f32Add (f32Sqrt vh) (x.const 3)
  let u := f32Div mh d
  let w := Num.ofF32 (hi * 2 ^ 16 + lo)
  let w1 := f32Fma (x.const 0).neg (f32Fma (x.const 4) w u) w
  (w1.toF32, dm.2.add dv.2,
    { Census.zero with elem := 1, ovf := if w.isFin && w1.isInf then 1 else 0, nan := if w1.isNan then 1 else 0 })

/-- Elements of group `i` that the descriptor updates (R193 VALID_LAST). -/
def LaneDesc.validIn (x : LaneDesc) (i : Nat) : Nat := if i + 1 = x.count then x.last else 128

/-- A line of 64 words with its first words replaced. -/
def wordsLine (old : List Nat) (ws : List Nat) : List Nat := (ws.flatMap (leBytes 2)) ++ old.drop (2 * ws.length)

/-- The two lines of 64 words each, at slots `a` and `a + 1`, from new words and what was read; MERGED where a line is
written in part (R206). -/
def slotPair (x : LaneDesc) (got : List LaneLine) (i a : Nat) (ws : List Nat) : List LaneWrite :=
  [⟨groupLine x.base i a, wordsLine (gotLine got (groupLine x.base i a)).data (ws.take 64), decide (ws.length < 64)⟩,
   ⟨groupLine x.base i (a + 1), wordsLine (gotLine got (groupLine x.base i (a + 1))).data (ws.drop 64),
    decide (ws.length < 128)⟩]

/-- Words of a pair of slots, or of four with FP32 words, as read. -/
def pairData (x : LaneDesc) (got : List LaneLine) (i : Nat) (ss : List Nat) : List Nat :=
  ss.flatMap (fun s => (gotLine got (groupLine x.base i s)).data)

/-- The moment pass on one group (R209). -/
def momentGroup (x : LaneDesc) (cm cv : WoCtx) (got : List LaneLine) (i : Nat) (p : PassOut) : PassOut :=
  let w := if x.fg.fmt = some .fp32 then 4 else 2
  let gd := pairData x got i (if w = 4 then [0, 1, 2, 3] else [0, 1])
  let md := pairData x got i [4, 5]
  let vd := pairData x got i [6, 7]
  let es := (List.range (x.validIn i)).map (fun e =>
    momentElem x cm cv (wordAt gd w e) (wordAt md 2 e) (wordAt vd 2 e) (x.elem + 128 * i + e))
  let cM := es.foldl (fun c e => c.add e.2.1) (p.counts.getD 0 Census.zero)
  let cV := es.foldl (fun c e => c.add e.2.2) (p.counts.getD 1 Census.zero)
  { p with outs := p.outs ++ slotPair x got i 4 (es.map (fun e => e.1.1)) ++ slotPair x got i 6 (es.map (fun e => e.1.2))
           counts := [cM, cV, p.counts.getD 2 Census.zero] }

/-- The master pass on one group: LO, then HI (R210). -/
def masterGroup (x : LaneDesc) (got : List LaneLine) (i : Nat) (p : PassOut) : PassOut :=
  let md := pairData x got i [4, 5]
  let vd := pairData x got i [6, 7]
  let hd := pairData x got i [8, 9]
  let ld := pairData x got i [10, 11]
  let es := (List.range (x.validIn i)).map (fun e =>
    masterElem x (wordAt md 2 e) (wordAt vd 2 e) (wordAt hd 2 e) (wordAt ld 2 e))
  let cM := es.foldl (fun c e => c.add e.2.1) (p.counts.getD 0 Census.zero)
  let cW := es.foldl (fun c e => c.add e.2.2) (p.counts.getD 2 Census.zero)
  { p with outs := p.outs ++ slotPair x got i 10 (es.map (fun e => e.1 % 2 ^ 16))
                     ++ slotPair x got i 8 (es.map (fun e => e.1 / 2 ^ 16))
           counts := [cM, p.counts.getD 1 Census.zero, cW] }

/-- What the tag gate decides for a group (R234). -/
inductive Gate where
  | compute
  | done
  | skew
  deriving DecidableEq, Repr

/-- The tag gate: tags of the moments, tags of the other lines that the pass reads, the step tag. -/
def tagGate (master : Bool) (mv oth : List Nat) (t : Nat) : Gate :=
  let t1 := (t + 2 ^ 16 - 1) % 2 ^ 16
  if master then
    (if mv.all (· == t) ∧ oth.all (· == t1) then .compute
     else if mv.all (· == t) ∧ oth.all (· == t) then .done else .skew)
  else if mv.all (· == t1) ∧ oth.all (· == t) then .compute
  else if mv.all (· == t) then .done
  else .skew

/-- One group of an OPTIM pass under the gate. -/
def optimGroup (x : LaneDesc) (cm cv : WoCtx) (t : Nat) (master : Bool) (got : List LaneLine) (p : PassOut) (i : Nat) :
    PassOut :=
  let tag := fun s => (gotLine got (groupLine x.base i s)).tag
  let mv := [4, 5, 6, 7].map tag
  let oth := ((x.readSlots master).filter (fun s => decide (s < 4 ∨ 7 < s))).map tag
  match (if x.noTag then Gate.compute else tagGate master mv oth t) with
  | .compute => if master then masterGroup x got i p else momentGroup x cm cv got i p
  | .done => { p with gated := p.gated + 1 }
  | .skew => { p with skews := p.skews ++ [(i, mv ++ oth)] }

/-- SCALE on one line (R214): `n` is the line's number in the range. -/
def scaleLine (x : LaneDesc) (cx : WoCtx) (p : PassOut) (l : LaneLine) : PassOut :=
  let w := if x.fg.fmt = some .fp32 then 4 else 2
  let per := 128 / w
  let es := (List.range per).map (fun k =>
    let d := laneOperand x.fg (wordAt l.data w k)
    let r := laneConvert cx x.fg (f32Mul (x.const 0) d.1) (x.elem + (l.line - x.base) * per + k)
    (r.1, d.2.add r.2))
  { p with outs := p.outs ++ [⟨l.line, es.flatMap (fun e => leBytes w e.1), false⟩]
           counts := [es.foldl (fun c e => c.add e.2) (p.counts.getD 0 Census.zero)] }

/-- What the pass in hand of a bank writes. -/
def State.passCompute (s : State) (g : Nat) (j : LaneJob) (x : LaneDesc) (b : Nat) (k : LaneBank) (got : List LaneLine) :
    PassOut :=
  let cx := fun (f : FmtField) => s.woCtx g (f.fmt.getD .fp32) f
  if x.op = 0x40 then
    (k.passItems x b k.part).foldl (optimGroup x (cx x.fm) (cx x.fv) j.tag k.master got) PassOut.zero
  else if x.op = 0x41 then got.foldl (scaleLine x (cx x.fg)) PassOut.zero
  else { PassOut.zero with outs := got.map (fun l => ⟨l.line, List.replicate 128 0, false⟩) }

/-- A line of a write phase as the lane writes it (R197, R205). -/
def LaneJob.outLine (j : LaneJob) (x : LaneDesc) (got : List LaneLine) (o : LaneWrite) : RawLine :=
  freshLine o.data (if x.noTag ∧ x.op ≠ 0x43 then (gotLine got o.line).tag else j.tag) (if o.merged then 3 else 1)

/-- One line of a write phase (R205): data, tag, flags and CRC together. -/
def State.laneStore (s : State) (g : Nat) (j : LaneJob) (x : LaneDesc) (got : List LaneLine) (o : LaneWrite) : State :=
  (s.noteWrite g o.line).putRaw (s.lineKey g o.line) (j.outLine x got o)

/-- The line buffers after the write phase hold the lines as written (R190). -/
def LaneJob.outBuffer (j : LaneJob) (x : LaneDesc) (got : List LaneLine) (outs : List LaneWrite) (l : LaneLine) : LaneLine :=
  match outs.find? (fun o => o.line == l.line) with
  | some o =>
    let r := j.outLine x got o
    ⟨l.line, r.tag, r.crc, r.flags, r.data⟩
  | none => l

/-- A tag skew (R235, R517): counted, recorded, and the bank stops. -/
def State.tagSkew (s : State) (g : Nat) (j : LaneJob) (x : LaneDesc) (b : Nat) (master : Bool) (k : Nat × List Nat) : State :=
  let t := fun n => k.2.getD n 0
  let hi := if master then t 4 else 0
  let lo := if master then t 6 else 0
  let p := Payload.gen 0 0 (if master then 0 else t 4) (b + (if master then 256 else 0) + j.tag * 2 ^ 16)
    (t 0 + t 2 * 2 ^ 16 + hi * 2 ^ 32 + lo * 2 ^ 48) (vaultAddr s.pkg g (128 * groupLine x.base k.1 0))
  let s1 := (s.bump .coreTagSkewCnt g 1).queue .trnTagSkew (vltIsland g) (some g) p
  (((s1.updLaneBank g b (fun k => { k with stopped := true })).wrF .laneStatus g 0 7 1 1).wrF .laneStatus g 0 8 7 b).withhold g

/-- Counts of a lane descriptor after a write phase: a 32-bit counter that carries adds to its total at once (R72, R213). -/
def State.laneCarry (s : State) (g : Nat) (j : LaneJob) (x : LaneDesc) (counts : List Census) : State :=
  if j.rcmp then s
  else forEach ((j.sets x).zip ({ j with counts := counts }.sets x)) (fun p s => s.carryTotals g j.eval p.1.counts p.2) s

/-- A0 to A3 of the 16 units after a compute phase: working values that the spec does not give (R190, log entry 110). -/
def State.laneAccs (s : State) : List Nat := (List.range 64).map (fun i => (Config.laneAcc (s.freeIx + i)).toNat)

/-- LANE_PASS_WRITE (R190, R199, R205, R209 to R214, R216, R234, R235, R408): the lane computes from what it read and writes
every output line whole, once no page needs a snapshot frame that is not free. -/
def execLanePassWrite (core bank : Nat) (s : State) : Host.Outcome State Fault Refusal :=
  .next (match (s.core core).lane.job with
    | none => s
    | some j =>
      let k := s.laneBank core bank
      let x := s.laneParse core j.desc
      match s.claimedSet core bank with
      | none => s
      | some got =>
        if k.written || x.op == 0x42 || !s.vaultUp core then s
        else
          let r := s.passCompute core j x bank k got
          let held := (r.outs.filter (fun o => s.snapHeld core (linePage o.line))).length
          if 0 < held then
            (if k.waits then s else
              (s.bump .hubSnapWaitCnt 0 held).updLaneBank core bank (fun k => { k with waits := true }))
          else
          let s1 := forEach r.outs (fun o s => s.laneStore core j x got o) s
          let s2 := forEach r.skews (fun q s => s.tagSkew core j x bank k.master q) (s1.bump .coreTagGateCnt core r.gated)
          let counts := (j.counts.zip (r.counts ++ List.replicate 3 Census.zero)).map (fun p => p.1.add p.2)
          let computes := x.op == 0x40 || x.op == 0x41
          let s3 := { s2.laneCarry core j x counts with freeIx := s2.freeIx + (if computes then 64 else 0) }
          let s4 := s3.updLaneUnit core bank (fun u => { u with
            acc := if computes then s2.laneAccs else u.acc
            lb := (u.lb.take got.length).map (j.outBuffer x got r.outs) ++ u.lb.drop got.length })
          s4.updLane core (fun l => { l with job := l.job.map (fun j =>
            { j.updBank bank (fun k => { k with written := true }) with counts := counts }) }))

/-! ## Boundary -/

/-- Progress of a bank after a pass (R200, R201). -/
def LaneBank.advance (k : LaneBank) (x : LaneDesc) : LaneBank :=
  if x.op = 0x40 then
    (if k.master then
      (if k.sub + k.part < k.size then { k with sub := k.sub + k.part, part := 0 }
       else { k with next := k.next + k.size, size := 0, sub := 0, part := 0, master := false })
     else { k with size := k.part, sub := 0, part := 0, master := true })
  else { k with next := k.next + k.part, part := 0 }

/-- LANE_PASS_BOUNDARY (R199, R202, R203, R208, R215): the token returns, refresh debt is repaid, waiting requests are
served; the last pass completes the descriptor. `actCycles` are the array cycles for which the token was held. -/
def execLanePassBoundary (core bank actCycles : Nat) (s : State) : Host.Outcome State Fault Refusal :=
  .next (match (s.core core).lane.job with
    | none => s
    | some j =>
      let k := s.laneBank core bank
      let x := s.laneParse core j.desc
      match s.claimedSet core bank with
      | none => s
      | some got =>
        if !(k.written || x.op == 0x42) then s
        else
          let s1 := (s.bump .lanePassCnt core 1).bump .laneActCycCnt core actCycles
          let h := packK (got.foldl (fun h l => hashLine h l.data) (s.bankHash core bank))
          let s1' := if x.op = 0x42 then s1.updLaneUnit core bank (fun u => { u with k := h }) else s1
          let s2 := ((s1'.updLaneBank core bank (fun k => { k.advance x with waiting := [] })).returnToken core
            bank).passEnded core bank
          let s3 := if x.op = 0x42 then s2 else s2.boundaryRefresh core bank
          (s3.serveWaiting core k.waiting).laneClose core)

end Sys2Proof.Machine
end

