-- ==== Sys2Proof/Machine/Tiers.lean ====
section
/-! DEFINITION. The tier manager and direct flash: tables, requests, promotion, write-back, stream windows, stripe units,
blocks and wear (R250 to R280). -/

namespace Sys2Proof.Machine

/-! ## Objects -/

def State.updTier (s : State) (f : Tier → Tier) : State := { s with tier := f s.tier }
def State.setObj (s : State) (o : Nat) (x : TierObj) : State :=
  s.updTier (fun t => { t with objs := SMap.set (fun _ => none) t.objs o (some x) })
def State.updObj (s : State) (o : Nat) (f : TierObj → TierObj) : State :=
  match s.obj o with
  | some x => s.setObj o (f x)
  | none => s
/-- A violation of the tier manager's range rules (R250, R256, R279). -/
def State.tierViol (s : State) (op seq field value : Nat) : State := s.viol .tierViolCnt 0 op seq field value

def ObjState.code : ObjState → Nat
  | .cold => 0 | .promoting => 1 | .resident => 2 | .cleaning => 3 | .evicting => 4

def ObjState.transit : ObjState → Bool
  | .promoting | .cleaning | .evicting => true
  | _ => false

/-- The frames of an object. -/
def TierObj.frames (x : TierObj) : List (Nat × Nat) := match x.res with
  | some (g, p) => (List.range x.pages).map (fun i => (g, p + i))
  | none => []

/-- The frame of page `i`. -/
def TierObj.frameOf (x : TierObj) (i : Nat) : Nat × Nat := match x.res with
  | some (g, p) => (g, p + i)
  | none => (0, 4096)

/-- First page of a vault that is not a staging frame or reserved: the two staging frames lie below the retirement reserve
(R253). -/
def State.stagingPage (s : State) (g n : Nat) : Nat := 4096 - min (s.rdF .vltRetireRsv g 0 0 3) 4 - 1 - n

/-- A residence or slot address: a vault address of this package, 2 MiB aligned (R251). -/
def State.pageAddr (s : State) (a : Nat) : Option (Nat × Nat) :=
  if addrPkg a ≠ s.pkg then none
  else match locOf a with
    | .vault g b => if b % 2 ^ 21 = 0 then some (g, b / 2 ^ 21) else none
    | _ => none

/-- Read an object table entry (R250, R251): the object, when valid, and the violations. The first flash page of a flash object is hub
firmware's to assign: 4096 times its identifier (DESIGN CHOICE, log entry 114). -/
def State.readObj (s : State) (i w : Nat) : Option TierObj × List Viol :=
  let valid := dfld w 0 0 1 == 1
  let k0 := dfld w 0 1 2
  let kind := if k0 = 3 then 1 else k0
  let h0 := dfld w 0 3 2
  let home := if kind = 2 then 2 else h0
  let pg := dfld w 4 0 32
  let pages := min pg 4090
  let ra := dfld w 8 0 64
  let res := if ra = 0 then none else s.pageAddr (ra % 2 ^ 56)
  let badRes := match res with
    | some (_, p) => decide (4090 < p + pages)
    | none => ra != 0
  let bad := (kind != 2 && decide (2 ≤ h0)) || pg == 0 || badRes
  let vs : List Viol := (if k0 = 3 then [⟨0, 3⟩] else []) ++ (if kind ≠ 2 ∧ 2 ≤ h0 then [⟨0, h0⟩] else [])
    ++ (if pg = 0 ∨ 4090 < pg then [⟨4, pg⟩] else []) ++ (if badRes then [⟨8, ra⟩] else [])
  if !valid then (none, [])
  else if bad then (none, vs)
  else (some ⟨kind, home, dfld w 2 0 16, pages, res, dfld w 16 0 64 % 2 ^ 56,
    if home = 0 then 4096 * i else dfld w 24 0 32, .cold, 0, [], [], [], [], 0, false, false, 0⟩, vs)

/-- Read a stream window entry (R264, R35). -/
def State.readWin (s : State) (w : Nat) : Option Window × List Viol :=
  let d0 := dfld w 1 0 8
  let d := max d0 1
  let g := 16 * dfld w 2 4 3 + dfld w 2 0 4
  let la := dfld w 16 0 64 % 2 ^ 56
  let sp0 := dfld w 12 0 32
  if dfld w 0 0 1 = 0 then (none, [])
  else
    let dv : List Viol := (if dfld w 0 1 1 = 1 ∧ !s.expert 7 then [⟨0, dfld w 0 0 8⟩] else []) ++ (if d0 = 0 then [⟨1, 0⟩] else [])
    if dfld w 4 0 16 = 0 then (none, dv ++ [⟨4, 0⟩])
    else if dfld w 8 0 32 = 0 then (none, dv)
    else
      let lv : List Viol := if la % 2 = 0 then [] else [⟨16, la⟩]
      match s.pageAddr (dfld w 24 0 64 % 2 ^ 56) with
      | none => (none, dv ++ lv ++ [⟨24, dfld w 24 0 64⟩])
      | some (h, p) =>
        if h ≠ g then (none, dv ++ lv ++ [⟨24, dfld w 24 0 64⟩])
        else
          let mx := (s.stagingPage g 1 - p) / d
          let sv : List Viol := if mx < sp0 then [⟨12, sp0⟩] else []
          (some ⟨dfld w 0 1 1 == 1 && s.expert 7, d, g, dfld w 2 4 3, dfld w 3 0 8, dfld w 4 0 16, dfld w 6 0 8,
            dfld w 8 0 32, min sp0 mx, la / 2 * 2, p, dfld w 32 0 16, 0, false, g, false, 0⟩, dv ++ lv ++ sv)

/-- Pages of a window's slots. -/
def Window.slotFrames (w : Window) (g : Nat) : List (Nat × Nat) :=
  (List.range (w.depth * w.pages)).map (fun i => (g, w.base + i))

/-- The tier manager reads its tables when the image is sealed (R250, R264, R279). What flash holds stays. -/
def State.tierLoad (s : State) : State :=
  let ws := s.rdF .tierCtl 0 0 0 3
  let n := s.rdF .tierObjCount 0 0 0 14
  let nw := s.rdF .tierWinCount 0 0 0 7
  let s0 := if ws = 0 ∨ 4 < ws then s.tierViol 0xFF 0xFFFFFFFF 0xFF ws else s
  let s1 := if 8192 < n then s0.tierViol 0xFF 0xFFFFFFFF 0xFF n else s0
  let s2 := if 64 < nw then s1.tierViol 0xFF 0xFFFFFFFF 0xFF nw else s1
  let t := { s2.tier with objs := [], wins := [], fetch := [], staging := [], arrivals := [], lastWin := [] }
  let s3 := { s2 with frames := [], tier := t }
  let ob := s.rd .tierObjTableBase 0 0 / 32 * 32 % 2 ^ 56
  let wb := s.rd .tierWinTableBase 0 0 / 64 * 64 % 2 ^ 56
  let s4 := forUpTo (min n 8192) (fun i s =>
    let r := s.readObj i (s.natAt (ob + 32 * i) 32)
    let t := forEach r.2 (fun v s => s.tierViol 0xFF 0xFFFFFFFF v.field v.value) s
    match r.1 with
    | some x => forEach x.frames (fun p s => s.setFrame p.1 p.2 .free) (t.setObj i x)
    | none => t) s3
  forUpTo (min nw 64) (fun i s =>
    let r := s.readWin (s.natAt (wb + 64 * i) 64)
    let t := forEach r.2 (fun v s => s.tierViol 0xFF 0xFFFFFFFF v.field v.value) s
    match r.1 with
    | some w => forEach (w.slotFrames w.home) (fun p s => s.setFrame p.1 p.2 .slot)
        (t.updTier (fun t => { t with wins := t.wins ++ [w] }))
    | none => t) s4

/-! ## Home tiers -/

/-- Key of a byte of a line in flash. -/
def flashKey (o page line b : Nat) : Nat := ((o * 4096 + page) * 2 ^ 14 + line) * 132 + b

/-- A line of the home tier in flash: data, tag, flags (R271). -/
def State.flashLine (s : State) (o page line : Nat) : Nat × Nat × List Nat :=
  let bs := SMap.getRange (fun _ => 0) s.tier.flash (flashKey o page line 0) 132
  (leNat ((bs.drop 128).take 2), bs.getD 130 0, bs.take 128)

def State.putFlash (s : State) (o page line tag flags : Nat) (data : List Nat) : State :=
  let bs := data.take 128 ++ leBytes 2 tag ++ [flags % 256, 0]
  s.updTier (fun t => { t with flash := SMap.setRange (fun _ => 0) t.flash (flashKey o page line 0) bs })

/-- Channel of a stripe unit (R271). -/
def unitChannel (page unit : Nat) : Nat := (unit + 4 * (page % 4)) % 16

/-- Key of a stripe unit in the tier directory. -/
def unitKey (o page unit : Nat) : Nat := (o * 4096 + page) * 132 + unit
/-- What the tier directory gives for a unit never programmed: no block of the card. -/
def noBlock (_ : Nat) : Nat := 2 ^ 30
/-- Block of a stripe unit. A block number holds its LUN's number, 16 channel + 4 target + LUN, above its low 16 bits. -/
def State.unitBlock (s : State) (o page unit : Nat) : Nat := SMap.get noBlock s.tier.dir (unitKey o page unit)
/-- A stripe unit is programmed into a block: its header, with the next program sequence number, and its directory entry (R270,
R271). -/
def State.setUnitBlock (s : State) (k b : Nat) : State :=
  s.updTier (fun t => { t with
    dir := SMap.set noBlock t.dir k b
    progSeq := t.progSeq + 1
    heads := SMap.upd (fun _ => []) t.heads b (fun h => h ++ [(k, t.progSeq + 1)]) })
/-- The tier directory as the unit headers give it: a unit lies where it was programmed last (R270). -/
def rebuildDir (heads : SMap (List (Nat × Nat))) : SMap Nat :=
  let best := heads.foldl (fun m e => e.2.foldl (fun m h =>
    if (SMap.get (fun _ => ((0, 0) : Nat × Nat)) m h.1).1 < h.2 then SMap.set (fun _ => (0, 0)) m h.1 (h.2, e.1) else m) m)
    ([] : SMap (Nat × Nat))
  best.map (fun e => (e.1, e.2.2))
def blockLun (b : Nat) : Nat := b / 2 ^ 16
def State.lun (s : State) (l : Nat) : Option Lun := SMap.get (fun _ => none) s.tier.luns l
/-- The blocks of a LUN that firmware knows. -/
def State.lunBlocks (s : State) (l : Nat) : List Nat := match s.lun l with
  | some x => (List.range x.blocks).map (fun i => l * 2 ^ 16 + i)
  | none => []
def State.eraseCount (s : State) (b : Nat) : Nat := SMap.get (fun _ => 0) s.tier.erases b
def State.headsOf (s : State) (b : Nat) : List (Nat × Nat) := SMap.get (fun _ => []) s.tier.heads b
/-- A block that takes units: good, and neither a spare nor the block of its LUN's bad-block table (R276). -/
def State.blockUsed (s : State) (b : Nat) : Bool :=
  !s.tier.badBlocks.contains b && (match s.lun (blockLun b) with
    | some x => decide (b < blockLun b * 2 ^ 16 + x.blocks) && !x.spareBlocks.contains b && b != x.table
    | none => false)
/-- A fresh block: one that takes units, with nothing programmed since its last erase. -/
def State.blockFresh (s : State) (b : Nat) : Bool := s.blockUsed b && (s.headsOf b).isEmpty
/-- A block that takes one more unit of a channel: of the channel, and not full (R271). -/
def State.blockTakes (s : State) (ch b : Nat) : Bool :=
  blockLun b / 16 == ch && s.blockUsed b
    && (match s.lun (blockLun b) with
      | some x => decide ((s.headsOf b).length < x.perBlock)
      | none => false)
/-- The block of lowest erase count among those of a list; the first of equals. -/
def State.leastWorn (s : State) (bs : List Nat) : Option Nat :=
  bs.foldl (fun m b => match m with
    | none => some b
    | some c => if s.eraseCount b < s.eraseCount c then some b else m) none
/-- The fresh block that a LUN uses next. -/
def State.freshBlock (s : State) (l : Nat) : Option Nat := s.leastWorn ((s.lunBlocks l).filter s.blockFresh)
/-- Where hub firmware programs a unit of a channel that hub DMA loads (R271 leaves the choice to it): the first block begun that has
room, else the fresh block of the first LUN that has one (DESIGN CHOICE, log entry 114). -/
def State.pickBlock (s : State) (ch : Nat) : Option Nat :=
  let ls := (List.range 16).map (fun i => 16 * ch + i)
  match ls.findSome? (fun l => (s.lunBlocks l).find? (fun b => s.blockTakes ch b && !(s.headsOf b).isEmpty)) with
  | some b => some b
  | none => ls.findSome? s.freshBlock
/-- The trained rate of the channels, once one is up (R269, R279): the spec leaves it to training (log entry 2). -/
def State.trainRate (s : State) : State :=
  (s.wrF .tierStatus 0 0 16 4 (if s.rdF .tierStatus 0 0 0 16 = 0 then 0 else 1 + Config.freeChoice 5 s.freeIx % 5)).fresh 1

/-- Lines that a failed block makes POISON: 32 lines of a data unit, 4,096 of a metadata unit (R274). -/
def Fetch.lost (f : Fetch) (line : Nat) : Bool :=
  f.units.any (fun e => match e.2 with
    | some u => u.done && !u.bad.isEmpty &&
        (if e.1 < 128 then line / 128 == e.1 && u.bad.contains (line % 128 / 32) else line / 4096 == e.1 - 128)
    | none => false)

/-- A page read from flash is complete (R272). -/
def Fetch.complete (f : Fetch) : Bool := decide ((f.units.filter (fun e => match e.2 with
  | some u => u.done
  | none => false)).length = 132)

def State.fetchOf (s : State) (dst o page : Nat) : Option Fetch :=
  s.tier.fetch.find? (fun f => f.dst == dst && f.obj == o && f.page == page)

/-- Store a page as its home tier holds it (R260): flash, delivered remote lines (line, tag, flags, data), or zeros for a
scratch object by the ZERO kernel. The tier manager's own writes change no frame state; a protected page is copied first (R408). -/
def State.storePage (s : State) (o : Nat) (x : TierObj) (page g frame : Nat) (f : Option Fetch)
    (remote : List (Nat × Nat × Nat × List Nat)) : State :=
  (s.snapCopy g frame) |> forUpTo (2 ^ 14) (fun i s =>
    let l := frame * 2 ^ 14 + i
    if x.home = 2 then s.storeLine g l (List.replicate 128 0) (s.stepTag g) 1
    else if x.home = 1 then
      match remote.find? (fun r => r.1 == i) with
      | some (_, t, fl, d) => s.storeLine g l ((d.map (· % 256) ++ List.replicate 128 0).take 128) (t % 2 ^ 16) (fl % 256)
      | none => s.storeLine g l (List.replicate 128 0) 0 0
    else
      let h := s.flashLine o page i
      let lost := (f.map (fun f => f.lost i)).getD false
      s.storeLine g l h.2.2 h.1 (if lost then setBits h.2.1 2 1 1 else h.2.1))

/-- May the tier manager write a page now: no pass set is claimed on it, no line of it is locked or its page migrating, and a snapshot
that protects it has a free frame (R171, R177, R203, R408). -/
def State.pageOpen (s : State) (g page : Nat) : Bool :=
  s.pageQuiet g page && !s.snapHeld g page && !(s.vlt g).locks.any (fun k => linePage k.line == page) && !s.migrating g (page * 2 ^ 14)

/-- Lines of a page that claimed pass sets hold. -/
def State.busyLines (s : State) (g page : Nat) : Nat := match (s.core g).lane.job with
  | some j => (j.banks.map (fun e => ((s.busySet g e.1).filter (fun x => linePage x.line == page)).length)).foldl (· + ·) 0
  | none => 0

/-- The tier manager's writes to pages wait: each for the lines that pass sets hold, and for a snapshot frame (R203, R408). -/
def State.pageWait (s : State) (g : Nat) (pages : List Nat) : State :=
  (s.bump .laneBusyWaitCnt g ((pages.map (s.busyLines g)).foldl (· + ·) 0)).bump .hubSnapWaitCnt 0
    (pages.filter (s.snapHeld g)).length

/-- A read of every page of a remote object goes over the keyway of its BACK field (R273). -/
def State.askRemote (s : State) (o : Nat) (x : TierObj) : State :=
  if x.home = 1 then forEach (List.range x.pages) (fun i s => s.send (.tierRead x.back o i)) s else s

/-! ## Requests (R256 to R259) -/

/-- Status codes of R257. -/
def stDone : Nat := 0
def stHit : Nat := 1
def stAbsent : Nat := 2
def stPinned : Nat := 0x10
def stOccupied : Nat := 0x11
def stBusy : Nat := 0x12
def stInvalid : Nat := 0x20
def stFailed : Nat := 0x30

/-- The status word of a request is stored: DONE_TMB and the descriptor's completion, or the host's completion entry (R257). -/
def State.tierDone (s : State) (a : TierAnswer) : State :=
  let r := a.req
  if r.src < 128 then (if r.tmb = 0xFF then s else s.selfTmb r.src r.tmb 1).descDoneAt r.src r.pos []
  else s.complete (r.src - 128) r.pos a.code 0x60 a.word false (r.src - 128)

/-- The request waits until its status word is stored. -/
def State.tierKeep (s : State) (a : TierAnswer) : State := s.updTier (fun t => { t with answers := t.answers ++ [a] })

/-- A core's status word has been stored when nothing holds the write (R171, R203, R261, R408). -/
def State.statusStored (s : State) (r : TierReq) : Bool := s.writesDone islandH3 (s.linesOf r.status 8)

/-- The gateway takes a host request's status word, or not yet; an address in no window discards it (R256, R366). -/
def State.hostStatus (s : State) (a : TierAnswer) : State :=
  match s.winFor a.req.status 8 1 with
  | some n => match s.hostBound n (a.req.status - (s.winOf n).1) (leBytes 8 a.word) 0 false with
    | (_, .wait) => s.tierKeep a
    | (t, _) => t.tierDone a
  | none => (if a.req.status = 0 then s else s.tierViol 0x60 0xFFFFFFFF 8 a.req.status).tierDone a

/-- Requests whose status word could not be stored before are taken up again, in their order. -/
def State.tierAnswers (s : State) : State :=
  forEach s.tier.answers (fun a s =>
    if 128 ≤ a.req.src then s.hostStatus a
    else if s.statusStored a.req then s.tierDone a
    else s.tierKeep a) (s.updTier (fun t => { t with answers := [] }))

/-- Complete a request (R257, R258): a pin it raised is dropped unless it ends DONE or HIT; status word, then, once that is stored,
DONE_TMB or the host's completion entry. -/
def State.tierFinish (s : State) (r : TierReq) (st : Nat) : State :=
  let s1 := if r.raised ∧ st ≠ stDone ∧ st ≠ stHit then s.updObj r.obj (fun x => { x with pins := x.pins - 1 }) else s
  let w := match s1.obj r.obj with
    | some x => st + x.state.code * 2 ^ 16 + x.pins * 2 ^ 32
    | none => st
  if r.src < 128 then
    let own := addrPkg r.status == s1.pkg && (match locOf r.status with
      | .vault g _ => g == r.src
      | .stage g _ => g == r.src
      | _ => false)
    let s2 := if own then s1.writeAt islandH3 r.status (leBytes 8 w) (s1.stepTag r.src) false
      else s1.tierViol 0x60 r.pos 8 r.status
    if !own || s2.statusStored r then s2.tierDone ⟨r, st, w⟩ else s2.tierKeep ⟨r, st, w⟩
  else s1.hostStatus ⟨r, st, w⟩

/-- Put a request on an object's deferral queue (R258). -/
def State.tierDefer (s : State) (o : Nat) (r : TierReq) : State :=
  (s.updObj o (fun x => { x with deferred := x.deferred ++ [r] })).bump .tierDeferCnt 0 1

/-- The other object of the frame group that is not COLD (R252, R259). -/
def State.groupHolder (s : State) (o : Nat) (x : TierObj) : Option Nat :=
  if x.group = 0 then none
  else (s.tier.objs.find? (fun e => match e.2 with
    | some y => e.1 != o && y.group == x.group && decide (y.state ≠ .cold) && y.res.isSome
    | none => false)).map (fun e => e.1)

/-- Dirty pages of an object; a COLD one has none, whatever occupies the frames that it shares (R252, R261). -/
def State.dirtyPages (s : State) (x : TierObj) : List Nat :=
  if x.state = .cold then []
  else (List.range x.pages).filter (fun i => match s.frame (x.frameOf i).1 (x.frameOf i).2 with
    | .dirty | .fencedDirty => true
    | _ => false)

/-- The frame state of a page just promoted. -/
def TierObj.frameIn (x : TierObj) : Frame := if x.kind = 0 then .frozen else if x.kind = 1 then .clean else .scratch

/-- Fence every frame of an object for its eviction (R262). -/
def State.fenceAll (s : State) (x : TierObj) : State :=
  forEach x.frames (fun p s => match s.frame p.1 p.2 with
    | .dirty => s.setFrame p.1 p.2 .fencedDirty
    | .clean => s.setFrame p.1 p.2 .fencedClean
    | .frozen => s.setFrame p.1 p.2 .fencedFrozen
    | .scratch => s.setFrame p.1 p.2 .fencedScratch
    | _ => s) s

/-- Start a transit of an object for a request. -/
def State.tierStart (s : State) (o : Nat) (x : TierObj) (st : ObjState) (r : TierReq) (promote : Bool) : State :=
  let y := { x with state := st, next := 0, failed := false, waits := false,
                    joined := if promote then [] else [r], promote := if promote then [r] else []
                    round := if st = .cleaning then x.round + 1 else x.round }
  let s1 := s.setObj o y
  if st = .evicting then s1.fenceAll x
  else if st = .promoting then
    (s1.updTier (fun t => { t with arrivals := if x.home = 0 then t.arrivals ++ [o] else t.arrivals })).askRemote o x
  else s1

/-- Where a request would be deferred: on its own object, or on the holder of its frame group. -/
def State.deferTarget (s : State) (r : TierReq) (x : TierObj) : Option Nat :=
  match r.req, x.state with
  | 0, .evicting => some r.obj
  | 0, .cold => match s.groupHolder r.obj x with
    | some y => match s.obj y with
      | some z => if z.state.transit then some y else none
      | none => none
    | none => none
  | 1, .promoting | 1, .cleaning | 4, .promoting => some r.obj
  | _, _ => none

/-- Act on a PROMOTE, EVICT or FLUSH by the table of R258 and by R259. -/
def State.tierEval (s : State) (r : TierReq) : State :=
  match s.obj r.obj with
  | none => s.tierFinish r stAbsent
  | some x =>
    match s.deferTarget r x with
    | some t => match s.obj t with
      | some y => if 8 ≤ y.deferred.length then s.tierFinish r stBusy else s.tierDefer t r
      | none => s
    | none =>
      let join := s.setObj r.obj { x with joined := x.joined ++ [r] }
      match r.req, x.state with
      | 0, .cold => match s.groupHolder r.obj x with
        | some y => match s.obj y with
          | some z => if 0 < z.pins then (s.bump .tierOccupiedCnt 0 1).tierFinish r stOccupied
              else s.tierStart y z .evicting r true
          | none => s
        | none => s.tierStart r.obj x .promoting r false
      | 0, .promoting => join
      | 0, _ => s.tierFinish r stHit
      | 1, .cold => s.tierFinish r stAbsent
      | 1, .resident => if 0 < x.pins then (s.bump .tierEvictRefusedCnt 0 1).tierFinish r stPinned
          else s.tierStart r.obj x .evicting r false
      | 1, _ => join
      | _, .cold => s.tierFinish r stAbsent
      | _, .resident => if (s.dirtyPages x).isEmpty then s.tierFinish r stDone
          else s.tierStart r.obj x .cleaning r false
      | _, _ => join

/-- Has a request that led from `s` to `t` started a transit. -/
def State.startsTransit (s t : State) : Bool := t.tier.objs.any (fun e => match e.2, s.obj e.1 with
  | some x, some y => x.state.transit && !y.state.transit
  | _, _ => false)

/-- Deferred requests of an object that has entered COLD or RESIDENT, one at a time in arrival order, until one starts a
transit, of this or of another object (R258, R259). -/
def State.tierReeval (s : State) (o : Nat) : Nat → State
  | 0 => s
  | n + 1 =>
    match s.obj o with
    | some x =>
      if x.state.transit then s
      else match x.deferred with
        | [] => s
        | r :: rs =>
          let s1 := s.setObj o { x with deferred := rs }
          let s2 := s1.tierEval r
          if s1.startsTransit s2 then s2 else s2.tierReeval o n
    | none => s

def State.objStaged (s : State) (o : Nat) : Bool := s.tier.staging.any (fun t => t.obj == o)

/-- An eviction whose last program has ended (R262): every frame is free, the requests complete, a promotion it made room
for starts, deferred requests are taken up. One that failed leaves the object RESIDENT. -/
def State.evictEnd (s : State) (o : Nat) : State :=
  match s.obj o with
  | some x =>
    if x.state ≠ .evicting ∨ s.objStaged o ∨ (!x.failed ∧ !(s.dirtyPages x).isEmpty)
      ∨ !x.frames.all (fun p => s.pageQuiet p.1 p.2) then s
    else
      let s1 := forEach x.frames (fun p s => s.setFrame p.1 p.2 (if x.failed then
          (match s.frame p.1 p.2 with
            | .fencedDirty => .dirty
            | .fencedClean | .fencedFrozen | .fencedScratch => x.frameIn
            | f => f) else .free)) s
      let s2 := s1.setObj o { x with state := if x.failed then .resident else .cold, joined := [], promote := [] }
      let s3 := forEach x.joined (fun r s => s.tierFinish r (if x.failed then stFailed else stDone)) s2
      let s4 := forEach x.promote (fun r s => if x.failed then s.tierFinish r stFailed else s.tierEval r) s3
      (s4.releaseWrites (x.frameOf 0).1).tierReeval o 9
  | none => s

/-- A cleaning whose last page has been staged returns the object to RESIDENT (R262); its requests complete when every
staged page is programmed. -/
def State.cleanEnd (s : State) (o : Nat) : State :=
  match s.obj o with
  | some x =>
    if x.state = .cleaning ∧ (s.dirtyPages x).all (fun p => p < x.next)
      ∧ !s.tier.staging.any (fun t => t.obj == o && !t.copied) then
      (s.setObj o { x with state := .resident, joined := [], flushed := x.flushed ++ x.joined.map (fun r => (x.round, r)) }).tierReeval o 9
    else s
  | none => s

/-- Is something of a cleaning of an object still staged. -/
def State.roundStaged (s : State) (o n : Nat) : Bool := s.tier.staging.any (fun t => t.obj == o && t.round == some n)

/-- Flush requests complete once every page that their cleaning staged is programmed (R257, R263). -/
def State.flushEnd (s : State) (o : Nat) : State :=
  match s.obj o with
  | some x =>
    let fs := x.flushed.filter (fun f => !s.roundStaged o f.1)
    if fs.isEmpty then s
    else forEach fs (fun f s => s.tierFinish f.2 stDone)
      (s.setObj o { x with flushed := x.flushed.filter (fun f => s.roundStaged o f.1) })
  | none => s

/-- A page that the cleaning `n` staged could not be programmed: its requests complete with FAILED, and a cleaning still in progress
ends, with the object RESIDENT and a page that it had fenced dirty again (R263). -/
def State.flushFail (s : State) (o n : Nat) : State :=
  match s.obj o with
  | some x =>
    let mine := x.flushed.filter (fun f => f.1 == n)
    let rest := x.flushed.filter (fun f => f.1 != n)
    if x.state = .cleaning ∧ x.round = n then
      let s1 := forEach x.frames (fun p s => match s.frame p.1 p.2 with
        | .fencedDirty => s.setFrame p.1 p.2 .dirty
        | _ => s) (s.updTier (fun t => { t with staging := t.staging.filter (fun u => u.obj != o || u.copied) }))
      let s2 := s1.setObj o { x with state := .resident, joined := [], flushed := rest }
      ((forEach (mine.map (fun f => f.2) ++ x.joined) (fun r s => s.tierFinish r stFailed) s2).releaseWrites
        (x.frameOf 0).1).tierReeval o 9
    else forEach mine (fun f s => s.tierFinish f.2 stFailed) (s.setObj o { x with flushed := rest })
  | none => s

def State.tierSettle (s : State) (o : Nat) : State := ((s.cleanEnd o).flushEnd o).evictEnd o

/-- A request arrives at H3 (R250, R256, R258). -/
def State.tierArrive (s : State) (r : TierReq) : State :=
  if 4 < r.req then (s.tierViol 0x60 r.pos 1 r.req).tierFinish r stInvalid
  else if 8191 < r.obj then (s.tierViol 0x60 r.pos 4 r.obj).tierFinish r stInvalid
  else match s.obj r.obj with
  | none => s.tierFinish r stAbsent
  | some x =>
    if r.req = 3 then
      (if x.pins = 0 then (s.tierViol 0x60 r.pos 1 3).tierFinish r stDone
       else (s.setObj r.obj { x with pins := x.pins - 1 }).tierFinish r stDone)
    else if r.req ≠ 2 ∧ x.res.isNone then s.tierFinish r stAbsent
    else
      let full := match s.deferTarget r x with
        | some t => match s.obj t with
          | some y => decide (8 ≤ y.deferred.length)
          | none => false
        | none => false
      if full then s.tierFinish r stBusy
      else if r.req = 2 ∨ (r.req = 0 ∧ r.pin) then
        (if x.pins = 0xFFFF then s.tierFinish r stBusy
         else
          let s1 := s.setObj r.obj { x with pins := x.pins + 1 }
          let r1 := { r with raised := true }
          if r.req = 2 then s1.tierFinish r1 stDone else s1.tierEval r1)
      else s.tierEval r

/-- The request of a 64-byte descriptor or job (R256). -/
def tierReqOf (d src pos : Nat) : TierReq :=
  ⟨dfld d 1 0 3, dfld d 1 3 1 == 1, dfld d 4 0 32, src, pos, dfld d 8 0 64 / 8 * 8 % 2 ^ 64, dfld d 16 0 8, false⟩

/-- A tier request of operation `req`: the next one of core `src`'s stream 3, or of submission ring `src - 128`. -/
def State.tierRequest (s : State) (src : Nat) (ok : Nat → Bool) : State :=
  if src < 128 then
    match (s.core src).nextFor 0x60 with
    | some e =>
      if s.running src && ok (dfld e.desc 1 0 3) then
        let s1 := if dfld e.desc 8 0 3 = 0 then s else s.tierViol 0x60 e.pos 8 (dfld e.desc 8 0 64)
        (s1.takeEntry src e.pos).tierArrive
          { tierReqOf e.desc src e.pos with status := s.adr src (dfld e.desc 8 0 64 / 8 * 8 % 2 ^ 56) }
      else s
    | none => s
  else
    match s.host.jobs.find? (fun j => j.ring == src - 128 && dfld j.raw 0 0 8 == 0x60) with
    | some j =>
      if ok (dfld j.raw 1 0 3) then
        let s0 := s.updHost (fun h => { h with jobs := h.jobs.filter (· != j) })
        let s1 := if dfld j.raw 8 0 3 = 0 then s0 else s0.tierViol 0x60 0xFFFFFFFF 8 (dfld j.raw 8 0 64)
        s1.tierArrive { tierReqOf j.raw src (dfld j.raw 56 0 64) with tmb := 0xFF }
      else s
    | none => s

/-- H3 takes requests: the flash interface is up, and no fault record of H3 is held back (R389, R463). -/
def State.tierUp (s : State) : Bool := decide (s.pwrState = 3) && !s.stalled islandH3

/-- PROMOTE (R256 to R259). A REQ value that R256 does not list is taken up here and completes INVALID. -/
def execPromote (src : Nat) (s : State) : Host.Outcome State Fault Refusal :=
  .next (if s.tierUp then s.tierRequest src (fun r => r == 0 || decide (4 < r)) else s)
/-- EVICT (R258, R262). -/
def execEvict (src : Nat) (s : State) : Host.Outcome State Fault Refusal :=
  .next (if s.tierUp then
    (let s1 := s.tierRequest src (fun r => r == 1)
     forEach s1.tier.objs (fun e s => s.tierSettle e.1) s1) else s)
/-- PIN (R258). -/
def execPin (src : Nat) (s : State) : Host.Outcome State Fault Refusal :=
  .next (if s.tierUp then s.tierRequest src (fun r => r == 2) else s)
/-- UNPIN (R258). -/
def execUnpin (src : Nat) (s : State) : Host.Outcome State Fault Refusal :=
  .next (if s.tierUp then s.tierRequest src (fun r => r == 3) else s)
/-- FLUSH (R258, R262). -/
def execFlush (src : Nat) (s : State) : Host.Outcome State Fault Refusal :=
  .next (if s.tierUp then s.tierRequest src (fun r => r == 4) else s)

/-! ## Promotion (R260) -/

/-- PROMOTE_PAGE_DONE (R260): the next page of a promotion is stored in its frame, once its stripe units are decoded; a
remote page comes with its lines (line, tag, flags, data). A page whose frame a pass set, a lock or a migration holds waits (R203). After the
last page the object is RESIDENT. -/
def execPromotePageDone (obj : Nat) (lines : List (Nat × Nat × Nat × List Nat)) (s : State) :
    Host.Outcome State Fault Refusal :=
  .next (match s.obj obj with
    | some x =>
      let f := s.fetchOf 0 obj x.next
      let p := x.frameOf x.next
      if x.state ≠ .promoting ∨ !s.tierUp ∨ (x.home = 0 ∧ !((f.map Fetch.complete).getD false)) then s
      else if !s.pageOpen p.1 p.2 then
        (if x.waits then s else (s.setObj obj { x with waits := true }).pageWait p.1 [p.2])
      else
        let s1 := ((s.storePage obj x x.next p.1 p.2 f lines).setFrame p.1 p.2 x.frameIn).bump .tierPromotePageCnt 0 1
        let s2 := s1.updTier (fun t => { t with fetch := t.fetch.filter (fun q =>
          !(q.dst == 0 && q.obj == obj && q.page == x.next)) })
        if x.next + 1 < x.pages then s2.setObj obj { x with next := x.next + 1, waits := false }
        else
          let s3 := (s2.setObj obj { x with next := 0, waits := false, state := .resident, joined := [] }).updTier
            (fun t => { t with arrivals := t.arrivals.filter (· != obj) })
          (forEach x.joined (fun r s => s.tierFinish r stDone) s3).tierReeval obj 9
    | none => s)

/-! ## Write-back (R262, R263) -/

/-- The lowest free staging frame of a vault. -/
def State.freeStaging (s : State) (g : Nat) : Option Nat :=
  (List.range 2).find? (fun n => !s.tier.staging.any (fun t => t.vault == g && t.frame == n))

/-- STAGING_FRAME_FREE (R262 steps 1 to 3): with a staging frame free, the next dirty page of a CLEANING or EVICTING object
is fenced and its copy begins, once no lane pass is on the page. CLEANING takes each page once; EVICTING takes the lowest dirty page,
also one that a pass in progress has written after its copy. -/
def execStagingFrameFree (obj : Nat) (s : State) : Host.Outcome State Fault Refusal :=
  .next (match s.obj obj with
    | some x =>
      if !(x.state == .cleaning || x.state == .evicting) || x.failed then s.tierSettle obj
      else match (s.dirtyPages x).find? (fun p => x.state == .evicting || decide (x.next ≤ p)), s.freeStaging (x.frameOf 0).1 with
        | some p, some n =>
          let f := x.frameOf p
          if s.tier.staging.any (fun t => t.obj == obj && !t.copied) then s
          else
            let s1 := if s.frame f.1 f.2 = .dirty then s.setFrame f.1 f.2 .fencedDirty else s
            if !s.pageQuiet f.1 f.2 then s1
            else (s1.updTier (fun t => { t with staging := t.staging ++ [⟨f.1, n, obj, p, false, List.range 132, if x.state = .cleaning then some x.round else none⟩] })).setObj
              obj { x with next := p + 1 }
        | none, _ => s.tierSettle obj
        | _, none => s
    | none => s)

/-- A line of a page as the staging copy takes it: as it passes its check, or as R171 has delivered it; TEST is dropped (R262 step 3,
R263). -/
def State.stagedLine (s : State) (g l : Nat) : Nat × Nat × List Nat :=
  match s.deliveredTo islandH3 (g, l) with
  | some d => (d.tag, setBits (d.flags % 16) 3 1 0, d.data)
  | none =>
    let r := s.rawLine g l
    (r.tag, setBits (r.flags % 16) 3 1 0, r.data)

/-- STAGING_COPY_DONE (R262 steps 4 and 5): the staging frame holds the page; the frame turns clean and the fence lifts
(EVICTING keeps every frame fenced), and the page goes to the home tier. -/
def execStagingCopyDone (obj : Nat) (s : State) : Host.Outcome State Fault Refusal :=
  .next (match s.obj obj, s.tier.staging.find? (fun t => t.obj == obj && !t.copied) with
    | some x, some t =>
      let f := x.frameOf t.page
      let bad := (List.range (2 ^ 14)).find? (fun i => !s.lineReady islandH3 (f.1, f.2 * 2 ^ 14 + i))
      match bad with
      | some i => s.unitWait islandH3 f.1 (f.2 * 2 ^ 14 + i)
      | none =>
        let s1 := forUpTo (2 ^ 14) (fun i s =>
          let h := s.stagedLine f.1 (f.2 * 2 ^ 14 + i)
          s.storeLine f.1 (s.stagingPage f.1 t.frame * 2 ^ 14 + i) h.2.2 h.1 h.2.1) s
        let s2 := s1.setFrame f.1 f.2 (if x.state = .evicting then .fencedClean else .clean)
        let s3 := s2.updTier (fun q => { q with staging := q.staging.map (fun u => if u = t then { u with copied := true } else u) })
        let s4 := if x.home = 1 then
            s3.send (.tierPage x.back obj t.page ((List.range (2 ^ 14)).filterMap (fun i =>
              let h := s.stagedLine f.1 (f.2 * 2 ^ 14 + i)
              if h = (0, 0, List.replicate 128 0) then none
              else some (i, h.2.2 ++ leBytes 2 h.1 ++ [h.2.1, 0]))))
          else s3
        ((s4.dropDelivered islandH3).releaseWrites f.1).cleanEnd obj
    | _, _ => s)

/-- A block takes the place of one that has failed: a spare of the LUN that is named, else the least worn one (R276). -/
def State.spareFor (s : State) (b d : Nat) : Option Nat := match s.lun (blockLun b) with
  | some l => if l.spareBlocks.contains d then some d else s.leastWorn l.spareBlocks
  | none => none

/-- A spare is a spare no longer; below 10% of the initial number a TIER_SPARE_LOW record is queued (R276). -/
def State.useSpare (s : State) (d : Nat) : State := match s.lun (blockLun d) with
  | some l =>
    let m := { l with spareBlocks := l.spareBlocks.filter (· != d) }
    let s1 := s.updTier (fun t => { t with luns := SMap.set (fun _ => none) t.luns (blockLun d) (some m) })
    if 10 * m.spares < l.spares0 ∧ l.spares0 ≤ 10 * l.spares then
      let k := blockLun d
      s1.queue .tierSpareLow islandH2 none (.gen 0 (k / 16) (k / 4 % 4 + 4 * (k % 4)) m.spares l.spares0 0)
    else s1
  | none => s

/-- Retire a block (R276): it joins the bad-block table and its copy in the boot flash. -/
def State.retireBlock (s : State) (b : Nat) : State :=
  let bad := if s.tier.badBlocks.contains b then s.tier.badBlocks else s.tier.badBlocks ++ [b]
  (s.updTier (fun t => { t with badBlocks := bad, bootCopy := bad, moves := t.moves.filter (fun e => e.2 != b) })).bump
    .tierFlashBadCnt 0 1

/-- Move every valid unit of a block to another block (R275 to R277); its move is no longer due. -/
def State.moveBlock (s : State) (b dst2 : Nat) : State :=
  (forEach (s.tier.dir.filter (fun e => e.2 == b)) (fun e s => s.setUnitBlock e.1 dst2) s).updTier
    (fun t => { t with moves := t.moves.filter (fun e => e.2 != b) })

/-- A block that has failed is retired; its valid units go into a spare of its LUN, `d` where that is one (R276). -/
def State.failBlock (s : State) (b d : Nat) : State :=
  match s.spareFor b d with
  | some x => ((s.retireBlock b).useSpare x).moveBlock b x
  | none => s.retireBlock b

/-- Write-back of a page fails for want of flash capacity (R263): the page stays dirty; an eviction in progress, and the cleaning that
staged the page, fail. -/
def State.wbFail (s : State) (t : Staging) : State :=
  match s.obj t.obj with
  | some x =>
    let f := x.frameOf t.page
    let s1 := s.queue .tierWbFail islandH3 none (.gen 0 0 0 t.obj t.page 0)
    let s2 := s1.setFrame f.1 f.2 (if (s.frame f.1 f.2).fenced then .fencedDirty else .dirty)
    let s3 := (s2.updTier (fun q => { q with staging := q.staging.filter (· != t) })).updObj t.obj
      (fun x => { x with failed := x.failed || decide (x.state = .evicting) })
    (match t.round with
      | some n => s3.flushFail t.obj n
      | none => s3).tierSettle t.obj
  | none => s

/-- Is it a page's turn to program a unit: no page staged before it has a unit left for the unit's channel (R273). -/
def State.programTurn (s : State) (t : Staging) (unit : Nat) : Bool :=
  match s.tier.staging.find? (fun u => u.copied && u.left.any (fun k => unitChannel u.page k == unitChannel t.page unit)
      && ((s.obj u.obj).map (fun x => x.home == 0)).getD false) with
  | some u => u == t
  | none => true

/-- Lines of a staged page that a stripe unit takes: 128 for a data unit, the 4,096 whose metadata it holds for another (R271). -/
def unitLines (unit : Nat) : List Nat :=
  if unit < 128 then (List.range 128).map (fun i => 128 * unit + i)
  else (List.range 4096).map (fun i => 4096 * (unit - 128) + i)

/-- H2 reads what a unit takes from its staging frame, each line checked and handled by R171; the second state shows it. -/
def State.unitData (s : State) (x : TierObj) (t : Staging) (unit : Nat) : State × Option State :=
  if x.home = 0 then s.gateReads islandH2 ((unitLines unit).map (fun i => (t.vault, s.stagingPage t.vault t.frame * 2 ^ 14 + i)))
  else (s, some s)

/-- A unit is programmed with data, or with tags and FLAGS, of its lines; a data line that arrives as POISON makes the stored line POISON
(R263, R271). -/
def State.programUnit (s v : State) (t : Staging) (unit block : Nat) : State :=
  forEach (unitLines unit) (fun i s =>
    let r := v.rawLine t.vault (v.stagingPage t.vault t.frame * 2 ^ 14 + i)
    let h := s.flashLine t.obj t.page i
    if unit < 128 then s.putFlash t.obj t.page i h.1 h.2.1 r.data
    else s.putFlash t.obj t.page i r.tag (setBits (r.flags % 16) 3 1 0) h.2.2)
    (s.setUnitBlock (unitKey t.obj t.page unit) block)

/-- FLASH_PROGRAM_DONE (R262 step 5, R263, R271, R276): the program of a stripe unit into block `block` of the unit's channel completes or
fails; a failed block is retired and the unit goes to another block; programs to a LUN without a spare fail. For a remote home the
unit has been delivered. With its last unit the page is in the home tier and the staging frame is free. -/
def execFlashProgramDone (obj page unit block : Nat) (ok : Bool) (s : State) : Host.Outcome State Fault Refusal :=
  .next (match s.obj obj, s.tier.staging.find? (fun t => t.obj == obj && t.page == page && t.copied) with
    | some x, some t =>
      if !t.left.contains unit || s.tier.stopped
        || (x.home == 0 && (!s.blockTakes (unitChannel page unit) block || !s.programTurn t unit)) then s
      else if x.home = 0 ∧ ((s.lun (blockLun block)).map (fun l => l.spares)).getD 0 = 0 then
        (if ok then s else s.retireBlock block).wbFail t
      else if x.home = 0 ∧ !ok then s.failBlock block block
      else match s.unitData x t unit with
      | (s0, none) => s0
      | (s0, some v) =>
        let s1 := if x.home = 0 then s0.programUnit v t unit block else s0
        let left := t.left.filter (· != unit)
        if !left.isEmpty then
          s1.updTier (fun q => { q with staging := q.staging.map (fun u => if u = t then { u with left := left } else u) })
        else
          let s3 := s1.updTier (fun q => { q with staging := q.staging.filter (· != t) })
          (s3.bump .tierWbPageCnt 0 1).tierSettle obj
    | _, _ => s)

/-! ## Stream windows (R264 to R268) -/

def State.win (s : State) (w : Nat) : Option Window := s.tier.wins[w]?
def State.updWin (s : State) (w : Nat) (f : Window → Window) : State :=
  s.updTier (fun t => { t with wins := t.wins.modify w f })

/-- Signal FILL_TMB in every reader and go on to the next instance (R265). -/
def State.fillSignal (s : State) (i : Nat) (w : Window) : State :=
  let s1 := s.updWin i (fun w => { w with u := w.u + 1, filling := false })
  forEach w.readerCores (fun g s => s.deliverSig g ⟨1, w.fill, 1, 0, false, islandH3⟩) s1

/-- STREAM_FILL_START (R166, R265): the fill of the next instance starts once RELEASE_TMB of the home core allows it and the tier manager
has read its list entry; a skipped instance is signalled at once and counted. -/
def execStreamFillStart (win : Nat) (s : State) : Host.Outcome State Fault Refusal :=
  .next (match s.win win with
    | some w =>
      let k := w.readerCores.length
      let need := (w.u + 1 - w.depth) * k
      if w.filling || !s.tierUp || s.tier.stopped || 4 ≤ s.rdF .hubImageStatus 0 0 0 3 || s.img.staged.isSome || (decide (0 < need) && !tmbReached (s.tmbCount (s.home w.home) w.release) need)
      then s
      else match s.gateReads islandH3 (s.winLines w w.u) with
      | (s1, none) => s1
      | (s0, some v) =>
        let o := v.winObj w w.u
        if s0.winSkips w o then (s0.tierViol 0xFF 0xFFFFFFFF 0xFF o).fillSignal win w
        else
          let s1 := s0.updWin win (fun w => { w with filling := true, fillHome := s.home w.home, waits := false, obj := o })
          match s.obj o with
          | some x => s1.askRemote o x
          | none => s1
    | none => s)

/-- STREAM_FILL_DONE (R260, R265): every page of the instance has arrived and is stored in its slot; a remote page's lines
come with it as (page, line, tag, flags, data). -/
def execStreamFillDone (win : Nat) (lines : List (Nat × Nat × Nat × Nat × List Nat)) (s : State) :
    Host.Outcome State Fault Refusal :=
  .next (match s.win win with
    | some w =>
      let o := w.obj
      match s.obj o with
      | some x =>
        let fs := (List.range x.pages).map (fun p => s.fetchOf (win + 1) o p)
        if !w.filling || (x.home == 0 && !fs.all (fun f => (f.map Fetch.complete).getD false)) then s
        else
          let slot := w.base + w.u % w.depth * w.pages
          let shut := (List.range x.pages).filter (fun p => !s.pageOpen w.fillHome (slot + p))
          if !shut.isEmpty then
            (if w.waits then s
             else (s.updWin win (fun w => { w with waits := true })).pageWait w.fillHome (shut.map (slot + ·)))
          else
          let s1 := forUpTo x.pages (fun p s =>
            (s.storePage o x p w.fillHome (slot + p) (s.fetchOf (win + 1) o p)
              ((lines.filter (fun l => l.1 == p)).map (fun l => l.2))).bump .tierPromotePageCnt 0 1) s
          let s2 := s1.updTier (fun t => { t with fetch := t.fetch.filter (fun f => f.dst != win + 1) })
          s2.fillSignal win w
      | none => s
    | none => s)

/-- SUBSTITUTE (R267): a reader whose wait on FILL_TMB has lasted `waited` µs takes the shadow copy of the instance, once the tier
manager has read the list: this wait, and every later one of the core for the same target, is satisfied, and their entries read the
shadow copy. -/
def execSubstitute (core stream waited : Nat) (s : State) : Host.Outcome State Fault Refusal :=
  .next (if !s.running core then s
    else match (s.core core).head stream with
    | some e =>
      let n := waitObj e.wait
      match s.fillWin core n, e.target with
      | some (_, w), some target =>
        if waitOp e.wait != 1 || e.stuck then s
        else match s.gateReads islandH3 (s.winLines w (tmbAhead 1 target)) with
          | (s1, none) => s1
          | (s1, some v) => match v.shadowFor core n target waited with
            | some p => (s1.takeShadow core n target p).wakeHeads core n
            | none => s1
      | _, _ => s
    | none => s)

/-! ## Space 2 (R254) -/

/-- A stripe unit of a page is programmed anew into the block that firmware picks; without one on its channel it has no place (log entry
114). -/
def State.placeUnit (s : State) (o page unit : Nat) : State := match s.pickBlock (unitChannel page unit) with
  | some b => s.setUnitBlock (unitKey o page unit) b
  | none => s

/-- Lines of a backing store in flash take bytes and a tag; the units that hold them are programmed. -/
def State.space2Flash (s : State) (o byte tag : Nat) (bs : List Nat) : State :=
  let ps := linePieces (bs.length / 128 + 2) byte bs
  let s1 := forEach ps (fun p s =>
    let h := s.flashLine o (p.1 / 2 ^ 14) (p.1 % 2 ^ 14)
    s.putFlash o (p.1 / 2 ^ 14) (p.1 % 2 ^ 14) (tag % 2 ^ 16) 0 (mergeBytes h.2.2 p.2.1 p.2.2)) s
  let us := (ps.flatMap (fun p => [(p.1 / 2 ^ 14, p.1 % 2 ^ 14 / 128), (p.1 / 2 ^ 14, 128 + p.1 % 2 ^ 14 / 4096)])).eraseDups
  forEach us (fun u s => s.placeUnit o u.1 u.2) s1

/-- SPACE2_DMA_WRITE (R254): hub DMA loads lines of a COLD object's backing store from byte `byte`, with the request's tag, in flash or at its
remote home; any other write is discarded and counted, as is one to a scratch object, which has no backing store. -/
def execSpace2DmaWrite (obj byte tag : Nat) (data : List Nat) (s : State) : Host.Outcome State Fault Refusal :=
  let bs := data.map (· % 256)
  .next (match s.obj obj with
    | some x =>
      if x.state ≠ .cold ∨ 2 ≤ x.home ∨ x.pages * 2 ^ 21 < byte + data.length then s.tierViol 0xFF 0xFFFFFFFF 0xFF byte
      else if x.home = 1 then s.send (.tierWrite x.back obj byte (tag % 2 ^ 16) bs)
      else s.space2Flash obj byte tag bs
    | none => s.tierViol 0xFF 0xFFFFFFFF 0xFF byte)

/-! ## Flash (R269 to R278) -/

/-- The channel of a unit is trained and in use, and no fault record of H2 is held back (R279, R389). -/
def State.channelUp (s : State) (c : Nat) : Bool := (s.rdF .tierStatus 0 0 0 16).testBit c && !s.stalled islandH2

/-- The first unit on a channel that a page fetch for `dst` still has to read, pages and units in increasing order. -/
def State.firstUnit (s : State) (dst o ch first pages : Nat) : Option (Nat × Nat) :=
  (List.range pages).findSome? (fun p =>
    if p < first then none
    else ((List.range 132).find? (fun k => unitChannel p k == ch
      && (((s.fetchOf dst o p).bind (fun f => SMap.get (fun _ => none) f.units k)).isNone))).map (fun k => (p, k)))

/-- The read of a promotion that a channel has pending. -/
def State.promoRead (s : State) (ch o : Nat) : Option (Nat × Nat × Nat × Nat) := match s.obj o with
  | some x => if x.state = .promoting ∧ x.home = 0 then
      (s.firstUnit 0 o ch x.next x.pages).map (fun u => (0, o, u.1, u.2)) else none
  | none => none

/-- The read of a window's fill that a channel has pending. -/
def State.fillRead (s : State) (ch i : Nat) : Option (Nat × Nat × Nat × Nat) := match s.win i with
  | some w => if !w.filling then none else match s.obj w.obj with
    | some x => if x.home = 0 then
        (s.firstUnit (i + 1) w.obj ch 0 x.pages).map (fun u => (i + 1, w.obj, u.1, u.2)) else none
    | none => none
  | none => none

/-- The read that a channel serves next (R273): stream fills round-robin over windows, then promotions of pinned objects, then other
promotions, each in arrival order. Reads of a channel come back in that order (DESIGN CHOICE, log entry 114). -/
def State.nextRead (s : State) (ch : Nat) : Option (Nat × Nat × Nat × Nat) :=
  let n := s.tier.wins.length
  let last := SMap.get (fun _ => n) s.tier.lastWin ch
  let pinned := fun (o : Nat) => match s.obj o with
    | some x => decide (0 < x.pins)
    | none => false
  match ((List.range n).map (fun i => (last + 1 + i) % n)).findSome? (s.fillRead ch) with
  | some r => some r
  | none => match (s.tier.arrivals.filter pinned).findSome? (s.promoRead ch) with
    | some r => some r
    | none => (s.tier.arrivals.filter (fun o => !pinned o)).findSome? (s.promoRead ch)

/-- A block's data has to move: behind the moves that are due already (R273). -/
def State.noteMove (s : State) (w : MoveWhy) (b : Nat) : State :=
  if s.tier.moves.contains (w, b) then s else s.updTier (fun t => { t with moves := t.moves ++ [(w, b)] })

/-- A unit as decoded after a read or a reread (R274): delivered when every block decodes; at level 7 what still fails is
uncorrectable. -/
def State.unitDecoded (s : State) (dst obj page unit level corrected : Nat) (failed : List Nat) : State :=
  let fail := (failed.filter (· < 4)).eraseDups
  let fin := fail.isEmpty || level == 7
  let u : FetchUnit := ⟨level, fail, fin⟩
  let f := (s.fetchOf dst obj page).getD ⟨dst, obj, page, []⟩
  let f' := { f with units := SMap.set (fun _ => none) f.units unit (some u) }
  let s1 := s.updTier (fun t => { t with fetch := t.fetch.filter (fun q => !(q.dst == dst && q.obj == obj && q.page == page)) ++ [f'] })
  let s2 := if fin then s1.bump .tierFlashCeCnt 0 corrected else s1
  let b := s.unitBlock obj page unit
  let s3 := if fin ∧ 4 ≤ level then s2.noteMove .retry b else s2
  if fin ∧ !fail.isEmpty then
    let k := blockLun b
    forEach fail (fun _ s => (s.bump .tierFlashUeCnt 0 1).queue .tierFlashUe islandH2 none
      (.gen unit (unitChannel page unit) (k / 4 % 4 + 4 * (k % 4)) obj page 0)) s3
  else s3

/-- Count a read of the unit's block; the 500,000th since its last erase makes a move due (R277). -/
def State.readBlock (s : State) (obj page unit : Nat) : State :=
  let b := s.unitBlock obj page unit
  let s1 := s.updTier (fun t => { t with reads := SMap.upd (fun _ => 0) t.reads b (· + 1) })
  if 500000 ≤ SMap.get (fun _ => 0) s1.tier.reads b then s1.noteMove .disturb b else s1

/-- FLASH_UNIT_READ (R273, R274): the stripe unit that its channel serves next, of a page wanted by a promotion (`dst` 0) or by window
`dst - 1`, arrives and is decoded: `corrected` bits were corrected, the blocks in `failed` do not decode. -/
def execFlashUnitRead (dst obj page unit corrected : Nat) (failed : List Nat) (s : State) :
    Host.Outcome State Fault Refusal :=
  let ch := unitChannel page unit
  .next (if s.nextRead ch ≠ some (dst, obj, page, unit) ∨ !s.channelUp ch ∨ s.tier.stopped then s
    else
      let s1 := if dst = 0 then s
        else s.updTier (fun t => { t with lastWin := SMap.set (fun _ => t.wins.length) t.lastWin ch (dst - 1) })
      (s1.readBlock obj page unit).unitDecoded dst obj page unit 0 corrected failed)

/-- READ_RETRY (R274): the reread of a unit that did not decode, at the next read-retry level. -/
def execReadRetry (dst obj page unit corrected : Nat) (failed : List Nat) (s : State) :
    Host.Outcome State Fault Refusal :=
  .next (match (s.fetchOf dst obj page).bind (fun f => SMap.get (fun _ => none) f.units unit) with
    | some u =>
      if u.done || s.tier.stopped then s
      else ((s.bump .tierFlashRetryCnt 0 1).readBlock obj page unit).unitDecoded dst obj page unit (u.level + 1) corrected failed
    | none => s)

/-- May a block's data move to another: a fresh one of its LUN. -/
def State.blockFree (s : State) (b dst2 : Nat) : Bool := blockLun dst2 == blockLun b && s.blockFresh dst2

/-- The block that the next erase of a LUN takes (R277): of its good blocks without valid units, one of lowest erase count. -/
def State.eraseNext (s : State) (b : Nat) : Bool :=
  let free := fun (x : Nat) => s.blockUsed x && !s.tier.dir.any (fun e => e.2 == x)
  (s.lunBlocks (blockLun b)).contains b && free b
    && (s.lunBlocks (blockLun b)).all (fun x => !free x || decide (s.eraseCount b ≤ s.eraseCount x))

/-- The highest erase count of a LUN. -/
def State.lunWorst (s : State) (l : Nat) : Nat :=
  (s.tier.erases.filter (fun e => blockLun e.1 == l)).foldl (fun m e => max m e.2) 0

/-- Is a move enabled (R277), and has its LUN a fresh block for it: for static wear levelling, a worn one. -/
def State.moveReady (s : State) (e : MoveWhy × Nat) : Bool :=
  let fresh := (s.lunBlocks (blockLun e.2)).filter s.blockFresh
  match e.1 with
  | .retry => !fresh.isEmpty
  | .wear => (s.rd .tierCtl 0 0).testBit 3 && fresh.any (fun d => decide (s.eraseCount e.2 < s.eraseCount d))
  | .disturb => (s.rd .tierCtl 0 0).testBit 4 && !fresh.isEmpty

/-- The move that a channel makes next: of those that can be made, the one due for longest (R273). -/
def State.moveNext (s : State) (ch : Nat) : Option (MoveWhy × Nat) :=
  s.tier.moves.find? (fun e => blockLun e.2 / 16 == ch && s.moveReady e)

/-- A move of a block to a fresh one of its LUN, when it is next on its channel. -/
def State.relocate (s : State) (w : MoveWhy) (b dst2 : Nat) : State :=
  if s.moveNext (blockLun b / 16) = some (w, b) ∧ s.blockFree b dst2 = true ∧ (w = .wear → s.eraseCount b < s.eraseCount dst2) then
    s.moveBlock b dst2 else s

/-- RELOCATE (R275): a block whose units needed retry level 4 or higher is rewritten into a fresh block. -/
def execRelocate (block dst2 : Nat) (s : State) : Host.Outcome State Fault Refusal := .next (s.relocate .retry block dst2)

/-- STATIC_WEAR_LEVEL (R277): a block whose erase count lies more than 1,000 below its LUN's highest gives its data to a
worn block: a fresh one with a higher erase count. -/
def execStaticWearLevel (block dst2 : Nat) (s : State) : Host.Outcome State Fault Refusal :=
  .next ((if (s.rd .tierCtl 0 0).testBit 3 && (s.lunBlocks (blockLun block)).contains block
      && decide (s.eraseCount block + 1000 < s.lunWorst (blockLun block)) then s.noteMove .wear block else s).relocate .wear block dst2)

/-- READ_DISTURB_RELOCATE (R277): a block read 500,000 times since its last erase is relocated. -/
def execReadDisturbRelocate (block dst2 : Nat) (s : State) : Host.Outcome State Fault Refusal :=
  .next (s.relocate .disturb block dst2)

/-- Wear of the card: the highest erase count as a percentage of its LUN's rated cycles (R277). -/
def State.setWear (s : State) : State :=
  let p := s.tier.erases.foldl (fun m e => match s.lun (blockLun e.1) with
    | some l => if l.rated = 0 then m else max m (100 * e.2 / l.rated)
    | none => m) 0
  s.wrF .tierFlashWear 0 0 0 8 (min p 255)

/-- BLOCK_ERASE_DONE (R276, R277): the erase of the free block of lowest erase count completes, or an erase fails: the block is retired
and its valid units go from the block into a spare, `dst2` where that is one. -/
def execBlockEraseDone (block dst2 : Nat) (ok : Bool) (s : State) : Host.Outcome State Fault Refusal :=
  .next (if s.tier.badBlocks.contains block || s.tier.stopped || !(s.lunBlocks (blockLun block)).contains block then s
    else if ok then
      (if s.eraseNext block then
        (s.updTier (fun t => { t with
          erases := SMap.upd (fun _ => 0) t.erases block (· + 1)
          heads := SMap.set (fun _ => []) t.heads block []
          moves := t.moves.filter (fun e => e.2 != block)
          reads := SMap.set (fun _ => 0) t.reads block 0 })).setWear
       else s)
    else s.failBlock block dst2)

/-- FLASH_FIRST_INIT (R276, R483): hub firmware finds no bad-block table on a channel, reads the factory marks and builds
it, in a reserved block of every LUN and as a copy in the boot flash: for each LUN (target * 4 + LUN) its good blocks, its rated erase
cycles, the stripe units of a block, and the marked blocks. 2% of the good blocks are set aside as spares, those of the highest numbers,
and the lowest good block holds the table (DESIGN CHOICE, log entry 114). The channel is trained (R269). -/
def execFlashFirstInit (channel : Nat) (luns : List (Nat × Nat × Nat × Nat)) (bad : List Nat) (s : State) :
    Host.Outcome State Fault Refusal :=
  .next (if decide (16 ≤ channel) || s.tier.tables.contains channel || decide (s.pwrState = 0) then s
    else
      let mine := (bad.filter (fun b => blockLun b / 16 == channel)).eraseDups
      let marks := fun (l : Nat) => (mine.filter (fun b => blockLun b == l)).length
      let good := fun (k n : Nat) => ((List.range (min (2 ^ 16) (n + marks k))).map (fun i => k * 2 ^ 16 + i)).filter (fun b => !mine.contains b)
      let s1 := s.updTier (fun t => { t with
        tables := t.tables ++ [channel]
        badBlocks := t.badBlocks ++ mine
        bootCopy := t.badBlocks ++ mine
        luns := luns.foldl (fun m l =>
          let k := 16 * channel + l.1 % 16
          SMap.set (fun _ => none) m k (some ⟨(good k l.2.1).reverse.take (l.2.1 / 50), l.2.1 / 50, (good k l.2.1).headD (2 ^ 30), l.2.2.1,
            min (2 ^ 16) (l.2.1 + marks k), l.2.2.2⟩)) t.luns })
      (s1.wrF .tierStatus 0 0 channel 1 1).trainRate)

/-! ## Query (R279) -/

/-- The state of an object is latched (R279). -/
def State.tierQuery (s : State) (o : Nat) : State := match s.obj o with
  | some x => s.wr .tierQuery 0 0 (o + x.state.code * 2 ^ 13 + min x.deferred.length 8 * 2 ^ 16
      + min (s.dirtyPages x).length 0xFFF * 2 ^ 20 + x.pins * 2 ^ 32)
  | none => s.wr .tierQuery 0 0 o

/-- TIER_QUERY (R279): a write of OBJ latches the object's state. -/
def execTierQuery (obj : Nat) (s : State) : Host.Outcome State Fault Refusal := .next (s.tierQuery (obj % 2 ^ 13))

end Sys2Proof.Machine
end

