-- ==== Sys2Proof/Machine/Host.lean ====
section
/-! DEFINITION. Commands of the gateway: rings and jobs, step gateway, posts, flushes and probes, loss of the host and
reattach, windows (R364 to R386). -/

namespace Sys2Proof.Machine

/-! ## Lines to and from devices -/

/-- A line of a message body: data, CRC, tag, FLAGS and their complement (R164, R324). -/
def lineBody (data : List Nat) (tag flags : Nat) : List Nat :=
  (data ++ List.replicate (128 - data.length) 0).take 128 ++ leBytes 4 (lineCrc data tag) ++ leBytes 2 tag
    ++ [flags % 256, 255 - flags % 256]

/-- Lines of 128 bytes of a run. -/
def lines128 : Nat → List Nat → List (List Nat)
  | 0, _ => []
  | n + 1, bs => if bs.isEmpty then [] else bs.take 128 :: lines128 n (bs.drop 128)

/-- The gateway stores whole lines at a device address: here, or by WRITE messages of up to 32 lines (R324). -/
def State.storeDev (s : State) (id a : Nat) (bytes : List Nat) (tag : Nat) : State :=
  if addrPkg a = s.pkg then s.writeAt hubIsland a bytes tag false
  else
    let ls := lines128 (bytes.length / 128 + 1) bytes
    forUpTo (ceilDiv ls.length 32) (fun i s =>
      s.request 0 (.host id) (addrPkg a) 2
        ⟨3, bitsOf a 33 4, a + 4096 * i, ((ls.drop (32 * i)).take 32).flatMap (fun l => lineBody l tag 0)⟩ (addrDie a)) s

/-- The address of a COPY job or an input-list entry: a rank address when RANK is set (R347, R370); `none` outside vault and
stage memory. -/
def State.devAddr (s : State) (raw vrank : Nat) (rank : Bool) : Option Nat :=
  let a0 := raw / 128 * 128 % 2 ^ 56
  let a := if rank then s.rankAddr vrank a0 else a0
  if rank ∧ s.img.ranks.length ≤ vrank then none
  else match locOf a with
    | .vault _ _ | .stage _ _ => if addrPkg a = s.pkg ∨ s.img.packages.contains (addrPkg a) then some a else none
    | _ => none

/-! ## Jobs -/

def jobStep : Nat := 0x80
def jobImage : Nat := 0x81
def jobQuiesce : Nat := 0x82

def State.hostJob (s : State) (id : Nat) : Option HostJob := s.host.jobs.find? (fun j => j.id == id)
def State.updJob (s : State) (id : Nat) (f : HostJob → HostJob) : State :=
  s.updHost (fun h => { h with jobs := h.jobs.map (fun j => if j.id = id then f j else j) })

/-- A job completes: it leaves the gateway and its entry goes to the completion ring of its queue pair (R369, R374). -/
def State.finishJob (s : State) (id status value : Nat) : State :=
  match s.hostJob id with
  | some j => (s.updHost (fun h => { h with jobs := h.jobs.filter (fun k => k.id != id) })).complete j.ring
      (dfld j.raw 56 0 64) status (dfld j.raw 0 0 8) value false j.ring
  | none => s

/-- Transactions of a job that have no answer yet. -/
def State.jobOpen (s : State) (id : Nat) : Bool := s.prg.txns.any (fun e => match e.2 with
  | some t => t.owner == .host id
  | none => false)

/-- A COPY job that has met its end: every line moved, or a failure; it waits for the answers to its writes (R369). -/
def State.settleCopy (s : State) (id : Nat) : State :=
  match s.hostJob id with
  | some j =>
    let fin := j.status != 0 || decide (min (dfld j.raw 24 0 32) (2 ^ 24) ≤ j.stored)
    if j.begun && fin && !s.jobOpen id
      && !s.host.reads.any (fun r => match r.kind with
        | .copyIn k => k == id
        | _ => false) then s.finishJob id j.status 0 else s
  | none => s

/-- Has a job a reserved field that is not zero (R256, R369, R370). -/
def jobReserved (raw : Nat) : Bool :=
  let op := dfld raw 0 0 8
  dfld raw 32 0 192 != 0 || (op == jobStep && dfld raw 1 0 8 != 0)
    || (op == 0x60 && (dfld raw 1 4 20 != 0 || dfld raw 17 0 120 != 0))

/-- What a submission ring still holds between head and tail, in host memory. -/
def State.setQueued (s : State) (n : Nat) (jobs : List Nat) : State :=
  s.updHost (fun h => { h with queued := SMap.set (fun _ => []) h.queued n jobs })

/-- The step gateway fetches and starts no STEP job until the one in progress at another gateway is closed (R377). -/
def State.waitsHolder (s : State) : Bool := s.gateway.isSome && s.host.stepGw == s.gateway && s.host.holder.isSome

/-- Fetch jobs into the gateway (R368, R369): unknown OPs complete INVALID; a STEP job ends the fetch while one is held. What is not
fetched stays queued in host memory. -/
def State.fetchJobs (s : State) (n : Nat) : List Nat → State
  | [] => s.setQueued n []
  | raw :: rest =>
    let size := s.ringEntries .hostSqCfg n
    let h := s.rdF .hostSqHead 0 n 0 16 % size
    let op := dfld raw 0 0 8
    if h = s.rdF .hostSqTail 0 n 0 16 % size then s.setQueued n []
    else if op = jobStep ∧ (s.host.step.isSome ∨ s.waitsHolder ∨ s.host.jobs.any (fun j => dfld j.raw 0 0 8 == jobStep)) then
      s.setQueued n (raw :: rest)
    else
      let s1 := s.wrF .hostSqHead 0 n 0 16 ((h + 1) % size)
      let s2 := if jobReserved raw then s1.misuse 4 else s1
      let id := s2.host.serial + 1
      let s3 := s2.updHost (fun q => { q with serial := id, jobs := q.jobs ++ [⟨n, raw, id, false, 0, 0, 0⟩] })
      let s4 := if op = 0x60 ∨ (0x80 ≤ op ∧ op ≤ 0x84) then s3 else (s3.misuse 4).finishJob id stInvalid 0
      State.fetchJobs s4 n rest

/-- May H0 fetch: the session is ATTACHED and H1 runs (R41, R381). -/
def State.mayFetch (s : State) : Bool := s.attached && !s.hub.h1Down

/-- The gateway goes on fetching what its submission rings hold: a STEP job has ended, or H1 runs again (R41, R371). -/
def State.fetchMore (s : State) : State :=
  if s.mayFetch then forEach s.host.queued (fun e s => s.fetchJobs e.1 e.2) s else s

/-- A write of a submission tail (R368, R385, R494): whether it was taken. -/
def State.writeTail (s : State) (n value : Nat) : State × Bool :=
  if !(s.rd .hostSqCfg 0 n).testBit 5 then (s.hostViol 0xFF value, false)
  else if s.ringEntries .hostSqCfg n ≤ value then (s.misuse 1, false)
  else (s.wr .hostSqTail 0 n (value % 2 ^ 16), true)

/-- HOST_SQ_TAIL (R17, R364, R368, R369, R385, R494): the tail of a submission ring is written, and H0 fetches the jobs that
host memory holds from the head on (`jobs`, 64 bytes each). -/
def execHostSqTail (ring value : Nat) (jobs : List Nat) (s : State) : Host.Outcome State Fault Refusal :=
  let n := ring % 16
  .next (match s.writeTail n (value % 2 ^ 16) with
    | (s1, true) => if s1.mayFetch then s1.fetchJobs n jobs else s1.setQueued n jobs
    | (s1, false) => s1)

/-- Entries between a ring's head and tail. -/
def ringUsed (size head tail : Nat) : Nat := (tail + size - head % size) % size

/-- A head index written by the host: beyond the tail it is ignored (R368, R385). -/
def State.writeHead (s : State) (r : RingRegs) (value : Nat) : State :=
  let size := s.ringEntries r.cfg r.ix
  let h := s.rdF r.head 0 r.ix 0 16
  let t := s.rdF r.tail 0 r.ix 0 16
  if !(s.rd r.cfg 0 r.ix).testBit 5 then s.hostViol 0xFF value
  else if size ≤ value ∨ ringUsed size h t < ringUsed size h value then s.misuse 2
  else (s.wr r.head 0 r.ix (value % 2 ^ 16)).drain

def cqRegs (n : Nat) : RingRegs := ⟨.hostCqCfg, .hostCqBase, .hostCqHead, .hostCqTail, n, 32, n⟩
def evqRegs : RingRegs := ⟨.hostEvqCfg, .hostEvqBase, .hostEvqHead, .hostEvqTail, 0, 64, 16⟩

/-- HOST_CQ_HEAD (R368). -/
def execHostCqHead (ring value : Nat) (s : State) : Host.Outcome State Fault Refusal :=
  .next (s.writeHead (cqRegs (ring % 16)) (value % 2 ^ 16))
/-- HOST_EVQ_HEAD (R368). -/
def execHostEvqHead (value : Nat) (s : State) : Host.Outcome State Fault Refusal := .next (s.writeHead evqRegs (value % 2 ^ 16))

/-! ## The STEP job (R371) -/

/-- Step counters of the package's working cores, of every core when no core works. -/
def State.stepCounters (s : State) : List Nat :=
  let ws := s.workers
  (if ws.isEmpty then [s.lowCore] else ws).map (fun g => (s.core g).step)

/-- Working cores of the partition in another package. -/
def State.remoteWorkers (s : State) (p : Nat) : List Nat :=
  ((s.img.ranks.filter (fun r => r.pkg == p)).map (fun r => r.core)).eraseDups

def State.updStep (s : State) (f : StepJob → StepJob) : State := s.updHost (fun h => { h with step := h.step.map f })

/-- The STEP job fails: it leaves with a status (R370, R385), and the gateway goes on fetching. -/
def State.failStep (s : State) (j : StepJob) (status value : Nat) : State :=
  ((s.updHost (fun h => { h with step := none })).complete j.ring (dfld j.raw 56 0 64) status jobStep value false j.ring).fetchMore

/-- Address of CORE_OPT_LR of a core of a package, in control-register space. -/
def ctrlAddr (pkg off : Nat) : Nat := pkg * 2 ^ 50 + 3 * 2 ^ 46 + off
/-- Line of a register write (R495). -/
def slotLine (v : Nat) : List Nat := lineBody (leBytes 8 v) 0 0

/-- Write CORE_OPT_LR in every working core of the partition (R371 step 3). -/
def State.writeLr (s : State) (j : StepJob) : State :=
  let lr := dfld j.raw 16 0 32
  let s1 := forEach s.workers (fun g s => s.wrF .coreOptLr g 0 0 32 lr) s
  forEach (s.img.packages.filter (· != s.pkg)) (fun p s =>
    forEach (s.remoteWorkers p) (fun g s => s.request 0 (.host j.id) p 0
      ⟨3, g % 16, ctrlAddr p (Reg.coreOptLr.offset g 0), slotLine lr⟩ (g / 16)) s) s1

/-- Packages to which a write of the job is still unanswered. -/
def State.jobOpenTo (s : State) (id p : Nat) : Bool := s.prg.txns.any (fun e => match e.2 with
  | some t => t.owner == .host id && t.pkg == p
  | none => false)

/-- Signal step start in the packages whose writes are all acknowledged (R371 step 4). -/
def State.startCores (s : State) (j : StepJob) : State :=
  let t := s.rdF .hostStepCfg 0 0 0 8
  let go := (s.pkg :: s.img.packages.filter (· != s.pkg)).filter (fun p => !j.started.contains p && !s.jobOpenTo j.id p)
  forEach go (fun p s =>
    (if p = s.pkg then forEach s.workers (fun g s => s.deliverSig g ⟨1, t, 1, 0, false, 160⟩) s
      else forEach (s.remoteWorkers p) (fun g s => s.remoteSig 0 p g ⟨1, t, 1, 0, false, 160⟩) s).updStep
      (fun j => { j with started := j.started ++ [p] })) s

/-- A device address of a DMA engine that lies in a reserved space (R15, R511). -/
def State.dmaViol (s : State) (raw vrank : Nat) (rank : Bool) : State :=
  let a0 := raw / 128 * 128 % 2 ^ 56
  let a := if rank then s.rankAddr vrank a0 else a0
  if locOf a = .bad then s.hubAddrViol a else s

/-- An input-list entry (R370): host address, device address, lines. -/
def State.inputOf (s : State) (e : Nat) : Nat × Option Nat × Nat :=
  (dfld e 0 0 64 / 128 * 128, s.devAddr (dfld e 8 0 64) (dfld e 20 0 16) (dfld e 22 0 1 == 1), dfld e 16 0 32)

/-- Go on with the STEP job in progress: the next inputs, then the learning rate, then step start. -/
def State.stepGo (s : State) : Nat → State
  | 0 => s
  | n + 1 => match s.host.step with
    | none => s
    | some j =>
      if j.status ≠ 0 then (if s.jobOpen j.id then s else s.failStep j j.status 0)
      else if !j.listed then s
      else match j.inputs with
        | e :: es =>
          let x := s.inputOf e
          let s1 := s.updStep (fun j => { j with inputs := es })
          (match x.2.1 with
          | none => State.stepGo ((s1.dmaViol (dfld e 8 0 64) (dfld e 20 0 16) (dfld e 22 0 1 == 1)).updStep
              (fun j => { j with status := stInvalid })) n
          | some a =>
            if x.2.2 = 0 then State.stepGo s1 n
            else if (s.winFor x.1 (128 * x.2.2) 2).isNone then
              State.stepGo ((s1.hostViol 0 x.1).updStep (fun j => { j with status := 0x42 })) n
            else State.stepGo ((s1.hostRead .input x.1 (128 * x.2.2) a (dfld j.raw 8 0 16)).updStep
              (fun j => { j with todo := j.todo + x.2.2 })) n)
        | [] =>
          if j.todo ≠ 0 then s
          else if !j.lrSent then State.stepGo ((s.updStep (fun j => { j with lrSent := true })).writeLr j) n
          else s.startCores j

/-- The checks of a STEP job before it begins (R370, R371, R377): a status, or none. -/
def State.stepCheck (s : State) (raw : Nat) : Option (Nat × Nat) :=
  let cs := s.stepCounters
  let c0 := cs.headD 0
  if !s.isSealed then some (0x47, 0)
  else if s.host.stepGw ≠ s.gateway ∨ s.gateway.isNone then some (0x41, 0)
  else if 65536 < dfld raw 20 0 32 then some (stInvalid, 0)
  else if cs.any (· != c0) then some (0x48, 0)
  else if dfld raw 8 0 48 ≠ c0 then some (0x40, c0)
  else if dfld raw 20 0 32 ≠ 0 ∧ (s.winFor (dfld raw 24 0 64 / 32 * 32) (32 * dfld raw 20 0 32) 2).isNone then some (0x42, 0)
  else none

/-- STEP (R359, R370, R371, R377): the step gateway takes the next STEP job in hand, or goes on with the one in progress. While
a load is pending, or the partition is on its way to a quiesce point, a job waits; a job after a quiesce point ends it. -/
def execStep (s : State) : Host.Outcome State Fault Refusal :=
  .next (match s.host.step with
    | some j => s.stepGo (j.inputs.length + 4)
    | none =>
      match s.host.jobs.find? (fun j => dfld j.raw 0 0 8 == jobStep) with
      | none => s
      | some j =>
        if s.waitsHolder || s.imageState == 4 || (s.imageState == 5 && !s.img.point) || s.img.held.isSome || s.img.staged.isSome
            || s.hub.h1Down then s
        else match s.stepCheck j.raw with
        | some (st, v) =>
          let s0 := if dfld j.raw 24 0 64 % 32 = 0 then s else s.hostViol 24 (dfld j.raw 24 0 64)
          let s1 := if st = 0x42 then s0.hostViol 24 (dfld j.raw 24 0 64) else s0
          (s1.finishJob j.id st v).fetchMore
        | none =>
          let n := dfld j.raw 20 0 32
          let la := dfld j.raw 24 0 64
          let others := s.img.packages.filter (· != s.pkg)
          let s0 := if s.imageState = 5 then
              forEach others (fun p s => s.send (.hub 47 p [])) ((s.wrF .hubImageStatus 0 0 0 3 3).updImg (fun i => { i with point := false })) else s
          let s1 := if la % 32 = 0 then s0 else s0.hostViol 24 la
          let s2 := s1.updHost (fun h => { h with
            jobs := h.jobs.filter (fun k => k.id != j.id)
            step := some ⟨j.ring, j.raw, j.id, n == 0, [], 0, 0, false, []⟩ })
          if n = 0 then s2.stepGo 4 else s2.hostRead .list (la / 32 * 32) (32 * n) 0 0)

/-! ## COPY jobs (R369, R370) -/

/-- Lines of a COPY job. -/
def copyLines (raw : Nat) : Nat := min (dfld raw 24 0 32) (2 ^ 24)

/-- The checks of a COPY job (R370): its device address, or a status; `perm` is the permission its window needs. -/
def State.copyCheck (s : State) (raw perm : Nat) : Except Nat Nat :=
  match s.devAddr (dfld raw 16 0 64) (dfld raw 30 0 16) (dfld raw 1 0 1 == 1) with
  | none => .error stInvalid
  | some a =>
    if (s.winFor (dfld raw 8 0 64 / 128 * 128) (128 * copyLines raw) perm).isNone then .error 0x42 else .ok a

/-- Count what a COPY job's fields violate. -/
def State.copyViols (s : State) (raw : Nat) : State :=
  let s1 := if dfld raw 8 0 7 = 0 then s else s.hostViol 8 (dfld raw 8 0 64)
  let s2 := if dfld raw 16 0 7 = 0 then s1 else s1.hostViol 16 (dfld raw 16 0 64)
  if 2 ^ 24 < dfld raw 24 0 32 then s2.hostViol 24 (dfld raw 24 0 32) else s2

/-- A COPY job ends at its checks with a status (R370): its fields' violations, its window's, its device address's. -/
def State.copyRefuse (s : State) (j : HostJob) (st : Nat) : State :=
  let s1 := s.copyViols j.raw
  let s2 := if st = 0x42 then s1.hostViol 8 (dfld j.raw 8 0 64)
    else if st = stInvalid then s1.dmaViol (dfld j.raw 16 0 64) (dfld j.raw 30 0 16) (dfld j.raw 1 0 1 == 1) else s1
  s2.finishJob j.id st 0

/-- The next job of a kind that has not begun. -/
def State.nextJob (s : State) (op : Nat) : Option HostJob :=
  s.host.jobs.find? (fun j => dfld j.raw 0 0 8 == op && !j.begun)

/-- COPY_IN (R167, R237, R369, R370): the gateway reads the lines of the next COPY_IN job from host memory; they are stored
with TAG as they arrive (DMA_READ_COMPLETION). -/
def execCopyIn (s : State) : Host.Outcome State Fault Refusal :=
  .next (match s.nextJob 0x83 with
    | none => s
    | some j =>
      if !s.attached || s.hub.h1Down then s
      else if copyLines j.raw = 0 then s.copyRefuse j stDone
      else match s.copyCheck j.raw 2 with
      | .error st => s.copyRefuse j st
      | .ok a => ((s.copyViols j.raw).updJob j.id (fun k => { k with begun := true })).hostRead (.copyIn j.id)
          (dfld j.raw 8 0 64 / 128 * 128) (128 * copyLines j.raw) a (dfld j.raw 28 0 16))

/-- Lines of a COPY_OUT, the first with a tag, reach the host (R366, R367, R376); `false`: the gateway does not accept them yet. -/
def State.copyOutPut (s : State) (j : HostJob) (first : Nat) (bytes : List Nat) (tag : Nat) : State × Bool :=
  let h := dfld j.raw 8 0 64 / 128 * 128
  match s.winFor h (128 * copyLines j.raw) 1 with
  | none => ((s.hostViol 8 (dfld j.raw 8 0 64)).updJob j.id (fun k => { k with status := 0x42 }), true)
  | some w =>
    match s.hostBound w (h + 128 * first - (s.winOf w).1) bytes tag true with
    | (s1, .ok) => (s1, true)
    | (s1, .viol) => (s1.updJob j.id (fun k => { k with status := 0x42 }), true)
    | (_, .wait) => (s, false)

/-- Move the next lines of a COPY_OUT, 32 at a time, as far as they can be read and are accepted. -/
def State.copyOutGo (s : State) (id a : Nat) : Nat → State
  | 0 => s.settleCopy id
  | n + 1 => match s.hostJob id with
    | none => s
    | some j =>
      let k := min 32 (copyLines j.raw - j.next)
      if k = 0 ∨ j.status ≠ 0 then s.settleCopy id
      else
        let at0 := a + 128 * j.next
        if addrPkg a ≠ s.pkg then
          (if s.jobOpen id then s
          else (s.updJob id (fun j => { j with next := j.next + k })).request 0 (.host id) (addrPkg a) 2
            ⟨1, bitsOf a 33 4, at0, leBytes 8 k⟩ (addrDie a))
        else match s.gateReads (jobUnit id) (s.linesOf at0 (128 * k)) with
        | (s1, none) => s1
        | (s1, some v) =>
          let tag := ((v.linesOf at0 1).map (fun p => (v.rawLine p.1 p.2).tag)).headD 0
          match s1.copyOutPut j j.next (v.bytesAt at0 (128 * k)) tag with
          | (s2, true) => State.copyOutGo (s2.updJob id (fun j => { j with next := j.next + k, stored := j.stored + k })) id a n
          | (s2, false) => s2

/-- COPY_OUT (R369, R370, R376): the gateway takes the next COPY_OUT job in hand, or goes on with one; it completes behind its
last write. -/
def execCopyOut (s : State) : Host.Outcome State Fault Refusal :=
  .next (match s.host.jobs.find? (fun j => dfld j.raw 0 0 8 == 0x84) with
    | none => s
    | some j =>
      if s.hub.h1Down then s
      else if copyLines j.raw = 0 then s.copyRefuse j stDone
      else match s.copyCheck j.raw 1 with
      | .error st => if j.begun then (if st = 0x42 then s.hostViol 8 (dfld j.raw 8 0 64) else s).finishJob j.id st 0 else s.copyRefuse j st
      | .ok a =>
        let s1 := if j.begun then s else (s.copyViols j.raw).updJob j.id (fun k => { k with begun := true })
        s1.copyOutGo j.id a (copyLines j.raw / 32 + 2))

/-! ## Posts and the step gateway (R372, R377) -/

/-- Tell the other gateways of the partition something. -/
def State.tellGateways (s : State) (kind : Nat) (args : List Nat) : State :=
  forEach (s.img.gateways.filter (fun p => p.1 != s.pkg)) (fun p s => s.send (.hub kind p.1 args)) s

/-- A write of HOST_CQ_POST_n (R372). `subst` is the mark that the flag carries (R373). -/
def State.cqPost (s : State) (n v : Nat) (subst : Bool) : State :=
  let k0 := bitsOf v 56 8
  let k := min k0 2
  let s0 := if k0 ≤ 2 then s else s.hostViol 0 k0
  let step := bitsOf v 0 48
  if k = 0 then
    match s0.host.step.filter (fun j => dfld j.raw 8 0 48 == step) with
    | some j =>
      (((s0.updHost (fun h => { h with step := none })).complete n (dfld j.raw 56 0 64) stDone jobStep step subst
        j.ring).tellGateways 20 [step]).fetchMore
    | none =>
      match s0.host.holder.bind (fun g => s0.img.gateways.find? (fun p => p.2 == g)) with
      | some (p, _) => s0.request 0 .post p 0 ⟨3, 0, ctrlAddr p (Reg.hostCqPost.offset 0 n),
          lineBody (leBytes 8 v) (if subst then 1 else 0) 0⟩ 0
      | none => s0.complete n 0 0x49 jobStep step subst 0
  else s0.complete n 0 stDone 0xF0 step subst 0

/-- HOST_CQ_POST (R372 to R375, R381): a domain write of 8 bytes to HOST_CQ_POST_n arrives at the gateway; one that it does not accept yet
stays with its sender. -/
def execHostCqPost (ring value : Nat) (subst : Bool) (s : State) : Host.Outcome State Fault Refusal :=
  .next (if s.gateway.isSome && !s.postWaits then s.cqPost (ring % 16) (value % 2 ^ 64) subst else s)

/-- The partition has stopped: at once, or at the restore generation at which it was to stop (R401, R411). -/
def State.halts (s : State) : Bool := s.runStop || (s.flt.stopAtGen && s.rdF .hubRestoreStatus 0 0 50 3 == 7)

/-- STEP_GATEWAY_SELECT (R377): `attached` are the other gateways of the partition whose sessions are ATTACHED, `holder` the
one that holds a STEP job in progress. -/
def execStepGatewaySelect (attached : List Nat) (holder : Option Nat) (s : State) : Host.Outcome State Fault Refusal :=
  .next (match s.gateway with
    | none => s
    | some me =>
      let gs := (if s.attached then [me] else []) ++ attached.filter (fun g => s.img.gateways.any (fun p => p.2 == g && g != me))
      let cur := match s.host.stepGw with
        | some g => gs.contains g
        | none => false
      let kept := s.host.holder.filter (fun g => s.img.gateways.any (fun p => p.2 == g && s.img.lost.contains p.1) && !s.halts)
      let holder := if holder.isSome then holder else kept
      let busy := s.host.step.isSome || holder.isSome
      let s1 := s.updHost (fun h => { h with holder := holder })
      if cur && busy then s1
      else
        let low : Option Nat := gs.foldl (fun a g => some (min (a.getD g) g)) none
        s1.updHost (fun h => { h with stepGw := low }))

/-! ## Flushes and probes (R297, R298, R378) -/

/-- H0 issues the flush read of a request, behind every host-bound write that it has accepted (R297). -/
def State.flushRead (s : State) (i : InMsg) : State :=
  (s.bump .hostFlushCnt 0 1).hostRead (.flush i.src i.txn i.gen (16 * i.die + i.core)) s.flushAddr 8 0 0

/-- A flush request at this gateway (R297, R298, R381): a flush read, TORN while DETACHED; while REPLAYING it waits behind the writes
that follow the reattach. -/
def State.flushReq (s : State) (i : InMsg) : State :=
  if s.gateway.isNone then s.reply i ⟨0x0F, i.core, i.addr, leBytes 8 4⟩
  else if s.session = 1 then s.reply i ⟨0x0A, i.core, 1, []⟩
  else if s.attached then s.flushRead i
  else s.updHost (fun h => { h with flushQ := h.flushQ ++ [i] })

/-- The oldest message of a source, when it is of a kind. -/
def State.nextMsg (s : State) (src kind : Nat) : Option InMsg :=
  match s.prg.inbox.find? (fun m => m.src == src) with
  | some m => if m.kind = kind ∧ s.stalled (128 + m.die) = false then some m else none
  | none => none
/-- The oldest message of a source is consumed. -/
def popFirst (src : Nat) : List InMsg → List InMsg
  | [] => []
  | m :: ms => if m.src = src then ms else m :: popFirst src ms
def State.popMsg (s : State) (src : Nat) : State := s.updPrg (fun p => { p with inbox := popFirst src p.inbox })

/-- May a kind come over this keyway (ACCESS, R318): bit of the kind. Messages within the package may. -/
def State.allowed (s : State) (src : Nat) (bits : List Nat) : Bool :=
  decide (localSrc 0 ≤ src) || (match s.kw (s.streamKw src) with
    | some q => bits.any (fun b => q.access.testBit b)
    | none => false)

/-- A message that its keyway does not allow, or whose address is reserved: discarded with a NAK (R332). -/
def State.refuseMsg (s : State) (i : InMsg) (code : Nat) : State :=
  let s1 := s.reply i ⟨0x0F, i.core, i.addr, leBytes 8 code⟩
  if localSrc 0 ≤ i.src then s1 else s1.peerViol (i.src / 4096) (i.src % 4096) 10

/-- FLUSH_REQ (R297, R298): the oldest message of a source is a flush request for this gateway. -/
def execFlushReq (src : Nat) (s : State) : Host.Outcome State Fault Refusal :=
  .next (match s.nextMsg src 9 with
    | none => s
    | some i => if s.allowed src [0] then (s.popMsg src).flushReq i else (s.popMsg src).refuseMsg i 4)

/-- Extents of RETAIN windows, and of held flags, take RESENT or LOST by what becomes of their data (R382, R384 step 1). -/
def State.resendData (s : State) : State :=
  let ok := fun (w : HostWr) => s.winOk w.win w.off w.bytes.length 1
  let flagged := fun (t : Torn) => t.flag && s.host.held.any (fun h => h.dest == .flag t.win t.off)
  let s1 := forEach s.host.spool (fun w s => if s.winOk w.win w.off w.bytes.length 1 then s.linkWrite w else s) s
  s1.updHost (fun h => { h with torn := h.torn.map (fun t =>
    let ws := h.spool.filter (fun w => w.win == t.win && decide (t.off ≤ w.off) && decide (w.off < t.off + t.len))
    if t.gone || (ws.isEmpty && !flagged t) then t
    else
      let good := ws.all ok && (!flagged t || s.winOk t.win t.off t.len 1)
      { t with resent := good, lost := !good }) })

/-- The 32 bytes of a torn entry (R382). -/
def tornBytes (t : Torn) (cut : Bool) : List Nat :=
  leBytes 4 (t.win % 64 + (if t.resent then 64 else 0) + (if t.lost then 128 else 0) + (if t.flag then 256 else 0)
      + (if t.overflow || cut then 512 else 0)) ++ leBytes 4 (t.tag % 2 ^ 16) ++ leBytes 8 t.off ++ leBytes 8 t.len
    ++ leBytes 8 0

/-- The torn report, cut at an entry boundary to the buffer (R382, R384 step 3). -/
def State.tornReport (s : State) : List Nat :=
  let n := s.host.torn.length
  let m := min n ((s.rd .hostTornSize 0 0 - 32) / 32)
  leBytes 4 (s.rdF .hostSession 0 0 32 16) ++ leBytes 4 m ++ leBytes 4 s.host.cause ++ leBytes 4 s.host.held.length
    ++ leBytes 8 s.host.stepAt ++ leBytes 8 0
    ++ ((s.host.torn.take m).zip (List.range m)).flatMap (fun p => tornBytes p.1 (decide (m < n) && p.2 + 1 == m))

/-- Steps 3 to 5 of a reattach, after its flush read (R384); then the writes accepted meanwhile, and the entries behind them (R369). -/
def State.reattach (s : State) : State :=
  let e := (s.rdF .hostSession 0 0 32 16 + 1) % 2 ^ 16
  let n := s.host.torn.length
  let s1 := if 32 ≤ s.rd .hostTornSize 0 0 then s.send (.pcieWrite (s.rd .hostTornBase 0 0) s.tornReport false false) else s
  let after := s1.host.after
  let s2 := ((s1.wrF .hostSession 0 0 0 2 0).wrF .hostSession 0 0 32 16 e).updHost (fun h => { h with
    spool := []
    torn := []
    after := []
    flushQ := []
    held := (h.held.filter (fun x => !x.late)).map (fun x => { x with spooled := true }) })
  let s3 := s2.drain.gwEvent .reattached (.gen 0 0 0 e n 0) [1, 2]
  let s4 := forEach after (fun w s => (s.linkWrite w).updHost (fun h => { h with
    doubt := h.doubt ++ [w]
    spool := if w.retain then h.spool ++ [w] else h.spool })) s3
  let late := s1.host.held.filter (fun x => x.late)
  let s5 := if late.isEmpty then s4
    else (s4.updHost (fun h => { h with held := h.held ++ late.map (fun x => { x with late := false }) })).drain
  forEach s1.host.flushQ (fun i s => s.flushRead i) s5

/-- A gateway read of 8 bytes completes: the writes before it are delivered (R378), and what it serves goes on. -/
def State.readDone (s : State) (r : HostRd) : State :=
  let s1 := (s.updHost (fun h => { h with reads := h.reads.filter (fun x => x.serial != r.serial) })).delivered r.upto
  match r.kind with
  | .flush src txn gen core =>
    s1.reply ⟨src, core / 16, 9, core % 16, txn, gen, 0, []⟩ ⟨0x0A, core % 16, 0, []⟩
  | .attach => if s1.session = 2 then s1.reattach else s1
  | _ => s1

def State.hostRd (s : State) (serial : Nat) : Option HostRd := s.host.reads.find? (fun r => r.serial == serial)

/-- FLUSH_READ_DONE (R297, R378, R384): a flush read completes and FLUSH_RSP goes back to the core, or a reattach goes on. -/
def execFlushReadDone (serial : Nat) (s : State) : Host.Outcome State Fault Refusal :=
  .next (match s.hostRd serial with
    | some r => (match r.kind with
      | .flush _ _ _ _ | .attach => if s.session = 1 then s else s.readDone r
      | _ => s)
    | none => s)

/-- PROBE (R378): a write has been outstanding for PROBE_US without a read behind it. -/
def execProbe (s : State) : Host.Outcome State Fault Refusal :=
  let last := s.host.doubt.foldl (fun m w => max m w.serial) 0
  .next (if s.attached && !s.host.doubt.isEmpty && !s.host.reads.any (fun r => decide (last ≤ r.upto)) then
      (s.bump .hostProbeCnt 0 1).hostRead .probe s.flushAddr 8 0 0
    else s)

/-- PROBE_READ_DONE (R378, R379): a probe read completes; what it covers is delivered and its retained copies are freed. -/
def execProbeReadDone (serial : Nat) (s : State) : Host.Outcome State Fault Refusal :=
  .next (match s.hostRd serial with
    | some r => if r.kind = .probe ∧ s.session ≠ 1 then s.readDone r else s
    | none => s)

/-! ## DMA reads (R385) -/

/-- The entries of an input list, 32 bytes each. -/
def inputList : Nat → List Nat → List Nat
  | 0, _ => []
  | n + 1, bs => if bs.length < 32 then [] else leNat (bs.take 32) :: inputList n (bs.drop 32)

/-- A read of host memory fails: what it serves ends with a status (R385). MOVE, relayed reads and image fetches are ended by
their own units. -/
def State.readFail (s : State) (r : HostRd) (status : Nat) : State :=
  let s1 := s.updHost (fun h => { h with reads := h.reads.filter (fun x => x.serial != r.serial) })
  match r.kind with
  | .copyIn id => (s1.updJob id (fun j => { j with status := status })).settleCopy id
  | .list => s1.updStep (fun j => { j with listed := true, status := status }) |>.stepGo 2
  | .input => (s1.updStep (fun j => { j with status := status, todo := j.todo - r.left / 128 })).stepGo 2
  | _ => s1

/-- Whole bytes of a read have arrived: lines of a COPY_IN or an input are stored, a list is kept until it is whole. -/
def State.readData (s : State) (r : HostRd) (data : List Nat) : State :=
  let n := min data.length r.left
  let bs := data.take n
  let r' := { r with addr := r.addr + n, left := r.left - n, dst := r.dst + n }
  let put := fun (xs : List HostRd) => (xs.map (fun x => if x.serial = r.serial then r' else x)).filter
    (fun x => x.serial != r.serial || x.left != 0)
  let s1 := s.updHost (fun h => { h with reads := put h.reads })
  match r.kind with
  | .copyIn id => ((s1.storeDev id r.dst bs r.tag).updJob id (fun j => { j with stored := j.stored + n / 128 })).settleCopy id
  | .input => match s1.host.step with
    | some j => (s1.storeDev j.id r.dst bs r.tag).updStep (fun j => { j with todo := j.todo - n / 128 })
    | none => s1
  | .list => s1.updStep (fun j => { j with inputs := j.inputs ++ inputList (n / 32) bs, listed := r'.left == 0 })
  | _ => s1

/-! ## Detach and attach (R380 to R384) -/

/-- A torn entry for a write (R381, R382). -/
def tornOf (w : HostWr) (lost : Bool) : Torn := ⟨w.win, w.off, w.bytes.length, w.tag, false, lost, !w.ro, false, lost⟩

/-- The port's registers that a detach resets (R381 step 4). -/
def State.resetPort (s : State) : State :=
  let rst := fun (r : Reg) (n : Nat) (s : State) => forUpTo n (fun i s => s.wr r 0 i (r.resetOf i)) s
  [(Reg.hostCtl, 1), (.hostLink, 1), (.hostSqBase, 16), (.hostCqBase, 16), (.hostEvqBase, 1), (.hostSqCfg, 16),
    (.hostEvqCfg, 1), (.hostCqCfg, 16), (.hostSqTail, 16), (.hostCqHead, 16), (.hostEvqHead, 1), (.hostSqHead, 16),
    (.hostCqTail, 16), (.hostEvqTail, 1), (.hostFlushAddr, 1), (.hostTornBase, 1), (.hostTornSize, 1), (.hostProtBase, 1)].foldl
    (fun s p => rst p.1 p.2 s) s

/-- Flushes outstanding at a detach come back TORN (R298, R381); other reads end. -/
def State.tearReads (s : State) : State :=
  forEach s.host.reads (fun r s => match r.kind with
    | .flush src txn gen core => s.reply ⟨src, core / 16, 9, core % 16, txn, gen, 0, []⟩ ⟨0x0A, core % 16, 1, []⟩
    | _ => s)
    (s.updHost (fun h => { h with reads := h.reads.filter (fun r => match r.kind with
      | .flush _ _ _ _ | .attach | .probe => false
      | _ => true) }))

/-- The session enters DETACHED for a cause (R381). -/
def State.detach (s : State) (cause : Nat) : State :=
  if s.session = 1 then s
  else
    let late := s.host.after
    let room := 60 * 2 ^ 20
    let wins := (List.range 64).map (fun w => (s.rd .hostWinAddr 0 w, s.rd .hostWinCfg 0 w))
    let ds := s.host.doubt
    let s1 := (s.wrF .hostSession 0 0 0 2 1).updHost (fun h => { h with
      wins := wins
      cause := cause
      stepAt := (s.core s.lowCore).step
      doubt := []
      after := []
      flushQ := []
      queued := []
      wraps := []
      held := h.held.map (fun x => { x with spooled := true, late := false })
      stepGw := none
      spool := h.spool.map (fun w => { w with torn := true }) })
    let s2 := forEach ds (fun w s => s.tornAdd (tornOf w false)) s1
    let s3 := forEach late (fun w s =>
      if !w.ro then (s.pushEntry (.flag w.win w.off) w.bytes []).tornAdd ⟨w.win, w.off, w.bytes.length, w.tag, true, false, true, false, false⟩
      else if w.retain ∧ s.retainedBytes + w.bytes.length ≤ room then
        (s.updHost (fun h => { h with spool := h.spool ++ [{ w with torn := true }] })).tornAdd (tornOf w false)
      else s.tornAdd (tornOf w w.retain)) s2
    let s4 := forEach s.host.flushQ (fun i s => s.reply i ⟨0x0A, i.core, 1, []⟩) s3
    ((s4.tearReads.resetPort).bump .hostDetachCnt 0 1).gwEvent .session
      (.gen cause 1 0 (s.rdF .hostSession 0 0 32 16) 0 0) [1]

/-- PERST_N (R380, R470, R486): a fundamental reset of the host port. -/
def execPerstN (s : State) : Host.Outcome State Fault Refusal := .next (s.detach 0)
/-- HOT_RESET (R380). -/
def execHotReset (s : State) : Host.Outcome State Fault Refusal := .next (s.detach 0)
/-- LINK_DISABLE (R380). -/
def execLinkDisable (s : State) : Host.Outcome State Fault Refusal := .next (s.detach 2)
/-- DATA_LINK_DOWN (R380). -/
def execDataLinkDown (s : State) : Host.Outcome State Fault Refusal := .next (s.detach 1)
/-- BME_CLEAR (R380). -/
def execBmeClear (s : State) : Host.Outcome State Fault Refusal := .next (s.detach 3)
/-- FUNCTION_LEVEL_RESET (R380). -/
def execFunctionLevelReset (s : State) : Host.Outcome State Fault Refusal := .next (s.detach 5)
/-- DETACH (R380, R381): the DETACH command of HOST_SESSION_CTL. -/
def execDetach (s : State) : Host.Outcome State Fault Refusal := .next (s.detach 4)

/-- The host link has trained: its speed and width are what the two ends negotiated (R386; log entry 2). -/
def State.linkUp (s : State) : State :=
  (s.wr .hostLink 0 0 (4 + Config.freeByte 3 s.freeIx 0 % 3 + 2 ^ (Config.freeByte 3 s.freeIx 1 % 5) * 2 ^ 4 + 2 ^ 10)).fresh 1

/-- The host reaches the package over BAR0: a link that a reset has taken down has trained again (DESIGN CHOICE, log entry 129). -/
def State.linkSeen (s : State) : State := if (s.rd .hostLink 0 0).testBit 10 then s else s.linkUp

/-- A write of ATTACH (R383, R384): steps 1 and 2. -/
def State.attachCmd (s : State) (epoch : Nat) : State :=
  if s.session ≠ 1 ∨ epoch ≠ s.rdF .hostSession 0 0 32 16 then s.hostViol 4 epoch
  else
    let s1 := ((s.wrF .hostSession 0 0 0 2 2).linkSeen).resendData
    s1.hostRead .attach s1.flushAddr 8 0 0

/-- ATTACH (R383, R384): the ATTACH command of HOST_SESSION_CTL with its epoch. -/
def execAttach (epoch : Nat) (s : State) : Host.Outcome State Fault Refusal := .next (s.attachCmd (epoch % 2 ^ 16))

/-! ## Windows and ring configuration (R365, R368) -/

/-- A write of HOST_WIN_ADDR_w or HOST_WIN_CFG_w (R365). -/
def State.writeWin (s : State) (w : Nat) (cfg : Bool) (v : Nat) : State :=
  let valid := (s.rd .hostWinCfg 0 w).testBit 0
  let put := fun (s : State) => if cfg then s.wr .hostWinCfg 0 w (bitsOf v 0 4 + bitsOf v 12 27 * 2 ^ 12)
    else s.wr .hostWinAddr 0 w (bitsOf v 12 52 * 2 ^ 12)
  if valid && s.session != 1 && !(cfg && !v.testBit 0) then s.hostViol 0xFF v else put s

/-- HOST_WIN_CFG (R365). -/
def execHostWinCfg (win value : Nat) (cfg : Bool) (s : State) : Host.Outcome State Fault Refusal :=
  .next (s.writeWin (win % 64) cfg (value % 2 ^ 64))

/-- Registers of a ring by its kind: 0 submission, 1 completion, 2 event. -/
def ringKind (kind n : Nat) : Reg × Reg × Reg × Reg × Nat :=
  if kind = 0 then (.hostSqCfg, .hostSqBase, .hostSqHead, .hostSqTail, n)
  else if kind = 1 then (.hostCqCfg, .hostCqBase, .hostCqHead, .hostCqTail, n)
  else (.hostEvqCfg, .hostEvqBase, .hostEvqHead, .hostEvqTail, 0)

/-- LOG2 of a ring configuration as the gateway reads it, and whether it counts (R386). -/
def ringLog (v : Nat) : Nat := min (max (bitsOf v 0 5) 4) 16

/-- A write of a ring's base or configuration (R368, R385, R386). -/
def State.writeRing (s : State) (kind n : Nat) (base : Bool) (v : Nat) : State :=
  let r := ringKind kind n
  let on := (s.rd r.1 0 r.2.2.2.2).testBit 5
  if base then (if on then s.misuse 3 else s.wr r.2.1 0 r.2.2.2.2 (bitsOf v 12 52 * 2 ^ 12))
  else if on ∧ v.testBit 5 then s.misuse 3
  else
    let s1 := if ringLog v = bitsOf v 0 5 then s else s.hostViol 0xFF v
    let s2 := if kind = 1 ∧ bitsOf v 8 6 < 3 then s1.hostViol 0xFF v else s1
    let s3 := s2.wr r.1 0 r.2.2.2.2 (ringLog v + bitsOf v 5 1 * 32 + (if kind = 1 then max 3 (bitsOf v 8 6) * 256 else 0))
    let k := if kind = 1 then n else if kind = 2 then 16 else 17
    if on then ((s3.wr r.2.2.1 0 r.2.2.2.2 0).wr r.2.2.2.1 0 r.2.2.2.2 0).updHost (fun h =>
        { h with wraps := h.wraps.filter (fun w => w != k) })
    else s3.drain

/-- HOST_RING_CFG (R368, R386). -/
def execHostRingCfg (kind ring value : Nat) (base : Bool) (s : State) : Host.Outcome State Fault Refusal :=
  .next (s.writeRing (kind % 3) (ring % 16) base (value % 2 ^ 64))

end Sys2Proof.Machine
end

