-- ==== Sys2Proof/Machine/PwrOps.lean ====
section
/-! DEFINITION. Power grants: the die pools, their requests, the states of cores that follow their grants (R440, R451,
R453). -/

namespace Sys2Proof.Machine

def State.updPwr (s : State) (f : Pwr → Pwr) : State := { s with pwr := f s.pwr }

/-- Compute die of an island with a grant: cores 0 to 127, fabric islands 128 to 135, vault controllers 136 to 143 (R27). -/
def islandDie (i : Nat) : Nat := if i < 128 then i / 16 else (i - 128) % 8
/-- Full grant and keep-alive share of an island (R451). -/
def fullGrant (i : Nat) : Nat := if i < 128 then 216 else if i < 136 then 288 else 128
def keepShare (i : Nat) : Nat := if i < 128 then 12 else if i < 136 then 48 else 128
/-- Islands of a compute die that draw on its pool. -/
def dieIslands (d : Nat) : List Nat := (List.range 16).map (fun n => 16 * d + n) ++ [128 + d, 136 + d]

def State.grant (s : State) (i : Nat) : Nat := SMap.get (fun _ => 0) s.pwr.grants i
def State.poolCap (s : State) (d : Nat) : Nat := s.rdF .pwrPool 0 d 0 12
def State.poolIssued (s : State) (d : Nat) : Nat := s.rdF .pwrPool 0 d 12 12

/-- Units that a core island needs at a frequency (R453): linear between the operating points, rounded up. -/
def coreNeed (mhz : Nat) : Nat :=
  let seg := fun (f0 g0 f1 g1 : Nat) => ceilDiv (g0 * (f1 - f0) + (g1 - g0) * (mhz - f0)) (f1 - f0)
  if mhz ≤ 800 then seg 600 39 800 66 else if mhz ≤ 1000 then seg 800 66 1000 102
  else if mhz ≤ 1200 then seg 1000 102 1200 152 else seg 1200 152 1400 216

/-- The highest frequency whose need fits a core's grant and its ceiling, in steps of 50 MHz; 0 below 39 units. -/
def coreMhz (grant fmax : Nat) : Nat :=
  (((List.range 17).map (fun i => 1400 - 50 * i)).find? (fun f => decide (coreNeed f ≤ grant) && decide (f ≤ max 600 fmax))).getD 0

/-- An island's grant becomes `n`; its pool's ISSUED follows, a core retunes to the highest frequency that its grant allows (R453), and
a core in Run or Trim changes between them (R440). -/
def State.setGrant (s : State) (i n : Nat) : State :=
  let d := islandDie i
  let mhz := coreMhz n (s.rdF .pwrFmax 0 i 0 12)
  let s1 := (s.updPwr (fun p => { p with
      grants := SMap.set (fun _ => 0) p.grants i n
      freq := if i < 128 then SMap.set (fun _ => 0) p.freq i mhz else p.freq })).wrF .pwrPool 0 d 12 12
    (s.poolIssued d + n - s.grant i)
  if i < 128 ∧ s.coreState i ≤ 1 ∧ 0 < n then s1.setCoreState i (if n < 216 then 1 else 0) else s1

/-- Serve the requests of a die pool in arrival order while it has free units (R451). -/
def State.serveAsks (s : State) (d : Nat) : Nat → State
  | 0 => s
  | k + 1 =>
    match s.pwr.asks.find? (fun a => islandDie a.1 == d) with
    | none => s
    | some a =>
      let free := s.poolCap d - s.poolIssued d
      let g := max (s.grant a.1) (min a.2 (s.grant a.1 + free))
      let s1 := if g = s.grant a.1 then s else s.setGrant a.1 g
      if a.2 ≤ g then State.serveAsks (s1.updPwr (fun p => { p with asks := p.asks.erase a })) d k else s1

/-- An island asks its pool for a grant of `n` units. -/
def State.askGrant (s : State) (i n : Nat) : State :=
  let s1 := s.updPwr (fun p => { p with asks := p.asks.filter (fun a => a.1 != i) ++ [(i, n)] })
  s1.serveAsks (islandDie i) (s1.pwr.asks.length + 1)

/-- Lower grants in descending order of grant, ties to the higher index, by what is over; none below its keep-alive share. -/
def State.cutGrants (s : State) : List Nat → Nat → State
  | [], _ => s
  | i :: is, over1 =>
    let k := min over1 (s.grant i - keepShare i)
    State.cutGrants (if k = 0 then s else s.setGrant i (s.grant i - k)) is (over1 - k)

/-- The cap of a die pool is set; when more is issued the grants of its units are lowered (R451). -/
def State.setCap (s : State) (d cap : Nat) : State :=
  let s1 := s.wrF .pwrPool 0 d 0 12 (min cap 4000)
  let order := (dieIslands d).mergeSort (fun a b => decide (s.grant b < s.grant a ∨ (s.grant a = s.grant b ∧ b ≤ a)))
  let s2 := s1.cutGrants order (s.poolIssued d - min cap 4000)
  s2.serveAsks d (s2.pwr.asks.length + 1)

/-- A unit's grant and its requests return to the pool (R30, R393). -/
def State.returnGrant (s : State) (i : Nat) : State :=
  let s1 := (s.setGrant i 0).updPwr (fun p => { p with asks := p.asks.filter (fun a => a.1 != i) })
  s1.serveAsks (islandDie i) (s1.pwr.asks.length + 1)

/-- A core that enters Lend returns its grant but for the keep-alive share, and asks for nothing (R301). -/
def State.lendGrant (s : State) (g : Nat) : State :=
  let s1 := (s.setGrant g (min 12 (s.grant g))).updPwr (fun p => { p with asks := p.asks.filter (fun a => a.1 != g) })
  s1.serveAsks (islandDie g) (s1.pwr.asks.length + 1)

/-- The hinge array and the vector engine of a core are clocked: not with a grant from its keep-alive share up to below the lowest
operating point (R453). -/
def State.clocked (s : State) (g : Nat) : Bool := !(decide (12 ≤ s.grant g) && decide (s.grant g < 39))

end Sys2Proof.Machine
end

