-- ==== Sys2Proof/Machine/Sync.lean ====
section
/-! DEFINITION. Commands of the sequencer, the tumblers, the latches and Lend (R281 to R306). -/

namespace Sys2Proof.Machine

/-! ## Dispatch -/

/-- Violation counter of the unit that an OP belongs to, with its block instance (R247). -/
def opViolReg (g op : Nat) : Reg × Nat :=
  if op = 0x10 then (.hngViolCnt, g)
  else if 0x20 ≤ op ∧ op ≤ 0x3F then (.veViolCnt, g)
  else if 0x40 ≤ op ∧ op ≤ 0x4F then (.laneViolCnt, g)
  else if op = 0x58 then (.coreGatherViolCnt, g)
  else (.prgIslViolCnt, g / 16)

/-- Does a descriptor write or read out a reduction-buffer slot (R247). -/
def writesSlot (op desc : Nat) : Bool :=
  op == 0x50 || (op == 0x10 && dfld desc 2 3 2 == 3) || (op == 0x21 && dfld desc 88 5 1 == 1)
    || (op == 0x30 && dfld desc 1 2 1 == 1)

/-- Entries that an eval slot may not issue (R247). -/
def evalForbidden (op desc : Nat) : Bool :=
  (decide (0x40 ≤ op) && decide (op ≤ 0x4F)) || op == 0x58 || writesSlot op desc

/-- The layer's bit in the frozen map (R110). -/
def State.frozenLayer (s : State) (g layer : Nat) : Bool := (s.rd .coreFrozenMap g (layer / 64)).testBit (layer % 64)

/-- WGRAD_SKIP: a class-2 entry of a frozen layer, of whatever kind, while SKIP_EN is set (R110). -/
def State.wgradSkip (s : State) (g cls layer : Nat) : Bool :=
  cls == 2 && s.frozenLayer g layer && (s.rd .coreBwdCtl g 0).testBit 0

/-- A digest descriptor (DIGEST or DCMP) outside a digest step of the image (R243). The spec does not say how the schedule, which is the
same in every step, leaves it out: the model skips it, waits and signals performed (DEDUCED, log entry 111). -/
def State.digestSkip (s : State) (g op : Nat) : Bool :=
  (op == 0x42 || op == 0x53) && decide (s.img.digestInt ≠ 0) && decide ((s.core g).step % s.img.digestInt ≠ 0)

/-- Tiles that a skipped matrix descriptor would have signalled (R110 step 4). -/
def skippedTiles (desc : Nat) : Nat :=
  let m := min (dfld desc 4 0 32) (2 ^ 24)
  let n := min (dfld desc 8 0 32) (2 ^ 24)
  let k := dfld desc 12 0 32
  if dfld desc 1 4 1 = 1 ∨ m = 0 ∨ n = 0 ∨ k = 0 then 0 else ceilDiv m 128 * ceilDiv n 128

/-- Stream 3 holds a closing entry: the sequencer continues only after it (R286). -/
def Core.closingPending (c : Core) : Bool := (c.stream 3).any Entry.closing

/-- The entry read at a position: its fields as the sequencer reads them, its stream, and its violations (R281, R282).
`desc` and `op` are those of the descriptor it names. -/
structure ReadEntry where
  entry : Entry
  stream : Nat
  viols : List Viol
  deriving DecidableEq, Repr

/-- Parse the 64 bytes of an entry `w` at position `pos` (R282, R283). A DESC_ADDR that is not aligned: the spec says that misaligned bits
are cleared and counted, not which OP gives the alignment; the model reads OP at the address aligned to 32 bytes, the smallest
alignment, and takes stream and alignment from it (DESIGN CHOICE, log entry 112). -/
def State.parseEntry (s : State) (g pos w : Nat) : ReadEntry :=
  let k0 := dfld w 0 0 4
  let k := if 4 ≤ k0 then 1 else k0
  let f8 := dfld w 8 0 64
  let a0 := s.adr g (f8 / 32 * 32 % 2 ^ 56)
  let own := match locOf a0 with
    | .vault h _ => addrPkg a0 == s.pkg && h == g
    | .stage h _ => addrPkg a0 == s.pkg && h == g
    | _ => false
  let op := s.byteAt a0
  let a := a0 / descAlign op * descAlign op
  let bad := decide (k = 0) && (!own || (opStream op).isNone)
  let vs : List Viol := (if 4 ≤ k0 then [⟨0, k0⟩] else []) ++ (if k = 0 ∧ a ≠ s.adr g (f8 % 2 ^ 56) then [⟨8, f8⟩] else [])
    ++ (if bad then [⟨8, f8⟩] else []) ++ waitViols 16 (dfld w 16 0 64) ++ waitViols 24 (dfld w 24 0 64)
  let k' := if bad then 1 else k
  let st := if k' = 0 then (opStream op).getD 3 else if bad then 3 else if k' = 1 then dfld w 1 2 2 else 3
  let cls := dfld w 1 0 2
  let layer := dfld w 2 0 12
  let desc := if k' = 0 then s.natAt a (descLen op) else 0
  let ev := (s.core g).evalRun
  let skip := s.wgradSkip g cls layer
    || (decide (k' = 0) && ((ev && evalForbidden op desc) || s.digestSkip g op))
  ⟨{ pos := pos, kind := k', cls := cls, layer := layer, addr := if k' = 0 then a else f8,
     waits := [dfld w 16 0 64, dfld w 24 0 64],
     sigs := [dfld w 32 0 64, dfld w 40 0 64, dfld w 48 0 64, dfld w 56 0 64],
     skip := skip, eval := ev, waited := 0, target := none, stuck := false, subst := [], arrived := false, issued := false, taken := false, done := false,
     desc := if skip then desc else 0, census := [] }, st, vs⟩

/-- Lines that the sequencer reads to dispatch the entry at `a`: the entry's, the one that holds OP, and once these are ready
(`v` is memory as the core sees it then) the descriptor's. -/
def State.entryLines (s : State) (g a : Nat) : List (Nat × Nat) :=
  let a1 := s.adr g a
  let ls := s.linesOf a1 64
  let more := fun (v : State) (ls : List (Nat × Nat)) (n : Nat → Nat) =>
    if ls.all (s.lineReady g) then
      let e := ((s.view g ls).parseEntry g 0 ((s.view g ls).natAt a1 64)).entry
      if e.kind = 0 then ls ++ v.linesOf e.addr (n e.addr) else ls
    else ls
  let opLine := if ls.all (s.lineReady g) then
      ls ++ s.linesOf (s.adr g (dfld ((s.view g ls).natAt a1 64) 8 0 64 / 32 * 32 % 2 ^ 56)) 1 else ls
  more s opLine (fun a => descLen ((s.view g opLine).byteAt a))

/-- The entry at the sequencer's position goes to its stream, when the core and its memory allow; a full stream makes it
wait. An address that names nothing is the core's violation too (R15, R511). -/
def State.dispatchEntry (s : State) (core : Nat) : State :=
  let c := s.core core
  let a := s.rdF .synSqBase core 0 6 50 * 64 + 64 * c.pos
  let r := s.gateReads core (s.entryLines core a)
  match r.2 with
  | none => r.1
  | some v =>
    let w := v.natAt (v.adr core a) 64
    let e := v.parseEntry core c.pos w
    if 8 ≤ (c.stream e.stream).length then r.1
    else
      let d := dfld w 8 0 64
      let bads := (if addrBad a then [(0xFF, a)] else []) ++ (if dfld w 0 0 4 = 0 ∧ addrBad (d % 2 ^ 56) then [(8, d)] else [])
      let r1 := forEach bads (fun p s => s.coreAddrViol core e.entry.kind e.entry.pos p.1 p.2) r.1
      (((r1.viols' .synViolCnt core e.entry.kind e.entry.pos e.viols).updCore core (fun c => { c with
        pos := c.pos + 1,
        streams := (c.setStream e.stream (c.stream e.stream ++ [e.entry])).streams })).normHead core e.stream)

/-- ENTRY_DISPATCH (R281, R282, R110, R247): the entry at the sequencer's position goes to its stream; a full stream, a
closing entry, a running context save or a halt makes dispatch wait. -/
def execEntryDispatch (core : Nat) (s : State) : Host.Outcome State Fault Refusal :=
  let c := s.core core
  .next (if !s.running core || c.closingPending || c.halted || c.saveReq || s.runStop then s
    else s.dispatchEntry core)

/-! ## Waits -/

/-- A stream whose head may perform its waits: a closing entry only when nothing else is dispatched (R286). -/
def Core.mayWait (c : Core) (st : Nat) (e : Entry) : Bool :=
  !e.closing || ((List.range 4).all (fun t => (c.stream t).length == (if t = st then 1 else 0)))

/-- A head with a wait in hand of operation `op`. -/
def State.headWith (s : State) (g st op : Nat) : Option Entry :=
  match (s.core g).head st with
  | some e => if e.waited < 2 ∧ waitOp e.wait = op ∧ (s.core g).mayWait st e then some e else none
  | none => none

/-- TUMBLER_WAIT (R287 to R289, R397): the head of a stream evaluates its tumbler wait and is released or held; the wait on the
step-start tumbler begins once the start save is taken. -/
def execTumblerWait (core stream : Nat) (s : State) : Host.Outcome State Fault Refusal :=
  .next (if !s.running core then s
    else
      let s0 := s.normHead core stream
      match s0.headWith core stream 1 with
      | none => s0
      | some e =>
        if stream = 3 ∧ e.target.isNone ∧ waitObj e.wait = s0.startTmb ∧ s0.needsStartSave core then s0
        else s0.evalTumbler core stream e)

/-- Amount violations of a latch wait (R283, R293). -/
def State.amountSeen (s : State) (g m : Nat) (e : Entry) : State :=
  if (s.latch g m).amountViol (waitArg e.wait) then
    s.viol .synViolCnt g e.kind e.pos (18 + 8 * e.waited) (waitArg e.wait) else s

/-- LATCH_TAKE (R292, R293): a blocking take reaches its latch, is served at once or waits in arrival order. -/
def execLatchTake (core stream : Nat) (s : State) : Host.Outcome State Fault Refusal :=
  .next (if !s.running core then s
    else
      let s0 := s.normHead core stream
      match s0.headWith core stream 2 with
      | none => s0
      | some e =>
        if e.arrived then s0
        else
          let m := waitObj e.wait
          let s1 := s0.amountSeen core m e
          let a := (s1.latch core m).amount (waitArg e.wait)
          let s2 := ((if (s1.latch core m).count < a then s1.trace core 2 else s1).updHead core stream
            (fun e => { e with arrived := true })).updCore core
            (fun c => { c with takes := c.takes ++ [⟨m, stream, a⟩] })
          ((s2.serveTakes core m 5).retryTry core m).latchMoved core m)

/-- LATCH_TRY (R292, R294): a try takes at once, or records the shortfall and proceeds; a tally at its limit holds it. -/
def execLatchTry (core stream : Nat) (s : State) : Host.Outcome State Fault Refusal :=
  .next (if !s.running core then s
    else
      let s0 := s.normHead core stream
      match s0.headWith core stream 3 with
      | none => s0
      | some e =>
        if e.arrived then s0
        else
          let m := waitObj e.wait
          let s1 := s0.amountSeen core m e
          let v := s1.latch core m
          let a := v.amount (waitArg e.wait)
          let waits := (s1.core core).takes.any (fun t => t.latch == m)
          if a ≤ v.count ∧ !(v.ticket && waits) then
            let s2 := ((s1.setLatch core m (v.take a)).setShort core m stream false).satisfyHead core stream
            (s2.serveTakes core m 5).latchMoved core m
          else if tallyMax < (v.short a).udf then
            ((s1.trace core 2).updHead core stream (fun e => { e with arrived := true })).queue .synTallyLimit core (some core)
              (latchRecord m stream a v)
          else
            let v' := v.short a
            ((((s1.setLatch core m v').setShort core m stream true).bump .synLatchUdfCnt core 1).queue .synLatchUdf core
              (some core) (latchRecord m stream a v')).satisfyHead core stream)

/-! ## Messages and their copies (R303, R304) -/

/-- A message reaches a core from the fabric island of its die; after an update of its object the second copy of COUNT shows `dup`,
where it differs, and the copies are compared. -/
def State.message (s : State) (core op obj amount path : Nat) (subst : Bool) (dup : Option Nat) : State :=
  let g := s.home core
  let x : Sig := ⟨op, obj, min (max amount 1) (2 ^ 20), path % 16, subst, 128 + core / 16⟩
  let applies := s.sigOpen g x && !(s.core g).frozen
  let s1 := s.deliverSig core x
  match dup with
  | some d => if applies then (s1.setCopy1 g (op - 1) obj 0 d).compare g (op - 1) obj else s1
  | none => s1

/-- TUMBLER_ADD (R287, R291, R296, R303, R304): a signal reaches a core; `dup` is what the second copy of COUNT shows
after the update where it disagrees. -/
def execTumblerAdd (core obj amount path : Nat) (subst : Bool) (dup : Option Nat) (s : State) :
    Host.Outcome State Fault Refusal :=
  .next (if core < 128 ∧ obj < 256 then s.message core 1 obj amount path subst dup else s)

/-- LATCH_POST (R292 to R294, R303, R304): a post reaches a core. -/
def execLatchPost (core obj amount path : Nat) (subst : Bool) (dup : Option Nat) (s : State) :
    Host.Outcome State Fault Refusal :=
  .next (if core < 128 ∧ obj < 256 then s.message core 2 obj amount path subst dup else s)

/-- Does a field of an object exist in two copies: COUNT, MARK and the configuration (BOUND, ADV_STREAM) of a tumbler, COUNT, OVF, UDF
and the configuration (CAPACITY, TICKET) of a latch, the path set, the hasp flag. -/
def copyField (kind obj field : Nat) : Bool :=
  match kind with
  | 0 => decide (obj < 256 ∧ (field < 2 ∨ field = 3))
  | 1 => decide (obj < 64 ∧ field < 4)
  | 2 | 3 => decide (obj = 0 ∧ field = 0)
  | _ => false

/-- SYN_SCRUB (R304): every object's copies are compared; `upsets` lists the fields whose second copy a fault has struck since
the last update, as (kind, object, field, copy 1). -/
def execSynScrub (core : Nat) (upsets : List (Nat × Nat × Nat × Nat)) (s : State) : Host.Outcome State Fault Refusal :=
  .next (if s.active core then
      let s1 := forEach (upsets.filter (fun u => copyField u.1 u.2.1 u.2.2.1)) (fun u s =>
        s.setCopy1 core u.1 u.2.1 u.2.2.1 u.2.2.2) s
      forEach (s1.core core).dup (fun d s =>
        s.dupMismatch core d.1 d.2.1 (s.copy0 core d.1 d.2.1 d.2.2.1) d.2.2.2) s1
    else s)

/-! ## Completion -/

/-- Packages of the domain: those of the image, and the package itself. -/
def State.inDomain (s : State) (p : Nat) : Bool := p == s.pkg || s.img.packages.contains p

/-- Perform one signal field of an entry (R284); `mark` joins a tumbler signal's substitution mark (R373). -/
def State.performSignal (s : State) (g : Nat) (e : Entry) (mark : Bool) (off w : Nat) : State :=
  let op := bitsOf w 0 3
  if op = 0 then s
  else if 3 ≤ op then s.viol .synViolCnt g e.kind e.pos off op
  else
    let n0 := bitsOf w 32 21
    let n := min (max n0 1) (2 ^ 20)
    let s1 := if n = n0 then s else s.viol .synViolCnt g e.kind e.pos (off + 4) n0
    let x0 := s1.sigOf g op (bitsOf w 8 8) n
    let x := { x0 with subst := x0.subst || (mark && op == 1) }
    if w.testBit 3 then s1.deliverSig g x
    else
      let p := bitsOf w 16 6
      let t := bitsOf w 22 7
      if p = s1.pkg then s1.deliverSig t x
      else if s1.inDomain p then s1.remoteSig g p t x
      else s1.viol .synViolCnt g e.kind e.pos (off + 2) p

/-- SIG0 to SIG3 in order (R285 step 4). -/
def State.performSignals (s : State) (g : Nat) (e : Entry) (mark : Bool) : State :=
  forEach (e.sigs.zip [32, 40, 48, 56]) (fun p s => s.performSignal g e mark p.2 p.1) s

/-- A skipped entry has signalled (R110 steps 4 and 5, R247): a matrix descriptor's TILE_TMB, then its counter: CORE_WGRAD_SKIP_CNT, or
in an eval slot the violation counter of its unit. -/
def State.skipEnd (s : State) (g : Nat) (e : Entry) : State :=
  let op := dfld e.desc 0 0 8
  let s1 := if op = 0x10 ∧ dfld e.desc 3 0 8 ≠ 0xFF then s.selfTmb g (dfld e.desc 3 0 8) (skippedTiles e.desc) else s
  if s.wgradSkip g e.cls e.layer then s1.bump .coreWgradSkipCnt g 1
  else if e.eval ∧ evalForbidden op e.desc then s1.viol (opViolReg g op).1 (opViolReg g op).2 op e.pos 0xFF 0
  else s1

/-- ENTRY_COMPLETE (R284, R285, R74, R110): the oldest entry of a stream, its descriptor complete, folds its census and
performs its signals. -/
def execEntryComplete (core stream : Nat) (s : State) : Host.Outcome State Fault Refusal :=
  .next (if !s.works core then s
    else match (s.core core).stream stream with
    | [] => s
    | e :: es =>
      if !(e.issued && e.done) || e.closing then s
      else
        let s1 := (s.trace core 1).updCore core (fun c => c.setStream stream es)
        if e.skip then (s1.performSignals core e false).skipEnd core e
        else (s1.foldCensus core e.pos e.eval e.census).performSignals core e false)

/-! ## The end of a step -/

/-- P1 and P2 after the update of a step (R229, R232). -/
def State.stepPowers (s : State) (g : Nat) : State :=
  let b1 := Num.ofF32 (s.rdF .coreOptBeta1 g 0 0 32)
  let b2 := Num.ofF32 (s.rdF .coreOptBeta2 g 0 0 32)
  let p1 := (f32Mul (Num.ofF32 (s.rdF .coreOptP1 g 0 0 32)) b1).toF32
  let p2 := (f32Mul (Num.ofF32 (s.rdF .coreOptP2 g 0 0 32)) b2).toF32
  ((s.wr .coreOptP1 g 0 p1).wr .coreOptP2 g 0 p2).wrF .coreOptT g 0 0 48 ((s.rdF .coreOptT g 0 0 48 + 1) % m48)

/-- The closing entry at the head of stream 3 with everything before it complete and its waits satisfied (R286). -/
def State.closingReady (s : State) (g kind : Nat) : Option Entry :=
  match (s.core g).stream 3 with
  | e :: _ => if e.kind = kind ∧ 2 ≤ e.waited ∧ (s.core g).mayWait 3 e then some e else none
  | [] => none

/-- A core advances its step counter only when every update of the step has committed: no gate closed by a non-finite
norm, no poison withheld, the partition not stopped (R34, R173, R231, R388). -/
def State.mayAdvance (s : State) (g : Nat) : Bool :=
  !(s.core g).withhold && !(s.rd .coreOptStatus g 0).testBit 2 && !s.runStop && !(s.core g).boundStop

/-- The position after STEP_ADV for the new step number (R286). -/
def nextPos (f8 step : Nat) : Nat × Bool :=
  let period := bitsOf f8 32 16
  if period ≠ 0 ∧ step % period = 0 then (bitsOf f8 0 32, true) else (0, false)

/-! ### The verify step (R410) -/

/-- The loss that the lead compares: at the rank address of HUB_CKPT_LOSS_ADDR, when its rank stands in this package. -/
def State.lossHere (s : State) : Option Nat :=
  let a := s.rankAddr (s.rdF .hubCkptCfg 0 0 16 16) (s.rdF .hubCkptLossAddr 0 0 2 54 * 4)
  if addrPkg a = s.pkg then some (s.natAt a 4) else none

/-- Do the losses agree: bit for bit, or within HUB_CKPT_TOL where arrival order or substitution is enabled. -/
def State.lossAgrees (s : State) (a b : Nat) : Bool :=
  let tol := Num.ofF32 (s.rdF .hubCkptTol 0 0 0 32)
  let free := (List.range 8).any (fun d => (s.rd .prgRedCtl d 0).testBit 1) || s.tier.wins.any (fun w => w.subst)
  a == b || (free && !(Num.ofF32 a).isNan && !(Num.ofF32 b).isNan && !tol.isNan && !tol.sign
    && !Num.lt (Num.mulExact tol (Num.ofF32 b).abs) (Num.addExact (Num.ofF32 a) (Num.ofF32 b).neg).abs)

/-- The lead compares the loss of the verify step with the trailer (R410 step 5). -/
def State.judgeLoss (s : State) (l tr st : Nat) : State :=
  let s1 := { s with flt := { s.flt with verify := none, verifyLoss := none } }
  if s.lossAgrees l tr then s1 else s1.queue .fltRestoreMismatch 164 none (.gen 0 0 0 l tr st)

/-- The verify step has run on every core of this package: where the loss stands, the lead's hub judges it, or is told it (hub message
50). A loss that another package has told waits for it at the lead. -/
def State.verifyLoss (s : State) : State := match s.flt.verify with
  | none => s
  | some (st, tr) =>
    if s.workers.any (fun g => decide ((s.core g).step ≤ st)) then s
    else match s.lossHere, s.isLead with
    | some l, true => s.judgeLoss l tr st
    | some l, false => ({ s with flt := { s.flt with verify := none } }).tellLead 50 [st, l]
    | none, true => match s.flt.verifyLoss with
      | some l => s.judgeLoss l tr st
      | none => s
    | none, false => { s with flt := { s.flt with verify := none } }

/-- The loss of a verify step reaches the lead. -/
def State.tellLoss (s : State) (st l : Nat) : State := match s.flt.verify with
  | some (n, _) => if n = st then ({ s with flt := { s.flt with verifyLoss := some l } }).verifyLoss else s
  | none => s

/-- The closing entry of stream 3 leaves it, and the sequencer goes on at a position. -/
def Core.closeAt (c : Core) (pos : Nat) (eval : Bool) : Core :=
  { c with pos := pos, evalRun := eval, streams := (c.setStream 3 ((c.stream 3).drop 1)).streams }

/-- The step counter and the optimiser registers advance (R34, R232, R242): with OVERLAP set the newest working copy changes its
buffer with the step parity; STEP_SUBST is cleared (R267). -/
def State.advanceStep (s : State) (core n : Nat) : State :=
  let s0 := ((s.stepPowers core).wrF .coreOptStatus core 0 1 1 0).wrF .coreSubstStatus core 0 0 1 0
  let s1 := if (s.rd .coreOptCtl core 0).testBit 2 then s0.wrF .coreOptStatus core 0 0 1 n else s0
  s1.updCore core (fun c => { c with step := n, stgFix := [] })

/-- A skipped STEP_ADV or EVAL_END (R110): it has waited as it would, advances nothing, signals and is counted; the sequencer goes on at
the next position (DESIGN CHOICE, log entry 112). -/
def State.skipClosing (s : State) (core : Nat) (e : Entry) : State :=
  ((s.updCore core (fun c => c.closeAt (e.pos + 1) c.evalRun)).performSignals core e
    (e.kind == 2 && (s.rd .coreSubstStatus core 0).testBit 0)).skipEnd core e

/-- STEP_ADV (R34, R232, R242, R286, R373). In an eval slot it advances no step counter (R34); the spec does not say where the sequencer
goes then: the model performs its signals and goes on at the next position (DESIGN CHOICE, log entry 112). -/
def execStepAdv (core : Nat) (s : State) : Host.Outcome State Fault Refusal :=
  .next (if !s.running core then s
    else match s.closingReady core 2 with
    | none => s
    | some e =>
      if e.skip then s.skipClosing core e
      else if e.eval then
        (s.updCore core (fun c => c.closeAt (e.pos + 1) c.evalRun)).performSignals core e ((s.rd .coreSubstStatus core 0).testBit 0)
      else if !s.mayAdvance core then s
      else
        let n := ((s.core core).step + 1) % m48
        let p := nextPos e.addr n
        ((s.advanceStep core n).updCore core (fun c => c.closeAt p.1 p.2)).verifyLoss.performSignals core e
          ((s.rd .coreSubstStatus core 0).testBit 0))

/-- EVAL_END (R286): waits as STEP_ADV does, advances nothing, signals and continues at position 0. -/
def execEvalEnd (core : Nat) (s : State) : Host.Outcome State Fault Refusal :=
  .next (if !s.running core then s
    else match s.closingReady core 3 with
    | none => s
    | some e =>
      if e.skip then s.skipClosing core e
      else (s.updCore core (fun c => c.closeAt 0 false)).performSignals core e false)

/-! ## Lend and heartbeats -/

/-- A waiting head: a tumbler wait evaluated and not reached, or a latch take that waits. -/
def Entry.waiting (e : Entry) : Bool := e.target.isSome || e.arrived

/-- Does a waiting head qualify for Lend (R300): it has waited the threshold, or the projection of its tumbler, with the
mean interval of its last eight signals, passes the threshold. Times in ns. -/
def State.lendHead (s : State) (g : Nat) (e : Entry) (waited mean : Nat) : Bool :=
  let th := max 1000 (s.rdF .synLendCtl g 0 0 16)
  decide (th ≤ waited) || (match e.target with
    | some t => SMap.get (fun _ => 0) (s.core g).sigSeen (waitObj e.wait) == 8
        && decide (th < tmbAhead (s.tmbCount g (waitObj e.wait)) t * mean)
    | none => false)

/-- Has the hinge array or the vector engine a descriptor in hand: one that has issued and is not complete, or a recompute's. -/
def Core.inHand (c : Core) : Bool :=
  c.hng.job.isSome || c.ve.job.isSome || (c.stream 0 ++ c.stream 1).any (fun e => e.issued && !e.done)

/-- May the core enter Lend (R300, R301): it runs, Lend is enabled, no save is requested, no descriptor is in the hinge array or
the vector engine, a head waits, and every head waits and qualifies. -/
def State.lendReady (s : State) (g : Nat) (times : List (Nat × Nat)) : Bool :=
  let c := s.core g
  s.running g && (s.rd .synLendCtl g 0).testBit 16 && !c.lent && !c.saveReq && !c.inHand
    && (List.range 4).any (fun st => ((c.head st).map Entry.waiting).getD false)
    && (List.range 4).all (fun st => match c.head st with
        | some e => e.waiting && s.lendHead g e (times.getD st (0, 0)).1 (times.getD st (0, 0)).2
        | none => (c.stream st).isEmpty)

/-- LEND_ENTER (R300, R301): `times` gives for each stream how long its head has waited and the mean interval of its
tumbler. The core returns its grant but for the keep-alive share. -/
def execLendEnter (core : Nat) (times : List (Nat × Nat)) (s : State) : Host.Outcome State Fault Refusal :=
  .next (if s.lendReady core times then
      (((s.updCore core (fun c => { c with lent := true, released := false })).bump .synLendCnt core 1).setCoreState
        core 2).lendGrant core
    else s)

/-- Must a lent core leave Lend (R301): a wait of a head has been satisfied, or a save, Hold or a deadbolt is requested. -/
def State.lendWake (s : State) (g : Nat) : Bool :=
  let c := s.core g
  c.released || c.saveReq || decide (c.fence ≠ .none) || decide (s.rdF .pwrStatus 0 0 3 3 ≠ 0)

/-- LEND_EXIT (R301): a wait of a head has been satisfied, or a save, Hold or deadbolt is requested; the core asks its pool for its
grant again. `cycles` were spent lent. -/
def execLendExit (core cycles : Nat) (s : State) : Host.Outcome State Fault Refusal :=
  .next (if (s.core core).lent && s.lendWake core then
      (((s.updCore core (fun c => { c with lent := false, released := false })).bump .synLendCycCnt core cycles).setCoreState
        core 1).askGrant core 216
    else s)

/-- CORE_HEARTBEAT (R392): the fabric island of the die sees the core alive; `waitCycles` are the core cycles that its
heads have waited since the last one (SYN_WAIT_CYC_CNT). -/
def execCoreHeartbeat (core waitCycles : Nat) (s : State) : Host.Outcome State Fault Refusal :=
  .next (if s.active core && decide ((s.core core).fence = .none) then
      (s.updCore core (fun c => { c with missed := 0 })).bump .synWaitCycCnt core waitCycles
    else s)

/-- HEARTBEAT_MISS (R391, R392): one more heartbeat of the core is missed; at the eighth in a row the fabric island
queues a CORE_HANG record. -/
def execHeartbeatMiss (core : Nat) (s : State) : Host.Outcome State Fault Refusal :=
  .next (if s.active core && decide ((s.core core).fence = .none) then
      let n := (s.core core).missed + 1
      let s1 := s.updCore core (fun c => { c with missed := if n = 8 then 0 else n })
      if n = 8 then
        s1.queue .coreHang (128 + core / 16) (some core) (.gen 0 (core % 16) 0 (s.rdF .hngDescSeq core 0 0 32) 0 0)
      else s1
    else s)

end Sys2Proof.Machine
end

