-- ==== Sys2Proof/Machine/Training.lean ====
section
/-! DEFINITION. The master gather, the norm at a core and fabric descriptors in hand (R228 to R231, R238, R239, R325). -/

namespace Sys2Proof.Machine

/-! ## Fabric descriptors in hand -/

/-- The oldest fabric descriptor of a core with an operation code that is in hand. -/
def State.fabJob (s : State) (g op : Nat) : Option FabJob :=
  s.prg.jobs.find? (fun j => j.core == g && bitsOf j.desc 0 8 == op)
def State.fabJobAt (s : State) (g pos : Nat) : Option FabJob := s.prg.jobs.find? (fun j => j.core == g && j.pos == pos)
def State.updFabJob (s : State) (g pos : Nat) (f : FabJob → FabJob) : State :=
  s.updPrg (fun p => { p with jobs := p.jobs.map (fun j => if j.core = g ∧ j.pos = pos then f j else j) })
/-- Take the next issued entry of stream 3 with an operation code in hand; it carries the step tag at issue. -/
def State.takeFab (s : State) (g op : Nat) : State :=
  match (s.core g).nextFor op with
  | some e => (s.takeEntry g e.pos).updPrg (fun p => { p with
      jobs := p.jobs ++ [⟨g, e.pos, e.desc, s.stepTag g, 0, [], [], false, false⟩] })
  | none => s
/-- A fabric descriptor completes (R285, R325). -/
def State.fabDone (s : State) (g pos : Nat) (cs : List CensusSet) : State :=
  (s.updPrg (fun p => { p with jobs := p.jobs.filter (fun j => !(j.core == g && j.pos == pos)) })).descDoneAt g pos cs
/-- A violation of a fabric descriptor or message, counted by the fabric island (R337). -/
def State.islViol (s : State) (d op seq field value : Nat) : State := s.viol .prgIslViolCnt d op seq field value

/-! ## The master gather (R238, R239) -/

/-- The gather as the fabric island reads it: whether there is work, first line, tiles, destination, the bytes from there on that lie
in the core's own stage memory or vault, violations. -/
structure Gather where
  work : Bool
  l0 : Nat
  tiles : Nat
  dst : Nat
  room : Nat
  tmb : Nat
  viols : List Viol
  deriving DecidableEq, Repr

def State.gatherParse (s : State) (g d : Nat) : Gather :=
  let count := dfld d 4 0 32
  let raw := dfld d 8 0 64
  let a := s.adr g (raw % 2 ^ 56)
  let own := if addrPkg a = s.pkg then lineOfVault g (locOf a) else none
  let byte := own.getD 0
  let byte' := setBits (byte / 1024 * 1024) 17 1 0
  let l0 := byte' / 128
  let lim := ((32768 - l0 / 2048) * 128 - lineBank l0) / 128
  let draw := dfld d 16 0 64
  let da := s.adr g (draw % 2 ^ 56 / 128 * 128)
  let room := if addrPkg da = s.pkg then (match locOf da with
    | .vault h b => if h = g then 2 ^ 33 - b else 0
    | .stage h b => if h = g then stgBytes - b else 0
    | _ => 0) else 0
  let vs : List Viol :=
    (if own.isNone then [⟨8, raw⟩]
      else (if byte' = byte then [] else [⟨8, raw⟩]) ++ (if lim < count then [⟨4, count⟩] else []))
    ++ (if draw % 128 = 0 then [] else [⟨16, draw⟩])
    ++ (if room = 0 ∨ (own.isSome ∧ room < 65536 * min count lim) then [⟨16, draw⟩] else [])
  ⟨count != 0 && own.isSome, l0, min count lim, da, room, dfld d 3 0 8, vs⟩

/-- Lines of a tile: HI in slots 8 and 9, LO in 10 and 11 of its 128 groups. -/
def Gather.lines (x : Gather) (t : Nat) : List Nat :=
  (List.range 128).flatMap (fun i => (List.range 4).map (fun q => groupLine x.l0 (128 * t + i) (8 + q)))

/-- FP32 words from the bytes of the LO and HI halves. -/
def joinHalves : List Nat → List Nat → List Nat
  | a :: b :: ls, c :: d :: hs => a :: b :: c :: d :: joinHalves ls hs
  | _, _ => []

/-- Bytes of the FP32 tile `t`; a POISON line reads as zeros (R173). -/
def State.gatherTile (s : State) (g : Nat) (x : Gather) (t : Nat) : List Nat :=
  (List.range 128).flatMap (fun i =>
    let d := fun q =>
      let r := s.rawLine g (groupLine x.l0 (128 * t + i) (8 + q))
      if r.poison then List.replicate 128 0 else r.data
    joinHalves (d 2) (d 0) ++ joinHalves (d 3) (d 1))

/-- The first group of a tile whose HI and LO tags do not all equal the step tag, with the tags that differ. -/
def State.gatherSkew (s : State) (g : Nat) (x : Gather) (t tag : Nat) : Option (Nat × Nat × Nat) :=
  (List.range 128).findSome? (fun i =>
    let n := 128 * t + i
    let tg := fun q => (s.rawLine g (groupLine x.l0 n (8 + q))).tag
    let pick := fun a b => if a ≠ tag then a else b
    if tg 0 = tag ∧ tg 1 = tag ∧ tg 2 = tag ∧ tg 3 = tag then none
    else some (n, pick (tg 0) (tg 1), pick (tg 2) (tg 3)))

/-- Has every line of the tile `t` been stored. -/
def State.gatherStored (s : State) (g : Nat) (x : Gather) (t : Nat) : Bool :=
  s.writesDone (128 + g / 16) (s.linesOf (x.dst + 65536 * t) (min 65536 (x.room - 65536 * t)))

def State.gatherSignal (s : State) (g : Nat) (x : Gather) : State := if x.tmb = 0xFF then s else s.selfTmb g x.tmb 1

/-- Gather tiles from the one at which the descriptor stands, as far as their lines can be read and their writes are stored (R171,
R239): `sent` marks a tile that is written and waits to be stored before TILE_TMB is signalled. -/
def State.gatherTiles (s : State) (g pos tag : Nat) (x : Gather) (t : Nat) : Nat → State
  | 0 => s.fabDone g pos []
  | n + 1 =>
    match s.gateReads (fabUnit g 0) ((x.lines t).map (fun l => (g, l))) with
    | (s1, none) => s1.updFabJob g pos (fun j => { j with next := t })
    | (s1, some v) => match v.gatherSkew g x t tag with
      | some (i, hi, lo) =>
        State.gatherTiles ((s1.bump .coreTagSkewCnt g 1).queue .trnTagSkew (128 + g / 16) (some g)
          (.gen 0 0 0 (lineBank (groupLine x.l0 i 0) + 512 + tag * 2 ^ 16) (hi * 2 ^ 32 + lo * 2 ^ 48)
            (vaultAddr s1.pkg g (128 * groupLine x.l0 i 0)))) g pos tag x (t + 1) n
      | none =>
        let s2 := if x.room ≤ 65536 * t then s1
          else s1.writeAt (128 + g / 16) (x.dst + 65536 * t) ((v.gatherTile g x t).take (x.room - 65536 * t)) tag false
        if s2.gatherStored g x t then State.gatherTiles (s2.gatherSignal g x) g pos tag x (t + 1) n
        else s2.updFabJob g pos (fun j => { j with next := t, sent := true })

/-- MASTER_GATHER (R238, R239): the fabric island takes the core's gather in hand, or goes on with it after a wait for a
line. -/
def execMasterGather (core : Nat) (s : State) : Host.Outcome State Fault Refusal :=
  .next (if !s.works core then s
    else match s.fabJob core 0x58 with
    | some j =>
      let x := s.gatherParse core j.desc
      if !j.sent then s.gatherTiles core j.pos j.tag x j.next (x.tiles - j.next)
      else if s.gatherStored core x j.next then
        ((s.gatherSignal core x).updFabJob core j.pos (fun j => { j with sent := false })).gatherTiles core j.pos j.tag x
          (j.next + 1) (x.tiles - (j.next + 1))
      else s
    | none =>
      let s1 := s.takeFab core 0x58
      match s1.fabJob core 0x58 with
      | none => s
      | some j =>
        let x := s1.gatherParse core j.desc
        let s2 := s1.viols' .coreGatherViolCnt core 0x58 j.pos x.viols
        if x.work then s2.gatherTiles core j.pos j.tag x 0 x.tiles else s2.fabDone core j.pos [])

/-! ## The norm at a core (R230, R231) -/

/-- CORE_OPT_MAXNORM as the core reads it: a value that is not positive is +infinity, counted (R248). -/
def State.maxNorm (s : State) (g : Nat) : Num × Bool :=
  let m := Num.ofF32 (s.rdF .coreOptMaxnorm g 0 0 32)
  if Num.lt Num.zero m then (m, false) else (.inf false, true)

/-- The clip factor of R230. -/
def clipOf (maxNorm n2 : Num) : Num :=
  let n := f32Sqrt n2
  if Num.lt n maxNorm || Num.eqv n maxNorm then Num.one else f32Div maxNorm n

/-- A core takes n2 (R230, R231, R330): stores n2 and clip, counts a clipped step, stops the run on a value that is not
finite while NF_HALT is set, and signals NORM_TMB. -/
def State.takeNorm (s : State) (g n2 tmb : Nat) : State :=
  let x := Num.ofF32 n2
  let m := s.maxNorm g
  let c := clipOf m.1 x
  let s1 := if m.2 then s.viol .coreGatherViolCnt g 0xFF 0xFFFFFFFF 0xFF (s.rdF .coreOptMaxnorm g 0 0 32) else s
  let s2 := (s1.wrF .coreOptNorm2 g 0 0 32 n2).wrF .coreOptClip g 0 0 32 c.toF32
  let s3 := if Num.lt c Num.one then s2.bump .coreClipStepCnt g 1 else s2
  let s4 := if !x.isFin && (s.rd .coreOptCtl g 0).testBit 1 then
      (s3.wrF .coreOptStatus g 0 2 1 1).queue .trnNonfinite g (some g) (.gen 0 0 0 n2 0 0)
    else s3
  (s4.updCore g (fun c => { c with normAt := some c.step })).deliverSig g
    ⟨1, tmb, 1, 0, false, 128 + g / 16⟩

/-- A norm of a step reaches a core: a repeat changes nothing (R324). -/
def State.normArrive (s : State) (g n2 tmb : Nat) : State :=
  if (s.core g).normAt = some (s.core g).step then s else s.takeNorm g n2 tmb

end Sys2Proof.Machine
end

