-- ==== Sys2Proof/Machine/Transc.lean ====
section
/-! DEFINITION. The vector engine's transcendental functions: the exact value to far more bits than FP32 has, and the results
that the accuracy column of R140 admits for it (R140, R141; log entry 108). -/

namespace Sys2Proof.Machine

/-- Fraction bits of the fixed-point arithmetic of this file. -/
def fxBits : Nat := 320

/-- 1 in fixed point. -/
def fxOne : Nat := 2 ^ fxBits

def fxMul (x y : Nat) : Nat := x * y / fxOne
def fxDiv (x y : Nat) : Nat := x * fxOne / y

/-- A magnitude `m * 2^e` in fixed point. -/
def fxOf (m : Nat) (e : Int) : Nat := if -(fxBits : Int) ≤ e then m * 2 ^ (e + fxBits).toNat else m / 2 ^ (-(e + fxBits)).toNat

/-- A fixed-point number as an exact number with a sticky bit. -/
def fxNum (s : Bool) (x : Nat) : Num := .fin s (2 * x + 1) (-(fxBits : Int) - 1)

/-- The Taylor sum of the exponential of a fixed-point number below 1: `k` terms from the `n`th on, `t` the term before. -/
def fxExpSum (x : Nat) : (k n t : Nat) → Nat
  | 0, _, t => t
  | k + 1, n, t => t + fxExpSum x k (n + 1) (fxMul t x / n)

/-- The exponential of a fixed-point number below 256: of its 256th part, squared eight times. -/
def fxExp (x : Nat) : Nat := (List.range 8).foldl (fun y _ => fxMul y y) (fxExpSum (x / 256) 70 1 fxOne)

/-- The inverse hyperbolic tangent of a fixed-point number below 1/3 by its series; `z2` its square, `t` the power in hand. -/
def fxAtanhSum (z2 : Nat) : (k n t : Nat) → Nat
  | 0, _, _ => 0
  | k + 1, n, t => t / n + fxAtanhSum z2 k (n + 2) (fxMul t z2)

def fxAtanh (z : Nat) : Nat := fxAtanhSum (fxMul z z) 110 1 z

/-- ln 2 in fixed point. -/
def fxLn2 : Nat := 2 * fxAtanh (fxOne / 3)

/-- Above this magnitude every function of R140 is at its limit in FP32 and well beyond it. -/
def fxFar (m : Nat) (e : Int) : Bool := Num.magLt 160 0 m e

/-- eᵃ of a finite operand, to within 2^-200 of itself; beyond the range of FP32 a number beyond it. -/
def exactExp : Num → Num
  | .fin s m e =>
    if fxFar m e then (if s then .fin false 1 (-300) else .fin false 1 300)
    else
      let y := fxExp (fxOf m e)
      fxNum false (if s then fxDiv fxOne y else y)
  | x => x

/-- ln a of a positive operand `m * 2^e`: with `a = y * 2^k`, 2/3 < y ≤ 4/3. -/
def exactLog : Num → Num
  | .fin _ m e =>
    let k0 : Int := Num.topExp m e
    let y0 := fxOf m (e - k0)
    let k : Int := if 4 * fxOne < 3 * y0 then k0 + 1 else k0
    let y := fxOf m (e - k)
    let neg := decide (y < fxOne)
    let z := if neg then fxDiv (fxOne - y) (fxOne + y) else fxDiv (y - fxOne) (fxOne + y)
    let l : Int := (if neg then -1 else 1) * (2 * fxAtanh z : Nat) + k * (fxLn2 : Int)
    if l = 0 then .fin false 0 0 else fxNum (decide (l < 0)) l.natAbs
  | x => x

/-- σ of a finite number. -/
def exactSigmoid (x : Num) : Num :=
  match x with
  | .fin s m e =>
    if fxFar m e then (if s then .fin false 1 (-300) else fxNum false (fxOne - 1))
    else
      let y := fxExp (fxOf m e)
      fxNum false (if s then fxDiv fxOne (fxOne + y) else fxDiv y (fxOne + y))
  | _ => x

/-- tanh of a finite number; by its series below 2^-20. -/
def exactTanh : Num → Num
  | .fin s m e =>
    if m = 0 then .fin s 0 0
    else if fxFar m e then fxNum s (fxOne - 1)
    else if Num.magLt m e 1 (-20) then
      let x := Num.fin s m e
      let x2 := Num.mulExact x x
      let p := Num.addExact (.fin true 1 0) (Num.mulExact x2 (Num.divExact (.fin false 2 0) (.fin false 5 0)))
      Num.addExact x (Num.mulExact (Num.divExact (Num.mulExact x x2) (.fin false 3 0)) p)
    else
      let y := fxExp (2 * fxOf m e)
      fxNum s (fxDiv (y - fxOne) (y + fxOne))
  | x => x

/-- The exact value that a function of R140 approximates, at a finite operand for which R141 lists no result. -/
def exactFn (f : Nat) (a : Num) : Num :=
  if f = 0x13 then Num.divExact Num.one (Num.sqrtExact a)
  else if f = 0x14 then exactExp a
  else if f = 0x15 then exactLog a
  else if f = 0x16 then exactTanh a
  else if f = 0x17 then exactSigmoid a
  else if f = 0x18 then Num.mulExact a (exactSigmoid a)
  else if f = 0x19 then
    let g := exactSigmoid a
    Num.mulExact g (Num.addExact Num.one (Num.mulExact a (exactSigmoid a.neg)))
  else
    let c := fun (p q : Nat) => Num.divExact (.fin false p 0) (.fin false q 0)
    let u := Num.mulExact (c 797885 1000000)
      (Num.addExact a (Num.mulExact (c 44715 1000000) (Num.mulExact a (Num.mulExact a a))))
    Num.mulExact a (exactSigmoid (u.scale2 1))

/-- Exponent of the last place of FP32 at an exact magnitude; at 0 that of the smallest subnormal. -/
def ulpAt (m : Nat) (e : Int) : Int := if m = 0 then -149 else fltF32.ulp m e

/-- Is `|r - x|` at most `k` last places of FP32 at the exact value `x` (no upper limit on its exponent; an infinite `r` counts as
2^128), or, with `abs`, below 2^-26. -/
def admits (k : Nat) (abs : Bool) (x r : Num) : Bool :=
  match x, (match r with
    | .inf s => Num.fin s 1 128
    | _ => r) with
  | .fin s m e, .fin t n f =>
    (match Num.addExact (.fin t n f) (.fin (!s) m e) with
      | .fin _ d g => (if r.isInf then Num.magLt fltF32.top fltF32.topE m e && (s == t) else false)
          || !Num.magLt k (ulpAt m e) d g || (abs && Num.magLt d g 1 (-26))
      | _ => false)
  | _, _ => false

/-- Accuracy of a function (R140): last places, and whether an absolute error below 2^-26 will do. -/
def fnUlps (f : Nat) : Nat × Bool :=
  if f ≤ 0x15 then (1, false) else if f ≤ 0x18 then (2, false) else (2, true)

/-- The result of a transcendental function at an operand that R141 does not list: some FP32 value that the accuracy of R140
admits, a fixed one per function and operand (a free value, log entries 2 and 108). -/
def freeFn (f : Nat) (a : Num) : Num :=
  let x := exactFn f a
  let r := Num.ofF32 (Config.transcend f a.toF32)
  if admits (fnUlps f).1 (fnUlps f).2 x r then r else fltF32.round x

end Sys2Proof.Machine
end

