-- ==== Sys2Proof/Machine/Chain.lean ====
section
/-! DEFINITION. The arithmetic of the vector engine: chain functions, reductions, scans, and the row statistics
(R118, R119, R139 to R143, R147 to R153). -/

namespace Sys2Proof.Machine

/-! ## Order (R141) -/

/-- Order of MIN and MAX: −0 below +0. -/
def Num.below (a b : Num) : Bool :=
  if a.isNan || b.isNan then false
  else if a.isZero && b.isZero then a.sign && !b.sign
  else Num.lt a b

def veMin (a b : Num) : Num := if a.isNan || b.isNan then .nan else if Num.below b a then b else a
def veMax (a b : Num) : Num := if a.isNan || b.isNan then .nan else if Num.below a b then b else a

/-! ## Chain functions (R140, R141) -/

/-- eᵃ. -/
def veExp (a : Num) : Num :=
  match a with
  | .nan => .nan
  | .inf s => if s then Num.zero else .inf false
  | _ => freeFn 0x14 a

/-- The functions of one operand. -/
def veUnary (f : Nat) (a : Num) : Num :=
  if a.isNan then .nan
  else if f = 0x11 then f32Sqrt a
  else if f = 0x12 then f32Recip a
  else if f = 0x13 then
    (if a.isZero then .inf a.sign
     else if a.sign then .nan
     else if a.isInf then Num.zero
     else freeFn f a)
  else if f = 0x14 then veExp a
  else if f = 0x15 then
    (if a.isZero then .inf true
     else if a.sign then .nan
     else if a.isInf then .inf false
     else freeFn f a)
  else if f = 0x16 then
    (if a.isInf then Num.withSign a.sign Num.one else freeFn f a)
  else if f = 0x17 then
    (if a.isInf then (if a.sign then Num.zero else Num.one) else freeFn f a)
  else if f = 0x18 ∨ f = 0x1A then
    (if a.isInf then (if a.sign then .fin true 0 0 else .inf false) else freeFn f a)
  else if f = 0x19 then
    (if a.isInf then (if a.sign then .fin true 0 0 else Num.one) else freeFn f a)
  else a

/-- Number of operands of a chain function; none for an unlisted one. JOIN16 and the splits are raw steps. -/
def fnArity (f : Nat) : Option Nat :=
  if f = 0 then some 0
  else if f = 4 ∨ f = 0x0A ∨ f = 0x0C then some 3
  else if f = 1 ∨ f = 2 ∨ f = 3 ∨ f = 5 ∨ f = 6 ∨ f = 0x0B ∨ f = 0x10 ∨ f = 0x20 then some 2
  else if (7 ≤ f ∧ f ≤ 9) ∨ (0x11 ≤ f ∧ f ≤ 0x1A) ∨ f = 0x21 ∨ f = 0x22 then some 1
  else none

/-- Functions marked Packed in R140. -/
def fnPacked (f : Nat) : Bool := decide (1 ≤ f) && decide (f ≤ 0x0C)

/-- The value of a chain function that is not a raw step. -/
def veFn (f : Nat) (a b c : Num) : Num :=
  if f = 1 then f32Add a b
  else if f = 2 then f32Sub a b
  else if f = 3 then f32Mul a b
  else if f = 4 then f32Fma a b c
  else if f = 5 then veMin a b
  else if f = 6 then veMax a b
  else if f = 7 then a.abs
  else if f = 8 then a.neg
  else if f = 9 then a
  else if f = 0x0A then veMin (veMax a b) c
  else if f = 0x0B then (if Num.lt a b then Num.one else Num.zero)
  else if f = 0x0C then (if a.isZero then c else b)
  else if f = 0x10 then f32Div a b
  else veUnary f a

/-! ## Lane-steps and their events (R142) -/

/-- What the lane-steps counted so far came to: overflows to ∞ from finite operands, NaNs from operands that hold none. -/
structure Ev where
  ovf : Nat
  inv : Nat
  deriving DecidableEq, Repr

def Ev.zero : Ev := ⟨0, 0⟩
def Ev.add (a b : Ev) : Ev := ⟨a.ovf + b.ovf, a.inv + b.inv⟩
def Ev.sum (l : List Ev) : Ev := l.foldl Ev.add Ev.zero

/-- The event of one lane-step. -/
def Ev.of (xs : List Num) (r : Num) : Ev :=
  ⟨if r.isInf && xs.all Num.isFin then 1 else 0, if r.isNan && xs.all (fun x => !x.isNan) then 1 else 0⟩

/-- A lane-step of one operand or of two: its result and its event. -/
def lane1 (f : Num → Num) (a : Num) : Num × Ev := (f a, Ev.of [a] (f a))
def lane2 (f : Num → Num → Num) (a b : Num) : Num × Ev := (f a b, Ev.of [a, b] (f a b))

/-- A chain step as encoded (R139). -/
structure VStep where
  fn : Nat
  a : Nat
  b : Nat
  c : Nat
  dst : Nat
  deriving DecidableEq, Repr

/-- The step at byte `off` of a descriptor. -/
def VStep.read (d off : Nat) : VStep :=
  ⟨dfld d off 0 6, dfld d (off + 1) 0 4, dfld d (off + 1) 4 4, dfld d (off + 2) 0 4, dfld d (off + 2) 4 4⟩

def VStep.args (t : VStep) : List Nat := [t.a, t.b, t.c].take ((fnArity t.fn).getD 0)

/-- The step computes a result: its function is listed and no NOP. -/
def VStep.acts (t : VStep) : Bool := (fnArity t.fn).isSome && t.fn != 0
/-- The step's result goes somewhere: to an output or a temporary; with a destination code from 0x2 to 0x7 it is discarded. -/
def VStep.live (t : VStep) : Bool := t.acts && !(decide (2 ≤ t.dst) && decide (t.dst ≤ 7))

/-- What a lane hands to an output. -/
inductive LaneOut where
  | none
  | val (v : Num)
  | raw (code : Nat)
  deriving DecidableEq, Repr

/-- One lane of a vector under the chain: temporaries by number, the two outputs, the events of R142. -/
structure LaneSt where
  t : SMap Nat
  o0 : LaneOut
  o1 : LaneOut
  ev : Ev
  deriving DecidableEq, Repr

def LaneSt.start : LaneSt := ⟨[], .none, .none, Ev.zero⟩

/-- A source element in a lane: its FP32 value and, when its format is BF16 or FP16, its code. -/
structure LaneSrc where
  v : Num
  code : Option Nat
  deriving DecidableEq, Repr

/-- Value of an operand code (R139). -/
def laneArg (src : Nat → LaneSrc) (imm0 imm1 : Nat) (st : LaneSt) (c : Nat) : Num :=
  if c ≤ 2 then (src c).v
  else if c = 3 then Num.ofF32 imm0
  else if c = 4 then Num.ofF32 imm1
  else if c = 6 then Num.one
  else if 8 ≤ c then Num.ofF32 (SMap.get (fun _ => 0) st.t c)
  else Num.zero

/-- Put a step's result where DST says; a destination code from 0x2 to 0x7 discards it. -/
def LaneSt.put (st : LaneSt) (dst : Nat) (r : LaneOut) : LaneSt :=
  if dst = 0 then { st with o0 := r }
  else if dst = 1 then { st with o1 := r }
  else if dst < 8 then st
  else match r with
    | .val v => { st with t := SMap.set (fun _ => 0) st.t dst v.toF32 }
    | _ => st

/-- Is the destination of a raw step an output that takes 16-bit codes (R143). -/
def rawDst (out16 : Nat → Bool) (dst : Nat) : Bool := decide (dst ≤ 1) && out16 dst

/-- One chain step in one lane (R139 to R143). -/
def laneStep (src : Nat → LaneSrc) (imm0 imm1 : Nat) (out16 : Nat → Bool) (st : LaneSt) (t : VStep) : LaneSt :=
  if !t.acts then st
  else
    let arg := laneArg src imm0 imm1 st
    let raw := fun (c : Nat) => if c ≤ 2 then ((src c).code).getD 0 else 0
    if t.fn = 0x20 then
      let r := Num.ofF32 (raw t.a * 2 ^ 16 + raw t.b)
      { st with ev := st.ev.add (Ev.of (t.args.map arg) r) }.put t.dst (.val r)
    else if t.fn = 0x21 ∨ t.fn = 0x22 then
      if rawDst out16 t.dst then
        let b := (arg t.a).toF32
        st.put t.dst (.raw (if t.fn = 0x21 then b / 2 ^ 16 else b % 2 ^ 16))
      else st
    else
      let r := veFn t.fn (arg t.a) (arg t.b) (arg t.c)
      { st with ev := st.ev.add (Ev.of (t.args.map arg) r) }.put t.dst (.val r)

/-- The chain in one lane; temporaries start at +0. -/
def laneChain (src : Nat → LaneSrc) (imm0 imm1 : Nat) (out16 : Nat → Bool) (ts : List VStep) : LaneSt :=
  ts.foldl (laneStep src imm0 imm1 out16) LaneSt.start

/-! ## Reductions (R147 to R149) -/

/-- The function of a REDUCE or SCAN: 0 and 1 sums, 2 maximum, 3 minimum, 4 maximum of magnitudes. -/
def redOp (f : Nat) : Num → Num → Num := if f = 2 ∨ f = 4 then veMax else if f = 3 then veMin else f32Add
/-- Its identity (R145). -/
def redId (f : Nat) : Num := if f = 2 then .inf true else if f = 3 then .inf false else Num.zero
/-- What an element contributes; the squares of FUNC 1 are lane-steps of their own (R147). -/
def redIn (f : Nat) (x : Num) : Num × Ev :=
  if f = 1 then lane2 f32Mul x x else (if f = 4 then x.abs else x, Ev.zero)

/-- One level of a tree. -/
def pairOp (op : Num → Num → Num) : List Num → List Num × Ev
  | a :: b :: r =>
    let p := lane2 op a b
    let q := pairOp op r
    (p.1 :: q.1, p.2.add q.2)
  | r => (r, Ev.zero)

/-- The tree of a chunk of `w` elements, filled with the identity: `levels` levels (R147, R148). -/
def treeOp (op : Num → Num → Num) (id : Num) (w levels : Nat) (xs : List Num) : Num × Ev :=
  let r := (List.range levels).foldl (fun (l : List Num × Ev) _ =>
    let p := pairOp op l.1
    (p.1, l.2.add p.2)) (xs.take w ++ List.replicate (w - xs.length) id, Ev.zero)
  (r.1.headD id, r.2)

/-- A chunk enters a reduction in the fixed order of R147: its tree, then one addition to the accumulator. Along a row a chunk is
32 columns with five levels, along a column 8 rows with three (R148). -/
def redChunk (op : Num → Num → Num) (id : Num) (byCol : Bool) (acc : Num) (xs : List Num) : Num × Ev :=
  let t := if byCol then treeOp op id 8 3 xs else treeOp op id 32 5 xs
  let r := lane2 op acc t.1
  (r.1, t.2.add r.2)

/-! ## Scans (R150, R151) -/

/-- One level of the segmented scan of a chunk: `d` is the distance. -/
def scanLevel (op : Num → Num → Num) (d : Nat) (xs : List (Bool × Num)) : List (Bool × Num) × Ev :=
  let rs := (xs.zip (List.range xs.length)).map (fun p =>
    if d ≤ p.2 then
      let q := xs.getD (p.2 - d) (false, Num.zero)
      let r := if p.1.1 then (p.1.2, Ev.zero) else lane2 op q.2 p.1.2
      ((p.1.1 || q.1, r.1), r.2)
    else (p.1, Ev.zero))
  (rs.map (fun r => r.1), Ev.sum (rs.map (fun r => r.2)))

/-- The inclusive outputs of a chunk and its carry (R151). -/
def scanChunk (op : Num → Num → Num) (levels : Nat) (carry : Num) (xs : List (Bool × Num)) : List Num × Num × Ev :=
  let ys := (List.range levels).foldl (fun (l : List (Bool × Num) × Ev) k =>
    let r := scanLevel op (2 ^ k) l.1
    (r.1, l.2.add r.2)) (xs, Ev.zero)
  let out := ys.1.map (fun y => if y.1 then (y.2, Ev.zero) else lane2 op carry y.2)
  (out.map (fun o => o.1), (out.map (fun o => o.1)).getLastD carry, ys.2.add (Ev.sum (out.map (fun o => o.2))))

/-- The outputs of a chunk, inclusive or exclusive. `first`: the chunk holds the scan's first element. -/
def scanOut (excl first : Bool) (id carry : Num) (seg : List Bool) (incl : List Num) : List Num :=
  if !excl then incl
  else (List.range incl.length).map (fun i =>
    if seg.getD i false || (first && i == 0) then id
    else if i = 0 then carry else incl.getD (i - 1) id)

/-! ## Row statistics (R118, R119, R153)

A row operation reduces each row in passes. Pass 1 forms one or two sums (`second` names the second): RMS the sum of squares; layer
normalisation the sum, then the sum of squared deviations; soft-maximum the maximum, then the sum of exponentials. -/

/-- What pass 1 finds for a row: `mu` (layer normalisation: the mean; soft-maximum: the maximum) and `r` (the root, or the sum of
exponentials); pass 2 of the row recompute adds `a` and `b` (for the soft-maximum c is `a`). -/
structure RowStat where
  mu : Num
  r : Num
  a : Num
  b : Num
  deriving DecidableEq, Repr

/-- The FP32 value of 1/n. -/
def invCount (n : Nat) : Num := f32Recip (fltF32.round (.fin false n 0))

/-- The operation and the identity of a sum of pass 1. -/
def statOp (kind : Nat) (second : Bool) : Num → Num → Num := if kind = 2 ∧ !second then veMax else f32Add
def statId (kind : Nat) (second : Bool) : Num := if kind = 2 ∧ !second then .inf true else Num.zero

/-- What an unmasked element contributes to a sum of pass 1. -/
def statIn (kind : Nat) (second : Bool) (par mu x : Num) : Num × Ev :=
  if kind = 0 then lane2 f32Mul x x
  else if kind = 1 then
    (if second then
      let d := lane2 f32Sub x mu
      let q := lane2 f32Mul d.1 d.1
      (q.1, d.2.add q.2)
    else (x, Ev.zero))
  else
    let z := lane2 f32Mul par x
    if second then
      let d := lane2 f32Sub z.1 mu
      let e := lane1 veExp d.1
      (e.1, Ev.sum [z.2, d.2, e.2])
    else z

/-- The root of a mean: √(sum × 1/n + EPS). -/
def statRoot (n : Nat) (par sum : Num) : Num × Ev :=
  let m := lane2 f32Mul sum (invCount n)
  let e := lane2 f32Add m.1 par
  let r := lane1 f32Sqrt e.1
  (r.1, Ev.sum [m.2, e.2, r.2])

/-- The statistics of a row of `n` elements once a sum of pass 1 is complete. -/
def statEnd (kind : Nat) (second : Bool) (n : Nat) (par sum : Num) (t : RowStat) : RowStat × Ev :=
  if kind = 2 then (if second then ({ t with r := sum }, Ev.zero) else ({ t with mu := sum }, Ev.zero))
  else if kind = 1 ∧ !second then
    let m := lane2 f32Mul sum (invCount n)
    ({ t with mu := m.1 }, m.2)
  else
    let r := statRoot n par sum
    ({ t with r := r.1 }, r.2)

/-- The normalised element x̂ of R118. -/
def normHat (kind : Nat) (t : RowStat) (x : Num) : Num × Ev :=
  if kind = 0 then lane2 f32Div x t.r
  else
    let d := lane2 f32Sub x t.mu
    let q := lane2 f32Div d.1 t.r
    (q.1, d.2.add q.2)

/-- y of the soft-maximum. -/
def softY (t : RowStat) (scale x : Num) : Num × Ev :=
  let z := lane2 f32Mul scale x
  let d := lane2 f32Sub z.1 t.mu
  let e := lane1 veExp d.1
  let y := lane2 f32Div e.1 t.r
  (y.1, Ev.sum [z.2, d.2, e.2, y.2])

/-- y of the forward operations (R153): `b` is the bias of layer normalisation. -/
def normY (kind : Nat) (par : Num) (t : RowStat) (x g b : Num) : Num × Ev :=
  if kind = 2 then softY t par x
  else
    let h := normHat kind t x
    let y := lane2 f32Mul g h.1
    if kind = 1 then
      let z := lane2 f32Add y.1 b
      (z.1, Ev.sum [h.2, y.2, z.2])
    else (y.1, h.2.add y.2)

/-- What an unmasked element contributes to the row sums of pass 2 (R118): to a (for the soft-maximum to c) and to b. -/
def sumIn (kind : Nat) (par : Num) (t : RowStat) (x g dy : Num) : (Num × Num) × Ev :=
  if kind = 2 then
    let y := softY t par x
    let p := lane2 f32Mul dy y.1
    ((p.1, Num.zero), y.2.add p.2)
  else
    let u := lane2 f32Mul g dy
    let h := normHat kind t x
    let p := lane2 f32Mul u.1 h.1
    ((p.1, if kind = 1 then u.1 else Num.zero), Ev.sum [u.2, h.2, p.2])

/-- The row sums of pass 2 once complete: means for the normalisation kinds (R118, R119). -/
def sumEnd (kind n : Nat) (sa sb : Num) (t : RowStat) : RowStat × Ev :=
  if kind = 2 then ({ t with a := sa }, Ev.zero)
  else
    let a := lane2 f32Mul sa (invCount n)
    if kind = 1 then
      let b := lane2 f32Mul sb (invCount n)
      ({ t with a := a.1, b := b.1 }, a.2.add b.2)
    else ({ t with a := a.1 }, a.2)

/-- Pass 3 of R118: dx and y of one unmasked element, and its x̂. `yOut`: y is asked for. -/
def rowGrad (yOut : Bool) (kind : Nat) (par : Num) (t : RowStat) (x g dy : Num) : (Num × Num × Num) × Ev :=
  if kind = 2 then
    let y := softY t par x
    let p := lane2 f32Mul par y.1
    let q := lane2 f32Sub dy t.a
    let d := lane2 f32Mul p.1 q.1
    ((d.1, y.1, Num.zero), Ev.sum [y.2, p.2, q.2, d.2])
  else
    let h := normHat kind t x
    let u := lane2 f32Mul g dy
    let w := if kind = 1 then lane2 f32Sub u.1 t.b else (u.1, Ev.zero)
    let p := lane2 f32Mul h.1 t.a
    let q := lane2 f32Sub w.1 p.1
    let d := lane2 f32Div q.1 t.r
    let y := lane2 f32Mul g h.1
    ((d.1, y.1, h.1), Ev.sum [h.2, u.2, w.2, p.2, q.2, d.2, if yOut then y.2 else Ev.zero])

end Sys2Proof.Machine
end

