-- ==== Sys2Proof/Machine/Matrix.lean ====
section
/-! DEFINITION. The hinge array: matrix products, write-out of tiles and recomputes (R77 to R108, R116, R172, R225). -/

namespace Sys2Proof.Machine

/-! ## The descriptor -/

/-- A matrix descriptor as the array reads it (R93): its fields after the range behaviours, its violations, and the address fields
that violate R15. -/
structure HngDesc where
  transA : Bool
  transB : Bool
  transC : Bool
  accIn : Bool
  hold : Bool
  cont : Bool
  pin : Bool
  turn : Bool
  accMode : Nat
  selB : Bool
  dest : Nat
  tileTmb : Nat
  m : Nat
  n : Nat
  k : Nat
  a : Nat
  b : Nat
  c : Nat
  cin : Nat
  aRs : Nat
  bRs : Nat
  cRs : Nat
  slot : Nat
  fa : FmtField
  fb : FmtField
  fc : FmtField
  fi : FmtField
  viols : List Viol
  bad : List (Nat × Nat)
  deriving DecidableEq, Repr

/-- A row stride: 0 is the stored width, a smaller one is raised to it and counted (R93). -/
def rstrideOf (off raw width : Nat) : Nat × List Viol :=
  if raw = 0 then (width, []) else if raw < width then (width, [⟨off, raw⟩]) else (raw, [])

/-- A size field: clamped to 2^24 and counted (R93). -/
def sizeOf24 (off raw : Nat) : Nat × List Viol := if 2 ^ 24 < raw then (2 ^ 24, [⟨off, raw⟩]) else (raw, [])

/-- ES40 is permitted in stage memory only (R45). -/
def es40Only (f : Option Fmt) (a : Nat) : Option Fmt := if f = some .es40 ∧ !inStage a then none else f

/-- Half-open address range of a tensor of stored `rows x width` tiles (R83): one range, the gaps between its tile rows included
(DESIGN CHOICE, log entry 106). -/
def tensorRegion (a rs rows width : Nat) (f : Option Fmt) : Nat × Nat :=
  match f with
  | some f => (a, a + ((rows - 1) * rs + width) * f.footprint)
  | none => (a, a)

/-- Bytes from the base of a tensor to the end of its last tile; none where it has no tile. -/
def tensorLen (rs rows width : Nat) (f : Option Fmt) : Nat :=
  if rows = 0 ∨ width = 0 then 0 else (tensorRegion 0 rs rows width f).2

/-- Read a matrix descriptor (R93, R45, R80, R89, R96, R108). An address violates when the tensor or a later tile of it lies
where R87 forbids. -/
def State.hngParse (s : State) (g d : Nat) : HngDesc :=
  let bit := fun i => (dfld d 1 i 1) == 1
  let m := sizeOf24 4 (dfld d 4 0 32)
  let n := sizeOf24 8 (dfld d 8 0 32)
  let k := sizeOf24 12 (dfld d 12 0 32)
  let a := s.addrField g (dfld d 16 0 64)
  let b := s.addrField g (dfld d 24 0 64)
  let c := s.addrField g (dfld d 32 0 64)
  let i := s.addrField g (dfld d 40 0 64)
  let accIn := bit 3
  let ars := rstrideOf 48 (dfld d 48 0 32) (ceilDiv (if bit 0 then m.1 else k.1) 128)
  let brs := rstrideOf 52 (dfld d 52 0 32) (ceilDiv (if bit 1 then k.1 else n.1) 128)
  let crs := rstrideOf 56 (dfld d 56 0 32) (ceilDiv (if bit 2 then m.1 else n.1) 128)
  let dest := dfld d 2 3 2
  let am0 := dfld d 2 0 2
  let am1 := if 2 ≤ am0 then 0 else am0
  let am := if am1 = 1 ∧ !s.expert 1 then 0 else am1
  let ex := s.woExpert
  let fa := FmtField.read d 64 false false ex
  let fb := FmtField.read d 80 false false ex
  let fc0 := FmtField.read d 96 true true ex
  let fi0 := FmtField.read d 112 false true ex
  let fcE := fc0.1.fmt == some .es40 && (dest == 1 || dest == 2)
  let fcF := if fcE then some .fp32 else es40Only fc0.1.fmt c.1
  let fiF := es40Only fi0.1.fmt i.1
  let slot0 := dfld d 60 0 32
  let slot := s.slotClamp (s.slotDie g) slot0
  let av := fun (off raw : Nat) (x : Nat × Bool) (ok : Bool) =>
    ((if x.2 then [⟨off, raw % 128⟩] else []) ++ (if ok then [] else [⟨off, x.1⟩]) : List Viol)
  let wr := dest == 0 || dest == 2
  let mt := ceilDiv m.1 128
  let nt := ceilDiv n.1 128
  let kt := ceilDiv k.1 128
  let la := if bit 0 then tensorLen ars.1 kt mt fa.1.fmt else tensorLen ars.1 mt kt fa.1.fmt
  let lb := if bit 1 then tensorLen brs.1 nt kt fb.1.fmt else tensorLen brs.1 kt nt fb.1.fmt
  let lc := fun f => if bit 2 then tensorLen crs.1 nt mt f else tensorLen crs.1 mt nt f
  let pf := s.rdF .hngCtl g 0 0 4
  ⟨bit 0, bit 1, bit 2, accIn, bit 4, bit 5, bit 6, bit 7, am, dfld d 2 2 1 == 1, dest, dfld d 3 0 8, m.1, n.1, k.1,
    a.1, b.1, c.1, i.1, ars.1, brs.1, crs.1, slot, fa.1, fb.1, { fc0.1 with fmt := fcF }, { fi0.1 with fmt := fiF },
    (if pf = 0 ∨ 8 < pf then [⟨0xFF, pf⟩] else [])
      ++ (if am ≠ am0 then [⟨2, am0⟩] else [])
      ++ m.2 ++ n.2 ++ k.2
      ++ av 16 (dfld d 16 0 64) a (s.regionOk g a.1 la) ++ av 24 (dfld d 24 0 64) b (s.regionOk g b.1 lb)
      ++ av 32 (dfld d 32 0 64) c (!wr || s.regionOk g c.1 (lc fcF))
      ++ (if accIn then av 40 (dfld d 40 0 64) i (s.regionOk g i.1 (lc fiF)) else [])
      ++ ars.2 ++ brs.2 ++ crs.2
      ++ (if dest = 3 ∧ slot ≠ slot0 then [⟨60, slot0⟩] else [])
      ++ fa.2 ++ fb.2 ++ (if dest = 3 then [] else fc0.2) ++ (if accIn then fi0.2 else [])
      ++ (if fcE then [⟨96, 9⟩] else [])
      ++ reservedViol d ([(64, fa.1.fmt), (80, fb.1.fmt)] ++ (if dest = 3 then [] else [(96, fcF)])
          ++ (if accIn then [(112, fiF)] else [])),
    ([(16, a.1, la), (24, b.1, lb)] ++ (if wr then [(32, c.1, lc fcF)] else [])
      ++ (if accIn then [(40, i.1, lc fiF)] else [])).filterMap (fun (p : Nat × Nat × Nat) => if regionBad p.2.1 p.2.2 then some (p.1, p.2.1) else none)⟩

/-- No work: M, N or K is 0 (R97). -/
def HngDesc.none (x : HngDesc) : Bool := x.m == 0 || x.n == 0 || x.k == 0
def HngDesc.rowTiles (x : HngDesc) : Nat := ceilDiv x.m 128
def HngDesc.colTiles (x : HngDesc) : Nat := ceilDiv x.n 128
def HngDesc.tiles (x : HngDesc) : Nat := x.rowTiles * x.colTiles
def HngDesc.kTiles (x : HngDesc) : Nat := ceilDiv x.k 128

/-- Stored coordinates of the logical output tile `(ti, tj)` (R85, R96). -/
def HngDesc.stored (x : HngDesc) (ti tj : Nat) : Nat × Nat := if x.transC then (tj, ti) else (ti, tj)

/-- Address at which an output tile is written (R83, R95); with a reserved output format only the first tile has one. -/
def HngDesc.tileAddr (x : HngDesc) (ti tj : Nat) : Nat :=
  match x.fc.fmt with
  | some f => x.c + tileOffset f x.cRs (x.stored ti tj).1 (x.stored ti tj).2
  | .none => x.c

def regionsMeet (p q : Nat × Nat) : Bool := decide (p.1 < q.2) && decide (q.1 < p.2)

/-- The output region overlaps the A or B region (R94). -/
def HngDesc.overlaps (x : HngDesc) : Bool :=
  let co := tensorRegion x.c x.cRs (x.stored x.rowTiles x.colTiles).1 (x.stored x.rowTiles x.colTiles).2 x.fc.fmt
  let ao := if x.transA then tensorRegion x.a x.aRs x.kTiles x.rowTiles x.fa.fmt
    else tensorRegion x.a x.aRs x.rowTiles x.kTiles x.fa.fmt
  let bo := if x.transB then tensorRegion x.b x.bRs x.colTiles x.kTiles x.fb.fmt
    else tensorRegion x.b x.bRs x.kTiles x.colTiles x.fb.fmt
  (x.dest == 0 || x.dest == 2) && x.fc.fmt.isSome && (regionsMeet co ao || regionsMeet co bo)

/-! ## Operands -/

/-- An operand: its stored tensor (none: every element is +0), whether it is transposed, and the pinned tile that stands
for its first tile. -/
structure Opnd where
  t : Option Tensor
  trans : Bool
  reg : Option (SMap Nat)
  deriving DecidableEq, Repr

/-- Bytes of an operand: the pinned register's for its first stored tile, else memory; so a matching TURN whose operand spans more
than one tile takes the others from memory (DESIGN CHOICE, log entry 106). -/
def Opnd.rd (o : Opnd) (mem : ByteRd) : ByteRd :=
  match o.reg, o.t with
  | some p, some t => fun b => if t.addr ≤ b ∧ b < t.addr + t.fmt.footprint then SMap.get (fun _ => 0) p (b - t.addr)
      else mem b
  | _, _ => mem

/-- Logical element `(i, j)` with its fine factor (R51, R58, R85). -/
def Opnd.val (o : Opnd) (mem : ByteRd) (i j : Nat) : Num :=
  match o.t with
  | some t => if o.trans then t.fineAt (o.rd mem) j i else t.fineAt (o.rd mem) i j
  | none => Num.zero

/-- Bytes of the operand's logical tile `(ti, tj)` as an address range. -/
def Opnd.span (o : Opnd) (ti tj : Nat) : List (Nat × Nat) :=
  match o.t with
  | some t =>
    let p := if o.trans then (tj, ti) else (ti, tj)
    [(t.addr + tileOffset t.fmt t.rstride p.1 p.2, t.fmt.footprint)]
  | none => []

/-- Address runs of the scale area of the operand's logical tile `(ti, tj)`: none when its format has no fine scales, or when the
tile comes from the pinned register (R82, R103). -/
def Opnd.scaleSpan (o : Opnd) (ti tj : Nat) : List (Nat × Nat) :=
  match o.t with
  | some t =>
    let p := if o.trans then (tj, ti) else (ti, tj)
    let a := t.addr + tileOffset t.fmt t.rstride p.1 p.2
    if !t.fmt.fine || (o.reg.isSome && p == (0, 0)) || decide (memTop t.addr ≤ a) then [] else [(a + t.fmt.dataSize, 256)]
  | none => []

/-- Address runs of a panel of the operand's logical tile `(ti, tj)`: 32 of its columns (`cols`) or rows, four squares of the
stored tile (R81, R85, R86). -/
def Opnd.panelSpan (o : Opnd) (cols : Bool) (ti tj p : Nat) : List (Nat × Nat) :=
  match o.t with
  | some t =>
    let q := if o.trans then (tj, ti) else (ti, tj)
    let a := t.addr + tileOffset t.fmt t.rstride q.1 q.2
    let sq := t.fmt.dataSize / 16
    if (o.reg.isSome && q == (0, 0)) || decide (memTop t.addr ≤ a) then []
    else (List.range 4).map (fun i => (a + sq * (if cols != o.trans then 4 * i + p else 4 * p + i), sq))
  | none => []

/-- Vault lines of some address runs. -/
def State.runLines (s : State) (rs : List (Nat × Nat)) : List (Nat × Nat) := rs.flatMap (fun r => s.linesOf r.1 r.2)

def State.opnd (s : State) (g a rs : Nat) (f : FmtField) (trans : Bool) (reg : Option (SMap Nat)) : Opnd :=
  ⟨match f.fmt with
    | some q => if s.unitAddrOk g a then some ⟨q, a, rs, f.coarse, f.fixedFine⟩ else none
    | none => none, trans, reg⟩

/-- The pinned tile that stands for the operand named by PIN_SEL of the job in hand. -/
def regTile (h : Hng) (j : HngJob) (x : HngDesc) (selB : Bool) : Option (SMap Nat) :=
  if j.fromReg ∧ x.selB = selB then h.pin.map (fun p => p.tile) else none

def State.opndA (s : State) (g : Nat) (x : HngDesc) (j : HngJob) : Opnd :=
  s.opnd g x.a x.aRs x.fa x.transA (regTile (s.core g).hng j x false)
def State.opndB (s : State) (g : Nat) (x : HngDesc) (j : HngJob) : Opnd :=
  s.opnd g x.b x.bRs x.fb x.transB (regTile (s.core g).hng j x true)
/-- The accumulate-in operand: the geometry of C (R92). -/
def State.opndCin (s : State) (g : Nat) (x : HngDesc) : Opnd := s.opnd g x.cin x.cRs x.fi x.transC none

/-! ## Accumulation (R88, R89, R92) -/

/-- One level of the chunk tree. -/
def pairSums : List Num → List Num
  | a :: b :: r => es40Add a b :: pairSums r
  | r => r

/-- The sum of a chunk of 64 exact products: six levels of rounded additions. -/
def chunkSum (ps : List Num) : Num := (pairSums (pairSums (pairSums (pairSums (pairSums (pairSums ps)))))).headD Num.zero

/-- One output element after chunk `c`: the chunk sum over exact products enters the accumulator. -/
def chunkStep (accMode k c : Nat) (prod : Nat → Num) (acc : Num) : Num :=
  let s0 := chunkSum ((List.range 64).map (fun i => if 64 * c + i < k then prod (64 * c + i) else Num.zero))
  if accMode = 1 then f32Add acc (fltF32.round s0) else es40Add acc s0

/-- The initial value of an accumulator from CIN (R92, R89). -/
def cinInit (x : HngDesc) (v : Num) : Num :=
  let w := if x.fi.fmt = some .es40 then v
    else fltES40.round (Num.divExact (Num.mulExact v (coarseOf x.fi.coarse).1)
      (Num.mulExact (coarseOf x.fa.coarse).1 (coarseOf x.fb.coarse).1))
  if x.accMode = 1 then fltF32.round w else w

/-- Array cycles of the k-steps of one chunk (R78, R79, R98). An operand with a reserved format code counts as 8-bit, since R78
gives it no class (DESIGN CHOICE, log entry 106). -/
def chunkCycles (x : HngDesc) : Nat :=
  let w := max ((x.fa.fmt.map Fmt.bits).getD 8) ((x.fb.fmt.map Fmt.bits).getD 8)
  if w = 4 then 32 else if w ≤ 8 then 64 else if w = 16 then 128 else 512

/-- Chunks of an output tile (R88). -/
def HngDesc.chunks (x : HngDesc) : Nat := ceilDiv x.k 64

/-! ## Jobs -/

def State.updHng (s : State) (g : Nat) (f : Hng → Hng) : State := s.updCore g (fun c => { c with hng := f c.hng })
def State.updHngJob (s : State) (g : Nat) (f : HngJob → HngJob) : State :=
  s.updHng g (fun h => { h with job := h.job.map f })

/-- The census set of a matrix descriptor (R70, R106, R225). -/
def State.hngCensus (s : State) (g : Nat) (x : HngDesc) : CensusSet :=
  ⟨if x.dest = 3 then s.slotFmt g x.slot else (x.fc.fmt.map Fmt.code).getD 0, 0,
    x.dest != 3 && x.fc.sr, x.dest != 3 && x.fc.sat, Census.zero⟩

/-- PIN is honoured: the operand spans one tile in k and in its output dimension (R102). -/
def HngDesc.pinOk (x : HngDesc) : Bool := x.kTiles == 1 && (if x.selB then x.colTiles else x.rowTiles) == 1

def HngDesc.selAddr (x : HngDesc) : Nat := if x.selB then x.b else x.a
/-- The 16 bytes of the format field of PIN_SEL's operand. -/
def selFmtBits (x : HngDesc) (d : Nat) : Nat := dfld d (if x.selB then 80 else 64) 0 128

def heldCount (h : Hng) : Nat := h.banks.countP (fun b => b.held)

/-- The held bank with a tag that no descriptor continues yet. -/
def heldBank (h : Hng) (tag : Nat) : Option Nat :=
  (List.range h.banks.length).find? (fun i => match h.banks[i]? with
    | some b => b.use == .held && b.tag == tag
    | none => false)

/-- HOLD is honoured: one output tile, and no more than two held banks after it (R95). -/
def holdOk (h : Hng) (x : HngDesc) : Bool :=
  x.tiles == 1 && decide (heldCount h - (if x.cont ∧ (heldBank h x.c).isSome then 1 else 0) < 2)

/-- The violations of a descriptor in the array's counter; an address that violates R15 counts in the core's counter as
well (R511). -/
def State.hngViols (s : State) (g seq : Nat) (x : HngDesc) : State :=
  forEach x.bad (fun p s => s.coreAddrViol g 0x10 seq p.1 p.2) (s.viols' .hngViolCnt g 0x10 seq x.viols)

/-- PIN, TURN and the pinned register at the start of a descriptor (R102 to R104): the new state, and whether the operand
comes from the register. A descriptor whose PIN is ignored keeps the register's old tile, since only PIN and TURN both clear
empty it (DEDUCED, log entry 106). -/
def State.hngTurn (s : State) (g d : Nat) (x : HngDesc) : State × Bool :=
  let h := (s.core g).hng
  if x.turn then
    if !(s.rd .hngCtl g 0).testBit 4 then (s, false)
    else match h.pin with
      | some p =>
        if p.addr = x.selAddr ∧ p.fmt = selFmtBits x d then
          let s1 := if p.role = x.selB then s else (s.bump .hngTurnCnt g 1).bump .hngTurnCycCnt g 6
          (s1.updHng g (fun h => { h with pin := some { p with role := x.selB } }), true)
        else (s.bump .hngTurnMissCnt g 1, false)
      | none => (s.bump .hngTurnMissCnt g 1, false)
  else if x.pin then (s, false)
  else (s.updHng g (fun h => { h with pin := none }), false)

/-- The hinge array's descriptor is complete: its entry may complete, or the recompute ends and what it suspended
resumes. -/
def State.hngFinish (s : State) (g : Nat) (j : HngJob) (cs : List CensusSet) : State :=
  if j.rcmp then
    (s.updHng g (fun h => match h.saved with
      | some v => { h with job := v.job, banks := v.banks, saved := none }
      | none => { h with job := none })).rcmpDone g
  else (s.updHng g (fun h => { h with job := none })).descDone g 0 cs

/-- Accept a descriptor: range check, violations, overlap, pinned register, and the job (R93 to R95, R102 to R104). A descriptor
with M, N or K 0 completes at once (R97); its PIN and TURN bits still empty the register, or count a PIN that spans no tile. -/
def State.hngStart (s : State) (g d pos : Nat) (eval rcmp : Bool) : State :=
  let x := s.hngParse g d
  let s0 := (if rcmp then s else s.wr .hngDescSeq g 0 pos).hngViols g pos x
  let s1 := if x.pin && !x.pinOk then s0.viol .hngViolCnt g 0x10 pos 1 1 else s0
  if x.none then
    let s2 := if x.pin || x.turn then s1 else s1.updHng g (fun h => { h with pin := none })
    (if rcmp then s2.hngFinish g ⟨d, pos, eval, rcmp, 0, none, 0, false, false, false, false, false, s.hngCensus g x⟩ []
      else s2.descDone g 0 [])
  else
    let h := (s.core g).hng
    let hold := x.hold && holdOk h x
    let s2 := if x.hold && !hold then s1.viol .hngViolCnt g 0x10 pos 1 1 else s1
    let s3 := if x.overlaps then s2.bump .hngOverlapCnt g 1 else s2
    let (s4, reg) := s3.hngTurn g d x
    s4.updHng g (fun h =>
      { h with job := some ⟨d, pos, eval, rcmp, 0, none, 0, false, false, x.overlaps, reg, hold, s.hngCensus g x⟩ })

/-- The bank that the next tile takes: the held bank it continues, or the lowest free one (R95). -/
def nextBank (h : Hng) (x : HngDesc) (ti tj : Nat) : Option (Nat × Bool) :=
  match (if x.cont then heldBank h (x.tileAddr ti tj) else none) with
  | some i => some (i, true)
  | none => ((List.range h.banks.length).find? (fun i => (h.banks[i]?.map (fun b => b.use == .free)).getD false)).map
      (fun i => (i, false))

/-- Rows and columns of an output tile inside the logical extent (R84). -/
def HngDesc.rows (x : HngDesc) (ti : Nat) : Nat := min 128 (x.m - 128 * ti)
def HngDesc.cols (x : HngDesc) (tj : Nat) : Nat := min 128 (x.n - 128 * tj)

/-- A bank with a new value for each element inside the logical extent, from its old one. -/
def HngDesc.mapAcc (x : HngDesc) (ti tj : Nat) (acc : SMap Nat) (f : (r c : Nat) → Nat → Nat) : SMap Nat :=
  (List.range (x.rows ti)).foldl (fun m r => SMap.setRange (fun _ => 0) m (128 * r) ((List.range (x.cols tj)).map (fun c =>
    f r c (SMap.get (fun _ => 0) acc (128 * r + c))))) []

/-- The accumulators of an output tile as loaded from CIN, or +0 (R88, R92). -/
def State.loadTile (s : State) (g : Nat) (x : HngDesc) (ti tj : Nat) : SMap Nat :=
  if x.accIn then
    let ci := s.opndCin g x
    let mem : ByteRd := s.reader (ci.span ti tj)
    x.mapAcc ti tj [] (fun r c _ => fltES40.encode (cinInit x (ci.val mem (128 * ti + r) (128 * tj + c))))
  else []

/-- The accumulators of an output tile after chunk `c` (R84, R88). A bank continued by an ACC_MODE 1 descriptor from an ACC_MODE 0
part enters as it stands: R89 rounds only accumulate-in values to FP32 (DESIGN CHOICE, log entry 106). -/
def State.computeChunk (s : State) (g : Nat) (x : HngDesc) (j : HngJob) (ti tj c : Nat) (acc : SMap Nat) : SMap Nat :=
  let a := s.opndA g x j
  let b := s.opndB g x j
  let mem : ByteRd := s.reader (a.span ti (c / 2) ++ b.span (c / 2) tj)
  x.mapAcc ti tj acc (fun r l v => fltES40.encode (chunkStep x.accMode x.k c
    (fun k => Num.mulExact (a.val mem (128 * ti + r) k) (b.val mem k (128 * tj + l))) (fltES40.decode v)))

/-- Address runs of the pinned operand that chunk `c` of output tile `(ti, tj)` streams: its scale area and its panels; with the last
chunk the panels that its k-steps do not need as well (DESIGN CHOICE, log entry 106). -/
def HngDesc.pinSpan (x : HngDesc) (o : Opnd) (ti tj c : Nat) : List (Nat × Nat) :=
  let q := if x.selB then (0, tj) else (ti, 0)
  (if c = 0 then o.scaleSpan q.1 q.2 else [])
    ++ ((List.range 4).filter (fun p => decide (2 * c ≤ p) && (decide (p < 2 * c + 2) || decide (x.chunks ≤ c + 1)))).flatMap
      (o.panelSpan (!x.selB) q.1 q.2)

/-- The pinned register as a descriptor with PIN streams its operand (R102): chunk `c` of output tile `(ti, tj)` brings the bytes
that memory `v` gives the unit. With the first chunk the register takes the new address, format field and role. A register emptied
between two chunks (R107) stays empty until the operand streams again. -/
def State.pinTile (s v : State) (g d : Nat) (x : HngDesc) (j : HngJob) (ti tj c : Nat) : State :=
  if x.pin && x.pinOk && !j.rcmp then
    let o := if x.selB then v.opndB g x j else v.opndA g x j
    let fill : SMap Nat → SMap Nat := fun m => match o.t with
      | some t => (x.pinSpan o ti tj c).foldl (fun m r =>
          SMap.setRange (fun _ => 0) m (r.1 - t.addr) (v.bytesAt r.1 r.2)) m
      | none => m
    let new : PinReg := ⟨x.selAddr, selFmtBits x d, x.selB, fill (o.reg.getD [])⟩
    s.updHng g (fun h => { h with pin := if c = 0 then some new else h.pin.map (fun p => { p with tile := fill p.tile }) })
  else s

/-- Panel `p` (of 32 k-steps) of both operands of an output tile, with both scale areas before the first panel of a tile
(R86). -/
def State.panelLines (s : State) (a b : Opnd) (ti tj p : Nat) : List (Nat × Nat) :=
  s.runLines ((if p % 4 = 0 then a.scaleSpan ti (p / 4) ++ b.scaleSpan (p / 4) tj else [])
    ++ a.panelSpan true ti (p / 4) (p % 4) ++ b.panelSpan false (p / 4) tj (p % 4))

/-- HNG_CTL.PREFETCH in force (R108). -/
def State.hngPrefetch (s : State) (g : Nat) : Nat := min 8 (max 1 (s.rdF .hngCtl g 0 0 4))

/-- Panels fetched ahead of the k-step in progress (R86): their vault lines are requested now, so a line that fails its check is
refetched while the array computes. The data enters the cells at its own k-step (log entry 106). -/
def State.hngAhead (s : State) (g : Nat) (x : HngDesc) (a b : Opnd) (ti tj c : Nat) : State :=
  let ps := ((List.range (s.hngPrefetch g)).map (fun i => 2 * c + 2 + i)).filter (fun p => decide (32 * p < x.k))
  forEach (ps.flatMap (s.panelLines a b ti tj)) (fun p s => if s.lineReady (hngUnit g) p then s else s.unitWait (hngUnit g) p.1 p.2) s

/-- The job after the loss of the pinned register (R107): the operand is fetched, and the miss counted. -/
def State.hngRepin (s : State) (g : Nat) (j : HngJob) : State :=
  if j.fromReg ∧ (s.core g).hng.pin.isNone then
    (s.bump .hngTurnMissCnt g 1).updHngJob g (fun j => { j with fromReg := false })
  else s

/-- Begin the next output tile of the job in hand, in a bank that it continues or a free one, once its accumulate-in lines are
readable (R92, R94, R95). In strict order every earlier tile has reached all its destinations. -/
def State.hngOpen (s : State) (g : Nat) (j : HngJob) : State × Bool :=
  let x := s.hngParse g j.desc
  let ti := j.nextTile / x.colTiles
  let tj := j.nextTile % x.colTiles
  if x.tiles ≤ j.nextTile || (j.overlap && decide (j.written < j.nextTile)) then (s, false)
  else match nextBank (s.core g).hng x ti tj with
    | none => (s, false)
    | some (i, cont) =>
      match s.gateReads (hngUnit g) (if x.accIn ∧ !cont then s.runLines ((s.opndCin g x).span ti tj) else []) with
      | (s1, none) => (s1, false)
      | (s1, some v) =>
        let old := ((s1.core g).hng.banks[i]?).getD Bank.empty
        let acc := if cont then old.acc else v.loadTile g x ti tj
        (s1.updHng g (fun h => { h with
            banks := h.banks.set i ⟨.active, old.held, old.tag, j.pos, ti, tj, 0, acc⟩
            job := some { j with nextTile := j.nextTile + 1, bank := some i, contFound := j.contFound || cont } }), true)

/-- One chunk of the tile in progress, once its panels are there (R86, R88); after its last chunk the tile is final, or held
(R95). -/
def State.hngChunk (s : State) (g : Nat) (j : HngJob) (i : Nat) (b : Bank) : State × Bool :=
  let x := s.hngParse g j.desc
  let s0 := s.hngRepin g j
  let j0 := { j with fromReg := j.fromReg && (s.core g).hng.pin.isSome }
  let oa := s0.opndA g x j0
  let ob := s0.opndB g x j0
  match s0.gateReads (hngUnit g) ([2 * b.next, 2 * b.next + 1].flatMap (fun p =>
    if 32 * p < x.k then s0.panelLines oa ob b.ti b.tj p else [])) with
  | (t, none) => (t, false)
  | (t, some v) =>
    let acc := v.computeChunk g x j0 b.ti b.tj b.next b.acc
    let s1 := ((t.hngAhead g x oa ob b.ti b.tj b.next).bump .hngMacCycCnt g (chunkCycles x)).pinTile v g j.desc x j0 b.ti b.tj b.next
    if b.next + 1 < x.chunks then
      (s1.updHng g (fun h => { h with banks := h.banks.set i { b with next := b.next + 1, acc := acc } }), true)
    else
      let full : Bank := if j.hold then { b with use := .held, held := true, tag := x.c, next := b.next + 1, acc := acc }
        else { b with use := .final, next := b.next + 1, acc := acc }
      (s1.updHng g (fun h => { h with
          banks := h.banks.set i full
          job := h.job.map (fun j => { j with bank := none }) }), true)

/-- One step of the array: a chunk of the tile in progress, or the start of the next tile. -/
def State.hngStep (s : State) (g : Nat) (j : HngJob) : State × Bool :=
  match j.bank with
  | none => s.hngOpen g j
  | some i => match (s.core g).hng.banks[i]? with
    | some b => s.hngChunk g j i b
    | none => (s, false)

/-- Go on for a number of steps, as far as banks and operands allow. -/
def State.hngSteps (s : State) (g : Nat) : Nat → State
  | 0 => s
  | n + 1 =>
    match (s.core g).hng.job with
    | some j =>
      let r := s.hngStep g j
      if r.2 then State.hngSteps r.1 g n else r.1
    | none => s

/-- All tiles are computed: count a CONT that found no held bank; a HOLD descriptor completes with ELEM 0 (R95). -/
def State.hngClose (s : State) (g : Nat) : State :=
  match (s.core g).hng.job with
  | some j =>
    let x := s.hngParse g j.desc
    if j.hold ∧ x.tiles ≤ j.nextTile ∧ j.bank = none then
      let s1 := if x.cont && !j.contFound then s.viol .hngViolCnt g 0x10 j.pos 1 1 else s
      s1.hngFinish g j [j.census]
    else s
  | none => s

/-- Does the tile need a tile-queue slot. -/
def HngDesc.needsSlot (x : HngDesc) : Bool := (x.dest == 1 || x.dest == 2) && x.fc.fmt.isSome
/-- Free tile-queue slots (R99). -/
def State.tqFree (s : State) (g : Nat) : Nat := 16 - (s.core g).hng.tq.length

/-- A tile waits to begin: the descriptor has one left, and in strict order every earlier one has left (R94). -/
def HngJob.mayOpen (j : HngJob) (x : HngDesc) : Bool :=
  j.bank.isNone && decide (j.nextTile < x.tiles) && !(j.overlap && decide (j.written < j.nextTile))

/-- The counter of a stall cycle: the first cause of R105 that applies. Nothing is counted with no descriptor in hand, nor while a
tile leaves to its destination or only write-outs that hold theirs are left: that is work already begun. -/
def State.hngStallCause (s : State) (g : Nat) : Option Reg :=
  let h := (s.core g).hng
  h.job.bind (fun j =>
    let x := s.hngParse g j.desc
    let qfull := h.banks.any (fun b => b.use == .final) && x.needsSlot && s.tqFree g == 0
    if j.leaving || !(j.bank.isSome || j.mayOpen x || qfull) then none
    else if s.grant g < fullGrant g then some .hngStallPwrCnt
    else if j.mayOpen x && (nextBank h x (j.nextTile / x.colTiles) (j.nextTile % x.colTiles)).isNone then some .hngStallBankCnt
    else if qfull then some .hngStallQfullCnt
    else some .hngStallOpndCnt)

/-- Count stall cycles (R105): the clock gives their number, the state of the array their cause. -/
def State.hngStalls (s : State) (g n : Nat) : State :=
  match n, s.hngStallCause g with
  | 0, _ | _, none => s
  | n, some r => s.bump r g n

/-- MATRIX_PRODUCT (R86 to R95, R102 to R107): the array accepts the descriptor at the head of stream 0 and works on its output tiles in
row-major order, for `chunks` steps (the start of a tile or a chunk each), in banks that are free or that it continues; `stall` stall
cycles passed before, and `after` cycles after those steps, under the cause that stops it then (R105). A core with a save request starts
no further chunk. -/
def execMatrixProduct (core chunks stall after : Nat) (s : State) : Host.Outcome State Fault Refusal :=
  .next (if !s.running core || (s.core core).saveReq || (s.core core).lent || !s.clocked core then s
    else
      let s0 := s.hngStalls core stall
      let s1 := match (s0.core core).hng.job, (s0.core core).inUnit 0 with
        | none, some e => if e.kind = 0 ∧ !e.skip then s0.hngStart core e.desc e.pos e.eval false else s0
        | _, _ => s0
      ((s1.hngSteps core chunks).hngClose core).hngStalls core after)

/-! ## Write-out -/

/-- The value of an element before conversion (R60 step 1): `ro` is 1 for a slot (R225). -/
def hngValue (x : HngDesc) (acc : Num) (slot : Bool) : Num :=
  let v := es40Mul (es40Mul acc (coarseOf x.fa.coarse).1) (coarseOf x.fb.coarse).1
  if slot then v else es40Mul v (recipCoarse x.fc.coarse)

/-- Convert a finished bank as the stored tile of its tensor (R60, R68, R84, R96). TRANS_C does not apply to DEST 1, whose only
destination is the tile queue. -/
def State.hngConvert (s : State) (g : Nat) (x : HngDesc) (f : Fmt) (b : Bank) (trans : Bool) : TileOut :=
  let rows := min 128 (x.m - 128 * b.ti)
  let cols := min 128 (x.n - 128 * b.tj)
  let tr := x.transC && x.dest != 1
  let width := if tr then x.m else x.n
  let acc := (SMap.getRange (fun _ => 0) b.acc 0 16384).toArray
  convTile (s.woCtx g f x.fc) (fun _ => 0x7F) (fun _ => 0) (fun i =>
    let p := tileRC i
    let r := if trans then p.2 else p.1
    let c := if trans then p.1 else p.2
    if r < rows ∧ c < cols then
      let a := fltES40.decode (acc.getD (128 * r + c) 0)
      let li := 128 * b.ti + r
      let lj := 128 * b.tj + c
      .val ⟨a, hngValue x a false, if tr then lj * width + li else li * width + lj⟩
    else .pad)

/-- The transpose of a converted tile: its codes and the scales of its blocks (R53, R96). -/
def TileOut.transpose (t : TileOut) : TileOut :=
  { t with
    codes := (List.range 16384).map (fun i => t.codes.getD (tileIndex (tileRC i).2 (tileRC i).1) 0)
    scales := (List.range 256).map (fun b => t.scales.getD (tileIndex (tileRC (64 * b)).2 (tileRC (64 * b)).1 / 64) 0x7F) }

/-- The tile-queue slot of a converted tile in its logical orientation (R99). -/
def State.tqSlot (s : State) (g : Nat) (x : HngDesc) (j : HngJob) (f : Fmt) (b : Bank) (t : TileOut) : TqSlot :=
  ⟨j.pos, b.ti, b.tj, f.code, min 128 (x.m - 128 * b.ti), min 128 (x.n - 128 * b.tj), s.stepTag g,
    j.written + 1 == x.tiles, SMap.setRange (fun _ => 0) [] 0 t.codes, SMap.setRange (fun _ => 0x7F) [] 0 t.scales⟩

/-- The additions of a finished bank into its slot (R96, R224, R225). -/
def slotElems (x : HngDesc) (b : Bank) : List (Nat × Nat × Num) :=
  let rows := min 128 (x.m - 128 * b.ti)
  let cols := min 128 (x.n - 128 * b.tj)
  let acc := (SMap.getRange (fun _ => 0) b.acc 0 16384).toArray
  (List.range rows).flatMap (fun r => (List.range cols).map (fun c =>
    let v := hngValue x (fltES40.decode (acc.getD (128 * r + c) 0)) true
    let li := 128 * b.ti + r
    let lj := 128 * b.tj + c
    if x.transC then (lj, li, v) else (li, lj, v)))

/-- A finished bank at its destinations, and the census of its elements (R96, R97, R106). -/
def State.hngDeliver (s : State) (g : Nat) (x : HngDesc) (j : HngJob) (b : Bank) : State × Census :=
  if x.dest = 3 then s.slotAddAll g .hngViolCnt 0x10 j.pos 60 x.slot true (slotElems x b)
  else match x.fc.fmt with
    | none => (s, Census.zero)
    | some f =>
      let t := s.hngConvert g x f b (x.transC && x.dest != 1)
      let s1 := if x.dest = 0 ∨ x.dest = 2 then s.storeTile g (x.tileAddr b.ti b.tj) f t j.rcmp else s
      let s2 := if x.dest = 1 ∨ x.dest = 2 then
          let q := s.tqSlot g x j f b (if x.transC && x.dest == 2 then t.transpose else t)
          s1.updHng g (fun h => { h with tq := h.tq ++ [q] })
        else s1
      (s2, if x.dest = 0 ∧ !s.unitAddrOk g (x.tileAddr b.ti b.tj) then Census.zero else t.census)

/-- The bank whose write-out is next: tiles leave in the order of the descriptor (R94). -/
def finalBank (h : Hng) (x : HngDesc) (j : HngJob) : Option (Nat × Bank) :=
  (List.range h.banks.length).findSome? (fun i => match h.banks[i]? with
    | some b => if b.use = .final ∧ b.ti * x.colTiles + b.tj = j.written then some (i, b) else none
    | none => none)

/-- The descriptor after its last tile: a CONT that found no held bank is counted, its census folds (R95, R106). A
descriptor that writes no element at all has no census. -/
def State.hngLast (s : State) (g : Nat) (j : HngJob) (x : HngDesc) : State :=
  if j.written < x.tiles then s.updHng g (fun h => { h with job := some j })
  else
    let s1 := if x.cont && !j.contFound then s.viol .hngViolCnt g 0x10 j.pos 1 1 else s
    let mute := x.dest != 3 && (x.fc.fmt.isNone || (x.dest == 0 && j.census.counts.elem == 0))
    s1.hngFinish g j (if mute then [] else [j.census])

/-- The lines of vaults to which the output tile that leaves is written (R83, R87). -/
def State.tileDestLines (s : State) (g : Nat) (x : HngDesc) (ti tj : Nat) : List (Nat × Nat) :=
  match x.fc.fmt with
  | some f => if (x.dest == 0 || x.dest == 2) && s.unitAddrOk g (x.tileAddr ti tj) then s.linesOf (x.tileAddr ti tj) f.footprint
      else []
  | none => []

/-- The output tile that leaves has reached every destination once the vaults have stored all its lines: TILE_TMB is signalled
and the descriptor goes on (R94, R97). -/
def State.hngArrive (s : State) (g : Nat) : State :=
  match (s.core g).hng.job with
  | none => s
  | some j =>
    let x := s.hngParse g j.desc
    if j.leaving && s.writesDone g (s.tileDestLines g x (j.written / x.colTiles) (j.written % x.colTiles)) then
      let s1 := if x.tileTmb ≠ 0xFF ∧ !j.rcmp then s.selfTmb g x.tileTmb 1 else s
      s1.hngLast g { j with written := j.written + 1, leaving := false } x
    else s

/-- The finished bank whose turn it is leaves: it is converted and goes to its destinations, and is free again (R60, R96, R100,
R106). -/
def State.hngLeave (s : State) (g : Nat) (j : HngJob) (x : HngDesc) (i : Nat) (b : Bank) : State :=
  let r := s.hngDeliver g x j b
  let k := { j.census with counts := j.census.counts.add r.2 }
  (if j.rcmp then r.1 else r.1.carryTotals g j.eval j.census.counts k).updHng g (fun h => { h with
    banks := h.banks.set i Bank.empty
    job := some { j with leaving := true, census := k } })

/-- TILE_WRITE_OUT (R60, R84, R94, R96, R97, R99, R100, R106): the next finished bank is converted and goes to its destinations
once a tile-queue slot is free when one is needed; `wait` cycles were spent waiting for it. A tile some of whose lines a vault
still holds up (a lock, a pass set, a fence, a snapshot frame, a migration) arrives at a later command. -/
def execTileWriteOut (core wait : Nat) (s : State) : Host.Outcome State Fault Refusal :=
  .next (if !s.active core || (s.core core).frozen || s.recordHeld core || !s.clocked core then s
    else
      let s0 := s.hngArrive core
      match (s0.core core).hng.job with
      | none => s0
      | some j =>
        let x := s0.hngParse core j.desc
        match (if j.leaving then none else finalBank (s0.core core).hng x j) with
        | none => s0
        | some (i, b) =>
          if x.needsSlot && s0.tqFree core == 0 then s0.hngStalls core wait
          else (s0.hngLeave core j x i b).hngArrive core)

end Sys2Proof.Machine
end

