-- ==== Sys2Proof/Machine/Vector.lean ====
section
/-! DEFINITION. The vector engine: descriptors, walks, masks, the tile queue, write-out (R117 to R122, R129 to R161). -/

namespace Sys2Proof.Machine

/-! ## The descriptor -/

/-- A source as the engine reads it. `fmt = none`: every element reads +0. `tq`: the tile queue. `fixed`: the fine code that
SCALE_MODE puts in the place of the stored ones (R56). -/
structure VeSrc where
  tq : Bool
  shape : Nat
  fmt : Option Fmt
  addr : Nat
  coarse : Nat
  fixed : Option Nat
  deriving DecidableEq, Repr

/-- An output that is written. -/
structure VeOut where
  fmt : Fmt
  x : FmtField
  addr : Nat
  deriving DecidableEq, Repr

/-- How a descriptor is walked: tile by tile, tile row by tile row, or batch by batch (R131, R154). -/
inductive Walk where
  | tile
  | row
  | batch
  deriving DecidableEq, Repr

/-- A descriptor of the engine after its range behaviours (R117, R135, R136, R149, R150, R152, R153). `fn` is the
reduction or scan function, or the KIND of a row operation; `aux` is the segment bitmap, the index bytes or the index
tensor of SRC1 (none: reads +0); `void`: nothing is written. -/
structure VeDesc where
  op : Nat
  fn : Nat
  dir : Nat
  excl : Bool
  seg : Bool
  gather : Bool
  causal : Bool
  causalOfs : Int
  dgain : Bool
  toSlot : Bool
  maskEn : Bool
  maskZero : Bool
  mask : Option Nat
  tmb : Nat
  rows : Nat
  cols : Nat
  batch : Nat
  rs : Nat
  bs : Nat
  slot : Nat
  slotOff : Nat
  imm0 : Nat
  imm1 : Nat
  steps : List VStep
  src : List (Option VeSrc)
  aux : Option Nat
  out : List (Option VeOut)
  void : Bool
  overlap : Bool
  viols : List Viol
  bad : List (Nat × Nat)
  deriving DecidableEq, Repr

def State.veViolPrefetch (s : State) (g : Nat) : List Viol :=
  let p := s.rdF .veCtl g 0 0 5
  if p = 0 ∨ 16 < p then [⟨0xFF, p⟩] else []

/-- A size field clamped and counted. -/
def sizeClamp (off raw lim : Nat) : Nat × List Viol := if lim < raw then (lim, [⟨off, raw⟩]) else (raw, [])

/-- An address that a descriptor reads or writes, of an operand of `len` bytes: its value, whether it may be used, its violations,
and the violation of R15 if there is one (R133, R135, R511). An operand whose later tiles lie where it may not counts too. `use`:
the operation reads or writes it; of an address that it does not use only the alignment is checked (log entry 107). -/
def State.veAddr (s : State) (g off raw len : Nat) (use : Bool) : Option Nat × List Viol × List (Nat × Nat) :=
  let a := s.addrField g raw
  (if s.unitAddrOk g a.1 then some a.1 else none,
    (if a.2 then [⟨off, raw % 128⟩] else []) ++ (if !use || s.regionOk g a.1 len then [] else [⟨off, a.1⟩]),
    if use && addrBad a.1 then [(off, a.1)] else [])

/-- EPS of the normalisation kinds and SCALE of the soft-maximum (R117). -/
def parField (soft : Bool) (off raw : Nat) : Nat × List Viol :=
  let x := Num.ofF32 raw
  if soft then
    let ex := raw / 2 ^ 23 % 256
    if raw / 2 ^ 31 % 2 = 0 ∧ 0 < ex ∧ ex < 255 then (raw, []) else (0x3F800000, [⟨off, raw⟩])
  else if x.isFin && !(x.sign && !x.isZero) then (raw, []) else (0x358637BD, [⟨off, raw⟩])

/-- Half-open address range of a tensor of the descriptor. -/
def veRegion (rows cols batch rs bs a fp : Nat) : Nat × Nat :=
  (a, a + ((batch - 1) * bs + (ceilDiv rows 128 - 1) * rs + ceilDiv cols 128) * fp)

/-- Bytes of an operand of the descriptor by its shape (R136). -/
def veLen (rows cols batch rs bs shape : Nat) (f : Option Fmt) : Nat :=
  match f with
  | some f =>
    if rows = 0 ∨ cols = 0 then 0
    else if shape = 0 then (veRegion rows cols batch rs bs 0 f.footprint).2
    else (if shape = 1 then cols else if shape = 2 then rows else 1) * (f.bits / 8)
  | none => 0

/-- Number of bytes that the descriptor's operands take from their addresses on, by shape and format. -/
abbrev VeExtent := Nat → Option Fmt → Nat

/-- A source of the vector descriptor (R135, R136). Its fields are checked whether or not the operation reads it (`use`); from the
tile queue only the format field counts, whose SCALE_MODE then speaks of the slot's format (R154). -/
def State.veSrc (s : State) (g d idx : Nat) (tq use : Bool) (shape : Nat) (len : VeExtent) :
    VeSrc × List Viol × List (Nat × Nat) × List (Nat × Option Fmt) :=
  let fo := 112 + 16 * idx
  let f := FmtField.read d fo false false s.woExpert
  if tq then
    (⟨true, 0, f.1.fmt, 0, f.1.coarse, (FmtField.read (setBits d (8 * fo) 4 3) fo false false s.woExpert).1.fixedFine⟩, f.2, [], [])
  else
    let okShape := decide (shape = 0) || f.1.fmt == some .fp32 || f.1.fmt == some .bf16 || f.1.fmt == some .fp16
    let a := s.veAddr g (16 + 8 * idx) (dfld d (16 + 8 * idx) 0 64) (len shape (if okShape then f.1.fmt else none)) use
    let fm := if okShape ∧ a.1.isSome then f.1.fmt else none
    (⟨false, shape, fm, a.1.getD 0, f.1.coarse, f.1.fixedFine⟩,
      f.2 ++ a.2.1 ++ (if okShape || f.1.fmt.isNone then [] else [⟨fo, dfld d fo 0 4⟩]), a.2.2, [(fo, f.1.fmt)])

/-- An output of a descriptor: its format field at `fo` and its address at `ao`. `nine`: code 0x9 is read as FP32 and counted
(R135); elsewhere it is reserved (R45). -/
def State.veOut (s : State) (g d ao fo : Nat) (nine : Bool) (len : Option Fmt → Nat) :
    Option VeOut × List Viol × List (Nat × Nat) × List (Nat × Option Fmt) :=
  let f := FmtField.read d fo true nine s.woExpert
  let es := f.1.fmt == some .es40
  let fm := if es then some .fp32 else f.1.fmt
  let a := s.veAddr g ao (dfld d ao 0 64) (len fm) true
  (match fm, a.1 with
    | some q, some b => some ⟨q, f.1, b⟩
    | _, _ => none, f.2 ++ a.2.1 ++ (if es then [⟨fo, 9⟩] else []), a.2.2, [(fo, fm)])

/-- Range of a source of the descriptor, with its format where it is a tensor. -/
def VeSrc.region (v : VeSrc) (rows cols batch rs bs : Nat) : Option ((Nat × Nat) × Option Fmt) :=
  match v.fmt with
  | some f =>
    if v.tq then none
    else if v.shape = 0 then some (veRegion rows cols batch rs bs v.addr f.footprint, some f)
    else
      let n := if v.shape = 1 then cols else if v.shape = 2 then rows else 1
      some ((v.addr, v.addr + n * (f.bits / 8)), none)
  | none => none

/-- An overlap other than exact in-place writing, or one between the outputs (R138). Each tensor counts as the address range from its
first tile to the end of its last, gaps between tile rows included (DESIGN CHOICE, log entry 107). -/
def veOverlaps (srcs outs : List ((Nat × Nat) × Option Fmt)) : Bool :=
  outs.any (fun o => srcs.any (fun v => regionsMeet o.1 v.1 && !(o.2.isSome && o.2 == v.2 && o.1 == v.1)))
    || (match outs with
      | [a, b] => regionsMeet a.1 b.1
      | _ => false)

/-- Chain steps of a descriptor and their violations (R135, R139, R140, R143). -/
def chainSteps (d : Nat) (src16 out16 : Nat → Bool) : List VStep × List Viol :=
  let n0 := dfld d 73 0 4
  let n := min n0 8
  let ts := (List.range n).map (fun i => VStep.read d (88 + 3 * i))
  let v := (ts.zip (List.range n)).flatMap (fun p =>
    let t := p.1
    let o := 88 + 3 * p.2
    (if (fnArity t.fn).isNone then [⟨o, t.fn⟩] else [] : List Viol)
      ++ (t.args.filter (fun a => a == 7)).map (fun a => ⟨o + 1, a⟩)
      ++ (if (fnArity t.fn).isSome ∧ t.fn ≠ 0 ∧ 2 ≤ t.dst ∧ t.dst ≤ 7 then [⟨o + 2, t.dst⟩] else [])
      ++ (if t.fn = 0x20 ∧ !(t.args.all (fun a => decide (a ≤ 2) && src16 a)) then [⟨o, t.fn⟩] else [])
      ++ (if (t.fn = 0x21 ∨ t.fn = 0x22) ∧ t.live ∧ !rawDst out16 t.dst then [⟨o, t.fn⟩] else []))
  (ts, (if 8 < n0 then [⟨73, n0⟩] else []) ++ v)

/-- Some step of the chain writes output `o`. -/
def chainWrites (ts : List VStep) (out16 : Nat → Bool) (o : Nat) : Bool :=
  ts.any (fun t => t.live && t.dst == o && (!(t.fn == 0x21 || t.fn == 0x22) || rawDst out16 o))

/-- A descriptor that does nothing but signal (R134, R117 KIND 3). -/
def veVoid (op : Nat) (vs : List Viol) : VeDesc :=
  ⟨op, 0, 0, false, false, false, false, 0, false, false, false, false, none, 0xFF, 0, 0, 1, 0, 0, 0, 0, 0, 0, [],
    [none, none, none], none, [none, none], true, false, vs, []⟩

/-- Read a 192-byte vector descriptor (R135, R136, R139, R149 to R154). The index bytes of a lane pattern are read wherever R133 lets a
source lie: R152 says only that they are in stage memory, and counts nothing for a vault (DESIGN CHOICE, log entry 107). -/
def State.veParse192 (s : State) (g d : Nat) : VeDesc :=
  let op := dfld d 0 0 8
  let rows := sizeClamp 4 (dfld d 4 0 32) (2 ^ 24)
  let cols := sizeClamp 8 (dfld d 8 0 32) (2 ^ 20)
  let b0 := sizeClamp 12 (dfld d 12 0 32) (2 ^ 20)
  let batch := max b0.1 1
  let tw := ceilDiv cols.1 128
  let th := ceilDiv rows.1 128
  let rs := rstrideOf 64 (dfld d 64 0 32) tw
  let bs := rstrideOf 68 (dfld d 68 0 32) (th * rs.1)
  let soft := op == 0x25
  let norm := op == 0x24
  -- OPSPEC
  let b88 := dfld d 88 0 8
  let fn := if op = 0x21 then (if 5 ≤ b88 % 8 then 0 else b88 % 8)
    else if op = 0x22 then (if b88 % 4 = 3 then 0 else [0, 2, 3].getD (b88 % 4) 0)
    else if norm then (if 2 ≤ b88 % 4 then 0 else b88 % 4)
    else if soft then 2 else 0
  let dir := if op = 0x21 then min (bitsOf b88 3 2) 2 else if op = 0x22 then bitsOf b88 3 1 else 0
  let specV : List Viol :=
    (if op = 0x21 ∧ 5 ≤ b88 % 8 then [⟨88, b88 % 8⟩] else []) ++ (if op = 0x21 ∧ bitsOf b88 3 2 = 3 then [⟨88, 3⟩] else [])
      ++ (if op = 0x22 ∧ b88 % 4 = 3 then [⟨88, 3⟩] else []) ++ (if norm ∧ 2 ≤ b88 % 4 then [⟨88, b88 % 4⟩] else [])
  let seg := op == 0x22 && b88.testBit 4
  let gather := op == 0x23 && b88.testBit 0
  let colOp := (op == 0x21 || op == 0x22) && dir == 1
  let rowOp := (op == 0x21 && dir != 1) || (op == 0x22 && dir == 0) || norm || soft
  -- the tile queue (R154)
  let tq0 := dfld d 1 0 1 == 1
  let tqBad := tq0 && ((rowOp && decide (2048 < cols.1)) || (colOp && decide (16 < th * tw)))
  let tq := tq0 && !tqBad
  -- outputs
  let o1en := dfld d 2 1 1 == 1
  let o1bad := o1en && (op == 0x21 || op == 0x22 || op == 0x23)
  let en0 := dfld d 2 0 1 == 1
  let en1 := o1en && !o1bad
  let ext : VeExtent := veLen rows.1 cols.1 batch rs.1 bs.1
  let resLen := (if dir = 0 then rows.1 * batch else if dir = 1 then cols.1 * batch else 1)
  let outLen := fun (f : Option Fmt) => if op = 0x21 then ((f.map Fmt.bits).getD 0) / 8 * resLen else ext 0 f
  let out0 := s.veOut g d 40 160 true outLen
  let out1 := s.veOut g d 48 176 true outLen
  let out16 := fun (o : Nat) => let c := dfld d (160 + 16 * o) 0 4; c == 1 || c == 2
  let src16 := fun (a : Nat) => let c := dfld d (112 + 16 * a) 0 4; c == 1 || c == 2
  let ch := if op = 0x20 then chainSteps d src16 out16 else ([], [])
  let dead := fun (o : Nat) => op == 0x20 && !chainWrites ch.1 out16 o
  let contig := op == 0x21
  let notPlain := fun (f : Option VeOut) => contig && (match f with
    | some q => q.fmt.fine
    | none => false)
  let use0 := en0 && !dead 0
  let use1 := en1 && !dead 1
  let o0 := if use0 && !notPlain out0.1 then out0.1 else none
  let o1 := if use1 then out1.1 else none
  let outV : List Viol := (if o1bad then [⟨2, 2⟩] else []) ++ (if en0 then out0.2.1 else []) ++ (if en1 then out1.2.1 else [])
    ++ (if en0 && dead 0 then [⟨2, 1⟩] else []) ++ (if en1 && dead 1 then [⟨2, 2⟩] else [])
    ++ (if use0 && notPlain out0.1 then [⟨160, dfld d 160 0 4⟩] else [])
  -- sources
  let used := fun (i : Nat) => if op = 0x20 then ch.1.any (fun t => t.args.any (fun a => a == i))
    else i == 0 || (i == 1 && norm) || (i == 2 && norm && fn == 1)
  let shape := fun (i : Nat) => if norm ∧ (i = 1 ∨ (i = 2 ∧ fn = 1)) then 1 else dfld d 72 (2 * i) 2
  let auxUse := seg || op == 0x23
  let rd := fun (i : Nat) => s.veSrc g d i (tq && i == 0) (used i) (shape i) ext
  let pick := fun (i : Nat) => if used i || (tq && i == 0) then some (rd i).1 else none
  let bitLen := veLen rows.1 cols.1 batch rs.1 bs.1 0 none
    + (if rows.1 = 0 ∨ cols.1 = 0 then 0 else (veRegion rows.1 cols.1 batch rs.1 bs.1 0 2048).2)
  let auxA := s.veAddr g 24 (dfld d 24 0 64)
    (if seg then bitLen else if gather then ext 0 (some .fp32) else 32) auxUse
  let auxF := gather && dfld d 128 0 4 != 0
  -- mask
  let m0 := dfld d 1 1 1 == 1
  let mBad := m0 && (norm || soft)
  let men := m0 && !mBad
  let ma := s.veAddr g 56 (dfld d 56 0 64) bitLen true
  let par := parField soft 76 (dfld d 76 0 32)
  let toSlot := op == 0x21 && b88.testBit 5
  let slot0 := dfld d 84 0 32
  let slot := s.slotClamp (s.slotDie g) slot0
  let srcs := [pick 0, pick 1, pick 2]
  let outR := fun (o : Option VeOut) => match o with
    | some q => if contig then [((q.addr, q.addr + resLen * (q.fmt.bits / 8)), (none : Option Fmt))]
        else [(veRegion rows.1 cols.1 batch rs.1 bs.1 q.addr q.fmt.footprint, some q.fmt)]
    | none => []
  let bitR := fun (a : Option Nat) => match a with
    | some b => [(veRegion rows.1 cols.1 batch rs.1 bs.1 b 2048, (none : Option Fmt))]
    | none => []
  let srcR := srcs.filterMap (fun v => v.bind (fun q => q.region rows.1 cols.1 batch rs.1 bs.1))
    ++ (if men then bitR ma.1 else []) ++ (if seg then bitR auxA.1 else [])
    ++ (if op = 0x23 then (match auxA.1 with
      | some a => if gather then [(veRegion rows.1 cols.1 batch rs.1 bs.1 a 65536, some .fp32)] else [((a, a + 32), none)]
      | none => []) else [])
  let known := decide (0x20 ≤ op) && decide (op ≤ 0x25)
  if !known then veVoid op [⟨0, op⟩]
  else
  ⟨op, fn, dir, op == 0x22 && b88.testBit 2, seg, gather, soft && b88.testBit 2, signExt 32 (dfld d 80 0 32), false,
    toSlot, men, men && dfld d 1 2 1 == 1, if men then ma.1 else none, dfld d 3 0 8, rows.1, cols.1, batch, rs.1, bs.1,
    slot, 84, if norm || soft then par.1 else dfld d 76 0 32, dfld d 80 0 32, ch.1, srcs,
    if auxUse ∧ !auxF then auxA.1 else none, [o0, o1], false, veOverlaps srcR (outR o0 ++ outR o1),
    s.veViolPrefetch g ++ rows.2 ++ cols.2 ++ b0.2 ++ rs.2 ++ bs.2 ++ specV
      ++ (if tqBad then [⟨1, 1⟩] else []) ++ (if mBad then [⟨1, 2⟩] else []) ++ outV ++ ch.2
      ++ (rd 0).2.1 ++ (if auxUse then auxA.2.1 else (rd 1).2.1) ++ (rd 2).2.1 ++ (if auxF then [⟨128, dfld d 128 0 4⟩] else [])
      ++ (if men then ma.2.1 else []) ++ (if norm || soft then par.2 else [])
      ++ (if slot ≠ slot0 then [⟨84, slot0⟩] else [])
      ++ reservedViol d ((rd 0).2.2.2 ++ (if auxUse then [] else (rd 1).2.2.2) ++ (rd 2).2.2.2 ++ (if use0 then out0.2.2.2 else [])
          ++ (if use1 then out1.2.2.2 else [])),
    (rd 0).2.2.1 ++ (if auxUse then [] else (rd 1).2.2.1) ++ (rd 2).2.2.1
      ++ (if en0 then out0.2.2.1 else []) ++ (if en1 then out1.2.2.1 else []) ++ (if auxUse then auxA.2.2 else [])
      ++ (if men then ma.2.2 else [])⟩

/-- Read a 128-byte row-recompute descriptor (R117, R121). -/
def State.veParse30 (s : State) (g d : Nat) : VeDesc :=
  let kind := dfld d 1 0 2
  if kind = 3 then veVoid 0x30 [⟨1, 3⟩]
  else
    let soft := kind == 2
    let rows := sizeClamp 4 (dfld d 4 0 32) (2 ^ 24)
    let cols := sizeClamp 8 (dfld d 8 0 32) (2 ^ 20)
    let tw := ceilDiv cols.1 128
    let dg0 := dfld d 1 2 1 == 1
    let ca0 := dfld d 1 3 1 == 1
    let tq0 := dfld d 1 4 1 == 1
    let tqBad := tq0 && decide (2048 < cols.1)
    let tq := tq0 && !tqBad
    let yo := dfld d 1 5 1 == 1
    let fg0 := dfld d 2 0 4
    let fg : Fmt := if fg0 = 0 then .fp32 else .bf16
    let x := FmtField.read d 64 false false s.woExpert
    let y := FmtField.read d 80 false false s.woExpert
    let ext : Option Fmt → Nat := veLen rows.1 cols.1 1 tw 0 0
    let xa := s.veAddr g 16 (dfld d 16 0 64) (ext x.1.fmt) true
    let ya := s.veAddr g 24 (dfld d 24 0 64) (ext y.1.fmt) true
    let ga := s.veAddr g 40 (dfld d 40 0 64) (cols.1 * (fg.bits / 8)) true
    let dx := s.veOut g d 32 96 false ext
    let yy := s.veOut g d 56 112 false ext
    let par := parField soft 48 (dfld d 48 0 32)
    let dg := dg0 && !soft
    let slot0 := dfld d 52 0 32
    let slot := s.slotClamp (s.slotDie g) slot0
    let srcs : List (Option VeSrc) := [some ⟨false, 0, if xa.1.isSome then x.1.fmt else none, xa.1.getD 0, x.1.coarse, x.1.fixedFine⟩,
      some ⟨tq, 0, if tq then y.1.fmt else if ya.1.isSome then y.1.fmt else none, ya.1.getD 0, y.1.coarse,
        if tq then (FmtField.read (setBits d (8 * 80) 4 3) 80 false false s.woExpert).1.fixedFine else y.1.fixedFine⟩,
      if soft then none else some ⟨false, 1, if ga.1.isSome then some fg else none, ga.1.getD 0, 0x3F800000, none⟩]
    let outR := fun (o : Option VeOut) => match o with
      | some q => [(veRegion rows.1 cols.1 1 tw 0 q.addr q.fmt.footprint, some q.fmt)]
      | none => []
    let srcR := srcs.filterMap (fun v => v.bind (fun q => q.region rows.1 cols.1 1 tw 0))
    let o1 := if yo then yy.1 else none
    ⟨0x30, kind, 0, false, false, false, ca0 && soft, signExt 32 (dfld d 12 0 32), dg, false, false, false, none, 0xFF,
      rows.1, cols.1, 1, tw, ceilDiv rows.1 128 * tw, slot, 52, par.1, 0, [], srcs, none, [dx.1, o1], false,
      veOverlaps srcR (outR dx.1 ++ outR o1),
      s.veViolPrefetch g ++ rows.2 ++ cols.2 ++ (if dg0 && soft then [⟨1, 4⟩] else [])
        ++ (if ca0 && !soft then [⟨1, 8⟩] else []) ++ (if tqBad then [⟨1, 16⟩] else [])
        ++ (if 2 ≤ fg0 then [⟨2, fg0⟩] else []) ++ xa.2.1 ++ (if tq then [] else ya.2.1)
        ++ (if soft then [] else ga.2.1) ++ dx.2.1 ++ (if yo then yy.2.1 else []) ++ par.2 ++ x.2 ++ y.2
        ++ (if slot ≠ slot0 then [⟨52, slot0⟩] else [])
        ++ reservedViol d ([(64, x.1.fmt)] ++ (if tq then [] else [(80, y.1.fmt)]) ++ dx.2.2.2
            ++ (if yo then yy.2.2.2 else [])),
      xa.2.2 ++ (if tq then [] else ya.2.2) ++ (if soft then [] else ga.2.2) ++ dx.2.2.1 ++ (if yo then yy.2.2.1 else [])⟩

/-- Read a descriptor of the engine. -/
def State.veParse (s : State) (g d : Nat) : VeDesc := if dfld d 0 0 8 = 0x30 then s.veParse30 g d else s.veParse192 g d

def VeDesc.th (x : VeDesc) : Nat := ceilDiv x.rows 128
def VeDesc.tw (x : VeDesc) : Nat := ceilDiv x.cols 128

/-- How the descriptor is walked. -/
def VeDesc.walk (x : VeDesc) : Walk :=
  if x.op = 0x20 ∨ x.op = 0x23 then .tile
  else if (x.op = 0x21 ∨ x.op = 0x22) ∧ x.dir = 1 then .batch
  else .row

/-- What a pass over a row does (R118, R119, R153): the two sums of pass 1, the sums of pass 2, and the pass that writes. Every
other operation has one pass. -/
inductive VePass where
  | stat
  | stat2
  | sums
  | out
  deriving DecidableEq, Repr

/-- The passes of a descriptor. Pass 1 of layer normalisation and soft-maximum goes over its vectors twice, for two sums that
follow one another; it still counts as one pass and reads its source once: the second sum takes the values that the first has read,
which stand behind the row state until then (log entry 107). -/
def VeDesc.passes (x : VeDesc) : List VePass :=
  if x.op = 0x24 ∨ x.op = 0x25 ∨ x.op = 0x30 then
    [.stat] ++ (if x.fn = 0 then [] else [.stat2]) ++ (if x.op = 0x30 then [.sums] else []) ++ [.out]
  else [.out]

/-- Segments of a batch: its tiles, its tile rows, or one. -/
def VeDesc.segsPer (x : VeDesc) : Nat :=
  match x.walk with
  | .tile => x.th * x.tw
  | .row => x.th
  | .batch => 1

/-- Segments of the walk. -/
def VeDesc.segs (x : VeDesc) : Nat := if x.rows = 0 ∨ x.cols = 0 then 0 else x.batch * x.segsPer

/-- The walk is over. -/
def VeDesc.over (x : VeDesc) (p : VePos) : Bool := decide (x.segs ≤ p.batch * x.segsPer + p.tile)

/-- Batch, first tile row and first tile column of a segment, with its numbers of tile rows and columns. -/
structure SegBox where
  k : Nat
  ti : Nat
  tj : Nat
  nr : Nat
  nc : Nat
  deriving DecidableEq, Repr

def VeDesc.box (x : VeDesc) (p : VePos) : SegBox :=
  match x.walk with
  | .tile => ⟨p.batch, p.tile / x.tw, p.tile % x.tw, 1, 1⟩
  | .row => ⟨p.batch, p.tile, 0, 1, x.tw⟩
  | .batch => ⟨p.batch, 0, 0, x.th, x.tw⟩

/-- Row of vectors and column group of a walk position. -/
def VeDesc.at (x : VeDesc) (p : VePos) : Nat × Nat :=
  let b := x.box p
  (16 * b.ti + p.row, 4 * b.tj + p.vec)

/-- The next segment. -/
def VeDesc.nextSeg (x : VeDesc) (p : VePos) : VePos :=
  if p.tile + 1 < x.segsPer then ⟨p.batch, p.tile + 1, 0, 0, 0⟩ else ⟨p.batch + 1, 0, 0, 0, 0⟩

/-- The position after a vector in the order of R131, and whether the vector was the last of its segment. -/
def VeDesc.next (x : VeDesc) (p : VePos) : VePos × Bool :=
  let b := x.box p
  if x.walk = .batch then
    (if p.row + 1 < 16 * b.nr then ({ p with row := p.row + 1 }, false)
    else if p.vec + 1 < 4 * b.nc then ({ p with row := 0, vec := p.vec + 1 }, false)
    else (x.nextSeg p, true))
  else if p.vec + 1 < 4 * b.nc then ({ p with vec := p.vec + 1 }, false)
  else if p.pass + 1 < x.passes.length then ({ p with vec := 0, pass := p.pass + 1 }, false)
  else if p.row + 1 < 16 * b.nr then ({ p with vec := 0, pass := 0, row := p.row + 1 }, false)
  else (x.nextSeg p, true)

/-- Tiles of a segment in row-major order. -/
def SegBox.tiles (b : SegBox) : List (Nat × Nat) :=
  (List.range b.nr).flatMap (fun i => (List.range b.nc).map (fun j => (b.ti + i, b.tj + j)))

/-- The source of the descriptor that the tile queue supplies. -/
def VeDesc.tqSrc (x : VeDesc) : Option VeSrc := (x.src.filterMap id).find? (fun v => v.tq)

/-! ## Tile-queue supply (R154, R155) -/

/-- Slots that a segment reads: the slots by tile, their number, mismatches counted, and whether the supply has ended. -/
structure Supply where
  slots : List ((Nat × Nat) × TqSlot)
  taken : Nat
  mismatch : Nat
  ended : Bool
  deriving DecidableEq, Repr

/-- Assign the slots at the front of the queue to the tiles of a segment. `left` tiles of the descriptor remain. None:
the engine waits. -/
def takeSlots (fmt : Nat) (left : Nat) : List (Nat × Nat) → List TqSlot → Option Supply
  | [], _ => some ⟨[], 0, 0, false⟩
  | _ :: _, [] => none
  | t :: ts, q :: qs =>
    let bad := (if q.fmt = fmt then 0 else 1) + (if (q.ti, q.tj) = t then 0 else 1)
    if q.last ∧ 1 < left then some ⟨[(t, q)], 1, bad + 1, true⟩
    else (takeSlots fmt (left - 1) ts qs).map (fun r => ⟨(t, q) :: r.slots, r.taken + 1, r.mismatch + bad, r.ended⟩)

/-- Tiles whose slots a segment reads: its own; for a row gather every tile of its tile row that the queue can hold, from its first
one on (R152, R154). -/
def VeDesc.supplyTiles (x : VeDesc) (b : SegBox) : List (Nat × Nat) :=
  if x.gather then (((List.range x.tw).drop (16 * (b.tj / 16))).take 16).map (fun j => (b.ti, j)) else b.tiles

/-- Slots to retire after a segment: all it reads; for a row gather those of a run of 16 tiles after its last tile. -/
def VeDesc.retires (x : VeDesc) (b : SegBox) : Bool := !x.gather || b.tj + 1 == x.tw || (b.tj + 1) % 16 == 0

/-- The supply of a segment. -/
def State.veSupply (s : State) (g : Nat) (x : VeDesc) (j : VeJob) (b : SegBox) : Option Supply :=
  match x.tqSrc with
  | none => some ⟨[], 0, 0, j.lastSeen⟩
  | some v =>
    if j.lastSeen then some ⟨[], 0, 0, true⟩
    else takeSlots ((v.fmt.map Fmt.code).getD 0xF) (x.batch * x.th * x.tw - j.retired) (x.supplyTiles b) (s.core g).hng.tq

/-! ## Reading -/

/-- A value read from a source: FP32 value, its code when the format is BF16 or FP16, and the events of R55. -/
structure VRead where
  v : Num
  code : Option Nat
  ovf : Nat
  ftz : Nat
  deriving DecidableEq, Repr

def VRead.zero : VRead := ⟨Num.zero, none, 0, 0⟩

/-- An element by format, code, fine code and coarse scale (R55). -/
def VRead.of (f : Fmt) (code fine coarse : Nat) : VRead :=
  let r := decodeRead f code fine coarse
  ⟨r.1, if f = .bf16 ∨ f = .fp16 then some code else none, if r.2.1 then 1 else 0, if r.2.2 then 1 else 0⟩

/-- The value of an element that a row gather takes from a slot which is not in the queue with its tile: the spec gives none (a free
value, log entry 107). -/
def VRead.free (serial i j : Nat) : VRead :=
  ⟨Num.ofF32 (leNat ((List.range 4).map (fun n => Config.freeByte 7 serial (4 * (i * 2 ^ 20 + j) + n) % 256))), none, 0, 0⟩

/-- Element `(i, j)` of batch `k` of a source. A tile that the queue does not supply any more reads +0 (R155). -/
def VeDesc.read (x : VeDesc) (v : VeSrc) (sup : Supply) (serial : Nat) (mem : ByteRd) (k i j : Nat) : VRead :=
  if v.tq then
    match sup.slots.find? (fun p => p.1 == (i / 128, j / 128)) with
    | some p =>
      (match Fmt.ofCode p.2.fmt with
        | some f =>
          let n := tileIndex (i % 128) (j % 128)
          VRead.of f (SMap.get (fun _ => 0) p.2.codes n) (v.fixed.getD (SMap.get (fun _ => 0x7F) p.2.scales (n / 64))) v.coarse
        | none => VRead.zero)
    | none => if x.gather && !sup.ended then VRead.free serial i j else VRead.zero
  else match v.fmt with
    | none => VRead.zero
    | some f =>
      if v.shape = 0 then
        let c := Tensor.codeAt ⟨f, v.addr + k * x.bs * f.footprint, x.rs, v.coarse, v.fixed⟩ mem i j
        VRead.of f c.1 c.2 v.coarse
      else
        let e := if v.shape = 1 then j else if v.shape = 2 then i else 0
        let w := f.bits / 8
        VRead.of f (leNat ((List.range w).map (fun n => mem (v.addr + e * w + n)))) 127 v.coarse

/-- Read source `n` of the descriptor. -/
def VeDesc.srcAt (x : VeDesc) (sup : Supply) (serial : Nat) (mem : ByteRd) (n k i j : Nat) : VRead :=
  match (x.src.getD n none) with
  | some v => x.read v sup serial mem k i j
  | none => VRead.zero

/-- A bit of a bitmap laid out as the mask of R145 (R137, R150). -/
def VeDesc.bitAt (x : VeDesc) (a : Option Nat) (mem : ByteRd) (k i j : Nat) : Bool :=
  match a with
  | some b =>
    let n := tileIndex (i % 128) (j % 128)
    (mem (b + (k * x.bs + i / 128 * x.rs + j / 128) * 2048 + n / 8)).testBit (n % 8)
  | none => false

/-- An element is live: no mask, or its mask bit is 1. An unreadable mask reads as zeros (R133). -/
def VeDesc.live (x : VeDesc) (mem : ByteRd) (k i j : Nat) : Bool := !x.maskEn || x.bitAt x.mask mem k i j

/-- Soft-maximum: element `j` of row `i` is not masked by CAUSAL (R117, R120). -/
def VeDesc.seen (x : VeDesc) (i j : Nat) : Bool := !x.causal || decide ((j : Int) ≤ (i : Int) + x.causalOfs)
/-- Every element of row `i` is masked by CAUSAL: its first one is (R120). -/
def VeDesc.voidRow (x : VeDesc) (i : Nat) : Bool := !x.seen i 0

/-! ## Writing: the bytes of a segment -/

/-- What the vectors of a segment have come to so far: the bytes written and not yet stored, by line (none: not written), the events
of R142, indices out of range, the read events of R55, and the census of the two outputs. -/
structure VeAcc where
  ov : SMap (List (Option Nat))
  ev : Ev
  oor : Nat
  rdOvf : Nat
  rdFtz : Nat
  c0 : Census
  c1 : Census
  deriving DecidableEq, Repr

def VeAcc.start (ov : SMap (List (Option Nat))) : VeAcc := ⟨ov, Ev.zero, 0, 0, 0, Census.zero, Census.zero⟩

/-- Memory with the bytes of the segment over it. -/
def VeAcc.mem (a : VeAcc) (base : ByteRd) : ByteRd :=
  fun b => ((SMap.get (fun _ => []) a.ov (b / 128)).getD (b % 128) none).getD (base b)

/-- Bytes from offset `off` of a line over what the segment has written of it. -/
def overLine (l : List (Option Nat)) (off : Nat) (bs : List Nat) : List (Option Nat) :=
  let l0 := if l.isEmpty then List.replicate 128 none else l
  l0.take off ++ bs.map some ++ l0.drop (off + bs.length)

def VeAcc.put (a : VeAcc) (b : Nat) (bs : List Nat) : VeAcc :=
  let ov := (linePieces (bs.length / 128 + 2) b bs).foldl
    (fun m p => SMap.upd (fun _ => []) m p.1 (fun l => overLine l p.2.1 p.2.2)) a.ov
  { a with ov := ov }

/-- Count the events of a read (R55). -/
def VeAcc.event (a : VeAcc) (r : VRead) : VeAcc := { a with rdOvf := a.rdOvf + r.ovf, rdFtz := a.rdFtz + r.ftz }
def VeAcc.events (a : VeAcc) (rs : List VRead) : VeAcc := rs.foldl VeAcc.event a
/-- Count the events of lane-steps (R142). -/
def VeAcc.steps (a : VeAcc) (es : List Ev) : VeAcc := { a with ev := a.ev.add (Ev.sum es) }

/-- What an output takes for an element of the logical extent: the mask decides first (R145). -/
def outElem (q : VeOut) (live maskZero : Bool) (index : Nat) (o : LaneOut) : TileElem :=
  if !live then (if maskZero then (match o with
      | .raw _ => .raw 0
      | _ => .val ⟨Num.zero, Num.zero, index⟩) else .keep)
  else match o with
    | .none => .keep
    | .raw c => .raw c
    | .val v => .val ⟨v, f32Mul v (recipCoarse q.x.coarse), index⟩

/-- Write one block of 64 elements of output `n` (R132, R145, R146). -/
def VeAcc.block (a : VeAcc) (cx : WoCtx) (n : Nat) (base : ByteRd) (q : VeOut) (tile blk : Nat) (es : List TileElem) :
    VeAcc :=
  let mem := a.mem base
  let sb := tile + q.fmt.dataSize + blk
  let r := convBlock cx (if q.fmt.fine then mem sb else 0x7F)
    (fun i => tileCode q.fmt (fun b => mem (tile + b)) (64 * blk + i)) es
  if r.2.2.1 then a
  else
    let a1 := a.put (tile + 64 * blk * q.fmt.bits / 8) (packCodes q.fmt r.1)
    let a2 := if q.fmt.fine then a1.put sb [r.2.1] else a1
    if n = 0 then { a2 with c0 := a2.c0.add r.2.2.2 } else { a2 with c1 := a2.c1.add r.2.2.2 }

/-- Write the four blocks of vector `(va, vb)` of one output: `f i j` gives the element's result (R130, R132). A tile that lies
where the engine may not write is discarded (R133); the mask is read as memory stands at this vector. -/
def VeAcc.vector (a : VeAcc) (x : VeDesc) (cx : WoCtx) (n : Nat) (base : ByteRd) (k va vb : Nat)
    (f : Nat → Nat → LaneOut) : VeAcc :=
  match x.out.getD n none with
  | none => a
  | some q =>
    let tile := q.addr + (k * x.bs + 8 * va / 128 * x.rs + 32 * vb / 128) * q.fmt.footprint
    let mem := a.mem base
    if memTop q.addr ≤ tile then a
    else (List.range 4).foldl (fun a t =>
      let i0 := 8 * va
      let j0 := 32 * vb + 8 * t
      let blk := tileIndex (i0 % 128) (j0 % 128) / 64
      let es := (List.range 64).map (fun e =>
        let i := i0 + e / 8
        let j := j0 + e % 8
        if i < x.rows ∧ j < x.cols then
          outElem q (x.live mem k i j) x.maskZero ((k * x.rows + i) * x.cols + j) (f i j)
        else .pad)
      a.block cx n base q tile blk es) a

/-- Results of a vector's 256 lanes by position: computed once, then looked up. -/
def laneTable {α : Type} (d : α) (va vb : Nat) (f : Nat → Nat → α) : Nat → Nat → α :=
  let l := (List.range 256).map (fun n => f (8 * va + n / 32) (32 * vb + n % 32))
  fun i j => l.getD ((i - 8 * va) * 32 + (j - 32 * vb)) d

/-! ## The operations, vector by vector -/

/-- The lanes of a vector inside the extent. -/
def VeDesc.lanes (x : VeDesc) (va vb : Nat) : List (Nat × Nat) :=
  ((List.range 256).map (fun n => (8 * va + n / 32, 32 * vb + n % 32))).filter
    (fun p => decide (p.1 < x.rows) && decide (p.2 < x.cols))

/-- What a vector works on: batch, row of vectors and column group, memory, the slots of its segment, the write-out contexts of the
outputs, and the serial of free values. -/
structure VecIn where
  k : Nat
  va : Nat
  vb : Nat
  base : ByteRd
  sup : Supply
  cx0 : WoCtx
  cx1 : WoCtx
  serial : Nat

/-- Write both outputs of a vector. -/
def VeAcc.vectors (a : VeAcc) (x : VeDesc) (v : VecIn) (f : Nat → Nat → LaneOut × LaneOut) : VeAcc :=
  (a.vector x v.cx0 0 v.base v.k v.va v.vb (fun i j => (f i j).1)).vector x v.cx1 1 v.base v.k v.va v.vb (fun i j => (f i j).2)

/-- Source `n` at an element, over what the segment has written. -/
def VeAcc.src (a : VeAcc) (x : VeDesc) (v : VecIn) (n i j : Nat) : VRead := x.srcAt v.sup v.serial (a.mem v.base) n v.k i j

/-- ELEM over a vector (R139 to R143). -/
def VeAcc.elemVec (a : VeAcc) (x : VeDesc) (v : VecIn) : VeAcc :=
  let out16 := fun (o : Nat) => match x.out.getD o none with
    | some q => q.fmt == .bf16 || q.fmt == .fp16
    | none => false
  let tab := laneTable LaneSt.start v.va v.vb (fun i j =>
    if i < x.rows ∧ j < x.cols then
      laneChain (fun n => let r := a.src x v n i j; ⟨r.v, r.code⟩) x.imm0 x.imm1 out16 x.steps
    else LaneSt.start)
  let ls := x.lanes v.va v.vb
  let a1 := (a.events (ls.flatMap (fun p => (List.range 3).map (fun n => a.src x v n p.1 p.2)))).steps
    (ls.map (fun (p : Nat × Nat) => (tab p.1 p.2).ev))
  a1.vectors x v (fun i j => ((tab i j).o0, (tab i j).o1))

/-- Number of active columns of a vector's row segment: its present vector length (R130). -/
def VeDesc.present (x : VeDesc) (vb : Nat) : Nat := min 32 (x.cols - 32 * vb)

/-- The index that PERMUTE reads for an element (R152). -/
def VeDesc.permIndex (x : VeDesc) (mem : ByteRd) (k i j : Nat) : Nat :=
  match x.aux with
  | some b => if x.gather then (Tensor.codeAt ⟨.fp32, b + k * x.bs * 65536, x.rs, 0, none⟩ mem i j).1 else mem (b + j % 32)
  | none => 0

/-- The column of source 0 that an element takes; none when its index is out of range. -/
def VeDesc.permCol (x : VeDesc) (mem : ByteRd) (k i j : Nat) : Option Nat :=
  let n := x.permIndex mem k i j
  if (if x.gather then x.cols else x.present (j / 32)) ≤ n then none
  else some (if x.gather then n else 32 * (j / 32) + n)

/-- PERMUTE over a vector (R152). -/
def VeAcc.permVec (a : VeAcc) (x : VeDesc) (v : VecIn) : VeAcc :=
  let col := x.permCol (a.mem v.base) v.k
  let ls := x.lanes v.va v.vb
  let tab := laneTable VRead.zero v.va v.vb (fun i j =>
    if i < x.rows ∧ j < x.cols then (match col i j with
      | some c => a.src x v 0 i c
      | none => VRead.zero)
    else VRead.zero)
  let a1 := a.events (ls.map (fun p => tab p.1 p.2))
  let a2 := { a1 with oor := a1.oor + ls.countP (fun (p : Nat × Nat) => (col p.1 p.2).isNone) }
  a2.vectors x v (fun i j => (.val (tab i j).v, .none))

/-- A vector of a scan (R150, R151): `carry` by row (or column), first at the identity. -/
def VeAcc.scanVec (a : VeAcc) (carry : List Num) (x : VeDesc) (v : VecIn) : VeAcc × List Num :=
  let mem := a.mem v.base
  let byCol := x.dir == 1
  let n := if byCol then 32 else 8
  let len := if byCol then 8 else 32
  let at' := fun (l e : Nat) => if byCol then (8 * v.va + e, 32 * v.vb + l) else (8 * v.va + l, 32 * v.vb + e)
  let inside := fun (p : Nat × Nat) => decide (p.1 < x.rows) && decide (p.2 < x.cols)
  let line := fun (l : Nat) => (List.range len).map (fun e =>
    let p := at' l e
    if inside p && x.live mem v.k p.1 p.2 then (x.seg && x.bitAt x.aux mem v.k p.1 p.2, (a.src x v 0 p.1 p.2).v)
    else (false, redId x.fn))
  let first := if byCol then v.va == 0 else v.vb == 0
  let outs := (List.range n).map (fun l =>
    let xs := line l
    let c := if first then redId x.fn else carry.getD l (redId x.fn)
    let r := scanChunk (redOp x.fn) (if byCol then 3 else 5) c xs
    (scanOut x.excl first (redId x.fn) c (xs.map (fun p => p.1)) r.1, r.2.1, r.2.2))
  let a1 := (a.events ((x.lanes v.va v.vb).map (fun p => a.src x v 0 p.1 p.2))).steps (outs.map (fun o => o.2.2))
  let a2 := a1.vectors x v (fun i j =>
    let l := if byCol then j - 32 * v.vb else i - 8 * v.va
    let e := if byCol then i - 8 * v.va else j - 32 * v.vb
    (.val (((outs.getD l ([], Num.zero, Ev.zero)).1).getD e Num.zero), .none))
  (a2, outs.map (fun o => o.2.1))

/-- Rows of a row of vectors inside the extent. -/
def VeDesc.rowsOf (x : VeDesc) (va : Nat) : List Nat :=
  ((List.range 8).map (fun r => 8 * va + r)).filter (fun i => decide (i < x.rows))
/-- Columns of a column group inside the extent. -/
def VeDesc.colsOf (x : VeDesc) (vb : Nat) : List Nat :=
  ((List.range 32).map (fun c => 32 * vb + c)).filter (fun j => decide (j < x.cols))

/-- Row state (R129): six FP32 values for each of the eight rows of a row of vectors, or one for each of 32 columns. Of a row: the
sum in hand, a second one, and what pass 1 and pass 2 have found. -/
def rowGet (st : List Nat) (slot i : Nat) : Num := Num.ofF32 (st.getD (8 * slot + i % 8) 0)
def rowSet (st : List Nat) (slot i : Nat) (v : Num) : List Nat := st.set (8 * slot + i % 8) v.toF32
def rowStat (st : List Nat) (i : Nat) : RowStat := ⟨rowGet st 2 i, rowGet st 3 i, rowGet st 4 i, rowGet st 5 i⟩
def setRowStat (st : List Nat) (i : Nat) (t : RowStat) : List Nat :=
  rowSet (rowSet (rowSet (rowSet st 2 i t.mu) 3 i t.r) 4 i t.a) 5 i t.b
/-- The row-state store as long as a row of vectors takes. -/
def rowPad (st : List Nat) : List Nat := st ++ List.replicate (48 - st.length) 0

/-- What a vector leaves: the bytes and counts, the row state, the results so far, and a result vector to deliver with the batch
it belongs to. -/
structure VecOut where
  acc : VeAcc
  rowState : List Nat
  result : List Nat
  deliver : Option (Nat × List Num)
  deriving DecidableEq, Repr

/-- Combine two FP32 patterns as a lane-step. -/
def redBits (f a b : Nat) : Nat × Ev :=
  let r := lane2 (redOp f) (Num.ofF32 a) (Num.ofF32 b)
  (r.1.toF32, r.2)

/-- A vector of a reduction along rows or over all (R147, R148): each row's chunk enters its accumulator; after the last vector of the
row the values join the results. For a reduction over all the results are the batch's value and the total. -/
def VeAcc.redRows (a : VeAcc) (st0 res : List Nat) (x : VeDesc) (v : VecIn) (lastVec : Bool) : VecOut :=
  let id := redId x.fn
  let mem := a.mem v.base
  let rows := x.rowsOf v.va
  let cols := x.colsOf v.vb
  let st := rowPad st0
  let a0 := a.events ((x.lanes v.va v.vb).map (fun p => a.src x v 0 p.1 p.2))
  let ins := rows.map (fun i => (i, cols.map (fun j => if x.live mem v.k i j then redIn x.fn (a.src x v 0 i j).v else (id, Ev.zero))))
  let outs := ins.map (fun p =>
    let acc := if v.vb = 0 then id else rowGet st 0 p.1
    (p.1, if cols.isEmpty then (acc, Ev.zero) else redChunk (redOp x.fn) id false acc (p.2.map (fun q => q.1))))
  let a1 := a0.steps (ins.flatMap (fun p => p.2.map (fun q => q.2)) ++ outs.map (fun o => o.2.2))
  let st1 := outs.foldl (fun st o => rowSet st 0 o.1 o.2.1) st
  if !lastVec then ⟨a1, st1, res, none⟩
  else
    let vals := outs.map (fun o => o.2.1.toF32)
    let end_ := decide (8 * v.va + 8 = 128 * x.th)
    if x.dir = 0 then
      (if end_ then ⟨a1, [], [], some (v.k, (res ++ vals).map Num.ofF32)⟩ else ⟨a1, [], res ++ vals, none⟩)
    else
      let idb := id.toF32
      let sum := vals.foldl (fun (c : Nat × Ev) w => let r := redBits x.fn c.1 w; (r.1, c.2.add r.2)) (res.getD 0 idb, Ev.zero)
      if end_ then
        let t := redBits x.fn (res.getD 1 idb) sum.1
        let a2 := a1.steps [sum.2, t.2]
        if v.k + 1 = x.batch then ⟨a2, [], [], some (0, [Num.ofF32 t.1])⟩ else ⟨a2, [], [idb, t.1], none⟩
      else ⟨a1.steps [sum.2], [], [sum.1, res.getD 1 idb], none⟩

/-- A vector of a reduction along columns (R148): chunks of eight rows enter each column's accumulator. -/
def VeAcc.redCols (a : VeAcc) (st res : List Nat) (x : VeDesc) (v : VecIn) : VecOut :=
  let id := redId x.fn
  let mem := a.mem v.base
  let rows := x.rowsOf v.va
  let cols := x.colsOf v.vb
  let a0 := a.events ((x.lanes v.va v.vb).map (fun p => a.src x v 0 p.1 p.2))
  let ins := cols.map (fun j => rows.map (fun i =>
    if x.live mem v.k i j then redIn x.fn (a.src x v 0 i j).v else (id, Ev.zero)))
  let outs := (ins.zip (List.range ins.length)).map (fun p =>
    let acc := if v.va = 0 then id else Num.ofF32 (st.getD p.2 0)
    if rows.isEmpty then (acc, Ev.zero) else redChunk (redOp x.fn) id true acc (p.1.map (fun q => q.1)))
  let a1 := a0.steps (ins.flatMap (fun l => l.map (fun q => q.2)) ++ outs.map (fun o => o.2))
  let st1 := outs.map (fun o => o.1.toF32)
  if 8 * v.va + 8 < 128 * x.th then ⟨a1, st1, res, none⟩
  else if v.vb + 1 < 4 * x.tw then ⟨a1, [], res ++ st1, none⟩
  else ⟨a1, [], [], some (v.k, (res ++ st1).map Num.ofF32)⟩

/-- The values of source 0 that pass 1 has read, behind the row state: 256 for each vector of the row of vectors. -/
def rowRead (st : List Nat) (i j : Nat) : Num := Num.ofF32 (st.getD (48 + 256 * (j / 32) + 32 * (i % 8) + j % 32) 0)

/-- A vector of a sum of pass 1 (R118, R119): the row sum in the order of R147, masked elements at the identity; after the last
vector the statistics of each row. The sources are read once per pass (R131): the second sum takes what the first has read. -/
def VeAcc.statVec (a : VeAcc) (st0 : List Nat) (x : VeDesc) (v : VecIn) (second lastVec : Bool) : VeAcc × List Nat :=
  let par := Num.ofF32 x.imm0
  let id := statId x.fn second
  let cols := x.colsOf v.vb
  let rows := (x.rowsOf v.va).filter (fun i => !x.voidRow i)
  let st := rowPad st0
  let a0 := if second then a else a.events (rows.flatMap (fun i => cols.map (fun j => a.src x v 0 i j)))
  let ins := rows.map (fun i => (i, cols.map (fun j =>
    if x.seen i j then statIn x.fn second par (rowGet st 2 i) (if second then rowRead st0 i j else (a.src x v 0 i j).v)
    else (id, Ev.zero))))
  let outs := ins.map (fun p =>
    let acc := if v.vb = 0 then id else rowGet st 0 p.1
    (p.1, if cols.isEmpty then (acc, Ev.zero) else redChunk (statOp x.fn second) id false acc (p.2.map (fun q => q.1))))
  let a1 := a0.steps (ins.flatMap (fun p => p.2.map (fun q => q.2)) ++ outs.map (fun o => o.2.2))
  let keep := fun (st : List Nat) => if second then (if lastVec then st.take 48 else st)
    else if x.fn = 0 then st
    else st ++ (List.range 256).map (fun n =>
      let i := 8 * v.va + n / 32
      let j := 32 * v.vb + n % 32
      if i < x.rows ∧ j < x.cols then (a.src x v 0 i j).v.toF32 else 0)
  let st1 := outs.foldl (fun st o => rowSet st 0 o.1 o.2.1) st
  if !lastVec then (a1, keep st1)
  else
    let ends := outs.map (fun o => (o.1, statEnd x.fn second x.cols par o.2.1 (rowStat st1 o.1)))
    (a1.steps (ends.map (fun e => e.2.2)), keep (ends.foldl (fun st e => setRowStat st e.1 e.2.1) st1))

/-- A vector of pass 2 of the row recompute: the row sums a (or c) and b (R118). -/
def VeAcc.sumVec (a : VeAcc) (st0 : List Nat) (x : VeDesc) (v : VecIn) (lastVec : Bool) : VeAcc × List Nat :=
  let par := Num.ofF32 x.imm0
  let cols := x.colsOf v.vb
  let rows := (x.rowsOf v.va).filter (fun i => !x.voidRow i)
  let st := rowPad st0
  let a0 := a.events (rows.flatMap (fun i => cols.flatMap (fun j => (List.range 3).map (fun n => a.src x v n i j))))
  let ins := rows.map (fun i => (i, cols.map (fun j =>
    if x.seen i j then sumIn x.fn par (rowStat st i) (a.src x v 0 i j).v (a.src x v 2 i j).v (a.src x v 1 i j).v
    else ((Num.zero, Num.zero), Ev.zero))))
  let red := fun (slot : Nat) (i : Nat) (xs : List Num) =>
    let acc := if v.vb = 0 then Num.zero else rowGet st slot i
    if cols.isEmpty || (slot == 1 && x.fn != 1) then (acc, Ev.zero) else redChunk f32Add Num.zero false acc xs
  let outs := ins.map (fun p => (p.1, red 0 p.1 (p.2.map (fun q => q.1.1)), red 1 p.1 (p.2.map (fun q => q.1.2))))
  let a1 := a0.steps (ins.flatMap (fun p => p.2.map (fun q => q.2)) ++ outs.flatMap (fun o => [o.2.1.2, o.2.2.2]))
  let st1 := outs.foldl (fun st o => rowSet (rowSet st 0 o.1 o.2.1.1) 1 o.1 o.2.2.1) st
  if !lastVec then (a1, st1)
  else
    let ends := outs.map (fun o => (o.1, sumEnd x.fn x.cols o.2.1.1 o.2.2.1 (rowStat st1 o.1)))
    (a1.steps (ends.map (fun e => e.2.2)), ends.foldl (fun st e => setRowStat st e.1 e.2.1) st1)

/-- A vector of the last pass of NORM and SOFTMAX (R153); masked columns and fully masked rows as R120 states. -/
def VeAcc.normVec (a : VeAcc) (st0 : List Nat) (x : VeDesc) (v : VecIn) : VeAcc :=
  let par := Num.ofF32 x.imm0
  let st := rowPad st0
  let ls := (x.lanes v.va v.vb).filter (fun (p : Nat × Nat) => !x.voidRow p.1)
  let a1 := a.events (ls.flatMap (fun p => (List.range 3).map (fun n => a.src x v n p.1 p.2)))
  let tab := laneTable (Num.zero, Ev.zero) v.va v.vb (fun i j =>
    if i < x.rows ∧ j < x.cols ∧ x.seen i j then
      normY x.fn par (rowStat st i) (a.src x v 0 i j).v (a.src x v 1 i j).v (a.src x v 2 i j).v
    else (Num.zero, Ev.zero))
  (a1.steps ((x.lanes v.va v.vb).map (fun (p : Nat × Nat) => (tab p.1 p.2).2))).vectors x v
    (fun i j => (.val (tab i j).1, .val (tab i j).1))

/-- The gain sums (R122) with one element added: dg in entry `j`, for KIND 1 db in entry COLS + `j`. -/
def gainAdd (x : VeDesc) (gs : List Nat) (j : Nat) (xh dy : Num) : List Nat × Ev :=
  let p := lane2 f32Mul dy xh
  let d := lane2 f32Add (Num.ofF32 (gs.getD j 0)) p.1
  let g1 := gs.set j d.1.toF32
  if x.fn = 1 then
    let b := lane2 f32Add (Num.ofF32 (gs.getD (x.cols + j) 0)) dy
    (g1.set (x.cols + j) b.1.toF32, Ev.sum [p.2, d.2, b.2])
  else (g1, p.2.add d.2)

/-- A vector of pass 3 of the row recompute (R118), with the gain sums in increasing row order (R122). -/
def VeAcc.gradVec (a : VeAcc) (st0 gs0 : List Nat) (x : VeDesc) (v : VecIn) : VeAcc × List Nat :=
  let par := Num.ofF32 x.imm0
  let st := rowPad st0
  let yOut := (x.out.getD 1 none).isSome
  let ls := (x.lanes v.va v.vb).filter (fun (p : Nat × Nat) => !x.voidRow p.1)
  let a1 := a.events (ls.flatMap (fun p => (List.range 3).map (fun n => a.src x v n p.1 p.2)))
  let z : (Num × Num × Num) × Ev := ((Num.zero, Num.zero, Num.zero), Ev.zero)
  let tab := laneTable z v.va v.vb (fun i j =>
    if i < x.rows ∧ j < x.cols ∧ x.seen i j then
      rowGrad yOut x.fn par (rowStat st i) (a.src x v 0 i j).v (a.src x v 2 i j).v (a.src x v 1 i j).v
    else z)
  let gs1 := if gs0.isEmpty then List.replicate (if x.fn = 1 then 2 * x.cols else x.cols) 0 else gs0
  let gr := if x.dgain then (x.lanes v.va v.vb).foldl (fun (c : List Nat × Ev) p =>
      let r := gainAdd x c.1 p.2 (tab p.1 p.2).1.2.2 (a.src x v 1 p.1 p.2).v
      (r.1, c.2.add r.2)) (gs1, Ev.zero) else ([], Ev.zero)
  let a2 := a1.steps (((x.lanes v.va v.vb).map (fun (p : Nat × Nat) => (tab p.1 p.2).2)) ++ [gr.2])
  (a2.vectors x v (fun i j => (.val (tab i j).1.1, .val (tab i j).1.2.1)), gr.1)

/-- One vector of a descriptor at a walk position: `st` and `res` are the row state and the results so far. -/
def veVector (x : VeDesc) (p : VePos) (v : VecIn) (st res : List Nat) (a : VeAcc) : VecOut :=
  let lastVec := decide (p.vec + 1 = 4 * x.tw)
  if x.op = 0x20 then ⟨a.elemVec x v, st, res, none⟩
  else if x.op = 0x23 then ⟨a.permVec x v, st, res, none⟩
  else if x.op = 0x21 then (if x.dir = 1 then a.redCols st res x v else a.redRows st res x v lastVec)
  else if x.op = 0x22 then
    let r := a.scanVec (st.map Num.ofF32) x v
    ⟨r.1, r.2.map Num.toF32, res, none⟩
  else match x.passes.getD p.pass .out with
    | .stat => let r := a.statVec st x v false lastVec; ⟨r.1, r.2, res, none⟩
    | .stat2 => let r := a.statVec st x v true lastVec; ⟨r.1, r.2, res, none⟩
    | .sums => let r := a.sumVec st x v lastVec; ⟨r.1, r.2, res, none⟩
    | .out =>
      if x.op = 0x30 then
        let r := a.gradVec st res x v
        if x.dgain && lastVec && decide (8 * v.va + 8 = 128 * x.th) then ⟨r.1, [], [], some (0, r.2.map Num.ofF32)⟩
        else ⟨r.1, st, r.2, none⟩
      else ⟨a.normVec st x v, st, res, none⟩

/-! ## Storing a segment -/

/-- Store the bytes of some lines: a line that is covered in part is merged with what it holds in `m`, memory as the engine sees it,
and written whole (R132, R146). -/
def State.veFlush (s m : State) (g : Nat) (ov : SMap (List (Option Nat))) (rcmp : Bool) : State :=
  forEach ov (fun e s =>
    let old := if e.2.any Option.isNone then m.bytesAt (128 * e.1) 128 else []
    if addrBad (128 * e.1) then s
    else s.writeAt g (128 * e.1) ((List.range 128).map (fun i => (e.2.getD i none).getD (old.getD i 0))) (s.stepTag g) rcmp) s

/-- Lines of vaults that a flush reads to merge them (R146, R166). -/
def State.veMerges (s : State) (ov : SMap (List (Option Nat))) : List (Nat × Nat) :=
  (ov.filter (fun e => e.2.any Option.isNone)).flatMap (fun e => s.linesOf (128 * e.1) 128)

/-- Lines of vaults among some lines by address. -/
def State.veStores (s : State) (ov : SMap (List (Option Nat))) : List (Nat × Nat) := ov.flatMap (fun e => s.linesOf (128 * e.1) 128)

/-- Violation counter of the engine and the core's for R15 (R135, R511). -/
def State.veViols (s : State) (g op seq : Nat) (x : VeDesc) : State :=
  forEach x.bad (fun p s => s.coreAddrViol g op seq p.1 p.2) (s.viols' .veViolCnt g op seq x.viols)

/-- Address runs of a vector's four blocks of a tensor, and of their scale bytes (R81, R82). -/
def VeDesc.blockRuns (x : VeDesc) (f : Fmt) (a k va vb : Nat) : List (Nat × Nat) :=
  let tile := a + (k * x.bs + 8 * va / 128 * x.rs + 32 * vb / 128) * f.footprint
  let blk := tileIndex (8 * va % 128) (32 * vb % 128) / 64
  if memTop a ≤ tile then []
  else (tile + 64 * blk * f.bits / 8, 32 * f.bits) :: (if f.fine then [(tile + f.dataSize + blk, 4)] else [])

/-- Address runs of a vector's bits of a bitmap (R145). -/
def VeDesc.bitRuns (x : VeDesc) (a : Option Nat) (k va vb : Nat) : List (Nat × Nat) :=
  match a with
  | some b => [(b + (k * x.bs + 8 * va / 128 * x.rs + 32 * vb / 128) * 2048
      + tileIndex (8 * va % 128) (32 * vb % 128) / 8, 32)]
  | none => []

/-- Address runs of the index operand of a vector (R150, R152). -/
def VeDesc.auxRuns (x : VeDesc) (k va vb : Nat) : List (Nat × Nat) :=
  match x.aux with
  | some m => if x.seg then x.bitRuns (some m) k va vb else if x.gather then x.blockRuns .fp32 m k va vb else [(m, 32)]
  | none => []

/-- Address runs of a source of a vector. A row gather reads the elements that its indices name. -/
def VeDesc.srcRuns (x : VeDesc) (v : VeSrc) (mem : ByteRd) (k va vb : Nat) : List (Nat × Nat) :=
  match v.fmt with
  | some f =>
    if v.tq then []
    else if v.shape = 0 then
      (if x.gather then
        (x.lanes va vb).flatMap (fun p => match x.permCol mem k p.1 p.2 with
          | some c =>
            let tile := v.addr + (k * x.bs + p.1 / 128 * x.rs + c / 128) * f.footprint
            let n := tileIndex (p.1 % 128) (c % 128)
            if memTop v.addr ≤ tile then [] else (tile + n * f.bits / 8, 1) :: (tile + (n * f.bits + f.bits - 1) / 8, 1)
              :: (if f.fine then [(tile + scaleByte f n, 1)] else [])
          | none => [])
      else x.blockRuns f v.addr k va vb)
    else if v.shape = 1 then [(v.addr + 32 * vb * (f.bits / 8), 4 * f.bits)]
    else if v.shape = 2 then [(v.addr + 8 * va * (f.bits / 8), f.bits)]
    else [(v.addr, f.bits / 8)]
  | none => []

/-- Address runs of the sources, the mask and the kept elements of a vector. -/
def VeDesc.vecRuns (x : VeDesc) (mem : ByteRd) (k va vb : Nat) : List (Nat × Nat) :=
  (x.src.filterMap id).flatMap (fun v => x.srcRuns v mem k va vb) ++ (if x.maskEn then x.bitRuns x.mask k va vb else [])
    ++ (if x.maskEn && !x.maskZero && x.op != 0x21 then
      (x.out.filterMap id).flatMap (fun q => x.blockRuns q.fmt q.addr k va vb) else [])

/-- The second sum of pass 1, which reads nothing from memory (R131). -/
def VeDesc.rereads (x : VeDesc) (p : VePos) : Bool := x.passes.getD p.pass .out == .stat2

/-- Lines that a vector reads from vaults: its index operand first, then the rest. -/
def State.veLines (s : State) (x : VeDesc) (mem : ByteRd) (p : VePos) : List (Nat × Nat) :=
  let v := x.at p
  if (x.lanes v.1 v.2).isEmpty || x.rereads p then [] else (s.runLines (x.vecRuns mem p.batch v.1 v.2)).eraseDups
def State.veAuxLines (s : State) (x : VeDesc) (p : VePos) : List (Nat × Nat) :=
  let v := x.at p
  if (x.lanes v.1 v.2).isEmpty then [] else (s.runLines (x.auxRuns p.batch v.1 v.2)).eraseDups

/-- Address runs that a vector reads all at once. -/
def VeDesc.regions (x : VeDesc) (p : VePos) : List (Nat × Nat) :=
  let v := x.at p
  if x.gather || x.rereads p then [] else (x.src.filterMap id).flatMap (fun q => x.srcRuns q (fun _ => 0) p.batch v.1 v.2)

/-- Results of REDUCE to DST0 and to the slot, and of DGAIN to the slot (R122, R149): the new state, the census of DST0
and of the slot. A result vector is written whole once its batch has been walked, also where DST0 overlaps source 0, and element
e of batch k has the logical index k × n + e in a vector of n elements: the spec settles neither (DESIGN CHOICE, log entry 107). -/
def State.veResult (s : State) (g : Nat) (x : VeDesc) (j : VeJob) (k : Nat) (vs : List Num) : State × Census × Census :=
  let n := vs.length
  let s1c : State × Census := match (if x.op = 0x21 then x.out.getD 0 none else none) with
    | some q =>
      let cx := s.woCtx g q.fmt q.x
      let es := (vs.zip (List.range n)).map (fun p =>
        writeElem cx 127 ⟨p.1, f32Mul p.1 (recipCoarse q.x.coarse), k * n + p.2⟩)
      let w := q.fmt.bits / 8
      (s.writeAt g (q.addr + k * n * w) (es.flatMap (fun e => leBytes w e.1)) (s.stepTag g) j.rcmp,
        es.foldl (fun c e => c.add e.2) Census.zero)
    | none => (s, Census.zero)
  if (x.toSlot || x.dgain) && !j.rcmp then
    let r := s1c.1.slotAddAll g .veViolCnt x.op j.pos x.slotOff x.slot false
      ((vs.zip (List.range n)).map (fun p => (0, k * n + p.2, p.1)))
    (r.1, s1c.2, r.2)
  else (s1c.1, s1c.2, Census.zero)

/-! ## Jobs -/

def VePos.start : VePos := ⟨0, 0, 0, 0, 0⟩
def VeJob.start (d pos : Nat) (eval rcmp : Bool) : VeJob :=
  ⟨d, pos, eval, rcmp, VePos.start, 0, 0, false, [], [], [], [], 0, [Census.zero, Census.zero, Census.zero]⟩

def State.updVe (s : State) (g : Nat) (f : Ve → Ve) : State := s.updCore g (fun c => { c with ve := f c.ve })

/-- The census set that takes the read events of R55: the first that the descriptor keeps, output 0's where output 0 is written. R158
names only output 0's (DEDUCED from R55, log entry 107). -/
def VeDesc.readSet (x : VeDesc) : Nat :=
  if (x.out.getD 0 none).isSome then 0 else if (x.out.getD 1 none).isSome then 1 else 2

/-- The census sets of a descriptor at its end: one per written output, then the slot's (R158). `counts` holds output 0, output 1 and
the slot. An enabled output whose writes are discarded writes no element and keeps no set (DESIGN CHOICE, log entry 107). -/
def State.veSets (s : State) (g : Nat) (x : VeDesc) (counts : List Census) : List CensusSet :=
  let o := fun (n : Nat) => match x.out.getD n none with
    | some q => [(⟨q.fmt.code, 1, q.x.sr, q.x.sat, counts.getD n Census.zero⟩ : CensusSet)]
    | none => []
  o 0 ++ o 1 ++ (if x.toSlot || x.dgain then
    [⟨s.slotFmt g x.slot, 1, false, false, counts.getD 2 Census.zero⟩] else [])

/-- The descriptor is complete. -/
def State.veFinish (s : State) (g : Nat) (j : VeJob) (x : VeDesc) : State :=
  let op := dfld j.desc 0 0 8
  if j.rcmp then
    (s.updVe g (fun v => match v.saved with
      | some k => { v with job := k, saved := none }
      | none => { v with job := none })).rcmpDone g
  else
    -- without work there is no signal (DESIGN CHOICE, log entry 107)
    let s1 := if x.op = 0x21 ∧ !x.void ∧ x.tmb ≠ 0xFF ∧ 0 < x.segs then s.selfTmb g x.tmb 1 else s
    (s1.updVe g (fun v => { v with job := none, lastOp := op })).descDone g 1 (if x.segs = 0 then [] else s.veSets g x j.counts)

/-- A vector enters the chain (R159): one with an active lane, once per pass. -/
def VeDesc.enters (x : VeDesc) (p : VePos) : Bool :=
  let v := x.at p
  !(x.lanes v.1 v.2).isEmpty && !x.rereads p

/-- A 32-bit descriptor counter that carries adds to its total at once (R72): the counts were `old`. A recompute adds nothing (R116). -/
def State.veCarry (s : State) (g : Nat) (x : VeDesc) (j : VeJob) (counts : List Census) : State :=
  let set := fun (n : Nat) (f : Nat) (s : State) =>
    s.carryTotals g j.eval (j.counts.getD n Census.zero) ⟨f, 1, false, false, counts.getD n Census.zero⟩
  let o := fun (n : Nat) (s : State) => match x.out.getD n none with
    | some q => set n q.fmt.code s
    | none => s
  if j.rcmp then s
  else
    let s1 := o 1 (o 0 s)
    if x.toSlot || x.dgain then set 2 (s.slotFmt g x.slot) s1 else s1

/-- Output tiles of the present segment whose every output has been stored signal TILE_TMB (R137, R157). -/
def State.veSettle (s : State) (g : Nat) (j : VeJob) (x : VeDesc) : State × Bool :=
  if !s.writesDone g j.stores then (s, false)
  else
    let s1 := if x.op = 0x21 ∨ x.tmb = 0xFF ∨ j.rcmp then s else forUpTo j.due (fun _ s => s.selfTmb g x.tmb 1) s
    (s1.updVe g (fun v => { v with job := v.job.map (fun j => { j with stores := [], due := 0 }) }), true)

/-- The write-out context of output `n`. -/
def State.veCx (s : State) (g : Nat) (x : VeDesc) (n : Nat) : WoCtx :=
  match x.out.getD n none with
  | some q => s.woCtx g q.fmt q.x
  | none => s.woCtx g .fp32 ⟨none, 0, false, false, 0, 0, 0⟩

/-- The counts that a vector leaves, in the engine's counters (R142, R152, R159). -/
def State.veCount (s : State) (g : Nat) (x : VeDesc) (p : VePos) (a : VeAcc) : State :=
  (((s.bump .veFp32OvfCnt g a.ev.ovf).bump .veFp32InvCnt g a.ev.inv).bump .vePermOorCnt g a.oor).bump .veActCycCnt g
    (if x.enters p then 1 else 0)

/-- What the vector at the walk position makes of the memory that the engine sees, and the lines that leave the engine after it: the
complete ones, and all of them after the last vector of a segment. -/
def State.veVec (s w : State) (g : Nat) (j : VeJob) (x : VeDesc) (sup : Supply) : VecOut × SMap (List (Option Nat)) :=
  let p := j.walk
  let v : VecIn := ⟨p.batch, (x.at p).1, (x.at p).2, w.reader (x.regions p), sup, s.veCx g x 0, s.veCx g x 1, s.freeIx⟩
  let r := veVector x p v j.rowState j.result (VeAcc.start j.ov)
  (r, if (x.next p).2 then r.acc.ov else r.acc.ov.filter (fun e => e.2.all Option.isSome))

/-- Add to one of the three census counts of a descriptor. -/
def addCount (cs : List Census) (n : Nat) (c : Census) : List Census := cs.set n ((cs.getD n Census.zero).add c)

/-- A vector that enters the chain: `w` is memory as the engine sees it. Lines that are complete are stored at once, the others after
the last vector of the segment; then its slots retire (R154). -/
def State.veVecDone (s w : State) (g : Nat) (j : VeJob) (x : VeDesc) (sup : Supply) : State :=
  let p := j.walk
  let b := x.box p
  let r := (s.veVec w g j x sup).1
  let go := (s.veVec w g j x sup).2
  let nx := x.next p
  let ret := nx.2 && x.retires b
  let s2 := ((s.veFlush w g go j.rcmp).veCount g x p r.acc).bump .veTqMismatchCnt g (if ret then sup.mismatch else 0)
  let s3 := if ret then s2.updHng g (fun h => { h with tq := h.tq.drop sup.taken }) else s2
  let d : State × Census × Census := match r.deliver with
    | some (k, vs) => s3.veResult g x j k vs
    | none => (s3, Census.zero, Census.zero)
  let counts := addCount (addCount (addCount (addCount j.counts 0 (r.acc.c0.add d.2.1)) 1 r.acc.c1) 2 d.2.2) x.readSet
    { Census.zero with ovf := r.acc.rdOvf, ftz := r.acc.rdFtz }
  let dst := match r.deliver, (if x.op = 0x21 then x.out.getD 0 none else none) with
    | some (k, vs), some q => s.linesOf (q.addr + k * vs.length * (q.fmt.bits / 8)) (vs.length * (q.fmt.bits / 8))
    | _, _ => []
  (d.1.veCarry g x j counts).updVe g (fun v => { v with job := some { j with
    walk := nx.1
    held := if ret then 0 else sup.taken
    retired := if ret then j.retired + sup.taken else j.retired
    lastSeen := if ret then sup.ended else j.lastSeen
    rowState := if nx.2 then [] else r.rowState
    result := r.result
    ov := if nx.2 then [] else r.acc.ov.filter (fun e => e.2.any Option.isNone)
    stores := (j.stores ++ s.veStores go ++ dst).eraseDups
    due := if nx.2 then b.nr * b.nc else j.due
    counts := counts } })

/-- One vector of the descriptor in hand, once its slots and lines are there, those included that it has to merge; `false` when it must
wait. -/
def State.veStep (s : State) (g : Nat) (j : VeJob) (x : VeDesc) : State × Bool :=
  let p := j.walk
  match s.veSupply g x j (x.box p) with
  | none => (s, false)
  | some sup =>
    let aux := s.veAuxLines x p
    match aux.find? (fun p => !s.lineReady (veUnit g) p) with
    | some (h, l) => (s.unitWait (veUnit g) h l, false)
    | none =>
      let ls := aux ++ s.veLines x ((s.view (veUnit g) aux).reader []) p
      match s.gateReads (veUnit g) ls with
      | (s1, none) => (s1, false)
      | (_, some w) =>
        match s.gateReads (veUnit g) (ls ++ s.veMerges (s.veVec w g j x sup).2).eraseDups with
        | (s1, none) => (s1, false)
        | (s1, some w1) => (s1.veVecDone w1 g j x sup, true)

/-- Vectors as far as slots and lines allow, then completion. After each segment its writes are stored before the walk goes on, and
every write before the descriptor completes (R138, R157). -/
def State.veRun (s : State) (g : Nat) : Nat → State
  | 0 => match (s.core g).ve.job with
    | none => s
    | some j =>
      let x := s.veParse g j.desc
      if j.due != 0 || x.over j.walk then
        let r := s.veSettle g j x
        if r.2 && x.over j.walk then r.1.veFinish g j x else r.1
      else s
  | n + 1 =>
    match (s.core g).ve.job with
    | none => s
    | some j =>
      let x := s.veParse g j.desc
      let r := if j.due != 0 || x.over j.walk then s.veSettle g j x else (s, true)
      if !r.2 then r.1
      else if x.over j.walk then r.1.veFinish g j x
      else
        let t := r.1.veStep g ((r.1.core g).ve.job.getD j) x
        if t.2 then State.veRun t.1 g n else t.1

/-- The engine stores what its vectors have left before a save, once the lines that it merges are there (R160 step 1). -/
def State.veDrain (s : State) (g : Nat) : State :=
  match (s.core g).ve.job with
  | some j => match s.gateReads (veUnit g) (s.veMerges j.ov) with
    | (s1, none) => s1
    | (s1, some w) => (s1.veFlush w g j.ov j.rcmp).updVe g (fun v => { v with job := v.job.map (fun j => { j with
        ov := [], stores := (j.stores ++ s.veStores j.ov).eraseDups }) })
  | none => s

/-- A vector runs packed (R144): PACK_EN, a chain of packed functions, sources and outputs of at most 16 bits. -/
def State.vePacked (s : State) (g : Nat) (x : VeDesc) : Bool :=
  (s.rd .veCtl g 0).testBit 5 && x.op == 0x20 && x.steps.all (fun t => fnPacked t.fn)
    && (x.src.filterMap id).all (fun v => (v.fmt.map (fun f => decide (f.bits ≤ 16))).getD false)
    && (x.out.filterMap id).all (fun q => decide (q.fmt.bits ≤ 16))

/-- VE_STATUS (R161). -/
def State.veStatus (s : State) (g : Nat) : Nat :=
  let v := (s.core g).ve
  match v.job with
  | some j => 1 + dfld j.desc 0 0 8 * 2 + (if s.vePacked g (s.veParse g j.desc) then 2 ^ 9 else 0) + min j.held 16 * 2 ^ 10
  | none => v.lastOp * 2

/-- Accept a descriptor: range check, violations, overlap (R134 to R138). -/
def State.veStart (s : State) (g d pos : Nat) (eval rcmp : Bool) : State :=
  let x := s.veParse g d
  let s1 := (if rcmp then s else s.wr .veDescSeq g 0 pos).veViols g (dfld d 0 0 8) pos x
  let s2 := if x.overlap ∧ 0 < x.segs then s1.bump .veOverlapCnt g 1 else s1
  s2.updVe g (fun v => { v with job := some (VeJob.start d pos eval rcmp) })

/-- The counter of a stall cycle: the first cause of R159 that applies. Nothing is counted with no descriptor in hand. -/
def State.veStallCause (s : State) (g : Nat) : Option Reg :=
  (s.core g).ve.job.map (fun j =>
    let x := s.veParse g j.desc
    if s.grant g < fullGrant g then .veStallPwrCnt
    else if j.due == 0 && !x.over j.walk && (s.veSupply g x j (x.box j.walk)).isNone then .veStallTqCnt
    else if j.due == 0 && !x.over j.walk then .veStallSrcCnt
    else .veStallWrCnt)

/-- Count stall cycles (R159): the clock gives their number, the state of the engine their cause. -/
def State.veStalls (s : State) (g n : Nat) : State :=
  match s.veStallCause g with
  | some r => s.bump r g n
  | none => s

/-- The engine takes up an operation: the descriptor at the head of stream 1 when it is free, then a number of vectors of its walk; `work`
is that number and the stall cycles that passed before. `ops` are the codes of the command; a recompute's descriptor is worked on by the
command of its operation as well. A core with a save request starts no further vector (R160). -/
def State.veExec (s : State) (g : Nat) (ops : Nat → Bool) (work : Nat × Nat) : State :=
  if !s.running g || (s.core g).saveReq || (s.core g).lent || !s.clocked g then s
  else
    let s1 := match (s.core g).ve.job, (s.core g).inUnit 1 with
      | none, some e =>
        if e.kind = 0 ∧ !e.skip ∧ ops (dfld e.desc 0 0 8) then s.veStart g e.desc e.pos e.eval false else s
      | some j, _ => if ops (dfld j.desc 0 0 8) then s.veStalls g work.2 else s
      | _, _ => s
    match (s1.core g).ve.job with
    | some j => if ops (dfld j.desc 0 0 8) then s1.veRun g work.1 else s1
    | none => s1

/-- ELEM (R139 to R146). An operation code of the engine that R134 does not list is taken up here as well: it writes
nothing and is counted. -/
def execElem (core : Nat) (work : Nat × Nat) (s : State) : Host.Outcome State Fault Refusal :=
  .next (s.veExec core (fun o => o == 0x20 || (decide (0x26 ≤ o) && decide (o ≤ 0x3F) && o != 0x30)) work)

/-- REDUCE (R147 to R149). -/
def execReduce (core : Nat) (work : Nat × Nat) (s : State) : Host.Outcome State Fault Refusal :=
  .next (s.veExec core (fun o => o == 0x21) work)

/-- SCAN (R150, R151). -/
def execScan (core : Nat) (work : Nat × Nat) (s : State) : Host.Outcome State Fault Refusal :=
  .next (s.veExec core (fun o => o == 0x22) work)

/-- PERMUTE (R152). -/
def execPermute (core : Nat) (work : Nat × Nat) (s : State) : Host.Outcome State Fault Refusal :=
  .next (s.veExec core (fun o => o == 0x23) work)

/-- NORM (R153). -/
def execNorm (core : Nat) (work : Nat × Nat) (s : State) : Host.Outcome State Fault Refusal :=
  .next (s.veExec core (fun o => o == 0x24) work)

/-- SOFTMAX (R153). -/
def execSoftmax (core : Nat) (work : Nat × Nat) (s : State) : Host.Outcome State Fault Refusal :=
  .next (s.veExec core (fun o => o == 0x25) work)

/-- ROW_RECOMPUTE (R117 to R122). -/
def execRowRecompute (core : Nat) (work : Nat × Nat) (s : State) : Host.Outcome State Fault Refusal :=
  .next (s.veExec core (fun o => o == 0x30) work)

end Sys2Proof.Machine
end

