-- ==== Sys2Proof/Machine/Recovery.lean ====
section
/-! DEFINITION. Context saves and partition restores (R302, R303, R397 to R399). -/

namespace Sys2Proof.Machine

def State.updFlt (s : State) (f : FltSt → FltSt) : State := { s with flt := f s.flt }

/-! ## Saves (R302, R397) -/

/-- A register that a context save holds: the core's own, without the event counters (R397, R510). -/
def savedReg (r : Reg) : Bool := match r.desc.sub with
  | .coreBase | .coreBwd | .coreStg | .coreTrn | .coreSub | .coreRec | .hng | .ve | .cns | .cnsTot | .syn =>
    !r.isCnt || r == .coreSubstCnt
  | _ => false

/-- Register, instance and index of a key of `State.regs`. -/
def keyReg (k : Nat) : Reg := Reg.ofNat (k / 2 ^ 20)
def keyInst (k : Nat) : Nat := k / 2 ^ 12 % 256

/-- Does a key belong to a saved register of core `g`. -/
def savedKey (g k : Nat) : Bool := savedReg (keyReg k) && keyInst k == g

def State.coreRegs (s : State) (g : Nat) : List (Nat × BitVec 64) := s.regs.filter (fun e => savedKey g e.1)
/-- Saved registers of a core back at their reset values. -/
def State.clearRegs (s : State) (p : Nat → Bool) : State := { s with regs := s.regs.filter (fun e => !p e.1) }
/-- Registers of a save, put into core `g`. -/
def State.putRegs (s : State) (g : Nat) (es : List (Nat × BitVec 64)) : State :=
  forEach es (fun e s =>
    let k := e.1 / 2 ^ 20 * 2 ^ 20 + g % 256 * 2 ^ 12 + e.1 % 2 ^ 12
    { s with regs := SMap.set regDefault s.regs k e.2 }) s

/-- The elements of the slots that a core contributes to (R397). -/
def State.ownSlots (s : State) (g : Nat) : List (Nat × Nat) :=
  let d := s.slotDie g
  let mine := (List.range (s.slotCount d)).filter (fun n => match s.slotDecl d n with
    | some q => s.contributes g q.contributor
    | none => false)
  s.slots.data.filter (fun e => mine.contains (e.1 / 2 ^ 27 % 2048) && e.1 / 2 ^ 38 == d)

/-- The core as a save holds it: Lend, the inbound buffer and the pinned register are not saved (R107, R302). -/
def Core.forSave (c : Core) : Core :=
  let h := { c.hng with pin := none }
  { c with lent := false, released := false, saveReq := false, frozen := false, inbound := [], dup := [], missed := 0,
           halted := false, hng := h, vlt := Vlt.idle, fence := .none, adopter := none, adopts := none, withhold := false,
           boundStop := false }

/-- S(s) and D(s) that a core holds, the newer last. -/
def State.savesOf (s : State) (g : Nat) : List Save := s.saves.filter (fun x => x.core == g && x.gen != 0)
/-- The slot of the next save: the two are used in turn (R397). -/
def State.nextSlot (s : State) (g : Nat) : Nat := match (s.savesOf g).getLast? with
  | some v => 1 - v.slot
  | none => 0

/-- The core in whose vault the mirror of a core's saves lies: its successor in the mirror ring, or that one's adopter (R352, R395,
R397). -/
def State.mirrorOf (s : State) (g : Nat) : Option Nat :=
  let ring := s.img.mirror
  let o := (s.core g).adopts.getD g
  ((ring.dropWhile (· != o) ++ ring).drop 1).head?.map s.home

/-- Where the save records of a slot lie: in the core's save area, and in the mirror area of its successor's (R397, R415). An area that
does not lie in its core's vault holds none. -/
def State.saveAreas (s : State) (g slot : Nat) : List Nat :=
  let at_ := fun (h off : Nat) =>
    let a := s.rd .coreSaveBase h 0 + off + slot * 2 ^ 23
    match locOf a with
    | .vault k _ => if addrPkg a = s.pkg ∧ s.home k = h ∧ (s.core h).fence = .none then [a] else []
    | _ => []
  at_ g 0 ++ (match s.mirrorOf g with
    | some m => at_ m (2 ^ 24)
    | none => [])

/-- The save record of R397: the step, the generation, the core. The spec gives no layout of a save: the record is the first line of the slot,
and what else the slot holds stands in `State.saves` (DESIGN CHOICE, log entry 60). -/
def saveRecord (g gen step : Nat) : List Nat := leBytes 8 step ++ [gen, g % 128] ++ List.replicate 118 0

/-- A core takes a save of a generation into its save area and its successor's mirror area; two slots hold the two newest
of S and D (R397). -/
def State.takeSave (s : State) (g gen : Nat) : State :=
  let c := s.core g
  let sl := if gen = 2 ∧ (s.rd .coreOptCtl g 0).testBit 2 then s.ownSlots g else []
  let v : Save := ⟨g, g, s.nextSlot g, c.step, gen, c.forSave, s.coreRegs g, sl⟩
  let mine := s.saves.filter (fun x => x.core == g && (x.gen == 0) == (gen == 0))
  let old := if gen = 0 then [] else mine.drop (mine.length - 1)
  let s1 := { s with saves := s.saves.filter (fun x => !(x.core == g && (x.gen == 0) == (gen == 0))) ++ old ++ [v] }
  if gen = 0 then s1
  else forEach (s.saveAreas g v.slot) (fun a s => s.writeAt g a (saveRecord g gen c.step) (s.stepTag g) false) s1

/-- Can the save record of a core be written at once: nothing holds its lines (R397: the core goes on when it is written). -/
def State.recordFree (s : State) (g : Nat) : Bool := (s.saveAreas g (s.nextSlot g)).all (fun a => s.canStore a 1)

/-- A pass set of the core's vault is claimed: a pass is in progress (R217). -/
def State.passing (s : State) (g : Nat) : Bool := match (s.core g).lane.job with
  | some j => j.banks.any (fun e => e.2.claimed.isSome)
  | none => false

/-- Tokens of banks without a pass return; a bank that waits for a line under R171 begins its pass anew (R204, R217). -/
def LaneJob.quiet (j : LaneJob) : LaneJob :=
  { j with banks := j.banks.map (fun e => (e.1, { e.2 with token := false, failed := none })) }
/-- The same for the descriptor in hand and for one that a recompute has suspended. -/
def Lane.quiet (l : Lane) : Lane := { l with job := l.job.map LaneJob.quiet, saved := l.saved.map (fun o => (o.1.map LaneJob.quiet, o.2)) }

/-- Flush request of a hasp to a gateway (R297). -/
def State.sendFlush (s : State) (g pos gw : Nat) : State :=
  match s.img.gateways.find? (fun p => p.2 == gw) with
  | some (p, _) => s.request (g / 16) (.flush g pos gw) p 0 ⟨9, g % 16, 0, []⟩ 0
  | none => s

/-- Have the units of a core reached their save boundaries: no lane pass in progress, no write-out of the array, every line that the
vector engine wrote stored (R107, R160, R217). -/
def State.settled (s : State) (g : Nat) : Bool :=
  !s.passing g && !((s.core g).hng.job.map (fun j => j.leaving)).getD false
    && (((s.core g).ve.job.map (fun j => j.ov)).getD []).isEmpty
    && s.writesDone g (((s.core g).ve.job.map (fun j => j.stores)).getD [])

/-- A core at its freeze point takes a save of a generation; until its units have settled it only makes them stop (R302). -/
def State.saveAt (s : State) (g gen : Nat) (f : Core → Core) : State :=
  let s1 := s.veDrain g
  if s1.settled g && (gen == 0 || s1.recordFree g) then ((s1.takeSave g gen).dropDelivered g).updCore g (fun c => f { c with lane := c.lane.quiet })
  else s1.updCore g (fun c => { c with saveReq := true })

/-- A restored core evaluates every wait anew, one that lay beyond its bound too. -/
def Core.unstick (c : Core) : Core := { c with streams := c.streams.map (fun es => es.map (fun e => { e with stuck := false })) }

/-- A flag write of a restored hasp that no transaction carries any more is written again by its next HASP (R297, R303, R398 step 3). -/
def State.reflag (s : State) (g : Nat) (h : HaspRun) : State :=
  let open_ := s.prg.txns.any (fun e => match e.2 with
    | some t => t.owner == .flag g h.pos
    | none => false)
  if h.flushes.isEmpty && h.written && !open_ then s.updCore g (fun c => { c with hasp := some { h with written := false } }) else s

/-- The units run again: what arrived after the freeze point is applied in order, every waiting head is evaluated against
the counts, a hasp sends its open flushes again, and senders send again what was refused (R303). -/
def State.thaw (s : State) (g : Nat) : State :=
  let c := s.core g
  let s1 := s.updCore g (fun c => { c.unstick with frozen := false, saveReq := c.halted, inbound := [] })
  let s2 := forEach c.inbound (fun x s => s.applySig g x) s1
  let s3 := forUpTo 4 (fun st s => match (s.core g).head st with
    | some e => if e.target.isSome ∧ waitOp e.wait = 1 then s.evalTumbler g st e else s
    | none => s) s2
  let ms := (c.takes.map (fun t => t.latch) ++ c.held.map (fun x => x.obj)).eraseDups
  let s4 := forEach ms (fun m s => ((s.serveTakes g m 5).drainHeld g m 128).setWaiters g m) s3
  let s5 := match c.hasp with
    | some h => forEach h.flushes (fun gw (s : State) => s.sendFlush g h.pos gw) (s4.reflag g h)
    | none => s4
  s5.resend g

/-- An address in the vault or stage memory of the fenced core `old` leads to its adopter `g` (R395). -/
def State.movedAddr (s : State) (g old a : Nat) : Nat :=
  if addrPkg a = s.pkg ∧ addrSpace a ≤ 1 ∧ bitsOf a 33 7 = old then setBits a 33 7 g else a

/-- The addresses that a core's units hold beside their descriptors lead to the adopter: the tags of the accumulator banks, which a
continuation compares with its C_ADDR (R95, R107, R395), and addresses of shadow copies (R267). -/
def Core.moveAddrs (c : Core) (f : Nat → Nat) : Core :=
  let bank := fun (b : Bank) => { b with tag := f b.tag }
  let p := fun (x : Nat × Nat × Nat) => (x.1, x.2.1, f x.2.2)
  { c with
    hng := { c.hng with
      banks := c.hng.banks.map bank
      saved := c.hng.saved.map (fun v => { v with banks := v.banks.map bank }) }
    substs := c.substs.map (fun x => (x.1, x.2.1, p x.2.2))
    streams := c.streams.map (fun es => es.map (fun e => { e with subst := e.subst.map p })) }

/-- Domain addresses of the fenced core in four restored registers and in what its units hold lead to the adopter (R395). -/
def State.moveBases (s : State) (g old : Nat) : State :=
  let s1 := [Reg.cnsRingBase, .synSqBase, .coreSaveBase, .coreSnapBase].foldl (fun s r =>
    s.wr r g 0 (s.movedAddr g old (s.rd r g 0))) s
  s1.updCore g (fun c => c.moveAddrs (s.movedAddr g old))

/-- The entries of a loaded stream as the units take them: with `redo` a fabric or hub descriptor in hand begins again. -/
def Core.retake (c : Core) (redo : Bool) : List (List Entry) :=
  if redo then c.streams.map (fun es => es.map (fun e =>
    { e with taken := e.taken && (e.done || (c.hasp.map (fun h => h.pos == e.pos)).getD false) }))
  else c.streams

/-- Load a save into core `g` (R303, R395, R398 step 5): the core stands frozen until it is resumed. -/
def State.loadSave (s : State) (g : Nat) (v : Save) (redo : Bool) : State :=
  let c := s.core g
  let es := v.state.retake redo
  let s1 := ((s.clearRegs (savedKey g)).putRegs g v.regs).setCore g { v.state with
    streams := es, inbound := c.inbound, frozen := true, vlt := c.vlt, fence := c.fence,
    adopter := c.adopter, adopts := c.adopts, halted := c.halted }
  let s2 := if v.home = g then s1 else s1.moveBases g v.home
  let s3 := s2.updCore g (fun c => { c with lane := c.lane.quiet })
  if s3.coreState g = 2 then (s3.setCoreState g 1).askGrant g 216 else s3

/-! ## Context save and restore (R302, R303) -/

/-- CONTEXT_SAVE_REQUEST (R107, R160, R217, R302): the units of a core stop at their boundaries; the pinned register
empties. -/
def execContextSaveRequest (core : Nat) (s : State) : Host.Outcome State Fault Refusal :=
  .next (if s.running core then
      s.updCore core (fun c => { c with saveReq := true, hng := { c.hng with pin := none } })
    else s)

/-- FREEZE_POINT (R302): once every unit stands at its boundary the save is taken and the core stands. -/
def execFreezePoint (core : Nat) (s : State) : Host.Outcome State Fault Refusal :=
  .next (if s.running core && (s.core core).saveReq && !(s.core core).halted then
      s.saveAt core 0 (fun c => { c with frozen := true })
    else s)

/-- The messages in a core's inbound buffer are refused, each counted, and go again to its adopter, before what their senders hold
back (R284, R303). -/
def State.refuseInbound (s : State) (g : Nat) : State :=
  let xs := (s.core g).inbound
  let s1 := (s.updCore g (fun c => { c with inbound := [] })).bump .synRefusedCnt g xs.length
  { s1 with sigRetry := xs.map (fun x => (g, x)) ++ s1.sigRetry }

/-- CONTEXT_RESTORE (R303): the save of `owner` of a generation and step is loaded into a core. On another core the messages
held are refused and go again to the adopter. -/
def execContextRestore (core owner gen step : Nat) (s : State) : Host.Outcome State Fault Refusal :=
  .next (if s.active core && decide ((s.core core).fence = .none) && !s.passing core then
      match s.saveOf owner gen step with
      | none => s
      | some v =>
        let s1 := s.loadSave core v false
        if core = owner then s1.thaw core else (s1.refuseInbound owner).thaw core
    else s)

/-! ## Start and derivation saves (R397, R398) -/

/-- Working cores of this package, and deadbolted ones that wait for their adopter or have none. -/
def State.holders (s : State) : List Nat :=
  s.workers ++ (s.flt.waitAdopt ++ s.flt.noAdopter).filter (fun g => !s.workers.contains g)
/-- Every working core of the package holds a save, including one being deadbolted (R398). -/
def State.allHold (s : State) (gen step : Nat) : Bool :=
  !s.holders.isEmpty && s.holders.all (fun g => (s.saveOf g gen step).isSome)
/-- Packages of the partition that are not lost, without this one. -/
def State.live' (s : State) : List Nat := s.peers.filter (fun p => !s.img.lost.contains p)
/-- Every working core of the partition holds a save (R398): those here, and those of every other package as its hub has told. -/
def State.partHold (s : State) (gen step : Nat) : Bool :=
  s.allHold gen step && s.live'.all (fun p => s.flt.peerSaves.contains (p, gen, step))
/-- A hub hears that every working core of a package holds a save; the four newest of a package count. -/
def State.noteHeld (s : State) (p gen step : Nat) : State :=
  let new := (p, gen, step)
  let mine := s.flt.peerSaves.filter (fun x => x.1 == p && x != new)
  let rest := s.flt.peerSaves.filter (fun x => x.1 != p)
  s.updFlt (fun f => { f with peerSaves := (new :: mine).take 4 ++ rest })
/-- A core of the package has taken a save: when it is the last, the hub tells the others (hub message 49). -/
def State.tellHeld (s : State) (gen step : Nat) : State := if s.allHold gen step then s.tellAll 49 [s.pkg, gen, step] else s

/-- The restore generation of the partition: the newest of S and D that every working core holds, as (generation, step) (R398). -/
def State.restoreGen (s : State) : Option (Nat × Nat) :=
  (s.saves.filter (fun v => v.gen != 0 && s.partHold v.gen v.step)).foldl (fun m v => match m with
    | none => some (v.gen, v.step)
    | some (g, st) => if st < v.step ∨ (st = v.step ∧ g < v.gen) then some (v.gen, v.step) else m) none

/-- The stream 3 of a core has reached the wait on the step-start tumbler. -/
def State.atStart (s : State) (g : Nat) : Bool := match s.headWith g 3 1 with
  | some e => waitObj e.wait == s.startTmb && e.target.isNone
  | none => false

/-- START_SAVE (R397): the core takes S(s) at the step-start wait; a pass of its lanes runs to its boundary first. -/
def execStartSave (core : Nat) (s : State) : Host.Outcome State Fault Refusal :=
  .next (if !s.running core || !s.needsStartSave core then s
    else
      let s1 := s.normHead core 3
      if !s1.atStart core then s
      else (s1.saveAt core 1 (fun c => { c with saveReq := c.halted })).tellHeld 1 (s.core core).step)

/-- No lane descriptor stands in the schedule queue from a position to the next STEP_ADV. -/
def State.noLaneAhead (s : State) (g pos : Nat) : Nat → Bool
  | 0 => false
  | n + 1 =>
    let r := s.parseEntry g pos (s.natAt (s.adr g (s.rdF .synSqBase g 0 6 50 * 64 + 64 * pos)) 64)
    if r.entry.kind = 2 then true else if r.stream = 2 ∧ r.entry.kind = 0 then false else State.noLaneAhead s g (pos + 1) n

/-- Every lane descriptor of the step has completed on the core. -/
def State.lanesDone (s : State) (g : Nat) : Bool :=
  ((s.core g).stream 2).isEmpty && (s.core g).lane.job.isNone
    && ((s.core g).closingPending || s.noLaneAhead g (s.core g).pos (2 ^ 20))

/-- DERIVATION_SAVE (R397, R398): a core whose lane descriptors of the step are complete takes D(s). When the last core of the
package has, the hub tells the lead, with each core's derivation tumbler. -/
def execDerivationSave (core : Nat) (s : State) : Host.Outcome State Fault Refusal :=
  let c := s.core core
  .next (if s.running core && s.isSealed && s.working core && !c.evalRun && (s.saveOf core 2 c.step).isNone
      && !s.needsStartSave core && !s.atStart core && s.lanesDone core then
      let s1 := s.saveAt core 2 (fun c => { c with saveReq := c.halted })
      if s1.allHold 2 c.step then
        (s1.tellHeld 2 c.step).tellLead 27 (c.step :: s1.workers.flatMap (fun g => [g, s1.rdF .coreRecoveryCfg g 0 0 8]))
      else s1
    else s)

/-- DERIVATION_POINT (R398): every working core of the partition holds D(step); the lead's hub signals the derivation tumbler
in each. `ready` lists the other packages that have reported, with their cores and tumblers. A lost package reports no more. -/
def execDerivationPoint (step : Nat) (ready : List (Nat × List (Nat × Nat))) (s : State) :
    Host.Outcome State Fault Refusal :=
  .next (if s.isLead && s.isSealed && s.allHold 2 step && s.live'.all (fun p => ready.any (fun r => r.1 == p))
      && s.flt.derived != some step then
      let s1 := s.updFlt (fun f => { f with derived := some step })
      let s2 := forEach s.workers (fun g s => s.deliverSig g ⟨1, s.rdF .coreRecoveryCfg g 0 0 8, 1, 0, false, 164⟩) s1
      forEach (ready.filter (fun r => s.live'.contains r.1)) (fun r s =>
        forEach r.2 (fun q s => s.remoteSig 0 r.1 (q.1 % 128) ⟨1, q.2 % 256, 1, 0, false, 164⟩) s) s2
    else s)

/-! ## Partition restore (R398, R399) -/

/-- A rank moves from core `old` to core `new` of a package (R395). -/
def State.moveRanks (s : State) (pkg old new : Nat) : State :=
  s.updImg (fun i => { i with ranks := i.ranks.map (fun r =>
    if r.pkg = pkg ∧ r.core = old then { r with core := new } else r) })

/-- HUB_RESTORE_STATUS: step, generation (1 S, 2 D, 3 checkpoint), last completed step. -/
def State.restoreStatus (s : State) (step gen phase : Nat) : State :=
  s.wr .hubRestoreStatus 0 0 (step % m48 + gen % 4 * 2 ^ 48 + phase % 8 * 2 ^ 50)
def State.restorePhase (s : State) : Nat := s.rdF .hubRestoreStatus 0 0 50 3

/-- Step 3 of R398: every keyway is reset; the transactions of the step are discarded and not reissued. -/
def State.dropFabric (s : State) : State :=
  let keep := fun (t : Txn) => match t.owner with
    | .ckpt _ _ | .ckptRead _ _ | .repair _ _ _ | .relay _ | .post => true
    | _ => false
  let s1 := forEach (s.prg.kws.map (fun e => e.1)) (fun k s => s.startReset k false) s
  let s2 := s1.updPrg (fun p => { p with
    txns := p.txns.filter (fun e => match e.2 with
      | some t => keep t
      | none => false)
    inbox := p.inbox.filter (fun m => m.kind == 3 || m.kind == 1)
    jobs := [] })
  forUpTo 128 (fun g s => s.updCore g (fun c => { c with inbound := [] })) { s2 with sigRetry := [] }

/-- Step 4 of R398 for S(s): every slot returns to +0 and every partial sum of the step goes. -/
def State.dropSums (s : State) : State :=
  let z := { s.slots with data := [], reading := [] }
  { s.updPrg (fun p => { p with nodes := [], roots := [], accepted := [], descs := [], digests := [] }) with slots := z }

/-- The count of a tumbler of a core as the restore leaves it: as loaded, or as the save has it that its adopter loads when its refill
ends. -/
def State.restored (s : State) (vs : List Save) (g m : Nat) : Nat :=
  let c := s.home g
  if s.flt.loads.contains c ∨ (s.core c).fence ≠ .none then
    match vs.find? (fun v => v.core == c) with
    | some v => (((v.regs.find? (fun e => keyReg e.1 == .synTmbCount && e.1 % 2 ^ 12 == m)).map (fun e => e.2.toNat)).getD 0) % m48
    | none => s.tmbCount c m
  else s.tmbCount c m

/-- Step 6 of R398: every stream window restarts at the instance that its readers' FILL_TMB counts name (R265). -/
def State.restartWindows (s : State) (vs : List Save) : State :=
  s.updTier (fun t => { t with
    fetch := t.fetch.filter (fun f => f.dst == 0)
    wins := t.wins.map (fun w => match w.readerCores with
      | g :: _ => { w with u := s.restored vs g w.fill, filling := false }
      | [] => { w with filling := false }) })

/-- Step 7 of R398: the step gateway begins the STEP job in progress again. -/
def State.restartStep (s : State) : State := match s.host.step with
  | some j =>
    let n := dfld j.raw 20 0 32
    let s1 := s.updHost (fun h => { h with
      reads := h.reads.filter (fun r => r.kind != .list && r.kind != .input)
      step := some { j with listed := n == 0, inputs := [], todo := 0, status := 0, lrSent := false, started := [] } })
    if n = 0 then s1 else s1.hostRead .list (dfld j.raw 24 0 64 / 32 * 32) (32 * n) 0 0
  | none => s

/-- Load the saves of a generation (R398 step 5): working cores now; that of a core which waits for its adopter, or whose adopter is in
refill, when the refill ends, so that one restore covers every adoption (R400). -/
def State.loadAll (s : State) (vs : List Save) (redo : Bool) : State :=
  forEach vs (fun v s =>
    if s.flt.adopting.map (fun p => p.2) = some v.core ∨ s.flt.waitAdopt.contains v.core then
      s.updFlt (fun f => { f with loads := f.loads.filter (· != v.core) ++ [v.core] })
    else if s.working v.core then s.loadSave v.core v redo
    else s) s

/-- The cores whose passes must reach their boundaries first. -/
def State.anyPassing (s : State) : Bool := (List.range 128).any (fun g => s.active g && s.passing g)
/-- Units of every core begin to stop (R398 step 2). -/
def State.stopUnits (s : State) : State :=
  forEach s.workers (fun g s => s.updCore g (fun c => { c with saveReq := true })) s

/-- The lead's hub orders a restore of a generation (R394 step 5, R398 step 1): RESTORE goes to every hub, and its own command follows. -/
def State.orderRestore (s : State) (gen step : Nat) : State := (s.restoreStatus step gen 1).tellAll 24 [step, gen]
/-- A restore of the newest generation is due; after a line repair (`lost`), of S of its step, which every core holds too (R398, R405). -/
def State.restoreDue (s : State) (lost : Bool) : State :=
  if !s.isLead then s
  else match s.restoreGen with
  | some (gen, step) => s.orderRestore (if lost && s.partHold 1 step then 1 else gen) step
  | none => s
/-- The generations that the lead may order: the newest, or S of its step, where hub firmware judges that the lost lines were written before
the derivation point (R398, R405; log entry 96). -/
def State.mayRestore (s : State) (gen step : Nat) : Bool := match s.restoreGen with
  | some (n, st) => st == step && (n == gen || gen == 1 && s.partHold 1 step)
  | none => false

/-! ## Stops and checkpoint fallbacks (R388, R410) -/

/-- The partition stops at its current state (R388): no core advances. -/
def State.stopRun (s : State) (cls : Nat) : State :=
  if s.runStop then s else ({ s with runStop := true }).tellAll 22 [cls]

/-- An open snapshot is abandoned: its pages are protected no longer, and the previous checkpoint remains the newest (R409). -/
def State.dropSnap (s : State) : State := match s.snap with
  | none => s
  | some q => forEach ((q.guarded.map (fun p => p.1) ++ q.copied.map (fun c => c.1)).eraseDups) (fun g s => s.releaseWrites g)
      (({ s with snap := none }).wrF .hubCkptStatus 0 0 48 1 0)

/-- Steps 1 and 2 of R410: the units stop, the keyways are reset, and the tier manager reads every page of a checkpoint back from the
store, 32 lines a transaction. -/
def State.fallback (s : State) (c : Ckpt) : State :=
  forEach c.pages (fun p s => forUpTo 512 (fun i s =>
    let l := p.2 * 2 ^ 14 + 32 * i
    s.request (p.1 / 16) (.ckptRead p.1 l) 64 2 ⟨1, p.1 % 16, vaultAddr s.pkg p.1 (128 * l), leBytes 8 32⟩ 0) s)
    (s.dropSnap.stopUnits.restoreStatus c.step 3 1).dropFabric

/-- A hub falls back to a durable checkpoint and tells the others (hub message 42); without one the partition stops (R410). -/
def State.fallBack (s : State) : List Ckpt → State
  | c :: cs => ((s.updFlt (fun f => { f with ckpts := c :: cs })).fallback c).tellAll 42 [c.step]
  | [] => s.stopRun 3

/-- RESTORE (R398, R399): the restore generation is loaded. `gen` 1 is S(step), 2 is D(step); `moves` are ranks that other packages
have moved to adopters (package, fenced, adopter). The lead restores the partition's newest generation. While a lane pass is in progress the
units only stop. `gen` 3 starts the fallback to a durable checkpoint that the runtime performs after the seal that follows the loss of a
package (R411, R413). -/
def execRestore (step gen : Nat) (moves : List (Nat × Nat × Nat)) (s : State) : Host.Outcome State Fault Refusal :=
  .next (if s.isSealed && gen == 3 then
      match s.flt.ckpts.dropWhile (fun c => c.step != step) with
      | c :: cs => if s.isLead then s.fallBack (c :: cs) else (s.updFlt (fun f => { f with ckpts := c :: cs })).fallback c
      | [] => s
    else if !s.isSealed || !(gen == 1 || gen == 2) || !s.allHold gen step || (s.isLead && !s.mayRestore gen step) then s
    else
      let s0 := forEach moves (fun m s => if m.1 = s.pkg then s else s.moveRanks m.1 m.2.1 m.2.2) s
      if s0.anyPassing then s0.stopUnits.restoreStatus step gen 1
      else
        let vs := s0.saves.filter (fun v => v.gen == gen && v.step == step)
        let s1 := { s0 with saves := s0.saves.filter (fun v => !(v.gen == 2 && gen == 1 && v.step == step)) }
        let s2 := if gen = 1 then s1.dropFabric.dropSums
          else
            let s3 := s1.dropFabric
            let d := SMap.putAll (fun _ => 0) s3.slots.data (vs.flatMap (fun v => v.slots))
            { s3 with slots := { s3.slots with data := d } }
        let s4 := (s2.loadAll vs true).restartWindows vs
        let s5 := if gen = 1 then s4.restartStep else s4
        let s6 := (s5.bump .hubReplayCnt 0 1).restoreStatus step gen 7
        let s7 := s6.updFlt (fun f => { f with derived := if gen = 1 ∧ f.derived = some step then none else f.derived })
        if s7.isLead then s7.tellAll 24 ([step, gen] ++ moves.flatMap (fun m => [m.1, m.2.1, m.2.2]))
        else s7.tellLead 25 [step, gen])

/-- Records of class STEP and CORE whose handling has ended leave the queue (R389, R390). -/
def State.closeWindows (s : State) : State := s.closeRecords (fun c => c == 1 || c == 2)

/-- RESUME (R398 step 8): every hub is ready (`ready` lists the other packages, at the lead); held cores are released and the
partition replays; a partition that stops at its restore generation (R401, R411) is not resumed. -/
def execResume (ready : List Nat) (s : State) : Host.Outcome State Fault Refusal :=
  .next (if s.restorePhase ≠ 7 || s.runStop || s.flt.stopAtGen || (s.isLead && !s.live'.all (fun p => ready.contains p)) then s
    else
      let s1 := s.wrF .hubRestoreStatus 0 0 50 3 0
      let go := s1.workers.filter (fun g => (s1.core g).frozen && !s1.flt.loads.contains g)
      let s2 := forEach s1.workers (fun g s => s.updCore g (fun c =>
        { c with withhold := false, boundStop := false, saveReq := c.halted })) s1
      let s3 := (forEach go (fun g s => s.thaw g) s2).closeWindows
      if s3.isLead then s3.tellAll 26 [] else s3)

end Sys2Proof.Machine
end

