-- ==== Sys2Proof/Machine/Faults.lean ====
section
/-! DEFINITION. The fault queue, deadbolting, adoption, refill, line repair, digest mismatches and checkpoints (R388 to
R412). -/

namespace Sys2Proof.Machine

/-! ## The fault queue (R389, R518) -/

/-- A record takes an entry: hub time, SEQ, the copies to the event rings. -/
def State.fltEnter (s : State) (r : FaultRec) : State :=
  let r1 := { r with hubTime := s.hubTime, seq := s.fltSeq % 2 ^ 32 }
  let win := (r.cls == 1 || r.cls == 2) && s.isSealed
  let e : FltEntry := ⟨r1, win, true⟩
  let s1 := { s with fltq := s.fltq ++ [e], fltSeq := s.fltSeq + 1 }
  ((s1.eventEntry r1 (if 1 ≤ r.cls then [0, 1] else [1])).tellGateways 21 (r1.bytes s.pkg)).faultPin s

/-- A NOTE that finds no entry merges with its kind and island, or is dropped. -/
def State.fltMerge (s : State) (r : FaultRec) : State :=
  let same := fun (e : FltEntry) => e.record.kind == r.kind && e.record.island == r.island && e.record.cls == 0
  if s.fltq.any same then
    let up := fun (e : FltEntry) => { e with record := { e.record with count := min (e.record.count + 1) 0xFFFF } }
    ({ s with fltq := updFirst same up s.fltq }).bump .hubFltqMergeCnt 0 1
  else s.bump .hubFltqDropCnt 0 1

/-! ## Aborting a load (R357) -/

/-- A load that has not reached SEAL is discarded: nothing of it stays (R355). -/
def State.dropLoad (s : State) : State := match s.img.staged with
  | none => s
  | some t => ((s.updImg (fun i => { i with staged := none })).wrF .hubImageStatus 0 0 0 3 (if s.isSealed then 5 else 0)).wrF
      .hubImageStatus 0 0 16 2 t.oldLead

/-- A package refuses an image: it holds the code and counts the refusal (R356). -/
def State.holdRefusal (s : State) (code : Nat) : State := (s.wrF .hubImageStatus 0 0 8 8 code).bump .hubImageRefuseCnt 0 1

/-- An image load before SEAL ends with a refusal code of a package (R355 to R357). The lead completes the job, reports IMAGE_ID to the
host (R31) and sends ABORT: hub message 36 to package 64 goes to every package of the staged domain table. Another package tells the
lead. -/
def State.abortLoad (s : State) (code pkg : Nat) : State := match s.img.staged with
  | none => s
  | some t =>
    let s1 := if pkg = s.pkg then s.dropLoad.holdRefusal code else s.dropLoad
    let id := secNat t.head 8 8
    if t.ring < 16 then
      ((((s1.updImg (fun i => { i with refusedId := some id })).finishJob t.jid 0x46 (code + pkg * 256)).send
        (.imageRefused pkg code id)).send (.hub 36 64 [code, pkg]))
    else s1.send (.hub 34 t.lead [s.pkg, code])

/-! ## Deadbolting (R393, R394) -/

def State.adoptStatus (s : State) (state fenced adopter source left : Nat) : State :=
  s.wr .hubAdoptStatus 0 0 (state + fenced % 128 * 2 ^ 3 + adopter % 128 * 2 ^ 10 + source * 2 ^ 17 + left * 2 ^ 20)

/-- Step 2 of R394: the core is SUSPECT: its sequencer dispatches nothing further, its vault is served as usual. A load before SEAL is
aborted (R357): the lead, which sends ABORT unless SEAL has gone, hears of it with the fenced core; a core that holds ranks waits for its
adopter, in the order of the records (R400). -/
def State.deadbolt (s : State) (g : Nat) : State :=
  if (s.core g).fence ≠ .none then s
  else
    let s1 := (s.updCore g (fun c => { c with fence := .suspect })).adoptStatus 1 g 0 0 0
    let s2 := if (s.ranksOf g).isEmpty then s1 else s1.updFlt (fun f => { f with waitAdopt := f.waitAdopt ++ [g] })
    match s2.img.staged with
    | some t =>
      if t.sealing then s2
      else if t.ring < 16 then (s2.send (.fencedCore s2.pkg g)).abortLoad 0x0E s2.pkg
      else s2.send (.hub 34 t.lead [s2.pkg, 0x0E + 256 * (g + 1)])
    | none => s2

/-- Step 3 of R394: the core is FENCING: its channels refuse every transfer, and its vault serves the hub and fabric reads only. -/
def State.fenceOff (s : State) (g : Nat) : State :=
  if (s.core g).fence = .suspect then
    ((s.updCore g (fun c => { c with fence := .fencing })).updVlt g (fun v => { v with hubOnly := true })).adoptStatus 2 g 0 0 0
  else s

/-! ## Line repair and refill by update groups (R403 to R405) -/

/-- The first line of the update group of a shard that holds a line. -/
def Shard.groupOf (x : Shard) (l : Nat) : Option Nat :=
  let l0 := x.base / 128
  let r0 := 2 * (l0 / 2048)
  let row := l / 1024
  if row < r0 then none
  else
    let p := lineBank l + 128 * ((row - r0) / 2)
    if lineBank l0 ≤ p ∧ p < lineBank l0 + 128 * x.tiles then some (groupLine l0 (p - lineBank l0) 0) else none
/-- Every update group of a shard. -/
def Shard.allGroups (x : Shard) : List Nat := (List.range (128 * x.tiles)).map (fun i => groupLine (x.base / 128) i 0)

/-- The shard that has a copy at a core of this package with a line in it: shard, rank there, first line of the group. -/
def State.shardAt (s : State) (g l : Nat) : Option (Nat × Nat × Nat) :=
  (List.range s.img.shards.length).findSome? (fun i => match s.img.shards[i]? with
    | some x => match x.groupOf l, x.ranks.find? (fun v => s.rankAt v == some (s.pkg, g)) with
      | some f, some v => some (i, v, f)
      | _, _ => none
    | none => none)

/-- The copies of a shard at other ranks than `v`, as `128 * package + core`: the owner's, then the replicas in ascending order (R348,
R403). -/
def State.otherCopies (s : State) (i v : Nat) : List Nat := match s.img.shards[i]? with
  | some x => ((x.ranks.filter (· != v)).filterMap s.rankAt).map (fun p => 128 * p.1 + p.2)
  | none => []
/-- The first other copy, and the one that follows a source that has failed. -/
def State.otherCopy (s : State) (i v : Nat) : Option Nat := (s.otherCopies i v).head?
def State.nextCopy (s : State) (i v src : Nat) : Option Nat := (((s.otherCopies i v).dropWhile (· != src)).drop 1).head?

/-- Start the first repair that waits: its 16 lines are read from the source in two runs of eight. -/
def State.repairGo (s : State) : State := match s.flt.repairs with
  | (g, l, src, 0) :: rest =>
    let s1 := s.updFlt (fun f => { f with repairs := (g, l, src, 2) :: rest })
    forEach [l, l + 1024] (fun m s =>
      let a := vaultAddr (src / 128) (src % 128) (128 * m)
      s.request (g / 16) (.repair g m src) (src / 128) 2 ⟨1, src % 16, a, leBytes 8 8⟩ (addrDie a)) s1
  | _ => s
def State.addRepairs (s : State) (rs : List (Nat × Nat × Nat × Nat)) : State :=
  let s1 := s.updFlt (fun f => { f with repairs := f.repairs ++ rs })
  if s.flt.repairs.isEmpty then s1.repairGo else s1
/-- Repairs that satisfy `p` are given up. -/
def State.dropRepairs (s : State) (p : Nat × Nat × Nat × Nat → Bool) : State :=
  (s.updFlt (fun f => { f with repairs := f.repairs.filter (fun r => !p r) })).repairGo

/-- SOURCE of HUB_ADOPT_STATUS for a copy of a shard: its place among the other copies, from 1 (R414). -/
def State.sourceCode (s : State) (i v src : Nat) : Nat := min (1 + ((s.otherCopies i v).takeWhile (· != src)).length) 3

/-- Refill of a shard starts from another copy, whole; without one the shard is lost (R403, R404). -/
def State.refillFrom (s : State) (a i v : Nat) (src : Option Nat) : State := match src, s.img.shards[i]? with
  | some c, some x =>
    ((s.updFlt (fun f => { f with copies := (f.copies ++ [i]).eraseDups })).wrF .hubAdoptStatus 0 0 17 3 (s.sourceCode i v c)).addRepairs
      (x.allGroups.map (fun l => (a, l, c, 0)))
  | _, _ => (s.updFlt (fun f => { f with gone := (f.gone ++ [i]).eraseDups })).wrF .hubAdoptStatus 0 0 17 3 7

/-! ## Adoption (R395, R400, R401) -/

/-- Saves of a core pass to the core that takes its ranks. -/
def moveSaves (old new : Nat) (vs : List Save) : List Save := vs.map (fun v => if v.core = old then { v with core := new } else v)

/-- The adopter of R400. -/
def State.chooseAdopter (s : State) (g : Nat) : Option Nat :=
  (s.img.adopt.take s.img.reserved).find? (fun a =>
    a != g && decide ((s.core a).fence = .none) && (s.ranksOf a).isEmpty && (s.core a).adopts.isNone)

/-- Lines of a vault that may hold something: those with a stored byte in their place, and those remapped or retired. -/
def State.usedLines (s : State) (g : Nat) : List Nat :=
  let ks := (SMap.slice s.vmem (placeKey g 0 0) (placeKey (g + 1) 0 0)).map (fun e => e.1 / lineBytes)
  let ls := (ks.eraseDups.filter (fun p => decide (p % bankLines < 2 ^ 19))).map (fun p =>
    bankLine (p / bankLines % 128) (p % bankLines))
  let rm := (List.range 8).filterMap (fun n => if (s.rd .vltRemap g n).testBit 0 then some (s.rdF .vltRemap g n 1 26) else none)
  let rt := (List.range 4).flatMap (fun n => if (s.rd .vltRetire g n).testBit 0
    then (List.range (2 ^ 14)).map (fun i => s.rdF .vltRetire g n 1 12 * 2 ^ 14 + i) else [])
  (ls ++ rm ++ rt).eraseDups

/-- Lines of a vault that do not pass their check. -/
def State.badLines (s : State) (f : Nat) : List Nat := (s.usedLines f).filter (fun l => !(s.rawLine f l).ok)

/-- Copies of shards at a core: shard and rank. -/
def State.copiesAt (s : State) (a : Nat) : List (Nat × Nat) :=
  (List.range s.img.shards.length).filterMap (fun i => match s.img.shards[i]? with
    | some x => (x.ranks.find? (fun v => s.rankAt v == some (s.pkg, a))).map (fun v => (i, v))
    | none => none)
/-- Shards with a copy at the fenced core that its own vault cannot give: a line of the copy does not pass its check. -/
def State.badShards (s : State) (f a : Nat) : List (Nat × Nat) :=
  let ls := s.badLines f
  (s.copiesAt a).filter (fun p => (s.img.shards[p.1]?).any (fun x => ls.any (fun l => (x.groupOf l).isSome)))

/-- Copy lines of the fenced vault to the same places of the adopter's (R395, R403). -/
def State.copyLines (s : State) (f a : Nat) (ls : List Nat) : State :=
  forEach ls (fun l s =>
    let r := s.rawLine f l
    s.putRaw (s.lineKey a l) (if r.ok then r else r.lost)) s
/-- The adopter's vault takes every line of the fenced core's own vault, but those of shards that come whole from another copy. -/
def State.copyVault (s : State) (f a : Nat) (shards : List Nat) : State :=
  let s1 := { s with vmem := SMap.clearRange s.vmem (placeKey a 0 0) (placeKey (a + 1) 0 0) }
  s1.copyLines f a ((s.usedLines f).filter (fun l => !shards.any (fun i => (s.img.shards[i]?).any (fun x => (x.groupOf l).isSome))))

/-- Refill begins (R403, R404): shard by shard from the fenced core's own vault, unless that caused the deadbolt; a shard of which the vault
has a bad line restarts at the next source. -/
def State.refill (s : State) (f a : Nat) : State :=
  let own := !s.flt.ownBad.contains f
  let bad := if own then s.badShards f a else s.copiesAt a
  let s1 := s.updFlt (fun q => { q with copies := [], gone := [] })
  let s2 := if own then (s1.copyVault f a ((bad.filter (fun p => !(s.otherCopies p.1 p.2).isEmpty)).map (fun p => p.1))).bump
      .hubRefillRestartCnt 0 bad.length else s1
  forEach bad (fun p s => s.refillFrom a p.1 p.2 (s.otherCopy p.1 p.2)) s2

/-- A core takes every rank of a deadbolted one, and refill of its pages begins (R400, R403). -/
def State.adopt (s : State) (g a : Nat) : State :=
  let s0 := s.updFlt (fun f => { f with waitAdopt := f.waitAdopt.filter (· != g) })
  let orig := (s0.core g).adopts.getD g
  let s1 : State := { s0.moveRanks s0.pkg g a with saves := moveSaves g a s0.saves }
  let s2 := s1.updCore a (fun c => { c with adopts := some orig, frozen := true, step := (s0.core g).step })
  let s3 := (s2.updCore orig (fun c => { c with adopter := some a })).updCore g (fun c => { c with adopter := some a })
  let s4 := s3.updFlt (fun f => { f with
    adopting := some (g, a)
    loads := f.loads.map (fun x => if x = g then a else x) })
  let s5 := if s4.coreState a = 3 then (s4.setCoreState a 1).askGrant a 216 else s4
  let pages := ((s.usedLines orig).map linePage).eraseDups.length
  ((s5.adoptStatus 4 orig a 0 pages).tellAll 44 [s5.pkg, g, a]).refill orig a

/-- No reserved core is left for a deadbolted one: FLT_ADOPT_EXHAUSTED is queued, and the partition stops at its restore generation
(R401). -/
def State.exhausted (s : State) (g : Nat) : State :=
  (s.updFlt (fun f => { f with
    stopAtGen := true
    waitAdopt := f.waitAdopt.filter (· != g)
    noAdopter := f.noAdopter ++ [g] })).queue .fltAdoptExhausted hubIsland none (.gen 0 g 0 0 0 0)

/-- Deadbolted cores in the order of their records, once they are dark: one adoption at a time; each for which no adopter is left is
reported (R400, R401). -/
def State.adoptWalk (s : State) : List Nat → State
  | [] => s
  | g :: rest =>
    if (s.core g).fence ≠ .dark then s
    else match s.chooseAdopter g with
    | none => (s.exhausted g).adoptWalk rest
    | some a => if s.flt.adopting.isSome then s else s.adopt g a
def State.adoptNext (s : State) : State := s.adoptWalk s.flt.waitAdopt

/-- Registers that a core loses when it is power-gated: all of its sub-blocks but the vault's and the lanes'. -/
def coreReg (g k : Nat) : Bool := (match (keyReg k).desc.sub with
  | .coreBase | .coreBwd | .coreStg | .coreTrn | .coreSub | .coreRec | .coreAdr | .hng | .ve | .cns | .cnsTot | .syn => true
  | _ => false) && keyInst k == g

/-- A core loses what its power holds: registers, stage memory, units, streams (R393, R396). -/
def State.gateCore (s : State) (g : Nat) : State :=
  let c := s.core g
  let s1 := (s.clearRegs (coreReg g)).setCore g { Core.reset with
    step := c.step, vlt := c.vlt, fence := c.fence, adopter := c.adopter, adopts := c.adopts }
  { s1 with stg := SMap.clearRange s1.stg (g * stgBytes) ((g + 1) * stgBytes) }

/-- DEADBOLT_DARK (R393 to R396, R404): a core that is SUSPECT is fenced; once the lanes of a core being fenced stand at their boundaries it
is power-gated and named in HUB_FENCED, its grant returns, the lead orders a restore, and the next adoption begins. -/
def execDeadboltDark (core : Nat) (s : State) : Host.Outcome State Fault Refusal :=
  let s := s.fenceOff core
  .next (if (s.core core).fence ≠ .fencing || s.passing core then s
    else
      let s1 := ((s.gateCore core).updCore core (fun c => { c with fence := .dark })).setCoreState core 3
      let s2 := (s1.returnGrant core).bump .hubDeadboltCnt 0 1
      let r : Reg := if core < 64 then .hubFencedLo else .hubFencedHi
      let s3 := (s2.wr r 0 0 (setBits (s2.rd r 0 0) (core % 64) 1 1)).adoptStatus 3 core 0 0 0
      let s4 := if s3.flt.adopting.map (fun p => p.2) = some core
        then (s3.updFlt (fun f => { f with adopting := none })).dropRepairs (fun r => r.1 == core) else s3
      ((s4.tellLead 23 [core, (s.core core).step]).restoreDue false).adoptNext)

/-! ## The protection report (R354, R412) -/

/-- The first value that stands in a list twice. -/
def sharedOf : List Nat → Option Nat
  | [] => none
  | x :: xs => if xs.contains x then some x else sharedOf xs

/-- A shard on a common feed: the feed that copies share, and the packages that hold it. -/
def State.shardEntry (s : State) (i : Nat) : List Nat := match s.img.shards[i]? with
  | some x =>
    let ps := (x.ranks.filterMap s.rankAt).map (fun p => p.1)
    let feed := sharedOf (ps.filterMap (fun p => (s.img.feeds.find? (fun f => f.1 == p)).map (fun f => f.2)))
    leBytes 4 i ++ leBytes 4 (feed.getD 0) ++ leBytes 8 (ps.eraseDups.foldl (fun a p => a + 2 ^ p) 0)
  | none => []

def State.protReport (s : State) : List Nat :=
  let es := (List.range s.img.shards.length).filter (fun i => (s.img.shards[i]?).any (fun x => x.common))
  leBytes 8 (s.rd .hubImageId 0 0) ++ leBytes 4 es.length
    ++ leBytes 4 (s.rdF .hubImageStatus 0 0 21 1 + (if es.isEmpty && s.img.lostRep.isEmpty then 2 else 0))
    ++ leBytes 8 (s.core s.lowCore).step ++ leBytes 8 0 ++ es.flatMap s.shardEntry

/-- The lead writes the current report to its host and announces it (R354, R374). -/
def State.writeProt (s : State) : State :=
  let b := s.protReport
  if s.attached ∧ s.rd .hostProtBase 0 0 ≠ 0 then
    (s.send (.pcieWrite (s.rd .hostProtBase 0 0) b false false)).gwEvent .protReport (.gen 0 0 0 ((b.length - 32) / 16) 0 0) [1]
  else s

/-! ## Lost shards and fallbacks (R404, R406, R410) -/

def State.ckptMode (s : State) : Bool := s.rdF .hubImageStatus 0 0 21 1 == 1

/-- Shards without a copy left: a checkpoint fallback in checkpoint mode, one FLT_SHARD_LOST a shard in replica mode; with no checkpoint
the partition stops. The shards are not covered in the protection report (R404, R410, R412). -/
def State.shardsLost (s : State) (is : List Nat) : State :=
  if is.isEmpty then s
  else
    let s1 := s.updImg (fun i => { i with lostRep := (i.lostRep ++ is).eraseDups })
    if s.ckptMode then s1.fallBack s.flt.ckpts
    else forEach is (fun i s => s.queue .fltShardLost hubIsland none
      (.gen 0 0 (((s.img.shards[i]?).map (fun x => x.owner)).getD 0) i 0 0)) s1

/-! ## Line repair (R405) -/

/-- The lines of a step's fault are repaired: the lead hears of it, or orders the restore itself (R405). -/
def State.repaired (s : State) (step : Nat) : State := if s.isLead then s.restoreDue true else s.tellLead 45 [step]

/-- The source of a group fails (R404): the next copy is the source, in a refill of the whole shard from its first group; without one the
shard is lost. -/
def State.repairFail (s : State) (g l src : Nat) : State := match s.flt.repairs with
  | (h, f, c, n) :: rest =>
    if h = g ∧ c = src ∧ n ≠ 0 ∧ (f = l ∨ f + 1024 = l) then
      match s.shardAt g f with
      | none => (s.updFlt (fun q => { q with repairs := rest })).repairGo
      | some (i, v, _) =>
        if s.flt.adopting.map (fun p => p.2) = some g then
          let mine := fun (r : Nat × Nat × Nat × Nat) => r.1 == g && (s.img.shards[i]?).any (fun x => x.allGroups.contains r.2.1)
          let s1 := (s.bump .hubRefillRestartCnt 0 1).dropRepairs mine
          s1.refillFrom g i v (s.nextCopy i v src)
        else match s.nextCopy i v src with
          | some c => (s.updFlt (fun q => { q with repairs := (g, f, c, 0) :: rest })).repairGo
          | none => ((s.updFlt (fun q => { q with repairs := rest })).repairGo).shardsLost [i]
    else s
  | [] => s

/-- A half of a group has arrived: lines of 136 bytes, stored with their tags and flags; the repair of the group counts when
both halves are there (R405). A source whose line is POISON has failed. -/
def State.repairData (s : State) (g l src : Nat) (body : List Nat) : State :=
  match s.flt.repairs with
  | (h, f, c, n) :: rest =>
    if h = g ∧ c = src ∧ n ≠ 0 ∧ (f = l ∨ f + 1024 = l) then
      let b := fun (i : Nat) => (body.drop (136 * i)).take 136
      if body.length < 1088 || (List.range 8).any (fun i => ((b i).getD 134 0).testBit 2) then s.repairFail g l src
      else
        let s1 := forUpTo 8 (fun i s => s.putLine g (l + i) ((b i).take 128) (leNat (((b i).drop 132).take 2)) ((b i).getD 134 0)) s
        if n ≤ 1 then
          let refill := fun (h : Nat) => decide (s.flt.adopting.map (fun p => p.2) = some h)
          let s2 := (s1.updFlt (fun q => { q with repairs := rest })).repairGo
          if refill g then s2
          else
            let s3 := s2.bump .hubLineRepairCnt 0 1
            if rest.all (fun r => refill r.1) then s3.repaired (s3.core g).step else s3
        else s1.updFlt (fun q => { q with repairs := (h, f, c, n - 1) :: rest })
    else s
  | [] => s

/-- The object that has a page in a frame. -/
def State.objAt (s : State) (g page : Nat) : Option (Nat × TierObj × Nat) := s.tier.objs.findSome? (fun e => match e.2 with
  | some x => match x.res with
    | some (h, p) => if h = g ∧ p ≤ page ∧ page < p + x.pages ∧ x.state ≠ .cold then some (e.1, x, page - p) else none
    | none => none
  | none => none)

/-- The line that a STEP record names, in this package: core and line. -/
def lostLine (r : FaultRec) : Option Nat := match r.kind, r.payload with
  | .vltLasting, .line a _ _ _ _ _ _ _ _ _ => some a
  | .trnTagSkew, .gen _ _ _ _ _ c => some c
  | _, _ => none

/-- The page of a state object that the repair of a record promotes again: vault, object, page (R405). -/
def State.lostPage (s : State) (r : FaultRec) : Option (Nat × Nat × TierObj × Nat) :=
  match (lostLine r).map locOf with
  | some (.vault g b) =>
    if (s.shardAt g (b / 128)).isSome then none
    else match s.objAt g (linePage (b / 128)) with
    | some (o, x, i) => if x.kind = 1 then some (g, o, x, i) else none
    | none => none
  | _ => none

/-- The repair of a lost line (R405): an update group from another copy, a state-object page from its home tier (`lines` are its
lines when the home is remote), nothing for what the replay rewrites. Then the lead hears of it. -/
def State.repairLine (s : State) (r : FaultRec) (lines : List (Nat × Nat × Nat × List Nat)) : State :=
  match (lostLine r).map locOf with
  | some (.vault g b) =>
    (match s.shardAt g (b / 128) with
    | some (i, v, f) => match s.otherCopy i v with
      | some src => s.addRepairs [(g, f, src, 0)]
      | none => s.shardsLost [i]
    | none => match s.lostPage r with
      | some (h, o, x, i) => ((s.storePage o x i h (x.frameOf i).2 none lines).setObj o { x with waits := false }).repaired r.step
      | none => s.repaired r.step)
  | _ => s.repaired r.step

/-- Does the repair of a record wait: the page that it promotes again is held by a pass set, a lock, a migration or a snapshot (R203). -/
def State.repairHeld (s : State) (r : FaultRec) : Bool := match s.lostPage r with
  | some (g, _, x, i) => r.cls == 1 && !s.pageOpen g (x.frameOf i).2
  | none => false

/-- The page of a repair that waits is asked for, once. -/
def State.holdRepair (s : State) (r : FaultRec) : State := match s.lostPage r with
  | some (g, o, x, i) => if x.waits then s else (s.setObj o { x with waits := true }).pageWait g [(x.frameOf i).2]
  | none => s

/-! ## Digest mismatches (R406) -/

/-- Results of a shard's digest comparison held here: rank and 32 bytes. -/
def State.digestResults (s : State) (i : Nat) : List (Nat × List Nat) :=
  (s.prg.digests.filter (fun d => s.digestShard d.1 == some i)).map (fun d => (d.2.2.1, d.2.2.2))

/-- The result that more than half of the copies hold. -/
def majority (rs : List (Nat × List Nat)) : Option (List Nat) :=
  (rs.find? (fun r => decide (rs.length < 2 * (rs.filter (fun q => q.2 == r.2)).length))).map (fun r => r.2)

/-- Another package's copy is in the minority: its hub refills or deadbolts the core (hub messages 28 and 29). -/
def State.minorityHere (s : State) (i g src : Nat) (twice : Bool) : State :=
  if twice then s.deadbolt g
  else match s.img.shards[i]? with
    | some x => s.addRepairs (x.allGroups.map (fun f => (g, f, src, 0)))
    | none => s

/-- A copy in the minority: refilled from a majority copy, deadbolted when it is there twice within 16 intervals. -/
def State.minorityCopy (s : State) (i step src v : Nat) : State := match s.rankAt v with
  | some (p, g) =>
    let key := 128 * p + g
    let twice := s.flt.misses.any (fun m => m.1 == key && decide (step ≤ m.2 + 16 * s.img.digestInt))
    let s1 := s.updFlt (fun f => { f with misses := f.misses.filter (fun m => m.1 != key) ++ [(key, step)] })
    if p = s.pkg then s1.minorityHere i g src twice
    else s1.send (.hub (if twice then 29 else 28) p [i, g, src])
  | none => s

def State.digestAct (s : State) (i step : Nat) (rs : List (Nat × List Nat)) : State :=
  match (if 3 ≤ rs.length then majority rs else none) with
  | none => s.shardsLost [i]
  | some m =>
    let src := ((rs.filter (fun r => r.2 == m)).filterMap (fun r => s.rankAt r.1)).head?.map (fun p => 128 * p.1 + p.2)
    forEach (rs.filter (fun r => r.2 != m)) (fun r s => s.minorityCopy i step (src.getD 0) r.1) s

/-! ## FAULT_RECORD (R388 to R390) -/

/-- A record whose action waits for the next restore generation (R390, R406). -/
def FaultRec.waits (r : FaultRec) : Bool := r.kind == .stgCeRepeat || r.kind == .trnDigestMismatch
/-- The generation at which a record that comes now is acted on: D of its step, or S of the next where D has been taken (R390, R406). -/
def State.laterOf (s : State) (r : FaultRec) : Later :=
  let rs := match r.kind, r.payload with
    | .trnDigestMismatch, .gen _ _ _ a _ _ => s.digestResults a
    | _, _ => []
  if s.partHold 2 r.step then ⟨r, 1, r.step + 1, rs⟩ else ⟨r, 2, r.step, rs⟩
/-- Every working core of the partition has taken the generation that a record waits for, or a newer one. -/
def State.genAfter (s : State) (l : Later) : Bool := s.partHold l.gen l.step || s.partHold 1 (l.step + 1)

/-- The hub's action on a record that waited. -/
def State.actLater (s : State) (l : Later) : State := match l.record.kind, l.record.payload with
  | .stgCeRepeat, _ => match l.record.core with
    | some g => s.deadbolt g
    | none => s
  | .trnDigestMismatch, .gen _ _ _ a _ _ => s.digestAct a l.record.step l.results
  | _, _ => s

/-- The core of a lasting fault that met a retirement of its vault in progress (R178). -/
def State.escalates (s : State) (r : FaultRec) : Option Nat :=
  r.core.filter (fun g => (s.vlt g).escalate && (r.kind == .vltLasting || r.kind == .vltRecomputed))

/-- The hub action of a record's class; a second fault of class STEP or CORE of a core whose handling window is open, or a lasting fault
during a retirement, deadbolts the core (R178, R388, R390, R410). -/
def State.act (s : State) (r : FaultRec) (lines : List (Nat × Nat × Nat × List Nat)) : State :=
  let again := r.core.isSome && s.fltq.any (fun e => e.openWin && e.record.core == r.core)
  if (s.escalates r).isSome then match s.escalates r with
    | some g => (s.updVlt g (fun v => { v with escalate := false })).deadbolt g
    | none => s
  else if (r.cls = 1 ∨ r.cls = 2) ∧ again then match r.core with
    | some g => s.deadbolt g
    | none => s
  else if r.waits then s.updFlt (fun f => { f with later := f.later ++ [s.laterOf r] })
  else if r.cls = 1 then s.repairLine r lines
  else if r.cls = 2 then match r.core with
    | some g =>
      let s1 := if r.kind = .vltRetireFail then s.updFlt (fun f => { f with ownBad := f.ownBad ++ [g] }) else s
      s1.deadbolt g
    | none => s
  else if r.kind = .fltRestoreMismatch then s.fallBack (s.flt.ckpts.drop 1)
  else if 3 ≤ r.cls then s.stopRun r.cls
  else s

/-- First record that waits outside the queue and can be handled now. -/
def State.fltNext (s : State) : Option FaultRec := s.fltIn.find? (fun r => r.cls == 0 || s.fltRoom r.cls)

def eraseOne [DecidableEq α] (x : α) : List α → List α
  | [] => []
  | y :: ys => if y = x then ys else y :: eraseOne x ys

/-- What another hub tells this one, by the kind of the message: 22 the partition stops; 23 a core of it has been deadbolted; 28 and 29 a
digest minority here; 40 its pages of the snapshot are stored; 42 a fallback; 44 ranks have moved to an adopter; 45 lines of a step are
repaired; 49 the saves that its cores hold; 50 the loss of a verify step; 51 the snapshot is abandoned; 52 every package is quiet. -/
def State.hubTold (s : State) : List Nat → State
  | 22 :: _ => { s with runStop := true }
  | 23 :: _ => s.restoreDue false
  | [28, i, g, src] => s.minorityHere i (g % 128) src false
  | [29, i, g, src] => s.minorityHere i (g % 128) src true
  | [40, p, st] => { s with snap := s.snap.map (fun q => if q.step = st then { q with stored := (q.stored ++ [p]).eraseDups } else q) }
  | [42, st] => match s.flt.ckpts.dropWhile (fun c => c.step != st) with
    | c :: cs => (s.updFlt (fun f => { f with ckpts := c :: cs })).fallback c
    | [] => s
  | [44, p, g, a] =>
    let s1 := if p = s.pkg then s else s.moveRanks p g a
    if s1.isLead then s1.writeProt else s1
  | 45 :: _ => s.restoreDue true
  | [49, p, gen, st] => s.noteHeld p gen st
  | [50, st, l] => s.tellLoss st l
  | 51 :: _ => s.dropSnap
  | 52 :: _ => if s.imageState = 5 then s.updImg (fun i => { i with point := true }) else s
  | _ => s

/-- FAULT_RECORD (R388 to R390, R404 to R406, R517, R518): the next record of the package enters the queue, merges or is dropped, and its
class's action begins; or a record whose restore generation has come is acted on. `remote` is what another hub has sent: a record (64
bytes), or a message by its kind and its numbers (DESIGN CHOICE, log entry 126); empty for none; `lines` are a state object's lines from a
remote home. A mismatch after a restore stops the run only where no older checkpoint is left (R410). -/
def execFaultRecord (remote : List Nat) (lines : List (Nat × Nat × Nat × List Nat)) (s : State) :
    Host.Outcome State Fault Refusal :=
  .next (if remote.length = 64 then
      let cls := remote.getD 2 0 % 8
      let s1 := if s.gateway.isSome then s.pushEntry .evq (remote.take 63 ++ [0]) (if 1 ≤ cls then [0, 1] else [1]) else s
      let older := leNat (remote.take 2) = FaultKind.code .fltRestoreMismatch ∧ 2 ≤ s.flt.ckpts.length
      if 3 ≤ cls ∧ ¬ older then { s1 with runStop := true } else s1
    else if !remote.isEmpty then s.hubTold remote
    else match s.flt.later.find? s.genAfter with
    | some r => (s.updFlt (fun f => { f with later := eraseOne r f.later })).actLater r
    | none => match s.fltNext with
      | none => s
      | some r =>
        if s.repairHeld r then s.holdRepair r
        else
          let s1 := ({ s with fltIn := eraseOne r s.fltIn } : State).trace r.island 4
          if s1.fltRoom r.cls then (s1.act r lines).fltEnter r else s1.fltMerge r)

/-! ## Refill (R403, R404) -/

/-- Lines that come from replicas: line, tag, flags, data. -/
def State.putLines (s : State) (a : Nat) (ls : List (Nat × Nat × Nat × List Nat)) : State :=
  forEach ls (fun x s => s.storeLine a (x.1 % 2 ^ 26) ((x.2.2.2.map (· % 256) ++ List.replicate 128 0).take 128) (x.2.1 % 2 ^ 16)
    (x.2.2.1 % 256)) s

/-- Objects, frames and recompute ranges of the fenced core's vault belong to the adopter's (R400). -/
def State.moveVault (s : State) (f a : Nat) : State :=
  let s1 := s.updTier (fun t => { t with objs := t.objs.map (fun e => (e.1, e.2.map (fun x =>
    { x with res := x.res.map (fun r => if r.1 = f then (a, r.2) else r) }))) })
  let fs := SMap.slice s1.frames (frameKey f 0) (frameKey (f + 1) 0)
  let m1 := SMap.clearRange s1.frames (frameKey a 0) (frameKey (a + 1) 0)
  let m2 := SMap.clearRange m1 (frameKey f 0) (frameKey (f + 1) 0)
  let s2 := { s1 with frames := SMap.putAll (fun _ => Frame.none) m2 (fs.map (fun e => (frameKey a (e.1 % 4096), e.2))) }
  forUpTo 16 (fun n s => (s.wr .vltRcmpRange a n (s.rd .vltRcmpRange f n)).wr .vltRcmpDesc a n (s.rd .vltRcmpDesc f n)) s2

/-- Pages of the object that are promoted again into the adopter's vault: those that the fenced core's own vault cannot give (R403). A remote
home's come as an operand. -/
def State.promoteAgain (s : State) (f a o : Nat) (x : TierObj) (bad : List Nat) (objs : List FoundPage) : State :=
  if x.res.map (fun r => r.1) ≠ some f ∨ x.state = .cold ∨ 2 ≤ x.kind then s
  else forUpTo x.pages (fun i s =>
    let found := objs.find? (fun q => q.obj == o && q.page == i)
    if (s.flt.ownBad.contains f || bad.contains (x.frameOf i).2) && (x.home == 0 || found.isSome) then
      s.storePage o x i a (x.frameOf i).2 none ((found.map (fun q => q.lines)).getD [])
    else s) s

/-- REFILL_DONE (R395, R400, R403, R404): refill of the adopter in hand completes, once every shard that comes from another copy has
arrived. `remote` are lines that firmware brings by another way, `objs` the pages of objects with a remote home promoted again there
(object, page, lines), `lost` further shards without a source. A fill of a stream window in progress at the fence ends first, and its
slots are carried over (R268). The adopter loads the restored save, or waits for a restore; what waited for the fenced core goes to it,
and the next adoption begins. -/
def execRefillDone (lost : List Nat) (remote : List (Nat × Nat × Nat × List Nat))
    (objs : List FoundPage) (s : State) : Host.Outcome State Fault Refusal :=
  .next (match s.flt.adopting with
    | none => s
    | some (g, a) =>
      let f := (s.core a).adopts.getD g
      if s.tier.wins.any (fun w => w.filling && w.fillHome == f) || s.flt.repairs.any (fun r => r.1 == a) then s
      else
      let slots := (s.tier.wins.filter (fun w => w.fillHome == f)).flatMap (fun w => (w.slotFrames f).map (fun p => p.2))
      let bad := ((s.badLines f).map linePage).eraseDups
      let s1 := if s.flt.ownBad.contains f then s else s.copyLines f a ((s.usedLines f).filter (fun l => slots.contains (linePage l)))
      let s2 := s1.putLines a remote
      let s3 := forEach s.tier.objs (fun e s => match e.2 with
        | some x => s.promoteAgain f a e.1 x bad objs
        | none => s) s2
      let s4 := s3.moveVault f a
      let s5 := (s4.updCore g (fun c => { c with fence := .adopted })).updCore f (fun c => { c with fence := .adopted })
      let s6 := (s5.adoptStatus 5 f a (s5.rdF .hubAdoptStatus 0 0 17 3) 0).updFlt (fun q => { q with adopting := none })
      let gen := s6.rdF .hubRestoreStatus 0 0 48 2
      let s7 := if s6.flt.loads.contains a then
          let s' := s6.updFlt (fun q => { q with loads := q.loads.filter (· != a) })
          match s'.saveOf a (if gen = 2 then 2 else 1) (s'.rdF .hubRestoreStatus 0 0 0 48) with
          | some v => if s'.restorePhase = 0 then (s'.loadSave a v true).thaw a else s'.loadSave a v true
          | none => s'
        else s6
      let s9 := (s7.resend a).shardsLost (lost ++ s.flt.gone).eraseDups
      let s10 := if s9.isLead then s9.writeProt else s9.tellLead 44 [s9.pkg, g, a]
      s10.adoptNext)

/-! ## Checkpoints (R407 to R410) -/

/-- Where the page bitmap of a vault stands, its lines, and the pages marked in it (R407). -/
def State.mapBase (s : State) (g : Nat) : Nat := s.rdF .hubCkptMapBase 0 0 9 47 * 512 + 512 * g
def State.mapLines (s : State) (g : Nat) : List (Nat × Nat) := s.linesOf (s.mapBase g) 512
def State.snapMarks (s : State) (g : Nat) : List (Nat × Nat) :=
  let m := leNat (s.bytesAt (s.mapBase g) 512)
  ((List.range 4096).filter (fun p => m.testBit p)).map (fun p => (g, p))

/-- The step whose epoch is due, of the interval or put off: every working core of the partition holds its start save (R407). -/
def State.epochDue (s : State) : Option Nat := match s.workers with
  | g :: _ =>
    let st := (s.core g).step
    if s.ckptMode ∧ 0 < s.img.ckptInt ∧ (st % s.img.ckptInt = 0 ∨ s.flt.defer.isSome) ∧ s.partHold 1 st
        ∧ !s.flt.ckpts.any (fun c => c.step == st) then some st else none
  | [] => none

/-- A page as it goes to the store: 512 WRITE messages of 32 lines, for the page's own address; a POISON line goes as zeros with its
mark (R173). `v` shows the lines. -/
def State.sendPage (s v : State) (g src page : Nat) : State :=
  forUpTo 512 (fun i s =>
    let body := (List.range 32).flatMap (fun n =>
      let r := v.rawLine g (src * 2 ^ 14 + 32 * i + n)
      lineBody (if r.poison then List.replicate 128 0 else r.data) r.tag r.flags)
    s.request (g / 16) (.ckpt g page) 64 2 ⟨3, g % 16, vaultAddr s.pkg g (page * 2 ^ 21 + 4096 * i), body⟩ 0) s

/-- The next page to stream, with the page that holds its contents: copied frames first, then protected pages by address (R409). -/
def State.streamPick (s : State) (q : Snap) : Option (Nat × Nat × Nat) :=
  match q.copied.find? (fun c => !q.sent.contains (c.1, c.2.2)) with
  | some (g, n, p) => some (g, s.snapPage g n, p)
  | none => (q.guarded.find? (fun c => !q.sent.contains c)).map (fun c => (c.1, c.2, c.2))

/-- Stream the next page, once hub DMA can read its lines (R166, R171, R409). -/
def State.streamNext (s : State) : State := match s.snap with
  | none => s
  | some q => match s.streamPick q with
    | none => s
    | some (g, src, p) => match s.gateReads hubIsland ((List.range (2 ^ 14)).map (fun i => (g, src * 2 ^ 14 + i))) with
      | (s1, none) => s1
      | (s1, some v) => ({ s1 with snap := some { q with sent := q.sent ++ [(g, p)] } }).sendPage v g src p

/-- Transactions of a snapshot page, or of the trailer (vault 128), without an answer. -/
def State.ckptOpen (s : State) (v p : Nat) : Bool := s.prg.txns.any (fun e => match e.2 with
  | some t => t.owner == .ckpt v p
  | none => false)

/-- The snapshot is in the store: it is one of the two newest checkpoints (R409). -/
def State.durable (s : State) (loss : Nat) : State := match s.snap with
  | none => s
  | some q =>
    let c : Ckpt := ⟨q.step, loss, q.saves, q.pages⟩
    let s1 := ({ s with snap := none }).updFlt (fun f => { f with ckpts := (c :: f.ckpts).take 2 })
    s1.wr .hubCkptStatus 0 0 (q.step % m48)

/-- The store has acknowledged a message of a page: when it has the whole page, the protection or the frame goes, and writes
that waited are served (R408, R409). -/
def State.ckptAck (s : State) (v p : Nat) : State :=
  if s.ckptOpen v p then s
  else match s.snap with
  | none => s
  | some q =>
    if v = 128 then s
    else
      let q1 := { q with
        guarded := q.guarded.filter (· != (v, p))
        copied := q.copied.filter (fun c => !(c.1 == v && c.2.2 == p))
        sent := q.sent.filter (· != (v, p)) }
      let s1 := ({ s with snap := some q1 }).releaseWrites v
      if q1.guarded.isEmpty ∧ q1.copied.isEmpty then s1.tellLead 40 [s1.pkg, q.step] else s1

/-- SNAPSHOT_EPOCH (R407 to R409): an epoch that is due opens, or is deferred while a snapshot is not durable; an open one streams its
next page. At the lead, `loss` is the loss of the step after the epoch when its rank stands elsewhere, and `done` are packages that have
stored their pages, beside those that have told it: then the trailer goes out, and the checkpoint is durable when it is stored. `durable`
is the lead's message that it is, with the loss. -/
def execSnapshotEpoch (done : List Nat) (loss durable : Option Nat) (s : State) : Host.Outcome State Fault Refusal :=
  .next (match s.snap with
    | none => match s.epochDue with
      | none => s
      | some st =>
        match s.gateReads hubIsland (s.workers.flatMap s.mapLines) with
        | (s1, none) => s1
        | (s1, some v) =>
          let ps := s.workers.flatMap v.snapMarks
          let q : Snap := ⟨st, ps, [], [], none, s.saves.filter (fun v => v.gen == 1 && v.step == st),
            s.workers.map (fun g => (g, s.snapArea g)), ps, []⟩
          ((({ s1 with snap := some q }).updFlt (fun f => { f with defer := none })).wrF .hubCkptStatus 0 0 48 1 1).streamNext
    | some q0 =>
      let q := { q0 with stored := (q0.stored ++ done).eraseDups }
      let s := { s with snap := some q }
      match durable with
      | some l => s.durable l
      | none =>
        let s0 := match s.epochDue with
          | some st => if st = q.step ∨ st % s.img.ckptInt ≠ 0 ∨ s.flt.defer = some st then s
              else (s.updFlt (fun f => { f with defer := some st })).bump .hubSnapDeferCnt 0 1
          | none => s
        let own := q.guarded.isEmpty && q.copied.isEmpty
        if !own then s0.streamNext
        else if !s0.isLead || s0.workers.any (fun g => decide ((s0.core g).step ≤ q.step)) then s0
        else match q.loss with
          | none => match s0.lossHere.or loss with
            | some l =>
              let n := { q with loss := some l }
              ({ s0 with snap := some n }).request 0 (.ckpt 128 0) 64 2
                ⟨3, 0, q.step, lineBody (leBytes 4 l) 0 0⟩ 0
            | none => s0
          | some l =>
            if s0.ckptOpen 128 0 || !s0.peers.all (fun p => q.stored.contains p) then s0
            else (s0.durable l).tellAll 41 [q.step, l])

/-- 32 lines of a checkpoint are back: they go to their vault address, in a fenced core's adopter (R395, R410). -/
def State.ckptData (s : State) (v l : Nat) (body : List Nat) : State :=
  forUpTo 32 (fun i s =>
    let b := (body.drop (136 * i)).take 136
    if b.length < 136 then s else s.putLine (s.home v) (l + i) (b.take 128) (leNat ((b.drop 132).take 2)) (b.getD 134 0)) s
/-- The store cannot give them: the older checkpoint, then the stop (R410, R413). -/
def State.ckptFail (s : State) : State := s.fallBack (s.flt.ckpts.drop 1)
/-- Lines of a checkpoint are still on their way. -/
def State.readingBack (s : State) : Bool := s.prg.txns.any (fun e => match e.2 with
  | some t => (match t.owner with
    | .ckptRead _ _ => true
    | _ => false)
  | none => false)

/-- SNAPSHOT_READBACK_DONE (R410): the pages of the newest durable checkpoint are back (`lines`, vault, line, tag, flags, data, are those
that the store gives by another way; a fenced vault's go to its adopter); every core loads the restored S(s), and the verify step follows
RESUME. -/
def execSnapshotReadbackDone (lines : List (Nat × Nat × Nat × Nat × List Nat)) (s : State) :
    Host.Outcome State Fault Refusal :=
  .next (match s.flt.ckpts with
    | [] => s
    | c :: _ =>
      if s.rdF .hubRestoreStatus 0 0 48 2 ≠ 3 || s.restorePhase ≠ 1 || s.anyPassing || s.readingBack then s
      else
        let s1 := s.dropSnap.dropFabric.dropSums
        let s2 := forEach lines (fun x s => s.putLines (s.home (x.1 % 128)) [x.2]) s1
        let vs := c.saves.map (fun v => { v with core := s2.home v.core })
        let s3 : State := { s2 with saves := s2.saves.filter (fun v => v.gen == 0) ++ vs }
        let s4 := (((s3.loadAll vs true).restartWindows vs).bump .hubRestoreCnt 0 1).restoreStatus c.step 3 7
        let s5 := s4.updFlt (fun f => { f with verify := some (c.step, c.loss), verifyLoss := none, derived := none })
        s5.tellLead 25 [c.step, 3])

/-! ## Faults that units report (R40, R391) -/

/-- CORE_PARITY (R391): the core queues a record; `cause` 0 sequencer, 1 stream, 2 register. -/
def execCoreParity (core cause : Nat) (s : State) : Host.Outcome State Fault Refusal :=
  .next (if s.active core then s.queue .coreParity core (some core) (.gen (cause % 3) 0 0 0 0 0) else s)

/-- CORE_RAIL (R391): the power controller queues a record; `cause` 0 rail, 1 clock; mV or MHz measured. -/
def execCoreRail (core cause measured : Nat) (s : State) : Host.Outcome State Fault Refusal :=
  .next (if s.active core then s.queue .coreRail 167 (some core) (.gen (cause % 2) (core % 128) 0 (measured % 2 ^ 32) 0 0) else s)

/-- H1_LOCKSTEP_MISMATCH (R41, R357, R375): the fault line rises to H4 and to vector 0; H1 is held in reset, host submissions wait,
and a load that this gateway leads is aborted. Coverage holds where H1 is powered, but not in D3 (R43, R441). -/
def execH1LockstepMismatch (s : State) : Host.Outcome State Fault Refusal :=
  .next (if s.pwrState = 0 ∨ s.ward.d3 ∨ s.hub.h1Down then s
    else
      let s1 := { s with hub := { s.hub with h1Down := true } }
      let s2 := if s1.hosted && s1.attached then s1.send (.msix 0) else s1
      if (s2.img.staged.map (fun t => !t.sealing && decide (t.ring < 16))).getD false then s2.abortLoad 0x0E s2.pkg else s2)

/-- H1_RESTART_DONE (R41, R413, R517): H1 runs again from boot flash; a record names the time, recovery goes on from
HUB_ADOPT_STATUS and HUB_RESTORE_STATUS, and the gateway fetches the submissions that waited. -/
def execH1RestartDone (s : State) : Host.Outcome State Fault Refusal :=
  .next (if s.hub.h1Down then
      (({ s with hub := { s.hub with h1Down := false } }).queue .hubH1Lockstep hubIsland none
        (.gen 0 0 0 (s.hubTime % 2 ^ 32) 0 0)).fetchMore
    else s)

/-- WARD_LOCKSTEP (R40): a disagreement is corrected, counted and recorded as masked, where the ward is powered, but not in D3 (R43,
R434, R441). -/
def execWardLockstep (s : State) : Host.Outcome State Fault Refusal :=
  let s1 := s.bump .wardLockstepCorrCnt 0 1
  .next (if s.pwrState = 0 ∨ s.ward.d3 then s else s1.queue .wardLockstep 166 none (.gen 0 0 0 (s1.rd .wardLockstepCorrCnt 0 0) 0 0))

end Sys2Proof.Machine
end

