-- ==== Sys2Proof/Machine/Ward.lean ====
section
/-! DEFINITION. The ward, the lifecycle, debug and boundary scan (R417 to R435). -/

namespace Sys2Proof.Machine

def State.updWard (s : State) (f : Ward → Ward) : State := { s with ward := f s.ward }
def State.updHub (s : State) (f : Hub → Hub) : State := { s with hub := f s.hub }
/-- The ward is powered in every state above Off (R436). -/
def State.wardUp (s : State) : Bool := decide (s.pwrState ≠ 0)

/-! ## The keyring (R419 to R421) -/

def State.life (s : State) : Nat := s.rdF .wardLifecycle 0 0 0 2
def State.keyBank (s : State) : Nat := s.rdF .wardLifecycle 0 0 2 2
def State.keysCleared (s : State) : Bool := (s.rd .wardLifecycle 0 0).testBit 5

/-- The public key of a slot, x then y as one number: none for slot 0, an empty slot or no slot. -/
def State.slotKey? (s : State) (n : Nat) : Option Nat :=
  if 1 ≤ n ∧ n ≤ 4 then some (Config.vymalKey n)
  else if 5 ≤ n ∧ n ≤ 9 ∧ !s.keysCleared then
    let k := SMap.get (fun _ => 0) s.ward.slots (16 * s.keyBank + n)
    if k = 0 then none else some k
  else none

/-- The identity public key: 64 bytes, x then y, each big-endian as in R344; none before PROVISION. -/
def State.idPub (s : State) : List Nat :=
  if s.ward.priv = 0 then [] else (List.range 8).flatMap (fun i => leBytes 8 (s.rd .wardIdPub 0 i))
/-- SHA-256 of the identity public key, zeros without one. -/
def State.idHash (s : State) : List Nat := if s.ward.priv = 0 then List.replicate 32 0 else sha256 s.idPub

/-- The ward rejects what it verifies (R427): the verification and the rejection count, and the cause is named. -/
def State.rejected (s : State) (r : Nat) : State :=
  ((s.bump .wardVerifyCnt 0 1).bump .wardSigFailCnt 0 1).updWard (fun w => { w with cause := r })

/-- A verification by the ward (R427): counted, with a rejection counted too; 0 accepted, 1 BAD_SIG, 2 BAD_SLOT. -/
def State.verify (s : State) (slot : Nat) (digest : List Nat) (r sg : Nat) : State × Nat :=
  match s.slotKey? slot with
  | none => (s.rejected 2, 2)
  | some k =>
    if ecdsaVerify (k / 2 ^ 256) (k % 2 ^ 256) (beNat digest) r sg
    then ((s.bump .wardVerifyCnt 0 1).updWard (fun w => { w with cause := 0 }), 0) else (s.rejected 1, 1)

/-- May a slot sign structure images in the current state (R422). -/
def State.imageSlot (s : State) (n : Nat) : Bool :=
  if s.life = 2 then decide (5 ≤ n) && decide (n ≤ 8) else n == 3

/-- A draw of `n` random bits (R418). -/
def State.draw (s : State) (bits : Nat) : State × Nat := (s.fresh 1, Config.randomBits s.freeIx % 2 ^ bits)
/-- A secret scalar of P-256. -/
def State.drawScalar (s : State) : State × Nat :=
  let d := s.draw 256
  (d.1, d.2 % (p256N - 1) + 1)

/-! ## Sessions (R431 to R434) -/

def State.d2Open (s : State) : Bool := (s.rd .wardDebugStatus 0 0).testBit 2
/-- A bit of the session's scope: 0 halt and step, 1 register writes, 2 vault reads, 3 vault writes. -/
def State.scope (s : State) (b : Nat) : Bool := s.d2Open && (s.rd .wardDebugStatus 0 0).testBit (4 + b)
/-- HALTED follows the halted cores. -/
def State.setHalted (s : State) : State :=
  s.wrF .wardDebugStatus 0 0 8 8 ((List.range 128).filter (fun g => (s.core g).halted)).length

/-- A halted core runs again. -/
def State.unhalt (s : State) (g : Nat) : State :=
  (s.updCore g (fun c => { c with halted := false, saveReq := false })).setHalted

/-- The ward closes a D2 session (R432): every halted core resumes, then TOKEN_VALID clears and the level is D1. -/
def State.closeD2 (s : State) : State :=
  if !s.d2Open then s
  else
    let s1 := forEach ((List.range 128).filter (fun g => (s.core g).halted)) (fun g s => s.unhalt g) s
    (((s1.wrF .wardDebugStatus 0 0 2 1 0).wrF .wardDebugStatus 0 0 4 4 0).wrF .wardDebugStatus 0 0 0 2 1).wrF .wardDebugCtl 0 0 0 2 1

/-- The image is unsealed (R434, R439): nothing of it stays in force. -/
def State.unseal (s : State) : State :=
  ((s.updImg (fun _ => Img.none)).wrF .hubImageStatus 0 0 0 3 0).updHost (fun h => { h with step := none, stepGw := none })

/-! ## The mailbox (R424, R425) -/

def resOk : Nat := 0
def resBadSlot : Nat := 2
def resBadState : Nat := 3
def resBadCmd : Nat := 6

/-- RESULT of the mailbox. -/
def State.wardResult (s : State) (r : Nat) : State := s.wrF .wardMboxStatus 0 0 8 8 r
/-- A refused command is counted. -/
def State.wardRefuse (s : State) (r : Nat) : State := (s.bump .wardSigFailCnt 0 1).wardResult r

/-- A command block. -/
structure WardBlk where
  code : Nat
  slot : Nat
  len : Nat
  id : List Nat
  nonce : Nat
  payload : List Nat
  r : Nat
  sg : Nat
  digest : List Nat
  deriving DecidableEq, Repr

def wardBlk (b : List Nat) : WardBlk :=
  let len := leNat ((b.drop 4).take 4)
  ⟨leNat (b.take 2), b.getD 2 0, len, (b.drop 8).take 32, leNat ((b.drop 40).take 16), (b.drop 64).take len,
    beNat ((b.drop (64 + len)).take 32), beNat ((b.drop (96 + len)).take 32), sha256 (b.take (64 + len))⟩

/-- The signer a command needs (R422, R423): 0xFF unsigned. -/
def State.signer (s : State) (code : Nat) : Nat :=
  if code = 1 ∨ code = 2 ∨ code = 5 then 1 else if code = 3 then 9 else if code = 4 then 4
  else if code = 0x10 then (if s.life = 2 then 9 else 4) else 0xFF

/-- The states that allow a command (R423, R441): a result. -/
def State.wardAllows (s : State) (code : Nat) : Nat :=
  let ok := fun (b : Bool) => if b then resOk else resBadState
  if code = 1 then ok (s.life == 0) else if code = 2 then ok (s.life == 1) else if code = 3 then ok (s.life == 2)
  else if code = 4 then ok (s.life == 3)
  else if code = 5 then (if s.life = 3 ∧ s.keysCleared then (if s.keyBank = 3 then 8 else resOk) else resBadState)
  else if code = 6 then resOk
  else if code = 0x10 then ok (s.pwrState == 3 && s.life != 0 && s.dbgLevel != 3)
  else if code = 0x11 then ok (s.pwrState == 1 && (s.life == 0 || (s.life == 3 && (s.rd .wardLifecycle 0 0).testBit 4)))
  else resBadCmd

/-- Length of a command's payload as the command reads it. -/
def wardLenOk (code len : Nat) : Bool :=
  decide (len ≤ 448) && decide (len % 8 = 0) && (if code = 0x10 then len == 8 else if code = 2 then decide (len ≤ 320) else true)

/-- The checks of a block (R422 to R427), in the order of its fields: its result. -/
def State.wardCheck (s : State) (b : List Nat) : State × Nat :=
  let x := wardBlk b
  let allow := s.wardAllows x.code
  if b.length < 64 ∨ allow = resBadCmd ∨ !wardLenOk x.code x.len then (s, resBadCmd)
  else if allow ≠ resOk then (s, allow)
  else if x.slot ≠ s.signer x.code then (s, resBadSlot)
  else if x.id ≠ (if x.code = 1 then List.replicate 32 0 else s.idHash) then (s, 5)
  else if s.ward.nonce ≠ some x.nonce then (s, 4)
  else if x.slot = 0xFF then (s, resOk)
  else s.verify x.slot x.digest x.r x.sg

/-- Field slots of the bank from a payload: 64-byte keys for slots 5 to 9 in order. -/
def State.fuseKeys (s : State) (p : List Nat) : State :=
  forUpTo 5 (fun i s => s.updWard (fun w => { w with
    slots := SMap.set (fun _ => 0) w.slots (16 * s.keyBank + 5 + i) (beNat (((p.drop (64 * i)).take 64) ++ List.replicate
      (64 - ((p.drop (64 * i)).take 64).length) 0)) })) s

/-- Rollback counters rise to the SVNs of the running objects, 32 fuses each (R428). -/
def State.svnCommit (s : State) : State :=
  forUpTo 3 (fun i s =>
    let n := min 32 (leNat (((s.boot.objs.getD i []).drop 36).take 4))
    s.wrF .wardSvn 0 0 (8 * i) 8 (max n (s.rdF .wardSvn 0 0 (8 * i) 8))) s

/-- A certificate chain for the region of 64 KiB of R473: its length, two bytes zero, and certificates, which the spec does not
give (free values, log entry 80). -/
def newChain (serial : Nat) : List Nat :=
  let n := Config.freeByte 15 serial 0 % 65533
  leBytes 2 (4 + n) ++ [0, 0] ++ (List.range n).map (fun i => Config.freeByte 15 serial (1 + i) % 256)

/-- Hub firmware writes the certificate chain of the new identity to the boot flash (R429, R473). -/
def State.writeChain (s : State) : State :=
  { s.fresh 1 with boot := { s.boot with flash := SMap.setRange (fun _ => 0xFF) s.boot.flash 0x10000 (newChain s.freeIx) } }

/-- The identity key pair is generated (R423): slot 0, and WARD_ID_PUB; its certificate chain goes to the boot flash. -/
def State.provision (s : State) : State :=
  let d := s.drawScalar
  let q := (ecMul 256 d.2 (some p256G) none).getD (0, 0)
  let pub := beBytes 32 q.1 ++ beBytes 32 q.2
  let s1 := d.1.updWard (fun w => { w with priv := d.2, answer := pub })
  (forUpTo 8 (fun i s => s.wr .wardIdPub 0 i (leNat ((pub.drop (8 * i)).take 8))) s1).writeChain

/-- The effect of an accepted command (R423, R432, R434); every one ends a D2 session that is open, OPEN_D2 too, which R423 lists
among the lifecycle commands. -/
def State.wardEffect (s : State) (x : WardBlk) : State :=
  let s0 := s.closeD2
  let st := fun (s : State) (n : Nat) => s.wrF .wardLifecycle 0 0 0 2 n
  if x.code = 1 then st s0.provision 1
  else if x.code = 2 then st (s0.fuseKeys x.payload) 2
  else if x.code = 3 then st s0 3
  else if x.code = 4 then s0.wrF .wardLifecycle 0 0 4 1 1
  else if x.code = 5 then st (((s0.wrF .wardLifecycle 0 0 2 2 (s0.keyBank + 1)).wrF .wardLifecycle 0 0 4 1 0).wrF .wardLifecycle 0 0
    5 1 0) 1
  else if x.code = 6 then s0.svnCommit
  else if x.code = 0x10 then
    ((s0.wrF .wardDebugStatus 0 0 0 2 2).wrF .wardDebugStatus 0 0 2 1 1).wrF .wardDebugStatus 0 0 4 4 (x.payload.headD 0 % 16)
  else
    let s1 := if s0.life = 3 then s0.wrF .wardLifecycle 0 0 5 1 1 else s0
    (s1.unseal.updWard (fun w => { w with d3 := true })).wrF .wardDebugStatus 0 0 0 2 3

/-- A command block reaches the ward (R424, R425): checked, carried out, its result shown; a signed one consumes the nonce. -/
def State.wardRun (s : State) (b : List Nat) : State :=
  let x := wardBlk b
  let c := s.wardCheck b
  let s1 := if x.slot = 0xFF then c.1 else c.1.updWard (fun w => { w with nonce := none })
  let s2 := s1.updWard (fun w => { w with answer := [] })
  if c.2 ≠ resOk then (if c.2 = 1 ∨ (c.2 = 2 ∧ x.slot = s.signer x.code) then s2.wardResult c.2 else s2.wardRefuse c.2)
  else if x.code = 1 ∧ s.ward.rngBad then s2.wardRefuse 9
  else (s2.wardEffect x).wardResult resOk

/-- The block in the mailbox registers. -/
def State.mailbox (s : State) : List Nat :=
  ((List.range 128).flatMap (fun i => leBytes 8 (s.rd .wardMboxData 0 i))).take (s.rdF .wardMboxCtl 0 0 16 10)

/-- An ignored request that WARD_VIOL_CNT counts. -/
def State.wardViol (s : State) (value : Nat) : State := s.viol .wardViolCnt 0 0xFF 0xFFFFFFFF 0xFF value

/-- A GO of the mailbox (R425): the block is in hand and the mailbox BUSY; ignored and counted while it is. -/
def State.wardGo (s : State) (b : List Nat) (v : Nat) : State :=
  if s.ward.block.isSome then s.wardViol v
  else (s.updWard (fun w => { w with block := some b })).wrF .wardMboxStatus 0 0 0 1 1

/-- The ward carries out the block in hand, and BUSY clears. -/
def State.wardServe (s : State) : State :=
  match s.ward.block with
  | none => s
  | some b => ((s.updWard (fun w => { w with block := none })).wrF .wardMboxStatus 0 0 0 1 0).wardRun b

/-- A block that is carried out as it comes, when none is in hand: one that comes while the mailbox is BUSY is a GO that is ignored and
counted (R425). -/
def State.wardTake (s : State) (b : List Nat) : State :=
  if s.ward.block.isSome then s.wardViol (wardBlk b).code else s.wardRun b

/-- A lifecycle or session command: the block, when it carries the code. -/
def State.wardCommand (s : State) (code : Nat) (b : List Nat) : State :=
  if s.wardUp && (wardBlk b).code == code then s.wardTake b else s

/-- PROVISION (R423). -/
def execProvision (block : List Nat) (s : State) : Host.Outcome State Fault Refusal := .next (s.wardCommand 1 block)
/-- FIELD_KEYS (R423). -/
def execFieldKeys (block : List Nat) (s : State) : Host.Outcome State Fault Refusal := .next (s.wardCommand 2 block)
/-- RETURN (R423). -/
def execReturn (block : List Nat) (s : State) : Host.Outcome State Fault Refusal := .next (s.wardCommand 3 block)
/-- RETURN_AUTH (R423). -/
def execReturnAuth (block : List Nat) (s : State) : Host.Outcome State Fault Refusal := .next (s.wardCommand 4 block)
/-- REPROVISION (R421, R423). -/
def execReprovision (block : List Nat) (s : State) : Host.Outcome State Fault Refusal := .next (s.wardCommand 5 block)
/-- SVN_COMMIT (R428). -/
def execSvnCommit (block : List Nat) (s : State) : Host.Outcome State Fault Refusal := .next (s.wardCommand 6 block)
/-- OPEN_D2 (R432, R441). -/
def execOpenD2 (block : List Nat) (s : State) : Host.Outcome State Fault Refusal := .next (s.wardCommand 0x10 block)
/-- OPEN_D3 (R434, R441). -/
def execOpenD3 (block : List Nat) (s : State) : Host.Outcome State Fault Refusal := .next (s.wardCommand 0x11 block)

/-- A new outstanding nonce (R425), or RNG_FAIL (R418): what reached the ward before it is served first. -/
def State.newNonce (s : State) : State :=
  let s1 := s.wardServe
  if s1.ward.rngBad then s1.wardRefuse 9
  else
    let d := s1.draw 128
    ((d.1.updWard (fun w => { w with nonce := some d.2 })).wr .wardDbgNonce 0 0 (d.2 % 2 ^ 64)).wr .wardDbgNonce 0 1 (d.2 / 2 ^ 64)

/-- NONCE_REQ (R425). -/
def execNonceReq (s : State) : Host.Outcome State Fault Refusal := .next (if s.wardUp then s.newNonce else s)

/-- RNG_HEALTH_FAIL (R418): `cause` 0 repetition count, 1 adaptive proportion test. -/
def execRngHealthFail (cause : Nat) (s : State) : Host.Outcome State Fault Refusal :=
  .next (if s.wardUp then
      ((s.updWard (fun w => { w with rngBad := true })).bump .wardRngFailCnt 0 1).queue .wardRngFail 166 none
        (.gen (cause % 2) 0 0 0 0 0)
    else s)

/-! ## Debug (R431 to R433) -/

/-- A write of LEVEL (R431): 0 and 1 set the level unless a session holds it; 2 and 3 are ignored and counted. HUB_TRACE_WRAP counts
from the entry of D1 (R502). -/
def State.setLevel (s : State) (v : Nat) : State :=
  if 2 ≤ v then s.wardViol v
  else
    let s1 := s.wrF .wardDebugCtl 0 0 0 2 v
    let s2 := if s.dbgLevel = 0 ∧ v = 1 then s1.wr .hubTraceWrap 0 0 0 else s1
    if s.dbgLevel ≤ 1 then s2.wrF .wardDebugStatus 0 0 0 2 v else s1

/-- DEBUG_LEVEL_SET (R431). -/
def execDebugLevelSet (level : Nat) (s : State) : Host.Outcome State Fault Refusal :=
  .next (if s.wardUp then s.setLevel (level % 4) else s)
/-- CLOSE (R432). -/
def execClose (s : State) : Host.Outcome State Fault Refusal := .next s.closeD2

/-- DEBUG_HALT (R433): the streams stop at the freeze point; signals, heartbeats and the vault go on. -/
def execDebugHalt (core : Nat) (s : State) : Host.Outcome State Fault Refusal :=
  .next (if s.scope 0 && s.running core then
      (s.updCore core (fun c => { c with halted := true, saveReq := true })).setHalted
    else s)
/-- DEBUG_RESUME (R431). -/
def execDebugResume (core : Nat) (s : State) : Host.Outcome State Fault Refusal :=
  .next (if s.scope 0 && (s.core core).halted then s.unhalt core else s)
/-- DEBUG_STEP (R431): the sequencer of a halted core dispatches one entry. -/
def execDebugStep (core : Nat) (s : State) : Host.Outcome State Fault Refusal :=
  .next (if s.scope 0 && (s.core core).halted && s.running core && !(s.core core).closingPending then s.dispatchEntry core else s)

/-- The first debug write after a seal sets TAINT (R433). -/
def State.taint (s : State) : State := s.wrF .wardDebugStatus 0 0 3 1 1

/-- DEBUG_VAULT_READ (R431): the debug port (island 165) reads a line through the controller. -/
def execDebugVaultRead (vault line : Nat) (s : State) : Host.Outcome State Fault Refusal :=
  .next (if s.scope 2 && decide (s.pwrState = 3) && decide (vault < 128) then
      s.vltRequest vault ⟨165, line % 2 ^ 26, false, 0, 0, [], none, false⟩ [] else s)
/-- DEBUG_VAULT_WRITE (R433): a line is written with the halted core's step tag. -/
def execDebugVaultWrite (vault line : Nat) (data : List Nat) (s : State) : Host.Outcome State Fault Refusal :=
  .next (if s.scope 3 && (s.core vault).halted && s.active vault then
      (s.vltRequest vault ⟨165, line % 2 ^ 26, true, 0, s.stepTag vault, (data.map (· % 256) ++ List.replicate 128 0).take 128,
        none, false⟩ []).taint
    else s)

/-! ## Boundary scan (R435) -/

/-- A scan of `tdi` (bits, first shifted first) through a register that holds `dr` (the bit nearest TDO first). -/
def State.scan (s : State) (ir : Nat) (dr tdi : List Nat) : State :=
  let all := dr ++ tdi.map (· % 2)
  let after := all.drop tdi.length
  (s.updHub (fun h => { h with scanIr := ir, scanDr := after.foldr (fun b n => b + 2 * n) 0 })).send (.tdo (all.take tdi.length))

/-- BYPASS (R435): one bit, captured as 0. -/
def State.bypass (s : State) (tdi : List Nat) : State := s.scan 0 [0] tdi
def execBypass (tdi : List Nat) (s : State) : Host.Outcome State Fault Refusal := .next (if s.wardUp then s.bypass tdi else s)

/-- The 32 bits of the identification register; the spec gives no value (bit 0 is 1 by IEEE 1149.1). -/
def idcode : List Nat := 1 :: (List.range 31).map (fun i => Config.freeByte 1 0 i % 2)
/-- IDCODE (R435). -/
def execIdcode (tdi : List Nat) (s : State) : Host.Outcome State Fault Refusal :=
  .next (if s.wardUp then s.scan 1 idcode tdi else s)

/-- SAMPLE/PRELOAD (R435): the levels of the signals of the chain (`pins`, in chain order) are captured and shifted out; what is
shifted in is preloaded. -/
def execSamplePreload (pins tdi : List Nat) (s : State) : Host.Outcome State Fault Refusal :=
  .next (if s.wardUp then
      let s1 := s.scan 2 (pins.map (· % 2)) tdi
      s1.updHub (fun h => { h with scanOut := h.scanDr })
    else s)

/-- EXTEST (R435): in Standby at D0 or D1 the preloaded levels drive the outputs and the inputs are captured; elsewhere it acts as
BYPASS and counts. -/
def execExtest (pins tdi : List Nat) (s : State) : Host.Outcome State Fault Refusal :=
  .next (if !s.wardUp then s
    else if s.pwrState = 1 ∧ s.dbgLevel ≤ 1 then
      let s1 := (forUpTo pins.length (fun i s => s.send (.pin (0x100 + i) (s.hub.scanOut.testBit i))) s).scan 3 (pins.map (· % 2)) tdi
      s1.updHub (fun h => { h with scanOut := h.scanDr })
    else (s.wardViol 3).bypass tdi)

/-- INTERNAL_CHAIN (R434, R435): outside D3 it acts as BYPASS and counts; in D3 the spec does not say what the chains hold. -/
def execInternalChain (tdi : List Nat) (s : State) : Host.Outcome State Fault Refusal :=
  if !s.wardUp then .next s
  else if s.ward.d3 then .refused .internalChain
  else .next ((s.wardViol 4).bypass tdi)

end Sys2Proof.Machine
end

