-- ==== Sys2Proof/Machine/Power.lean ====
section
/-! DEFINITION. Power states, resets' clearing, the input, the converters, pools, clocks and temperatures (R358, R436 to R469,
R472). -/

namespace Sys2Proof.Machine

def pwrIsland : Nat := 167

/-! ## What survives (R439, R472) -/

/-- Registers that a cold reset keeps: fuses, straps, the latch of PWR_LAST_OFF, and the fault history's entries. -/
def keepCold (k : Nat) : Bool := match keyReg k with
  | .vltRemap | .vltRetire | .wardLifecycle | .wardIdPub | .wardSvn | .pwrLastOff | .hubFeed => true
  | _ => false

/-- Is a key that of an entry which is not in the fault history. -/
def unsavedKey (u : Nat × Nat) (k : Nat) : Bool :=
  k == (if u.2 < 8 then regKey .vltRemap u.1 u.2 else regKey .vltRetire u.1 (u.2 - 8))

/-- Registers that a warm reset keeps as well: RWS, the fenced set, boot status, EPOCH, lifetime counters (R472, R510). -/
def keepWarm (k : Nat) : Bool := keepCold k || (match keyReg k with
  | .hubAdoptStatus | .hubRestoreStatus | .hubFencedLo | .hubFencedHi | .hubResetStatus | .hubPkgNum | .hostSession
  | .pwrConvStatus | .hubWarmResetCnt | .hubBootFallbackCnt => true
  | r => r.isCnt && (match r.desc.sub with
    | .hubFlt | .ward | .pwr | .pwrState => true
    | _ => false))

/-- Contents of the flash, its tables and its wear; hub firmware rebuilds the directory from the unit headers (R270). -/
def Tier.kept (t : Tier) : Tier := { Tier.empty with
  flash := t.flash, heads := t.heads, progSeq := t.progSeq, dir := rebuildDir t.heads, erases := t.erases, reads := t.reads, badBlocks := t.badBlocks,
  moves := t.moves, luns := t.luns, tables := t.tables,
  bootCopy := t.bootCopy }

/-- Bad spares of each vault, which the fault history holds. -/
def State.keptCores (s : State) (f : Nat → Core → Core) : SMap Core :=
  forUpTo 128 (fun g m =>
    let b := (s.core g).vlt.badSpares
    let c := { Core.reset with vlt := { Vlt.idle with badSpares := b } }
    SMap.set (fun _ => Core.reset) m g (f g c)) []

/-- The package after a cold reset (R472), before its boot chain. -/
def State.coldState (s : State) : State :=
  let rs := s.regs.filter (fun e => keepCold e.1 && !s.boot.unsaved.any (fun u => unsavedKey u e.1))
  let t := s.tier.kept
  let w := { Ward.reset with slots := s.ward.slots, priv := s.ward.priv }
  let b := { BootSt.reset with flash := s.boot.flash }
  let f := { FltSt.none with ckpts := s.flt.ckpts }
  let cs := s.keptCores (fun _ c => c)
  { State.reset with regs := rs, cores := cs, tier := t, ward := w, boot := b, flt := f, outbox := s.outbox,
                     freeIx := s.freeIx, pending := s.pending }.wrF .hubFeed 0 0 4 4 0

/-- Converters in service (R449). -/
def State.inService (s : State) : Nat := ((List.range 6).filter (fun i => (s.rd .pwrConvStatus 0 0).testBit i)).length

/-- The package after a warm reset (R472): four converters hold PWR_LIMIT at their value (R449); its session detached and its D2 session
closed. -/
def State.warmState (s : State) : State :=
  let rs := s.regs.filter (fun e => keepWarm e.1)
  let d3 := s.ward.d3
  let t := s.tier.kept
  let w := { Ward.reset with slots := s.ward.slots, priv := s.ward.priv, d3 := d3 }
  let b := { BootSt.reset with flash := s.boot.flash, warm := true, tested := s.boot.tested, unsaved := s.boot.unsaved,
                               toRun := decide (2 ≤ s.pwrState), objs := [] }
  let f := { FltSt.none with ckpts := s.flt.ckpts }
  let dark := fun (g : Nat) (c : Core) =>
    if (s.core g).fence ≠ .none then { c with fence := .dark, vlt := { c.vlt with hubOnly := true } } else c
  let cs := s.keptCores dark
  let h := { HostSt.empty with held := s.host.held, spool := s.host.spool, torn := s.host.torn, wins := s.host.wins,
                               cause := s.host.cause, stepAt := s.host.stepAt, serial := s.host.serial }
  let z : State := { State.reset with regs := rs, vmem := s.vmem, cores := cs, tier := t, ward := w, boot := b, flt := f, host := h,
                                      outbox := s.outbox, freeIx := s.freeIx, pending := s.pending }
  let z0 := z.wrF .hubFeed 0 0 4 4 0
  let z1 := if z0.inService ≤ 4 then (z0.wrF .pwrLimit 0 0 0 16 2240).wrF .pwrLimit 0 0 16 16 2640 else z0
  if d3 then z1.wrF .wardDebugStatus 0 0 0 2 3 else z1

/-- The package goes Off for a cause of PWR_LAST_OFF (R447): vault contents are lost, no record enters the queue. -/
def State.packageOff (s : State) (cause : Nat) : State :=
  (s.coldState.wrF .pwrStatus 0 0 0 3 0).wr .pwrLastOff 0 0 cause

/-! ## Quiesce conditions (R358) -/

/-- A working core waits on the step-start tumbler of its next step, its start save taken. -/
def State.waitsStart (s : State) (g : Nat) : Bool :=
  (match (s.core g).head 3 with
    | some e => !e.closing && waitOp e.wait == 1 && waitObj e.wait == s.startTmb
    | none => false)
  && (s.saveOf g 1 (s.core g).step).isSome && !(s.core g).evalRun && !(s.core g).halted

def State.quietTier (s : State) : Bool :=
  !s.tier.objs.any (fun e => match e.2 with
    | some x => x.state.transit || (x.kind == 1 && !(s.dirtyPages x).isEmpty)
    | none => false)
  && s.tier.staging.isEmpty && !s.tier.wins.any (fun w => w.filling)

/-- No fabric transaction is in progress, a relayed access among them (R358, R498). -/
def State.quietFabric (s : State) : Bool :=
  !s.prg.txns.any (fun e => e.2.isSome) && s.prg.jobs.isEmpty && s.prg.links.all (fun e => e.2.unacked.isEmpty)

/-- Every condition of R358 holds on this package. -/
def State.quiesced (s : State) : Bool :=
  s.workers.all s.waitsStart && s.quietTier && s.quietFabric
    && (List.range 128).all (fun g => (s.core g).lane.job.isNone && (s.core g).hasp.isNone)
    && s.flt.adopting.isNone && s.flt.waitAdopt.isEmpty && s.flt.repairs.isEmpty && s.snap.isNone && s.restorePhase == 0

/-! ## Requests (R437 to R439) -/

/-- A refused power request. -/
def State.pwrRefuse (s : State) : State := s.bump .pwrReqRefusedCnt 0 1
/-- PENDING and WAIT_QUIESCE. -/
def State.setPend (s : State) (p w : Nat) : State := (s.wrF .pwrStatus 0 0 3 3 p).wrF .pwrStatus 0 0 6 1 w
/-- The boot chain is still running (R476): HUB_RESET_STATUS.STAGE is below 8. -/
def State.booting (s : State) : Bool := decide (s.rdF .hubResetStatus 0 0 14 5 < 8)

/-- Lanes of every port for Hold, with no flit unacknowledged (`State.quietFabric`): the lowest UP lane keeps the link alive with idle
and control flits, the others go dark (R314). -/
def State.keepAlive (s : State) : State :=
  forUpTo 16 (fun port s =>
    let up := (List.range 8).filter (fun w => (s.plane port w).state == .up)
    forUpTo 8 (fun w s =>
      if up.head? = some w then
        (s.setPLane port w { s.plane port w with state := .keepalive }).sendIdle (s.linkOf port w) 0 0
      else s.setPLane port w PLane.dark) s) s

/-- The lanes in use train again after Hold (R314, R335). -/
def State.retrainAll (s : State) : State :=
  forUpTo 16 (fun port s => forUpTo 8 (fun w s =>
    if (s.rdF .prgPortCfg port 0 5 8).testBit w && !s.tier.stopped then s.trainSealed port w
    else s.setPLane port w PLane.dark) s) s

/-- A core is power-gated for Hold: its registers are kept, its units and stage memory are not (R438, R440). -/
def State.holdCore (s : State) (g : Nat) : State :=
  let c := s.core g
  let s1 := s.setCore g { Core.reset with
    step := c.step, vlt := { c.vlt with selfRefresh := true }, fence := c.fence, adopter := c.adopter, adopts := c.adopts,
    frozen := true }
  ((if s1.coreState g = 3 then s1 else s1.returnGrant g).setCoreState g 3)

/-- Every core is gated and the ports keep alive (R438, R439). -/
def State.gateAll (s : State) : State := (forUpTo 128 (fun g s => s.holdCore g) s).keepAlive

/-- The staging buffers lose their contents. -/
def State.noStage (s : State) : State := { s with stg := [] }

/-- Hold is reached (R438 steps 3 to 5). -/
def State.enterHold (s : State) : State :=
  ((s.gateAll.noStage.wrF .pwrStatus 0 0 0 3 2).setPend 0 0).bump .pwrHoldCnt 0 1

/-- Standby is reached (R439): vault contents are lost and the image is unsealed; the fenced set and the fault history stay. -/
def State.enterStandby (s : State) : State :=
  let dark := fun (g : Nat) (c : Core) =>
    if (s.core g).fence ≠ .none then { c with fence := .dark, vlt := { c.vlt with hubOnly := true } } else c
  let cs := s.keptCores dark
  let t := s.tier.kept
  let f := { FltSt.none with ckpts := s.flt.ckpts }
  let ls := s.prg.lanes
  let s1 : State := { s.unseal with
    vmem := [], stg := [], cores := cs, saves := [], sigRetry := [], slots := Slots.none, frames := [], tier := t, snap := none,
    flt := f, prg := { Prg.none with lanes := ls }, runStop := false }
  let s2 := forUpTo 16 (fun port s => forUpTo 8 (fun w s => s.setPLane port w PLane.dark) s) s1
  let s3 := forUpTo 144 (fun i s => if s.grant i = 0 then s else s.returnGrant i) s2
  let s4 := { s3 with boot := { s3.boot with tested := false, bringup := false } }
  (((s4.wrF .pwrStatus 0 0 0 3 1).setPend 0 0).wrF .hubResetStatus 0 0 14 5 8)

/-- Hold is left for Run (R437): vaults leave self-refresh, working cores power up and load S(s), lanes train. -/
def State.leaveHold (s : State) : State :=
  let s1 := forUpTo 128 (fun g s => s.updVlt g (fun v => { v with selfRefresh := false })) (s.wrF .pwrStatus 0 0 0 3 3)
  let s2 := forEach s1.workers (fun g s =>
    let s' := (s.setCoreState g 0).askGrant g 216
    match s'.saveOf g 1 (s'.core g).step with
    | some v => (s'.loadSave g v false).thaw g
    | none => s'.updCore g (fun c => { c with frozen := false })) s1
  (s2.retrainAll).setPend 0 0

/-- POWER_RUN (R437, R486): from Hold the package returns; from Standby bring-up begins, or is held until Standby is
reached. -/
def State.requestRun (s : State) : State :=
  match s.pwrState with
  | 1 => if s.booting then { s.setPend 1 0 with boot := { s.boot with wantRun := true } }
      else if s.boot.recovery then s.pwrRefuse
      else { s.setPend 1 0 with boot := { s.boot with bringup := true } }
  | 2 => s.leaveHold
  | 3 => s.setPend 0 0
  | _ => s
def execPowerRun (s : State) : Host.Outcome State Fault Refusal := .next s.requestRun

/-- POWER_HOLD (R437, R438 steps 1 and 2). -/
def State.requestHold (s : State) : State :=
  match s.pwrState with
  | 1 => s.pwrRefuse
  | 2 => s.setPend 0 0
  | 3 => s.closeD2.setPend 2 1
  | _ => s
def execPowerHold (s : State) : Host.Outcome State Fault Refusal := .next s.requestHold

/-- HOLD_ENTRY (R438): at the quiesce point cores go Dark, ports keep alive, vaults refresh themselves; a pending Standby goes
on. -/
def execHoldEntry (s : State) : Host.Outcome State Fault Refusal :=
  .next (if s.pwrState = 3 && s.rdF .pwrStatus 0 0 6 1 == 1 && s.quiesced then
      (if s.rdF .pwrStatus 0 0 3 3 = 3 then s.enterHold.enterStandby else s.enterHold)
    else s)

/-- POWER_STANDBY (R437, R439): refused while an image is sealed without DISCARD; from Run it passes through Hold. -/
def State.requestStandby (s : State) (discard : Bool) : State :=
  match s.pwrState with
  | 1 => ({ s with boot := { s.boot with bringup := false, wantRun := false } }).setPend 0 0
  | 2 => if s.isSealed && !discard then s.pwrRefuse else s.closeD2.enterStandby
  | 3 => if s.isSealed && !discard then s.pwrRefuse else (s.closeD2.setPend 3 1).updPwr (fun p => { p with discard := discard })
  | _ => s
def execPowerStandby (discard : Bool) (s : State) : Host.Outcome State Fault Refusal := .next (s.requestStandby discard)

/-- POWER_OFF (R437): from Standby the converters stop; from elsewhere the request is refused. -/
def State.requestOff (s : State) : State :=
  match s.pwrState with
  | 1 => s.closeD2.packageOff 0
  | 2 | 3 => s.pwrRefuse
  | _ => s
def execPowerOff (s : State) : Host.Outcome State Fault Refusal := .next s.requestOff

/-! ## The input (R446, R447) -/

/-- POWER_GOOD (R446, R447, R476 step 1): from Off, the straps are sampled and the boot chain starts; THERMTRIP_N is released.
`input` is the straps, and whether the input fell below 20 V since, and the latch of PWR_LAST_OFF with it. -/
def execPowerGood (input : Nat × Bool) (s : State) : Host.Outcome State Fault Refusal :=
  .next (if s.pwrState = 0 then
      let s1 := if input.2 then s.wr .pwrLastOff 0 0 0 else s
      (((s1.coldState.wr .hubFeed 0 0 (input.1 % 16)).wrF .hubResetStatus 0 0 14 5 1).wrF .hubResetStatus 0 0 0 3 0).send (.pin 2 true)
    else s)

/-- PWREN_LOW (R446, R447). -/
def execPwrenLow (s : State) : Host.Outcome State Fault Refusal := .next (if s.pwrState = 0 then s else s.packageOff 2)
/-- UNDER_VOLTAGE (R447). -/
def execUnderVoltage (s : State) : Host.Outcome State Fault Refusal := .next (if s.pwrState = 0 then s else s.packageOff 1)
/-- OVER_VOLTAGE (R447). -/
def execOverVoltage (s : State) : Host.Outcome State Fault Refusal := .next (if s.pwrState = 0 then s else s.packageOff 3)

/-- The caps of the eight die pools. -/
def State.caps (s : State) : List Nat := (List.range 8).map s.poolCap
def State.setCaps (s : State) (cs : List Nat) : State := forUpTo 8 (fun d s => s.setCap d (cs.getD d (s.poolCap d))) s

/-- Caps without the lowering of a brown-out (R447). -/
def State.baseCaps (s : State) : List Nat := match s.pwr.brown with
  | some (cs, _, _) => cs
  | none => s.caps
/-- The caps become `cs`, or in a brown-out 75% of them. -/
def State.setBase (s : State) (cs : List Nat) : State := match s.pwr.brown with
  | some (_, t, low) => (s.updPwr (fun p => { p with brown := some (cs, t, low) })).setCaps (cs.map (fun c => c * 3 / 4))
  | none => s.setCaps cs

/-- BROWNOUT (R447): every die pool goes to 75% of its cap. `mv4` is the input in 4 mV units. -/
def execBrownout (mv4 : Nat) (s : State) : Host.Outcome State Fault Refusal :=
  .next (if s.pwrState = 0 ∨ s.pwr.brown.isSome then s
    else
      let s1 := (s.updPwr (fun p => { p with brown := some (s.caps, s.hubTime, mv4 % 2 ^ 16) })).bump .pwrBrownoutCnt 0 1
      s1.setCaps (s.caps.map (fun c => c * 3 / 4)))

/-- BROWNOUT_END (R447): the caps return; the record names the lowest input and the duration. -/
def execBrownoutEnd (s : State) : Host.Outcome State Fault Refusal :=
  .next (match s.pwr.brown with
    | none => s
    | some (cs, t, low) => ((s.updPwr (fun p => { p with brown := none })).setCaps cs).queue .pwrBrownout pwrIsland none
        (.gen 0 0 0 low ((s.hubTime - t) / 1000) 0))

/-! ## Converters and limits (R449, R451, R452, R468) -/

def State.sustained (s : State) : Nat := s.rdF .pwrLimit 0 0 0 16
def State.peakW (s : State) : Nat := s.rdF .pwrLimit 0 0 16 16

/-- Cap of a die pool by PWR_LIMIT's share (R451). -/
def State.sizedCap (s : State) (d : Nat) : Nat :=
  if 2800 ≤ s.sustained then 4000 else min 4000 (Config.poolShare s.sustained d)
/-- The pools follow the limit, or 75% of it in a brown-out. -/
def State.sizePools (s : State) : State := s.setBase ((List.range 8).map s.sizedCap)

/-- A value held in a range, and how many clamps that took. -/
def clampTo (lo hi v : Nat) : Nat × Nat := if v < lo then (lo, 1) else if hi < v then (hi, 1) else (v, 0)

/-- A write of PWR_LIMIT (R449, R468): each field clamped and each clamp counted. -/
def State.setLimit (s : State) (v : Nat) : State :=
  let four := s.inService ≤ 4
  let a := clampTo 1000 (if four then 2240 else 2800) (bitsOf v 0 16)
  let b := clampTo a.1 (if four then 2640 else 3300) (bitsOf v 16 16)
  let c := clampTo 0 5 (bitsOf v 32 8)
  let s1 := s.wr .pwrLimit 0 0 (a.1 + b.1 * 2 ^ 16 + c.1 * 2 ^ 32)
  (forUpTo (a.2 + b.2 + c.2) (fun _ s => s.viol .pwrViolCnt 0 0xFF 0xFFFFFFFF 0xFF v) s1).sizePools

/-- PWR_LIMIT (R468). -/
def execPwrLimit (value : Nat) (s : State) : Host.Outcome State Fault Refusal :=
  .next (if s.pwrState = 0 then s else s.setLimit (value % 2 ^ 64))

/-- CONVERTER_FAULT (R449): a converter disconnects itself; `cause` 0 phase current, 1 output voltage, 2 temperature. -/
def execConverterFault (conv cause : Nat) (s : State) : Host.Outcome State Fault Refusal :=
  .next (if s.pwrState = 0 ∨ 6 ≤ conv ∨ !(s.rd .pwrConvStatus 0 0).testBit conv then s
    else
      let s1 := (s.wrF .pwrConvStatus 0 0 conv 1 0).bump .pwrConvFaultCnt 0 1
      let st := s1.rd .pwrConvStatus 0 0
      if s1.inService = 5 then s1.queue .pwrConvFault pwrIsland none (.gen (cause % 3) conv 0 st 0 0)
      else if s1.inService = 4 then
        let s2 := ((s1.wrF .pwrLimit 0 0 0 16 (min 2240 s1.sustained)).wrF .pwrLimit 0 0 16 16 (min 2640 s1.peakW)).sizePools
        s2.queue .pwrConvDegraded pwrIsland none (.gen 0 0 0 st (s2.rd .pwrLimit 0 0) 0)
      else s1.packageOff 5)

/-- GRANT_REQUEST (R451): an island of a compute die asks its pool for `units`. -/
def execGrantRequest (island units : Nat) (s : State) : Host.Outcome State Fault Refusal :=
  .next (if s.pwrState = 3 && decide (island < 144) && (decide (128 ≤ island) || s.active island) then
      s.askGrant island (min units (fullGrant island))
    else s)

/-- The pools are lowered for a limit by `cut` units in all, the controller's reckoning from the input, in proportion to their grants
(R452). -/
def State.lowerPools (s : State) (cut : Nat) : State :=
  let all := ((List.range 8).map s.poolIssued).foldl (· + ·) 0
  let cs := (List.range 8).map (fun d => s.poolIssued d - ceilDiv (cut * s.poolIssued d) all)
  ((s.setBase ((s.baseCaps.zip cs).map (fun p => min p.1 p.2))).updPwr (fun p =>
    { p with capped := true, raised := s.hubTime })).bump .pwrPeakLimitCnt 0 1

/-- Pools rise again by at most a tenth of their caps a millisecond; at their sizes the cap is lifted (R452). -/
def State.raisePools (s : State) : State :=
  if !s.pwr.capped ∨ s.pwr.brown.isSome ∨ !s.pwr.hot.isEmpty ∨ s.hubTime < s.pwr.raised + 1000000 then s
  else
    let s1 := forUpTo 8 (fun d s => s.setCap d (min (s.sizedCap d) (s.poolCap d + s.sizedCap d / 10))) s
    s1.updPwr (fun p => { p with
      raised := s.hubTime, capped := !(List.range 8).all (fun d => s1.poolCap d == s1.sizedCap d) })

/-- POWER_SAMPLE (R452): input in 4 mV units, current in 10 mA units, 10 µs and 1 s averages of power in W. `cut` are the
units that bring the input to SUSTAINED_W if a limit is about to break; they take effect within 20 µs. -/
def execPowerSample (mv4 centiamp watt10 watt1s cut : Nat) (s : State) : Host.Outcome State Fault Refusal :=
  .next (if s.pwrState = 0 then s
    else
      let t := s.hubTime
      let s1 := s.wr .pwrIn 0 0 (mv4 % 2 ^ 16 + centiamp % 2 ^ 16 * 2 ^ 16 + watt10 % 2 ^ 16 * 2 ^ 32 + watt1s % 2 ^ 16 * 2 ^ 48)
      let over1 := decide (s.sustained < watt10)
      let s2 := if over1 && !s.pwr.above then s1.bump .pwrPeakCnt 0 1 else s1
      let ex := (s.pwr.exc.filter (fun x => decide (t < x + 50000000))) ++ (if over1 then [t] else [])
      let s3 := s2.updPwr (fun p => { p with
        above := over1, exc := ex
        brown := p.brown.map (fun b => (b.1, b.2.1, min b.2.2 (mv4 % 2 ^ 16))) })
      let ms := 1000 * s.rdF .pwrLimit 0 0 32 8
      let brk := decide (s.peakW < watt10) || (over1 && decide (ms ≤ ex.length)) || decide (s.sustained < watt1s)
      if brk then (if s.pwr.capped ∧ t < s.pwr.raised + 20000 then s3 else s3.lowerPools cut)
      else if ex.length + 1000 ≤ ms ∨ ex.isEmpty then s3.raisePools else s3)

/-- THROTTLE_LINE (R452): every core island retunes to 0.6 GHz, the pools are lowered by `cut` units, the event is counted and
recorded. -/
def execThrottleLine (conv centiamp cut : Nat) (s : State) : Host.Outcome State Fault Refusal :=
  .next (if s.pwrState = 0 then s
    else
      let s1 := forUpTo 128 (fun g s => if s.active g then s.updPwr (fun p =>
        { p with freq := SMap.set (fun _ => 0) p.freq g 600 }) else s) (s.lowerPools cut)
      (s1.bump .pwrOvercurrentCnt 0 1).queue .pwrOvercurrent pwrIsland none (.gen 0 (conv % 6) 0 centiamp 0 0))

/-! ## Temperatures (R454 to R456) -/

/-- Throttle and trip temperatures of a location: 0 lid, 1 compute die, 2 hub, 3 ward, 4 converter, 5 engine. -/
def hotAt (loc : Nat) : Nat := if loc = 0 then 68 else if loc = 5 then 80 else 95
def tripAt (loc : Nat) : Nat := if loc = 0 then 85 else if loc = 5 then 95 else 110

/-- Pools that a hot location lowers: a die its own, a lid sensor every one. -/
def hotPools (loc ix : Nat) : List Nat := if loc = 0 then List.range 8 else if loc = 1 then [ix % 8] else []

/-- One reading: throttling begins at the throttle temperature with a record and ends 2 °C below (R455). Keys are
`16 * location + index`. -/
def State.readTemp (s : State) (loc ix t : Nat) : State :=
  let k := 16 * loc + ix % 16
  let s1 := s.updPwr (fun p => { p with temps := SMap.set (fun _ => 0) p.temps k t })
  if s1.pwr.hot.contains k then
    (if t + 2 ≤ hotAt loc then s1.updPwr (fun p => { p with hot := p.hot.filter (· != k) }) else s1)
  else if hotAt loc ≤ t then
    (s1.updPwr (fun p => { p with hot := p.hot ++ [k], capped := true })).queue .pwrHot pwrIsland none (.gen loc ix 0 t 0 0)
  else s1

/-- THERMAL_SAMPLE (R184, R454 to R456): the compute dies, the lid sensors, and other locations (location, index, °C). A trip turns
the package Off; each hot location lowers its pools by a tenth of their caps. -/
def execThermalSample (dies lid : List Nat) (others : List (Nat × Nat × Nat)) (s : State) : Host.Outcome State Fault Refusal :=
  .next (if s.pwrState = 0 then s
    else
      let rs := ((List.range 4).map (fun i => (0, i, lid.getD i 0))) ++ ((List.range 8).map (fun d => (1, d, dies.getD d 0)))
        ++ others.filter (fun o => decide (2 ≤ o.1) && decide (o.1 ≤ 5))
      if rs.any (fun r => decide (tripAt r.1 ≤ r.2.2)) || (List.range 128).any (fun g => s.rdF .vltStatus g 0 0 2 == 3) then
        (s.packageOff 4).send (.pin 2 false)
      else
        let s1 := forUpTo 8 (fun d s => s.wr .pwrTempDie 0 d (dies.getD d 0 % 256)) s
        let s2 := s1.wr .pwrTempLid 0 0 (leNat ((List.range 4).map (fun i => lid.getD i 0 % 256)))
        let s3 := forEach rs (fun r s => s.readTemp r.1 r.2.1 r.2.2) s2
        let ps := s3.pwr.hot.flatMap (fun k => hotPools (k / 16) (k % 16))
        let vs := (List.range 8).filter (fun d => (List.range 16).any (fun n => s3.rdF .vltStatus (16 * d + n) 0 0 2 == 2))
        let down := (ps ++ vs).eraseDups
        let s4 := if down.isEmpty then s3 else s3.setBase (((List.range 8).zip s3.baseCaps).map (fun p =>
          if down.contains p.1 then p.2 - p.2 / 10 else p.2))
        let s5 := if down.isEmpty then s4 else s4.updPwr (fun p => { p with capped := true, raised := s.hubTime })
        s5.bump .pwrThrottleMsCnt 0 (down.length + (s5.pwr.hot.filter (fun k => decide (2 ≤ k / 16))).length))

/-! ## Clocks (R28, R453, R463) -/

/-- The frequency an island gets for a command: a core in steps of 50 MHz within its grant and ceiling, a fabric island from
800 MHz to its ceiling. -/
def State.tuned (s : State) (i mhz : Nat) : Nat :=
  let cap := s.rdF .pwrFmax 0 i 0 12
  if i < 128 then min (coreMhz (s.grant i) cap) (max 600 (mhz / 50 * 50)) else min (max 800 cap) (max 800 (min 1600 mhz))

/-- RETUNE (R28, R453): the power controller's command stops the island's clock and restarts it at the new frequency. -/
def execRetune (island mhz : Nat) (s : State) : Host.Outcome State Fault Refusal :=
  .next (if s.pwrState = 3 && decide (island < 136) && (decide (128 ≤ island) || s.active island) then
      s.updPwr (fun p => { p with freq := SMap.set (fun _ => 0) p.freq island (s.tuned island mhz) })
    else s)

end Sys2Proof.Machine
end

