-- ==== Sys2Proof/Machine/Boot.lean ====
section
/-! DEFINITION. Resets, the boot chain to Standby and the bring-up to Run (R470 to R488). -/

namespace Sys2Proof.Machine

def State.updBoot (s : State) (f : BootSt → BootSt) : State := { s with boot := f s.boot }

/-! ## Resets (R470, R471, R484) -/

def State.stage (s : State) : Nat := s.rdF .hubResetStatus 0 0 14 5
def State.setStage (s : State) (n : Nat) : State := s.wrF .hubResetStatus 0 0 14 5 n
/-- A refused write of HUB_RESET_CTL (R471, R487). -/
def State.resetReject (s : State) : State := s.regReject (Reg.hubResetCtl.offset 0 0)
def resetKey : Nat := 0xB007

/-- A cold reset (R470, R472): a D3 exit when the internal chains are open (R434). -/
def State.coldReset (s : State) : State :=
  if s.pwrState = 0 then s
  else
    let last := if s.ward.d3 then 3 else 1
    s.coldState.wrF .hubResetStatus 0 0 0 3 last

/-- A cold request (R471): during a warm reset it waits for the next boot stage boundary; during a cold one the reset
runs on. -/
def State.requestCold (s : State) : State :=
  if s.pwrState = 0 then s
  else if s.booting && !s.boot.recovery then s.updBoot (fun b => { b with cold := b.warm })
  else (s.abortLoad 0x0E s.pkg).coldReset

/-- A warm request (R471, R484, R486): ignored and counted during a reset; else a load is aborted, the session detaches, D2
closes, the vaults refresh themselves, and the chain runs from step 2. -/
def State.requestWarm (s : State) : State :=
  if s.pwrState = 0 then s
  else if s.booting then s.resetReject
  else
    let s1 := (((s.abortLoad 0x0E s.pkg).detach 0).closeD2).warmState
    let s2 := ((s1.wrF .hubResetStatus 0 0 0 3 2).setStage 1).bump .hubWarmResetCnt 0 1
    forUpTo 128 (fun g s => s.updVlt g (fun v => { v with selfRefresh := true })) s2

/-- WARM_RESET (R471, R472, R484). -/
def execWarmReset (key : Nat) (s : State) : Host.Outcome State Fault Refusal :=
  .next (if key = resetKey then s.requestWarm else s.resetReject)
/-- COLD_RESET (R470 to R472). -/
def execColdReset (key : Nat) (s : State) : Host.Outcome State Fault Refusal :=
  .next (if key = resetKey then s.requestCold else s.resetReject)
/-- MCTP_RESET (R470): cold, or warm with its option. -/
def execMctpReset (warm : Bool) (s : State) : Host.Outcome State Fault Refusal :=
  .next (if warm then s.requestWarm else s.requestCold)

/-- A write of HUB_RESET_CTL (R471, R487): commands 0 and 3 are ignored and counted. -/
def State.writeReset (s : State) (v : Nat) : State :=
  if bitsOf v 16 16 ≠ resetKey then s.resetReject
  else if bitsOf v 0 2 = 1 then s.requestWarm
  else if bitsOf v 0 2 = 2 then s.requestCold
  else s.resetReject

/-! ## The boot flash (R473 to R475) -/

/-- Bytes of the boot flash; erased bytes read 0xFF (log entry 8). -/
def State.flashAt (s : State) (a n : Nat) : List Nat := SMap.getRange (fun _ => 0xFF) s.boot.flash a n
def State.putBoot (s : State) (a : Nat) (bs : List Nat) : State :=
  s.updBoot (fun b => { b with flash := SMap.setRange (fun _ => 0xFF) b.flash a (bs.map (· % 256)) })

/-- SEQ and ACTIVE of a boot directory whose magic and CRC pass (R474). -/
def dirOf (b : List Nat) : Option (Nat × Nat) :=
  if leNat (b.take 4) = 0x5244584B ∧ leNat ((b.drop 60).take 4) = crc32c (b.take 60)
  then some (leNat ((b.drop 4).take 4), b.getD 8 0 % 2) else none

/-- The set that the ward takes: the valid copy with the higher SEQ; set A when both fail. -/
def State.activeSet (s : State) : Nat :=
  match dirOf (s.flashAt 0 64), dirOf (s.flashAt 0x1000 64) with
  | some a, some b => if a.1 < b.1 then b.2 else a.2
  | some a, none => a.2
  | none, some b => b.2
  | none, none => 0

/-- The card configuration block as it lies in the flash (R475). -/
def State.ccb (s : State) : List Nat := s.flashAt 0x2000 276
/-- Why the block is bad: 0 its magic, 1 its CRC. -/
def ccbBad (b : List Nat) : Option Nat :=
  if leNat (b.take 4) ≠ 0x4343584B then some 0
  else if leNat ((b.drop 272).take 4) ≠ crc32c (b.take 272) then some 1 else none
/-- Ports used for staging, ports that are wavelength-routed, and the peer of a lane: package and port. -/
def State.ccbPortEn (s : State) : Nat := leNat ((s.ccb.drop 8).take 2)
def State.ccbPortWr (s : State) : Nat := leNat ((s.ccb.drop 10).take 2)
def State.ccbPeer (s : State) (k w : Nat) : Option (Nat × Nat) :=
  let v := leNat ((s.ccb.drop (16 + 2 * (8 * k + w))).take 2)
  if v.testBit 10 then some (bitsOf v 0 6, bitsOf v 6 4) else none
def State.ccbIsBad (s : State) : Bool := (s.rd .hubResetStatus 0 0).testBit 5

/-- Step 4 of R476: the directories and the configuration block are read. -/
def State.readCcb (s : State) : State :=
  let s1 := s.updBoot (fun b => { b with dir := s.activeSet, tried := false })
  match ccbBad s.ccb with
  | some c => (s1.wrF .hubResetStatus 0 0 5 1 1).queue .bootCcb hubIsland none (.gen c 0 0 0 0 0)
  | none => (s1.wrF .hubResetStatus 0 0 5 1 0).wr .hubPkgNum 0 0 (s.ccb.getD 4 0)

/-! ### Firmware sets (R426, R427, R477, R478) -/

/-- Address and size of an object of a set by its TYPE (R473). -/
def objPlace (set typ : Nat) : Nat × Nat :=
  let base := if set = 0 then 0x100000 else 0xD00000
  if typ = 1 then (base, 0x800000) else if typ = 2 then (base + 0x800000, 0x200000) else (base + 0xA00000, 0x100000)

/-- The ward verifies an object of the set in hand (R426, R427): 0, and the object is the running one of its TYPE, or the cause of the
rejection: 1 BAD_SIG (a TYPE that is not the place's included, log entry 130), 2 BAD_SLOT, 7 ROLLBACK. -/
def State.bootObj (s : State) (typ : Nat) : State × Nat :=
  let p := objPlace s.boot.dir typ
  let body := s.flashAt p.1 (p.2 - 128)
  let t := s.flashAt (p.1 + p.2 - 128) 128
  let dg := sha256 (body ++ t.take 32)
  if t.getD 0 0 ≠ 2 then (s.rejected 2, 2)
  else if t.getD 1 0 ≠ typ then (s.rejected 1, 1)
  else match s.verify 2 dg (beNat ((t.drop 32).take 32)) (beNat ((t.drop 64).take 32)) with
  | (s1, 0) =>
    if leNat ((t.drop 4).take 4) < s.rdF .wardSvn 0 0 (8 * (typ - 1)) 8 
    then ((s1.bump .wardSigFailCnt 0 1).updWard (fun w => { w with cause := 7 }), 7)
    else
      let r := if typ = 1 then Reg.hubFwVersion else if typ = 2 then Reg.hubMcodeVersion else Reg.hubPhotVersion
      ((s1.wr r 0 0 (leNat ((t.drop 8).take 8))).updBoot (fun b => { b with
        objs := (b.objs ++ List.replicate (3 - b.objs.length) []).set (typ - 1) (dg ++ t.take 16) }), 0)
  | (s1, c) => (s1, c)

/-- The set fails: the other one is tried from step 5, or, when both have failed, the package enters recovery. -/
def State.setFails (s : State) : State :=
  if s.boot.tried then (s.updBoot (fun b => { b with recovery := true })).send (.pin 1 false)
  else ((((s.updBoot (fun b => { b with tried := true, dir := 1 - b.dir, objs := [] })).setStage 4).wrF
    .hubResetStatus 0 0 4 1 1).bump .hubBootFallbackCnt 0 1)

/-- Objects of a set that a step reads. -/
def stepTypes (n : Nat) : List Nat := if n = 5 then [1] else [2, 3]

/-- Steps 5 and 6 of R476; the step completes when every object of it is accepted. -/
def State.bootSet (s : State) (n : Nat) (sfdpBad : Bool) : State :=
  if sfdpBad then s.setFails
  else
    let r := (stepTypes n).foldl (fun (p : State × Nat) t => if p.2 = 0 then p.1.bootObj t else p) (s, 0)
    if r.2 = 0 then (r.1.setStage n).wrF .hubResetStatus 0 0 3 1 r.1.boot.dir else r.1.setFails

/-! ## To Standby (R476, R437, R486) -/

/-- Standby is reached: a held or automatic Run request is acted on. -/
def State.reachStandby (s : State) : State :=
  let s1 := (s.wrF .pwrStatus 0 0 0 3 1).setStage 8
  if s1.boot.wantRun || s1.boot.toRun || (s1.rd .hubPkgNum 0 0).testBit 7 then
    (s1.setPend 1 0).updBoot (fun b => { b with bringup := true, wantRun := false, toRun := false })
  else s1

/-- Step `n` of R476 completes. -/
def State.bootStep (s : State) (n feed : Nat) (sfdpBad : Bool) : State :=
  match n with
  | 1 => (s.setStage 1).wrF .hubFeed 0 0 0 4 feed
  | 2 => s.setStage 2
  | 3 => (s.setStage 3).updWard (fun w => { w with rngBad := false })
  | 4 => s.readCcb.setStage 4
  | 5 | 6 => s.bootSet n sfdpBad
  | 7 =>
    let up := s.tier.tables.foldl (fun a c => setBits a (c % 16) 1 1) 0
    ((s.setStage 7).wrF .tierStatus 0 0 0 16 up).trainRate
  | _ => s.reachStandby

/-- BOOT_STAGE (R476 to R478, R486): the next stage of the chain completes. `feed` are the straps; `sfdpBad` says that an SPI
read gave inconsistent SFDP twice. A cold request that waits takes effect here. -/
def execBootStage (feed : Nat) (sfdpBad : Bool) (s : State) : Host.Outcome State Fault Refusal :=
  .next (if s.pwrState = 0 ∨ !s.booting ∨ s.boot.recovery then s
    else if s.boot.cold then s.coldReset
    else s.bootStep (s.stage + 1) feed sfdpBad)

/-! ## To Run (R479 to R482) -/

/-- A core is fenced at boot (R481): as DARK of R393, counted and recorded. -/
def State.fenceBoot (s : State) (g cause : Nat) : State :=
  if (s.core g).fence ≠ .none then s
  else
    let r : Reg := if g < 64 then .hubFencedLo else .hubFencedHi
    let s1 := (s.updCore g (fun c => { c with fence := .dark, vlt := { c.vlt with hubOnly := true } })).setCoreState g 3
    let s2 := s1.wr r 0 0 (setBits (s1.rd r 0 0) (g % 64) 1 1)
    (s2.wrF .hubResetStatus 0 0 6 8 (min 128 (s2.rdF .hubResetStatus 0 0 6 8 + 1))).queue .bootFence hubIsland (some g)
      (.gen cause g 0 0 0 0)

/-- A line that fails the boot test takes a remap entry or retires its page; when that fails the core is fenced (R480). -/
def State.bootLine (s : State) (g l : Nat) : State :=
  let l1 := s.retireMap g l
  let bank := lineBank l1
  let s0 := match s.remapEntry g l1 with
    | some n => s.updVlt g (fun v => { v with badSpares := v.badSpares ++ [bank * 8 + s.rdF .vltRemap g n 27 3] })
    | none => s
  match (s0.remapEntry g l1).orElse (fun _ => s0.freeRemap g), s0.freeSpare g bank with
  | some n, some x => s0.wr .vltRemap g n (1 + l1 * 2 + x * 2 ^ 27)
  | _, _ => match s0.reservePage g, (List.range 4).find? (fun n => !(s0.rd .vltRetire g n).testBit 0) with
    | some p, some n =>
      if linePage l1 = linePage l then
        ((s0.wr .vltRetire g n (1 + linePage l * 2 + p * 2 ^ 13)).freeRemaps g (linePage l)).queue .vltRetired (vltIsland g)
          (some g) (.line (vaultAddr s.pkg g (l * 128)) 0xFF 0 0 0 0 0 (8 + n) (linePage l) p)
      else s0.fenceBoot g 3
    | _, _ => s0.fenceBoot g 3

/-- Step 7 of R479: the vaults are tested and initialised, unless a warm reset kept them (R480). -/
def State.bootVaults (s : State) (lines : List (Nat × Nat)) : State :=
  if s.boot.tested then s
  else
    let s0 := { s with vmem := [] }
    (forEach lines (fun p s => if p.1 < 128 ∧ p.2 < 2 ^ 26 then s.bootLine p.1 p.2 else s) s0).updBoot (fun b =>
      { b with tested := true })

/-- A lane trains in staging mode (R482): the port mode of the card configuration block, and a digest of zero. -/
def State.trainStaging (s : State) (port lane : Nat) : State := 
  s.trainLane port lane (if s.ccbPortWr.testBit port then 1 else 0) 0

/-- Step 6 of R479: lanes of the ports in PORT_EN train in staging mode (R482); none with a bad block (R475). -/
def State.bootPorts (s : State) : State :=
  if s.ccbIsBad ∨ s.tier.stopped then s
  else forUpTo 16 (fun k s => if s.ccbPortEn.testBit k then
      forUpTo 8 (fun w s => s.trainStaging k w) s
    else s) s

/-- The package is in Run with no image sealed; cores without a rank are Dark (R479 step 8, R440). -/
def State.reachRun (s : State) : State :=
  let s1 := forUpTo 128 (fun g s => s.setCoreState g 3) (s.wrF .pwrStatus 0 0 0 3 3)
  ((s1.setPend 0 0).wr .hubBootTime 0 0 (s.hubTime / 1000 % 2 ^ 32)).updBoot (fun b => { b with bringup := false })

/-- Fault-history entries (vault, entry as in `BootSt.unsaved`, boot-flash address) that could not be written: a record each, and the
entry applies until cold reset (R486). -/
def State.historyLost (s : State) (es : List (Nat × Nat × Nat)) : State :=
  forEach es (fun e s => if e.1 < 128 ∧ e.2.1 < 12 then
      (s.updBoot (fun b => { b with unsaved := b.unsaved ++ [(e.1, e.2.1)] })).queue .bootHistory hubIsland none
        (.gen 0 0 0 0 0 e.2.2)
    else s) s

/-- BRINGUP_STAGE (R479 to R482, R486): the next step of the bring-up completes. `bad` are the cores that fail there (core, cause of
BOOT_FENCE: 0 self-test and 1 not ready at step 3, 2 vault training at step 4), `vaults` the lines that fail the vault test
(vault, line) and the entries that cannot be written to the fault history then. -/
def execBringupStage (bad : List (Nat × Nat)) (vaults : List (Nat × Nat) × List (Nat × Nat × Nat)) (s : State) : Host.Outcome State Fault Refusal :=
  let n := s.stage + 1
  let fence := fun (s : State) (ok : Nat → Bool) =>
    forEach bad (fun p s => if p.1 < 128 ∧ ok p.2 then s.fenceBoot p.1 p.2 else s) s
  .next (if s.pwrState ≠ 1 ∨ !s.boot.bringup ∨ s.stage < 8 ∨ 16 ≤ s.stage then s
    else
      let s1 := s.setStage n
      match n with
      | 11 => fence s1 (fun c => c ≤ 1)
      | 12 => forUpTo 128 (fun g s => s.updVlt g (fun v => { v with selfRefresh := false })) (fence s1 (fun c => c = 2))
      | 14 => s1.bootPorts
      | 15 => (s1.bootVaults vaults.1).historyLost vaults.2
      | 16 => s1.reachRun
      | _ => s1)

end Sys2Proof.Machine
end

