-- ==== Sys2Proof/Machine/RegAccess.lean ====
section
/-! DEFINITION. Reads and writes of the register map: access codes, halves, paths, ranges and the registers with behaviour
of their own (R16 to R20, R35, R364, R489 to R498, R509 to R512, R519 to R524). -/

namespace Sys2Proof.Machine

/-! ## The map (R491 to R493, R513) -/

/-- The register at a slot: none at a reserved offset. -/
def regSlot (o : Nat) : Option (Reg × Nat × Nat) := match regAt o with
  | some (r, i, k) => if r = .cnsTot ∧ (72 ≤ k % 128 ∨ k % 8 = 7) then none else some (r, i, k)
  | none => none

def Field.width (f : Field) : Nat := f.hi + 1 - f.lo

/-- Registers that a core island holds: its vault's and its lanes' are the vault controller's (R493, R512). -/
def SubBlock.inCore : SubBlock → Bool
  | .coreBase | .coreBwd | .coreStg | .coreTrn | .coreSub | .coreRec | .coreAdr | .hng | .ve | .cns | .cnsTot | .syn => true
  | _ => false

/-! ## Status registers that follow the units -/

def oneIf (b : Bool) : Nat := if b then 1 else 0

/-- SYN_STATUS of one stream (R305). -/
def Core.streamStatus (c : Core) (st : Nat) : Nat :=
  let n := (c.stream st).length
  if n = 0 then 0
  else
    let k := match c.head st with
      | some e => if e.waited < 2 ∧ waitOp e.wait = 1 then 2 else if e.waited < 2 ∧ 2 ≤ waitOp e.wait then 3 else 1
      | none => 1
    k + (n - 1) % 8 * 4

/-- The value that a register shows now, status fields as the units stand; HUB_IMAGE_STATUS.STATE reads STAGING while a load is held (R355
step 1). -/
def State.live (s : State) (r : Reg) (inst idx : Nat) : Nat :=
  let v := s.rd r inst idx
  let c := s.core inst
  match r with
  | .synStatus => (List.range 4).foldl (fun a st => setBits a (8 * st) 5 (c.streamStatus st)) (oneIf c.lent * 2 ^ 31)
  | .hngStatus =>
    oneIf c.hng.job.isSome
      + ((c.hng.banks.zip (List.range 4)).map (fun p => if p.1.held then 2 ^ (p.2 + 1) else 0)).foldl (· + ·) 0
      + oneIf c.hng.pin.isSome * 2 ^ 5 + oneIf ((c.hng.pin.map (fun p => p.role)).getD false) * 2 ^ 6
      + (16 - min 16 c.hng.tq.length) * 2 ^ 7
  | .veStatus => s.veStatus inst
  | .laneStatus =>
    setBits (setBits v 0 1 (oneIf c.lane.job.isSome)) 1 6
      (match c.lane.job with
        | some j => (j.banks.filter (fun b => b.2.token)).length
        | none => 0)
  | .vltStatus =>
    bitsOf v 0 2 + min 7 (c.vlt.debt.foldl (fun a d => max a d.2) 0) * 2 ^ 2
      + ((List.range 8).filter (fun n => (s.rd .vltRemap inst n).testBit 0)).length * 2 ^ 5
      + ((List.range 4).filter (fun n => (s.rd .vltRetire inst n).testBit 0)).length * 2 ^ 9
      + oneIf (c.vlt.locks.any (fun k => k.phase == .recompute)) * 2 ^ 12
  | .hubImageStatus => if s.img.held.isSome ∧ bitsOf v 0 3 = 3 then setBits v 0 3 1 else v
  | .prgLaneMon => s.omaShown inst
  | .prgLaserMon => s.laserShown idx
  | .tierStatus => setBits v 20 12 (s.tier.objs.filter (fun e => (e.2.map (fun x => x.state.transit)).getD false)).length
  | .hostSession => setBits v 48 16 (min 0xFFFF s.host.held.length)
  | .hubFltqStatus => min 64 s.fltq.length + oneIf (decide (56 ≤ s.fltUnreserved)) * 2 ^ 7 + min 64 s.fltFatals * 2 ^ 8
  | .hubFltqRec => leNat (((((s.fltq[idx / 8]?).map (fun e => e.record.bytes s.pkg)).getD []).drop (8 * (idx % 8))).take 8)
  | .hubTraceWin =>
    let base := s.rd .hubTraceBase 0 0
    if s.dbgLevel = 0 ∨ base = 0 then 0 else s.natAt (base + s.rd .hubTraceSel 0 0 + 8 * idx) 8
  | .hubTraceHead => if s.dbgLevel = 0 then 0 else v
  | _ => v

/-- A counter, or a total, that a Dark core island does not hold (R512). -/
def State.gone (s : State) (r : Reg) (inst : Nat) : Bool :=
  r.desc.sub.inCore && (r.isCnt || r == .cnsTot) && s.coreState inst == 3

/-- What a read returns: write-only and reserved bits read zero (R16, R17). -/
def State.shown (s : State) (r : Reg) (inst idx : Nat) : Nat :=
  if s.gone r inst then 0
  else
    let v := s.live r inst idx
    r.desc.fields.foldl (fun a f => if f.acc = .wo then a else a + bitsOf v f.lo f.width * 2 ^ f.lo) 0

/-! ## Paths (R496): 0 BAR0, 1 MCTP, 2 the domain -/

/-- May a block be read, and written, over a path. -/
def pathOk (path : Nat) (r : Reg) (write : Bool) : Bool :=
  match r.desc.sub, path with
  | .door, p => p == 0
  | .host, 0 => r != .hostCqPost || !write
  | .host, 1 => !write
  | .host, _ => !write || r == .hostCqPost
  | .hubBoot, 2 => r != .hubResetCtl
  | .ward, p => p != 2
  | .pwrState, 2 | .pwr, 2 => !write
  | .hubMgmt, _ | .hubImg, _ | .hubFlt, _ | .hubBoot, _ | .hubFltq, _ | .hubLog, _ | .pwrState, _ | .pwr, _ => true
  | _, 1 => !write
  | _, _ => true

/-- An access that falls where no register is mapped (R364, R491). -/
def State.unmapped (s : State) (path off : Nat) : State := if path = 0 then s.hostViol 0xFF off else s.hubAddrViol off

/-! ## Reads (R16 to R19, R519) -/

/-- A clearing read of a counter (R16, R18). -/
def State.clearRead (s : State) (r : Reg) (inst idx : Nat) : State :=
  if r.desc.fields.any (fun f => f.acc == .rc) && !s.gone r inst then s.wr r inst idx 0 else s

/-- A read of slot 0 of a fault-queue entry latches the record (R519). -/
def State.recSlot (s : State) (idx : Nat) : State × Nat :=
  let i := idx / 8
  if idx % 8 = 0 then
    match s.fltq[i]? with
    | some e => (s.updHub (fun h => { h with recLatch := some (i, e.record.bytes s.pkg) }), leNat ((e.record.bytes s.pkg).take 8))
    | none => (s.updHub (fun h => { h with recLatch := none }), 0)
  else match s.hub.recLatch with
    | some (k, bs) => (s, if k = i then leNat ((bs.drop (8 * (idx % 8))).take 8) else s.live .hubFltqRec 0 idx)
    | none => (s, s.live .hubFltqRec 0 idx)

/-- A read of a whole register. -/
def State.readSlot (s : State) (r : Reg) (inst idx : Nat) : State × Nat :=
  if r = .hubFltqRec then s.recSlot idx else (s.clearRead r inst idx, s.shown r inst idx)

/-- Forget a latched high half. -/
def State.dropHalf (s : State) (path off : Nat) : State :=
  s.updHub (fun h => { h with halves := h.halves.filter (fun x => !(x.1 == path && x.2.1 == off)) })

/-- A read of 4 or 8 bytes of the register map (R19, R364, R491, R496): the value, none where the path refuses. The latch of a
high half belongs to the path and the register. -/
def State.readReg (s : State) (path off bytes : Nat) : State × Option Nat :=
  let slot := off / 8 * 8
  let ok := (bytes = 8 ∧ off % 8 = 0) ∨ (bytes = 4 ∧ off % 4 = 0)
  if ¬ ok then (s.unmapped path off, some 0)
  else match regSlot slot with
  | none => (s.unmapped path off, some 0)
  | some (r, i, k) =>
    if !pathOk path r false then (s, none)
    else if bytes = 8 then
      let x := s.readSlot r i k
      (x.1, some x.2)
    else if off % 8 = 0 then
      let x := s.readSlot r i k
      (if r.desc.wide then (x.1.dropHalf path slot).updHub (fun h => { h with halves := h.halves ++ [(path, slot, x.2 / 2 ^ 32)] })
        else x.1, some (x.2 % 2 ^ 32))
    else if !r.desc.wide then (s.unmapped path off, some 0)
    else match s.hub.halves.find? (fun x => x.1 == path && x.2.1 == slot) with
      | some x => (s.dropHalf path slot, some x.2.2)
      | none => (s, some (s.shown r i k / 2 ^ 32))

/-- Answer a read over BAR0 or MCTP: a refused one returns zero. An access over BAR0 shows that the host link is up (R386). -/
def State.answerReg (s : State) (path off bytes : Nat) : State :=
  let x := (if path = 0 then s.linkSeen else s).readReg path off bytes
  x.1.send (.regData path (x.2.getD 0))

/-- RC_READ (R16, R18, R19, R364, R509): a read of 8 bytes, or of the width that stands above bit 3 of `path`. -/
def execRcRead (path off : Nat) (s : State) : Host.Outcome State Fault Refusal :=
  .next (if s.pwrState = 0 ∨ 2 ≤ path % 16 then s else s.answerReg (path % 16) off (if path < 16 then 8 else path / 16))

/-- HALF_READ_LATCH (R19): a 4-byte read of a half of a register. -/
def execHalfReadLatch (path off : Nat) (s : State) : Host.Outcome State Fault Refusal :=
  .next (if s.pwrState = 0 ∨ 2 ≤ path then s else s.answerReg path off 4)

/-- FLTQ_REC_LATCH (R519): a read of a slot of a fault-queue entry. -/
def execFltqRecLatch (path entry slot : Nat) (s : State) : Host.Outcome State Fault Refusal :=
  .next (if s.pwrState = 0 ∨ 2 ≤ path then s else s.answerReg path (Reg.hubFltqRec.offset 0 (8 * (entry % 64) + slot % 8)) 8)

/-! ## Writes (R16, R20, R35) -/

/-- The function class under which a field is expert-only. -/
def expertClass (r : Reg) (idx lo : Nat) : Option Nat := match r with
  | .hngCtl => some 1
  | .coreBwdCtl => some 2
  | .veCtl => some 3
  | .vltCtl | .vltFlipCtl | .vltFlipAddr | .vltFlipData | .vltFlipMeta => some 4
  | .laneCtl => some 5
  | .coreOptCtl => some 6
  | .tierCtl => some 7
  | .synLendCtl => some 8
  | .synLatchCfg => if lo = 21 then some 8 else none
  | .prgArb => some 10
  | .prgRedCtl => if lo = 1 then some 10 else none
  | .pwrFmax => some (if idx < 128 then 1 else 10)
  | _ => none

/-- Who writes a register: software while no image is sealed, software after sealing, or the load of an image (R355 step 6). -/
inductive Writer where
  | free
  | locked
  | image
  deriving DecidableEq, Repr

/-- Software as it stands to the image. -/
def State.writer (s : State) : Writer := if s.isSealed then .locked else .free

/-- Expert-only registers and fields that the structure image loads at basic level, with any value (R188, R218, R248, R279, R305,
R335). The spec says of HNG_CTL, CORE_BWD_CTL and VE_CTL that the image loads their defaults, which need no write (DEDUCED, log
entry 113). -/
def imageLoads (r : Reg) : Bool := match r with
  | .vltCtl | .laneCtl | .coreOptCtl | .tierCtl | .synLendCtl | .synLatchCfg | .prgArb => true
  | _ => false

/-- May a write set a field. RWS fields have one writer, hub firmware (R179, R414). -/
def State.fieldOpen (s : State) (who : Writer) (r : Reg) (idx : Nat) (f : Field) : Bool :=
  (match f.acc with
    | .ro | .rc | .rws => false
    | .rwl => decide (who ≠ .locked)
    | _ => true)
  && (match expertClass r idx f.lo with
    | some c => s.expert c || (decide (who = .image) && imageLoads r)
    | none => true)

/-- A write would change a field that it cannot set (R20). -/
def State.refusesAny (s : State) (who : Writer) (r : Reg) (inst idx v : Nat) : Bool :=
  r.desc.fields.any (fun f => !s.fieldOpen who r idx f && bitsOf v f.lo f.width != bitsOf (s.shown r inst idx) f.lo f.width)

/-- The register with the fields that a write may set. -/
def State.taken (s : State) (who : Writer) (r : Reg) (inst idx v : Nat) : Nat :=
  r.desc.fields.foldl (fun a f =>
    if s.fieldOpen who r idx f && f.acc != .wo then setBits a f.lo f.width (bitsOf v f.lo f.width) else a) (s.rd r inst idx)

/-! ### Ranges -/

/-- A field held in a range; 1 when that changed it. -/
def fixField (v lo w lowest highest : Nat) : Nat × Nat :=
  let x := clampTo lowest highest (bitsOf v lo w)
  (setBits v lo w x.1, x.2)

/-- A power of two not above a value, at least 64. -/
def pow2Down (n : Nat) : Nat := max 64 (2 ^ (max n 1).log2)

/-- Low address bits that are zero. -/
def Reg.zeroBits : Reg → Nat
  | .prgKwBase => 4
  | .prgRouteBase | .tierWinTableBase => 6
  | .tierObjTableBase | .hubVlogBase => 5
  | .hubCkptMapBase => 9
  | .hubCkptLossAddr => 2
  | .coreSaveBase | .coreSnapBase | .hubTraceBase | .hostSpoolBase => 21
  | .hubSweepAddr | .hostTornBase => 12
  | .hostFlushAddr | .hubRelayAddr => 3
  | _ => 0

/-- The value that a register takes for one written, by the ranges of its fields, and how many fields were changed and count. The range of
VLT_RCMP_RANGE is one of a valid entry: with VALID 0 any FIRST and LAST is stored (DESIGN CHOICE, log entry 124). -/
def State.ranged (s : State) (r : Reg) (idx v : Nat) : Nat × Nat :=
  let v0 := v / 2 ^ r.zeroBits * 2 ^ r.zeroBits
  match r with
  | .vltCtl =>
    let a := fixField v 0 3 0 4
    let b := fixField a.1 16 16 1 0xFFFF
    (b.1, a.2 + b.2)
  | .vltScrubPeriod => fixField v 0 32 600 (2 ^ 32 - 1)
  | .vltRetireRsv => fixField v 0 3 0 4
  | .vltRcmpRange => if v.testBit 59 ∧ bitsOf v 26 26 < bitsOf v 0 26 then (setBits v 59 1 0, 1) else (v, 0)
  | .coreOptCtl =>
    let n := s.img.microBatches
    let e := if v.testBit 2 ∧ bitsOf v 3 8 = 0 then 1 else bitsOf v 3 8
    let e' := if n ≠ 0 ∧ n ≤ e then n - 1 else e
    if e' = bitsOf v 3 8 then (v, 0) else (setBits v 3 8 e', 1)
  | .coreOptMaxnorm =>
    let w := v % 2 ^ 32
    if w = 0 ∨ 2 ^ 31 ≤ w ∨ 0x7F800000 < w then (0x7F800000, 1) else (v, 0)
  | .tierCtl => fixField v 0 3 1 4
  | .tierObjCount => fixField v 0 14 0 8192
  | .tierWinCount => fixField v 0 7 0 64
  | .synLendCtl => fixField v 0 16 1000 0xFFFF
  | .synTmbCfg | .synLatchCfg => fixField v 0 21 1 (2 ^ 20)
  | .prgKwCount => fixField v 0 13 0 4096
  | .prgArb =>
    let a := fixField v 0 4 1 15
    let b := fixField a.1 4 4 1 15
    (b.1, a.2 + b.2)
  | .prgReplayBudget => fixField v 0 16 5 250
  | .prgTxnTimeout => fixField v 0 16 (4 * s.rdF .prgReplayBudget 0 0 0 16) 0xFFFF
  | .prgRetrain => fixField v 0 16 1 0xFFFF
  | .hostCtl => fixField v 16 16 1 0xFFFF
  | .hubCkptCfg => if s.img.ranks.length ≤ bitsOf v 16 16 then (setBits v 16 16 0, oneIf (bitsOf v 16 16 != 0)) else (v, 0)
  | .hubCkptTol =>
    let w := v % 2 ^ 32
    if 0x7F800000 < w % 2 ^ 31 ∨ 2 ^ 31 < w then (0, 1) else (v, 0)
  | .pwrFmax => fixField v 0 12 (if idx < 128 then 600 else 800) 0xFFF
  | .hubTlmCtl => fixField v 0 16 1 0xFFFF
  | .hubTraceBase => (match locOf v0 with
    | .vault _ _ => (v0, 0)
    | _ => (0, oneIf (v0 != 0)))
  | .cnsRingSize =>
    let n := bitsOf v 0 21
    let m := min (2 ^ 20) (pow2Down n)
    (setBits v 0 21 m, oneIf (n != m))
  | .hubVlogSize =>
    let n := bitsOf v 0 17
    let m := if n = 0 then 0 else min 65536 (pow2Down n)
    (setBits v 0 17 m, oneIf (n != m))
  | _ => (v0, 0)

/-- The counter that counts a range of a register. -/
def Reg.rangeCounter : Reg → Reg
  | .vltCtl | .vltScrubPeriod | .vltRetireRsv | .vltRcmpRange => .vltViolCnt
  | .coreOptCtl | .coreOptMaxnorm => .coreGatherViolCnt
  | .tierCtl | .tierObjCount | .tierWinCount => .tierViolCnt
  | .synLendCtl | .synTmbCfg | .synLatchCfg => .synViolCnt
  | .prgKwCount | .prgArb => .prgViolCnt
  | .prgReplayBudget | .prgTxnTimeout | .prgRetrain => .prgIslViolCnt
  | .hostCtl => .hostViolCnt
  | .hubCkptCfg | .hubCkptTol => .hubImageViolCnt
  | .pwrFmax => .pwrViolCnt
  | .hubTraceBase => .hubAddrViolCnt
  | _ => .hubRegWriteRejCnt

/-- Instance of the counter that counts a range of a register: the hub's one, or the instance of the register's own block. -/
def Reg.rangeInst (r : Reg) (inst : Nat) : Nat :=
  if r.rangeCounter.desc.sub = r.desc.sub ∨ (r.desc.sub.inCore ∧ r.rangeCounter.desc.sub.inCore) then inst else 0

/-- A register write reaches both copies of a field of a synchronisation object (R304). -/
def State.bothCopies (s : State) (r : Reg) (inst idx : Nat) : State :=
  let agree := fun (kind field : Nat) => s.updCore inst (fun c => { c with
    dup := c.dup.filter (fun d => !(d.1 == kind && d.2.1 == idx && d.2.2.1 == field)) })
  match r with
  | .synTmbMark => agree 0 1
  | .synTmbCfg => agree 0 3
  | .synLatchCfg => agree 1 3
  | _ => s

/-- PRG_TXN_TIMEOUT is at least four times PRG_REPLAY_BUDGET; one that a new budget leaves smaller is raised and counted (R325). -/
def State.raiseTimeout (s : State) (r : Reg) : State :=
  let least := 4 * s.rdF .prgReplayBudget 0 0 0 16
  let v := s.rdF .prgTxnTimeout 0 0 0 16
  if r = .prgReplayBudget ∧ v < least then
    (s.wrF .prgTxnTimeout 0 0 0 16 least).viol .prgIslViolCnt 0 0xFF 0xFFFFFFFF 0xFF v
  else s

/-- Store a value with the ranges of its fields. -/
def State.storeReg (s : State) (r : Reg) (inst idx v : Nat) : State :=
  let x := s.ranged r idx v
  forUpTo x.2 (fun _ s => s.viol r.rangeCounter (r.rangeInst inst) 0xFF 0xFFFFFFFF 0xFF v)
    (((s.wr r inst idx x.1).bothCopies r inst idx).raiseTimeout r)

/-! ### Registers with behaviour of their own -/

/-! #### Sweep (R523) -/

/-- Every counter and total of the package, in increasing register offset. -/
def sweepRegs : List (Nat × Reg × Nat × Nat) :=
  (((allRegs.filter (fun r => r.isCnt || r == .cnsTot)).flatMap (fun r =>
    (List.range r.desc.sub.place.2.2).flatMap (fun i => (List.range r.desc.count).filterMap (fun k =>
      if r = .cnsTot ∧ (72 ≤ k % 128 ∨ k % 8 = 7) then none else some (r.offset i k, r, i, k)))))).mergeSort
    (fun a b => decide (a.1 ≤ b.1))

/-- HUB_SWEEP_ADDR names a buffer in a vault of the package. -/
def State.sweepOk (s : State) : Bool :=
  let a := s.rd .hubSweepAddr 0 0
  addrPkg a == s.pkg && (match locOf a with
    | .vault _ b => decide (b + 64 + 16 * 32768 ≤ 2 ^ 33)
    | _ => false)

/-- The sweep: entries, then the header; counters are cleared as they are read when asked. -/
def State.sweep (s : State) (clear : Bool) : State :=
  let a := s.rd .hubSweepAddr 0 0
  if !s.sweepOk then s.wr .hubSweepStatus 0 0 6
  else
    let dark := fun (p : Nat × Reg × Nat × Nat) => p.2.1.desc.sub.inCore && s.coreState p.2.2.1 == 3
    let rs := sweepRegs.filter (fun p => !dark p)
    let skipped := (sweepRegs.filter dark).length
    let t := s.hubTime
    let body := rs.flatMap (fun p => leBytes 4 p.1 ++ [0, 0, 0, 0] ++ leBytes 8 (s.rd p.2.1 p.2.2.1 p.2.2.2))
    let head := leBytes 8 t ++ leBytes 8 t ++ leBytes 8 (s.rd .hubImageId 0 0) ++ leBytes 8 (s.core s.lowCore).step
      ++ leBytes 4 rs.length ++ leBytes 4 skipped ++ [s.pkg] ++ List.replicate 23 0
    let tag := s.stepTag s.lowCore
    let s1 := if clear then forEach rs (fun p s => if p.2.1.isCnt then s.wr p.2.1 p.2.2.1 p.2.2.2 0 else s) s else s
    ((s1.writeAt hubIsland (a + 64) body tag false).writeAt hubIsland a head tag false).wr .hubSweepStatus 0 0 2

/-- A GO of HUB_SWEEP_CTL while a sweep is in progress is ignored and counted. -/
def State.sweepFree (s : State) (serve : State → State) : State :=
  if s.hub.sweeping.isSome then s.regReject (Reg.hubSweepCtl.offset 0 0) else serve s

/-- A write of GO in HUB_SWEEP_CTL: BUSY, and DONE and ERR clear; a bad address ends the sweep at once. -/
def State.sweepGo (s : State) (clear : Bool) : State :=
  s.sweepFree (fun s =>
    if !s.sweepOk then s.sweep clear
    else (s.updHub (fun h => { h with sweeping := some clear })).wr .hubSweepStatus 0 0 1)

/-- The sweep in progress ends. -/
def State.sweepEnd (s : State) : State := match s.hub.sweeping with
  | none => s
  | some clear => (s.updHub (fun h => { h with sweeping := none })).sweep clear

/-- SWEEP (R523): H4 sweeps the counters and totals. -/
def execSweep (clear : Bool) (s : State) : Host.Outcome State Fault Refusal :=
  .next (if s.pwrState = 0 then s else s.sweepFree (fun s => s.sweep clear))

/-! #### The violation log (R520, R521) -/

/-- The 32 bytes of a violation entry. -/
def OpenViol.bytes (v : OpenViol) : List Nat :=
  leBytes 4 (v.counter % 2 ^ 26) ++ [v.island % 256, v.op % 256] ++ leBytes 2 v.count ++ leBytes 4 v.descSeq
    ++ [v.field % 256, 0, 0, 0] ++ leBytes 8 v.hubTime ++ leBytes 8 v.value

/-- H4 writes an entry to the ring, or drops it when the ring is full. -/
def State.logEntry (s : State) (v : OpenViol) : State :=
  let n := s.rdF .hubVlogSize 0 0 0 17
  if n = 0 then s
  else
    let h := s.rdF .hubVlogHead 0 0 0 16
    if (h + 1) % n = s.rdF .hubVlogTail 0 0 0 16 then s.bump .hubVlogDropCnt 0 1
    else (s.writeAt hubIsland (s.rd .hubVlogBase 0 0 + 32 * h) v.bytes (s.stepTag s.lowCore) false).wr .hubVlogHead 0 0 ((h + 1) % n)

/-- VLOG_ENTRY_CLOSE (R520, R521): the millisecond of an open entry has ended. -/
def execVlogEntryClose (counter island : Nat) (s : State) : Host.Outcome State Fault Refusal :=
  let mine := fun (v : OpenViol) => v.counter == counter && v.island == island
  .next (match s.viols.find? mine with
    | none => s
    | some v => ({ s with viols := s.viols.filter (fun x => !mine x) } : State).logEntry v)

/-- A write of HUB_VLOG_BASE or HUB_VLOG_SIZE while the size is not zero, but for a size of 0, is ignored (R521). -/
def State.vlogHeld (s : State) (r : Reg) (v : Nat) : Bool :=
  decide (s.rd .hubVlogSize 0 0 ≠ 0 ∧ ¬ (r = .hubVlogSize ∧ bitsOf v 0 17 = 0))

/-- A write of HUB_VLOG_BASE or HUB_VLOG_SIZE (R521): an ignored change counts. -/
def State.writeVlog (s : State) (r : Reg) (v : Nat) : State :=
  if s.vlogHeld r v then
    (if s.taken .free r 0 0 v = s.rd r 0 0 then s else s.regReject (r.offset 0 0))
  else
    let s1 := s.storeReg r 0 0 (s.taken .free r 0 0 v)
    if r = .hubVlogSize ∧ bitsOf v 0 17 = 0 then { s1 with viols := [] } else s1

/-- HUB_VLOG_TAIL (R76, R521): the consumer frees entries. -/
def execHubVlogTail (value : Nat) (s : State) : Host.Outcome State Fault Refusal :=
  .next (if s.pwrState = 0 then s else s.wr .hubVlogTail 0 0 (value % 2 ^ 16))

/-- CNS_RING_TAIL (R75, R76): the consumer frees census records. -/
def execCnsRingTail (core value : Nat) (s : State) : Host.Outcome State Fault Refusal :=
  .next (if s.pwrState = 0 ∨ 128 ≤ core then s else s.wr .cnsRingTail core 0 (value % 2 ^ 20))

/-! #### Correlation (R500) -/

/-- HUB_TS_CORR_CTL.BUSY: a correlation is in progress. -/
def State.corrBusy (s : State) : Bool := (s.rd .hubTsCorrCtl 0 0).testBit 9

/-- ISLAND of HUB_TS_CORR_CTL takes a value; above 167 it is clamped and counts. -/
def State.corrIsland (s : State) (island : Nat) : State :=
  (if 167 < island then s.regReject (Reg.hubTsCorrCtl.offset 0 0) else s).wrF .hubTsCorrCtl 0 0 0 8 (min 167 island)

/-- GO of a correlation: H4 records T0 and sends the request. -/
def State.corrGo (s : State) (island : Nat) : State :=
  let s1 := s.corrIsland island
  if s.corrBusy then s1.regReject (Reg.hubTsCorrCtl.offset 0 0)
  else
    ((s1.wrF .hubTsCorrCtl 0 0 9 2 1).wr .hubTsCorrT0 0 0 s.hubTime).updHub (fun h =>
      { h with corr := some (min 167 island, s.hubTime) })

/-- A write of HUB_TS_CORR_CTL. -/
def State.writeCorr (s : State) (v : Nat) : State :=
  if v.testBit 8 then s.corrGo (bitsOf v 0 8) else s.corrIsland (bitsOf v 0 8)

/-! #### All of them -/

/-- A write of WARD_MBOX_CTL (R425). -/
def State.writeMbox (s : State) (v : Nat) : State :=
  let s1 := s.wrF .wardMboxCtl 0 0 16 10 (bitsOf v 16 10)
  let s2 := if v.testBit 0 then s1.wardGo s1.mailbox v else s1
  if v.testBit 1 then s2.newNonce else s2

/-- A write of PWR_CTL (R437, R443). -/
def State.writePwr (s : State) (v : Nat) : State :=
  match bitsOf v 0 3 with
  | 1 => s.requestRun
  | 2 => s.requestHold
  | 3 => s.requestStandby (v.testBit 3)
  | 4 => s.requestOff
  | _ => s.viol .pwrViolCnt 0 0xFF 0xFFFFFFFF 0xFF v

/-- A write of HOST_SESSION_CTL (R381, R383, R386). -/
def State.writeSession (s : State) (v : Nat) : State :=
  if bitsOf v 0 2 = 1 then s.detach 4
  else if bitsOf v 0 2 = 2 then s.attachCmd (bitsOf v 32 16)
  else s.hostViol 0xFF v

/-- What a write does to a register with behaviour of its own; none for the others. HUB_RELAY_CTL is the relay's. -/
def State.special (s : State) (r : Reg) (idx v : Nat) : State × Bool := match r with
  | .hostSqTail => ((s.writeTail idx (v % 2 ^ 16)).1, true)
  | .hostCqHead => (s.writeHead (cqRegs idx) (v % 2 ^ 16), true)
  | .hostEvqHead => (s.writeHead evqRegs (v % 2 ^ 16), true)
  | .hostCqPost => ((if s.gateway.isSome && !s.postWaits then s.cqPost idx v false else s), true)
  | .hostWinAddr => (s.writeWin idx false v, true)
  | .hostWinCfg => (s.writeWin idx true v, true)
  | .hostSqBase => (s.writeRing 0 idx true v, true)
  | .hostCqBase => (s.writeRing 1 idx true v, true)
  | .hostEvqBase => (s.writeRing 2 idx true v, true)
  | .hostSqCfg => (s.writeRing 0 idx false v, true)
  | .hostCqCfg => (s.writeRing 1 idx false v, true)
  | .hostEvqCfg => (s.writeRing 2 idx false v, true)
  | .hostSessionCtl => (s.writeSession v, true)
  | .hubResetCtl => (s.writeReset v, true)
  | .hubTsCorrCtl => (s.writeCorr v, true)
  | .hubVlogBase | .hubVlogSize => (s.writeVlog r v, true)
  | .hubSweepCtl => ((if v.testBit 0 then s.sweepGo (v.testBit 1) else s), true)
  | .tierQuery => (s.tierQuery (bitsOf v 0 13), true)
  | .wardDebugCtl =>
    let s1 := s.setLevel (bitsOf v 0 2)
    ((if v.testBit 2 then s1.closeD2 else s1), true)
  | .wardMboxCtl => (s.writeMbox v, true)
  | .pwrCtl => (s.writePwr v, true)
  | .pwrLimit => (s.setLimit v, true)
  | _ => (s, false)

/-- Writes that their register refuses as a whole and counts itself: a GO of a correlation in progress (R500), a change of the
violation log in use (R521). -/
def State.refusesWhole (s : State) (r : Reg) (v : Nat) : Bool := match r with
  | .hubTsCorrCtl => v.testBit 8 && s.corrBusy
  | .hubVlogBase | .hubVlogSize => s.vlogHeld r v && s.taken .free r 0 0 v != s.rd r 0 0
  | _ => false

/-- A write of a whole register, field by field (R20): it counts once, whatever it cannot set. -/
def State.writeSlot (s : State) (who : Writer) (r : Reg) (inst idx v : Nat) : State :=
  let s1 := if s.refusesAny who r inst idx v && !s.refusesWhole r v then s.regReject (r.offset inst idx) else s
  match s1.special r idx v with
  | (t, true) => t
  | (_, false) =>
    let w := s.taken who r inst idx v
    if w = s.rd r inst idx then s1 else s1.storeReg r inst idx w

/-- A write of 4 or 8 bytes of the register map over a path (R19, R20, R364, R491, R496); `false`: the path refuses it. -/
def State.writeReg (s : State) (path off bytes v : Nat) : State × Bool :=
  let slot := off / 8 * 8
  let ok := (bytes = 8 ∧ off % 8 = 0) ∨ (bytes = 4 ∧ off % 4 = 0)
  if ¬ ok then (s.unmapped path off, true)
  else match regSlot slot with
  | none => (s.unmapped path off, true)
  | some (r, i, k) =>
    if bytes = 4 ∧ off % 8 = 4 ∧ !r.desc.wide then (s.unmapped path off, true)
    else if !pathOk path r true then (s.regReject slot, false)
    else
      let old := s.shown r i k
      let w := if bytes = 8 ∨ !r.desc.wide then v else if off % 8 = 0 then setBits old 0 32 v else setBits old 32 32 v
      (s.writeSlot s.writer r i k (if r.desc.wide then w % 2 ^ 64 else w % 2 ^ 32), true)

/-- Domain address of a register of a package without bit [45] (R489): its offset, none when reserved bits are set. -/
def ctrlOff (a : Nat) : Option Nat := match locOf a with
  | .ctrl o => some o
  | _ => none

end Sys2Proof.Machine
end

