-- ==== Sys2Proof/Machine/Reduce.lean ====
section
/-! DEFINITION. Fabric descriptors and the reduction engines: a descriptor's transactions, RED, the nodes of the fixed tree, the
root's write-out and the norm group (R226 to R228, R325 to R331). -/

namespace Sys2Proof.Machine

/-! ## Transactions of a descriptor (R325) -/

/-- Route class of a fabric descriptor's requests: 1 reductions and digests, 2 copies (R320, R323). -/
def fabClass (op : Nat) : Nat := if op = 0x51 then 2 else 1

/-- A request of a descriptor: at once while its core holds fewer than 128 transactions, else it waits (R325). -/
def State.jobRequest (s : State) (j : FabJob) (t : Todo) : State :=
  if s.inFlight j.core < 128 then
    s.request (j.core / 16) (.job j.core j.pos t.part) t.pkg (fabClass (bitsOf j.desc 0 8)) t.msg t.die
  else s.updFabJob j.core j.pos (fun j => { j with todo := j.todo ++ [t] })

/-- Send the requests of a core that wait, oldest first, while it has transactions free. -/
def State.pumpTodo (s : State) (g : Nat) : Nat → State
  | 0 => s
  | n + 1 =>
    match s.prg.jobs.find? (fun j => j.core == g && !j.todo.isEmpty) with
    | none => s
    | some j => match j.todo with
      | [] => s
      | t :: ts =>
        if s.inFlight g < 128 then
          State.pumpTodo ((s.updFabJob g j.pos (fun j => { j with todo := ts })).jobRequest { j with todo := ts } t) g n
        else s

/-- Transactions of a descriptor that have no answer yet. -/
def State.fabOpen (s : State) (g pos : Nat) : Bool := s.prg.txns.any (fun e => match e.2 with
  | some t => (match t.owner with
    | .job c p _ => c == g && p == pos
    | _ => false)
  | none => false)

/-! ## The reduction descriptor (R327) -/

/-- A reduction descriptor as the island and the root read it. -/
structure RedDesc where
  scatter : Bool
  norm : Bool
  compress : Nat
  relTmb : Nat
  doneTmb : Nat
  group : Nat
  slot : Nat
  normTmb : Nat
  base : Nat
  out : FmtField
  viols : List Viol
  deriving DecidableEq, Repr

def State.redRead (s : State) (d : Nat) : RedDesc :=
  let c0 := dfld d 1 2 2
  let bad := c0 == 2 && !s.expert 10
  let c := if c0 = 3 ∨ bad then 0 else c0
  let kind1 := dfld d 1 0 1 == 1
  let norm := dfld d 1 1 1 == 1
  let code := dfld d 32 0 4
  let legal := code == Fmt.fp32.code || code == Fmt.bf16.code
  let d1 := if legal then d else setBits d 256 4 Fmt.bf16.code
  let x := FmtField.read d1 32 true false s.woExpert
  ⟨!kind1, norm && !kind1, c, dfld d 2 0 8, dfld d 3 0 8, dfld d 4 0 32, dfld d 8 0 32, dfld d 12 0 8, dfld d 16 0 64, x.1,
    (if norm && kind1 then [⟨1, 1⟩] else []) ++ (if c0 = 3 ∨ bad then [⟨1, c0⟩] else [])
      ++ (if legal then [] else [⟨32, code⟩]) ++ x.2⟩

/-- Identity of a chunk (R328): step tag, group, level, index, chunk. -/
def redAddr (tag group level ix chunk : Nat) : Nat :=
  tag % 2 ^ 16 + group % 2 ^ 16 * 2 ^ 16 + level % 2 ^ 4 * 2 ^ 32 + ix % 2 ^ 13 * 2 ^ 36 + chunk % 2 ^ 15 * 2 ^ 49

/-- Body of a RED_PART: its elements, FP32 or BF16, and the FTZ count, padded to a multiple of 8 bytes (R324, R329). -/
def redBody (compress : Bool) (vs : List Nat) (ftz : Nat) : List Nat :=
  let b := vs.flatMap (fun v => if compress then leBytes 2 (v / 2 ^ 16) else leBytes 4 v) ++ leBytes 4 ftz
  b ++ List.replicate ((8 - b.length % 8) % 8) 0

/-- The elements of a body, as FP32 patterns, and its FTZ count. -/
def redParse (compress : Bool) (n : Nat) (b : List Nat) : List Nat × Nat :=
  let w := if compress then 2 else 4
  ((List.range n).map (fun i => leNat ((b.drop (w * i)).take w) * (if compress then 2 ^ 16 else 1)),
    leNat ((b.drop (w * n)).take 4))

/-- The RED_PART of a chunk. `core` 1 marks BF16 elements. -/
def redMsg (compress : Bool) (tag group level ix chunk : Nat) (vs : List Nat) (ftz : Nat) : Msg :=
  ⟨7, if compress then 1 else 0, redAddr tag group level ix chunk, redBody compress vs ftz⟩

/-- Elements of chunk `c` of a group. -/
def chunkElems (g : Group) (c : Nat) : Nat := min 1024 (g.elems - 1024 * c)

/-- Host of the sum that takes the value at a level and index; `none`: the value is the result. -/
def Group.parentHost (g : Group) (b : List Nat) (l i : Nat) : Option (Nat × Nat) :=
  (treeParent g.contribN l i).map (fun p => g.nodeHost b (nodePos g.contribN p.1 p.2.1))

/-- A leaf of a slot element (R329): decoded exactly to FP32; rounded to BF16 when the reduction is compressed. -/
def redLeaf (f : Fmt) (compress : Bool) (code : Nat) : Nat :=
  let v := f.flt.decode code
  if compress then fltBf16.encode (fltBf16.round v) * 2 ^ 16 else v.toF32

/-- The values of a slot in element order, an index beyond it clamped; the slot's elements return to +0 (R226, R326). -/
def State.readOut (s : State) (d n elems : Nat) (compress : Bool) : List Nat :=
  match s.slotDecl d n with
  | some q => (List.range elems).map (fun e => redLeaf q.fmt compress (s.slotElem d n (min e (q.extent - 1))))
  | none => List.replicate elems 0
def State.clearSlot (s : State) (d n : Nat) : State :=
  { s with slots := { s.slots with data := SMap.clearRange s.slots.data (elemKey d n 0) (elemKey d (n + 1) 0) } }

/-- The contributor rank for which a core issues: its lowest rank of the group that has none this step, with its position. -/
def State.contributorOf (s : State) (core gi tag : Nat) (g : Group) : Option (Nat × Nat) :=
  let rs := (g.ranks s.img.red).zip (List.range g.contribN)
  rs.find? (fun p => s.rankAt p.1 == some (s.pkg, core)
    && !s.prg.descs.any (fun e => e.1 == gi && e.2.1 == tag && e.2.2.1 == p.1))

/-- The island reads the slot out and sends the leaf chunks up the tree (R326 to R328). -/
def State.sendLeaves (s : State) (j : FabJob) (gi : Nat) (g : Group) (x : RedDesc) (rank pos : Nat) : State :=
  let d := s.slotDie j.core
  let n := s.slotClamp d x.slot
  let ext := ((s.slotDecl d n).map SlotDecl.extent).getD 0
  let compress := if x.compress = 0 then (s.rd .prgRedCtl d 0).testBit 0 else x.compress == 2
  let vs := s.readOut d n g.elems compress
  let s1 := if n = x.slot ∧ ext ≠ 0 then s else s.islViol (j.core / 16) 0x50 j.pos 8 x.slot
  let s2 := if ext < g.elems ∧ ext ≠ 0 then s1.islViol (j.core / 16) 0x50 j.pos 4 g.elems else s1
  let cleared := s2.clearSlot d n
  let s3 : State := { cleared with slots := { cleared.slots with reading := cleared.slots.reading ++ [slotKey d n] } }
  let s4 := s3.updPrg (fun p => { p with
    descs := p.descs.filter (fun e => e.1 != gi || e.2.1 == j.tag) ++ [(gi, j.tag, rank, j.desc % 2 ^ 512 + j.pos * 2 ^ 512)] })
  let host := (g.parentHost s.img.red 0 pos).getD (s.pkg, j.core / 16)
  let s5 := forUpTo (ceilDiv g.elems 1024) (fun c s =>
    match s.fabJobAt j.core j.pos with
    | some j => s.jobRequest j ⟨c, host.1, host.2,
        redMsg compress j.tag gi 0 pos c ((vs.drop (1024 * c)).take (chunkElems g c)) 0⟩
    | none => s) s4
  s5.updFabJob j.core j.pos (fun j => { j with sent := true })

/-- RED (R226, R326 to R329): a contributor's reduction descriptor reads its slot out; a core that holds no contributor rank, and
a group beyond the table, do no work. -/
def execRed (core : Nat) (s : State) : Host.Outcome State Fault Refusal :=
  .next (if !s.works core ∨ (s.fabJob core 0x50).isSome then s
    else
      let s1 := s.takeFab core 0x50
      match s1.fabJob core 0x50 with
      | none => s
      | some j =>
        let x := s1.redRead j.desc
        let s2 := s1.viols' .prgIslViolCnt (core / 16) 0x50 j.pos x.viols
        match s2.redGroup x.group with
        | none => (s2.islViol (core / 16) 0x50 j.pos 4 x.group).fabDone core j.pos []
        | some g => match s2.contributorOf core x.group j.tag g with
          | none => (s2.islViol (core / 16) 0x50 j.pos 4 x.group).fabDone core j.pos []
          | some (rank, pos) => s2.sendLeaves j x.group g x rank pos)

/-- The read-out of a reduction descriptor is acknowledged: RELEASE_TMB is signalled (R226, R326). -/
def State.redFinish (s : State) (j : FabJob) : State :=
  let x := s.redRead j.desc
  let d := s.slotDie j.core
  let key := slotKey d (s.slotClamp d x.slot)
  let s1 : State := { s with slots := { s.slots with reading := s.slots.reading.filter (· != key) } }
  (if j.failed then s1 else s1.selfTmb j.core x.relTmb 1).fabDone j.core j.pos []

/-! ## Nodes (R328, R329) -/

/-- The sum at a node: FP32 to nearest even, or BF16 with a subnormal sum as zero of its sign, counted. In arrival order `a` is the
chunk that came first, and the running sum is FP32 also where a BF16 chunk leaves (R331; DEDUCED, log entry 116). -/
def redSum (arrival compress : Bool) (a b : Nat) : Nat × Nat :=
  let x := Num.addExact (Num.ofF32 a) (Num.ofF32 b)
  if compress then
    let w := fltBf16.round (if arrival then fltF32.round x else x)
    let e := fltBf16.encode w
    if e % 2 ^ 15 < 2 ^ 7 ∧ e % 2 ^ 15 ≠ 0 then (e / 2 ^ 15 * 2 ^ 31, 1) else (e * 2 ^ 16, 0)
  else (fltF32.encode (fltF32.round x), 0)

def sumChunk (arrival compress : Bool) (l r : List Nat × Nat) : List Nat × Nat :=
  let zs := (l.1.zip r.1).map (fun p => redSum arrival compress p.1 p.2)
  (zs.map (fun z => z.1), l.2 + r.2 + (zs.map (fun z => z.2)).foldl (· + ·) 0)

/-- Put a child's chunk into its node. -/
def RedNode.fill (n : RedNode) (right : Bool) (v : List Nat × Nat) : RedNode :=
  if right then { n with right := some v } else { n with left := some v }

/-! ## The root (R329, R330) -/

/-- The written code and census of every element of a result (R60, R67, R329): FP32 or BF16, the descriptor's coarse scale. The seed
and CNS_CTL.NEAR_EN are those of core 0 of the root's die: the spec gives a fabric island neither (DESIGN CHOICE, log entry 116). -/
def State.redWrite (s : State) (d : Nat) (x : RedDesc) (vs : List Nat) : List Nat × Census :=
  let f := x.out.fmt.getD .bf16
  let w := s.woCtx (16 * d) f x.out
  let ro := recipCoarse x.out.coarse
  let rs := (vs.zip (List.range vs.length)).map (fun p =>
    let o := Num.ofF32 p.1
    writeElem w 0x7F ⟨o, f32Mul o ro, x.base + p.2⟩)
  (rs.map (fun r => r.1), rs.foldl (fun a r => a.add r.2) Census.zero)

/-- Lines of codes, `n` to a line. -/
def codeLines (bytes n : Nat) (cs : List Nat) : List (List Nat) :=
  (List.range (ceilDiv cs.length n)).map (fun i =>
    let b := ((cs.drop (n * i)).take n).flatMap (leBytes bytes)
    b ++ List.replicate (128 - b.length) 0)

/-- Runs of consecutive lines that a destination takes: address and lines. A scatter fills the G slots of the update groups
from the destination's base on (R198, R227); an all-reduce is contiguous. -/
def redRuns (scatter : Bool) (a : Nat) (fp32 : Bool) (cs : List Nat) : List (Nat × List (List Nat)) :=
  let ls := if fp32 then codeLines 4 32 cs else codeLines 2 64 cs
  let k := if fp32 then 4 else 2
  if scatter then
    let byte := bitsOf a 0 33
    (List.range (ceilDiv ls.length k)).map (fun i =>
      (setBits a 0 33 (128 * groupLine (byte / 128) i 0), (ls.drop (k * i)).take k))
  else (List.range (ceilDiv ls.length 32)).map (fun i => (a + 4096 * i, (ls.drop (32 * i)).take 32))

/-- Fields of a contributor's descriptor that the root compares: all but SLOT and RELEASE_TMB (R327). -/
def redCompared (d : Nat) : Nat := setBits (setBits (d % 2 ^ 512) 16 8 0) 64 32 0

/-- The norm of a result (R228 step 1): squares of the written values as the moment pass reads them, each rounded to FP32, summed
in the order of R147. -/
def redNorm (x : RedDesc) (cs : List Nat) : Nat :=
  let f := x.out.fmt.getD .bf16
  let sq := cs.map (fun c =>
    let g := (decodeRead f c 0x7F x.out.coarse).1
    f32Mul g g)
  ((List.range (ceilDiv sq.length 32)).foldl (fun acc j => (redChunk f32Add Num.zero false acc ((sq.drop (32 * j)).take 32)).1)
    Num.zero).toF32

/-- The shard that a scatter serves: its owner is the first destination and its base the destination's (R330, R348). -/
def State.redShard (s : State) (g : Group) : Option Nat := match (g.dests s.img.red).head? with
  | some (v, a) => (List.range s.img.shards.length).find? (fun i =>
      (s.img.shards[i]?).any (fun x => x.owner == v && x.base == bitsOf a 0 33))
  | none => none

/-- The norm leaf of a shard goes to the norm group (R330). -/
def State.sendNorm (s : State) (d tag : Nat) (g : Group) (n2 seq : Nat) : State :=
  match s.normGroup, (s.redShard g).bind (fun i => s.normOrder.idxOf? i) with
  | some gn, some pos =>
    let ng := groupRaw s.img.red gn
    let h := (ng.parentHost s.img.red 0 pos).getD (s.pkg, d)
    s.request d (.node gn tag) h.1 1 (redMsg false tag gn 0 pos 0 [n2] 0) h.2
  | _, _ => s.islViol d 0x50 seq 1 1

/-- The norm root sends NORM to every owner and replica core (R330). -/
def State.sendN2 (s : State) (d n2 tmb : Nat) : State :=
  let cores := ((s.img.shards.flatMap Shard.ranks).filterMap s.rankAt).eraseDups
  forEach cores (fun p s => s.request d .norm p.1 1
    ⟨0x0D, p.2 % 16, 0, leBytes 4 n2 ++ [tmb % 256, 0, 0, 0]⟩ (p.2 / 16)) s

/-- The census record of a root (R329, R513): to the ring of the first destination's core. -/
def State.redCensus (s : State) (d tag seq : Nat) (g : Group) (k : CensusSet) : State :=
  match ((g.dests s.img.red).head?).bind (fun p => s.rankAt p.1) with
  | some (p, c) =>
    let bs := censusRecord seq tag false k (128 + d)
    if p = s.pkg then ((s.carryTotals (s.home c) false Census.zero k).foldTotals (s.home c) false k).writeRecord (s.home c) bs
    else s.send (.hub 46 p (c :: bs ++ k.counts.list))
  | none => s

/-- The root writes the result out to every destination (R227, R329). `diffs`: contributors elsewhere whose fields differ. -/
def State.rootOut (s : State) (d gi tag desc diffs : Nat) (g : Group) (vs : List Nat) (ftz : Nat) : State :=
  let x := s.redRead desc
  let seq := desc / 2 ^ 512
  let own := s.prg.descs.filter (fun e => e.1 == gi && e.2.1 == tag && redCompared e.2.2.2 != redCompared desc)
  let s1 := forUpTo (own.length + diffs) (fun _ s => s.islViol d 0x50 seq 0xFF gi) s
  let w := s1.redWrite d x vs
  let fp32 := x.out.fmt == some .fp32
  let s2 := s1.redCensus d tag seq g
    ⟨(x.out.fmt.getD .bf16).code, 3, x.out.sr, x.out.sat, { w.2 with ftz := w.2.ftz + ftz }⟩
  let ds := (g.dests s.img.red).map (fun p => s.rankAddr p.1 p.2)
  let runs := ds.map (fun a => redRuns x.scatter a fp32 w.1)
  let s3 := s2.updPrg (fun p => { p with roots := p.roots.filter (fun r => !(r.group == gi && r.tag == tag))
    ++ [⟨gi, tag, [], 0, desc, runs.map List.length⟩] })
  let s4 := forEach (runs.zip (List.range runs.length)) (fun r s =>
    forEach r.1 (fun q s => s.request d (.dest gi tag r.2) (addrPkg q.1) 1
      ⟨3, bitsOf q.1 33 4, q.1, q.2.flatMap (fun l => lineBody l tag 0)⟩ (addrDie q.1)) s) s3
  if x.norm then s4.sendNorm d tag g (redNorm x w.1) seq else s4

/-- A destination has stored a run: with its last one DONE_TMB is signalled in its core (R329). -/
def State.rootStored (s : State) (d gi tag ix : Nat) : State :=
  match s.prg.roots.find? (fun r => r.group == gi && r.tag == tag) with
  | none => s
  | some r =>
    let left := r.left.set ix (r.left.getD ix 0 - 1)
    let rs := s.prg.roots.map (fun q => if q = r then { q with left := left } else q)
    let s1 := s.updPrg (fun p => { p with
      roots := rs.filter (fun q => !(q.group == gi && q.tag == tag && q.left.all (· == 0))) })
    match r.left.getD ix 0, (s.redGroup gi).bind (fun g => (g.dests s.img.red)[ix]?) with
    | 1, some p => match s.rankAt p.1 with
      | some (pk, c) => s1.signalTo (16 * d) pk c ⟨1, dfld r.desc 3 0 8, 1, 0, false, 128 + d⟩
      | none => s1
    | _, _ => s1

/-- A chunk of the result is there; with the last one the root writes out. `rdesc` is the descriptor of the lowest-ranked
contributor when that stands in another package. -/
def State.rootChunk (s : State) (d gi tag chunk : Nat) (g : Group) (v : List Nat × Nat) (rdesc : Option Nat) (diffs : Nat) :
    State :=
  let own := (s.prg.descs.find? (fun e => e.1 == gi && e.2.1 == tag && some e.2.2.1 == (g.ranks s.img.red).head?)).map
    (fun e => e.2.2.2)
  let desc := (own.orElse (fun _ => rdesc)).getD 0
  if g.norm then
    let known := (s.prg.descs.find? (fun e => e.2.1 == tag && (s.redRead e.2.2.2).norm)).map (fun e => dfld e.2.2.2 12 0 8)
    s.sendN2 d (v.1.headD 0) (known.getD (dfld desc 12 0 8))
  else
    let r0 := (s.prg.roots.find? (fun r => r.group == gi && r.tag == tag)).getD ⟨gi, tag, [], 0, 0, []⟩
    let r := { r0 with chunks := SMap.set (fun _ => []) r0.chunks chunk v.1, ftz := r0.ftz + v.2 }
    if r.chunks.length = ceilDiv g.elems 1024 then
      s.rootOut d gi tag desc diffs g (r.chunks.flatMap (fun c => c.2)) r.ftz
    else s.updPrg (fun p => { p with roots := p.roots.filter (fun q => !(q.group == gi && q.tag == tag)) ++ [r] })

/-- A value at a level and index has reached the island that hosts its sum, or is the result (R328). -/
def State.redValue (s : State) (d gi tag level ix chunk : Nat) (g : Group) (compress : Bool) (v : List Nat × Nat)
    (rdesc : Option Nat) (diffs : Nat) : State :=
  match treeParent g.contribN level ix with
  | none => s.rootChunk d gi tag chunk g v rdesc diffs
  | some (l, i, right) =>
    let same := fun (n : RedNode) => n.group == gi && n.tag == tag && n.level == l && n.ix == i && n.chunk == chunk
    let n0 := (s.prg.nodes.find? same).getD ⟨gi, tag, l, i, chunk, compress, none, none⟩
    let n := n0.fill right v
    let s1 := s.updPrg (fun p => { p with nodes := p.nodes.filter (fun q => !same q) })
    match n.left, n.right with
    | some a, some b =>
      let arrival := (s.rd .prgRedCtl d 0).testBit 1
      let z := if arrival && !right then sumChunk true compress b a else sumChunk arrival compress a b
      (match g.parentHost s.img.red l i with
      | some h => s1.request d (.node gi tag) h.1 1 (redMsg compress tag gi l i chunk z.1 z.2) h.2
      | none => s1.rootChunk d gi tag chunk g z rdesc diffs)
    | _, _ => s1.updPrg (fun p => { p with nodes := p.nodes ++ [n] })

end Sys2Proof.Machine
end

