-- ==== Sys2Proof/Machine/Copy.lean ====
section
/-! DEFINITION. MOVE, DCMP and the hasp (R245, R295 to R298, R331, R366, R367). -/

namespace Sys2Proof.Machine

/-! ## Lines of a message -/

/-- A line of a message body: data, tag, POISON. -/
def bodyLine (b : List Nat) (i : Nat) : List Nat × Nat × Bool :=
  let l := (b.drop (136 * i)).take 136
  (l.take 128, leNat ((l.drop 132).take 2), (l.getD 134 0).testBit 2)
def bodyLines (b : List Nat) : List (List Nat × Nat × Bool) := (List.range (b.length / 136)).map (bodyLine b)

/-- Store lines with their tags and POISON flags from a domain address of the package on (R167, R324). -/
def State.storeLines (s : State) (a : Nat) (ls : List (List Nat × Nat × Bool)) : State :=
  forEach (ls.zip (List.range ls.length)) (fun p s =>
    match locOf (a + 128 * p.2) with
    | .vault g b => s.putLine (s.home g) (b / 128) p.1.1 p.1.2.1 (if p.1.2.2 then 4 else 0)
    | .stage g b => s.putStg (s.home g) b p.1.1
    | _ => s) s

/-- Lines of the package as a unit reads them: a POISON line as zeros with its mark (R173, R324). -/
def State.loadLines (s : State) (a n tag : Nat) : List (List Nat × Nat × Bool) :=
  (List.range n).map (fun i => match s.linesOf (a + 128 * i) 128 with
    | (g, l) :: _ =>
      let r := s.rawLine g l
      if r.poison then (List.replicate 128 0, tag, true) else (r.data, tag, false)
    | [] => (s.lineSpan (a + 128 * i) 0 128, tag, false))

def linesBody (ls : List (List Nat × Nat × Bool)) : List Nat :=
  ls.flatMap (fun l => lineBody l.1 l.2.1 (if l.2.2 then 4 else 0))

/-! ## MOVE (R331) -/

/-- The core at which an address lies, by package and index. -/
def destCore (a : Nat) : Option (Nat × Nat) := match locOf a with
  | .vault g _ | .stage g _ => some (addrPkg a, g)
  | _ => none

/-- A move descriptor as the island reads it: whether there is work, lines, source, destinations, DONE_TMB, SIG_BYTES. `one`: a
line at a time, since an end is a control register (R495). -/
structure MoveRd where
  work : Bool
  lines : Nat
  src : Nat
  dests : List Nat
  tmb : Nat
  sig : Nat
  one : Bool
  viols : List Viol
  deriving DecidableEq, Repr

/-- Kinds of address that MOVE serves: vault and stage memory, host windows of a gateway, control registers. -/
def State.moveEnd (s : State) (a : Nat) : Bool := match locOf a with
  | .vault _ _ | .stage _ _ | .ctrl _ => true
  | .window _ _ => if addrPkg a = s.pkg then s.gateway.isSome else s.img.gateways.any (fun p => p.1 == addrPkg a)
  | _ => false
def isCtrl (a : Nat) : Bool := match locOf a with
  | .ctrl _ => true
  | _ => false

def State.moveRead (s : State) (g d : Nat) : MoveRd :=
  let bc := dfld d 1 0 1 == 1
  let n0 := dfld d 4 0 32
  let src := s.addrField g (dfld d 8 0 64)
  let dst := s.addrField g (dfld d 16 0 64)
  let sb := dfld d 28 0 32
  let grp := groupAt s.img.bcast false (dfld d 24 0 32)
  let dests := if bc then (match grp with
      | some x => (x.dests s.img.bcast).map (fun p => s.rankAddr p.1 p.2)
      | none => []) else [dst.1]
  let own := match locOf src.1 with
    | .vault h _ | .stage h _ => addrPkg src.1 == s.pkg && h == g
    | _ => false
  let ok := if bc then own && grp.isSome
    else s.moveEnd src.1 && s.moveEnd dst.1 && (addrPkg src.1 == s.pkg || addrPkg dst.1 == s.pkg)
  ⟨ok, min n0 (2 ^ 24), src.1, dests, dfld d 3 0 8, sb / 128 * 128, isCtrl src.1 || dests.any isCtrl,
    (if 2 ^ 24 < n0 then [⟨4, n0⟩] else []) ++ (if src.2 then [⟨8, dfld d 8 0 64⟩] else [])
      ++ (if dst.2 && !bc then [⟨16, dfld d 16 0 64⟩] else []) ++ (if sb % 128 = 0 then [] else [⟨28, sb⟩])
      ++ (if ok then [] else [⟨if bc && grp.isNone then 24 else 8, if bc && grp.isNone then dfld d 24 0 32 else dfld d 8 0 64⟩])⟩

/-- Lines of a part of a move. -/
def MoveRd.part (x : MoveRd) : Nat := if x.one then 1 else 32
/-- Parts of a move. -/
def MoveRd.parts (x : MoveRd) : Nat := ceilDiv x.lines x.part
def MoveRd.partLines (x : MoveRd) (p : Nat) : Nat := min x.part (x.lines - x.part * p)
/-- Mark of the reads among a move's transactions; a write is numbered `2 ^ 25 * destination + part`. -/
def readMark : Nat := 2 ^ 60

/-- Lines stored at a destination: DONE_TMB at each SIG_BYTES boundary, and at the end unless the last boundary is the end. -/
def State.moveAck (s : State) (g pos : Nat) (x : MoveRd) (q k : Nat) : State :=
  match s.fabJobAt g pos with
  | none => s
  | some j =>
    let a := SMap.get (fun _ => 0) j.acks q
    let b := a + k
    let s1 := s.updFabJob g pos (fun j => { j with acks := SMap.set (fun _ => 0) j.acks q b })
    let n := (if x.sig = 0 then 0 else 128 * b / x.sig - 128 * a / x.sig)
      + (if b = x.lines ∧ (x.sig = 0 ∨ 128 * b % x.sig ≠ 0) then 1 else 0)
    match (x.dests[q]?).bind destCore with
    | some (pk, c) => if x.tmb = 0xFF ∨ j.failed then s1
        else forUpTo n (fun _ s => s.signalTo g pk c (s.sigOf g 1 x.tmb 1)) s1
    | none => s1

/-- A part of the lines goes to every destination: stored at once where that can be, else by a WRITE (R324). A host-bound write
sets the gateway's bit in the path set (R296). -/
def State.moveOut (s : State) (g pos : Nat) (x : MoveRd) (p : Nat) (ls : List (List Nat × Nat × Bool)) : State :=
  forEach (x.dests.zip (List.range x.dests.length)) (fun d s =>
    let a := d.1 + 128 * x.part * p
    match s.fabJobAt g pos with
    | none => s
    | some j =>
      if j.failed then s
      else if addrPkg a = s.pkg ∧ (destCore a).isSome ∧ s.canStore a ls.length then
        (s.storeLines a ls).moveAck g pos x d.2 ls.length
      else
        let s1 := match locOf a, (s.img.gateways.find? (fun q => q.1 == addrPkg a)) with
          | .window _ _, some (_, gw) => s.pathOr g (2 ^ (gw % 4))
          | _, _ => s
        s1.jobRequest j ⟨2 ^ 25 * d.2 + p, addrPkg a, addrDie a, ⟨3, bitsOf a 33 4, a, linesBody ls⟩⟩) s

/-- Go on with a move from part `p`: local lines are read as far as their vaults let it, others are asked for. -/
def State.moveGo (s : State) (g pos : Nat) (x : MoveRd) (p : Nat) : Nat → State
  | 0 => s.updFabJob g pos (fun j => { j with next := p, sent := true })
  | n + 1 => match s.fabJobAt g pos with
    | none => s
    | some j =>
      let a := x.src + 128 * x.part * p
      let k := x.partLines p
      if addrPkg a = s.pkg ∧ (destCore a).isSome then
        match s.gateReads (fabUnit g 1) (s.linesOf a (128 * k)) with
        | (s1, none) => s1.updFabJob g pos (fun j => { j with next := p })
        | (s1, some v) => State.moveGo (s1.moveOut g pos x p (v.loadLines a k j.tag)) g pos x (p + 1) n
      else State.moveGo (s.jobRequest j ⟨readMark + p, addrPkg a, addrDie a, ⟨1, bitsOf a 33 4, a, leBytes 8 k⟩⟩) g pos x
        (p + 1) n

/-- A fabric descriptor whose requests have all been sent and answered completes (R325). -/
def State.settleFab (s : State) (g pos : Nat) : State :=
  match s.fabJobAt g pos with
  | none => s
  | some j =>
    if (j.sent || j.failed) && j.todo.isEmpty && !s.fabOpen g pos then
      (if bitsOf j.desc 0 8 = 0x50 then s.redFinish j else s.fabDone g pos [])
    else s

/-- Take a move in hand. One whose destination lies in space 2 writes nothing there, which the tier manager counts too (R254). An address in
a reserved space, or in the aperture of a package that is no gateway, counts in the issuing core too (R15, R366). -/
def State.moveStart (s : State) (g : Nat) (j : FabJob) : State :=
  let x := s.moveRead g j.desc
  if x.lines = 0 then s.fabDone g j.pos []
  else
    let tier := x.dests.filter (fun a => match locOf a with
      | .tier _ _ => true
      | _ => false)
    let out := fun (a : Nat) => match locOf a with
      | .bad => true
      | .window _ _ => !s.moveEnd a
      | _ => false
    let ends : List (Nat × Nat) := (8, x.src) :: (if dfld j.desc 1 0 1 = 1 then [] else x.dests.map (fun a => (16, a)))
    let s' := forEach (ends.filter (fun p => out p.2)) (fun p s => s.coreAddrViol g 0x51 j.pos p.1 p.2) s
    let s0 := forEach tier (fun a s => s.viol .tierViolCnt 0 0x51 j.pos 16 a) s'
    let s1 := s0.viols' .prgIslViolCnt (g / 16) 0x51 j.pos x.viols
    if x.work then (s1.moveGo g j.pos x 0 x.parts).settleFab g j.pos else s1.fabDone g j.pos []

/-- MOVE (R331, R366): the fabric island takes the core's next move in hand, or goes on with one after a wait for a line. -/
def execMove (core : Nat) (s : State) : Host.Outcome State Fault Refusal :=
  .next (if !s.works core then s
    else match s.fabJob core 0x51 with
    | some j =>
      let x := s.moveRead core j.desc
      if j.sent || j.failed then s else (s.moveGo core j.pos x j.next (x.parts - j.next)).settleFab core j.pos
    | none =>
      let s1 := s.takeFab core 0x51
      match s1.fabJob core 0x51 with
      | some j => s1.moveStart core j
      | none => s)

/-! ## DCMP (R245, R331) -/

/-- Take a digest comparison in hand: the 32-byte result goes to the fabric island of the shard's owner. -/
def State.dcmpStart (s : State) (g : Nat) (j : FabJob) : State :=
  let dg := dfld j.desc 4 0 32
  let raw := dfld j.desc 8 0 64
  let a := s.adr g (raw % 2 ^ 56)
  let own := match locOf a with
    | .vault h _ | .stage h _ => addrPkg a == s.pkg && h == g
    | _ => false
  let ds := (groupAt s.img.dig false dg).map (fun x => x.dests s.img.dig)
  let rank := (ds.getD []).find? (fun p => s.rankAt p.1 == some (s.pkg, g))
  match rank, ((ds.bind List.head?).bind (fun p => s.rankAt p.1)) with
  | some (v, _), some (pk, c) =>
    if !own then (s.islViol (g / 16) 0x53 j.pos 8 raw).fabDone g j.pos []
    else match s.gateReads (fabUnit g 2) (s.linesOf a 32) with
    | (s1, none) => s1
    | (s1, some w) => (s1.jobRequest j ⟨0, pk, c / 16, ⟨0x0B, c % 16, j.tag + dg % 2 ^ 32 * 2 ^ 16,
        w.bytesAt a 32 ++ leBytes 8 v⟩⟩).updFabJob g j.pos (fun j => { j with sent := true })
  | _, _ => (s.islViol (g / 16) 0x53 j.pos 4 dg).fabDone g j.pos []

/-- DCMP (R245, R331): a digest-compare descriptor, or one that waits for its line. -/
def execDcmp (core : Nat) (s : State) : Host.Outcome State Fault Refusal :=
  .next (if !s.works core then s
    else match s.fabJob core 0x53 with
    | some j => if j.sent then s else s.dcmpStart core j
    | none =>
      let s1 := s.takeFab core 0x53
      match s1.fabJob core 0x53 with
      | some j => s1.dcmpStart core j
      | none => s)

/-! ## The hasp (R295 to R298) -/

/-- A hasp's flag as the core reads it: NO_FLUSH in force, host flag, its gateway, address, violations. -/
structure HaspRd where
  noFlush : Bool
  host : Bool
  gw : Nat
  addr : Nat
  value : Nat
  viols : List Viol
  deriving DecidableEq, Repr

def State.haspRead (s : State) (g d : Nat) : HaspRd :=
  let nf := dfld d 1 0 1 == 1
  let host := dfld d 1 1 1 == 1
  let g0 := dfld d 1 2 2
  let gws := s.img.gateways.map (fun p => p.2)
  let gw := if gws.contains g0 then g0 else gws.foldl min 4
  let raw := dfld d 8 0 64
  let a0 := raw / 8 * 8
  ⟨nf && s.expert 9, host, gw, if host then a0 else s.adr g (a0 % 2 ^ 56), dfld d 16 0 64,
    (if nf && !s.expert 9 then [⟨1, 1⟩] else []) ++ (if gw != g0 then [⟨1, g0⟩] else [])
      ++ (if raw % 8 = 0 then [] else [⟨8, raw⟩])⟩

/-- The hasp completes (R297 step 5): the signals of a host flag carry its gateway's bit. -/
def State.haspDone (s : State) (g pos : Nat) (gw : Option Nat) : State :=
  let s1 := match gw with
    | some w => s.pathOr g (2 ^ (w % 4))
    | none => s
  ((s1.updCore g (fun c => { c with hasp := none })).bump .synHaspCnt g 1).descDoneAt g pos []

/-- The gateway at a package, if any. -/
def State.gatewayAt (s : State) (p : Nat) : Option Nat := (s.img.gateways.find? (fun q => q.1 == p)).map (fun q => q.2)

/-- The gateway whose spool takes the flag after a torn flush (R298): the one that the flag itself goes through when its link is
down, else the lowest of those that are (DESIGN CHOICE, log entry 117). -/
def State.tornGw (s : State) (h : HaspRun) (x : HaspRd) : Option Nat :=
  let own := if x.host then some x.gw else match locOf x.addr with
    | .window _ _ | .ctrl _ => s.gatewayAt (addrPkg x.addr)
    | _ => none
  if h.torn.isEmpty then none
  else match own with
    | some w => some (if h.torn.contains w then w else h.torn.foldl min 4)
    | none => some (h.torn.foldl min 4)

/-- A torn flag that lies in no window joins the torn table: the spec gives its extent's window and offset no value (R382, log
entry 117). -/
def State.tornPost (s : State) (tag : Nat) : State :=
  if s.attached then s
  else (s.fresh 1).tornAdd
    ⟨Config.freeByte 14 s.freeIx 0 % 64, Config.freeByte 14 s.freeIx 1, 8, tag, true, false, true, false, false⟩

/-- A flag marked torn is held in the completion spool until the session is attached, and then goes to its place (R298, R381). -/
def State.spoolFlag (s : State) (dest : HeldTo) (body : List Nat) (tag : Nat) : State × WrRes :=
  if !s.attached ∧ 3 * 2 ^ 20 ≤ s.heldBytes then (s, .wait) else ((s.pushEntry dest body []).tornPost tag, .ok)

/-- A flag marked torn reaches the gateway whose flush was torn (R298, R381): a host flag that this gateway carries (`host`) is a host-bound
write, one of another gateway, whose windows alone judge it, is held in the spool; a completion post
makes its entry; any other domain flag is held in the spool and written into the domain when the session is attached again. -/
def State.tornFlag (s : State) (addr : Nat) (host : Option Nat) (mark : Bool) (flag : List Nat) (tag : Nat) : State × WrRes :=
  match host with
  | some gw =>
    if s.gateway ≠ some gw then s.spoolFlag (.hostFlag gw addr) (flag ++ leBytes 16 tag) tag
    else (match s.winFor addr 8 1 with
    | none => (s.winViol addr, .viol)
    | some w => s.hostBound w (addr - (s.winOf w).1) flag tag false)
  | none =>
    let body := match locOf addr with
      | .ctrl _ => lineBody flag (oneIf mark) 0
      | .window _ _ => flag
      | _ => flag ++ leBytes 8 tag
    let spool := s.spoolFlag (.domain addr) body tag
    if addrPkg addr ≠ s.pkg then spool
    else match locOf addr with
      | .window w b => s.hostBound w (b / 8 * 8) flag tag false
      | .ctrl off => (match regSlot (off / 8 * 8) with
        | some (.hostCqPost, _, k) => if s.postWaits then (s, .wait) else ((s.cqPost k (leNat flag) mark).tornPost tag, .ok)
        | _ => spool)
      | _ => spool

/-- A flag at an address that lies in no memory is dropped (R15, R254, R297). -/
def State.flagLost (s : State) (x : HaspRd) : Bool := !x.host && (match locOf x.addr with
  | .bad => true
  | .tier _ _ => true
  | .window _ _ => !s.moveEnd x.addr
  | _ => false)

/-- What a dropped flag counts. -/
def State.flagViols (s : State) (g pos a : Nat) : State :=
  match locOf a with
  | .bad => (s.viol .synViolCnt g 0x70 pos 8 a).coreAddrViol g 0x70 pos 8 a
  | .tier _ _ => (s.viol .synViolCnt g 0x70 pos 8 a).viol .tierViolCnt 0 0x70 pos 8 a
  | _ => s.coreAddrViol g 0x70 pos 8 a

/-- A domain flag in a host-window aperture is a host-bound write of that gateway, whose bit the hasp's core sets (R296, R297). -/
def State.flagPath (s : State) (g : Nat) (x : HaspRd) : State :=
  match x.host, locOf x.addr, s.gatewayAt (addrPkg x.addr) with
  | false, .window _ _, some gw => s.pathOr g (2 ^ (gw % 4))
  | _, _, _ => s

/-- The flag of a hasp is written (R297 step 4, R298). It carries the substitution mark that step 2 took (R373). -/
def State.haspFlag (s : State) (g : Nat) (h : HaspRun) : State :=
  let x := s.haspRead g h.desc
  let bytes := leBytes 8 x.value
  let tag := s.stepTag g
  let wait := s.updCore g (fun c => { c with hasp := some { h with written := true } })
  if s.flagLost x then (s.flagViols g h.pos x.addr).haspDone g h.pos none
  else match (s.tornGw h x).bind (fun w => s.img.gateways.find? (fun p => p.2 == w)) with
  | some (p, _) =>
    if p = s.pkg then
      (match (s.flagPath g x).tornFlag x.addr (if x.host then some x.gw else none) h.mark bytes tag with
      | (_, .wait) => s
      | (s1, _) => s1.haspDone g h.pos (if x.host then some x.gw else none))
    else (wait.flagPath g x).request (g / 16) (.flag g h.pos) p 0 ⟨3, g % 16, x.addr,
      bytes ++ leBytes 16 (tag + 2 ^ 16 * (1 + 2 * oneIf (!x.host) + 4 * oneIf h.mark + 8 * (x.gw % 4)))⟩ 0
  | none =>
    if x.host then
      match s.img.gateways.find? (fun p => p.2 == x.gw) with
      | none => (s.winViol x.addr).haspDone g h.pos none
      | some (p, _) =>
        if p = s.pkg then
          match s.winFor x.addr 8 1 with
          | none => (s.winViol x.addr).haspDone g h.pos none
          | some w => match s.hostBound w (x.addr - (s.winOf w).1) bytes tag false with
            | (s1, .ok) => s1.haspDone g h.pos (some x.gw)
            | (s1, .viol) => s1.haspDone g h.pos none
            | (_, .wait) => s
        else wait.request (g / 16) (.flag g h.pos) p 0 ⟨3, g % 16, x.addr, bytes ++ leBytes 16 tag⟩ 0
    else match locOf x.addr with
      | .window _ _ => (wait.flagPath g x).request (g / 16) (.flag g h.pos) (addrPkg x.addr) 0 ⟨3, g % 16, x.addr, bytes⟩ 0
      | .ctrl _ => wait.request (g / 16) (.flag g h.pos) (addrPkg x.addr) 0
          ⟨3, g % 16, x.addr, lineBody bytes (oneIf h.mark) 0⟩ 0
      | _ => wait.request (g / 16) (.flag g h.pos) (addrPkg x.addr) 0
          ⟨3, bitsOf x.addr 33 4, x.addr, bytes ++ leBytes 8 tag⟩ (addrDie x.addr)

/-- A flush of a hasp has completed; the last one lets it write its flag (R297 steps 3 and 4). With a flush that failed the hasp
writes nothing further (R332). -/
def State.haspFlushed (s : State) (g pos gw : Nat) (torn failed : Bool) : State :=
  match (s.core g).hasp with
  | none => s
  | some h =>
    if h.pos ≠ pos then s
    else
      let h1 := { h with
        flushes := h.flushes.filter (· != gw)
        torn := if torn then h.torn ++ [gw] else h.torn
        written := h.written || failed }
      let s1 := s.updCore g (fun c => { c with hasp := some h1 })
      if !h1.flushes.isEmpty then s1
      else if h1.written then s1.haspDone g pos none else s1.haspFlag g h1

/-- HASP (R295 to R298, R373): a hasp whose waits are satisfied sends its flushes and clears their path bits and SUBST_SEEN, whose
mark goes with its flag; one that waits for its gateway to accept the flag tries again. With NO_FLUSH it leaves the path set and the
mark as they are. -/
def execHasp (core : Nat) (s : State) : Host.Outcome State Fault Refusal :=
  .next (if !s.works core then s
    else match (s.core core).hasp with
    | some h => if h.flushes.isEmpty ∧ !h.written then s.haspFlag core h else s
    | none => match (s.core core).nextFor 0x70 with
      | none => s
      | some e =>
        let x := s.haspRead core e.desc
        let s1 := (s.takeEntry core e.pos).viols' .synViolCnt core 0x70 e.pos x.viols
        let set := s.rdF .synPathSet core 0 0 4
        let gws := if x.noFlush then []
          else (List.range 4).filter (fun w => set.testBit w && s.img.gateways.any (fun p => p.2 == w))
        let h : HaspRun := ⟨e.pos, gws, [], e.desc, (s.sigOf core 1 0 0).subst, false⟩
        let s2 := s1.updCore core (fun c => { c with hasp := some h })
        if gws.isEmpty then (if x.noFlush then s2 else s2.pathClear core).haspFlag core h
        else forEach gws (fun w s => s.sendFlush core e.pos w) (s2.pathClear core))

end Sys2Proof.Machine
end

