-- ==== Sys2Proof/Machine/Fabric.lean ====
section
/-! DEFINITION. Messages of the fabric at their endpoints, the ends of transactions, register relays, DMA reads (R245, R297,
R324 to R332, R385, R495, R498, R504). -/

namespace Sys2Proof.Machine

/-! ## The relay (R495, R498, R504) -/

/-- RESULT of a relay by NAK code (R498); 7 stands for a violation found before sending. -/
def relayResult (code : Nat) : Nat :=
  if code = 0 then 0 else if code = 4 then 1 else if code = 3 then 4 else if code = 7 then 3 else 2
/-- Completion byte of R504 by RESULT. -/
def vdmCode (r : Nat) : Nat := if r ≤ 1 then r else if r = 2 then 4 else 2

/-- Prefix of a vendor-defined message: type 0x7E and the vendor ID, which the spec does not give (R503). -/
def vdmHead : List Nat := [0x7E, Config.freeByte 9 0 0 % 256, Config.freeByte 9 0 1 % 256]
/-- Answer a vendor-defined command (R504). -/
def State.vdmAnswer (s : State) (b cmd code : Nat) (payload : List Nat) : State :=
  s.send (.mctp b (vdmHead ++ [cmd, code] ++ payload))

/-- A register access on behalf of a requester (0 the relay window, 1 and 2 MCTP over SMBus and PCIe) has ended. -/
def State.relayEnd (s : State) (who code data : Nat) : State :=
  match s.hub.relays.find? (fun r => r.1 == who) with
  | none => s
  | some (_, _, w) =>
    let r := relayResult code
    let s1 := s.updHub (fun h => { h with relays := h.relays.filter (fun x => x.1 != who) })
    if who = 0 then
      ((if !w ∧ r = 0 then s1.wr .hubRelayData 0 0 data else s1).wr .hubRelayStatus 0 0 (2 * r))
    else s1.vdmAnswer (who - 1) (if w then 2 else 1) (vdmCode r) (if w then [] else leBytes 8 (if r = 0 then data else 0))

/-- Offset of HUB_RELAY_CTL. -/
def relayCtl : Nat := Reg.offset .hubRelayCtl 0 0
def State.relayBusy (s : State) : Bool := (s.rd .hubRelayStatus 0 0).testBit 0

/-- Does an address lie in control-register space with reserved bits set (R489). -/
def badCtrl (a : Nat) : Bool := decide (addrSpace a = 3) && decide (locOf a = .bad)
/-- A register access from the domain clears bits [2:0] of its address and counts them (R495, R511). -/
def State.slotAddr (s : State) (a : Nat) : State := if a % 8 = 0 then s else s.hubAddrViol a

/-- Start an access for a requester: an address of this package is served locally, over the domain or the MCTP column of R496;
another package is reached by a transaction on class 0, once an image is sealed. An address outside control-register space ends
VIOL; a reserved one of that space reads zero and discards a write (R489). A reserved address, and one with bits [2:0] set, which are
cleared, counts in HUB_ADDR_VIOL_CNT (R15, R495, R511). `n` bounds accesses that start a relay. -/
def State.relayRun (s : State) (who a : Nat) (w : Bool) (v : Nat) : Nat → State
  | 0 => s
  | n + 1 =>
    let path := if who = 0 then 2 else 1
    let s1 := s.updHub (fun h => { h with relays := h.relays ++ [(who, a, w)] })
    let s0 := if who = 0 then s1.wr .hubRelayStatus 0 0 1 else s1
    let s2 := if locOf a = .bad ∨ ((ctrlOff a).isSome ∧ a % 8 ≠ 0) then s0.hubAddrViol a else s0
    match ctrlOff a with
    | none => s2.relayEnd who (if badCtrl a then 0 else 7) 0
    | some off =>
      if addrPkg a = s.pkg then
        (if w then
          (if off / 8 * 8 = relayCtl then
            (if !v.testBit 0 then s2
            else if s2.relayBusy then s2.hostViol 0xFF v
            else State.relayRun s2 0 (s2.rd .hubRelayAddr 0 0) (v.testBit 1) (s2.rd .hubRelayData 0 0) n).relayEnd who 0 0
          else match s2.writeReg path (off / 8 * 8) 8 v with
            | (s3, ok) => s3.relayEnd who (if ok then 0 else 4) 0)
        else match s2.readReg path (off / 8 * 8) 8 with
          | (s3, some x) => s3.relayEnd who 0 x
          | (s3, none) => s3.relayEnd who 4 0)
      else if !s.isSealed then s2.relayEnd who 5 0
      else if who != 0 && ((regSlot (off / 8 * 8)).map (fun x => !pathOk 1 x.1 w)).getD false then (if w then s2.regReject (off / 8 * 8) else s2).relayEnd who 4 0
      else s2.request 0 (.relay who) (addrPkg a) 0 ⟨if w then 3 else 1, 0, a / 8 * 8, if w then slotLine v else leBytes 8 1⟩ 0

/-- A write of HUB_RELAY_CTL (R498). -/
def State.relayGo (s : State) (v : Nat) : State :=
  if !v.testBit 0 then s
  else if s.relayBusy then s.hostViol 0xFF v
  else s.relayRun 0 (s.rd .hubRelayAddr 0 0) (v.testBit 1) (s.rd .hubRelayData 0 0) 2

/-- A write of the register map over a path, the relay's control register among them. -/
def State.regWrite (s : State) (path off bytes v : Nat) : State × Bool :=
  if off = relayCtl ∧ (bytes = 4 ∨ bytes = 8) then (s.relayGo v, true) else s.writeReg path off bytes v

/-! ## Ends of transactions (R325, R332) -/

/-- PRG_UNREACHABLE (R325, R517): of class PACKAGE when the package has been declared lost. -/
def State.unreachable (s : State) (k : Nat) (t : Txn) : State :=
  let d := k / 2 ^ 24
  let core := match t.owner with
    | .job c _ _ => some c
    | .flush c _ _ => some c
    | .flag c _ => some c
    | _ => none
  s.queueAs .prgUnreachable (if s.img.lost.contains t.pkg then 4 else 3) false (128 + d) core
    (.prg (t.kw / 4096) 0 (t.kw % 4096) 0 t.pkg 0 (k % 2 ^ 24 + t.gen % 256 * 2 ^ 24))

/-- A job of the gateway has an answer; a failure ends it with HOST_ABORT (R369, R374). -/
def State.hostAnswer (s : State) (id status : Nat) : State :=
  let s1 := if status = 0 then s
    else (s.updJob id (fun j => { j with status := if j.status = 0 then 0x43 else j.status })).updStep
      (fun j => if j.id = id then { j with status := if j.status = 0 then 0x43 else j.status } else j)
  (s1.settleCopy id).stepGo 8

/-- Lines of a COPY_OUT have arrived from another package: `false` when the gateway does not accept them yet. -/
def State.hostLines (s : State) (id : Nat) (t : Txn) (body : List Nat) : State × Bool :=
  match s.hostJob id with
  | none => (s, true)
  | some j =>
    let ls := bodyLines body
    match s.devAddr (dfld j.raw 16 0 64) (dfld j.raw 30 0 16) (dfld j.raw 1 0 1 == 1) with
    | none => (s, true)
    | some a => match s.copyOutPut j ((t.msg.addr - a) / 128) (ls.flatMap (fun l => l.1)) ((ls.map (fun l => l.2.1)).headD 0) with
      | (s1, true) => (s1.updJob id (fun j => { j with stored := j.stored + ls.length }), true)
      | (_, false) => (s, false)

/-- Has a read of host memory failed: NAK 0x05 for an address in a host window (R385). -/
def hostRead5 (a status : Nat) : Bool := decide (status = 5) && (match locOf a with
  | .window _ _ => true
  | _ => false)

/-- A transaction of a descriptor has ended with a status; nonzero: the descriptor writes nothing further (R332). A read of host
memory that failed gives lines of zeros with POISON first (R385). -/
def State.jobEnd (s : State) (g pos part : Nat) (status : Nat) (body : List Nat) : State :=
  match s.fabJobAt g pos with
  | none => s
  | some j =>
    let op := bitsOf j.desc 0 8
    let s1 :=
      if status ≠ 0 then
        (let x := s.moveRead g j.desc
        let lost := op == 0x51 && !j.failed && decide (readMark ≤ part) && hostRead5 x.src status
        let s0 := if lost then s.moveOut g pos x (part - readMark)
            (List.replicate (x.partLines (part - readMark)) (List.replicate 128 0, j.tag, true)) else s
        (s0.islViol (g / 16) op pos 0xFF status).updFabJob g pos (fun j => { j with failed := true, todo := [] }))
      else if op = 0x51 ∧ !j.failed then
        let x := s.moveRead g j.desc
        if readMark ≤ part then
          let p := part - readMark
          s.moveOut g pos x p (((bodyLines body).take (x.partLines p)).map (fun l => (l.1, j.tag, l.2.2)))
        else s.moveAck g pos x (part / 2 ^ 25) (x.partLines (part % 2 ^ 25))
      else s
    (s1.pumpTodo g 129).settleFab g pos

/-- A transaction that no descriptor issued: its failure names none in PRG_VIOL_CNT (R332). -/
def TxnFor.noDescriptor : TxnFor → Bool
  | .job _ _ _ | .dest _ _ _ | .flush _ _ _ | .flag _ _ => false
  | .node _ _ | .norm | .sig | .relay _ | .host _ | .ckpt _ _ | .ckptRead _ _ | .repair _ _ _ | .post => true

/-- A transaction has ended: with its response, or with a status (R325, R332). -/
def State.txnEnd (s : State) (k : Nat) (t : Txn) (status : Nat) (body : List Nat) : State :=
  let d := k / 2 ^ 24
  let s0 := s.setTxn k none
  let s1 := if status = 0 ∨ !t.owner.noDescriptor then s0 else s0.islViol d 0xFF 0xFFFFFFFF 0xFF status
  match t.owner with
  | .job g pos part => s1.jobEnd g pos part status body
  | .node _ _ | .norm | .sig | .post => s1
  | .dest gi tag ix => if status = 0 then s1.rootStored d gi tag ix else s1.islViol d 0x50 0xFFFFFFFF 0xFF status
  | .flush g pos gw =>
    (if status = 0 then s1 else s1.islViol d 0x70 pos 0xFF status).haspFlushed g pos gw (t.msg.addr == 1) (status != 0)
  | .flag g pos =>
    let gw := (s1.core g).hasp.bind (fun h =>
      let x := s1.haspRead g h.desc
      if x.host then some x.gw else none)
    (if status = 0 then s1 else s1.islViol d 0x70 pos 0xFF status).haspDone g pos gw
  | .relay who => s1.relayEnd who status (leNat (body.take 8))
  | .host id => s1.hostAnswer id status
  | .ckpt v p => if status = 0 then s1.ckptAck v p else s1.request d t.owner t.pkg t.cls t.msg 0
  | .ckptRead v l => if status = 0 then s1.ckptData v l body else s1.ckptFail
  | .repair g l src => if status = 0 then s1.repairData g l src body else s1.repairFail g l src

/-- Reissue a request with the next generation on the route as it stands; with no route it ends UNREACHABLE (R325). Within the
package only a line request is ever refused: it goes again to the die that its address names. -/
def State.reissue (s : State) (k : Nat) (t : Txn) : State :=
  if t.pkg = s.pkg then s.sendTxn k (addrDie t.msg.addr) { t with gen := t.gen + 1 }
  else if (s.ownKw t).isNone then (s.unreachable k t).txnEnd k t 5 []
  else s.sendTxn k 0 { t with gen := t.gen + 1 }

/-! ## Messages -/

/-- The oldest message of a source when it is a request of a kind: refused when its keyway may not carry it (R318, R332). -/
def State.onRequest (s : State) (src kind bit : Nat) (f : InMsg → State → State) : State :=
  match s.nextMsg src kind with
  | none => s
  | some i => if s.allowed src [bit] then f i s else (s.popMsg src).refuseMsg i 4

/-- The oldest message of a source when it is a response of a kind: the first for its transaction is taken whatever its
generation, any other is discarded and counted (R324, R325, R332). -/
def State.onResponse (s : State) (src kind : Nat) (f : Nat → Txn → InMsg → State → State) : State :=
  match s.nextMsg src kind with
  | none => s
  | some i =>
    let drop := fun (s : State) =>
      let s1 := (s.popMsg src).bump .prgDupDiscardCnt i.die 1
      if localSrc 0 ≤ src then s1 else s1.peerViol (src / 4096) (src % 4096) 11
    match s.txn (txnKey i.die i.txn) with
    | some t => if kind = 0x0F ∨ t.msg.kind + 1 = kind then f (txnKey i.die i.txn) t i s else drop s
    | none => drop s

/-- An acknowledgement completes its transaction. -/
def State.onAck (s : State) (src kind : Nat) : State :=
  s.onResponse src kind (fun k t _ s => (s.popMsg src).txnEnd k t 0 [])

/-- A transfer towards a core that is going dark is refused and goes back to its sender, which sends it again (R30, R394): the
refused status is NAK 0x06, the only one of R332 after which a requester reissues (DESIGN CHOICE, log entry 118). -/
def State.handBack (s : State) (src : Nat) (i : InMsg) : State := (s.popMsg src).reply i ⟨0x0F, i.core, i.addr, leBytes 8 6⟩

/-- READ_REQ (R173, R324, R366, R495): the lines of vault or stage memory, a control-register slot, or host memory through the
gateway. -/
def State.readReq (s : State) (src : Nat) (i : InMsg) : State :=
  let n := leNat (i.body.take 8)
  let a := i.addr / 128 * 128
  let answer := fun (s : State) (b : List Nat) => (s.popMsg src).reply i ⟨2, i.core, i.addr, b⟩
  if addrPkg i.addr ≠ s.pkg then (s.popMsg src).refuseMsg i 3
  else match locOf i.addr with
  | .ctrl off => (match (s.slotAddr i.addr).readReg 2 (off / 8 * 8) 8 with
    | (s1, some v) => answer s1 (slotLine v)
    | (s1, none) => (s1.popMsg src).reply i ⟨0x0F, i.core, i.addr, leBytes 8 4⟩)
  | .vault _ _ | .stage _ _ =>
    if n = 0 ∨ 32 < n ∨ destCore (a + 128 * (n - 1)) ≠ destCore a then (s.popMsg src).refuseMsg i 3
    else if s.fencedOff a ∧ addrSpace a = 1 then s.handBack src i
    else match s.gateReads (msgUnit i.die i.src) (s.linesOf a (128 * n)) with
      | (s1, none) => s1
      | (s1, some v) => answer s1 ((List.range n).flatMap (fun k => match v.linesOf (a + 128 * k) 128 with
        | (g, l) :: _ =>
          let r := v.rawLine g l
          if r.poison then lineBody (List.replicate 128 0) r.tag 4 else lineBody r.data r.tag (r.flags % 4)
        | [] => lineBody (v.lineSpan (a + 128 * k) 0 128) 0 0))
  | .window w b =>
    if s.gateway.isNone then (s.hubAddrViol i.addr).popMsg src |>.refuseMsg i 3
    else if s.attached then
      (if s.winOk w (b / 128 * 128) (128 * n) 2 ∧ 0 < n ∧ n ≤ 32 then
        (s.popMsg src).hostRead (.rsp i.src i.txn i.gen) ((s.winOf w).1 + b / 128 * 128) (128 * n) (16 * i.die + i.core) 0
      else ((s.winViol i.addr).popMsg src).reply i ⟨0x0F, i.core, i.addr, leBytes 8 4⟩)
    else s
  | _ => if badCtrl i.addr then answer (s.hubAddrViol i.addr) (slotLine 0) else (s.popMsg src).refuseMsg i 3

/-- READ_REQ: the oldest message of a source is a line read. -/
def execReadReq (src : Nat) (s : State) : Host.Outcome State Fault Refusal :=
  .next (s.onRequest src 1 2 (fun i s => s.readReq src i))

/-- Lines of a message cannot be stored yet: it stays where it is, and counts once for what holds them (R177, R203, R261, R408). -/
def State.holdMsg (s : State) (src : Nat) (i : InMsg) (a n : Nat) : State := match s.waitCounter a n with
  | some (r, k) => if 16 ≤ i.core then s
    else (s.bump r k 1).updPrg (fun p => { p with
      inbox := updFirst (fun m => m.src == src) (fun m => { m with core := m.core + 16 }) p.inbox })
  | none => s

/-- READ_RSP (R324, R325): the lines or the slot of the first response. Lines of a COPY_OUT wait until the gateway accepts
them, those of a repair or a checkpoint until nothing holds the lines where they go. -/
def execReadRsp (src : Nat) (s : State) : Host.Outcome State Fault Refusal :=
  .next (s.onResponse src 2 (fun k t i s => match t.owner with
    | .host id => (match s.hostLines id t i.body with
      | (s1, true) => (s1.popMsg src).txnEnd k t 0 i.body
      | (_, false) => s)
    | .repair g l _ => if s.canStore (vaultAddr s.pkg g (128 * l)) 8 then (s.popMsg src).txnEnd k t 0 i.body
        else s.holdMsg src i (vaultAddr s.pkg g (128 * l)) 8
    | .ckptRead v l => if s.canStore (vaultAddr s.pkg (s.home v) (128 * l)) 32 then (s.popMsg src).txnEnd k t 0 i.body
        else s.holdMsg src i (vaultAddr s.pkg (s.home v) (128 * l)) 32
    | _ => (s.popMsg src).txnEnd k t 0 i.body))

/-- A host-bound write at its gateway (R366, R367): accepted, refused, or still waiting. -/
def State.bound (s : State) (src : Nat) (i : InMsg) (w off : Nat) (bytes : List Nat) (tag : Nat) (data : Bool) : State :=
  match s.hostBound w off bytes tag data with
  | (s1, .ok) => (s1.popMsg src).reply i ⟨4, i.core, i.addr, []⟩
  | (s1, .viol) => (s1.popMsg src).reply i ⟨0x0F, i.core, i.addr, leBytes 8 4⟩
  | (_, .wait) => s

/-- WRITE (R167, R297, R324, R325, R366, R372, R495): lines for vault or stage memory are stored with their tags and POISON flags once
nothing holds them, a slot is written, or a host-bound write is accepted; one into space 2 is discarded and counted (R254).
Bodies of 8, 16 and 24 bytes are hasp flags. -/
def State.writeReq (s : State) (src : Nat) (i : InMsg) : State :=
  let ack := fun (s : State) => (s.popMsg src).reply i ⟨4, i.core, i.addr, []⟩
  let nak := fun (s : State) (c : Nat) => (s.popMsg src).reply i ⟨0x0F, i.core, i.addr, leBytes 8 c⟩
  let ls := bodyLines i.body
  let flag := i.body.take 8
  if i.body.length = 24 then
    (let m := i.body.getD 10 0
    if s.gateway.isNone then (s.popMsg src).refuseMsg i 3
    else if m.testBit 0 then match s.tornFlag i.addr (if m.testBit 1 then none else some (bitsOf m 3 2)) (m.testBit 2) flag (leNat ((i.body.drop 8).take 2)) with
      | (s1, .ok) => ack s1
      | (s1, .viol) => nak s1 4
      | (_, .wait) => s
    else match s.winFor i.addr 8 1 with
    | some w => s.bound src i w (i.addr - (s.winOf w).1) flag (leNat ((i.body.drop 8).take 2)) false
    | none => nak (s.winViol i.addr) 4)
  else if addrPkg i.addr ≠ s.pkg then (s.popMsg src).refuseMsg i 3
  else if s.fencedOff i.addr then s.handBack src i
  else match locOf i.addr with
  | .ctrl off =>
    let v := leNat flag
    let off8 := off / 8 * 8
    let s0 := s.slotAddr i.addr
    (match regSlot off8 with
    | some (.hostCqPost, _, k) => if s.postWaits then s else ack (if s.gateway.isSome then s0.cqPost k v ((bodyLine i.body 0).2.1.testBit 0) else s0)
    | _ => match s0.regWrite 2 off8 8 v with
      | (s1, true) => ack s1
      | (s1, false) => nak s1 4)
  | .vault g b =>
    if i.body.length = 16 then
      (if s.canStore (i.addr / 128 * 128) 1 then
        ack (s.vltRequest (s.home g) ⟨128 + i.die, b / 128, true, b % 128 / 8 * 8, leNat ((i.body.drop 8).take 2), flag, none,
          false⟩ [])
      else s)
    else if ls.isEmpty ∨ 32 < ls.length ∨ destCore (i.addr / 128 * 128 + 128 * (ls.length - 1)) ≠ destCore i.addr then
      (s.popMsg src).refuseMsg i 3
    else if s.canStore (i.addr / 128 * 128) ls.length then ack (s.storeLines (i.addr / 128 * 128) ls)
    else s.holdMsg src i (i.addr / 128 * 128) ls.length
  | .stage g b =>
    if i.body.length = 16 then (if s.canStore i.addr 0 then ack (s.putStg (s.home g) (b / 8 * 8) flag) else s)
    else if ls.isEmpty ∨ 32 < ls.length ∨ destCore (i.addr / 128 * 128 + 128 * (ls.length - 1)) ≠ destCore i.addr then
      (s.popMsg src).refuseMsg i 3
    else if s.canStore i.addr 0 then ack (s.storeLines (i.addr / 128 * 128) ls) else s
  | .window w b =>
    if s.gateway.isNone then (s.hubAddrViol i.addr).popMsg src |>.refuseMsg i 3
    else if i.body.length = 8 then s.bound src i w (b / 8 * 8) flag 0 false
    else s.bound src i w (b / 128 * 128) (ls.flatMap (fun l => l.1)) ((ls.head?.map (fun l => l.2.1)).getD 0) true
  | .tier _ _ => nak (s.tierViol 0xFF 0xFFFFFFFF 0xFF i.addr) 4
  | _ => if badCtrl i.addr then ack (s.hubAddrViol i.addr) else (s.popMsg src).refuseMsg i 3

/-- WRITE: the oldest message of a source is a write. -/
def execWrite (src : Nat) (s : State) : Host.Outcome State Fault Refusal :=
  .next (s.onRequest src 3 3 (fun i s => s.writeReq src i))

/-- WRITE_ACK (R325). -/
def execWriteAck (src : Nat) (s : State) : Host.Outcome State Fault Refusal := .next (s.onAck src 4)

/-- A signal message (R284, R296, R324, R373): applied unless its serial is not above the keyway's last. -/
def State.signalMsg (s : State) (src : Nat) (i : InMsg) : State :=
  let f := leNat (i.body.take 8)
  let n := leNat ((i.body.drop 8).take 4)
  let carry := i.body.getD 12 0
  let k := s.streamKw src
  let old := decide (src < localSrc 0) && decide (n ≤ ((s.kw k).map (fun q => q.sigRx)).getD 0)
  let op := bitsOf f 0 3
  if op ≠ 1 ∧ op ≠ 2 then (s.popMsg src).refuseMsg i 3
  else
    let s1 := if old then s.bump .prgDupDiscardCnt i.die 1
      else
        let s2 := if src < localSrc 0 then s.updKw k (fun q => { q with sigRx := n }) else s
        s2.deliverSig (16 * i.die + i.core % 16) ⟨op, bitsOf f 8 8, min (max (bitsOf f 32 21) 1) (2 ^ 20), carry % 16,
          carry.testBit 4, if src < localSrc 0 then 2 ^ 10 + k else 128 + (src - localSrc 0)⟩
    (s1.popMsg src).reply i ⟨6, i.core, i.addr, []⟩

/-- SIGNAL: the oldest message of a source is a signal. -/
def execSignal (src : Nat) (s : State) : Host.Outcome State Fault Refusal :=
  .next (s.onRequest src 5 0 (fun i s => s.signalMsg src i))

/-- SIG_ACK (R324). -/
def execSigAck (src : Nat) (s : State) : Host.Outcome State Fault Refusal := .next (s.onAck src 6)

/-! ### Reductions, digests, norms -/

/-- A chunk reaches an island (R328, R331): a repeat is discarded and acknowledged again. -/
def State.redPart (s : State) (src : Nat) (i : InMsg) (rdesc : Option Nat) (diffs : Nat) : State :=
  let tag := bitsOf i.addr 0 16
  let gi := bitsOf i.addr 16 16
  let key := (gi, tag, bitsOf i.addr 32 4, bitsOf i.addr 36 13, bitsOf i.addr 49 15)
  let ack := fun (s : State) => (s.popMsg src).reply i ⟨8, i.core, i.addr, []⟩
  match s.redGroup gi with
  | none => (s.popMsg src).refuseMsg i 3
  | some g =>
    if s.prg.accepted.contains key then ack (s.bump .prgDupDiscardCnt i.die 1)
    else
      let near := fun (t : Nat) => decide ((tag + (2 ^ 16 - t)) % 2 ^ 16 < 2 ^ 15)
      let s1 := s.updPrg (fun p => { p with accepted := p.accepted.filter (fun e => e.1 != gi || near e.2.1) ++ [key] })
      let c := i.core.testBit 0
      ack (s1.redValue i.die gi tag key.2.2.1 key.2.2.2.1 key.2.2.2.2 g c (redParse c (chunkElems g key.2.2.2.2) i.body)
        rdesc diffs)

/-- RED_PART (R327 to R331): the oldest message of a source is a chunk. `desc` is the descriptor of the lowest-ranked contributor
when it stands in another package, with its schedule-queue position above bit 512; `diffs` counts contributors of other
packages whose fields differ from it. -/
def execRedPart (src : Nat) (desc : Option Nat) (diffs : Nat) (s : State) : Host.Outcome State Fault Refusal :=
  .next (s.onRequest src 7 1 (fun i s => s.redPart src i desc diffs))

/-- RED_ACK (R324, R326). -/
def execRedAck (src : Nat) (s : State) : Host.Outcome State Fault Refusal := .next (s.onAck src 8)

/-- FLUSH_RSP (R297, R298): a flush of a hasp has completed; ADDR 1 says TORN. -/
def execFlushRsp (src : Nat) (s : State) : Host.Outcome State Fault Refusal :=
  .next (s.onResponse src 0x0A (fun k t i s =>
    (s.popMsg src).txnEnd k { t with msg := { t.msg with addr := i.addr } } 0 []))

/-- The results of a group are all there (R245): equal, or a record of the hub that names the shard (R515). -/
def State.digestDone (s : State) (dg : Nat) (g : Group) : State :=
  let ds := g.dests s.img.dig
  let rs := (s.prg.digests.filter (fun e => e.1 == dg)).map (fun e => (e.2.2.1, e.2.2.2))
  let own := ((ds.head?).bind (fun p => s.rankAt p.1)).map (fun p => p.2)
  match own, ds.head? with
  | some c, some (v0, _) =>
    let r0 := ((rs.find? (fun r => r.1 == v0)).map (fun r => r.2)).getD []
    let others := rs.filter (fun r => r.2 != r0)
    if others.isEmpty then s.bump .coreDigestCnt (s.home c) 1
    else
      let mask := ((ds.zip (List.range ds.length)).filter (fun p => others.any (fun r => r.1 == p.1.1))).foldl
        (fun m p => m + 2 ^ p.2) 0
      let word := fun (r : Nat × List Nat) => r.1 % 2 ^ 16 + leNat (r.2.take 4) * 2 ^ 16
      (s.bump .coreDigestMismatchCnt (s.home c) 1).queue .trnDigestMismatch hubIsland none
        (.gen mask rs.length 0 ((s.digestShard dg).getD 0) (word (v0, r0)) (word (others.headD (0, []))))
  | _, _ => s

/-- A digest result reaches the owner's island (R245, R324): compared once all have arrived. -/
def State.digestMsg (s : State) (src : Nat) (i : InMsg) : State :=
  let tag := bitsOf i.addr 0 16
  let dg := bitsOf i.addr 16 32
  let rank := leNat ((i.body.drop 32).take 8)
  let ack := fun (s : State) => (s.popMsg src).reply i ⟨0x0C, i.core, i.addr, []⟩
  match groupAt s.img.dig false dg with
  | none => (s.popMsg src).refuseMsg i 3
  | some g =>
    let later := fun (t : Nat) => decide (t ≠ tag) && decide ((t + (2 ^ 16 - tag)) % 2 ^ 16 < 2 ^ 15)
    if s.prg.digests.any (fun e => e.1 == dg && ((e.2.1 == tag && e.2.2.1 == rank) || later e.2.1)) then
      ack (s.bump .prgDupDiscardCnt i.die 1)
    else
      let s1 := s.updPrg (fun p => { p with
        digests := p.digests.filter (fun e => e.1 != dg || e.2.1 == tag) ++ [(dg, tag, rank, i.body.take 32)] })
      let n := (s1.prg.digests.filter (fun e => e.1 == dg)).length
      ack (if n = g.destN then s1.digestDone dg g else s1)

/-- DIGEST_MESSAGE: the oldest message of a source is a digest result. -/
def execDigestMessage (src : Nat) (s : State) : Host.Outcome State Fault Refusal :=
  .next (s.onRequest src 0x0B 1 (fun i s => s.digestMsg src i))

/-- DIGEST_ACK (R324, R331): completes DCMP. -/
def execDigestAck (src : Nat) (s : State) : Host.Outcome State Fault Refusal := .next (s.onAck src 0x0C)

/-- NORM_MESSAGE (R230, R330): n2 reaches a core, which computes its clip factor and signals NORM_TMB. -/
def execNormMessage (src : Nat) (s : State) : Host.Outcome State Fault Refusal :=
  .next (s.onRequest src 0x0D 1 (fun i s =>
    ((s.normArrive (s.home (16 * i.die + i.core % 16)) (leNat (i.body.take 4)) (i.body.getD 4 0)).popMsg src).reply i
      ⟨0x0E, i.core, i.addr, []⟩))

/-- NORM_ACK (R324). -/
def execNormAck (src : Nat) (s : State) : Host.Outcome State Fault Refusal := .next (s.onAck src 0x0E)

/-! ### Refusals and timers -/

/-- A refusal of a transaction (R332): RESET reissues it, any other code completes it with that status. -/
def State.nakEnd (s : State) (k : Nat) (t : Txn) (code : Nat) : State :=
  if code = 6 then s.reissue k t
  else (if code = 5 ∧ !hostRead5 t.msg.addr code then s.unreachable k t else s).txnEnd k t code []

/-- NAK_MESSAGE (R332): the oldest message of a source is a NAK. -/
def execNakMessage (src : Nat) (s : State) : Host.Outcome State Fault Refusal :=
  .next (s.onResponse src 0x0F (fun k t i s => (s.popMsg src).nakEnd k t (leNat (i.body.take 8))))

/-- An event is pending on the route of a transaction at this package (R325). -/
def State.routeBusy (s : State) (t : Txn) : Bool := match s.ownKw t with
  | some q => (match s.kw q with
    | some w =>
      let l := s.link (s.kwLink q w)
      l.inEpisode
    | none => false)
  | none => false

/-- TXN_TIMEOUT (R325): the timer of a transaction expires. With an event pending on its route the requester waits for the
outcome; else it reissues once, and a second expiry, or the lack of a route, completes the transaction UNREACHABLE. A message
within the package is never lost. -/
def execTxnTimeout (die txn : Nat) (s : State) : Host.Outcome State Fault Refusal :=
  let k := txnKey (die % 8) txn
  .next (match s.txn k with
    | none => s
    | some t =>
      if t.pkg = s.pkg then s
      else if s.routeBusy t then
        (if t.waits then s else (s.bump .prgTxnTimeoutCnt (die % 8) 1).setTxn k (some { t with waits := true }))
      else
        let s1 := s.bump .prgTxnTimeoutCnt (die % 8) 1
        if t.expired then (s1.unreachable k t).txnEnd k t 5 [] else s1.reissue k { t with expired := true })

/-! ## DMA reads (R385) -/

/-- A read of host memory for a remote or local MOVE has ended: its lines go back, or NAK 0x05. -/
def State.rspDone (s : State) (r : HostRd) (src txn gen : Nat) (data : Option (List Nat)) : State :=
  let s1 := s.updHost (fun h => { h with reads := h.reads.filter (fun x => x.serial != r.serial) })
  let i : InMsg := ⟨src, r.dst / 16, 1, r.dst % 16, txn, gen, 0, []⟩
  match data with
  | some bs => s1.reply i ⟨2, i.core, 0, (lines128 32 bs).flatMap (fun l => lineBody l 0 0)⟩
  | none => s1.reply i ⟨0x0F, i.core, 0, leBytes 8 5⟩

/-- DMA_READ_COMPLETION (R385): a completion of a gateway's read arrives with data (`status` 0), or ends it with UR (1), CA (2) or
poison (3). A read for a MOVE takes its lines whole. -/
def execDmaReadCompletion (serial status : Nat) (data : List Nat) (s : State) : Host.Outcome State Fault Refusal :=
  .next (if s.session = 1 then s
    else match s.hostRd serial with
    | none => s
    | some r =>
      let move := match r.kind with
        | .rsp _ _ _ => true
        | _ => false
      let s1 := if status = 0 then s else s.dmaErr (if move then 8 else if status = 3 then 6 else 5)
      match r.kind with
      | .flush _ _ _ _ | .attach | .probe => s1.readDone r
      | .rsp src txn gen =>
        if status ≠ 0 then s1.rspDone r src txn gen none
        else if data.length < r.left then s else s1.rspDone r src txn gen (some (data.take r.left))
      | _ => if status = 0 then s1.readData r data else s1.readFail r (if status = 3 then 0x44 else 0x43))

/-- DMA_READ_TIMEOUT (R385): a read is reissued once; then what it serves ends with HOST_TIMEOUT, a MOVE with NAK 0x05. A flush or
probe read is issued again. While DETACHED nothing goes to the link (R381). -/
def execDmaReadTimeout (serial : Nat) (s : State) : Host.Outcome State Fault Refusal :=
  .next (match s.hostRd serial with
    | none => s
    | some r =>
      let s1 := s.dmaErr 7
      let tried := s1.updHost (fun h => { h with
        reads := h.reads.map (fun x => if x.serial = serial then { x with retried := true } else x) })
      let again := if s.session = 1 then tried else tried.send (.pcieRead r.addr r.left r.serial)
      if !r.retried then again
      else match r.kind with
      | .flush _ _ _ _ | .attach | .probe => again
      | .rsp src txn gen => s1.rspDone r src txn gen none
      | _ => s1.readFail r 0x45)

end Sys2Proof.Machine
end

