-- ==== Sys2Proof/Machine/Links.lean ====
section
/-! DEFINITION. Lanes, links, replay, credits, keyway resets and the control plane (R309 to R323, R332, R333). -/

namespace Sys2Proof.Machine

def allLanes : List Nat := List.range 8

/-! ## Loss and return of a link (R310, R317, R321, R323) -/

/-- Put the sequenced flits that are not acknowledged back before what their keyways hold, with the same KSEQ (R323). -/
def State.requeue (s : State) (port : Nat) : List Flit → State
  | [] => s
  | f :: fs =>
    let s1 := State.requeue s port fs
    s1.updKw (kwKey port f.kw) (fun q =>
      if f.ctl then { q with ctlq := f.payload :: q.ctlq } else { q with txq := (f.kseq, f.payload) :: q.txq })

/-- The link form of R321 at a link's loss: free credits are RX_CREDITS less what is occupied, the credits held are dropped. -/
def State.linkCredits (s : State) (l : Nat) : State :=
  forEach (s.linkKws l) (fun k s => s.updKw k (fun q => { q with free := q.rx - q.occ, out := 0, pend := 0, held := 0 })) s

/-- Move a route from a keyway whose link is lost to its first alternate whose link is up, for traffic returns to the primary only at a
quiesce point; the flits that wait go with it, and requests that met an expiry in the event are reissued there. With none up, the keyway's
transactions end UNREACHABLE and its stream is reset (R323, R325). -/
def State.reroute (s : State) (r k : Nat) : State :=
  let ks := SMap.get (fun _ => []) s.prg.routes r
  let mine := s.prg.txns.filter (fun e => match e.2 with
    | some t => t.kw == k
    | none => false)
  match (List.range ks.length).find? (fun i => i != 0 && s.kwUp (ks.getD i 0)) with
  | some i =>
    let k2 := ks.getD i 0
    let fl := ((s.kw k).map (fun q => q.txq)).getD []
    let s1 := (s.updKw k (fun q => { q with txq := [] })).updKw k2 (fun q => { q with txq := q.txq ++ fl })
    let s2 := s1.updPrg (fun p => { p with
      cur := SMap.set (fun _ => 0) p.cur r i
      txns := p.txns.map (fun e => (e.1, e.2.map (fun t => if t.kw = k then { t with kw := k2 } else t))) })
    let s3 := forEach mine (fun e s => match e.2 with
      | some t => if t.waits then s.reissue e.1 { t with kw := k2, waits := false } else s
      | none => s) s2
    s3.pump k2
  | none =>
    let s1 := forEach mine (fun e s => match e.2 with
      | some t => (s.unreachable e.1 t).txnEnd e.1 t 5 []
      | none => s) s
    (s1.clearKw (s1.streamKw k)).startReset k false

/-- A link is lost (R317, R321, R323). -/
def State.linkLoss (s : State) (l : Nat) : State :=
  if !(s.link l).up then s
  else
    let ks := s.linkKws l
    let s1 := (s.requeue (l / 8) (s.link l).unacked).updLink l (fun q => { Link.down with turn := q.turn, peerMask := q.peerMask })
    let s2 := s1.linkCredits l
    forEach ks (fun k s => match s.routeOfKw k with
      | some r => if s.routeKw r = some k then s.reroute r k else s
      | none => s) s2

/-- A link with no lane left has failed: it counts, and LINK_DOWN goes out as far as a lane carries it (R317). -/
def State.linkFail (s : State) (l : Nat) : State :=
  ((s.sendCtrl l [3]).bump .prgLinkFailCnt (l / 8) 1).linkLoss l

/-- A lane trains under the image, or in staging mode before one is sealed (R313, R482). -/
def State.trainNow (s : State) (port lane : Nat) : State :=
  if s.isSealed then s.trainSealed port lane else s.trainStaging port lane

/-- LINK_DOWN and retrain (R332, R333): the link is lost and its lanes train again. -/
def State.linkRetrain (s : State) (l : Nat) : State :=
  let lanes := s.ctlLanes l
  let s1 := (s.sendCtrl l [3]).linkLoss l
  forEach lanes (fun w s => s.trainNow (l / 8) w) s1

/-- Send the returns that have been gathered on a link (R319); with no lane that carries flits they stay gathered. -/
def State.sendCredits (s : State) (l : Nat) : State :=
  if (s.ctlLanes l).isEmpty then s
  else forEach (s.linkKws l) (fun k s => match s.kw k with
    | some q =>
      if q.pend = 0 then s
      else (s.sendIdle l (k % 4096) q.pend).updKw k (fun q => { q with out := q.out + q.pend, pend := 0 })
    | none => s) s

/-- A staging link carries only keyway 0, in class 0, with 256 credits; none of the messages of R324 may use it (R482). -/
def State.stagingKw (s : State) (l : Nat) : State :=
  let p := (s.ccbPeer (l / 8) (l % 8)).getD (0, 0)
  s.updPrg (fun q => { q with kws := SMap.set (fun _ => none) q.kws (kwKey (l / 8) 0) (some
    ⟨0, 0, p.1, p.2, 0, 256, 0, 0, 0, 256, 0, 0, 0, [], [], 0, 0, [], 0, 0, false, false, 0, 0, none, 0⟩) })

/-- A link comes up: both sequences start at 0 and every free credit is granted (R319, R321). -/
def State.linkUpNow (s : State) (l : Nat) : State :=
  let s1 := (if s.isSealed then s else s.stagingKw l).updLink l (fun q => { q with up := true, txSeq := 0, rxSeq := 0, unacked := [] })
  let ks := s1.linkKws l
  let s2 := forEach ks (fun k s => s.updKw k (fun q => { q with pend := q.pend + q.free, free := 0 })) s1
  (s2.sendCredits l).pump (4096 * (l / 8))

/-- The lane set of a link is announced with the first SEQ striped on it (R312). -/
def State.sendLaneset (s : State) (l : Nat) : State :=
  s.sendCtrl l ([2, (s.linkLanes l).foldl (fun m w => m + 2 ^ w) 0] ++ leBytes 2 (s.link l).txSeq)

/-! ## Lane failure and training (R311 to R313) -/

/-- The spare of a direct-mode port joins in place of the first lane that fails (R311). -/
def State.joinSpare (s : State) (port : Nat) : State :=
  match s.spareLane port with
  | some w =>
    let p := s.plane port w
    if s.directPort port ∧ p.state = .spare then s.setPLane port w { p with state := .up, joined := true } else s
  | none => s

/-- An UP lane of a port, which a joined spare is too, fails for a cause (R312). -/
def State.failLane (s : State) (port lane cause : Nat) : State :=
  let p := s.plane port lane
  if p.state = .up then
    let l := s.linkOf port lane
    let s1 := (s.setPLane port lane { PLane.dark with state := .failed }).bump .prgLaneFailCnt port 1
    let s2 := (s1.queue .prgLaneFail (144 + port) none (.prg port (2 ^ lane) 0 cause 0 0 (s1.omaShown port))).joinSpare
      port
    if (s2.linkLanes l).isEmpty then (if (s2.link l).up then s2.linkFail l else s2) else s2.sendLaneset l
  else s

/-- Uncorrectable frames and corrected symbols of a lane in the last millisecond (R312). -/
def State.badFrames (s : State) (p : PLane) : List Nat := p.uncorr.filter (fun t => decide (s.hubTime < t + 1000000))
def State.fixedSyms (s : State) (p : PLane) : List (Nat × Nat) := p.corr.filter (fun e => decide (s.hubTime < e.1 + 1000000))
/-- Are the frame counts of a lane, or its symbol counts, beyond their limits: 64 frames, 42,500 of the 21.25 million symbols of a
millisecond (R312). -/
def State.tooBad (s : State) (p : PLane) : Bool := decide (64 < (s.badFrames p).length)
def State.tooFixed (s : State) (p : PLane) : Bool := decide (42500 < ((s.fixedSyms p).map (fun e => e.2)).foldl (· + ·) 0)

/-- What a lane's receiver shows as its OMA, in a lane that has one: the byte last reported, else a free one (R335). -/
def State.setOma (s : State) (port lane v : Nat) : State :=
  s.updPrg (fun p => { p with oma := SMap.set (fun _ => none) p.oma (laneKey port lane) (some (v % 2 ^ 8)) })
/-- The laser input of a wavelength of an engine, as reported (R336). -/
def State.setLaser (s : State) (engine lane v : Nat) : State :=
  s.updPrg (fun p => { p with laser := SMap.set (fun _ => none) p.laser (laneKey engine lane) (some (v % 2 ^ 8)) })

/-- LANE_FAIL (R311, R312): what a lane's monitors show. `cause` 0: the receive OMA for 10 µs, `reading` its monitor byte, which fails the
lane below −14 dBm (60); 1: lock lost; 2 and 3: the frame or symbol counts of the last millisecond are beyond their limits; 4: the laser
input of the lane's wavelength, `reading` its monitor byte, which fails the lane of both ports of the engine below the +14.0 dBm of R334
(190). -/
def execLaneFail (port lane cause reading : Nat) (s : State) : Host.Outcome State Fault Refusal :=
  let k := port % 16
  let w := lane % 8
  let p := s.plane k w
  .next (if s.pwrState ≠ 3 then s
    else if cause = 0 then
      (if !p.state.carries then s
      else if reading % 2 ^ 8 < 60 then (s.setOma k w reading).failLane k w 0 else s.setOma k w reading)
    else if cause = 1 then s.failLane k w 1
    else if cause = 2 then (if s.tooBad p then s.failLane k w 2 else s)
    else if cause = 3 then (if s.tooFixed p then s.failLane k w 3 else s)
    else if cause = 4 then
      let e := k / 2
      let s1 := s.setLaser e w reading
      if 190 ≤ reading % 2 ^ 8 then s1
      else ((s1.failLane (2 * e) w 0).failLane (2 * e + 1) w 0).queue .prgLaserLow (144 + 2 * e) none
        (.prg (2 * e) (2 ^ w) 0 0 0 0 (s1.laserShown e))
    else s)

/-- LANESET (R312): the peer changes the lane set of the link from a SEQ on. The receiver orders flits by SEQ, so only the rate
changes (R310). -/
def execLaneset (port lane mask : Nat) (s : State) : Host.Outcome State Fault Refusal :=
  .next (s.updLink (s.linkOf (port % 16) (lane % 8)) (fun q => { q with peerMask := mask % 2 ^ 8 }))

/-- LANE_RETRAIN (R312): every PRG_RETRAIN.MS a FAILED lane trains again; without the reference clock, and outside Run, none
does (R467). -/
def execLaneRetrain (port lane : Nat) (s : State) : Host.Outcome State Fault Refusal :=
  let p := s.plane (port % 16) (lane % 8)
  .next (if p.state = .failed ∧ s.pwrState = 3 ∧ !s.tier.stopped then
      s.trainNow (port % 16) (lane % 8)
    else s)

/-- Does what the peer sends in training match the image (R313): its port mode, the digest, and the peer that the port's tables
name; in staging mode the card configuration block, and a digest of zero, and the lanes of a direct port name one peer (R475, R482). -/
def State.trainOk (s : State) (port lane pkg pport mode digest : Nat) : Bool :=
  if !s.isSealed then
    mode == oneIf (s.ccbPortWr.testBit port) && digest == 0 && s.ccbPeer port lane == some (pkg, pport)
      && (s.ccbPortWr.testBit port || allLanes.all (fun w => (s.ccbPeer port w).isNone || s.ccbPeer port w == some (pkg, pport)))
  else
    let known := s.prg.kws.any (fun e => e.1 / 4096 == port)
    (mode == s.rdF .prgPortCfg port 0 0 1) && (digest == s.rd .hubImageDigest 0 0)
      && (if s.directPort port then !known || s.prg.kws.any (fun e => e.1 / 4096 == port && (match e.2 with
            | some q => q.peer == pkg && q.peerPort == pport
            | none => false))
          else s.wlPeer port lane == some (pkg, pport))

/-- LANE_TRAINING_DONE (R311 to R313): the exchange of a training lane is over: `pkg`, `pport`, `mode` and `digest` (8 bytes) are
what the peer sent. -/
def execLaneTrainingDone (port lane pkg pport mode digest : Nat) (s : State) : Host.Outcome State Fault Refusal :=
  let k := port % 16
  let w := lane % 8
  .next (if (s.plane k w).state ≠ .training then s
    else if !s.trainOk k w pkg pport mode digest then
      s.queue .prgTrainMismatch (144 + k) none (.prg k (2 ^ w) 0 mode pkg pport digest)
    else
      let spare := s.spareLane k == some w
      let joins := spare && (!s.directPort k || (s.laneMask k (· == .failed) != 0))
      let s1 := s.setPLane k w { PLane.dark with state := if spare && !joins then .spare else .up, joined := joins }
      let l := s1.linkOf k w
      if (s1.linkLanes l).isEmpty then s1.sendIdle l 0 0
      else
        let s2 := s1.sendLaneset l
        if (s2.link l).up then s2.pump (4096 * k) else s2.linkUpNow l)

/-! ## Replay (R317) -/

/-- Lanes of a link that a spent budget fails: those that delivered an uncorrectable frame in the episode, else the one with the
most corrected symbols, the lowest of equals. -/
def State.budgetLanes (s : State) (l : Nat) : List Nat :=
  let ls := s.linkLanes l
  let bad := ls.filter (fun w => decide (0 < (s.plane (l / 8) w).epUncorr))
  if bad.isEmpty then
    (match ls with
    | [] => []
    | w :: ws => [ws.foldl (fun b x => if (s.plane (l / 8) b).epCorr < (s.plane (l / 8) x).epCorr then x else b) w])
  else bad

/-- The budget of an episode is spent: lanes fail, and the episode restarts on those that remain. -/
def State.spendBudget (s : State) (l : Nat) : State :=
  let s1 := (forEach (s.budgetLanes l) (fun w s => s.failLane (l / 8) w 4) s).clearEpisode l
  s1.updLink l (fun q => { q with
    naked := false
    episode := if q.up && q.episode.isSome then some q.unacked.length else none
    unacked := q.unacked.map (fun f => { f with sends := 1 }) })

/-- Resend every flit not acknowledged, oldest first; the first resend opens an episode. A flit sent eight times spends the
budget. -/
def State.replay (s : State) (l : Nat) : State :=
  if (s.link l).unacked.isEmpty ∨ !(s.link l).up then s
  else
    let s1 := if (s.link l).episode.isSome then s
      else ((if (s.link l).inEpisode then s else s.clearEpisode l).updLink l (fun q => { q with episode := some q.unacked.length })).bump .prgReplayCnt (l / 8) 1
    let s2 := forEach (s1.link l).unacked (fun f s => s.putOut l f) s1
    let s3 := s2.updLink l (fun q => { q with unacked := q.unacked.map (fun f => { f with sends := f.sends + 1 }) })
    if (s3.link l).unacked.any (fun f => decide (8 ≤ f.sends)) then s3.spendBudget l else s3

/-- A keyway whose flits have all been acknowledged answers a RESYNC (R321). -/
def State.answerResync (s : State) (k : Nat) : State :=
  match s.kw k with
  | some q =>
    let l := s.kwLink k q
    if q.stop = 1 ∧ !(s.link l).unacked.any (fun f => f.kw == k % 4096) then
      (s.updKw k (fun q => { q with stop := 2 })).sendKwCtl k (0x11 :: leBytes 2 q.epoch ++ leBytes 2 q.held)
    else s
  | none => s

/-- An ACK or NAK that names a SEQ not sent: ignored; sixteen in a row take the link down (R332). -/
def State.badAckAt (s : State) (l kw : Nat) : State :=
  let s1 := (s.peerViol (l / 8) kw 4).updLink l (fun q => { q with badAck := q.badAck + 1 })
  if 16 ≤ (s1.link l).badAck then s1.linkRetrain l else s1

/-- Flits of a link that an ACK acknowledges, when it names a SEQ sent. -/
def State.acked (s : State) (l ack : Nat) : Option Nat :=
  let q := s.link l
  let a0 := (q.txSeq + (2 ^ 16 - q.unacked.length % 2 ^ 16)) % 2 ^ 16
  let n := (ack + (2 ^ 16 - a0)) % 2 ^ 16
  if q.unacked.length < n then none else some n

/-- The flits before an ACK are delivered; the episode ends with those that were outstanding at its start (R317). -/
def State.dropAcked (s : State) (l n : Nat) : State :=
  s.updLink l (fun q => { q with
    unacked := q.unacked.drop n
    badAck := 0
    episode := match q.episode with
      | some e => if e ≤ n then none else some (e - n)
      | none => none })

/-- An event on a link has ended with its flits delivered: the timers of the transactions that waited for it run again (R325). -/
def State.eventOver (s : State) (l : Nat) : State :=
  if (s.link l).inEpisode then s
  else s.updPrg (fun p => { p with txns := p.txns.map (fun e => (e.1, e.2.map (fun t =>
    if t.waits && (((s.kw t.kw).map (fun q => s.kwLink t.kw q == l)).getD false) then { t with waits := false } else t))) })

/-- After flits have been acknowledged: RESYNCs are answered, and new flits go. -/
def State.afterAck (s : State) (l : Nat) : State :=
  let s1 := s.eventOver l
  (forEach (s1.linkKws l) (fun k s => s.answerResync k) s1).pump (4096 * (l / 8))

/-- ACK of a flit (R317). -/
def State.ackTo (s : State) (l ack kw : Nat) : State := match s.acked l ack with
  | none => s.badAckAt l kw
  | some n => if n = 0 then s.dropAcked l 0 else (s.dropAcked l n).afterAck l

/-- A NAK for an expected SEQ (R317): it acknowledges what lies before it, and the rest is resent before any new flit. -/
def State.nakFrom (s : State) (l seq : Nat) : State := match s.acked l seq with
  | none => s.badAckAt l 0
  | some n => if n = 0 then (s.dropAcked l 0).replay l else ((s.dropAcked l n).replay l).afterAck l

/-- NAK (R317): a NAK for an expected SEQ arrives on a lane. -/
def execNak (port lane seq : Nat) (s : State) : Host.Outcome State Fault Refusal :=
  let l := s.linkOf (port % 16) (lane % 8)
  .next (if (s.link l).up then s.nakFrom l (seq % 2 ^ 16) else s)

/-- ACK_TIMEOUT (R317): ACK has not advanced for 2 µs with flits outstanding. -/
def execAckTimeout (port lane : Nat) (s : State) : Host.Outcome State Fault Refusal :=
  .next (s.replay (s.linkOf (port % 16) (lane % 8)))

/-- REPLAY_BUDGET_EXPIRY (R317): an episode has lasted PRG_REPLAY_BUDGET, at the end that resends or at the one that asked for it. -/
def execReplayBudgetExpiry (port lane : Nat) (s : State) : Host.Outcome State Fault Refusal :=
  let l := s.linkOf (port % 16) (lane % 8)
  .next (if (s.link l).inEpisode then
      let s1 := s.spendBudget l
      if (s.link l).episode.isSome then s1.replay l else s1
    else s)

/-- LINK_DOWN (R317, R321, R323): the peer's LINK_DOWN arrives, or the link is lost: credits are resynchronised by the link form,
routes move to their alternates, and the lanes train again. -/
def execLinkDown (port lane : Nat) (s : State) : Host.Outcome State Fault Refusal :=
  let l := s.linkOf (port % 16) (lane % 8)
  .next (if (s.link l).up then s.linkRetrain l else s)

/-! ## Credits and resets of a keyway (R319, R321, R322) -/

/-- CREDIT_RETURN_SEND (R319): gathered returns leave. -/
def execCreditReturnSend (port lane : Nat) (s : State) : Host.Outcome State Fault Refusal :=
  let l := s.linkOf (port % 16) (lane % 8)
  .next (if (s.link l).up then s.sendCredits l else s)

/-- A grant or return of credits (R319): beyond RX_CREDITS it is clamped, a violation, and the keyway is resynchronised
(R332). -/
def State.takeCredits (s : State) (k n : Nat) : State :=
  match s.kw k with
  | none => s
  | some q =>
    if n = 0 then s
    else if q.rx < q.held + n then
      ((s.updKw k (fun q => { q with held := q.rx })).peerViol (k / 4096) (k % 4096) 8).startResync k
    else (s.updKw k (fun q => { q with held := q.held + n })).pump k

/-- A RESYNC arrives (R321): DATA of the keyway stops until the receiver has answered. -/
def State.takeResync (s : State) (k epoch : Nat) : State :=
  (s.updKw k (fun q => { q with epoch := epoch, stop := 1 })).answerResync k

/-- A RESYNC_ACK arrives (R321): RX_CREDITS less the occupied flits are granted, and no return stays pending. -/
def State.takeResyncAck (s : State) (k epoch : Nat) : State := match s.kw k with
  | some q =>
    if q.epoch = epoch ∧ q.resync then
      (s.updKw k (fun q => { q with resync := false, out := q.rx - q.occ, free := 0, pend := 0 })).sendKwCtl k
        (0x12 :: leBytes 2 epoch ++ leBytes 2 (q.rx - q.occ))
    else s
  | none => s

/-- A RESYNC_SET arrives (R321). -/
def State.takeResyncSet (s : State) (k epoch n : Nat) : State := match s.kw k with
  | some q => if q.epoch = epoch then (s.updKw k (fun q => { q with held := min n q.rx, stop := 0 })).pump k else s
  | none => s

/-- The receiver's side of a keyway performs the keyway form under the epoch of a reset (R322 step 4). -/
def State.resetCredits (s : State) (k epoch : Nat) : State :=
  ((s.updKw k (fun q => { q with resync := true })).sendKwCtl k (0x10 :: leBytes 2 epoch)).bump .prgCreditResyncCnt (k / 4096) 1

/-- A RESET arrives (R322). -/
def State.takeReset (s : State) (k epoch : Nat) : State := match s.kw k with
  | some q =>
    let s1 := ((s.clearKw (s.streamKw k)).clearKw k).updKw k (fun q => { q with epoch := epoch })
    let s2 := (s1.bump .prgKwResetCnt q.die 1).sendKwCtl k (0x14 :: leBytes 2 epoch)
    (s2.resetCredits k epoch).reissueKw k
  | none => s

/-- A RESET_ACK arrives (R322 step 5). -/
def State.takeResetAck (s : State) (k epoch : Nat) : State := match s.kw k with
  | some q => if q.epoch = epoch ∧ q.reset then (s.updKw k (fun q => { q with reset := false })).resetCredits k epoch else s
  | none => s

/-- A KW_NAK arrives (R332): it ends or reissues the transaction that it names. -/
def State.takeKwNak (s : State) (k code txn : Nat) : State := match s.kw k with
  | some q =>
    let key := txnKey q.die txn
    (match s.txn key with
    | some t => s.nakEnd key t code
    | none => s)
  | none => s

/-- A control payload on a keyway of a relay port that runs end to end goes on to the onward keyway (R323). -/
def State.kwControl (s : State) (k : Nat) (payload : List Nat) : State := match s.kw k with
  | none => s
  | some q =>
    let code := payload.getD 0 0
    let e := leNat ((payload.drop 1).take 2)
    let n := leNat ((payload.drop 3).take 2)
    if q.cls = 3 ∧ 0x13 ≤ code ∧ code ≤ 0x15 then s.sendKwCtl (kwKey q.fwdPort q.fwdKw) payload
    else if code = 0x10 then s.takeResync k e
    else if code = 0x11 then s.takeResyncAck k e
    else if code = 0x12 then s.takeResyncSet k e n
    else if code = 0x13 then s.takeReset k e
    else if code = 0x14 then s.takeResetAck k e
    else if code = 0x15 then s.takeKwNak k (payload.getD 1 0) (leNat ((payload.drop 2).take 3))
    else s.peerViol (k / 4096) (k % 4096) 5

/-- RESYNC (R321): the payload of a KWCTRL flit of a keyway arrives. -/
def execResync (port kw epoch : Nat) (s : State) : Host.Outcome State Fault Refusal :=
  .next (s.kwControl (kwKey (port % 16) kw) (0x10 :: leBytes 2 epoch))
/-- RESYNC_ACK (R321): `credits` are those that the sender holds. -/
def execResyncAck (port kw epoch credits : Nat) (s : State) : Host.Outcome State Fault Refusal :=
  .next (s.kwControl (kwKey (port % 16) kw) (0x11 :: leBytes 2 epoch ++ leBytes 2 credits))
/-- RESYNC_SET (R321). -/
def execResyncSet (port kw epoch credits : Nat) (s : State) : Host.Outcome State Fault Refusal :=
  .next (s.kwControl (kwKey (port % 16) kw) (0x12 :: leBytes 2 epoch ++ leBytes 2 credits))
/-- RESET (R322). -/
def execReset (port kw epoch : Nat) (s : State) : Host.Outcome State Fault Refusal :=
  .next (s.kwControl (kwKey (port % 16) kw) (0x13 :: leBytes 2 epoch))
/-- RESET_ACK (R322). -/
def execResetAck (port kw epoch : Nat) (s : State) : Host.Outcome State Fault Refusal :=
  .next (s.kwControl (kwKey (port % 16) kw) (0x14 :: leBytes 2 epoch))
/-- KW_NAK (R332). -/
def execKwNak (port kw code txn gen : Nat) (s : State) : Host.Outcome State Fault Refusal :=
  .next (s.kwControl (kwKey (port % 16) kw) (0x15 :: code % 256 :: leBytes 3 txn ++ [gen % 256]))

/-! ## Flits (R315 to R319, R332) -/

/-- Length in bytes of the message at the front of a stream with its padding, when its header parses (R324). -/
def headerLen (b : List Nat) : Option Nat :=
  let kind := b.getD 0 0
  let len := leNat ((b.drop 2).take 2)
  if kind = 0 ∨ 0x0F < kind ∨ 8192 < len ∨ len % 8 ≠ 0 then none else some (16 + ceilDiv len 16 * 16)

/-- Take whole messages off the stream of a keyway (R324); a header that cannot be parsed resets the keyway (R332). -/
def State.assemble (s : State) (o c : Nat) : Nat → State
  | 0 => s
  | n + 1 => match s.kw o with
    | none => s
    | some q =>
      if q.part.length < 16 then s
      else match headerLen q.part with
      | none => ((s.peerViol (c / 4096) (c % 4096) 9).clearKw o).startReset c true
      | some len =>
        if q.part.length < len then s
        else
          let b := q.part
          let m : InMsg := ⟨o, q.die, b.getD 0 0, b.getD 1 0 % 16, leNat ((b.drop 4).take 3), b.getD 7 0,
            leNat ((b.drop 8).take 8), (b.drop 16).take (leNat ((b.drop 2).take 2))⟩
          State.assemble ((s.updKw o (fun q => { q with part := q.part.drop len })).pushIn m) o c n

/-- The payload of a DATA flit is taken: its credit can return (R319). -/
def State.freeSlot (s : State) (k : Nat) : State := s.updKw k (fun q => { q with occ := q.occ - 1, pend := q.pend + 1 })

/-- The payload of an accepted DATA flit of a link (R318, R319, R323, R332): without a valid keyway, or without a credit, it is discarded; a
relay port forwards it; an endpoint takes the expected KSEQ. -/
def State.takeData (s : State) (l k kseq : Nat) (payload : List Nat) : State :=
  let port := k / 4096
  match s.kw k with
  | none =>
    let s1 := s.peerViol port (k % 4096) 6
    if s1.linkRoom l then s1.sendSeq l (k % 4096) true 0 ([0x15, 1] ++ (payload.drop 4).take 4) else s1
  | some q =>
    if q.out = 0 then (s.peerViol port (k % 4096) 7).startResync k
    else
      let s1 := s.updKw k (fun q => { q with out := q.out - 1, occ := q.occ + 1 })
      if q.cls = 3 then
        let f := kwKey q.fwdPort q.fwdKw
        ((s1.updKw f (fun q => { q with txq := q.txq ++ [(kseq, payload)] })).freeSlot k).pump f
      else
        let o := s1.streamKw k
        let want : Nat := ((s1.kw o).map (fun q => q.kseqRx)).getD 0
        let s2 := s1.freeSlot k
        if kseq = want then
          (s2.updKw o (fun q => { q with kseqRx := (q.kseqRx + 1) % 2 ^ 16, part := q.part ++ payload })).assemble o k 16
        else if 2 ^ 15 ≤ ((kseq + (2 ^ 16 - want)) % 2 ^ 16 : Nat) then s2.bump .prgDupDiscardCnt q.die 1
        else s2

/-- A sequenced flit (R317, R332): accepted only at the expected SEQ; one accepted already is discarded, and the ACK goes again. -/
def State.takeSeq (s : State) (l typ seq kw kseq : Nat) (payload : List Nat) : State :=
  let d := (seq + (2 ^ 16 - (s.link l).rxSeq)) % 2 ^ 16
  if d = 0 then
    let s1 := ((s.updLink l (fun q => { q with
      rxSeq := (q.rxSeq + 1) % 2 ^ 16
      naked := false
      rxEpisode := q.rxEpisode.bind (fun n => if n ≤ 1 then none else some (n - 1))
      badSeq := 0
      ackDue := true })).bump .prgFlitRxCnt (l / 8) 1).eventOver l
    let k := kwKey (l / 8) kw
    if typ = 1 then s1.takeData l k kseq payload
    else if (s1.kw k).isNone then s1.peerViol (l / 8) kw 6 else s1.kwControl k payload
  else if d < 4096 then s.sendNak l (d + 1)
  else if d < 2 ^ 15 then
    let s1 := ((s.peerViol (l / 8) kw 3).sendNak l 1).updLink l (fun q => { q with badSeq := q.badSeq + 1 })
    if 16 ≤ (s1.link l).badSeq then s1.linkRetrain l else s1
  else s.updLink l (fun q => { q with ackDue := true })

/-- The payload of a CTRL flit that is no NAK (R316). -/
def State.takeCtrl (s : State) (l : Nat) (payload : List Nat) : State :=
  let code := payload.getD 0 0
  if code = 2 then s.updLink l (fun q => { q with peerMask := payload.getD 1 0 % 2 ^ 8 })
  else if code = 3 then s.linkRetrain l
  else s.peerViol (l / 8) 0 5

/-- A flit that has passed its frame arrives on a link: its CRC, ACK and credits, then its payload (R315 to R317). -/
def State.takeFlit (s : State) (l : Nat) (b : List Nat) : State :=
  let port := l / 8
  if !(s.link l).up then s
  else if b.length ≠ 256 ∨ crc32c (b.take 252) ≠ leNat (b.drop 252) then (s.bump .prgCrcErrCnt port 1).sendNak l 1
  else
    let typ := b.getD 0 0 % 16
    let len := b.getD 0 0 / 16
    let seq := leNat ((b.drop 1).take 2)
    let kw := leNat ((b.drop 5).take 2) % 4096
    let cr := leNat ((b.drop 9).take 3)
    let payload := b.drop 12
    let ack := leNat ((b.drop 3).take 2)
    let credits := fun (s : State) => s.takeCredits (kwKey port (cr % 4096)) (cr / 4096)
    if typ = 2 ∧ payload.getD 0 0 = 1 then
      (if (s.acked l ack).isNone then credits (s.badAckAt l kw) else credits (s.nakFrom l (leNat ((payload.drop 1).take 2))))
    else
    let s1 := credits (s.ackTo l ack kw)
    if !(s1.link l).up ∨ typ = 0 then s1
    else if typ = 2 then s1.takeCtrl l (payload.take 240)
    else if 4 ≤ typ then s1.peerViol port kw 5
    else s1.takeSeq l typ seq kw (leNat ((b.drop 7).take 2)) (payload.take (16 * len))

/-- FLIT_RECEIVE (R315 to R319, R332): the 256 bytes of a flit arrive on a lane. -/
def execFlitReceive (port lane : Nat) (bytes : List Nat) (s : State) : Host.Outcome State Fault Refusal :=
  let k := port % 16
  let w := lane % 8
  .next (if (s.plane k w).state.carries then s.takeFlit (s.linkOf k w) (bytes.map (· % 256)) else s)

/-- FRAME_RECEIVE (R309, R312): a lane's receiver has decoded a frame: the symbols that it corrected, and the five flits; or it is
uncorrectable and its flits count as failed. A lane whose counts of the last millisecond pass a limit fails. -/
def execFrameReceive (port lane corrected : Nat) (flits : List (List Nat)) (uncorrectable : Bool) (s : State) :
    Host.Outcome State Fault Refusal :=
  let k := port % 16
  let w := lane % 8
  let l := s.linkOf k w
  .next (if (s.plane k w).state.carries then
      let p := s.plane k w
      if uncorrectable then
        (let s0 := if (s.link l).up then s.openEpisode l 1 else s
        let p := s0.plane k w
        let p1 := { p with uncorr := s.badFrames p ++ [s.hubTime], epUncorr := p.epUncorr + 1 }
        let s1 := (s0.setPLane k w p1).bump .prgFecUncorrCnt k 1
        let s2 := if (s1.link l).up then s1.sendNak l 1 else s1
        if s2.tooBad p1 then s2.failLane k w 2 else s2)
      else
        let c := min corrected 30
        let p1 := { p with
          corr := s.fixedSyms p ++ (if c = 0 then [] else [(s.hubTime, c)])
          epCorr := p.epCorr + c }
        let s1 := (s.setPLane k w p1).bump .prgFecCorrSymCnt k c
        let s2 := forEach (flits.take 5) (fun b s => s.takeFlit (s.linkOf k w) (b.map (· % 256))) s1
        if s2.tooFixed p1 then s2.failLane k w 3 else s2
    else s)

/-! ## The reference clock and the control plane (R333, R463) -/

/-- REFCLK_LOSS (R317, R463): every photonic lane and with it every link fails, the flash channels stop, a PACKAGE record is
queued; `offset` is in ppm. -/
def execRefclkLoss (offset : Nat) (s : State) : Host.Outcome State Fault Refusal :=
  .next (if s.pwrState = 0 ∨ s.tier.stopped then s
    else
      let s1 := forUpTo 16 (fun port s => forUpTo 8 (fun w s => s.setPLane port w { s.plane port w with state := .failed }) s) s
      let s2 := forUpTo 128 (fun l s => if (s.link l).up then s.linkFail l else s) s1
      let s3 := (s2.updTier (fun t => { t with stopped := true })).wrF .tierStatus 0 0 0 16 0
      s3.queue .pwrRefclkLoss pwrIsland none (.gen 0 0 0 (offset % 2 ^ 32) 0 0))

/-- CTRL_PLANE_SCRUB (R333): the copies of a port's control plane are compared; `causes` lists what disagrees (0 route, 1 keyway
table, 2 wavelength map, 3 credit ledger). Two copies: the port sends LINK_DOWN, reloads its tables and trains again; three: the
vote corrects the minority copy. Ports are powered in Hold and Run (R436), and coverage is suspended in D3 (R43, R441). -/
def execCtrlPlaneScrub (port : Nat) (causes : List Nat) (s : State) : Host.Outcome State Fault Refusal :=
  let k := port % 16
  .next (if s.pwrState < 2 ∨ s.ward.d3 then s
    else
      let vote := decide (32 < s.img.packages.length)
      let s1 := forEach causes (fun c s => (s.bump .prgCtrlMismatchCnt k 1).queueAs .prgCtrlMismatch 0 vote (144 + k) none
        (.prg k 0 0 c 0 0 0)) s
      if causes.isEmpty ∨ vote then s1
      else
        let ls := (allLanes.map (fun w => s1.linkOf k w)).eraseDups
        forEach ls (fun l s => if (s.link l).up then s.linkRetrain l else s) s1)

end Sys2Proof.Machine
end

