-- ==== Sys2Proof/Machine/Image.lean ====
section
/-! DEFINITION. The structure image: its checks, loading and sealing, quiesce points, the lead (R31, R32, R39, R237, R318, R323, R339 to
R361, R411, R482, R485, R528). -/

namespace Sys2Proof.Machine

/-! ## The image as fetched (R340 to R344) -/

/-- Sections that the header declares. -/
def imgCount (h : List Nat) : Nat := secNat h 26 2
/-- Bytes of the header and the directory: what the image digest covers (R340). -/
def imgSigned (h : List Nat) : List Nat := h.take (256 + 64 * imgCount h)
def imgDigest (h : List Nat) : List Nat := sha256 (imgSigned h)

/-- A directory entry (R342). -/
structure DirEnt where
  typ : Nat
  pkg : Nat
  ix : Nat
  off : Nat
  len : Nat
  load : Nat
  hash : List Nat
  deriving DecidableEq, Repr

def dirEnt (h : List Nat) (i : Nat) : DirEnt :=
  let o := 256 + 64 * i
  ⟨secNat h o 2, secNat h (o + 2) 1, secNat h (o + 3) 1, secNat h (o + 8) 8, secNat h (o + 16) 8, secNat h (o + 24) 8,
    (h.drop (o + 32)).take 32⟩
def dirEnts (h : List Nat) : List (DirEnt × Nat) := (List.range (imgCount h)).map (fun i => (dirEnt h i, i))

/-- The section types of R343. -/
def secTypes : List Nat := [1, 2, 3, 4, 5, 6, 7, 0x10, 0x11, 0x12, 0x13, 0x14, 0x15, 0x20]

/-- Does a package take a section. -/
def DirEnt.takenBy (e : DirEnt) (p : Nat) : Bool := e.pkg == p || e.pkg == 0xFF

/-- The bytes of a section that a package takes, by type and index; nothing when there is none. -/
def secBytes (h : List Nat) (secs : List (List Nat)) (p typ ix : Nat) : Option (List Nat) :=
  ((dirEnts h).find? (fun e => e.1.typ == typ && e.1.ix == ix && e.1.takenBy p)).map (fun e => (secs.getD e.2 []).take e.1.len)

/-- Redundancy by domain size (R351): least reserved cores, spare lanes (0 none, 1 on routed ports, 2 everywhere), default digest
interval, compressed by default. -/
def redundancy (n : Nat) : Nat × Nat × Nat × Bool :=
  if n ≤ 16 then (1, 0, 128, false) else if n ≤ 32 then (2, 1, 128, false) else (4, 2, 64, true)

/-! ### Tables -/

/-- A package entry (R345): number, feed, gateway, identity hash. -/
def domEnt (b : List Nat) (i : Nat) : Nat × Nat × Nat × Nat :=
  let o := 16 * i
  (secNat b o 1 % 64, secNat b (o + 1) 1 % 16, secNat b (o + 2) 1 % 8, secNat b (o + 4) 4)
def domTable (h b : List Nat) : List (Nat × Nat × Nat × Nat) := (List.range (secNat h 24 1 % 128)).map (domEnt b)

/-- A virtual rank entry (R347). -/
def rankEnt (b : List Nat) (v : Nat) : VRank :=
  let w := secNat b (8 * v) 2
  ⟨bitsOf w 0 6, bitsOf w 6 7, bitsOf w 13 3, secNat b (8 * v + 2) 1, secNat b (8 * v + 4) 2⟩
def rankTable (h b : List Nat) : List VRank := (List.range (secNat h 52 2)).map (rankEnt b)

/-- A shard entry (R348). -/
def shardEnt (b : List Nat) (i : Nat) : Shard :=
  let o := 32 * i
  let w := secNat b (o + 14) 2
  ⟨secNat b o 4, secNat b (o + 4) 4, secNat b (o + 8) 4, secNat b (o + 12) 2,
    (List.range (w % 4)).map (fun k => secNat b (o + 16 + 2 * k) 2), w.testBit 2, secNat b (o + 24) 8 % 2 ^ 33⟩
def shardTable (b : List Nat) : List Shard := (List.range (b.length / 32)).map (shardEnt b)

/-- The adoption order (R352). -/
def adoptTable (b : List Nat) : List Nat := b.take 128

/-! ## The checks of a package (R341 to R353): the refusal code of R356, 0 for READY -/

/-- The header (R341). -/
def State.checkHead (s : State) (h : List Nat) : Nat :=
  let n := secNat h 24 1 % 128
  if h.length < 256 ∨ secNat h 0 4 ≠ 0x4953584B ∨ secNat h 4 2 ≠ 1 ∨ secNat h 16 8 % 64 ≠ 0 ∨ 2 ^ 34 < secNat h 16 8
    ∨ n = 0 ∨ 64 < n ∨ imgCount h = 0 ∨ secNat h 52 2 = 0 ∨ 16384 < secNat h 52 2 ∨ 16 < secNat h 54 1 % 32 then 0x03
  else if s.rd .hubFwVersion 0 0 < secNat h 48 4 then 0x0C
  else if secNat h 54 1 % 32 < (redundancy n).1 then 0x09 else 0

/-- Does some package take a section of a type twice that it may take once, a KEYWAY section once a port (R343). -/
def dirTwice (h : List Nat) (pkgs : List Nat) : Bool :=
  pkgs.any (fun p =>
    let ks := ((dirEnts h).filter (fun e => e.1.typ != 0x20 && e.1.takenBy p)).map (fun e =>
      (e.1.typ, if e.1.typ = 0x12 then e.1.ix else 0))
    ks.eraseDups.length != ks.length)

/-- The directory (R342, R343): OFFSET and LENGTH are 64-aligned; a LOAD_ADDR must lie in the package that takes the section and in no
reserved space, 0 standing for none in every section but a MEMORY one. -/
def State.checkDir (s : State) (h : List Nat) (pkgs : List Nat) : Nat :=
  let total := secNat h 16 8
  let bad := (dirEnts h).any (fun e =>
    let d := e.1
    let place := decide (locOf d.load ≠ .bad) && addrPkg d.load == s.pkg
    !secTypes.contains d.typ || (d.pkg != 0xFF && !pkgs.contains d.pkg) || decide (15 < d.ix) || d.off % 64 != 0
      || d.len % 64 != 0 || decide (total < d.off + d.len) || ((d.load != 0 || d.typ == 0x20) && d.takenBy s.pkg && !place))
  if bad || dirTwice h pkgs then 0x04 else 0

/-- The hashes of the sections that the package takes (R342). -/
def State.checkHash (s : State) (h : List Nat) (secs : List (List Nat)) : Nat :=
  if (dirEnts h).all (fun e => !e.1.takenBy s.pkg
    || (decide (e.1.len ≤ (secs.getD e.2 []).length) && sha256 ((secs.getD e.2 []).take e.1.len) == e.1.hash)) then 0 else 0x05

/-- The domain table and the package's own entry (R345, R346, R475). -/
def State.checkDomain (s : State) (t : List (Nat × Nat × Nat × Nat)) : Nat :=
  match t.find? (fun e => e.1 == s.pkg) with
  | none => 0x07
  | some (_, feed, _, hash) =>
    let gs := (t.map (fun e => e.2.2.1)).filter (· != 7)
    if hash ≠ 0 ∧ hash ≠ leNat (s.idHash.take 4) then 0x07
    else if feed ≠ s.rdF .hubFeed 0 0 0 4 then 0x06
    else if (t.map (fun e => e.1)).eraseDups.length ≠ t.length ∨ gs.any (fun g => decide (3 < g)) ∨ gs.eraseDups.length ≠ gs.length
      ∨ gs.isEmpty then 0x0D else 0

/-- Virtual ranks and the adoption order (R347, R352). -/
def State.checkRanks (s : State) (rs : List VRank) (adopt : List Nat) (reserved : Nat) (pkgs : List Nat) : Nat :=
  let res := adopt.take reserved
  if adopt.length ≠ 128 ∨ !(List.range 128).all adopt.contains then 0x04
  else if res.any (fun g => decide ((s.core g).fence ≠ .none)) then 0x08
  else if rs.any (fun r => !pkgs.contains r.pkg || decide (1 < r.role)) then 0x0D
  else if rs.any (fun r => r.pkg == s.pkg && (res.contains r.core || decide ((s.core r.core).fence ≠ .none))) then 0x08 else 0

/-- Packages whose feeds do not differ pairwise (R353). -/
def commonFeed (rs : List VRank) (feeds : List (Nat × Nat)) (x : Shard) : Bool :=
  let fs := x.ranks.filterMap (fun v => (rs[v]?).bind (fun r => (feeds.find? (fun f => f.1 == r.pkg)).map (fun f => f.2)))
  fs.eraseDups.length != fs.length

/-- The shards (R348, R353). -/
def checkShards (rs : List VRank) (feeds : List (Nat × Nat)) (xs : List Shard) (survival : Bool) : Nat :=
  let role := fun v => (rs[v]?).map (fun r => r.role)
  let pkg := fun v => (rs[v]?).map (fun r => r.pkg)
  if xs.any (fun x => x.tiles == 0 || role x.owner != some 0
      || x.reps.any (fun v => role v != some 1 || pkg v == pkg x.owner)
      || x.base % 1024 != 0 || x.base.testBit 17) then 0x0D
  else if xs.any (fun x => x.common != commonFeed rs feeds x) then 0x0B
  else if !survival && xs.any (fun x => x.common) then 0x0A else 0

/-- A destination address that may stand in a group (R349). -/
def destOk (a : Nat) : Bool := match locOf a with
  | .vault _ _ | .stage _ _ => true
  | _ => false

def rising : List Nat → Bool
  | a :: b :: r => decide (a < b) && rising (b :: r)
  | _ => true

/-- The group sections (R349). -/
def checkGroups (red bcast dig : List Nat) (ranks : Nat) (pkgs : List Nat) : Nat :=
  let gs := (List.range (groupsIn red true)).map (groupRaw red)
  let others := ((List.range (groupsIn bcast false)).map (fun i => (groupRaw bcast i, bcast, true)))
    ++ ((List.range (groupsIn dig false)).map (fun i => (groupRaw dig i, dig, false)))
  let badDest := fun (g : Group) (b : List Nat) (addr : Bool) =>
    g.destN == 0 || (g.dests b).any (fun p => decide (ranks ≤ p.1) || (addr && !destOk p.2))
  if 65536 < groupsIn red true then 0x04
  else if gs.any (fun g => g.elems == 0 || g.contribN == 0 || decide (8192 < g.contribN) || !rising (g.ranks red)
      || (g.ranks red).any (fun v => decide (ranks ≤ v)) || badDest g red true
      || (List.range (g.contribN - 1)).any (fun i => !pkgs.contains (g.nodeHost red i).1))
    ∨ 1 < (gs.filter (fun g => g.norm)).length ∨ others.any (fun g => badDest g.1 g.2.1 g.2.2) then 0x0D else 0

/-- The first code that is not 0. -/
def firstCode : List Nat → Nat
  | [] => 0
  | c :: cs => if c = 0 then firstCode cs else c

/-- What a package finds of an image after the ward has verified it (R355 steps 3 and 4). -/
def State.checkBody (s : State) (h : List Nat) (secs : List (List Nat)) : Nat :=
  let sec := fun t => (secBytes h secs s.pkg t 0).getD []
  let t := domTable h (sec 1)
  let pkgs := t.map (fun e => e.1)
  let feeds := t.map (fun e => (e.1, e.2.1))
  let rs := rankTable h (sec 2)
  let short := decide ((sec 1).length < 16 * (secNat h 24 1 % 128)) || decide ((sec 2).length < 8 * secNat h 52 2)
  firstCode [s.checkHead h, s.checkHash h secs, if short then 0x04 else 0, s.checkDomain t, s.checkDir h pkgs,
    s.checkRanks rs (adoptTable (sec 0x15)) (secNat h 54 1 % 32) pkgs,
    checkShards rs feeds (shardTable (sec 3)) ((secNat h 28 4).testBit 11), checkGroups (sec 4) (sec 5) (sec 6) rs.length pkgs]

/-- The checks of a package, the ward's verification counted (R31, R344, R355, R434, R475). -/
def State.checkImage (s : State) (h : List Nat) (secs : List (List Nat)) (announced : List Nat) : State × Nat :=
  let sg := h.drop (256 + 64 * imgCount h)
  let slot := sg.getD 0 0
  if s.ccbIsBad then (s, 0x07)
  else if announced ≠ imgDigest h then (s, 0x02)
  else if s.ward.d3 then (s.rejected resBadState, 0x01)
  else if !s.imageSlot slot then (s.rejected resBadSlot, 0x01)
  else match s.verify slot (imgDigest h) (beNat ((sg.drop 32).take 32)) (beNat ((sg.drop 64).take 32)) with
    | (s1, 0) => (s1, s1.checkBody h secs)
    | (s1, _) => (s1, 0x01)

/-! ## Sealing (R237, R355 step 6, R360) -/

/-- Write a run of bytes at a domain address of the package, the lines with a tag; in control-register space slot by slot, in a host window
as a host-bound write (R343, R366). -/
def State.placeBytes (s : State) (a : Nat) (bs : List Nat) (tag : Nat) : State := match locOf a with
  | .ctrl off => forUpTo (bs.length / 8) (fun i s => (s.writeReg 2 ((off / 8 + i) * 8) 8 (secNat bs (8 * i) 8)).1) s
  | .window w b => if s.gateway.isNone then s.hubAddrViol a else (s.hostBound w b bs tag true).1
  | _ => s.writeAt hubIsland a bs tag false

/-- Registers that the hub sets itself at a seal as a whole (R343, R360): the seed, and with RESET_STEP the registers of R232. -/
def hubSet (reset : Bool) (r : Reg) : Bool := match r with
  | .coreSrSeed => true
  | .coreOptT | .coreOptP1 | .coreOptP2 => reset
  | _ => false
/-- Registers of which the hub sets one field itself, and that field (R351). -/
def hubField (r : Reg) : Option Nat := match r with
  | .prgPortCfg => some 4
  | .prgRedCtl => some 0
  | _ => none
/-- May REGLOAD name a register: it has a field that software may write. -/
def regLoadable (reset : Bool) (r : Reg) : Bool := !hubSet reset r && r.desc.fields.any (fun f => f.acc == .rw || f.acc == .rwl)

/-- Apply REGLOAD pairs in order (R343). What names PRG_PORT_CFG or PRG_RED_CTL counts and leaves the field that the hub sets (R351) as it is;
the image's own fields of these registers are loaded (R310, R331, R335; DESIGN CHOICE, log entry 128). -/
def State.regLoad (s : State) (reset : Bool) (b : List Nat) : State :=
  forUpTo (b.length / 16) (fun i s =>
    let a := secNat b (16 * i) 8
    let v := secNat b (16 * i + 8) 8
    let bad := s.viol .hubImageViolCnt 0 0xFF 0xFFFFFFFF 0xFF a
    match (if addrPkg a = s.pkg ∧ a % 8 = 0 then (ctrlOff a).bind regSlot else none) with
    | some (r, n, k) =>
      if !regLoadable reset r then bad
      else match hubField r with
        | some f => bad.writeSlot .image r n k (setBits (v % 2 ^ 32) f 1 (bitsOf (s.rd r n k) f 1))
        | none => s.writeSlot .image r n k (if r.desc.wide then v else v % 2 ^ 32)
    | none => bad) s

/-- A keyway entry as its port reads it (R318), the receive flits declared before it, and what it counts. -/
def State.kwRead (s : State) (w sum : Nat) : Option Kw × Nat × Nat :=
  let peer := dfld w 2 0 6
  let rx0 := dfld w 4 0 12
  let rx := max rx0 2
  if dfld w 0 0 1 = 0 then (none, sum, 0)
  else if !s.img.packages.contains peer then (none, sum, 1)
  else if 16320 < sum + rx then (none, sum, (if rx0 < 2 then 1 else 0) + 1)
  else (some ⟨dfld w 0 1 2, dfld w 1 0 4, peer, dfld w 2 6 4, dfld w 2 10 3, rx, dfld w 6 0 4, dfld w 6 4 12, 0, rx, 0, 0, 0,
      [], [], 0, 0, [], 0, 0, false, false, 0, 0, none, 0⟩, sum + rx, if rx0 < 2 then 1 else 0)

/-- A port reads its keyway table from PRG_KW_BASE_k (R318). -/
def State.kwLoad (s : State) (port : Nat) : State :=
  let n := min (s.rdF .prgKwCount port 0 0 13) 4096
  let base := s.rd .prgKwBase port 0
  ((List.range n).foldl (fun (a : State × Nat) i =>
    let r := a.1.kwRead (a.1.natAt (base + 16 * i) 16) a.2
    let s1 := forUpTo r.2.2 (fun _ s => s.viol .prgViolCnt port 0xFF 0xFFFFFFFF 0xFF i) a.1
    (match r.1 with
      | some q => s1.updPrg (fun p => { p with kws := SMap.set (fun _ => none) p.kws (kwKey port i) (some q) })
      | none => s1, r.2.1)) (s, 0)).1

/-- The keyways of a route entry (R323, R528): primary, then alternates; an absent primary makes the route absent. What names an
invalid keyway counts in every fabric island. -/
def State.routeRead (s : State) (w : Nat) : List Nat × Nat :=
  let at1 := fun i => kwKey (dfld w (2 * i) 12 4) (dfld w (2 * i) 0 12)
  let on := fun i => dfld w 6 i 1 == 1
  let ok := fun i => on i && (s.kw (at1 i)).isSome
  let bad := ((List.range 3).filter (fun i => on i && !ok i)).length
  (if ok 0 then ((List.range 3).filter ok).map at1 else [], bad)

def State.routeLoad (s : State) : State :=
  let base := s.rd .prgRouteBase 0 0
  forEach (s.img.packages.filter (· != s.pkg)) (fun p s => forUpTo 4 (fun c s =>
    let r := s.routeRead (s.natAt (base + 16 * (4 * p + c)) 16)
    let s1 := forUpTo r.2 (fun _ s => forUpTo 8 (fun d s => s.islViol d 0xFF 0xFFFFFFFF 0xFF (4 * p + c)) s) s
    s1.updPrg (fun q => { q with routes := SMap.set (fun _ => []) q.routes (4 * p + c) r.1 })) s) s

/-- Objects whose new entry keeps identifier, KIND, PAGES and residence stay RESIDENT with their frames (R360). -/
def State.tierReload (s : State) : State :=
  let old := s.tier.objs
  let frames := s.frames
  forEach old (fun e s => match e.2, s.obj e.1 with
    | some x, some y =>
      if x.state = .resident ∧ x.kind = y.kind ∧ x.pages = y.pages ∧ x.res = y.res ∧ x.res.isSome then
        forEach x.frames (fun p s => s.setFrame p.1 p.2 (SMap.get (fun _ => Frame.none) frames (frameKey p.1 p.2)))
          (s.setObj e.1 { y with state := .resident })
      else s
    | _, _ => s) s.tierLoad

/-- The retag sweep (R237, R485): moment and master lines of every update group of a shard's copy in this package are read and
written back whole with a tag. -/
def State.retagShard (s : State) (tag : Nat) (x : Shard) : State :=
  let cores := ((x.ranks.filterMap s.rankAt).filter (fun p => p.1 == s.pkg)).map (fun p => p.2)
  forEach cores (fun g s => forUpTo (128 * x.tiles) (fun i s => forUpTo 8 (fun q s =>
    let l := groupLine (x.base / 128) i (4 + q)
    let r := s.rawLine g l
    if r.ok then s.putRaw (s.lineKey g l) (freshLine r.data tag r.flags) else s) s) s) s

/-- A core under a new image (R360): its sequencer and units are empty; its step counter, its vault and its fence stay. -/
def Core.sealed (c : Core) (reset : Bool) : Core :=
  { Core.reset with
    step := if reset then 0 else c.step, vlt := c.vlt, fence := c.fence, stgFix := c.stgFix, halted := c.halted,
    saveReq := c.halted }

/-- Registers that start anew at a seal: tumbler counts, latches, path sets; with RESET_STEP the R232 registers and the per-run
totals (R287, R292, R360). -/
def sealClears (reset : Bool) (k : Nat) : Bool := match keyReg k with
  | .synTmbCount | .synLatchState | .synLatchOvf | .synLatchUdf | .synPathSet => true
  | .coreOptT | .coreOptP1 | .coreOptP2 | .cnsTot => reset
  | _ => false

/-- Cores with a rank leave Dark and Lend and ask for their full grant; cores without one are Dark, and lose what their power holds (R396,
R440, R451). -/
def State.sealPower (s : State) : State :=
  forUpTo 128 (fun g s =>
    if s.working g then (if 2 ≤ s.coreState g then (s.setCoreState g 1).askGrant g 216 else s)
    else if s.coreState g = 3 then s else ((s.returnGrant g).gateCore g).setCoreState g 3) s

/-- Every port trains against the new digest (R355 step 7): links go down, lanes in use train. -/
def State.sealPorts (s : State) : State :=
  let s1 := s.updPrg (fun p => { p with links := [] })
  forUpTo 16 (fun k s => forUpTo 8 (fun w s =>
    if (s.rdF .prgPortCfg k 0 5 8).testBit w && !s.tier.stopped then s.trainSealed k w else s.setPLane k w PLane.dark) s) s1

/-- The redundancy settings of R351 that registers hold: spare lanes, and compression of reductions. -/
def State.sealShare (s : State) (n : Nat) : State :=
  let r := redundancy n
  let s1 := forUpTo 16 (fun k s => s.wrF .prgPortCfg k 0 4 1 (oneIf (r.2.1 == 2 || (r.2.1 == 1 && !s.directPort k)))) s
  forUpTo 8 (fun d s => s.wrF .prgRedCtl d 0 0 1 (oneIf r.2.2.2)) s1

/-- The tables of the image (R345 to R352). -/
def State.sealTables (s : State) (h : List Nat) (secs : List (List Nat)) : Img :=
  let sec := fun t => (secBytes h secs s.pkg t 0).getD []
  let t := domTable h (sec 1)
  let dflt := (redundancy t.length).2.2.1
  let di := secNat h 32 4
  let ck := secNat h 36 4
  let adopt := adoptTable (sec 0x15)
  let res := secNat h 54 1 % 32
  { Img.none with
    packages := t.map (fun e => e.1)
    feeds := t.map (fun e => (e.1, e.2.1))
    gateways := (t.filter (fun e => e.2.2.1 != 7)).map (fun e => (e.1, e.2.2.1))
    ranks := rankTable h (sec 2)
    shards := shardTable (sec 3)
    red := sec 4
    bcast := sec 5
    dig := sec 6
    adopt := adopt
    reserved := res
    mirror := (adopt.drop res).filter (fun g => decide ((s.core g).fence = .none))
    digestInt := if di = 0 ∨ dflt < di then dflt else di
    microBatches := Config.microBatches (leNat h)
    ckptInt := if (secNat h 25 1).testBit 0 then max ck 1 else 0
    staged := s.img.staged
    held := s.img.held }

/-- Counted events of the header (R341). -/
def headViols (h : List Nat) : Nat :=
  let dflt := (redundancy (secNat h 24 1 % 128)).2.2.1
  (if secNat h 28 4 / 2 ^ 12 = 0 then 0 else 1) + (if dflt < secNat h 32 4 then 1 else 0)
    + (if (secNat h 25 1).testBit 0 ∧ secNat h 36 4 = 0 then 1 else 0)

/-- Image registers at a seal (R361). `lead` is the gateway that leads. -/
def State.sealRegs (s : State) (h : List Nat) (lead : Nat) : State :=
  let d := imgDigest h
  let gw := ((s.img.gateways.find? (fun p => p.1 == s.pkg)).map (fun p => p.2)).getD 7
  let feed := ((s.img.feeds.find? (fun p => p.1 == s.pkg)).map (fun p => p.2)).getD 0
  let s1 := forUpTo 4 (fun i s => s.wr .hubImageDigest 0 i (leNat ((d.drop (8 * i)).take 8)))
    ((s.wr .hubImageId 0 0 (secNat h 8 8)).wr .hubExpertMask 0 0 (secNat h 28 4 % 2 ^ 12))
  ((((s1.wrF .hubImageStatus 0 0 16 2 lead).wrF .hubImageStatus 0 0 18 3 gw).wrF .hubImageStatus 0 0 21 1
    (secNat h 25 1 % 2)).wrF .hubFeed 0 0 4 4 feed).wrF .hubImageStatus 0 0 0 3 3

/-- Everything a package does on SEAL (R355 step 6, R360, R485); a run that stopped goes on from it, so the handling of every fatal record
is closed (R389; DEDUCED, log entry 115). `sweep` are the shards whose layers the image makes trainable. -/
def State.sealNow (s : State) (t : Staged) (lead : Nat) (slots : List (Nat × Nat × SlotDecl)) (sweep : List Nat) : State :=
  let h := t.head
  let secs := t.secs
  let reset := s.boot.warm || (secNat h 6 1).testBit 0
  let s := s.dropSnap
  let tag := if reset then 0xFFFF else ((s.core s.lowCore).step + 0xFFFF) % 2 ^ 16
  let img := s.sealTables h secs
  let cs := s.cores.map (fun e => (e.1, e.2.sealed reset))
  let flt := { FltSt.none with ckpts := s.flt.ckpts, misses := [] }
  let next := s.prg.nextTxn
  let lanes := s.prg.lanes
  let decls : Slots := slots.foldl (fun a x => { a with
      counts := SMap.set (fun _ => 0) a.counts x.1 (min 2048 (max (SMap.get (fun _ => 0) a.counts x.1) (x.2.1 + 1)))
      decls := SMap.set (fun _ => none) a.decls (slotKey x.1 x.2.1) (some x.2.2) }) Slots.none
  let s1 : State := { s with
    cores := cs.filter (fun e => decide (e.2 ≠ Core.reset)), saves := [], sigRetry := [], slots := decls, snap := none,
    flt := flt, img := img, prg := { Prg.none with nextTxn := next, lanes := lanes }, runStop := false }
  let s2 := (s1.clearRegs (sealClears reset)).updHost (fun q => { q with step := none, holder := none, stepGw := none })
  let s3 := forUpTo 128 (fun g s => s.wr .coreSrSeed g 0 (secNat h 40 8)) s2
  let s4 := s3.sealRegs h lead
  let own := (dirEnts h).filter (fun e => e.1.takenBy s.pkg && (e.1.load != 0 || e.1.typ == 0x20))
  let s5 := forEach own (fun e s => s.placeBytes e.1.load ((secs.getD e.2 []).take e.1.len) tag) s4
  let s6 := (s5.regLoad reset ((secBytes h secs s.pkg 0x10 0).getD [])).sealShare img.packages.length
  let s7 := ((forUpTo 16 (fun k s => s.kwLoad k) s6).routeLoad).tierReload
  let s8 := forEach ((if s.boot.warm then List.range img.shards.length else sweep).filterMap (fun i => img.shards[i]?))
    (fun x s => s.retagShard tag x) s7
  let s9 := (forUpTo (headViols h) (fun _ s => s.bump .hubImageViolCnt 0 1) s8).closeRecords (fun c => decide (1 ≤ c))
  ((((s9.updBoot (fun b => { b with warm := false })).wrF .wardDebugStatus 0 0 3 1 0).sealPower).sealPorts).updImg (fun i =>
    { i with staged := none })

/-! ## Load (R355 to R357, R482) -/

/-- Is an image load in progress or held. -/
def State.loading (s : State) : Bool := s.img.staged.isSome || s.img.held.isSome

/-- Packages of a staged domain table. -/
def State.stagedPkgs (s : State) (t : Staged) : List Nat :=
  (domTable t.head ((secBytes t.head t.secs s.pkg 1 0).getD [])).map (fun e => e.1)

/-- Gateway of a package in a staged domain table. -/
def State.stagedGw (s : State) (t : Staged) (p : Nat) : Nat :=
  (((domTable t.head ((secBytes t.head t.secs s.pkg 1 0).getD [])).find? (fun e => e.1 == p)).map (fun e => e.2.2.1)).getD 0

/-- A package's report reaches the lead (R355): a refusal ends the load, the last READY sends SEAL. A refusal that follows the first
is reported to the host too, and so is the core that a package has fenced, whose number plus 1 stands above bit 7 (R357). -/
def State.takeReady (s : State) (p report : Nat) : State :=
  let code := report % 256
  let s := if report < 256 then s else s.send (.fencedCore p (report / 256 - 1))
  match s.img.staged with
  | none => match s.img.refusedId with
    | some id => if code = 0 then s else s.send (.imageRefused p code id)
    | none => s
  | some t =>
    if 16 ≤ t.ring ∨ t.sealing then s
    else if code ≠ 0 then s.abortLoad code p
    else
      let t1 := { t with ready := t.ready.filter (fun r => r.1 != p) ++ [(p, 0)] }
      let s1 := s.updImg (fun i => { i with staged := some t1 })
      if (s.stagedPkgs t).all (fun q => t1.ready.any (fun r => r.1 == q)) then
        forEach ((s.stagedPkgs t).filter (· != s.pkg)) (fun q s => s.send (.hub 35 q [s.stagedGw t s.pkg]))
          (s1.updImg (fun i => { i with staged := some { t1 with sealing := true } }))
      else s1

/-- Stage an image: checks, STATE, and the report (R355 steps 2 to 4): once its ward has accepted the signature the lead announces the digest
to every package, whatever it finds itself. A package that does not lead is sent to it. -/
def State.stage' (s : State) (ring jid lead : Nat) (h : List Nat) (secs : List (List Nat)) (digest : List Nat) : State :=
  let c := s.checkImage h secs digest
  let t : Staged := ⟨ring, jid, h, secs, digest, [], false, lead, s.rdF .hubImageStatus 0 0 16 2⟩
  let s1 := ((c.1.updImg (fun i => { i with held := none, staged := some t, refusedId := none })).wrF .hubImageStatus 0 0 0 3
    (if c.2 = 0 then 2 else 1)).wrF .hubImageStatus 0 0 16 2 (c.1.stagedGw t lead)
  let s2 := if ring < 16 ∧ c.2 ≠ 1 then forEach ((s1.stagedPkgs t).filter (· != s.pkg)) (fun q s => s.send (.hub 33 q digest)) s1 else s1
  if c.2 ≠ 0 then s2.abortLoad c.2 s.pkg
  else if ring < 16 then s2.takeReady s.pkg 0
  else s2.send (.hub 34 lead [s.pkg, 0])

/-- A load starts at the lead (R355 step 2, R370): IMAGE_LEN must be the header's TOTAL_LEN. -/
def State.beginLoad (s : State) (j : HostJob) (head : List Nat) (secs : List (List Nat)) : State :=
  if dfld j.raw 16 0 64 ≠ secNat head 16 8 then
    (s.updImg (fun i => { i with
      held := none
      staged := some ⟨j.ring, j.id, head, secs, [], [], false, s.pkg, s.rdF .hubImageStatus 0 0 16 2⟩ })).abortLoad 0x03 s.pkg
  else s.stage' j.ring j.id s.pkg head secs (imgDigest head)

/-- The quiesce point of the partition is reached: this package is quiet, and so is every other (R359). -/
def State.atQuiesce (s : State) : Bool := s.imageState == 5 && s.img.point

/-- IMAGE_LOAD (R31, R32, R339, R355, R356, R369, R370): the gateway takes its next IMAGE_LOAD job and leads it. With an image
sealed the job is held until the quiesce point. `head` (header, directory, signature) and `secs` (the sections in directory
order) are what its DMA reads return. -/
def execImageLoad (head : List Nat) (secs : List (List Nat)) (s : State) : Host.Outcome State Fault Refusal :=
  .next (if s.hub.h1Down ∨ s.pwrState ≠ 3 then s
    else match (if s.atQuiesce && s.img.staged.isNone then s.img.held.bind (fun h => s.hostJob h.2) else none) with
    | some j => s.beginLoad j head secs
    | none => match s.nextJob jobImage with
      | none => s
      | some j =>
        let a := dfld j.raw 8 0 64
        let len := dfld j.raw 16 0 64
        let s0 := if a % 64 = 0 then s else s.hostViol 8 a
        if s.loading then (s0.holdRefusal 0x0F).finishJob j.id 0x48 (0x0F + 256 * s.pkg)
        else if (s.winFor (a / 64 * 64) len 2).isNone then (s0.hostViol 8 a).finishJob j.id 0x42 0
        else
          let s1 := s0.updJob j.id (fun k => { k with begun := true })
          if s.isSealed && !s.atQuiesce then s1.updImg (fun i => { i with held := some (j.ring, j.id) })
          else s1.beginLoad j head secs)

/-- READY (R355 steps 3 and 4): with `from` none, this package has been told the digest by the lead in package `lead` and has fetched
the image; else the report of a package reaches the lead. -/
def execReady (report : Option (Nat × Nat)) (lead : Nat) (digest head : List Nat) (secs : List (List Nat)) (s : State) :
    Host.Outcome State Fault Refusal :=
  .next (match report with
    | some (p, code) => s.takeReady p code
    | none =>
      if s.pwrState ≠ 3 ∨ s.loading ∨ (s.isSealed ∧ s.imageState ≠ 5) then s else s.stage' 16 0 lead head secs digest)

/-- Every package of the partition has sealed: the lead completes the job and reports the protection (R354, R355 step 7). -/
def State.sealDone (s : State) (jid : Nat) : State := (s.finishJob jid stDone 0).writeProt

/-- An acknowledgement of SEAL reaches the lead. -/
def State.takeSealed (s : State) (p : Nat) : State :=
  let s1 := s.updImg (fun i => { i with sealed := i.sealed.filter (· != p) ++ [p] })
  match s.img.quiesce with
  | some (_, jid) =>
    if s1.imageState = 3 ∧ s1.img.packages.all s1.img.sealed.contains then
      (s1.updImg (fun i => { i with quiesce := none, sealed := [] })).sealDone jid
    else s1
  | none => s1

/-- SEAL (R237, R355 steps 5 to 7, R360): with `ack` none, the lead (gateway `lead`) has every READY and this package seals what it has
staged; else the acknowledgement of a package reaches the lead. `slots` are the reduction-buffer slots that the image declares
for the islands, `sweep` the shards of layers that become trainable. -/
def execSeal (ack : Option Nat) (lead : Nat) (slots : List (Nat × Nat × SlotDecl)) (sweep : List Nat) (s : State) :
    Host.Outcome State Fault Refusal :=
  .next (match ack with
    | some p => s.takeSealed p
    | none => match s.img.staged with
      | none => s
      | some t =>
        if t.ring < 16 then
          (if t.sealing then
            let acks := s.img.sealed
            ((s.sealNow t (s.stagedGw t s.pkg) slots sweep).updImg (fun i => { i with quiesce := some (t.ring, t.jid), sealed := acks })).takeSealed
              s.pkg
          else s)
        else
          let s1 := s.sealNow t (lead % 4) slots sweep
          match s1.img.gateways.find? (fun p => p.2 == lead % 4) with
          | some (p, _) => s1.send (.hub 37 p [s.pkg])
          | none => s1)

/-- ABORT (R355, R357): the lead discards the load for a code and a package, or its ABORT, which names the package that refuses, reaches a
package. Once SEAL has been sent the load completes. -/
def execAbort (code pkg : Nat) (s : State) : Host.Outcome State Fault Refusal :=
  .next (match s.img.staged with
    | some t =>
      if t.sealing then s
      else if t.ring < 16 then s.abortLoad (code % 2 ^ 8) (pkg % 64)
      else if pkg % 64 = s.pkg then s.dropLoad.holdRefusal (code % 2 ^ 8) else s.dropLoad
    | none => s)

/-- STAGING_TIMEOUT (R482): a package has not answered the lead within 10 s. -/
def execStagingTimeout (pkg : Nat) (s : State) : Host.Outcome State Fault Refusal :=
  .next (match s.img.staged with
    | some t =>
      if t.ring < 16 ∧ !t.sealing ∧ (s.stagedPkgs t).contains pkg ∧ !t.ready.any (fun r => r.1 == pkg) then s.abortLoad 0x0E pkg
      else s
    | none => s)

/-! ## Quiesce points (R39, R358, R359) -/

/-- Resident state objects with dirty pages are cleaned as FLUSH would (R359 step 3). -/
def State.cleanAll (s : State) : State :=
  forEach s.tier.objs (fun e s => match e.2 with
    | some x => if x.kind = 1 ∧ x.state = .resident ∧ !(s.dirtyPages x).isEmpty then
        s.setObj e.1 { x with state := .cleaning, next := 0, failed := false, joined := [], promote := [] } else s
    | none => s) s

/-- The ledger check (R38, R39), as (ledger, island, declared, counted): every keyway's credits add up to RX_CREDITS; a tile queue holds
at most its 16 slots, and no reduction-buffer slot is still out for a read-out; the two copies of every tumbler and latch agree, and
a latch's tallies stand only where they may; the units that a die pool has issued are those that its islands hold. -/
def State.ledgers (s : State) : List (Nat × Nat × Nat × Nat) :=
  let copies := fun (kind : Nat) => s.workers.flatMap (fun g => ((s.core g).dup.filter (fun d => d.1 == kind)).map (fun d =>
    (kind + 2, g, s.copy0 g kind d.2.1 d.2.2.1, d.2.2.2)))
  (s.prg.kws.filterMap (fun e => match e.2 with
    | some q => if q.free + q.out + q.occ + q.pend = q.rx then none
        else some (0, 144 + e.1 / 4096, q.rx, q.free + q.out + q.occ + q.pend)
    | none => none))
  ++ ((List.range 128).filterMap (fun g =>
    if (s.core g).hng.tq.length ≤ 16 then none else some (1, g, 16, (s.core g).hng.tq.length)))
  ++ ((List.range 8).filterMap (fun d =>
    let n := SMap.get (fun _ => 0) s.slots.counts d
    let out := (s.slots.reading.filter (fun k => k / 2048 == d)).length
    if out = 0 then none else some (1, 128 + d, n, n - out)))
  ++ copies 0 ++ copies 1
  ++ (s.workers.flatMap (fun g => (List.range 64).filterMap (fun m =>
    let v := s.latch g m
    if v.count ≤ v.cap ∧ (v.ovf = 0 ∨ v.count = v.cap) ∧ (v.udf = 0 ∨ v.count = 0) then none else some (3, g, v.cap, v.count))))
  ++ ((List.range 8).filterMap (fun d =>
    let held := ((dieIslands d).map s.grant).foldl (· + ·) 0
    if held = s.poolIssued d then none else some (4, pwrIsland, s.poolIssued d, held)))

/-- Enter quiescing under a gateway, which leads the job (R339, R361). -/
def State.quiesceStart (s : State) (lead : Nat) : State :=
  if s.imageState = 3 then (((s.wrF .hubImageStatus 0 0 0 3 4).wrF .hubImageStatus 0 0 16 2 lead).updImg (fun i => { i with point := false })).cleanAll else s

/-- QUIESCE (R339, R359): `order` is a kind and a gateway. 0: the gateway takes its next QUIESCE job and leads it; 1: the order of that
gateway reaches this package; 2: a STEP job has ended the quiesce point. -/
def execQuiesce (order : Nat × Nat) (s : State) : Host.Outcome State Fault Refusal :=
  .next (if order.1 = 1 then s.quiesceStart (order.2 % 4)
    else if order.1 = 2 then (if s.imageState = 5 then
        (s.wrF .hubImageStatus 0 0 0 3 3).updImg (fun i => { i with point := false }) else s)
    else match s.nextJob jobQuiesce with
    | none => s
    | some j =>
      if s.img.quiesce.isSome ∨ s.hub.h1Down ∨ (s.imageState = 5 ∧ s.img.point = false) then s
      else if !s.isSealed ∨ s.imageState = 5 then s.finishJob j.id stDone (s.core s.lowCore).step
      else
        let s1 := (s.updJob j.id (fun k => { k with begun := true })).updImg (fun i => { i with
          quiesce := some (j.ring, j.id), quiet := [] })
        (s1.quiesceStart (s.gateway.getD 0)).tellAll 38 [s.gateway.getD 0])

/-- A package is quiet: with the last one the partition is at its quiesce point, of which the lead tells the host and the packages (hub
message 52). -/
def State.takeQuiet (s : State) (p : Nat) : State :=
  let s1 := s.updImg (fun i => { i with quiet := i.quiet.filter (· != p) ++ [p] })
  match s.img.quiesce with
  | some (_, jid) =>
    if s1.img.packages.all s1.img.quiet.contains then
      ((s1.updImg (fun i => { i with quiesce := none, quiet := [], point := true })).tellAll 52 []).finishJob jid stDone
        (s1.core s1.lowCore).step
    else s1
  | none => s1

/-- QUIET (R39, R323, R358, R359): with `arrived` none, this package meets every condition, its routes return to their primaries, it checks
its ledgers and reports QUIET; else the report of a package reaches the lead. -/
def execQuiet (arrived : Option Nat) (s : State) : Host.Outcome State Fault Refusal :=
  .next (match arrived with
    | some p => s.takeQuiet p
    | none =>
      if s.imageState ≠ 4 then s
      else if !s.quiesced then s.cleanAll
      else
        let s1 := forEach s.ledgers (fun l s => s.queue .hubConservation hubIsland none
          (.gen l.1 l.2.1 0 0 l.2.2.1 l.2.2.2)) (s.wrF .hubImageStatus 0 0 0 3 5).backToPrimary
        if s1.img.quiesce.isSome then s1.takeQuiet s1.pkg else s1.tellLead 39 [s1.pkg])

/-! ## The lead (R339, R411) -/

/-- Does a set of packages that are reached make more than half of the partition. -/
def State.mostly (s : State) (reach : List Nat) : Bool :=
  decide (s.img.packages.length < 2 * (s.img.packages.filter (fun p => p == s.pkg || reach.contains p)).length)

/-- LEAD_TAKEOVER (R339): with `announced` none, this gateway has had no answer from the lead for 100 µs, which it reports to every
gateway that it reaches (hub message 48); `reach` are the packages that it reaches, `others` the gateways that report and reach more
than half. Else a gateway announces itself. -/
def execLeadTakeover (announced : Option Nat) (reach others : List Nat) (s : State) : Host.Outcome State Fault Refusal :=
  .next (if !s.isSealed then s
    else match announced with
    | some g => if s.img.gateways.any (fun p => p.2 == g) then s.wrF .hubImageStatus 0 0 16 2 g else s
    | none => match s.gateway with
      | none => s
      | some me =>
        if s.isLead then s
        else
          let s1 := forEach (s.img.gateways.filter (fun p => p.1 != s.pkg && reach.contains p.1)) (fun p s =>
            s.send (.hub 48 p.1 [me])) s
          if s.mostly reach && others.all (fun g => decide (me ≤ g)) then (s1.wrF .hubImageStatus 0 0 16 2 me).tellAll 32 [me]
          else s1)

/-- HUB_HEARTBEAT (R339, R411): with `arrived` none, this hub sends its heartbeat to the lead's; else the lead answers the heartbeat of a
package. -/
def execHubHeartbeat (arrived : Option Nat) (s : State) : Host.Outcome State Fault Refusal :=
  .next (if !s.isSealed then s
    else match arrived with
    | none => if s.isLead then s else s.tellLead 30 [s.pkg]
    | some p => if s.isLead then s.send (.hub 31 p []) else s)

/-- Every link over which this package reaches another is down. -/
def State.linksDown (s : State) (p : Nat) : Bool :=
  !s.prg.kws.any (fun e => match e.2 with
    | some q => q.peer == p && (s.link (s.kwLink e.1 q)).up
    | none => false)

/-- A snapshot of which the lost package has not stored every page is abandoned; the lead, which knows, tells the others (R409; hub
message 51). -/
def State.loseSnap (s : State) (p : Nat) : State := match s.snap with
  | some q => if !s.isLead || q.stored.contains p then s else s.dropSnap.tellAll 51 [q.step]
  | none => s

/-- A package is lost (R411): the partition stops at its restore generation; its vaults are lost. -/
def State.loseNow (s : State) (p : Nat) : State :=
  if s.img.lost.contains p then s
  else ((s.loseSnap p).updImg (fun i => { i with lost := i.lost ++ [p] })).updFlt (fun f => { f with stopAtGen := true })

/-- PACKAGE_LOST (R339, R411): `announced`: the lead declares the loss of a package to this hub; else the lead has had no heartbeat of it
for 100 µs; `reach` are the packages that the lead reaches. The lead queues a record that names it, lists the shards that still have a
copy, and in replica mode names each that has none. -/
def execPackageLost (pkg : Nat) (announced : Bool) (reach : List Nat) (s : State) : Host.Outcome State Fault Refusal :=
  .next (if !s.img.packages.contains pkg ∨ pkg = s.pkg then s
    else if announced then s.loseNow pkg
    else if !s.isLead ∨ s.img.lost.contains pkg ∨ reach.contains pkg ∨ !s.linksDown pkg ∨ !s.mostly reach then s
    else
      let s1 := (s.loseNow pkg).queue .fltPackageLost hubIsland none (.gen 0 pkg 0 0 0 0)
      let gone := (List.range s.img.shards.length).filter (fun i => (s.img.shards[i]?).any (fun x =>
        (x.ranks.filterMap s.rankAt).all (fun q => s1.img.lost.contains q.1)))
      let s2 := if s.ckptMode then s1 else forEach gone (fun i s => s.queue .fltShardLost hubIsland none
        (.gen 0 0 (((s.img.shards[i]?).map (fun x => x.owner)).getD 0) i 0 0))
        (s1.send (.shardsLeft ((List.range s.img.shards.length).filter (fun i => !gone.contains i))))
      (s2.updImg (fun i => { i with lostRep := (i.lostRep ++ gone).eraseDups })).tellAll 43 [pkg])

end Sys2Proof.Machine
end

