-- ==== Sys2Proof/Machine/Hub.lean ====
section
/-! DEFINITION. The hub's management side: the relay and register writes, time correlation and clock measurement, MCTP,
vendor-defined commands, SPDM, PLDM (R429, R430, R433, R474, R478, R498 to R508). -/

namespace Sys2Proof.Machine

/-! ## Register writes, the relay and the debug port (R20, R433, R496, R498) -/

/-- REGISTER_WRITE (R20, R496): a write of 4 or 8 bytes over BAR0 (`path` 0) or MCTP (1). -/
def execRegisterWrite (path off bytes value : Nat) (s : State) : Host.Outcome State Fault Refusal :=
  .next (if s.pwrState = 0 ∨ 2 ≤ path then s else (s.regWrite path off bytes (value % 2 ^ 64)).1)

/-- RELAY_GO (R498): GO of HUB_RELAY_CTL with its WRITE bit. -/
def execRelayGo (write : Bool) (s : State) : Host.Outcome State Fault Refusal :=
  .next (if s.pwrState = 0 then s else s.relayGo (1 + 2 * oneIf write))

/-- Registers of core `g` that the debug port may write (R433): its own, but no synchronisation state. -/
def debugWritable (g : Nat) (x : Reg × Nat × Nat) : Bool := x.1.desc.sub.inCore && x.1.desc.sub != .syn && x.2.1 == g

/-- DEBUG_REG_WRITE (R431 to R433): in a D2 session whose scope allows it, 8 bytes of a halted core's stage memory or registers,
the latter under their access codes; the write taints the run. -/
def execDebugRegWrite (core off value : Nat) (stage : Bool) (s : State) : Host.Outcome State Fault Refusal :=
  .next (if s.scope 1 && (s.core core).halted && s.running core then
      (if stage then
        (if off + 8 ≤ stgBytes then (s.putStg core off (leBytes 8 value)).taint else s)
      else match regSlot (off / 8 * 8) with
      | none => s
      | some x =>
        if debugWritable core x then
          (s.writeSlot s.writer x.1 x.2.1 x.2.2 (if x.1.desc.wide then value % 2 ^ 64 else value % 2 ^ 32)).taint
        else s)
    else s)

/-! ## Time and clocks (R500, R501) -/

/-- An island that holds no clock: a core island in Dark. -/
def State.islandDark (s : State) (i : Nat) : Bool := decide (i < 128) && s.coreState i == 3

/-- TS_CORR_GO (R500). -/
def execTsCorrGo (island : Nat) (s : State) : Host.Outcome State Fault Refusal :=
  .next (if s.pwrState = 0 then s else s.corrGo (island % 256))

/-- A correlation ends with the island's count (R500); one of a Dark island ends with VALID clear. -/
def State.corrEnd (s : State) (island t0 count : Nat) : State :=
  let s1 := (s.updHub (fun h => { h with corr := none })).wrF .hubTsCorrCtl 0 0 9 2 0
  if s.islandDark island then s1
  else
    let t1 := s.hubTime
    ((s1.wrF .hubTsCorrCtl 0 0 10 1 1).wr .hubTsCorrIsl 0 0 (count % 2 ^ 64)).wr .hubTsCorrT1 0 0
      (t1 % 2 ^ 48 + min 0xFFFF ((t1 - t0) / 2) * 2 ^ 48)

/-- TS_CORR_SAMPLE (R500): the island's count arrives. -/
def execTsCorrSample (count : Nat) (s : State) : Host.Outcome State Fault Refusal :=
  .next (match s.hub.corr with
    | none => s
    | some (i, t0) => s.corrEnd i t0 count)

/-- Samples of an island, newest first. -/
def State.samplesOf (s : State) (i : Nat) : List (Nat × Nat × Nat) := SMap.get (fun _ => []) s.hub.samples i

/-- TLM_CORRELATION (R500): a period of HUB_TLM_CTL.CORR_US ends; the counts of the 168 islands are sampled, Dark ones apart. -/
def execTlmCorrelation (counts : List Nat) (s : State) : Host.Outcome State Fault Refusal :=
  .next (if s.pwrState = 0 then s
    else forUpTo 168 (fun i s =>
      if s.islandDark i then s
      else s.updHub (fun h => { h with
        samples := SMap.set (fun _ => []) h.samples i
          (((s.hubTime, counts.getD i 0, SMap.get (fun _ => 0) s.pwr.freq i) :: s.samplesOf i).take 2) })) s)

/-- Hub time of an island's count (R500), and whether it is approximate: between the two newest samples by linear interpolation;
across a retune, and outside them, by the newest sample and its frequency. -/
def State.toHubTime (s : State) (i count : Nat) : Option (Nat × Bool) :=
  match s.samplesOf i with
  | [] => none
  | [b] => some (b.1 + (count - b.2.1) * 1000 / max 1 b.2.2, true)
  | b :: a :: _ =>
    if a.2.2 ≠ b.2.2 ∨ b.2.1 ≤ a.2.1 ∨ count < a.2.1 ∨ b.2.1 < count then some (b.1 - (b.2.1 - count) * 1000 / max 1 b.2.2, true)
    else some (a.1 + (count - a.2.1) * (b.1 - a.1) / (b.2.1 - a.2.1), false)

/-- CLK_MEAS_WINDOW (R501): a window of 1 ms ends; `means` are the mean frequencies measured, by island index. A Dark island reads
0. -/
def execClkMeasWindow (means : List Nat) (s : State) : Host.Outcome State Fault Refusal :=
  .next (if s.pwrState = 0 then s
    else forUpTo 168 (fun i s => s.wr .hubClkMeas 0 i (if s.islandDark i then 0 else min 0xFFF (means.getD i 0))) s)

/-! ## MCTP (R503): binding 0 SMBus, 1 PCIe vendor-defined messages -/

def State.mctpHas (s : State) (b : Nat) : Bool := b == 0 || (b == 1 && s.gateway.isSome)
def State.eid (s : State) (b : Nat) : Nat := s.rdF .hubMctpEid 0 0 (8 * b) 8
/-- HUB_MCTP_CTL accepts the binding. -/
def State.mctpOpen (s : State) (b : Nat) : Bool := (s.rd .hubMctpCtl 0 0).testBit (1 - b)
/-- A discarded message. -/
def State.mctpDrop (s : State) (b : Nat) : State := s.viol .hubMctpViolCnt 0 0xFF 0xFFFFFFFF 0xFF b

/-- A message reaches the hub: without an endpoint ID only control messages (`control`) are answered; in recovery only what
`inRec` marks, over SMBus (R478). -/
def State.mctpTake (s : State) (b : Nat) (control inRec : Bool) (serve : State → State) : State :=
  if s.pwrState = 0 ∨ !s.mctpHas b then s
  else if !s.mctpOpen b ∨ (!control ∧ s.eid b = 0) ∨ (s.boot.recovery ∧ !(inRec && b == 0)) then s.mctpDrop b
  else serve s

/-- Answer an MCTP control command: command, completion code, data. -/
def State.ctlAnswer (s : State) (b cmd code : Nat) (data : List Nat) : State := s.send (.mctp b ([0x00, cmd, code] ++ data))

/-- SET_ENDPOINT_ID (R503): operations 0 and 1 assign the ID; other operations, and the IDs 0 and 0xFF, are invalid data. -/
def execSetEndpointId (b op eid : Nat) (s : State) : Host.Outcome State Fault Refusal :=
  .next (s.mctpTake b true true (fun s =>
    if 2 ≤ op ∨ eid % 256 = 0 ∨ eid % 256 = 0xFF then s.ctlAnswer b 1 2 []
    else (s.wrF .hubMctpEid 0 0 (8 * b) 8 (eid % 256)).ctlAnswer b 1 0 [0, eid % 256, 0]))

/-- GET_ENDPOINT_ID (R503): a simple endpoint with a dynamic ID. -/
def execGetEndpointId (b : Nat) (s : State) : Host.Outcome State Fault Refusal :=
  .next (s.mctpTake b true true (fun s => s.ctlAnswer b 2 0 [s.eid b, 0, 0]))

/-- GET_MCTP_VERSION_SUPPORT (R503): 1.3 for the base; the spec gives no version of the other types. -/
def execGetMctpVersionSupport (b typ : Nat) (s : State) : Host.Outcome State Fault Refusal :=
  .next (s.mctpTake b true true (fun s =>
    if typ = 0xFF ∨ typ = 0 then s.ctlAnswer b 4 0 [1, 0xF1, 0xF3, 0xFF, 0]
    else if typ = 1 ∨ typ = 5 ∨ typ = 0x7E then
      s.ctlAnswer b 4 0 (1 :: (List.range 4).map (fun i => Config.freeByte 11 typ i % 256))
    else s.ctlAnswer b 4 0x80 []))

/-- GET_MESSAGE_TYPE_SUPPORT (R503): the types beside control. -/
def execGetMessageTypeSupport (b : Nat) (s : State) : Host.Outcome State Fault Refusal :=
  .next (s.mctpTake b true true (fun s => s.ctlAnswer b 5 0 [3, 0x01, 0x05, 0x7E]))

/-- GET_VENDOR_DEFINED_MSG_SUPPORT (R503): one set, the PCI vendor ID. -/
def execGetVendorDefinedMsgSupport (b sel : Nat) (s : State) : Host.Outcome State Fault Refusal :=
  .next (s.mctpTake b true true (fun s =>
    if sel = 0 then s.ctlAnswer b 6 0 ([0xFF, 0] ++ vdmHead.drop 1 ++ [0, 0]) else s.ctlAnswer b 6 2 []))

/-! ## Vendor-defined commands (R504) -/

/-- A vendor-defined request of the binding is in progress. -/
def State.vdmBusy (s : State) (b : Nat) : Bool := s.hub.relays.any (fun r => r.1 == b + 1)
/-- Serve a vendor-defined command; BUSY when one is in progress. -/
def State.vdmTake (s : State) (b cmd : Nat) (inRec : Bool) (serve : State → State) : State :=
  s.mctpTake b false inRec (fun s => if s.vdmBusy b then s.vdmAnswer b cmd 3 [] else serve s)

/-- REG_READ (R504). -/
def execRegRead (b addr : Nat) (s : State) : Host.Outcome State Fault Refusal :=
  .next (s.vdmTake b 1 false (fun s => s.relayRun (b + 1) addr false 0 2))
/-- REG_WRITE (R504). -/
def execRegWrite (b addr value : Nat) (s : State) : Host.Outcome State Fault Refusal :=
  .next (s.vdmTake b 2 false (fun s => s.relayRun (b + 1) addr true (value % 2 ^ 64) 2))
/-- WARD_SUBMIT (R504): a block of 64 to 576 bytes goes to the ward; its answer comes with WARD_RESULT. -/
def execWardSubmit (b : Nat) (block : List Nat) (s : State) : Host.Outcome State Fault Refusal :=
  .next (s.vdmTake b 3 false (fun s =>
    if block.length < 64 ∨ 576 < block.length then s.vdmAnswer b 3 2 [] else s.wardTake (block.map (· % 256))))
/-- WARD_RESULT (R504): WARD_MBOX_STATUS, then the payload of the last result. -/
def execWardResult (b : Nat) (s : State) : Host.Outcome State Fault Refusal :=
  .next (s.vdmTake b 4 false (fun s => s.vdmAnswer b 4 0 (leBytes 4 (s.rd .wardMboxStatus 0 0) ++ s.ward.answer)))
/-- NONCE (R425, R504). -/
def execNonce (b : Nat) (s : State) : Host.Outcome State Fault Refusal :=
  .next (s.vdmTake b 5 false (fun s =>
    let s1 := s.newNonce
    if s.ward.rngBad then s1.vdmAnswer b 5 2 []
    else s1.vdmAnswer b 5 0 (leBytes 8 (s1.rd .wardDbgNonce 0 0) ++ leBytes 8 (s1.rd .wardDbgNonce 0 1))))

/-- A boot directory (R474). -/
def dirBytes (seq active : Nat) : List Nat :=
  let b := leBytes 4 0x5244584B ++ leBytes 4 seq ++ [active % 2] ++ List.replicate 51 0
  b ++ leBytes 4 (crc32c b)

/-- The directory is written (R474): the copy with the lower SEQ, a bad one first, takes SEQ + 1 and the other set. -/
def State.flipDir (s : State) : State :=
  let act := 1 - s.activeSet
  match dirOf (s.flashAt 0 64), dirOf (s.flashAt 0x1000 64) with
  | some a, some b => if b.1 < a.1 then s.putBoot 0x1000 (dirBytes (a.1 + 1) act) else s.putBoot 0 (dirBytes (b.1 + 1) act)
  | some a, none => s.putBoot 0x1000 (dirBytes (a.1 + 1) act)
  | none, some b => s.putBoot 0 (dirBytes (b.1 + 1) act)
  | none, none => s.putBoot 0 (dirBytes 1 act)

/-- Bytes of a firmware set as laid out in its region, trailers included (R473). -/
def setBytes : Nat := 0xB00000

/-- RECOVERY_WRITE (R478, R504): up to 960 bytes of a set go into the inactive region; the write that ends the set is followed by
that of the directory. -/
def execRecoveryWrite (b off : Nat) (data : List Nat) (s : State) : Host.Outcome State Fault Refusal :=
  .next (s.vdmTake b 6 true (fun s =>
    if !s.boot.recovery then s.vdmAnswer b 6 1 []
    else if 960 < data.length ∨ setBytes < off + data.length then s.vdmAnswer b 6 2 []
    else
      let s1 := s.putBoot ((objPlace (1 - s.activeSet) 1).1 + off) data
      (if off + data.length = setBytes then s1.flipDir else s1).vdmAnswer b 6 0 []))

/-! ## SPDM (R429, R430): path 0 and 1 as the bindings of MCTP, 2 the DOE mailbox -/

def State.spdmOf (s : State) (p : Nat) : Spdm := SMap.get (fun _ => Spdm.none) s.hub.spdm p
def State.setSpdm (s : State) (p : Nat) (x : Spdm) : State :=
  s.updHub (fun h => { h with spdm := SMap.set (fun _ => Spdm.none) h.spdm p x })
def State.spdmSend (s : State) (p : Nat) (msg : List Nat) : State := s.send (.mctp p (if p = 2 then msg else 0x05 :: msg))
def State.spdmError (s : State) (p code data : Nat) : State := s.spdmSend p [0x12, 0x7F, code, data]

/-- Codes of the requests that R429 supports. -/
def spdmCodes : List Nat := [0x84, 0xE1, 0xE3, 0x81, 0x82, 0x83, 0xE0]

/-- Serve a request `code` that needs the exchange at stage `need`; a request that R429 does not support is answered with
UnsupportedRequest. -/
def State.spdmServe (s : State) (p code need : Nat) (req : List Nat) (answer : State → Spdm → State) : State :=
  let serve := fun (s : State) =>
    let c := req.getD 1 0
    if req.length < 4 then s.spdmError p 1 0
    else if !spdmCodes.contains c then s.spdmError p 7 c
    else if c ≠ code then s
    else if code ≠ 0x84 ∧ req.headD 0 ≠ 0x12 then s.spdmError p 0x41 0
    else if (s.spdmOf p).stage < need then s.spdmError p 4 0
    else answer s (s.spdmOf p)
  if p = 2 then (if s.pwrState = 0 ∨ s.gateway.isNone ∨ s.boot.recovery then s else serve s)
  else s.mctpTake p false (code == 0x84) serve

/-- GET_VERSION (R429): SPDM 1.2; the exchange begins again. -/
def execGetVersion (p : Nat) (req : List Nat) (s : State) : Host.Outcome State Fault Refusal :=
  .next (s.spdmServe p 0x84 0 req (fun s _ =>
    let rsp := [0x10, 0x04, 0, 0, 0, 1, 0x00, 0x12]
    (s.setSpdm p ⟨1, req ++ rsp, [], []⟩).spdmSend p rsp))

/-- GET_CAPABILITIES (R429): certificates, challenge, signed and fresh measurements; no sessions. -/
def execGetCapabilities (p : Nat) (req : List Nat) (s : State) : Host.Outcome State Fault Refusal :=
  .next (s.spdmServe p 0xE1 1 req (fun s x =>
    let rsp := [0x12, 0x61, 0, 0, 0, Config.freeByte 12 0 0 % 256, 0, 0] ++ leBytes 4 0x36 ++ leBytes 4 1024 ++ leBytes 4 1024
    (s.setSpdm p ⟨2, x.vca ++ req ++ rsp, [], []⟩).spdmSend p rsp))

/-- NEGOTIATE_ALGORITHMS (R429): ECDSA over P-256, SHA-256, measurement specification DMTF. -/
def execNegotiateAlgorithms (p : Nat) (req : List Nat) (s : State) : Host.Outcome State Fault Refusal :=
  .next (s.spdmServe p 0xE3 2 req (fun s x =>
    let rsp := [0x12, 0x63, 0, 0, 36, 0, 1, 0] ++ leBytes 4 2 ++ leBytes 4 0x10 ++ leBytes 4 1 ++ List.replicate 16 0
    (s.setSpdm p ⟨3, x.vca ++ req ++ rsp, [], []⟩).spdmSend p rsp))

/-- The certificate chain of slot 0 in the boot flash (R429, R473): its first two bytes are its length. -/
def State.certChain (s : State) : List Nat := s.flashAt 0x10000 (leNat (s.flashAt 0x10000 2))
def State.provisioned (s : State) : Bool := s.ward.priv != 0

/-- GET_DIGESTS (R429): slot 0 only; without an identity no slot. -/
def execGetDigests (p : Nat) (req : List Nat) (s : State) : Host.Outcome State Fault Refusal :=
  .next (s.spdmServe p 0x81 3 req (fun s x =>
    if !s.provisioned then s.spdmError p 5 0
    else
      let rsp := [0x12, 0x01, 0, 1] ++ sha256 s.certChain
      (s.setSpdm p ⟨3, x.vca, x.m1 ++ req ++ rsp, []⟩).spdmSend p rsp))

/-- GET_CERTIFICATE (R429): a portion of the chain of slot 0. -/
def execGetCertificate (p : Nat) (req : List Nat) (s : State) : Host.Outcome State Fault Refusal :=
  .next (s.spdmServe p 0x82 3 req (fun s x =>
    let off := leNat ((req.drop 4).take 2)
    let len := leNat ((req.drop 6).take 2)
    let chain := s.certChain
    if !s.provisioned ∨ req.getD 2 0 ≠ 0 ∨ req.length < 8 ∨ chain.length ≤ off then s.spdmError p 1 0
    else
      let part := ((chain.drop off).take len).take 1008
      let rsp := [0x12, 0x02, 0, 0] ++ leBytes 2 part.length ++ leBytes 2 (chain.length - off - part.length) ++ part
      (s.setSpdm p ⟨3, x.vca, x.m1 ++ req ++ rsp, []⟩).spdmSend p rsp))

/-! ### Measurements (R430) -/

/-- The value of a measurement block. The spec does not give the ward ROM, whose digest block 1 holds. -/
def State.measurement (s : State) (n : Nat) : List Nat :=
  if n = 1 then (List.range 32).map (fun i => Config.freeByte 10 0 i % 256)
  else if n = 2 then s.boot.objs.getD 0 []
  else if n = 3 then s.boot.objs.getD 1 []
  else if n = 4 then
    (if s.isSealed then (List.range 4).flatMap (fun i => leBytes 8 (s.rd .hubImageDigest 0 i)) ++ leBytes 8 (s.rd .hubImageId 0 0)
     else List.replicate 40 0)
  else if n = 5 then leBytes 4 (s.rd .wardSvn 0 0) ++ leBytes 4 (s.rd .wardLifecycle 0 0)
  else leBytes 4 (s.rd .wardDebugStatus 0 0) ++ leBytes 4 (s.rd .pwrStatus 0 0)

/-- A measurement block: index, specification, size, kind of value, value. -/
def State.measBlock (s : State) (n : Nat) : List Nat :=
  let v := s.measurement n
  [n, 1] ++ leBytes 2 (v.length + 3) ++ [if n = 1 then 0x00 else if n ≤ 3 then 0x81 else 0x83] ++ leBytes 2 v.length ++ v
def State.measAll (s : State) : List Nat := (List.range 6).flatMap (fun i => s.measBlock (i + 1))

/-- The ward signs a transcript with slot 0 (R429). -/
def State.spdmSign (s : State) (context : String) (msgs : List Nat) : State × List Nat :=
  let head := (List.replicate 4 ("dmtf-spdm-v1.2.*".toList.map Char.toNat)).flatten
  let ctx := context.toList.map Char.toNat
  let d := s.drawScalar
  let g := ecdsaSign s.ward.priv d.2 (beNat (sha256 (head ++ List.replicate (36 - ctx.length) 0 ++ ctx ++ sha256 msgs)))
  (d.1, beBytes 32 g.1 ++ beBytes 32 g.2)

/-- Random bytes of a response's nonce. -/
def State.drawNonce (s : State) : State × List Nat :=
  let d := s.draw 256
  (d.1, leBytes 32 d.2)

/-- CHALLENGE (R418, R429): CHALLENGE_AUTH, signed by the ward with slot 0; refused while the entropy source fails. -/
def execChallenge (p : Nat) (req : List Nat) (s : State) : Host.Outcome State Fault Refusal :=
  .next (s.spdmServe p 0x83 3 req (fun s x =>
    if !s.provisioned ∨ req.getD 2 0 ≠ 0 ∨ req.length < 36 then s.spdmError p 1 0
    else if s.ward.rngBad then s.spdmError p 5 0
    else
      let n := s.drawNonce
      let sum := if req.getD 3 0 = 0 then [] else sha256 s.measAll
      let body := [0x12, 0x03, 0, 1] ++ sha256 s.certChain ++ n.2 ++ sum ++ [0, 0]
      let g := n.1.spdmSign "responder-challenge_auth signing" (x.vca ++ x.m1 ++ req ++ body)
      (g.1.setSpdm p ⟨3, x.vca, [], []⟩).spdmSend p (body ++ g.2)))

/-- GET_MEASUREMENTS (R418, R429, R430): the number of blocks, one block or all of them; signed when asked, and then refused while
the entropy source fails. A Blank package refuses it (R422). -/
def execGetMeasurements (p : Nat) (req : List Nat) (s : State) : Host.Outcome State Fault Refusal :=
  .next (s.spdmServe p 0xE0 3 req (fun s x =>
    let op := req.getD 3 0
    let signed := (req.getD 2 0).testBit 0
    if !s.provisioned ∨ (signed ∧ (req.length < 37 ∨ req.getD 36 0 ≠ 0)) ∨ (6 < op ∧ op ≠ 0xFF) then s.spdmError p 1 0
    else if signed ∧ s.ward.rngBad then s.spdmError p 5 0
    else
      let rec' := if op = 0 then [] else if op = 0xFF then s.measAll else s.measBlock op
      let n := s.drawNonce
      let body := [0x12, 0x60, if op = 0 then 6 else 0, 0, if op = 0 then 0 else if op = 0xFF then 6 else 1]
        ++ leBytes 3 rec'.length ++ rec' ++ n.2 ++ [0, 0]
      let l1 := x.l1 ++ req ++ body
      if signed then
        let g := n.1.spdmSign "responder-measurements signing" (x.vca ++ l1)
        (g.1.setSpdm p ⟨3, x.vca, x.m1, []⟩).spdmSend p (body ++ g.2)
      else (n.1.setSpdm p ⟨3, x.vca, x.m1, l1⟩).spdmSend p body))

/-- SPDM_BUSY_TIMEOUT (R429): a request of path `p` has waited 100 ms behind another path's. -/
def execSpdmBusyTimeout (p : Nat) (s : State) : Host.Outcome State Fault Refusal :=
  .next (if s.pwrState = 0 ∨ 3 ≤ p ∨ (p ≠ 0 ∧ s.gateway.isNone) ∨ s.boot.recovery then s else s.spdmError p 3 0)

/-! ## PLDM (R505 to R508) -/

def idRange (a n : Nat) : List Nat := (List.range n).map (a + ·)
/-- Numeric sensors (R506). -/
def numSensors : List Nat :=
  [0x0001] ++ idRange 0x10 4 ++ idRange 0x20 4 ++ idRange 0x30 8 ++ idRange 0x40 8 ++ idRange 0x50 2 ++ idRange 0x52 6
    ++ idRange 0x60 8 ++ idRange 0x70 8 ++ idRange 0x80 3
/-- State sensors (R507). -/
def stateSensors : List Nat := idRange 0x100 7

/-- What the power controller last read at a location. -/
def State.tempOf (s : State) (loc ix : Nat) : Nat := SMap.get (fun _ => 0) s.pwr.temps (16 * loc + ix)
def bitCount (n w : Nat) : Nat := ((List.range w).filter (fun i => n.testBit i)).length

/-- Reading of a numeric sensor in its resolution (R506); none when its source is unpowered. -/
def State.numReading (s : State) (id : Nat) : Option Int :=
  let dies := decide (2 ≤ s.pwrState)
  let on := fun (b : Bool) (v : Nat) => if b then some (v : Int) else none
  if id = 1 then some (s.rdF .hubId 0 0 0 8 : Nat)
  else if id < 0x20 then on (0x10 ≤ id ∧ id < 0x14) (s.rdF .pwrIn 0 0 (16 * (id - 0x10)) 16)
  else if id < 0x30 then on true (s.rdF .pwrTempLid 0 0 (8 * (id - 0x20)) 8)
  else if id < 0x40 then on dies (s.rdF .pwrTempDie 0 (id - 0x30) 0 8)
  else if id < 0x50 then
    on dies (((List.range 64).map (fun k => s.rdF .vltTemp (16 * (id - 0x40) + k / 4) 0 (8 * (k % 4)) 8)).foldl max 0)
  else if id < 0x52 then on true (s.tempOf (id - 0x4E) 0)
  else if id < 0x60 then on true (s.tempOf 4 (id - 0x52))
  else if id < 0x70 then on dies (s.tempOf 5 (id - 0x60))
  else if id < 0x80 then
    (if dies then some ((((List.range 8).map (fun w => bitsOf (s.laserShown (id - 0x70)) (8 * w) 8)).foldl min 255 : Nat) - 50 : Int)
     else none)
  else if id = 0x80 then on true (min 64 s.fltq.length)
  else if id = 0x81 then on true (bitCount (s.rd .hubFencedLo 0 0) 64 + bitCount (s.rd .hubFencedHi 0 0) 64)
  else on (id = 0x82) (s.rdF .tierFlashWear 0 0 0 8)

/-- Upper thresholds of a numeric sensor: warning, critical, fatal. -/
def State.uppers (s : State) (id : Nat) : List Int :=
  if id = 0x10 then [14500, 14750, 14875]
  else if id = 0x11 then [5380, 6100, 7200]
  else if id = 0x12 then [(s.sustained : Int), (s.peakW : Int)]
  else if id = 0x13 then [2400, (s.sustained : Int)]
  else if id < 0x20 then []
  else if id < 0x30 then [68, 70, 85]
  else if id < 0x40 then [95, 100, 110]
  else if id < 0x50 then [85, 95, 105]
  else if id < 0x60 then [95, 100, 110]
  else if id < 0x70 then [80, 85, 95]
  else if id < 0x80 then []
  else if id = 0x80 then [56, 64]
  else if id = 0x81 then (if s.isSealed then [1, (s.img.reserved : Int)] else [1])
  else if id = 0x82 then [80, 95]
  else []
/-- Lower thresholds. -/
def lowers (id : Nat) : List Int :=
  if id = 0x10 then [11500, 11250, 11000] else if 0x70 ≤ id ∧ id < 0x78 then [145, 140] else []

/-- Is an upper threshold crossed, by whether it was (R508): back 2 °C below it, a voltage 0.5 V, a power 2% of it. -/
def upCrossed (id : Nat) (t v : Int) (was : Bool) : Bool :=
  if id = 0x10 then (if was then decide (t - 125 < v) else decide (t < v))
  else if !was then decide (t ≤ v)
  else if id = 0x12 ∨ id = 0x13 then decide (98 * t < 100 * v)
  else if 0x20 ≤ id ∧ id < 0x70 then decide (t - 2 < v)
  else decide (t ≤ v)
/-- Is a lower threshold crossed. -/
def lowCrossed (id : Nat) (t v : Int) (was : Bool) : Bool :=
  if id = 0x10 ∧ was then decide (v < t + 125) else decide (v < t)

/-- The thresholds that a reading has crossed: bits 0 to 2 upper, 3 to 5 lower; `old` those crossed before. -/
def State.alarm (s : State) (id : Nat) (v : Int) (old : Nat) : Nat :=
  let up := ((s.uppers id).zip (List.range 3)).map (fun p => if upCrossed id p.1 v (old.testBit p.2) then 2 ^ p.2 else 0)
  let lo := ((lowers id).zip (List.range 3)).map (fun p => if lowCrossed id p.1 v (old.testBit (3 + p.2)) then 2 ^ (3 + p.2) else 0)
  (up ++ lo).foldl (· + ·) 0

/-- State of a state sensor (R507): the field plus one; none where the package has no host session. -/
def State.stateReading (s : State) (id : Nat) : Option Nat :=
  match id - 0x100 with
  | 0 => some (s.pwrState + 1)
  | 1 => some (s.life + 1)
  | 2 => some (s.dbgLevel + 1)
  | 3 => some (6 - s.inService + 1)
  | 4 => some (bitsOf (s.live .hubImageStatus 0 0) 0 3 + 1)
  | 5 => if s.gateway.isSome then some (s.rdF .hostSession 0 0 0 2 + 1) else none
  | _ => some (s.rdF .pwrLastOff 0 0 0 3 + 1)

def State.levelOf (s : State) (id : Nat) : Nat := SMap.get (fun _ => 0) s.hub.levels id
def State.setLevelOf (s : State) (id n : Nat) : State :=
  s.updHub (fun h => { h with levels := SMap.set (fun _ => 0) h.levels id n })

def State.pldmAnswer (s : State) (b typ cmd code : Nat) (data : List Nat) : State :=
  s.send (.mctp b ([0x01, typ, cmd, code] ++ data))

/-- SMB_ALERT_N (pin 3) while an event is pending (R508). -/
def State.alert (s before : State) : State :=
  if s.hub.events.isEmpty = before.hub.events.isEmpty then s else s.send (.pin 3 s.hub.events.isEmpty)

/-- Has a numeric sensor returned below its warning threshold (R508). -/
def State.recovered (s : State) (id : Nat) : Bool := ((s.numReading id).map (fun v => s.alarm id v 0 == 0)).getD false

/-- A new event takes its place among the 32, or is dropped and counted (R508). -/
def State.placeEvent (s : State) (e : PldmEvent) : Option (List PldmEvent) :=
  let evs := s.hub.events
  if evs.length < 32 then some (evs ++ [e])
  else match evs.findIdx? (fun x => x.sensor == e.sensor) with
  | some i => some (evs.set i e)
  | none => match evs.findIdx? (fun x => x.numeric && s.recovered x.sensor) with
    | some i => some (evs.set i e)
    | none => none

/-- The hub sends a PlatformEventMessage. -/
def State.pldmEvent (s : State) (e : PldmEvent) : State :=
  match s.hub.receiver with
  | none => s
  | some (b, _) => match s.placeEvent e with
    | none => s.mctpDrop b
    | some evs => ((s.updHub (fun h => { h with events := evs })).send (.mctp b ([0x01, 2, 0x0A] ++ e.data))).alert s

/-- Events of one numeric sensor: one per threshold crossed in either direction. -/
def State.scanNum (s : State) (id : Nat) : State :=
  if s.hub.disabled.contains id then s
  else match s.numReading id with
  | none => s
  | some v =>
    let old := s.levelOf id
    let new := s.alarm id v old
    let hit := (List.range 6).filter (fun i => old.testBit i != new.testBit i)
    if hit.isEmpty then s
    else forEach hit (fun i s => s.pldmEvent ⟨id, true, leBytes 2 id ++ [2, i, oneIf (new.testBit i)] ++ leBytes 4 (v % 2 ^ 32).toNat⟩)
      (s.setLevelOf id new)

/-- The event of one state sensor. -/
def State.scanState (s : State) (id : Nat) : State :=
  match s.stateReading id with
  | none => s
  | some v =>
    let old := s.levelOf id
    if v = old then s
    else (s.setLevelOf id v).pldmEvent ⟨id, false, leBytes 2 id ++ [1, 0, v, old]⟩

/-- The hub compares every sensor with what it last saw, once an event receiver is set (R508). -/
def State.pldmScan (s : State) : State :=
  if s.hub.receiver.isNone ∨ s.pwrState = 0 then s
  else forEach stateSensors (fun id s => s.scanState id) (forEach numSensors (fun id s => s.scanNum id) s)

/-- GET_TID (R505). -/
def execGetTid (b : Nat) (s : State) : Host.Outcome State Fault Refusal :=
  .next (s.mctpTake b false false (fun s => s.pldmAnswer b 0 2 0 [s.hub.tid]))
/-- GET_PLDM_VERSION (R505): the spec gives no version of the types. -/
def execGetPldmVersion (b typ : Nat) (s : State) : Host.Outcome State Fault Refusal :=
  .next (s.mctpTake b false false (fun s =>
    if typ = 0 ∨ typ = 2 then
      let v := (List.range 4).map (fun i => Config.freeByte 13 typ i % 256)
      s.pldmAnswer b 0 3 0 ([0, 0, 0, 0, 5] ++ v)
    else s.pldmAnswer b 0 3 0x83 []))
/-- GET_PLDM_TYPES (R505): types 0 and 2. -/
def execGetPldmTypes (b : Nat) (s : State) : Host.Outcome State Fault Refusal :=
  .next (s.mctpTake b false false (fun s => s.pldmAnswer b 0 4 0 (leBytes 8 5)))
/-- GET_PLDM_COMMANDS (R505): one bit per command. -/
def execGetPldmCommands (b typ : Nat) (s : State) : Host.Outcome State Fault Refusal :=
  .next (s.mctpTake b false false (fun s =>
    if typ = 0 then s.pldmAnswer b 0 5 0 (leBytes 32 (2 ^ 2 + 2 ^ 3 + 2 ^ 4 + 2 ^ 5))
    else if typ = 2 then
      s.pldmAnswer b 0 5 0 (leBytes 32 (2 ^ 0x04 + 2 ^ 0x0A + 2 ^ 0x10 + 2 ^ 0x11 + 2 ^ 0x21 + 2 ^ 0x50 + 2 ^ 0x51))
    else s.pldmAnswer b 0 5 0x83 []))

/-- Records of the repository in order of their handles, from 1. -/
def pdrSensors : List Nat := numSensors ++ stateSensors
/-- A record (R505): its handle, kind (2 numeric, 4 state), sensor, and the thresholds (bit, value). -/
def State.pdr (s : State) (n : Nat) : List Nat :=
  let id := pdrSensors.getD (n - 1) 0
  let side := fun (lo : Nat) (ts : List Int) =>
    ((ts.zip (List.range 3)).map (fun p => (lo + p.2) :: leBytes 4 (p.1 % 2 ^ 32).toNat)).flatten
  leBytes 4 n ++ [if id < 0x100 then 2 else 4] ++ leBytes 2 id ++ side 0 (s.uppers id) ++ side 3 (lowers id)

/-- GET_PDR_REPOSITORY_INFO (R505): available, the number of records and their sizes. -/
def execGetPdrRepositoryInfo (b : Nat) (s : State) : Host.Outcome State Fault Refusal :=
  .next (s.mctpTake b false false (fun s =>
    let ls := (List.range pdrSensors.length).map (fun i => (s.pdr (i + 1)).length)
    s.pldmAnswer b 2 0x50 0 ([0] ++ leBytes 4 ls.length ++ leBytes 4 (ls.foldl (· + ·) 0) ++ leBytes 4 (ls.foldl max 0))))
/-- GET_PDR (R505): the record of a handle (0: the first) and the next handle. -/
def execGetPdr (b handle : Nat) (s : State) : Host.Outcome State Fault Refusal :=
  .next (s.mctpTake b false false (fun s =>
    let n := max 1 handle
    if pdrSensors.length < n then s.pldmAnswer b 2 0x51 0x82 []
    else s.pldmAnswer b 2 0x51 0 (leBytes 4 (if n = pdrSensors.length then 0 else n + 1) ++ s.pdr n)))
/-- GET_SENSOR_READING (R505, R506): operational state (0 enabled, 1 disabled, 2 unavailable), thresholds crossed, reading. -/
def execGetSensorReading (b sensor : Nat) (s : State) : Host.Outcome State Fault Refusal :=
  .next (s.mctpTake b false false (fun s =>
    if !numSensors.contains sensor then s.pldmAnswer b 2 0x11 0x80 []
    else if s.hub.disabled.contains sensor then s.pldmAnswer b 2 0x11 0 [1, 0, 0, 0, 0, 0]
    else match s.numReading sensor with
    | none => s.pldmAnswer b 2 0x11 0 [2, 0, 0, 0, 0, 0]
    | some v => s.pldmAnswer b 2 0x11 0 ([0, s.alarm sensor v (s.levelOf sensor)] ++ leBytes 4 (v % 2 ^ 32).toNat)))
/-- GET_STATE_SENSOR_READINGS (R505, R507): operational state, state. -/
def execGetStateSensorReadings (b sensor : Nat) (s : State) : Host.Outcome State Fault Refusal :=
  .next (s.mctpTake b false false (fun s =>
    if !stateSensors.contains sensor then s.pldmAnswer b 2 0x21 0x80 []
    else match s.stateReading sensor with
    | none => s.pldmAnswer b 2 0x21 0 [2, 0]
    | some v => s.pldmAnswer b 2 0x21 0 [0, v]))
/-- SET_NUMERIC_SENSOR_ENABLE (R505): operational state 0 enabled, 1 disabled. -/
def execSetNumericSensorEnable (b sensor op : Nat) (s : State) : Host.Outcome State Fault Refusal :=
  .next (s.mctpTake b false false (fun s =>
    if !numSensors.contains sensor then s.pldmAnswer b 2 0x10 0x80 []
    else if 2 ≤ op then s.pldmAnswer b 2 0x10 0x81 []
    else
      let d := s.hub.disabled.filter (· != sensor)
      (s.updHub (fun h => { h with disabled := if op = 1 then d ++ [sensor] else d })).pldmAnswer b 2 0x10 0 []))

/-- What the sensors read now is what later crossings are measured from. -/
def State.baseline (s : State) : State :=
  let s1 := forEach numSensors (fun id s => match s.numReading id with
    | some v => s.setLevelOf id (s.alarm id v 0)
    | none => s.setLevelOf id 0) s
  forEach stateSensors (fun id s => s.setLevelOf id ((s.stateReading id).getD 0)) s1

/-- SET_EVENT_RECEIVER (R508): `enable` 0 ends event messages. -/
def execSetEventReceiver (b enable eid : Nat) (s : State) : Host.Outcome State Fault Refusal :=
  .next (s.mctpTake b false false (fun s =>
    if enable = 0 then (s.updHub (fun h => { h with receiver := none })).pldmAnswer b 2 4 0 []
    else ((s.updHub (fun h => { h with receiver := some (b, eid % 256) })).baseline).pldmAnswer b 2 4 0 []))

/-- PLDM_EVENT_ACK (R508): the `n`th pending event is acknowledged. -/
def execPldmEventAck (n : Nat) (s : State) : Host.Outcome State Fault Refusal :=
  .next (if s.hub.events.length ≤ n then s
    else (s.updHub (fun h => { h with events := h.events.eraseIdx n })).alert s)

end Sys2Proof.Machine
end

