-- ==== Sys2Proof/Machine/Recompute.lean ====
section
/-! DEFINITION. The recompute of a lost line by the core that made it (R116, R172). -/

namespace Sys2Proof.Machine

/-- Lines of the recompute's descriptor: the one that holds OP, and once it is ready the rest. -/
def State.rcmpLines (s : State) (g : Nat) (q : RcmpReq) : List (Nat × Nat) :=
  let a := s.adr g q.descAddr
  let l1 := s.linesOf a 1
  if l1.all (s.lineReady g) then s.linesOf a (descLen ((s.view g l1).byteAt a)) else l1

/-- A unit suspends its descriptor, gives up lines delivered to a chunk or vector that it abandons, and starts the recompute's
descriptor, whose entry it does not have; `m` is memory as the sequencer sees it. A descriptor that no unit takes stores nothing. -/
def State.rcmpStart (s m : State) (g : Nat) (q : RcmpReq) : State :=
  let a := m.adr g q.descAddr
  let d := m.natAt a (descLen (m.byteAt a))
  match opStream (m.byteAt a) with
  | some 0 =>
    ((s.dropUnit (hngUnit g)).updHng g (fun h => { h with
      saved := some ⟨h.job, h.banks⟩
      job := none
      banks := List.replicate 4 Bank.empty
      pin := none })).hngStart g d 0 false true
  | some 1 => ((s.dropUnit (veUnit g)).updVe g (fun v => { v with saved := some v.job, job := none })).veStart g d 0 false true
  | some 2 => (s.updLane g (fun l => { l with saved := some (l.job, l.units), job := none })).laneStart g d 0 false true
  | _ => s.rcmpDone g

/-- The unit of a recompute stands at a boundary at which it may suspend: a vault's lanes hold no token (R172, R217). -/
def State.rcmpReady (s m : State) (g : Nat) (q : RcmpReq) : Bool :=
  match opStream (m.byteAt (m.adr g q.descAddr)) with
  | some 2 => match (s.core g).lane.job with
    | some j => j.tokens == 0
    | none => true
  | _ => true

/-- RECOMPUTE (R116, R166, R172): the core runs the oldest recompute that waits, one at a time, once it has read its descriptor. -/
def execRecompute (core : Nat) (s : State) : Host.Outcome State Fault Refusal :=
  .next (if !s.active core || (s.core core).frozen || s.recordHeld core || (s.core core).rcmpRun.isSome then s
    else match (s.core core).rcmpQ with
    | [] => s
    | q :: r => match s.gateReads core (s.rcmpLines core q) with
      | (s1, none) => s1
      | (s1, some m) =>
        if s1.rcmpReady m core q then
          (s1.updCore core (fun c => { c with rcmpQ := r, rcmpRun := some q })).rcmpStart m core q
        else s)

end Sys2Proof.Machine
end

