-- ==== Sys2Proof/Machine/Dispatch.lean ====
section
/-! DEFINITION. Dispatch: one arm per command. -/

namespace Sys2Proof.Machine

/-- A command's effect on everything but the queue. -/
def exec (i : Instr) (s : State) : Host.Outcome State Fault Refusal :=
  match i with
  | .entryDispatch core => Sys2Proof.Machine.execEntryDispatch core s
  | .entryComplete core stream => Sys2Proof.Machine.execEntryComplete core stream s
  | .stepAdv core => Sys2Proof.Machine.execStepAdv core s
  | .evalEnd core => Sys2Proof.Machine.execEvalEnd core s
  | .tumblerWait core stream => Sys2Proof.Machine.execTumblerWait core stream s
  | .tumblerAdd core obj amount path subst dup => Sys2Proof.Machine.execTumblerAdd core obj amount path subst dup s
  | .latchTake core stream => Sys2Proof.Machine.execLatchTake core stream s
  | .latchTry core stream => Sys2Proof.Machine.execLatchTry core stream s
  | .latchPost core obj amount path subst dup => Sys2Proof.Machine.execLatchPost core obj amount path subst dup s
  | .lendEnter core times => Sys2Proof.Machine.execLendEnter core times s
  | .lendExit core cycles => Sys2Proof.Machine.execLendExit core cycles s
  | .coreHeartbeat core waitCycles => Sys2Proof.Machine.execCoreHeartbeat core waitCycles s
  | .heartbeatMiss core => Sys2Proof.Machine.execHeartbeatMiss core s
  | .synScrub core upsets => Sys2Proof.Machine.execSynScrub core upsets s
  | .contextSaveRequest core => Sys2Proof.Machine.execContextSaveRequest core s
  | .freezePoint core => Sys2Proof.Machine.execFreezePoint core s
  | .contextRestore core owner gen step => Sys2Proof.Machine.execContextRestore core owner gen step s
  | .matrixProduct core chunks stall after => Sys2Proof.Machine.execMatrixProduct core chunks stall after s
  | .tileWriteOut core wait => Sys2Proof.Machine.execTileWriteOut core wait s
  | .elem core work => Sys2Proof.Machine.execElem core work s
  | .reduce core work => Sys2Proof.Machine.execReduce core work s
  | .scan core work => Sys2Proof.Machine.execScan core work s
  | .permute core work => Sys2Proof.Machine.execPermute core work s
  | .norm core work => Sys2Proof.Machine.execNorm core work s
  | .softmax core work => Sys2Proof.Machine.execSoftmax core work s
  | .rowRecompute core work => Sys2Proof.Machine.execRowRecompute core work s
  | .vltLineRead vault line src err => Sys2Proof.Machine.execVltLineRead vault line src err s
  | .vltLineWrite vault line src tag data => Sys2Proof.Machine.execVltLineWrite vault line src tag data s
  | .narrowWrite vault line src tag off bytes err => Sys2Proof.Machine.execNarrowWrite vault line src tag off bytes err s
  | .vltRefetch vault line err => Sys2Proof.Machine.execVltRefetch vault line err s
  | .pageMigrateDone vault reserveBad => Sys2Proof.Machine.execPageMigrateDone vault reserveBad s
  | .recompute core => Sys2Proof.Machine.execRecompute core s
  | .vltRecomputeRead vault line err => Sys2Proof.Machine.execVltRecomputeRead vault line err s
  | .rcmpTimeout vault line => Sys2Proof.Machine.execRcmpTimeout vault line s
  | .refreshDue vault bank pending => Sys2Proof.Machine.execRefreshDue vault bank pending s
  | .refreshRepay vault bank => Sys2Proof.Machine.execRefreshRepay vault bank s
  | .patrolScrub vault err => Sys2Proof.Machine.execPatrolScrub vault err s
  | .tempSample vault l0 l1 l2 l3 => Sys2Proof.Machine.execTempSample vault l0 l1 l2 l3 s
  | .bandChange vault => Sys2Proof.Machine.execBandChange vault s
  | .stgAccess core port byte retries ecc data => Sys2Proof.Machine.execStgAccess core port byte retries ecc data s
  | .optim core => Sys2Proof.Machine.execOptim core s
  | .scale core => Sys2Proof.Machine.execScale core s
  | .digest core => Sys2Proof.Machine.execDigest core s
  | .zero core => Sys2Proof.Machine.execZero core s
  | .laneTokenGrant core units waitCycles => Sys2Proof.Machine.execLaneTokenGrant core units waitCycles s
  | .lanePassClaim core bank errs => Sys2Proof.Machine.execLanePassClaim core bank errs s
  | .lanePassWrite core bank => Sys2Proof.Machine.execLanePassWrite core bank s
  | .lanePassBoundary core bank actCycles => Sys2Proof.Machine.execLanePassBoundary core bank actCycles s
  | .masterGather core => Sys2Proof.Machine.execMasterGather core s
  | .red core => Sys2Proof.Machine.execRed core s
  | .move core => Sys2Proof.Machine.execMove core s
  | .dcmp core => Sys2Proof.Machine.execDcmp core s
  | .promote src => Sys2Proof.Machine.execPromote src s
  | .evict src => Sys2Proof.Machine.execEvict src s
  | .pin src => Sys2Proof.Machine.execPin src s
  | .unpin src => Sys2Proof.Machine.execUnpin src s
  | .flush src => Sys2Proof.Machine.execFlush src s
  | .promotePageDone obj lines => Sys2Proof.Machine.execPromotePageDone obj lines s
  | .stagingFrameFree obj => Sys2Proof.Machine.execStagingFrameFree obj s
  | .stagingCopyDone obj => Sys2Proof.Machine.execStagingCopyDone obj s
  | .flashProgramDone obj page unit block ok => Sys2Proof.Machine.execFlashProgramDone obj page unit block ok s
  | .streamFillStart win => Sys2Proof.Machine.execStreamFillStart win s
  | .streamFillDone win lines => Sys2Proof.Machine.execStreamFillDone win lines s
  | .substitute core stream waited => Sys2Proof.Machine.execSubstitute core stream waited s
  | .space2DmaWrite obj byte tag data => Sys2Proof.Machine.execSpace2DmaWrite obj byte tag data s
  | .flashUnitRead dst obj page unit corrected failed => Sys2Proof.Machine.execFlashUnitRead dst obj page unit corrected failed s
  | .readRetry dst obj page unit corrected failed => Sys2Proof.Machine.execReadRetry dst obj page unit corrected failed s
  | .relocate block dst2 => Sys2Proof.Machine.execRelocate block dst2 s
  | .staticWearLevel block dst2 => Sys2Proof.Machine.execStaticWearLevel block dst2 s
  | .readDisturbRelocate block dst2 => Sys2Proof.Machine.execReadDisturbRelocate block dst2 s
  | .flashFirstInit channel luns bad => Sys2Proof.Machine.execFlashFirstInit channel luns bad s
  | .tierQuery obj => Sys2Proof.Machine.execTierQuery obj s
  | .laneFail port lane cause reading => Sys2Proof.Machine.execLaneFail port lane cause reading s
  | .laneset port lane mask => Sys2Proof.Machine.execLaneset port lane mask s
  | .laneRetrain port lane => Sys2Proof.Machine.execLaneRetrain port lane s
  | .laneTrainingDone port lane pkg pport mode digest => Sys2Proof.Machine.execLaneTrainingDone port lane pkg pport mode digest s
  | .flitReceive port lane bytes => Sys2Proof.Machine.execFlitReceive port lane bytes s
  | .nak port lane seq => Sys2Proof.Machine.execNak port lane seq s
  | .ackTimeout port lane => Sys2Proof.Machine.execAckTimeout port lane s
  | .replayBudgetExpiry port lane => Sys2Proof.Machine.execReplayBudgetExpiry port lane s
  | .linkDown port lane => Sys2Proof.Machine.execLinkDown port lane s
  | .creditReturnSend port lane => Sys2Proof.Machine.execCreditReturnSend port lane s
  | .resync port kw epoch => Sys2Proof.Machine.execResync port kw epoch s
  | .resyncAck port kw epoch credits => Sys2Proof.Machine.execResyncAck port kw epoch credits s
  | .resyncSet port kw epoch credits => Sys2Proof.Machine.execResyncSet port kw epoch credits s
  | .reset port kw epoch => Sys2Proof.Machine.execReset port kw epoch s
  | .resetAck port kw epoch => Sys2Proof.Machine.execResetAck port kw epoch s
  | .kwNak port kw code txn gen => Sys2Proof.Machine.execKwNak port kw code txn gen s
  | .readReq src => Sys2Proof.Machine.execReadReq src s
  | .readRsp src => Sys2Proof.Machine.execReadRsp src s
  | .write src => Sys2Proof.Machine.execWrite src s
  | .writeAck src => Sys2Proof.Machine.execWriteAck src s
  | .signal src => Sys2Proof.Machine.execSignal src s
  | .sigAck src => Sys2Proof.Machine.execSigAck src s
  | .redPart src desc diffs => Sys2Proof.Machine.execRedPart src desc diffs s
  | .redAck src => Sys2Proof.Machine.execRedAck src s
  | .flushReq src => Sys2Proof.Machine.execFlushReq src s
  | .flushReadDone serial => Sys2Proof.Machine.execFlushReadDone serial s
  | .flushRsp src => Sys2Proof.Machine.execFlushRsp src s
  | .digestMessage src => Sys2Proof.Machine.execDigestMessage src s
  | .digestAck src => Sys2Proof.Machine.execDigestAck src s
  | .normMessage src => Sys2Proof.Machine.execNormMessage src s
  | .normAck src => Sys2Proof.Machine.execNormAck src s
  | .nakMessage src => Sys2Proof.Machine.execNakMessage src s
  | .txnTimeout die txn => Sys2Proof.Machine.execTxnTimeout die txn s
  | .ctrlPlaneScrub port causes => Sys2Proof.Machine.execCtrlPlaneScrub port causes s
  | .imageLoad head secs => Sys2Proof.Machine.execImageLoad head secs s
  | .ready report lead digest head secs => Sys2Proof.Machine.execReady report lead digest head secs s
  | .seal ack lead slots sweep => Sys2Proof.Machine.execSeal ack lead slots sweep s
  | .abort code pkg => Sys2Proof.Machine.execAbort code pkg s
  | .quiesce order => Sys2Proof.Machine.execQuiesce order s
  | .quiet arrived => Sys2Proof.Machine.execQuiet arrived s
  | .leadTakeover announced reach others => Sys2Proof.Machine.execLeadTakeover announced reach others s
  | .hubHeartbeat arrived => Sys2Proof.Machine.execHubHeartbeat arrived s
  | .packageLost pkg announced reach => Sys2Proof.Machine.execPackageLost pkg announced reach s
  | .stagingTimeout pkg => Sys2Proof.Machine.execStagingTimeout pkg s
  | .hostSqTail ring value jobs => Sys2Proof.Machine.execHostSqTail ring value jobs s
  | .hostCqHead ring value => Sys2Proof.Machine.execHostCqHead ring value s
  | .hostEvqHead value => Sys2Proof.Machine.execHostEvqHead value s
  | .step => Sys2Proof.Machine.execStep s
  | .copyIn => Sys2Proof.Machine.execCopyIn s
  | .copyOut => Sys2Proof.Machine.execCopyOut s
  | .hostCqPost ring value subst => Sys2Proof.Machine.execHostCqPost ring value subst s
  | .stepGatewaySelect attached holder => Sys2Proof.Machine.execStepGatewaySelect attached holder s
  | .probe => Sys2Proof.Machine.execProbe s
  | .dmaReadTimeout serial => Sys2Proof.Machine.execDmaReadTimeout serial s
  | .detach => Sys2Proof.Machine.execDetach s
  | .attach epoch => Sys2Proof.Machine.execAttach epoch s
  | .perstN => Sys2Proof.Machine.execPerstN s
  | .hotReset => Sys2Proof.Machine.execHotReset s
  | .linkDisable => Sys2Proof.Machine.execLinkDisable s
  | .dataLinkDown => Sys2Proof.Machine.execDataLinkDown s
  | .bmeClear => Sys2Proof.Machine.execBmeClear s
  | .functionLevelReset => Sys2Proof.Machine.execFunctionLevelReset s
  | .hostWinCfg win value cfg => Sys2Proof.Machine.execHostWinCfg win value cfg s
  | .hostRingCfg kind ring value base => Sys2Proof.Machine.execHostRingCfg kind ring value base s
  | .faultRecord remote lines => Sys2Proof.Machine.execFaultRecord remote lines s
  | .deadboltDark core => Sys2Proof.Machine.execDeadboltDark core s
  | .refillDone lost remote objs => Sys2Proof.Machine.execRefillDone lost remote objs s
  | .startSave core => Sys2Proof.Machine.execStartSave core s
  | .derivationSave core => Sys2Proof.Machine.execDerivationSave core s
  | .derivationPoint step ready => Sys2Proof.Machine.execDerivationPoint step ready s
  | .restore step gen moves => Sys2Proof.Machine.execRestore step gen moves s
  | .resume ready => Sys2Proof.Machine.execResume ready s
  | .snapshotEpoch done loss durable => Sys2Proof.Machine.execSnapshotEpoch done loss durable s
  | .snapshotReadbackDone lines => Sys2Proof.Machine.execSnapshotReadbackDone lines s
  | .h1LockstepMismatch => Sys2Proof.Machine.execH1LockstepMismatch s
  | .h1RestartDone => Sys2Proof.Machine.execH1RestartDone s
  | .provision block => Sys2Proof.Machine.execProvision block s
  | .fieldKeys block => Sys2Proof.Machine.execFieldKeys block s
  | .returnPart block => Sys2Proof.Machine.execReturn block s
  | .returnAuth block => Sys2Proof.Machine.execReturnAuth block s
  | .reprovision block => Sys2Proof.Machine.execReprovision block s
  | .svnCommit block => Sys2Proof.Machine.execSvnCommit block s
  | .openD2 block => Sys2Proof.Machine.execOpenD2 block s
  | .openD3 block => Sys2Proof.Machine.execOpenD3 block s
  | .nonceReq => Sys2Proof.Machine.execNonceReq s
  | .rngHealthFail cause => Sys2Proof.Machine.execRngHealthFail cause s
  | .debugLevelSet level => Sys2Proof.Machine.execDebugLevelSet level s
  | .close => Sys2Proof.Machine.execClose s
  | .debugHalt core => Sys2Proof.Machine.execDebugHalt core s
  | .debugResume core => Sys2Proof.Machine.execDebugResume core s
  | .debugStep core => Sys2Proof.Machine.execDebugStep core s
  | .debugRegWrite core off value stage => Sys2Proof.Machine.execDebugRegWrite core off value stage s
  | .debugVaultRead vault line => Sys2Proof.Machine.execDebugVaultRead vault line s
  | .debugVaultWrite vault line data => Sys2Proof.Machine.execDebugVaultWrite vault line data s
  | .bypass tdi => Sys2Proof.Machine.execBypass tdi s
  | .idcode tdi => Sys2Proof.Machine.execIdcode tdi s
  | .samplePreload pins tdi => Sys2Proof.Machine.execSamplePreload pins tdi s
  | .extest pins tdi => Sys2Proof.Machine.execExtest pins tdi s
  | .internalChain tdi => Sys2Proof.Machine.execInternalChain tdi s
  | .getVersion p req => Sys2Proof.Machine.execGetVersion p req s
  | .getCapabilities p req => Sys2Proof.Machine.execGetCapabilities p req s
  | .negotiateAlgorithms p req => Sys2Proof.Machine.execNegotiateAlgorithms p req s
  | .getDigests p req => Sys2Proof.Machine.execGetDigests p req s
  | .getCertificate p req => Sys2Proof.Machine.execGetCertificate p req s
  | .challenge p req => Sys2Proof.Machine.execChallenge p req s
  | .getMeasurements p req => Sys2Proof.Machine.execGetMeasurements p req s
  | .spdmBusyTimeout p => Sys2Proof.Machine.execSpdmBusyTimeout p s
  | .powerRun => Sys2Proof.Machine.execPowerRun s
  | .powerHold => Sys2Proof.Machine.execPowerHold s
  | .holdEntry => Sys2Proof.Machine.execHoldEntry s
  | .powerStandby discard => Sys2Proof.Machine.execPowerStandby discard s
  | .powerOff => Sys2Proof.Machine.execPowerOff s
  | .powerGood input => Sys2Proof.Machine.execPowerGood input s
  | .pwrenLow => Sys2Proof.Machine.execPwrenLow s
  | .underVoltage => Sys2Proof.Machine.execUnderVoltage s
  | .overVoltage => Sys2Proof.Machine.execOverVoltage s
  | .brownout mv4 => Sys2Proof.Machine.execBrownout mv4 s
  | .brownoutEnd => Sys2Proof.Machine.execBrownoutEnd s
  | .converterFault conv cause => Sys2Proof.Machine.execConverterFault conv cause s
  | .grantRequest island units => Sys2Proof.Machine.execGrantRequest island units s
  | .powerSample mv4 centiamp watt10 watt1s cut => Sys2Proof.Machine.execPowerSample mv4 centiamp watt10 watt1s cut s
  | .throttleLine conv centiamp cut => Sys2Proof.Machine.execThrottleLine conv centiamp cut s
  | .thermalSample dies lid others => Sys2Proof.Machine.execThermalSample dies lid others s
  | .retune island mhz => Sys2Proof.Machine.execRetune island mhz s
  | .refclkLoss offset => Sys2Proof.Machine.execRefclkLoss offset s
  | .pwrLimit value => Sys2Proof.Machine.execPwrLimit value s
  | .warmReset key => Sys2Proof.Machine.execWarmReset key s
  | .coldReset key => Sys2Proof.Machine.execColdReset key s
  | .mctpReset warm => Sys2Proof.Machine.execMctpReset warm s
  | .bootStage feed sfdpBad => Sys2Proof.Machine.execBootStage feed sfdpBad s
  | .bringupStage bad vaults => Sys2Proof.Machine.execBringupStage bad vaults s
  | .relayGo write => Sys2Proof.Machine.execRelayGo write s
  | .tsCorrGo island => Sys2Proof.Machine.execTsCorrGo island s
  | .tsCorrSample count => Sys2Proof.Machine.execTsCorrSample count s
  | .tlmCorrelation counts => Sys2Proof.Machine.execTlmCorrelation counts s
  | .clkMeasWindow means => Sys2Proof.Machine.execClkMeasWindow means s
  | .setEndpointId b op eid => Sys2Proof.Machine.execSetEndpointId b op eid s
  | .getEndpointId b => Sys2Proof.Machine.execGetEndpointId b s
  | .getMctpVersionSupport b typ => Sys2Proof.Machine.execGetMctpVersionSupport b typ s
  | .getMessageTypeSupport b => Sys2Proof.Machine.execGetMessageTypeSupport b s
  | .getVendorDefinedMsgSupport b sel => Sys2Proof.Machine.execGetVendorDefinedMsgSupport b sel s
  | .regRead b addr => Sys2Proof.Machine.execRegRead b addr s
  | .regWrite b addr value => Sys2Proof.Machine.execRegWrite b addr value s
  | .wardSubmit b block => Sys2Proof.Machine.execWardSubmit b block s
  | .wardResult b => Sys2Proof.Machine.execWardResult b s
  | .nonce b => Sys2Proof.Machine.execNonce b s
  | .recoveryWrite b off data => Sys2Proof.Machine.execRecoveryWrite b off data s
  | .getTid b => Sys2Proof.Machine.execGetTid b s
  | .getPldmVersion b typ => Sys2Proof.Machine.execGetPldmVersion b typ s
  | .getPldmTypes b => Sys2Proof.Machine.execGetPldmTypes b s
  | .getPldmCommands b typ => Sys2Proof.Machine.execGetPldmCommands b typ s
  | .getPdrRepositoryInfo b => Sys2Proof.Machine.execGetPdrRepositoryInfo b s
  | .getPdr b handle => Sys2Proof.Machine.execGetPdr b handle s
  | .getSensorReading b sensor => Sys2Proof.Machine.execGetSensorReading b sensor s
  | .getStateSensorReadings b sensor => Sys2Proof.Machine.execGetStateSensorReadings b sensor s
  | .setNumericSensorEnable b sensor op => Sys2Proof.Machine.execSetNumericSensorEnable b sensor op s
  | .setEventReceiver b enable eid => Sys2Proof.Machine.execSetEventReceiver b enable eid s
  | .rcRead path off => Sys2Proof.Machine.execRcRead path off s
  | .halfReadLatch path off => Sys2Proof.Machine.execHalfReadLatch path off s
  | .fltqRecLatch path entry slot => Sys2Proof.Machine.execFltqRecLatch path entry slot s
  | .cnsRingTail core value => Sys2Proof.Machine.execCnsRingTail core value s
  | .hubVlogTail value => Sys2Proof.Machine.execHubVlogTail value s
  | .sweep clear => Sys2Proof.Machine.execSweep clear s
  | .vlogEntryClose counter island => Sys2Proof.Machine.execVlogEntryClose counter island s
  | .registerWrite path off bytes value => Sys2Proof.Machine.execRegisterWrite path off bytes value s
  | .hasp core => Sys2Proof.Machine.execHasp core s
  | .coreParity core cause => Sys2Proof.Machine.execCoreParity core cause s
  | .coreRail core cause measured => Sys2Proof.Machine.execCoreRail core cause measured s
  | .wardLockstep => Sys2Proof.Machine.execWardLockstep s
  | .frameReceive port lane corrected flits uncorrectable => Sys2Proof.Machine.execFrameReceive port lane corrected flits uncorrectable s
  | .probeReadDone serial => Sys2Proof.Machine.execProbeReadDone serial s
  | .dmaReadCompletion serial status data => Sys2Proof.Machine.execDmaReadCompletion serial status data s
  | .blockEraseDone block dst2 ok => Sys2Proof.Machine.execBlockEraseDone block dst2 ok s
  | .pldmEventAck n => Sys2Proof.Machine.execPldmEventAck n s

end Sys2Proof.Machine
end

