-- ==== Sys2Proof/Machine/Tick.lean ====
section
/-! DEFINITION. What passes with hub time when no command waits (R385, R389, R499, R508; log entry 3). -/

namespace Sys2Proof.Machine

/-- Entries of class NOTE have no handling that stays open: copied to the event rings, they are freed (R389). -/
def State.freeNotes (s : State) : State := { s with fltq := s.fltq.filter (fun e => decide (1 ≤ e.record.cls) || e.openWin) }

/-- The millisecond of an open HOST_VIOL event ends: its entry is written (R385). -/
def State.closeMisuse (s : State) : State :=
  match s.host.misuse with
  | none => s
  | some (row, n, t) =>
    if s.hubTime < t + 1000000 then s
    else (s.updHost (fun h => { h with misuse := none })).gwEvent .hostViol (.gen row 0 0 n 0 0) [1]

/-- The trace unit writes an event at HUB_TRACE_HEAD of its 16 MiB ring (R431, R502). -/
def State.traceWrite (s : State) (e : Nat × Nat) : State :=
  let base := s.rd .hubTraceBase 0 0
  let h := s.rdF .hubTraceHead 0 0 0 24
  let bs := (Config.traceEvent e.1 e.2 s.freeIx).take (2 ^ 24) |>.map (· % 256)
  let tag := s.stepTag s.lowCore
  let put := fun (a : Nat) (l : List Nat) (s : State) => if l.isEmpty then s else s.writeAt hubIsland a l tag false
  let s1 := put base (bs.drop (2 ^ 24 - h)) (put (base + h) (bs.take (2 ^ 24 - h)) (s.fresh 1))
  let s2 := if 2 ^ 24 ≤ h + bs.length then s1.bump .hubTraceWrap 0 1 else s1
  s2.wr .hubTraceHead 0 0 ((h + bs.length) % 2 ^ 24)

/-- Events that have reached the trace unit go to the ring, in their order. -/
def State.traceOut (s : State) : State :=
  forEach s.hub.traceIn (fun e s => s.traceWrite e) (s.updHub (fun h => { h with traceIn := [] }))

/-- A nanosecond of hub time (R499). Status words of tier requests that could not be stored are stored once nothing holds them (R257); the
ward completes the block in hand (R425), and H4 the sweep in progress (R523; log entry 130). -/
def State.tick (s : State) : State :=
  if s.pwrState = 0 then s
  else (((s.wr .hubTs 0 0 ((s.hubTime + 1) % 2 ^ 64)).freeNotes.closeMisuse).pldmScan.sendAcks).traceOut.tierAnswers.wardServe.sweepEnd

end Sys2Proof.Machine
end

