-- ==== Sys2Proof/Safety.lean ====
section
/-! DEFINITION. What a safe run is, and the canonical form of the memories. -/

namespace Sys2Proof

/-- The canonical form of a memory: addresses strictly rising, no entry equal to what an unlisted address reads as (`d`). -/
def Memory.wf (d : Nat → BitVec 8) (m : List Host.Cell) : Bool := Machine.SMap.wf d m

/-- The vaults and the stage memories are in canonical form. -/
def Machine.State.memOk (s : Machine.State) : Bool := Memory.wf Machine.vmemDefault s.vmem && Memory.wf Machine.stgDefault s.stg

/-- The next state of a step. -/
def Machine.State.after (s : Machine.State) : Option Machine.State :=
  match Machine.step s with
  | .next t => some t
  | _ => none

/-- A run of `k` steps that neither faults nor is refused. -/
def Machine.State.runs : Nat → Machine.State → Bool
  | 0, _ => true
  | k + 1, s => match s.after with
    | some t => Machine.State.runs k t
    | none => false

end Sys2Proof
end

