-- ==== Sys2Proof/Certificates/Slice0/Obligations.lean ====
section
/-! DEFINITION. The statements. `Claims` holds what is said of each command; an obligation gathers the commands of one part of
the package. A statement of a command says when it has its own effect (a premise about the state and the operands alone), that
`exec` then answers a next state, what that state holds, and what it leaves. -/

namespace Sys2Proof.Claims

open Machine

/-! ## Frames -/

/-- Every register but those with these keys holds what it held. -/
def regsBut (L : List Nat) (s t : State) : Prop :=
  ∀ k, k ∉ L → SMap.get regDefault t.regs k = SMap.get regDefault s.regs k

/-- Every core but these holds what it held. -/
def coresBut (L : List Nat) (s t : State) : Prop := ∀ g, g ∉ L → t.core g = s.core g

/-- Nothing but registers of these keys has changed. -/
def onlyRegs (L : List Nat) (s t : State) : Prop := t = { s with regs := t.regs } ∧ regsBut L s t

/-- Nothing but these cores has changed. -/
def onlyCores (L : List Nat) (s t : State) : Prop := t = { s with cores := t.cores } ∧ coresBut L s t

/-- Nothing but registers of these keys and these cores has changed. -/
def onlyRegsCores (K L : List Nat) (s t : State) : Prop :=
  t = { s with regs := t.regs, cores := t.cores } ∧ regsBut K s t ∧ coresBut L s t

/-- The vaults and the stage memories hold what they held. -/
def memKept (s t : State) : Prop := t.vmem = s.vmem ∧ t.stg = s.stg

/-- What a 32-bit counter holds after `n` more (R509). -/
def count32 (v n : Nat) : Nat := min (v + n) (2 ^ 32 - 1)

/-- A counter has counted `n` more: 32 bits saturate, 64 bits count modulo 2^64 (R509). -/
def counted (r : Reg) (i n : Nat) (s t : State) : Prop :=
  t.rd r i 0 = if r.desc.wide then (s.rd r i 0 + n) % 2 ^ 64 else count32 (s.rd r i 0) n

/-- The bytes of the vaults outside `n` bytes from a place hold what they held. -/
def vaultsBut (k n : Nat) (s t : State) : Prop :=
  ∀ a, a < k ∨ k + n ≤ a → SMap.get vmemDefault t.vmem a = SMap.get vmemDefault s.vmem a

/-- Lines that a reader can take at once: free, good, and not POISON (R168). -/
abbrev LinesClear (s : State) (reader : Nat) (ls : List (Nat × Nat)) : Prop :=
  ls.all (fun p => s.lineReady reader p && !(s.rawLine p.1 p.2).poison && (s.deliveredTo reader p).isNone) = true

/-- A message of `src` finds its way into a core at once: nothing refuses it, and the core is not at a freeze point (R303). -/
abbrev SigOk (s : State) (g src : Nat) : Prop := s.sigOpen g ⟨1, 0, 1, 0, false, src⟩ = true ∧ (s.core g).frozen = false

/-- One more fault record is queued at its source: of this kind, with this payload (R515, R517). -/
def recorded (k : FaultKind) (p : Payload) (s t : State) : Prop :=
  ∃ r, t.fltIn = s.fltIn ++ [r] ∧ r.kind = k ∧ r.cls = k.cls ∧ r.payload = p

end Sys2Proof.Claims
namespace Sys2Proof.Claims

open Machine

/-! ## The sequencer (R281, R282, R285, R286) -/

/-- Positions of the dispatched entries of each stream. -/
def positions (c : Core) : List (List Nat) := c.streams.map (fun es => es.map Entry.pos)

/-- Address of the entry at the sequencer's position. -/
def entryAddr (s : State) (g : Nat) : Nat := s.adr g (s.rdF .synSqBase g 0 6 50 * 64 + 64 * (s.core g).pos)

/-- The entry that the sequencer reads. -/
def nextEntry (s : State) (g : Nat) : ReadEntry := s.parseEntry g (s.core g).pos (s.natAt (entryAddr s g) 64)

/-- Dispatch may go on: the core runs, nothing makes it wait, and the lines of its next entry are read at once. -/
abbrev DispatchOk (s : State) (g : Nat) : Prop :=
  s.running g = true ∧ (s.core g).closingPending = false ∧ (s.core g).halted = false ∧ (s.core g).saveReq = false
    ∧ s.runStop = false ∧ LinesClear s g (s.entryLines g (s.rdF .synSqBase g 0 6 50 * 64 + 64 * (s.core g).pos))

/-- ENTRY_DISPATCH (R281): the entry at the position goes to its stream and the position advances; with eight entries in that
stream nothing happens. -/
def EntryDispatch : Prop := ∀ (s : State) (g : Nat), DispatchOk s g →
  (8 ≤ ((s.core g).stream (nextEntry s g).stream).length → exec (.entryDispatch g) s = .next s) ∧
  (((s.core g).stream (nextEntry s g).stream).length < 8 → ∃ t, exec (.entryDispatch g) s = .next t ∧
    (t.core g).pos = (s.core g).pos + 1 ∧
    positions (t.core g) = (positions (s.core g)).set (nextEntry s g).stream
      (((s.core g).stream (nextEntry s g).stream).map Entry.pos ++ [(s.core g).pos]) ∧
    coresBut [g] s t ∧ memKept s t)

/-- Where dispatch waits (R281, R286, R302): nothing happens. -/
def EntryDispatchWaits : Prop := ∀ (s : State) (g : Nat),
  s.running g = false ∨ (s.core g).closingPending = true ∨ (s.core g).halted = true ∨ (s.core g).saveReq = true ∨ s.runStop = true →
  exec (.entryDispatch g) s = .next s

/-- The oldest entry of a stream may complete. -/
abbrev CompleteOk (s : State) (g st : Nat) (e : Entry) (es : List Entry) : Prop :=
  s.works g = true ∧ (s.core g).stream st = e :: es ∧ e.issued = true ∧ e.done = true ∧ e.closing = false

/-- ENTRY_COMPLETE (R284, R285, R74, R110): the entry leaves its stream, its census folds, and its signals are performed in order; a
skipped entry folds nothing, and after its signals its skip is counted. -/
def EntryComplete : Prop := ∀ (s : State) (g st : Nat) (e : Entry) (es : List Entry), CompleteOk s g st e es →
  (e.skip = false → exec (.entryComplete g st) s = .next (((((s.trace g 1).updCore g (fun c => c.setStream st es)).foldCensus g
    e.pos e.eval e.census).performSignals g e false))) ∧
  (e.skip = true → exec (.entryComplete g st) s = .next ((((s.trace g 1).updCore g (fun c => c.setStream st es)).performSignals g e
    false).skipEnd g e)) ∧
  (e.skip = false → e.census = [] → (∀ w ∈ e.sigs, bitsOf w 0 3 = 0) → ∃ t, exec (.entryComplete g st) s = .next t ∧
    (t.core g).streams = (s.core g).streams.set st es ∧ onlyCores [g] (s.trace g 1) t)

/-- A frozen layer's class-2 entry (R110): CORE_WGRAD_SKIP_CNT counts it. -/
def SkippedEntryCounts : Prop := ∀ (s : State) (g st : Nat) (e : Entry) (es : List Entry), CompleteOk s g st e es → e.skip = true →
  s.wgradSkip g e.cls e.layer = true → ¬(dfld e.desc 0 0 8 = 0x10 ∧ dfld e.desc 3 0 8 ≠ 0xFF) → (∀ w ∈ e.sigs, bitsOf w 0 3 = 0) →
  ∃ t, exec (.entryComplete g st) s = .next t ∧ (t.core g).streams = (s.core g).streams.set st es ∧
    t.rd .coreWgradSkipCnt g 0 = count32 (s.rd .coreWgradSkipCnt g 0) 1 ∧
    onlyRegsCores [regKey .coreWgradSkipCnt g 0] [g] (s.trace g 1) t

/-- A SYNC entry that has no signal of its own to another core: one signal to a tumbler of the core itself (R284). -/
def EntryCompleteLocalSignal : Prop := ∀ (s : State) (g st : Nat) (e : Entry) (es : List Entry) (n amount : Nat),
  CompleteOk s g st e es → SigOk s g g → s.home g = g → e.skip = false → e.census = [] →
  n < 256 → 1 ≤ amount → amount ≤ 2 ^ 20 → e.sigs = [1 + 8 + n * 2 ^ 8 + amount * 2 ^ 32, 0, 0, 0] →
  ∃ t, exec (.entryComplete g st) s = .next t ∧ t.tmbCount g n = (s.tmbCount g n + amount) % 2 ^ 48

/-- The closing entry at the head of stream 3 may run: everything before it has completed, and its waits are satisfied. -/
abbrev ClosingOk (s : State) (g kind : Nat) (e : Entry) : Prop :=
  s.running g = true ∧ s.closingReady g kind = some e ∧ ∀ w ∈ e.sigs, bitsOf w 0 3 = 0

/-- STEP_ADV (R34, R232, R267, R286): the step counter and T advance, P1 and P2 are multiplied by BETA1 and BETA2, STEP_SUBST is
cleared, and the sequencer continues at position 0 or at EVAL_POS. -/
def StepAdvance : Prop := ∀ (s : State) (g : Nat) (e : Entry),
  ClosingOk s g 2 e → e.skip = false → e.eval = false → s.mayAdvance g = true → s.flt.verify = none →
  ∃ t, exec (.stepAdv g) s = .next t ∧
    (t.core g).step = ((s.core g).step + 1) % 2 ^ 48 ∧
    ((t.core g).pos, (t.core g).evalRun) = nextPos e.addr (t.core g).step ∧
    (t.core g).streams = (s.core g).streams.set 3 (((s.core g).stream 3).drop 1) ∧
    t.rdF .coreOptT g 0 0 48 = (s.rdF .coreOptT g 0 0 48 + 1) % 2 ^ 48 ∧
    t.rd .coreOptP1 g 0 = (f32Mul (Num.ofF32 (s.rdF .coreOptP1 g 0 0 32)) (Num.ofF32 (s.rdF .coreOptBeta1 g 0 0 32))).toF32
      % 2 ^ 64 ∧
    t.rd .coreOptP2 g 0 = (f32Mul (Num.ofF32 (s.rdF .coreOptP2 g 0 0 32)) (Num.ofF32 (s.rdF .coreOptBeta2 g 0 0 32))).toF32
      % 2 ^ 64 ∧
    t.rdF .coreOptStatus g 0 1 1 = 0 ∧ t.rdF .coreSubstStatus g 0 0 1 = 0 ∧
    ((s.rd .coreOptCtl g 0).testBit 2 = true → t.rdF .coreOptStatus g 0 0 1 = (t.core g).step % 2) ∧
    onlyRegsCores [regKey .coreOptP1 g 0, regKey .coreOptP2 g 0, regKey .coreOptT g 0, regKey .coreOptStatus g 0,
      regKey .coreSubstStatus g 0] [g] s t

/-- A STEP_ADV entry met inside an eval slot advances no step counter (R34). Where the sequencer then goes is the model's choice
(DESIGN CHOICE, log entry 112): the next position. -/
def StepAdvInEval : Prop := ∀ (s : State) (g : Nat) (e : Entry), ClosingOk s g 2 e → e.skip = false → e.eval = true →
  ∃ t, exec (.stepAdv g) s = .next t ∧ (t.core g).step = (s.core g).step ∧ (t.core g).evalRun = (s.core g).evalRun ∧
    (t.core g).pos = e.pos + 1 ∧ (t.core g).streams = (s.core g).streams.set 3 (((s.core g).stream 3).drop 1) ∧ onlyCores [g] s t

/-- The step counter does not advance while an update of the step has not committed (R34, R173, R231). -/
def StepHeld : Prop := ∀ (s : State) (g : Nat), s.mayAdvance g = false →
  (∀ e, s.closingReady g 2 = some e → e.skip = false ∧ e.eval = false) → exec (.stepAdv g) s = .next s

/-- EVAL_END (R286): nothing advances and the sequencer continues at position 0. -/
def EvalEnd : Prop := ∀ (s : State) (g : Nat) (e : Entry), ClosingOk s g 3 e → e.skip = false →
  ∃ t, exec (.evalEnd g) s = .next t ∧ (t.core g).pos = 0 ∧ (t.core g).evalRun = false ∧ (t.core g).step = (s.core g).step ∧
    (t.core g).streams = (s.core g).streams.set 3 (((s.core g).stream 3).drop 1) ∧ onlyCores [g] s t

/-- A closing entry of class 2 in a frozen layer is skipped (R110): it advances nothing and is counted. Where the sequencer then goes is
the model's choice (DESIGN CHOICE, log entry 112): the next position. -/
def ClosingSkipped : Prop := ∀ (s : State) (g : Nat) (e : Entry), e.skip = true → s.wgradSkip g e.cls e.layer = true →
  (ClosingOk s g 2 e ∨ ClosingOk s g 3 e) →
  ∃ t, (ClosingOk s g 2 e → exec (.stepAdv g) s = .next t) ∧ (ClosingOk s g 3 e → exec (.evalEnd g) s = .next t) ∧
    (t.core g).step = (s.core g).step ∧ (t.core g).evalRun = (s.core g).evalRun ∧ (t.core g).pos = e.pos + 1 ∧
    (t.core g).streams = (s.core g).streams.set 3 (((s.core g).stream 3).drop 1) ∧
    t.rd .coreWgradSkipCnt g 0 = count32 (s.rd .coreWgradSkipCnt g 0) 1 ∧
    onlyRegsCores [regKey .coreWgradSkipCnt g 0] [g] s t

/-! ## Tumblers (R287 to R289) -/

/-- What a stream shows of its entries: position, waits satisfied, issued. -/
def progress (c : Core) (st : Nat) : List (Nat × Nat × Bool) := (c.stream st).map (fun e => (e.pos, e.waited, e.issued))

/-- The wait in hand of a stream's head is satisfied: so the stream shows up to that head. What stands behind it may have gone on
too (R285). -/
def released (c d : Core) (st : Nat) : Prop :=
  (progress d st).take ((c.stream st).findIdx (fun e => !e.issued) + 1) =
    ((updFirst (fun e => !e.issued) Entry.satisfy (c.stream st)).map (fun e => (e.pos, e.waited, e.issued))).take
      ((c.stream st).findIdx (fun e => !e.issued) + 1) ∧
  (progress d st).map (fun x => x.1) = (progress c st).map (fun x => x.1)

/-- The head of a stream has a wait in hand of operation `op`. -/
abbrev HeadOk (s : State) (g st op : Nat) (e : Entry) : Prop :=
  s.running g = true ∧ (s.core g).head st = some e ∧ e.waited < 2 ∧ waitOp e.wait = op ∧ (s.core g).mayWait st e = true
    ∧ st < (s.core g).streams.length

/-- The target of the head's tumbler wait: computed when the head reaches it, then kept. -/
def targetOf (s : State) (g : Nat) (e : Entry) : Nat := e.target.getD (tmbTarget (s.tmbMark g (waitObj e.wait)) (waitArg e.wait))

/-- The reader takes the instance that its wait waits for from the shadow copy at once, with a SUBST_WAIT of 0 (R267). -/
def takesShadow (s : State) (g n target : Nat) : Bool :=
  decide (tmbAhead (s.tmbCount g n) target ≤ s.tmbBound g n) && s.shadowReady g n target && (s.shadowFor g n target 0).isSome

/-- TUMBLER_WAIT (R287 to R289, R266, R267): a wait that is reached releases the head, and sets MARK to the target when it has ADV and
comes from the tumbler's ADV_STREAM; a wait that is not reached holds the head, and beyond BOUND is counted and recorded and holds
the stream; a fill that is late counts as a deadline miss; a wait whose instance the core takes from the shadow copy is released. The
wait on the tumbler that starts the step begins once the start save is taken (R397). -/
def TumblerWait : Prop := ∀ (s : State) (g st : Nat) (e : Entry), HeadOk s g st 1 e →
  ¬(st = 3 ∧ e.target = none ∧ waitObj e.wait = s.startTmb ∧ s.needsStartSave g = true) →
  (e.stuck = true → exec (.tumblerWait g st) s = .next s) ∧
  (e.stuck = false → tmbReached (s.tmbCount g (waitObj e.wait)) (targetOf s g e) = true
      ∨ (s.substOf g (waitObj e.wait) (targetOf s g e)).isSome = true → ∃ t, exec (.tumblerWait g st) s = .next t ∧
    released (s.core g) (t.core g) st ∧
    t.tmbMark g (waitObj e.wait) = (if waitAdv e.wait = true ∧ s.tmbAdvStream g (waitObj e.wait) = st
      then targetOf s g e % 2 ^ 48 else s.tmbMark g (waitObj e.wait)) ∧
    t.tmbCount g (waitObj e.wait) = s.tmbCount g (waitObj e.wait) ∧
    coresBut [g] s t ∧
    regsBut [regKey .synTmbMark g (waitObj e.wait), regKey .synViolCnt g 0, regKey .tierViolCnt 0 0, regKey .tierMissCnt 0 0] s t ∧
    memKept s t) ∧
  (e.stuck = false → s.substOf g (waitObj e.wait) (targetOf s g e) = none →
    tmbReached (s.tmbCount g (waitObj e.wait)) (targetOf s g e) = false →
    takesShadow s g (waitObj e.wait) (targetOf s g e) = true → ∃ t, exec (.tumblerWait g st) s = .next t ∧
      released (s.core g) (t.core g) st ∧ t.rd .coreSubstCnt g 0 = count32 (s.rd .coreSubstCnt g 0) 1 ∧
      t.rdF .coreSubstStatus g 0 0 1 = 1 ∧ coresBut [g] s t ∧ memKept s t) ∧
  (e.stuck = false → s.substOf g (waitObj e.wait) (targetOf s g e) = none →
    tmbReached (s.tmbCount g (waitObj e.wait)) (targetOf s g e) = false →
    takesShadow s g (waitObj e.wait) (targetOf s g e) = false → ∃ t, exec (.tumblerWait g st) s = .next t ∧
      progress (t.core g) st = progress (s.core g) st ∧ ((t.core g).head st).map Entry.target = some (some (targetOf s g e)) ∧
      t.rd .tierMissCnt 0 0 = (if e.target = none ∧ (s.fillWin g (waitObj e.wait)).isSome = true
        then count32 (s.rd .tierMissCnt 0 0) 1 else s.rd .tierMissCnt 0 0) ∧
      (tmbAhead (s.tmbCount g (waitObj e.wait)) (targetOf s g e) ≤ s.tmbBound g (waitObj e.wait) →
        onlyRegsCores [regKey .tierMissCnt 0 0] [g] (if e.target.isNone then s.trace g 2 else s) t) ∧
      (s.tmbBound g (waitObj e.wait) < tmbAhead (s.tmbCount g (waitObj e.wait)) (targetOf s g e) →
        t.rd .synBoundCnt g 0 = count32 (s.rd .synBoundCnt g 0) 1 ∧ ((t.core g).head st).map Entry.stuck = some true ∧
        (t.core g).boundStop = true ∧
        recorded .synBound (.sync (waitObj e.wait) 0 st 0 (s.tmbCount g (waitObj e.wait)) (targetOf s g e) 0) s t ∧
        coresBut [g] s t ∧ regsBut [regKey .synBoundCnt g 0, regKey .tierMissCnt 0 0] s t ∧ memKept s t))

/-- A signal or post from the fabric island is applied at a core at once. -/
abbrev DeliverOk (s : State) (g : Nat) : Prop := g < 128 ∧ s.home g = g ∧ SigOk s g (128 + g / 16)

/-- TUMBLER_ADD (R287, R291, R296): the amount, 1 to 2^20, is added to COUNT modulo 2^48; the signal is counted, its path set is
joined to the core's and its substitution mark is kept. -/
def TumblerAdd : Prop := ∀ (s : State) (g n amount path : Nat) (subst : Bool), DeliverOk s g → n < 256 →
  ∃ t, exec (.tumblerAdd g n amount path subst none) s = .next t ∧
    t.tmbCount g n = (s.tmbCount g n + min (max amount 1) (2 ^ 20)) % 2 ^ 48 ∧
    t.rd .synSigCnt g 0 = (s.rd .synSigCnt g 0 + 1) % 2 ^ 64 ∧
    t.rdF .synPathSet g 0 0 4 = s.rdF .synPathSet g 0 0 4 ||| path % 16 ∧
    t.rdF .synPathSet g 0 4 1 = (if subst then 1 else s.rdF .synPathSet g 0 4 1) ∧
    regsBut [regKey .synTmbCount g n, regKey .synSigCnt g 0, regKey .synPathSet g 0, regKey .synTmbMark g n,
      regKey .synViolCnt g 0, regKey .synBoundCnt g 0, regKey .tierViolCnt 0 0, regKey .coreSubstCnt g 0,
      regKey .coreSubstStatus g 0] s t ∧
    coresBut [g] s t ∧ memKept s t

/-- A core whose inbound buffer is full refuses a message, and counts it; the sender keeps it to send again, and holds back behind it
what it sends later, which the core does not count (R303). -/
def MessageRefused : Prop := ∀ (s : State) (g n amount path : Nat) (subst : Bool), g < 128 → n < 256 → s.home g = g →
  64 ≤ (s.core g).inbound.length →
  ((∃ e ∈ s.sigRetry, e.2.src = 128 + g / 16 ∧ s.home e.1 = g) → exec (.tumblerAdd g n amount path subst none) s = .next { s with
    sigRetry := s.sigRetry ++ [(g, ⟨1, n, min (max amount 1) (2 ^ 20), path % 16, subst, 128 + g / 16⟩)] }) ∧
  ((∀ e ∈ s.sigRetry, ¬(e.2.src = 128 + g / 16 ∧ s.home e.1 = g)) → ∃ t, exec (.tumblerAdd g n amount path subst none) s = .next t ∧
    t.sigRetry = s.sigRetry ++ [(g, ⟨1, n, min (max amount 1) (2 ^ 20), path % 16, subst, 128 + g / 16⟩)] ∧
    t.rd .synRefusedCnt g 0 = count32 (s.rd .synRefusedCnt g 0) 1 ∧
    t = { s with regs := t.regs, sigRetry := t.sigRetry } ∧ regsBut [regKey .synRefusedCnt g 0] s t)

/-- The two copies of COUNT (R304): a second copy that differs after the update queues SYN_DUP_MISMATCH. -/
def TumblerCopies : Prop := ∀ (s t : State) (g n amount path d : Nat) (subst : Bool), DeliverOk s g → n < 256 →
  exec (.tumblerAdd g n amount path subst none) s = .next t → d ≠ t.tmbCount g n →
  (∀ x ∈ (t.core g).dup, ¬(x.1 = 0 ∧ x.2.1 = n ∧ x.2.2.1 ≠ 0)) →
  ∃ u, exec (.tumblerAdd g n amount path subst (some d)) s = .next u ∧ u = { t with fltIn := u.fltIn, cores := u.cores } ∧
    coresBut [g] t u ∧ (0, n, 0, d) ∈ (u.core g).dup ∧
    recorded .synDupMismatch (.sync n 0 0 0 (t.tmbCount g n) d 0) t u

/-! ## Latches (R292 to R294) -/

/-- Nothing waits at a latch: no take, no held post, no held try, nothing that a sender holds back; the second copies agree. -/
abbrev LatchQuiet (s : State) (g m : Nat) : Prop :=
  (s.core g).takes.filter (fun t => t.latch == m) = [] ∧ (s.core g).held.filter (fun x => x.obj == m) = [] ∧
    (s.core g).inbound = [] ∧ (∀ e ∈ s.sigRetry, s.home e.1 ≠ g) ∧ (s.core g).dup = [] ∧
    (s.core g).streams.all (fun es => es.all (fun e => !(e.arrived && decide (waitOp e.wait = 3) && decide (waitObj e.wait = m))))
      = true

/-- A latch as R292 describes it: COUNT from 0 to C, OVF only at C, UDF only at 0. -/
abbrev LatchVal.Legal (v : LatchVal) : Prop := v.count ≤ v.cap ∧ (v.ovf ≠ 0 → v.count = v.cap) ∧ (v.udf ≠ 0 → v.count = 0)

/-- An amount of 0, above the capacity, or other than 1 in ticket mode counts in SYN_VIOL_CNT (R283, R293). -/
def amountCounted (s t : State) (g : Nat) (e : Entry) : Prop := t.rd .synViolCnt g 0 =
  (if (s.latch g (waitObj e.wait)).amountViol (waitArg e.wait) then count32 (s.rd .synViolCnt g 0) 1 else s.rd .synViolCnt g 0)

/-- LATCH_TAKE (R292, R293): a take that fits is served at once: COUNT falls by the amount and OVF refills it; one that does not
fit waits. -/
def LatchTake : Prop := ∀ (s : State) (g st : Nat) (e : Entry), HeadOk s g st 2 e → e.arrived = false → e.target = none →
  LatchQuiet s g (waitObj e.wait) →
  ((s.latch g (waitObj e.wait)).amount (waitArg e.wait) ≤ (s.latch g (waitObj e.wait)).count →
    ∃ t, exec (.latchTake g st) s = .next t ∧
      t.latch g (waitObj e.wait) = (s.latch g (waitObj e.wait)).take ((s.latch g (waitObj e.wait)).amount (waitArg e.wait)) ∧
      released (s.core g) (t.core g) st ∧ (t.core g).takes = (s.core g).takes ∧ amountCounted s t g e ∧
      coresBut [g] s t ∧ memKept s t) ∧
  ((s.latch g (waitObj e.wait)).count < (s.latch g (waitObj e.wait)).amount (waitArg e.wait) →
    ∃ t, exec (.latchTake g st) s = .next t ∧ t.latch g (waitObj e.wait) = s.latch g (waitObj e.wait) ∧
      progress (t.core g) st = progress (s.core g) st ∧
      (t.core g).takes = (s.core g).takes ++ [⟨waitObj e.wait, st, (s.latch g (waitObj e.wait)).amount (waitArg e.wait)⟩] ∧
      t.rdF .synLatchState g (waitObj e.wait) 21 4 = 1 ∧
      onlyRegsCores [regKey .synLatchState g (waitObj e.wait)] [g]
        ((s.amountSeen g (waitObj e.wait) e).trace g 2) t ∧ amountCounted s t g e)

/-- LATCH_TRY (R292, R294): a try that fits takes; one that does not adds the shortfall to UDF, leaves COUNT 0, is counted and
recorded, and proceeds. -/
def LatchTry : Prop := ∀ (s : State) (g st : Nat) (e : Entry), HeadOk s g st 3 e → e.arrived = false → e.target = none →
  LatchQuiet s g (waitObj e.wait) →
  ((s.latch g (waitObj e.wait)).amount (waitArg e.wait) ≤ (s.latch g (waitObj e.wait)).count →
    ∃ t, exec (.latchTry g st) s = .next t ∧
      t.latch g (waitObj e.wait) = (s.latch g (waitObj e.wait)).take ((s.latch g (waitObj e.wait)).amount (waitArg e.wait)) ∧
      released (s.core g) (t.core g) st ∧ amountCounted s t g e ∧ coresBut [g] s t ∧ memKept s t) ∧
  ((s.latch g (waitObj e.wait)).count < (s.latch g (waitObj e.wait)).amount (waitArg e.wait) →
    ((s.latch g (waitObj e.wait)).short ((s.latch g (waitObj e.wait)).amount (waitArg e.wait))).udf ≤ tallyMax →
    ∃ t, exec (.latchTry g st) s = .next t ∧
      t.latch g (waitObj e.wait) = (s.latch g (waitObj e.wait)).short ((s.latch g (waitObj e.wait)).amount (waitArg e.wait)) ∧
      released (s.core g) (t.core g) st ∧ amountCounted s t g e ∧
      t.rd .synLatchUdfCnt g 0 = count32 (s.rd .synLatchUdfCnt g 0) 1 ∧
      recorded .synLatchUdf (latchRecord (waitObj e.wait) st ((s.latch g (waitObj e.wait)).amount (waitArg e.wait))
        (t.latch g (waitObj e.wait))) s t ∧ coresBut [g] s t ∧ memKept s t)

/-- LATCH_POST (R292, R294): a post first repays UDF, then fills COUNT up to C, and the excess goes to OVF with a count and a
record. A post that would take OVF past 2^47 - 1 is held, and recorded as fatal. -/
def LatchPost : Prop := ∀ (s : State) (g m amount path : Nat) (subst : Bool), DeliverOk s g → m < 64 → LatchQuiet s g m →
  (s.latch g m).count ≤ (s.latch g m).cap → 1 ≤ amount → amount ≤ 2 ^ 20 →
  (((s.latch g m).post amount).ovf ≤ tallyMax → ∃ t, exec (.latchPost g m amount path subst none) s = .next t ∧
    t.latch g m = (s.latch g m).post amount ∧
    (((s.latch g m).post amount).ovf = (s.latch g m).ovf → t.fltIn = s.fltIn ∧ t.rd .synLatchOvfCnt g 0 = s.rd .synLatchOvfCnt g 0) ∧
    ((s.latch g m).ovf < ((s.latch g m).post amount).ovf →
      t.rd .synLatchOvfCnt g 0 = count32 (s.rd .synLatchOvfCnt g 0) 1 ∧
      recorded .synLatchOvf (latchRecord m 0 (if (s.latch g m).ticket then amount - min amount (s.latch g m).udf else amount)
        (t.latch g m)) s t) ∧
    coresBut [] s t ∧ memKept s t) ∧
  (tallyMax < ((s.latch g m).post amount).ovf → ∃ t, exec (.latchPost g m amount path subst none) s = .next t ∧
    t.latch g m = s.latch g m ∧ (t.core g).held = (s.core g).held ++ [⟨2, m, amount, path % 16, subst, 128 + g / 16⟩] ∧
    recorded .synTallyLimit (latchRecord m 0 amount (s.latch g m)) s t ∧ coresBut [g] s t ∧ memKept s t)

/-- COUNT + OVF - UDF follows the posts and takes, so no count is lost; OVF stays 0 below C and UDF stays 0 above 0 (R292). -/
def LatchConservation : Prop := ∀ (v : LatchVal) (n : Nat), LatchVal.Legal v →
  (LatchVal.Legal (v.post n) ∧ (v.post n).count + (v.post n).ovf + v.udf = v.count + v.ovf + n + (v.post n).udf) ∧
  (n ≤ v.count → LatchVal.Legal (v.take n) ∧ (v.take n).count + (v.take n).ovf + n + v.udf = v.count + v.ovf + (v.take n).udf) ∧
  (v.count < n → v.ovf = 0 → LatchVal.Legal (v.short n) ∧
    (v.short n).count + (v.short n).ovf + n + v.udf = v.count + v.ovf + (v.short n).udf)

/-! ## Lend, heartbeats and the copies (R300, R301, R304, R391, R392) -/

/-- LEND_ENTER (R300, R301): the core is in Lend, is counted, and keeps only its keep-alive share of its grant. -/
def LendEnter : Prop := ∀ (s : State) (g : Nat) (times : List (Nat × Nat)), g < 128 → s.lendReady g times = true →
  ∃ t, exec (.lendEnter g times) s = .next t ∧ (t.core g).lent = true ∧ t.coreState g = 2 ∧
    t.rd .synLendCnt g 0 = count32 (s.rd .synLendCnt g 0) 1 ∧ bitsOf (t.live .synStatus g 0) 31 1 = 1 ∧
    t.grant g = min 12 (s.grant g) ∧ coresBut [g] s t ∧ memKept s t
/-- A core that may not enter Lend keeps its state (the model's choice, log entry 10: a command whose condition does not hold changes
nothing). -/
def LendEnterNot : Prop := ∀ (s : State) (g : Nat) (times : List (Nat × Nat)), s.lendReady g times = false →
  exec (.lendEnter g times) s = .next s

/-- LEND_EXIT (R301): the core leaves Lend, its lent cycles are counted, and it asks its pool for its grant again. -/
def LendExit : Prop := ∀ (s : State) (g cycles : Nat), g < 128 → (s.core g).lent = true → s.lendWake g = true →
  (∃ t, exec (.lendExit g cycles) s = .next t ∧ (t.core g).lent = false ∧ t.coreState g ≤ 1 ∧
    bitsOf (t.live .synStatus g 0) 31 1 = 0 ∧ t.rd .synLendCycCnt g 0 = (s.rd .synLendCycCnt g 0 + cycles) % 2 ^ 64 ∧
    s.grant g ≤ t.grant g ∧ coresBut [g] s t ∧ memKept s t)

/-- CORE_HEARTBEAT (R392): the island sees the core alive. -/
def CoreHeartbeat : Prop := ∀ (s : State) (g wait : Nat), s.active g = true → (s.core g).fence = .none →
  ∃ t, exec (.coreHeartbeat g wait) s = .next t ∧ t.core g = { s.core g with missed := 0 } ∧
    t.rd .synWaitCycCnt g 0 = (s.rd .synWaitCycCnt g 0 + wait) % 2 ^ 64 ∧
    onlyRegsCores [regKey .synWaitCycCnt g 0] [g] s t

/-- HEARTBEAT_MISS (R391, R392): the eighth miss in a row queues CORE_HANG; any other is counted in the island. -/
def HeartbeatMiss : Prop := ∀ (s : State) (g : Nat), s.active g = true → (s.core g).fence = .none →
  ((s.core g).missed ≠ 7 → ∃ t, exec (.heartbeatMiss g) s = .next t ∧ t.core g = { s.core g with missed := (s.core g).missed + 1 } ∧
    onlyCores [g] s t) ∧
  ((s.core g).missed = 7 → ∃ t, exec (.heartbeatMiss g) s = .next t ∧ t.core g = { s.core g with missed := 0 } ∧
    recorded .coreHang (.gen 0 (g % 16) 0 (s.rdF .hngDescSeq g 0 0 32) 0 0) s t ∧
    t = { s with cores := t.cores, fltIn := t.fltIn } ∧ coresBut [g] s t)

/-- SYN_SCRUB (R304): each field whose copies disagree queues SYN_DUP_MISMATCH; nothing else happens. -/
def SynScrub : Prop := ∀ (s : State) (g : Nat) (upsets : List (Nat × Nat × Nat × Nat)), s.active g = true →
  ∃ t, exec (.synScrub g upsets) s = .next t ∧ t = { s with fltIn := t.fltIn, cores := t.cores } ∧
    t.core g = { s.core g with dup := (t.core g).dup } ∧ coresBut [g] s t ∧
    (∀ d ∈ (t.core g).dup, d ∈ (s.core g).dup ∨ (d ∈ upsets ∧ d.2.2.2 ≠ s.copy0 g d.1 d.2.1 d.2.2.1)) ∧
    (∀ u, upsets = [u] → copyField u.1 u.2.1 u.2.2.1 = true → u.2.2.2 ≠ s.copy0 g u.1 u.2.1 u.2.2.1 → u ∈ (t.core g).dup) ∧
    ∃ rs, t.fltIn = s.fltIn ++ rs ∧ rs.length = (t.core g).dup.length ∧ ∀ r ∈ rs, r.kind = .synDupMismatch ∧ r.island = g

end Sys2Proof.Claims

/-- ENTRY_DISPATCH, ENTRY_COMPLETE, STEP_ADV and EVAL_END. -/
def Obligations.SequencerCommands : Prop :=
  Sys2Proof.Claims.EntryDispatch ∧ Sys2Proof.Claims.EntryDispatchWaits ∧ Sys2Proof.Claims.EntryComplete ∧
  Sys2Proof.Claims.SkippedEntryCounts ∧ Sys2Proof.Claims.EntryCompleteLocalSignal ∧ Sys2Proof.Claims.StepAdvance ∧
  Sys2Proof.Claims.StepAdvInEval ∧ Sys2Proof.Claims.StepHeld ∧ Sys2Proof.Claims.EvalEnd ∧
  Sys2Proof.Claims.ClosingSkipped

/-- TUMBLER_WAIT and TUMBLER_ADD. -/
def Obligations.TumblerCommands : Prop :=
  Sys2Proof.Claims.TumblerWait ∧ Sys2Proof.Claims.TumblerAdd ∧ Sys2Proof.Claims.MessageRefused ∧
  Sys2Proof.Claims.TumblerCopies

/-- LATCH_TAKE, LATCH_TRY and LATCH_POST. -/
def Obligations.LatchCommands : Prop :=
  Sys2Proof.Claims.LatchTake ∧ Sys2Proof.Claims.LatchTry ∧ Sys2Proof.Claims.LatchPost

/-- Posts, takes and tries conserve COUNT + OVF - UDF. -/
def Obligations.LatchesLoseNoCount : Prop := Sys2Proof.Claims.LatchConservation

/-- LEND_ENTER, LEND_EXIT, CORE_HEARTBEAT, HEARTBEAT_MISS and SYN_SCRUB. -/
def Obligations.LendHeartbeatScrubCommands : Prop :=
  Sys2Proof.Claims.LendEnter ∧ Sys2Proof.Claims.LendEnterNot ∧ Sys2Proof.Claims.LendExit ∧ Sys2Proof.Claims.CoreHeartbeat ∧
  Sys2Proof.Claims.HeartbeatMiss ∧ Sys2Proof.Claims.SynScrub

namespace Sys2Proof.Claims

open Machine

/-! ## Saves and restores (R302, R303, R397 to R399) -/

/-- The saves of every other core stay. -/
def savesBut (g : Nat) (s t : State) : Prop := t.saves.filter (fun v => v.core != g) = s.saves.filter (fun v => v.core != g)

/-- CONTEXT_SAVE_REQUEST (R107, R302): the core's units begin to stop and the pinned register empties. -/
def ContextSaveRequest : Prop := ∀ (s : State) (g : Nat), s.running g = true →
  ∃ t, exec (.contextSaveRequest g) s = .next t ∧
    t.core g = { s.core g with saveReq := true, hng := { (s.core g).hng with pin := none } } ∧ onlyCores [g] s t

/-- What a core that goes to a save boundary leaves of the other cores: their vaults keep no data for it. -/
def othersDrop (g : Nat) (s t : State) : Prop := ∀ h, h < 128 → h ≠ g → t.core h = { s.core h with vlt := { (s.core h).vlt with
  delivered := (s.core h).vlt.delivered.filter (fun d => !(d.reader % 256 == g)) } }

/-- FREEZE_POINT (R302): once its units have settled the core stands, and its save holds its streams, its waiting takes, its position
and its registers; before that the units only come to a stop. -/
def FreezePoint : Prop := ∀ (s : State) (g : Nat), s.running g = true → (s.core g).saveReq = true → (s.core g).halted = false →
  ((s.veDrain g).settled g = true →
    ∃ t v, exec (.freezePoint g) s = .next t ∧ (t.core g).frozen = true ∧ t.saves.getLast? = some v ∧
    v.core = g ∧ v.gen = 0 ∧ v.step = ((s.veDrain g).core g).step ∧ v.regs = (s.veDrain g).coreRegs g ∧
    v.state.streams = ((s.veDrain g).core g).streams ∧ v.state.takes = ((s.veDrain g).core g).takes ∧
    v.state.pos = ((s.veDrain g).core g).pos ∧ v.state.hasp = ((s.veDrain g).core g).hasp ∧ v.state.lent = false ∧
    savesBut g s t ∧ t = { s.veDrain g with cores := t.cores, saves := t.saves } ∧ othersDrop g (s.veDrain g) t) ∧
  ((s.veDrain g).settled g = false → ∃ t, exec (.freezePoint g) s = .next t ∧ (t.core g).saveReq = true ∧
    (t.core g).frozen = false ∧ onlyCores [g] (s.veDrain g) t)

/-- CONTEXT_RESTORE (R302, R303): the core continues from the save. -/
def ContextRestore : Prop := ∀ (s : State) (g owner gen step : Nat) (v : Save), s.active g = true → (s.core g).fence = .none →
  s.passing g = false → s.saveOf owner gen step = some v →
  ∃ t, exec (.contextRestore g owner gen step) s = .next t ∧ (t.core g).step = v.state.step ∧ (t.core g).pos = v.state.pos ∧
    (t.core g).frozen = false ∧ t.saves = s.saves ∧ memKept s t

/-- The state in which S(s) or D(s) would be taken. -/
def startAt (s : State) (g : Nat) : State := (s.normHead g 3).veDrain g

/-- The units of a core have settled, and nothing holds the lines of its next save record. -/
abbrev SaveOk (u : State) (g : Nat) : Prop := u.settled g = true ∧ u.recordFree g = true

/-- What taking S or D at `u` leaves: where the core has no save area, nothing but the saves, the core's units and messages has changed;
where it has one and no mirror, its record stands there (R397; the record's layout is the model's choice, log entry 60). -/
def saveLeaves (g gen : Nat) (u t : State) : Prop :=
  (u.saveAreas g (u.nextSlot g) = [] → t = { u with cores := t.cores, saves := t.saves, outbox := t.outbox } ∧ othersDrop g u t) ∧
  (∀ a k b, u.saveAreas g (u.nextSlot g) = [a] → locOf a = .vault k b → u.flipArmed (u.home k) (b / 128) 0 = false →
    (t.rawLine (u.home k) (b / 128)).data = saveRecord g gen (u.core g).step)

/-- START_SAVE (R397): S(s) is taken at the step-start wait; the units settle first. -/
def StartSave : Prop := ∀ (s : State) (g : Nat), s.running g = true → s.needsStartSave g = true →
  (s.normHead g 3).atStart g = true →
  (SaveOk (startAt s g) g → ∃ t v, exec (.startSave g) s = .next t ∧ t.saveOf g 1 (s.core g).step = some v ∧
    v.regs = (startAt s g).coreRegs g ∧ savesBut g s t ∧ saveLeaves g 1 (startAt s g) t) ∧
  (¬ SaveOk (startAt s g) g → ∃ t, exec (.startSave g) s = .next t ∧ (t.core g).saveReq = true ∧
    onlyCores [g] (startAt s g) t)

/-- The premises of R397 for D(s). -/
abbrev DerivationSaveOk (s : State) (g : Nat) : Prop :=
  s.running g = true ∧ s.isSealed = true ∧ s.working g = true ∧ (s.core g).evalRun = false ∧
    s.saveOf g 2 (s.core g).step = none ∧ s.needsStartSave g = false ∧ s.atStart g = false ∧ s.lanesDone g = true ∧
    SaveOk (s.veDrain g) g

/-- DERIVATION_SAVE (R397, R398): D(s) is taken; the last core of a package makes its hub tell the lead. -/
def DerivationSave : Prop := ∀ (s : State) (g : Nat), DerivationSaveOk s g →
  ∃ t v, exec (.derivationSave g) s = .next t ∧ t.saveOf g 2 (s.core g).step = some v ∧ v.regs = (s.veDrain g).coreRegs g ∧
    savesBut g s t ∧ saveLeaves g 2 (s.veDrain g) t ∧
    (t.allHold 2 (s.core g).step = false → (s.veDrain g).saveAreas g ((s.veDrain g).nextSlot g) = [] →
      t.outbox = (s.veDrain g).outbox) ∧
    (∀ p, t.allHold 2 (s.core g).step = true → t.leadPkg = some p → p ≠ t.pkg →
      (s.veDrain g).saveAreas g ((s.veDrain g).nextSlot g) = [] → t.outbox = (s.veDrain g).outbox ++
      t.peers.map (fun q => Out.hub 49 q [t.pkg, 2, (s.core g).step]) ++
      [.hub 27 p ((s.core g).step :: t.workers.flatMap (fun h => [h, t.rdF .coreRecoveryCfg h 0 0 8]))])

/-- The lead knows that every working core of the partition holds D(step). -/
abbrev DerivationPointOk (s : State) (step : Nat) (ready : List (Nat × List (Nat × Nat))) : Prop :=
  s.isLead = true ∧ s.isSealed = true ∧ s.allHold 2 step = true ∧ s.live'.all (fun p => ready.any (fun r => r.1 == p)) = true ∧
    s.flt.derived ≠ some step

/-- DERIVATION_POINT (R398): the derivation tumbler of each working core receives one signal, once for the step. -/
def DerivationPoint : Prop := ∀ (s : State) (step : Nat) (ready : List (Nat × List (Nat × Nat))), DerivationPointOk s step ready →
  ∃ t, exec (.derivationPoint step ready) s = .next t ∧ t.flt = { s.flt with derived := some step } ∧ t.saves = s.saves ∧
    memKept s t ∧
    (∀ g, s.workers = [g] → s.peers = [] → s.home g = g → SigOk s g 164 →
      t.tmbCount g (s.rdF .coreRecoveryCfg g 0 0 8) = (s.tmbCount g (s.rdF .coreRecoveryCfg g 0 0 8) + 1) % 2 ^ 48)

/-- Every working core of the package holds the restore generation; the lead orders the partition's newest, or S of its step. -/
abbrev RestoreOk (s : State) (step gen : Nat) : Prop :=
  s.isSealed = true ∧ (gen = 1 ∨ gen = 2) ∧ s.allHold gen step = true ∧ step < 2 ^ 48 ∧
    (s.isLead = true → s.mayRestore gen step = true)

/-- RESTORE (R398): while a lane pass is in progress the units only stop; then the generation is loaded, the fabric's
transactions of the step go, for S(s) every slot returns to +0, and the package is ready to replay. -/
def Restore : Prop := ∀ (s : State) (step gen : Nat), RestoreOk s step gen →
  (s.anyPassing = true → ∃ t, exec (.restore step gen []) s = .next t ∧ t.restorePhase = 1 ∧
    (∀ g ∈ s.workers, (t.core g).saveReq = true) ∧ coresBut s.workers s t ∧ regsBut [regKey .hubRestoreStatus 0 0] s t ∧
    memKept s t) ∧
  (s.anyPassing = false → ∃ t, exec (.restore step gen []) s = .next t ∧
    t.rd .hubRestoreStatus 0 0 = step + gen * 2 ^ 48 + 7 * 2 ^ 50 ∧ t.rd .hubReplayCnt 0 0 = count32 (s.rd .hubReplayCnt 0 0) 1 ∧
    t.sigRetry = [] ∧ t.prg.jobs = [] ∧ (gen = 1 → t.slots.data = [] ∧ t.slots.reading = []) ∧ memKept s t)

/-- RESTORE with generation 3 (R410, R411, R413): the fallback to a durable checkpoint begins, and the older ones stay behind it. That the
runtime starts it so is the model's choice (log entry 57). -/
def RestoreCheckpoint : Prop := ∀ (s : State) (step : Nat) (c : Ckpt) (cs : List Ckpt), s.isSealed = true → c.step < 2 ^ 48 →
  s.flt.ckpts.dropWhile (fun c => c.step != step) = c :: cs →
  ∃ t, exec (.restore step 3 []) s = .next t ∧ t.flt.ckpts = c :: cs ∧
    t.rd .hubRestoreStatus 0 0 = c.step + 3 * 2 ^ 48 + 2 ^ 50 ∧ t.snap = none

/-- RESUME (R398 step 8): the held cores run again and the restore is over. -/
def Resume : Prop := ∀ (s : State) (ready : List Nat), s.restorePhase = 7 → s.runStop = false →
  s.flt.stopAtGen = false → (s.isLead = true → s.live'.all (fun p => ready.contains p) = true) →
  ∃ t, exec (.resume ready) s = .next t ∧ t.restorePhase = 0 ∧
    (∀ g ∈ s.workers, s.flt.loads.contains g = false → (t.core g).frozen = false) ∧
    t.fltq = s.fltq.filter (fun e => !(e.record.cls == 1 || e.record.cls == 2)) ∧ memKept s t

end Sys2Proof.Claims

/-- CONTEXT_SAVE_REQUEST, FREEZE_POINT, CONTEXT_RESTORE, START_SAVE and DERIVATION_SAVE. -/
def Obligations.ContextSaveCommands : Prop :=
  Sys2Proof.Claims.ContextSaveRequest ∧ Sys2Proof.Claims.FreezePoint ∧ Sys2Proof.Claims.ContextRestore ∧
  Sys2Proof.Claims.StartSave ∧ Sys2Proof.Claims.DerivationSave

/-- DERIVATION_POINT, RESTORE and RESUME. -/
def Obligations.RestoreCommands : Prop :=
  Sys2Proof.Claims.DerivationPoint ∧ Sys2Proof.Claims.Restore ∧ Sys2Proof.Claims.RestoreCheckpoint ∧
  Sys2Proof.Claims.Resume

namespace Sys2Proof.Claims

open Machine

/-! ## The hinge array (R84 to R106) -/

/-- The stream shows that the descriptor in its unit has completed. -/
def unitDone (s t : State) (g st : Nat) : Prop :=
  ((t.core g).stream st).map (fun e => (e.pos, e.done)) =
    (updFirst (fun e => e.issued && !e.done) (fun e => { e with done := true }) ((s.core g).stream st)).map (fun e => (e.pos, e.done))

/-- An accumulator after chunk `c` of its tile: up to 64 exact products, summed by a tree, enter it (R86, R88, R89). -/
def MatrixElement : Prop := ∀ (s : State) (g : Nat) (x : HngDesc) (j : HngJob) (ti tj c r l : Nat) (acc : SMap Nat),
  r < x.rows ti → l < x.cols tj →
  SMap.get (fun _ => 0) (s.computeChunk g x j ti tj c acc) (128 * r + l) =
    fltES40.encode (chunkStep x.accMode x.k c
      (fun k => Machine.Num.mulExact
        ((s.opndA g x j).val (s.reader ((s.opndA g x j).span ti (c / 2) ++ (s.opndB g x j).span (c / 2) tj)) (128 * ti + r) k)
        ((s.opndB g x j).val (s.reader ((s.opndA g x j).span ti (c / 2) ++ (s.opndB g x j).span (c / 2) tj)) k (128 * tj + l)))
      (fltES40.decode (SMap.get (fun _ => 0) acc (128 * r + l))))

/-- An accumulator before the first chunk: the accumulate-in value, or +0 (R88, R92). -/
def MatrixElementStart : Prop := ∀ (s : State) (g : Nat) (x : HngDesc) (ti tj r l : Nat),
  r < x.rows ti → l < x.cols tj →
  SMap.get (fun _ => 0) (s.loadTile g x ti tj) (128 * r + l) = if x.accIn
    then fltES40.encode (cinInit x ((s.opndCin g x).val (s.reader ((s.opndCin g x).span ti tj)) (128 * ti + r) (128 * tj + l)))
    else 0

/-- The array of a core may work: the core runs, no save is requested, it is not in Lend and its clock runs. -/
abbrev ArrayOn (s : State) (g : Nat) : Prop :=
  s.running g = true ∧ (s.core g).saveReq = false ∧ (s.core g).lent = false ∧ s.clocked g = true

/-- The array may take the descriptor at the head of stream 0. -/
abbrev MatrixStartOk (s : State) (g : Nat) (e : Entry) : Prop :=
  ArrayOn s g ∧ (s.core g).hng.job = none ∧ (s.core g).inUnit 0 = some e ∧ e.kind = 0 ∧ e.skip = false

/-- MATRIX_PRODUCT without work (R97, R102): the descriptor completes and nothing is computed; without PIN and TURN the pinned register
empties. -/
def MatrixNoWork : Prop := ∀ (s : State) (g n p : Nat) (e : Entry), MatrixStartOk s g e → (s.hngParse g e.desc).none = true →
  ∃ t, exec (.matrixProduct g n p 0) s = .next t ∧ t.rd .hngDescSeq g 0 = e.pos % 2 ^ 64 ∧
    (t.core g).hng = { (s.core g).hng with
      pin := if (s.hngParse g e.desc).pin || (s.hngParse g e.desc).turn then (s.core g).hng.pin else none } ∧
    unitDone s t g 0 ∧ coresBut [g] s t ∧ memKept s t

/-- MATRIX_PRODUCT takes up a descriptor (R93, R94): it stands in hand before its first tile. -/
def MatrixTakesUp : Prop := ∀ (s : State) (g p : Nat) (e : Entry), MatrixStartOk s g e → (s.hngParse g e.desc).none = false →
  ∃ t, exec (.matrixProduct g 0 p 0) s = .next t ∧ t.rd .hngDescSeq g 0 = e.pos % 2 ^ 64 ∧
    (t.core g).hng.job.map (fun j => (j.desc, j.pos, j.nextTile, j.bank, j.written, j.overlap)) =
      some (e.desc, e.pos, 0, none, 0, (s.hngParse g e.desc).overlaps) ∧
    (t.core g).hng.banks = (s.core g).hng.banks ∧ (t.core g).hng.tq = (s.core g).hng.tq ∧ coresBut [g] s t ∧ memKept s t

/-- MATRIX_PRODUCT begins a tile (R92, R94, R95): in a bank that it continues or a free one, from CIN or from the held bank. -/
def MatrixOpensTile : Prop := ∀ (s s0 : State) (g p i : Nat) (cont : Bool) (j : HngJob) (x : HngDesc), s0 = s.hngStalls g p →
  x = s0.hngParse g j.desc → ArrayOn s g → (s.core g).hng.job = some j → j.bank = none → j.nextTile < x.tiles →
  (j.overlap && decide (j.written < j.nextTile)) = false →
  nextBank (s.core g).hng x (j.nextTile / x.colTiles) (j.nextTile % x.colTiles) = some (i, cont) →
  LinesClear s0 (hngUnit g) (if x.accIn ∧ !cont then
    s0.runLines ((s0.opndCin g x).span (j.nextTile / x.colTiles) (j.nextTile % x.colTiles)) else []) →
  ∃ t b, exec (.matrixProduct g 1 p 0) s = .next t ∧ (s.core g).hng.banks[i]? = some b ∧
    (t.core g).hng.banks = (s.core g).hng.banks.set i ⟨.active, b.held, b.tag, j.pos, j.nextTile / x.colTiles,
      j.nextTile % x.colTiles, 0,
      if cont then b.acc else s0.loadTile g x (j.nextTile / x.colTiles) (j.nextTile % x.colTiles)⟩ ∧
    (t.core g).hng.job = some { j with nextTile := j.nextTile + 1, bank := some i, contFound := j.contFound || cont } ∧
    onlyCores [g] s0 t

/-- The panels of the chunk in progress are readable, and no panel ahead needs anything. -/
abbrev ChunkOk (s : State) (g i : Nat) (j : HngJob) (b : Bank) (x : HngDesc) : Prop :=
  ArrayOn s g ∧ (s.core g).hng.job = some j ∧ j.bank = some i ∧ (s.core g).hng.banks[i]? = some b ∧
    (j.fromReg = true → (s.core g).hng.pin.isSome = true) ∧
    LinesClear s (hngUnit g) ([2 * b.next, 2 * b.next + 1].flatMap (fun p => if 32 * p < x.k then
      s.panelLines (s.opndA g x j) (s.opndB g x j) b.ti b.tj p else [])) ∧
    s.hngAhead g x (s.opndA g x j) (s.opndB g x j) b.ti b.tj b.next = s

/-- MATRIX_PRODUCT (R86, R88, R95, R98, R102, R105): a chunk of 64 k-steps enters the accumulators, and its array cycles are counted;
after the last chunk the tile stands ready for its write-out. With the first chunk of a PIN the register takes the operand's address,
format and role. The stall cycles are counted by their cause. -/
def MatrixChunk : Prop := ∀ (s s0 : State) (g p i : Nat) (j : HngJob) (b : Bank) (x : HngDesc), s0 = s.hngStalls g p →
  x = s0.hngParse g j.desc → ChunkOk s0 g i j b x →
  (∀ r, s.hngStallCause g = some r → counted r g p s s0) ∧
  (b.next + 1 < x.chunks ∨ j.hold = false → ∃ t, exec (.matrixProduct g 1 p 0) s = .next t ∧
    (t.core g).hng.banks = (s.core g).hng.banks.set i { b with
      use := if b.next + 1 < x.chunks then b.use else .final
      next := b.next + 1
      acc := s0.computeChunk g x j b.ti b.tj b.next b.acc } ∧
    (t.core g).hng.job = some { j with bank := if b.next + 1 < x.chunks then some i else none } ∧
    (t.core g).hng.tq = (s.core g).hng.tq ∧ counted .hngMacCycCnt g (chunkCycles x) s0 t ∧
    onlyRegsCores [regKey .hngMacCycCnt g 0] [g] s0 t ∧
    (x.pin = true → x.pinOk = true → j.rcmp = false → b.next = 0 →
      (t.core g).hng.pin.map (fun p => (p.addr, p.fmt, p.role)) = some (x.selAddr, selFmtBits x j.desc, x.selB)))

/-- The last chunk of a tile of a HOLD descriptor (R95): its bank is held under the address of C; after the last tile the descriptor
completes with no element written. -/
def MatrixHolds : Prop := ∀ (s s0 : State) (g p i : Nat) (j : HngJob) (b : Bank) (x : HngDesc), s0 = s.hngStalls g p →
  x = s0.hngParse g j.desc → ChunkOk s0 g i j b x → j.hold = true → j.rcmp = false →
  x.chunks ≤ b.next + 1 →
  ∃ t, exec (.matrixProduct g 1 p 0) s = .next t ∧ (x.tiles ≤ j.nextTile → (t.core g).hng.job = none) ∧
    (j.nextTile < x.tiles → (t.core g).hng.job = some { j with bank := none }) ∧
    (t.core g).hng.banks = (s.core g).hng.banks.set i { b with
      use := .held, held := true, tag := x.c, next := b.next + 1, acc := s0.computeChunk g x j b.ti b.tj b.next b.acc } ∧
    coresBut [g] s t ∧ memKept s t

/-- MATRIX_PRODUCT (R105): stall cycles after its steps count under the first cause that applies then. -/
def MatrixStallsAfter : Prop := ∀ (s : State) (g n p q : Nat), ArrayOn s g →
  ∃ t, exec (.matrixProduct g n p 0) s = .next t ∧ exec (.matrixProduct g n p q) s = .next (t.hngStalls g q) ∧
    (∀ r, t.hngStallCause g = some r → counted r g q t (t.hngStalls g q)) ∧
    (t.hngStallCause g = none → t.hngStalls g q = t)

/-- The next finished bank of the descriptor may be written out. -/
abbrev WriteOutOk (s : State) (g i : Nat) (j : HngJob) (b : Bank) : Prop :=
  s.active g = true ∧ (s.core g).frozen = false ∧ s.recordHeld g = false ∧ s.clocked g = true ∧ (s.core g).hng.job = some j ∧
    j.rcmp = false ∧ j.leaving = false ∧ finalBank (s.core g).hng (s.hngParse g j.desc) j = some (i, b)

/-- The lines of the output tile that leaves have all been stored. -/
def tileStored (s : State) (g : Nat) (j : HngJob) (x : HngDesc) : Bool :=
  s.writesDone g (s.tileDestLines g x (j.written / x.colTiles) (j.written % x.colTiles))

/-- TILE_WRITE_OUT (R84, R96, R97, R99): the bank is free again; its converted tile goes to its destinations; once its lines are
stored the tile has been written, and the last tile completes the descriptor. A tile that needs a tile-queue slot waits for one. -/
def TileWriteOut : Prop := ∀ (s : State) (g wait i : Nat) (j : HngJob) (b : Bank) (x : HngDesc), x = s.hngParse g j.desc →
  WriteOutOk s g i j b →
  (x.needsSlot = true → s.tqFree g = 0 → exec (.tileWriteOut g wait) s = .next (s.hngStalls g wait)) ∧
  ((x.needsSlot && s.tqFree g == 0) = false → ∃ t, exec (.tileWriteOut g wait) s = .next t ∧
    (t.core g).hng.banks = (s.core g).hng.banks.set i Bank.empty ∧
    (tileStored (s.hngLeave g j x i b) g j x = false → (t.core g).hng.job.map (fun j => (j.written, j.leaving)) = some (j.written, true)) ∧
    (tileStored (s.hngLeave g j x i b) g j x = true →
      (j.written + 1 < x.tiles → (t.core g).hng.job.map (fun j => (j.written, j.leaving)) = some (j.written + 1, false)) ∧
      (x.tiles ≤ j.written + 1 → (t.core g).hng.job = none)) ∧
    (t.core g).hng.tq.map (fun q => (q.pos, q.ti, q.tj)) = (s.core g).hng.tq.map (fun q => (q.pos, q.ti, q.tj))
      ++ (if x.needsSlot then [(j.pos, b.ti, b.tj)] else []) ∧
    (∀ f, x.fc.fmt = some f → x.dest = 0 ∨ x.dest = 2 →
      t.vmem = (s.storeTile g (x.tileAddr b.ti b.tj) f (s.hngConvert g x f b x.transC) false).vmem ∧
      t.stg = (s.storeTile g (x.tileAddr b.ti b.tj) f (s.hngConvert g x f b x.transC) false).stg) ∧
    (x.dest = 1 ∨ x.dest = 3 → memKept s t))

/-- A tile that leaves waits for the vaults to store its lines (R94, R97). -/
def TileWriteOutWaits : Prop := ∀ (s : State) (g wait : Nat) (j : HngJob), (s.core g).hng.job = some j → j.leaving = true →
  tileStored s g j (s.hngParse g j.desc) = false → exec (.tileWriteOut g wait) s = .next s

/-! ## The vector engine (R134 to R159) -/

/-- The engine may take the descriptor at the head of stream 1 by a command that runs these operation codes. -/
abbrev VeStartOk (s : State) (g : Nat) (ops : Nat → Bool) (e : Entry) : Prop :=
  ArrayOn s g ∧ (s.core g).ve.job = none ∧ (s.core g).inUnit 1 = some e ∧ e.kind = 0 ∧ e.skip = false
    ∧ ops (dfld e.desc 0 0 8) = true

/-- The engine has a descriptor of these operation codes in hand. -/
abbrev VeHas (s : State) (g : Nat) (ops : Nat → Bool) (j : VeJob) : Prop :=
  ArrayOn s g ∧ (s.core g).ve.job = some j ∧ ops (dfld j.desc 0 0 8) = true

/-- What the chain makes of the vector at the walk position (R128 to R153). -/
def veVectorOf (s : State) (g : Nat) (j : VeJob) (x : VeDesc) (sup : Supply) : VecOut :=
  veVector x j.walk ⟨j.walk.batch, (x.at j.walk).1, (x.at j.walk).2, s.reader (x.regions j.walk), sup, s.veCx g x 0, s.veCx g x 1,
    s.freeIx⟩ j.rowState j.result (VeAcc.start j.ov)

/-- The lines that leave the engine after a vector: the complete ones, and all of them after the last vector of a segment (R132). -/
def veLeaving (x : VeDesc) (j : VeJob) (r : VecOut) : SMap (List (Option Nat)) :=
  if (x.next j.walk).2 then r.acc.ov else r.acc.ov.filter (fun e => e.2.all Option.isSome)

/-- The job in hand stands before a vector, and its slots and lines are there, those included that it merges. -/
abbrev VeVectorOk (s : State) (g : Nat) (ops : Nat → Bool) (j : VeJob) (x : VeDesc) (sup : Supply) : Prop :=
  VeHas s g ops j ∧ j.due = 0 ∧ x.over j.walk = false ∧ s.veSupply g x j (x.box j.walk) = some sup ∧
    LinesClear s (veUnit g) (s.veAuxLines x j.walk ++ s.veLines x (s.reader []) j.walk
      ++ s.veMerges (veLeaving x j (veVectorOf s g j x sup)))

/-- Do the tile-queue slots of the segment leave the queue with this vector (R154). -/
def veRetires (x : VeDesc) (j : VeJob) : Bool := (x.next j.walk).2 && x.retires (x.box j.walk)

/-- A command of the vector engine with these operation codes. Taken up with nothing to do, a descriptor completes at once (R137). One
vector enters the chain: it and what the chain counts are counted, the tile-queue slots of a segment retire with its last vector,
what it made is stored (a reduction's result aside), and the walk goes on. After the walk, once every line is stored, the
descriptor completes. -/
def VectorCommand (cmd : Nat → Nat × Nat → Instr) (ops : Nat → Bool) : Prop :=
  (∀ (s : State) (g n p : Nat) (e : Entry), VeStartOk s g ops e → (s.veParse g e.desc).segs = 0 →
    ∃ t, exec (cmd g (n, p)) s = .next t ∧ (t.core g).ve.job = none ∧ (t.core g).ve.lastOp = dfld e.desc 0 0 8 ∧
      t.rd .veDescSeq g 0 = e.pos % 2 ^ 64 ∧ unitDone s t g 1 ∧ coresBut [g] s t ∧ memKept s t) ∧
  (∀ (s s0 : State) (g n p : Nat) (j : VeJob) (x : VeDesc), s0 = s.veStalls g p → x = s0.veParse g j.desc →
    VeHas s0 g ops j → j.due = 0 → x.over j.walk = false → s0.veSupply g x j (x.box j.walk) = none →
    exec (cmd g (n, p)) s = .next s0 ∧ (∀ r, s.veStallCause g = some r → counted r g p s s0)) ∧
  (∀ (s s0 : State) (g p : Nat) (j : VeJob) (x : VeDesc) (sup : Supply) (r : VecOut), s0 = s.veStalls g p →
    x = s0.veParse g j.desc → VeVectorOk s0 g ops j x sup → r = veVectorOf s0 g j x sup →
    ∃ t, exec (cmd g (1, p)) s = .next (t.veRun g 0) ∧
      (t.core g).ve.job.map (fun k => (k.desc, k.walk, k.rowState, k.result)) =
        some (j.desc, (x.next j.walk).1, (if (x.next j.walk).2 then [] else r.rowState), r.result) ∧
      (t.core g).hng.tq = (s.core g).hng.tq.drop (if veRetires x j then sup.taken else 0) ∧
      counted .veActCycCnt g (if x.enters j.walk then 1 else 0) s0 t ∧ counted .veFp32OvfCnt g r.acc.ev.ovf s0 t ∧
      counted .veFp32InvCnt g r.acc.ev.inv s0 t ∧ counted .vePermOorCnt g r.acc.oor s0 t ∧
      counted .veTqMismatchCnt g (if veRetires x j then sup.mismatch else 0) s0 t ∧
      (r.deliver = none → t.vmem = (s0.veFlush s0 g (veLeaving x j r) j.rcmp).vmem ∧
        t.stg = (s0.veFlush s0 g (veLeaving x j r) j.rcmp).stg)) ∧
  (∀ (s s0 : State) (g p : Nat) (j : VeJob) (x : VeDesc), s0 = s.veStalls g p → x = s0.veParse g j.desc → VeHas s0 g ops j →
    x.over j.walk = true →
    (s0.writesDone g j.stores = false → exec (cmd g (0, p)) s = .next s0) ∧
    (s0.writesDone g j.stores = true → j.rcmp = false → ∃ t, exec (cmd g (0, p)) s = .next t ∧ (t.core g).ve.job = none ∧
      (t.core g).ve.lastOp = dfld j.desc 0 0 8 ∧ coresBut [g] s t ∧ memKept s t ∧ (x.tmb = 0xFF → unitDone s t g 1)))

def Elem : Prop := VectorCommand .elem (fun o => o == 0x20 || (decide (0x26 ≤ o) && decide (o ≤ 0x3F) && o != 0x30))
def Reduce : Prop := VectorCommand .reduce (fun o => o == 0x21)
def Scan : Prop := VectorCommand .scan (fun o => o == 0x22)
def Permute : Prop := VectorCommand .permute (fun o => o == 0x23)
def Norm : Prop := VectorCommand .norm (fun o => o == 0x24)
def Softmax : Prop := VectorCommand .softmax (fun o => o == 0x25)
def RowRecompute : Prop := VectorCommand .rowRecompute (fun o => o == 0x30)

/-! ## Recomputing a line (R116, R172) -/

/-- The oldest recompute that waits may begin: the lines of its descriptor are there. -/
abbrev RecomputeOk (s : State) (g : Nat) (q : RcmpReq) (r : List RcmpReq) : Prop :=
  s.active g = true ∧ (s.core g).frozen = false ∧ s.recordHeld g = false ∧ (s.core g).rcmpRun = none ∧ (s.core g).rcmpQ = q :: r ∧
    LinesClear s g (s.rcmpLines g q) ∧ s.rcmpReady s g q = true

/-- What a core whose unit suspends leaves of the other cores: their vaults keep no data for that unit. -/
def unitDrops (unit g : Nat) (s t : State) : Prop := ∀ h, h < 128 → h ≠ g → t.core h = { s.core h with vlt := { (s.core h).vlt with
  delivered := (s.core h).vlt.delivered.filter (fun d => !(d.reader == unit)) } }

/-- The descriptor that a recompute names. -/
def rcmpDesc (s : State) (g : Nat) (q : RcmpReq) : Nat :=
  s.natAt (s.adr g q.descAddr) (descLen (s.byteAt (s.adr g q.descAddr)))

/-- RECOMPUTE (R172): the unit suspends what it has in hand and begins the recompute's descriptor; the array suspends its banks
as well. A descriptor of no unit ends at once. -/
def Recompute : Prop := ∀ (s : State) (g : Nat) (q : RcmpReq) (r : List RcmpReq), RecomputeOk s g q r →
  (opStream (s.byteAt (s.adr g q.descAddr)) = some 0 → (s.hngParse g (rcmpDesc s g q)).none = false →
    ∃ t, exec (.recompute g) s = .next t ∧ (t.core g).rcmpQ = r ∧ (t.core g).rcmpRun = some q ∧
      (t.core g).hng.saved = some ⟨(s.core g).hng.job, (s.core g).hng.banks⟩ ∧
      (t.core g).hng.job.map (fun j => (j.desc, j.rcmp)) = some (rcmpDesc s g q, true) ∧ (t.core g).hng.pin = none ∧
      unitDrops (hngUnit g) g s t ∧ memKept s t) ∧
  (opStream (s.byteAt (s.adr g q.descAddr)) = some 1 →
    ∃ t, exec (.recompute g) s = .next t ∧ (t.core g).rcmpQ = r ∧ (t.core g).rcmpRun = some q ∧
      (t.core g).ve.saved = some (s.core g).ve.job ∧ (t.core g).ve.job = some (VeJob.start (rcmpDesc s g q) 0 false true) ∧
      unitDrops (veUnit g) g s t ∧ memKept s t) ∧
  (opStream (s.byteAt (s.adr g q.descAddr)) = none ∨ opStream (s.byteAt (s.adr g q.descAddr)) = some 3 →
    ∃ t, exec (.recompute g) s = .next t ∧ (t.core g).rcmpQ = r ∧ (t.core g).rcmpRun = none ∧
      (q.live = true → ∀ k, s.lockOf q.vault q.line = some k → (t.lockOf q.vault q.line).map (fun k => k.phase) = some .reread) ∧
      coresBut [g, q.vault] s t ∧ memKept s t)

end Sys2Proof.Claims

/-- MATRIX_PRODUCT and TILE_WRITE_OUT. -/
def Obligations.MatrixCommands : Prop :=
  Sys2Proof.Claims.MatrixNoWork ∧ Sys2Proof.Claims.MatrixTakesUp ∧ Sys2Proof.Claims.MatrixOpensTile ∧
  Sys2Proof.Claims.MatrixChunk ∧ Sys2Proof.Claims.MatrixHolds ∧ Sys2Proof.Claims.MatrixStallsAfter ∧
  Sys2Proof.Claims.TileWriteOut ∧ Sys2Proof.Claims.TileWriteOutWaits

/-- The value of each accumulator of a matrix product, chunk by chunk. -/
def Obligations.MatrixAccumulators : Prop := Sys2Proof.Claims.MatrixElement ∧ Sys2Proof.Claims.MatrixElementStart

/-- ELEM, REDUCE, SCAN, PERMUTE, NORM, SOFTMAX and ROW_RECOMPUTE. -/
def Obligations.VectorCommands : Prop :=
  Sys2Proof.Claims.Elem ∧ Sys2Proof.Claims.Reduce ∧ Sys2Proof.Claims.Scan ∧ Sys2Proof.Claims.Permute ∧ Sys2Proof.Claims.Norm ∧
  Sys2Proof.Claims.Softmax ∧ Sys2Proof.Claims.RowRecompute

namespace Sys2Proof.Claims

open Machine

/-! ## The vault controller (R162 to R184) -/

/-- A vault serves a request at its line at once. -/
abbrev LineOk (s : State) (v line src : Nat) (write : Bool) : Prop :=
  s.vaultUp v = true ∧ s.vaultServes v src write = true ∧ line < 2 ^ 26 ∧ s.locked v line = false ∧ s.busyBank v line = none

/-- The write meets no fence, no protected page and no page under migration. -/
abbrev WriteFree (s : State) (v line : Nat) : Prop :=
  s.writeHeld v line = false ∧ s.guarded v (linePage line) = false ∧ s.migrating v line = false

/-- The tag that a write stores (R167): bits [15:0] of a core's step counter; any other writer's own. -/
def WriterTag : Prop := ∀ (s : State) (src tag : Nat), (src < 128 → s.writerTag src tag = (s.core src).step % 2 ^ 16) ∧
  (128 ≤ src → s.writerTag src tag = tag % 2 ^ 16)

/-- VLT_LINE_READ (R168, R171, R173): a line that passes its check is answered; a POISON line is answered with zeros, counted and
recorded; a line that fails its check is locked and counted. A request to a locked line waits for the lock. -/
def VltLineRead : Prop := ∀ (s : State) (v line src : Nat) (err : List Nat) (r : RawLine),
  r = (s.rawLine v line).flip err → src ≠ 0xFF →
  (LineOk s v line src false → s.flipArmed v line 1 = false →
    (r.ok = true → r.poison = false → exec (.vltLineRead v line src err) s = .next (s.send (.lineData src v line 0 r.data))) ∧
    (r.ok = true → r.poison = true → ∃ t, exec (.vltLineRead v line src err) s = .next t ∧
      t.outbox = s.outbox ++ [.lineData src v line 1 (List.replicate 128 0)] ∧ counted .vltPoisonReadCnt v 1 s t ∧
      (∃ x, t.fltIn = s.fltIn ++ [x] ∧ x.kind = .vltLasting) ∧ (src < 128 → (t.core src).withhold = true) ∧
      regsBut [regKey .vltPoisonReadCnt v 0] s t ∧ coresBut [src] s t ∧ memKept s t) ∧
    (r.ok = false → ∃ t, exec (.vltLineRead v line src err) s = .next t ∧ t.locked v line = true ∧
      counted .vltCrcMismatchCnt v 1 s t ∧ onlyRegsCores [regKey .vltCrcMismatchCnt v 0] [v] s t)) ∧
  (s.vaultUp v = true → s.vaultServes v src false = true → line < 2 ^ 26 → s.locked v line = true →
    ∃ t, exec (.vltLineRead v line src err) s = .next t ∧ onlyCores [v] s t ∧
      (t.lockOf v line).map (fun k => k.waiting.length) = (s.lockOf v line).map (fun k => k.waiting.length + 1))

/-- A line after a store: data, tag and flags as written, and it passes its check. -/
def lineHolds (t : State) (v line : Nat) (data : List Nat) (tag flags : Nat) : Prop :=
  (t.rawLine v line).data = data ∧ (t.rawLine v line).tag = tag ∧ (t.rawLine v line).flags = flags ∧ (t.rawLine v line).ok = true

/-- VLT_LINE_WRITE (R167, R168): the line holds the data, the tag (a core's own step tag) and FLAGS 0 with a fresh CRC; no other byte
of the vaults changes. -/
def VltLineWrite : Prop := ∀ (s : State) (v line src tag : Nat) (data : List Nat), LineOk s v line src true → WriteFree s v line →
  s.flipArmed v line 0 = false →
  ∃ t, exec (.vltLineWrite v line src tag data) s = .next t ∧ lineHolds t v line (pad128 data) (s.writerTag src tag) 0 ∧
    t.lineKey v line = s.lineKey v line ∧ vaultsBut (s.lineKey v line) 136 s t ∧ t.stg = s.stg ∧
    regsBut [regKey .tierStrayWriteCnt 0 0] s t ∧ coresBut [] s t ∧ t.outbox = s.outbox

/-- NARROW_WRITE (R174): the line is read, the bytes are merged from their offset on, and the line is stored with its tag and
MERGED; a POISON line counts as zeros and stays POISON. -/
def NarrowWrite : Prop := ∀ (s : State) (v line src tag off : Nat) (bytes err : List Nat) (r : RawLine),
  r = (s.rawLine v line).flip err → LineOk s v line src true → WriteFree s v line →
  s.flipArmed v line 0 = false → off < 128 →
  ¬(off = 0 ∧ 128 ≤ ((bytes.map (· % 256)).take (128 - off)).length) → r.ok = true →
  ∃ t, exec (.narrowWrite v line src tag off bytes err) s = .next t ∧
    lineHolds t v line (mergeBytes (if r.poison then List.replicate 128 0 else r.data) off ((bytes.map (· % 256)).take (128 - off)))
      (s.writerTag src tag) (if r.poison then 6 else 2) ∧
    counted .vltRmwCnt v 1 s t ∧ vaultsBut (s.lineKey v line) 136 s t ∧ t.stg = s.stg ∧
    regsBut [regKey .vltRmwCnt v 0, regKey .tierStrayWriteCnt 0 0] s t ∧ coresBut [] s t

/-- A lock on a line that a unit outside asked for with a read, with no other request waiting, no lane in the vault and no flip mask
armed for reads. -/
abbrev LockRead (s : State) (v line : Nat) (k : LineLock) (ph : LockPhase) : Prop :=
  s.lockOf v line = some k ∧ k.phase = ph ∧ k.lane = false ∧ k.waiting = [] ∧ (s.core v).lane.job = none ∧
    k.req.write = false ∧ k.req.unit = none ∧ k.req.src ≠ 0xFF ∧ k.req.line = line ∧ k.line = line ∧
    line < 2 ^ 26 ∧ s.flipArmed v line 1 = false

/-- VLT_REFETCH (R171): a second read that passes is a transient: counted, recorded, the read answered, the lock released. One that
fails is a lasting fault: counted, and the line as it now stands is POISON. -/
def VltRefetch : Prop := ∀ (s : State) (v line : Nat) (err : List Nat) (k : LineLock) (r : RawLine),
  r = (s.rawLine v line).flip err → LockRead s v line k .refetch →
  (r.ok = true → r.poison = false → ∃ t, exec (.vltRefetch v line err) s = .next t ∧ t.locked v line = false ∧
    counted .vltTransientCnt v 1 s t ∧ t.outbox = s.outbox ++ [.lineData k.req.src v line 0 r.data] ∧
    (∃ x, t.fltIn = s.fltIn ++ [x] ∧ x.kind = .vltTransient) ∧ regsBut [regKey .vltTransientCnt v 0] s t ∧ coresBut [v] s t ∧
    memKept s t) ∧
  (r.ok = false → r.test = false → ∃ t, exec (.vltRefetch v line err) s = .next t ∧ counted .vltLastingCnt v 1 s t ∧
    (t.rawLine v line).poison = true ∧ t.stg = s.stg)

/-- PAGE_MIGRATE_DONE (R177, R178): the page's lines are in the reserve page, which stands for it from now on; a bad reserve page
fails the retirement. -/
def PageMigrateDone : Prop := ∀ (s : State) (v n : Nat) (r : Retiring), (s.vlt v).retiring = some r → r.waiting = [] →
  s.passClear v (fun l => linePage (s.retireMap v l) == r.page) = true → r.page < 2 ^ 12 → r.reserve < 2 ^ 12 →
  (List.range 4).find? (fun n => !(s.rd .vltRetire v n).testBit 0) = some n →
  (∃ t, exec (.pageMigrateDone v true) s = .next t ∧ (t.vlt v).retiring = none ∧
    (∃ x, t.fltIn = s.fltIn ++ [x] ∧ x.kind = .vltRetireFail) ∧ t.regs = s.regs ∧ memKept s t) ∧
  (∃ t, exec (.pageMigrateDone v false) s = .next t ∧ (t.vlt v).retiring = none ∧
    t.rd .vltRetire v n = 1 + r.page * 2 + r.reserve * 2 ^ 13 ∧ (∃ x ∈ t.fltIn, x.kind = .vltRetired) ∧ t.stg = s.stg)

/-- VLT_RECOMPUTE_READ (R171 step 7): the recomputed line passes: counted, recorded, the read answered, the lock released. -/
def VltRecomputeRead : Prop := ∀ (s : State) (v line : Nat) (err : List Nat) (k : LineLock) (r : RawLine),
  r = (s.rawLine v line).flip err → LockRead s v line k .reread → r.ok = true → r.poison = false →
  ∃ t, exec (.vltRecomputeRead v line err) s = .next t ∧ t.locked v line = false ∧ counted .vltRecomputeCnt v 1 s t ∧
    t.outbox = s.outbox ++ [.lineData k.req.src v line 0 r.data] ∧ (∃ x, t.fltIn = s.fltIn ++ [x] ∧ x.kind = .vltRecomputed) ∧
    regsBut [regKey .vltRecomputeCnt v 0] s t ∧ coresBut [v] s t ∧ memKept s t

/-- RCMP_TIMEOUT (R171 steps 7 and 8): the line stays as it is; its reader gets a POISON answer, counted and recorded. A recompute
that has stored the line goes on. -/
def RcmpTimeout : Prop := ∀ (s : State) (v line : Nat) (k : LineLock), LockRead s v line k .recompute → k.test = false →
  ((s.rawLine v line).ok = true → (s.rawLine v line).poison = false → (s.rawLine v line).test = false →
    exec (.rcmpTimeout v line) s = .next s) ∧
  ((s.rawLine v line).poison = true → ∃ t, exec (.rcmpTimeout v line) s = .next t ∧ t.locked v line = false ∧ counted .vltPoisonReadCnt v 1 s t ∧
    t.outbox = s.outbox ++ [.lineData k.req.src v line 1 (List.replicate 128 0)] ∧
    (∃ x, t.fltIn = s.fltIn ++ [x] ∧ x.kind = .vltLasting) ∧ memKept s t)

/-! ## Refresh, scrubbing, temperature, stage memory (R180 to R187) -/

/-- REFRESH_DUE (R182, R183): a busy bank postpones a refresh into its debt; at POSTPONE_MAX it is refreshed by force, but for a
bank under a lane pass; with POSTPONE_MAX 0 it is forced at once. -/
def RefreshDue : Prop := ∀ (s : State) (v b : Nat) (pending : Bool), s.vaultUp v = true → b < 128 →
  (pending = true ∨ s.passOn v b = true) →
  (s.postponeMax v = 0 → s.passOn v b = false → ∃ t, exec (.refreshDue v b pending) s = .next t ∧
    counted .vltRefreshForcedCnt v 1 s t ∧ onlyRegs [regKey .vltRefreshForcedCnt v 0] s t) ∧
  (0 < s.postponeMax v → s.debt v b + 1 < s.postponeMax v ∨ s.passOn v b = true →
    ∃ t, exec (.refreshDue v b pending) s = .next t ∧ t.debt v b = s.debt v b + 1 ∧ counted .vltRefreshPostponeCnt v 1 s t ∧
      onlyRegsCores [regKey .vltRefreshPostponeCnt v 0] [v] s t) ∧
  (0 < s.postponeMax v → s.postponeMax v ≤ s.debt v b + 1 → s.passOn v b = false →
    ∃ t, exec (.refreshDue v b pending) s = .next t ∧ t.debt v b = 0 ∧ counted .vltRefreshPostponeCnt v 1 s t ∧
      counted .vltRefreshForcedCnt v (s.debt v b + 1) s t ∧
      onlyRegsCores [regKey .vltRefreshPostponeCnt v 0, regKey .vltRefreshForcedCnt v 0] [v] s t)

/-- REFRESH_REPAY (R183): an idle bank repays its debt. -/
def RefreshRepay : Prop := ∀ (s : State) (v b : Nat), s.vaultUp v = true → b < 128 → s.passOn v b = false →
  ∃ t, exec (.refreshRepay v b) s = .next t ∧ t.debt v b = 0 ∧ (∀ c, c ≠ b → t.debt v c = s.debt v c) ∧ onlyCores [v] s t

/-- The scrub of a vault after its next line. -/
def scrubbed (s t : State) (v : Nat) (skip : Bool) : Prop :=
  ((t.vlt v).scrubPos, (t.vlt v).scrubSkipped, (t.vlt v).scrubDue) =
    (((s.vlt v).scrubMove skip).scrubPos, ((s.vlt v).scrubMove skip).scrubSkipped, ((s.vlt v).scrubMove skip).scrubDue)

/-- PATROL_SCRUB (R180): the next line is read and counted, and one that fails its check is locked; a locked line or one under a lane
pass is skipped. -/
def PatrolScrub : Prop := ∀ (s : State) (v l : Nat) (err : List Nat), s.vaultUp v = true → (s.rd .vltCtl v 0).testBit 4 = true →
  l = (s.vlt v).scrubNext →
  (s.locked v l = false → s.busyBank v l = none → ∃ t, exec (.patrolScrub v err) s = .next t ∧ scrubbed s t v false ∧
    counted .vltScrubLineCnt v 1 s t ∧ t.locked v l = !((s.rawLine v l).flip err).ok ∧
    onlyRegsCores [regKey .vltScrubLineCnt v 0, regKey .vltCrcMismatchCnt v 0] [v] s t) ∧
  (s.locked v l = true ∨ (s.busyBank v l).isSome = true → ∃ t, exec (.patrolScrub v err) s = .next t ∧ scrubbed s t v true ∧
    onlyCores [v] s t)

/-- The scrub returns to the lines that it skipped once it has passed their row group, the vault's last one too (R180). -/
def ScrubReturns : Prop := ∀ (v : Vlt) (skip : Bool), v.scrubDue = [] → (v.scrubPos + 1) % 8 = 0 →
  ∀ l ∈ (if skip then v.scrubSkipped ++ [v.scrubPos] else v.scrubSkipped), l ∈ (v.scrubMove skip).scrubDue

/-- TEMP_SAMPLE (R184): the layers' temperatures are readable, and a change of band waits for the next refresh interval. -/
def TempSample : Prop := ∀ (s : State) (v l0 l1 l2 l3 : Nat), s.vaultUp v = true → l0 < 256 → l1 < 256 → l2 < 256 → l3 < 256 →
  ∃ t, exec (.tempSample v l0 l1 l2 l3) s = .next t ∧ t.rd .vltTemp v 0 = l0 + l1 * 2 ^ 8 + l2 * 2 ^ 16 + l3 * 2 ^ 24 ∧
    (t.vlt v).bandNext = (if bandOf (s.rdF .vltStatus v 0 0 2) (max (max l0 l1) (max l2 l3)) = s.rdF .vltStatus v 0 0 2 then none
      else some (bandOf (s.rdF .vltStatus v 0 0 2) (max (max l0 l1) (max l2 l3)))) ∧
    onlyRegsCores [regKey .vltTemp v 0] [v] s t

/-- BAND_CHANGE (R184): the band changes; the hot band queues VLT_HOT. -/
def BandChange : Prop := ∀ (s : State) (v b : Nat), (s.vlt v).bandNext = some b → b < 4 →
  ∃ t, exec (.bandChange v) s = .next t ∧ t.rdF .vltStatus v 0 0 2 = b ∧ (t.vlt v).bandNext = none ∧
    (b ≠ 2 → onlyRegsCores [regKey .vltStatus v 0] [v] s t) ∧
    (b = 2 → (∃ x, t.fltIn = s.fltIn ++ [x] ∧ x.kind = .vltHot) ∧ regsBut [regKey .vltStatus v 0] s t ∧ coresBut [v] s t ∧ memKept s t)

/-- STG_ACCESS (R185 to R187): a word is read or bytes are written; a single-bit error is corrected and counted; a double-bit error
is answered as POISON, counted and recorded, and the core withholds its step; beyond the end a read returns zero and the access
counts, in the hub where the fabric and hub port asked. -/
def StgAccess : Prop := ∀ (s : State) (g port byte retries : Nat), s.active g = true → s.recordHeld g = false →
  (stgBytes ≤ byte → ∀ ecc data, ∃ t, exec (.stgAccess g port byte retries ecc data) s = .next t ∧
    (port ≠ 5 → counted .coreAddrViolCnt g 1 s t ∧ regsBut [regKey .coreAddrViolCnt g 0] s t) ∧
    (port = 5 → counted .hubAddrViolCnt 0 1 s t ∧ regsBut [regKey .hubAddrViolCnt 0 0] s t) ∧
    t.outbox = s.outbox ++ (if data.isEmpty then [.lineData g port (byte / 8) 0 (List.replicate 8 0)] else []) ∧
    coresBut [] s t ∧ memKept s t) ∧
  (byte < stgBytes →
    (∃ t, exec (.stgAccess g port byte retries 0 []) s = .next t ∧
      t.outbox = s.outbox ++ [.lineData g port (byte / 8) 0 ((List.range 8).map (fun i => s.stgByte g (8 * (byte / 8) + i)))] ∧
      counted .coreStgConflictCnt g retries s t ∧ regsBut [regKey .coreStgConflictCnt g 0] s t ∧ coresBut [] s t ∧ memKept s t) ∧
    (∀ b data, ∃ t, exec (.stgAccess g port byte retries 0 (b :: data)) s = .next t ∧ t.vmem = s.vmem ∧
      (∀ i, i < ((b :: data).take (stgBytes - byte)).length → t.stgByte g (byte + i) = (b :: data).getD i 0 % 256) ∧
      (∀ a, a < g * stgBytes + byte ∨ g * stgBytes + byte + ((b :: data).take (stgBytes - byte)).length ≤ a →
        SMap.get stgDefault t.stg a = SMap.get stgDefault s.stg a) ∧ coresBut [] s t) ∧
    (∃ t, exec (.stgAccess g port byte retries 1 []) s = .next t ∧ counted .coreStgCeCnt g 1 s t ∧
      t.fixes g (byte / 8) = s.fixes g (byte / 8) + 1 ∧ coresBut [g] s t ∧ memKept s t) ∧
    (∃ t, exec (.stgAccess g port byte retries 2 []) s = .next t ∧ counted .coreStgUeCnt g 1 s t ∧
      t.outbox = s.outbox ++ [.lineData g port (byte / 8) 1 (List.replicate 8 0)] ∧ (t.core g).withhold = true ∧
      (∃ x, t.fltIn = s.fltIn ++ [x] ∧ x.kind = .stgUe) ∧ coresBut [g] s t ∧ memKept s t))

end Sys2Proof.Claims

/-- VLT_LINE_READ, VLT_LINE_WRITE and NARROW_WRITE. -/
def Obligations.VaultLineCommands : Prop :=
  Sys2Proof.Claims.WriterTag ∧ Sys2Proof.Claims.VltLineRead ∧ Sys2Proof.Claims.VltLineWrite ∧ Sys2Proof.Claims.NarrowWrite

/-- VLT_REFETCH, PAGE_MIGRATE_DONE, RECOMPUTE, VLT_RECOMPUTE_READ and RCMP_TIMEOUT. -/
def Obligations.LineRepairCommands : Prop :=
  Sys2Proof.Claims.VltRefetch ∧ Sys2Proof.Claims.PageMigrateDone ∧ Sys2Proof.Claims.Recompute ∧
  Sys2Proof.Claims.VltRecomputeRead ∧ Sys2Proof.Claims.RcmpTimeout

/-- REFRESH_DUE, REFRESH_REPAY, PATROL_SCRUB, TEMP_SAMPLE, BAND_CHANGE and STG_ACCESS. -/
def Obligations.VaultUpkeepCommands : Prop :=
  Sys2Proof.Claims.RefreshDue ∧ Sys2Proof.Claims.RefreshRepay ∧ Sys2Proof.Claims.PatrolScrub ∧ Sys2Proof.Claims.ScrubReturns ∧
  Sys2Proof.Claims.TempSample ∧
  Sys2Proof.Claims.BandChange ∧ Sys2Proof.Claims.StgAccess

namespace Sys2Proof.Claims

open Machine

/-! ## The bank lanes (R190 to R219) -/

/-- The lanes may take the descriptor at the head of stream 2 by a command that runs these operation codes. -/
abbrev LaneStartOk (s : State) (g : Nat) (ops : Nat → Bool) (e : Entry) : Prop :=
  s.running g = true ∧ (s.core g).lane.job = none ∧ (s.core g).inUnit 2 = some e ∧ (s.core g).saveReq = false ∧ e.kind = 0 ∧
    e.skip = false ∧ ops (dfld e.desc 0 0 8) = true ∧
    (dfld e.desc 0 0 8 = 0x40 → (s.rd .coreOptStatus g 0).testBit 2 = false)

/-- The state in which a lane descriptor is read: OPTIM has opened its commit gate (R229). -/
def laneGate (s : State) (g d : Nat) : State := if dfld d 0 0 8 = 0x40 then s.openGate g else s
/-- The descriptor as issued, with the step's constants in OPTIM (R229). -/
def laneIssued (s : State) (g d : Nat) : Nat := if dfld d 0 0 8 = 0x40 then (laneGate s g d).optPatch g d else d

/-- A command of the lanes with these operation codes: a descriptor with work is in hand with the step tag; one without work
completes at once. -/
def LaneCommand (cmd : Nat → Instr) (ops : Nat → Bool) : Prop :=
  ∀ (s : State) (g : Nat) (e : Entry) (x : LaneDesc), LaneStartOk s g ops e →
  x = (laneGate s g e.desc).laneParse g (laneIssued s g e.desc) →
  (∀ b, b < 128 → 0 < x.items b → ∃ t, exec (cmd g) s = .next t ∧
    (t.core g).lane.job = some ⟨laneIssued s g e.desc, e.pos, e.eval, false, s.stepTag g, [], [Census.zero, Census.zero, Census.zero]⟩ ∧
    t.rd .laneDescSeq g 0 = e.pos % 2 ^ 64 ∧ coresBut [g] s t ∧ memKept s t) ∧
  (x.work = false → ∃ t, exec (cmd g) s = .next t ∧ (t.core g).lane.job = none ∧ t.rd .laneDescSeq g 0 = e.pos % 2 ^ 64 ∧
    unitDone s t g 2 ∧ coresBut [g] s t ∧ memKept s t)

def Optim : Prop := LaneCommand .optim (fun o => o == 0x40)
def Scale : Prop := LaneCommand .scale (fun o => o == 0x41)
def Digest : Prop := LaneCommand .digest (fun o => o == 0x42)
def Zero : Prop := LaneCommand .zero (fun o => o == 0x43 || decide (0x44 ≤ o))

/-- The state with the allowance that LANE_TOKEN_GRANT brings, and with the wait of its banks as well. -/
def laneAllowed (s : State) (g units : Nat) : State :=
  { s with pwr := { s.pwr with lanes := SMap.set (fun _ => 328) s.pwr.lanes (g / 16) (min units 328) } }
def laneGranted (s : State) (g units wait : Nat) : State := (laneAllowed s g units).bump .laneGrantWaitCnt g wait

/-- Tokens that the vault may hold now. -/
def tokenCap (s : State) (g : Nat) (x : LaneDesc) : Nat := min (min 32 (s.lanesMax g).1) (min x.lanes (s.laneShare g))

/-- LANE_TOKEN_GRANT (R202, R207, R37): a free token goes to the bank that has waited longest; without a free token none is given,
and with no bank waiting no wait counts. -/
def LaneTokenGrant : Prop := ∀ (s s1 : State) (g units wait : Nat) (j : LaneJob) (x : LaneDesc), s.running g = true →
  (s.core g).saveReq = false → (s.core g).lane.job = some j → s1 = laneGranted s g units wait →
  x = (laneAllowed s g units).laneParse g j.desc →
  ((laneAllowed s g units).laneWaiters g j x = [] → exec (.laneTokenGrant g units wait) s = .next (laneAllowed s g units)) ∧
  (tokenCap s1 g x ≤ j.tokens → (laneAllowed s g units).laneWaiters g j x ≠ [] →
    exec (.laneTokenGrant g units wait) s = .next s1) ∧
  (∀ b, j.tokens < tokenCap s1 g x → (s.core g).lane.earliest ((laneAllowed s g units).laneWaiters g j x) = some b →
    ∃ t, exec (.laneTokenGrant g units wait) s = .next t ∧ t.laneBank g b = { s.laneBank g b with token := true } ∧
      (∀ c, c ≠ b → t.laneBank g c = s.laneBank g c) ∧ counted .laneGrantWaitCnt g wait s t ∧
      t.laneUnits (g / 16) = min units 328 ∧ onlyCores [g] s1 t)

/-- The bank holds a token and has a pass to start. -/
abbrev ClaimOk (s : State) (g b : Nat) (j : LaneJob) (x : LaneDesc) : Prop :=
  s.running g = true ∧ (s.core g).saveReq = false ∧ (s.core g).lane.job = some j ∧ (s.laneBank g b).token = true ∧
    (s.laneBank g b).claimed = none ∧ (s.laneBank g b).pending x b = true

/-- The lines of the bank's next pass. -/
def passSet (s : State) (g b : Nat) (x : LaneDesc) : List Nat :=
  (s.laneBank g b).passLines x b (s.passSize g x b (s.laneBank g b))

/-- LANE_PASS_CLAIM (R199, R203, R204): the set is claimed and read; a set that may not be claimed, or a line that cannot be used,
gives the token back. -/
def LanePassClaim : Prop := ∀ (s : State) (g b : Nat) (errs : List (Nat × List Nat)) (j : LaneJob) (x : LaneDesc),
  x = s.laneParse g j.desc → ClaimOk s g b j x →
  ((passSet s g b x).all (s.mayClaim g j.rcmp) = false → ∃ t, exec (.lanePassClaim g b errs) s = .next t ∧
    (t.laneBank g b).token = false ∧ onlyCores [g] s t) ∧
  ((passSet s g b x).all (s.mayClaim g j.rcmp) = true →
    (x.op = 0x43 → ∃ t, exec (.lanePassClaim g b errs) s = .next t ∧
      t.claimedSet g b = some ((passSet s g b x).map (fun l => ⟨l, 0, 0, 0, List.replicate 128 0⟩)) ∧ onlyCores [g] s t) ∧
    (∀ got, x.op ≠ 0x43 → s.laneRead g errs (passSet s g b x) 0 [] = .inl got →
      ∃ t, exec (.lanePassClaim g b errs) s = .next t ∧ t.claimedSet g b = some got ∧ coresBut [g] s t ∧ memKept s t) ∧
    (∀ p, x.op ≠ 0x43 → j.rcmp = false → s.laneRead g errs (passSet s g b x) 0 [] = .inr p →
      ∃ t, exec (.lanePassClaim g b errs) s = .next t ∧ (t.laneBank g b).token = false))

/-- LANE_PASS_WRITE (R205, R209 to R216, R234): every output line of the pass is stored, the groups that the tag gate left alone are
counted, and the pass stands written. -/
def LanePassWrite : Prop := ∀ (s : State) (g b : Nat) (j : LaneJob) (x : LaneDesc) (got : List LaneLine) (r : PassOut),
  x = s.laneParse g j.desc → r = s.passCompute g j x b (s.laneBank g b) got → (s.core g).lane.job = some j →
  s.claimedSet g b = some got → (s.laneBank g b).written = false → x.op ≠ 0x42 → s.vaultUp g = true →
  r.outs.filter (fun o => s.snapHeld g (linePage o.line)) = [] →
  ∃ t, exec (.lanePassWrite g b) s = .next t ∧ (t.laneBank g b).written = true ∧
    t.vmem = (forEach r.outs (fun o s => s.laneStore g j x got o) s).vmem ∧ t.stg = s.stg ∧ counted .coreTagGateCnt g r.gated s t

/-- One line of a write phase (R205): data, tag and flags are stored together, and no other byte of the vaults changes. -/
def LaneLineStored : Prop := ∀ (s : State) (g : Nat) (j : LaneJob) (x : LaneDesc) (got : List LaneLine) (o : LaneWrite),
  s.guarded g (linePage o.line) = false → o.data.length = 128 → (∀ b ∈ o.data, b < 256) → j.tag < 2 ^ 16 → x.noTag = false →
  lineHolds (s.laneStore g j x got o) g o.line o.data j.tag (if o.merged then 3 else 1) ∧
  vaultsBut (s.lineKey g o.line) 136 s (s.laneStore g j x got o)

/-- LANE_PASS_BOUNDARY (R199, R202, R203): the pass and the cycles of its token are counted; the token returns, the set is released
and the bank stands before its next items. -/
def LanePassBoundary : Prop := ∀ (s : State) (g b cyc : Nat) (j : LaneJob) (x : LaneDesc) (got : List LaneLine),
  x = s.laneParse g j.desc → (s.core g).lane.job = some j → s.claimedSet g b = some got →
  ((s.laneBank g b).written = true ∨ x.op = 0x42) → (s.laneBank g b).waiting = [] →
  ∃ t, exec (.lanePassBoundary g b cyc) s = .next t ∧ counted .lanePassCnt g 1 s t ∧ counted .laneActCycCnt g cyc s t ∧
    (∀ j', j.rcmp = false → (t.core g).lane.job = some j' →
      (t.laneBank g b).token = false ∧ (t.laneBank g b).claimed = none ∧
      (t.laneBank g b).next = ((s.laneBank g b).advance x).next)

/-- RECOMPUTE of a lane descriptor (R172, R217): the lanes suspend what they have in hand. -/
def RecomputeLane : Prop := ∀ (s : State) (g b : Nat) (q : RcmpReq) (r : List RcmpReq), RecomputeOk s g q r →
  opStream (s.byteAt (s.adr g q.descAddr)) = some 2 → dfld (rcmpDesc s g q) 0 0 8 ≠ 0x40 → b < 128 →
  0 < (s.laneParse g (rcmpDesc s g q)).items b →
  ∃ t, exec (.recompute g) s = .next t ∧ (t.core g).rcmpQ = r ∧ (t.core g).rcmpRun = some q ∧
    (t.core g).lane.saved = some ((s.core g).lane.job, (s.core g).lane.units) ∧
    (t.core g).lane.job.map (fun j => (j.desc, j.rcmp)) = some (rcmpDesc s g q, true) ∧ coresBut [g] s t ∧ memKept s t

end Sys2Proof.Claims

/-- OPTIM, SCALE, DIGEST and ZERO, and a recompute in the lanes. -/
def Obligations.LaneDescriptorCommands : Prop :=
  Sys2Proof.Claims.Optim ∧ Sys2Proof.Claims.Scale ∧ Sys2Proof.Claims.Digest ∧ Sys2Proof.Claims.Zero ∧ Sys2Proof.Claims.RecomputeLane

/-- LANE_TOKEN_GRANT, LANE_PASS_CLAIM, LANE_PASS_WRITE and LANE_PASS_BOUNDARY. -/
def Obligations.LanePassCommands : Prop :=
  Sys2Proof.Claims.LaneTokenGrant ∧ Sys2Proof.Claims.LanePassClaim ∧ Sys2Proof.Claims.LanePassWrite ∧
  Sys2Proof.Claims.LaneLineStored ∧ Sys2Proof.Claims.LanePassBoundary

namespace Sys2Proof.Claims

open Machine

/-! ## Descriptors of the fabric island and the hub (R238, R297, R326, R331) -/

/-- The fabric island may take the core's next descriptor with this operation code. -/
abbrev FabStartOk (s : State) (g op : Nat) (e : Entry) : Prop :=
  s.works g = true ∧ s.fabJob g op = none ∧ (s.core g).nextFor op = some e ∧ s.fabJobAt g e.pos = none

/-- The entry at a position of stream 3 has its descriptor complete. -/
def entryDone (t : State) (g pos : Nat) : Prop := ∃ x ∈ (t.core g).stream 3, x.pos = pos ∧ x.done = true

/-- MASTER_GATHER without work (R238): the descriptor completes. -/
def MasterGatherNoWork : Prop := ∀ (s : State) (g : Nat) (e : Entry), FabStartOk s g 0x58 e → (s.gatherParse g e.desc).work = false →
  ∃ t, exec (.masterGather g) s = .next t ∧ entryDone t g e.pos ∧ t.prg.jobs = s.prg.jobs ∧ coresBut [g] s t ∧ memKept s t

/-- The state in which a gather reads: the descriptor is in hand and its violations are counted (R238). -/
def gatherFrom (s : State) (g : Nat) (e : Entry) : State :=
  (s.takeFab g 0x58).viols' .coreGatherViolCnt g 0x58 e.pos (s.gatherParse g e.desc).viols

/-- A tile is written (R238): its FP32 words, as far as they lie in the core's own memory. -/
def gatherWrite (s : State) (g : Nat) (x : Gather) (t tag : Nat) : State :=
  if x.room ≤ 65536 * t then s
  else s.writeAt (128 + g / 16) (x.dst + 65536 * t) ((s.gatherTile g x t).take (x.room - 65536 * t)) tag false

/-- MASTER_GATHER (R238, R239): a gather of one tile whose lines can be read. With every tag the step's, its FP32 words are written to
the destination, and the descriptor completes once they are stored; with another tag nothing is written, the skew is counted and
recorded, and the descriptor completes. -/
def MasterGather : Prop := ∀ (s : State) (g : Nat) (e : Entry) (x : Gather), FabStartOk s g 0x58 e → x = s.gatherParse g e.desc →
  x.work = true → x.tiles = 1 → x.tmb = 0xFF → LinesClear s (fabUnit g 0) ((x.lines 0).map (fun l => (g, l))) →
  (s.gatherSkew g x 0 (s.stepTag g) = none → ∃ t, exec (.masterGather g) s = .next t ∧
    t.vmem = (gatherWrite (gatherFrom s g e) g x 0 (s.stepTag g)).vmem ∧
    t.stg = (gatherWrite (gatherFrom s g e) g x 0 (s.stepTag g)).stg ∧
    ((gatherWrite (gatherFrom s g e) g x 0 (s.stepTag g)).gatherStored g x 0 = true → entryDone t g e.pos ∧ t.prg.jobs = s.prg.jobs) ∧
    ((gatherWrite (gatherFrom s g e) g x 0 (s.stepTag g)).gatherStored g x 0 = false →
      (t.fabJobAt g e.pos).map (fun j => (j.next, j.sent)) = some (0, true))) ∧
  (∀ q, s.gatherSkew g x 0 (s.stepTag g) = some q → ∃ t, exec (.masterGather g) s = .next t ∧ entryDone t g e.pos ∧
    t.prg.jobs = s.prg.jobs ∧ counted .coreTagSkewCnt g 1 s t ∧ (∃ r, t.fltIn = s.fltIn ++ [r] ∧ r.kind = .trnTagSkew) ∧
    coresBut [g] s t ∧ memKept s t)

/-- MASTER_GATHER again (R239): the last tile of the gather in hand is read, written and, once stored, ends the descriptor; a tile that
is written and waits to be stored ends it then. -/
def MasterGatherGoesOn : Prop := ∀ (s : State) (g : Nat) (j : FabJob) (x : Gather), s.works g = true → s.fabJob g 0x58 = some j →
  x = s.gatherParse g j.desc → x.tiles = j.next + 1 → x.tmb = 0xFF →
  (j.sent = false → LinesClear s (fabUnit g 0) ((x.lines j.next).map (fun l => (g, l))) → s.gatherSkew g x j.next j.tag = none →
    ∃ t, exec (.masterGather g) s = .next t ∧ t.vmem = (gatherWrite s g x j.next j.tag).vmem ∧
      t.stg = (gatherWrite s g x j.next j.tag).stg ∧
      ((gatherWrite s g x j.next j.tag).gatherStored g x j.next = true → t.fabJobAt g j.pos = none)) ∧
  (j.sent = true → s.gatherStored g x j.next = true → ∃ t, exec (.masterGather g) s = .next t ∧ t.fabJobAt g j.pos = none ∧
    coresBut [g] s t ∧ memKept s t) ∧
  (j.sent = true → s.gatherStored g x j.next = false → exec (.masterGather g) s = .next s)

/-- RED (R226, R326, R327): the slot is read out and returns to +0, and its leaf chunks go to the island that hosts their sum. A
descriptor of a group beyond the table, or of a core that is no contributor, is counted and completes. -/
def Red : Prop := ∀ (s : State) (g : Nat) (e : Entry) (x : RedDesc), FabStartOk s g 0x50 e → x = s.redRead e.desc →
  (s.redGroup x.group = none ∨ (∃ q, s.redGroup x.group = some q ∧ s.contributorOf g x.group (s.stepTag g) q = none) →
    ∃ t, exec (.red g) s = .next t ∧ entryDone t g e.pos ∧ t.prg.jobs = s.prg.jobs ∧ t.slots = s.slots ∧
      coresBut [g] s t ∧ memKept s t) ∧
  (∀ q rank pos, s.redGroup x.group = some q → s.contributorOf g x.group (s.stepTag g) q = some (rank, pos) →
    ∃ t, exec (.red g) s = .next t ∧
      t.slots.data = SMap.clearRange s.slots.data (elemKey (s.slotDie g) (s.slotClamp (s.slotDie g) x.slot) 0)
        (elemKey (s.slotDie g) (s.slotClamp (s.slotDie g) x.slot + 1) 0) ∧
      t.slots.reading = s.slots.reading ++ [slotKey (s.slotDie g) (s.slotClamp (s.slotDie g) x.slot)] ∧
      (t.fabJobAt g e.pos).map FabJob.sent = some true ∧
      (∃ d ∈ t.prg.descs, d.1 = x.group ∧ d.2.1 = s.stepTag g ∧ d.2.2.1 = rank) ∧ memKept s t ∧
      (∀ die, (q.parentHost s.img.red 0 pos).getD (s.pkg, g / 16) = (s.pkg, die) → 0 < q.elems → q.elems ≤ 1024 →
        s.inFlight g < 128 → x.compress = 1 →
        ∃ i, t.prg.inbox = s.prg.inbox ++ [i] ∧ i.die = die ∧ i.kind = 7 ∧
          i.body = redBody false (s.readOut (s.slotDie g) (s.slotClamp (s.slotDie g) x.slot) q.elems false) 0))

/-- MOVE (R331): with no line the descriptor completes; up to 32 lines between places of the package that can be read and stored
now are stored at the destination and the descriptor completes. -/
def Move : Prop := ∀ (s s1 : State) (g : Nat) (e : Entry) (x : MoveRd) (a : Nat), FabStartOk s g 0x51 e → s1 = s.takeFab g 0x51 →
  x = s1.moveRead g e.desc →
  (x.lines = 0 → ∃ t, exec (.move g) s = .next t ∧ entryDone t g e.pos ∧ t.prg.jobs = s.prg.jobs ∧ coresBut [g] s t ∧
    memKept s t) ∧
  (x.work = true → 0 < x.lines → x.lines ≤ 32 → x.one = false → x.dests = [a] → x.tmb = 0xFF → x.viols = [] → s.fabOpen g e.pos = false →
    addrPkg x.src = s.pkg → (destCore x.src).isSome = true → addrPkg a = s.pkg → (destCore a).isSome = true →
    s1.canStore a x.lines = true → LinesClear s (fabUnit g 1) (s.linesOf x.src (128 * x.lines)) →
    ∃ t, exec (.move g) s = .next t ∧ entryDone t g e.pos ∧ t.fabJobAt g e.pos = none ∧
      t.vmem = (s1.storeLines a (s1.loadLines x.src x.lines (s.stepTag g))).vmem ∧
      t.stg = (s1.storeLines a (s1.loadLines x.src x.lines (s.stepTag g))).stg)

/-- DCMP (R245, R331): a member of the digest group sends its result, which lies in its own memory, to the group's owner; a core that
is none, and a result that lies elsewhere, are counted and the descriptor completes. -/
def Dcmp : Prop := ∀ (s : State) (g : Nat) (e : Entry), FabStartOk s g 0x53 e →
  (groupAt s.img.dig false (dfld e.desc 4 0 32) = none → ∃ t, exec (.dcmp g) s = .next t ∧ entryDone t g e.pos ∧
    t.prg.jobs = s.prg.jobs ∧ counted .prgIslViolCnt (g / 16) 1 s t ∧ coresBut [g] s t ∧ memKept s t) ∧
  (∀ q v w c, groupAt s.img.dig false (dfld e.desc 4 0 32) = some q →
    (q.dests s.img.dig).find? (fun p => s.rankAt p.1 == some (s.pkg, g)) = some (v, w) →
    ((q.dests s.img.dig).head?).bind (fun p => s.rankAt p.1) = some (s.pkg, c) →
    (addrPkg (s.adr g (dfld e.desc 8 0 64 % 2 ^ 56)) ≠ s.pkg → ∃ t, exec (.dcmp g) s = .next t ∧ entryDone t g e.pos ∧
      t.prg.jobs = s.prg.jobs ∧ counted .prgIslViolCnt (g / 16) 1 s t ∧ coresBut [g] s t ∧ memKept s t) ∧
    (∀ byte, addrPkg (s.adr g (dfld e.desc 8 0 64 % 2 ^ 56)) = s.pkg →
      locOf (s.adr g (dfld e.desc 8 0 64 % 2 ^ 56)) = .vault g byte →
      LinesClear s (fabUnit g 2) (s.linesOf (s.adr g (dfld e.desc 8 0 64 % 2 ^ 56)) 32) → s.inFlight g < 128 →
      ∃ t i, exec (.dcmp g) s = .next t ∧ (t.fabJobAt g e.pos).map FabJob.sent = some true ∧ t.prg.inbox = s.prg.inbox ++ [i] ∧
        i.die = c / 16 ∧ i.kind = 0x0B ∧
        i.body = s.bytesAt (s.adr g (dfld e.desc 8 0 64 % 2 ^ 56)) 32 ++ leBytes 8 v ∧ memKept s t))

/-- Gateways whose bit stands in the core's path set. -/
def haspGateways (s : State) (g : Nat) : List Nat :=
  (List.range 4).filter (fun w => (s.rdF .synPathSet g 0 0 4).testBit w && s.img.gateways.any (fun p => p.2 == w))

/-- The message that carries a flag into a vault or stage memory. -/
def flagMsg (s : State) (g : Nat) (x : HaspRd) (i : InMsg) : Prop :=
  i.kind = 3 ∧ i.die = addrDie x.addr ∧ i.addr = x.addr ∧ i.body = leBytes 8 x.value ++ leBytes 8 (s.stepTag g)

/-- HASP (R297, R373): the path bits and SUBST_SEEN are cleared and one flush goes to every gateway of the path set; without one the
flag is written at once. With NO_FLUSH the flag is written at once and both stay. -/
def Hasp : Prop := ∀ (s : State) (g : Nat) (e : Entry) (x : HaspRd) (m : Bool), s.works g = true → (s.core g).hasp = none →
  (s.core g).nextFor 0x70 = some e → x = s.haspRead g e.desc → m = (s.sigOf g 1 0 0).subst →
  (x.noFlush = false → haspGateways s g ≠ [] → ∃ t, exec (.hasp g) s = .next t ∧
    (t.core g).hasp = some ⟨e.pos, haspGateways s g, [], e.desc, m, false⟩ ∧ t.rdF .synPathSet g 0 0 5 = 0 ∧ memKept s t) ∧
  (∀ byte, locOf x.addr = .vault g byte → addrPkg x.addr = s.pkg → x.host = false →
    (x.noFlush = false → haspGateways s g = [] → ∃ t i, exec (.hasp g) s = .next t ∧
      (t.core g).hasp = some ⟨e.pos, [], [], e.desc, m, true⟩ ∧ t.rdF .synPathSet g 0 0 5 = 0 ∧
      t.prg.inbox = s.prg.inbox ++ [i] ∧ flagMsg s g x i ∧ memKept s t) ∧
    (x.noFlush = true → ∃ t i, exec (.hasp g) s = .next t ∧
      (t.core g).hasp = some ⟨e.pos, [], [], e.desc, m, true⟩ ∧ t.rdF .synPathSet g 0 0 5 = s.rdF .synPathSet g 0 0 5 ∧
      t.prg.inbox = s.prg.inbox ++ [i] ∧ flagMsg s g x i ∧ memKept s t))

end Sys2Proof.Claims

/-- MASTER_GATHER, RED, MOVE, DCMP and HASP. -/
def Obligations.FabricDescriptorCommands : Prop :=
  Sys2Proof.Claims.MasterGatherNoWork ∧ Sys2Proof.Claims.MasterGather ∧ Sys2Proof.Claims.MasterGatherGoesOn ∧ Sys2Proof.Claims.Red ∧ Sys2Proof.Claims.Move ∧
  Sys2Proof.Claims.Dcmp ∧ Sys2Proof.Claims.Hasp

namespace Sys2Proof.Claims

open Machine

/-! ## Tier requests (R250 to R259) -/

/-- The next tier descriptor of a core may be taken up by a command of operation `req`, and its status address is aligned. -/
abbrev TierOk (s : State) (g req : Nat) (e : Entry) : Prop :=
  s.tierUp = true ∧ g < 128 ∧ s.running g = true ∧ (s.core g).nextFor 0x60 = some e ∧ dfld e.desc 1 0 3 = req ∧
    dfld e.desc 8 0 3 = 0 ∧ dfld e.desc 4 0 32 < 8192

/-- The request that the descriptor makes. -/
def tierReq (s : State) (g : Nat) (e : Entry) : TierReq :=
  { tierReqOf e.desc g e.pos with status := s.adr g (dfld e.desc 8 0 64 / 8 * 8 % 2 ^ 56) }

/-- Nothing holds the write of the status word, where it goes into the core's own vault (R171, R257); stage memory and a discarded word
never wait. -/
abbrev StatusOpen (s : State) (g : Nat) (e : Entry) : Prop :=
  ∀ b, addrPkg (tierReq s g e).status = s.pkg → locOf (tierReq s g e).status = .vault g b →
    s.canStore (tierReq s g e).status 1 = true ∧ s.writesDone islandH3 (s.linesOf (tierReq s g e).status 8) = true ∧
    (s.linesOf (tierReq s g e).status 8).all (fun p => (s.rawLine p.1 p.2).ok) = true

/-- PROMOTE (R258): of a COLD object outside a frame group it starts the promotion; of a RESIDENT one it is a HIT and completes; of
an object that the table does not hold it is ABSENT and completes. -/
def Promote : Prop := ∀ (s : State) (g : Nat) (e : Entry), TierOk s g 0 e →
  (s.obj (dfld e.desc 4 0 32) = none → StatusOpen s g e → ∃ t, exec (.promote g) s = .next t ∧ entryDone t g e.pos ∧ t.obj (dfld e.desc 4 0 32) = none) ∧
  (∀ x, s.obj (dfld e.desc 4 0 32) = some x → x.res.isSome = true → dfld e.desc 1 3 1 = 0 →
    (x.state = .cold → x.group = 0 → ∃ t, exec (.promote g) s = .next t ∧
      t.obj (dfld e.desc 4 0 32) = some { x with state := .promoting, next := 0, failed := false, waits := false,
                                                 joined := [tierReq s g e], promote := [] } ∧ t.regs = s.regs ∧ coresBut [g] s t ∧ memKept s t) ∧
    (x.state = .resident → StatusOpen s g e → ∃ t, exec (.promote g) s = .next t ∧ entryDone t g e.pos ∧ t.obj (dfld e.desc 4 0 32) = some x))

/-- EVICT (R258, R262): of a RESIDENT object without pins it starts the eviction, which then goes on as far as it can; pins refuse it,
counted. -/
def Evict : Prop := ∀ (s t1 : State) (g : Nat) (e : Entry) (x : TierObj), TierOk s g 1 e → s.obj (dfld e.desc 4 0 32) = some x →
  x.res.isSome = true → x.state = .resident → t1 = s.tierRequest g (fun r => r == 1) →
  (∃ t, exec (.evict g) s = .next t ∧ t = forEach t1.tier.objs (fun q s => s.tierSettle q.1) t1) ∧
  (x.pins = 0 → t1.obj (dfld e.desc 4 0 32) = some { x with state := .evicting, next := 0, failed := false,
                                                            waits := false, joined := [tierReq s g e], promote := [] } ∧ memKept s t1) ∧
  (0 < x.pins → StatusOpen s g e → entryDone t1 g e.pos ∧ t1.obj (dfld e.desc 4 0 32) = some x ∧ counted .tierEvictRefusedCnt 0 1 s t1)

/-- PIN (R258): the pin count rises by one and the request completes. -/
def Pin : Prop := ∀ (s : State) (g : Nat) (e : Entry) (x : TierObj), TierOk s g 2 e → s.obj (dfld e.desc 4 0 32) = some x →
  x.pins < 0xFFFF → StatusOpen s g e →
  ∃ t, exec (.pin g) s = .next t ∧ entryDone t g e.pos ∧ t.obj (dfld e.desc 4 0 32) = some { x with pins := x.pins + 1 }

/-- UNPIN (R258): the pin count falls by one and the request completes; at 0 it stays and is counted. -/
def Unpin : Prop := ∀ (s : State) (g : Nat) (e : Entry) (x : TierObj), TierOk s g 3 e → s.obj (dfld e.desc 4 0 32) = some x →
  StatusOpen s g e → ∃ t, exec (.unpin g) s = .next t ∧ entryDone t g e.pos ∧ t.obj (dfld e.desc 4 0 32) = some { x with pins := x.pins - 1 }

/-- FLUSH (R258): a RESIDENT object with dirty pages starts cleaning; without one, and for a COLD object, the request completes. -/
def Flush : Prop := ∀ (s : State) (g : Nat) (e : Entry) (x : TierObj), TierOk s g 4 e → s.obj (dfld e.desc 4 0 32) = some x →
  x.res.isSome = true →
  (x.state = .resident → s.dirtyPages x ≠ [] → ∃ t, exec (.flush g) s = .next t ∧
    t.obj (dfld e.desc 4 0 32) = some { x with state := .cleaning, next := 0, failed := false, waits := false, round := x.round + 1,
                                               joined := [tierReq s g e], promote := [] } ∧ memKept s t) ∧
  ((x.state = .resident ∧ s.dirtyPages x = []) ∨ x.state = .cold → StatusOpen s g e →
    ∃ t, exec (.flush g) s = .next t ∧ entryDone t g e.pos ∧ t.obj (dfld e.desc 4 0 32) = some x)

/-! ## Promotion and write-back (R260 to R263) -/

/-- The next page of a promotion is there, and nothing holds its frame. -/
abbrev PageOk (s : State) (o : Nat) (x : TierObj) : Prop :=
  s.obj o = some x ∧ x.state = .promoting ∧ s.tierUp = true ∧
    (x.home = 0 → (((s.fetchOf 0 o x.next).map Fetch.complete).getD false) = true) ∧
    s.pageOpen (x.frameOf x.next).1 (x.frameOf x.next).2 = true

/-- PROMOTE_PAGE_DONE waits (R203, R260): a page whose frame a pass set holds is not written; the wait is counted once. -/
def PromotePageWaits : Prop := ∀ (s : State) (o : Nat) (lines : List (Nat × Nat × Nat × List Nat)) (x : TierObj),
  s.obj o = some x → x.state = .promoting → s.tierUp = true →
  (x.home = 0 → (((s.fetchOf 0 o x.next).map Fetch.complete).getD false) = true) →
  s.pageOpen (x.frameOf x.next).1 (x.frameOf x.next).2 = false →
  (x.waits = true → exec (.promotePageDone o lines) s = .next s) ∧
  (x.waits = false → ∃ t, exec (.promotePageDone o lines) s = .next t ∧ t.obj o = some { x with waits := true } ∧
    counted .laneBusyWaitCnt (x.frameOf x.next).1 (s.busyLines (x.frameOf x.next).1 (x.frameOf x.next).2) s t ∧ memKept s t)

/-- PROMOTE_PAGE_DONE (R260): the page is in its frame and counted; after the last one the object is RESIDENT. -/
def PromotePageDone : Prop := ∀ (s : State) (o : Nat) (lines : List (Nat × Nat × Nat × List Nat)) (x : TierObj), PageOk s o x →
  (x.next + 1 < x.pages → ∃ t, exec (.promotePageDone o lines) s = .next t ∧ t.obj o = some { x with next := x.next + 1, waits := false } ∧
    t.frame (x.frameOf x.next).1 (x.frameOf x.next).2 = x.frameIn ∧ counted .tierPromotePageCnt 0 1 s t ∧
    t.vmem = (s.storePage o x x.next (x.frameOf x.next).1 (x.frameOf x.next).2 (s.fetchOf 0 o x.next) lines).vmem) ∧
  (x.pages ≤ x.next + 1 → x.joined = [] → x.deferred = [] → ∃ t, exec (.promotePageDone o lines) s = .next t ∧
    t.obj o = some { x with next := 0, waits := false, state := .resident } ∧
    t.frame (x.frameOf x.next).1 (x.frameOf x.next).2 = x.frameIn ∧ counted .tierPromotePageCnt 0 1 s t)

/-- STAGING_FRAME_FREE (R262): the next dirty page is fenced and its copy into a free staging frame begins. -/
def StagingFrameFree : Prop := ∀ (s : State) (o p n : Nat) (x : TierObj), s.obj o = some x →
  (x.state = .cleaning ∨ x.state = .evicting) → x.failed = false →
  (s.dirtyPages x).find? (fun p => x.state == .evicting || decide (x.next ≤ p)) = some p → s.freeStaging (x.frameOf 0).1 = some n →
  s.tier.staging.any (fun t => t.obj == o && !t.copied) = false → s.pageQuiet (x.frameOf p).1 (x.frameOf p).2 = true →
  ∃ t, exec (.stagingFrameFree o) s = .next t ∧ t.obj o = some { x with next := p + 1 } ∧
    t.frame (x.frameOf p).1 (x.frameOf p).2 = .fencedDirty ∧
    t.tier.staging = s.tier.staging ++ [⟨(x.frameOf p).1, n, o, p, false, List.range 132,
      if x.state = .cleaning then some x.round else none⟩] ∧
    t.regs = s.regs ∧ t.cores = s.cores ∧ memKept s t

/-- STAGING_COPY_DONE (R262): the staging frame holds the page; the page's frame turns clean. -/
def StagingCopyDone : Prop := ∀ (s : State) (o : Nat) (x : TierObj) (u : Staging), s.obj o = some x →
  s.tier.staging.find? (fun t => t.obj == o && !t.copied) = some u →
  (∀ i, i < 2 ^ 14 → s.lineReady islandH3 ((x.frameOf u.page).1, (x.frameOf u.page).2 * 2 ^ 14 + i) = true) →
  (s.vlt (x.frameOf u.page).1).heldWrites = [] → x.deferred = [] →
  ∃ t, exec (.stagingCopyDone o) s = .next t ∧
    t.tier.staging = s.tier.staging.map (fun q => if q = u then { q with copied := true } else q) ∧
    t.frame (x.frameOf u.page).1 (x.frameOf u.page).2 = (if x.state = .evicting then .fencedClean else .clean) ∧ t.stg = s.stg

/-- FLASH_PROGRAM_DONE (R262, R263, R271, R273, R276): when it is the page's turn, and its staged lines can be read, a unit's block, one
of its channel, is in the directory; the last unit of a page is counted; a block that fails is retired; on a LUN without a spare the
write-back fails, recorded. -/
def FlashProgramDone : Prop := ∀ (s : State) (o page unit block : Nat) (x : TierObj) (u : Staging), s.obj o = some x →
  s.tier.staging.find? (fun t => t.obj == o && t.page == page && t.copied) = some u → u.left.contains unit = true →
  s.tier.stopped = false → x.home = 0 → s.blockTakes (unitChannel page unit) block = true → s.programTurn u unit = true →
  LinesClear s islandH2 ((unitLines unit).map (fun i => (u.vault, s.stagingPage u.vault u.frame * 2 ^ 14 + i))) →
  (((s.lun (blockLun block)).map (fun l => l.spares)).getD 0 = 0 → ∃ t r, exec (.flashProgramDone o page unit block true) s = .next t ∧
    r ∈ t.fltIn ∧ r.kind = .tierWbFail) ∧
  (0 < ((s.lun (blockLun block)).map (fun l => l.spares)).getD 0 → u.left.filter (· != unit) ≠ [] → ∃ t, exec (.flashProgramDone o page unit block true) s = .next t ∧
    t.unitBlock o page unit = block ∧
    t.tier.staging = s.tier.staging.map (fun q => if q = u then { q with left := u.left.filter (· != unit) } else q) ∧
    t.regs = s.regs ∧ t.cores = s.cores ∧ memKept s t) ∧
  (0 < ((s.lun (blockLun block)).map (fun l => l.spares)).getD 0 → u.left.filter (· != unit) = [] →
    ∃ t, exec (.flashProgramDone o page unit block true) s = .next t ∧
    t.unitBlock o page unit = block ∧ counted .tierWbPageCnt 0 1 s t) ∧
  (0 < ((s.lun (blockLun block)).map (fun l => l.spares)).getD 0 → ∃ t, exec (.flashProgramDone o page unit block false) s = .next t ∧
    block ∈ t.tier.badBlocks ∧ counted .tierFlashBadCnt 0 1 s t ∧ t.cores = s.cores ∧ memKept s t)

/-! ## Stream windows and substitution (R254, R264 to R268) -/

/-- A window may begin its next fill: no fill is in hand, no load waits or quiesces, its list entry can be read, the releases allow
it. -/
abbrev FillOk (s : State) (i : Nat) (w : Window) : Prop :=
  s.win i = some w ∧ w.filling = false ∧ s.tierUp = true ∧ s.tier.stopped = false ∧ s.rdF .hubImageStatus 0 0 0 3 < 4 ∧
    s.img.staged = none ∧ LinesClear s islandH3 (s.winLines w w.u) ∧
    ((w.u + 1 - w.depth) * w.readerCores.length = 0 ∨
      tmbReached (s.tmbCount (s.home w.home) w.release) ((w.u + 1 - w.depth) * w.readerCores.length) = true)

/-- STREAM_FILL_START (R265): the fill starts; an instance that is skipped is counted and the window goes on. -/
def StreamFillStart : Prop := ∀ (s : State) (i : Nat) (w : Window), FillOk s i w →
  (s.winSkips w (s.winObj w w.u) = false → ∃ t, exec (.streamFillStart i) s = .next t ∧
    t.win i = some { w with filling := true, fillHome := s.home w.home, waits := false, obj := s.winObj w w.u } ∧ t.regs = s.regs ∧ t.cores = s.cores ∧ memKept s t) ∧
  (s.winSkips w (s.winObj w w.u) = true → ∃ t, exec (.streamFillStart i) s = .next t ∧
    t = (s.tierViol 0xFF 0xFFFFFFFF 0xFF (s.winObj w w.u)).fillSignal i w ∧ t.win i = some { w with u := w.u + 1, filling := false })

/-- STREAM_FILL_DONE (R260, R265): the instance's pages are counted and the window goes on to the next one. -/
def StreamFillDone : Prop := ∀ (s : State) (i : Nat) (lines : List (Nat × Nat × Nat × Nat × List Nat)) (w : Window) (x : TierObj),
  s.win i = some w → w.filling = true → s.obj w.obj = some x →
  (x.home = 0 → ∀ p, p < x.pages → (((s.fetchOf (i + 1) w.obj p).map Fetch.complete).getD false) = true) →
  (∀ p, p < x.pages → s.pageOpen w.fillHome (w.base + w.u % w.depth * w.pages + p) = true) →
  ∃ t, exec (.streamFillDone i lines) s = .next t ∧ t.win i = some { w with u := w.u + 1, filling := false } ∧
    counted .tierPromotePageCnt 0 x.pages s t ∧ t.stg = s.stg

/-- SUBSTITUTE (R267): the reader takes the shadow copy: its wait is satisfied, and the substitution is counted and marked. -/
def Substitute : Prop := ∀ (s : State) (g st waited i target : Nat) (e : Entry) (w : Window), HeadOk s g st 1 e → st < 4 →
  s.fillWin g (waitObj e.wait) = some (i, w) → w.subst = true → e.target = some target → e.stuck = false → w.wait ≤ waited →
  s.winShadow w (tmbAhead 1 target) ≠ 0 → LinesClear s islandH3 (s.winLines w (tmbAhead 1 target)) →
  ∃ t, exec (.substitute g st waited) s = .next t ∧ released (s.core g) (t.core g) st ∧
    (waitObj e.wait, target, i, tmbAhead 1 target, s.winShadow w (tmbAhead 1 target)) ∈ (t.core g).substs ∧
    counted .coreSubstCnt g 1 s t ∧ t.rdF .coreSubstStatus g 0 0 1 = 1 ∧ coresBut [g] s t ∧ memKept s t

/-- SPACE2_DMA_WRITE (R254): a line of a COLD object's backing store is loaded with the request's tag, in flash or at its remote home;
any other write is discarded and counted. -/
def Space2DmaWrite : Prop := ∀ (s : State) (o line tag : Nat) (data : List Nat),
  (∀ x, s.obj o = some x → x.state = .cold → x.home = 0 → 128 * line + 128 ≤ x.pages * 2 ^ 21 → data.length = 128 →
    ∃ t, exec (.space2DmaWrite o (128 * line) tag data) s = .next t ∧
      t.flashLine o (line / 2 ^ 14) (line % 2 ^ 14) = (tag % 2 ^ 16, 0, data.map (· % 256)) ∧
      t.regs = s.regs ∧ t.cores = s.cores ∧ memKept s t) ∧
  (∀ x, s.obj o = some x → x.state = .cold → x.home = 1 → 128 * line + data.length ≤ x.pages * 2 ^ 21 →
    exec (.space2DmaWrite o (128 * line) tag data) s
      = .next { s with outbox := s.outbox ++ [.tierWrite x.back o (128 * line) (tag % 2 ^ 16) (data.map (· % 256))] }) ∧
  ((∀ x, s.obj o = some x → x.state ≠ .cold) → ∃ t, exec (.space2DmaWrite o (128 * line) tag data) s = .next t ∧
    counted .tierViolCnt 0 1 s t ∧ t.tier = s.tier ∧ regsBut [regKey .tierViolCnt 0 0] s t ∧ coresBut [] s t ∧ memKept s t)

/-! ## Flash (R269 to R279) -/

/-- The blocks of a unit that do not decode. -/
def failing (failed : List Nat) : List Nat := (failed.filter (· < 4)).eraseDups

/-- FLASH_UNIT_READ (R273, R274): the read that its channel serves next is counted at its block, and the unit is delivered when every
block decodes; any other read of the channel waits. -/
def FlashUnitRead : Prop := ∀ (s : State) (dst o page unit corr : Nat) (failed : List Nat),
  s.channelUp (unitChannel page unit) = true → s.tier.stopped = false →
  (s.nextRead (unitChannel page unit) ≠ some (dst, o, page, unit) → exec (.flashUnitRead dst o page unit corr failed) s = .next s) ∧
  (s.nextRead (unitChannel page unit) = some (dst, o, page, unit) →
  ∃ t, exec (.flashUnitRead dst o page unit corr failed) s = .next t ∧
    (t.fetchOf dst o page).bind (fun f => SMap.get (fun _ => none) f.units unit)
      = some ⟨0, failing failed, (failing failed).isEmpty⟩ ∧
    ((failing failed).isEmpty = true → counted .tierFlashCeCnt 0 corr s t) ∧
    SMap.get (fun _ => 0) t.tier.reads (s.unitBlock o page unit) = SMap.get (fun _ => 0) s.tier.reads (s.unitBlock o page unit) + 1 ∧
    t.cores = s.cores ∧ memKept s t)

/-- READ_RETRY (R274): the reread is counted and its level rises by one; what still fails at level 7 is uncorrectable: delivered,
counted and recorded for each block. -/
def ReadRetry : Prop := ∀ (s : State) (dst o page unit corr : Nat) (failed : List Nat) (u : FetchUnit),
  (s.fetchOf dst o page).bind (fun f => SMap.get (fun _ => none) f.units unit) = some u → u.done = false → s.tier.stopped = false →
  ∃ t, exec (.readRetry dst o page unit corr failed) s = .next t ∧ counted .tierFlashRetryCnt 0 1 s t ∧
    (t.fetchOf dst o page).bind (fun f => SMap.get (fun _ => none) f.units unit)
      = some ⟨u.level + 1, failing failed, (failing failed).isEmpty || u.level + 1 == 7⟩ ∧
    (u.level = 6 → counted .tierFlashUeCnt 0 (failing failed).length s t ∧
      ∃ rs, t.fltIn = s.fltIn ++ rs ∧ rs.length = (failing failed).length ∧ ∀ r ∈ rs, r.kind = .tierFlashUe) ∧
    t.cores = s.cores ∧ memKept s t

/-- Every unit of a block is in another block, and no other unit has moved. -/
def blockMoved (b c : Nat) (s t : State) : Prop :=
  ∀ k, SMap.get noBlock t.tier.dir k = if SMap.get noBlock s.tier.dir k = b then c else SMap.get noBlock s.tier.dir k

/-- A block of the card and one that may take its data; the directory is in canonical form. -/
abbrev BlockOk (s : State) (b c : Nat) : Prop := s.blockFree b c = true ∧ b < 2 ^ 30 ∧ SMap.wf noBlock s.tier.dir = true

/-- RELOCATE (R273, R275): the move that is next on its channel is made; any other waits. -/
def Relocate : Prop := ∀ (s : State) (b c : Nat),
  (s.moveNext (blockLun b / 16) ≠ some (.retry, b) → exec (.relocate b c) s = .next s) ∧
  (BlockOk s b c → s.moveNext (blockLun b / 16) = some (.retry, b) →
    ∃ t, exec (.relocate b c) s = .next t ∧ blockMoved b c s t ∧ t.tier.moves = s.tier.moves.filter (fun e => e.2 != b) ∧
      t.regs = s.regs ∧ t.cores = s.cores ∧ memKept s t)

/-- STATIC_WEAR_LEVEL (R273, R277): a block of low wear that is next on its channel moves to a worn one. -/
def StaticWearLevel : Prop := ∀ (s : State) (b c : Nat), BlockOk s b c → (s.rd .tierCtl 0 0).testBit 3 = true →
  (s.lunBlocks (blockLun b)).contains b = true → s.eraseCount b + 1000 < s.lunWorst (blockLun b) → s.eraseCount b < s.eraseCount c →
  (s.noteMove .wear b).moveNext (blockLun b / 16) = some (.wear, b) →
  ∃ t, exec (.staticWearLevel b c) s = .next t ∧ blockMoved b c s t ∧ t.regs = s.regs ∧ t.cores = s.cores ∧ memKept s t

/-- READ_DISTURB_RELOCATE (R273, R277): a block whose reads made a move due, and that is next on its channel, moves. -/
def ReadDisturbRelocate : Prop := ∀ (s : State) (b c : Nat), BlockOk s b c → (s.rd .tierCtl 0 0).testBit 4 = true →
  s.moveNext (blockLun b / 16) = some (.disturb, b) →
  ∃ t, exec (.readDisturbRelocate b c) s = .next t ∧ blockMoved b c s t ∧ t.regs = s.regs ∧ t.cores = s.cores ∧ memKept s t

/-- BLOCK_ERASE_DONE (R276, R277): the erase of the free block of lowest erase count is counted, the block is fresh and its reads begin
again at 0; a failed erase retires the block. -/
def BlockEraseDone : Prop := ∀ (s : State) (b c : Nat), s.tier.badBlocks.contains b = false → s.tier.stopped = false →
  (s.lunBlocks (blockLun b)).contains b = true →
  (s.eraseNext b = true → ∃ t, exec (.blockEraseDone b c true) s = .next t ∧ t.eraseCount b = s.eraseCount b + 1 ∧
    SMap.get (fun _ => 0) t.tier.reads b = 0 ∧ t.blockFresh b = true ∧ regsBut [regKey .tierFlashWear 0 0] s t ∧ t.cores = s.cores ∧ memKept s t) ∧
  (∃ t, exec (.blockEraseDone b c false) s = .next t ∧ b ∈ t.tier.badBlocks ∧ counted .tierFlashBadCnt 0 1 s t ∧
    t.cores = s.cores ∧ memKept s t)

/-- FLASH_FIRST_INIT (R269, R276, R483): the channel has its table, with a copy in the boot flash, and is in use. -/
def FlashFirstInit : Prop := ∀ (s : State) (ch : Nat) (luns : List (Nat × Nat × Nat × Nat)) (bad : List Nat), ch < 16 →
  s.tier.tables.contains ch = false → s.pwrState ≠ 0 →
  ∃ t, exec (.flashFirstInit ch luns bad) s = .next t ∧ t.tier.tables = s.tier.tables ++ [ch] ∧
    t.rdF .tierStatus 0 0 ch 1 = 1 ∧ t.tier.badBlocks = s.tier.badBlocks ++ (bad.filter (fun b => blockLun b / 16 == ch)).eraseDups ∧
    t.tier.bootCopy = t.tier.badBlocks ∧
    regsBut [regKey .tierStatus 0 0] s t ∧ t.cores = s.cores ∧ memKept s t

/-- TIER_QUERY (R279): the object's state and pins are latched. -/
def TierQuery : Prop := ∀ (s : State) (o : Nat), o < 2 ^ 13 →
  ∃ t, exec (.tierQuery o) s = .next t ∧ t.rdF .tierQuery 0 0 0 13 = o ∧ onlyRegs [regKey .tierQuery 0 0] s t ∧
    (∀ x, s.obj o = some x → x.pins < 2 ^ 16 → t.rdF .tierQuery 0 0 13 3 = x.state.code ∧ t.rdF .tierQuery 0 0 32 16 = x.pins)

end Sys2Proof.Claims

/-- PROMOTE, EVICT, PIN, UNPIN, FLUSH and TIER_QUERY. -/
def Obligations.TierRequestCommands : Prop :=
  Sys2Proof.Claims.Promote ∧ Sys2Proof.Claims.Evict ∧ Sys2Proof.Claims.Pin ∧ Sys2Proof.Claims.Unpin ∧ Sys2Proof.Claims.Flush ∧
  Sys2Proof.Claims.TierQuery

/-- PROMOTE_PAGE_DONE, STAGING_FRAME_FREE, STAGING_COPY_DONE and FLASH_PROGRAM_DONE. -/
def Obligations.TierTransitCommands : Prop :=
  Sys2Proof.Claims.PromotePageDone ∧ Sys2Proof.Claims.PromotePageWaits ∧ Sys2Proof.Claims.StagingFrameFree ∧ Sys2Proof.Claims.StagingCopyDone ∧
  Sys2Proof.Claims.FlashProgramDone

/-- STREAM_FILL_START, STREAM_FILL_DONE, SUBSTITUTE and SPACE2_DMA_WRITE. -/
def Obligations.StreamWindowCommands : Prop :=
  Sys2Proof.Claims.StreamFillStart ∧ Sys2Proof.Claims.StreamFillDone ∧ Sys2Proof.Claims.Substitute ∧ Sys2Proof.Claims.Space2DmaWrite

/-- FLASH_UNIT_READ, READ_RETRY, RELOCATE, STATIC_WEAR_LEVEL, READ_DISTURB_RELOCATE, BLOCK_ERASE_DONE and FLASH_FIRST_INIT. -/
def Obligations.FlashCommands : Prop :=
  Sys2Proof.Claims.FlashUnitRead ∧ Sys2Proof.Claims.ReadRetry ∧ Sys2Proof.Claims.Relocate ∧ Sys2Proof.Claims.StaticWearLevel ∧
  Sys2Proof.Claims.ReadDisturbRelocate ∧ Sys2Proof.Claims.BlockEraseDone ∧ Sys2Proof.Claims.FlashFirstInit
namespace Sys2Proof.Claims

open Machine

/-! ## Messages at their endpoint (R324, R325, R332) -/

/-- The oldest message of a source is `i`, a request of a kind that its keyway may carry. -/
abbrev RequestOk (s : State) (src kind bit : Nat) (i : InMsg) : Prop :=
  s.nextMsg src kind = some i ∧ s.allowed src [bit] = true

/-- The oldest message of a source is `i`, a response of a kind to the transaction `x`. -/
abbrev ResponseOk (s : State) (src kind : Nat) (i : InMsg) (x : Txn) : Prop :=
  s.nextMsg src kind = some i ∧ s.txn (txnKey i.die i.txn) = some x ∧ x.msg.kind + 1 = kind

/-- The answer to a message within the package: one more message for the island that sent it. -/
def answered (i : InMsg) (kind core addr : Nat) (body : List Nat) (s t : State) : Prop :=
  t.prg.inbox = s.prg.inbox ++ [⟨localSrc i.die, i.src - localSrc 0, kind, core, i.txn, i.gen, addr, body⟩]

/-- A message within the package is answered to the island that sent it, one of another package on its keyway; no core
and no memory changes (R324). -/
def Replies : Prop := ∀ (s : State) (i : InMsg) (m : Msg),
  (localSrc 0 ≤ i.src → answered i m.kind m.core m.addr m.body s (s.reply i m) ∧
    s.reply i m = { s with prg := { s.prg with inbox := (s.reply i m).prg.inbox } }) ∧
  (s.reply i m).cores = s.cores ∧ memKept s (s.reply i m)

/-- A request that its keyway may not carry is answered with NAK 0x04 and has no other effect of its own (R318, R332). -/
def RequestRefused : Prop := ∀ (s : State) (src kind bit : Nat) (i : InMsg) (f : InMsg → State → State),
  s.nextMsg src kind = some i → s.allowed src [bit] = false →
  s.onRequest src kind bit f = (s.popMsg src).refuseMsg i 4

/-- The bytes with which `n` lines answer a READ_REQ (R173, R324): data, tag and mark; POISON as zeros with its mark. -/
def readBody (s : State) (a n : Nat) : List Nat :=
  (List.range n).flatMap (fun k => match s.linesOf (a + 128 * k) 128 with
    | (g, l) :: _ => if (s.rawLine g l).poison then lineBody (List.replicate 128 0) (s.rawLine g l).tag 4
        else lineBody (s.rawLine g l).data (s.rawLine g l).tag ((s.rawLine g l).flags % 4)
    | [] => lineBody (s.lineSpan (a + 128 * k) 0 128) 0 0)

/-- An address of vault or stage memory. -/
def isMemory (a : Nat) : Bool := match locOf a with
  | .vault _ _ | .stage _ _ => true
  | _ => false

/-- An address of stage memory. -/
def isStage (a : Nat) : Bool := match locOf a with
  | .stage _ _ => true
  | _ => false

/-- READ_REQ (R30, R324, R495): lines of one core that are readable at once are answered; a control register is read and answered, or
NAK 0x04; stage memory of a core that is going dark goes back to its sender (the model's choice of NAK 0x06, log entry 118); host memory
is read through the attached gateway. -/
def ReadReq : Prop := ∀ (s : State) (src : Nat) (i : InMsg), RequestOk s src 1 2 i → addrPkg i.addr = s.pkg →
  (∀ n, n = leNat (i.body.take 8) → isMemory i.addr = true → 0 < n → n ≤ 32 →
    destCore (i.addr / 128 * 128 + 128 * (n - 1)) = destCore (i.addr / 128 * 128) → s.canStore (i.addr / 128 * 128) 0 = true →
    LinesClear s (msgUnit i.die i.src) (s.linesOf (i.addr / 128 * 128) (128 * n)) →
    exec (.readReq src) s = .next ((s.popMsg src).reply i ⟨2, i.core, i.addr, readBody s (i.addr / 128 * 128) n⟩)) ∧
  (∀ off r, locOf i.addr = .ctrl off → r = (s.slotAddr i.addr).readReg 2 (off / 8 * 8) 8 → exec (.readReq src) s =
    .next ((r.1.popMsg src).reply i (match r.2 with
      | some v => ⟨2, i.core, i.addr, slotLine v⟩
      | none => ⟨0x0F, i.core, i.addr, leBytes 8 4⟩))) ∧
  (isStage i.addr = true → s.fencedOff i.addr = true → 0 < leNat (i.body.take 8) → leNat (i.body.take 8) ≤ 32 →
    destCore (i.addr / 128 * 128 + 128 * (leNat (i.body.take 8) - 1)) = destCore (i.addr / 128 * 128) →
    exec (.readReq src) s = .next ((s.popMsg src).reply i ⟨0x0F, i.core, i.addr, leBytes 8 6⟩)) ∧
  (∀ w b n, n = leNat (i.body.take 8) → locOf i.addr = .window w b → s.gateway.isSome = true → s.attached = true →
    s.winOk w (b / 128 * 128) (128 * n) 2 = true → 0 < n → n ≤ 32 →
    ∃ t r, exec (.readReq src) s = .next t ∧ t.host.reads = s.host.reads ++ [r] ∧
      r.addr = (s.winOf w).1 + b / 128 * 128 ∧ r.left = 128 * n ∧ r.kind = .rsp i.src i.txn i.gen ∧
      t.outbox = s.outbox ++ [.pcieRead r.addr r.left r.serial] ∧ t.regs = s.regs ∧ t.cores = s.cores ∧ memKept s t)

/-- READ_RSP (R324, R325): the transaction ends with the response's lines, those of a repair or a checkpoint once nothing holds the lines
where they go; the relay's data are the slot of the response; a response
that names no transaction is discarded and counted. -/
def ReadRsp : Prop := ∀ (s : State) (src : Nat) (i : InMsg),
  (∀ x, ResponseOk s src 2 i x → (∀ id, x.owner ≠ .host id) →
    (∀ g l k, x.owner = .repair g l k → s.canStore (vaultAddr s.pkg g (128 * l)) 8 = true) →
    (∀ v l, x.owner = .ckptRead v l → s.canStore (vaultAddr s.pkg (s.home v) (128 * l)) 32 = true) →
    exec (.readRsp src) s = .next ((s.popMsg src).txnEnd (txnKey i.die i.txn) x 0 i.body)) ∧
  (∀ x a, ResponseOk s src 2 i x → x.owner = .relay 0 → s.hub.relays.find? (fun r => r.1 == 0) = some (0, a, false) →
    ∃ t, exec (.readRsp src) s = .next t ∧ t.txn (txnKey i.die i.txn) = none ∧
      t.rd .hubRelayData 0 0 = leNat (i.body.take 8) % 2 ^ 64 ∧ t.rd .hubRelayStatus 0 0 = 0 ∧
      regsBut [regKey .hubRelayData 0 0, regKey .hubRelayStatus 0 0] s t ∧ t.cores = s.cores ∧ memKept s t) ∧
  (s.nextMsg src 2 = some i → s.txn (txnKey i.die i.txn) = none → localSrc 0 ≤ src →
    ∃ t, exec (.readRsp src) s = .next t ∧ counted .prgDupDiscardCnt i.die 1 s t ∧ t.prg.inbox = popFirst src s.prg.inbox ∧
      regsBut [regKey .prgDupDiscardCnt i.die 0] s t ∧ t.cores = s.cores ∧ memKept s t)

/-- WRITE (R30, R167, R254, R324, R495): lines that nothing holds are stored and acknowledged; lines for a core that is going dark go back
to their sender (the model's choice of NAK 0x06, log entry 118); a slot is written and acknowledged, or answered with NAK 0x04; space 2
takes no fabric write, which counts; a narrow flag for stage memory is stored; a host-bound write is acknowledged once the gateway accepts
it. -/
def Write : Prop := ∀ (s : State) (src : Nat) (i : InMsg), RequestOk s src 3 3 i → addrPkg i.addr = s.pkg → i.body.length ≠ 24 →
  (∀ ls, ls = bodyLines i.body → isMemory i.addr = true → i.body.length ≠ 16 → ls ≠ [] → ls.length ≤ 32 →
    destCore (i.addr / 128 * 128 + 128 * (ls.length - 1)) = destCore i.addr →
    s.canStore (i.addr / 128 * 128) ls.length = true →
    exec (.write src) s = .next (((s.storeLines (i.addr / 128 * 128) ls).popMsg src).reply i ⟨4, i.core, i.addr, []⟩)) ∧
  (∀ off r, locOf i.addr = .ctrl off → (∀ e k, regSlot (off / 8 * 8) ≠ some (.hostCqPost, e, k)) →
    r = (s.slotAddr i.addr).regWrite 2 (off / 8 * 8) 8 (leNat (i.body.take 8)) →
    exec (.write src) s =
      .next ((r.1.popMsg src).reply i (if r.2 then ⟨4, i.core, i.addr, []⟩ else ⟨0x0F, i.core, i.addr, leBytes 8 4⟩))) ∧
  (isMemory i.addr = true → s.fencedOff i.addr = true →
    exec (.write src) s = .next ((s.popMsg src).reply i ⟨0x0F, i.core, i.addr, leBytes 8 6⟩)) ∧
  (∀ o b, locOf i.addr = .tier o b → ∃ t, exec (.write src) s = .next t ∧ counted .tierViolCnt 0 1 s t ∧ t.cores = s.cores ∧
    memKept s t) ∧
  (∀ g b, locOf i.addr = .stage g b → i.body.length = 16 → s.canStore i.addr 0 = true →
    exec (.write src) s = .next (((s.putStg (s.home g) (b / 8 * 8) (i.body.take 8)).popMsg src).reply i ⟨4, i.core, i.addr, []⟩)) ∧
  (∀ w b t, locOf i.addr = .window w b → i.body.length = 8 → s.gateway.isSome = true →
    s.hostBound w (b / 8 * 8) (i.body.take 8) 0 false = (t, .ok) →
    exec (.write src) s = .next ((t.popMsg src).reply i ⟨4, i.core, i.addr, []⟩))

/-- The line of a WRITE as the vault holds it (R167): data, tag and POISON mark. -/
def StoredLine : Prop := ∀ (s : State) (a g b : Nat) (data : List Nat) (tag : Nat) (p : Bool), locOf (a + 128 * 0) = .vault g b →
  s.storeLines a [(data, tag, p)] = s.putLine (s.home g) (b / 128) data tag (if p then 4 else 0)

/-- The sender of a signal message, as its receiver keeps it apart from others (R303): a keyway, or an island of the package. -/
def sigSender (s : State) (src : Nat) : Nat := if src < localSrc 0 then 2 ^ 10 + s.streamKw src else 128 + (src - localSrc 0)

/-- SIGNAL (R284, R287, R324): a signal to a tumbler is applied in its core and acknowledged; one whose serial is not above the
keyway's last is only acknowledged, and counted. -/
def Signal : Prop := ∀ (s : State) (src : Nat) (i : InMsg) (f : Nat), RequestOk s src 5 0 i → f = leNat (i.body.take 8) →
  (16 * i.die + i.core % 16 < 128 → s.home (16 * i.die + i.core % 16) = 16 * i.die + i.core % 16 →
    SigOk s (16 * i.die + i.core % 16) (sigSender s src) → bitsOf f 0 3 = 1 →
    (localSrc 0 ≤ src ∨ ((s.kw (s.streamKw src)).map (fun q => q.sigRx)).getD 0 < leNat ((i.body.drop 8).take 4)) →
    ∃ t, exec (.signal src) s = .next t ∧
      t.tmbCount (16 * i.die + i.core % 16) (bitsOf f 8 8)
        = (s.tmbCount (16 * i.die + i.core % 16) (bitsOf f 8 8) + min (max (bitsOf f 32 21) 1) (2 ^ 20)) % 2 ^ 48 ∧
      coresBut [16 * i.die + i.core % 16] s t ∧ memKept s t) ∧
  (bitsOf f 0 3 = 1 ∨ bitsOf f 0 3 = 2 → src < localSrc 0 →
    leNat ((i.body.drop 8).take 4) ≤ ((s.kw (s.streamKw src)).map (fun q => q.sigRx)).getD 0 →
    exec (.signal src) s = .next (((s.bump .prgDupDiscardCnt i.die 1).popMsg src).reply i ⟨6, i.core, i.addr, []⟩))

/-- What an acknowledgement does: its transaction ends, completed. -/
def acks (c : Instr) (src kind : Nat) : Prop := ∀ (s : State) (i : InMsg) (x : Txn), ResponseOk s src kind i x →
  exec c s = .next ((s.popMsg src).txnEnd (txnKey i.die i.txn) x 0 []) ∧
  (x.owner = .post ∨ x.owner = .sig ∨ x.owner = .norm ∨ (∃ gi tag, x.owner = .node gi tag) →
    ∃ t, exec c s = .next t ∧ t.txn (txnKey i.die i.txn) = none ∧ t.prg.inbox = popFirst src s.prg.inbox ∧
      t = { s with prg := { s.prg with txns := t.prg.txns, inbox := t.prg.inbox } })

/-- WRITE_ACK, SIG_ACK, RED_ACK, DIGEST_ACK and NORM_ACK (R324, R325). -/
def Acks : Prop := ∀ src : Nat, acks (.writeAck src) src 4 ∧ acks (.sigAck src) src 6 ∧ acks (.redAck src) src 8 ∧
  acks (.digestAck src) src 0x0C ∧ acks (.normAck src) src 0x0E

/-- The last transaction of a DCMP or of a hasp's fabric descriptor completes it: no request waits and none is in flight (R331). -/
def DescriptorAcked : Prop := ∀ (s : State) (src g pos part : Nat) (i : InMsg) (x : Txn) (j : FabJob), ResponseOk s src 0x0C i x →
  x.owner = .job g pos part → s.fabJobAt g pos = some j → bitsOf j.desc 0 8 = 0x53 → j.sent = true → j.failed = false →
  s.prg.jobs.all (fun j => j.todo.isEmpty) = true →
  ((s.popMsg src).setTxn (txnKey i.die i.txn) none).fabOpen g pos = false →
  ∃ t, exec (.digestAck src) s = .next t ∧ t.fabJobAt g pos = none ∧ coresBut [g] s t ∧ memKept s t

/-- Identity of a chunk: group, step tag, level, index and chunk (R328). -/
def chunkKey (i : InMsg) : Nat × Nat × Nat × Nat × Nat :=
  (bitsOf i.addr 16 16, bitsOf i.addr 0 16, bitsOf i.addr 32 4, bitsOf i.addr 36 13, bitsOf i.addr 49 15)

/-- RED_PART (R328, R331): the first child of a node is kept there and acknowledged; a chunk already taken is counted and
acknowledged again. -/
def RedPart : Prop := ∀ (s : State) (src diffs : Nat) (desc : Option Nat) (i : InMsg) (g : Group), RequestOk s src 7 1 i →
  s.redGroup (bitsOf i.addr 16 16) = some g →
  (s.prg.accepted.contains (chunkKey i) = true →
    exec (.redPart src desc diffs) s = .next (((s.bump .prgDupDiscardCnt i.die 1).popMsg src).reply i ⟨8, i.core, i.addr, []⟩)) ∧
  (∀ l p right, s.prg.accepted.contains (chunkKey i) = false → localSrc 0 ≤ i.src →
    treeParent g.contribN (bitsOf i.addr 32 4) (bitsOf i.addr 36 13) = some (l, p, right) →
    s.prg.nodes.all (fun n => n.group != bitsOf i.addr 16 16) = true →
    ∃ t, exec (.redPart src desc diffs) s = .next t ∧ chunkKey i ∈ t.prg.accepted ∧
      t.prg.nodes = s.prg.nodes ++ [(⟨bitsOf i.addr 16 16, bitsOf i.addr 0 16, l, p, bitsOf i.addr 49 15, i.core.testBit 0,
        none, none⟩ : RedNode).fill right
          (redParse (i.core.testBit 0) (chunkElems g (bitsOf i.addr 49 15)) i.body)] ∧
      t.regs = s.regs ∧ t.cores = s.cores ∧ memKept s t)

/-- The sum of a node (R329, R331): with both children there the node goes, and its sum leaves for the island that hosts the next. In
arrival order the chunk that came first is the first operand. -/
def RedNodeSum : Prop := ∀ (s : State) (d gi tag level ix chunk l p diffs : Nat) (right : Bool) (g : Group) (n : RedNode)
  (a b v : List Nat × Nat) (rdesc : Option Nat) (h : Nat × Nat),
  treeParent g.contribN level ix = some (l, p, right) → s.prg.nodes.find? (fun n => n.group == gi && n.tag == tag && n.level == l
    && n.ix == p && n.chunk == chunk) = some n →
  (n.fill right v).left = some a → (n.fill right v).right = some b → g.parentHost s.img.red l p = some h → ∀ c z,
  z = (if (s.rd .prgRedCtl d 0).testBit 1 = true ∧ right = false then sumChunk true c b a
    else sumChunk ((s.rd .prgRedCtl d 0).testBit 1) c a b) →
  s.redValue d gi tag level ix chunk g c v rdesc diffs
    = (s.updPrg (fun q => { q with nodes := q.nodes.filter (fun n => !(n.group == gi && n.tag == tag && n.level == l && n.ix == p
        && n.chunk == chunk)) })).request d (.node gi tag) h.1 1
          (redMsg c tag gi l p chunk z.1 z.2) h.2

/-- FLUSH_REQ (R297, R298, R381): an attached gateway counts it and issues a flush read; a detached one answers TORN; one that replays
keeps it behind the writes that follow the reattach. -/
def FlushReq : Prop := ∀ (s : State) (src : Nat) (i : InMsg), RequestOk s src 9 0 i → s.gateway.isSome = true →
  (s.attached = true → ∃ t r, exec (.flushReq src) s = .next t ∧ counted .hostFlushCnt 0 1 s t ∧
    t.host.reads = s.host.reads ++ [r] ∧ r.kind = .flush i.src i.txn i.gen (16 * i.die + i.core) ∧ r.addr = s.flushAddr ∧
    t.outbox = s.outbox ++ [.pcieRead r.addr 8 r.serial] ∧
    regsBut [regKey .hostFlushCnt 0 0] s t ∧ t.cores = s.cores ∧ memKept s t) ∧
  (s.session = 1 → exec (.flushReq src) s = .next ((s.popMsg src).reply i ⟨0x0A, i.core, 1, []⟩)) ∧
  (1 < s.session → ∃ t, exec (.flushReq src) s = .next t ∧ t.host = { s.host with flushQ := s.host.flushQ ++ [i] } ∧
    t.outbox = s.outbox ∧ t.regs = s.regs ∧ t.cores = s.cores ∧ memKept s t)

/-- FLUSH_RSP (R297, R298): the flush of a gateway ends; while others are out the hasp waits on; ADDR 1 says TORN. -/
def FlushRsp : Prop := ∀ (s : State) (src g pos gw : Nat) (i : InMsg) (x : Txn) (h : HaspRun), ResponseOk s src 0x0A i x →
  x.owner = .flush g pos gw → (s.core g).hasp = some h → h.pos = pos → h.flushes.filter (· != gw) ≠ [] →
  ∃ t, exec (.flushRsp src) s = .next t ∧ t.txn (txnKey i.die i.txn) = none ∧
    (t.core g).hasp = some { h with flushes := h.flushes.filter (· != gw)
                                    torn := if i.addr = 1 then h.torn ++ [gw] else h.torn } ∧
    t.regs = s.regs ∧ coresBut [g] s t ∧ memKept s t

/-- DIGEST_MESSAGE (R245): a result is kept until all have arrived; then they are compared. -/
def DigestMessage : Prop := ∀ (s : State) (src dg : Nat) (i : InMsg) (g : Group), RequestOk s src 0x0B 1 i →
  dg = bitsOf i.addr 16 32 → groupAt s.img.dig false dg = some g → s.prg.digests.all (fun e => e.1 != dg) = true →
  localSrc 0 ≤ i.src →
  (g.destN ≠ 1 → ∃ t, exec (.digestMessage src) s = .next t ∧
    t.prg.digests = s.prg.digests ++ [(dg, bitsOf i.addr 0 16, leNat ((i.body.drop 32).take 8), i.body.take 32)] ∧
    t.regs = s.regs ∧ t.cores = s.cores ∧ memKept s t) ∧
  (∀ v w p c, g.destN = 1 → (g.dests s.img.dig).head? = some (v, w) → s.rankAt v = some (p, c) →
    leNat ((i.body.drop 32).take 8) = v → (s.core c).fence ≠ .adopted →
    ∃ t, exec (.digestMessage src) s = .next t ∧ counted .coreDigestCnt c 1 s t ∧
      regsBut [regKey .coreDigestCnt c 0] s t ∧ t.cores = s.cores ∧ memKept s t)

/-- Results of a group that differ (R245, R515): the mismatch is counted and the hub records it. -/
def DigestsDiffer : Prop := ∀ (s : State) (dg p c v w : Nat) (g : Group) (r0 : List Nat) (r : Nat × Nat × Nat × List Nat),
  (g.dests s.img.dig).head? = some (v, w) → s.rankAt v = some (p, c) → (s.core c).fence ≠ .adopted →
  (s.prg.digests.filter (fun e => e.1 == dg)).find? (fun e => e.2.2.1 == v) = some (dg, r.2.1, v, r0) →
  r ∈ s.prg.digests → r.1 = dg → r.2.2.2 ≠ r0 →
  counted .coreDigestMismatchCnt c 1 s (s.digestDone dg g) ∧
  ∃ q, (s.digestDone dg g).fltIn = s.fltIn ++ [q] ∧ q.kind = .trnDigestMismatch ∧ q.island = hubIsland

/-- NORM_MESSAGE (R230, R330): n2 reaches the core, once a step. -/
def NormMessage : Prop := ∀ (s : State) (src g : Nat) (i : InMsg), RequestOk s src 0x0D 1 i → g = 16 * i.die + i.core % 16 →
  (s.core g).fence ≠ .adopted →
  ((s.core g).normAt ≠ some (s.core g).step → ∃ t, exec (.normMessage src) s = .next t ∧
    t.rdF .coreOptNorm2 g 0 0 32 = leNat (i.body.take 4) % 2 ^ 32 ∧ (t.core g).normAt = some (s.core g).step ∧
    coresBut [g] s t ∧ memKept s t) ∧
  ((s.core g).normAt = some (s.core g).step →
    exec (.normMessage src) s = .next ((s.popMsg src).reply i ⟨0x0E, i.core, i.addr, []⟩))

/-- NAK_MESSAGE (R332): RESET reissues the transaction with the next generation; any other code ends it with that status. -/
def NakMessage : Prop := ∀ (s : State) (src code : Nat) (i : InMsg) (x : Txn), s.nextMsg src 0x0F = some i →
  s.txn (txnKey i.die i.txn) = some x → code = leNat (i.body.take 8) →
  (code ≠ 5 → code ≠ 6 → exec (.nakMessage src) s = .next ((s.popMsg src).txnEnd (txnKey i.die i.txn) x code [])) ∧
  (∀ q, code = 6 → x.pkg ≠ s.pkg → s.ownKw x = some q → ∃ t, exec (.nakMessage src) s = .next t ∧
    t.txn (txnKey i.die i.txn) = some { x with gen := x.gen + 1, kw := q } ∧ t.cores = s.cores ∧ memKept s t) ∧
  (code = 6 → x.pkg = s.pkg → ∃ t, exec (.nakMessage src) s = .next t ∧
    t.txn (txnKey i.die i.txn) = some { x with gen := x.gen + 1, kw := noKw } ∧ t.cores = s.cores ∧ memKept s t) ∧
  (code = 4 → x.owner = .norm ∨ x.owner = .sig → ∃ t, exec (.nakMessage src) s = .next t ∧ t.txn (txnKey i.die i.txn) = none ∧
    counted .prgIslViolCnt (txnKey i.die i.txn / 2 ^ 24) 1 s t ∧ t.cores = s.cores ∧ memKept s t)

/-- TXN_TIMEOUT (R325): with an event pending on the route the requester waits; else the transaction is reissued once; a second
expiry ends it UNREACHABLE, recorded. -/
def TxnTimeout : Prop := ∀ (s : State) (die n : Nat) (x : Txn), die < 8 → s.txn (txnKey die n) = some x → x.pkg ≠ s.pkg →
  (s.routeBusy x = true → x.waits = false → ∃ t, exec (.txnTimeout die n) s = .next t ∧ counted .prgTxnTimeoutCnt die 1 s t ∧
    t.txn (txnKey die n) = some { x with waits := true } ∧ regsBut [regKey .prgTxnTimeoutCnt die 0] s t ∧ t.cores = s.cores ∧
    memKept s t) ∧
  (s.routeBusy x = false → x.expired = false → ∀ q, s.ownKw x = some q → ∃ t, exec (.txnTimeout die n) s = .next t ∧
    counted .prgTxnTimeoutCnt die 1 s t ∧ t.txn (txnKey die n) = some { x with expired := true, gen := x.gen + 1, kw := q } ∧
    t.cores = s.cores ∧ memKept s t) ∧
  (s.routeBusy x = false → x.expired = true → x.owner = .post → ∃ t, exec (.txnTimeout die n) s = .next t ∧
    counted .prgTxnTimeoutCnt die 1 s t ∧ t.txn (txnKey die n) = none ∧
    (∃ r, t.fltIn = s.fltIn ++ [r] ∧ r.kind = .prgUnreachable) ∧ t.cores = s.cores ∧ memKept s t)

end Sys2Proof.Claims

/-- READ_REQ, READ_RSP and WRITE, and what an answer is. -/
def Obligations.MemoryMessages : Prop :=
  Sys2Proof.Claims.Replies ∧ Sys2Proof.Claims.RequestRefused ∧ Sys2Proof.Claims.ReadReq ∧ Sys2Proof.Claims.ReadRsp ∧
  Sys2Proof.Claims.Write ∧ Sys2Proof.Claims.StoredLine

/-- SIGNAL, WRITE_ACK, SIG_ACK, RED_ACK, DIGEST_ACK and NORM_ACK. -/
def Obligations.SignalAndAckMessages : Prop :=
  Sys2Proof.Claims.Signal ∧ Sys2Proof.Claims.Acks ∧ Sys2Proof.Claims.DescriptorAcked

/-- RED_PART, DIGEST_MESSAGE, NORM_MESSAGE. -/
def Obligations.ReductionMessages : Prop :=
  Sys2Proof.Claims.RedPart ∧ Sys2Proof.Claims.RedNodeSum ∧ Sys2Proof.Claims.DigestMessage ∧ Sys2Proof.Claims.DigestsDiffer ∧
  Sys2Proof.Claims.NormMessage

/-- FLUSH_REQ, FLUSH_RSP, NAK_MESSAGE and TXN_TIMEOUT. -/
def Obligations.FlushNakTimeoutCommands : Prop :=
  Sys2Proof.Claims.FlushReq ∧ Sys2Proof.Claims.FlushRsp ∧ Sys2Proof.Claims.NakMessage ∧ Sys2Proof.Claims.TxnTimeout
namespace Sys2Proof.Claims

open Machine

/-! ## Lanes and links (R311 to R313, R317, R333) -/

/-- Port and lane in range. -/
abbrev LaneIx (port lane : Nat) : Prop := port < 16 ∧ lane < 8

/-- What shows that an UP lane fails for a cause (R312). -/
abbrev LaneShows (s : State) (port lane cause reading : Nat) : Prop :=
  (cause = 0 ∧ reading % 2 ^ 8 < 60) ∨ cause = 1 ∨ (cause = 2 ∧ s.tooBad (s.plane port lane) = true) ∨ (cause = 3 ∧ s.tooFixed (s.plane port lane) = true)

/-- Another lane of the same link is in use. -/
abbrev OtherLane (s : State) (port lane : Nat) : Prop :=
  (s.linkLanes (s.linkOf port lane)).any (fun w => decide (w ≠ lane)) = true

/-- LANE_FAIL (R311, R312, R335, R336): the lane is FAILED, counted and recorded, and a link that keeps a lane stays as it was; the lane's
monitor byte is kept. A laser below its minimum is recorded, with its monitor byte. A reading in good order (−14 dBm OMA and more, the
laser input of +14 dBm and more) is kept and fails nothing. -/
def LaneFail : Prop := ∀ (s : State) (port lane cause reading : Nat), LaneIx port lane → s.pwrState = 3 →
  ((s.plane port lane).state = .up → LaneShows s port lane cause reading → OtherLane s port lane →
    ∃ t, exec (.laneFail port lane cause reading) s = .next t ∧ (t.plane port lane).state = .failed ∧
      counted .prgLaneFailCnt port 1 s t ∧ (∃ r, t.fltIn = s.fltIn ++ [r] ∧ r.kind = .prgLaneFail) ∧
      (cause = 0 → SMap.get (fun _ => none) t.prg.oma (laneKey port lane) = some (reading % 2 ^ 8)) ∧
      (t.link (s.linkOf port lane)).up = (s.link (s.linkOf port lane)).up ∧
      regsBut [regKey .prgLaneFailCnt port 0, regKey .prgPortStatus port 0] s t ∧
      t.cores = s.cores ∧ memKept s t) ∧
  (cause = 0 → 60 ≤ reading % 2 ^ 8 → (s.plane port lane).state.carries = true →
    exec (.laneFail port lane cause reading) s = .next (s.setOma port lane reading)) ∧
  (cause = 4 → 190 ≤ reading % 2 ^ 8 → exec (.laneFail port lane cause reading) s = .next (s.setLaser (port / 2) lane reading)) ∧
  (cause = 4 → reading % 2 ^ 8 < 190 → (∀ p, p / 2 = port / 2 → (s.plane p lane).state ≠ .up) →
    ∃ t, exec (.laneFail port lane cause reading) s = .next t ∧
      SMap.get (fun _ => none) t.prg.laser (laneKey (port / 2) lane) = some (reading % 2 ^ 8) ∧
      (∃ r, t.fltIn = s.fltIn ++ [r] ∧ r.kind = .prgLaserLow) ∧
      t.regs = s.regs ∧ t.cores = s.cores ∧ memKept s t)

/-- LANESET (R312): the peer's lane set of the link. -/
def Laneset : Prop := ∀ (s : State) (port lane mask : Nat), LaneIx port lane →
  ∃ t, exec (.laneset port lane mask) s = .next t ∧
    t.link (s.linkOf port lane) = { s.link (s.linkOf port lane) with peerMask := mask % 2 ^ 8 } ∧
    regsBut [regKey .prgPortStatus port 0] s t ∧ t.cores = s.cores ∧ memKept s t

/-- LANE_RETRAIN (R312, R313): a FAILED lane trains again: this end sends its package and port number, its port mode and 8 bytes of the
image digest. -/
def LaneRetrain : Prop := ∀ (s : State) (port lane : Nat), LaneIx port lane → s.pwrState = 3 → s.tier.stopped = false →
  (s.plane port lane).state = .failed →
  ∃ t x, exec (.laneRetrain port lane) s = .next t ∧ (t.plane port lane).state = .training ∧
    t.outbox = s.outbox ++ [.training port lane s.pkg x (if s.isSealed then s.rd .hubImageDigest 0 0 else 0)] ∧
    regsBut [regKey .prgPortStatus port 0] s t ∧ t.cores = s.cores ∧ memKept s t

/-- Does a trained lane stay the spare of its port: no lane of a direct-mode port has failed (R311). -/
def staysSpare (s : State) (port lane : Nat) : Bool :=
  s.spareLane port == some lane && s.directPort port && s.laneMask port (· == .failed) == 0

/-- LANE_TRAINING_DONE (R311, R313): a lane whose peer matches is UP, or the spare, and its link comes up; a peer that does not
match is recorded and the lane stays in training. -/
def LaneTrainingDone : Prop := ∀ (s : State) (port lane pkg pport mode digest : Nat), LaneIx port lane →
  (s.plane port lane).state = .training →
  (s.trainOk port lane pkg pport mode digest = true → ∃ t, exec (.laneTrainingDone port lane pkg pport mode digest) s = .next t ∧
    (t.plane port lane).state = (if staysSpare s port lane then .spare else .up) ∧
    (staysSpare s port lane = false → (t.link (s.linkOf port lane)).up = true) ∧ t.cores = s.cores ∧ memKept s t) ∧
  (s.trainOk port lane pkg pport mode digest = false →
    ∃ t, exec (.laneTrainingDone port lane pkg pport mode digest) s = .next t ∧ t = { s with fltIn := t.fltIn } ∧
      recorded .prgTrainMismatch (.prg port (2 ^ lane) 0 mode pkg pport digest) s t)

/-- A link that can replay: it is up, flits are outstanding, no episode is open, and no flit is close to its last resend. -/
abbrev ReplayOk (s : State) (l : Nat) : Prop :=
  (s.link l).up = true ∧ (s.link l).unacked ≠ [] ∧ (s.link l).episode = none ∧
    (s.link l).unacked.all (fun f => decide (f.sends < 7)) = true

/-- Every flit outstanding has been resent, oldest first, and an episode is open and counted (R317). -/
def replayed (l : Nat) (s t : State) : Prop :=
  (t.link l).unacked = (s.link l).unacked.map (fun f => { f with sends := f.sends + 1 }) ∧
  (t.link l).episode = some (s.link l).unacked.length ∧ counted .prgReplayCnt (l / 8) 1 s t ∧
  (s.linkLanes l ≠ [] → t.outbox.length = s.outbox.length + (s.link l).unacked.length) ∧
  regsBut [regKey .prgReplayCnt (l / 8) 0, regKey .prgPortStatus (l / 8) 0] s t ∧ t.cores = s.cores ∧ memKept s t

/-- NAK (R317): a NAK for the oldest flit outstanding resends them all. -/
def Nak : Prop := ∀ (s : State) (port lane seq : Nat), LaneIx port lane → ReplayOk s (s.linkOf port lane) →
  (seq + (s.link (s.linkOf port lane)).unacked.length) % 2 ^ 16 = (s.link (s.linkOf port lane)).txSeq % 2 ^ 16 →
  (s.link (s.linkOf port lane)).unacked.length < 2 ^ 16 →
  ∃ t, exec (.nak port lane seq) s = .next t ∧ replayed (s.linkOf port lane) s t

/-- ACK_TIMEOUT (R317). -/
def AckTimeout : Prop := ∀ (s : State) (port lane : Nat), LaneIx port lane → ReplayOk s (s.linkOf port lane) →
  ∃ t, exec (.ackTimeout port lane) s = .next t ∧ replayed (s.linkOf port lane) s t

/-- REPLAY_BUDGET_EXPIRY (R317): at either end of the link the lane to blame fails, counted and recorded; an end that resends begins its
episode again on the lanes that remain. -/
def ReplayBudgetExpiry : Prop := ∀ (s : State) (port lane l w : Nat), LaneIx port lane → l = s.linkOf port lane →
  (s.link l).inEpisode = true → (s.link l).up = true → s.budgetLanes l = [w] → (s.plane port w).state = .up → w < 8 →
  OtherLane s port w →
  ∃ t, exec (.replayBudgetExpiry port lane) s = .next t ∧ (t.plane port w).state = .failed ∧ counted .prgLaneFailCnt port 1 s t ∧
    (∃ r, t.fltIn = s.fltIn ++ [r] ∧ r.kind = .prgLaneFail) ∧ 
    (t.link l).episode = (s.link l).episode.map (fun _ => (s.link l).unacked.length) ∧
    (t.link l).unacked = (s.link l).unacked.map (fun f => { f with sends := if (s.link l).episode.isSome then 2 else 1 }) ∧ t.cores = s.cores ∧ memKept s t

/-- No route in use travels on a link. -/
abbrev NoRouteOn (s : State) (l : Nat) : Prop :=
  (s.linkKws l).all (fun k => match s.routeOfKw k with
    | some r => decide (s.routeKw r ≠ some k)
    | none => true) = true

/-- LINK_DOWN (R317, R321): the link is down, the credits of its keyways begin again, and its lanes train again. -/
def LinkDown : Prop := ∀ (s : State) (port lane l : Nat), LaneIx port lane → l = s.linkOf port lane → (s.link l).up = true →
  NoRouteOn s l →
  ∃ t, exec (.linkDown port lane) s = .next t ∧ (t.link l).up = false ∧
    (∀ w ∈ s.linkLanes l, (t.plane port w).state = .training) ∧
    (∀ k ∈ s.linkKws l, ∀ q, s.kw k = some q → ∃ q', t.kw k = some q' ∧ q'.held = 0 ∧ q'.out = 0 ∧ q'.pend = 0 ∧
      q'.free = q.rx - q.occ) ∧
    regsBut [regKey .prgPortStatus port 0] s t ∧ t.cores = s.cores ∧ memKept s t

/-- A route whose link is lost moves to its first alternate whose link is up (R323). -/
def Reroute : Prop := ∀ (s : State) (r k i : Nat),
  (List.range (SMap.get (fun _ => []) s.prg.routes r).length).find?
    (fun i => i != 0 && s.kwUp ((SMap.get (fun _ => []) s.prg.routes r).getD i 0)) = some i →
  s.prg.txns.all (fun e => (e.2.map (fun x => !(x.kw == k && x.waits))).getD true) = true →
  SMap.get (fun _ => 0) (s.reroute r k).prg.cur r = i ∧ (s.reroute r k).cores = s.cores ∧ memKept s (s.reroute r k)

/-- REFCLK_LOSS (R463): the flash channels stop and the loss is recorded; with no link up every photonic lane has failed. -/
def RefclkLoss : Prop := ∀ (s : State) (offset : Nat), s.pwrState ≠ 0 → s.tier.stopped = false →
  (∃ t, exec (.refclkLoss offset) s = .next t ∧ t.tier.stopped = true ∧ t.rdF .tierStatus 0 0 0 16 = 0 ∧
    ∃ pre r, t.fltIn = pre ++ [r] ∧ r.kind = .pwrRefclkLoss ∧ r.payload = .gen 0 0 0 (offset % 2 ^ 32) 0 0) ∧
  ((∀ l, l < 128 → (s.link l).up = false) → ∃ t, exec (.refclkLoss offset) s = .next t ∧
    (∀ p w, p < 16 → w < 8 → (t.plane p w).state = .failed) ∧ t.cores = s.cores ∧ memKept s t)

/-- CTRL_PLANE_SCRUB (R43, R333, R441): where ports are powered, and outside D3, with three copies, or with no link of the port up, every
disagreement is counted and recorded. -/
def CtrlPlaneScrub : Prop := ∀ (s : State) (port : Nat) (causes : List Nat), port < 16 →
  (s.pwrState < 2 ∨ s.ward.d3 = true → exec (.ctrlPlaneScrub port causes) s = .next s) ∧
  (2 ≤ s.pwrState → s.ward.d3 = false →
  32 < s.img.packages.length ∨ (∀ w, w < 8 → (s.link (s.linkOf port w)).up = false) →
  ∃ t, exec (.ctrlPlaneScrub port causes) s = .next t ∧ counted .prgCtrlMismatchCnt port causes.length s t ∧
    (∃ rs, t.fltIn = s.fltIn ++ rs ∧ rs.length = causes.length ∧ ∀ r ∈ rs, r.kind = .prgCtrlMismatch) ∧
    regsBut [regKey .prgCtrlMismatchCnt port 0] s t ∧ t.cores = s.cores ∧ memKept s t)

/-! ## Flits (R309, R315 to R319) -/

/-- The bytes of a flit have the length and the check code of one (R315). -/
abbrev FlitOk (b : List Nat) : Prop := b.length = 256 ∧ crc32c (b.take 252) = leNat (b.drop 252)

/-- FLIT_RECEIVE of a flit that fails its check (R317): counted, and the link has asked for a resend. -/
def FlitReceiveBad : Prop := ∀ (s : State) (port lane l : Nat) (b : List Nat), LaneIx port lane → l = s.linkOf port lane →
  (s.plane port lane).state.carries = true → (s.link l).up = true → ¬ FlitOk (b.map (· % 256)) →
  ∃ t, exec (.flitReceive port lane b) s = .next t ∧ counted .prgCrcErrCnt port 1 s t ∧ (t.link l).naked = true ∧
    (t.link l).rxSeq = (s.link l).rxSeq ∧ t.cores = s.cores ∧ memKept s t

/-- FLIT_RECEIVE of the expected DATA flit that holds one whole message (R317, R319, R324): accepted and counted, an ACK is due, its credit
is ready to return, and the message waits at its island. -/
def FlitReceive : Prop := ∀ (s : State) (port lane l k : Nat) (bytes b p : List Nat) (q : Kw), LaneIx port lane →
  l = s.linkOf port lane → b = bytes.map (· % 256) → (s.plane port lane).state.carries = true → (s.link l).up = true → FlitOk b →
  b.getD 0 0 % 16 = 1 → p = (b.drop 12).take (16 * (b.getD 0 0 / 16)) → leNat ((b.drop 1).take 2) = (s.link l).rxSeq →
  (s.link l).rxSeq < 2 ^ 16 → leNat ((b.drop 9).take 3) = 0 →
  (s.link l).unacked = [] → leNat ((b.drop 3).take 2) = (s.link l).txSeq →
  k = kwKey port (leNat ((b.drop 5).take 2) % 4096) → s.kw k = some q → s.streamKw k = k → q.cls ≠ 3 → q.out ≠ 0 → q.part = [] →
  leNat ((b.drop 7).take 2) = q.kseqRx → headerLen p = some p.length →
  ∃ t, exec (.flitReceive port lane bytes) s = .next t ∧ counted .prgFlitRxCnt port 1 s t ∧
    (t.link l).rxSeq = ((s.link l).rxSeq + 1) % 2 ^ 16 ∧ (t.link l).ackDue = true ∧
    t.kw k = some { q with out := q.out - 1, pend := q.pend + 1, kseqRx := (q.kseqRx + 1) % 2 ^ 16 } ∧
    t.prg.inbox = s.prg.inbox ++ [⟨k, q.die, p.getD 0 0, p.getD 1 0 % 16, leNat ((p.drop 4).take 3), p.getD 7 0,
      leNat ((p.drop 8).take 8), (p.drop 16).take (leNat ((p.drop 2).take 2))⟩] ∧ t.cores = s.cores ∧ memKept s t

/-- A lane with the corrected symbols of one more frame. -/
def withSyms (s : State) (p : PLane) (c : Nat) : PLane :=
  { p with corr := s.fixedSyms p ++ (if c = 0 then [] else [(s.hubTime, c)]), epCorr := p.epCorr + c }

/-- FRAME_RECEIVE (R309, R312): the corrected symbols are counted and the flits arrive one after the other; an uncorrectable frame is
counted in the episode that it belongs to or opens (R317), and asks for a resend. With more than 64 uncorrectable frames, or 42,500
corrected symbols, in a millisecond the lane fails. -/
def FrameReceive : Prop := ∀ (s : State) (port lane corr : Nat) (flits : List (List Nat)) (p : PLane), LaneIx port lane →
  p = s.plane port lane → p.state.carries = true →
  (∃ u v, v = forEach (flits.take 5) (fun b s => s.takeFlit (s.linkOf port lane) (b.map (· % 256))) u ∧
    exec (.frameReceive port lane corr flits false) s
      = .next (if v.tooFixed (withSyms s p (min corr 30)) = true then v.failLane port lane 3 else v) ∧
    counted .prgFecCorrSymCnt port (min corr 30) s u ∧ u.plane port lane = withSyms s p (min corr 30) ∧
    regsBut [regKey .prgFecCorrSymCnt port 0, regKey .prgPortStatus port 0] s u ∧ u.cores = s.cores ∧ memKept s u) ∧
  ((s.badFrames p).length < 64 → ∃ t, exec (.frameReceive port lane corr flits true) s = .next t ∧
    counted .prgFecUncorrCnt port 1 s t ∧
    ((s.link (s.linkOf port lane)).up = false ∨ (s.link (s.linkOf port lane)).inEpisode = true →
      (t.plane port lane).epUncorr = p.epUncorr + 1) ∧
    ((s.link (s.linkOf port lane)).up = true → (s.link (s.linkOf port lane)).inEpisode = false →
      (s.linkLanes (s.linkOf port lane)).contains lane = true → (t.plane port lane).epUncorr = 1) ∧ (t.plane port lane).state = p.state ∧
    ((s.link (s.linkOf port lane)).up = true → (t.link (s.linkOf port lane)).naked = true) ∧ t.cores = s.cores ∧ memKept s t) ∧
  (64 ≤ (s.badFrames p).length → p.state = .up → OtherLane s port lane → ∃ t,
    exec (.frameReceive port lane corr flits true) s = .next t ∧ counted .prgFecUncorrCnt port 1 s t ∧
    (t.plane port lane).state = .failed ∧ counted .prgLaneFailCnt port 1 s t ∧ t.cores = s.cores ∧ memKept s t)

/-! ## Credits and resets of a keyway (R319, R321, R322, R332) -/

/-- CREDIT_RETURN_SEND (R319): what each keyway of the link has gathered is granted, over a lane that carries flits; without one the
returns stay gathered. -/
def CreditReturnSend : Prop := ∀ (s : State) (port lane l : Nat), LaneIx port lane → l = s.linkOf port lane → (s.link l).up = true →
  (s.ctlLanes l = [] → exec (.creditReturnSend port lane) s = .next s) ∧
  (s.ctlLanes l ≠ [] → ∃ t, exec (.creditReturnSend port lane) s = .next t ∧
    (∀ k ∈ s.linkKws l, ∀ q, s.kw k = some q → t.kw k = some { q with out := q.out + q.pend, pend := 0 }) ∧
    regsBut [regKey .prgPortStatus port 0] s t ∧ t.cores = s.cores ∧ memKept s t)

/-- The keyway of a control payload, at an endpoint. -/
abbrev KwOk (s : State) (port kw : Nat) (q : Kw) : Prop := port < 16 ∧ s.kw (kwKey port kw) = some q ∧ q.cls ≠ 3

/-- RESYNC (R321): DATA of the keyway stops, answered once none of its flits is outstanding. -/
def Resync : Prop := ∀ (s : State) (port kw epoch : Nat) (q : Kw), KwOk s port kw q →
  ∃ t q', exec (.resync port kw epoch) s = .next t ∧ t.kw (kwKey port kw) = some q' ∧ q'.epoch = epoch % 2 ^ 16 ∧
    q'.stop = (if (s.link (s.kwLink (kwKey port kw) q)).unacked.any (fun f => f.kw == kwKey port kw % 4096) then 1 else 2) ∧
    t.cores = s.cores ∧ memKept s t

/-- RESYNC_ACK (R321): RX_CREDITS less the occupied flits are granted; one of another epoch is ignored. -/
def ResyncAck : Prop := ∀ (s : State) (port kw epoch credits : Nat) (q : Kw), KwOk s port kw q →
  (q.epoch = epoch % 2 ^ 16 → q.resync = true → ∃ t q', exec (.resyncAck port kw epoch credits) s = .next t ∧
    t.kw (kwKey port kw) = some q' ∧ q'.resync = false ∧ q'.out = q.rx - q.occ ∧ q'.free = 0 ∧ q'.pend = 0 ∧
    t.cores = s.cores ∧ memKept s t) ∧
  (q.epoch ≠ epoch % 2 ^ 16 → exec (.resyncAck port kw epoch credits) s = .next s)

/-- RESYNC_SET (R321): the sender holds what it is told, and DATA goes on; one of another epoch is ignored. -/
def ResyncSet : Prop := ∀ (s : State) (port kw epoch credits : Nat) (q : Kw), KwOk s port kw q →
  (q.epoch = epoch % 2 ^ 16 → q.txq = [] → q.ctlq = [] → ∃ t, exec (.resyncSet port kw epoch credits) s = .next t ∧
    t.kw (kwKey port kw) = some { q with held := min (credits % 2 ^ 16) q.rx, stop := 0 } ∧
    regsBut [regKey .prgFlitTxCnt port 0, regKey .prgPortStatus port 0] s t ∧ t.cores = s.cores ∧ memKept s t) ∧
  (q.epoch ≠ epoch % 2 ^ 16 → exec (.resyncSet port kw epoch credits) s = .next s)

/-- RESET (R322): partial messages and KSEQ begin again under the new epoch, the reset is counted, and the credits are
resynchronised; a relay port passes it on (R323). -/
def Reset : Prop := ∀ (s : State) (port kw epoch : Nat) (q : Kw), port < 16 → s.kw (kwKey port kw) = some q →
  (q.cls ≠ 3 → ∃ t q', exec (.reset port kw epoch) s = .next t ∧ t.kw (kwKey port kw) = some q' ∧ q'.part = [] ∧ q'.kseqRx = 0 ∧
    q'.epoch = epoch % 2 ^ 16 ∧ q'.resync = true ∧ counted .prgKwResetCnt q.die 1 s t ∧
    counted .prgCreditResyncCnt port 1 s t ∧ t.cores = s.cores ∧ memKept s t) ∧
  (q.cls = 3 → exec (.reset port kw epoch) s = .next (s.sendKwCtl (kwKey q.fwdPort q.fwdKw) (0x13 :: leBytes 2 epoch)))

/-- RESET_ACK (R322): the reset is over and the credits are resynchronised; one of another epoch is ignored. -/
def ResetAck : Prop := ∀ (s : State) (port kw epoch : Nat) (q : Kw), KwOk s port kw q →
  (q.epoch = epoch % 2 ^ 16 → q.reset = true → ∃ t q', exec (.resetAck port kw epoch) s = .next t ∧
    t.kw (kwKey port kw) = some q' ∧ q'.reset = false ∧ q'.resync = true ∧ counted .prgCreditResyncCnt port 1 s t ∧
    t.cores = s.cores ∧ memKept s t) ∧
  (q.epoch ≠ epoch % 2 ^ 16 → exec (.resetAck port kw epoch) s = .next s)

/-- KW_NAK (R332): the transaction that it names ends with its code. -/
def KwNak : Prop := ∀ (s : State) (port kw code n gen : Nat) (q : Kw) (x : Txn), KwOk s port kw q →
  s.txn (txnKey q.die n) = some x → code % 256 ≠ 5 → code % 256 ≠ 6 →
  exec (.kwNak port kw code n gen) s = .next (s.txnEnd (txnKey q.die n) x (code % 256) [])

end Sys2Proof.Claims

/-- LANE_FAIL, LANESET, LANE_RETRAIN and LANE_TRAINING_DONE. -/
def Obligations.LaneCommands : Prop :=
  Sys2Proof.Claims.LaneFail ∧ Sys2Proof.Claims.Laneset ∧ Sys2Proof.Claims.LaneRetrain ∧ Sys2Proof.Claims.LaneTrainingDone

/-- FLIT_RECEIVE and FRAME_RECEIVE. -/
def Obligations.FlitCommands : Prop :=
  Sys2Proof.Claims.FlitReceiveBad ∧ Sys2Proof.Claims.FlitReceive ∧ Sys2Proof.Claims.FrameReceive

/-- NAK, ACK_TIMEOUT, REPLAY_BUDGET_EXPIRY, LINK_DOWN, REFCLK_LOSS and CTRL_PLANE_SCRUB. -/
def Obligations.LinkRecoveryCommands : Prop :=
  Sys2Proof.Claims.Nak ∧ Sys2Proof.Claims.AckTimeout ∧ Sys2Proof.Claims.ReplayBudgetExpiry ∧ Sys2Proof.Claims.LinkDown ∧
  Sys2Proof.Claims.Reroute ∧ Sys2Proof.Claims.RefclkLoss ∧ Sys2Proof.Claims.CtrlPlaneScrub

/-- CREDIT_RETURN_SEND, RESYNC, RESYNC_ACK, RESYNC_SET, RESET, RESET_ACK and KW_NAK. -/
def Obligations.KeywayCommands : Prop :=
  Sys2Proof.Claims.CreditReturnSend ∧ Sys2Proof.Claims.Resync ∧ Sys2Proof.Claims.ResyncAck ∧ Sys2Proof.Claims.ResyncSet ∧
  Sys2Proof.Claims.Reset ∧ Sys2Proof.Claims.ResetAck ∧ Sys2Proof.Claims.KwNak
namespace Sys2Proof.Claims

open Machine

/-! ## The structure image (R339, R355 to R361, R411, R482) -/

/-- Staged image without the packages' reports: ring, job, header and sections. -/
def stagedAs (s : State) : Option (Nat × Nat × List Nat × List (List Nat)) := s.img.staged.map (fun t => (t.ring, t.jid, t.head, t.secs))

/-- The gateway takes its next IMAGE_LOAD job: no load is in hand, and the window can be read. -/
abbrev LoadOk (s : State) (j : HostJob) : Prop :=
  s.hub.h1Down = false ∧ s.pwrState = 3 ∧ s.img.held = none ∧ s.nextJob jobImage = some j ∧ s.img.staged = none ∧ j.ring < 16 ∧
    dfld j.raw 8 0 64 % 64 = 0 ∧ (s.winFor (dfld j.raw 8 0 64) (dfld j.raw 16 0 64) 2).isSome = true

/-- What the checks of R355 find in an image. -/
def verdict (s : State) (j : HostJob) (head : List Nat) (secs : List (List Nat)) : Nat :=
  ((s.updJob j.id (fun k => { k with begun := true })).checkImage head secs (imgDigest head)).2

/-- What the lead tells of a refusal (R31, R355, R356): the host learns the package, the code and IMAGE_ID of the refused image, and the
packages of the load learn that it ends. -/
def tellsRefusal (p code : Nat) (head : List Nat) (t : State) : Prop :=
  ∃ pre, t.outbox = pre ++ [.imageRefused p code (secNat head 8 8), .hub 36 64 [code, p]]

/-- IMAGE_LOAD (R31, R355, R356, R359, R370): without an image, or at the quiesce point of the partition, an image that passes is staged;
one that fails is refused with its code and the job ends; before that point the job is held, and at it a held job is the load; a second
job is refused BUSY. -/
def ImageLoad : Prop := ∀ (s : State) (j : HostJob) (head : List Nat) (secs : List (List Nat)),
  (LoadOk s j → s.isSealed = false ∨ s.atQuiesce = true → dfld j.raw 16 0 64 = secNat head 16 8 → verdict s j head secs = 0 →
    ∃ t, exec (.imageLoad head secs) s = .next t ∧ stagedAs t = some (j.ring, j.id, head, secs) ∧ t.imageState = 2 ∧
      t.cores = s.cores ∧ memKept s t) ∧
  (LoadOk s j → s.isSealed = false ∨ s.atQuiesce = true → dfld j.raw 16 0 64 = secNat head 16 8 → verdict s j head secs ≠ 0 →
    ∃ t, exec (.imageLoad head secs) s = .next t ∧ t.img.staged = none ∧ t.imageState = (if s.isSealed = true then 5 else 0) ∧
      t.rdF .hubImageStatus 0 0 8 8 = verdict s j head secs % 2 ^ 8 ∧ counted .hubImageRefuseCnt 0 1 s t ∧
      (∀ k ∈ t.host.jobs, k.id ≠ j.id) ∧ tellsRefusal s.pkg (verdict s j head secs) head t ∧ t.cores = s.cores ∧ memKept s t) ∧
  (LoadOk s j → s.isSealed = true → s.atQuiesce = false → ∃ t, exec (.imageLoad head secs) s = .next t ∧
    t.img = { s.img with held := some (j.ring, j.id) } ∧ t.regs = s.regs ∧ t.cores = s.cores ∧ memKept s t) ∧
  (s.hub.h1Down = false → s.pwrState = 3 → s.img.staged = none → s.img.held = some (j.ring, j.id) → s.hostJob j.id = some j →
    j.ring < 16 → s.atQuiesce = true → dfld j.raw 16 0 64 = secNat head 16 8 → (s.checkImage head secs (imgDigest head)).2 = 0 →
    ∃ t, exec (.imageLoad head secs) s = .next t ∧ stagedAs t = some (j.ring, j.id, head, secs) ∧ t.img.held = none ∧
      t.imageState = 2 ∧ t.cores = s.cores ∧ memKept s t) ∧
  (s.hub.h1Down = false → s.pwrState = 3 → s.img.held = none → s.nextJob jobImage = some j → s.img.staged.isSome = true →
    ∃ t, exec (.imageLoad head secs) s = .next t ∧ t.img = s.img ∧ counted .hubImageRefuseCnt 0 1 s t ∧
      t.rdF .hubImageStatus 0 0 8 8 = 0x0F ∧ (∀ k ∈ t.host.jobs, k.id ≠ j.id) ∧ t.cores = s.cores ∧ memKept s t)

/-- READY (R31, R355): a package that does not lead stages the image and reports; at the lead a refusal ends the load and is told to the
host with the core that was fenced, if one was (R357), and the last READY sends SEAL. -/
def Ready : Prop := ∀ (s : State) (lead : Nat) (digest head : List Nat) (secs : List (List Nat)),
  (s.pwrState = 3 → s.loading = false → s.isSealed = false ∨ s.imageState = 5 → (s.checkImage head secs digest).2 = 0 →
    ∃ t, exec (.ready none lead digest head secs) s = .next t ∧ stagedAs t = some (16, 0, head, secs) ∧ t.imageState = 2 ∧
      t.outbox = s.outbox ++ [.hub 34 lead [s.pkg, 0]] ∧ t.cores = s.cores ∧ memKept s t) ∧
  (s.pwrState = 3 → s.loading = false → s.isSealed = false ∨ s.imageState = 5 → (s.checkImage head secs digest).2 ≠ 0 →
    ∃ t, exec (.ready none lead digest head secs) s = .next t ∧ t.img.staged = none ∧ counted .hubImageRefuseCnt 0 1 s t ∧
      t.outbox = s.outbox ++ [.hub 34 lead [s.pkg, (s.checkImage head secs digest).2]] ∧ t.cores = s.cores ∧ memKept s t) ∧
  (∀ x p, s.img.staged = some x → x.ring < 16 → x.sealing = false →
    ∃ t y, exec (.ready (some (p, 0)) lead digest head secs) s = .next t ∧ t.img.staged = some y ∧ (p, 0) ∈ y.ready ∧
      (y.sealing = true ↔ ∀ q ∈ s.stagedPkgs x, q = p ∨ ∃ r ∈ x.ready, r.1 = q) ∧ t.regs = s.regs ∧ t.cores = s.cores ∧ memKept s t) ∧
  (∀ x p code g, s.img.staged = some x → x.ring < 16 → x.sealing = false → 0 < code → code < 256 →
    ∃ t, exec (.ready (some (p, code + 256 * (g + 1))) lead digest head secs) s = .next t ∧ t.img.staged = none ∧
      .fencedCore p g ∈ t.outbox ∧ tellsRefusal p code x.head t ∧ t.cores = s.cores ∧ memKept s t) ∧
  (∀ x p code, s.img.staged = some x → x.ring < 16 → x.sealing = false → 0 < code → code < 256 →
    ∃ t, exec (.ready (some (p, code)) lead digest head secs) s = .next t ∧ t.img.staged = none ∧
      t.imageState = (if s.isSealed = true then 5 else 0) ∧ (p = s.pkg → counted .hubImageRefuseCnt 0 1 s t) ∧
      (p ≠ s.pkg → t.rd .hubImageRefuseCnt 0 0 = s.rd .hubImageRefuseCnt 0 0) ∧ tellsRefusal p code x.head t ∧
      t.cores = s.cores ∧ memKept s t)

/-- SEAL (R355, R360, R361): the package takes the tables of the staged image, its identifier and digest, and begins a step anew
after a warm start or with RESET_STEP; REGLOAD comes on top. The last acknowledgement ends the job. -/
def Seal : Prop := ∀ (s : State) (lead : Nat) (slots : List (Nat × Nat × SlotDecl)) (sweep : List Nat),
  (∀ x, s.img.staged = some x → (16 ≤ x.ring ∨ x.sealing = true) → secBytes x.head x.secs s.pkg 0x10 0 = none →
    SMap.wf (fun _ => Core.reset) s.cores = true →
    ∃ t, exec (.seal none lead slots sweep) s = .next t ∧ t.img.staged = none ∧ t.imageState = 3 ∧
      t.img.ranks = rankTable x.head ((secBytes x.head x.secs s.pkg 2 0).getD []) ∧ t.boot.warm = false ∧
      t.rd .hubImageId 0 0 = secNat x.head 8 8 % 2 ^ 64 ∧
      t.rd .hubImageDigest 0 0 = leNat ((imgDigest x.head).take 8) % 2 ^ 64 ∧
      (∀ g, (t.core g).step = if (s.boot.warm || (secNat x.head 6 1).testBit 0) = true then 0 else (s.core g).step) ∧
      t.saves = []) ∧
  (∀ p jid r, s.img.quiesce = some (r, jid) → s.imageState = 3 → (∃ q ∈ s.img.packages, q ≠ p ∧ q ∉ s.img.sealed) →
    ∃ t, exec (.seal (some p) lead slots sweep) s = .next t ∧ p ∈ t.img.sealed ∧ t.img.quiesce = s.img.quiesce ∧ t.regs = s.regs ∧
      t.cores = s.cores ∧ memKept s t) ∧
  (∀ p jid r, s.img.quiesce = some (r, jid) → s.imageState = 3 → (∀ q ∈ s.img.packages, q = p ∨ q ∈ s.img.sealed) →
    ∃ t, exec (.seal (some p) lead slots sweep) s = .next t ∧ t.img.quiesce = none ∧ t.img.sealed = [] ∧
      (∀ k ∈ t.host.jobs, k.id ≠ jid) ∧ t.cores = s.cores ∧ memKept s t)

/-- A load that ends before SEAL (R356, R357): nothing stays staged; with `own`, this package refuses: the code and the count stand in
its registers. -/
def loadEnds (c : Instr) (s : State) (own : Prop) (code : Nat) : Prop :=
  ∃ t, exec c s = .next t ∧ t.img.staged = none ∧ t.imageState = (if s.isSealed = true then 5 else 0) ∧
    (own → t.rdF .hubImageStatus 0 0 8 8 = code ∧ counted .hubImageRefuseCnt 0 1 s t) ∧
    (¬ own → t.rdF .hubImageStatus 0 0 8 8 = s.rdF .hubImageStatus 0 0 8 8 ∧
      t.rd .hubImageRefuseCnt 0 0 = s.rd .hubImageRefuseCnt 0 0) ∧ t.cores = s.cores ∧ memKept s t

/-- ABORT (R357) and STAGING_TIMEOUT (R482, code 0x0E). -/
def AbortAndTimeout : Prop := ∀ (s : State) (x : Staged) (code pkg : Nat), s.img.staged = some x → x.sealing = false →
  loadEnds (.abort code pkg) s (pkg % 64 = s.pkg) (code % 2 ^ 8) ∧
  (x.ring < 16 → pkg ∈ s.stagedPkgs x → (∀ r ∈ x.ready, r.1 ≠ pkg) → loadEnds (.stagingTimeout pkg) s (pkg = s.pkg) 0x0E)

/-- QUIESCE (R339, R359): the lead takes its job in hand and the package begins to quiesce, or the job ends at once when there is nothing
to quiesce (a job that comes before the other packages are quiet waits); the lead's order; the end of the quiesce point. -/
def Quiesce : Prop := ∀ (s : State) (j : HostJob) (g : Nat),
  (s.nextJob jobQuiesce = some j → s.img.quiesce = none → s.hub.h1Down = false → s.isSealed = true → s.imageState = 3 →
    ∃ t, exec (.quiesce (0, g)) s = .next t ∧ t.imageState = 4 ∧ t.img.quiesce = some (j.ring, j.id) ∧ t.img.quiet = [] ∧
      t.outbox = s.outbox ++ s.peers.map (fun p => .hub 38 p [s.gateway.getD 0]) ∧
      regsBut [regKey .hubImageStatus 0 0] s t ∧ t.cores = s.cores ∧ memKept s t) ∧
  (s.nextJob jobQuiesce = some j → s.imageState = 5 → s.img.point = false → exec (.quiesce (0, g)) s = .next s) ∧
  (s.nextJob jobQuiesce = some j → s.img.quiesce = none → s.hub.h1Down = false → s.isSealed = false ∨ s.imageState = 5 →
    (s.imageState = 5 → s.img.point = true) → ∃ t, exec (.quiesce (0, g)) s = .next t ∧ (∀ k ∈ t.host.jobs, k.id ≠ j.id) ∧ t.img = s.img ∧ t.cores = s.cores ∧ memKept s t) ∧
  (s.imageState = 3 → ∃ t, exec (.quiesce (1, g)) s = .next t ∧ t.imageState = 4 ∧ t.rdF .hubImageStatus 0 0 16 2 = g % 4 ∧
    regsBut [regKey .hubImageStatus 0 0] s t ∧ t.cores = s.cores ∧ memKept s t) ∧
  (s.imageState = 5 → ∃ t, exec (.quiesce (2, g)) s = .next t ∧ t.imageState = 3 ∧
    t.img = { s.img with point := false } ∧ regsBut [regKey .hubImageStatus 0 0] s t ∧ t.cores = s.cores ∧ memKept s t)

/-- QUIET (R39, R358, R359): a package that meets every condition is quiet, and every ledger that does not add up is recorded; the
last report ends the job: the partition is at its quiesce point, and the lead says so. -/
def Quiet : Prop := ∀ (s : State),
  (s.imageState = 4 → s.quiesced = true → ∃ t rs, exec (.quiet none) s = .next t ∧ t.imageState = 5 ∧ t.fltIn = s.fltIn ++ rs ∧
    rs.length = s.ledgers.length ∧ (∀ r ∈ rs, r.kind = .hubConservation) ∧ t.cores = s.cores ∧ memKept s t) ∧
  (∀ p r jid, s.img.quiesce = some (r, jid) → (∀ q ∈ s.img.packages, q = p ∨ q ∈ s.img.quiet) →
    ∃ t, exec (.quiet (some p)) s = .next t ∧ t.img.quiesce = none ∧ t.img.quiet = [] ∧ t.img.point = true ∧
      (∀ q ∈ s.peers, .hub 52 q [] ∈ t.outbox) ∧ (∀ k ∈ t.host.jobs, k.id ≠ jid) ∧ t.cores = s.cores ∧ memKept s t)

/-- LEAD_TAKEOVER (R339): a gateway without an answer from the lead says so to every gateway that it reaches; the lowest that reaches
more than half takes the lead and tells the others; what a gateway announces is noted. -/
def LeadTakeover : Prop := ∀ (s : State) (reach others : List Nat), s.isSealed = true →
  (∀ me, s.gateway = some me → s.isLead = false → s.mostly reach = true → (∀ g ∈ others, me ≤ g) → me < 4 →
    ∃ t, exec (.leadTakeover none reach others) s = .next t ∧ t.rdF .hubImageStatus 0 0 16 2 = me ∧
      t.outbox = s.outbox ++ (s.img.gateways.filter (fun p => p.1 != s.pkg && reach.contains p.1)).map (fun p => .hub 48 p.1 [me])
        ++ s.peers.map (fun p => .hub 32 p [me]) ∧ regsBut [regKey .hubImageStatus 0 0] s t ∧
      t.cores = s.cores ∧ memKept s t) ∧
  (∀ g, s.img.gateways.any (fun p => p.2 == g) = true → ∃ t, exec (.leadTakeover (some g) reach others) s = .next t ∧
    t.rdF .hubImageStatus 0 0 16 2 = g % 4 ∧ onlyRegs [regKey .hubImageStatus 0 0] s t)

/-- HUB_HEARTBEAT (R339, R411): to the lead, and the lead's answer. -/
def HubHeartbeat : Prop := ∀ (s : State), s.isSealed = true →
  (∀ p, s.leadPkg = some p → p ≠ s.pkg → exec (.hubHeartbeat none) s = .next (s.send (.hub 30 p [s.pkg]))) ∧
  (∀ p, s.isLead = true → exec (.hubHeartbeat (some p)) s = .next (s.send (.hub 31 p [])))

/-- PACKAGE_LOST (R339, R409, R411): the loss is noted and the partition will stop at its restore generation; the lead, when it finds
the loss, records it and lists the shards that still have a copy; a snapshot of which the lost package has not stored its pages is lost
with it, as the lead decides. -/
def PackageLost : Prop := ∀ (s : State) (p : Nat) (reach : List Nat), p ∈ s.img.packages → p ≠ s.pkg → p ∉ s.img.lost →
  (s.snap = none → ∃ t, exec (.packageLost p true reach) s = .next t ∧ t.img.lost = s.img.lost ++ [p] ∧ t.flt.stopAtGen = true ∧
    t.regs = s.regs ∧ t.cores = s.cores ∧ memKept s t) ∧
  (s.snap = none → s.isLead = true → p ∉ reach → s.linksDown p = true → s.mostly reach = true →
    ∃ t r rs, exec (.packageLost p false reach) s = .next t ∧ t.img.lost = s.img.lost ++ [p] ∧ t.flt.stopAtGen = true ∧
      t.fltIn = s.fltIn ++ r :: rs ∧ r.kind = .fltPackageLost ∧ (∀ q ∈ rs, q.kind = .fltShardLost) ∧
      (s.ckptMode = false → ∃ ls, .shardsLeft ls ∈ t.outbox ∧ ∀ i, i ∈ ls ↔ ∃ x, s.img.shards[i]? = some x ∧
        ∃ q ∈ x.ranks.filterMap s.rankAt, q.1 ≠ p ∧ q.1 ∉ s.img.lost) ∧
      t.regs = s.regs ∧ t.cores = s.cores ∧ memKept s t) ∧
  (∀ q, s.snap = some q → s.isLead = false ∨ p ∈ q.stored → ∃ t, exec (.packageLost p true reach) s = .next t ∧ t.snap = s.snap ∧
    t.img.lost = s.img.lost ++ [p] ∧ t.flt.stopAtGen = true ∧ t.regs = s.regs ∧ t.cores = s.cores ∧ memKept s t) ∧
  (∀ q, s.snap = some q → s.isLead = true → p ∉ q.stored → p ∉ reach → s.linksDown p = true → s.mostly reach = true →
    ∃ t, exec (.packageLost p false reach) s = .next t ∧ t.snap = none ∧ t.rdF .hubCkptStatus 0 0 48 1 = 0 ∧
      (∀ k ∈ s.peers, .hub 51 k [q.step] ∈ t.outbox) ∧ t.img.lost = s.img.lost ++ [p] ∧ t.flt.stopAtGen = true)

end Sys2Proof.Claims

/-- IMAGE_LOAD, READY, SEAL, ABORT and STAGING_TIMEOUT. -/
def Obligations.ImageLoadCommands : Prop :=
  Sys2Proof.Claims.ImageLoad ∧ Sys2Proof.Claims.Ready ∧ Sys2Proof.Claims.Seal ∧ Sys2Proof.Claims.AbortAndTimeout

/-- QUIESCE, QUIET, LEAD_TAKEOVER, HUB_HEARTBEAT and PACKAGE_LOST. -/
def Obligations.PartitionCommands : Prop :=
  Sys2Proof.Claims.Quiesce ∧ Sys2Proof.Claims.Quiet ∧ Sys2Proof.Claims.LeadTakeover ∧ Sys2Proof.Claims.HubHeartbeat ∧
  Sys2Proof.Claims.PackageLost
namespace Sys2Proof.Claims

open Machine

/-! ## Rings (R364, R368, R369, R374, R375, R385) -/

/-- One entry has gone to the link: 32 bytes at the tail of completion ring `n`, its vector behind it, and the tail has advanced. -/
def entryWritten (n : Nat) (s t : State) : Prop :=
  (∃ b : List Nat, b.length = 32 ∧ t.outbox = s.outbox ++ [.pcieWrite (s.rd .hostCqBase 0 n + 32 * (s.rdF .hostCqTail 0 n 0 16
      % s.ringEntries .hostCqCfg n)) b false false, .msix (max 3 (s.rdF .hostCqCfg 0 n 8 6))]) ∧
  t.rd .hostCqTail 0 n = (s.rdF .hostCqTail 0 n 0 16 % s.ringEntries .hostCqCfg n + 1) % s.ringEntries .hostCqCfg n ∧
  regsBut [regKey .hostCqTail 0 n] s t ∧ t.cores = s.cores ∧ memKept s t

/-- A completion (R374): written to its ring when it has room and nothing waits before it; else it waits, and its ring counts. -/
def Completion : Prop := ∀ (s : State) (n jid status op value sq : Nat) (subst : Bool), s.attached = true → s.host.held = [] →
  (s.ringRoom (cqRegs n) = true → entryWritten n s (s.complete n jid status op value subst sq)) ∧
  (s.ringRoom (cqRegs n) = false → (s.complete n jid status op value subst sq).host.held.length = 1 ∧
    counted .hostRingFullCnt 0 1 s (s.complete n jid status op value subst sq) ∧
    (s.complete n jid status op value subst sq).outbox = s.outbox)

/-- HOST_SQ_TAIL (R17, R41, R364, R368, R369, R385): the index is bits [15:0]; the tail of an enabled ring is written and the next job
is fetched, or waits in host memory while H0 does not fetch; a tail outside the ring is ignored and counted. -/
def HostSqTail : Prop := ∀ (s : State) (n value raw : Nat), n < 16 → value < 2 ^ 16 →
  (∀ high jobs, exec (.hostSqTail n (value + 2 ^ 16 * high) jobs) s = exec (.hostSqTail n value jobs) s) ∧
  ((s.rd .hostSqCfg 0 n).testBit 5 = true → value < s.ringEntries .hostSqCfg n →
    (∃ t, exec (.hostSqTail n value []) s = .next t ∧ t.rd .hostSqTail 0 n = value ∧ regsBut [regKey .hostSqTail 0 n] s t ∧
      t = { s with regs := t.regs, host := { s.host with queued := t.host.queued } }) ∧
    (s.attached = false ∨ s.hub.h1Down = true → ∃ t, exec (.hostSqTail n value [raw]) s = .next t ∧
      t.rd .hostSqTail 0 n = value ∧ SMap.get (fun _ => []) t.host.queued n = [raw] ∧ regsBut [regKey .hostSqTail 0 n] s t ∧
      t = { s with regs := t.regs, host := { s.host with queued := t.host.queued } }) ∧
    (s.attached = true → s.hub.h1Down = false → s.rdF .hostSqHead 0 n 0 16 % s.ringEntries .hostSqCfg n ≠ value →
      0x81 ≤ dfld raw 0 0 8 → dfld raw 0 0 8 ≤ 0x84 → ∃ t, exec (.hostSqTail n value [raw]) s = .next t ∧
        t.rd .hostSqTail 0 n = value ∧ t.host.jobs = s.host.jobs ++ [⟨n, raw, s.host.serial + 1, false, 0, 0, 0⟩] ∧
        t.rdF .hostSqHead 0 n 0 16
          = (s.rdF .hostSqHead 0 n 0 16 % s.ringEntries .hostSqCfg n + 1) % s.ringEntries .hostSqCfg n % 2 ^ 16 ∧
        t.cores = s.cores ∧ memKept s t)) ∧
  ((s.rd .hostSqCfg 0 n).testBit 5 = false ∨ s.ringEntries .hostSqCfg n ≤ value →
    ∃ t, exec (.hostSqTail n value [raw]) s = .next t ∧ counted .hostViolCnt 0 1 s t ∧
      regsBut [regKey .hostViolCnt 0 0] s t ∧ t.host.jobs = s.host.jobs ∧ t.cores = s.cores ∧ memKept s t)

/-- A head write of a ring (R17, R368, R385): the index is bits [15:0]. -/
def headWrite (c : Nat → Instr) (r : RingRegs) (value : Nat) (s : State) : Prop :=
  (∀ high, exec (c (value + 2 ^ 16 * high)) s = exec (c value) s) ∧
  ((s.rd r.cfg 0 r.ix).testBit 5 = true → value < s.ringEntries r.cfg r.ix →
    ringUsed (s.ringEntries r.cfg r.ix) (s.rdF r.head 0 r.ix 0 16) value
      ≤ ringUsed (s.ringEntries r.cfg r.ix) (s.rdF r.head 0 r.ix 0 16) (s.rdF r.tail 0 r.ix 0 16) →
    ∃ t, exec (c value) s = .next t ∧ t.rd r.head 0 r.ix = value ∧ t.cores = s.cores ∧ memKept s t ∧
      (s.host.held = [] → onlyRegs [regKey r.head 0 r.ix] s t)) ∧
  ((s.rd r.cfg 0 r.ix).testBit 5 = false ∨ s.ringEntries r.cfg r.ix ≤ value →
    ∃ t, exec (c value) s = .next t ∧ counted .hostViolCnt 0 1 s t ∧ regsBut [regKey .hostViolCnt 0 0] s t ∧ t.cores = s.cores ∧
      memKept s t)

/-- HOST_CQ_HEAD and HOST_EVQ_HEAD. -/
def Heads : Prop := ∀ (s : State) (n value : Nat), n < 16 → value < 2 ^ 16 →
  headWrite (.hostCqHead n) (cqRegs n) value s ∧ headWrite .hostEvqHead evqRegs value s

/-- HOST_WIN_CFG (R365): the address or the configuration of a window that is not in use is written; one in use is kept, counted. -/
def HostWinCfg : Prop := ∀ (s : State) (w value : Nat) (cfg : Bool), w < 64 → value < 2 ^ 64 →
  ((s.rd .hostWinCfg 0 w).testBit 0 = false ∨ s.session = 1 ∨ (cfg = true ∧ value.testBit 0 = false) →
    ∃ t, exec (.hostWinCfg w value cfg) s = .next t ∧
      (cfg = true → t.rd .hostWinCfg 0 w = bitsOf value 0 4 + bitsOf value 12 27 * 2 ^ 12) ∧
      (cfg = false → t.rd .hostWinAddr 0 w = bitsOf value 12 52 * 2 ^ 12) ∧
      onlyRegs [regKey (if cfg then .hostWinCfg else .hostWinAddr) 0 w] s t) ∧
  ((s.rd .hostWinCfg 0 w).testBit 0 = true → s.session ≠ 1 → ¬(cfg = true ∧ value.testBit 0 = false) →
    ∃ t, exec (.hostWinCfg w value cfg) s = .next t ∧ counted .hostViolCnt 0 1 s t ∧ regsBut [regKey .hostViolCnt 0 0] s t ∧
      t.cores = s.cores ∧ memKept s t)

/-- HOST_RING_CFG (R368, R386): base and configuration of a ring that is off are written; a ring that is turned off starts anew; one
that is on keeps them, counted. -/
def HostRingCfg : Prop := ∀ (s : State) (kind n value : Nat) (r : Reg × Reg × Reg × Reg × Nat), kind < 3 → n < 16 → value < 2 ^ 64 →
  r = ringKind kind n →
  ((s.rd r.1 0 r.2.2.2.2).testBit 5 = false → ∃ t, exec (.hostRingCfg kind n value true) s = .next t ∧
    t.rd r.2.1 0 r.2.2.2.2 = bitsOf value 12 52 * 2 ^ 12 ∧ onlyRegs [regKey r.2.1 0 r.2.2.2.2] s t) ∧
  ((s.rd r.1 0 r.2.2.2.2).testBit 5 = false → ∃ t, exec (.hostRingCfg kind n value false) s = .next t ∧
    t.rd r.1 0 r.2.2.2.2
      = ringLog value + bitsOf value 5 1 * 32 + (if kind = 1 then max 3 (bitsOf value 8 6) * 256 else 0) ∧
    t.cores = s.cores ∧ memKept s t) ∧
  ((s.rd r.1 0 r.2.2.2.2).testBit 5 = true → value.testBit 5 = false → ∃ t, exec (.hostRingCfg kind n value false) s = .next t ∧
    (t.rd r.1 0 r.2.2.2.2).testBit 5 = false ∧ t.rd r.2.2.1 0 r.2.2.2.2 = 0 ∧ t.rd r.2.2.2.1 0 r.2.2.2.2 = 0 ∧
    t.cores = s.cores ∧ memKept s t) ∧
  (∀ base, (s.rd r.1 0 r.2.2.2.2).testBit 5 = true → value.testBit 5 = true ∨ base = true → ∃ t, exec (.hostRingCfg kind n value base) s = .next t ∧
    counted .hostViolCnt 0 1 s t ∧ regsBut [regKey .hostViolCnt 0 0] s t ∧ t.cores = s.cores ∧ memKept s t)

/-! ## Jobs (R369 to R372, R376, R377) -/

/-- The gateway has no STEP job in progress and takes its next one in hand. -/
abbrev StepTake (s : State) (j : HostJob) : Prop :=
  s.host.step = none ∧ s.host.jobs.find? (fun j => dfld j.raw 0 0 8 == jobStep) = some j ∧ s.waitsHolder = false ∧
    s.imageState ≠ 4 ∧ (s.imageState = 5 → s.img.point = true) ∧ s.img.held = none ∧ s.img.staged = none ∧ s.hub.h1Down = false

/-- What the list address of a STEP job counts: its low bits are not zero (R370). -/
def listSeen (s : State) (raw : Nat) : State := if dfld raw 24 0 64 % 32 = 0 then s else s.hostViol 24 (dfld raw 24 0 64)

/-- STEP (R370, R371): a job that fails a check ends with its status; a job with inputs reads its list; one without writes the
learning rate in every working core and starts their step. While another gateway holds a STEP job, or the partition is not yet at its
quiesce point, the job waits (R359, R377). -/
def Step : Prop := ∀ (s : State) (j : HostJob),
  (s.host.step = none → s.host.jobs.find? (fun j => dfld j.raw 0 0 8 == jobStep) = some j →
    s.waitsHolder = true ∨ s.imageState = 4 ∨ (s.imageState = 5 ∧ s.img.point = false) ∨ s.loading = true →
    exec .step s = .next s) ∧
  (StepTake s j →
  (∀ st v, s.stepCheck j.raw = some (st, v) →
    exec .step s = .next ((if st = 0x42 then (listSeen s j.raw).hostViol 24 (dfld j.raw 24 0 64)
      else listSeen s j.raw).finishJob j.id st v).fetchMore) ∧
  (s.stepCheck j.raw = none → dfld j.raw 20 0 32 ≠ 0 → ∃ t r, exec .step s = .next t ∧ t.host.reads = s.host.reads ++ [r] ∧
    r.kind = .list ∧ r.addr = dfld j.raw 24 0 64 / 32 * 32 ∧ r.left = 32 * dfld j.raw 20 0 32 ∧
    t.host.step.map (fun x => (x.ring, x.raw, x.id)) = some (j.ring, j.raw, j.id) ∧ t.cores = s.cores ∧ memKept s t) ∧
  (s.stepCheck j.raw = none → dfld j.raw 20 0 32 = 0 → s.img.packages = [s.pkg] →
    (∀ g ∈ s.workers, s.home g = g ∧ SigOk s g 160) → s.jobOpenTo j.id s.pkg = false →
    ∃ t, exec .step s = .next t ∧ t.host.step.map (fun x => (x.raw, x.id, x.started)) = some (j.raw, j.id, [s.pkg]) ∧
      (∀ g ∈ s.workers, t.rdF .coreOptLr g 0 0 32 = dfld j.raw 16 0 32 ∧
        t.tmbCount g s.startTmb = (s.tmbCount g s.startTmb + 1) % 2 ^ 48) ∧
      coresBut s.workers s t ∧ memKept s t))

/-- COPY_IN (R369, R370): the lines of the next job are read from host memory; without lines it completes; outside every window it
ends with its status. -/
def CopyIn : Prop := ∀ (s : State) (j : HostJob), s.nextJob 0x83 = some j → s.attached = true → s.hub.h1Down = false →
  (∀ a, copyLines j.raw ≠ 0 → s.copyCheck j.raw 2 = .ok a → ∃ t r, exec .copyIn s = .next t ∧ t.host.reads = s.host.reads ++ [r] ∧
    r.kind = .copyIn j.id ∧ r.addr = dfld j.raw 8 0 64 / 128 * 128 ∧ r.left = 128 * copyLines j.raw ∧ r.dst = a ∧
    r.tag = dfld j.raw 28 0 16 ∧ t.outbox = s.outbox ++ [.pcieRead r.addr r.left r.serial] ∧ t.cores = s.cores ∧ memKept s t) ∧
  (copyLines j.raw = 0 → exec .copyIn s = .next (s.copyRefuse j stDone)) ∧
  (∀ st, copyLines j.raw ≠ 0 → s.copyCheck j.raw 2 = .error st → exec .copyIn s = .next (s.copyRefuse j st))

/-- COPY_OUT (R369, R370): a job without lines completes; outside every window, or at an address that is none, it ends with its
status. -/
def CopyOutEnds : Prop := ∀ (s : State) (j : HostJob), s.host.jobs.find? (fun j => dfld j.raw 0 0 8 == 0x84) = some j →
  s.hub.h1Down = false → j.begun = false →
  (copyLines j.raw = 0 → exec .copyOut s = .next (s.copyRefuse j stDone)) ∧
  (∀ st, copyLines j.raw ≠ 0 → s.copyCheck j.raw 1 = .error st → exec .copyOut s = .next (s.copyRefuse j st))

/-- COPY_OUT (R369, R370, R376): up to 32 lines of this package that are readable at once go to the link as one write, and the job
completes behind it. The enables of Device Control are free (log entry 120). -/
def CopyOut : Prop := ∀ (s : State) (j : HostJob) (a w : Nat), s.host.jobs.find? (fun j => dfld j.raw 0 0 8 == 0x84) = some j →
  s.hostJob j.id = some j → s.hub.h1Down = false → s.attached = true → j.begun = false → j.next = 0 → j.stored = 0 → j.status = 0 →
  copyLines j.raw ≠ 0 → copyLines j.raw ≤ 32 → s.copyCheck j.raw 1 = .ok a → addrPkg a = s.pkg →
  LinesClear s (jobUnit j.id) (s.linesOf a (128 * copyLines j.raw)) →
  s.winFor (dfld j.raw 8 0 64 / 128 * 128) (128 * copyLines j.raw) 1 = some w → (s.winOf w).2.testBit 3 = false →
  s.winOk w (dfld j.raw 8 0 64 / 128 * 128 - (s.winOf w).1) (s.bytesAt a (128 * copyLines j.raw)).length 1 = true →
  s.jobOpen j.id = false → s.host.reads = [] →
  ∃ t post, exec .copyOut s = .next t ∧ t.outbox = s.outbox ++ [.pcieWrite
      ((s.winOf w).1 + (dfld j.raw 8 0 64 / 128 * 128 - (s.winOf w).1)) (s.bytesAt a (128 * copyLines j.raw))
      ((s.rd .hostCtl 0 0).testBit 0 && Config.devCtl 0 s.hubTime) ((s.rd .hostCtl 0 0).testBit 1 && Config.devCtl 1 s.hubTime)]
      ++ post ∧
    (∀ k ∈ t.host.jobs, k.id ≠ j.id) ∧ t.cores = s.cores ∧ memKept s t

/-- HOST_CQ_POST (R372, R373): the step completion that a STEP job waits for ends it; one that no job here waits for goes to the gateway
that holds the job, or is posted with status 0x49; kinds 1 and 2 are posted with their step, and a kind above 2 counts and reads as 2.
While the spool's completion area is full no post is accepted (R381). -/
def HostCqPost : Prop := ∀ (s : State) (n value : Nat) (subst : Bool), n < 16 → value < 2 ^ 64 → s.gateway.isSome = true →
  (s.postWaits = true → exec (.hostCqPost n value subst) s = .next s) ∧ (s.postWaits = false →
  (∀ j, bitsOf value 56 8 = 0 → s.host.step = some j → dfld j.raw 8 0 48 = bitsOf value 0 48 →
    ∃ t, exec (.hostCqPost n value subst) s = .next t ∧ t.host.step = none ∧ t.cores = s.cores ∧ memKept s t) ∧
  (bitsOf value 56 8 = 0 → (∀ j, s.host.step = some j → dfld j.raw 8 0 48 ≠ bitsOf value 0 48) →
    (s.host.holder = none →
      exec (.hostCqPost n value subst) s = .next (s.complete n 0 0x49 jobStep (bitsOf value 0 48) subst 0)) ∧
    (∀ g p, s.host.holder = some g → s.img.gateways.find? (fun x => x.2 == g) = some (p, g) →
      exec (.hostCqPost n value subst) s = .next (s.request 0 .post p 0 ⟨3, 0, ctrlAddr p (Reg.hostCqPost.offset 0 n),
        lineBody (leBytes 8 value) (if subst then 1 else 0) 0⟩ 0))) ∧
  (bitsOf value 56 8 = 1 → exec (.hostCqPost n value subst) s = .next (s.complete n 0 stDone 0xF0 (bitsOf value 0 48) subst 0)) ∧
  (bitsOf value 56 8 = 2 → exec (.hostCqPost n value subst) s = .next (s.complete n 0 stDone 0xF0 (bitsOf value 0 48) subst 0)) ∧
  (2 < bitsOf value 56 8 → exec (.hostCqPost n value subst) s
    = .next ((s.hostViol 0 (bitsOf value 56 8)).complete n 0 stDone 0xF0 (bitsOf value 0 48) subst 0)))

/-- The gateways that can be the step gateway: those attached. -/
def attachedGateways (s : State) (me : Nat) (att : List Nat) : List Nat :=
  (if s.attached then [me] else []) ++ att.filter (fun g => s.img.gateways.any (fun p => p.2 == g && g != me))

/-- The holder of a STEP job is in a package that is lost, and the partition has not stopped: no other gateway takes a job (R377). -/
abbrev HolderLost (s : State) (g : Nat) : Prop :=
  (s.img.gateways.any (fun p => p.2 == g && s.img.lost.contains p.1)) = true ∧ s.halts = false

/-- STEP_GATEWAY_SELECT (R377): the lowest attached gateway, unless the present one is attached and a STEP job is in progress; a job
of a gateway that is lost stays in progress until the partition has stopped. -/
def StepGatewaySelect : Prop := ∀ (s : State) (att : List Nat) (holder : Option Nat) (me : Nat), s.gateway = some me →
  (s.host.step = none → holder = none → (∀ g, s.host.holder = some g → ¬ HolderLost s g) →
    ∃ t, exec (.stepGatewaySelect att holder) s = .next t ∧ t.host.holder = none ∧
    (attachedGateways s me att = [] → t.host.stepGw = none) ∧
    (attachedGateways s me att ≠ [] → ∃ g ∈ attachedGateways s me att, t.host.stepGw = some g ∧
      ∀ x ∈ attachedGateways s me att, g ≤ x) ∧ t.regs = s.regs ∧ t.cores = s.cores ∧ memKept s t) ∧
  (∀ g, holder = none → s.host.holder = some g → HolderLost s g → ∃ t, exec (.stepGatewaySelect att holder) s = .next t ∧
    t.host.holder = some g ∧ t.regs = s.regs ∧ t.cores = s.cores ∧ memKept s t) ∧
  (∀ g, s.host.stepGw = some g → g ∈ attachedGateways s me att →
    holder.isSome = true ∨ (s.host.step.isSome = true ∧ ∀ h, s.host.holder = some h → ¬ HolderLost s h) →
    ∃ t, exec (.stepGatewaySelect att holder) s = .next t ∧ t.host = { s.host with holder := holder } ∧
      t = { s with host := t.host })

/-! ## Reads of host memory (R297, R378, R379, R385) -/

/-- PROBE (R378): a write that no read stands behind is probed, counted. -/
def Probe : Prop := ∀ (s : State), s.attached = true → s.host.doubt ≠ [] →
  s.host.reads.all (fun r => decide (r.upto < s.host.doubt.foldl (fun m w => max m w.serial) 0)) = true →
  ∃ t r, exec .probe s = .next t ∧ t.host.reads = s.host.reads ++ [r] ∧ r.kind = .probe ∧ r.upto = s.host.serial ∧
    counted .hostProbeCnt 0 1 s t ∧ t.outbox = s.outbox ++ [.pcieRead s.flushAddr 8 r.serial] ∧
    regsBut [regKey .hostProbeCnt 0 0] s t ∧ t.cores = s.cores ∧ memKept s t

/-- The writes that a read stands behind are delivered and their retained copies freed. -/
def readEnded (r : HostRd) (s t : State) : Prop :=
  t.host.reads = s.host.reads.filter (fun x => x.serial != r.serial) ∧
  t.host.doubt = s.host.doubt.filter (fun w => decide (r.upto < w.serial)) ∧
  t.host.spool = s.host.spool.filter (fun w => w.torn || decide (r.upto < w.serial)) ∧ t.cores = s.cores ∧ memKept s t

/-- PROBE_READ_DONE (R378, R379), and FLUSH_READ_DONE of a flush, whose answer goes back to the core (R297). -/
def ReadsDone : Prop := ∀ (s : State) (n : Nat) (r : HostRd), s.hostRd n = some r → s.session ≠ 1 →
  (r.kind = .probe → ∃ t, exec (.probeReadDone n) s = .next t ∧ readEnded r s t ∧ t.regs = s.regs) ∧
  (∀ src tx gen core, r.kind = .flush src tx gen core → ∃ t, exec (.flushReadDone n) s = .next t ∧ readEnded r s t ∧
    (localSrc 0 ≤ src → ∃ i, t.prg.inbox = s.prg.inbox ++ [i] ∧ i.kind = 0x0A ∧ i.addr = 0 ∧ i.txn = tx ∧ i.die = src - localSrc 0))

/-- FLUSH_READ_DONE of a reattach (R384): the session is ATTACHED again under the next epoch, and the torn table is empty. -/
def Reattached : Prop := ∀ (s : State) (n : Nat) (r : HostRd), s.hostRd n = some r → s.session = 2 → r.kind = .attach →
  ∃ t, exec (.flushReadDone n) s = .next t ∧ t.session = 0 ∧
    t.rdF .hostSession 0 0 32 16 = (s.rdF .hostSession 0 0 32 16 + 1) % 2 ^ 16 ∧ t.host.torn = [] ∧ t.host.after = [] ∧
    t.host.flushQ = [] ∧ t.cores = s.cores ∧ memKept s t

/-- DMA_READ_COMPLETION (R369, R371, R385): lines of a COPY_IN for this package are written with their tag; a list reaches the STEP
job; an error is counted and ends what the read serves. -/
def DmaReadCompletion : Prop := ∀ (s : State) (n : Nat) (data : List Nat) (r : HostRd), s.hostRd n = some r → s.session ≠ 1 →
  (∀ id, r.kind = .copyIn id → addrPkg r.dst = s.pkg → ∃ t u : State, exec (.dmaReadCompletion n 0 data) s = .next t ∧
    u = { s with host := u.host } ∧
    t.vmem = (u.writeAt hubIsland r.dst (data.take (min data.length r.left)) r.tag false).vmem ∧
    t.stg = (u.writeAt hubIsland r.dst (data.take (min data.length r.left)) r.tag false).stg ∧
    (∀ x ∈ t.host.reads, x.serial = n → x.left = r.left - min data.length r.left ∧ x.left ≠ 0)) ∧
  (∀ j, r.kind = .list → s.host.step = some j → data.length = r.left → ∃ t, exec (.dmaReadCompletion n 0 data) s = .next t ∧
    t.host.step = some { j with inputs := j.inputs ++ inputList (r.left / 32) data, listed := true } ∧ t.regs = s.regs ∧
    t.cores = s.cores ∧ memKept s t) ∧
  (∀ src tx gen, r.kind = .rsp src tx gen → r.left ≤ data.length →
    exec (.dmaReadCompletion n 0 data) s = .next (s.rspDone r src tx gen (some (data.take r.left)))) ∧
  (∀ st src tx gen, st ≠ 0 → r.kind = .rsp src tx gen →
    exec (.dmaReadCompletion n st data) s = .next ((s.dmaErr 8).rspDone r src tx gen none)) ∧
  (∀ st id, st ≠ 0 → r.kind = .copyIn id → exec (.dmaReadCompletion n st data) s
    = .next ((s.dmaErr (if st = 3 then 6 else 5)).readFail r (if st = 3 then 0x44 else 0x43)))

/-- DMA_READ_TIMEOUT (R381, R385): counted, and the read goes out again once, but not while DETACHED; a second one ends the job with
HOST_TIMEOUT. -/
def DmaReadTimeout : Prop := ∀ (s : State) (n : Nat) (r : HostRd), s.hostRd n = some r →
  (r.retried = false → ∃ t, exec (.dmaReadTimeout n) s = .next t ∧ counted .hostDmaErrCnt 0 1 s t ∧
    t.host.reads = s.host.reads.map (fun x => if x.serial = n then { x with retried := true } else x) ∧
    t.outbox = s.outbox ++ (if s.session = 1 then [] else [.pcieRead r.addr r.left r.serial]) ∧
    regsBut [regKey .hostDmaErrCnt 0 0] s t ∧ t.cores = s.cores ∧
    memKept s t) ∧
  (∀ id, r.retried = true → r.kind = .copyIn id →
    exec (.dmaReadTimeout n) s = .next ((s.dmaErr 7).readFail r 0x45)) ∧
  (∀ src tx gen, r.retried = true → r.kind = .rsp src tx gen →
    exec (.dmaReadTimeout n) s = .next ((s.dmaErr 7).rspDone r src tx gen none))

/-! ## Detach and attach (R380 to R384) -/

/-- A session that detaches for a cause (R380, R381). -/
def detaches (c : Instr) (cause : Nat) (s : State) : Prop :=
  (s.session ≠ 1 → ∃ t, exec c s = .next t ∧ t.session = 1 ∧ t.host.cause = cause ∧ t.host.doubt = [] ∧ t.host.after = [] ∧
    t.host.stepGw = none ∧ t.host.wraps = [] ∧ counted .hostDetachCnt 0 1 s t ∧
    t.rd .hostCtl 0 0 = Reg.resetOf .hostCtl 0 ∧ (∀ i, i < 16 → t.rd .hostSqTail 0 i = 0 ∧ t.rd .hostCqTail 0 i = 0) ∧
    t.rdF .hostSession 0 0 32 16 = s.rdF .hostSession 0 0 32 16 ∧ t.cores = s.cores ∧ memKept s t) ∧
  (s.session = 1 → exec c s = .next s)

/-- PERST_N, HOT_RESET, DATA_LINK_DOWN, LINK_DISABLE, BME_CLEAR, DETACH and FUNCTION_LEVEL_RESET, with their causes. -/
def Detaches : Prop := ∀ s : State, detaches .perstN 0 s ∧ detaches .hotReset 0 s ∧ detaches .dataLinkDown 1 s ∧
  detaches .linkDisable 2 s ∧ detaches .bmeClear 3 s ∧ detaches .detach 4 s ∧ detaches .functionLevelReset 5 s

/-- ATTACH (R383, R384): with the session's epoch a detached session replays and issues its flush read; any other is counted. The
link's speed and width are free (log entry 2). -/
def Attach : Prop := ∀ (s : State) (epoch : Nat), epoch < 2 ^ 16 →
  (s.session = 1 → epoch = s.rdF .hostSession 0 0 32 16 → ∃ t r, exec (.attach epoch) s = .next t ∧ t.session = 2 ∧
    t.host.reads = s.host.reads ++ [r] ∧ r.kind = .attach ∧ t.rdF .hostLink 0 0 10 1 = 1 ∧
    regsBut [regKey .hostSession 0 0, regKey .hostLink 0 0] s t ∧ t.cores = s.cores ∧ memKept s t) ∧
  (s.session ≠ 1 ∨ epoch ≠ s.rdF .hostSession 0 0 32 16 → ∃ t, exec (.attach epoch) s = .next t ∧ counted .hostViolCnt 0 1 s t ∧
    t.host = s.host ∧ regsBut [regKey .hostViolCnt 0 0] s t ∧ t.cores = s.cores ∧ memKept s t)

end Sys2Proof.Claims

/-- HOST_SQ_TAIL, HOST_CQ_HEAD, HOST_EVQ_HEAD, HOST_WIN_CFG, HOST_RING_CFG, and how a completion is written. -/
def Obligations.HostRingCommands : Prop :=
  Sys2Proof.Claims.Completion ∧ Sys2Proof.Claims.HostSqTail ∧ Sys2Proof.Claims.Heads ∧ Sys2Proof.Claims.HostWinCfg ∧
  Sys2Proof.Claims.HostRingCfg

/-- STEP, COPY_IN, COPY_OUT, HOST_CQ_POST and STEP_GATEWAY_SELECT. -/
def Obligations.HostJobCommands : Prop :=
  Sys2Proof.Claims.Step ∧ Sys2Proof.Claims.CopyIn ∧ Sys2Proof.Claims.CopyOutEnds ∧ Sys2Proof.Claims.CopyOut ∧ Sys2Proof.Claims.HostCqPost ∧
  Sys2Proof.Claims.StepGatewaySelect

/-- PROBE, PROBE_READ_DONE, FLUSH_READ_DONE, DMA_READ_COMPLETION and DMA_READ_TIMEOUT. -/
def Obligations.HostReadCommands : Prop :=
  Sys2Proof.Claims.Probe ∧ Sys2Proof.Claims.ReadsDone ∧ Sys2Proof.Claims.Reattached ∧ Sys2Proof.Claims.DmaReadCompletion ∧
  Sys2Proof.Claims.DmaReadTimeout

/-- PERST_N, HOT_RESET, DATA_LINK_DOWN, LINK_DISABLE, BME_CLEAR, DETACH, FUNCTION_LEVEL_RESET and ATTACH. -/
def Obligations.HostSessionCommands : Prop :=
  Sys2Proof.Claims.Detaches ∧ Sys2Proof.Claims.Attach
namespace Sys2Proof.Claims

open Machine

/-! ## The fault queue (R388 to R390, R517, R518) -/

/-- The queue takes the next record that waits: nothing is due from before, `r` is the first that it can handle, and its repair need not
wait. -/
abbrev RecordOk (s : State) (r : FaultRec) (rest : List FaultRec) : Prop :=
  s.flt.later.find? s.genAfter = none ∧ s.fltIn = r :: rest ∧ r.waits = false ∧ r.kind ≠ .fltRestoreMismatch ∧ s.repairHeld r = false

/-- The record with its hub time and SEQ, as it stands in the queue. -/
def entered (s : State) (r : FaultRec) : FltEntry :=
  ⟨{ r with hubTime := s.hubTime, seq := s.fltSeq % 2 ^ 32 }, (r.cls == 1 || r.cls == 2) && s.isSealed, true⟩

/-- FAULT_RECORD (R388 to R390, R518): a NOTE takes an entry, merges or is dropped; a CORE record, and a second fault of class STEP of a
core whose handling window is open, makes the core SUSPECT (R394); a record of class PACKAGE or above stops the partition. -/
def FaultRecord : Prop := ∀ (s : State) (r : FaultRec) (rest : List FaultRec) (lines : List (Nat × Nat × Nat × List Nat)),
  RecordOk s r rest →
  (r.cls = 0 → s.escalates r = none → s.fltRoom 0 = true → ∃ t, exec (.faultRecord [] lines) s = .next t ∧ t.fltIn = rest ∧
    t.fltq = s.fltq ++ [entered s r] ∧ t.fltSeq = s.fltSeq + 1 ∧ t.cores = s.cores ∧ memKept s t) ∧
  (r.cls = 0 → s.fltRoom 0 = false →
    s.fltq.any (fun e => e.record.kind == r.kind && e.record.island == r.island && e.record.cls == 0) = true →
    ∃ t, exec (.faultRecord [] lines) s = .next t ∧ t.fltIn = rest ∧ t.fltq.length = s.fltq.length ∧
      counted .hubFltqMergeCnt 0 1 s t ∧ regsBut [regKey .hubFltqMergeCnt 0 0] s t ∧ t.cores = s.cores ∧ memKept s t) ∧
  (r.cls = 0 → s.fltRoom 0 = false →
    s.fltq.any (fun e => e.record.kind == r.kind && e.record.island == r.island && e.record.cls == 0) = false →
    ∃ t, exec (.faultRecord [] lines) s = .next t ∧ t.fltIn = rest ∧ t.fltq = s.fltq ∧
      counted .hubFltqDropCnt 0 1 s t ∧ regsBut [regKey .hubFltqDropCnt 0 0] s t ∧ t.cores = s.cores ∧ memKept s t) ∧
  (∀ g, r.cls = 2 ∨ (r.cls = 1 ∧ s.fltq.any (fun e => e.openWin && e.record.core == r.core) = true) → r.core = some g →
    s.fltRoom r.cls = true → (s.core g).fence = .none →
    ∃ t, exec (.faultRecord [] lines) s = .next t ∧ t.fltIn = rest ∧ t.fltq = s.fltq ++ [entered s r] ∧
      (t.core g).fence = .suspect ∧ t.rdF .hubAdoptStatus 0 0 0 3 = 1 ∧ coresBut [g] s t ∧ memKept s t) ∧
  (3 ≤ r.cls → s.escalates r = none → s.fltRoom r.cls = true → ∃ t, exec (.faultRecord [] lines) s = .next t ∧ t.fltIn = rest ∧
    t.runStop = true ∧ t.fltq = s.fltq ++ [entered s r] ∧ t.cores = s.cores ∧ memKept s t)

/-- FAULT_RECORD of a record whose action waits for the next restore generation (R390, R406), and of such a record when that generation
has come. -/
def RecordWaits : Prop := ∀ (s : State) (r : FaultRec) (rest : List FaultRec) (lines : List (Nat × Nat × Nat × List Nat)),
  (s.flt.later.find? s.genAfter = none → s.fltIn = r :: rest → r.waits = true → s.fltRoom r.cls = true →
    s.fltq.any (fun e => e.openWin && e.record.core == r.core) = false →
    ∃ t, exec (.faultRecord [] lines) s = .next t ∧ t.flt.later = s.flt.later ++ [s.laterOf r] ∧ t.fltIn = rest ∧
      t.fltq = s.fltq ++ [entered s r] ∧ t.cores = s.cores ∧ memKept s t) ∧
  (∀ g l, s.flt.later.find? s.genAfter = some l → l.record.kind = .stgCeRepeat → l.record.core = some g → (s.core g).fence = .none →
    ∃ t, exec (.faultRecord [] lines) s = .next t ∧ t.flt.later = eraseOne l s.flt.later ∧ (t.core g).fence = .suspect ∧
      coresBut [g] s t ∧ memKept s t)

/-- A record of another hub (R388, R410): one of class PACKAGE or above stops this package too, but a mismatch after a restore does not
while an older checkpoint follows. -/
def RemoteRecord : Prop := ∀ (s : State) (b : List Nat) (lines : List (Nat × Nat × Nat × List Nat)), b.length = 64 →
  ∃ t, exec (.faultRecord b lines) s = .next t ∧ t.fltq = s.fltq ∧ t.fltIn = s.fltIn ∧ t.cores = s.cores ∧ memKept s t ∧
    (leNat (b.take 2) ≠ FaultKind.code .fltRestoreMismatch ∨ s.flt.ckpts.length < 2 →
      t.runStop = (s.runStop || decide (3 ≤ b.getD 2 0 % 8))) ∧
    (leNat (b.take 2) = FaultKind.code .fltRestoreMismatch → 2 ≤ s.flt.ckpts.length → t.runStop = s.runStop)

/-- Messages of other hubs (log entry 126): the partition stops; a package has stored its pages of the snapshot (R409); its cores hold a
save (R398); the partition is at its quiesce point (R359). -/
def HubMessages : Prop := ∀ (s : State) (lines : List (Nat × Nat × Nat × List Nat)),
  (∀ cls, exec (.faultRecord [22, cls] lines) s = .next { s with runStop := true }) ∧
  (∀ q p, s.snap = some q → ∃ t x, exec (.faultRecord [40, p, q.step] lines) s = .next t ∧ t.snap = some x ∧ p ∈ x.stored ∧
    (∀ k ∈ q.stored, k ∈ x.stored) ∧ x = { q with stored := x.stored } ∧ t = { s with snap := t.snap }) ∧
  (∀ p gen step, ∃ t, exec (.faultRecord [49, p, gen, step] lines) s = .next t ∧ (p, gen, step) ∈ t.flt.peerSaves ∧
    (∀ x ∈ s.flt.peerSaves, x.1 ≠ p → x ∈ t.flt.peerSaves) ∧ t = { s with flt := { s.flt with peerSaves := t.flt.peerSaves } }) ∧
  (s.imageState = 5 → exec (.faultRecord [52] lines) s = .next { s with img := { s.img with point := true } })

/-! ## Deadbolting and refill (R393 to R396, R400, R403) -/

/-- The core is on its way to DARK: SUSPECT, or fenced already (R393). -/
abbrev Boltable (s : State) (g : Nat) : Prop := (s.core g).fence = .suspect ∨ (s.core g).fence = .fencing

/-- The core is Dark and named in HUB_FENCED, counted; its step stays, its stage memory goes (R393, R396). -/
def darkened (g : Nat) (s t : State) : Prop :=
  (t.core g).fence = .dark ∧ (t.core g).step = (s.core g).step ∧ t.coreState g = 3 ∧
    (t.rd (if g < 64 then .hubFencedLo else .hubFencedHi) 0 0).testBit (g % 64) = true ∧ counted .hubDeadboltCnt 0 1 s t ∧
    (∀ b, b < stgBytes → SMap.get stgDefault t.stg (g * stgBytes + b) = stgDefault (g * stgBytes + b))

/-- DEADBOLT_DARK (R393 to R396, R400, R401, R403): a SUSPECT core with a lane pass in progress is fenced and its vault serves the hub
only; without one the core is Dark, and its vault stays. The core that waits for its adopter gets it: the adopter takes its step, its
ranks and its vault's lines; without one left the exhaustion is recorded, and the partition stops at its restore generation. -/
def DeadboltDark : Prop := ∀ (s : State) (g : Nat), g < 128 → Boltable s g →
  (s.passing g = true → ∃ t, exec (.deadboltDark g) s = .next t ∧ (t.core g).fence = .fencing ∧
    ((s.core g).fence = .suspect → (t.core g).vlt.hubOnly = true ∧ t.rdF .hubAdoptStatus 0 0 0 3 = 2) ∧
    onlyRegsCores [regKey .hubAdoptStatus 0 0] [g] s t) ∧
  (s.passing g = false → s.flt.waitAdopt = [] → ∃ t, exec (.deadboltDark g) s = .next t ∧ darkened g s t ∧ t.vmem = s.vmem ∧
    coresBut [g] s t) ∧
  (∀ a, s.passing g = false → s.flt.adopting = none → s.flt.waitAdopt = [g] → s.chooseAdopter g = some a → a < 128 →
    ∃ t, exec (.deadboltDark g) s = .next t ∧ darkened g s t ∧ t.flt.adopting = some (g, a) ∧ t.flt.waitAdopt = [] ∧
      (t.core a).adopts = some ((s.core g).adopts.getD g) ∧ (t.core a).step = (s.core g).step ∧ (t.core a).frozen = true ∧
      t.rdF .hubAdoptStatus 0 0 0 3 = 4 ∧ t.img.ranks = s.img.ranks.map (fun r =>
        if r.pkg = s.pkg ∧ r.core = g then { r with core := a } else r) ∧
      (s.img.shards = [] → s.flt.ownBad.contains ((s.core g).adopts.getD g) = false →
        t.vmem = (s.copyVault ((s.core g).adopts.getD g) a []).vmem)) ∧
  (s.passing g = false → s.flt.adopting = none → s.flt.waitAdopt = [g] → s.chooseAdopter g = none →
    ∃ t, exec (.deadboltDark g) s = .next t ∧ darkened g s t ∧ t.flt.stopAtGen = true ∧ t.flt.waitAdopt = [] ∧ t.vmem = s.vmem ∧
      recorded .fltAdoptExhausted (.gen 0 g 0 0 0 0) s t)

/-- The saves hold registers of cores and no others. -/
abbrev SavesOk (vs : List Save) : Prop := ∀ v ∈ vs, ∀ e ∈ v.regs, savedReg (keyReg e.1) = true

/-- REFILL_DONE (R268, R400, R403): it waits for a fill of a stream window at the fenced core, and for the shards that come from
another copy; then the core is adopted, and with no other core waiting the adoption is over; what the vault has taken stays. -/
def RefillDone : Prop := ∀ (s : State) (g a : Nat), s.flt.adopting = some (g, a) →
  (s.tier.wins.any (fun w => w.filling && w.fillHome == (s.core a).adopts.getD g) = true ∨
    s.flt.repairs.any (fun r => r.1 == a) = true → exec (.refillDone [] [] []) s = .next s) ∧
  (s.tier.wins.any (fun w => w.filling && w.fillHome == (s.core a).adopts.getD g) = false →
    s.flt.repairs.any (fun r => r.1 == a) = false → s.flt.waitAdopt = [] → s.flt.gone = [] →
    s.flt.loads.contains a = false ∨ SavesOk s.saves →
    ∃ t, exec (.refillDone [] [] []) s = .next t ∧ (t.core g).fence = .adopted ∧ t.flt.adopting = none ∧
      t.rdF .hubAdoptStatus 0 0 0 3 = 5 ∧
      (s.tier.objs = [] → s.tier.wins.all (fun w => w.fillHome != (s.core a).adopts.getD g) = true → t.vmem = s.vmem))

/-! ## Checkpoints (R407 to R410) -/

/-- SNAPSHOT_EPOCH (R407 to R409): an epoch that is due guards the marked pages of every working core; one that falls
due while a snapshot is not durable is put off, counted; none due, nothing happens; an open one streams its next page, whose lines
can be read, and is marked as sent; the lead's word makes the snapshot one of the two newest checkpoints. -/
def SnapshotEpoch : Prop := ∀ (s : State) (done : List Nat) (loss : Option Nat),
  (∀ st, s.snap = none → s.epochDue = some st → LinesClear s hubIsland (s.workers.flatMap s.mapLines) →
    ∃ t, exec (.snapshotEpoch done loss none) s = .next t ∧
    t.snap.map (fun q => (q.step, q.guarded, q.pages)) = some (st, s.workers.flatMap s.snapMarks, s.workers.flatMap s.snapMarks) ∧
    t.rdF .hubCkptStatus 0 0 48 1 = 1 ∧ t.flt.defer = none ∧
    (s.workers.flatMap s.snapMarks = [] → t.cores = s.cores ∧ memKept s t)) ∧
  (∀ q st, s.snap = some q → s.epochDue = some st → st ≠ q.step → st % s.img.ckptInt = 0 → s.flt.defer ≠ some st →
    ∃ t, exec (.snapshotEpoch done loss none) s = .next t ∧ t.flt.defer = some st ∧ counted .hubSnapDeferCnt 0 1 s t ∧
      (q.guarded = [] → q.copied = [] → t.cores = s.cores ∧ memKept s t)) ∧
  (∀ q g src p, s.snap = some q → s.epochDue = none → ¬(q.guarded = [] ∧ q.copied = []) →
    s.streamPick { q with stored := (q.stored ++ done).eraseDups } = some (g, src, p) →
    LinesClear s hubIsland ((List.range (2 ^ 14)).map (fun i => (g, src * 2 ^ 14 + i))) →
    ∃ t, exec (.snapshotEpoch done loss none) s = .next t ∧
      t.snap.map (fun x => (x.step, x.guarded, x.copied, x.sent)) = some (q.step, q.guarded, q.copied, q.sent ++ [(g, p)]) ∧
      t.cores = s.cores ∧ memKept s t) ∧
  (s.snap = none → s.epochDue = none → exec (.snapshotEpoch done loss none) s = .next s) ∧
  (∀ q l, s.snap = some q → ∃ t, exec (.snapshotEpoch done loss (some l)) s = .next t ∧ t.snap = none ∧
    t.flt.ckpts = (⟨q.step, l, q.saves, q.pages⟩ :: s.flt.ckpts).take 2 ∧ t.rd .hubCkptStatus 0 0 = q.step % 2 ^ 48 ∧
    regsBut [regKey .hubCkptStatus 0 0] s t ∧ t.cores = s.cores ∧ memKept s t)

/-- SNAPSHOT_READBACK_DONE (R410): once no line of the checkpoint is on its way, it is loaded, counted, and its loss stands for the verify
step. -/
def SnapshotReadbackDone : Prop := ∀ (s : State) (c : Ckpt) (cs : List Ckpt) (lines : List (Nat × Nat × Nat × Nat × List Nat)),
  s.flt.ckpts = c :: cs → SavesOk c.saves → s.rdF .hubRestoreStatus 0 0 48 2 = 3 → s.restorePhase = 1 → s.anyPassing = false →
  (s.readingBack = true → exec (.snapshotReadbackDone lines) s = .next s) ∧
  (s.readingBack = false → ∃ t, exec (.snapshotReadbackDone lines) s = .next t ∧ t.restorePhase = 7 ∧
    t.rdF .hubRestoreStatus 0 0 0 48 = c.step % 2 ^ 48 ∧ counted .hubRestoreCnt 0 1 s t ∧
    t.flt.verify = some (c.step, c.loss) ∧ t.snap = none)

/-! ## Faults that units report (R40, R41, R391, R413) -/

/-- CORE_PARITY and CORE_RAIL (R391): a record of the core. -/
def CoreFaults : Prop := ∀ (s : State) (g cause m : Nat), s.active g = true →
  (∃ t, exec (.coreParity g cause) s = .next t ∧ t = { s with fltIn := t.fltIn } ∧
    recorded .coreParity (.gen (cause % 3) 0 0 0 0 0) s t) ∧
  (∃ t, exec (.coreRail g cause m) s = .next t ∧ t = { s with fltIn := t.fltIn } ∧
    recorded .coreRail (.gen (cause % 2) (g % 128) 0 (m % 2 ^ 32) 0 0) s t)

/-- WARD_LOCKSTEP (R40, R43): corrected, counted and recorded, where the ward is powered and not in D3. -/
def WardLockstep : Prop := ∀ s : State,
  (s.pwrState ≠ 0 → s.ward.d3 = false → ∃ t, exec .wardLockstep s = .next t ∧ counted .wardLockstepCorrCnt 0 1 s t ∧
    recorded .wardLockstep (.gen 0 0 0 (t.rd .wardLockstepCorrCnt 0 0) 0 0) s t ∧
    regsBut [regKey .wardLockstepCorrCnt 0 0] s t ∧ t.cores = s.cores ∧ memKept s t) ∧
  (s.pwrState = 0 ∨ s.ward.d3 = true → exec .wardLockstep s = .next s)

/-- H1_LOCKSTEP_MISMATCH and H1_RESTART_DONE (R41, R43, R413): where H1 is powered and not in D3, H1 is held in reset, the host is told, a
load that this gateway leads ends; when it runs again a record is queued, and the jobs that waited are fetched. -/
def H1 : Prop := ∀ s : State,
  (s.pwrState = 0 ∨ s.ward.d3 = true → exec .h1LockstepMismatch s = .next s) ∧
  (s.pwrState ≠ 0 → s.ward.d3 = false → s.hub.h1Down = false → ∃ t, exec .h1LockstepMismatch s = .next t ∧ t.hub.h1Down = true ∧
    (s.img.staged = none → s.hosted = true → s.attached = true → t.outbox = s.outbox ++ [.msix 0]) ∧
    (∀ x, s.img.staged = some x → x.sealing = false → x.ring < 16 → t.img.staged = none) ∧ t.cores = s.cores ∧ memKept s t) ∧
  (s.hub.h1Down = true → ∃ t, exec .h1RestartDone s = .next t ∧ t.hub = { s.hub with h1Down := false } ∧
    recorded .hubH1Lockstep (.gen 0 0 0 (s.hubTime % 2 ^ 32) 0 0) s t ∧ (s.host.queued = [] → t.regs = s.regs) ∧
    t.cores = s.cores ∧ memKept s t)

end Sys2Proof.Claims

/-- FAULT_RECORD with its messages, DEADBOLT_DARK and REFILL_DONE. -/
def Obligations.FaultAndRefillCommands : Prop :=
  Sys2Proof.Claims.FaultRecord ∧ Sys2Proof.Claims.RecordWaits ∧ Sys2Proof.Claims.RemoteRecord ∧
  Sys2Proof.Claims.HubMessages ∧ Sys2Proof.Claims.DeadboltDark ∧ Sys2Proof.Claims.RefillDone

/-- SNAPSHOT_EPOCH, SNAPSHOT_READBACK_DONE, CORE_PARITY, CORE_RAIL, WARD_LOCKSTEP, H1_LOCKSTEP_MISMATCH and H1_RESTART_DONE. -/
def Obligations.CheckpointAndUnitFaultCommands : Prop :=
  Sys2Proof.Claims.SnapshotEpoch ∧ Sys2Proof.Claims.SnapshotReadbackDone ∧ Sys2Proof.Claims.CoreFaults ∧
  Sys2Proof.Claims.WardLockstep ∧ Sys2Proof.Claims.H1
namespace Sys2Proof.Claims

open Machine

/-! ## The ward's commands (R422 to R428, R432, R434) -/

/-- The ward accepts a command block: none is in hand, and its checks find nothing. -/
abbrev WardOk (s : State) (code : Nat) (b : List Nat) : Prop :=
  s.wardUp = true ∧ s.ward.block = none ∧ (wardBlk b).code = code ∧ (s.wardCheck b).2 = 0

/-- The command is carried out: its result is OK, and no memory changes. -/
def wardDone (c : Instr) (s : State) (P : State → Prop) : Prop :=
  ∃ t, exec c s = .next t ∧ t.rdF .wardMboxStatus 0 0 8 8 = 0 ∧ memKept s t ∧ P t

/-- PROVISION (R423, R473): the identity key pair is drawn, the state is 1, and the nonce is spent; of the boot flash only the
region of the certificate chain changes. -/
def Provision : Prop := ∀ (s : State) (b : List Nat), WardOk s 1 b → s.ward.rngBad = false →
  wardDone (.provision b) s (fun t => t.life = 1 ∧ 1 ≤ t.ward.priv ∧ t.ward.priv < p256N ∧ t.ward.nonce = none ∧
    ∀ a, a < 0x10000 ∨ 0x20000 ≤ a → SMap.get (fun _ => 0xFF) t.boot.flash a = SMap.get (fun _ => 0xFF) s.boot.flash a)

/-- PROVISION without entropy (R418, R424): RNG_FAIL, counted, and the lifecycle stays. -/
def ProvisionFails : Prop := ∀ (s : State) (b : List Nat), WardOk s 1 b → s.ward.rngBad = true →
  ∃ t, exec (.provision b) s = .next t ∧ t.rdF .wardMboxStatus 0 0 8 8 = 9 ∧ t.life = s.life ∧ t.ward.priv = s.ward.priv ∧
    regsBut [regKey .wardMboxStatus 0 0, regKey .wardVerifyCnt 0 0, regKey .wardSigFailCnt 0 0] s t ∧ t.cores = s.cores ∧ memKept s t

/-- FIELD_KEYS (R423): the five field slots of the bank are fused from the payload, and the state is 2. -/
def FieldKeys : Prop := ∀ (s : State) (b : List Nat), WardOk s 2 b → wardDone (.fieldKeys b) s (fun t => t.life = 2 ∧
  t.ward.nonce = none ∧ ∀ i, i < 5 → SMap.get (fun _ => 0) t.ward.slots (16 * s.keyBank + 5 + i)
    = beNat ((((wardBlk b).payload.drop (64 * i)).take 64) ++ List.replicate (64 - (((wardBlk b).payload.drop (64 * i)).take 64).length) 0))

/-- RETURN, RETURN_AUTH and REPROVISION (R421, R423). -/
def Returns : Prop := ∀ (s : State) (b : List Nat),
  (WardOk s 3 b → wardDone (.returnPart b) s (fun t => t.life = 3 ∧ t.ward.nonce = none)) ∧
  (WardOk s 4 b → wardDone (.returnAuth b) s (fun t => t.rdF .wardLifecycle 0 0 4 1 = 1 ∧ t.life = s.life ∧ t.ward.nonce = none)) ∧
  (WardOk s 5 b → wardDone (.reprovision b) s (fun t => t.life = 1 ∧ t.keyBank = s.keyBank + 1 ∧ t.keysCleared = false ∧
    t.rdF .wardLifecycle 0 0 4 1 = 0 ∧ t.ward.nonce = none))

/-- SVN_COMMIT (R428): the rollback counters rise to the numbers of the running objects and never fall. -/
def SvnCommit : Prop := ∀ (s : State) (b : List Nat), WardOk s 6 b → wardDone (.svnCommit b) s (fun t => ∀ i, i < 3 →
  t.rdF .wardSvn 0 0 (8 * i) 8
    = max (min 32 (leNat (((s.boot.objs.getD i []).drop 36).take 4))) (s.rdF .wardSvn 0 0 (8 * i) 8))

/-- OPEN_D2 and OPEN_D3 (R432, R434): the session with its scope; the internal chains, with the image unsealed. -/
def Opens : Prop := ∀ (s : State) (b : List Nat),
  (WardOk s 0x10 b → wardDone (.openD2 b) s (fun t => t.dbgLevel = 2 ∧ t.d2Open = true ∧
    t.rdF .wardDebugStatus 0 0 4 4 = (wardBlk b).payload.headD 0 % 16 ∧ t.ward.nonce = none ∧ (s.d2Open = false → t.cores = s.cores))) ∧
  (WardOk s 0x11 b → wardDone (.openD3 b) s (fun t => t.ward.d3 = true ∧ t.dbgLevel = 3 ∧ t.img = Img.none ∧ t.imageState = 0 ∧
    (s.life = 3 → t.keysCleared = true) ∧ (s.d2Open = false → t.cores = s.cores)))

/-- A block that the ward refuses (R424, R427): its result is shown, and keys and lifecycle stay as they were. While the mailbox is BUSY
a block is ignored and counted (R425). -/
def wardRefuses (c : Instr) (code : Nat) (s : State) (b : List Nat) : Prop :=
  (s.wardUp = true → s.ward.block = none → (wardBlk b).code = code → (s.wardCheck b).2 ≠ 0 → ∃ t, exec c s = .next t ∧
    t.rdF .wardMboxStatus 0 0 8 8 = (s.wardCheck b).2 ∧ t.ward.slots = s.ward.slots ∧ t.ward.priv = s.ward.priv ∧
    regsBut [regKey .wardMboxStatus 0 0, regKey .wardVerifyCnt 0 0, regKey .wardSigFailCnt 0 0] s t ∧ t.img = s.img ∧
    t.cores = s.cores ∧ memKept s t) ∧
  (s.wardUp = true → s.ward.block.isSome = true → (wardBlk b).code = code → ∃ t, exec c s = .next t ∧
    counted .wardViolCnt 0 1 s t ∧ t.ward = s.ward ∧ regsBut [regKey .wardViolCnt 0 0] s t ∧ t.img = s.img ∧ t.cores = s.cores ∧
    memKept s t)

def WardRefusals : Prop := ∀ (s : State) (b : List Nat), wardRefuses (.provision b) 1 s b ∧ wardRefuses (.fieldKeys b) 2 s b ∧
  wardRefuses (.returnPart b) 3 s b ∧ wardRefuses (.returnAuth b) 4 s b ∧ wardRefuses (.reprovision b) 5 s b ∧
  wardRefuses (.svnCommit b) 6 s b ∧ wardRefuses (.openD2 b) 0x10 s b ∧ wardRefuses (.openD3 b) 0x11 s b

/-- NONCE_REQ (R425): 128 random bits are the outstanding nonce, shown in WARD_DBG_NONCE; without entropy RNG_FAIL. A block in hand is
carried out before (log entry 130). -/
def NonceReq : Prop := ∀ s : State, s.wardUp = true →
  (s.ward.block.isSome = true → exec .nonceReq s = .next s.wardServe.newNonce) ∧
  (s.ward.block = none → s.ward.rngBad = false → ∃ t n, exec .nonceReq s = .next t ∧ t.ward.nonce = some n ∧ n < 2 ^ 128 ∧
    t.rd .wardDbgNonce 0 0 = n % 2 ^ 64 ∧ t.rd .wardDbgNonce 0 1 = n / 2 ^ 64 ∧
    regsBut [regKey .wardDbgNonce 0 0, regKey .wardDbgNonce 0 1] s t ∧ t.cores = s.cores ∧ memKept s t) ∧
  (s.ward.block = none → s.ward.rngBad = true → ∃ t, exec .nonceReq s = .next t ∧ t.rdF .wardMboxStatus 0 0 8 8 = 9 ∧
    counted .wardSigFailCnt 0 1 s t ∧ onlyRegs [regKey .wardMboxStatus 0 0, regKey .wardSigFailCnt 0 0] s t)

/-- RNG_HEALTH_FAIL (R418). -/
def RngHealthFail : Prop := ∀ (s : State) (cause : Nat), s.wardUp = true → ∃ t, exec (.rngHealthFail cause) s = .next t ∧
  t.ward = { s.ward with rngBad := true } ∧ counted .wardRngFailCnt 0 1 s t ∧
  recorded .wardRngFail (.gen (cause % 2) 0 0 0 0 0) s t ∧ regsBut [regKey .wardRngFailCnt 0 0] s t ∧ t.cores = s.cores ∧ memKept s t

/-! ## Debug (R431 to R433) -/

/-- DEBUG_LEVEL_SET (R431, R502): levels 0 and 1 are set unless a session holds the level, and HUB_TRACE_WRAP counts from the entry of
D1; 2 and 3 are ignored and counted. -/
def DebugLevelSet : Prop := ∀ (s : State) (v : Nat), s.wardUp = true →
  (v < 2 → ∃ t, exec (.debugLevelSet v) s = .next t ∧ t.dbgLevel = (if s.dbgLevel ≤ 1 then v else s.dbgLevel) ∧
    t.rdF .wardDebugCtl 0 0 0 2 = v ∧ (s.dbgLevel = 0 → v = 1 → t.rd .hubTraceWrap 0 0 = 0) ∧
    onlyRegs ([regKey .wardDebugCtl 0 0, regKey .wardDebugStatus 0 0] ++ if s.dbgLevel = 0 ∧ v = 1 then [regKey .hubTraceWrap 0 0] else [])
      s t) ∧
  (2 ≤ v → v < 4 → ∃ t, exec (.debugLevelSet v) s = .next t ∧ t.dbgLevel = s.dbgLevel ∧ counted .wardViolCnt 0 1 s t ∧
    regsBut [regKey .wardViolCnt 0 0] s t ∧ t.cores = s.cores ∧ memKept s t)

/-- A core that has resumed. -/
def resumed (c : Core) : Core := { c with halted := false, saveReq := false }

/-- CLOSE (R432): every halted core resumes, the token is no longer valid, and the level is D1. -/
def Close : Prop := ∀ s : State,
  (s.d2Open = true → ∃ t, exec .close s = .next t ∧ t.d2Open = false ∧ t.dbgLevel = 1 ∧ t.rdF .wardDebugStatus 0 0 4 4 = 0 ∧
    (∀ g, t.core g = if g < 128 ∧ (s.core g).halted = true then resumed (s.core g) else s.core g) ∧
    regsBut [regKey .wardDebugStatus 0 0, regKey .wardDebugCtl 0 0] s t ∧ memKept s t) ∧
  (s.d2Open = false → exec .close s = .next s)

/-- DEBUG_HALT, DEBUG_RESUME and DEBUG_STEP (R431, R433): the core stops at its freeze point; runs again; dispatches one entry. -/
def DebugRun : Prop := ∀ (s : State) (g : Nat), s.scope 0 = true →
  (s.running g = true → ∃ t, exec (.debugHalt g) s = .next t ∧ t.core g = { s.core g with halted := true, saveReq := true } ∧
    onlyRegsCores [regKey .wardDebugStatus 0 0] [g] s t) ∧
  ((s.core g).halted = true → ∃ t, exec (.debugResume g) s = .next t ∧ t.core g = resumed (s.core g) ∧
    onlyRegsCores [regKey .wardDebugStatus 0 0] [g] s t) ∧
  ((s.core g).halted = true → s.running g = true → (s.core g).closingPending = false →
    LinesClear s g (s.entryLines g (s.rdF .synSqBase g 0 6 50 * 64 + 64 * (s.core g).pos)) → ((s.core g).stream (nextEntry s g).stream).length < 8 →
    ∃ t, exec (.debugStep g) s = .next t ∧ (t.core g).pos = (s.core g).pos + 1 ∧ (t.core g).halted = true ∧
      coresBut [g] s t ∧ memKept s t)

/-- DEBUG_REG_WRITE (R431 to R433): 8 bytes of a halted core's stage memory, or a register of its own, and TAINT. -/
def DebugRegWrite : Prop := ∀ (s : State) (g off value : Nat), s.scope 1 = true → (s.core g).halted = true → s.running g = true →
  (off + 8 ≤ stgBytes → ∃ t, exec (.debugRegWrite g off value true) s = .next t ∧ t.stg = (s.putStg g off (leBytes 8 value)).stg ∧
    t.rdF .wardDebugStatus 0 0 3 1 = 1 ∧ regsBut [regKey .wardDebugStatus 0 0] s t ∧ t.cores = s.cores ∧ t.vmem = s.vmem) ∧
  (∀ x, regSlot (off / 8 * 8) = some x → debugWritable g x = true →
    exec (.debugRegWrite g off value false) s
      = .next (s.writeSlot s.writer x.1 x.2.1 x.2.2 (if x.1.desc.wide then value % 2 ^ 64 else value % 2 ^ 32)).taint ∧
    (s.writeSlot s.writer x.1 x.2.1 x.2.2 (if x.1.desc.wide then value % 2 ^ 64 else value % 2 ^ 32)).taint.rdF
      .wardDebugStatus 0 0 3 1 = 1)

/-- DEBUG_VAULT_READ and DEBUG_VAULT_WRITE (R431, R433): a line is answered to the debug port; a line is written with the halted
core's step tag, and TAINT. -/
def DebugVault : Prop := ∀ (s : State) (v line : Nat) (data : List Nat), s.active v = true → line < 2 ^ 26 →
  s.locked v line = false → s.busyBank v line = none →
  (∀ r, r = (s.rawLine v line).flip [] → s.scope 2 = true → s.flipArmed v line 1 = false → r.ok = true → r.poison = false →
    exec (.debugVaultRead v line) s = .next (s.send (.lineData 165 v line 0 r.data))) ∧
  (s.scope 3 = true → (s.core v).halted = true → WriteFree s v line → s.flipArmed v line 0 = false →
    ∃ t, exec (.debugVaultWrite v line data) s = .next t ∧ lineHolds t v line (pad128 data) (s.stepTag v) 0 ∧
      t.rdF .wardDebugStatus 0 0 3 1 = 1 ∧ vaultsBut (s.lineKey v line) 136 s t ∧ t.stg = s.stg ∧
      regsBut [regKey .tierStrayWriteCnt 0 0, regKey .wardDebugStatus 0 0] s t)

/-! ## Boundary scan (R435) -/

/-- What leaves on TDO when `tdi` is shifted through a register that held `dr`. -/
def tdoOf (dr tdi : List Nat) : Out := .tdo ((dr ++ tdi.map (· % 2)).take tdi.length)

/-- BYPASS, IDCODE, SAMPLE/PRELOAD and EXTEST (R435). The identification code is free but for its lowest bit (log entry 2). -/
def Scans : Prop := ∀ (s : State) (pins tdi : List Nat), s.wardUp = true →
  (∃ t, exec (.bypass tdi) s = .next t ∧ t.outbox = s.outbox ++ [tdoOf [0] tdi] ∧ t.regs = s.regs ∧ t.cores = s.cores ∧
    memKept s t) ∧
  (∃ t id, exec (.idcode tdi) s = .next t ∧ t.outbox = s.outbox ++ [tdoOf (1 :: id) tdi] ∧ id.length = 31 ∧ t.regs = s.regs ∧
    t.cores = s.cores ∧ memKept s t) ∧
  (∃ t, exec (.samplePreload pins tdi) s = .next t ∧ t.outbox = s.outbox ++ [tdoOf (pins.map (· % 2)) tdi] ∧
    t.hub.scanOut = (((pins.map (· % 2) ++ tdi.map (· % 2)).drop tdi.length).foldr (fun b n => b + 2 * n) 0) ∧ t.regs = s.regs ∧
    t.cores = s.cores ∧ memKept s t) ∧
  (s.pwrState = 1 → s.dbgLevel ≤ 1 → ∃ t, exec (.extest pins tdi) s = .next t ∧
    t.outbox = s.outbox ++ (List.range pins.length).map (fun i => .pin (0x100 + i) (s.hub.scanOut.testBit i))
      ++ [tdoOf (pins.map (· % 2)) tdi] ∧ t.regs = s.regs ∧ t.cores = s.cores ∧ memKept s t) ∧
  (s.pwrState ≠ 1 ∨ 1 < s.dbgLevel → ∃ t, exec (.extest pins tdi) s = .next t ∧ counted .wardViolCnt 0 1 s t ∧
    t.outbox = s.outbox ++ [tdoOf [0] tdi] ∧ regsBut [regKey .wardViolCnt 0 0] s t ∧ t.cores = s.cores ∧ memKept s t)

/-- INTERNAL_CHAIN (R434, R435): outside D3 it acts as BYPASS and counts; in D3 the model refuses it by name, because the spec does
not say what the chains hold. -/
def InternalChain : Prop := ∀ (s : State) (tdi : List Nat), s.wardUp = true →
  (s.ward.d3 = false → ∃ t, exec (.internalChain tdi) s = .next t ∧ counted .wardViolCnt 0 1 s t ∧
    t.outbox = s.outbox ++ [tdoOf [0] tdi] ∧ regsBut [regKey .wardViolCnt 0 0] s t ∧ t.cores = s.cores ∧ memKept s t) ∧
  (s.ward.d3 = true → exec (.internalChain tdi) s = .refused .internalChain)

end Sys2Proof.Claims

/-- PROVISION, FIELD_KEYS, RETURN, RETURN_AUTH, REPROVISION, SVN_COMMIT, OPEN_D2, OPEN_D3, and their refusals. -/
def Obligations.WardLifecycleCommands : Prop :=
  Sys2Proof.Claims.Provision ∧ Sys2Proof.Claims.ProvisionFails ∧ Sys2Proof.Claims.FieldKeys ∧ Sys2Proof.Claims.Returns ∧ Sys2Proof.Claims.SvnCommit ∧
  Sys2Proof.Claims.Opens ∧ Sys2Proof.Claims.WardRefusals

/-- NONCE_REQ, RNG_HEALTH_FAIL, DEBUG_LEVEL_SET, CLOSE, DEBUG_HALT, DEBUG_RESUME, DEBUG_STEP, DEBUG_REG_WRITE, DEBUG_VAULT_READ and
DEBUG_VAULT_WRITE. -/
def Obligations.WardDebugCommands : Prop :=
  Sys2Proof.Claims.NonceReq ∧ Sys2Proof.Claims.RngHealthFail ∧ Sys2Proof.Claims.DebugLevelSet ∧ Sys2Proof.Claims.Close ∧
  Sys2Proof.Claims.DebugRun ∧ Sys2Proof.Claims.DebugRegWrite ∧ Sys2Proof.Claims.DebugVault

/-- BYPASS, IDCODE, SAMPLE/PRELOAD, EXTEST and INTERNAL_CHAIN. -/
def Obligations.BoundaryScanCommands : Prop := Sys2Proof.Claims.Scans ∧ Sys2Proof.Claims.InternalChain
namespace Sys2Proof.Claims

open Machine

/-! ## Power states (R436 to R440) -/

/-- PENDING and WAIT_QUIESCE of PWR_STATUS. -/
def pend (s : State) : Nat × Nat := (s.rdF .pwrStatus 0 0 3 3, s.rdF .pwrStatus 0 0 6 1)

/-- A request that is refused: counted, with no other effect (R437). -/
def refusedRequest (c : Instr) (s : State) : Prop :=
  ∃ t, exec c s = .next t ∧ counted .pwrReqRefusedCnt 0 1 s t ∧ onlyRegs [regKey .pwrReqRefusedCnt 0 0] s t

/-- POWER_RUN (R437, R486): bring-up begins from Standby, or is held while the chain runs; from Hold the package is in Run and the
vaults no longer refresh themselves; in Run a pending request goes. -/
def PowerRun : Prop := ∀ s : State,
  (s.pwrState = 1 → s.booting = false → s.boot.recovery = false → ∃ t, exec .powerRun s = .next t ∧ t.boot.bringup = true ∧
    pend t = (1, 0) ∧ regsBut [regKey .pwrStatus 0 0] s t ∧ t.cores = s.cores ∧ memKept s t) ∧
  (s.pwrState = 1 → s.booting = true → ∃ t, exec .powerRun s = .next t ∧ t.boot.wantRun = true ∧ pend t = (1, 0) ∧
    regsBut [regKey .pwrStatus 0 0] s t ∧ t.cores = s.cores ∧ memKept s t) ∧
  (s.pwrState = 1 → s.booting = false → s.boot.recovery = true → refusedRequest .powerRun s) ∧
  (s.pwrState = 2 → SavesOk s.saves → ∃ t, exec .powerRun s = .next t ∧ t.pwrState = 3 ∧ pend t = (0, 0) ∧
    (∀ g, g < 128 → (t.core g).vlt.selfRefresh = false) ∧ memKept s t) ∧
  (s.pwrState = 3 → ∃ t, exec .powerRun s = .next t ∧ pend t = (0, 0) ∧ onlyRegs [regKey .pwrStatus 0 0] s t)

/-- POWER_HOLD (R437, R438): from Run it waits for the quiesce point, the session closed; from Standby it is refused. -/
def PowerHold : Prop := ∀ s : State,
  (s.pwrState = 3 → ∃ t, exec .powerHold s = .next t ∧ pend t = (2, 1) ∧ t.pwrState = 3 ∧ t.d2Open = false ∧ memKept s t) ∧
  (s.pwrState = 2 → ∃ t, exec .powerHold s = .next t ∧ pend t = (0, 0) ∧ onlyRegs [regKey .pwrStatus 0 0] s t) ∧
  (s.pwrState = 1 → refusedRequest .powerHold s)

/-- HOLD_ENTRY (R438, R439): at the quiesce point every core is Dark, the stage memories are lost, the vaults keep what they hold; a
pending Standby goes on: the vaults lose it and the image is unsealed. -/
def HoldEntry : Prop := ∀ s : State, s.pwrState = 3 → (pend s).2 = 1 → s.quiesced = true →
  ((pend s).1 ≠ 3 → ∃ t, exec .holdEntry s = .next t ∧ t.pwrState = 2 ∧ pend t = (0, 0) ∧ (∀ g, g < 128 → t.coreState g = 3) ∧
    t.stg = [] ∧ t.vmem = s.vmem ∧ counted .pwrHoldCnt 0 1 s t ∧ t.img = s.img) ∧
  ((pend s).1 = 3 → ∃ t, exec .holdEntry s = .next t ∧ t.pwrState = 1 ∧ pend t = (0, 0) ∧ t.stg = [] ∧ t.vmem = [] ∧
    t.img = Img.none)

/-- POWER_STANDBY (R437, R439): a sealed image needs DISCARD; from Hold the package is in Standby; from Run it waits for the quiesce
point; in Standby a pending request goes. -/
def PowerStandby : Prop := ∀ (s : State) (discard : Bool),
  (s.pwrState = 2 ∨ s.pwrState = 3 → s.isSealed = true → discard = false → refusedRequest (.powerStandby discard) s) ∧
  (s.pwrState = 2 → (s.isSealed = false ∨ discard = true) → ∃ t, exec (.powerStandby discard) s = .next t ∧ t.pwrState = 1 ∧
    pend t = (0, 0) ∧ t.vmem = [] ∧ t.stg = [] ∧ t.img = Img.none) ∧
  (s.pwrState = 3 → (s.isSealed = false ∨ discard = true) → ∃ t, exec (.powerStandby discard) s = .next t ∧ t.pwrState = 3 ∧
    pend t = (3, 1) ∧ t.pwr.discard = discard ∧ memKept s t) ∧
  (s.pwrState = 1 → ∃ t, exec (.powerStandby discard) s = .next t ∧ t.boot.bringup = false ∧ t.boot.wantRun = false ∧
    pend t = (0, 0) ∧ regsBut [regKey .pwrStatus 0 0] s t ∧ t.cores = s.cores ∧ memKept s t)

/-- The package is Off for a cause (R447): memory is lost; fuses, and the remap entries that the fault history holds, stay. -/
def off (c : Instr) (cause : Nat) (s : State) : Prop :=
  ∃ t, exec c s = .next t ∧ t.pwrState = 0 ∧ t.rd .pwrLastOff 0 0 = cause ∧ t.vmem = [] ∧ t.stg = [] ∧
    t.rd .wardLifecycle 0 0 = s.rd .wardLifecycle 0 0 ∧ (∀ g n, g < 128 → n < 8 →
      s.boot.unsaved.any (fun u => unsavedKey u (regKey .vltRemap g n)) = false → t.rd .vltRemap g n = s.rd .vltRemap g n)

/-- POWER_OFF (R437), PWREN_LOW, UNDER_VOLTAGE and OVER_VOLTAGE (R446, R447). -/
def PowerOffs : Prop := ∀ s : State,
  (s.pwrState = 1 → off .powerOff 0 s) ∧ (s.pwrState = 2 ∨ s.pwrState = 3 → refusedRequest .powerOff s) ∧
  (s.pwrState ≠ 0 → off .pwrenLow 2 s ∧ off .underVoltage 1 s ∧ off .overVoltage 3 s)

/-- POWER_GOOD (R446, R447, R476): from Off the straps are sampled and the boot chain starts; THERMTRIP_N is released; the latch of
PWR_LAST_OFF holds unless the input fell below 20 V. -/
def PowerGood : Prop := ∀ (s : State) (feed : Nat) (below20 : Bool), s.pwrState = 0 →
  ∃ t, exec (.powerGood (feed, below20)) s = .next t ∧ t.rd .pwrLastOff 0 0 = (if below20 then 0 else s.rd .pwrLastOff 0 0) ∧ t.rd .hubFeed 0 0 = feed % 16 ∧ t.stage = 1 ∧ t.rdF .hubResetStatus 0 0 0 3 = 0 ∧
    t.outbox = s.outbox ++ [.pin 2 true] ∧ t.vmem = [] ∧ t.rd .wardLifecycle 0 0 = s.rd .wardLifecycle 0 0

/-! ## Limits, pools, temperatures, clocks (R447 to R456, R468) -/

/-- BROWNOUT and BROWNOUT_END (R447): every die pool goes to three quarters of its cap; then the caps return, recorded. -/
def Brownouts : Prop := ∀ (s : State) (mv4 : Nat),
  (s.pwrState ≠ 0 → s.pwr.brown = none → ∃ t, exec (.brownout mv4) s = .next t ∧ counted .pwrBrownoutCnt 0 1 s t ∧
    t.pwr.brown = some (s.caps, s.hubTime, mv4 % 2 ^ 16) ∧ (∀ d, d < 8 → t.poolCap d = s.poolCap d * 3 / 4) ∧
    t.cores = s.cores ∧ memKept s t) ∧
  (∀ cs t0 low, s.pwr.brown = some (cs, t0, low) → ∃ t, exec .brownoutEnd s = .next t ∧ t.pwr.brown = none ∧
    (∀ d, d < 8 → t.poolCap d = min (cs.getD d (s.poolCap d)) 4000) ∧
    recorded .pwrBrownout (.gen 0 0 0 low ((s.hubTime - t0) / 1000) 0) s t ∧ t.cores = s.cores ∧ memKept s t)

/-- CONVERTER_FAULT (R449): the converter leaves service; with five left a record, with four the limits fall, with fewer the package
is Off. -/
def ConverterFault : Prop := ∀ (s : State) (conv cause : Nat), s.pwrState ≠ 0 → conv < 6 →
  (s.rd .pwrConvStatus 0 0).testBit conv = true →
  (s.inService = 6 → ∃ t, exec (.converterFault conv cause) s = .next t ∧ t.inService = 5 ∧ counted .pwrConvFaultCnt 0 1 s t ∧
    (∃ r, t.fltIn = s.fltIn ++ [r] ∧ r.kind = .pwrConvFault) ∧
    regsBut [regKey .pwrConvStatus 0 0, regKey .pwrConvFaultCnt 0 0] s t ∧ t.cores = s.cores ∧ memKept s t) ∧
  (s.inService = 5 → ∃ t, exec (.converterFault conv cause) s = .next t ∧ t.inService = 4 ∧ counted .pwrConvFaultCnt 0 1 s t ∧
    (∃ r, t.fltIn = s.fltIn ++ [r] ∧ r.kind = .pwrConvDegraded) ∧ t.sustained = min 2240 s.sustained ∧
    t.peakW = min 2640 s.peakW ∧ t.cores = s.cores ∧ memKept s t) ∧
  (s.inService ≤ 4 → off (.converterFault conv cause) 5 s)

/-- PWR_LIMIT (R449, R468): each field is clamped to its range, and every clamp is counted. -/
def PwrLimit : Prop := ∀ (s : State) (v : Nat) (a b c : Nat × Nat), s.pwrState ≠ 0 → v < 2 ^ 64 →
  a = clampTo 1000 (if s.inService ≤ 4 then 2240 else 2800) (bitsOf v 0 16) →
  b = clampTo a.1 (if s.inService ≤ 4 then 2640 else 3300) (bitsOf v 16 16) → c = clampTo 0 5 (bitsOf v 32 8) →
  ∃ t, exec (.pwrLimit v) s = .next t ∧ t.rd .pwrLimit 0 0 = a.1 + b.1 * 2 ^ 16 + c.1 * 2 ^ 32 ∧
    counted .pwrViolCnt 0 (a.2 + b.2 + c.2) s t ∧ t.cores = s.cores ∧ memKept s t

/-- GRANT_REQUEST (R451): an island whose pool has the units free gets what it asks; else it gets what is free and waits. -/
def GrantRequest : Prop := ∀ (s : State) (i units n fr : Nat), s.pwrState = 3 → i < 144 → (128 ≤ i ∨ s.active i = true) →
  n = min units (fullGrant i) → fr = s.poolCap (islandDie i) - s.poolIssued (islandDie i) → s.pwr.asks = [] → s.grant i ≤ n →
  (n ≤ s.grant i + fr → ∃ t, exec (.grantRequest i units) s = .next t ∧ t.grant i = n ∧ t.pwr.asks = [] ∧ t.cores = s.cores ∧
    memKept s t) ∧
  (s.grant i + fr < n → ∃ t, exec (.grantRequest i units) s = .next t ∧ t.grant i = s.grant i + fr ∧ t.pwr.asks = [(i, n)] ∧
    t.cores = s.cores ∧ memKept s t)

/-- POWER_SAMPLE (R452): a sample within the limits is shown; one above PEAK_W lowers the pools, counted. -/
def PowerSample : Prop := ∀ (s : State) (mv ca w10 w1s cut : Nat), s.pwrState ≠ 0 →
  (w10 ≤ s.sustained → w10 ≤ s.peakW → w1s ≤ s.sustained → s.pwr.exc = [] → s.pwr.capped = false →
    ∃ t, exec (.powerSample mv ca w10 w1s cut) s = .next t ∧
      t.rd .pwrIn 0 0 = mv % 2 ^ 16 + ca % 2 ^ 16 * 2 ^ 16 + w10 % 2 ^ 16 * 2 ^ 32 + w1s % 2 ^ 16 * 2 ^ 48 ∧
      t = { s with regs := t.regs, pwr := t.pwr } ∧ regsBut [regKey .pwrIn 0 0] s t) ∧
  (s.peakW < w10 → s.pwr.capped = false → s.pwr.brown = none → ∃ t, exec (.powerSample mv ca w10 w1s cut) s = .next t ∧
    counted .pwrPeakLimitCnt 0 1 s t ∧ t.pwr.capped = true ∧ (∀ d, d < 8 → t.poolCap d ≤ s.poolCap d) ∧ t.cores = s.cores ∧
    memKept s t)

/-- THROTTLE_LINE (R452): every core that runs is at 0.6 GHz, the pools are lowered, and the event is counted and recorded. -/
def ThrottleLine : Prop := ∀ (s : State) (conv ca cut : Nat), s.pwrState ≠ 0 →
  ∃ t, exec (.throttleLine conv ca cut) s = .next t ∧ counted .pwrOvercurrentCnt 0 1 s t ∧
    recorded .pwrOvercurrent (.gen 0 (conv % 6) 0 ca 0 0) s t ∧
    (∀ g, s.active g = true → SMap.get (fun _ => 0) t.pwr.freq g = 600) ∧
    (s.pwr.brown = none → ∀ d, d < 8 → t.poolCap d ≤ s.poolCap d) ∧
    t.cores = s.cores ∧ memKept s t

/-- The readings of a sample: location, index, degrees. -/
def readings (dies lid : List Nat) (others : List (Nat × Nat × Nat)) : List (Nat × Nat × Nat) :=
  ((List.range 4).map (fun i => (0, i, lid.getD i 0))) ++ ((List.range 8).map (fun d => (1, d, dies.getD d 0)))
    ++ others.filter (fun o => decide (2 ≤ o.1) && decide (o.1 ≤ 5))

/-- No vault throttles, and nothing throttled before. -/
abbrev VaultsCool (s : State) : Prop := s.pwr.hot = [] ∧ (List.range 128).all (fun g => decide (s.rdF .vltStatus g 0 0 2 < 2)) = true

/-- THERMAL_SAMPLE (R454 to R456): below every threshold the readings are shown; a hot compute die is recorded and its pool falls by
a tenth; a trip turns the package Off and drives THERMTRIP_N. -/
def ThermalSample : Prop := ∀ (s : State) (dies lid : List Nat) (others : List (Nat × Nat × Nat)), s.pwrState ≠ 0 →
  (VaultsCool s → (∀ r ∈ readings dies lid others, r.2.2 < hotAt r.1) →
    ∃ t, exec (.thermalSample dies lid others) s = .next t ∧ (∀ d, d < 8 → t.rd .pwrTempDie 0 d = dies.getD d 0 % 256) ∧
      t.fltIn = s.fltIn ∧ (∀ d, t.poolCap d = s.poolCap d) ∧ t.cores = s.cores ∧ memKept s t) ∧
  (∀ d, d < 8 → VaultsCool s → s.pwr.brown = none → 95 ≤ dies.getD d 0 → dies.getD d 0 < 110 →
    (∀ r ∈ readings dies lid others, r.1 ≠ 1 ∨ r.2.1 ≠ d → r.2.2 < hotAt r.1) →
    ∃ t, exec (.thermalSample dies lid others) s = .next t ∧ recorded .pwrHot (.gen 1 d 0 (dies.getD d 0) 0 0) s t ∧
      t.poolCap d = s.poolCap d - s.poolCap d / 10 ∧ counted .pwrThrottleMsCnt 0 1 s t ∧ t.cores = s.cores ∧ memKept s t) ∧
  ((∃ r ∈ readings dies lid others, tripAt r.1 ≤ r.2.2) → ∃ t, exec (.thermalSample dies lid others) s = .next t ∧ t.pwrState = 0 ∧
    t.rd .pwrLastOff 0 0 = 4 ∧ t.outbox = s.outbox ++ [.pin 2 false] ∧ t.vmem = [])

/-- RETUNE (R28, R453). -/
def Retune : Prop := ∀ (s : State) (i mhz : Nat), s.pwrState = 3 → i < 136 → (128 ≤ i ∨ s.active i = true) →
  ∃ t, exec (.retune i mhz) s = .next t ∧ SMap.get (fun _ => 0) t.pwr.freq i = s.tuned i mhz ∧ t = { s with pwr := t.pwr }

/-! ## Resets and boot (R470 to R488) -/

/-- A warm reset (R471, R472, R484): counted, shown in LAST, the chain starts anew, the vaults keep what they hold and the image is
unsealed. -/
def warmed (c : Instr) (s : State) : Prop :=
  ∃ t, exec c s = .next t ∧ t.rdF .hubResetStatus 0 0 0 3 = 2 ∧ t.stage = 1 ∧ counted .hubWarmResetCnt 0 1 s t ∧ t.vmem = s.vmem ∧
    t.stg = [] ∧ t.isSealed = false ∧ t.boot.warm = true

/-- A cold reset (R470, R472). -/
def cooled (c : Instr) (s : State) : Prop :=
  ∃ t, exec c s = .next t ∧ t.rdF .hubResetStatus 0 0 0 3 = (if s.ward.d3 = true then 3 else 1) ∧ t.vmem = [] ∧ t.stg = [] ∧
    t.isSealed = false ∧ t.rd .wardLifecycle 0 0 = s.rd .wardLifecycle 0 0

/-- WARM_RESET, COLD_RESET and MCTP_RESET (R470 to R472): with the key; without it the write is refused and counted. During the chain a
warm request is refused too, and a cold one waits for the next boundary of a warm reset. -/
def Resets : Prop := ∀ s : State, s.pwrState ≠ 0 →
  (s.booting = true → ∀ c ∈ [Instr.warmReset 0xB007, Instr.mctpReset true], ∃ t, exec c s = .next t ∧
    counted .hubRegWriteRejCnt 0 1 s t ∧ regsBut [regKey .hubRegWriteRejCnt 0 0] s t ∧ t.cores = s.cores ∧ memKept s t) ∧
  (s.booting = true → s.boot.recovery = false → ∀ c ∈ [Instr.coldReset 0xB007, Instr.mctpReset false],
    exec c s = .next { s with boot := { s.boot with cold := s.boot.warm } }) ∧
  (s.booting = false → warmed (.warmReset 0xB007) s ∧ warmed (.mctpReset true) s) ∧
  (s.booting = false ∨ s.boot.recovery = true → cooled (.coldReset 0xB007) s ∧ cooled (.mctpReset false) s) ∧
  (∀ key, key ≠ 0xB007 → ∀ c ∈ [Instr.warmReset key, Instr.coldReset key], ∃ t, exec c s = .next t ∧
    counted .hubRegWriteRejCnt 0 1 s t ∧ regsBut [regKey .hubRegWriteRejCnt 0 0] s t ∧ t.cores = s.cores ∧ memKept s t)

/-- The boot chain goes on. -/
abbrev BootOk (s : State) (stage : Nat) : Prop :=
  s.pwrState ≠ 0 ∧ s.boot.recovery = false ∧ s.boot.cold = false ∧ s.stage = stage

/-- BOOT_STAGE (R476 to R478): the next stage completes, with its own effect; a set that fails gives way to the other, and with both
failed the package is in recovery. A cold request that waits takes effect. -/
def BootStage : Prop := ∀ (s : State) (feed : Nat) (bad : Bool),
  (s.pwrState ≠ 0 → s.booting = true → s.boot.recovery = false → s.boot.cold = true → cooled (.bootStage feed bad) s) ∧
  (BootOk s 1 → ∃ t, exec (.bootStage feed bad) s = .next t ∧ t.stage = 2 ∧ onlyRegs [regKey .hubResetStatus 0 0] s t) ∧
  (BootOk s 2 → ∃ t, exec (.bootStage feed bad) s = .next t ∧ t.stage = 3 ∧ t.ward.rngBad = false ∧
    regsBut [regKey .hubResetStatus 0 0] s t ∧ t.cores = s.cores ∧ memKept s t) ∧
  (BootOk s 3 → ∃ t, exec (.bootStage feed bad) s = .next t ∧ t.stage = 4 ∧ t.boot.dir = s.activeSet ∧
    (ccbBad s.ccb = none → t.ccbIsBad = false ∧ t.rd .hubPkgNum 0 0 = s.ccb.getD 4 0 % 2 ^ 64) ∧
    (∀ c, ccbBad s.ccb = some c → t.ccbIsBad = true ∧ recorded .bootCcb (.gen c 0 0 0 0 0) s t) ∧ t.cores = s.cores ∧ memKept s t) ∧
  (BootOk s 4 → (s.bootObj 1).2 = 0 → ∃ t, exec (.bootStage feed false) s = .next t ∧ t.stage = 5 ∧
    t.rdF .hubResetStatus 0 0 3 1 = s.boot.dir % 2 ∧ t.cores = s.cores ∧ memKept s t) ∧
  (BootOk s 5 → (s.bootObj 2).2 = 0 → ((s.bootObj 2).1.bootObj 3).2 = 0 → ∃ t, exec (.bootStage feed false) s = .next t ∧
    t.stage = 6 ∧ t.cores = s.cores ∧ memKept s t) ∧
  (BootOk s 4 ∨ BootOk s 5 → s.boot.tried = false → ∃ t, exec (.bootStage feed true) s = .next t ∧ t.stage = 4 ∧
    t.boot.dir = 1 - s.boot.dir ∧ t.boot.tried = true ∧ counted .hubBootFallbackCnt 0 1 s t ∧ t.cores = s.cores ∧ memKept s t) ∧
  (BootOk s 4 ∨ BootOk s 5 → s.boot.tried = true → ∃ t, exec (.bootStage feed true) s = .next t ∧ t.boot.recovery = true ∧
    t.regs = s.regs ∧ t.cores = s.cores ∧ memKept s t) ∧
  (BootOk s 6 → ∃ t, exec (.bootStage feed bad) s = .next t ∧ t.stage = 7 ∧
    regsBut [regKey .hubResetStatus 0 0, regKey .tierStatus 0 0] s t ∧ t.cores = s.cores ∧ memKept s t) ∧
  (BootOk s 7 → ∃ t, exec (.bootStage feed bad) s = .next t ∧ t.stage = 8 ∧ t.pwrState = 1 ∧
    regsBut [regKey .hubResetStatus 0 0, regKey .pwrStatus 0 0] s t ∧ t.cores = s.cores ∧ memKept s t)

/-- Bring-up goes on (R479). -/
abbrev BringOk (s : State) (stage : Nat) : Prop := s.pwrState = 1 ∧ s.boot.bringup = true ∧ s.stage = stage

/-- BRINGUP_STAGE (R479 to R482, R486): cores that fail are fenced and recorded; vaults that have not been tested start empty; an entry
that the fault history cannot take is recorded; at the last stage the package is in Run and every core Dark. -/
def BringupStage : Prop := ∀ (s : State) (bad lines : List (Nat × Nat)) (lost : List (Nat × Nat × Nat)),
  (∀ n, BringOk s n → n = 8 ∨ n = 9 ∨ n = 12 → ∃ t, exec (.bringupStage bad (lines, lost)) s = .next t ∧ t.stage = n + 1 ∧
    onlyRegs [regKey .hubResetStatus 0 0] s t) ∧
  (∀ g cause, BringOk s 10 → g < 128 → cause ≤ 1 → (s.core g).fence = .none →
    ∃ t, exec (.bringupStage [(g, cause)] (lines, lost)) s = .next t ∧ t.stage = 11 ∧ (t.core g).fence = .dark ∧ t.coreState g = 3 ∧
      (t.rd (if g < 64 then .hubFencedLo else .hubFencedHi) 0 0).testBit (g % 64) = true ∧
      recorded .bootFence (.gen cause g 0 0 0 0) s t ∧ coresBut [g] s t ∧ memKept s t) ∧
  (BringOk s 11 → ∃ t, exec (.bringupStage [] (lines, lost)) s = .next t ∧ t.stage = 12 ∧
    (∀ g, g < 128 → (t.core g).vlt.selfRefresh = false) ∧ regsBut [regKey .hubResetStatus 0 0] s t ∧ memKept s t) ∧
  (BringOk s 13 → s.ccbIsBad = true ∨ s.tier.stopped = true → ∃ t, exec (.bringupStage bad (lines, lost)) s = .next t ∧ t.stage = 14 ∧
    onlyRegs [regKey .hubResetStatus 0 0] s t) ∧
  (BringOk s 13 → s.ccbIsBad = false → s.tier.stopped = false → ∃ t, exec (.bringupStage bad (lines, lost)) s = .next t ∧ t.stage = 14 ∧
    (∀ k w, k < 16 → w < 8 → s.ccbPortEn.testBit k = true → (t.plane k w).state = .training) ∧ t.cores = s.cores ∧ memKept s t) ∧
  (BringOk s 14 → s.boot.tested = false → ∃ t, exec (.bringupStage bad ([], lost)) s = .next t ∧ t.stage = 15 ∧ t.boot.tested = true ∧
    t.vmem = [] ∧ t.cores = s.cores ∧ t.stg = s.stg) ∧
  (∀ g n a, BringOk s 14 → s.boot.tested = true → g < 128 → n < 12 →
    ∃ t, exec (.bringupStage bad (lines, [(g, n, a)])) s = .next t ∧ t.stage = 15 ∧ t.boot.unsaved = s.boot.unsaved ++ [(g, n)] ∧
      recorded .bootHistory (.gen 0 0 0 0 0 a) s t ∧ regsBut [regKey .hubResetStatus 0 0] s t ∧ t.cores = s.cores ∧ memKept s t) ∧
  (BringOk s 15 → ∃ t, exec (.bringupStage bad (lines, lost)) s = .next t ∧ t.pwrState = 3 ∧ t.boot.bringup = false ∧
    (∀ g, g < 128 → t.coreState g = 3) ∧ pend t = (0, 0) ∧ t.cores = s.cores ∧ memKept s t)

end Sys2Proof.Claims

/-- POWER_RUN, POWER_HOLD, HOLD_ENTRY, POWER_STANDBY, POWER_OFF, PWREN_LOW, UNDER_VOLTAGE, OVER_VOLTAGE and POWER_GOOD. -/
def Obligations.PowerStateCommands : Prop :=
  Sys2Proof.Claims.PowerRun ∧ Sys2Proof.Claims.PowerHold ∧ Sys2Proof.Claims.HoldEntry ∧ Sys2Proof.Claims.PowerStandby ∧
  Sys2Proof.Claims.PowerOffs ∧ Sys2Proof.Claims.PowerGood

/-- BROWNOUT, BROWNOUT_END, CONVERTER_FAULT, PWR_LIMIT and GRANT_REQUEST. -/
def Obligations.PowerLimitCommands : Prop :=
  Sys2Proof.Claims.Brownouts ∧ Sys2Proof.Claims.ConverterFault ∧ Sys2Proof.Claims.PwrLimit ∧ Sys2Proof.Claims.GrantRequest

/-- POWER_SAMPLE, THROTTLE_LINE, THERMAL_SAMPLE and RETUNE. -/
def Obligations.PowerSampleCommands : Prop :=
  Sys2Proof.Claims.PowerSample ∧ Sys2Proof.Claims.ThrottleLine ∧ Sys2Proof.Claims.ThermalSample ∧ Sys2Proof.Claims.Retune

/-- WARM_RESET, COLD_RESET, MCTP_RESET, BOOT_STAGE and BRINGUP_STAGE. -/
def Obligations.ResetAndBootCommands : Prop :=
  Sys2Proof.Claims.Resets ∧ Sys2Proof.Claims.BootStage ∧ Sys2Proof.Claims.BringupStage
namespace Sys2Proof.Claims

open Machine

/-! ## MCTP (R503): binding 0 SMBus, 1 PCIe -/

/-- A message of a binding reaches its handler: the binding is there and open, the package is powered, no recovery runs, and
without an endpoint ID only control messages are served. -/
abbrev MctpOk (s : State) (b : Nat) (control : Bool) : Prop :=
  s.pwrState ≠ 0 ∧ s.mctpHas b = true ∧ s.mctpOpen b = true ∧ (control = true ∨ s.eid b ≠ 0) ∧ s.boot.recovery = false

/-- The hub answers with a message and nothing else changes. -/
def answers (c : Instr) (s : State) (b : Nat) (m : List Nat) : Prop := exec c s = .next (s.send (.mctp b m))

/-- The hub discards the message, counted. -/
def discards (c : Instr) (s : State) : Prop := ∃ t, exec c s = .next t ∧ counted .hubMctpViolCnt 0 1 s t ∧
  t.outbox = s.outbox ∧ regsBut [regKey .hubMctpViolCnt 0 0] s t ∧ t = { s with regs := t.regs, viols := t.viols }

/-- SET_ENDPOINT_ID and GET_ENDPOINT_ID (R503). -/
def EndpointIds : Prop := ∀ (s : State) (b op eid : Nat), b < 2 → MctpOk s b true →
  (op < 2 → eid % 256 ≠ 0 → eid % 256 ≠ 0xFF → ∃ t : State, exec (.setEndpointId b op eid) s = .next t ∧ t.eid b = eid % 256 ∧
    t.eid (1 - b) = s.eid (1 - b) ∧ t = { s with regs := t.regs, outbox := s.outbox ++ [.mctp b [0, 1, 0, 0, eid % 256, 0]] } ∧
    regsBut [regKey .hubMctpEid 0 0] s t) ∧
  (2 ≤ op ∨ eid % 256 = 0 ∨ eid % 256 = 0xFF → answers (.setEndpointId b op eid) s b [0, 1, 2]) ∧
  answers (.getEndpointId b) s b [0, 2, 0, s.eid b, 0, 0]

/-- GET_MCTP_VERSION_SUPPORT, GET_MESSAGE_TYPE_SUPPORT and GET_VENDOR_DEFINED_MSG_SUPPORT (R503): the base is 1.3, the types are SPDM,
PLDM and vendor-defined; versions that the spec does not give are open. -/
def MctpSupport : Prop := ∀ (s : State) (b typ sel : Nat), MctpOk s b true →
  (typ = 0 ∨ typ = 0xFF → answers (.getMctpVersionSupport b typ) s b [0, 4, 0, 1, 0xF1, 0xF3, 0xFF, 0]) ∧
  (typ = 1 ∨ typ = 5 ∨ typ = 0x7E → ∃ v : List Nat, v.length = 4 ∧ answers (.getMctpVersionSupport b typ) s b ([0, 4, 0, 1] ++ v)) ∧
  (typ ∉ [0, 1, 5, 0x7E, 0xFF] → answers (.getMctpVersionSupport b typ) s b [0, 4, 0x80]) ∧
  answers (.getMessageTypeSupport b) s b [0, 5, 0, 3, 1, 5, 0x7E] ∧
  (sel = 0 → ∃ x y : Nat, x < 256 ∧ y < 256 ∧ answers (.getVendorDefinedMsgSupport b sel) s b [0, 6, 0, 0xFF, 0, x, y, 0, 0]) ∧
  (sel ≠ 0 → answers (.getVendorDefinedMsgSupport b sel) s b [0, 6, 2])

/-- Messages of a binding that is off, and other messages than control without an endpoint ID, are discarded and counted (R503). -/
def MctpDiscards : Prop := ∀ (s : State) (b : Nat) (req : List Nat), s.pwrState ≠ 0 → s.mctpHas b = true →
  (s.mctpOpen b = false → discards (.getEndpointId b) s ∧ discards (.getTid b) s ∧ discards (.wardResult b) s ∧
    discards (.getMessageTypeSupport b) s) ∧
  (s.eid b = 0 → discards (.getTid b) s ∧ discards (.getPldmTypes b) s ∧ discards (.wardResult b) s ∧ discards (.nonce b) s ∧
    (b ≠ 2 → discards (.getVersion b req) s))

/-! ## Vendor-defined commands (R425, R504) -/

abbrev VdmOk (s : State) (b : Nat) : Prop := MctpOk s b false ∧ s.vdmBusy b = false

/-- While a request of the binding is in progress every other is answered BUSY (R504). -/
def VdmBusy : Prop := ∀ (s : State) (b addr value : Nat) (block : List Nat), MctpOk s b false → s.vdmBusy b = true →
  answers (.regRead b addr) s b (vdmHead ++ [1, 3]) ∧ answers (.regWrite b addr value) s b (vdmHead ++ [2, 3]) ∧
  answers (.wardSubmit b block) s b (vdmHead ++ [3, 3]) ∧ answers (.wardResult b) s b (vdmHead ++ [4, 3]) ∧
  answers (.nonce b) s b (vdmHead ++ [5, 3])

/-- REG_READ (R15, R489, R496, R504): of a register of this package that the MCTP column lets be read, its value, with a clearing read's
effect; an address outside the control spaces, and another package before an image is sealed, are answered with a failure; a reserved
address counts, and reads zero in control-register space. -/
def RegRead : Prop := ∀ (s : State) (b addr off i k : Nat) (r : Reg), b < 2 → VdmOk s b →
  (ctrlOff addr = some off → addrPkg addr = s.pkg → off % 8 = 0 → regSlot off = some (r, i, k) → r ≠ .hubFltqRec →
    (pathOk 1 r false = true → ∃ t : State, exec (.regRead b addr) s = .next t ∧
      t = { s with regs := t.regs, outbox := s.outbox ++ [.mctp b (vdmHead ++ [1, 0] ++ leBytes 8 (s.shown r i k))] } ∧
      regsBut [regKey r i k] s t ∧
      (r.desc.fields.any (fun f => f.acc == .rc) = true → s.gone r i = false → t.rd r i k = 0) ∧
      (r.desc.fields.any (fun f => f.acc == .rc) = false → t.regs = s.regs)) ∧
    (pathOk 1 r false = false → answers (.regRead b addr) s b (vdmHead ++ [1, 1] ++ List.replicate 8 0))) ∧
  (ctrlOff addr = none → locOf addr ≠ .bad → answers (.regRead b addr) s b (vdmHead ++ [1, 2] ++ List.replicate 8 0)) ∧
  (locOf addr = .bad → ∃ t, exec (.regRead b addr) s = .next t ∧ counted .hubAddrViolCnt 0 1 s t ∧
    t.outbox = s.outbox ++ [.mctp b (vdmHead ++ [1, if addrSpace addr = 3 then 0 else 2] ++ List.replicate 8 0)] ∧
    regsBut [regKey .hubAddrViolCnt 0 0] s t ∧ t.cores = s.cores ∧ memKept s t) ∧
  (ctrlOff addr = some off → addr % 8 = 0 → addrPkg addr ≠ s.pkg → s.isSealed = false →
    answers (.regRead b addr) s b (vdmHead ++ [1, 4] ++ List.replicate 8 0))

/-- REG_WRITE (R20, R496, R504): HUB_SCRATCH takes the value; a write that the MCTP column refuses is counted. -/
def RegWrite : Prop := ∀ (s : State) (b addr value off i k : Nat) (r : Reg), b < 2 → VdmOk s b → ctrlOff addr = some off →
  addrPkg addr = s.pkg →
  (off = Reg.offset .hubScratch 0 0 → ∃ t : State, exec (.regWrite b addr value) s = .next t ∧
    t.rd .hubScratch 0 0 = value % 2 ^ 64 ∧ t = { s with regs := t.regs, outbox := s.outbox ++ [.mctp b (vdmHead ++ [2, 0])] } ∧
    regsBut [regKey .hubScratch 0 0] s t) ∧
  (off % 8 = 0 → regSlot off = some (r, i, k) → pathOk 1 r true = false → ∃ t, exec (.regWrite b addr value) s = .next t ∧
    counted .hubRegWriteRejCnt 0 1 s t ∧ regsBut [regKey .hubRegWriteRejCnt 0 0] s t ∧
    t.outbox = s.outbox ++ [.mctp b (vdmHead ++ [2, 1])] ∧ t.cores = s.cores ∧ memKept s t)

/-- WARD_SUBMIT, WARD_RESULT and NONCE (R425, R504): a block has the effect that it has through the mailbox; its result is read later.
A block that comes while the mailbox is BUSY is ignored and counted. -/
def WardOverMctp : Prop := ∀ (s : State) (b : Nat) (block : List Nat), VdmOk s b →
  (64 ≤ block.length → block.length ≤ 576 → block.all (· < 256) = true → s.wardUp = true →
    (s.ward.block = none → ∃ t, exec (.wardSubmit b block) s = .next t ∧ t = s.wardRun block) ∧
    (s.ward.block ≠ none → ∃ t, exec (.wardSubmit b block) s = .next t ∧ counted .wardViolCnt 0 1 s t ∧ t.ward = s.ward ∧
      regsBut [regKey .wardViolCnt 0 0] s t ∧ t.cores = s.cores ∧ memKept s t) ∧
    ((wardBlk block).code = 1 → exec (.wardSubmit b block) s = exec (.provision block) s) ∧
    ((wardBlk block).code = 0x10 → exec (.wardSubmit b block) s = exec (.openD2 block) s)) ∧
  (block.length < 64 ∨ 576 < block.length → answers (.wardSubmit b block) s b (vdmHead ++ [3, 2])) ∧
  answers (.wardResult b) s b (vdmHead ++ [4, 0] ++ leBytes 4 (s.rd .wardMboxStatus 0 0) ++ s.ward.answer) ∧
  (s.ward.rngBad = false → s.ward.block = none → ∃ t n, exec (.nonce b) s = .next t ∧ t.ward.nonce = some n ∧ n < 2 ^ 128 ∧
    t.outbox = s.outbox ++ [.mctp b (vdmHead ++ [5, 0] ++ leBytes 8 (n % 2 ^ 64) ++ leBytes 8 (n / 2 ^ 64))] ∧
    regsBut [regKey .wardDbgNonce 0 0, regKey .wardDbgNonce 0 1] s t ∧ t.cores = s.cores ∧ memKept s t)

/-- RECOVERY_WRITE (R478, R504): in recovery, over SMBus, the bytes go to the inactive region of the boot flash; elsewhere, too long or
beyond the set, a failure and nothing else. -/
def RecoveryWrite : Prop := ∀ (s : State) (off : Nat) (data : List Nat), s.vdmBusy 0 = false → s.pwrState ≠ 0 →
  s.mctpOpen 0 = true → s.eid 0 ≠ 0 →
  (s.boot.recovery = true → data.length ≤ 960 → off + data.length < setBytes → ∃ t : State, exec (.recoveryWrite 0 off data) s = .next t ∧
    t.flashAt ((objPlace (1 - s.activeSet) 1).1 + off) data.length = data.map (· % 256) ∧
    (∀ a, a < (objPlace (1 - s.activeSet) 1).1 + off ∨ (objPlace (1 - s.activeSet) 1).1 + off + data.length ≤ a →
      t.flashAt a 1 = s.flashAt a 1) ∧
    t = { s with boot := t.boot, outbox := s.outbox ++ [.mctp 0 (vdmHead ++ [6, 0])] }) ∧
  (s.boot.recovery = true → data.length ≤ 960 → off + data.length = setBytes → ∃ t : State, exec (.recoveryWrite 0 off data) s = .next t ∧
    t = { s with boot := t.boot, outbox := s.outbox ++ [.mctp 0 (vdmHead ++ [6, 0])] }) ∧
  (s.boot.recovery = true → 960 < data.length ∨ setBytes < off + data.length →
    answers (.recoveryWrite 0 off data) s 0 (vdmHead ++ [6, 2])) ∧
  (s.boot.recovery = false → answers (.recoveryWrite 0 off data) s 0 (vdmHead ++ [6, 1]))

/-! ## SPDM (R429, R430): paths 0 and 1 as the bindings, 2 the DOE mailbox -/

/-- A request reaches the responder of a path. -/
abbrev SpdmOk (s : State) (p : Nat) : Prop := (p = 2 ∧ s.pwrState ≠ 0 ∧ s.gateway.isSome = true ∧ s.boot.recovery = false) ∨
  (p ≠ 2 ∧ MctpOk s p false)

/-- A request of SPDM 1.2 with its code. -/
abbrev SpdmReq (code : Nat) (req : List Nat) : Prop := 4 ≤ req.length ∧ req.getD 1 0 = code ∧ req.headD 0 = 0x12

/-- A message to a path: over MCTP behind its type. -/
def spdmMsg (p : Nat) (m : List Nat) : Out := .mctp p (if p = 2 then m else 0x05 :: m)

/-- The responder answers and the exchange of the path goes on. -/
def spdmAnswers (c : Instr) (s : State) (p : Nat) (m : List Nat) (x : Spdm) : Prop := ∃ t : State, exec c s = .next t ∧
  t.spdmOf p = x ∧ (∀ q, q ≠ p → t.spdmOf q = s.spdmOf q) ∧
  t = { s with hub := { s.hub with spdm := t.hub.spdm }, freeIx := t.freeIx, outbox := s.outbox ++ [spdmMsg p m] }

/-- The responder answers with an error and nothing else changes. -/
def spdmFails (c : Instr) (s : State) (p code data : Nat) : Prop :=
  exec c s = .next (s.send (spdmMsg p [0x12, 0x7F, code, data]))

/-- GET_VERSION, GET_CAPABILITIES and NEGOTIATE_ALGORITHMS (R429): version 1.2; certificates, challenge and signed measurements; ECDSA
over P-256 with SHA-256. -/
def SpdmNegotiation : Prop := ∀ (s : State) (p : Nat) (req : List Nat), SpdmOk s p →
  (4 ≤ req.length → req.getD 1 0 = 0x84 → spdmAnswers (.getVersion p req) s p [0x10, 4, 0, 0, 0, 1, 0, 0x12]
    ⟨1, req ++ [0x10, 4, 0, 0, 0, 1, 0, 0x12], [], []⟩) ∧
  (SpdmReq 0xE1 req → 1 ≤ (s.spdmOf p).stage → ∃ ct m : Nat, ct < 256 ∧ m = 1024 ∧
    spdmAnswers (.getCapabilities p req) s p ([0x12, 0x61, 0, 0, 0, ct, 0, 0, 0x36, 0, 0, 0] ++ leBytes 4 m ++ leBytes 4 m)
      ⟨2, (s.spdmOf p).vca ++ req ++ ([0x12, 0x61, 0, 0, 0, ct, 0, 0, 0x36, 0, 0, 0] ++ leBytes 4 m ++ leBytes 4 m), [], []⟩) ∧
  (SpdmReq 0xE3 req → 2 ≤ (s.spdmOf p).stage → ∃ m : List Nat, m.length = 36 ∧
    m.take 20 = [0x12, 0x63, 0, 0, 36, 0, 1, 0, 2, 0, 0, 0, 0x10, 0, 0, 0, 1, 0, 0, 0] ∧
    spdmAnswers (.negotiateAlgorithms p req) s p m ⟨3, (s.spdmOf p).vca ++ req ++ m, [], []⟩)

/-- A request before its turn is answered UnexpectedRequest, one that is not supported UnsupportedRequest; nothing else changes. -/
def SpdmErrors : Prop := ∀ (s : State) (p : Nat) (req : List Nat), SpdmOk s p →
  (SpdmReq 0xE1 req → (s.spdmOf p).stage = 0 → spdmFails (.getCapabilities p req) s p 4 0) ∧
  (SpdmReq 0xE3 req → (s.spdmOf p).stage < 2 → spdmFails (.negotiateAlgorithms p req) s p 4 0) ∧
  (SpdmReq 0x81 req → (s.spdmOf p).stage < 3 → spdmFails (.getDigests p req) s p 4 0) ∧
  (SpdmReq 0x82 req → (s.spdmOf p).stage < 3 → spdmFails (.getCertificate p req) s p 4 0) ∧
  (SpdmReq 0x83 req → (s.spdmOf p).stage < 3 → spdmFails (.challenge p req) s p 4 0) ∧
  (SpdmReq 0xE0 req → (s.spdmOf p).stage < 3 → spdmFails (.getMeasurements p req) s p 4 0) ∧
  (4 ≤ req.length → req.getD 1 0 ∉ spdmCodes → spdmFails (.getMeasurements p req) s p 7 (req.getD 1 0)) ∧
  (SpdmReq 0x81 req → 3 ≤ (s.spdmOf p).stage → s.provisioned = false → spdmFails (.getDigests p req) s p 5 0)

/-- GET_DIGESTS and GET_CERTIFICATE (R429): the digest and a portion of the chain of slot 0. -/
def SpdmCertificates : Prop := ∀ (s : State) (p off len : Nat) (req m : List Nat), SpdmOk s p → 3 ≤ (s.spdmOf p).stage →
  s.provisioned = true →
  (SpdmReq 0x81 req → m = [0x12, 1, 0, 1] ++ sha256 s.certChain →
    spdmAnswers (.getDigests p req) s p m ⟨3, (s.spdmOf p).vca, (s.spdmOf p).m1 ++ req ++ m, []⟩) ∧
  (SpdmReq 0x82 req → req.getD 2 0 = 0 → 8 ≤ req.length → off = leNat ((req.drop 4).take 2) → len = leNat ((req.drop 6).take 2) →
    (off < s.certChain.length → len ≤ 1008 → off + len ≤ s.certChain.length →
      m = [0x12, 2, 0, 0] ++ leBytes 2 len ++ leBytes 2 (s.certChain.length - off - len) ++ (s.certChain.drop off).take len →
      spdmAnswers (.getCertificate p req) s p m ⟨3, (s.spdmOf p).vca, (s.spdmOf p).m1 ++ req ++ m, []⟩) ∧
    (s.certChain.length ≤ off → spdmFails (.getCertificate p req) s p 1 0))

/-- CHALLENGE (R418, R429): the digest of the chain, 32 bytes of nonce, the summary of the measurements when asked, and a signature of 64
bytes; the values drawn at random are open. Without entropy it is refused. -/
def SpdmChallenge : Prop := ∀ (s : State) (p : Nat) (req : List Nat), SpdmOk s p → SpdmReq 0x83 req → 3 ≤ (s.spdmOf p).stage →
  (s.provisioned = true → req.getD 2 0 = 0 → 36 ≤ req.length → s.ward.rngBad = true → spdmFails (.challenge p req) s p 5 0) ∧
  (s.provisioned = true → req.getD 2 0 = 0 → 36 ≤ req.length → s.ward.rngBad = false → ∃ nonce sig : List Nat, nonce.length = 32 ∧ sig.length = 64 ∧
    spdmAnswers (.challenge p req) s p ([0x12, 3, 0, 1] ++ sha256 s.certChain ++ nonce
      ++ (if req.getD 3 0 = 0 then [] else sha256 s.measAll) ++ [0, 0] ++ sig) ⟨3, (s.spdmOf p).vca, [], []⟩) ∧
  (s.provisioned = false ∨ req.getD 2 0 ≠ 0 → spdmFails (.challenge p req) s p 1 0)

/-- GET_MEASUREMENTS (R418, R430): operation 0 gives the number of blocks, 6; 1 to 6 one block, 0xFF all; a signature when asked,
and then a refusal without entropy. A package that is not provisioned answers none (R422). -/
def SpdmMeasurements : Prop := ∀ (s : State) (p op : Nat) (req blk : List Nat), SpdmOk s p → SpdmReq 0xE0 req →
  3 ≤ (s.spdmOf p).stage → op = req.getD 3 0 → (op ≤ 6 ∨ op = 0xFF) →
  blk = (if op = 0 then [] else if op = 0xFF then s.measAll else s.measBlock op) →
  (s.provisioned = false → spdmFails (.getMeasurements p req) s p 1 0) ∧
  ((req.getD 2 0).testBit 0 = false → s.provisioned = true → ∃ nonce l1 : List Nat, nonce.length = 32 ∧
    spdmAnswers (.getMeasurements p req) s p ([0x12, 0x60, if op = 0 then 6 else 0, 0, if op = 0 then 0 else if op = 0xFF then 6 else 1]
      ++ leBytes 3 blk.length ++ blk ++ nonce ++ [0, 0]) ⟨3, (s.spdmOf p).vca, (s.spdmOf p).m1, l1⟩) ∧
  ((req.getD 2 0).testBit 0 = true → s.provisioned = true → 37 ≤ req.length → req.getD 36 0 = 0 → s.ward.rngBad = true →
    spdmFails (.getMeasurements p req) s p 5 0) ∧
  ((req.getD 2 0).testBit 0 = true → s.provisioned = true → 37 ≤ req.length → req.getD 36 0 = 0 → s.ward.rngBad = false →
    ∃ nonce sig : List Nat, nonce.length = 32 ∧ sig.length = 64 ∧
    spdmAnswers (.getMeasurements p req) s p ([0x12, 0x60, if op = 0 then 6 else 0, 0, if op = 0 then 0 else if op = 0xFF then 6 else 1]
      ++ leBytes 3 blk.length ++ blk ++ nonce ++ [0, 0] ++ sig) ⟨3, (s.spdmOf p).vca, (s.spdmOf p).m1, []⟩)

/-- SPDM_BUSY_TIMEOUT (R429): a request that has waited 100 ms is answered Busy. -/
def SpdmBusyTimeout : Prop := ∀ (s : State) (p : Nat), s.pwrState ≠ 0 → p < 3 → (p = 0 ∨ s.gateway.isSome = true) →
  s.boot.recovery = false → spdmFails (.spdmBusyTimeout p) s p 3 0

/-! ## PLDM (R505 to R508) -/

/-- GET_TID, GET_PLDM_VERSION, GET_PLDM_TYPES and GET_PLDM_COMMANDS (R505): types 0 and 2 with their commands; the version bytes are
open. -/
def PldmBase : Prop := ∀ (s : State) (b typ : Nat), MctpOk s b false →
  answers (.getTid b) s b [1, 0, 2, 0, s.hub.tid] ∧
  (typ = 0 ∨ typ = 2 → ∃ v : List Nat, v.length = 4 ∧ answers (.getPldmVersion b typ) s b ([1, 0, 3, 0, 0, 0, 0, 0, 5] ++ v)) ∧
  (typ ≠ 0 → typ ≠ 2 → answers (.getPldmVersion b typ) s b [1, 0, 3, 0x83] ∧ answers (.getPldmCommands b typ) s b [1, 0, 5, 0x83]) ∧
  answers (.getPldmTypes b) s b [1, 0, 4, 0, 5, 0, 0, 0, 0, 0, 0, 0] ∧
  (typ = 0 → answers (.getPldmCommands b typ) s b ([1, 0, 5, 0, 0x3C] ++ List.replicate 31 0)) ∧
  (typ = 2 → answers (.getPldmCommands b typ) s b
    ([1, 0, 5, 0, 0x10, 4, 3, 0, 2, 0, 0, 0, 0, 0, 3] ++ List.replicate 21 0))

/-- GET_PDR_REPOSITORY_INFO and GET_PDR (R505 to R507): one record for each of the 59 sensors, each naming the next. -/
def PldmRecords : Prop := ∀ (s : State) (b n : Nat), MctpOk s b false →
  (∃ total largest : Nat, answers (.getPdrRepositoryInfo b) s b
    ([1, 2, 0x50, 0, 0] ++ leBytes 4 59 ++ leBytes 4 total ++ leBytes 4 largest)) ∧
  (1 ≤ n → n ≤ 59 → answers (.getPdr b n) s b ([1, 2, 0x51, 0] ++ leBytes 4 (if n = 59 then 0 else n + 1) ++ s.pdr n)) ∧
  (1 ≤ n → n ≤ 59 → (s.pdr n).take 7 = leBytes 4 n ++ [if pdrSensors.getD (n - 1) 0 < 0x100 then 2 else 4]
    ++ leBytes 2 (pdrSensors.getD (n - 1) 0)) ∧
  exec (.getPdr b 0) s = exec (.getPdr b 1) s ∧
  (59 < n → answers (.getPdr b n) s b [1, 2, 0x51, 0x82])

/-- GET_SENSOR_READING and GET_STATE_SENSOR_READINGS (R505 to R507): a sensor shows its register; one that is disabled or unpowered has
no reading. -/
def PldmReadings : Prop := ∀ (s : State) (b id d : Nat) (v : Int), MctpOk s b false →
  (id ∈ numSensors → s.hub.disabled.contains id = false → s.numReading id = some v →
    answers (.getSensorReading b id) s b ([1, 2, 0x11, 0, 0, s.alarm id v (s.levelOf id)] ++ leBytes 4 (v % 2 ^ 32).toNat)) ∧
  (id ∈ numSensors → s.hub.disabled.contains id = false → s.numReading id = none →
    answers (.getSensorReading b id) s b [1, 2, 0x11, 0, 2, 0, 0, 0, 0, 0]) ∧
  (id ∈ numSensors → s.hub.disabled.contains id = true → answers (.getSensorReading b id) s b [1, 2, 0x11, 0, 1, 0, 0, 0, 0, 0]) ∧
  (id ∉ numSensors → answers (.getSensorReading b id) s b [1, 2, 0x11, 0x80]) ∧
  (d < 8 → s.numReading (0x30 + d) = if 2 ≤ s.pwrState then some (s.rdF .pwrTempDie 0 d 0 8 : Int) else none) ∧
  answers (.getStateSensorReadings b 0x100) s b [1, 2, 0x21, 0, 0, s.pwrState + 1] ∧
  answers (.getStateSensorReadings b 0x104) s b [1, 2, 0x21, 0, 0, bitsOf (s.live .hubImageStatus 0 0) 0 3 + 1] ∧
  (s.gateway = none → answers (.getStateSensorReadings b 0x105) s b [1, 2, 0x21, 0, 2, 0]) ∧
  (id ∉ stateSensors → answers (.getStateSensorReadings b id) s b [1, 2, 0x21, 0x80])

/-- SET_NUMERIC_SENSOR_ENABLE, SET_EVENT_RECEIVER and PLDM_EVENT_ACK (R505, R508). -/
def PldmEvents : Prop := ∀ (s : State) (b id op eid n : Nat), MctpOk s b false →
  (id ∈ numSensors → op < 2 → ∃ t : State, exec (.setNumericSensorEnable b id op) s = .next t ∧
    (t.hub.disabled.contains id = true ↔ op = 1) ∧ (∀ x, x ≠ id → t.hub.disabled.contains x = s.hub.disabled.contains x) ∧
    t = { s with hub := { s.hub with disabled := t.hub.disabled }, outbox := s.outbox ++ [.mctp b [1, 2, 0x10, 0]] }) ∧
  (id ∈ numSensors → 2 ≤ op → answers (.setNumericSensorEnable b id op) s b [1, 2, 0x10, 0x81]) ∧
  (id ∉ numSensors → answers (.setNumericSensorEnable b id op) s b [1, 2, 0x10, 0x80]) ∧
  exec (.setEventReceiver b 0 eid) s
    = .next { s with hub := { s.hub with receiver := none }, outbox := s.outbox ++ [.mctp b [1, 2, 4, 0]] } ∧
  (op ≠ 0 → ∃ t : State, exec (.setEventReceiver b op eid) s = .next t ∧ t.hub.receiver = some (b, eid % 256) ∧
    t.levelOf 0x100 = s.pwrState + 1 ∧
    t = { s with outbox := s.outbox ++ [.mctp b [1, 2, 4, 0]],
                 hub := { s.hub with receiver := t.hub.receiver, levels := t.hub.levels } }) ∧
  (n < s.hub.events.length → exec (.pldmEventAck n) s
    = .next { s with hub := { s.hub with events := s.hub.events.eraseIdx n },
                     outbox := s.outbox ++ (if s.hub.events.length = 1 then [.pin 3 true] else []) })

/-! ## Registers (R16 to R20, R76, R364, R491, R496, R498, R509, R519 to R523) -/

/-- A register read over a path finds the package as it stands; over BAR0 the host link is up, its speed and width shown (R386; the
model's choice, log entry 129). -/
def seenBy (s : State) (path : Nat) : State := if path = 0 then s.linkSeen else s

/-- What a read over BAR0 finds: HOST_LINK with DL_UP set, and nothing else changed; nothing at all where it was set. -/
def LinkSeen : Prop := ∀ s : State, ((s.rd .hostLink 0 0).testBit 10 = true → seenBy s 0 = s) ∧
  ((seenBy s 0).rd .hostLink 0 0).testBit 10 = true ∧ regsBut [regKey .hostLink 0 0] s (seenBy s 0) ∧
  seenBy s 0 = { s with regs := (seenBy s 0).regs, freeIx := (seenBy s 0).freeIx } ∧ seenBy s 1 = s

/-- RC_READ (R16, R18, R364, R491, R496): a read over BAR0 or MCTP shows the register; a clearing one leaves zero; an address without a
register reads zero, counted, and so does a read of a width that is neither 4 nor 8 bytes. -/
def RcRead : Prop := ∀ (s0 s : State) (path off i k w : Nat) (r : Reg), s0.pwrState ≠ 0 → path < 2 → off % 8 = 0 → s = seenBy s0 path →
  (w ≠ 0 → w ≠ 4 → w ≠ 8 → ∃ t, exec (.rcRead (path + 16 * w) off) s0 = .next t ∧ t.outbox = s.outbox ++ [.regData path 0] ∧
    counted (if path = 0 then .hostViolCnt else .hubAddrViolCnt) 0 1 s t ∧
    regsBut [regKey (if path = 0 then .hostViolCnt else .hubAddrViolCnt) 0 0] s t ∧ t.cores = s.cores ∧ memKept s t) ∧
  (exec (.rcRead (path + 16 * 8) off) s0 = exec (.rcRead path off) s0 ∧
    exec (.rcRead (path + 16 * 4) off) s0 = exec (.halfReadLatch path off) s0) ∧
  (regSlot off = some (r, i, k) → r ≠ .hubFltqRec → pathOk path r false = true → ∃ t : State, exec (.rcRead path off) s0 = .next t ∧
    t = { s with regs := t.regs, outbox := s.outbox ++ [.regData path (s.shown r i k)] } ∧ regsBut [regKey r i k] s t ∧
    (r.desc.fields.any (fun f => f.acc == .rc) = true → s.gone r i = false → t.rd r i k = 0) ∧
    (r.desc.fields.any (fun f => f.acc == .rc) = false → t.regs = s.regs)) ∧
  (regSlot off = some (r, i, k) → pathOk path r false = false → exec (.rcRead path off) s0 = .next (s.send (.regData path 0))) ∧
  (regSlot off = none → ∃ t, exec (.rcRead path off) s0 = .next t ∧ t.outbox = s.outbox ++ [.regData path 0] ∧
    counted (if path = 0 then .hostViolCnt else .hubAddrViolCnt) 0 1 s t ∧
    regsBut [regKey (if path = 0 then .hostViolCnt else .hubAddrViolCnt) 0 0] s t ∧ t.cores = s.cores ∧ memKept s t)

/-- HALF_READ_LATCH (R19): the low half of a 64-bit register latches the high half, which the next read of the high half on that path
returns. -/
def HalfReadLatch : Prop := ∀ (s0 s : State) (path off i k v : Nat) (r : Reg), s0.pwrState ≠ 0 → path < 2 → off % 8 = 0 →
  s = seenBy s0 path → regSlot off = some (r, i, k) → r ≠ .hubFltqRec → pathOk path r false = true → r.desc.wide = true →
  (∃ t : State, exec (.halfReadLatch path off) s0 = .next t ∧ t.outbox = s.outbox ++ [.regData path (s.shown r i k % 2 ^ 32)] ∧
    t.hub.halves.find? (fun x => x.1 == path && x.2.1 == off) = some (path, off, s.shown r i k / 2 ^ 32) ∧
    regsBut [regKey r i k] s t ∧
    (r.desc.fields.any (fun f => f.acc == .rc) = true → s.gone r i = false → t.rd r i k = 0) ∧
    t = { s with regs := t.regs, hub := { s.hub with halves := t.hub.halves }, outbox := t.outbox }) ∧
  (s.hub.halves.find? (fun x => x.1 == path && x.2.1 == off) = some (path, off, v) →
    ∃ t : State, exec (.halfReadLatch path (off + 4)) s0 = .next t ∧ t.outbox = s.outbox ++ [.regData path v] ∧
    t.hub.halves.find? (fun x => x.1 == path && x.2.1 == off) = none ∧
    t = { s with hub := { s.hub with halves := t.hub.halves }, outbox := t.outbox }) ∧
  (s.hub.halves.find? (fun x => x.1 == path && x.2.1 == off) = none →
    exec (.halfReadLatch path (off + 4)) s0 = .next (s.send (.regData path (s.shown r i k / 2 ^ 32))))

/-- FLTQ_REC_LATCH (R519): slot 0 of an entry latches its record, 64 bytes, or reads zero without one; the other slots read the latched
record. -/
def FltqRecLatch : Prop := ∀ (s0 s : State) (path e n : Nat) (bs : List Nat), s0.pwrState ≠ 0 → path < 2 → e < 64 → n < 8 →
  s = seenBy s0 path →
  (s.fltq.length ≤ e → exec (.fltqRecLatch path e 0) s0
    = .next { s with hub := { s.hub with recLatch := none }, outbox := s.outbox ++ [.regData path 0] }) ∧
  ((s.fltq[e]?).map (fun x => x.record.bytes s.pkg) = some bs →
    exec (.fltqRecLatch path e 0) s0
      = .next { s with hub := { s.hub with recLatch := some (e, bs) }, outbox := s.outbox ++ [.regData path (leNat (bs.take 8))] }) ∧
  (n ≠ 0 → s.hub.recLatch = some (e, bs) →
    exec (.fltqRecLatch path e n) s0 = .next (s.send (.regData path (leNat ((bs.drop (8 * n)).take 8)))))

/-- CNS_RING_TAIL and HUB_VLOG_TAIL (R76, R521): the consumer's tail takes the value. -/
def RingTails : Prop := ∀ (s : State) (g v : Nat), s.pwrState ≠ 0 →
  (g < 128 → ∃ t, exec (.cnsRingTail g v) s = .next t ∧ t.rd .cnsRingTail g 0 = v % 2 ^ 20 ∧
    onlyRegs [regKey .cnsRingTail g 0] s t) ∧
  (∃ t, exec (.hubVlogTail v) s = .next t ∧ t.rd .hubVlogTail 0 0 = v % 2 ^ 16 ∧ onlyRegs [regKey .hubVlogTail 0 0] s t)

/-- SWEEP (R523): to a vault of the package with room: an entry of 16 bytes for each counter and total that is not skipped (offset,
zero, value), in order, behind a header of 64 bytes that counts them; with CLEAR the counters read are zero; elsewhere an error and
nothing written; while one is in progress, a counted rejection. -/
def Sweep : Prop := ∀ (s : State) (clear : Bool) (a g b : Nat), s.pwrState ≠ 0 → a = s.rd .hubSweepAddr 0 0 →
  (s.hub.sweeping ≠ none → ∃ t, exec (.sweep clear) s = .next t ∧ counted .hubRegWriteRejCnt 0 1 s t ∧
    regsBut [regKey .hubRegWriteRejCnt 0 0] s t ∧ t.hub = s.hub ∧ t.cores = s.cores ∧ memKept s t) ∧
  (s.hub.sweeping = none → locOf a = .vault g b → b + 64 + 16 * 32768 ≤ 2 ^ 33 → addrPkg a = s.pkg →
    ∃ (t s1 : State) (rs : List (Nat × Reg × Nat × Nat)) (head body : List Nat), exec (.sweep clear) s = .next t ∧
      rs = sweepRegs.filter (fun p => !(p.2.1.desc.sub.inCore && s.coreState p.2.2.1 == 3)) ∧ head.length = 64 ∧
      (head.drop 32).take 8 = leBytes 4 rs.length ++ leBytes 4 (sweepRegs.length - rs.length) ∧ body.length = 16 * rs.length ∧
      (∀ j p, rs[j]? = some p → (body.drop (16 * j)).take 16 = leBytes 4 p.1 ++ [0, 0, 0, 0] ++ leBytes 8 (s.rd p.2.1 p.2.2.1 p.2.2.2)) ∧
      t = ((s1.writeAt hubIsland (a + 64) body (s.stepTag s.lowCore) false).writeAt hubIsland a head (s.stepTag s.lowCore) false).wr
        .hubSweepStatus 0 0 2 ∧
      (clear = false → s1 = s) ∧
      (clear = true → s1 = { s with regs := s1.regs } ∧ ∀ p ∈ rs, s1.rd p.2.1 p.2.2.1 p.2.2.2
        = if p.2.1.isCnt then 0 else s.rd p.2.1 p.2.2.1 p.2.2.2)) ∧
  (s.hub.sweeping = none → addrPkg a ≠ s.pkg ∨ (locOf a = .vault g b ∧ 2 ^ 33 < b + 64 + 16 * 32768) →
    ∃ t, exec (.sweep clear) s = .next t ∧ t.rd .hubSweepStatus 0 0 = 6 ∧ onlyRegs [regKey .hubSweepStatus 0 0] s t)

/-- VLOG_ENTRY_CLOSE (R520, R521): the entry of a counter and an island leaves the open ones; it goes to the ring at the head, or is
dropped and counted when the ring is full. -/
def VlogEntryClose : Prop := ∀ (s : State) (c i n h : Nat) (v : OpenViol),
  s.viols.find? (fun x => x.counter == c && x.island == i) = some v → n = s.rdF .hubVlogSize 0 0 0 17 →
  h = s.rdF .hubVlogHead 0 0 0 16 → n ≠ 0 →
  ((h + 1) % n ≠ s.rdF .hubVlogTail 0 0 0 16 → ∃ t u : State, exec (.vlogEntryClose c i) s = .next t ∧
    t.rd .hubVlogHead 0 0 = (h + 1) % n ∧ u = { s with viols := s.viols.filter (fun x => !(x.counter == c && x.island == i)) } ∧
    t = (u.writeAt hubIsland (s.rd .hubVlogBase 0 0 + 32 * h) v.bytes (s.stepTag s.lowCore) false).wr .hubVlogHead 0 0 ((h + 1) % n)) ∧
  ((h + 1) % n = s.rdF .hubVlogTail 0 0 0 16 → ∃ t : State, exec (.vlogEntryClose c i) s = .next t ∧
    counted .hubVlogDropCnt 0 1 s t ∧ regsBut [regKey .hubVlogDropCnt 0 0] s t ∧
    t.viols = s.viols.filter (fun x => !(x.counter == c && x.island == i)) ∧ t = { s with regs := t.regs, viols := t.viols })

/-- REGISTER_WRITE (R19, R20, R364, R491): a register whose fields can be written takes the value, whole or by halves (HUB_SCRATCH); one
whose fields are all read-only keeps what it holds, and a write that would change it is counted; so is a write where no register is. -/
def RegisterWrite : Prop := ∀ (s : State) (path off v i k : Nat) (r : Reg), s.pwrState ≠ 0 → path < 2 →
  (∃ t, exec (.registerWrite path (Reg.offset .hubScratch 0 0) 8 v) s = .next t ∧ t.rd .hubScratch 0 0 = v % 2 ^ 64 ∧
    onlyRegs [regKey .hubScratch 0 0] s t) ∧
  (v < 2 ^ 32 → ∃ t, exec (.registerWrite path (Reg.offset .hubScratch 0 0) 4 v) s = .next t ∧
    t.rd .hubScratch 0 0 = v + s.rd .hubScratch 0 0 / 2 ^ 32 * 2 ^ 32 ∧ onlyRegs [regKey .hubScratch 0 0] s t) ∧
  (v < 2 ^ 32 → ∃ t, exec (.registerWrite path (Reg.offset .hubScratch 0 0 + 4) 4 v) s = .next t ∧
    t.rd .hubScratch 0 0 = v * 2 ^ 32 + s.rd .hubScratch 0 0 % 2 ^ 32 ∧ onlyRegs [regKey .hubScratch 0 0] s t) ∧
  (off % 8 = 0 → regSlot off = some (r, i, k) → pathOk path r true = true → r.desc.fields.all (fun f => f.acc == .ro) = true →
    r.desc.wide = true → (∃ f ∈ r.desc.fields, bitsOf v f.lo f.width ≠ bitsOf (s.shown r i k) f.lo f.width) → v < 2 ^ 64 →
    (s.special r k v).2 = false →
    ∃ t, exec (.registerWrite path off 8 v) s = .next t ∧ counted .hubRegWriteRejCnt 0 1 s t ∧
      regsBut [regKey .hubRegWriteRejCnt 0 0] s t ∧ t.cores = s.cores ∧ memKept s t) ∧
  (off % 8 = 0 → regSlot off = none → ∃ t, exec (.registerWrite path off 8 v) s = .next t ∧
    counted (if path = 0 then .hostViolCnt else .hubAddrViolCnt) 0 1 s t ∧
    regsBut [regKey (if path = 0 then .hostViolCnt else .hubAddrViolCnt) 0 0] s t ∧ t.cores = s.cores ∧ memKept s t)

/-- RELAY_GO (R495, R496, R498): an access through the relay window to a register of this package ends at once, its data in
HUB_RELAY_DATA and RESULT 0; an address of no control space ends with RESULT 3; a reserved address counts, and in control-register space
reads zero; another package before an image is sealed with 2; while
one runs another is counted and ignored. -/
def RelayGo : Prop := ∀ (s u : State) (off x : Nat) (a : Nat), s.pwrState ≠ 0 → a = s.rd .hubRelayAddr 0 0 →
  (s.relayBusy = false → s.hub.relays.any (fun r => r.1 == 0) = false → ctrlOff a = some off → addrPkg a = s.pkg →
    a % 8 = 0 → ((s.updHub (fun h => { h with relays := h.relays ++ [(0, a, false)] })).wr .hubRelayStatus 0 0 1).readReg 2 off 8 = (u, some x) →
    ∃ t, exec (.relayGo false) s = .next t ∧ t.rd .hubRelayData 0 0 = x % 2 ^ 64 ∧ t.rd .hubRelayStatus 0 0 = 0 ∧
      regsBut [regKey .hubRelayData 0 0, regKey .hubRelayStatus 0 0] u t ∧ t.hub.relays = s.hub.relays ∧ t.outbox = u.outbox) ∧
  (s.relayBusy = false → s.hub.relays.any (fun r => r.1 == 0) = false → ctrlOff a = some (Reg.offset .hubScratch 0 0) →
    addrPkg a = s.pkg → ∃ t : State, exec (.relayGo true) s = .next t ∧ t.rd .hubScratch 0 0 = s.rd .hubRelayData 0 0 ∧
      t.rd .hubRelayStatus 0 0 = 0 ∧ onlyRegs [regKey .hubScratch 0 0, regKey .hubRelayStatus 0 0] s t) ∧
  (s.relayBusy = false → s.hub.relays.any (fun r => r.1 == 0) = false → ctrlOff a = none → locOf a ≠ .bad → ∀ w : Bool,
    ∃ t, exec (.relayGo w) s = .next t ∧ t.rd .hubRelayStatus 0 0 = 6 ∧ onlyRegs [regKey .hubRelayStatus 0 0] s t) ∧
  (s.relayBusy = false → s.hub.relays.any (fun r => r.1 == 0) = false → locOf a = .bad → ∀ w : Bool, ∃ t, exec (.relayGo w) s = .next t ∧
    t.rd .hubRelayStatus 0 0 = (if addrSpace a = 3 then 0 else 6) ∧ counted .hubAddrViolCnt 0 1 s t ∧
    regsBut [regKey .hubRelayStatus 0 0, regKey .hubRelayData 0 0, regKey .hubAddrViolCnt 0 0] s t ∧ t.cores = s.cores ∧ memKept s t) ∧
  (s.relayBusy = false → s.hub.relays.any (fun r => r.1 == 0) = false → ctrlOff a = some off → a % 8 = 0 → addrPkg a ≠ s.pkg →
    s.isSealed = false → ∀ w : Bool, ∃ t, exec (.relayGo w) s = .next t ∧ t.rd .hubRelayStatus 0 0 = 4 ∧ onlyRegs [regKey .hubRelayStatus 0 0] s t) ∧
  (s.relayBusy = true → ∀ w : Bool, ∃ t, exec (.relayGo w) s = .next t ∧ counted .hostViolCnt 0 1 s t ∧
    regsBut [regKey .hostViolCnt 0 0] s t ∧ t.hub = s.hub ∧ t.cores = s.cores ∧ memKept s t)

/-! ## Time and clocks (R500, R501) -/

/-- TS_CORR_GO and TS_CORR_SAMPLE (R500): T0 is recorded at GO; the sample gives the island's count, T1 and half the time between, with
VALID set, but for a Dark island; a GO while one runs is counted, and ISLAND takes its value all the same. -/
def TsCorr : Prop := ∀ (s : State) (i t0 count : Nat),
  (s.pwrState ≠ 0 → (s.rd .hubTsCorrCtl 0 0).testBit 9 = false → i < 168 → ∃ t : State, exec (.tsCorrGo i) s = .next t ∧
    t.hub.corr = some (i, s.hubTime) ∧ t.rdF .hubTsCorrCtl 0 0 0 8 = i ∧ t.rdF .hubTsCorrCtl 0 0 9 2 = 1 ∧ t.rd .hubTsCorrT0 0 0 = s.hubTime ∧
    t = { s with regs := t.regs, hub := { s.hub with corr := t.hub.corr } } ∧
    regsBut [regKey .hubTsCorrCtl 0 0, regKey .hubTsCorrT0 0 0] s t) ∧
  (s.pwrState ≠ 0 → (s.rd .hubTsCorrCtl 0 0).testBit 9 = true → i < 168 → ∃ t, exec (.tsCorrGo i) s = .next t ∧
    counted .hubRegWriteRejCnt 0 1 s t ∧ t.rdF .hubTsCorrCtl 0 0 0 8 = i ∧ t.rdF .hubTsCorrCtl 0 0 9 2 = s.rdF .hubTsCorrCtl 0 0 9 2 ∧
    regsBut [regKey .hubRegWriteRejCnt 0 0, regKey .hubTsCorrCtl 0 0] s t ∧ t.hub = s.hub ∧ t.cores = s.cores ∧ memKept s t) ∧
  (s.hub.corr = some (i, t0) →
    (s.islandDark i = false → ∃ t : State, exec (.tsCorrSample count) s = .next t ∧ t.hub.corr = none ∧
      t.rdF .hubTsCorrCtl 0 0 9 2 = 2 ∧ t.rdF .hubTsCorrCtl 0 0 0 8 = s.rdF .hubTsCorrCtl 0 0 0 8 ∧ t.rd .hubTsCorrIsl 0 0 = count % 2 ^ 64 ∧
      t.rd .hubTsCorrT1 0 0 = s.hubTime % 2 ^ 48 + min 0xFFFF ((s.hubTime - t0) / 2) * 2 ^ 48 ∧
      t = { s with regs := t.regs, hub := { s.hub with corr := none } } ∧
      regsBut [regKey .hubTsCorrCtl 0 0, regKey .hubTsCorrIsl 0 0, regKey .hubTsCorrT1 0 0] s t) ∧
    (s.islandDark i = true → ∃ t : State, exec (.tsCorrSample count) s = .next t ∧ t.hub.corr = none ∧
      t.rdF .hubTsCorrCtl 0 0 9 2 = 0 ∧ t = { s with regs := t.regs, hub := { s.hub with corr := none } } ∧
      regsBut [regKey .hubTsCorrCtl 0 0] s t))

/-- TLM_CORRELATION and CLK_MEAS_WINDOW (R500, R501): every island that holds a clock is sampled, its last two samples are kept; the mean
frequencies of 1 ms are shown, 0 for a Dark one. -/
def Clocks : Prop := ∀ (s : State) (vs : List Nat), s.pwrState ≠ 0 →
  (∃ t : State, exec (.tlmCorrelation vs) s = .next t ∧ (∀ i, i < 168 → t.samplesOf i = if s.islandDark i then s.samplesOf i
      else ((s.hubTime, vs.getD i 0, SMap.get (fun _ => 0) s.pwr.freq i) :: s.samplesOf i).take 2) ∧
    t = { s with hub := { s.hub with samples := t.hub.samples } }) ∧
  (∃ t, exec (.clkMeasWindow vs) s = .next t ∧
    (∀ i, i < 168 → t.rd .hubClkMeas 0 i = if s.islandDark i then 0 else min 0xFFF (vs.getD i 0)) ∧
    onlyRegs ((List.range 168).map (fun i => regKey .hubClkMeas 0 i)) s t)

end Sys2Proof.Claims

/-- The commands of MCTP (R503): endpoint IDs, versions and types answered, messages of a closed binding or without an ID discarded. -/
def Obligations.MctpControlCommands : Prop :=
  Sys2Proof.Claims.EndpointIds ∧ Sys2Proof.Claims.MctpSupport ∧ Sys2Proof.Claims.MctpDiscards

/-- The vendor-defined commands (R504): register reads and writes, the ward over MCTP, recovery writes, BUSY. -/
def Obligations.VendorCommands : Prop :=
  Sys2Proof.Claims.VdmBusy ∧ Sys2Proof.Claims.RegRead ∧ Sys2Proof.Claims.RegWrite ∧ Sys2Proof.Claims.WardOverMctp ∧
  Sys2Proof.Claims.RecoveryWrite

/-- The requests of SPDM (R429, R430): each answered in its turn, the others with an error that changes nothing. -/
def Obligations.SpdmCommands : Prop :=
  Sys2Proof.Claims.SpdmNegotiation ∧ Sys2Proof.Claims.SpdmErrors ∧ Sys2Proof.Claims.SpdmCertificates ∧
  Sys2Proof.Claims.SpdmChallenge ∧ Sys2Proof.Claims.SpdmMeasurements ∧ Sys2Proof.Claims.SpdmBusyTimeout

/-- The commands of PLDM (R505 to R508): types, records, readings, enables, the event receiver and acknowledged events. -/
def Obligations.PldmCommands : Prop :=
  Sys2Proof.Claims.PldmBase ∧ Sys2Proof.Claims.PldmRecords ∧ Sys2Proof.Claims.PldmReadings ∧ Sys2Proof.Claims.PldmEvents

/-- Reads and writes of the register map (R16 to R20, R364, R491, R496, R519): what a read shows, clears and latches, what a write sets
and what it counts. -/
def Obligations.RegisterCommands : Prop :=
  Sys2Proof.Claims.LinkSeen ∧ Sys2Proof.Claims.RcRead ∧ Sys2Proof.Claims.HalfReadLatch ∧ Sys2Proof.Claims.FltqRecLatch ∧ Sys2Proof.Claims.RegisterWrite ∧
  Sys2Proof.Claims.RelayGo

/-- Rings of the hub, the sweep and the violation log (R76, R520 to R523); time correlation and clock measurement (R500, R501). -/
def Obligations.LogAndTimeCommands : Prop :=
  Sys2Proof.Claims.RingTails ∧ Sys2Proof.Claims.Sweep ∧ Sys2Proof.Claims.VlogEntryClose ∧ Sys2Proof.Claims.TsCorr ∧
  Sys2Proof.Claims.Clocks
namespace Sys2Proof.Claims

open Machine

/-! ## The whole package -/

/-- Commands that may store into the vaults or the stage memories, or that make them lose what they hold. -/
def stores : Instr → Bool
  | .entryDispatch .. | .entryComplete .. | .matrixProduct .. | .tileWriteOut .. | .elem .. | .reduce .. | .scan ..
  | .permute .. | .norm .. | .softmax .. | .rowRecompute .. | .vltLineRead .. | .vltLineWrite .. | .narrowWrite ..
  | .vltRefetch .. | .pageMigrateDone .. | .recompute .. | .vltRecomputeRead .. | .rcmpTimeout .. | .stgAccess .. | .optim ..
  | .scale .. | .digest .. | .zero .. | .lanePassClaim .. | .lanePassWrite .. | .lanePassBoundary .. | .masterGather ..
  | .move .. | .dcmp .. | .promote .. | .evict .. | .pin .. | .unpin .. | .flush .. | .promotePageDone ..
  | .stagingFrameFree .. | .stagingCopyDone .. | .flashProgramDone .. | .streamFillDone .. | .laneFail .. | .flitReceive ..
  | .nak .. | .ackTimeout .. | .replayBudgetExpiry .. | .linkDown .. | .resync .. | .resyncAck .. | .resyncSet .. | .reset ..
  | .resetAck .. | .kwNak .. | .readReq .. | .readRsp .. | .write .. | .writeAck .. | .sigAck .. | .redPart .. | .redAck ..
  | .flushRsp .. | .digestAck .. | .normAck .. | .nakMessage .. | .txnTimeout .. | .ctrlPlaneScrub .. | .seal .. | .copyOut
  | .faultRecord .. | .deadboltDark .. | .refillDone .. | .snapshotReadbackDone .. | .debugStep .. | .debugRegWrite ..
  | .debugVaultRead .. | .debugVaultWrite .. | .holdEntry | .powerStandby .. | .powerOff | .powerGood .. | .pwrenLow
  | .underVoltage | .overVoltage | .converterFault .. | .thermalSample .. | .refclkLoss .. | .warmReset .. | .coldReset ..
  | .mctpReset .. | .bootStage .. | .bringupStage .. | .relayGo .. | .regRead .. | .regWrite .. | .restore ..
  | .snapshotEpoch .. | .streamFillStart .. | .substitute ..
  | .sweep .. | .vlogEntryClose .. | .registerWrite .. | .frameReceive .. | .dmaReadCompletion .. | .freezePoint .. | .startSave ..
  | .derivationSave .. | .packageLost .. => true
  | _ => false

/-- Counters of 32 bits. -/
def narrow (r : Reg) : Bool := r.isCnt && !r.desc.wide

/-- R509: every counter is one field of access RC; one of 32 bits saturates and stays there until it is read, one of 64 bits counts
modulo 2^64; reading it shows the count and leaves zero. -/
def Counters : Prop := ∀ (s : State) (r : Reg) (i k n m : Nat), r.isCnt = true →
  r.desc.fields.map (fun f => (f.lo, f.hi, f.acc)) = [(0, if r.desc.wide then 63 else 31, .rc)] ∧
  (r.desc.wide = false → (s.bump r i n).rd r i 0 = min (s.rd r i 0 + n) 0xFFFFFFFF) ∧
  (r.desc.wide = false → s.rd r i 0 = 0xFFFFFFFF → (s.bump r i n).rd r i 0 = 0xFFFFFFFF) ∧
  (r.desc.wide = true → (s.bump r i n).rd r i 0 = (s.rd r i 0 + n) % 2 ^ 64) ∧
  ((s.bump r i n).bump r i m).rd r i 0 = (s.bump r i (n + m)).rd r i 0 ∧
  (s.rd r i k < (if r.desc.wide then 2 ^ 64 else 2 ^ 32) → s.gone r i = false →
    (s.readSlot r i k).2 = s.rd r i k ∧ (s.readSlot r i k).1.rd r i k = 0)

/-! ### Completion: where a command has its own effect, with no more of that effect than shows it -/

/-- The command is answered with a next state that shows this. -/
def has (c : Instr) (s : State) (P : State → Prop) : Prop := ∃ t, exec c s = .next t ∧ P t

/-- MASTER_GATHER, RED, MOVE, DCMP and HASP run on a core that works (R238, R297, R326, R331). -/
def DescriptorsComplete : Prop := ∀ (s : State) (g : Nat) (e : Entry),
  (FabStartOk s g 0x58 e → (s.gatherParse g e.desc).work = false → has (.masterGather g) s (fun t => entryDone t g e.pos)) ∧
  (FabStartOk s g 0x58 e → (s.gatherParse g e.desc).work = true → (s.gatherParse g e.desc).tiles = 1 →
    (s.gatherParse g e.desc).tmb = 0xFF →
    LinesClear s (fabUnit g 0) (((s.gatherParse g e.desc).lines 0).map (fun l => (g, l))) →
    s.gatherSkew g (s.gatherParse g e.desc) 0 (s.stepTag g) = none →
    has (.masterGather g) s (fun t => t.vmem = (gatherWrite (gatherFrom s g e) g (s.gatherParse g e.desc) 0 (s.stepTag g)).vmem)) ∧
  (∀ q rank pos, FabStartOk s g 0x50 e → s.redGroup (s.redRead e.desc).group = some q →
    s.contributorOf g (s.redRead e.desc).group (s.stepTag g) q = some (rank, pos) →
    has (.red g) s (fun t => (t.fabJobAt g e.pos).map FabJob.sent = some true)) ∧
  (FabStartOk s g 0x51 e → ((s.takeFab g 0x51).moveRead g e.desc).lines = 0 → has (.move g) s (fun t => entryDone t g e.pos)) ∧
  (FabStartOk s g 0x53 e → groupAt s.img.dig false (dfld e.desc 4 0 32) = none → has (.dcmp g) s (fun t => entryDone t g e.pos)) ∧
  (s.works g = true → (s.core g).hasp = none → (s.core g).nextFor 0x70 = some e → (s.haspRead g e.desc).noFlush = false →
    haspGateways s g ≠ [] → has (.hasp g) s (fun t => (t.core g).hasp.map (fun h => h.flushes) = some (haspGateways s g)))

/-- The vault controller's repairs end: a lock is released, a page is retired, a recompute begins (R171, R172, R177). -/
def RepairsComplete : Prop := ∀ (s : State) (v g line : Nat) (err : List Nat) (k : LineLock) (r : RawLine) (m : Retiring) (q : RcmpReq)
    (qs : List RcmpReq), r = (s.rawLine v line).flip err →
  (LockRead s v line k .refetch → r.ok = true → r.poison = false → has (.vltRefetch v line err) s (fun t => t.locked v line = false)) ∧
  (LockRead s v line k .reread → r.ok = true → r.poison = false → has (.vltRecomputeRead v line err) s (fun t => t.locked v line = false)) ∧
  (LockRead s v line k .recompute → k.test = false → (s.rawLine v line).poison = true →
    has (.rcmpTimeout v line) s (fun t => t.locked v line = false)) ∧
  ((s.vlt v).retiring = some m → m.waiting = [] → s.passClear v (fun l => linePage (s.retireMap v l) == m.page) = true →
    has (.pageMigrateDone v true) s (fun t => (t.vlt v).retiring = none)) ∧
  (RecomputeOk s g q qs → opStream (s.byteAt (s.adr g q.descAddr)) = some 1 →
    has (.recompute g) s (fun t => (t.core g).rcmpRun = some q))

/-- Requests to the tier manager are taken up, their transits go on, windows fill, and the card's blocks move (R250 to R279). -/
def TiersComplete : Prop := ∀ (s : State) (g st i o n p unit block d : Nat) (e : Entry) (x : TierObj) (w : Window) (u : Staging)
    (f : FetchUnit) (target : Nat),
  (s.obj (dfld e.desc 4 0 32) = some x → x.res.isSome = true →
    (TierOk s g 0 e → dfld e.desc 1 3 1 = 0 → x.state = .cold → x.group = 0 →
      has (.promote g) s (fun t => (t.obj (dfld e.desc 4 0 32)).map TierObj.state = some .promoting)) ∧
    (TierOk s g 1 e → x.state = .resident → x.pins = 0 → x.flushed = [] → s.tier.objs = [(dfld e.desc 4 0 32, some x)] →
      s.dirtyPages x ≠ [] →
      has (.evict g) s (fun t => (t.obj (dfld e.desc 4 0 32)).map TierObj.state = some .evicting)) ∧
    (TierOk s g 2 e → x.pins < 0xFFFF → StatusOpen s g e →
      has (.pin g) s (fun t => (t.obj (dfld e.desc 4 0 32)).map TierObj.pins = some (x.pins + 1))) ∧
    (TierOk s g 3 e → 0 < x.pins → StatusOpen s g e →
      has (.unpin g) s (fun t => (t.obj (dfld e.desc 4 0 32)).map TierObj.pins = some (x.pins - 1))) ∧
    (TierOk s g 4 e → x.state = .resident → s.dirtyPages x ≠ [] →
      has (.flush g) s (fun t => (t.obj (dfld e.desc 4 0 32)).map TierObj.state = some .cleaning))) ∧
  (o < 2 ^ 13 → has (.tierQuery o) s (fun t => t.rdF .tierQuery 0 0 0 13 = o)) ∧
  (PageOk s o x → x.next + 1 < x.pages → has (.promotePageDone o []) s (fun t => (t.obj o).map TierObj.next = some (x.next + 1))) ∧
  (s.obj o = some x → x.state = .cleaning → x.failed = false → (s.dirtyPages x).find? (fun q => decide (x.next ≤ q)) = some p →
    s.freeStaging (x.frameOf 0).1 = some n → s.tier.staging.any (fun t => t.obj == o && !t.copied) = false →
    s.pageQuiet (x.frameOf p).1 (x.frameOf p).2 = true →
    has (.stagingFrameFree o) s (fun t => t.tier.staging.length = s.tier.staging.length + 1)) ∧
  (s.obj o = some x → s.tier.staging.find? (fun t => t.obj == o && !t.copied) = some u →
    (∀ i, i < 2 ^ 14 → s.lineReady islandH3 ((x.frameOf u.page).1, (x.frameOf u.page).2 * 2 ^ 14 + i) = true) →
    (s.vlt (x.frameOf u.page).1).heldWrites = [] → x.deferred = [] →
    has (.stagingCopyDone o) s (fun t => t.tier.staging = s.tier.staging.map (fun q => if q = u then { q with copied := true } else q))) ∧
  (s.obj o = some x → s.tier.staging.find? (fun t => t.obj == o && t.page == p && t.copied) = some u → u.left.contains unit = true →
    s.tier.stopped = false → x.home = 1 → u.left.filter (· != unit) ≠ [] →
    has (.flashProgramDone o p unit block true) s (fun t => t.tier.staging
      = s.tier.staging.map (fun q => if q = u then { q with left := u.left.filter (· != unit) } else q))) ∧
  (FillOk s i w → s.winSkips w (s.winObj w w.u) = false → has (.streamFillStart i) s (fun t => (t.win i).map Window.filling = some true)) ∧
  (s.win i = some w → w.filling = true → s.obj w.obj = some x → x.home = 1 →
    (∀ q, q < x.pages → s.pageOpen w.fillHome (w.base + w.u % w.depth * w.pages + q) = true) →
    has (.streamFillDone i []) s (fun t => (t.win i).map Window.u = some (w.u + 1))) ∧
  (HeadOk s g st 1 e → st < 4 → s.fillWin g (waitObj e.wait) = some (i, w) → w.subst = true → e.target = some target →
    e.stuck = false → w.wait ≤ n → s.winShadow w (tmbAhead 1 target) ≠ 0 →
    LinesClear s islandH3 (s.winLines w (tmbAhead 1 target)) → has (.substitute g st n) s (fun t => released (s.core g) (t.core g) st)) ∧
  (s.obj o = some x → x.state = .cold → x.home = 1 → 0 < x.pages →
    has (.space2DmaWrite o 0 n [d]) s (fun t => t.outbox.length = s.outbox.length + 1)) ∧
  (s.channelUp (unitChannel p unit) = true → s.tier.stopped = false → s.nextRead (unitChannel p unit) = some (i, o, p, unit) →
    has (.flashUnitRead i o p unit n []) s (fun t =>
      ((t.fetchOf i o p).bind (fun f => SMap.get (fun _ => none) f.units unit)).map FetchUnit.done = some true)) ∧
  ((s.fetchOf i o p).bind (fun f => SMap.get (fun _ => none) f.units unit) = some f → f.done = false → s.tier.stopped = false →
    has (.readRetry i o p unit n []) s (fun t =>
      ((t.fetchOf i o p).bind (fun f => SMap.get (fun _ => none) f.units unit)).map FetchUnit.done = some true)) ∧
  (BlockOk s block d → (s.moveNext (blockLun block / 16) = some (.retry, block) → has (.relocate block d) s (blockMoved block d s)) ∧
    ((s.rd .tierCtl 0 0).testBit 3 = true → (s.lunBlocks (blockLun block)).contains block = true →
      s.eraseCount block + 1000 < s.lunWorst (blockLun block) → s.eraseCount block < s.eraseCount d →
      (s.noteMove .wear block).moveNext (blockLun block / 16) = some (.wear, block) →
      has (.staticWearLevel block d) s (blockMoved block d s)) ∧
    (s.moveNext (blockLun block / 16) = some (.disturb, block) → has (.readDisturbRelocate block d) s (blockMoved block d s))) ∧
  (s.tier.badBlocks.contains block = false → s.tier.stopped = false → (s.lunBlocks (blockLun block)).contains block = true →
    s.eraseNext block = true → has (.blockEraseDone block d true) s (fun t => t.eraseCount block = s.eraseCount block + 1)) ∧
  (n < 16 → s.tier.tables.contains n = false → s.pwrState ≠ 0 →
    has (.flashFirstInit n [] []) s (fun t => t.tier.tables = s.tier.tables ++ [n]))

/-- The commands of the gateway's jobs and session (R369 to R384). -/
def GatewayCompletes : Prop := ∀ (s : State) (j : HostJob) (a n v : Nat) (att : List Nat) (me : Nat),
  (StepTake s j → s.stepCheck j.raw = none → dfld j.raw 20 0 32 ≠ 0 → has .step s (fun t => (t.host.step.map StepJob.id) = some j.id)) ∧
  (s.nextJob 0x83 = some j → s.attached = true → s.hub.h1Down = false → copyLines j.raw ≠ 0 → s.copyCheck j.raw 2 = .ok a →
    has .copyIn s (fun t => t.host.reads.length = s.host.reads.length + 1)) ∧
  (s.host.jobs.find? (fun j => dfld j.raw 0 0 8 == 0x84) = some j → s.hub.h1Down = false → copyLines j.raw = 0 →
    has .copyOut s (fun t => ∀ k ∈ t.host.jobs, k.id ≠ j.id)) ∧
  (∀ k : StepJob, n < 16 → v < 2 ^ 48 → s.gateway.isSome = true → s.postWaits = false → s.host.step = some k → dfld k.raw 8 0 48 = v →
    has (.hostCqPost n v false) s (fun t => t.host.step = none)) ∧
  (s.gateway = some me → s.attached = true → s.host.step = none → s.host.holder = none → att = [] →
    has (.stepGatewaySelect att none) s (fun t => t.host.stepGw = some me)) ∧
  (s.session ≠ 1 → ∀ c ∈ [Instr.perstN, .hotReset, .dataLinkDown, .linkDisable, .bmeClear, .detach, .functionLevelReset],
    has c s (fun t => t.session = 1)) ∧
  (s.session = 1 → n < 2 ^ 16 → n = s.rdF .hostSession 0 0 32 16 → has (.attach n) s (fun t => t.session = 2))

/-- Commands of the hub, the ward, the power controller and the boot chain. -/
def HubCompletes : Prop := ∀ (s : State) (g n : Nat) (b : List Nat) (r : FaultRec) (rest : List FaultRec),
  (RecordOk s r rest → has (.faultRecord [] []) s (fun t => rest.length ≤ t.fltIn.length)) ∧
  (g < 128 → Boltable s g → s.passing g = false → s.flt.waitAdopt = [] → has (.deadboltDark g) s (fun t => (t.core g).fence = .dark)) ∧
  (s.pwrState ≠ 0 → s.ward.d3 = false → s.hub.h1Down = false → has .h1LockstepMismatch s (fun t => t.hub.h1Down = true)) ∧
  (s.hub.h1Down = true → has .h1RestartDone s (fun t => t.hub.h1Down = false)) ∧
  (s.active g = true → has (.coreParity g n) s (fun t => t.fltIn.length = s.fltIn.length + 1) ∧
    has (.coreRail g n n) s (fun t => t.fltIn.length = s.fltIn.length + 1)) ∧
  (s.pwrState ≠ 0 → s.ward.d3 = false → has .wardLockstep s (fun t => t.fltIn.length = s.fltIn.length + 1)) ∧
  (WardOk s 1 b → s.ward.rngBad = false → has (.provision b) s (fun t => t.life = 1)) ∧
  (WardOk s 2 b → has (.fieldKeys b) s (fun t => t.life = 2)) ∧ (WardOk s 3 b → has (.returnPart b) s (fun t => t.life = 3)) ∧
  (WardOk s 4 b → has (.returnAuth b) s (fun t => t.rdF .wardLifecycle 0 0 4 1 = 1)) ∧
  (WardOk s 5 b → has (.reprovision b) s (fun t => t.life = 1)) ∧
  (WardOk s 6 b → has (.svnCommit b) s (fun t => t.rdF .wardMboxStatus 0 0 8 8 = 0)) ∧
  (WardOk s 0x10 b → has (.openD2 b) s (fun t => t.d2Open = true)) ∧ (WardOk s 0x11 b → has (.openD3 b) s (fun t => t.dbgLevel = 3)) ∧
  (s.wardUp = true → s.ward.rngBad = false → s.ward.block = none → has .nonceReq s (fun t => t.ward.nonce.isSome = true)) ∧
  (s.wardUp = true → has (.rngHealthFail n) s (fun t => t.ward.rngBad = true)) ∧
  (s.wardUp = true → has (.debugLevelSet 0) s (fun t => t.rdF .wardDebugCtl 0 0 0 2 = 0)) ∧
  (s.d2Open = true → has .close s (fun t => t.d2Open = false)) ∧
  (s.pwrState = 1 → s.booting = false → s.boot.recovery = false → has .powerRun s (fun t => t.boot.bringup = true)) ∧
  (s.pwrState = 3 → has .powerHold s (fun t => pend t = (2, 1))) ∧
  (s.pwrState = 3 → (pend s).2 = 1 → (pend s).1 ≠ 3 → s.quiesced = true → has .holdEntry s (fun t => t.pwrState = 2)) ∧
  (s.pwrState = 2 → has (.powerStandby true) s (fun t => t.pwrState = 1)) ∧ (s.pwrState = 1 → has .powerOff s (fun t => t.pwrState = 0)) ∧
  (s.pwrState = 0 → has (.powerGood (n, true)) s (fun t => t.stage = 1)) ∧
  (s.pwrState ≠ 0 → ∀ c ∈ [Instr.pwrenLow, .underVoltage, .overVoltage], has c s (fun t => t.pwrState = 0)) ∧
  (s.pwrState ≠ 0 → s.pwr.brown = none → has (.brownout n) s (fun t => t.pwr.brown.isSome = true)) ∧
  (s.pwr.brown.isSome = true → has .brownoutEnd s (fun t => t.pwr.brown = none)) ∧
  (s.pwrState ≠ 0 → s.inService = 6 → n < 6 → has (.converterFault n 0) s (fun t => t.inService = 5)) ∧
  (s.pwrState = 3 → s.active g = true → 216 ≤ s.poolCap (islandDie g) - s.poolIssued (islandDie g) → s.pwr.asks = [] → s.grant g = 0 →
    has (.grantRequest g 216) s (fun t => t.grant g = 216)) ∧
  (s.pwrState ≠ 0 → has (.pwrLimit (2000 + 2500 * 2 ^ 16 + 2 ^ 32)) s (fun t => t.sustained = 2000)) ∧
  (s.pwrState ≠ 0 → has (.powerSample 3000 5000 600 600 0) s (fun t => t.rdF .pwrIn 0 0 0 16 = 3000)) ∧
  (s.pwrState ≠ 0 → has (.throttleLine 0 n 0) s (fun t => t.fltIn.length = s.fltIn.length + 1)) ∧
  (s.pwrState ≠ 0 → VaultsCool s → has (.thermalSample [40, 40, 40, 40, 40, 40, 40, 40] [30, 30, 30, 30] []) s
    (fun t => t.rd .pwrTempDie 0 0 = 40)) ∧
  (s.pwrState = 3 → has (.retune 130 1000) s (fun t => SMap.get (fun _ => 0) t.pwr.freq 130 = s.tuned 130 1000)) ∧
  (s.pwrState ≠ 0 → s.booting = false → has (.warmReset 0xB007) s (fun t => t.stage = 1) ∧ has (.mctpReset true) s (fun t => t.stage = 1) ∧
    has (.coldReset 0xB007) s (fun t => t.vmem = []) ∧ has (.mctpReset false) s (fun t => t.vmem = [])) ∧
  (BootOk s 1 → has (.bootStage n false) s (fun t => t.stage = 2)) ∧
  (BringOk s 8 → has (.bringupStage [] ([], [])) s (fun t => t.stage = 9)) ∧
  (s.wardUp = true → ∀ c ∈ [Instr.bypass [1], .idcode [1], .samplePreload [1] [1], .extest [1] [1]],
    has c s (fun t => s.outbox.length < t.outbox.length))

/-- The registers that the spec gives a reset value other than zero, one value for every index. -/
def resetValues : List (Reg × Nat) :=
  [(.cnsCtl, 3), (.cnsRingSize, 0x1000), (.hngCtl, 0x14), (.hngStatus, 0x800), (.coreBwdCtl, 1), (.veCtl, 0x28),
   (.vltCtl, 0xC8001C), (.vltScrubPeriod, 14400), (.vltRetireRsv, 4), (.laneCtl, 0x20), (.coreOptCtl, 3),
   (.coreOptBeta1, 0x3F666666), (.coreOptBeta2, 0x3F7FBE77), (.coreOptMaxnorm, 0x7F800000), (.coreOptP1, 0x3F800000),
   (.coreOptP2, 0x3F800000), (.coreOptClip, 0x3F800000), (.tierCtl, 0x19), (.synLendCtl, 0x10FA0), (.synTmbCfg, 0x100000),
   (.synLatchCfg, 1), (.prgPortCfg, 0x1FEE), (.prgArb, 0x13), (.prgReplayBudget, 20), (.prgTxnTimeout, 100),
   (.prgRetrain, 100), (.hubImageStatus, 0x1C0000), (.hostCtl, 0x80003), (.hostSession, 1), (.hostSqCfg, 4),
   (.hostEvqCfg, 4), (.hostCqCfg, 0x304), (.pwrStatus, 1), (.pwrLimit, 2800 + 3300 * 2 ^ 16 + 5 * 2 ^ 32),
   (.pwrConvStatus, 63), (.pwrPool, 4000), (.hubId, 0x001024A1), (.hubTlmCtl, 100), (.hubMctpCtl, 3)]

end Sys2Proof.Claims

/-- A step takes the command at the front of the queue and runs it on the rest; with none waiting a nanosecond of hub time passes (the
model's choice, log entry 3); no word spells a command (log entry 1). -/
def Obligations.StepRunsTheFrontCommand : Prop :=
  (∀ (c : Sys2Proof.Instr) (q : List Sys2Proof.Instr) (s : Sys2Proof.Machine.State),
    Sys2Proof.Machine.step { s with pending := c :: q } = Sys2Proof.Machine.exec c { s with pending := q }) ∧
  (∀ s : Sys2Proof.Machine.State, s.pending = [] → Sys2Proof.Machine.step s = .next s.tick) ∧
  (∀ (s : Sys2Proof.Machine.State) (nbits w : Nat), Sys2Proof.decodeTableWord nbits w = none ∧ s.withFetchWord nbits w = s)

/-- Every step keeps the canonical form of the vaults and of the stage memories. -/
def Obligations.EveryStepKeepsMemoryCanonical : Prop :=
  ∀ s t : Sys2Proof.Machine.State, s.memOk = true → Sys2Proof.Machine.step s = .next t → t.memOk = true

/-- The memories are in canonical form at reset. -/
def Obligations.ResetMemoryCanonical : Prop := Sys2Proof.Machine.State.reset.memOk = true

/-- No command touches the queue of those that wait. -/
def Obligations.NoCommandTouchesTheQueue : Prop :=
  ∀ (c : Sys2Proof.Instr) (s t : Sys2Proof.Machine.State), Sys2Proof.Machine.exec c s = .next t → t.pending = s.pending

/-- Commands that store nothing leave every byte of the vaults and of the stage memories; a tick does with no event at the
trace unit, no status word that waits, no block at the ward and no sweep. -/
def Obligations.OtherCommandsLeaveMemory : Prop :=
  (∀ (c : Sys2Proof.Instr) (s t : Sys2Proof.Machine.State), Sys2Proof.Claims.stores c = false → Sys2Proof.Machine.exec c s = .next t →
    Sys2Proof.Claims.memKept s t) ∧
  (∀ s : Sys2Proof.Machine.State, s.hub.traceIn = [] → s.tier.answers = [] → s.ward.block = none → s.hub.sweeping = none →
    Sys2Proof.Claims.memKept s s.tick)

/-- Every command is answered with a next state in every state, but INTERNAL_CHAIN in D3, which is refused; nothing faults. Descriptors
of the fabric and the hub, repairs of the vault controller, commands of the tier manager, and commands of the gateway, the hub, the ward,
the power controller and the boot chain, complete with their own effect where the premises name. -/
def Obligations.EveryCommandIsAnswered : Prop :=
  (∀ (c : Sys2Proof.Instr) (s : Sys2Proof.Machine.State),
    (∃ t, Sys2Proof.Machine.exec c s = .next t) ∨
    ((∃ tdi, c = .internalChain tdi) ∧ s.ward.d3 = true ∧ Sys2Proof.Machine.exec c s = .refused .internalChain)) ∧
  Sys2Proof.Claims.DescriptorsComplete ∧ Sys2Proof.Claims.RepairsComplete ∧ Sys2Proof.Claims.TiersComplete ∧
  Sys2Proof.Claims.GatewayCompletes ∧ Sys2Proof.Claims.HubCompletes

/-- A tick of a powered package with no event receiver, no open HOST_VIOL event, no ACK due, no event at the trace unit, no status word
that waits, no block at the ward and no sweep: hub time
advances by one nanosecond and the fault queue frees its notes; an unpowered package keeps its state (the model's choice, log entry 3). -/
def Obligations.TickAdvancesHubTime : Prop :=
  ∀ s : Sys2Proof.Machine.State,
    (s.pwrState = 0 → s.tick = s) ∧
    (s.pwrState ≠ 0 → s.hub.receiver = none → s.host.misuse = none → s.hub.traceIn = [] →
      s.prg.links.all (fun e => !(e.2.up && e.2.ackDue)) = true → s.tier.answers = [] → s.ward.block = none →
      s.hub.sweeping = none → s.tick.hubTime = (s.hubTime + 1) % 2 ^ 64 ∧
      s.tick.fltq = s.fltq.filter (fun e => decide (1 ≤ e.record.cls) || e.openWin) ∧
      Sys2Proof.Claims.regsBut [Sys2Proof.Machine.regKey .hubTs 0 0] s s.tick ∧
      s.tick = { s with regs := s.tick.regs, fltq := s.tick.fltq })

/-- What reset leaves: the reset values that the tables of the registers give, zero in every other register, empty memories, queues and
units, lifecycle Blank, and no command waiting. PWR_STATUS holds 1, and the vaults what bring-up writes (the model's choice, log
entry 4 for the bytes of memory). -/
def Obligations.ResetState : Prop :=
  (∀ p ∈ Sys2Proof.Claims.resetValues, ∀ i k, Sys2Proof.Machine.State.reset.rd p.1 i k = p.2) ∧
  (∀ i k, k < 128 → Sys2Proof.Machine.State.reset.rd .pwrFmax i k = 1400) ∧
  (∀ i k, 128 ≤ k → k < 136 → Sys2Proof.Machine.State.reset.rd .pwrFmax i k = 1600) ∧
  (∀ r i k, r ≠ .pwrFmax → r ∉ Sys2Proof.Claims.resetValues.map (fun p => p.1) → Sys2Proof.Machine.State.reset.rd r i k = 0) ∧
  (∀ a, Sys2Proof.Machine.SMap.get Sys2Proof.Machine.stgDefault Sys2Proof.Machine.State.reset.stg a = 0) ∧
  (∀ g, (Sys2Proof.Machine.State.reset.core g).step = 0) ∧ Sys2Proof.Machine.State.reset.life = 0 ∧
  Sys2Proof.Machine.State.reset.isSealed = false ∧ Sys2Proof.Machine.State.reset.fltq = [] ∧
  Sys2Proof.Machine.State.reset.outbox = [] ∧ Sys2Proof.Machine.State.reset.pending = []

/-- Counters saturate or count modulo 2^64, and a read clears them (R509). -/
def Obligations.CountersCountAndClear : Prop := Sys2Proof.Claims.Counters

/-- The halves of a 64-bit register (R19): the low half, read first, latches the high half as it stood before the clear, and the read of
the high half that follows returns it; the high half alone is live and clears nothing. -/
def Obligations.HalvesOfARegisterAgree : Prop :=
  ∀ (s0 s : Sys2Proof.Machine.State) (path off i k : Nat) (r : Sys2Proof.Machine.Reg), s0.pwrState ≠ 0 → path < 2 → off % 8 = 0 →
    s = Sys2Proof.Claims.seenBy s0 path →
    Sys2Proof.Machine.regSlot off = some (r, i, k) → r ≠ .hubFltqRec → Sys2Proof.Machine.pathOk path r false = true →
    r.desc.wide = true →
    (∃ t u : Sys2Proof.Machine.State, Sys2Proof.Machine.exec (.halfReadLatch path off) s0 = .next t ∧
      Sys2Proof.Machine.exec (.halfReadLatch path (off + 4)) t = .next u ∧
      u.outbox = s.outbox ++ [.regData path (s.shown r i k % 2 ^ 32), .regData path (s.shown r i k / 2 ^ 32)] ∧
      (r.desc.fields.any (fun f => f.acc == .rc) = true → s.gone r i = false → u.rd r i k = 0)) ∧
    (s.hub.halves = [] → Sys2Proof.Machine.exec (.halfReadLatch path (off + 4)) s0
      = .next (s.send (.regData path (s.shown r i k / 2 ^ 32)))) ∧
    (∃ t, Sys2Proof.Machine.exec (.rcRead path off) s0 = .next t ∧ t.outbox = s.outbox ++ [.regData path (s.shown r i k)] ∧
      (r.desc.fields.any (fun f => f.acc == .rc) = true → s.gone r i = false → t.rd r i k = 0))

/-- The fault queue is read through a window (R519): slot `j` of entry `i` is bytes 8j to 8j + 7 of the (i + 1)th oldest record, at
0x40 i + 8 j; a read of slot 0 latches the record for the slots that follow, whatever the queue does; beyond the queue it reads zero. -/
def Obligations.FaultQueueWindow : Prop :=
  ∀ (s0 s : Sys2Proof.Machine.State) (path i j : Nat) (q : List Sys2Proof.Machine.FltEntry), s0.pwrState ≠ 0 → path < 2 → i < 64 → j < 8 →
    s = Sys2Proof.Claims.seenBy s0 path →
    Sys2Proof.Machine.Reg.offset .hubFltqRec 0 (8 * i + j) = Sys2Proof.Machine.Reg.offset .hubId 0 0 + 0x8000 + 0x40 * i + 8 * j ∧
    Sys2Proof.Machine.Reg.hubFltqRec.desc.wide = true ∧
    Sys2Proof.Machine.Reg.hubFltqRec.desc.fields = [⟨0, 63, .ro, 0⟩] ∧
    (∀ e, s.fltq[i]? = some e → ∃ t u : Sys2Proof.Machine.State, Sys2Proof.Machine.exec (.fltqRecLatch path i 0) s0 = .next t ∧
      t.outbox = s.outbox ++ [.regData path (Sys2Proof.leNat ((e.record.bytes s.pkg).take 8))] ∧
      (j ≠ 0 → Sys2Proof.Machine.exec (.fltqRecLatch path i j) { t with fltq := q } = .next u ∧
        u.outbox = t.outbox ++ [.regData path (Sys2Proof.leNat (((e.record.bytes s.pkg).drop (8 * j)).take 8))])) ∧
    ((∀ bs, s.hub.recLatch ≠ some (i, bs)) → s.fltq.length ≤ i → ∃ t, Sys2Proof.Machine.exec (.fltqRecLatch path i j) s0 = .next t ∧
      t.outbox = s.outbox ++ [.regData path 0])
end

