-- ==== Sys2Proof/Laws/Maps.lean ====
section
/-! SUPPORT. Laws of the sparse tables: a read after a write, and that every operation keeps the canonical form. -/

namespace Sys2Proof.Machine

variable {V : Type}

theorem SMap.get_cons (d : Nat → V) (a : Nat) (v : V) (m : SMap V) (k : Nat) :
    SMap.get d ((a, v) :: m) k = if a = k then v else SMap.get d m k := rfl

theorem SMap.get_put (d : Nat → V) (m : SMap V) (k : Nat) (v : V) (k' : Nat) :
    SMap.get d (SMap.put m k v) k' = if k = k' then v else SMap.get d m k' := by
  induction m with
  | nil => rfl
  | cons e m ih =>
    obtain ⟨a, w⟩ := e
    unfold SMap.put
    split
    · rename_i h; subst h
      simp only [SMap.get_cons]; split <;> rfl
    · split
      · rfl
      · simp only [SMap.get_cons, ih]
        by_cases h : k = k' <;> by_cases h2 : a = k' <;> simp_all

theorem SMap.get_filter (d : Nat → V) (m : SMap V) (p : Nat → Bool) (k : Nat) :
    SMap.get d (m.filter (fun e => p e.1)) k = if p k then SMap.get d m k else d k := by
  induction m with
  | nil => simp [SMap.get]
  | cons e m ih =>
    obtain ⟨a, w⟩ := e
    rw [List.filter_cons]
    by_cases h : p a
    · simp only [h, if_true, SMap.get_cons, ih]
      by_cases h2 : a = k
      · subst h2; simp [h]
      · simp [h2]
    · rw [if_neg h, SMap.get_cons, ih]
      by_cases h2 : a = k
      · subst h2; simp [h]
      · simp [h2]

theorem SMap.get_erase (d : Nat → V) (m : SMap V) (k k' : Nat) :
    SMap.get d (SMap.erase m k) k' = if k = k' then d k' else SMap.get d m k' := by
  unfold SMap.erase
  rw [SMap.get_filter d m (fun a => decide (a ≠ k))]
  by_cases h : k' = k
  · simp [h]
  · simp [h, Ne.symm h]

/-- A read after a write. -/
theorem SMap.get_set [DecidableEq V] (d : Nat → V) (m : SMap V) (k : Nat) (v : V) (k' : Nat) :
    SMap.get d (SMap.set d m k v) k' = if k = k' then v else SMap.get d m k' := by
  unfold SMap.set
  split
  · rename_i h
    rw [SMap.get_erase]
    by_cases h2 : k = k'
    · subst h2; simp [h]
    · simp [h2]
  · exact SMap.get_put d m k v k'

@[simp] theorem SMap.get_set_self [DecidableEq V] (d : Nat → V) (m : SMap V) (k : Nat) (v : V) :
    SMap.get d (SMap.set d m k v) k = v := by rw [SMap.get_set]; simp

theorem SMap.get_set_ne [DecidableEq V] (d : Nat → V) (m : SMap V) {k k' : Nat} (v : V) (h : k ≠ k') :
    SMap.get d (SMap.set d m k v) k' = SMap.get d m k' := by rw [SMap.get_set]; simp [h]

theorem SMap.get_append (d : Nat → V) (a b : SMap V) (k : Nat) :
    SMap.get d (a ++ b) k = if a.any (fun e => e.1 == k) then SMap.get d a k else SMap.get d b k := by
  induction a with
  | nil => simp
  | cons e a ih =>
    obtain ⟨x, w⟩ := e
    rw [List.cons_append, SMap.get_cons, SMap.get_cons, ih]
    by_cases h : x = k
    · rw [if_pos h, if_pos h, if_pos (by simp [h])]
    · rw [if_neg h, if_neg h]
      by_cases hb : (a.any fun e => e.1 == k) = true
      · rw [if_pos hb, if_pos (by rw [List.any_cons, hb, Bool.or_true])]
      · have hc : ¬ (((x, w) :: a).any fun e => e.1 == k) = true := by
          rw [List.any_cons, Bool.or_eq_true]
          exact fun q => q.elim (fun q => h (by simpa using q)) hb
        rw [if_neg hb, if_neg hc]

theorem SMap.entries_key [DecidableEq V] (d : Nat → V) (vs : List V) (k : Nat) :
    ∀ e ∈ SMap.entries d k vs, k ≤ e.1 ∧ e.1 < k + vs.length := by
  induction vs generalizing k with
  | nil => simp [SMap.entries]
  | cons v vs ih =>
    intro e he
    unfold SMap.entries at he
    split at he
    · have := ih (k + 1) e he
      simp only [List.length_cons]; omega
    · rcases List.mem_cons.mp he with h | h
      · subst h; simp
      · have := ih (k + 1) e h
        simp only [List.length_cons]; omega

theorem SMap.get_of_not_key (d : Nat → V) (m : SMap V) (k : Nat) (h : ∀ e ∈ m, e.1 ≠ k) : SMap.get d m k = d k := by
  induction m with
  | nil => rfl
  | cons e m ih =>
    obtain ⟨a, w⟩ := e
    rw [SMap.get_cons, if_neg (h (a, w) (List.mem_cons_self ..))]
    exact ih (fun e he => h e (List.mem_cons_of_mem _ he))

theorem SMap.get_entries [DecidableEq V] (d : Nat → V) (vs : List V) (k i : Nat) (h : i < vs.length) :
    SMap.get d (SMap.entries d k vs) (k + i) = vs[i] := by
  induction vs generalizing k i with
  | nil => simp at h
  | cons v vs ih =>
    unfold SMap.entries
    cases i with
    | zero =>
      split
      · rename_i hv
        rw [SMap.get_of_not_key]
        · simp [hv]
        · intro e he
          have := SMap.entries_key d vs (k + 1) e he
          omega
      · simp [SMap.get_cons]
    | succ i =>
      have e := ih (k + 1) i (by simpa using h)
      have hk : k + 1 + i = k + (i + 1) := by omega
      rw [hk] at e
      split
      · simpa using e
      · rw [SMap.get_cons, if_neg (by omega)]; simpa using e

/-- A read after the write of a run: outside the run nothing changes. -/
theorem SMap.get_setRange_out [DecidableEq V] (d : Nat → V) (m : SMap V) (k : Nat) (vs : List V) (k' : Nat)
    (h : k' < k ∨ k + vs.length ≤ k') : SMap.get d (SMap.setRange d m k vs) k' = SMap.get d m k' := by
  unfold SMap.setRange
  have hk : ¬ (SMap.entries d k vs).any (fun e => e.1 == k') = true := by
    simp only [List.any_eq_true, not_exists, not_and]
    intro e he hb
    have := SMap.entries_key d vs k e he
    have : e.1 = k' := by simpa using hb
    omega
  have f1 := SMap.get_filter d m (fun a => decide (a < k)) k'
  have f2 := SMap.get_filter d m (fun a => decide (k + vs.length ≤ a)) k'
  rw [List.append_assoc, SMap.get_append, SMap.get_append, if_neg hk, f1, f2]
  rcases h with h | h
  · simp only [h, decide_true, if_true]
    by_cases ha : ((m.filter (fun e => decide (e.1 < k))).any (fun e => e.1 == k')) = true
    · rw [if_pos ha]
    · rw [if_neg ha]
      have : SMap.get d m k' = d k' := by
        apply SMap.get_of_not_key
        intro e he hc
        apply ha
        simp only [List.any_eq_true, List.mem_filter, decide_eq_true_eq]
        exact ⟨e, ⟨he, by omega⟩, by simp [hc]⟩
      rw [this, if_neg (by simp; omega)]
  · have ha : ¬ ((m.filter (fun e => decide (e.1 < k))).any (fun e => e.1 == k')) = true := by
      simp only [List.any_eq_true, List.mem_filter, decide_eq_true_eq, not_exists, not_and, and_imp]
      intro e _ h2 hb
      have : e.1 = k' := by simpa using hb
      omega
    rw [if_neg ha, if_pos (by simpa using h)]

/-- Inside the run the values written are read. -/
theorem SMap.get_setRange_in [DecidableEq V] (d : Nat → V) (m : SMap V) (k : Nat) (vs : List V) (i : Nat) (h : i < vs.length) :
    SMap.get d (SMap.setRange d m k vs) (k + i) = vs[i] := by
  unfold SMap.setRange
  have ha : ¬ ((m.filter (fun e => decide (e.1 < k))).any (fun e => e.1 == k + i)) = true := by
    simp only [List.any_eq_true, List.mem_filter, decide_eq_true_eq, not_exists, not_and, and_imp]
    intro e _ h2 hb
    have : e.1 = k + i := by simpa using hb
    omega
  have f2 := SMap.get_filter d m (fun a => decide (k + vs.length ≤ a)) (k + i)
  have hn : ¬ (decide (k + vs.length ≤ k + i) = true) := by simp; omega
  rw [List.append_assoc, SMap.get_append, if_neg ha, SMap.get_append, f2, if_neg hn]
  have e := SMap.get_entries d vs k i h
  by_cases hb : ((SMap.entries d k vs).any (fun e => e.1 == k + i)) = true
  · rw [if_pos hb, e]
  · rw [if_neg hb, ← e]
    symm
    apply SMap.get_of_not_key
    intro x hx hc
    apply hb
    simp only [List.any_eq_true]
    exact ⟨x, hx, by simp [hc]⟩

/-- The values of a run. -/
theorem SMap.getRange_eq (d : Nat → V) (m : SMap V) (k n : Nat) :
    SMap.getRange d m k n = (List.range n).map (fun i => SMap.get d m (k + i)) := by
  unfold SMap.getRange SMap.slice
  apply List.map_congr_left
  intro i hi
  have hi' : i < n := List.mem_range.mp hi
  have f := SMap.get_filter d m (fun a => decide (k ≤ a ∧ a < k + n)) (k + i)
  rw [f, if_pos (by simp; omega)]

/-! ### The canonical form -/

section wf
variable [DecidableEq V]

theorem SMap.wfFrom_mono (d : Nat → V) {lo lo' : Nat} (h : lo' ≤ lo) (m : SMap V) (hm : SMap.wfFrom d lo m = true) :
    SMap.wfFrom d lo' m = true := by
  cases m with
  | nil => rfl
  | cons e m =>
    simp only [SMap.wfFrom, Bool.and_eq_true, decide_eq_true_eq] at hm ⊢
    exact ⟨⟨by omega, hm.1.2⟩, hm.2⟩

theorem SMap.wfFrom_filter (d : Nat → V) (p : Nat × V → Bool) (m : SMap V) (lo : Nat) (hm : SMap.wfFrom d lo m = true) :
    SMap.wfFrom d lo (m.filter p) = true := by
  induction m generalizing lo with
  | nil => rfl
  | cons e m ih =>
    simp only [SMap.wfFrom, Bool.and_eq_true, decide_eq_true_eq] at hm
    rw [List.filter_cons]
    split
    · simp only [SMap.wfFrom, Bool.and_eq_true, decide_eq_true_eq]
      exact ⟨hm.1, ih _ hm.2⟩
    · exact SMap.wfFrom_mono d (by omega) _ (ih _ hm.2)

theorem SMap.wfFrom_put (d : Nat → V) (k : Nat) (v : V) (hv : v ≠ d k) (m : SMap V) (lo : Nat) (hk : lo ≤ k)
    (hm : SMap.wfFrom d lo m = true) : SMap.wfFrom d lo (SMap.put m k v) = true := by
  induction m generalizing lo with
  | nil => simp [SMap.put, SMap.wfFrom, hv, hk]
  | cons e m ih =>
    obtain ⟨a, w⟩ := e
    simp only [SMap.wfFrom, Bool.and_eq_true, decide_eq_true_eq] at hm
    unfold SMap.put
    split
    · rename_i h; subst h
      simp only [SMap.wfFrom, Bool.and_eq_true, decide_eq_true_eq]
      exact ⟨⟨hk, hv⟩, hm.2⟩
    · split
      · simp only [SMap.wfFrom, Bool.and_eq_true, decide_eq_true_eq]
        exact ⟨⟨hk, hv⟩, ⟨by omega, hm.1.2⟩, hm.2⟩
      · simp only [SMap.wfFrom, Bool.and_eq_true, decide_eq_true_eq]
        exact ⟨hm.1, ih _ (by omega) hm.2⟩

theorem SMap.wf_filter (d : Nat → V) (p : Nat × V → Bool) {m : SMap V} (h : SMap.wf d m = true) :
    SMap.wf d (m.filter p) = true := SMap.wfFrom_filter d p m 0 h

theorem SMap.wf_clearRange (d : Nat → V) {m : SMap V} (lo hi : Nat) (h : SMap.wf d m = true) :
    SMap.wf d (SMap.clearRange m lo hi) = true := SMap.wf_filter d _ h

theorem SMap.wf_set (d : Nat → V) {m : SMap V} (k : Nat) (v : V) (h : SMap.wf d m = true) :
    SMap.wf d (SMap.set d m k v) = true := by
  unfold SMap.set
  split
  · exact SMap.wf_filter d _ h
  · exact SMap.wfFrom_put d k v (by assumption) m 0 (by omega) h

theorem SMap.wfFrom_entries (d : Nat → V) (vs : List V) (k : Nat) : SMap.wfFrom d k (SMap.entries d k vs) = true := by
  induction vs generalizing k with
  | nil => rfl
  | cons v vs ih =>
    unfold SMap.entries
    split
    · exact SMap.wfFrom_mono d (by omega) _ (ih (k + 1))
    · simp only [SMap.wfFrom, Bool.and_eq_true, decide_eq_true_eq]
      exact ⟨⟨le_refl _, by assumption⟩, ih _⟩

theorem SMap.wfFrom_append (d : Nat → V) (b : SMap V) (hi : Nat) (hb : SMap.wfFrom d hi b = true) (a : SMap V) (lo : Nat)
    (hlo : lo ≤ hi) (ha : SMap.wfFrom d lo a = true) (hk : ∀ e ∈ a, e.1 < hi) : SMap.wfFrom d lo (a ++ b) = true := by
  induction a generalizing lo with
  | nil => exact SMap.wfFrom_mono d hlo b hb
  | cons e a ih =>
    simp only [SMap.wfFrom, Bool.and_eq_true, decide_eq_true_eq, List.cons_append] at ha ⊢
    exact ⟨ha.1, ih _ (hk e (List.mem_cons_self ..)) ha.2 (fun x hx => hk x (List.mem_cons_of_mem _ hx))⟩

theorem SMap.wfFrom_filter_ge (d : Nat → V) (m : SMap V) (lo k : Nat) (hm : SMap.wfFrom d lo m = true) :
    SMap.wfFrom d k (m.filter (fun e => decide (k ≤ e.1))) = true := by
  induction m generalizing lo with
  | nil => rfl
  | cons e m ih =>
    simp only [SMap.wfFrom, Bool.and_eq_true, decide_eq_true_eq] at hm
    rw [List.filter_cons]
    split
    · rename_i h
      simp only [SMap.wfFrom, Bool.and_eq_true, decide_eq_true_eq]
      exact ⟨⟨by simpa using h, hm.1.2⟩, SMap.wfFrom_filter d _ m _ hm.2⟩
    · exact ih _ hm.2

theorem SMap.wf_setRange (d : Nat → V) {m : SMap V} (k : Nat) (vs : List V) (h : SMap.wf d m = true) :
    SMap.wf d (SMap.setRange d m k vs) = true := by
  unfold SMap.setRange SMap.wf
  rw [List.append_assoc]
  refine SMap.wfFrom_append d _ k ?_ _ 0 (by omega) (SMap.wfFrom_filter d _ m 0 h) ?_
  · exact SMap.wfFrom_append d _ (k + vs.length) (SMap.wfFrom_filter_ge d m 0 _ h) _ k (by omega)
      (SMap.wfFrom_entries d vs k) (fun e he => (SMap.entries_key d vs k e he).2)
  · intro e he
    simpa using (List.mem_filter.mp he).2

theorem SMap.wf_putAll (d : Nat → V) (r : SMap V) {m : SMap V} (h : SMap.wf d m = true) :
    SMap.wf d (SMap.putAll d m r) = true := by
  induction r generalizing m with
  | nil => exact h
  | cons e r ih => exact ih (SMap.wf_set d _ _ h)

end wf

end Sys2Proof.Machine
end

