-- ==== Sys2Proof/Laws/Frame.lean ====
section
/-! SUPPORT. What a change of the state does to the memories and to the queue of commands: the base of the frame lemmas of Laws/.
`X_mems`: X leaves the vaults, the stage memories and the queue. `X_pend`: X leaves the queue. `X_canon`: X keeps the canonical form
of the memories. A lemma whose name ends in a prime says the same of the state in a pair. -/

namespace Sys2Proof.Machine

/-- The memories and the queue of commands. -/
def State.mems (s : State) : List Host.Cell × List Host.Cell × List Instr := (s.vmem, s.stg, s.pending)
/-- The queue of commands. -/
def State.pend (s : State) : List Instr := s.pending
/-- The canonical form of both memories. -/
def State.canon (s : State) : Prop := SMap.wf vmemDefault s.vmem = true ∧ SMap.wf stgDefault s.stg = true

theorem State.vmem_of_mems {s t : State} (h : t.mems = s.mems) : t.vmem = s.vmem := congrArg (fun p => p.1) h
theorem State.stg_of_mems {s t : State} (h : t.mems = s.mems) : t.stg = s.stg := congrArg (fun p => p.2.1) h
theorem State.pend_of_mems {s t : State} (h : t.mems = s.mems) : t.pend = s.pend := congrArg (fun p => p.2.2) h
theorem State.canon_of_mems {s t : State} (h : t.mems = s.mems) (hs : s.canon) : t.canon := by
  unfold State.canon
  rw [State.vmem_of_mems h, State.stg_of_mems h]
  exact hs

theorem State.mems_self (s : State) : s.mems = s.mems := rfl
theorem State.pend_self (s : State) : s.pend = s.pend := rfl

theorem State.mems_mk {a vm st b c d e f g h i j k l m n o p q r u v w x y pe} :
    State.mems ⟨a, vm, st, b, c, d, e, f, g, h, i, j, k, l, m, n, o, p, q, r, u, v, w, x, y, pe⟩ = (vm, st, pe) := rfl
theorem State.pend_mk {a vm st b c d e f g h i j k l m n o p q r u v w x y pe} :
    State.pend ⟨a, vm, st, b, c, d, e, f, g, h, i, j, k, l, m, n, o, p, q, r, u, v, w, x, y, pe⟩ = pe := rfl
theorem State.canon_mk {a vm st b c d e f g h i j k l m n o p q r u v w x y pe} :
    State.canon ⟨a, vm, st, b, c, d, e, f, g, h, i, j, k, l, m, n, o, p, q, r, u, v, w, x, y, pe⟩
      = (SMap.wf vmemDefault vm = true ∧ SMap.wf stgDefault st = true) := rfl
theorem State.mems_eta (t : State) : (t.vmem, t.stg, t.pending) = t.mems := rfl
theorem State.pend_eta (t : State) : t.pending = t.pend := rfl
theorem State.canon_eta {t : State} (h : t.canon) : SMap.wf vmemDefault t.vmem = true ∧ SMap.wf stgDefault t.stg = true := h

theorem State.canon_noVault {t : State} (h : t.canon) : SMap.wf vmemDefault [] = true ∧ SMap.wf stgDefault t.stg = true := ⟨rfl, h.2⟩
theorem State.canon_noStage {t : State} (h : t.canon) : SMap.wf vmemDefault t.vmem = true ∧ SMap.wf stgDefault [] = true := ⟨h.1, rfl⟩
theorem State.canon_none : SMap.wf vmemDefault [] = true ∧ SMap.wf stgDefault [] = true := ⟨rfl, rfl⟩
theorem State.canon_clearVault {t : State} {lo hi : Nat} (h : t.canon) :
    SMap.wf vmemDefault (SMap.clearRange t.vmem lo hi) = true ∧ SMap.wf stgDefault t.stg = true := ⟨SMap.wf_clearRange _ _ _ h.1, h.2⟩
theorem State.canon_clearStage {t : State} {lo hi : Nat} (h : t.canon) :
    SMap.wf vmemDefault t.vmem = true ∧ SMap.wf stgDefault (SMap.clearRange t.stg lo hi) = true := ⟨h.1, SMap.wf_clearRange _ _ _ h.2⟩

theorem State.canon_resetStage {t : State} (h : t.canon) :
    SMap.wf vmemDefault t.vmem = true ∧ SMap.wf stgDefault State.reset.stg = true := ⟨h.1, rfl⟩
theorem State.reset_canon : State.reset.canon := ⟨rfl, rfl⟩

/-! ### Choices -/

theorem ite_mems {c : Prop} [Decidable c] {a b : State} {m : List Host.Cell × List Host.Cell × List Instr}
    (ha : a.mems = m) (hb : b.mems = m) : (if c then a else b).mems = m := by split <;> assumption
theorem ite_pend {c : Prop} [Decidable c] {a b : State} {m : List Instr}
    (ha : a.pend = m) (hb : b.pend = m) : (if c then a else b).pend = m := by split <;> assumption
theorem ite_canon {c : Prop} [Decidable c] {a b : State} (ha : a.canon) (hb : b.canon) : (if c then a else b).canon := by
  split <;> assumption

/-! ### Walks -/

theorem forUpTo_mems {f : Nat → State → State} (h : ∀ i s, (f i s).mems = s.mems) (n : Nat) (s : State) :
    (forUpTo n f s).mems = s.mems := by
  induction n with
  | zero => rfl
  | succ n ih => exact (h _ _).trans ih
theorem forUpTo_pend {f : Nat → State → State} (h : ∀ i s, (f i s).pend = s.pend) (n : Nat) (s : State) :
    (forUpTo n f s).pend = s.pend := by
  induction n with
  | zero => rfl
  | succ n ih => exact (h _ _).trans ih
theorem forUpTo_canon {f : Nat → State → State} (h : ∀ i s, s.canon → (f i s).canon) {s : State} (hs : s.canon) (n : Nat) :
    (forUpTo n f s).canon := by
  induction n with
  | zero => exact hs
  | succ n ih => exact h _ _ ih

theorem forEach_mems {α : Type} {f : α → State → State} (h : ∀ a s, (f a s).mems = s.mems) (l : List α) (s : State) :
    (forEach l f s).mems = s.mems := by
  induction l generalizing s with
  | nil => rfl
  | cons a l ih => exact (ih _).trans (h _ _)
theorem forEach_pend {α : Type} {f : α → State → State} (h : ∀ a s, (f a s).pend = s.pend) (l : List α) (s : State) :
    (forEach l f s).pend = s.pend := by
  induction l generalizing s with
  | nil => rfl
  | cons a l ih => exact (ih _).trans (h _ _)
theorem forEach_canon {α : Type} {f : α → State → State} (h : ∀ a s, s.canon → (f a s).canon) {s : State} (hs : s.canon)
    (l : List α) : (forEach l f s).canon := by
  induction l generalizing s with
  | nil => exact hs
  | cons a l ih => exact ih (h _ _ hs)

theorem foldl_mems {α : Type} {f : State → α → State} (h : ∀ s a, (f s a).mems = s.mems) (l : List α) (s : State) :
    (l.foldl f s).mems = s.mems := by
  induction l generalizing s with
  | nil => rfl
  | cons a l ih => exact (ih _).trans (h _ _)
theorem foldl_pend {α : Type} {f : State → α → State} (h : ∀ s a, (f s a).pend = s.pend) (l : List α) (s : State) :
    (l.foldl f s).pend = s.pend := by
  induction l generalizing s with
  | nil => rfl
  | cons a l ih => exact (ih _).trans (h _ _)
theorem foldl_canon {α : Type} {f : State → α → State} (h : ∀ s a, s.canon → (f s a).canon) {s : State} (hs : s.canon)
    (l : List α) : (l.foldl f s).canon := by
  induction l generalizing s with
  | nil => exact hs
  | cons a l ih => exact ih (h _ _ hs)

theorem foldl1_mems {α β : Type} {f : State × β → α → State × β} (h : ∀ p a, (f p a).1.mems = p.1.mems) (l : List α)
    (p : State × β) : (l.foldl f p).1.mems = p.1.mems := by
  induction l generalizing p with
  | nil => rfl
  | cons a l ih => exact (ih _).trans (h _ _)
theorem foldl1_pend {α β : Type} {f : State × β → α → State × β} (h : ∀ p a, (f p a).1.pend = p.1.pend) (l : List α)
    (p : State × β) : (l.foldl f p).1.pend = p.1.pend := by
  induction l generalizing p with
  | nil => rfl
  | cons a l ih => exact (ih _).trans (h _ _)
theorem foldl1_canon {α β : Type} {f : State × β → α → State × β} (h : ∀ p a, p.1.canon → (f p a).1.canon) {p : State × β}
    (hs : p.1.canon) (l : List α) : (l.foldl f p).1.canon := by
  induction l generalizing p with
  | nil => exact hs
  | cons a l ih => exact ih (h _ _ hs)

/-! ### The writes of memory -/

theorem State.putRaw_pend (s : State) (k : Nat) (r : RawLine) : (s.putRaw k r).pend = s.pend := rfl
theorem State.putStg_pend (s : State) (g b : Nat) (bs : List Nat) : (s.putStg g b bs).pend = s.pend := rfl

theorem State.putRaw_canon {s : State} (hs : s.canon) (k : Nat) (r : RawLine) : (s.putRaw k r).canon :=
  ⟨SMap.wf_setRange _ _ _ hs.1, hs.2⟩
theorem State.putStg_canon {s : State} (hs : s.canon) (g b : Nat) (bs : List Nat) : (s.putStg g b bs).canon :=
  ⟨hs.1, SMap.wf_setRange _ _ _ hs.2⟩

end Sys2Proof.Machine
end

