-- ==== Sys2Proof/Laws/FrameOps.lean ====
section
/-! SUPPORT. Frames of Machine/Ops.lean: what each operation and command leaves alone of the memories and the queue. -/

set_option linter.all false

namespace Sys2Proof.Machine

theorem State.wr_mems (s : State) (r : Reg) (inst : Nat) (idx : Nat) (v : Nat) :
    ((State.wr s r inst idx v)).mems = s.mems := by
  unfold State.wr
  try dsimp only
  repeat' (first
    | with_reducible assumption | (simp only [State.mems_mk]; with_reducible refine (State.mems_eta _).trans ?_)
    | (with_reducible refine ite_mems ?_ ?_) | with_reducible exact State.mems_self _ | dsimp only | split)

theorem State.wrF_mems (s : State) (r : Reg) (inst : Nat) (idx : Nat) (lo : Nat) (w : Nat) (v : Nat) :
    ((State.wrF s r inst idx lo w v)).mems = s.mems := by
  unfold State.wrF
  try dsimp only
  repeat' (first
    | with_reducible assumption | (simp only [State.mems_mk]; with_reducible refine (State.mems_eta _).trans ?_)
    | (with_reducible refine ite_mems ?_ ?_) | (with_reducible refine (State.wr_mems ..).trans ?_)
    | with_reducible exact State.mems_self _ | dsimp only | split)

theorem State.bump_mems (s : State) (r : Reg) (inst : Nat) (n : Nat) :
    ((State.bump s r inst n)).mems = s.mems := by
  unfold State.bump
  try dsimp only
  repeat' (first
    | with_reducible assumption | (simp only [State.mems_mk]; with_reducible refine (State.mems_eta _).trans ?_)
    | (with_reducible refine ite_mems ?_ ?_) | (with_reducible refine (State.wr_mems ..).trans ?_)
    | with_reducible exact State.mems_self _ | dsimp only | split)

theorem State.setCore_mems (s : State) (g : Nat) (c : Core) :
    ((State.setCore s g c)).mems = s.mems := by
  unfold State.setCore
  try dsimp only
  repeat' (first
    | with_reducible assumption | (simp only [State.mems_mk]; with_reducible refine (State.mems_eta _).trans ?_)
    | (with_reducible refine ite_mems ?_ ?_) | with_reducible exact State.mems_self _ | dsimp only | split)

theorem State.updCore_mems (s : State) (g : Nat) (f : Core → Core) :
    ((State.updCore s g f)).mems = s.mems := by
  unfold State.updCore
  try dsimp only
  repeat' (first
    | with_reducible assumption | (simp only [State.mems_mk]; with_reducible refine (State.mems_eta _).trans ?_)
    | (with_reducible refine ite_mems ?_ ?_) | (with_reducible refine (State.setCore_mems ..).trans ?_)
    | with_reducible exact State.mems_self _ | dsimp only | split)

theorem State.updVlt_mems (s : State) (g : Nat) (f : Vlt → Vlt) :
    ((State.updVlt s g f)).mems = s.mems := by
  unfold State.updVlt
  try dsimp only
  repeat' (first
    | with_reducible assumption | (simp only [State.mems_mk]; with_reducible refine (State.mems_eta _).trans ?_)
    | (with_reducible refine ite_mems ?_ ?_) | (with_reducible refine (State.updCore_mems ..).trans ?_)
    | with_reducible exact State.mems_self _ | dsimp only | split)

theorem State.send_mems (s : State) (o : Out) :
    ((State.send s o)).mems = s.mems := by
  unfold State.send
  try dsimp only
  repeat' (first
    | with_reducible assumption | (simp only [State.mems_mk]; with_reducible refine (State.mems_eta _).trans ?_)
    | (with_reducible refine ite_mems ?_ ?_) | with_reducible exact State.mems_self _ | dsimp only | split)

theorem State.setCoreState_mems (s : State) (g : Nat) (v : Nat) :
    ((State.setCoreState s g v)).mems = s.mems := by
  unfold State.setCoreState
  try dsimp only
  repeat' (first
    | with_reducible assumption | (simp only [State.mems_mk]; with_reducible refine (State.mems_eta _).trans ?_)
    | (with_reducible refine ite_mems ?_ ?_) | (with_reducible refine (State.wrF_mems ..).trans ?_)
    | with_reducible exact State.mems_self _ | dsimp only | split)

theorem State.fresh_mems (s : State) (n : Nat) :
    ((State.fresh s n)).mems = s.mems := by
  unfold State.fresh
  try dsimp only
  repeat' (first
    | with_reducible assumption | (simp only [State.mems_mk]; with_reducible refine (State.mems_eta _).trans ?_)
    | (with_reducible refine ite_mems ?_ ?_) | with_reducible exact State.mems_self _ | dsimp only | split)

theorem State.trace_mems (s : State) (island : Nat) (kind : Nat) :
    ((State.trace s island kind)).mems = s.mems := by
  unfold State.trace
  try dsimp only
  repeat' (first
    | with_reducible assumption | (simp only [State.mems_mk]; with_reducible refine (State.mems_eta _).trans ?_)
    | (with_reducible refine ite_mems ?_ ?_) | with_reducible exact State.mems_self _ | dsimp only | split)

theorem State.violEvent_mems (s : State) (counter : Nat) (island : Nat) (op : Nat) (seq : Nat) (field : Nat) (value : Nat) :
    ((State.violEvent s counter island op seq field value)).mems = s.mems := by
  unfold State.violEvent
  try dsimp only
  repeat' (first
    | with_reducible assumption | (simp only [State.mems_mk]; with_reducible refine (State.mems_eta _).trans ?_)
    | (with_reducible refine ite_mems ?_ ?_) | with_reducible exact State.mems_self _ | dsimp only | split)

theorem State.viol_mems (s : State) (r : Reg) (inst : Nat) (op : Nat) (seq : Nat) (field : Nat) (value : Nat) :
    ((State.viol s r inst op seq field value)).mems = s.mems := by
  unfold State.viol
  try dsimp only
  repeat' (first
    | with_reducible assumption | (simp only [State.mems_mk]; with_reducible refine (State.mems_eta _).trans ?_)
    | (with_reducible refine ite_mems ?_ ?_) | (with_reducible refine (State.violEvent_mems ..).trans ?_)
    | (with_reducible refine (State.bump_mems ..).trans ?_) | with_reducible exact State.mems_self _ | dsimp only
    | split)

theorem State.viols'_mems (s : State) (r : Reg) (inst : Nat) (op : Nat) (seq : Nat) (vs : List Viol) :
    ((State.viols' s r inst op seq vs)).mems = s.mems := by
  unfold State.viols'
  try dsimp only
  repeat' (first
    | with_reducible assumption | (simp only [State.mems_mk]; with_reducible refine (State.mems_eta _).trans ?_)
    | (with_reducible refine ite_mems ?_ ?_) | (with_reducible refine (State.viol_mems ..).trans ?_)
    | (with_reducible refine (forEach_mems (fun _ _ => ?_) ..).trans ?_) | with_reducible exact State.mems_self _
    | dsimp only | split)

theorem State.hubAddrViol_mems (s : State) (addr : Nat) :
    ((State.hubAddrViol s addr)).mems = s.mems := by
  unfold State.hubAddrViol
  try dsimp only
  repeat' (first
    | with_reducible assumption | (simp only [State.mems_mk]; with_reducible refine (State.mems_eta _).trans ?_)
    | (with_reducible refine ite_mems ?_ ?_) | (with_reducible refine (State.viol_mems ..).trans ?_)
    | with_reducible exact State.mems_self _ | dsimp only | split)

theorem State.winViol_mems (s : State) (a : Nat) :
    ((State.winViol s a)).mems = s.mems := by
  unfold State.winViol
  try dsimp only
  repeat' (first
    | with_reducible assumption | (simp only [State.mems_mk]; with_reducible refine (State.mems_eta _).trans ?_)
    | (with_reducible refine ite_mems ?_ ?_) | (with_reducible refine (State.viol_mems ..).trans ?_)
    | with_reducible exact State.mems_self _ | dsimp only | split)

theorem State.regReject_mems (s : State) (off : Nat) :
    ((State.regReject s off)).mems = s.mems := by
  unfold State.regReject
  try dsimp only
  repeat' (first
    | with_reducible assumption | (simp only [State.mems_mk]; with_reducible refine (State.mems_eta _).trans ?_)
    | (with_reducible refine ite_mems ?_ ?_) | (with_reducible refine (State.viol_mems ..).trans ?_)
    | with_reducible exact State.mems_self _ | dsimp only | split)

theorem State.coreAddrViol_mems (s : State) (g : Nat) (op : Nat) (seq : Nat) (field : Nat) (addr : Nat) :
    ((State.coreAddrViol s g op seq field addr)).mems = s.mems := by
  unfold State.coreAddrViol
  try dsimp only
  repeat' (first
    | with_reducible assumption | (simp only [State.mems_mk]; with_reducible refine (State.mems_eta _).trans ?_)
    | (with_reducible refine ite_mems ?_ ?_) | (with_reducible refine (State.viol_mems ..).trans ?_)
    | with_reducible exact State.mems_self _ | dsimp only | split)

theorem State.queue_mems (s : State) (k : FaultKind) (island : Nat) (core : Option Nat) (p : Payload) :
    ((State.queue s k island core p)).mems = s.mems := by
  unfold State.queue
  try dsimp only
  repeat' (first
    | with_reducible assumption | (simp only [State.mems_mk]; with_reducible refine (State.mems_eta _).trans ?_)
    | (with_reducible refine ite_mems ?_ ?_) | with_reducible exact State.mems_self _ | dsimp only | split)

theorem State.queueAs_mems (s : State) (k : FaultKind) (cls : Nat) (masked : Bool) (island : Nat) (core : Option Nat) (p : Payload) :
    ((State.queueAs s k cls masked island core p)).mems = s.mems := by
  unfold State.queueAs
  try dsimp only
  repeat' (first
    | with_reducible assumption | (simp only [State.mems_mk]; with_reducible refine (State.mems_eta _).trans ?_)
    | (with_reducible refine ite_mems ?_ ?_) | with_reducible exact State.mems_self _ | dsimp only | split)

theorem State.ctrlStore_pend (s : State) (g : Nat) (l : Nat) (k : Nat) (r : RawLine) :
    ((State.ctrlStore s g l k r)).pend = s.pend := by
  unfold State.ctrlStore
  try dsimp only
  repeat' (first
    | with_reducible assumption | (simp only [State.pend_mk]; with_reducible refine (State.pend_eta _).trans ?_)
    | (with_reducible refine ite_pend ?_ ?_) | (with_reducible refine (State.putRaw_pend ..).trans ?_)
    | (with_reducible refine (State.pend_of_mems (State.wrF_mems ..)).trans ?_)
    | with_reducible exact State.pend_self _ | dsimp only | split)

theorem State.ctrlStore_canon {s : State} (hs : s.canon) (g : Nat) (l : Nat) (k : Nat) (r : RawLine) :
    ((State.ctrlStore s g l k r)).canon := by
  unfold State.ctrlStore
  try dsimp only
  repeat' (first
    | with_reducible assumption | (simp only [State.canon_mk]; with_reducible refine State.canon_eta ?_)
    | (with_reducible refine ite_canon ?_ ?_) | (with_reducible refine State.putRaw_canon ?_ ..)
    | (with_reducible refine State.canon_of_mems (State.wrF_mems ..) ?_) | dsimp only | split)

theorem State.ctrlRead_mems (s : State) (g : Nat) (l : Nat) :
    ((State.ctrlRead s g l).1).mems = s.mems := by
  unfold State.ctrlRead
  try dsimp only
  repeat' (first
    | with_reducible assumption | (simp only [State.mems_mk]; with_reducible refine (State.mems_eta _).trans ?_)
    | (with_reducible refine ite_mems ?_ ?_) | (with_reducible refine (State.wrF_mems ..).trans ?_)
    | with_reducible exact State.mems_self _ | dsimp only | split)
theorem State.ctrlRead_mems' {s : State} {g : Nat} {l : Nat} {zr} {zq : State}
    (zh : (State.ctrlRead s g l) = (zq, zr)) : zq.mems = s.mems := by
  have := (State.ctrlRead_mems s g l)
  rw [zh] at this
  exact this

theorem State.storeLine_pend (s : State) (g : Nat) (l : Nat) (data : List Nat) (tag : Nat) (flags : Nat) :
    ((State.storeLine s g l data tag flags)).pend = s.pend := by
  unfold State.storeLine
  try dsimp only
  repeat' (first
    | with_reducible assumption | (simp only [State.pend_mk]; with_reducible refine (State.pend_eta _).trans ?_)
    | (with_reducible refine ite_pend ?_ ?_) | (with_reducible refine (State.ctrlStore_pend ..).trans ?_)
    | with_reducible exact State.pend_self _ | dsimp only | split)

theorem State.storeLine_canon {s : State} (hs : s.canon) (g : Nat) (l : Nat) (data : List Nat) (tag : Nat) (flags : Nat) :
    ((State.storeLine s g l data tag flags)).canon := by
  unfold State.storeLine
  try dsimp only
  repeat' (first
    | with_reducible assumption | (simp only [State.canon_mk]; with_reducible refine State.canon_eta ?_)
    | (with_reducible refine ite_canon ?_ ?_) | (with_reducible refine State.ctrlStore_canon ?_ ..) | dsimp only
    | split)

end Sys2Proof.Machine
end

