-- ==== Sys2Proof/Laws/FrameMemOps.lean ====
section
/-! SUPPORT. Frames of Machine/MemOps.lean: what each operation and command leaves alone of the memories and the queue. -/

set_option linter.all false

namespace Sys2Proof.Machine

theorem State.updLock_mems (s : State) (g : Nat) (l : Nat) (f : LineLock → LineLock) :
    ((State.updLock s g l f)).mems = s.mems := by
  unfold State.updLock
  try dsimp only
  repeat' (first
    | with_reducible assumption | (simp only [State.mems_mk]; with_reducible refine (State.mems_eta _).trans ?_)
    | (with_reducible refine ite_mems ?_ ?_) | (with_reducible refine (State.updVlt_mems ..).trans ?_)
    | with_reducible exact State.mems_self _ | dsimp only | split)

theorem State.lineRecord_mems (s : State) (g : Nat) (k : LineLock) (kind : FaultKind) (outcome : Nat) (entry : Nat) :
    ((State.lineRecord s g k kind outcome entry)).mems = s.mems := by
  unfold State.lineRecord
  try dsimp only
  repeat' (first
    | with_reducible assumption | (simp only [State.mems_mk]; with_reducible refine (State.mems_eta _).trans ?_)
    | (with_reducible refine ite_mems ?_ ?_) | (with_reducible refine (State.queue_mems ..).trans ?_)
    | with_reducible exact State.mems_self _ | dsimp only | split)

theorem State.lineFail_mems (s : State) (g : Nat) (req : VltReq) (r : RawLine) (lane : Bool) :
    ((State.lineFail s g req r lane)).mems = s.mems := by
  unfold State.lineFail
  try dsimp only
  repeat' (first
    | with_reducible assumption | (simp only [State.mems_mk]; with_reducible refine (State.mems_eta _).trans ?_)
    | (with_reducible refine ite_mems ?_ ?_) | (with_reducible refine (State.updVlt_mems ..).trans ?_)
    | (with_reducible refine (State.bump_mems ..).trans ?_) | with_reducible exact State.mems_self _ | dsimp only
    | split)

theorem State.withhold_mems (s : State) (island : Nat) :
    ((State.withhold s island)).mems = s.mems := by
  unfold State.withhold
  try dsimp only
  repeat' (first
    | with_reducible assumption | (simp only [State.mems_mk]; with_reducible refine (State.mems_eta _).trans ?_)
    | (with_reducible refine ite_mems ?_ ?_) | (with_reducible refine (State.updCore_mems ..).trans ?_)
    | with_reducible exact State.mems_self _ | dsimp only | split)

theorem State.poisonRead_mems (s : State) (g : Nat) (req : VltReq) (r : RawLine) :
    ((State.poisonRead s g req r)).mems = s.mems := by
  unfold State.poisonRead
  try dsimp only
  repeat' (first
    | with_reducible assumption | (simp only [State.mems_mk]; with_reducible refine (State.mems_eta _).trans ?_)
    | (with_reducible refine ite_mems ?_ ?_) | (with_reducible refine (State.withhold_mems ..).trans ?_)
    | (with_reducible refine (State.lineRecord_mems ..).trans ?_)
    | (with_reducible refine (State.bump_mems ..).trans ?_) | with_reducible exact State.mems_self _ | dsimp only
    | split)

theorem State.checkedRead_mems (s : State) (g : Nat) (l : Nat) :
    ((State.checkedRead s g l).1).mems = s.mems := by
  unfold State.checkedRead
  try dsimp only
  repeat' (first
    | with_reducible assumption | (simp only [State.mems_mk]; with_reducible refine (State.mems_eta _).trans ?_)
    | (with_reducible refine ite_mems ?_ ?_) | (with_reducible refine (State.lineRecord_mems ..).trans ?_)
    | (with_reducible refine (State.ctrlRead_mems ..).trans ?_)
    | (with_reducible refine (State.ctrlRead_mems' (by assumption)).trans ?_)
    | (with_reducible refine (State.bump_mems ..).trans ?_) | with_reducible exact State.mems_self _ | dsimp only
    | split)
theorem State.checkedRead_mems' {s : State} {g : Nat} {l : Nat} {zr} {zq : State}
    (zh : (State.checkedRead s g l) = (zq, zr)) : zq.mems = s.mems := by
  have := (State.checkedRead_mems s g l)
  rw [zh] at this
  exact this

theorem State.copyPage_pend (s : State) (g : Nat) (p : Nat) (q : Nat) :
    ((State.copyPage s g p q)).pend = s.pend := by
  unfold State.copyPage
  try dsimp only
  repeat' (first
    | with_reducible assumption | (simp only [State.pend_mk]; with_reducible refine (State.pend_eta _).trans ?_)
    | (with_reducible refine ite_pend ?_ ?_)
    | (with_reducible refine (State.pend_of_mems (State.checkedRead_mems ..)).trans ?_)
    | (with_reducible refine (State.pend_of_mems (State.checkedRead_mems' (by assumption))).trans ?_)
    | (with_reducible refine (State.ctrlStore_pend ..).trans ?_)
    | (with_reducible refine (State.pend_of_mems (State.bump_mems ..)).trans ?_)
    | (with_reducible refine (forUpTo_pend (fun _ _ => ?_) ..).trans ?_) | with_reducible exact State.pend_self _
    | dsimp only | split)

theorem State.copyPage_canon {s : State} (hs : s.canon) (g : Nat) (p : Nat) (q : Nat) :
    ((State.copyPage s g p q)).canon := by
  unfold State.copyPage
  try dsimp only
  repeat' (first
    | with_reducible assumption | (simp only [State.canon_mk]; with_reducible refine State.canon_eta ?_)
    | (with_reducible refine ite_canon ?_ ?_)
    | (with_reducible refine State.canon_of_mems (State.checkedRead_mems ..) ?_)
    | (with_reducible refine State.canon_of_mems (State.checkedRead_mems' (by assumption)) ?_)
    | (with_reducible refine State.ctrlStore_canon ?_ ..)
    | (with_reducible refine State.canon_of_mems (State.bump_mems ..) ?_)
    | (with_reducible refine forUpTo_canon (fun _ _ _ => ?_) ?_ ..) | dsimp only | split)

theorem State.setFrame_mems (s : State) (g : Nat) (page : Nat) (f : Frame) :
    ((State.setFrame s g page f)).mems = s.mems := by
  unfold State.setFrame
  try dsimp only
  repeat' (first
    | with_reducible assumption | (simp only [State.mems_mk]; with_reducible refine (State.mems_eta _).trans ?_)
    | (with_reducible refine ite_mems ?_ ?_) | with_reducible exact State.mems_self _ | dsimp only | split)

theorem State.notePageCopied_mems (s : State) (g : Nat) (page : Nat) (n : Nat) :
    ((State.notePageCopied s g page n)).mems = s.mems := by
  unfold State.notePageCopied
  try dsimp only
  repeat' (first
    | with_reducible assumption | (simp only [State.mems_mk]; with_reducible refine (State.mems_eta _).trans ?_)
    | (with_reducible refine ite_mems ?_ ?_) | with_reducible exact State.mems_self _ | dsimp only | split)

theorem State.snapCopy_pend (s : State) (g : Nat) (page : Nat) :
    ((State.snapCopy s g page)).pend = s.pend := by
  unfold State.snapCopy
  try dsimp only
  repeat' (first
    | with_reducible assumption | (simp only [State.pend_mk]; with_reducible refine (State.pend_eta _).trans ?_)
    | (with_reducible refine ite_pend ?_ ?_)
    | (with_reducible refine (State.pend_of_mems (State.notePageCopied_mems ..)).trans ?_)
    | (with_reducible refine (State.copyPage_pend ..).trans ?_)
    | (with_reducible refine (State.pend_of_mems (State.bump_mems ..)).trans ?_)
    | with_reducible exact State.pend_self _ | dsimp only | split)

theorem State.snapCopy_canon {s : State} (hs : s.canon) (g : Nat) (page : Nat) :
    ((State.snapCopy s g page)).canon := by
  unfold State.snapCopy
  try dsimp only
  repeat' (first
    | with_reducible assumption | (simp only [State.canon_mk]; with_reducible refine State.canon_eta ?_)
    | (with_reducible refine ite_canon ?_ ?_)
    | (with_reducible refine State.canon_of_mems (State.notePageCopied_mems ..) ?_)
    | (with_reducible refine State.copyPage_canon ?_ ..)
    | (with_reducible refine State.canon_of_mems (State.bump_mems ..) ?_) | dsimp only | split)

theorem State.frameWrite_mems (s : State) (g : Nat) (page : Nat) :
    ((State.frameWrite s g page)).mems = s.mems := by
  unfold State.frameWrite
  try dsimp only
  repeat' (first
    | with_reducible assumption | (simp only [State.mems_mk]; with_reducible refine (State.mems_eta _).trans ?_)
    | (with_reducible refine ite_mems ?_ ?_) | (with_reducible refine (State.setFrame_mems ..).trans ?_)
    | (with_reducible refine (State.bump_mems ..).trans ?_) | with_reducible exact State.mems_self _ | dsimp only
    | split)

theorem State.noteWrite_pend (s : State) (g : Nat) (l : Nat) :
    ((State.noteWrite s g l)).pend = s.pend := by
  unfold State.noteWrite
  try dsimp only
  repeat' (first
    | with_reducible assumption | (simp only [State.pend_mk]; with_reducible refine (State.pend_eta _).trans ?_)
    | (with_reducible refine ite_pend ?_ ?_)
    | (with_reducible refine (State.pend_of_mems (State.frameWrite_mems ..)).trans ?_)
    | (with_reducible refine (State.snapCopy_pend ..).trans ?_) | with_reducible exact State.pend_self _ | dsimp only
    | split)

theorem State.noteWrite_canon {s : State} (hs : s.canon) (g : Nat) (l : Nat) :
    ((State.noteWrite s g l)).canon := by
  unfold State.noteWrite
  try dsimp only
  repeat' (first
    | with_reducible assumption | (simp only [State.canon_mk]; with_reducible refine State.canon_eta ?_)
    | (with_reducible refine ite_canon ?_ ?_)
    | (with_reducible refine State.canon_of_mems (State.frameWrite_mems ..) ?_)
    | (with_reducible refine State.snapCopy_canon ?_ ..) | dsimp only | split)

theorem State.holdWrite_mems (s : State) (g : Nat) (req : VltReq) :
    ((State.holdWrite s g req)).mems = s.mems := by
  unfold State.holdWrite
  try dsimp only
  repeat' (first
    | with_reducible assumption | (simp only [State.mems_mk]; with_reducible refine (State.mems_eta _).trans ?_)
    | (with_reducible refine ite_mems ?_ ?_) | (with_reducible refine (State.updVlt_mems ..).trans ?_)
    | (with_reducible refine (State.bump_mems ..).trans ?_) | with_reducible exact State.mems_self _ | dsimp only
    | split)

theorem State.parkWrite_mems (s : State) (g : Nat) (req : VltReq) :
    ((State.parkWrite s g req)).mems = s.mems := by
  unfold State.parkWrite
  try dsimp only
  repeat' (first
    | with_reducible assumption | (simp only [State.mems_mk]; with_reducible refine (State.mems_eta _).trans ?_)
    | (with_reducible refine ite_mems ?_ ?_) | (with_reducible refine (State.holdWrite_mems ..).trans ?_)
    | (with_reducible refine (State.updVlt_mems ..).trans ?_) | (with_reducible refine (State.bump_mems ..).trans ?_)
    | with_reducible exact State.mems_self _ | dsimp only | split)

theorem State.putLine_pend (s : State) (g : Nat) (l : Nat) (data : List Nat) (tag : Nat) (flags : Nat) :
    ((State.putLine s g l data tag flags)).pend = s.pend := by
  unfold State.putLine
  try dsimp only
  repeat' (first
    | with_reducible assumption | (simp only [State.pend_mk]; with_reducible refine (State.pend_eta _).trans ?_)
    | (with_reducible refine ite_pend ?_ ?_) | (with_reducible refine (State.noteWrite_pend ..).trans ?_)
    | (with_reducible refine (State.storeLine_pend ..).trans ?_) | with_reducible exact State.pend_self _ | dsimp only
    | split)

theorem State.putLine_canon {s : State} (hs : s.canon) (g : Nat) (l : Nat) (data : List Nat) (tag : Nat) (flags : Nat) :
    ((State.putLine s g l data tag flags)).canon := by
  unfold State.putLine
  try dsimp only
  repeat' (first
    | with_reducible assumption | (simp only [State.canon_mk]; with_reducible refine State.canon_eta ?_)
    | (with_reducible refine ite_canon ?_ ?_) | (with_reducible refine State.noteWrite_canon ?_ ..)
    | (with_reducible refine State.storeLine_canon ?_ ..) | dsimp only | split)

theorem State.mergeLine_pend (s : State) (g : Nat) (req : VltReq) (r : RawLine) :
    ((State.mergeLine s g req r)).pend = s.pend := by
  unfold State.mergeLine
  try dsimp only
  repeat' (first
    | with_reducible assumption | (simp only [State.pend_mk]; with_reducible refine (State.pend_eta _).trans ?_)
    | (with_reducible refine ite_pend ?_ ?_) | (with_reducible refine (State.putLine_pend ..).trans ?_)
    | (with_reducible refine (State.pend_of_mems (State.bump_mems ..)).trans ?_)
    | with_reducible exact State.pend_self _ | dsimp only | split)

theorem State.mergeLine_canon {s : State} (hs : s.canon) (g : Nat) (req : VltReq) (r : RawLine) :
    ((State.mergeLine s g req r)).canon := by
  unfold State.mergeLine
  try dsimp only
  repeat' (first
    | with_reducible assumption | (simp only [State.canon_mk]; with_reducible refine State.canon_eta ?_)
    | (with_reducible refine ite_canon ?_ ?_) | (with_reducible refine State.putLine_canon ?_ ..)
    | (with_reducible refine State.canon_of_mems (State.bump_mems ..) ?_) | dsimp only | split)

theorem State.answerRead_mems (s : State) (g : Nat) (req : VltReq) (r : RawLine) (status : Nat) :
    ((State.answerRead s g req r status)).mems = s.mems := by
  unfold State.answerRead
  try dsimp only
  repeat' (first
    | with_reducible assumption | (simp only [State.mems_mk]; with_reducible refine (State.mems_eta _).trans ?_)
    | (with_reducible refine ite_mems ?_ ?_) | (with_reducible refine (State.send_mems ..).trans ?_)
    | (with_reducible refine (State.updVlt_mems ..).trans ?_) | with_reducible exact State.mems_self _ | dsimp only
    | split)

theorem State.finishWrite_pend (s : State) (g : Nat) (req : VltReq) (r : RawLine) :
    ((State.finishWrite s g req r)).pend = s.pend := by
  unfold State.finishWrite
  try dsimp only
  repeat' (first
    | with_reducible assumption | (simp only [State.pend_mk]; with_reducible refine (State.pend_eta _).trans ?_)
    | (with_reducible refine ite_pend ?_ ?_) | (with_reducible refine (State.mergeLine_pend ..).trans ?_)
    | (with_reducible refine (State.putLine_pend ..).trans ?_)
    | (with_reducible refine (State.pend_of_mems (State.parkWrite_mems ..)).trans ?_)
    | with_reducible exact State.pend_self _ | dsimp only | split)

theorem State.finishWrite_canon {s : State} (hs : s.canon) (g : Nat) (req : VltReq) (r : RawLine) :
    ((State.finishWrite s g req r)).canon := by
  unfold State.finishWrite
  try dsimp only
  repeat' (first
    | with_reducible assumption | (simp only [State.canon_mk]; with_reducible refine State.canon_eta ?_)
    | (with_reducible refine ite_canon ?_ ?_) | (with_reducible refine State.mergeLine_canon ?_ ..)
    | (with_reducible refine State.putLine_canon ?_ ..)
    | (with_reducible refine State.canon_of_mems (State.parkWrite_mems ..) ?_) | dsimp only | split)

theorem State.finishReq_pend (s : State) (g : Nat) (req : VltReq) (r : RawLine) :
    ((State.finishReq s g req r)).pend = s.pend := by
  unfold State.finishReq
  try dsimp only
  repeat' (first
    | with_reducible assumption | (simp only [State.pend_mk]; with_reducible refine (State.pend_eta _).trans ?_)
    | (with_reducible refine ite_pend ?_ ?_) | (with_reducible refine (State.finishWrite_pend ..).trans ?_)
    | (with_reducible refine (State.pend_of_mems (State.answerRead_mems ..)).trans ?_)
    | (with_reducible refine (State.pend_of_mems (State.poisonRead_mems ..)).trans ?_)
    | with_reducible exact State.pend_self _ | dsimp only | split)

theorem State.finishReq_canon {s : State} (hs : s.canon) (g : Nat) (req : VltReq) (r : RawLine) :
    ((State.finishReq s g req r)).canon := by
  unfold State.finishReq
  try dsimp only
  repeat' (first
    | with_reducible assumption | (simp only [State.canon_mk]; with_reducible refine State.canon_eta ?_)
    | (with_reducible refine ite_canon ?_ ?_) | (with_reducible refine State.finishWrite_canon ?_ ..)
    | (with_reducible refine State.canon_of_mems (State.answerRead_mems ..) ?_)
    | (with_reducible refine State.canon_of_mems (State.poisonRead_mems ..) ?_) | dsimp only | split)

theorem State.serveHead_pend (s : State) (g : Nat) (req : VltReq) (err : List Nat) :
    ((State.serveHead s g req err)).pend = s.pend := by
  unfold State.serveHead
  try dsimp only
  repeat' (first
    | with_reducible assumption | (simp only [State.pend_mk]; with_reducible refine (State.pend_eta _).trans ?_)
    | (with_reducible refine ite_pend ?_ ?_) | (with_reducible refine (State.finishReq_pend ..).trans ?_)
    | (with_reducible refine (State.putLine_pend ..).trans ?_)
    | (with_reducible refine (State.pend_of_mems (State.lineFail_mems ..)).trans ?_)
    | (with_reducible refine (State.pend_of_mems (State.wrF_mems ..)).trans ?_)
    | with_reducible exact State.pend_self _ | dsimp only | split)

theorem State.serveHead_canon {s : State} (hs : s.canon) (g : Nat) (req : VltReq) (err : List Nat) :
    ((State.serveHead s g req err)).canon := by
  unfold State.serveHead
  try dsimp only
  repeat' (first
    | with_reducible assumption | (simp only [State.canon_mk]; with_reducible refine State.canon_eta ?_)
    | (with_reducible refine ite_canon ?_ ?_) | (with_reducible refine State.finishReq_canon ?_ ..)
    | (with_reducible refine State.putLine_canon ?_ ..)
    | (with_reducible refine State.canon_of_mems (State.lineFail_mems ..) ?_)
    | (with_reducible refine State.canon_of_mems (State.wrF_mems ..) ?_) | dsimp only | split)

theorem State.updLane_mems (s : State) (g : Nat) (f : Lane → Lane) :
    ((State.updLane s g f)).mems = s.mems := by
  unfold State.updLane
  try dsimp only
  repeat' (first
    | with_reducible assumption | (simp only [State.mems_mk]; with_reducible refine (State.mems_eta _).trans ?_)
    | (with_reducible refine ite_mems ?_ ?_) | (with_reducible refine (State.updCore_mems ..).trans ?_)
    | with_reducible exact State.mems_self _ | dsimp only | split)

theorem State.updLaneUnit_mems (s : State) (g : Nat) (b : Nat) (f : LaneUnit → LaneUnit) :
    ((State.updLaneUnit s g b f)).mems = s.mems := by
  unfold State.updLaneUnit
  try dsimp only
  repeat' (first
    | with_reducible assumption | (simp only [State.mems_mk]; with_reducible refine (State.mems_eta _).trans ?_)
    | (with_reducible refine ite_mems ?_ ?_) | (with_reducible refine (State.updLane_mems ..).trans ?_)
    | with_reducible exact State.mems_self _ | dsimp only | split)

theorem State.updLaneBank_mems (s : State) (g : Nat) (b : Nat) (f : LaneBank → LaneBank) :
    ((State.updLaneBank s g b f)).mems = s.mems := by
  unfold State.updLaneBank
  try dsimp only
  repeat' (first
    | with_reducible assumption | (simp only [State.mems_mk]; with_reducible refine (State.mems_eta _).trans ?_)
    | (with_reducible refine ite_mems ?_ ?_) | (with_reducible refine (State.updLane_mems ..).trans ?_)
    | with_reducible exact State.mems_self _ | dsimp only | split)

theorem State.busyWait_mems (s : State) (g : Nat) (b : Nat) (req : VltReq) :
    ((State.busyWait s g b req)).mems = s.mems := by
  unfold State.busyWait
  try dsimp only
  repeat' (first
    | with_reducible assumption | (simp only [State.mems_mk]; with_reducible refine (State.mems_eta _).trans ?_)
    | (with_reducible refine ite_mems ?_ ?_) | (with_reducible refine (State.updLaneBank_mems ..).trans ?_)
    | (with_reducible refine (State.bump_mems ..).trans ?_) | with_reducible exact State.mems_self _ | dsimp only
    | split)

theorem State.vltAdmit_pend (s : State) (g : Nat) (req : VltReq) (err : List Nat) :
    ((State.vltAdmit s g req err)).pend = s.pend := by
  unfold State.vltAdmit
  try dsimp only
  repeat' (first
    | with_reducible assumption | (simp only [State.pend_mk]; with_reducible refine (State.pend_eta _).trans ?_)
    | (with_reducible refine ite_pend ?_ ?_)
    | (with_reducible refine (State.pend_of_mems (State.busyWait_mems ..)).trans ?_)
    | (with_reducible refine (State.serveHead_pend ..).trans ?_)
    | (with_reducible refine (State.pend_of_mems (State.parkWrite_mems ..)).trans ?_)
    | with_reducible exact State.pend_self _ | dsimp only | split)

theorem State.vltAdmit_canon {s : State} (hs : s.canon) (g : Nat) (req : VltReq) (err : List Nat) :
    ((State.vltAdmit s g req err)).canon := by
  unfold State.vltAdmit
  try dsimp only
  repeat' (first
    | with_reducible assumption | (simp only [State.canon_mk]; with_reducible refine State.canon_eta ?_)
    | (with_reducible refine ite_canon ?_ ?_)
    | (with_reducible refine State.canon_of_mems (State.busyWait_mems ..) ?_)
    | (with_reducible refine State.serveHead_canon ?_ ..)
    | (with_reducible refine State.canon_of_mems (State.parkWrite_mems ..) ?_) | dsimp only | split)

theorem State.vltRequest_pend (s : State) (g : Nat) (req : VltReq) (err : List Nat) :
    ((State.vltRequest s g req err)).pend = s.pend := by
  unfold State.vltRequest
  try dsimp only
  repeat' (first
    | with_reducible assumption | (simp only [State.pend_mk]; with_reducible refine (State.pend_eta _).trans ?_)
    | (with_reducible refine ite_pend ?_ ?_) | (with_reducible refine (State.vltAdmit_pend ..).trans ?_)
    | (with_reducible refine (State.pend_of_mems (State.updLock_mems ..)).trans ?_)
    | with_reducible exact State.pend_self _ | dsimp only | split)

theorem State.vltRequest_canon {s : State} (hs : s.canon) (g : Nat) (req : VltReq) (err : List Nat) :
    ((State.vltRequest s g req err)).canon := by
  unfold State.vltRequest
  try dsimp only
  repeat' (first
    | with_reducible assumption | (simp only [State.canon_mk]; with_reducible refine State.canon_eta ?_)
    | (with_reducible refine ite_canon ?_ ?_) | (with_reducible refine State.vltAdmit_canon ?_ ..)
    | (with_reducible refine State.canon_of_mems (State.updLock_mems ..) ?_) | dsimp only | split)

theorem State.serveWaiting_pend (s : State) (g : Nat) (rs : List VltReq) :
    ((State.serveWaiting s g rs)).pend = s.pend := by
  unfold State.serveWaiting
  try dsimp only
  repeat' (first
    | with_reducible assumption | (simp only [State.pend_mk]; with_reducible refine (State.pend_eta _).trans ?_)
    | (with_reducible refine ite_pend ?_ ?_) | (with_reducible refine (State.vltRequest_pend ..).trans ?_)
    | (with_reducible refine (forEach_pend (fun _ _ => ?_) ..).trans ?_) | with_reducible exact State.pend_self _
    | dsimp only | split)

theorem State.serveWaiting_canon {s : State} (hs : s.canon) (g : Nat) (rs : List VltReq) :
    ((State.serveWaiting s g rs)).canon := by
  unfold State.serveWaiting
  try dsimp only
  repeat' (first
    | with_reducible assumption | (simp only [State.canon_mk]; with_reducible refine State.canon_eta ?_)
    | (with_reducible refine ite_canon ?_ ?_) | (with_reducible refine State.vltRequest_canon ?_ ..)
    | (with_reducible refine forEach_canon (fun _ _ _ => ?_) ?_ ..) | dsimp only | split)

theorem State.releaseWrites_pend (s : State) (g : Nat) :
    ((State.releaseWrites s g)).pend = s.pend := by
  unfold State.releaseWrites
  try dsimp only
  repeat' (first
    | with_reducible assumption | (simp only [State.pend_mk]; with_reducible refine (State.pend_eta _).trans ?_)
    | (with_reducible refine ite_pend ?_ ?_) | (with_reducible refine (State.vltRequest_pend ..).trans ?_)
    | (with_reducible refine (State.pend_of_mems (State.updVlt_mems ..)).trans ?_)
    | (with_reducible refine (forEach_pend (fun _ _ => ?_) ..).trans ?_) | with_reducible exact State.pend_self _
    | dsimp only | split)

theorem State.releaseWrites_canon {s : State} (hs : s.canon) (g : Nat) :
    ((State.releaseWrites s g)).canon := by
  unfold State.releaseWrites
  try dsimp only
  repeat' (first
    | with_reducible assumption | (simp only [State.canon_mk]; with_reducible refine State.canon_eta ?_)
    | (with_reducible refine ite_canon ?_ ?_) | (with_reducible refine State.vltRequest_canon ?_ ..)
    | (with_reducible refine State.canon_of_mems (State.updVlt_mems ..) ?_)
    | (with_reducible refine forEach_canon (fun _ _ _ => ?_) ?_ ..) | dsimp only | split)

theorem State.unlock_pend (s : State) (g : Nat) (l : Nat) :
    ((State.unlock s g l)).pend = s.pend := by
  unfold State.unlock
  try dsimp only
  repeat' (first
    | with_reducible assumption | (simp only [State.pend_mk]; with_reducible refine (State.pend_eta _).trans ?_)
    | (with_reducible refine ite_pend ?_ ?_) | (with_reducible refine (State.serveWaiting_pend ..).trans ?_)
    | (with_reducible refine (State.pend_of_mems (State.updVlt_mems ..)).trans ?_)
    | with_reducible exact State.pend_self _ | dsimp only | split)

theorem State.unlock_canon {s : State} (hs : s.canon) (g : Nat) (l : Nat) :
    ((State.unlock s g l)).canon := by
  unfold State.unlock
  try dsimp only
  repeat' (first
    | with_reducible assumption | (simp only [State.canon_mk]; with_reducible refine State.canon_eta ?_)
    | (with_reducible refine ite_canon ?_ ?_) | (with_reducible refine State.serveWaiting_canon ?_ ..)
    | (with_reducible refine State.canon_of_mems (State.updVlt_mems ..) ?_) | dsimp only | split)

theorem State.takeRemap_pend (s : State) (g : Nat) (n : Nat) (l : Nat) (spare : Nat) (r : RawLine) :
    ((State.takeRemap s g n l spare r)).pend = s.pend := by
  unfold State.takeRemap
  try dsimp only
  repeat' (first
    | with_reducible assumption | (simp only [State.pend_mk]; with_reducible refine (State.pend_eta _).trans ?_)
    | (with_reducible refine ite_pend ?_ ?_) | (with_reducible refine (State.ctrlStore_pend ..).trans ?_)
    | (with_reducible refine (State.pend_of_mems (State.wr_mems ..)).trans ?_)
    | with_reducible exact State.pend_self _ | dsimp only | split)

theorem State.takeRemap_canon {s : State} (hs : s.canon) (g : Nat) (n : Nat) (l : Nat) (spare : Nat) (r : RawLine) :
    ((State.takeRemap s g n l spare r)).canon := by
  unfold State.takeRemap
  try dsimp only
  repeat' (first
    | with_reducible assumption | (simp only [State.canon_mk]; with_reducible refine State.canon_eta ?_)
    | (with_reducible refine ite_canon ?_ ?_) | (with_reducible refine State.ctrlStore_canon ?_ ..)
    | (with_reducible refine State.canon_of_mems (State.wr_mems ..) ?_) | dsimp only | split)

theorem State.leavePoison_pend (s : State) (g : Nat) (l : Nat) (r : RawLine) :
    ((State.leavePoison s g l r)).pend = s.pend := by
  unfold State.leavePoison
  try dsimp only
  repeat' (first
    | with_reducible assumption | (simp only [State.pend_mk]; with_reducible refine (State.pend_eta _).trans ?_)
    | (with_reducible refine ite_pend ?_ ?_) | (with_reducible refine (State.ctrlStore_pend ..).trans ?_)
    | with_reducible exact State.pend_self _ | dsimp only | split)

theorem State.leavePoison_canon {s : State} (hs : s.canon) (g : Nat) (l : Nat) (r : RawLine) :
    ((State.leavePoison s g l r)).canon := by
  unfold State.leavePoison
  try dsimp only
  repeat' (first
    | with_reducible assumption | (simp only [State.canon_mk]; with_reducible refine State.canon_eta ?_)
    | (with_reducible refine ite_canon ?_ ?_) | (with_reducible refine State.ctrlStore_canon ?_ ..) | dsimp only
    | split)

theorem State.beginRetire_mems (s : State) (g : Nat) (k : LineLock) :
    ((State.beginRetire s g k)).mems = s.mems := by
  unfold State.beginRetire
  try dsimp only
  repeat' (first
    | with_reducible assumption | (simp only [State.mems_mk]; with_reducible refine (State.mems_eta _).trans ?_)
    | (with_reducible refine ite_mems ?_ ?_) | (with_reducible refine (State.lineRecord_mems ..).trans ?_)
    | (with_reducible refine (State.updVlt_mems ..).trans ?_) | with_reducible exact State.mems_self _ | dsimp only
    | split)

theorem State.lastingFault_pend (s : State) (g : Nat) (k : LineLock) (r : RawLine) :
    ((State.lastingFault s g k r).1).pend = s.pend := by
  unfold State.lastingFault
  try dsimp only
  repeat' (first
    | with_reducible assumption | (simp only [State.pend_mk]; with_reducible refine (State.pend_eta _).trans ?_)
    | (with_reducible refine ite_pend ?_ ?_)
    | (with_reducible refine (State.pend_of_mems (State.beginRetire_mems ..)).trans ?_)
    | (with_reducible refine (State.leavePoison_pend ..).trans ?_)
    | (with_reducible refine (State.takeRemap_pend ..).trans ?_)
    | (with_reducible refine (State.pend_of_mems (State.updVlt_mems ..)).trans ?_)
    | (with_reducible refine (State.pend_of_mems (State.bump_mems ..)).trans ?_)
    | with_reducible exact State.pend_self _ | dsimp only | split)
theorem State.lastingFault_pend' {s : State} {g : Nat} {k : LineLock} {r : RawLine} {zr} {zq : State}
    (zh : (State.lastingFault s g k r) = (zq, zr)) : zq.pend = s.pend := by
  have := (State.lastingFault_pend s g k r)
  rw [zh] at this
  exact this

theorem State.lastingFault_canon {s : State} (hs : s.canon) (g : Nat) (k : LineLock) (r : RawLine) :
    ((State.lastingFault s g k r).1).canon := by
  unfold State.lastingFault
  try dsimp only
  repeat' (first
    | with_reducible assumption | (simp only [State.canon_mk]; with_reducible refine State.canon_eta ?_)
    | (with_reducible refine ite_canon ?_ ?_)
    | (with_reducible refine State.canon_of_mems (State.beginRetire_mems ..) ?_)
    | (with_reducible refine State.leavePoison_canon ?_ ..) | (with_reducible refine State.takeRemap_canon ?_ ..)
    | (with_reducible refine State.canon_of_mems (State.updVlt_mems ..) ?_)
    | (with_reducible refine State.canon_of_mems (State.bump_mems ..) ?_) | dsimp only | split)
theorem State.lastingFault_canon' {s : State} {g : Nat} {k : LineLock} {r : RawLine} {zr} {zq : State} (zh : (State.lastingFault s g k r) = (zq, zr)) (hs : s.canon) : zq.canon := by
  have := (State.lastingFault_canon hs g k r)
  rw [zh] at this
  exact this

theorem State.laneSettle_mems (s : State) (g : Nat) (l : Nat) (good : Bool) :
    ((State.laneSettle s g l good)).mems = s.mems := by
  unfold State.laneSettle
  try dsimp only
  repeat' (first
    | with_reducible assumption | (simp only [State.mems_mk]; with_reducible refine (State.mems_eta _).trans ?_)
    | (with_reducible refine ite_mems ?_ ?_) | (with_reducible refine (State.updLane_mems ..).trans ?_)
    | (with_reducible refine (State.withhold_mems ..).trans ?_)
    | (with_reducible refine (State.bump_mems ..).trans ?_) | (with_reducible refine (State.wrF_mems ..).trans ?_)
    | with_reducible exact State.mems_self _ | dsimp only | split)

theorem State.leaveLost_pend (s : State) (g : Nat) (k : LineLock) (entry : Nat) :
    ((State.leaveLost s g k entry)).pend = s.pend := by
  unfold State.leaveLost
  try dsimp only
  repeat' (first
    | with_reducible assumption | (simp only [State.pend_mk]; with_reducible refine (State.pend_eta _).trans ?_)
    | (with_reducible refine ite_pend ?_ ?_)
    | (with_reducible refine (State.pend_of_mems (State.laneSettle_mems ..)).trans ?_)
    | (with_reducible refine (State.leavePoison_pend ..).trans ?_)
    | (with_reducible refine (State.unlock_pend ..).trans ?_)
    | (with_reducible refine (State.finishWrite_pend ..).trans ?_)
    | (with_reducible refine (State.pend_of_mems (State.answerRead_mems ..)).trans ?_)
    | (with_reducible refine (State.pend_of_mems (State.withhold_mems ..)).trans ?_)
    | (with_reducible refine (State.pend_of_mems (State.lineRecord_mems ..)).trans ?_)
    | (with_reducible refine (State.pend_of_mems (State.bump_mems ..)).trans ?_)
    | with_reducible exact State.pend_self _ | dsimp only | split)

theorem State.leaveLost_canon {s : State} (hs : s.canon) (g : Nat) (k : LineLock) (entry : Nat) :
    ((State.leaveLost s g k entry)).canon := by
  unfold State.leaveLost
  try dsimp only
  repeat' (first
    | with_reducible assumption | (simp only [State.canon_mk]; with_reducible refine State.canon_eta ?_)
    | (with_reducible refine ite_canon ?_ ?_)
    | (with_reducible refine State.canon_of_mems (State.laneSettle_mems ..) ?_)
    | (with_reducible refine State.leavePoison_canon ?_ ..) | (with_reducible refine State.unlock_canon ?_ ..)
    | (with_reducible refine State.finishWrite_canon ?_ ..)
    | (with_reducible refine State.canon_of_mems (State.answerRead_mems ..) ?_)
    | (with_reducible refine State.canon_of_mems (State.withhold_mems ..) ?_)
    | (with_reducible refine State.canon_of_mems (State.lineRecord_mems ..) ?_)
    | (with_reducible refine State.canon_of_mems (State.bump_mems ..) ?_) | dsimp only | split)

theorem State.finishLock_pend (s : State) (g : Nat) (k : LineLock) (r : RawLine) :
    ((State.finishLock s g k r)).pend = s.pend := by
  unfold State.finishLock
  try dsimp only
  repeat' (first
    | with_reducible assumption | (simp only [State.pend_mk]; with_reducible refine (State.pend_eta _).trans ?_)
    | (with_reducible refine ite_pend ?_ ?_)
    | (with_reducible refine (State.pend_of_mems (State.laneSettle_mems ..)).trans ?_)
    | (with_reducible refine (State.finishReq_pend ..).trans ?_) | with_reducible exact State.pend_self _ | dsimp only
    | split)

theorem State.finishLock_canon {s : State} (hs : s.canon) (g : Nat) (k : LineLock) (r : RawLine) :
    ((State.finishLock s g k r)).canon := by
  unfold State.finishLock
  try dsimp only
  repeat' (first
    | with_reducible assumption | (simp only [State.canon_mk]; with_reducible refine State.canon_eta ?_)
    | (with_reducible refine ite_canon ?_ ?_)
    | (with_reducible refine State.canon_of_mems (State.laneSettle_mems ..) ?_)
    | (with_reducible refine State.finishReq_canon ?_ ..) | dsimp only | split)

theorem State.askRecompute_pend (s : State) (g : Nat) (k : LineLock) (entry : Nat) :
    ((State.askRecompute s g k entry)).pend = s.pend := by
  unfold State.askRecompute
  try dsimp only
  repeat' (first
    | with_reducible assumption | (simp only [State.pend_mk]; with_reducible refine (State.pend_eta _).trans ?_)
    | (with_reducible refine ite_pend ?_ ?_) | (with_reducible refine (State.leaveLost_pend ..).trans ?_)
    | (with_reducible refine (State.pend_of_mems (State.updLock_mems ..)).trans ?_)
    | (with_reducible refine (State.pend_of_mems (State.updCore_mems ..)).trans ?_)
    | with_reducible exact State.pend_self _ | dsimp only | split)

theorem State.askRecompute_canon {s : State} (hs : s.canon) (g : Nat) (k : LineLock) (entry : Nat) :
    ((State.askRecompute s g k entry)).canon := by
  unfold State.askRecompute
  try dsimp only
  repeat' (first
    | with_reducible assumption | (simp only [State.canon_mk]; with_reducible refine State.canon_eta ?_)
    | (with_reducible refine ite_canon ?_ ?_) | (with_reducible refine State.leaveLost_canon ?_ ..)
    | (with_reducible refine State.canon_of_mems (State.updLock_mems ..) ?_)
    | (with_reducible refine State.canon_of_mems (State.updCore_mems ..) ?_) | dsimp only | split)

theorem State.rcmpDone_mems (s : State) (g : Nat) :
    ((State.rcmpDone s g)).mems = s.mems := by
  unfold State.rcmpDone
  try dsimp only
  repeat' (first
    | with_reducible assumption | (simp only [State.mems_mk]; with_reducible refine (State.mems_eta _).trans ?_)
    | (with_reducible refine ite_mems ?_ ?_) | (with_reducible refine (State.updLock_mems ..).trans ?_)
    | (with_reducible refine (State.updCore_mems ..).trans ?_) | with_reducible exact State.mems_self _ | dsimp only
    | split)

theorem State.rcmpDrop_mems (s : State) (g : Nat) (l : Nat) :
    ((State.rcmpDrop s g l)).mems = s.mems := by
  unfold State.rcmpDrop
  try dsimp only
  repeat' (first
    | with_reducible assumption | (simp only [State.mems_mk]; with_reducible refine (State.mems_eta _).trans ?_)
    | (with_reducible refine ite_mems ?_ ?_) | (with_reducible refine (State.updCore_mems ..).trans ?_)
    | with_reducible exact State.mems_self _ | dsimp only | split)

theorem State.unitWait_pend (s : State) (reader : Nat) (g : Nat) (l : Nat) :
    ((State.unitWait s reader g l)).pend = s.pend := by
  unfold State.unitWait
  try dsimp only
  repeat' (first
    | with_reducible assumption | (simp only [State.pend_mk]; with_reducible refine (State.pend_eta _).trans ?_)
    | (with_reducible refine ite_pend ?_ ?_) | (with_reducible refine (State.vltRequest_pend ..).trans ?_)
    | with_reducible exact State.pend_self _ | dsimp only | split)

theorem State.unitWait_canon {s : State} (hs : s.canon) (reader : Nat) (g : Nat) (l : Nat) :
    ((State.unitWait s reader g l)).canon := by
  unfold State.unitWait
  try dsimp only
  repeat' (first
    | with_reducible assumption | (simp only [State.canon_mk]; with_reducible refine State.canon_eta ?_)
    | (with_reducible refine ite_canon ?_ ?_) | (with_reducible refine State.vltRequest_canon ?_ ..) | dsimp only
    | split)

theorem State.view_pend (s : State) (reader : Nat) (ls : List (Nat × Nat)) :
    ((State.view s reader ls)).pend = s.pend := by
  unfold State.view
  try dsimp only
  repeat' (first
    | with_reducible assumption | (simp only [State.pend_mk]; with_reducible refine (State.pend_eta _).trans ?_)
    | (with_reducible refine ite_pend ?_ ?_) | (with_reducible refine (State.putRaw_pend ..).trans ?_)
    | (with_reducible refine (forEach_pend (fun _ _ => ?_) ..).trans ?_) | with_reducible exact State.pend_self _
    | dsimp only | split)

theorem State.view_canon {s : State} (hs : s.canon) (reader : Nat) (ls : List (Nat × Nat)) :
    ((State.view s reader ls)).canon := by
  unfold State.view
  try dsimp only
  repeat' (first
    | with_reducible assumption | (simp only [State.canon_mk]; with_reducible refine State.canon_eta ?_)
    | (with_reducible refine ite_canon ?_ ?_) | (with_reducible refine State.putRaw_canon ?_ ..)
    | (with_reducible refine forEach_canon (fun _ _ _ => ?_) ?_ ..) | dsimp only | split)

theorem State.takeDelivered_mems (s : State) (reader : Nat) (p : Nat × Nat) :
    ((State.takeDelivered s reader p)).mems = s.mems := by
  unfold State.takeDelivered
  try dsimp only
  repeat' (first
    | with_reducible assumption | (simp only [State.mems_mk]; with_reducible refine (State.mems_eta _).trans ?_)
    | (with_reducible refine ite_mems ?_ ?_) | (with_reducible refine (State.updVlt_mems ..).trans ?_)
    | with_reducible exact State.mems_self _ | dsimp only | split)

theorem State.gateReads_pend (s : State) (reader : Nat) (ls : List (Nat × Nat)) :
    ((State.gateReads s reader ls).1).pend = s.pend := by
  unfold State.gateReads
  try dsimp only
  repeat' (first
    | with_reducible assumption | (simp only [State.pend_mk]; with_reducible refine (State.pend_eta _).trans ?_)
    | (with_reducible refine ite_pend ?_ ?_)
    | (with_reducible refine (State.pend_of_mems (State.takeDelivered_mems ..)).trans ?_)
    | (with_reducible refine (State.view_pend ..).trans ?_)
    | (with_reducible refine (State.unitWait_pend ..).trans ?_)
    | (with_reducible refine (State.pend_of_mems (State.poisonRead_mems ..)).trans ?_)
    | (with_reducible refine (forEach_pend (fun _ _ => ?_) ..).trans ?_) | with_reducible exact State.pend_self _
    | dsimp only | split)
theorem State.gateReads_pend' {s : State} {reader : Nat} {ls : List (Nat × Nat)} {zr} {zq : State}
    (zh : (State.gateReads s reader ls) = (zq, zr)) : zq.pend = s.pend := by
  have := (State.gateReads_pend s reader ls)
  rw [zh] at this
  exact this

theorem State.gateReads_canon {s : State} (hs : s.canon) (reader : Nat) (ls : List (Nat × Nat)) :
    ((State.gateReads s reader ls).1).canon := by
  unfold State.gateReads
  try dsimp only
  repeat' (first
    | with_reducible assumption | (simp only [State.canon_mk]; with_reducible refine State.canon_eta ?_)
    | (with_reducible refine ite_canon ?_ ?_)
    | (with_reducible refine State.canon_of_mems (State.takeDelivered_mems ..) ?_)
    | (with_reducible refine State.view_canon ?_ ..) | (with_reducible refine State.unitWait_canon ?_ ..)
    | (with_reducible refine State.canon_of_mems (State.poisonRead_mems ..) ?_)
    | (with_reducible refine forEach_canon (fun _ _ _ => ?_) ?_ ..) | dsimp only | split)
theorem State.gateReads_canon' {s : State} {reader : Nat} {ls : List (Nat × Nat)} {zr} {zq : State} (zh : (State.gateReads s reader ls) = (zq, zr)) (hs : s.canon) : zq.canon := by
  have := (State.gateReads_canon hs reader ls)
  rw [zh] at this
  exact this

theorem State.dropWhere_mems (s : State) (p : Nat → Bool) :
    ((State.dropWhere s p)).mems = s.mems := by
  unfold State.dropWhere
  try dsimp only
  repeat' (first
    | with_reducible assumption | (simp only [State.mems_mk]; with_reducible refine (State.mems_eta _).trans ?_)
    | (with_reducible refine ite_mems ?_ ?_) | (with_reducible refine (State.updVlt_mems ..).trans ?_)
    | (with_reducible refine (forUpTo_mems (fun _ _ => ?_) ..).trans ?_) | with_reducible exact State.mems_self _
    | dsimp only | split)

theorem State.dropDelivered_mems (s : State) (island : Nat) :
    ((State.dropDelivered s island)).mems = s.mems := by
  unfold State.dropDelivered
  try dsimp only
  repeat' (first
    | with_reducible assumption | (simp only [State.mems_mk]; with_reducible refine (State.mems_eta _).trans ?_)
    | (with_reducible refine ite_mems ?_ ?_) | (with_reducible refine (State.dropWhere_mems ..).trans ?_)
    | with_reducible exact State.mems_self _ | dsimp only | split)

theorem State.dropUnit_mems (s : State) (unit : Nat) :
    ((State.dropUnit s unit)).mems = s.mems := by
  unfold State.dropUnit
  try dsimp only
  repeat' (first
    | with_reducible assumption | (simp only [State.mems_mk]; with_reducible refine (State.mems_eta _).trans ?_)
    | (with_reducible refine ite_mems ?_ ?_) | (with_reducible refine (State.dropWhere_mems ..).trans ?_)
    | with_reducible exact State.mems_self _ | dsimp only | split)

theorem State.writeLines_pend (s : State) (src : Nat) (a : Nat) (bs : List Nat) (tag : Nat) (rcmp : Bool) :
    ((State.writeLines s src a bs tag rcmp)).pend = s.pend := by
  unfold State.writeLines
  try dsimp only
  repeat' (first
    | with_reducible assumption | (simp only [State.pend_mk]; with_reducible refine (State.pend_eta _).trans ?_)
    | (with_reducible refine ite_pend ?_ ?_) | (with_reducible refine (State.vltRequest_pend ..).trans ?_)
    | (with_reducible refine (State.pend_of_mems (State.hubAddrViol_mems ..)).trans ?_)
    | (with_reducible refine (forEach_pend (fun _ _ => ?_) ..).trans ?_) | with_reducible exact State.pend_self _
    | dsimp only | split)

theorem State.writeLines_canon {s : State} (hs : s.canon) (src : Nat) (a : Nat) (bs : List Nat) (tag : Nat) (rcmp : Bool) :
    ((State.writeLines s src a bs tag rcmp)).canon := by
  unfold State.writeLines
  try dsimp only
  repeat' (first
    | with_reducible assumption | (simp only [State.canon_mk]; with_reducible refine State.canon_eta ?_)
    | (with_reducible refine ite_canon ?_ ?_) | (with_reducible refine State.vltRequest_canon ?_ ..)
    | (with_reducible refine State.canon_of_mems (State.hubAddrViol_mems ..) ?_)
    | (with_reducible refine forEach_canon (fun _ _ _ => ?_) ?_ ..) | dsimp only | split)

theorem State.writeAt_pend (s : State) (src : Nat) (a : Nat) (bs : List Nat) (tag : Nat) (rcmp : Bool) :
    ((State.writeAt s src a bs tag rcmp)).pend = s.pend := by
  unfold State.writeAt
  try dsimp only
  repeat' (first
    | with_reducible assumption | (simp only [State.pend_mk]; with_reducible refine (State.pend_eta _).trans ?_)
    | (with_reducible refine ite_pend ?_ ?_) | (with_reducible refine (State.writeLines_pend ..).trans ?_)
    | (with_reducible refine (State.putStg_pend ..).trans ?_)
    | (with_reducible refine (State.pend_of_mems (State.coreAddrViol_mems ..)).trans ?_)
    | (with_reducible refine (State.pend_of_mems (State.hubAddrViol_mems ..)).trans ?_)
    | (with_reducible refine (State.pend_of_mems (State.viol_mems ..)).trans ?_)
    | with_reducible exact State.pend_self _ | dsimp only | split)

theorem State.writeAt_canon {s : State} (hs : s.canon) (src : Nat) (a : Nat) (bs : List Nat) (tag : Nat) (rcmp : Bool) :
    ((State.writeAt s src a bs tag rcmp)).canon := by
  unfold State.writeAt
  try dsimp only
  repeat' (first
    | with_reducible assumption | (simp only [State.canon_mk]; with_reducible refine State.canon_eta ?_)
    | (with_reducible refine ite_canon ?_ ?_) | (with_reducible refine State.writeLines_canon ?_ ..)
    | (with_reducible refine State.putStg_canon ?_ ..)
    | (with_reducible refine State.canon_of_mems (State.coreAddrViol_mems ..) ?_)
    | (with_reducible refine State.canon_of_mems (State.hubAddrViol_mems ..) ?_)
    | (with_reducible refine State.canon_of_mems (State.viol_mems ..) ?_) | dsimp only | split)

end Sys2Proof.Machine
end

