-- ==== Sys2Proof/Laws/FrameSyncOps.lean ====
section
/-! SUPPORT. Frames of Machine/SyncOps.lean: what each operation and command leaves alone of the memories and the queue. -/

set_option linter.all false

namespace Sys2Proof.Machine

theorem State.faultPin_mems (s : State) (before : State) :
    ((State.faultPin s before)).mems = s.mems := by
  unfold State.faultPin
  try dsimp only
  repeat' (first
    | with_reducible assumption | (simp only [State.mems_mk]; with_reducible refine (State.mems_eta _).trans ?_)
    | (with_reducible refine ite_mems ?_ ?_) | (with_reducible refine (State.send_mems ..).trans ?_)
    | with_reducible exact State.mems_self _ | dsimp only | split)

theorem State.closeRecords_mems (s : State) (p : Nat → Bool) :
    ((State.closeRecords s p)).mems = s.mems := by
  unfold State.closeRecords
  try dsimp only
  repeat' (first
    | with_reducible assumption | (simp only [State.mems_mk]; with_reducible refine (State.mems_eta _).trans ?_)
    | (with_reducible refine ite_mems ?_ ?_) | (with_reducible refine (State.faultPin_mems ..).trans ?_)
    | with_reducible exact State.mems_self _ | dsimp only | split)

theorem State.updHead_mems (s : State) (g : Nat) (st : Nat) (f : Entry → Entry) :
    ((State.updHead s g st f)).mems = s.mems := by
  unfold State.updHead
  try dsimp only
  repeat' (first
    | with_reducible assumption | (simp only [State.mems_mk]; with_reducible refine (State.mems_eta _).trans ?_)
    | (with_reducible refine ite_mems ?_ ?_) | (with_reducible refine (State.updCore_mems ..).trans ?_)
    | with_reducible exact State.mems_self _ | dsimp only | split)

theorem State.updInUnit_mems (s : State) (g : Nat) (st : Nat) (f : Entry → Entry) :
    ((State.updInUnit s g st f)).mems = s.mems := by
  unfold State.updInUnit
  try dsimp only
  repeat' (first
    | with_reducible assumption | (simp only [State.mems_mk]; with_reducible refine (State.mems_eta _).trans ?_)
    | (with_reducible refine ite_mems ?_ ?_) | (with_reducible refine (State.updCore_mems ..).trans ?_)
    | with_reducible exact State.mems_self _ | dsimp only | split)

theorem State.descDone_mems (s : State) (g : Nat) (st : Nat) (cs : List CensusSet) :
    ((State.descDone s g st cs)).mems = s.mems := by
  unfold State.descDone
  try dsimp only
  repeat' (first
    | with_reducible assumption | (simp only [State.mems_mk]; with_reducible refine (State.mems_eta _).trans ?_)
    | (with_reducible refine ite_mems ?_ ?_) | (with_reducible refine (State.updInUnit_mems ..).trans ?_)
    | with_reducible exact State.mems_self _ | dsimp only | split)

theorem State.updAt_mems (s : State) (g : Nat) (pos : Nat) (f : Entry → Entry) :
    ((State.updAt s g pos f)).mems = s.mems := by
  unfold State.updAt
  try dsimp only
  repeat' (first
    | with_reducible assumption | (simp only [State.mems_mk]; with_reducible refine (State.mems_eta _).trans ?_)
    | (with_reducible refine ite_mems ?_ ?_) | (with_reducible refine (State.updCore_mems ..).trans ?_)
    | with_reducible exact State.mems_self _ | dsimp only | split)

theorem State.takeEntry_mems (s : State) (g : Nat) (pos : Nat) :
    ((State.takeEntry s g pos)).mems = s.mems := by
  unfold State.takeEntry
  try dsimp only
  repeat' (first
    | with_reducible assumption | (simp only [State.mems_mk]; with_reducible refine (State.mems_eta _).trans ?_)
    | (with_reducible refine ite_mems ?_ ?_) | (with_reducible refine (State.updAt_mems ..).trans ?_)
    | with_reducible exact State.mems_self _ | dsimp only | split)

theorem State.descDoneAt_mems (s : State) (g : Nat) (pos : Nat) (cs : List CensusSet) :
    ((State.descDoneAt s g pos cs)).mems = s.mems := by
  unfold State.descDoneAt
  try dsimp only
  repeat' (first
    | with_reducible assumption | (simp only [State.mems_mk]; with_reducible refine (State.mems_eta _).trans ?_)
    | (with_reducible refine ite_mems ?_ ?_) | (with_reducible refine (State.updAt_mems ..).trans ?_)
    | with_reducible exact State.mems_self _ | dsimp only | split)

theorem State.fetchDesc_mems (s : State) (g : Nat) (st : Nat) :
    ((State.fetchDesc s g st)).mems = s.mems := by
  unfold State.fetchDesc
  try dsimp only
  repeat' (first
    | with_reducible assumption | (simp only [State.mems_mk]; with_reducible refine (State.mems_eta _).trans ?_)
    | (with_reducible refine ite_mems ?_ ?_) | (with_reducible refine (State.viol_mems ..).trans ?_)
    | (with_reducible refine (State.trace_mems ..).trans ?_)
    | (with_reducible refine (State.updCore_mems ..).trans ?_)
    | (with_reducible refine (forEach_mems (fun _ _ => ?_) ..).trans ?_)
    | (with_reducible refine (forUpTo_mems (fun _ _ => ?_) ..).trans ?_) | with_reducible exact State.mems_self _
    | dsimp only | split)

theorem State.passHead_mems (s : State) (g : Nat) (st : Nat) (f : Entry → Entry) :
    ((State.passHead s g st f)).mems = s.mems := by
  unfold State.passHead
  try dsimp only
  repeat' (first
    | with_reducible assumption | (simp only [State.mems_mk]; with_reducible refine (State.mems_eta _).trans ?_)
    | (with_reducible refine ite_mems ?_ ?_) | (with_reducible refine (State.fetchDesc_mems ..).trans ?_)
    | (with_reducible refine (State.updHead_mems ..).trans ?_)
    | (with_reducible refine (State.trace_mems ..).trans ?_)
    | (with_reducible refine (State.updCore_mems ..).trans ?_) | with_reducible exact State.mems_self _ | dsimp only
    | split)

theorem State.normHead_mems (s : State) (g : Nat) (st : Nat) :
    ((State.normHead s g st)).mems = s.mems := by
  unfold State.normHead
  try dsimp only
  repeat' (first
    | with_reducible assumption | (simp only [State.mems_mk]; with_reducible refine (State.mems_eta _).trans ?_)
    | (with_reducible refine ite_mems ?_ ?_) | (with_reducible refine (State.passHead_mems ..).trans ?_)
    | (with_reducible refine (forUpTo_mems (fun _ _ => ?_) ..).trans ?_) | with_reducible exact State.mems_self _
    | dsimp only | split)

theorem State.satisfyHead_mems (s : State) (g : Nat) (st : Nat) :
    ((State.satisfyHead s g st)).mems = s.mems := by
  unfold State.satisfyHead
  try dsimp only
  repeat' (first
    | with_reducible assumption | (simp only [State.mems_mk]; with_reducible refine (State.mems_eta _).trans ?_)
    | (with_reducible refine ite_mems ?_ ?_) | (with_reducible refine (State.normHead_mems ..).trans ?_)
    | (with_reducible refine (State.passHead_mems ..).trans ?_) | with_reducible exact State.mems_self _ | dsimp only
    | split)

theorem State.dupMismatch_mems (s : State) (g : Nat) (kind : Nat) (obj : Nat) (a : Nat) (b : Nat) :
    ((State.dupMismatch s g kind obj a b)).mems = s.mems := by
  unfold State.dupMismatch
  try dsimp only
  repeat' (first
    | with_reducible assumption | (simp only [State.mems_mk]; with_reducible refine (State.mems_eta _).trans ?_)
    | (with_reducible refine ite_mems ?_ ?_) | (with_reducible refine (State.queue_mems ..).trans ?_)
    | with_reducible exact State.mems_self _ | dsimp only | split)

theorem State.compare_mems (s : State) (g : Nat) (kind : Nat) (obj : Nat) :
    ((State.compare s g kind obj)).mems = s.mems := by
  unfold State.compare
  try dsimp only
  repeat' (first
    | with_reducible assumption | (simp only [State.mems_mk]; with_reducible refine (State.mems_eta _).trans ?_)
    | (with_reducible refine ite_mems ?_ ?_) | (with_reducible refine (State.dupMismatch_mems ..).trans ?_)
    | (with_reducible refine (forEach_mems (fun _ _ => ?_) ..).trans ?_) | with_reducible exact State.mems_self _
    | dsimp only | split)

theorem State.setCopy1_mems (s : State) (g : Nat) (kind : Nat) (obj : Nat) (field : Nat) (v : Nat) :
    ((State.setCopy1 s g kind obj field v)).mems = s.mems := by
  unfold State.setCopy1
  try dsimp only
  repeat' (first
    | with_reducible assumption | (simp only [State.mems_mk]; with_reducible refine (State.mems_eta _).trans ?_)
    | (with_reducible refine ite_mems ?_ ?_) | (with_reducible refine (State.updCore_mems ..).trans ?_)
    | with_reducible exact State.mems_self _ | dsimp only | split)

theorem State.copyMove_mems (s : State) (g : Nat) (kind : Nat) (obj : Nat) (field : Nat) (old : Nat) (w : Nat) :
    ((State.copyMove s g kind obj field old w)).mems = s.mems := by
  unfold State.copyMove
  try dsimp only
  repeat' (first
    | with_reducible assumption | (simp only [State.mems_mk]; with_reducible refine (State.mems_eta _).trans ?_)
    | (with_reducible refine ite_mems ?_ ?_) | (with_reducible refine (State.setCopy1_mems ..).trans ?_)
    | with_reducible exact State.mems_self _ | dsimp only | split)

theorem State.setLatch_mems (s : State) (g : Nat) (m : Nat) (v : LatchVal) :
    ((State.setLatch s g m v)).mems = s.mems := by
  unfold State.setLatch
  try dsimp only
  repeat' (first
    | with_reducible assumption | (simp only [State.mems_mk]; with_reducible refine (State.mems_eta _).trans ?_)
    | (with_reducible refine ite_mems ?_ ?_) | (with_reducible refine (State.copyMove_mems ..).trans ?_)
    | (with_reducible refine (State.compare_mems ..).trans ?_) | (with_reducible refine (State.wrF_mems ..).trans ?_)
    | with_reducible exact State.mems_self _ | dsimp only | split)

theorem State.setShort_mems (s : State) (g : Nat) (m : Nat) (st : Nat) (b : Bool) :
    ((State.setShort s g m st b)).mems = s.mems := by
  unfold State.setShort
  try dsimp only
  repeat' (first
    | with_reducible assumption | (simp only [State.mems_mk]; with_reducible refine (State.mems_eta _).trans ?_)
    | (with_reducible refine ite_mems ?_ ?_) | (with_reducible refine (State.wrF_mems ..).trans ?_)
    | with_reducible exact State.mems_self _ | dsimp only | split)

theorem State.serveTakes_mems (s : State) (g : Nat) (m : Nat) (x3 : Nat) :
    ((State.serveTakes s g m x3)).mems = s.mems := by
  induction x3 generalizing s g m with
  | zero =>
    unfold State.serveTakes
    try dsimp only
    repeat' (first
      | with_reducible assumption | (simp only [State.mems_mk]; with_reducible refine (State.mems_eta _).trans ?_)
      | (with_reducible refine ite_mems ?_ ?_) | (with_reducible refine (State.setShort_mems ..).trans ?_)
      | (with_reducible refine (State.setLatch_mems ..).trans ?_)
      | (with_reducible refine (State.satisfyHead_mems ..).trans ?_)
      | (with_reducible refine (State.updCore_mems ..).trans ?_) | with_reducible exact State.mems_self _ | dsimp only
      | split)
  | succ x3 ih =>
    unfold State.serveTakes
    try dsimp only
    repeat' (first
      | with_reducible assumption | (with_reducible refine (ih ..).trans ?_)
      | (simp only [State.mems_mk]; with_reducible refine (State.mems_eta _).trans ?_)
      | (with_reducible refine ite_mems ?_ ?_) | (with_reducible refine (State.setShort_mems ..).trans ?_)
      | (with_reducible refine (State.setLatch_mems ..).trans ?_)
      | (with_reducible refine (State.satisfyHead_mems ..).trans ?_)
      | (with_reducible refine (State.updCore_mems ..).trans ?_) | with_reducible exact State.mems_self _ | dsimp only
      | split)

theorem State.setWaiters_mems (s : State) (g : Nat) (m : Nat) :
    ((State.setWaiters s g m)).mems = s.mems := by
  unfold State.setWaiters
  try dsimp only
  repeat' (first
    | with_reducible assumption | (simp only [State.mems_mk]; with_reducible refine (State.mems_eta _).trans ?_)
    | (with_reducible refine ite_mems ?_ ?_) | (with_reducible refine (State.wrF_mems ..).trans ?_)
    | with_reducible exact State.mems_self _ | dsimp only | split)

theorem State.applyPost1_mems (s : State) (g : Nat) (m : Nat) (n : Nat) :
    ((State.applyPost1 s g m n)).mems = s.mems := by
  unfold State.applyPost1
  try dsimp only
  repeat' (first
    | with_reducible assumption | (simp only [State.mems_mk]; with_reducible refine (State.mems_eta _).trans ?_)
    | (with_reducible refine ite_mems ?_ ?_) | (with_reducible refine (State.serveTakes_mems ..).trans ?_)
    | (with_reducible refine (State.setLatch_mems ..).trans ?_)
    | (with_reducible refine (State.queue_mems ..).trans ?_) | (with_reducible refine (State.bump_mems ..).trans ?_)
    | with_reducible exact State.mems_self _ | dsimp only | split)

theorem State.retryTry_mems (s : State) (g : Nat) (m : Nat) :
    ((State.retryTry s g m)).mems = s.mems := by
  unfold State.retryTry
  try dsimp only
  repeat' (first
    | with_reducible assumption | (simp only [State.mems_mk]; with_reducible refine (State.mems_eta _).trans ?_)
    | (with_reducible refine ite_mems ?_ ?_) | (with_reducible refine (State.setShort_mems ..).trans ?_)
    | (with_reducible refine (State.setLatch_mems ..).trans ?_)
    | (with_reducible refine (State.satisfyHead_mems ..).trans ?_)
    | (with_reducible refine (State.queue_mems ..).trans ?_) | (with_reducible refine (State.bump_mems ..).trans ?_)
    | (with_reducible refine (forUpTo_mems (fun _ _ => ?_) ..).trans ?_) | with_reducible exact State.mems_self _
    | dsimp only | split)

theorem State.applyPost_mems (s : State) (g : Nat) (m : Nat) (n : Nat) :
    ((State.applyPost s g m n)).mems = s.mems := by
  unfold State.applyPost
  try dsimp only
  repeat' (first
    | with_reducible assumption | (simp only [State.mems_mk]; with_reducible refine (State.mems_eta _).trans ?_)
    | (with_reducible refine ite_mems ?_ ?_) | (with_reducible refine (State.retryTry_mems ..).trans ?_)
    | (with_reducible refine (State.applyPost1_mems ..).trans ?_)
    | (with_reducible refine (State.setWaiters_mems ..).trans ?_)
    | (with_reducible refine (forUpTo_mems (fun _ _ => ?_) ..).trans ?_) | with_reducible exact State.mems_self _
    | dsimp only | split)

theorem State.markAdvance_mems (s : State) (g : Nat) (st : Nat) (n : Nat) (target : Nat) (e : Entry) :
    ((State.markAdvance s g st n target e)).mems = s.mems := by
  unfold State.markAdvance
  try dsimp only
  repeat' (first
    | with_reducible assumption | (simp only [State.mems_mk]; with_reducible refine (State.mems_eta _).trans ?_)
    | (with_reducible refine ite_mems ?_ ?_) | (with_reducible refine (State.setCopy1_mems ..).trans ?_)
    | (with_reducible refine (State.compare_mems ..).trans ?_) | (with_reducible refine (State.viol_mems ..).trans ?_)
    | (with_reducible refine (State.wrF_mems ..).trans ?_) | with_reducible exact State.mems_self _ | dsimp only
    | split)

theorem State.substHead_mems (s : State) (g : Nat) (st : Nat) (p : Nat × Nat × Nat) (e : Entry) (target : Nat) :
    ((State.substHead s g st p e target)).mems = s.mems := by
  unfold State.substHead
  try dsimp only
  repeat' (first
    | with_reducible assumption | (simp only [State.mems_mk]; with_reducible refine (State.mems_eta _).trans ?_)
    | (with_reducible refine ite_mems ?_ ?_) | (with_reducible refine (State.markAdvance_mems ..).trans ?_)
    | (with_reducible refine (State.satisfyHead_mems ..).trans ?_)
    | (with_reducible refine (State.updHead_mems ..).trans ?_) | with_reducible exact State.mems_self _ | dsimp only
    | split)

theorem State.takeShadow_mems (s : State) (g : Nat) (n : Nat) (target : Nat) (p : Nat × Nat × Nat) :
    ((State.takeShadow s g n target p)).mems = s.mems := by
  unfold State.takeShadow
  try dsimp only
  repeat' (first
    | with_reducible assumption | (simp only [State.mems_mk]; with_reducible refine (State.mems_eta _).trans ?_)
    | (with_reducible refine ite_mems ?_ ?_) | (with_reducible refine (State.updCore_mems ..).trans ?_)
    | (with_reducible refine (State.bump_mems ..).trans ?_) | (with_reducible refine (State.wrF_mems ..).trans ?_)
    | with_reducible exact State.mems_self _ | dsimp only | split)

theorem State.evalTumbler_mems (s : State) (g : Nat) (st : Nat) (e : Entry) :
    ((State.evalTumbler s g st e)).mems = s.mems := by
  unfold State.evalTumbler
  try dsimp only
  repeat' (first
    | with_reducible assumption | (simp only [State.mems_mk]; with_reducible refine (State.mems_eta _).trans ?_)
    | (with_reducible refine ite_mems ?_ ?_) | (with_reducible refine (State.takeShadow_mems ..).trans ?_)
    | (with_reducible refine (State.substHead_mems ..).trans ?_)
    | (with_reducible refine (State.markAdvance_mems ..).trans ?_)
    | (with_reducible refine (State.satisfyHead_mems ..).trans ?_)
    | (with_reducible refine (State.updHead_mems ..).trans ?_)
    | (with_reducible refine (State.queue_mems ..).trans ?_) | (with_reducible refine (State.trace_mems ..).trans ?_)
    | (with_reducible refine (State.updCore_mems ..).trans ?_) | (with_reducible refine (State.bump_mems ..).trans ?_)
    | with_reducible exact State.mems_self _ | dsimp only | split)

theorem State.wakeHeads_mems (s : State) (g : Nat) (n : Nat) :
    ((State.wakeHeads s g n)).mems = s.mems := by
  unfold State.wakeHeads
  try dsimp only
  repeat' (first
    | with_reducible assumption | (simp only [State.mems_mk]; with_reducible refine (State.mems_eta _).trans ?_)
    | (with_reducible refine ite_mems ?_ ?_) | (with_reducible refine (State.evalTumbler_mems ..).trans ?_)
    | (with_reducible refine (forUpTo_mems (fun _ _ => ?_) ..).trans ?_) | with_reducible exact State.mems_self _
    | dsimp only | split)

theorem State.tmbAdd_mems (s : State) (g : Nat) (n : Nat) (amount : Nat) :
    ((State.tmbAdd s g n amount)).mems = s.mems := by
  unfold State.tmbAdd
  try dsimp only
  repeat' (first
    | with_reducible assumption | (simp only [State.mems_mk]; with_reducible refine (State.mems_eta _).trans ?_)
    | (with_reducible refine ite_mems ?_ ?_) | (with_reducible refine (State.wakeHeads_mems ..).trans ?_)
    | (with_reducible refine (State.copyMove_mems ..).trans ?_)
    | (with_reducible refine (State.compare_mems ..).trans ?_)
    | (with_reducible refine (State.updCore_mems ..).trans ?_) | (with_reducible refine (State.wrF_mems ..).trans ?_)
    | with_reducible exact State.mems_self _ | dsimp only | split)

theorem State.pathOr_mems (s : State) (g : Nat) (bits : Nat) :
    ((State.pathOr s g bits)).mems = s.mems := by
  unfold State.pathOr
  try dsimp only
  repeat' (first
    | with_reducible assumption | (simp only [State.mems_mk]; with_reducible refine (State.mems_eta _).trans ?_)
    | (with_reducible refine ite_mems ?_ ?_) | (with_reducible refine (State.copyMove_mems ..).trans ?_)
    | (with_reducible refine (State.compare_mems ..).trans ?_) | (with_reducible refine (State.wrF_mems ..).trans ?_)
    | with_reducible exact State.mems_self _ | dsimp only | split)

theorem State.pathClear_mems (s : State) (g : Nat) :
    ((State.pathClear s g)).mems = s.mems := by
  unfold State.pathClear
  try dsimp only
  repeat' (first
    | with_reducible assumption | (simp only [State.mems_mk]; with_reducible refine (State.mems_eta _).trans ?_)
    | (with_reducible refine ite_mems ?_ ?_) | (with_reducible refine (State.copyMove_mems ..).trans ?_)
    | (with_reducible refine (State.compare_mems ..).trans ?_) | (with_reducible refine (State.wrF_mems ..).trans ?_)
    | with_reducible exact State.mems_self _ | dsimp only | split)

theorem State.noteSig_mems (s : State) (g : Nat) (x : Sig) :
    ((State.noteSig s g x)).mems = s.mems := by
  unfold State.noteSig
  try dsimp only
  repeat' (first
    | with_reducible assumption | (simp only [State.mems_mk]; with_reducible refine (State.mems_eta _).trans ?_)
    | (with_reducible refine ite_mems ?_ ?_) | (with_reducible refine (State.pathOr_mems ..).trans ?_)
    | (with_reducible refine (State.compare_mems ..).trans ?_) | (with_reducible refine (State.bump_mems ..).trans ?_)
    | (with_reducible refine (State.wrF_mems ..).trans ?_) | with_reducible exact State.mems_self _ | dsimp only
    | split)

theorem State.postSig_mems (s : State) (g : Nat) (x : Sig) :
    ((State.postSig s g x)).mems = s.mems := by
  unfold State.postSig
  try dsimp only
  repeat' (first
    | with_reducible assumption | (simp only [State.mems_mk]; with_reducible refine (State.mems_eta _).trans ?_)
    | (with_reducible refine ite_mems ?_ ?_) | (with_reducible refine (State.noteSig_mems ..).trans ?_)
    | (with_reducible refine (State.applyPost_mems ..).trans ?_)
    | (with_reducible refine (State.queue_mems ..).trans ?_)
    | (with_reducible refine (State.updCore_mems ..).trans ?_) | with_reducible exact State.mems_self _ | dsimp only
    | split)

theorem State.applySig_mems (s : State) (g : Nat) (x : Sig) :
    ((State.applySig s g x)).mems = s.mems := by
  unfold State.applySig
  try dsimp only
  repeat' (first
    | with_reducible assumption | (simp only [State.mems_mk]; with_reducible refine (State.mems_eta _).trans ?_)
    | (with_reducible refine ite_mems ?_ ?_) | (with_reducible refine (State.postSig_mems ..).trans ?_)
    | (with_reducible refine (State.noteSig_mems ..).trans ?_)
    | (with_reducible refine (State.tmbAdd_mems ..).trans ?_) | (with_reducible refine (State.viol_mems ..).trans ?_)
    | (with_reducible refine (State.updCore_mems ..).trans ?_) | with_reducible exact State.mems_self _ | dsimp only
    | split)

theorem State.deliverSig_mems (s : State) (g0 : Nat) (x : Sig) :
    ((State.deliverSig s g0 x)).mems = s.mems := by
  unfold State.deliverSig
  try dsimp only
  repeat' (first
    | with_reducible assumption | (simp only [State.mems_mk]; with_reducible refine (State.mems_eta _).trans ?_)
    | (with_reducible refine ite_mems ?_ ?_) | (with_reducible refine (State.applySig_mems ..).trans ?_)
    | (with_reducible refine (State.updCore_mems ..).trans ?_) | (with_reducible refine (State.bump_mems ..).trans ?_)
    | with_reducible exact State.mems_self _ | dsimp only | split)

theorem State.resend_mems (s : State) (g : Nat) :
    ((State.resend s g)).mems = s.mems := by
  unfold State.resend
  try dsimp only
  repeat' (first
    | with_reducible assumption | (simp only [State.mems_mk]; with_reducible refine (State.mems_eta _).trans ?_)
    | (with_reducible refine ite_mems ?_ ?_) | (with_reducible refine (State.deliverSig_mems ..).trans ?_)
    | (with_reducible refine (forEach_mems (fun _ _ => ?_) ..).trans ?_) | with_reducible exact State.mems_self _
    | dsimp only | split)

theorem State.drainHeld_mems (s : State) (g : Nat) (m : Nat) (x3 : Nat) :
    ((State.drainHeld s g m x3)).mems = s.mems := by
  induction x3 generalizing s g m with
  | zero =>
    unfold State.drainHeld
    try dsimp only
    repeat' (first
      | with_reducible assumption | (simp only [State.mems_mk]; with_reducible refine (State.mems_eta _).trans ?_)
      | (with_reducible refine ite_mems ?_ ?_) | (with_reducible refine (State.postSig_mems ..).trans ?_)
      | (with_reducible refine (State.updCore_mems ..).trans ?_) | with_reducible exact State.mems_self _ | dsimp only
      | split)
  | succ x3 ih =>
    unfold State.drainHeld
    try dsimp only
    repeat' (first
      | with_reducible assumption | (with_reducible refine (ih ..).trans ?_)
      | (simp only [State.mems_mk]; with_reducible refine (State.mems_eta _).trans ?_)
      | (with_reducible refine ite_mems ?_ ?_) | (with_reducible refine (State.postSig_mems ..).trans ?_)
      | (with_reducible refine (State.updCore_mems ..).trans ?_) | with_reducible exact State.mems_self _ | dsimp only
      | split)

theorem State.latchMoved_mems (s : State) (g : Nat) (m : Nat) :
    ((State.latchMoved s g m)).mems = s.mems := by
  unfold State.latchMoved
  try dsimp only
  repeat' (first
    | with_reducible assumption | (simp only [State.mems_mk]; with_reducible refine (State.mems_eta _).trans ?_)
    | (with_reducible refine ite_mems ?_ ?_) | (with_reducible refine (State.drainHeld_mems ..).trans ?_)
    | (with_reducible refine (State.resend_mems ..).trans ?_)
    | (with_reducible refine (State.setWaiters_mems ..).trans ?_) | with_reducible exact State.mems_self _
    | dsimp only | split)

theorem State.selfTmb_mems (s : State) (g : Nat) (n : Nat) (amount : Nat) :
    ((State.selfTmb s g n amount)).mems = s.mems := by
  unfold State.selfTmb
  try dsimp only
  repeat' (first
    | with_reducible assumption | (simp only [State.mems_mk]; with_reducible refine (State.mems_eta _).trans ?_)
    | (with_reducible refine ite_mems ?_ ?_) | (with_reducible refine (State.deliverSig_mems ..).trans ?_)
    | with_reducible exact State.mems_self _ | dsimp only | split)

end Sys2Proof.Machine
end

