-- ==== Sys2Proof/Laws/FrameFabricOps.lean ====
section
/-! SUPPORT. Frames of Machine/FabricOps.lean: what each operation and command leaves alone of the memories and the queue. -/

set_option linter.all false

namespace Sys2Proof.Machine

theorem State.updPrg_mems (s : State) (f : Prg → Prg) :
    ((State.updPrg s f)).mems = s.mems := by
  unfold State.updPrg
  try dsimp only
  repeat' (first
    | with_reducible assumption | (simp only [State.mems_mk]; with_reducible refine (State.mems_eta _).trans ?_)
    | (with_reducible refine ite_mems ?_ ?_) | with_reducible exact State.mems_self _ | dsimp only | split)

theorem State.portStatus_mems (s : State) (port : Nat) :
    ((State.portStatus s port)).mems = s.mems := by
  unfold State.portStatus
  try dsimp only
  repeat' (first
    | with_reducible assumption | (simp only [State.mems_mk]; with_reducible refine (State.mems_eta _).trans ?_)
    | (with_reducible refine ite_mems ?_ ?_) | (with_reducible refine (State.wr_mems ..).trans ?_)
    | with_reducible exact State.mems_self _ | dsimp only | split)

theorem State.setPLane_mems (s : State) (port : Nat) (lane : Nat) (l : PLane) :
    ((State.setPLane s port lane l)).mems = s.mems := by
  unfold State.setPLane
  try dsimp only
  repeat' (first
    | with_reducible assumption | (simp only [State.mems_mk]; with_reducible refine (State.mems_eta _).trans ?_)
    | (with_reducible refine ite_mems ?_ ?_) | (with_reducible refine (State.portStatus_mems ..).trans ?_)
    | (with_reducible refine (State.updPrg_mems ..).trans ?_) | with_reducible exact State.mems_self _ | dsimp only
    | split)

theorem State.updLink_mems (s : State) (k : Nat) (f : Link → Link) :
    ((State.updLink s k f)).mems = s.mems := by
  unfold State.updLink
  try dsimp only
  repeat' (first
    | with_reducible assumption | (simp only [State.mems_mk]; with_reducible refine (State.mems_eta _).trans ?_)
    | (with_reducible refine ite_mems ?_ ?_) | (with_reducible refine (State.portStatus_mems ..).trans ?_)
    | (with_reducible refine (State.updPrg_mems ..).trans ?_) | with_reducible exact State.mems_self _ | dsimp only
    | split)

theorem State.clearEpisode_mems (s : State) (l : Nat) :
    ((State.clearEpisode s l)).mems = s.mems := by
  unfold State.clearEpisode
  try dsimp only
  repeat' (first
    | with_reducible assumption | (simp only [State.mems_mk]; with_reducible refine (State.mems_eta _).trans ?_)
    | (with_reducible refine ite_mems ?_ ?_) | (with_reducible refine (State.setPLane_mems ..).trans ?_)
    | (with_reducible refine (forEach_mems (fun _ _ => ?_) ..).trans ?_) | with_reducible exact State.mems_self _
    | dsimp only | split)

theorem State.openEpisode_mems (s : State) (l : Nat) (n : Nat) :
    ((State.openEpisode s l n)).mems = s.mems := by
  unfold State.openEpisode
  try dsimp only
  repeat' (first
    | with_reducible assumption | (simp only [State.mems_mk]; with_reducible refine (State.mems_eta _).trans ?_)
    | (with_reducible refine ite_mems ?_ ?_) | (with_reducible refine (State.clearEpisode_mems ..).trans ?_)
    | (with_reducible refine (State.updLink_mems ..).trans ?_) | with_reducible exact State.mems_self _ | dsimp only
    | split)

theorem State.trainLane_mems (s : State) (port : Nat) (lane : Nat) (mode : Nat) (digest : Nat) :
    ((State.trainLane s port lane mode digest)).mems = s.mems := by
  unfold State.trainLane
  try dsimp only
  repeat' (first
    | with_reducible assumption | (simp only [State.mems_mk]; with_reducible refine (State.mems_eta _).trans ?_)
    | (with_reducible refine ite_mems ?_ ?_) | (with_reducible refine (State.setPLane_mems ..).trans ?_)
    | (with_reducible refine (State.updPrg_mems ..).trans ?_) | (with_reducible refine (State.send_mems ..).trans ?_)
    | with_reducible exact State.mems_self _ | dsimp only | split)

theorem State.trainSealed_mems (s : State) (port : Nat) (lane : Nat) :
    ((State.trainSealed s port lane)).mems = s.mems := by
  unfold State.trainSealed
  try dsimp only
  repeat' (first
    | with_reducible assumption | (simp only [State.mems_mk]; with_reducible refine (State.mems_eta _).trans ?_)
    | (with_reducible refine ite_mems ?_ ?_) | (with_reducible refine (State.trainLane_mems ..).trans ?_)
    | with_reducible exact State.mems_self _ | dsimp only | split)

theorem State.updKw_mems (s : State) (k : Nat) (f : Kw → Kw) :
    ((State.updKw s k f)).mems = s.mems := by
  unfold State.updKw
  try dsimp only
  repeat' (first
    | with_reducible assumption | (simp only [State.mems_mk]; with_reducible refine (State.mems_eta _).trans ?_)
    | (with_reducible refine ite_mems ?_ ?_) | (with_reducible refine (State.updPrg_mems ..).trans ?_)
    | with_reducible exact State.mems_self _ | dsimp only | split)

theorem State.sendFrame_mems (s : State) (port : Nat) (lane : Nat) (bytes : List Nat) :
    ((State.sendFrame s port lane bytes)).mems = s.mems := by
  unfold State.sendFrame
  try dsimp only
  repeat' (first
    | with_reducible assumption | (simp only [State.mems_mk]; with_reducible refine (State.mems_eta _).trans ?_)
    | (with_reducible refine ite_mems ?_ ?_) | (with_reducible refine (State.updPrg_mems ..).trans ?_)
    | (with_reducible refine (State.send_mems ..).trans ?_) | with_reducible exact State.mems_self _ | dsimp only
    | split)

theorem State.sendFlit_mems (s : State) (l : Nat) (ls : List Nat) (bytes : List Nat) :
    ((State.sendFlit s l ls bytes)).mems = s.mems := by
  unfold State.sendFlit
  try dsimp only
  repeat' (first
    | with_reducible assumption | (simp only [State.mems_mk]; with_reducible refine (State.mems_eta _).trans ?_)
    | (with_reducible refine ite_mems ?_ ?_) | (with_reducible refine (State.sendFrame_mems ..).trans ?_)
    | (with_reducible refine (State.updLink_mems ..).trans ?_) | with_reducible exact State.mems_self _ | dsimp only
    | split)

theorem State.sendIdle_mems (s : State) (l : Nat) (crKw : Nat) (crN : Nat) :
    ((State.sendIdle s l crKw crN)).mems = s.mems := by
  unfold State.sendIdle
  try dsimp only
  repeat' (first
    | with_reducible assumption | (simp only [State.mems_mk]; with_reducible refine (State.mems_eta _).trans ?_)
    | (with_reducible refine ite_mems ?_ ?_) | (with_reducible refine (State.sendFlit_mems ..).trans ?_)
    | with_reducible exact State.mems_self _ | dsimp only | split)

theorem State.sendCtrl_mems (s : State) (l : Nat) (payload : List Nat) :
    ((State.sendCtrl s l payload)).mems = s.mems := by
  unfold State.sendCtrl
  try dsimp only
  repeat' (first
    | with_reducible assumption | (simp only [State.mems_mk]; with_reducible refine (State.mems_eta _).trans ?_)
    | (with_reducible refine ite_mems ?_ ?_) | (with_reducible refine (State.sendFlit_mems ..).trans ?_)
    | with_reducible exact State.mems_self _ | dsimp only | split)

theorem State.sendAcks_mems (s : State) :
    ((State.sendAcks s)).mems = s.mems := by
  unfold State.sendAcks
  try dsimp only
  repeat' (first
    | with_reducible assumption | (simp only [State.mems_mk]; with_reducible refine (State.mems_eta _).trans ?_)
    | (with_reducible refine ite_mems ?_ ?_) | (with_reducible refine (State.sendIdle_mems ..).trans ?_)
    | (with_reducible refine (forEach_mems (fun _ _ => ?_) ..).trans ?_) | with_reducible exact State.mems_self _
    | dsimp only | split)

theorem State.sendNak_mems (s : State) (l : Nat) (n : Nat) :
    ((State.sendNak s l n)).mems = s.mems := by
  unfold State.sendNak
  try dsimp only
  repeat' (first
    | with_reducible assumption | (simp only [State.mems_mk]; with_reducible refine (State.mems_eta _).trans ?_)
    | (with_reducible refine ite_mems ?_ ?_) | (with_reducible refine (State.sendCtrl_mems ..).trans ?_)
    | (with_reducible refine (State.openEpisode_mems ..).trans ?_)
    | (with_reducible refine (State.updLink_mems ..).trans ?_) | with_reducible exact State.mems_self _ | dsimp only
    | split)

theorem State.putOut_mems (s : State) (l : Nat) (f : Flit) :
    ((State.putOut s l f)).mems = s.mems := by
  unfold State.putOut
  try dsimp only
  repeat' (first
    | with_reducible assumption | (simp only [State.mems_mk]; with_reducible refine (State.mems_eta _).trans ?_)
    | (with_reducible refine ite_mems ?_ ?_) | (with_reducible refine (State.sendFlit_mems ..).trans ?_)
    | with_reducible exact State.mems_self _ | dsimp only | split)

theorem State.sendSeq_mems (s : State) (l : Nat) (kw : Nat) (ctl : Bool) (kseq : Nat) (payload : List Nat) :
    ((State.sendSeq s l kw ctl kseq payload)).mems = s.mems := by
  unfold State.sendSeq
  try dsimp only
  repeat' (first
    | with_reducible assumption | (simp only [State.mems_mk]; with_reducible refine (State.mems_eta _).trans ?_)
    | (with_reducible refine ite_mems ?_ ?_) | (with_reducible refine (State.putOut_mems ..).trans ?_)
    | (with_reducible refine (State.updLink_mems ..).trans ?_) | (with_reducible refine (State.bump_mems ..).trans ?_)
    | with_reducible exact State.mems_self _ | dsimp only | split)

theorem State.sendNext_mems (s : State) (k : Nat) :
    ((State.sendNext s k)).mems = s.mems := by
  unfold State.sendNext
  try dsimp only
  repeat' (first
    | with_reducible assumption | (simp only [State.mems_mk]; with_reducible refine (State.mems_eta _).trans ?_)
    | (with_reducible refine ite_mems ?_ ?_) | (with_reducible refine (State.sendSeq_mems ..).trans ?_)
    | (with_reducible refine (State.updKw_mems ..).trans ?_) | with_reducible exact State.mems_self _ | dsimp only
    | split)

theorem State.pumpPort_mems (s : State) (port : Nat) (x2 : Nat) :
    ((State.pumpPort s port x2)).mems = s.mems := by
  induction x2 generalizing s port with
  | zero =>
    unfold State.pumpPort
    try dsimp only
    repeat' (first
      | with_reducible assumption | (simp only [State.mems_mk]; with_reducible refine (State.mems_eta _).trans ?_)
      | (with_reducible refine ite_mems ?_ ?_) | (with_reducible refine (State.sendNext_mems ..).trans ?_)
      | (with_reducible refine (State.updPrg_mems ..).trans ?_) | with_reducible exact State.mems_self _ | dsimp only
      | split)
  | succ x2 ih =>
    unfold State.pumpPort
    try dsimp only
    repeat' (first
      | with_reducible assumption | (with_reducible refine (ih ..).trans ?_)
      | (simp only [State.mems_mk]; with_reducible refine (State.mems_eta _).trans ?_)
      | (with_reducible refine ite_mems ?_ ?_) | (with_reducible refine (State.sendNext_mems ..).trans ?_)
      | (with_reducible refine (State.updPrg_mems ..).trans ?_) | with_reducible exact State.mems_self _ | dsimp only
      | split)

theorem State.pump_mems (s : State) (k : Nat) :
    ((State.pump s k)).mems = s.mems := by
  unfold State.pump
  try dsimp only
  repeat' (first
    | with_reducible assumption | (simp only [State.mems_mk]; with_reducible refine (State.mems_eta _).trans ?_)
    | (with_reducible refine ite_mems ?_ ?_) | (with_reducible refine (State.pumpPort_mems ..).trans ?_)
    | (with_reducible refine (foldl_mems (fun _ _ => ?_) ..).trans ?_)
    | (with_reducible refine (foldl1_mems (fun _ _ => ?_) ..).trans ?_) | with_reducible exact State.mems_self _
    | dsimp only | split)

theorem State.backToPrimary_mems (s : State) :
    ((State.backToPrimary s)).mems = s.mems := by
  unfold State.backToPrimary
  try dsimp only
  repeat' (first
    | with_reducible assumption | (simp only [State.mems_mk]; with_reducible refine (State.mems_eta _).trans ?_)
    | (with_reducible refine ite_mems ?_ ?_) | (with_reducible refine (State.updPrg_mems ..).trans ?_)
    | with_reducible exact State.mems_self _ | dsimp only | split)

theorem State.sendKwCtl_mems (s : State) (k : Nat) (payload : List Nat) :
    ((State.sendKwCtl s k payload)).mems = s.mems := by
  unfold State.sendKwCtl
  try dsimp only
  repeat' (first
    | with_reducible assumption | (simp only [State.mems_mk]; with_reducible refine (State.mems_eta _).trans ?_)
    | (with_reducible refine ite_mems ?_ ?_) | (with_reducible refine (State.pump_mems ..).trans ?_)
    | (with_reducible refine (State.updKw_mems ..).trans ?_) | with_reducible exact State.mems_self _ | dsimp only
    | split)

theorem State.sendOnKw_mems (s : State) (k : Nat) (m : Msg) (txn : Nat) (gen : Nat) :
    ((State.sendOnKw s k m txn gen)).mems = s.mems := by
  unfold State.sendOnKw
  try dsimp only
  repeat' (first
    | with_reducible assumption | (simp only [State.mems_mk]; with_reducible refine (State.mems_eta _).trans ?_)
    | (with_reducible refine ite_mems ?_ ?_) | (with_reducible refine (State.pump_mems ..).trans ?_)
    | (with_reducible refine (State.updKw_mems ..).trans ?_) | with_reducible exact State.mems_self _ | dsimp only
    | split)

theorem State.pushIn_mems (s : State) (m : InMsg) :
    ((State.pushIn s m)).mems = s.mems := by
  unfold State.pushIn
  try dsimp only
  repeat' (first
    | with_reducible assumption | (simp only [State.mems_mk]; with_reducible refine (State.mems_eta _).trans ?_)
    | (with_reducible refine ite_mems ?_ ?_) | (with_reducible refine (State.updPrg_mems ..).trans ?_)
    | with_reducible exact State.mems_self _ | dsimp only | split)

theorem State.reply_mems (s : State) (i : InMsg) (m : Msg) :
    ((State.reply s i m)).mems = s.mems := by
  unfold State.reply
  try dsimp only
  repeat' (first
    | with_reducible assumption | (simp only [State.mems_mk]; with_reducible refine (State.mems_eta _).trans ?_)
    | (with_reducible refine ite_mems ?_ ?_) | (with_reducible refine (State.pushIn_mems ..).trans ?_)
    | (with_reducible refine (State.sendOnKw_mems ..).trans ?_) | with_reducible exact State.mems_self _ | dsimp only
    | split)

theorem State.setTxn_mems (s : State) (k : Nat) (t : Option Txn) :
    ((State.setTxn s k t)).mems = s.mems := by
  unfold State.setTxn
  try dsimp only
  repeat' (first
    | with_reducible assumption | (simp only [State.mems_mk]; with_reducible refine (State.mems_eta _).trans ?_)
    | (with_reducible refine ite_mems ?_ ?_) | (with_reducible refine (State.updPrg_mems ..).trans ?_)
    | with_reducible exact State.mems_self _ | dsimp only | split)

theorem State.sendTxn_mems (s : State) (k : Nat) (die : Nat) (t : Txn) :
    ((State.sendTxn s k die t)).mems = s.mems := by
  unfold State.sendTxn
  try dsimp only
  repeat' (first
    | with_reducible assumption | (simp only [State.mems_mk]; with_reducible refine (State.mems_eta _).trans ?_)
    | (with_reducible refine ite_mems ?_ ?_) | (with_reducible refine (State.setTxn_mems ..).trans ?_)
    | (with_reducible refine (State.pushIn_mems ..).trans ?_)
    | (with_reducible refine (State.sendOnKw_mems ..).trans ?_) | with_reducible exact State.mems_self _ | dsimp only
    | split)

theorem State.request_mems (s : State) (d : Nat) (owner : TxnFor) (pkg : Nat) (cls : Nat) (m : Msg) (die : Nat) :
    ((State.request s d owner pkg cls m die)).mems = s.mems := by
  unfold State.request
  try dsimp only
  repeat' (first
    | with_reducible assumption | (simp only [State.mems_mk]; with_reducible refine (State.mems_eta _).trans ?_)
    | (with_reducible refine ite_mems ?_ ?_) | (with_reducible refine (State.sendTxn_mems ..).trans ?_)
    | (with_reducible refine (State.updPrg_mems ..).trans ?_) | with_reducible exact State.mems_self _ | dsimp only
    | split)

theorem State.remoteSig_mems (s : State) (g : Nat) (pkg : Nat) (core : Nat) (x : Sig) :
    ((State.remoteSig s g pkg core x)).mems = s.mems := by
  unfold State.remoteSig
  try dsimp only
  repeat' (first
    | with_reducible assumption | (simp only [State.mems_mk]; with_reducible refine (State.mems_eta _).trans ?_)
    | (with_reducible refine ite_mems ?_ ?_) | (with_reducible refine (State.request_mems ..).trans ?_)
    | (with_reducible refine (State.updKw_mems ..).trans ?_) | with_reducible exact State.mems_self _ | dsimp only
    | split)

theorem State.signalTo_mems (s : State) (g : Nat) (pkg : Nat) (core : Nat) (x : Sig) :
    ((State.signalTo s g pkg core x)).mems = s.mems := by
  unfold State.signalTo
  try dsimp only
  repeat' (first
    | with_reducible assumption | (simp only [State.mems_mk]; with_reducible refine (State.mems_eta _).trans ?_)
    | (with_reducible refine ite_mems ?_ ?_) | (with_reducible refine (State.remoteSig_mems ..).trans ?_)
    | (with_reducible refine (State.deliverSig_mems ..).trans ?_) | with_reducible exact State.mems_self _
    | dsimp only | split)

theorem State.peerViol_mems (s : State) (port : Nat) (kw : Nat) (row : Nat) :
    ((State.peerViol s port kw row)).mems = s.mems := by
  unfold State.peerViol
  try dsimp only
  repeat' (first
    | with_reducible assumption | (simp only [State.mems_mk]; with_reducible refine (State.mems_eta _).trans ?_)
    | (with_reducible refine ite_mems ?_ ?_) | (with_reducible refine (State.updKw_mems ..).trans ?_)
    | (with_reducible refine (State.updPrg_mems ..).trans ?_) | (with_reducible refine (State.queue_mems ..).trans ?_)
    | (with_reducible refine (State.bump_mems ..).trans ?_) | with_reducible exact State.mems_self _ | dsimp only
    | split)

theorem State.startResync_mems (s : State) (k : Nat) :
    ((State.startResync s k)).mems = s.mems := by
  unfold State.startResync
  try dsimp only
  repeat' (first
    | with_reducible assumption | (simp only [State.mems_mk]; with_reducible refine (State.mems_eta _).trans ?_)
    | (with_reducible refine ite_mems ?_ ?_) | (with_reducible refine (State.sendKwCtl_mems ..).trans ?_)
    | (with_reducible refine (State.updKw_mems ..).trans ?_) | (with_reducible refine (State.bump_mems ..).trans ?_)
    | with_reducible exact State.mems_self _ | dsimp only | split)

theorem State.clearKw_mems (s : State) (k : Nat) :
    ((State.clearKw s k)).mems = s.mems := by
  unfold State.clearKw
  try dsimp only
  repeat' (first
    | with_reducible assumption | (simp only [State.mems_mk]; with_reducible refine (State.mems_eta _).trans ?_)
    | (with_reducible refine ite_mems ?_ ?_) | (with_reducible refine (State.updKw_mems ..).trans ?_)
    | with_reducible exact State.mems_self _ | dsimp only | split)

theorem State.reissueKw_mems (s : State) (k : Nat) :
    ((State.reissueKw s k)).mems = s.mems := by
  unfold State.reissueKw
  try dsimp only
  repeat' (first
    | with_reducible assumption | (simp only [State.mems_mk]; with_reducible refine (State.mems_eta _).trans ?_)
    | (with_reducible refine ite_mems ?_ ?_) | (with_reducible refine (State.sendTxn_mems ..).trans ?_)
    | (with_reducible refine (forEach_mems (fun _ _ => ?_) ..).trans ?_) | with_reducible exact State.mems_self _
    | dsimp only | split)

theorem State.startReset_mems (s : State) (k : Nat) (reissue : Bool) :
    ((State.startReset s k reissue)).mems = s.mems := by
  unfold State.startReset
  try dsimp only
  repeat' (first
    | with_reducible assumption | (simp only [State.mems_mk]; with_reducible refine (State.mems_eta _).trans ?_)
    | (with_reducible refine ite_mems ?_ ?_) | (with_reducible refine (State.reissueKw_mems ..).trans ?_)
    | (with_reducible refine (State.clearKw_mems ..).trans ?_)
    | (with_reducible refine (State.sendKwCtl_mems ..).trans ?_)
    | (with_reducible refine (State.updKw_mems ..).trans ?_) | (with_reducible refine (State.bump_mems ..).trans ?_)
    | with_reducible exact State.mems_self _ | dsimp only | split)

end Sys2Proof.Machine
end

