-- ==== Sys2Proof/Laws/FrameFlags.lean ====
section
/-! SUPPORT. Frames of Machine/Flags.lean: what each operation and command leaves alone of the memories and the queue. -/

set_option linter.all false

namespace Sys2Proof.Machine

theorem State.addTot_mems (s : State) (g : Nat) (set : Nat) (fmt : Nat) (c : Nat) (n : Nat) :
    ((State.addTot s g set fmt c n)).mems = s.mems := by
  unfold State.addTot
  try dsimp only
  repeat' (first
    | with_reducible assumption | (simp only [State.mems_mk]; with_reducible refine (State.mems_eta _).trans ?_)
    | (with_reducible refine ite_mems ?_ ?_) | (with_reducible refine (State.wr_mems ..).trans ?_)
    | with_reducible exact State.mems_self _ | dsimp only | split)

theorem State.foldTotals_mems (s : State) (g : Nat) (eval : Bool) (k : CensusSet) :
    ((State.foldTotals s g eval k)).mems = s.mems := by
  unfold State.foldTotals
  try dsimp only
  repeat' (first
    | with_reducible assumption | (simp only [State.mems_mk]; with_reducible refine (State.mems_eta _).trans ?_)
    | (with_reducible refine ite_mems ?_ ?_) | (with_reducible refine (State.addTot_mems ..).trans ?_)
    | (with_reducible refine (forEach_mems (fun _ _ => ?_) ..).trans ?_) | with_reducible exact State.mems_self _
    | dsimp only | split)

theorem State.carryTotals_mems (s : State) (g : Nat) (eval : Bool) (old : Census) (k : CensusSet) :
    ((State.carryTotals s g eval old k)).mems = s.mems := by
  unfold State.carryTotals
  try dsimp only
  repeat' (first
    | with_reducible assumption | (simp only [State.mems_mk]; with_reducible refine (State.mems_eta _).trans ?_)
    | (with_reducible refine ite_mems ?_ ?_) | (with_reducible refine (State.addTot_mems ..).trans ?_)
    | (with_reducible refine (forEach_mems (fun _ _ => ?_) ..).trans ?_) | with_reducible exact State.mems_self _
    | dsimp only | split)

theorem State.writeRecord_pend (s : State) (g : Nat) (bs : List Nat) :
    ((State.writeRecord s g bs)).pend = s.pend := by
  unfold State.writeRecord
  try dsimp only
  repeat' (first
    | with_reducible assumption | (simp only [State.pend_mk]; with_reducible refine (State.pend_eta _).trans ?_)
    | (with_reducible refine ite_pend ?_ ?_) | (with_reducible refine (State.writeAt_pend ..).trans ?_)
    | (with_reducible refine (State.pend_of_mems (State.bump_mems ..)).trans ?_)
    | (with_reducible refine (State.pend_of_mems (State.wrF_mems ..)).trans ?_)
    | with_reducible exact State.pend_self _ | dsimp only | split)

theorem State.writeRecord_canon {s : State} (hs : s.canon) (g : Nat) (bs : List Nat) :
    ((State.writeRecord s g bs)).canon := by
  unfold State.writeRecord
  try dsimp only
  repeat' (first
    | with_reducible assumption | (simp only [State.canon_mk]; with_reducible refine State.canon_eta ?_)
    | (with_reducible refine ite_canon ?_ ?_) | (with_reducible refine State.writeAt_canon ?_ ..)
    | (with_reducible refine State.canon_of_mems (State.bump_mems ..) ?_)
    | (with_reducible refine State.canon_of_mems (State.wrF_mems ..) ?_) | dsimp only | split)

theorem State.foldCensus_pend (s : State) (g : Nat) (seq : Nat) (eval : Bool) (ks : List CensusSet) :
    ((State.foldCensus s g seq eval ks)).pend = s.pend := by
  unfold State.foldCensus
  try dsimp only
  repeat' (first
    | with_reducible assumption | (simp only [State.pend_mk]; with_reducible refine (State.pend_eta _).trans ?_)
    | (with_reducible refine ite_pend ?_ ?_) | (with_reducible refine (State.writeRecord_pend ..).trans ?_)
    | (with_reducible refine (State.pend_of_mems (State.foldTotals_mems ..)).trans ?_)
    | (with_reducible refine (forEach_pend (fun _ _ => ?_) ..).trans ?_) | with_reducible exact State.pend_self _
    | dsimp only | split)

theorem State.foldCensus_canon {s : State} (hs : s.canon) (g : Nat) (seq : Nat) (eval : Bool) (ks : List CensusSet) :
    ((State.foldCensus s g seq eval ks)).canon := by
  unfold State.foldCensus
  try dsimp only
  repeat' (first
    | with_reducible assumption | (simp only [State.canon_mk]; with_reducible refine State.canon_eta ?_)
    | (with_reducible refine ite_canon ?_ ?_) | (with_reducible refine State.writeRecord_canon ?_ ..)
    | (with_reducible refine State.canon_of_mems (State.foldTotals_mems ..) ?_)
    | (with_reducible refine forEach_canon (fun _ _ _ => ?_) ?_ ..) | dsimp only | split)

end Sys2Proof.Machine
end

