-- ==== Sys2Proof/Laws/FrameHostOps.lean ====
section
/-! SUPPORT. Frames of Machine/HostOps.lean: what each operation and command leaves alone of the memories and the queue. -/

set_option linter.all false

namespace Sys2Proof.Machine

theorem State.updHost_mems (s : State) (f : HostSt → HostSt) :
    ((State.updHost s f)).mems = s.mems := by
  unfold State.updHost
  try dsimp only
  repeat' (first
    | with_reducible assumption | (simp only [State.mems_mk]; with_reducible refine (State.mems_eta _).trans ?_)
    | (with_reducible refine ite_mems ?_ ?_) | with_reducible exact State.mems_self _ | dsimp only | split)

theorem State.hostViol_mems (s : State) (field : Nat) (value : Nat) :
    ((State.hostViol s field value)).mems = s.mems := by
  unfold State.hostViol
  try dsimp only
  repeat' (first
    | with_reducible assumption | (simp only [State.mems_mk]; with_reducible refine (State.mems_eta _).trans ?_)
    | (with_reducible refine ite_mems ?_ ?_) | (with_reducible refine (State.viol_mems ..).trans ?_)
    | with_reducible exact State.mems_self _ | dsimp only | split)

theorem State.misuseSeen_mems (s : State) (row : Nat) :
    ((State.misuseSeen s row)).mems = s.mems := by
  unfold State.misuseSeen
  try dsimp only
  repeat' (first
    | with_reducible assumption | (simp only [State.mems_mk]; with_reducible refine (State.mems_eta _).trans ?_)
    | (with_reducible refine ite_mems ?_ ?_) | (with_reducible refine (State.updHost_mems ..).trans ?_)
    | with_reducible exact State.mems_self _ | dsimp only | split)

theorem State.misuse_mems (s : State) (row : Nat) :
    ((State.misuse s row)).mems = s.mems := by
  unfold State.misuse
  try dsimp only
  repeat' (first
    | with_reducible assumption | (simp only [State.mems_mk]; with_reducible refine (State.mems_eta _).trans ?_)
    | (with_reducible refine ite_mems ?_ ?_) | (with_reducible refine (State.misuseSeen_mems ..).trans ?_)
    | (with_reducible refine (State.hostViol_mems ..).trans ?_) | with_reducible exact State.mems_self _ | dsimp only
    | split)

theorem State.dmaErr_mems (s : State) (row : Nat) :
    ((State.dmaErr s row)).mems = s.mems := by
  unfold State.dmaErr
  try dsimp only
  repeat' (first
    | with_reducible assumption | (simp only [State.mems_mk]; with_reducible refine (State.mems_eta _).trans ?_)
    | (with_reducible refine ite_mems ?_ ?_) | (with_reducible refine (State.misuseSeen_mems ..).trans ?_)
    | (with_reducible refine (State.bump_mems ..).trans ?_) | with_reducible exact State.mems_self _ | dsimp only
    | split)

theorem State.writeEntry_mems (s : State) (h : Held) :
    ((State.writeEntry s h)).mems = s.mems := by
  unfold State.writeEntry
  try dsimp only
  repeat' (first
    | with_reducible assumption | (simp only [State.mems_mk]; with_reducible refine (State.mems_eta _).trans ?_)
    | (with_reducible refine ite_mems ?_ ?_) | (with_reducible refine (State.updHost_mems ..).trans ?_)
    | (with_reducible refine (State.request_mems ..).trans ?_)
    | (with_reducible refine (State.winViol_mems ..).trans ?_) | (with_reducible refine (State.send_mems ..).trans ?_)
    | (with_reducible refine (State.wr_mems ..).trans ?_)
    | (with_reducible refine (forEach_mems (fun _ _ => ?_) ..).trans ?_) | with_reducible exact State.mems_self _
    | dsimp only | split)

theorem State.drainRings_mems (s : State) (x1 : List Held) (x2 : List Nat) (x3 : List Held) :
    ((State.drainRings s x1 x2 x3)).mems = s.mems := by
  induction x1 generalizing s x2 x3 with
  | nil =>
    unfold State.drainRings
    try dsimp only
    repeat' (first
      | with_reducible assumption | (simp only [State.mems_mk]; with_reducible refine (State.mems_eta _).trans ?_)
      | (with_reducible refine ite_mems ?_ ?_) | (with_reducible refine (State.writeEntry_mems ..).trans ?_)
      | (with_reducible refine (State.misuseSeen_mems ..).trans ?_)
      | (with_reducible refine (State.updHost_mems ..).trans ?_)
      | (with_reducible refine (State.bump_mems ..).trans ?_) | with_reducible exact State.mems_self _ | dsimp only
      | split)
  | cons x0 x1 ih =>
    unfold State.drainRings
    try dsimp only
    repeat' (first
      | with_reducible assumption | (with_reducible refine (ih ..).trans ?_)
      | (simp only [State.mems_mk]; with_reducible refine (State.mems_eta _).trans ?_)
      | (with_reducible refine ite_mems ?_ ?_) | (with_reducible refine (State.writeEntry_mems ..).trans ?_)
      | (with_reducible refine (State.misuseSeen_mems ..).trans ?_)
      | (with_reducible refine (State.updHost_mems ..).trans ?_)
      | (with_reducible refine (State.bump_mems ..).trans ?_) | with_reducible exact State.mems_self _ | dsimp only
      | split)

theorem State.drain_mems (s : State) :
    ((State.drain s)).mems = s.mems := by
  unfold State.drain
  try dsimp only
  repeat' (first
    | with_reducible assumption | (simp only [State.mems_mk]; with_reducible refine (State.mems_eta _).trans ?_)
    | (with_reducible refine ite_mems ?_ ?_) | (with_reducible refine (State.drainRings_mems ..).trans ?_)
    | with_reducible exact State.mems_self _ | dsimp only | split)

theorem State.pushEntry_mems (s : State) (dest : HeldTo) (bytes : List Nat) (vecs : List Nat) :
    ((State.pushEntry s dest bytes vecs)).mems = s.mems := by
  unfold State.pushEntry
  try dsimp only
  repeat' (first
    | with_reducible assumption | (simp only [State.mems_mk]; with_reducible refine (State.mems_eta _).trans ?_)
    | (with_reducible refine ite_mems ?_ ?_) | (with_reducible refine (State.drain_mems ..).trans ?_)
    | (with_reducible refine (State.updHost_mems ..).trans ?_) | with_reducible exact State.mems_self _ | dsimp only
    | split)

theorem State.complete_mems (s : State) (n : Nat) (jid : Nat) (status : Nat) (op : Nat) (value : Nat) (subst : Bool) (sq : Nat) :
    ((State.complete s n jid status op value subst sq)).mems = s.mems := by
  unfold State.complete
  try dsimp only
  repeat' (first
    | with_reducible assumption | (simp only [State.mems_mk]; with_reducible refine (State.mems_eta _).trans ?_)
    | (with_reducible refine ite_mems ?_ ?_) | (with_reducible refine (State.pushEntry_mems ..).trans ?_)
    | with_reducible exact State.mems_self _ | dsimp only | split)

theorem State.eventEntry_mems (s : State) (r : FaultRec) (vecs : List Nat) :
    ((State.eventEntry s r vecs)).mems = s.mems := by
  unfold State.eventEntry
  try dsimp only
  repeat' (first
    | with_reducible assumption | (simp only [State.mems_mk]; with_reducible refine (State.mems_eta _).trans ?_)
    | (with_reducible refine ite_mems ?_ ?_) | (with_reducible refine (State.pushEntry_mems ..).trans ?_)
    | with_reducible exact State.mems_self _ | dsimp only | split)

theorem State.gwEvent_mems (s : State) (k : FaultKind) (p : Payload) (vecs : List Nat) :
    ((State.gwEvent s k p vecs)).mems = s.mems := by
  unfold State.gwEvent
  try dsimp only
  repeat' (first
    | with_reducible assumption | (simp only [State.mems_mk]; with_reducible refine (State.mems_eta _).trans ?_)
    | (with_reducible refine ite_mems ?_ ?_) | (with_reducible refine (State.eventEntry_mems ..).trans ?_)
    | with_reducible exact State.mems_self _ | dsimp only | split)

theorem State.tornAdd_mems (s : State) (t : Torn) :
    ((State.tornAdd s t)).mems = s.mems := by
  unfold State.tornAdd
  try dsimp only
  repeat' (first
    | with_reducible assumption | (simp only [State.mems_mk]; with_reducible refine (State.mems_eta _).trans ?_)
    | (with_reducible refine ite_mems ?_ ?_) | (with_reducible refine (State.updHost_mems ..).trans ?_)
    | (with_reducible refine (State.bump_mems ..).trans ?_) | with_reducible exact State.mems_self _ | dsimp only
    | split)

theorem State.linkWrite_mems (s : State) (w : HostWr) :
    ((State.linkWrite s w)).mems = s.mems := by
  unfold State.linkWrite
  try dsimp only
  repeat' (first
    | with_reducible assumption | (simp only [State.mems_mk]; with_reducible refine (State.mems_eta _).trans ?_)
    | (with_reducible refine ite_mems ?_ ?_) | (with_reducible refine (State.send_mems ..).trans ?_)
    | with_reducible exact State.mems_self _ | dsimp only | split)

theorem State.hostBound_mems (s : State) (win : Nat) (off : Nat) (bytes : List Nat) (tag : Nat) (data : Bool) :
    ((State.hostBound s win off bytes tag data).1).mems = s.mems := by
  unfold State.hostBound
  try dsimp only
  repeat' (first
    | with_reducible assumption | (simp only [State.mems_mk]; with_reducible refine (State.mems_eta _).trans ?_)
    | (with_reducible refine ite_mems ?_ ?_) | (with_reducible refine (State.linkWrite_mems ..).trans ?_)
    | (with_reducible refine (State.tornAdd_mems ..).trans ?_)
    | (with_reducible refine (State.pushEntry_mems ..).trans ?_)
    | (with_reducible refine (State.updHost_mems ..).trans ?_)
    | (with_reducible refine (State.winViol_mems ..).trans ?_) | with_reducible exact State.mems_self _ | dsimp only
    | split)
theorem State.hostBound_mems' {s : State} {win : Nat} {off : Nat} {bytes : List Nat} {tag : Nat} {data : Bool} {zr} {zq : State}
    (zh : (State.hostBound s win off bytes tag data) = (zq, zr)) : zq.mems = s.mems := by
  have := (State.hostBound_mems s win off bytes tag data)
  rw [zh] at this
  exact this

theorem State.delivered_mems (s : State) (upto : Nat) :
    ((State.delivered s upto)).mems = s.mems := by
  unfold State.delivered
  try dsimp only
  repeat' (first
    | with_reducible assumption | (simp only [State.mems_mk]; with_reducible refine (State.mems_eta _).trans ?_)
    | (with_reducible refine ite_mems ?_ ?_) | (with_reducible refine (State.updHost_mems ..).trans ?_)
    | with_reducible exact State.mems_self _ | dsimp only | split)

theorem State.hostRead_mems (s : State) (kind : RdKind) (addr : Nat) (len : Nat) (dst : Nat) (tag : Nat) :
    ((State.hostRead s kind addr len dst tag)).mems = s.mems := by
  unfold State.hostRead
  try dsimp only
  repeat' (first
    | with_reducible assumption | (simp only [State.mems_mk]; with_reducible refine (State.mems_eta _).trans ?_)
    | (with_reducible refine ite_mems ?_ ?_) | (with_reducible refine (State.updHost_mems ..).trans ?_)
    | (with_reducible refine (State.send_mems ..).trans ?_) | with_reducible exact State.mems_self _ | dsimp only
    | split)

end Sys2Proof.Machine
end

