-- ==== Sys2Proof/Laws/FrameImgOps.lean ====
section
/-! SUPPORT. Frames of Machine/ImgOps.lean: what each operation and command leaves alone of the memories and the queue. -/

set_option linter.all false

namespace Sys2Proof.Machine

theorem State.updImg_mems (s : State) (f : Img → Img) :
    ((State.updImg s f)).mems = s.mems := by
  unfold State.updImg
  try dsimp only
  repeat' (first
    | with_reducible assumption | (simp only [State.mems_mk]; with_reducible refine (State.mems_eta _).trans ?_)
    | (with_reducible refine ite_mems ?_ ?_) | with_reducible exact State.mems_self _ | dsimp only | split)

theorem State.tellLead_mems (s : State) (kind : Nat) (args : List Nat) :
    ((State.tellLead s kind args)).mems = s.mems := by
  unfold State.tellLead
  try dsimp only
  repeat' (first
    | with_reducible assumption | (simp only [State.mems_mk]; with_reducible refine (State.mems_eta _).trans ?_)
    | (with_reducible refine ite_mems ?_ ?_) | (with_reducible refine (State.send_mems ..).trans ?_)
    | with_reducible exact State.mems_self _ | dsimp only | split)

theorem State.tellAll_mems (s : State) (kind : Nat) (args : List Nat) :
    ((State.tellAll s kind args)).mems = s.mems := by
  unfold State.tellAll
  try dsimp only
  repeat' (first
    | with_reducible assumption | (simp only [State.mems_mk]; with_reducible refine (State.mems_eta _).trans ?_)
    | (with_reducible refine ite_mems ?_ ?_) | (with_reducible refine (State.send_mems ..).trans ?_)
    | (with_reducible refine (forEach_mems (fun _ _ => ?_) ..).trans ?_) | with_reducible exact State.mems_self _
    | dsimp only | split)

end Sys2Proof.Machine
end

