-- ==== Sys2Proof/Laws/FrameOperands.lean ====
section
/-! SUPPORT. Frames of Machine/Operands.lean: what each operation and command leaves alone of the memories and the queue. -/

set_option linter.all false

namespace Sys2Proof.Machine

theorem State.storeTile_pend (s : State) (g : Nat) (a : Nat) (f : Fmt) (t : TileOut) (rcmp : Bool) :
    ((State.storeTile s g a f t rcmp)).pend = s.pend := by
  unfold State.storeTile
  try dsimp only
  repeat' (first
    | with_reducible assumption | (simp only [State.pend_mk]; with_reducible refine (State.pend_eta _).trans ?_)
    | (with_reducible refine ite_pend ?_ ?_) | (with_reducible refine (State.writeAt_pend ..).trans ?_)
    | with_reducible exact State.pend_self _ | dsimp only | split)

theorem State.storeTile_canon {s : State} (hs : s.canon) (g : Nat) (a : Nat) (f : Fmt) (t : TileOut) (rcmp : Bool) :
    ((State.storeTile s g a f t rcmp)).canon := by
  unfold State.storeTile
  try dsimp only
  repeat' (first
    | with_reducible assumption | (simp only [State.canon_mk]; with_reducible refine State.canon_eta ?_)
    | (with_reducible refine ite_canon ?_ ?_) | (with_reducible refine State.writeAt_canon ?_ ..) | dsimp only | split)

theorem State.setSlotElem_mems (s : State) (d : Nat) (n : Nat) (e : Nat) (v : Nat) :
    ((State.setSlotElem s d n e v)).mems = s.mems := by
  unfold State.setSlotElem
  try dsimp only
  repeat' (first
    | with_reducible assumption | (simp only [State.mems_mk]; with_reducible refine (State.mems_eta _).trans ?_)
    | (with_reducible refine ite_mems ?_ ?_) | with_reducible exact State.mems_self _ | dsimp only | split)

theorem State.slotAdd1_mems (s : State) (d : Nat) (n : Nat) (e : Nat) (f : Fmt) (near : Bool) (v : Num) :
    ((State.slotAdd1 s d n e f near v).1).mems = s.mems := by
  unfold State.slotAdd1
  try dsimp only
  repeat' (first
    | with_reducible assumption | (simp only [State.mems_mk]; with_reducible refine (State.mems_eta _).trans ?_)
    | (with_reducible refine ite_mems ?_ ?_) | (with_reducible refine (State.setSlotElem_mems ..).trans ?_)
    | with_reducible exact State.mems_self _ | dsimp only | split)
theorem State.slotAdd1_mems' {s : State} {d : Nat} {n : Nat} {e : Nat} {f : Fmt} {near : Bool} {v : Num} {zr} {zq : State}
    (zh : (State.slotAdd1 s d n e f near v) = (zq, zr)) : zq.mems = s.mems := by
  have := (State.slotAdd1_mems s d n e f near v)
  rw [zh] at this
  exact this

theorem State.slotAddAll_mems (s : State) (g : Nat) (unit : Reg) (op : Nat) (seq : Nat) (fo : Nat) (n : Nat) (tiled : Bool) (vs : List (Nat × Nat × Num)) :
    ((State.slotAddAll s g unit op seq fo n tiled vs).1).mems = s.mems := by
  unfold State.slotAddAll
  try dsimp only
  repeat' (first
    | with_reducible assumption | (simp only [State.mems_mk]; with_reducible refine (State.mems_eta _).trans ?_)
    | (with_reducible refine ite_mems ?_ ?_) | (with_reducible refine (State.slotAdd1_mems ..).trans ?_)
    | (with_reducible refine (State.slotAdd1_mems' (by assumption)).trans ?_)
    | (with_reducible refine (State.viol_mems ..).trans ?_)
    | (with_reducible refine (foldl_mems (fun _ _ => ?_) ..).trans ?_)
    | (with_reducible refine (foldl1_mems (fun _ _ => ?_) ..).trans ?_) | with_reducible exact State.mems_self _
    | dsimp only | split)
theorem State.slotAddAll_mems' {s : State} {g : Nat} {unit : Reg} {op : Nat} {seq : Nat} {fo : Nat} {n : Nat} {tiled : Bool} {vs : List (Nat × Nat × Num)} {zr} {zq : State}
    (zh : (State.slotAddAll s g unit op seq fo n tiled vs) = (zq, zr)) : zq.mems = s.mems := by
  have := (State.slotAddAll_mems s g unit op seq fo n tiled vs)
  rw [zh] at this
  exact this

end Sys2Proof.Machine
end

