-- ==== Sys2Proof/Laws/FrameLaneOps.lean ====
section
/-! SUPPORT. Frames of Machine/LaneOps.lean: what each operation and command leaves alone of the memories and the queue. -/

set_option linter.all false

namespace Sys2Proof.Machine

theorem State.digestResult_pend (s : State) (g : Nat) (j : LaneJob) (x : LaneDesc) :
    ((State.digestResult s g j x)).pend = s.pend := by
  unfold State.digestResult
  try dsimp only
  repeat' (first
    | with_reducible assumption | (simp only [State.pend_mk]; with_reducible refine (State.pend_eta _).trans ?_)
    | (with_reducible refine ite_pend ?_ ?_) | (with_reducible refine (State.writeAt_pend ..).trans ?_)
    | with_reducible exact State.pend_self _ | dsimp only | split)

theorem State.digestResult_canon {s : State} (hs : s.canon) (g : Nat) (j : LaneJob) (x : LaneDesc) :
    ((State.digestResult s g j x)).canon := by
  unfold State.digestResult
  try dsimp only
  repeat' (first
    | with_reducible assumption | (simp only [State.canon_mk]; with_reducible refine State.canon_eta ?_)
    | (with_reducible refine ite_canon ?_ ?_) | (with_reducible refine State.writeAt_canon ?_ ..) | dsimp only | split)

theorem State.laneClose_pend (s : State) (g : Nat) :
    ((State.laneClose s g)).pend = s.pend := by
  unfold State.laneClose
  try dsimp only
  repeat' (first
    | with_reducible assumption | (simp only [State.pend_mk]; with_reducible refine (State.pend_eta _).trans ?_)
    | (with_reducible refine ite_pend ?_ ?_) | (with_reducible refine (State.digestResult_pend ..).trans ?_)
    | (with_reducible refine (State.pend_of_mems (State.descDone_mems ..)).trans ?_)
    | (with_reducible refine (State.pend_of_mems (State.rcmpDone_mems ..)).trans ?_)
    | (with_reducible refine (State.pend_of_mems (State.updLane_mems ..)).trans ?_)
    | with_reducible exact State.pend_self _ | dsimp only | split)

theorem State.laneClose_canon {s : State} (hs : s.canon) (g : Nat) :
    ((State.laneClose s g)).canon := by
  unfold State.laneClose
  try dsimp only
  repeat' (first
    | with_reducible assumption | (simp only [State.canon_mk]; with_reducible refine State.canon_eta ?_)
    | (with_reducible refine ite_canon ?_ ?_) | (with_reducible refine State.digestResult_canon ?_ ..)
    | (with_reducible refine State.canon_of_mems (State.descDone_mems ..) ?_)
    | (with_reducible refine State.canon_of_mems (State.rcmpDone_mems ..) ?_)
    | (with_reducible refine State.canon_of_mems (State.updLane_mems ..) ?_) | dsimp only | split)

theorem State.openGate_mems (s : State) (g : Nat) :
    ((State.openGate s g)).mems = s.mems := by
  unfold State.openGate
  try dsimp only
  repeat' (first
    | with_reducible assumption | (simp only [State.mems_mk]; with_reducible refine (State.mems_eta _).trans ?_)
    | (with_reducible refine ite_mems ?_ ?_) | (with_reducible refine (State.updCore_mems ..).trans ?_)
    | (with_reducible refine (State.wrF_mems ..).trans ?_) | with_reducible exact State.mems_self _ | dsimp only
    | split)

theorem State.laneStart_pend (s : State) (g : Nat) (d : Nat) (pos : Nat) (eval : Bool) (rcmp : Bool) :
    ((State.laneStart s g d pos eval rcmp)).pend = s.pend := by
  unfold State.laneStart
  try dsimp only
  repeat' (first
    | with_reducible assumption | (simp only [State.pend_mk]; with_reducible refine (State.pend_eta _).trans ?_)
    | (with_reducible refine ite_pend ?_ ?_)
    | (with_reducible refine (State.pend_of_mems (State.openGate_mems ..)).trans ?_)
    | (with_reducible refine (State.laneClose_pend ..).trans ?_)
    | (with_reducible refine (State.pend_of_mems (State.updLane_mems ..)).trans ?_)
    | (with_reducible refine (State.pend_of_mems (State.viols'_mems ..)).trans ?_)
    | (with_reducible refine (State.pend_of_mems (State.wrF_mems ..)).trans ?_)
    | (with_reducible refine (State.pend_of_mems (State.wr_mems ..)).trans ?_)
    | with_reducible exact State.pend_self _ | dsimp only | split)

theorem State.laneStart_canon {s : State} (hs : s.canon) (g : Nat) (d : Nat) (pos : Nat) (eval : Bool) (rcmp : Bool) :
    ((State.laneStart s g d pos eval rcmp)).canon := by
  unfold State.laneStart
  try dsimp only
  repeat' (first
    | with_reducible assumption | (simp only [State.canon_mk]; with_reducible refine State.canon_eta ?_)
    | (with_reducible refine ite_canon ?_ ?_)
    | (with_reducible refine State.canon_of_mems (State.openGate_mems ..) ?_)
    | (with_reducible refine State.laneClose_canon ?_ ..)
    | (with_reducible refine State.canon_of_mems (State.updLane_mems ..) ?_)
    | (with_reducible refine State.canon_of_mems (State.viols'_mems ..) ?_)
    | (with_reducible refine State.canon_of_mems (State.wrF_mems ..) ?_)
    | (with_reducible refine State.canon_of_mems (State.wr_mems ..) ?_) | dsimp only | split)

end Sys2Proof.Machine
end

