-- ==== Sys2Proof/Laws/FrameVault.lean ====
section
/-! SUPPORT. Frames of Machine/Vault.lean: what each operation and command leaves alone of the memories and the queue. -/

set_option linter.all false

namespace Sys2Proof.Machine

theorem execVltLineRead_pend {vault : Nat} {line : Nat} {src : Nat} {err : List Nat} {s : State} {zt : State} (zh : execVltLineRead vault line src err s = .next zt) :
    zt.pend = s.pend := by
  unfold execVltLineRead at zh
  cases zh
  try dsimp only
  repeat' (first
    | with_reducible assumption | (simp only [State.pend_mk]; with_reducible refine (State.pend_eta _).trans ?_)
    | (with_reducible refine ite_pend ?_ ?_) | (with_reducible refine (State.vltRequest_pend ..).trans ?_)
    | with_reducible exact State.pend_self _ | dsimp only | split)

theorem execVltLineRead_canon {vault : Nat} {line : Nat} {src : Nat} {err : List Nat} {s : State} {zt : State} (hs : s.canon) (zh : execVltLineRead vault line src err s = .next zt) :
    zt.canon := by
  unfold execVltLineRead at zh
  cases zh
  try dsimp only
  repeat' (first
    | with_reducible assumption | (simp only [State.canon_mk]; with_reducible refine State.canon_eta ?_)
    | (with_reducible refine ite_canon ?_ ?_) | (with_reducible refine State.vltRequest_canon ?_ ..) | dsimp only
    | split)

theorem execVltLineWrite_pend {vault : Nat} {line : Nat} {src : Nat} {tag : Nat} {data : List Nat} {s : State} {zt : State} (zh : execVltLineWrite vault line src tag data s = .next zt) :
    zt.pend = s.pend := by
  unfold execVltLineWrite at zh
  cases zh
  try dsimp only
  repeat' (first
    | with_reducible assumption | (simp only [State.pend_mk]; with_reducible refine (State.pend_eta _).trans ?_)
    | (with_reducible refine ite_pend ?_ ?_) | (with_reducible refine (State.vltRequest_pend ..).trans ?_)
    | with_reducible exact State.pend_self _ | dsimp only | split)

theorem execVltLineWrite_canon {vault : Nat} {line : Nat} {src : Nat} {tag : Nat} {data : List Nat} {s : State} {zt : State} (hs : s.canon) (zh : execVltLineWrite vault line src tag data s = .next zt) :
    zt.canon := by
  unfold execVltLineWrite at zh
  cases zh
  try dsimp only
  repeat' (first
    | with_reducible assumption | (simp only [State.canon_mk]; with_reducible refine State.canon_eta ?_)
    | (with_reducible refine ite_canon ?_ ?_) | (with_reducible refine State.vltRequest_canon ?_ ..) | dsimp only
    | split)

theorem execNarrowWrite_pend {vault : Nat} {line : Nat} {src : Nat} {tag : Nat} {off : Nat} {bytes : List Nat} {err : List Nat} {s : State} {zt : State} (zh : execNarrowWrite vault line src tag off bytes err s = .next zt) :
    zt.pend = s.pend := by
  unfold execNarrowWrite at zh
  cases zh
  try dsimp only
  repeat' (first
    | with_reducible assumption | (simp only [State.pend_mk]; with_reducible refine (State.pend_eta _).trans ?_)
    | (with_reducible refine ite_pend ?_ ?_) | (with_reducible refine (State.vltRequest_pend ..).trans ?_)
    | with_reducible exact State.pend_self _ | dsimp only | split)

theorem execNarrowWrite_canon {vault : Nat} {line : Nat} {src : Nat} {tag : Nat} {off : Nat} {bytes : List Nat} {err : List Nat} {s : State} {zt : State} (hs : s.canon) (zh : execNarrowWrite vault line src tag off bytes err s = .next zt) :
    zt.canon := by
  unfold execNarrowWrite at zh
  cases zh
  try dsimp only
  repeat' (first
    | with_reducible assumption | (simp only [State.canon_mk]; with_reducible refine State.canon_eta ?_)
    | (with_reducible refine ite_canon ?_ ?_) | (with_reducible refine State.vltRequest_canon ?_ ..) | dsimp only
    | split)

theorem State.lockRead_mems (s : State) (g : Nat) (k : LineLock) (err : List Nat) :
    ((State.lockRead s g k err).1).mems = s.mems := by
  unfold State.lockRead
  try dsimp only
  repeat' (first
    | with_reducible assumption | (simp only [State.mems_mk]; with_reducible refine (State.mems_eta _).trans ?_)
    | (with_reducible refine ite_mems ?_ ?_) | (with_reducible refine (State.ctrlRead_mems ..).trans ?_)
    | (with_reducible refine (State.ctrlRead_mems' (by assumption)).trans ?_) | with_reducible exact State.mems_self _
    | dsimp only | split)
theorem State.lockRead_mems' {s : State} {g : Nat} {k : LineLock} {err : List Nat} {zr} {zq : State}
    (zh : (State.lockRead s g k err) = (zq, zr)) : zq.mems = s.mems := by
  have := (State.lockRead_mems s g k err)
  rw [zh] at this
  exact this

theorem execVltRefetch_pend {vault : Nat} {line : Nat} {err : List Nat} {s : State} {zt : State} (zh : execVltRefetch vault line err s = .next zt) :
    zt.pend = s.pend := by
  unfold execVltRefetch at zh
  cases zh
  try dsimp only
  repeat' (first
    | with_reducible assumption | (simp only [State.pend_mk]; with_reducible refine (State.pend_eta _).trans ?_)
    | (with_reducible refine ite_pend ?_ ?_)
    | (with_reducible refine (State.pend_of_mems (State.lockRead_mems ..)).trans ?_)
    | (with_reducible refine (State.pend_of_mems (State.lockRead_mems' (by assumption))).trans ?_)
    | (with_reducible refine (State.laneClose_pend ..).trans ?_)
    | (with_reducible refine (State.askRecompute_pend ..).trans ?_)
    | (with_reducible refine (State.finishLock_pend ..).trans ?_)
    | (with_reducible refine (State.lastingFault_pend ..).trans ?_)
    | (with_reducible refine (State.lastingFault_pend' (by assumption)).trans ?_)
    | (with_reducible refine (State.unlock_pend ..).trans ?_)
    | (with_reducible refine (State.pend_of_mems (State.lineRecord_mems ..)).trans ?_)
    | (with_reducible refine (State.pend_of_mems (State.updLock_mems ..)).trans ?_)
    | (with_reducible refine (State.pend_of_mems (State.bump_mems ..)).trans ?_)
    | with_reducible exact State.pend_self _ | dsimp only | split)

theorem execVltRefetch_canon {vault : Nat} {line : Nat} {err : List Nat} {s : State} {zt : State} (hs : s.canon) (zh : execVltRefetch vault line err s = .next zt) :
    zt.canon := by
  unfold execVltRefetch at zh
  cases zh
  try dsimp only
  repeat' (first
    | with_reducible assumption | (simp only [State.canon_mk]; with_reducible refine State.canon_eta ?_)
    | (with_reducible refine ite_canon ?_ ?_)
    | (with_reducible refine State.canon_of_mems (State.lockRead_mems ..) ?_)
    | (with_reducible refine State.canon_of_mems (State.lockRead_mems' (by assumption)) ?_)
    | (with_reducible refine State.laneClose_canon ?_ ..) | (with_reducible refine State.askRecompute_canon ?_ ..)
    | (with_reducible refine State.finishLock_canon ?_ ..) | (with_reducible refine State.lastingFault_canon ?_ ..)
    | (with_reducible refine State.lastingFault_canon' (by assumption) ?_)
    | (with_reducible refine State.unlock_canon ?_ ..)
    | (with_reducible refine State.canon_of_mems (State.lineRecord_mems ..) ?_)
    | (with_reducible refine State.canon_of_mems (State.updLock_mems ..) ?_)
    | (with_reducible refine State.canon_of_mems (State.bump_mems ..) ?_) | dsimp only | split)

theorem State.freeRemaps_mems (s : State) (g : Nat) (page : Nat) :
    ((State.freeRemaps s g page)).mems = s.mems := by
  unfold State.freeRemaps
  try dsimp only
  repeat' (first
    | with_reducible assumption | (simp only [State.mems_mk]; with_reducible refine (State.mems_eta _).trans ?_)
    | (with_reducible refine ite_mems ?_ ?_) | (with_reducible refine (State.wr_mems ..).trans ?_)
    | (with_reducible refine (forUpTo_mems (fun _ _ => ?_) ..).trans ?_) | with_reducible exact State.mems_self _
    | dsimp only | split)

theorem State.recomputePage_pend (s : State) (g : Nat) (page : Nat) :
    ((State.recomputePage s g page)).pend = s.pend := by
  unfold State.recomputePage
  try dsimp only
  repeat' (first
    | with_reducible assumption | (simp only [State.pend_mk]; with_reducible refine (State.pend_eta _).trans ?_)
    | (with_reducible refine ite_pend ?_ ?_) | (with_reducible refine (State.askRecompute_pend ..).trans ?_)
    | (with_reducible refine (State.pend_of_mems (State.updVlt_mems ..)).trans ?_)
    | (with_reducible refine (forUpTo_pend (fun _ _ => ?_) ..).trans ?_) | with_reducible exact State.pend_self _
    | dsimp only | split)

theorem State.recomputePage_canon {s : State} (hs : s.canon) (g : Nat) (page : Nat) :
    ((State.recomputePage s g page)).canon := by
  unfold State.recomputePage
  try dsimp only
  repeat' (first
    | with_reducible assumption | (simp only [State.canon_mk]; with_reducible refine State.canon_eta ?_)
    | (with_reducible refine ite_canon ?_ ?_) | (with_reducible refine State.askRecompute_canon ?_ ..)
    | (with_reducible refine State.canon_of_mems (State.updVlt_mems ..) ?_)
    | (with_reducible refine forUpTo_canon (fun _ _ _ => ?_) ?_ ..) | dsimp only | split)

theorem execPageMigrateDone_pend {vault : Nat} {reserveBad : Bool} {s : State} {zt : State} (zh : execPageMigrateDone vault reserveBad s = .next zt) :
    zt.pend = s.pend := by
  unfold execPageMigrateDone at zh
  cases zh
  try dsimp only
  repeat' (first
    | with_reducible assumption | (simp only [State.pend_mk]; with_reducible refine (State.pend_eta _).trans ?_)
    | (with_reducible refine ite_pend ?_ ?_) | (with_reducible refine (State.recomputePage_pend ..).trans ?_)
    | (with_reducible refine (State.pend_of_mems (State.freeRemaps_mems ..)).trans ?_)
    | (with_reducible refine (State.serveWaiting_pend ..).trans ?_)
    | (with_reducible refine (State.copyPage_pend ..).trans ?_)
    | (with_reducible refine (State.pend_of_mems (State.queue_mems ..)).trans ?_)
    | (with_reducible refine (State.pend_of_mems (State.updVlt_mems ..)).trans ?_)
    | (with_reducible refine (State.pend_of_mems (State.wr_mems ..)).trans ?_)
    | (with_reducible refine (forEach_pend (fun _ _ => ?_) ..).trans ?_) | with_reducible exact State.pend_self _
    | dsimp only | split)

theorem execPageMigrateDone_canon {vault : Nat} {reserveBad : Bool} {s : State} {zt : State} (hs : s.canon) (zh : execPageMigrateDone vault reserveBad s = .next zt) :
    zt.canon := by
  unfold execPageMigrateDone at zh
  cases zh
  try dsimp only
  repeat' (first
    | with_reducible assumption | (simp only [State.canon_mk]; with_reducible refine State.canon_eta ?_)
    | (with_reducible refine ite_canon ?_ ?_) | (with_reducible refine State.recomputePage_canon ?_ ..)
    | (with_reducible refine State.canon_of_mems (State.freeRemaps_mems ..) ?_)
    | (with_reducible refine State.serveWaiting_canon ?_ ..) | (with_reducible refine State.copyPage_canon ?_ ..)
    | (with_reducible refine State.canon_of_mems (State.queue_mems ..) ?_)
    | (with_reducible refine State.canon_of_mems (State.updVlt_mems ..) ?_)
    | (with_reducible refine State.canon_of_mems (State.wr_mems ..) ?_)
    | (with_reducible refine forEach_canon (fun _ _ _ => ?_) ?_ ..) | dsimp only | split)

theorem execVltRecomputeRead_pend {vault : Nat} {line : Nat} {err : List Nat} {s : State} {zt : State} (zh : execVltRecomputeRead vault line err s = .next zt) :
    zt.pend = s.pend := by
  unfold execVltRecomputeRead at zh
  cases zh
  try dsimp only
  repeat' (first
    | with_reducible assumption | (simp only [State.pend_mk]; with_reducible refine (State.pend_eta _).trans ?_)
    | (with_reducible refine ite_pend ?_ ?_)
    | (with_reducible refine (State.pend_of_mems (State.lockRead_mems ..)).trans ?_)
    | (with_reducible refine (State.pend_of_mems (State.lockRead_mems' (by assumption))).trans ?_)
    | (with_reducible refine (State.laneClose_pend ..).trans ?_)
    | (with_reducible refine (State.finishLock_pend ..).trans ?_)
    | (with_reducible refine (State.leaveLost_pend ..).trans ?_)
    | (with_reducible refine (State.unlock_pend ..).trans ?_)
    | (with_reducible refine (State.pend_of_mems (State.lineRecord_mems ..)).trans ?_)
    | (with_reducible refine (State.pend_of_mems (State.bump_mems ..)).trans ?_)
    | with_reducible exact State.pend_self _ | dsimp only | split)

theorem execVltRecomputeRead_canon {vault : Nat} {line : Nat} {err : List Nat} {s : State} {zt : State} (hs : s.canon) (zh : execVltRecomputeRead vault line err s = .next zt) :
    zt.canon := by
  unfold execVltRecomputeRead at zh
  cases zh
  try dsimp only
  repeat' (first
    | with_reducible assumption | (simp only [State.canon_mk]; with_reducible refine State.canon_eta ?_)
    | (with_reducible refine ite_canon ?_ ?_)
    | (with_reducible refine State.canon_of_mems (State.lockRead_mems ..) ?_)
    | (with_reducible refine State.canon_of_mems (State.lockRead_mems' (by assumption)) ?_)
    | (with_reducible refine State.laneClose_canon ?_ ..) | (with_reducible refine State.finishLock_canon ?_ ..)
    | (with_reducible refine State.leaveLost_canon ?_ ..) | (with_reducible refine State.unlock_canon ?_ ..)
    | (with_reducible refine State.canon_of_mems (State.lineRecord_mems ..) ?_)
    | (with_reducible refine State.canon_of_mems (State.bump_mems ..) ?_) | dsimp only | split)

theorem execRcmpTimeout_pend {vault : Nat} {line : Nat} {s : State} {zt : State} (zh : execRcmpTimeout vault line s = .next zt) :
    zt.pend = s.pend := by
  unfold execRcmpTimeout at zh
  cases zh
  try dsimp only
  repeat' (first
    | with_reducible assumption | (simp only [State.pend_mk]; with_reducible refine (State.pend_eta _).trans ?_)
    | (with_reducible refine ite_pend ?_ ?_) | (with_reducible refine (State.laneClose_pend ..).trans ?_)
    | (with_reducible refine (State.pend_of_mems (State.rcmpDrop_mems ..)).trans ?_)
    | (with_reducible refine (State.leaveLost_pend ..).trans ?_) | with_reducible exact State.pend_self _ | dsimp only
    | split)

theorem execRcmpTimeout_canon {vault : Nat} {line : Nat} {s : State} {zt : State} (hs : s.canon) (zh : execRcmpTimeout vault line s = .next zt) :
    zt.canon := by
  unfold execRcmpTimeout at zh
  cases zh
  try dsimp only
  repeat' (first
    | with_reducible assumption | (simp only [State.canon_mk]; with_reducible refine State.canon_eta ?_)
    | (with_reducible refine ite_canon ?_ ?_) | (with_reducible refine State.laneClose_canon ?_ ..)
    | (with_reducible refine State.canon_of_mems (State.rcmpDrop_mems ..) ?_)
    | (with_reducible refine State.leaveLost_canon ?_ ..) | dsimp only | split)

theorem State.setDebt_mems (s : State) (g : Nat) (b : Nat) (n : Nat) :
    ((State.setDebt s g b n)).mems = s.mems := by
  unfold State.setDebt
  try dsimp only
  repeat' (first
    | with_reducible assumption | (simp only [State.mems_mk]; with_reducible refine (State.mems_eta _).trans ?_)
    | (with_reducible refine ite_mems ?_ ?_) | (with_reducible refine (State.updVlt_mems ..).trans ?_)
    | with_reducible exact State.mems_self _ | dsimp only | split)

theorem execRefreshDue_mems {vault : Nat} {bank : Nat} {pending : Bool} {s : State} {zt : State} (zh : execRefreshDue vault bank pending s = .next zt) :
    zt.mems = s.mems := by
  unfold execRefreshDue at zh
  cases zh
  try dsimp only
  repeat' (first
    | with_reducible assumption | (simp only [State.mems_mk]; with_reducible refine (State.mems_eta _).trans ?_)
    | (with_reducible refine ite_mems ?_ ?_) | (with_reducible refine (State.setDebt_mems ..).trans ?_)
    | (with_reducible refine (State.bump_mems ..).trans ?_) | with_reducible exact State.mems_self _ | dsimp only
    | split)

theorem execRefreshRepay_mems {vault : Nat} {bank : Nat} {s : State} {zt : State} (zh : execRefreshRepay vault bank s = .next zt) :
    zt.mems = s.mems := by
  unfold execRefreshRepay at zh
  cases zh
  try dsimp only
  repeat' (first
    | with_reducible assumption | (simp only [State.mems_mk]; with_reducible refine (State.mems_eta _).trans ?_)
    | (with_reducible refine ite_mems ?_ ?_) | (with_reducible refine (State.setDebt_mems ..).trans ?_)
    | with_reducible exact State.mems_self _ | dsimp only | split)

theorem State.boundaryRefresh_mems (s : State) (g : Nat) (b : Nat) :
    ((State.boundaryRefresh s g b)).mems = s.mems := by
  unfold State.boundaryRefresh
  try dsimp only
  repeat' (first
    | with_reducible assumption | (simp only [State.mems_mk]; with_reducible refine (State.mems_eta _).trans ?_)
    | (with_reducible refine ite_mems ?_ ?_) | (with_reducible refine (State.setDebt_mems ..).trans ?_)
    | (with_reducible refine (State.bump_mems ..).trans ?_) | with_reducible exact State.mems_self _ | dsimp only
    | split)

theorem execPatrolScrub_mems {vault : Nat} {err : List Nat} {s : State} {zt : State} (zh : execPatrolScrub vault err s = .next zt) :
    zt.mems = s.mems := by
  unfold execPatrolScrub at zh
  cases zh
  try dsimp only
  repeat' (first
    | with_reducible assumption | (simp only [State.mems_mk]; with_reducible refine (State.mems_eta _).trans ?_)
    | (with_reducible refine ite_mems ?_ ?_) | (with_reducible refine (State.lineFail_mems ..).trans ?_)
    | (with_reducible refine (State.updVlt_mems ..).trans ?_) | (with_reducible refine (State.bump_mems ..).trans ?_)
    | with_reducible exact State.mems_self _ | dsimp only | split)

theorem execTempSample_mems {vault : Nat} {l0 : Nat} {l1 : Nat} {l2 : Nat} {l3 : Nat} {s : State} {zt : State} (zh : execTempSample vault l0 l1 l2 l3 s = .next zt) :
    zt.mems = s.mems := by
  unfold execTempSample at zh
  cases zh
  try dsimp only
  repeat' (first
    | with_reducible assumption | (simp only [State.mems_mk]; with_reducible refine (State.mems_eta _).trans ?_)
    | (with_reducible refine ite_mems ?_ ?_) | (with_reducible refine (State.updVlt_mems ..).trans ?_)
    | (with_reducible refine (State.wr_mems ..).trans ?_) | with_reducible exact State.mems_self _ | dsimp only
    | split)

theorem execBandChange_mems {vault : Nat} {s : State} {zt : State} (zh : execBandChange vault s = .next zt) :
    zt.mems = s.mems := by
  unfold execBandChange at zh
  cases zh
  try dsimp only
  repeat' (first
    | with_reducible assumption | (simp only [State.mems_mk]; with_reducible refine (State.mems_eta _).trans ?_)
    | (with_reducible refine ite_mems ?_ ?_) | (with_reducible refine (State.queue_mems ..).trans ?_)
    | (with_reducible refine (State.updVlt_mems ..).trans ?_) | (with_reducible refine (State.wrF_mems ..).trans ?_)
    | with_reducible exact State.mems_self _ | dsimp only | split)

theorem execStgAccess_pend {core : Nat} {port : Nat} {byte : Nat} {retries : Nat} {ecc : Nat} {data : List Nat} {s : State} {zt : State} (zh : execStgAccess core port byte retries ecc data s = .next zt) :
    zt.pend = s.pend := by
  unfold execStgAccess at zh
  cases zh
  try dsimp only
  repeat' (first
    | with_reducible assumption | (simp only [State.pend_mk]; with_reducible refine (State.pend_eta _).trans ?_)
    | (with_reducible refine ite_pend ?_ ?_)
    | (with_reducible refine (State.pend_of_mems (State.withhold_mems ..)).trans ?_)
    | (with_reducible refine (State.putStg_pend ..).trans ?_)
    | (with_reducible refine (State.pend_of_mems (State.queue_mems ..)).trans ?_)
    | (with_reducible refine (State.pend_of_mems (State.coreAddrViol_mems ..)).trans ?_)
    | (with_reducible refine (State.pend_of_mems (State.hubAddrViol_mems ..)).trans ?_)
    | (with_reducible refine (State.pend_of_mems (State.send_mems ..)).trans ?_)
    | (with_reducible refine (State.pend_of_mems (State.updCore_mems ..)).trans ?_)
    | (with_reducible refine (State.pend_of_mems (State.bump_mems ..)).trans ?_)
    | with_reducible exact State.pend_self _ | dsimp only | split)

theorem execStgAccess_canon {core : Nat} {port : Nat} {byte : Nat} {retries : Nat} {ecc : Nat} {data : List Nat} {s : State} {zt : State} (hs : s.canon) (zh : execStgAccess core port byte retries ecc data s = .next zt) :
    zt.canon := by
  unfold execStgAccess at zh
  cases zh
  try dsimp only
  repeat' (first
    | with_reducible assumption | (simp only [State.canon_mk]; with_reducible refine State.canon_eta ?_)
    | (with_reducible refine ite_canon ?_ ?_)
    | (with_reducible refine State.canon_of_mems (State.withhold_mems ..) ?_)
    | (with_reducible refine State.putStg_canon ?_ ..)
    | (with_reducible refine State.canon_of_mems (State.queue_mems ..) ?_)
    | (with_reducible refine State.canon_of_mems (State.coreAddrViol_mems ..) ?_)
    | (with_reducible refine State.canon_of_mems (State.hubAddrViol_mems ..) ?_)
    | (with_reducible refine State.canon_of_mems (State.send_mems ..) ?_)
    | (with_reducible refine State.canon_of_mems (State.updCore_mems ..) ?_)
    | (with_reducible refine State.canon_of_mems (State.bump_mems ..) ?_) | dsimp only | split)

end Sys2Proof.Machine
end

