-- ==== Sys2Proof/Laws/FrameLanes.lean ====
section
/-! SUPPORT. Frames of Machine/Lanes.lean: what each operation and command leaves alone of the memories and the queue. -/

set_option linter.all false

namespace Sys2Proof.Machine

theorem State.laneExec_pend (s : State) (g : Nat) (ops : Nat → Bool) :
    ((State.laneExec s g ops)).pend = s.pend := by
  unfold State.laneExec
  try dsimp only
  repeat' (first
    | with_reducible assumption | (simp only [State.pend_mk]; with_reducible refine (State.pend_eta _).trans ?_)
    | (with_reducible refine ite_pend ?_ ?_) | (with_reducible refine (State.laneStart_pend ..).trans ?_)
    | (with_reducible refine (State.laneClose_pend ..).trans ?_) | with_reducible exact State.pend_self _ | dsimp only
    | split)

theorem State.laneExec_canon {s : State} (hs : s.canon) (g : Nat) (ops : Nat → Bool) :
    ((State.laneExec s g ops)).canon := by
  unfold State.laneExec
  try dsimp only
  repeat' (first
    | with_reducible assumption | (simp only [State.canon_mk]; with_reducible refine State.canon_eta ?_)
    | (with_reducible refine ite_canon ?_ ?_) | (with_reducible refine State.laneStart_canon ?_ ..)
    | (with_reducible refine State.laneClose_canon ?_ ..) | dsimp only | split)

theorem execOptim_pend {core : Nat} {s : State} {zt : State} (zh : execOptim core s = .next zt) :
    zt.pend = s.pend := by
  unfold execOptim at zh
  cases zh
  try dsimp only
  repeat' (first
    | with_reducible assumption | (simp only [State.pend_mk]; with_reducible refine (State.pend_eta _).trans ?_)
    | (with_reducible refine ite_pend ?_ ?_) | (with_reducible refine (State.laneExec_pend ..).trans ?_)
    | with_reducible exact State.pend_self _ | dsimp only | split)

theorem execOptim_canon {core : Nat} {s : State} {zt : State} (hs : s.canon) (zh : execOptim core s = .next zt) :
    zt.canon := by
  unfold execOptim at zh
  cases zh
  try dsimp only
  repeat' (first
    | with_reducible assumption | (simp only [State.canon_mk]; with_reducible refine State.canon_eta ?_)
    | (with_reducible refine ite_canon ?_ ?_) | (with_reducible refine State.laneExec_canon ?_ ..) | dsimp only
    | split)

theorem execScale_pend {core : Nat} {s : State} {zt : State} (zh : execScale core s = .next zt) :
    zt.pend = s.pend := by
  unfold execScale at zh
  cases zh
  try dsimp only
  repeat' (first
    | with_reducible assumption | (simp only [State.pend_mk]; with_reducible refine (State.pend_eta _).trans ?_)
    | (with_reducible refine ite_pend ?_ ?_) | (with_reducible refine (State.laneExec_pend ..).trans ?_)
    | with_reducible exact State.pend_self _ | dsimp only | split)

theorem execScale_canon {core : Nat} {s : State} {zt : State} (hs : s.canon) (zh : execScale core s = .next zt) :
    zt.canon := by
  unfold execScale at zh
  cases zh
  try dsimp only
  repeat' (first
    | with_reducible assumption | (simp only [State.canon_mk]; with_reducible refine State.canon_eta ?_)
    | (with_reducible refine ite_canon ?_ ?_) | (with_reducible refine State.laneExec_canon ?_ ..) | dsimp only
    | split)

theorem execDigest_pend {core : Nat} {s : State} {zt : State} (zh : execDigest core s = .next zt) :
    zt.pend = s.pend := by
  unfold execDigest at zh
  cases zh
  try dsimp only
  repeat' (first
    | with_reducible assumption | (simp only [State.pend_mk]; with_reducible refine (State.pend_eta _).trans ?_)
    | (with_reducible refine ite_pend ?_ ?_) | (with_reducible refine (State.laneExec_pend ..).trans ?_)
    | with_reducible exact State.pend_self _ | dsimp only | split)

theorem execDigest_canon {core : Nat} {s : State} {zt : State} (hs : s.canon) (zh : execDigest core s = .next zt) :
    zt.canon := by
  unfold execDigest at zh
  cases zh
  try dsimp only
  repeat' (first
    | with_reducible assumption | (simp only [State.canon_mk]; with_reducible refine State.canon_eta ?_)
    | (with_reducible refine ite_canon ?_ ?_) | (with_reducible refine State.laneExec_canon ?_ ..) | dsimp only
    | split)

theorem execZero_pend {core : Nat} {s : State} {zt : State} (zh : execZero core s = .next zt) :
    zt.pend = s.pend := by
  unfold execZero at zh
  cases zh
  try dsimp only
  repeat' (first
    | with_reducible assumption | (simp only [State.pend_mk]; with_reducible refine (State.pend_eta _).trans ?_)
    | (with_reducible refine ite_pend ?_ ?_) | (with_reducible refine (State.laneExec_pend ..).trans ?_)
    | with_reducible exact State.pend_self _ | dsimp only | split)

theorem execZero_canon {core : Nat} {s : State} {zt : State} (hs : s.canon) (zh : execZero core s = .next zt) :
    zt.canon := by
  unfold execZero at zh
  cases zh
  try dsimp only
  repeat' (first
    | with_reducible assumption | (simp only [State.canon_mk]; with_reducible refine State.canon_eta ?_)
    | (with_reducible refine ite_canon ?_ ?_) | (with_reducible refine State.laneExec_canon ?_ ..) | dsimp only
    | split)

theorem execLaneTokenGrant_mems {core : Nat} {units : Nat} {waitCycles : Nat} {s : State} {zt : State} (zh : execLaneTokenGrant core units waitCycles s = .next zt) :
    zt.mems = s.mems := by
  unfold execLaneTokenGrant at zh
  cases zh
  try dsimp only
  repeat' (first
    | with_reducible assumption | (simp only [State.mems_mk]; with_reducible refine (State.mems_eta _).trans ?_)
    | (with_reducible refine ite_mems ?_ ?_) | (with_reducible refine (State.updLaneBank_mems ..).trans ?_)
    | (with_reducible refine (State.bump_mems ..).trans ?_) | with_reducible exact State.mems_self _ | dsimp only
    | split)

theorem State.returnToken_mems (s : State) (g : Nat) (b : Nat) :
    ((State.returnToken s g b)).mems = s.mems := by
  unfold State.returnToken
  try dsimp only
  repeat' (first
    | with_reducible assumption | (simp only [State.mems_mk]; with_reducible refine (State.mems_eta _).trans ?_)
    | (with_reducible refine ite_mems ?_ ?_) | (with_reducible refine (State.updLaneBank_mems ..).trans ?_)
    | with_reducible exact State.mems_self _ | dsimp only | split)

theorem State.passEnded_mems (s : State) (g : Nat) (b : Nat) :
    ((State.passEnded s g b)).mems = s.mems := by
  unfold State.passEnded
  try dsimp only
  repeat' (first
    | with_reducible assumption | (simp only [State.mems_mk]; with_reducible refine (State.mems_eta _).trans ?_)
    | (with_reducible refine ite_mems ?_ ?_) | (with_reducible refine (State.updLane_mems ..).trans ?_)
    | with_reducible exact State.mems_self _ | dsimp only | split)

theorem State.laneReadFail_mems (s : State) (g : Nat) (b : Nat) (l : Nat) (r : RawLine) :
    ((State.laneReadFail s g b l r)).mems = s.mems := by
  unfold State.laneReadFail
  try dsimp only
  repeat' (first
    | with_reducible assumption | (simp only [State.mems_mk]; with_reducible refine (State.mems_eta _).trans ?_)
    | (with_reducible refine ite_mems ?_ ?_) | (with_reducible refine (State.returnToken_mems ..).trans ?_)
    | (with_reducible refine (State.laneSettle_mems ..).trans ?_)
    | (with_reducible refine (State.updLaneBank_mems ..).trans ?_)
    | (with_reducible refine (State.poisonRead_mems ..).trans ?_)
    | (with_reducible refine (State.lineFail_mems ..).trans ?_)
    | (with_reducible refine (State.lineRecord_mems ..).trans ?_) | with_reducible exact State.mems_self _
    | dsimp only | split)

theorem State.laneClaim_mems (s : State) (g : Nat) (b : Nat) (x : LaneDesc) (n : Nat) (got : List LaneLine) :
    ((State.laneClaim s g b x n got)).mems = s.mems := by
  unfold State.laneClaim
  try dsimp only
  repeat' (first
    | with_reducible assumption | (simp only [State.mems_mk]; with_reducible refine (State.mems_eta _).trans ?_)
    | (with_reducible refine ite_mems ?_ ?_) | (with_reducible refine (State.updLaneBank_mems ..).trans ?_)
    | (with_reducible refine (State.updLaneUnit_mems ..).trans ?_) | with_reducible exact State.mems_self _
    | dsimp only | split)

theorem execLanePassClaim_pend {core : Nat} {bank : Nat} {errs : List (Nat × List Nat)} {s : State} {zt : State} (zh : execLanePassClaim core bank errs s = .next zt) :
    zt.pend = s.pend := by
  unfold execLanePassClaim at zh
  cases zh
  try dsimp only
  repeat' (first
    | with_reducible assumption | (simp only [State.pend_mk]; with_reducible refine (State.pend_eta _).trans ?_)
    | (with_reducible refine ite_pend ?_ ?_)
    | (with_reducible refine (State.pend_of_mems (State.laneClaim_mems ..)).trans ?_)
    | (with_reducible refine (State.pend_of_mems (State.laneReadFail_mems ..)).trans ?_)
    | (with_reducible refine (State.pend_of_mems (State.returnToken_mems ..)).trans ?_)
    | (with_reducible refine (State.pend_of_mems (State.boundaryRefresh_mems ..)).trans ?_)
    | (with_reducible refine (State.laneClose_pend ..).trans ?_) | with_reducible exact State.pend_self _ | dsimp only
    | split)

theorem execLanePassClaim_canon {core : Nat} {bank : Nat} {errs : List (Nat × List Nat)} {s : State} {zt : State} (hs : s.canon) (zh : execLanePassClaim core bank errs s = .next zt) :
    zt.canon := by
  unfold execLanePassClaim at zh
  cases zh
  try dsimp only
  repeat' (first
    | with_reducible assumption | (simp only [State.canon_mk]; with_reducible refine State.canon_eta ?_)
    | (with_reducible refine ite_canon ?_ ?_)
    | (with_reducible refine State.canon_of_mems (State.laneClaim_mems ..) ?_)
    | (with_reducible refine State.canon_of_mems (State.laneReadFail_mems ..) ?_)
    | (with_reducible refine State.canon_of_mems (State.returnToken_mems ..) ?_)
    | (with_reducible refine State.canon_of_mems (State.boundaryRefresh_mems ..) ?_)
    | (with_reducible refine State.laneClose_canon ?_ ..) | dsimp only | split)

theorem State.laneStore_pend (s : State) (g : Nat) (j : LaneJob) (x : LaneDesc) (got : List LaneLine) (o : LaneWrite) :
    ((State.laneStore s g j x got o)).pend = s.pend := by
  unfold State.laneStore
  try dsimp only
  repeat' (first
    | with_reducible assumption | (simp only [State.pend_mk]; with_reducible refine (State.pend_eta _).trans ?_)
    | (with_reducible refine ite_pend ?_ ?_) | (with_reducible refine (State.noteWrite_pend ..).trans ?_)
    | (with_reducible refine (State.putRaw_pend ..).trans ?_) | with_reducible exact State.pend_self _ | dsimp only
    | split)

theorem State.laneStore_canon {s : State} (hs : s.canon) (g : Nat) (j : LaneJob) (x : LaneDesc) (got : List LaneLine) (o : LaneWrite) :
    ((State.laneStore s g j x got o)).canon := by
  unfold State.laneStore
  try dsimp only
  repeat' (first
    | with_reducible assumption | (simp only [State.canon_mk]; with_reducible refine State.canon_eta ?_)
    | (with_reducible refine ite_canon ?_ ?_) | (with_reducible refine State.noteWrite_canon ?_ ..)
    | (with_reducible refine State.putRaw_canon ?_ ..) | dsimp only | split)

theorem State.tagSkew_mems (s : State) (g : Nat) (j : LaneJob) (x : LaneDesc) (b : Nat) (master : Bool) (k : Nat × List Nat) :
    ((State.tagSkew s g j x b master k)).mems = s.mems := by
  unfold State.tagSkew
  try dsimp only
  repeat' (first
    | with_reducible assumption | (simp only [State.mems_mk]; with_reducible refine (State.mems_eta _).trans ?_)
    | (with_reducible refine ite_mems ?_ ?_) | (with_reducible refine (State.updLaneBank_mems ..).trans ?_)
    | (with_reducible refine (State.withhold_mems ..).trans ?_)
    | (with_reducible refine (State.queue_mems ..).trans ?_) | (with_reducible refine (State.bump_mems ..).trans ?_)
    | (with_reducible refine (State.wrF_mems ..).trans ?_) | with_reducible exact State.mems_self _ | dsimp only
    | split)

theorem State.laneCarry_mems (s : State) (g : Nat) (j : LaneJob) (x : LaneDesc) (counts : List Census) :
    ((State.laneCarry s g j x counts)).mems = s.mems := by
  unfold State.laneCarry
  try dsimp only
  repeat' (first
    | with_reducible assumption | (simp only [State.mems_mk]; with_reducible refine (State.mems_eta _).trans ?_)
    | (with_reducible refine ite_mems ?_ ?_) | (with_reducible refine (State.carryTotals_mems ..).trans ?_)
    | (with_reducible refine (forEach_mems (fun _ _ => ?_) ..).trans ?_) | with_reducible exact State.mems_self _
    | dsimp only | split)

theorem execLanePassWrite_pend {core : Nat} {bank : Nat} {s : State} {zt : State} (zh : execLanePassWrite core bank s = .next zt) :
    zt.pend = s.pend := by
  unfold execLanePassWrite at zh
  cases zh
  try dsimp only
  repeat' (first
    | with_reducible assumption | (simp only [State.pend_mk]; with_reducible refine (State.pend_eta _).trans ?_)
    | (with_reducible refine ite_pend ?_ ?_)
    | (with_reducible refine (State.pend_of_mems (State.laneCarry_mems ..)).trans ?_)
    | (with_reducible refine (State.pend_of_mems (State.tagSkew_mems ..)).trans ?_)
    | (with_reducible refine (State.laneStore_pend ..).trans ?_)
    | (with_reducible refine (State.pend_of_mems (State.updLaneBank_mems ..)).trans ?_)
    | (with_reducible refine (State.pend_of_mems (State.updLaneUnit_mems ..)).trans ?_)
    | (with_reducible refine (State.pend_of_mems (State.updLane_mems ..)).trans ?_)
    | (with_reducible refine (State.pend_of_mems (State.bump_mems ..)).trans ?_)
    | (with_reducible refine (forEach_pend (fun _ _ => ?_) ..).trans ?_) | with_reducible exact State.pend_self _
    | dsimp only | split)

theorem execLanePassWrite_canon {core : Nat} {bank : Nat} {s : State} {zt : State} (hs : s.canon) (zh : execLanePassWrite core bank s = .next zt) :
    zt.canon := by
  unfold execLanePassWrite at zh
  cases zh
  try dsimp only
  repeat' (first
    | with_reducible assumption | (simp only [State.canon_mk]; with_reducible refine State.canon_eta ?_)
    | (with_reducible refine ite_canon ?_ ?_)
    | (with_reducible refine State.canon_of_mems (State.laneCarry_mems ..) ?_)
    | (with_reducible refine State.canon_of_mems (State.tagSkew_mems ..) ?_)
    | (with_reducible refine State.laneStore_canon ?_ ..)
    | (with_reducible refine State.canon_of_mems (State.updLaneBank_mems ..) ?_)
    | (with_reducible refine State.canon_of_mems (State.updLaneUnit_mems ..) ?_)
    | (with_reducible refine State.canon_of_mems (State.updLane_mems ..) ?_)
    | (with_reducible refine State.canon_of_mems (State.bump_mems ..) ?_)
    | (with_reducible refine forEach_canon (fun _ _ _ => ?_) ?_ ..) | dsimp only | split)

theorem execLanePassBoundary_pend {core : Nat} {bank : Nat} {actCycles : Nat} {s : State} {zt : State} (zh : execLanePassBoundary core bank actCycles s = .next zt) :
    zt.pend = s.pend := by
  unfold execLanePassBoundary at zh
  cases zh
  try dsimp only
  repeat' (first
    | with_reducible assumption | (simp only [State.pend_mk]; with_reducible refine (State.pend_eta _).trans ?_)
    | (with_reducible refine ite_pend ?_ ?_)
    | (with_reducible refine (State.pend_of_mems (State.passEnded_mems ..)).trans ?_)
    | (with_reducible refine (State.pend_of_mems (State.returnToken_mems ..)).trans ?_)
    | (with_reducible refine (State.pend_of_mems (State.boundaryRefresh_mems ..)).trans ?_)
    | (with_reducible refine (State.laneClose_pend ..).trans ?_)
    | (with_reducible refine (State.serveWaiting_pend ..).trans ?_)
    | (with_reducible refine (State.pend_of_mems (State.updLaneBank_mems ..)).trans ?_)
    | (with_reducible refine (State.pend_of_mems (State.updLaneUnit_mems ..)).trans ?_)
    | (with_reducible refine (State.pend_of_mems (State.bump_mems ..)).trans ?_)
    | (with_reducible refine (foldl_pend (fun _ _ => ?_) ..).trans ?_)
    | (with_reducible refine (foldl1_pend (fun _ _ => ?_) ..).trans ?_) | with_reducible exact State.pend_self _
    | dsimp only | split)

theorem execLanePassBoundary_canon {core : Nat} {bank : Nat} {actCycles : Nat} {s : State} {zt : State} (hs : s.canon) (zh : execLanePassBoundary core bank actCycles s = .next zt) :
    zt.canon := by
  unfold execLanePassBoundary at zh
  cases zh
  try dsimp only
  repeat' (first
    | with_reducible assumption | (simp only [State.canon_mk]; with_reducible refine State.canon_eta ?_)
    | (with_reducible refine ite_canon ?_ ?_)
    | (with_reducible refine State.canon_of_mems (State.passEnded_mems ..) ?_)
    | (with_reducible refine State.canon_of_mems (State.returnToken_mems ..) ?_)
    | (with_reducible refine State.canon_of_mems (State.boundaryRefresh_mems ..) ?_)
    | (with_reducible refine State.laneClose_canon ?_ ..) | (with_reducible refine State.serveWaiting_canon ?_ ..)
    | (with_reducible refine State.canon_of_mems (State.updLaneBank_mems ..) ?_)
    | (with_reducible refine State.canon_of_mems (State.updLaneUnit_mems ..) ?_)
    | (with_reducible refine State.canon_of_mems (State.bump_mems ..) ?_)
    | (with_reducible refine foldl_canon (fun _ _ _ => ?_) ?_ ..)
    | (with_reducible refine foldl1_canon (fun _ _ _ => ?_) ?_ ..) | dsimp only | split)

end Sys2Proof.Machine
end

