-- ==== Sys2Proof/Laws/FrameTiers.lean ====
section
/-! SUPPORT. Frames of Machine/Tiers.lean: what each operation and command leaves alone of the memories and the queue. -/

set_option linter.all false

namespace Sys2Proof.Machine

theorem State.updTier_mems (s : State) (f : Tier → Tier) :
    ((State.updTier s f)).mems = s.mems := by
  unfold State.updTier
  try dsimp only
  repeat' (first
    | with_reducible assumption | (simp only [State.mems_mk]; with_reducible refine (State.mems_eta _).trans ?_)
    | (with_reducible refine ite_mems ?_ ?_) | with_reducible exact State.mems_self _ | dsimp only | split)

theorem State.setObj_mems (s : State) (o : Nat) (x : TierObj) :
    ((State.setObj s o x)).mems = s.mems := by
  unfold State.setObj
  try dsimp only
  repeat' (first
    | with_reducible assumption | (simp only [State.mems_mk]; with_reducible refine (State.mems_eta _).trans ?_)
    | (with_reducible refine ite_mems ?_ ?_) | (with_reducible refine (State.updTier_mems ..).trans ?_)
    | with_reducible exact State.mems_self _ | dsimp only | split)

theorem State.updObj_mems (s : State) (o : Nat) (f : TierObj → TierObj) :
    ((State.updObj s o f)).mems = s.mems := by
  unfold State.updObj
  try dsimp only
  repeat' (first
    | with_reducible assumption | (simp only [State.mems_mk]; with_reducible refine (State.mems_eta _).trans ?_)
    | (with_reducible refine ite_mems ?_ ?_) | (with_reducible refine (State.setObj_mems ..).trans ?_)
    | with_reducible exact State.mems_self _ | dsimp only | split)

theorem State.tierViol_mems (s : State) (op : Nat) (seq : Nat) (field : Nat) (value : Nat) :
    ((State.tierViol s op seq field value)).mems = s.mems := by
  unfold State.tierViol
  try dsimp only
  repeat' (first
    | with_reducible assumption | (simp only [State.mems_mk]; with_reducible refine (State.mems_eta _).trans ?_)
    | (with_reducible refine ite_mems ?_ ?_) | (with_reducible refine (State.viol_mems ..).trans ?_)
    | with_reducible exact State.mems_self _ | dsimp only | split)

theorem State.tierLoad_mems (s : State) :
    ((State.tierLoad s)).mems = s.mems := by
  unfold State.tierLoad
  try dsimp only
  repeat' (first
    | with_reducible assumption | (simp only [State.mems_mk]; with_reducible refine (State.mems_eta _).trans ?_)
    | (with_reducible refine ite_mems ?_ ?_) | (with_reducible refine (State.tierViol_mems ..).trans ?_)
    | (with_reducible refine (State.setObj_mems ..).trans ?_)
    | (with_reducible refine (State.updTier_mems ..).trans ?_)
    | (with_reducible refine (State.setFrame_mems ..).trans ?_)
    | (with_reducible refine (forEach_mems (fun _ _ => ?_) ..).trans ?_)
    | (with_reducible refine (forUpTo_mems (fun _ _ => ?_) ..).trans ?_) | with_reducible exact State.mems_self _
    | dsimp only | split)

theorem State.putFlash_mems (s : State) (o : Nat) (page : Nat) (line : Nat) (tag : Nat) (flags : Nat) (data : List Nat) :
    ((State.putFlash s o page line tag flags data)).mems = s.mems := by
  unfold State.putFlash
  try dsimp only
  repeat' (first
    | with_reducible assumption | (simp only [State.mems_mk]; with_reducible refine (State.mems_eta _).trans ?_)
    | (with_reducible refine ite_mems ?_ ?_) | (with_reducible refine (State.updTier_mems ..).trans ?_)
    | with_reducible exact State.mems_self _ | dsimp only | split)

theorem State.setUnitBlock_mems (s : State) (k : Nat) (b : Nat) :
    ((State.setUnitBlock s k b)).mems = s.mems := by
  unfold State.setUnitBlock
  try dsimp only
  repeat' (first
    | with_reducible assumption | (simp only [State.mems_mk]; with_reducible refine (State.mems_eta _).trans ?_)
    | (with_reducible refine ite_mems ?_ ?_) | (with_reducible refine (State.updTier_mems ..).trans ?_)
    | with_reducible exact State.mems_self _ | dsimp only | split)

theorem State.trainRate_mems (s : State) :
    ((State.trainRate s)).mems = s.mems := by
  unfold State.trainRate
  try dsimp only
  repeat' (first
    | with_reducible assumption | (simp only [State.mems_mk]; with_reducible refine (State.mems_eta _).trans ?_)
    | (with_reducible refine ite_mems ?_ ?_) | (with_reducible refine (State.fresh_mems ..).trans ?_)
    | (with_reducible refine (State.wrF_mems ..).trans ?_) | with_reducible exact State.mems_self _ | dsimp only
    | split)

theorem State.storePage_pend (s : State) (o : Nat) (x : TierObj) (page : Nat) (g : Nat) (frame : Nat) (f : Option Fetch) (remote : List (Nat × Nat × Nat × List Nat)) :
    ((State.storePage s o x page g frame f remote)).pend = s.pend := by
  unfold State.storePage
  try dsimp only
  repeat' (first
    | with_reducible assumption | (simp only [State.pend_mk]; with_reducible refine (State.pend_eta _).trans ?_)
    | (with_reducible refine ite_pend ?_ ?_) | (with_reducible refine (State.snapCopy_pend ..).trans ?_)
    | (with_reducible refine (State.storeLine_pend ..).trans ?_)
    | (with_reducible refine (forUpTo_pend (fun _ _ => ?_) ..).trans ?_) | with_reducible exact State.pend_self _
    | dsimp only | split)

theorem State.storePage_canon {s : State} (hs : s.canon) (o : Nat) (x : TierObj) (page : Nat) (g : Nat) (frame : Nat) (f : Option Fetch) (remote : List (Nat × Nat × Nat × List Nat)) :
    ((State.storePage s o x page g frame f remote)).canon := by
  unfold State.storePage
  try dsimp only
  repeat' (first
    | with_reducible assumption | (simp only [State.canon_mk]; with_reducible refine State.canon_eta ?_)
    | (with_reducible refine ite_canon ?_ ?_) | (with_reducible refine State.snapCopy_canon ?_ ..)
    | (with_reducible refine State.storeLine_canon ?_ ..)
    | (with_reducible refine forUpTo_canon (fun _ _ _ => ?_) ?_ ..) | dsimp only | split)

theorem State.pageWait_mems (s : State) (g : Nat) (pages : List Nat) :
    ((State.pageWait s g pages)).mems = s.mems := by
  unfold State.pageWait
  try dsimp only
  repeat' (first
    | with_reducible assumption | (simp only [State.mems_mk]; with_reducible refine (State.mems_eta _).trans ?_)
    | (with_reducible refine ite_mems ?_ ?_) | (with_reducible refine (State.bump_mems ..).trans ?_)
    | (with_reducible refine (foldl_mems (fun _ _ => ?_) ..).trans ?_)
    | (with_reducible refine (foldl1_mems (fun _ _ => ?_) ..).trans ?_) | with_reducible exact State.mems_self _
    | dsimp only | split)

theorem State.askRemote_mems (s : State) (o : Nat) (x : TierObj) :
    ((State.askRemote s o x)).mems = s.mems := by
  unfold State.askRemote
  try dsimp only
  repeat' (first
    | with_reducible assumption | (simp only [State.mems_mk]; with_reducible refine (State.mems_eta _).trans ?_)
    | (with_reducible refine ite_mems ?_ ?_) | (with_reducible refine (State.send_mems ..).trans ?_)
    | (with_reducible refine (forEach_mems (fun _ _ => ?_) ..).trans ?_) | with_reducible exact State.mems_self _
    | dsimp only | split)

theorem State.tierDone_mems (s : State) (a : TierAnswer) :
    ((State.tierDone s a)).mems = s.mems := by
  unfold State.tierDone
  try dsimp only
  repeat' (first
    | with_reducible assumption | (simp only [State.mems_mk]; with_reducible refine (State.mems_eta _).trans ?_)
    | (with_reducible refine ite_mems ?_ ?_) | (with_reducible refine (State.complete_mems ..).trans ?_)
    | (with_reducible refine (State.selfTmb_mems ..).trans ?_)
    | (with_reducible refine (State.descDoneAt_mems ..).trans ?_) | with_reducible exact State.mems_self _
    | dsimp only | split)

theorem State.tierKeep_mems (s : State) (a : TierAnswer) :
    ((State.tierKeep s a)).mems = s.mems := by
  unfold State.tierKeep
  try dsimp only
  repeat' (first
    | with_reducible assumption | (simp only [State.mems_mk]; with_reducible refine (State.mems_eta _).trans ?_)
    | (with_reducible refine ite_mems ?_ ?_) | (with_reducible refine (State.updTier_mems ..).trans ?_)
    | with_reducible exact State.mems_self _ | dsimp only | split)

theorem State.hostStatus_mems (s : State) (a : TierAnswer) :
    ((State.hostStatus s a)).mems = s.mems := by
  unfold State.hostStatus
  try dsimp only
  repeat' (first
    | with_reducible assumption | (simp only [State.mems_mk]; with_reducible refine (State.mems_eta _).trans ?_)
    | (with_reducible refine ite_mems ?_ ?_) | (with_reducible refine (State.tierKeep_mems ..).trans ?_)
    | (with_reducible refine (State.tierDone_mems ..).trans ?_)
    | (with_reducible refine (State.tierViol_mems ..).trans ?_)
    | (with_reducible refine (State.hostBound_mems ..).trans ?_)
    | (with_reducible refine (State.hostBound_mems' (by assumption)).trans ?_)
    | with_reducible exact State.mems_self _ | dsimp only | split)

theorem State.tierAnswers_mems (s : State) :
    ((State.tierAnswers s)).mems = s.mems := by
  unfold State.tierAnswers
  try dsimp only
  repeat' (first
    | with_reducible assumption | (simp only [State.mems_mk]; with_reducible refine (State.mems_eta _).trans ?_)
    | (with_reducible refine ite_mems ?_ ?_) | (with_reducible refine (State.hostStatus_mems ..).trans ?_)
    | (with_reducible refine (State.tierKeep_mems ..).trans ?_)
    | (with_reducible refine (State.tierDone_mems ..).trans ?_)
    | (with_reducible refine (State.updTier_mems ..).trans ?_)
    | (with_reducible refine (forEach_mems (fun _ _ => ?_) ..).trans ?_) | with_reducible exact State.mems_self _
    | dsimp only | split)

theorem State.tierFinish_pend (s : State) (r : TierReq) (st : Nat) :
    ((State.tierFinish s r st)).pend = s.pend := by
  unfold State.tierFinish
  try dsimp only
  repeat' (first
    | with_reducible assumption | (simp only [State.pend_mk]; with_reducible refine (State.pend_eta _).trans ?_)
    | (with_reducible refine ite_pend ?_ ?_)
    | (with_reducible refine (State.pend_of_mems (State.hostStatus_mems ..)).trans ?_)
    | (with_reducible refine (State.pend_of_mems (State.tierKeep_mems ..)).trans ?_)
    | (with_reducible refine (State.pend_of_mems (State.tierDone_mems ..)).trans ?_)
    | (with_reducible refine (State.pend_of_mems (State.tierViol_mems ..)).trans ?_)
    | (with_reducible refine (State.pend_of_mems (State.updObj_mems ..)).trans ?_)
    | (with_reducible refine (State.writeAt_pend ..).trans ?_) | with_reducible exact State.pend_self _ | dsimp only
    | split)

theorem State.tierFinish_canon {s : State} (hs : s.canon) (r : TierReq) (st : Nat) :
    ((State.tierFinish s r st)).canon := by
  unfold State.tierFinish
  try dsimp only
  repeat' (first
    | with_reducible assumption | (simp only [State.canon_mk]; with_reducible refine State.canon_eta ?_)
    | (with_reducible refine ite_canon ?_ ?_)
    | (with_reducible refine State.canon_of_mems (State.hostStatus_mems ..) ?_)
    | (with_reducible refine State.canon_of_mems (State.tierKeep_mems ..) ?_)
    | (with_reducible refine State.canon_of_mems (State.tierDone_mems ..) ?_)
    | (with_reducible refine State.canon_of_mems (State.tierViol_mems ..) ?_)
    | (with_reducible refine State.canon_of_mems (State.updObj_mems ..) ?_)
    | (with_reducible refine State.writeAt_canon ?_ ..) | dsimp only | split)

theorem State.tierDefer_mems (s : State) (o : Nat) (r : TierReq) :
    ((State.tierDefer s o r)).mems = s.mems := by
  unfold State.tierDefer
  try dsimp only
  repeat' (first
    | with_reducible assumption | (simp only [State.mems_mk]; with_reducible refine (State.mems_eta _).trans ?_)
    | (with_reducible refine ite_mems ?_ ?_) | (with_reducible refine (State.updObj_mems ..).trans ?_)
    | (with_reducible refine (State.bump_mems ..).trans ?_) | with_reducible exact State.mems_self _ | dsimp only
    | split)

theorem State.fenceAll_mems (s : State) (x : TierObj) :
    ((State.fenceAll s x)).mems = s.mems := by
  unfold State.fenceAll
  try dsimp only
  repeat' (first
    | with_reducible assumption | (simp only [State.mems_mk]; with_reducible refine (State.mems_eta _).trans ?_)
    | (with_reducible refine ite_mems ?_ ?_) | (with_reducible refine (State.setFrame_mems ..).trans ?_)
    | (with_reducible refine (forEach_mems (fun _ _ => ?_) ..).trans ?_) | with_reducible exact State.mems_self _
    | dsimp only | split)

theorem State.tierStart_mems (s : State) (o : Nat) (x : TierObj) (st : ObjState) (r : TierReq) (promote : Bool) :
    ((State.tierStart s o x st r promote)).mems = s.mems := by
  unfold State.tierStart
  try dsimp only
  repeat' (first
    | with_reducible assumption | (simp only [State.mems_mk]; with_reducible refine (State.mems_eta _).trans ?_)
    | (with_reducible refine ite_mems ?_ ?_) | (with_reducible refine (State.fenceAll_mems ..).trans ?_)
    | (with_reducible refine (State.askRemote_mems ..).trans ?_)
    | (with_reducible refine (State.setObj_mems ..).trans ?_)
    | (with_reducible refine (State.updTier_mems ..).trans ?_) | with_reducible exact State.mems_self _ | dsimp only
    | split)

theorem State.tierEval_pend (s : State) (r : TierReq) :
    ((State.tierEval s r)).pend = s.pend := by
  unfold State.tierEval
  try dsimp only
  repeat' (first
    | with_reducible assumption | (simp only [State.pend_mk]; with_reducible refine (State.pend_eta _).trans ?_)
    | (with_reducible refine ite_pend ?_ ?_)
    | (with_reducible refine (State.pend_of_mems (State.tierStart_mems ..)).trans ?_)
    | (with_reducible refine (State.pend_of_mems (State.tierDefer_mems ..)).trans ?_)
    | (with_reducible refine (State.tierFinish_pend ..).trans ?_)
    | (with_reducible refine (State.pend_of_mems (State.setObj_mems ..)).trans ?_)
    | (with_reducible refine (State.pend_of_mems (State.bump_mems ..)).trans ?_)
    | with_reducible exact State.pend_self _ | dsimp only | split)

theorem State.tierEval_canon {s : State} (hs : s.canon) (r : TierReq) :
    ((State.tierEval s r)).canon := by
  unfold State.tierEval
  try dsimp only
  repeat' (first
    | with_reducible assumption | (simp only [State.canon_mk]; with_reducible refine State.canon_eta ?_)
    | (with_reducible refine ite_canon ?_ ?_)
    | (with_reducible refine State.canon_of_mems (State.tierStart_mems ..) ?_)
    | (with_reducible refine State.canon_of_mems (State.tierDefer_mems ..) ?_)
    | (with_reducible refine State.tierFinish_canon ?_ ..)
    | (with_reducible refine State.canon_of_mems (State.setObj_mems ..) ?_)
    | (with_reducible refine State.canon_of_mems (State.bump_mems ..) ?_) | dsimp only | split)

theorem State.tierReeval_pend (s : State) (o : Nat) (x2 : Nat) :
    ((State.tierReeval s o x2)).pend = s.pend := by
  induction x2 generalizing s o with
  | zero =>
    unfold State.tierReeval
    try dsimp only
    repeat' (first
      | with_reducible assumption | (simp only [State.pend_mk]; with_reducible refine (State.pend_eta _).trans ?_)
      | (with_reducible refine ite_pend ?_ ?_) | (with_reducible refine (State.tierEval_pend ..).trans ?_)
      | (with_reducible refine (State.pend_of_mems (State.setObj_mems ..)).trans ?_)
      | with_reducible exact State.pend_self _ | dsimp only | split)
  | succ x2 ih =>
    unfold State.tierReeval
    try dsimp only
    repeat' (first
      | with_reducible assumption | (with_reducible refine (ih ..).trans ?_)
      | (simp only [State.pend_mk]; with_reducible refine (State.pend_eta _).trans ?_)
      | (with_reducible refine ite_pend ?_ ?_) | (with_reducible refine (State.tierEval_pend ..).trans ?_)
      | (with_reducible refine (State.pend_of_mems (State.setObj_mems ..)).trans ?_)
      | with_reducible exact State.pend_self _ | dsimp only | split)

theorem State.tierReeval_canon {s : State} (hs : s.canon) (o : Nat) (x2 : Nat) :
    ((State.tierReeval s o x2)).canon := by
  induction x2 generalizing s o with
  | zero =>
    unfold State.tierReeval
    try dsimp only
    repeat' (first
      | with_reducible assumption | (simp only [State.canon_mk]; with_reducible refine State.canon_eta ?_)
      | (with_reducible refine ite_canon ?_ ?_) | (with_reducible refine State.tierEval_canon ?_ ..)
      | (with_reducible refine State.canon_of_mems (State.setObj_mems ..) ?_) | dsimp only | split)
  | succ x2 ih =>
    unfold State.tierReeval
    try dsimp only
    repeat' (first
      | with_reducible assumption | (with_reducible refine ih ?_ ..)
      | (simp only [State.canon_mk]; with_reducible refine State.canon_eta ?_)
      | (with_reducible refine ite_canon ?_ ?_) | (with_reducible refine State.tierEval_canon ?_ ..)
      | (with_reducible refine State.canon_of_mems (State.setObj_mems ..) ?_) | dsimp only | split)

theorem State.evictEnd_pend (s : State) (o : Nat) :
    ((State.evictEnd s o)).pend = s.pend := by
  unfold State.evictEnd
  try dsimp only
  repeat' (first
    | with_reducible assumption | (simp only [State.pend_mk]; with_reducible refine (State.pend_eta _).trans ?_)
    | (with_reducible refine ite_pend ?_ ?_) | (with_reducible refine (State.tierReeval_pend ..).trans ?_)
    | (with_reducible refine (State.tierEval_pend ..).trans ?_)
    | (with_reducible refine (State.tierFinish_pend ..).trans ?_)
    | (with_reducible refine (State.pend_of_mems (State.setObj_mems ..)).trans ?_)
    | (with_reducible refine (State.releaseWrites_pend ..).trans ?_)
    | (with_reducible refine (State.pend_of_mems (State.setFrame_mems ..)).trans ?_)
    | (with_reducible refine (forEach_pend (fun _ _ => ?_) ..).trans ?_) | with_reducible exact State.pend_self _
    | dsimp only | split)

theorem State.evictEnd_canon {s : State} (hs : s.canon) (o : Nat) :
    ((State.evictEnd s o)).canon := by
  unfold State.evictEnd
  try dsimp only
  repeat' (first
    | with_reducible assumption | (simp only [State.canon_mk]; with_reducible refine State.canon_eta ?_)
    | (with_reducible refine ite_canon ?_ ?_) | (with_reducible refine State.tierReeval_canon ?_ ..)
    | (with_reducible refine State.tierEval_canon ?_ ..) | (with_reducible refine State.tierFinish_canon ?_ ..)
    | (with_reducible refine State.canon_of_mems (State.setObj_mems ..) ?_)
    | (with_reducible refine State.releaseWrites_canon ?_ ..)
    | (with_reducible refine State.canon_of_mems (State.setFrame_mems ..) ?_)
    | (with_reducible refine forEach_canon (fun _ _ _ => ?_) ?_ ..) | dsimp only | split)

theorem State.cleanEnd_pend (s : State) (o : Nat) :
    ((State.cleanEnd s o)).pend = s.pend := by
  unfold State.cleanEnd
  try dsimp only
  repeat' (first
    | with_reducible assumption | (simp only [State.pend_mk]; with_reducible refine (State.pend_eta _).trans ?_)
    | (with_reducible refine ite_pend ?_ ?_) | (with_reducible refine (State.tierReeval_pend ..).trans ?_)
    | (with_reducible refine (State.pend_of_mems (State.setObj_mems ..)).trans ?_)
    | with_reducible exact State.pend_self _ | dsimp only | split)

theorem State.cleanEnd_canon {s : State} (hs : s.canon) (o : Nat) :
    ((State.cleanEnd s o)).canon := by
  unfold State.cleanEnd
  try dsimp only
  repeat' (first
    | with_reducible assumption | (simp only [State.canon_mk]; with_reducible refine State.canon_eta ?_)
    | (with_reducible refine ite_canon ?_ ?_) | (with_reducible refine State.tierReeval_canon ?_ ..)
    | (with_reducible refine State.canon_of_mems (State.setObj_mems ..) ?_) | dsimp only | split)

theorem State.flushEnd_pend (s : State) (o : Nat) :
    ((State.flushEnd s o)).pend = s.pend := by
  unfold State.flushEnd
  try dsimp only
  repeat' (first
    | with_reducible assumption | (simp only [State.pend_mk]; with_reducible refine (State.pend_eta _).trans ?_)
    | (with_reducible refine ite_pend ?_ ?_) | (with_reducible refine (State.tierFinish_pend ..).trans ?_)
    | (with_reducible refine (State.pend_of_mems (State.setObj_mems ..)).trans ?_)
    | (with_reducible refine (forEach_pend (fun _ _ => ?_) ..).trans ?_) | with_reducible exact State.pend_self _
    | dsimp only | split)

theorem State.flushEnd_canon {s : State} (hs : s.canon) (o : Nat) :
    ((State.flushEnd s o)).canon := by
  unfold State.flushEnd
  try dsimp only
  repeat' (first
    | with_reducible assumption | (simp only [State.canon_mk]; with_reducible refine State.canon_eta ?_)
    | (with_reducible refine ite_canon ?_ ?_) | (with_reducible refine State.tierFinish_canon ?_ ..)
    | (with_reducible refine State.canon_of_mems (State.setObj_mems ..) ?_)
    | (with_reducible refine forEach_canon (fun _ _ _ => ?_) ?_ ..) | dsimp only | split)

theorem State.flushFail_pend (s : State) (o : Nat) (n : Nat) :
    ((State.flushFail s o n)).pend = s.pend := by
  unfold State.flushFail
  try dsimp only
  repeat' (first
    | with_reducible assumption | (simp only [State.pend_mk]; with_reducible refine (State.pend_eta _).trans ?_)
    | (with_reducible refine ite_pend ?_ ?_) | (with_reducible refine (State.tierReeval_pend ..).trans ?_)
    | (with_reducible refine (State.tierFinish_pend ..).trans ?_)
    | (with_reducible refine (State.pend_of_mems (State.setObj_mems ..)).trans ?_)
    | (with_reducible refine (State.pend_of_mems (State.updTier_mems ..)).trans ?_)
    | (with_reducible refine (State.releaseWrites_pend ..).trans ?_)
    | (with_reducible refine (State.pend_of_mems (State.setFrame_mems ..)).trans ?_)
    | (with_reducible refine (forEach_pend (fun _ _ => ?_) ..).trans ?_) | with_reducible exact State.pend_self _
    | dsimp only | split)

theorem State.flushFail_canon {s : State} (hs : s.canon) (o : Nat) (n : Nat) :
    ((State.flushFail s o n)).canon := by
  unfold State.flushFail
  try dsimp only
  repeat' (first
    | with_reducible assumption | (simp only [State.canon_mk]; with_reducible refine State.canon_eta ?_)
    | (with_reducible refine ite_canon ?_ ?_) | (with_reducible refine State.tierReeval_canon ?_ ..)
    | (with_reducible refine State.tierFinish_canon ?_ ..)
    | (with_reducible refine State.canon_of_mems (State.setObj_mems ..) ?_)
    | (with_reducible refine State.canon_of_mems (State.updTier_mems ..) ?_)
    | (with_reducible refine State.releaseWrites_canon ?_ ..)
    | (with_reducible refine State.canon_of_mems (State.setFrame_mems ..) ?_)
    | (with_reducible refine forEach_canon (fun _ _ _ => ?_) ?_ ..) | dsimp only | split)

theorem State.tierSettle_pend (s : State) (o : Nat) :
    ((State.tierSettle s o)).pend = s.pend := by
  unfold State.tierSettle
  try dsimp only
  repeat' (first
    | with_reducible assumption | (simp only [State.pend_mk]; with_reducible refine (State.pend_eta _).trans ?_)
    | (with_reducible refine ite_pend ?_ ?_) | (with_reducible refine (State.flushEnd_pend ..).trans ?_)
    | (with_reducible refine (State.cleanEnd_pend ..).trans ?_)
    | (with_reducible refine (State.evictEnd_pend ..).trans ?_) | with_reducible exact State.pend_self _ | dsimp only
    | split)

theorem State.tierSettle_canon {s : State} (hs : s.canon) (o : Nat) :
    ((State.tierSettle s o)).canon := by
  unfold State.tierSettle
  try dsimp only
  repeat' (first
    | with_reducible assumption | (simp only [State.canon_mk]; with_reducible refine State.canon_eta ?_)
    | (with_reducible refine ite_canon ?_ ?_) | (with_reducible refine State.flushEnd_canon ?_ ..)
    | (with_reducible refine State.cleanEnd_canon ?_ ..) | (with_reducible refine State.evictEnd_canon ?_ ..)
    | dsimp only | split)

theorem State.tierArrive_pend (s : State) (r : TierReq) :
    ((State.tierArrive s r)).pend = s.pend := by
  unfold State.tierArrive
  try dsimp only
  repeat' (first
    | with_reducible assumption | (simp only [State.pend_mk]; with_reducible refine (State.pend_eta _).trans ?_)
    | (with_reducible refine ite_pend ?_ ?_) | (with_reducible refine (State.tierEval_pend ..).trans ?_)
    | (with_reducible refine (State.tierFinish_pend ..).trans ?_)
    | (with_reducible refine (State.pend_of_mems (State.tierViol_mems ..)).trans ?_)
    | (with_reducible refine (State.pend_of_mems (State.setObj_mems ..)).trans ?_)
    | with_reducible exact State.pend_self _ | dsimp only | split)

theorem State.tierArrive_canon {s : State} (hs : s.canon) (r : TierReq) :
    ((State.tierArrive s r)).canon := by
  unfold State.tierArrive
  try dsimp only
  repeat' (first
    | with_reducible assumption | (simp only [State.canon_mk]; with_reducible refine State.canon_eta ?_)
    | (with_reducible refine ite_canon ?_ ?_) | (with_reducible refine State.tierEval_canon ?_ ..)
    | (with_reducible refine State.tierFinish_canon ?_ ..)
    | (with_reducible refine State.canon_of_mems (State.tierViol_mems ..) ?_)
    | (with_reducible refine State.canon_of_mems (State.setObj_mems ..) ?_) | dsimp only | split)

theorem State.tierRequest_pend (s : State) (src : Nat) (ok : Nat → Bool) :
    ((State.tierRequest s src ok)).pend = s.pend := by
  unfold State.tierRequest
  try dsimp only
  repeat' (first
    | with_reducible assumption | (simp only [State.pend_mk]; with_reducible refine (State.pend_eta _).trans ?_)
    | (with_reducible refine ite_pend ?_ ?_) | (with_reducible refine (State.tierArrive_pend ..).trans ?_)
    | (with_reducible refine (State.pend_of_mems (State.tierViol_mems ..)).trans ?_)
    | (with_reducible refine (State.pend_of_mems (State.updHost_mems ..)).trans ?_)
    | (with_reducible refine (State.pend_of_mems (State.takeEntry_mems ..)).trans ?_)
    | with_reducible exact State.pend_self _ | dsimp only | split)

theorem State.tierRequest_canon {s : State} (hs : s.canon) (src : Nat) (ok : Nat → Bool) :
    ((State.tierRequest s src ok)).canon := by
  unfold State.tierRequest
  try dsimp only
  repeat' (first
    | with_reducible assumption | (simp only [State.canon_mk]; with_reducible refine State.canon_eta ?_)
    | (with_reducible refine ite_canon ?_ ?_) | (with_reducible refine State.tierArrive_canon ?_ ..)
    | (with_reducible refine State.canon_of_mems (State.tierViol_mems ..) ?_)
    | (with_reducible refine State.canon_of_mems (State.updHost_mems ..) ?_)
    | (with_reducible refine State.canon_of_mems (State.takeEntry_mems ..) ?_) | dsimp only | split)

theorem execPromote_pend {src : Nat} {s : State} {zt : State} (zh : execPromote src s = .next zt) :
    zt.pend = s.pend := by
  unfold execPromote at zh
  cases zh
  try dsimp only
  repeat' (first
    | with_reducible assumption | (simp only [State.pend_mk]; with_reducible refine (State.pend_eta _).trans ?_)
    | (with_reducible refine ite_pend ?_ ?_) | (with_reducible refine (State.tierRequest_pend ..).trans ?_)
    | with_reducible exact State.pend_self _ | dsimp only | split)

theorem execPromote_canon {src : Nat} {s : State} {zt : State} (hs : s.canon) (zh : execPromote src s = .next zt) :
    zt.canon := by
  unfold execPromote at zh
  cases zh
  try dsimp only
  repeat' (first
    | with_reducible assumption | (simp only [State.canon_mk]; with_reducible refine State.canon_eta ?_)
    | (with_reducible refine ite_canon ?_ ?_) | (with_reducible refine State.tierRequest_canon ?_ ..) | dsimp only
    | split)

theorem execEvict_pend {src : Nat} {s : State} {zt : State} (zh : execEvict src s = .next zt) :
    zt.pend = s.pend := by
  unfold execEvict at zh
  cases zh
  try dsimp only
  repeat' (first
    | with_reducible assumption | (simp only [State.pend_mk]; with_reducible refine (State.pend_eta _).trans ?_)
    | (with_reducible refine ite_pend ?_ ?_) | (with_reducible refine (State.tierRequest_pend ..).trans ?_)
    | (with_reducible refine (State.tierSettle_pend ..).trans ?_)
    | (with_reducible refine (forEach_pend (fun _ _ => ?_) ..).trans ?_) | with_reducible exact State.pend_self _
    | dsimp only | split)

theorem execEvict_canon {src : Nat} {s : State} {zt : State} (hs : s.canon) (zh : execEvict src s = .next zt) :
    zt.canon := by
  unfold execEvict at zh
  cases zh
  try dsimp only
  repeat' (first
    | with_reducible assumption | (simp only [State.canon_mk]; with_reducible refine State.canon_eta ?_)
    | (with_reducible refine ite_canon ?_ ?_) | (with_reducible refine State.tierRequest_canon ?_ ..)
    | (with_reducible refine State.tierSettle_canon ?_ ..)
    | (with_reducible refine forEach_canon (fun _ _ _ => ?_) ?_ ..) | dsimp only | split)

theorem execPin_pend {src : Nat} {s : State} {zt : State} (zh : execPin src s = .next zt) :
    zt.pend = s.pend := by
  unfold execPin at zh
  cases zh
  try dsimp only
  repeat' (first
    | with_reducible assumption | (simp only [State.pend_mk]; with_reducible refine (State.pend_eta _).trans ?_)
    | (with_reducible refine ite_pend ?_ ?_) | (with_reducible refine (State.tierRequest_pend ..).trans ?_)
    | with_reducible exact State.pend_self _ | dsimp only | split)

theorem execPin_canon {src : Nat} {s : State} {zt : State} (hs : s.canon) (zh : execPin src s = .next zt) :
    zt.canon := by
  unfold execPin at zh
  cases zh
  try dsimp only
  repeat' (first
    | with_reducible assumption | (simp only [State.canon_mk]; with_reducible refine State.canon_eta ?_)
    | (with_reducible refine ite_canon ?_ ?_) | (with_reducible refine State.tierRequest_canon ?_ ..) | dsimp only
    | split)

theorem execUnpin_pend {src : Nat} {s : State} {zt : State} (zh : execUnpin src s = .next zt) :
    zt.pend = s.pend := by
  unfold execUnpin at zh
  cases zh
  try dsimp only
  repeat' (first
    | with_reducible assumption | (simp only [State.pend_mk]; with_reducible refine (State.pend_eta _).trans ?_)
    | (with_reducible refine ite_pend ?_ ?_) | (with_reducible refine (State.tierRequest_pend ..).trans ?_)
    | with_reducible exact State.pend_self _ | dsimp only | split)

theorem execUnpin_canon {src : Nat} {s : State} {zt : State} (hs : s.canon) (zh : execUnpin src s = .next zt) :
    zt.canon := by
  unfold execUnpin at zh
  cases zh
  try dsimp only
  repeat' (first
    | with_reducible assumption | (simp only [State.canon_mk]; with_reducible refine State.canon_eta ?_)
    | (with_reducible refine ite_canon ?_ ?_) | (with_reducible refine State.tierRequest_canon ?_ ..) | dsimp only
    | split)

theorem execFlush_pend {src : Nat} {s : State} {zt : State} (zh : execFlush src s = .next zt) :
    zt.pend = s.pend := by
  unfold execFlush at zh
  cases zh
  try dsimp only
  repeat' (first
    | with_reducible assumption | (simp only [State.pend_mk]; with_reducible refine (State.pend_eta _).trans ?_)
    | (with_reducible refine ite_pend ?_ ?_) | (with_reducible refine (State.tierRequest_pend ..).trans ?_)
    | with_reducible exact State.pend_self _ | dsimp only | split)

theorem execFlush_canon {src : Nat} {s : State} {zt : State} (hs : s.canon) (zh : execFlush src s = .next zt) :
    zt.canon := by
  unfold execFlush at zh
  cases zh
  try dsimp only
  repeat' (first
    | with_reducible assumption | (simp only [State.canon_mk]; with_reducible refine State.canon_eta ?_)
    | (with_reducible refine ite_canon ?_ ?_) | (with_reducible refine State.tierRequest_canon ?_ ..) | dsimp only
    | split)

theorem execPromotePageDone_pend {obj : Nat} {lines : List (Nat × Nat × Nat × List Nat)} {s : State} {zt : State} (zh : execPromotePageDone obj lines s = .next zt) :
    zt.pend = s.pend := by
  unfold execPromotePageDone at zh
  cases zh
  try dsimp only
  repeat' (first
    | with_reducible assumption | (simp only [State.pend_mk]; with_reducible refine (State.pend_eta _).trans ?_)
    | (with_reducible refine ite_pend ?_ ?_) | (with_reducible refine (State.tierReeval_pend ..).trans ?_)
    | (with_reducible refine (State.tierFinish_pend ..).trans ?_)
    | (with_reducible refine (State.pend_of_mems (State.pageWait_mems ..)).trans ?_)
    | (with_reducible refine (State.storePage_pend ..).trans ?_)
    | (with_reducible refine (State.pend_of_mems (State.setObj_mems ..)).trans ?_)
    | (with_reducible refine (State.pend_of_mems (State.updTier_mems ..)).trans ?_)
    | (with_reducible refine (State.pend_of_mems (State.setFrame_mems ..)).trans ?_)
    | (with_reducible refine (State.pend_of_mems (State.bump_mems ..)).trans ?_)
    | (with_reducible refine (forEach_pend (fun _ _ => ?_) ..).trans ?_) | with_reducible exact State.pend_self _
    | dsimp only | split)

theorem execPromotePageDone_canon {obj : Nat} {lines : List (Nat × Nat × Nat × List Nat)} {s : State} {zt : State} (hs : s.canon) (zh : execPromotePageDone obj lines s = .next zt) :
    zt.canon := by
  unfold execPromotePageDone at zh
  cases zh
  try dsimp only
  repeat' (first
    | with_reducible assumption | (simp only [State.canon_mk]; with_reducible refine State.canon_eta ?_)
    | (with_reducible refine ite_canon ?_ ?_) | (with_reducible refine State.tierReeval_canon ?_ ..)
    | (with_reducible refine State.tierFinish_canon ?_ ..)
    | (with_reducible refine State.canon_of_mems (State.pageWait_mems ..) ?_)
    | (with_reducible refine State.storePage_canon ?_ ..)
    | (with_reducible refine State.canon_of_mems (State.setObj_mems ..) ?_)
    | (with_reducible refine State.canon_of_mems (State.updTier_mems ..) ?_)
    | (with_reducible refine State.canon_of_mems (State.setFrame_mems ..) ?_)
    | (with_reducible refine State.canon_of_mems (State.bump_mems ..) ?_)
    | (with_reducible refine forEach_canon (fun _ _ _ => ?_) ?_ ..) | dsimp only | split)

theorem execStagingFrameFree_pend {obj : Nat} {s : State} {zt : State} (zh : execStagingFrameFree obj s = .next zt) :
    zt.pend = s.pend := by
  unfold execStagingFrameFree at zh
  cases zh
  try dsimp only
  repeat' (first
    | with_reducible assumption | (simp only [State.pend_mk]; with_reducible refine (State.pend_eta _).trans ?_)
    | (with_reducible refine ite_pend ?_ ?_) | (with_reducible refine (State.tierSettle_pend ..).trans ?_)
    | (with_reducible refine (State.pend_of_mems (State.setObj_mems ..)).trans ?_)
    | (with_reducible refine (State.pend_of_mems (State.updTier_mems ..)).trans ?_)
    | (with_reducible refine (State.pend_of_mems (State.setFrame_mems ..)).trans ?_)
    | with_reducible exact State.pend_self _ | dsimp only | split)

theorem execStagingFrameFree_canon {obj : Nat} {s : State} {zt : State} (hs : s.canon) (zh : execStagingFrameFree obj s = .next zt) :
    zt.canon := by
  unfold execStagingFrameFree at zh
  cases zh
  try dsimp only
  repeat' (first
    | with_reducible assumption | (simp only [State.canon_mk]; with_reducible refine State.canon_eta ?_)
    | (with_reducible refine ite_canon ?_ ?_) | (with_reducible refine State.tierSettle_canon ?_ ..)
    | (with_reducible refine State.canon_of_mems (State.setObj_mems ..) ?_)
    | (with_reducible refine State.canon_of_mems (State.updTier_mems ..) ?_)
    | (with_reducible refine State.canon_of_mems (State.setFrame_mems ..) ?_) | dsimp only | split)

theorem execStagingCopyDone_pend {obj : Nat} {s : State} {zt : State} (zh : execStagingCopyDone obj s = .next zt) :
    zt.pend = s.pend := by
  unfold execStagingCopyDone at zh
  cases zh
  try dsimp only
  repeat' (first
    | with_reducible assumption | (simp only [State.pend_mk]; with_reducible refine (State.pend_eta _).trans ?_)
    | (with_reducible refine ite_pend ?_ ?_) | (with_reducible refine (State.cleanEnd_pend ..).trans ?_)
    | (with_reducible refine (State.pend_of_mems (State.updTier_mems ..)).trans ?_)
    | (with_reducible refine (State.pend_of_mems (State.dropDelivered_mems ..)).trans ?_)
    | (with_reducible refine (State.unitWait_pend ..).trans ?_)
    | (with_reducible refine (State.releaseWrites_pend ..).trans ?_)
    | (with_reducible refine (State.pend_of_mems (State.setFrame_mems ..)).trans ?_)
    | (with_reducible refine (State.storeLine_pend ..).trans ?_)
    | (with_reducible refine (State.pend_of_mems (State.send_mems ..)).trans ?_)
    | (with_reducible refine (forUpTo_pend (fun _ _ => ?_) ..).trans ?_) | with_reducible exact State.pend_self _
    | dsimp only | split)

theorem execStagingCopyDone_canon {obj : Nat} {s : State} {zt : State} (hs : s.canon) (zh : execStagingCopyDone obj s = .next zt) :
    zt.canon := by
  unfold execStagingCopyDone at zh
  cases zh
  try dsimp only
  repeat' (first
    | with_reducible assumption | (simp only [State.canon_mk]; with_reducible refine State.canon_eta ?_)
    | (with_reducible refine ite_canon ?_ ?_) | (with_reducible refine State.cleanEnd_canon ?_ ..)
    | (with_reducible refine State.canon_of_mems (State.updTier_mems ..) ?_)
    | (with_reducible refine State.canon_of_mems (State.dropDelivered_mems ..) ?_)
    | (with_reducible refine State.unitWait_canon ?_ ..) | (with_reducible refine State.releaseWrites_canon ?_ ..)
    | (with_reducible refine State.canon_of_mems (State.setFrame_mems ..) ?_)
    | (with_reducible refine State.storeLine_canon ?_ ..)
    | (with_reducible refine State.canon_of_mems (State.send_mems ..) ?_)
    | (with_reducible refine forUpTo_canon (fun _ _ _ => ?_) ?_ ..) | dsimp only | split)

theorem State.useSpare_mems (s : State) (d : Nat) :
    ((State.useSpare s d)).mems = s.mems := by
  unfold State.useSpare
  try dsimp only
  repeat' (first
    | with_reducible assumption | (simp only [State.mems_mk]; with_reducible refine (State.mems_eta _).trans ?_)
    | (with_reducible refine ite_mems ?_ ?_) | (with_reducible refine (State.updTier_mems ..).trans ?_)
    | (with_reducible refine (State.queue_mems ..).trans ?_) | with_reducible exact State.mems_self _ | dsimp only
    | split)

theorem State.retireBlock_mems (s : State) (b : Nat) :
    ((State.retireBlock s b)).mems = s.mems := by
  unfold State.retireBlock
  try dsimp only
  repeat' (first
    | with_reducible assumption | (simp only [State.mems_mk]; with_reducible refine (State.mems_eta _).trans ?_)
    | (with_reducible refine ite_mems ?_ ?_) | (with_reducible refine (State.updTier_mems ..).trans ?_)
    | (with_reducible refine (State.bump_mems ..).trans ?_) | with_reducible exact State.mems_self _ | dsimp only
    | split)

theorem State.moveBlock_mems (s : State) (b : Nat) (dst2 : Nat) :
    ((State.moveBlock s b dst2)).mems = s.mems := by
  unfold State.moveBlock
  try dsimp only
  repeat' (first
    | with_reducible assumption | (simp only [State.mems_mk]; with_reducible refine (State.mems_eta _).trans ?_)
    | (with_reducible refine ite_mems ?_ ?_) | (with_reducible refine (State.setUnitBlock_mems ..).trans ?_)
    | (with_reducible refine (State.updTier_mems ..).trans ?_)
    | (with_reducible refine (forEach_mems (fun _ _ => ?_) ..).trans ?_) | with_reducible exact State.mems_self _
    | dsimp only | split)

theorem State.failBlock_mems (s : State) (b : Nat) (d : Nat) :
    ((State.failBlock s b d)).mems = s.mems := by
  unfold State.failBlock
  try dsimp only
  repeat' (first
    | with_reducible assumption | (simp only [State.mems_mk]; with_reducible refine (State.mems_eta _).trans ?_)
    | (with_reducible refine ite_mems ?_ ?_) | (with_reducible refine (State.moveBlock_mems ..).trans ?_)
    | (with_reducible refine (State.retireBlock_mems ..).trans ?_)
    | (with_reducible refine (State.useSpare_mems ..).trans ?_) | with_reducible exact State.mems_self _ | dsimp only
    | split)

theorem State.wbFail_pend (s : State) (t : Staging) :
    ((State.wbFail s t)).pend = s.pend := by
  unfold State.wbFail
  try dsimp only
  repeat' (first
    | with_reducible assumption | (simp only [State.pend_mk]; with_reducible refine (State.pend_eta _).trans ?_)
    | (with_reducible refine ite_pend ?_ ?_) | (with_reducible refine (State.tierSettle_pend ..).trans ?_)
    | (with_reducible refine (State.flushFail_pend ..).trans ?_)
    | (with_reducible refine (State.pend_of_mems (State.updObj_mems ..)).trans ?_)
    | (with_reducible refine (State.pend_of_mems (State.updTier_mems ..)).trans ?_)
    | (with_reducible refine (State.pend_of_mems (State.setFrame_mems ..)).trans ?_)
    | (with_reducible refine (State.pend_of_mems (State.queue_mems ..)).trans ?_)
    | with_reducible exact State.pend_self _ | dsimp only | split)

theorem State.wbFail_canon {s : State} (hs : s.canon) (t : Staging) :
    ((State.wbFail s t)).canon := by
  unfold State.wbFail
  try dsimp only
  repeat' (first
    | with_reducible assumption | (simp only [State.canon_mk]; with_reducible refine State.canon_eta ?_)
    | (with_reducible refine ite_canon ?_ ?_) | (with_reducible refine State.tierSettle_canon ?_ ..)
    | (with_reducible refine State.flushFail_canon ?_ ..)
    | (with_reducible refine State.canon_of_mems (State.updObj_mems ..) ?_)
    | (with_reducible refine State.canon_of_mems (State.updTier_mems ..) ?_)
    | (with_reducible refine State.canon_of_mems (State.setFrame_mems ..) ?_)
    | (with_reducible refine State.canon_of_mems (State.queue_mems ..) ?_) | dsimp only | split)

theorem State.unitData_pend (s : State) (x : TierObj) (t : Staging) (unit : Nat) :
    ((State.unitData s x t unit).1).pend = s.pend := by
  unfold State.unitData
  try dsimp only
  repeat' (first
    | with_reducible assumption | (simp only [State.pend_mk]; with_reducible refine (State.pend_eta _).trans ?_)
    | (with_reducible refine ite_pend ?_ ?_) | (with_reducible refine (State.gateReads_pend ..).trans ?_)
    | (with_reducible refine (State.gateReads_pend' (by assumption)).trans ?_)
    | with_reducible exact State.pend_self _ | dsimp only | split)
theorem State.unitData_pend' {s : State} {x : TierObj} {t : Staging} {unit : Nat} {zr} {zq : State}
    (zh : (State.unitData s x t unit) = (zq, zr)) : zq.pend = s.pend := by
  have := (State.unitData_pend s x t unit)
  rw [zh] at this
  exact this

theorem State.unitData_canon {s : State} (hs : s.canon) (x : TierObj) (t : Staging) (unit : Nat) :
    ((State.unitData s x t unit).1).canon := by
  unfold State.unitData
  try dsimp only
  repeat' (first
    | with_reducible assumption | (simp only [State.canon_mk]; with_reducible refine State.canon_eta ?_)
    | (with_reducible refine ite_canon ?_ ?_) | (with_reducible refine State.gateReads_canon ?_ ..)
    | (with_reducible refine State.gateReads_canon' (by assumption) ?_) | dsimp only | split)
theorem State.unitData_canon' {s : State} {x : TierObj} {t : Staging} {unit : Nat} {zr} {zq : State} (zh : (State.unitData s x t unit) = (zq, zr)) (hs : s.canon) : zq.canon := by
  have := (State.unitData_canon hs x t unit)
  rw [zh] at this
  exact this

theorem State.programUnit_mems (s : State) (v : State) (t : Staging) (unit : Nat) (block : Nat) :
    ((State.programUnit s v t unit block)).mems = s.mems := by
  unfold State.programUnit
  try dsimp only
  repeat' (first
    | with_reducible assumption | (simp only [State.mems_mk]; with_reducible refine (State.mems_eta _).trans ?_)
    | (with_reducible refine ite_mems ?_ ?_) | (with_reducible refine (State.setUnitBlock_mems ..).trans ?_)
    | (with_reducible refine (State.putFlash_mems ..).trans ?_)
    | (with_reducible refine (forEach_mems (fun _ _ => ?_) ..).trans ?_) | with_reducible exact State.mems_self _
    | dsimp only | split)

theorem execFlashProgramDone_pend {obj : Nat} {page : Nat} {unit : Nat} {block : Nat} {ok : Bool} {s : State} {zt : State} (zh : execFlashProgramDone obj page unit block ok s = .next zt) :
    zt.pend = s.pend := by
  unfold execFlashProgramDone at zh
  cases zh
  try dsimp only
  repeat' (first
    | with_reducible assumption | (simp only [State.pend_mk]; with_reducible refine (State.pend_eta _).trans ?_)
    | (with_reducible refine ite_pend ?_ ?_)
    | (with_reducible refine (State.pend_of_mems (State.programUnit_mems ..)).trans ?_)
    | (with_reducible refine (State.unitData_pend ..).trans ?_)
    | (with_reducible refine (State.unitData_pend' (by assumption)).trans ?_)
    | (with_reducible refine (State.wbFail_pend ..).trans ?_)
    | (with_reducible refine (State.pend_of_mems (State.failBlock_mems ..)).trans ?_)
    | (with_reducible refine (State.pend_of_mems (State.retireBlock_mems ..)).trans ?_)
    | (with_reducible refine (State.tierSettle_pend ..).trans ?_)
    | (with_reducible refine (State.pend_of_mems (State.updTier_mems ..)).trans ?_)
    | (with_reducible refine (State.pend_of_mems (State.bump_mems ..)).trans ?_)
    | with_reducible exact State.pend_self _ | dsimp only | split)

theorem execFlashProgramDone_canon {obj : Nat} {page : Nat} {unit : Nat} {block : Nat} {ok : Bool} {s : State} {zt : State} (hs : s.canon) (zh : execFlashProgramDone obj page unit block ok s = .next zt) :
    zt.canon := by
  unfold execFlashProgramDone at zh
  cases zh
  try dsimp only
  repeat' (first
    | with_reducible assumption | (simp only [State.canon_mk]; with_reducible refine State.canon_eta ?_)
    | (with_reducible refine ite_canon ?_ ?_)
    | (with_reducible refine State.canon_of_mems (State.programUnit_mems ..) ?_)
    | (with_reducible refine State.unitData_canon ?_ ..)
    | (with_reducible refine State.unitData_canon' (by assumption) ?_)
    | (with_reducible refine State.wbFail_canon ?_ ..)
    | (with_reducible refine State.canon_of_mems (State.failBlock_mems ..) ?_)
    | (with_reducible refine State.canon_of_mems (State.retireBlock_mems ..) ?_)
    | (with_reducible refine State.tierSettle_canon ?_ ..)
    | (with_reducible refine State.canon_of_mems (State.updTier_mems ..) ?_)
    | (with_reducible refine State.canon_of_mems (State.bump_mems ..) ?_) | dsimp only | split)

theorem State.updWin_mems (s : State) (w : Nat) (f : Window → Window) :
    ((State.updWin s w f)).mems = s.mems := by
  unfold State.updWin
  try dsimp only
  repeat' (first
    | with_reducible assumption | (simp only [State.mems_mk]; with_reducible refine (State.mems_eta _).trans ?_)
    | (with_reducible refine ite_mems ?_ ?_) | (with_reducible refine (State.updTier_mems ..).trans ?_)
    | with_reducible exact State.mems_self _ | dsimp only | split)

theorem State.fillSignal_mems (s : State) (i : Nat) (w : Window) :
    ((State.fillSignal s i w)).mems = s.mems := by
  unfold State.fillSignal
  try dsimp only
  repeat' (first
    | with_reducible assumption | (simp only [State.mems_mk]; with_reducible refine (State.mems_eta _).trans ?_)
    | (with_reducible refine ite_mems ?_ ?_) | (with_reducible refine (State.updWin_mems ..).trans ?_)
    | (with_reducible refine (State.deliverSig_mems ..).trans ?_)
    | (with_reducible refine (forEach_mems (fun _ _ => ?_) ..).trans ?_) | with_reducible exact State.mems_self _
    | dsimp only | split)

theorem execStreamFillStart_pend {win : Nat} {s : State} {zt : State} (zh : execStreamFillStart win s = .next zt) :
    zt.pend = s.pend := by
  unfold execStreamFillStart at zh
  cases zh
  try dsimp only
  repeat' (first
    | with_reducible assumption | (simp only [State.pend_mk]; with_reducible refine (State.pend_eta _).trans ?_)
    | (with_reducible refine ite_pend ?_ ?_)
    | (with_reducible refine (State.pend_of_mems (State.fillSignal_mems ..)).trans ?_)
    | (with_reducible refine (State.pend_of_mems (State.updWin_mems ..)).trans ?_)
    | (with_reducible refine (State.pend_of_mems (State.askRemote_mems ..)).trans ?_)
    | (with_reducible refine (State.pend_of_mems (State.tierViol_mems ..)).trans ?_)
    | (with_reducible refine (State.gateReads_pend ..).trans ?_)
    | (with_reducible refine (State.gateReads_pend' (by assumption)).trans ?_)
    | with_reducible exact State.pend_self _ | dsimp only | split)

theorem execStreamFillStart_canon {win : Nat} {s : State} {zt : State} (hs : s.canon) (zh : execStreamFillStart win s = .next zt) :
    zt.canon := by
  unfold execStreamFillStart at zh
  cases zh
  try dsimp only
  repeat' (first
    | with_reducible assumption | (simp only [State.canon_mk]; with_reducible refine State.canon_eta ?_)
    | (with_reducible refine ite_canon ?_ ?_)
    | (with_reducible refine State.canon_of_mems (State.fillSignal_mems ..) ?_)
    | (with_reducible refine State.canon_of_mems (State.updWin_mems ..) ?_)
    | (with_reducible refine State.canon_of_mems (State.askRemote_mems ..) ?_)
    | (with_reducible refine State.canon_of_mems (State.tierViol_mems ..) ?_)
    | (with_reducible refine State.gateReads_canon ?_ ..)
    | (with_reducible refine State.gateReads_canon' (by assumption) ?_) | dsimp only | split)

theorem execStreamFillDone_pend {win : Nat} {lines : List (Nat × Nat × Nat × Nat × List Nat)} {s : State} {zt : State} (zh : execStreamFillDone win lines s = .next zt) :
    zt.pend = s.pend := by
  unfold execStreamFillDone at zh
  cases zh
  try dsimp only
  repeat' (first
    | with_reducible assumption | (simp only [State.pend_mk]; with_reducible refine (State.pend_eta _).trans ?_)
    | (with_reducible refine ite_pend ?_ ?_)
    | (with_reducible refine (State.pend_of_mems (State.fillSignal_mems ..)).trans ?_)
    | (with_reducible refine (State.pend_of_mems (State.updWin_mems ..)).trans ?_)
    | (with_reducible refine (State.pend_of_mems (State.pageWait_mems ..)).trans ?_)
    | (with_reducible refine (State.storePage_pend ..).trans ?_)
    | (with_reducible refine (State.pend_of_mems (State.updTier_mems ..)).trans ?_)
    | (with_reducible refine (State.pend_of_mems (State.bump_mems ..)).trans ?_)
    | (with_reducible refine (forUpTo_pend (fun _ _ => ?_) ..).trans ?_) | with_reducible exact State.pend_self _
    | dsimp only | split)

theorem execStreamFillDone_canon {win : Nat} {lines : List (Nat × Nat × Nat × Nat × List Nat)} {s : State} {zt : State} (hs : s.canon) (zh : execStreamFillDone win lines s = .next zt) :
    zt.canon := by
  unfold execStreamFillDone at zh
  cases zh
  try dsimp only
  repeat' (first
    | with_reducible assumption | (simp only [State.canon_mk]; with_reducible refine State.canon_eta ?_)
    | (with_reducible refine ite_canon ?_ ?_)
    | (with_reducible refine State.canon_of_mems (State.fillSignal_mems ..) ?_)
    | (with_reducible refine State.canon_of_mems (State.updWin_mems ..) ?_)
    | (with_reducible refine State.canon_of_mems (State.pageWait_mems ..) ?_)
    | (with_reducible refine State.storePage_canon ?_ ..)
    | (with_reducible refine State.canon_of_mems (State.updTier_mems ..) ?_)
    | (with_reducible refine State.canon_of_mems (State.bump_mems ..) ?_)
    | (with_reducible refine forUpTo_canon (fun _ _ _ => ?_) ?_ ..) | dsimp only | split)

theorem execSubstitute_pend {core : Nat} {stream : Nat} {waited : Nat} {s : State} {zt : State} (zh : execSubstitute core stream waited s = .next zt) :
    zt.pend = s.pend := by
  unfold execSubstitute at zh
  cases zh
  try dsimp only
  repeat' (first
    | with_reducible assumption | (simp only [State.pend_mk]; with_reducible refine (State.pend_eta _).trans ?_)
    | (with_reducible refine ite_pend ?_ ?_)
    | (with_reducible refine (State.pend_of_mems (State.wakeHeads_mems ..)).trans ?_)
    | (with_reducible refine (State.pend_of_mems (State.takeShadow_mems ..)).trans ?_)
    | (with_reducible refine (State.gateReads_pend ..).trans ?_)
    | (with_reducible refine (State.gateReads_pend' (by assumption)).trans ?_)
    | with_reducible exact State.pend_self _ | dsimp only | split)

theorem execSubstitute_canon {core : Nat} {stream : Nat} {waited : Nat} {s : State} {zt : State} (hs : s.canon) (zh : execSubstitute core stream waited s = .next zt) :
    zt.canon := by
  unfold execSubstitute at zh
  cases zh
  try dsimp only
  repeat' (first
    | with_reducible assumption | (simp only [State.canon_mk]; with_reducible refine State.canon_eta ?_)
    | (with_reducible refine ite_canon ?_ ?_)
    | (with_reducible refine State.canon_of_mems (State.wakeHeads_mems ..) ?_)
    | (with_reducible refine State.canon_of_mems (State.takeShadow_mems ..) ?_)
    | (with_reducible refine State.gateReads_canon ?_ ..)
    | (with_reducible refine State.gateReads_canon' (by assumption) ?_) | dsimp only | split)

theorem State.placeUnit_mems (s : State) (o : Nat) (page : Nat) (unit : Nat) :
    ((State.placeUnit s o page unit)).mems = s.mems := by
  unfold State.placeUnit
  try dsimp only
  repeat' (first
    | with_reducible assumption | (simp only [State.mems_mk]; with_reducible refine (State.mems_eta _).trans ?_)
    | (with_reducible refine ite_mems ?_ ?_) | (with_reducible refine (State.setUnitBlock_mems ..).trans ?_)
    | with_reducible exact State.mems_self _ | dsimp only | split)

theorem State.space2Flash_mems (s : State) (o : Nat) (byte : Nat) (tag : Nat) (bs : List Nat) :
    ((State.space2Flash s o byte tag bs)).mems = s.mems := by
  unfold State.space2Flash
  try dsimp only
  repeat' (first
    | with_reducible assumption | (simp only [State.mems_mk]; with_reducible refine (State.mems_eta _).trans ?_)
    | (with_reducible refine ite_mems ?_ ?_) | (with_reducible refine (State.placeUnit_mems ..).trans ?_)
    | (with_reducible refine (State.putFlash_mems ..).trans ?_)
    | (with_reducible refine (forEach_mems (fun _ _ => ?_) ..).trans ?_) | with_reducible exact State.mems_self _
    | dsimp only | split)

theorem execSpace2DmaWrite_mems {obj : Nat} {byte : Nat} {tag : Nat} {data : List Nat} {s : State} {zt : State} (zh : execSpace2DmaWrite obj byte tag data s = .next zt) :
    zt.mems = s.mems := by
  unfold execSpace2DmaWrite at zh
  cases zh
  try dsimp only
  repeat' (first
    | with_reducible assumption | (simp only [State.mems_mk]; with_reducible refine (State.mems_eta _).trans ?_)
    | (with_reducible refine ite_mems ?_ ?_) | (with_reducible refine (State.space2Flash_mems ..).trans ?_)
    | (with_reducible refine (State.tierViol_mems ..).trans ?_)
    | (with_reducible refine (State.send_mems ..).trans ?_) | with_reducible exact State.mems_self _ | dsimp only
    | split)

theorem State.noteMove_mems (s : State) (w : MoveWhy) (b : Nat) :
    ((State.noteMove s w b)).mems = s.mems := by
  unfold State.noteMove
  try dsimp only
  repeat' (first
    | with_reducible assumption | (simp only [State.mems_mk]; with_reducible refine (State.mems_eta _).trans ?_)
    | (with_reducible refine ite_mems ?_ ?_) | (with_reducible refine (State.updTier_mems ..).trans ?_)
    | with_reducible exact State.mems_self _ | dsimp only | split)

theorem State.unitDecoded_mems (s : State) (dst : Nat) (obj : Nat) (page : Nat) (unit : Nat) (level : Nat) (corrected : Nat) (failed : List Nat) :
    ((State.unitDecoded s dst obj page unit level corrected failed)).mems = s.mems := by
  unfold State.unitDecoded
  try dsimp only
  repeat' (first
    | with_reducible assumption | (simp only [State.mems_mk]; with_reducible refine (State.mems_eta _).trans ?_)
    | (with_reducible refine ite_mems ?_ ?_) | (with_reducible refine (State.noteMove_mems ..).trans ?_)
    | (with_reducible refine (State.updTier_mems ..).trans ?_)
    | (with_reducible refine (State.queue_mems ..).trans ?_) | (with_reducible refine (State.bump_mems ..).trans ?_)
    | (with_reducible refine (forEach_mems (fun _ _ => ?_) ..).trans ?_) | with_reducible exact State.mems_self _
    | dsimp only | split)

theorem State.readBlock_mems (s : State) (obj : Nat) (page : Nat) (unit : Nat) :
    ((State.readBlock s obj page unit)).mems = s.mems := by
  unfold State.readBlock
  try dsimp only
  repeat' (first
    | with_reducible assumption | (simp only [State.mems_mk]; with_reducible refine (State.mems_eta _).trans ?_)
    | (with_reducible refine ite_mems ?_ ?_) | (with_reducible refine (State.noteMove_mems ..).trans ?_)
    | (with_reducible refine (State.updTier_mems ..).trans ?_) | with_reducible exact State.mems_self _ | dsimp only
    | split)

theorem execFlashUnitRead_mems {dst : Nat} {obj : Nat} {page : Nat} {unit : Nat} {corrected : Nat} {failed : List Nat} {s : State} {zt : State} (zh : execFlashUnitRead dst obj page unit corrected failed s = .next zt) :
    zt.mems = s.mems := by
  unfold execFlashUnitRead at zh
  cases zh
  try dsimp only
  repeat' (first
    | with_reducible assumption | (simp only [State.mems_mk]; with_reducible refine (State.mems_eta _).trans ?_)
    | (with_reducible refine ite_mems ?_ ?_) | (with_reducible refine (State.readBlock_mems ..).trans ?_)
    | (with_reducible refine (State.unitDecoded_mems ..).trans ?_)
    | (with_reducible refine (State.updTier_mems ..).trans ?_) | with_reducible exact State.mems_self _ | dsimp only
    | split)

theorem execReadRetry_mems {dst : Nat} {obj : Nat} {page : Nat} {unit : Nat} {corrected : Nat} {failed : List Nat} {s : State} {zt : State} (zh : execReadRetry dst obj page unit corrected failed s = .next zt) :
    zt.mems = s.mems := by
  unfold execReadRetry at zh
  cases zh
  try dsimp only
  repeat' (first
    | with_reducible assumption | (simp only [State.mems_mk]; with_reducible refine (State.mems_eta _).trans ?_)
    | (with_reducible refine ite_mems ?_ ?_) | (with_reducible refine (State.readBlock_mems ..).trans ?_)
    | (with_reducible refine (State.unitDecoded_mems ..).trans ?_)
    | (with_reducible refine (State.bump_mems ..).trans ?_) | with_reducible exact State.mems_self _ | dsimp only
    | split)

theorem State.relocate_mems (s : State) (w : MoveWhy) (b : Nat) (dst2 : Nat) :
    ((State.relocate s w b dst2)).mems = s.mems := by
  unfold State.relocate
  try dsimp only
  repeat' (first
    | with_reducible assumption | (simp only [State.mems_mk]; with_reducible refine (State.mems_eta _).trans ?_)
    | (with_reducible refine ite_mems ?_ ?_) | (with_reducible refine (State.moveBlock_mems ..).trans ?_)
    | with_reducible exact State.mems_self _ | dsimp only | split)

theorem execRelocate_mems {block : Nat} {dst2 : Nat} {s : State} {zt : State} (zh : execRelocate block dst2 s = .next zt) :
    zt.mems = s.mems := by
  unfold execRelocate at zh
  cases zh
  try dsimp only
  repeat' (first
    | with_reducible assumption | (simp only [State.mems_mk]; with_reducible refine (State.mems_eta _).trans ?_)
    | (with_reducible refine ite_mems ?_ ?_) | (with_reducible refine (State.relocate_mems ..).trans ?_)
    | with_reducible exact State.mems_self _ | dsimp only | split)

theorem execStaticWearLevel_mems {block : Nat} {dst2 : Nat} {s : State} {zt : State} (zh : execStaticWearLevel block dst2 s = .next zt) :
    zt.mems = s.mems := by
  unfold execStaticWearLevel at zh
  cases zh
  try dsimp only
  repeat' (first
    | with_reducible assumption | (simp only [State.mems_mk]; with_reducible refine (State.mems_eta _).trans ?_)
    | (with_reducible refine ite_mems ?_ ?_) | (with_reducible refine (State.relocate_mems ..).trans ?_)
    | (with_reducible refine (State.noteMove_mems ..).trans ?_) | with_reducible exact State.mems_self _ | dsimp only
    | split)

theorem execReadDisturbRelocate_mems {block : Nat} {dst2 : Nat} {s : State} {zt : State} (zh : execReadDisturbRelocate block dst2 s = .next zt) :
    zt.mems = s.mems := by
  unfold execReadDisturbRelocate at zh
  cases zh
  try dsimp only
  repeat' (first
    | with_reducible assumption | (simp only [State.mems_mk]; with_reducible refine (State.mems_eta _).trans ?_)
    | (with_reducible refine ite_mems ?_ ?_) | (with_reducible refine (State.relocate_mems ..).trans ?_)
    | with_reducible exact State.mems_self _ | dsimp only | split)

theorem State.setWear_mems (s : State) :
    ((State.setWear s)).mems = s.mems := by
  unfold State.setWear
  try dsimp only
  repeat' (first
    | with_reducible assumption | (simp only [State.mems_mk]; with_reducible refine (State.mems_eta _).trans ?_)
    | (with_reducible refine ite_mems ?_ ?_) | (with_reducible refine (State.wrF_mems ..).trans ?_)
    | (with_reducible refine (foldl_mems (fun _ _ => ?_) ..).trans ?_)
    | (with_reducible refine (foldl1_mems (fun _ _ => ?_) ..).trans ?_) | with_reducible exact State.mems_self _
    | dsimp only | split)

theorem execBlockEraseDone_mems {block : Nat} {dst2 : Nat} {ok : Bool} {s : State} {zt : State} (zh : execBlockEraseDone block dst2 ok s = .next zt) :
    zt.mems = s.mems := by
  unfold execBlockEraseDone at zh
  cases zh
  try dsimp only
  repeat' (first
    | with_reducible assumption | (simp only [State.mems_mk]; with_reducible refine (State.mems_eta _).trans ?_)
    | (with_reducible refine ite_mems ?_ ?_) | (with_reducible refine (State.setWear_mems ..).trans ?_)
    | (with_reducible refine (State.failBlock_mems ..).trans ?_)
    | (with_reducible refine (State.updTier_mems ..).trans ?_) | with_reducible exact State.mems_self _ | dsimp only
    | split)

theorem execFlashFirstInit_mems {channel : Nat} {luns : List (Nat × Nat × Nat × Nat)} {bad : List Nat} {s : State} {zt : State} (zh : execFlashFirstInit channel luns bad s = .next zt) :
    zt.mems = s.mems := by
  unfold execFlashFirstInit at zh
  cases zh
  try dsimp only
  repeat' (first
    | with_reducible assumption | (simp only [State.mems_mk]; with_reducible refine (State.mems_eta _).trans ?_)
    | (with_reducible refine ite_mems ?_ ?_) | (with_reducible refine (State.trainRate_mems ..).trans ?_)
    | (with_reducible refine (State.updTier_mems ..).trans ?_) | (with_reducible refine (State.wrF_mems ..).trans ?_)
    | (with_reducible refine (foldl_mems (fun _ _ => ?_) ..).trans ?_)
    | (with_reducible refine (foldl1_mems (fun _ _ => ?_) ..).trans ?_) | with_reducible exact State.mems_self _
    | dsimp only | split)

theorem State.tierQuery_mems (s : State) (o : Nat) :
    ((State.tierQuery s o)).mems = s.mems := by
  unfold State.tierQuery
  try dsimp only
  repeat' (first
    | with_reducible assumption | (simp only [State.mems_mk]; with_reducible refine (State.mems_eta _).trans ?_)
    | (with_reducible refine ite_mems ?_ ?_) | (with_reducible refine (State.wr_mems ..).trans ?_)
    | with_reducible exact State.mems_self _ | dsimp only | split)

theorem execTierQuery_mems {obj : Nat} {s : State} {zt : State} (zh : execTierQuery obj s = .next zt) :
    zt.mems = s.mems := by
  unfold execTierQuery at zh
  cases zh
  try dsimp only
  repeat' (first
    | with_reducible assumption | (simp only [State.mems_mk]; with_reducible refine (State.mems_eta _).trans ?_)
    | (with_reducible refine ite_mems ?_ ?_) | (with_reducible refine (State.tierQuery_mems ..).trans ?_)
    | with_reducible exact State.mems_self _ | dsimp only | split)

end Sys2Proof.Machine
end

