-- ==== Sys2Proof/Laws/FrameHost.lean ====
section
/-! SUPPORT. Frames of Machine/Host.lean: what each operation and command leaves alone of the memories and the queue. -/

set_option linter.all false

namespace Sys2Proof.Machine

theorem State.storeDev_pend (s : State) (id : Nat) (a : Nat) (bytes : List Nat) (tag : Nat) :
    ((State.storeDev s id a bytes tag)).pend = s.pend := by
  unfold State.storeDev
  try dsimp only
  repeat' (first
    | with_reducible assumption | (simp only [State.pend_mk]; with_reducible refine (State.pend_eta _).trans ?_)
    | (with_reducible refine ite_pend ?_ ?_)
    | (with_reducible refine (State.pend_of_mems (State.request_mems ..)).trans ?_)
    | (with_reducible refine (State.writeAt_pend ..).trans ?_)
    | (with_reducible refine (forUpTo_pend (fun _ _ => ?_) ..).trans ?_) | with_reducible exact State.pend_self _
    | dsimp only | split)

theorem State.storeDev_canon {s : State} (hs : s.canon) (id : Nat) (a : Nat) (bytes : List Nat) (tag : Nat) :
    ((State.storeDev s id a bytes tag)).canon := by
  unfold State.storeDev
  try dsimp only
  repeat' (first
    | with_reducible assumption | (simp only [State.canon_mk]; with_reducible refine State.canon_eta ?_)
    | (with_reducible refine ite_canon ?_ ?_) | (with_reducible refine State.canon_of_mems (State.request_mems ..) ?_)
    | (with_reducible refine State.writeAt_canon ?_ ..)
    | (with_reducible refine forUpTo_canon (fun _ _ _ => ?_) ?_ ..) | dsimp only | split)

theorem State.updJob_mems (s : State) (id : Nat) (f : HostJob → HostJob) :
    ((State.updJob s id f)).mems = s.mems := by
  unfold State.updJob
  try dsimp only
  repeat' (first
    | with_reducible assumption | (simp only [State.mems_mk]; with_reducible refine (State.mems_eta _).trans ?_)
    | (with_reducible refine ite_mems ?_ ?_) | (with_reducible refine (State.updHost_mems ..).trans ?_)
    | with_reducible exact State.mems_self _ | dsimp only | split)

theorem State.finishJob_mems (s : State) (id : Nat) (status : Nat) (value : Nat) :
    ((State.finishJob s id status value)).mems = s.mems := by
  unfold State.finishJob
  try dsimp only
  repeat' (first
    | with_reducible assumption | (simp only [State.mems_mk]; with_reducible refine (State.mems_eta _).trans ?_)
    | (with_reducible refine ite_mems ?_ ?_) | (with_reducible refine (State.complete_mems ..).trans ?_)
    | (with_reducible refine (State.updHost_mems ..).trans ?_) | with_reducible exact State.mems_self _ | dsimp only
    | split)

theorem State.settleCopy_mems (s : State) (id : Nat) :
    ((State.settleCopy s id)).mems = s.mems := by
  unfold State.settleCopy
  try dsimp only
  repeat' (first
    | with_reducible assumption | (simp only [State.mems_mk]; with_reducible refine (State.mems_eta _).trans ?_)
    | (with_reducible refine ite_mems ?_ ?_) | (with_reducible refine (State.finishJob_mems ..).trans ?_)
    | with_reducible exact State.mems_self _ | dsimp only | split)

theorem State.setQueued_mems (s : State) (n : Nat) (jobs : List Nat) :
    ((State.setQueued s n jobs)).mems = s.mems := by
  unfold State.setQueued
  try dsimp only
  repeat' (first
    | with_reducible assumption | (simp only [State.mems_mk]; with_reducible refine (State.mems_eta _).trans ?_)
    | (with_reducible refine ite_mems ?_ ?_) | (with_reducible refine (State.updHost_mems ..).trans ?_)
    | with_reducible exact State.mems_self _ | dsimp only | split)

theorem State.fetchJobs_mems (s : State) (n : Nat) (x2 : List Nat) :
    ((State.fetchJobs s n x2)).mems = s.mems := by
  induction x2 generalizing s n with
  | nil =>
    unfold State.fetchJobs
    try dsimp only
    repeat' (first
      | with_reducible assumption | (simp only [State.mems_mk]; with_reducible refine (State.mems_eta _).trans ?_)
      | (with_reducible refine ite_mems ?_ ?_) | (with_reducible refine (State.setQueued_mems ..).trans ?_)
      | (with_reducible refine (State.finishJob_mems ..).trans ?_)
      | (with_reducible refine (State.misuse_mems ..).trans ?_)
      | (with_reducible refine (State.updHost_mems ..).trans ?_)
      | (with_reducible refine (State.wrF_mems ..).trans ?_) | with_reducible exact State.mems_self _ | dsimp only
      | split)
  | cons x0 x2 ih =>
    unfold State.fetchJobs
    try dsimp only
    repeat' (first
      | with_reducible assumption | (with_reducible refine (ih ..).trans ?_)
      | (simp only [State.mems_mk]; with_reducible refine (State.mems_eta _).trans ?_)
      | (with_reducible refine ite_mems ?_ ?_) | (with_reducible refine (State.setQueued_mems ..).trans ?_)
      | (with_reducible refine (State.finishJob_mems ..).trans ?_)
      | (with_reducible refine (State.misuse_mems ..).trans ?_)
      | (with_reducible refine (State.updHost_mems ..).trans ?_)
      | (with_reducible refine (State.wrF_mems ..).trans ?_) | with_reducible exact State.mems_self _ | dsimp only
      | split)

theorem State.fetchMore_mems (s : State) :
    ((State.fetchMore s)).mems = s.mems := by
  unfold State.fetchMore
  try dsimp only
  repeat' (first
    | with_reducible assumption | (simp only [State.mems_mk]; with_reducible refine (State.mems_eta _).trans ?_)
    | (with_reducible refine ite_mems ?_ ?_) | (with_reducible refine (State.fetchJobs_mems ..).trans ?_)
    | (with_reducible refine (forEach_mems (fun _ _ => ?_) ..).trans ?_) | with_reducible exact State.mems_self _
    | dsimp only | split)

theorem State.writeTail_mems (s : State) (n : Nat) (value : Nat) :
    ((State.writeTail s n value).1).mems = s.mems := by
  unfold State.writeTail
  try dsimp only
  repeat' (first
    | with_reducible assumption | (simp only [State.mems_mk]; with_reducible refine (State.mems_eta _).trans ?_)
    | (with_reducible refine ite_mems ?_ ?_) | (with_reducible refine (State.misuse_mems ..).trans ?_)
    | (with_reducible refine (State.hostViol_mems ..).trans ?_) | (with_reducible refine (State.wr_mems ..).trans ?_)
    | with_reducible exact State.mems_self _ | dsimp only | split)
theorem State.writeTail_mems' {s : State} {n : Nat} {value : Nat} {zr} {zq : State}
    (zh : (State.writeTail s n value) = (zq, zr)) : zq.mems = s.mems := by
  have := (State.writeTail_mems s n value)
  rw [zh] at this
  exact this

theorem execHostSqTail_mems {ring : Nat} {value : Nat} {jobs : List Nat} {s : State} {zt : State} (zh : execHostSqTail ring value jobs s = .next zt) :
    zt.mems = s.mems := by
  unfold execHostSqTail at zh
  cases zh
  try dsimp only
  repeat' (first
    | with_reducible assumption | (simp only [State.mems_mk]; with_reducible refine (State.mems_eta _).trans ?_)
    | (with_reducible refine ite_mems ?_ ?_) | (with_reducible refine (State.writeTail_mems ..).trans ?_)
    | (with_reducible refine (State.writeTail_mems' (by assumption)).trans ?_)
    | (with_reducible refine (State.fetchJobs_mems ..).trans ?_)
    | (with_reducible refine (State.setQueued_mems ..).trans ?_) | with_reducible exact State.mems_self _ | dsimp only
    | split)

theorem State.writeHead_mems (s : State) (r : RingRegs) (value : Nat) :
    ((State.writeHead s r value)).mems = s.mems := by
  unfold State.writeHead
  try dsimp only
  repeat' (first
    | with_reducible assumption | (simp only [State.mems_mk]; with_reducible refine (State.mems_eta _).trans ?_)
    | (with_reducible refine ite_mems ?_ ?_) | (with_reducible refine (State.drain_mems ..).trans ?_)
    | (with_reducible refine (State.misuse_mems ..).trans ?_)
    | (with_reducible refine (State.hostViol_mems ..).trans ?_) | (with_reducible refine (State.wr_mems ..).trans ?_)
    | with_reducible exact State.mems_self _ | dsimp only | split)

theorem execHostCqHead_mems {ring : Nat} {value : Nat} {s : State} {zt : State} (zh : execHostCqHead ring value s = .next zt) :
    zt.mems = s.mems := by
  unfold execHostCqHead at zh
  cases zh
  try dsimp only
  repeat' (first
    | with_reducible assumption | (simp only [State.mems_mk]; with_reducible refine (State.mems_eta _).trans ?_)
    | (with_reducible refine ite_mems ?_ ?_) | (with_reducible refine (State.writeHead_mems ..).trans ?_)
    | with_reducible exact State.mems_self _ | dsimp only | split)

theorem execHostEvqHead_mems {value : Nat} {s : State} {zt : State} (zh : execHostEvqHead value s = .next zt) :
    zt.mems = s.mems := by
  unfold execHostEvqHead at zh
  cases zh
  try dsimp only
  repeat' (first
    | with_reducible assumption | (simp only [State.mems_mk]; with_reducible refine (State.mems_eta _).trans ?_)
    | (with_reducible refine ite_mems ?_ ?_) | (with_reducible refine (State.writeHead_mems ..).trans ?_)
    | with_reducible exact State.mems_self _ | dsimp only | split)

theorem State.updStep_mems (s : State) (f : StepJob → StepJob) :
    ((State.updStep s f)).mems = s.mems := by
  unfold State.updStep
  try dsimp only
  repeat' (first
    | with_reducible assumption | (simp only [State.mems_mk]; with_reducible refine (State.mems_eta _).trans ?_)
    | (with_reducible refine ite_mems ?_ ?_) | (with_reducible refine (State.updHost_mems ..).trans ?_)
    | with_reducible exact State.mems_self _ | dsimp only | split)

theorem State.failStep_mems (s : State) (j : StepJob) (status : Nat) (value : Nat) :
    ((State.failStep s j status value)).mems = s.mems := by
  unfold State.failStep
  try dsimp only
  repeat' (first
    | with_reducible assumption | (simp only [State.mems_mk]; with_reducible refine (State.mems_eta _).trans ?_)
    | (with_reducible refine ite_mems ?_ ?_) | (with_reducible refine (State.fetchMore_mems ..).trans ?_)
    | (with_reducible refine (State.complete_mems ..).trans ?_)
    | (with_reducible refine (State.updHost_mems ..).trans ?_) | with_reducible exact State.mems_self _ | dsimp only
    | split)

theorem State.writeLr_mems (s : State) (j : StepJob) :
    ((State.writeLr s j)).mems = s.mems := by
  unfold State.writeLr
  try dsimp only
  repeat' (first
    | with_reducible assumption | (simp only [State.mems_mk]; with_reducible refine (State.mems_eta _).trans ?_)
    | (with_reducible refine ite_mems ?_ ?_) | (with_reducible refine (State.request_mems ..).trans ?_)
    | (with_reducible refine (State.wrF_mems ..).trans ?_)
    | (with_reducible refine (forEach_mems (fun _ _ => ?_) ..).trans ?_) | with_reducible exact State.mems_self _
    | dsimp only | split)

theorem State.startCores_mems (s : State) (j : StepJob) :
    ((State.startCores s j)).mems = s.mems := by
  unfold State.startCores
  try dsimp only
  repeat' (first
    | with_reducible assumption | (simp only [State.mems_mk]; with_reducible refine (State.mems_eta _).trans ?_)
    | (with_reducible refine ite_mems ?_ ?_) | (with_reducible refine (State.updStep_mems ..).trans ?_)
    | (with_reducible refine (State.remoteSig_mems ..).trans ?_)
    | (with_reducible refine (State.deliverSig_mems ..).trans ?_)
    | (with_reducible refine (forEach_mems (fun _ _ => ?_) ..).trans ?_) | with_reducible exact State.mems_self _
    | dsimp only | split)

theorem State.dmaViol_mems (s : State) (raw : Nat) (vrank : Nat) (rank : Bool) :
    ((State.dmaViol s raw vrank rank)).mems = s.mems := by
  unfold State.dmaViol
  try dsimp only
  repeat' (first
    | with_reducible assumption | (simp only [State.mems_mk]; with_reducible refine (State.mems_eta _).trans ?_)
    | (with_reducible refine ite_mems ?_ ?_) | (with_reducible refine (State.hubAddrViol_mems ..).trans ?_)
    | with_reducible exact State.mems_self _ | dsimp only | split)

theorem State.stepGo_mems (s : State) (x1 : Nat) :
    ((State.stepGo s x1)).mems = s.mems := by
  induction x1 generalizing s with
  | zero =>
    unfold State.stepGo
    try dsimp only
    repeat' (first
      | with_reducible assumption | (simp only [State.mems_mk]; with_reducible refine (State.mems_eta _).trans ?_)
      | (with_reducible refine ite_mems ?_ ?_) | (with_reducible refine (State.dmaViol_mems ..).trans ?_)
      | (with_reducible refine (State.startCores_mems ..).trans ?_)
      | (with_reducible refine (State.writeLr_mems ..).trans ?_)
      | (with_reducible refine (State.failStep_mems ..).trans ?_)
      | (with_reducible refine (State.updStep_mems ..).trans ?_)
      | (with_reducible refine (State.hostRead_mems ..).trans ?_)
      | (with_reducible refine (State.hostViol_mems ..).trans ?_) | with_reducible exact State.mems_self _
      | dsimp only | split)
  | succ x1 ih =>
    unfold State.stepGo
    try dsimp only
    repeat' (first
      | with_reducible assumption | (with_reducible refine (ih ..).trans ?_)
      | (simp only [State.mems_mk]; with_reducible refine (State.mems_eta _).trans ?_)
      | (with_reducible refine ite_mems ?_ ?_) | (with_reducible refine (State.dmaViol_mems ..).trans ?_)
      | (with_reducible refine (State.startCores_mems ..).trans ?_)
      | (with_reducible refine (State.writeLr_mems ..).trans ?_)
      | (with_reducible refine (State.failStep_mems ..).trans ?_)
      | (with_reducible refine (State.updStep_mems ..).trans ?_)
      | (with_reducible refine (State.hostRead_mems ..).trans ?_)
      | (with_reducible refine (State.hostViol_mems ..).trans ?_) | with_reducible exact State.mems_self _
      | dsimp only | split)

theorem execStep_mems {s : State} {zt : State} (zh : execStep s = .next zt) :
    zt.mems = s.mems := by
  unfold execStep at zh
  cases zh
  try dsimp only
  repeat' (first
    | with_reducible assumption | (simp only [State.mems_mk]; with_reducible refine (State.mems_eta _).trans ?_)
    | (with_reducible refine ite_mems ?_ ?_) | (with_reducible refine (State.stepGo_mems ..).trans ?_)
    | (with_reducible refine (State.fetchMore_mems ..).trans ?_)
    | (with_reducible refine (State.finishJob_mems ..).trans ?_)
    | (with_reducible refine (State.updImg_mems ..).trans ?_)
    | (with_reducible refine (State.hostRead_mems ..).trans ?_)
    | (with_reducible refine (State.hostViol_mems ..).trans ?_)
    | (with_reducible refine (State.updHost_mems ..).trans ?_) | (with_reducible refine (State.send_mems ..).trans ?_)
    | (with_reducible refine (State.wrF_mems ..).trans ?_)
    | (with_reducible refine (forEach_mems (fun _ _ => ?_) ..).trans ?_) | with_reducible exact State.mems_self _
    | dsimp only | split)

theorem State.copyViols_mems (s : State) (raw : Nat) :
    ((State.copyViols s raw)).mems = s.mems := by
  unfold State.copyViols
  try dsimp only
  repeat' (first
    | with_reducible assumption | (simp only [State.mems_mk]; with_reducible refine (State.mems_eta _).trans ?_)
    | (with_reducible refine ite_mems ?_ ?_) | (with_reducible refine (State.hostViol_mems ..).trans ?_)
    | with_reducible exact State.mems_self _ | dsimp only | split)

theorem State.copyRefuse_mems (s : State) (j : HostJob) (st : Nat) :
    ((State.copyRefuse s j st)).mems = s.mems := by
  unfold State.copyRefuse
  try dsimp only
  repeat' (first
    | with_reducible assumption | (simp only [State.mems_mk]; with_reducible refine (State.mems_eta _).trans ?_)
    | (with_reducible refine ite_mems ?_ ?_) | (with_reducible refine (State.copyViols_mems ..).trans ?_)
    | (with_reducible refine (State.dmaViol_mems ..).trans ?_)
    | (with_reducible refine (State.finishJob_mems ..).trans ?_)
    | (with_reducible refine (State.hostViol_mems ..).trans ?_) | with_reducible exact State.mems_self _ | dsimp only
    | split)

theorem execCopyIn_mems {s : State} {zt : State} (zh : execCopyIn s = .next zt) :
    zt.mems = s.mems := by
  unfold execCopyIn at zh
  cases zh
  try dsimp only
  repeat' (first
    | with_reducible assumption | (simp only [State.mems_mk]; with_reducible refine (State.mems_eta _).trans ?_)
    | (with_reducible refine ite_mems ?_ ?_) | (with_reducible refine (State.copyRefuse_mems ..).trans ?_)
    | (with_reducible refine (State.copyViols_mems ..).trans ?_)
    | (with_reducible refine (State.updJob_mems ..).trans ?_)
    | (with_reducible refine (State.hostRead_mems ..).trans ?_) | with_reducible exact State.mems_self _ | dsimp only
    | split)

theorem State.copyOutPut_mems (s : State) (j : HostJob) (first : Nat) (bytes : List Nat) (tag : Nat) :
    ((State.copyOutPut s j first bytes tag).1).mems = s.mems := by
  unfold State.copyOutPut
  try dsimp only
  repeat' (first
    | with_reducible assumption | (simp only [State.mems_mk]; with_reducible refine (State.mems_eta _).trans ?_)
    | (with_reducible refine ite_mems ?_ ?_) | (with_reducible refine (State.updJob_mems ..).trans ?_)
    | (with_reducible refine (State.hostBound_mems ..).trans ?_)
    | (with_reducible refine (State.hostBound_mems' (by assumption)).trans ?_)
    | (with_reducible refine (State.hostViol_mems ..).trans ?_) | with_reducible exact State.mems_self _ | dsimp only
    | split)
theorem State.copyOutPut_mems' {s : State} {j : HostJob} {first : Nat} {bytes : List Nat} {tag : Nat} {zr} {zq : State}
    (zh : (State.copyOutPut s j first bytes tag) = (zq, zr)) : zq.mems = s.mems := by
  have := (State.copyOutPut_mems s j first bytes tag)
  rw [zh] at this
  exact this

theorem State.copyOutGo_pend (s : State) (id : Nat) (a : Nat) (x3 : Nat) :
    ((State.copyOutGo s id a x3)).pend = s.pend := by
  induction x3 generalizing s id a with
  | zero =>
    unfold State.copyOutGo
    try dsimp only
    repeat' (first
      | with_reducible assumption | (simp only [State.pend_mk]; with_reducible refine (State.pend_eta _).trans ?_)
      | (with_reducible refine ite_pend ?_ ?_)
      | (with_reducible refine (State.pend_of_mems (State.copyOutPut_mems ..)).trans ?_)
      | (with_reducible refine (State.pend_of_mems (State.copyOutPut_mems' (by assumption))).trans ?_)
      | (with_reducible refine (State.pend_of_mems (State.settleCopy_mems ..)).trans ?_)
      | (with_reducible refine (State.pend_of_mems (State.updJob_mems ..)).trans ?_)
      | (with_reducible refine (State.pend_of_mems (State.request_mems ..)).trans ?_)
      | (with_reducible refine (State.gateReads_pend ..).trans ?_)
      | (with_reducible refine (State.gateReads_pend' (by assumption)).trans ?_)
      | with_reducible exact State.pend_self _ | dsimp only | split)
  | succ x3 ih =>
    unfold State.copyOutGo
    try dsimp only
    repeat' (first
      | with_reducible assumption | (with_reducible refine (ih ..).trans ?_)
      | (simp only [State.pend_mk]; with_reducible refine (State.pend_eta _).trans ?_)
      | (with_reducible refine ite_pend ?_ ?_)
      | (with_reducible refine (State.pend_of_mems (State.copyOutPut_mems ..)).trans ?_)
      | (with_reducible refine (State.pend_of_mems (State.copyOutPut_mems' (by assumption))).trans ?_)
      | (with_reducible refine (State.pend_of_mems (State.settleCopy_mems ..)).trans ?_)
      | (with_reducible refine (State.pend_of_mems (State.updJob_mems ..)).trans ?_)
      | (with_reducible refine (State.pend_of_mems (State.request_mems ..)).trans ?_)
      | (with_reducible refine (State.gateReads_pend ..).trans ?_)
      | (with_reducible refine (State.gateReads_pend' (by assumption)).trans ?_)
      | with_reducible exact State.pend_self _ | dsimp only | split)

theorem State.copyOutGo_canon {s : State} (hs : s.canon) (id : Nat) (a : Nat) (x3 : Nat) :
    ((State.copyOutGo s id a x3)).canon := by
  induction x3 generalizing s id a with
  | zero =>
    unfold State.copyOutGo
    try dsimp only
    repeat' (first
      | with_reducible assumption | (simp only [State.canon_mk]; with_reducible refine State.canon_eta ?_)
      | (with_reducible refine ite_canon ?_ ?_)
      | (with_reducible refine State.canon_of_mems (State.copyOutPut_mems ..) ?_)
      | (with_reducible refine State.canon_of_mems (State.copyOutPut_mems' (by assumption)) ?_)
      | (with_reducible refine State.canon_of_mems (State.settleCopy_mems ..) ?_)
      | (with_reducible refine State.canon_of_mems (State.updJob_mems ..) ?_)
      | (with_reducible refine State.canon_of_mems (State.request_mems ..) ?_)
      | (with_reducible refine State.gateReads_canon ?_ ..)
      | (with_reducible refine State.gateReads_canon' (by assumption) ?_) | dsimp only | split)
  | succ x3 ih =>
    unfold State.copyOutGo
    try dsimp only
    repeat' (first
      | with_reducible assumption | (with_reducible refine ih ?_ ..)
      | (simp only [State.canon_mk]; with_reducible refine State.canon_eta ?_)
      | (with_reducible refine ite_canon ?_ ?_)
      | (with_reducible refine State.canon_of_mems (State.copyOutPut_mems ..) ?_)
      | (with_reducible refine State.canon_of_mems (State.copyOutPut_mems' (by assumption)) ?_)
      | (with_reducible refine State.canon_of_mems (State.settleCopy_mems ..) ?_)
      | (with_reducible refine State.canon_of_mems (State.updJob_mems ..) ?_)
      | (with_reducible refine State.canon_of_mems (State.request_mems ..) ?_)
      | (with_reducible refine State.gateReads_canon ?_ ..)
      | (with_reducible refine State.gateReads_canon' (by assumption) ?_) | dsimp only | split)

theorem execCopyOut_pend {s : State} {zt : State} (zh : execCopyOut s = .next zt) :
    zt.pend = s.pend := by
  unfold execCopyOut at zh
  cases zh
  try dsimp only
  repeat' (first
    | with_reducible assumption | (simp only [State.pend_mk]; with_reducible refine (State.pend_eta _).trans ?_)
    | (with_reducible refine ite_pend ?_ ?_) | (with_reducible refine (State.copyOutGo_pend ..).trans ?_)
    | (with_reducible refine (State.pend_of_mems (State.copyRefuse_mems ..)).trans ?_)
    | (with_reducible refine (State.pend_of_mems (State.copyViols_mems ..)).trans ?_)
    | (with_reducible refine (State.pend_of_mems (State.finishJob_mems ..)).trans ?_)
    | (with_reducible refine (State.pend_of_mems (State.updJob_mems ..)).trans ?_)
    | (with_reducible refine (State.pend_of_mems (State.hostViol_mems ..)).trans ?_)
    | with_reducible exact State.pend_self _ | dsimp only | split)

theorem execCopyOut_canon {s : State} {zt : State} (hs : s.canon) (zh : execCopyOut s = .next zt) :
    zt.canon := by
  unfold execCopyOut at zh
  cases zh
  try dsimp only
  repeat' (first
    | with_reducible assumption | (simp only [State.canon_mk]; with_reducible refine State.canon_eta ?_)
    | (with_reducible refine ite_canon ?_ ?_) | (with_reducible refine State.copyOutGo_canon ?_ ..)
    | (with_reducible refine State.canon_of_mems (State.copyRefuse_mems ..) ?_)
    | (with_reducible refine State.canon_of_mems (State.copyViols_mems ..) ?_)
    | (with_reducible refine State.canon_of_mems (State.finishJob_mems ..) ?_)
    | (with_reducible refine State.canon_of_mems (State.updJob_mems ..) ?_)
    | (with_reducible refine State.canon_of_mems (State.hostViol_mems ..) ?_) | dsimp only | split)

theorem State.tellGateways_mems (s : State) (kind : Nat) (args : List Nat) :
    ((State.tellGateways s kind args)).mems = s.mems := by
  unfold State.tellGateways
  try dsimp only
  repeat' (first
    | with_reducible assumption | (simp only [State.mems_mk]; with_reducible refine (State.mems_eta _).trans ?_)
    | (with_reducible refine ite_mems ?_ ?_) | (with_reducible refine (State.send_mems ..).trans ?_)
    | (with_reducible refine (forEach_mems (fun _ _ => ?_) ..).trans ?_) | with_reducible exact State.mems_self _
    | dsimp only | split)

theorem State.cqPost_mems (s : State) (n : Nat) (v : Nat) (subst : Bool) :
    ((State.cqPost s n v subst)).mems = s.mems := by
  unfold State.cqPost
  try dsimp only
  repeat' (first
    | with_reducible assumption | (simp only [State.mems_mk]; with_reducible refine (State.mems_eta _).trans ?_)
    | (with_reducible refine ite_mems ?_ ?_) | (with_reducible refine (State.tellGateways_mems ..).trans ?_)
    | (with_reducible refine (State.fetchMore_mems ..).trans ?_)
    | (with_reducible refine (State.complete_mems ..).trans ?_)
    | (with_reducible refine (State.hostViol_mems ..).trans ?_)
    | (with_reducible refine (State.updHost_mems ..).trans ?_)
    | (with_reducible refine (State.request_mems ..).trans ?_) | with_reducible exact State.mems_self _ | dsimp only
    | split)

theorem execHostCqPost_mems {ring : Nat} {value : Nat} {subst : Bool} {s : State} {zt : State} (zh : execHostCqPost ring value subst s = .next zt) :
    zt.mems = s.mems := by
  unfold execHostCqPost at zh
  cases zh
  try dsimp only
  repeat' (first
    | with_reducible assumption | (simp only [State.mems_mk]; with_reducible refine (State.mems_eta _).trans ?_)
    | (with_reducible refine ite_mems ?_ ?_) | (with_reducible refine (State.cqPost_mems ..).trans ?_)
    | with_reducible exact State.mems_self _ | dsimp only | split)

theorem execStepGatewaySelect_mems {attached : List Nat} {holder : Option Nat} {s : State} {zt : State} (zh : execStepGatewaySelect attached holder s = .next zt) :
    zt.mems = s.mems := by
  unfold execStepGatewaySelect at zh
  cases zh
  try dsimp only
  repeat' (first
    | with_reducible assumption | (simp only [State.mems_mk]; with_reducible refine (State.mems_eta _).trans ?_)
    | (with_reducible refine ite_mems ?_ ?_) | (with_reducible refine (State.updHost_mems ..).trans ?_)
    | (with_reducible refine (foldl_mems (fun _ _ => ?_) ..).trans ?_)
    | (with_reducible refine (foldl1_mems (fun _ _ => ?_) ..).trans ?_) | with_reducible exact State.mems_self _
    | dsimp only | split)

theorem State.flushRead_mems (s : State) (i : InMsg) :
    ((State.flushRead s i)).mems = s.mems := by
  unfold State.flushRead
  try dsimp only
  repeat' (first
    | with_reducible assumption | (simp only [State.mems_mk]; with_reducible refine (State.mems_eta _).trans ?_)
    | (with_reducible refine ite_mems ?_ ?_) | (with_reducible refine (State.hostRead_mems ..).trans ?_)
    | (with_reducible refine (State.bump_mems ..).trans ?_) | with_reducible exact State.mems_self _ | dsimp only
    | split)

theorem State.flushReq_mems (s : State) (i : InMsg) :
    ((State.flushReq s i)).mems = s.mems := by
  unfold State.flushReq
  try dsimp only
  repeat' (first
    | with_reducible assumption | (simp only [State.mems_mk]; with_reducible refine (State.mems_eta _).trans ?_)
    | (with_reducible refine ite_mems ?_ ?_) | (with_reducible refine (State.flushRead_mems ..).trans ?_)
    | (with_reducible refine (State.updHost_mems ..).trans ?_)
    | (with_reducible refine (State.reply_mems ..).trans ?_) | with_reducible exact State.mems_self _ | dsimp only
    | split)

theorem State.popMsg_mems (s : State) (src : Nat) :
    ((State.popMsg s src)).mems = s.mems := by
  unfold State.popMsg
  try dsimp only
  repeat' (first
    | with_reducible assumption | (simp only [State.mems_mk]; with_reducible refine (State.mems_eta _).trans ?_)
    | (with_reducible refine ite_mems ?_ ?_) | (with_reducible refine (State.updPrg_mems ..).trans ?_)
    | with_reducible exact State.mems_self _ | dsimp only | split)

theorem State.refuseMsg_mems (s : State) (i : InMsg) (code : Nat) :
    ((State.refuseMsg s i code)).mems = s.mems := by
  unfold State.refuseMsg
  try dsimp only
  repeat' (first
    | with_reducible assumption | (simp only [State.mems_mk]; with_reducible refine (State.mems_eta _).trans ?_)
    | (with_reducible refine ite_mems ?_ ?_) | (with_reducible refine (State.peerViol_mems ..).trans ?_)
    | (with_reducible refine (State.reply_mems ..).trans ?_) | with_reducible exact State.mems_self _ | dsimp only
    | split)

theorem execFlushReq_mems {src : Nat} {s : State} {zt : State} (zh : execFlushReq src s = .next zt) :
    zt.mems = s.mems := by
  unfold execFlushReq at zh
  cases zh
  try dsimp only
  repeat' (first
    | with_reducible assumption | (simp only [State.mems_mk]; with_reducible refine (State.mems_eta _).trans ?_)
    | (with_reducible refine ite_mems ?_ ?_) | (with_reducible refine (State.refuseMsg_mems ..).trans ?_)
    | (with_reducible refine (State.popMsg_mems ..).trans ?_)
    | (with_reducible refine (State.flushReq_mems ..).trans ?_) | with_reducible exact State.mems_self _ | dsimp only
    | split)

theorem State.resendData_mems (s : State) :
    ((State.resendData s)).mems = s.mems := by
  unfold State.resendData
  try dsimp only
  repeat' (first
    | with_reducible assumption | (simp only [State.mems_mk]; with_reducible refine (State.mems_eta _).trans ?_)
    | (with_reducible refine ite_mems ?_ ?_) | (with_reducible refine (State.linkWrite_mems ..).trans ?_)
    | (with_reducible refine (State.updHost_mems ..).trans ?_)
    | (with_reducible refine (forEach_mems (fun _ _ => ?_) ..).trans ?_) | with_reducible exact State.mems_self _
    | dsimp only | split)

theorem State.reattach_mems (s : State) :
    ((State.reattach s)).mems = s.mems := by
  unfold State.reattach
  try dsimp only
  repeat' (first
    | with_reducible assumption | (simp only [State.mems_mk]; with_reducible refine (State.mems_eta _).trans ?_)
    | (with_reducible refine ite_mems ?_ ?_) | (with_reducible refine (State.flushRead_mems ..).trans ?_)
    | (with_reducible refine (State.linkWrite_mems ..).trans ?_)
    | (with_reducible refine (State.gwEvent_mems ..).trans ?_)
    | (with_reducible refine (State.drain_mems ..).trans ?_)
    | (with_reducible refine (State.updHost_mems ..).trans ?_) | (with_reducible refine (State.send_mems ..).trans ?_)
    | (with_reducible refine (State.wrF_mems ..).trans ?_)
    | (with_reducible refine (forEach_mems (fun _ _ => ?_) ..).trans ?_) | with_reducible exact State.mems_self _
    | dsimp only | split)

theorem State.readDone_mems (s : State) (r : HostRd) :
    ((State.readDone s r)).mems = s.mems := by
  unfold State.readDone
  try dsimp only
  repeat' (first
    | with_reducible assumption | (simp only [State.mems_mk]; with_reducible refine (State.mems_eta _).trans ?_)
    | (with_reducible refine ite_mems ?_ ?_) | (with_reducible refine (State.reattach_mems ..).trans ?_)
    | (with_reducible refine (State.delivered_mems ..).trans ?_)
    | (with_reducible refine (State.updHost_mems ..).trans ?_)
    | (with_reducible refine (State.reply_mems ..).trans ?_) | with_reducible exact State.mems_self _ | dsimp only
    | split)

theorem execFlushReadDone_mems {serial : Nat} {s : State} {zt : State} (zh : execFlushReadDone serial s = .next zt) :
    zt.mems = s.mems := by
  unfold execFlushReadDone at zh
  cases zh
  try dsimp only
  repeat' (first
    | with_reducible assumption | (simp only [State.mems_mk]; with_reducible refine (State.mems_eta _).trans ?_)
    | (with_reducible refine ite_mems ?_ ?_) | (with_reducible refine (State.readDone_mems ..).trans ?_)
    | with_reducible exact State.mems_self _ | dsimp only | split)

theorem execProbe_mems {s : State} {zt : State} (zh : execProbe s = .next zt) :
    zt.mems = s.mems := by
  unfold execProbe at zh
  cases zh
  try dsimp only
  repeat' (first
    | with_reducible assumption | (simp only [State.mems_mk]; with_reducible refine (State.mems_eta _).trans ?_)
    | (with_reducible refine ite_mems ?_ ?_) | (with_reducible refine (State.hostRead_mems ..).trans ?_)
    | (with_reducible refine (State.bump_mems ..).trans ?_)
    | (with_reducible refine (foldl_mems (fun _ _ => ?_) ..).trans ?_)
    | (with_reducible refine (foldl1_mems (fun _ _ => ?_) ..).trans ?_) | with_reducible exact State.mems_self _
    | dsimp only | split)

theorem execProbeReadDone_mems {serial : Nat} {s : State} {zt : State} (zh : execProbeReadDone serial s = .next zt) :
    zt.mems = s.mems := by
  unfold execProbeReadDone at zh
  cases zh
  try dsimp only
  repeat' (first
    | with_reducible assumption | (simp only [State.mems_mk]; with_reducible refine (State.mems_eta _).trans ?_)
    | (with_reducible refine ite_mems ?_ ?_) | (with_reducible refine (State.readDone_mems ..).trans ?_)
    | with_reducible exact State.mems_self _ | dsimp only | split)

theorem State.readFail_mems (s : State) (r : HostRd) (status : Nat) :
    ((State.readFail s r status)).mems = s.mems := by
  unfold State.readFail
  try dsimp only
  repeat' (first
    | with_reducible assumption | (simp only [State.mems_mk]; with_reducible refine (State.mems_eta _).trans ?_)
    | (with_reducible refine ite_mems ?_ ?_) | (with_reducible refine (State.stepGo_mems ..).trans ?_)
    | (with_reducible refine (State.updStep_mems ..).trans ?_)
    | (with_reducible refine (State.settleCopy_mems ..).trans ?_)
    | (with_reducible refine (State.updJob_mems ..).trans ?_)
    | (with_reducible refine (State.updHost_mems ..).trans ?_) | with_reducible exact State.mems_self _ | dsimp only
    | split)

theorem State.readData_pend (s : State) (r : HostRd) (data : List Nat) :
    ((State.readData s r data)).pend = s.pend := by
  unfold State.readData
  try dsimp only
  repeat' (first
    | with_reducible assumption | (simp only [State.pend_mk]; with_reducible refine (State.pend_eta _).trans ?_)
    | (with_reducible refine ite_pend ?_ ?_)
    | (with_reducible refine (State.pend_of_mems (State.updStep_mems ..)).trans ?_)
    | (with_reducible refine (State.pend_of_mems (State.settleCopy_mems ..)).trans ?_)
    | (with_reducible refine (State.pend_of_mems (State.updJob_mems ..)).trans ?_)
    | (with_reducible refine (State.storeDev_pend ..).trans ?_)
    | (with_reducible refine (State.pend_of_mems (State.updHost_mems ..)).trans ?_)
    | with_reducible exact State.pend_self _ | dsimp only | split)

theorem State.readData_canon {s : State} (hs : s.canon) (r : HostRd) (data : List Nat) :
    ((State.readData s r data)).canon := by
  unfold State.readData
  try dsimp only
  repeat' (first
    | with_reducible assumption | (simp only [State.canon_mk]; with_reducible refine State.canon_eta ?_)
    | (with_reducible refine ite_canon ?_ ?_) | (with_reducible refine State.canon_of_mems (State.updStep_mems ..) ?_)
    | (with_reducible refine State.canon_of_mems (State.settleCopy_mems ..) ?_)
    | (with_reducible refine State.canon_of_mems (State.updJob_mems ..) ?_)
    | (with_reducible refine State.storeDev_canon ?_ ..)
    | (with_reducible refine State.canon_of_mems (State.updHost_mems ..) ?_) | dsimp only | split)

theorem State.resetPort_mems (s : State) :
    ((State.resetPort s)).mems = s.mems := by
  unfold State.resetPort
  try dsimp only
  repeat' (first
    | with_reducible assumption | (simp only [State.mems_mk]; with_reducible refine (State.mems_eta _).trans ?_)
    | (with_reducible refine ite_mems ?_ ?_) | (with_reducible refine (State.wr_mems ..).trans ?_)
    | (with_reducible refine (forUpTo_mems (fun _ _ => ?_) ..).trans ?_)
    | (with_reducible refine (foldl_mems (fun _ _ => ?_) ..).trans ?_)
    | (with_reducible refine (foldl1_mems (fun _ _ => ?_) ..).trans ?_) | with_reducible exact State.mems_self _
    | dsimp only | split)

theorem State.tearReads_mems (s : State) :
    ((State.tearReads s)).mems = s.mems := by
  unfold State.tearReads
  try dsimp only
  repeat' (first
    | with_reducible assumption | (simp only [State.mems_mk]; with_reducible refine (State.mems_eta _).trans ?_)
    | (with_reducible refine ite_mems ?_ ?_) | (with_reducible refine (State.updHost_mems ..).trans ?_)
    | (with_reducible refine (State.reply_mems ..).trans ?_)
    | (with_reducible refine (forEach_mems (fun _ _ => ?_) ..).trans ?_) | with_reducible exact State.mems_self _
    | dsimp only | split)

theorem State.detach_mems (s : State) (cause : Nat) :
    ((State.detach s cause)).mems = s.mems := by
  unfold State.detach
  try dsimp only
  repeat' (first
    | with_reducible assumption | (simp only [State.mems_mk]; with_reducible refine (State.mems_eta _).trans ?_)
    | (with_reducible refine ite_mems ?_ ?_) | (with_reducible refine (State.tearReads_mems ..).trans ?_)
    | (with_reducible refine (State.resetPort_mems ..).trans ?_)
    | (with_reducible refine (State.tornAdd_mems ..).trans ?_)
    | (with_reducible refine (State.gwEvent_mems ..).trans ?_)
    | (with_reducible refine (State.pushEntry_mems ..).trans ?_)
    | (with_reducible refine (State.updHost_mems ..).trans ?_)
    | (with_reducible refine (State.reply_mems ..).trans ?_) | (with_reducible refine (State.bump_mems ..).trans ?_)
    | (with_reducible refine (State.wrF_mems ..).trans ?_)
    | (with_reducible refine (forEach_mems (fun _ _ => ?_) ..).trans ?_) | with_reducible exact State.mems_self _
    | dsimp only | split)

theorem execPerstN_mems {s : State} {zt : State} (zh : execPerstN s = .next zt) :
    zt.mems = s.mems := by
  unfold execPerstN at zh
  cases zh
  try dsimp only
  repeat' (first
    | with_reducible assumption | (simp only [State.mems_mk]; with_reducible refine (State.mems_eta _).trans ?_)
    | (with_reducible refine ite_mems ?_ ?_) | (with_reducible refine (State.detach_mems ..).trans ?_)
    | with_reducible exact State.mems_self _ | dsimp only | split)

theorem execHotReset_mems {s : State} {zt : State} (zh : execHotReset s = .next zt) :
    zt.mems = s.mems := by
  unfold execHotReset at zh
  cases zh
  try dsimp only
  repeat' (first
    | with_reducible assumption | (simp only [State.mems_mk]; with_reducible refine (State.mems_eta _).trans ?_)
    | (with_reducible refine ite_mems ?_ ?_) | (with_reducible refine (State.detach_mems ..).trans ?_)
    | with_reducible exact State.mems_self _ | dsimp only | split)

theorem execLinkDisable_mems {s : State} {zt : State} (zh : execLinkDisable s = .next zt) :
    zt.mems = s.mems := by
  unfold execLinkDisable at zh
  cases zh
  try dsimp only
  repeat' (first
    | with_reducible assumption | (simp only [State.mems_mk]; with_reducible refine (State.mems_eta _).trans ?_)
    | (with_reducible refine ite_mems ?_ ?_) | (with_reducible refine (State.detach_mems ..).trans ?_)
    | with_reducible exact State.mems_self _ | dsimp only | split)

theorem execDataLinkDown_mems {s : State} {zt : State} (zh : execDataLinkDown s = .next zt) :
    zt.mems = s.mems := by
  unfold execDataLinkDown at zh
  cases zh
  try dsimp only
  repeat' (first
    | with_reducible assumption | (simp only [State.mems_mk]; with_reducible refine (State.mems_eta _).trans ?_)
    | (with_reducible refine ite_mems ?_ ?_) | (with_reducible refine (State.detach_mems ..).trans ?_)
    | with_reducible exact State.mems_self _ | dsimp only | split)

theorem execBmeClear_mems {s : State} {zt : State} (zh : execBmeClear s = .next zt) :
    zt.mems = s.mems := by
  unfold execBmeClear at zh
  cases zh
  try dsimp only
  repeat' (first
    | with_reducible assumption | (simp only [State.mems_mk]; with_reducible refine (State.mems_eta _).trans ?_)
    | (with_reducible refine ite_mems ?_ ?_) | (with_reducible refine (State.detach_mems ..).trans ?_)
    | with_reducible exact State.mems_self _ | dsimp only | split)

theorem execFunctionLevelReset_mems {s : State} {zt : State} (zh : execFunctionLevelReset s = .next zt) :
    zt.mems = s.mems := by
  unfold execFunctionLevelReset at zh
  cases zh
  try dsimp only
  repeat' (first
    | with_reducible assumption | (simp only [State.mems_mk]; with_reducible refine (State.mems_eta _).trans ?_)
    | (with_reducible refine ite_mems ?_ ?_) | (with_reducible refine (State.detach_mems ..).trans ?_)
    | with_reducible exact State.mems_self _ | dsimp only | split)

theorem execDetach_mems {s : State} {zt : State} (zh : execDetach s = .next zt) :
    zt.mems = s.mems := by
  unfold execDetach at zh
  cases zh
  try dsimp only
  repeat' (first
    | with_reducible assumption | (simp only [State.mems_mk]; with_reducible refine (State.mems_eta _).trans ?_)
    | (with_reducible refine ite_mems ?_ ?_) | (with_reducible refine (State.detach_mems ..).trans ?_)
    | with_reducible exact State.mems_self _ | dsimp only | split)

theorem State.linkUp_mems (s : State) :
    ((State.linkUp s)).mems = s.mems := by
  unfold State.linkUp
  try dsimp only
  repeat' (first
    | with_reducible assumption | (simp only [State.mems_mk]; with_reducible refine (State.mems_eta _).trans ?_)
    | (with_reducible refine ite_mems ?_ ?_) | (with_reducible refine (State.fresh_mems ..).trans ?_)
    | (with_reducible refine (State.wr_mems ..).trans ?_) | with_reducible exact State.mems_self _ | dsimp only
    | split)

theorem State.linkSeen_mems (s : State) :
    ((State.linkSeen s)).mems = s.mems := by
  unfold State.linkSeen
  try dsimp only
  repeat' (first
    | with_reducible assumption | (simp only [State.mems_mk]; with_reducible refine (State.mems_eta _).trans ?_)
    | (with_reducible refine ite_mems ?_ ?_) | (with_reducible refine (State.linkUp_mems ..).trans ?_)
    | with_reducible exact State.mems_self _ | dsimp only | split)

theorem State.attachCmd_mems (s : State) (epoch : Nat) :
    ((State.attachCmd s epoch)).mems = s.mems := by
  unfold State.attachCmd
  try dsimp only
  repeat' (first
    | with_reducible assumption | (simp only [State.mems_mk]; with_reducible refine (State.mems_eta _).trans ?_)
    | (with_reducible refine ite_mems ?_ ?_) | (with_reducible refine (State.linkSeen_mems ..).trans ?_)
    | (with_reducible refine (State.resendData_mems ..).trans ?_)
    | (with_reducible refine (State.hostRead_mems ..).trans ?_)
    | (with_reducible refine (State.hostViol_mems ..).trans ?_) | (with_reducible refine (State.wrF_mems ..).trans ?_)
    | with_reducible exact State.mems_self _ | dsimp only | split)

theorem execAttach_mems {epoch : Nat} {s : State} {zt : State} (zh : execAttach epoch s = .next zt) :
    zt.mems = s.mems := by
  unfold execAttach at zh
  cases zh
  try dsimp only
  repeat' (first
    | with_reducible assumption | (simp only [State.mems_mk]; with_reducible refine (State.mems_eta _).trans ?_)
    | (with_reducible refine ite_mems ?_ ?_) | (with_reducible refine (State.attachCmd_mems ..).trans ?_)
    | with_reducible exact State.mems_self _ | dsimp only | split)

theorem State.writeWin_mems (s : State) (w : Nat) (cfg : Bool) (v : Nat) :
    ((State.writeWin s w cfg v)).mems = s.mems := by
  unfold State.writeWin
  try dsimp only
  repeat' (first
    | with_reducible assumption | (simp only [State.mems_mk]; with_reducible refine (State.mems_eta _).trans ?_)
    | (with_reducible refine ite_mems ?_ ?_) | (with_reducible refine (State.hostViol_mems ..).trans ?_)
    | (with_reducible refine (State.wr_mems ..).trans ?_) | with_reducible exact State.mems_self _ | dsimp only
    | split)

theorem execHostWinCfg_mems {win : Nat} {value : Nat} {cfg : Bool} {s : State} {zt : State} (zh : execHostWinCfg win value cfg s = .next zt) :
    zt.mems = s.mems := by
  unfold execHostWinCfg at zh
  cases zh
  try dsimp only
  repeat' (first
    | with_reducible assumption | (simp only [State.mems_mk]; with_reducible refine (State.mems_eta _).trans ?_)
    | (with_reducible refine ite_mems ?_ ?_) | (with_reducible refine (State.writeWin_mems ..).trans ?_)
    | with_reducible exact State.mems_self _ | dsimp only | split)

theorem State.writeRing_mems (s : State) (kind : Nat) (n : Nat) (base : Bool) (v : Nat) :
    ((State.writeRing s kind n base v)).mems = s.mems := by
  unfold State.writeRing
  try dsimp only
  repeat' (first
    | with_reducible assumption | (simp only [State.mems_mk]; with_reducible refine (State.mems_eta _).trans ?_)
    | (with_reducible refine ite_mems ?_ ?_) | (with_reducible refine (State.drain_mems ..).trans ?_)
    | (with_reducible refine (State.misuse_mems ..).trans ?_)
    | (with_reducible refine (State.hostViol_mems ..).trans ?_)
    | (with_reducible refine (State.updHost_mems ..).trans ?_) | (with_reducible refine (State.wr_mems ..).trans ?_)
    | with_reducible exact State.mems_self _ | dsimp only | split)

theorem execHostRingCfg_mems {kind : Nat} {ring : Nat} {value : Nat} {base : Bool} {s : State} {zt : State} (zh : execHostRingCfg kind ring value base s = .next zt) :
    zt.mems = s.mems := by
  unfold execHostRingCfg at zh
  cases zh
  try dsimp only
  repeat' (first
    | with_reducible assumption | (simp only [State.mems_mk]; with_reducible refine (State.mems_eta _).trans ?_)
    | (with_reducible refine ite_mems ?_ ?_) | (with_reducible refine (State.writeRing_mems ..).trans ?_)
    | with_reducible exact State.mems_self _ | dsimp only | split)

end Sys2Proof.Machine
end

