-- ==== Sys2Proof/Laws/FramePwrOps.lean ====
section
/-! SUPPORT. Frames of Machine/PwrOps.lean: what each operation and command leaves alone of the memories and the queue. -/

set_option linter.all false

namespace Sys2Proof.Machine

theorem State.updPwr_mems (s : State) (f : Pwr → Pwr) :
    ((State.updPwr s f)).mems = s.mems := by
  unfold State.updPwr
  try dsimp only
  repeat' (first
    | with_reducible assumption | (simp only [State.mems_mk]; with_reducible refine (State.mems_eta _).trans ?_)
    | (with_reducible refine ite_mems ?_ ?_) | with_reducible exact State.mems_self _ | dsimp only | split)

theorem State.setGrant_mems (s : State) (i : Nat) (n : Nat) :
    ((State.setGrant s i n)).mems = s.mems := by
  unfold State.setGrant
  try dsimp only
  repeat' (first
    | with_reducible assumption | (simp only [State.mems_mk]; with_reducible refine (State.mems_eta _).trans ?_)
    | (with_reducible refine ite_mems ?_ ?_) | (with_reducible refine (State.updPwr_mems ..).trans ?_)
    | (with_reducible refine (State.setCoreState_mems ..).trans ?_)
    | (with_reducible refine (State.wrF_mems ..).trans ?_) | with_reducible exact State.mems_self _ | dsimp only
    | split)

theorem State.serveAsks_mems (s : State) (d : Nat) (x2 : Nat) :
    ((State.serveAsks s d x2)).mems = s.mems := by
  induction x2 generalizing s d with
  | zero =>
    unfold State.serveAsks
    try dsimp only
    repeat' (first
      | with_reducible assumption | (simp only [State.mems_mk]; with_reducible refine (State.mems_eta _).trans ?_)
      | (with_reducible refine ite_mems ?_ ?_) | (with_reducible refine (State.setGrant_mems ..).trans ?_)
      | (with_reducible refine (State.updPwr_mems ..).trans ?_) | with_reducible exact State.mems_self _ | dsimp only
      | split)
  | succ x2 ih =>
    unfold State.serveAsks
    try dsimp only
    repeat' (first
      | with_reducible assumption | (with_reducible refine (ih ..).trans ?_)
      | (simp only [State.mems_mk]; with_reducible refine (State.mems_eta _).trans ?_)
      | (with_reducible refine ite_mems ?_ ?_) | (with_reducible refine (State.setGrant_mems ..).trans ?_)
      | (with_reducible refine (State.updPwr_mems ..).trans ?_) | with_reducible exact State.mems_self _ | dsimp only
      | split)

theorem State.askGrant_mems (s : State) (i : Nat) (n : Nat) :
    ((State.askGrant s i n)).mems = s.mems := by
  unfold State.askGrant
  try dsimp only
  repeat' (first
    | with_reducible assumption | (simp only [State.mems_mk]; with_reducible refine (State.mems_eta _).trans ?_)
    | (with_reducible refine ite_mems ?_ ?_) | (with_reducible refine (State.serveAsks_mems ..).trans ?_)
    | (with_reducible refine (State.updPwr_mems ..).trans ?_) | with_reducible exact State.mems_self _ | dsimp only
    | split)

theorem State.cutGrants_mems (s : State) (x1 : List Nat) (x2 : Nat) :
    ((State.cutGrants s x1 x2)).mems = s.mems := by
  induction x1 generalizing s x2 with
  | nil =>
    unfold State.cutGrants
    try dsimp only
    repeat' (first
      | with_reducible assumption | (simp only [State.mems_mk]; with_reducible refine (State.mems_eta _).trans ?_)
      | (with_reducible refine ite_mems ?_ ?_) | (with_reducible refine (State.setGrant_mems ..).trans ?_)
      | with_reducible exact State.mems_self _ | dsimp only | split)
  | cons x0 x1 ih =>
    unfold State.cutGrants
    try dsimp only
    repeat' (first
      | with_reducible assumption | (with_reducible refine (ih ..).trans ?_)
      | (simp only [State.mems_mk]; with_reducible refine (State.mems_eta _).trans ?_)
      | (with_reducible refine ite_mems ?_ ?_) | (with_reducible refine (State.setGrant_mems ..).trans ?_)
      | with_reducible exact State.mems_self _ | dsimp only | split)

theorem State.setCap_mems (s : State) (d : Nat) (cap : Nat) :
    ((State.setCap s d cap)).mems = s.mems := by
  unfold State.setCap
  try dsimp only
  repeat' (first
    | with_reducible assumption | (simp only [State.mems_mk]; with_reducible refine (State.mems_eta _).trans ?_)
    | (with_reducible refine ite_mems ?_ ?_) | (with_reducible refine (State.cutGrants_mems ..).trans ?_)
    | (with_reducible refine (State.serveAsks_mems ..).trans ?_)
    | (with_reducible refine (State.wrF_mems ..).trans ?_) | with_reducible exact State.mems_self _ | dsimp only
    | split)

theorem State.returnGrant_mems (s : State) (i : Nat) :
    ((State.returnGrant s i)).mems = s.mems := by
  unfold State.returnGrant
  try dsimp only
  repeat' (first
    | with_reducible assumption | (simp only [State.mems_mk]; with_reducible refine (State.mems_eta _).trans ?_)
    | (with_reducible refine ite_mems ?_ ?_) | (with_reducible refine (State.serveAsks_mems ..).trans ?_)
    | (with_reducible refine (State.setGrant_mems ..).trans ?_)
    | (with_reducible refine (State.updPwr_mems ..).trans ?_) | with_reducible exact State.mems_self _ | dsimp only
    | split)

theorem State.lendGrant_mems (s : State) (g : Nat) :
    ((State.lendGrant s g)).mems = s.mems := by
  unfold State.lendGrant
  try dsimp only
  repeat' (first
    | with_reducible assumption | (simp only [State.mems_mk]; with_reducible refine (State.mems_eta _).trans ?_)
    | (with_reducible refine ite_mems ?_ ?_) | (with_reducible refine (State.serveAsks_mems ..).trans ?_)
    | (with_reducible refine (State.setGrant_mems ..).trans ?_)
    | (with_reducible refine (State.updPwr_mems ..).trans ?_) | with_reducible exact State.mems_self _ | dsimp only
    | split)

end Sys2Proof.Machine
end

