-- ==== Sys2Proof/Laws/FrameMatrix.lean ====
section
/-! SUPPORT. Frames of Machine/Matrix.lean: what each operation and command leaves alone of the memories and the queue. -/

set_option linter.all false

namespace Sys2Proof.Machine

theorem State.updHng_mems (s : State) (g : Nat) (f : Hng → Hng) :
    ((State.updHng s g f)).mems = s.mems := by
  unfold State.updHng
  try dsimp only
  repeat' (first
    | with_reducible assumption | (simp only [State.mems_mk]; with_reducible refine (State.mems_eta _).trans ?_)
    | (with_reducible refine ite_mems ?_ ?_) | (with_reducible refine (State.updCore_mems ..).trans ?_)
    | with_reducible exact State.mems_self _ | dsimp only | split)

theorem State.updHngJob_mems (s : State) (g : Nat) (f : HngJob → HngJob) :
    ((State.updHngJob s g f)).mems = s.mems := by
  unfold State.updHngJob
  try dsimp only
  repeat' (first
    | with_reducible assumption | (simp only [State.mems_mk]; with_reducible refine (State.mems_eta _).trans ?_)
    | (with_reducible refine ite_mems ?_ ?_) | (with_reducible refine (State.updHng_mems ..).trans ?_)
    | with_reducible exact State.mems_self _ | dsimp only | split)

theorem State.hngViols_mems (s : State) (g : Nat) (seq : Nat) (x : HngDesc) :
    ((State.hngViols s g seq x)).mems = s.mems := by
  unfold State.hngViols
  try dsimp only
  repeat' (first
    | with_reducible assumption | (simp only [State.mems_mk]; with_reducible refine (State.mems_eta _).trans ?_)
    | (with_reducible refine ite_mems ?_ ?_) | (with_reducible refine (State.coreAddrViol_mems ..).trans ?_)
    | (with_reducible refine (State.viols'_mems ..).trans ?_)
    | (with_reducible refine (forEach_mems (fun _ _ => ?_) ..).trans ?_) | with_reducible exact State.mems_self _
    | dsimp only | split)

theorem State.hngTurn_mems (s : State) (g : Nat) (d : Nat) (x : HngDesc) :
    ((State.hngTurn s g d x).1).mems = s.mems := by
  unfold State.hngTurn
  try dsimp only
  repeat' (first
    | with_reducible assumption | (simp only [State.mems_mk]; with_reducible refine (State.mems_eta _).trans ?_)
    | (with_reducible refine ite_mems ?_ ?_) | (with_reducible refine (State.updHng_mems ..).trans ?_)
    | (with_reducible refine (State.bump_mems ..).trans ?_) | with_reducible exact State.mems_self _ | dsimp only
    | split)
theorem State.hngTurn_mems' {s : State} {g : Nat} {d : Nat} {x : HngDesc} {zr} {zq : State}
    (zh : (State.hngTurn s g d x) = (zq, zr)) : zq.mems = s.mems := by
  have := (State.hngTurn_mems s g d x)
  rw [zh] at this
  exact this

theorem State.hngFinish_mems (s : State) (g : Nat) (j : HngJob) (cs : List CensusSet) :
    ((State.hngFinish s g j cs)).mems = s.mems := by
  unfold State.hngFinish
  try dsimp only
  repeat' (first
    | with_reducible assumption | (simp only [State.mems_mk]; with_reducible refine (State.mems_eta _).trans ?_)
    | (with_reducible refine ite_mems ?_ ?_) | (with_reducible refine (State.updHng_mems ..).trans ?_)
    | (with_reducible refine (State.descDone_mems ..).trans ?_)
    | (with_reducible refine (State.rcmpDone_mems ..).trans ?_) | with_reducible exact State.mems_self _ | dsimp only
    | split)

theorem State.hngStart_mems (s : State) (g : Nat) (d : Nat) (pos : Nat) (eval : Bool) (rcmp : Bool) :
    ((State.hngStart s g d pos eval rcmp)).mems = s.mems := by
  unfold State.hngStart
  try dsimp only
  repeat' (first
    | with_reducible assumption | (simp only [State.mems_mk]; with_reducible refine (State.mems_eta _).trans ?_)
    | (with_reducible refine ite_mems ?_ ?_) | (with_reducible refine (State.hngFinish_mems ..).trans ?_)
    | (with_reducible refine (State.hngTurn_mems ..).trans ?_)
    | (with_reducible refine (State.hngTurn_mems' (by assumption)).trans ?_)
    | (with_reducible refine (State.hngViols_mems ..).trans ?_)
    | (with_reducible refine (State.updHng_mems ..).trans ?_)
    | (with_reducible refine (State.descDone_mems ..).trans ?_)
    | (with_reducible refine (State.viol_mems ..).trans ?_) | (with_reducible refine (State.bump_mems ..).trans ?_)
    | (with_reducible refine (State.wr_mems ..).trans ?_) | with_reducible exact State.mems_self _ | dsimp only
    | split)

theorem State.pinTile_mems (s : State) (v : State) (g : Nat) (d : Nat) (x : HngDesc) (j : HngJob) (ti : Nat) (tj : Nat) (c : Nat) :
    ((State.pinTile s v g d x j ti tj c)).mems = s.mems := by
  unfold State.pinTile
  try dsimp only
  repeat' (first
    | with_reducible assumption | (simp only [State.mems_mk]; with_reducible refine (State.mems_eta _).trans ?_)
    | (with_reducible refine ite_mems ?_ ?_) | (with_reducible refine (State.updHng_mems ..).trans ?_)
    | (with_reducible refine (foldl_mems (fun _ _ => ?_) ..).trans ?_)
    | (with_reducible refine (foldl1_mems (fun _ _ => ?_) ..).trans ?_) | with_reducible exact State.mems_self _
    | dsimp only | split)

theorem State.hngAhead_pend (s : State) (g : Nat) (x : HngDesc) (a : Opnd) (b : Opnd) (ti : Nat) (tj : Nat) (c : Nat) :
    ((State.hngAhead s g x a b ti tj c)).pend = s.pend := by
  unfold State.hngAhead
  try dsimp only
  repeat' (first
    | with_reducible assumption | (simp only [State.pend_mk]; with_reducible refine (State.pend_eta _).trans ?_)
    | (with_reducible refine ite_pend ?_ ?_) | (with_reducible refine (State.unitWait_pend ..).trans ?_)
    | (with_reducible refine (forEach_pend (fun _ _ => ?_) ..).trans ?_) | with_reducible exact State.pend_self _
    | dsimp only | split)

theorem State.hngAhead_canon {s : State} (hs : s.canon) (g : Nat) (x : HngDesc) (a : Opnd) (b : Opnd) (ti : Nat) (tj : Nat) (c : Nat) :
    ((State.hngAhead s g x a b ti tj c)).canon := by
  unfold State.hngAhead
  try dsimp only
  repeat' (first
    | with_reducible assumption | (simp only [State.canon_mk]; with_reducible refine State.canon_eta ?_)
    | (with_reducible refine ite_canon ?_ ?_) | (with_reducible refine State.unitWait_canon ?_ ..)
    | (with_reducible refine forEach_canon (fun _ _ _ => ?_) ?_ ..) | dsimp only | split)

theorem State.hngRepin_mems (s : State) (g : Nat) (j : HngJob) :
    ((State.hngRepin s g j)).mems = s.mems := by
  unfold State.hngRepin
  try dsimp only
  repeat' (first
    | with_reducible assumption | (simp only [State.mems_mk]; with_reducible refine (State.mems_eta _).trans ?_)
    | (with_reducible refine ite_mems ?_ ?_) | (with_reducible refine (State.updHngJob_mems ..).trans ?_)
    | (with_reducible refine (State.bump_mems ..).trans ?_) | with_reducible exact State.mems_self _ | dsimp only
    | split)

theorem State.hngOpen_pend (s : State) (g : Nat) (j : HngJob) :
    ((State.hngOpen s g j).1).pend = s.pend := by
  unfold State.hngOpen
  try dsimp only
  repeat' (first
    | with_reducible assumption | (simp only [State.pend_mk]; with_reducible refine (State.pend_eta _).trans ?_)
    | (with_reducible refine ite_pend ?_ ?_)
    | (with_reducible refine (State.pend_of_mems (State.updHng_mems ..)).trans ?_)
    | (with_reducible refine (State.gateReads_pend ..).trans ?_)
    | (with_reducible refine (State.gateReads_pend' (by assumption)).trans ?_)
    | with_reducible exact State.pend_self _ | dsimp only | split)
theorem State.hngOpen_pend' {s : State} {g : Nat} {j : HngJob} {zr} {zq : State}
    (zh : (State.hngOpen s g j) = (zq, zr)) : zq.pend = s.pend := by
  have := (State.hngOpen_pend s g j)
  rw [zh] at this
  exact this

theorem State.hngOpen_canon {s : State} (hs : s.canon) (g : Nat) (j : HngJob) :
    ((State.hngOpen s g j).1).canon := by
  unfold State.hngOpen
  try dsimp only
  repeat' (first
    | with_reducible assumption | (simp only [State.canon_mk]; with_reducible refine State.canon_eta ?_)
    | (with_reducible refine ite_canon ?_ ?_) | (with_reducible refine State.canon_of_mems (State.updHng_mems ..) ?_)
    | (with_reducible refine State.gateReads_canon ?_ ..)
    | (with_reducible refine State.gateReads_canon' (by assumption) ?_) | dsimp only | split)
theorem State.hngOpen_canon' {s : State} {g : Nat} {j : HngJob} {zr} {zq : State} (zh : (State.hngOpen s g j) = (zq, zr)) (hs : s.canon) : zq.canon := by
  have := (State.hngOpen_canon hs g j)
  rw [zh] at this
  exact this

theorem State.hngChunk_pend (s : State) (g : Nat) (j : HngJob) (i : Nat) (b : Bank) :
    ((State.hngChunk s g j i b).1).pend = s.pend := by
  unfold State.hngChunk
  try dsimp only
  repeat' (first
    | with_reducible assumption | (simp only [State.pend_mk]; with_reducible refine (State.pend_eta _).trans ?_)
    | (with_reducible refine ite_pend ?_ ?_)
    | (with_reducible refine (State.pend_of_mems (State.hngRepin_mems ..)).trans ?_)
    | (with_reducible refine (State.hngAhead_pend ..).trans ?_)
    | (with_reducible refine (State.pend_of_mems (State.pinTile_mems ..)).trans ?_)
    | (with_reducible refine (State.pend_of_mems (State.updHng_mems ..)).trans ?_)
    | (with_reducible refine (State.gateReads_pend ..).trans ?_)
    | (with_reducible refine (State.gateReads_pend' (by assumption)).trans ?_)
    | (with_reducible refine (State.pend_of_mems (State.bump_mems ..)).trans ?_)
    | with_reducible exact State.pend_self _ | dsimp only | split)
theorem State.hngChunk_pend' {s : State} {g : Nat} {j : HngJob} {i : Nat} {b : Bank} {zr} {zq : State}
    (zh : (State.hngChunk s g j i b) = (zq, zr)) : zq.pend = s.pend := by
  have := (State.hngChunk_pend s g j i b)
  rw [zh] at this
  exact this

theorem State.hngChunk_canon {s : State} (hs : s.canon) (g : Nat) (j : HngJob) (i : Nat) (b : Bank) :
    ((State.hngChunk s g j i b).1).canon := by
  unfold State.hngChunk
  try dsimp only
  repeat' (first
    | with_reducible assumption | (simp only [State.canon_mk]; with_reducible refine State.canon_eta ?_)
    | (with_reducible refine ite_canon ?_ ?_)
    | (with_reducible refine State.canon_of_mems (State.hngRepin_mems ..) ?_)
    | (with_reducible refine State.hngAhead_canon ?_ ..)
    | (with_reducible refine State.canon_of_mems (State.pinTile_mems ..) ?_)
    | (with_reducible refine State.canon_of_mems (State.updHng_mems ..) ?_)
    | (with_reducible refine State.gateReads_canon ?_ ..)
    | (with_reducible refine State.gateReads_canon' (by assumption) ?_)
    | (with_reducible refine State.canon_of_mems (State.bump_mems ..) ?_) | dsimp only | split)
theorem State.hngChunk_canon' {s : State} {g : Nat} {j : HngJob} {i : Nat} {b : Bank} {zr} {zq : State} (zh : (State.hngChunk s g j i b) = (zq, zr)) (hs : s.canon) : zq.canon := by
  have := (State.hngChunk_canon hs g j i b)
  rw [zh] at this
  exact this

theorem State.hngStep_pend (s : State) (g : Nat) (j : HngJob) :
    ((State.hngStep s g j).1).pend = s.pend := by
  unfold State.hngStep
  try dsimp only
  repeat' (first
    | with_reducible assumption | (simp only [State.pend_mk]; with_reducible refine (State.pend_eta _).trans ?_)
    | (with_reducible refine ite_pend ?_ ?_) | (with_reducible refine (State.hngChunk_pend ..).trans ?_)
    | (with_reducible refine (State.hngChunk_pend' (by assumption)).trans ?_)
    | (with_reducible refine (State.hngOpen_pend ..).trans ?_)
    | (with_reducible refine (State.hngOpen_pend' (by assumption)).trans ?_) | with_reducible exact State.pend_self _
    | dsimp only | split)
theorem State.hngStep_pend' {s : State} {g : Nat} {j : HngJob} {zr} {zq : State}
    (zh : (State.hngStep s g j) = (zq, zr)) : zq.pend = s.pend := by
  have := (State.hngStep_pend s g j)
  rw [zh] at this
  exact this

theorem State.hngStep_canon {s : State} (hs : s.canon) (g : Nat) (j : HngJob) :
    ((State.hngStep s g j).1).canon := by
  unfold State.hngStep
  try dsimp only
  repeat' (first
    | with_reducible assumption | (simp only [State.canon_mk]; with_reducible refine State.canon_eta ?_)
    | (with_reducible refine ite_canon ?_ ?_) | (with_reducible refine State.hngChunk_canon ?_ ..)
    | (with_reducible refine State.hngChunk_canon' (by assumption) ?_)
    | (with_reducible refine State.hngOpen_canon ?_ ..)
    | (with_reducible refine State.hngOpen_canon' (by assumption) ?_) | dsimp only | split)
theorem State.hngStep_canon' {s : State} {g : Nat} {j : HngJob} {zr} {zq : State} (zh : (State.hngStep s g j) = (zq, zr)) (hs : s.canon) : zq.canon := by
  have := (State.hngStep_canon hs g j)
  rw [zh] at this
  exact this

theorem State.hngSteps_pend (s : State) (g : Nat) (x2 : Nat) :
    ((State.hngSteps s g x2)).pend = s.pend := by
  induction x2 generalizing s g with
  | zero =>
    unfold State.hngSteps
    try dsimp only
    repeat' (first
      | with_reducible assumption | (simp only [State.pend_mk]; with_reducible refine (State.pend_eta _).trans ?_)
      | (with_reducible refine ite_pend ?_ ?_) | (with_reducible refine (State.hngStep_pend ..).trans ?_)
      | (with_reducible refine (State.hngStep_pend' (by assumption)).trans ?_)
      | with_reducible exact State.pend_self _ | dsimp only | split)
  | succ x2 ih =>
    unfold State.hngSteps
    try dsimp only
    repeat' (first
      | with_reducible assumption | (with_reducible refine (ih ..).trans ?_)
      | (simp only [State.pend_mk]; with_reducible refine (State.pend_eta _).trans ?_)
      | (with_reducible refine ite_pend ?_ ?_) | (with_reducible refine (State.hngStep_pend ..).trans ?_)
      | (with_reducible refine (State.hngStep_pend' (by assumption)).trans ?_)
      | with_reducible exact State.pend_self _ | dsimp only | split)

theorem State.hngSteps_canon {s : State} (hs : s.canon) (g : Nat) (x2 : Nat) :
    ((State.hngSteps s g x2)).canon := by
  induction x2 generalizing s g with
  | zero =>
    unfold State.hngSteps
    try dsimp only
    repeat' (first
      | with_reducible assumption | (simp only [State.canon_mk]; with_reducible refine State.canon_eta ?_)
      | (with_reducible refine ite_canon ?_ ?_) | (with_reducible refine State.hngStep_canon ?_ ..)
      | (with_reducible refine State.hngStep_canon' (by assumption) ?_) | dsimp only | split)
  | succ x2 ih =>
    unfold State.hngSteps
    try dsimp only
    repeat' (first
      | with_reducible assumption | (with_reducible refine ih ?_ ..)
      | (simp only [State.canon_mk]; with_reducible refine State.canon_eta ?_)
      | (with_reducible refine ite_canon ?_ ?_) | (with_reducible refine State.hngStep_canon ?_ ..)
      | (with_reducible refine State.hngStep_canon' (by assumption) ?_) | dsimp only | split)

theorem State.hngClose_mems (s : State) (g : Nat) :
    ((State.hngClose s g)).mems = s.mems := by
  unfold State.hngClose
  try dsimp only
  repeat' (first
    | with_reducible assumption | (simp only [State.mems_mk]; with_reducible refine (State.mems_eta _).trans ?_)
    | (with_reducible refine ite_mems ?_ ?_) | (with_reducible refine (State.hngFinish_mems ..).trans ?_)
    | (with_reducible refine (State.viol_mems ..).trans ?_) | with_reducible exact State.mems_self _ | dsimp only
    | split)

theorem State.hngStalls_mems (s : State) (g : Nat) (n : Nat) :
    ((State.hngStalls s g n)).mems = s.mems := by
  unfold State.hngStalls
  try dsimp only
  repeat' (first
    | with_reducible assumption | (simp only [State.mems_mk]; with_reducible refine (State.mems_eta _).trans ?_)
    | (with_reducible refine ite_mems ?_ ?_) | (with_reducible refine (State.bump_mems ..).trans ?_)
    | with_reducible exact State.mems_self _ | dsimp only | split)

theorem execMatrixProduct_pend {core : Nat} {chunks : Nat} {stall : Nat} {after : Nat} {s : State} {zt : State} (zh : execMatrixProduct core chunks stall after s = .next zt) :
    zt.pend = s.pend := by
  unfold execMatrixProduct at zh
  cases zh
  try dsimp only
  repeat' (first
    | with_reducible assumption | (simp only [State.pend_mk]; with_reducible refine (State.pend_eta _).trans ?_)
    | (with_reducible refine ite_pend ?_ ?_)
    | (with_reducible refine (State.pend_of_mems (State.hngStalls_mems ..)).trans ?_)
    | (with_reducible refine (State.pend_of_mems (State.hngClose_mems ..)).trans ?_)
    | (with_reducible refine (State.hngSteps_pend ..).trans ?_)
    | (with_reducible refine (State.pend_of_mems (State.hngStart_mems ..)).trans ?_)
    | with_reducible exact State.pend_self _ | dsimp only | split)

theorem execMatrixProduct_canon {core : Nat} {chunks : Nat} {stall : Nat} {after : Nat} {s : State} {zt : State} (hs : s.canon) (zh : execMatrixProduct core chunks stall after s = .next zt) :
    zt.canon := by
  unfold execMatrixProduct at zh
  cases zh
  try dsimp only
  repeat' (first
    | with_reducible assumption | (simp only [State.canon_mk]; with_reducible refine State.canon_eta ?_)
    | (with_reducible refine ite_canon ?_ ?_)
    | (with_reducible refine State.canon_of_mems (State.hngStalls_mems ..) ?_)
    | (with_reducible refine State.canon_of_mems (State.hngClose_mems ..) ?_)
    | (with_reducible refine State.hngSteps_canon ?_ ..)
    | (with_reducible refine State.canon_of_mems (State.hngStart_mems ..) ?_) | dsimp only | split)

theorem State.hngDeliver_pend (s : State) (g : Nat) (x : HngDesc) (j : HngJob) (b : Bank) :
    ((State.hngDeliver s g x j b).1).pend = s.pend := by
  unfold State.hngDeliver
  try dsimp only
  repeat' (first
    | with_reducible assumption | (simp only [State.pend_mk]; with_reducible refine (State.pend_eta _).trans ?_)
    | (with_reducible refine ite_pend ?_ ?_)
    | (with_reducible refine (State.pend_of_mems (State.updHng_mems ..)).trans ?_)
    | (with_reducible refine (State.pend_of_mems (State.slotAddAll_mems ..)).trans ?_)
    | (with_reducible refine (State.pend_of_mems (State.slotAddAll_mems' (by assumption))).trans ?_)
    | (with_reducible refine (State.storeTile_pend ..).trans ?_) | with_reducible exact State.pend_self _ | dsimp only
    | split)
theorem State.hngDeliver_pend' {s : State} {g : Nat} {x : HngDesc} {j : HngJob} {b : Bank} {zr} {zq : State}
    (zh : (State.hngDeliver s g x j b) = (zq, zr)) : zq.pend = s.pend := by
  have := (State.hngDeliver_pend s g x j b)
  rw [zh] at this
  exact this

theorem State.hngDeliver_canon {s : State} (hs : s.canon) (g : Nat) (x : HngDesc) (j : HngJob) (b : Bank) :
    ((State.hngDeliver s g x j b).1).canon := by
  unfold State.hngDeliver
  try dsimp only
  repeat' (first
    | with_reducible assumption | (simp only [State.canon_mk]; with_reducible refine State.canon_eta ?_)
    | (with_reducible refine ite_canon ?_ ?_) | (with_reducible refine State.canon_of_mems (State.updHng_mems ..) ?_)
    | (with_reducible refine State.canon_of_mems (State.slotAddAll_mems ..) ?_)
    | (with_reducible refine State.canon_of_mems (State.slotAddAll_mems' (by assumption)) ?_)
    | (with_reducible refine State.storeTile_canon ?_ ..) | dsimp only | split)
theorem State.hngDeliver_canon' {s : State} {g : Nat} {x : HngDesc} {j : HngJob} {b : Bank} {zr} {zq : State} (zh : (State.hngDeliver s g x j b) = (zq, zr)) (hs : s.canon) : zq.canon := by
  have := (State.hngDeliver_canon hs g x j b)
  rw [zh] at this
  exact this

theorem State.hngLast_mems (s : State) (g : Nat) (j : HngJob) (x : HngDesc) :
    ((State.hngLast s g j x)).mems = s.mems := by
  unfold State.hngLast
  try dsimp only
  repeat' (first
    | with_reducible assumption | (simp only [State.mems_mk]; with_reducible refine (State.mems_eta _).trans ?_)
    | (with_reducible refine ite_mems ?_ ?_) | (with_reducible refine (State.hngFinish_mems ..).trans ?_)
    | (with_reducible refine (State.updHng_mems ..).trans ?_) | (with_reducible refine (State.viol_mems ..).trans ?_)
    | with_reducible exact State.mems_self _ | dsimp only | split)

theorem State.hngArrive_mems (s : State) (g : Nat) :
    ((State.hngArrive s g)).mems = s.mems := by
  unfold State.hngArrive
  try dsimp only
  repeat' (first
    | with_reducible assumption | (simp only [State.mems_mk]; with_reducible refine (State.mems_eta _).trans ?_)
    | (with_reducible refine ite_mems ?_ ?_) | (with_reducible refine (State.hngLast_mems ..).trans ?_)
    | (with_reducible refine (State.selfTmb_mems ..).trans ?_) | with_reducible exact State.mems_self _ | dsimp only
    | split)

theorem State.hngLeave_pend (s : State) (g : Nat) (j : HngJob) (x : HngDesc) (i : Nat) (b : Bank) :
    ((State.hngLeave s g j x i b)).pend = s.pend := by
  unfold State.hngLeave
  try dsimp only
  repeat' (first
    | with_reducible assumption | (simp only [State.pend_mk]; with_reducible refine (State.pend_eta _).trans ?_)
    | (with_reducible refine ite_pend ?_ ?_) | (with_reducible refine (State.hngDeliver_pend ..).trans ?_)
    | (with_reducible refine (State.hngDeliver_pend' (by assumption)).trans ?_)
    | (with_reducible refine (State.pend_of_mems (State.updHng_mems ..)).trans ?_)
    | (with_reducible refine (State.pend_of_mems (State.carryTotals_mems ..)).trans ?_)
    | with_reducible exact State.pend_self _ | dsimp only | split)

theorem State.hngLeave_canon {s : State} (hs : s.canon) (g : Nat) (j : HngJob) (x : HngDesc) (i : Nat) (b : Bank) :
    ((State.hngLeave s g j x i b)).canon := by
  unfold State.hngLeave
  try dsimp only
  repeat' (first
    | with_reducible assumption | (simp only [State.canon_mk]; with_reducible refine State.canon_eta ?_)
    | (with_reducible refine ite_canon ?_ ?_) | (with_reducible refine State.hngDeliver_canon ?_ ..)
    | (with_reducible refine State.hngDeliver_canon' (by assumption) ?_)
    | (with_reducible refine State.canon_of_mems (State.updHng_mems ..) ?_)
    | (with_reducible refine State.canon_of_mems (State.carryTotals_mems ..) ?_) | dsimp only | split)

theorem execTileWriteOut_pend {core : Nat} {wait : Nat} {s : State} {zt : State} (zh : execTileWriteOut core wait s = .next zt) :
    zt.pend = s.pend := by
  unfold execTileWriteOut at zh
  cases zh
  try dsimp only
  repeat' (first
    | with_reducible assumption | (simp only [State.pend_mk]; with_reducible refine (State.pend_eta _).trans ?_)
    | (with_reducible refine ite_pend ?_ ?_) | (with_reducible refine (State.hngLeave_pend ..).trans ?_)
    | (with_reducible refine (State.pend_of_mems (State.hngArrive_mems ..)).trans ?_)
    | (with_reducible refine (State.pend_of_mems (State.hngStalls_mems ..)).trans ?_)
    | with_reducible exact State.pend_self _ | dsimp only | split)

theorem execTileWriteOut_canon {core : Nat} {wait : Nat} {s : State} {zt : State} (hs : s.canon) (zh : execTileWriteOut core wait s = .next zt) :
    zt.canon := by
  unfold execTileWriteOut at zh
  cases zh
  try dsimp only
  repeat' (first
    | with_reducible assumption | (simp only [State.canon_mk]; with_reducible refine State.canon_eta ?_)
    | (with_reducible refine ite_canon ?_ ?_) | (with_reducible refine State.hngLeave_canon ?_ ..)
    | (with_reducible refine State.canon_of_mems (State.hngArrive_mems ..) ?_)
    | (with_reducible refine State.canon_of_mems (State.hngStalls_mems ..) ?_) | dsimp only | split)

end Sys2Proof.Machine
end

