-- ==== Sys2Proof/Laws/FrameSync.lean ====
section
/-! SUPPORT. Frames of Machine/Sync.lean: what each operation and command leaves alone of the memories and the queue. -/

set_option linter.all false

namespace Sys2Proof.Machine

theorem State.dispatchEntry_pend (s : State) (core : Nat) :
    ((State.dispatchEntry s core)).pend = s.pend := by
  unfold State.dispatchEntry
  try dsimp only
  repeat' (first
    | with_reducible assumption | (simp only [State.pend_mk]; with_reducible refine (State.pend_eta _).trans ?_)
    | (with_reducible refine ite_pend ?_ ?_)
    | (with_reducible refine (State.pend_of_mems (State.normHead_mems ..)).trans ?_)
    | (with_reducible refine (State.gateReads_pend ..).trans ?_)
    | (with_reducible refine (State.gateReads_pend' (by assumption)).trans ?_)
    | (with_reducible refine (State.pend_of_mems (State.coreAddrViol_mems ..)).trans ?_)
    | (with_reducible refine (State.pend_of_mems (State.viols'_mems ..)).trans ?_)
    | (with_reducible refine (State.pend_of_mems (State.updCore_mems ..)).trans ?_)
    | (with_reducible refine (forEach_pend (fun _ _ => ?_) ..).trans ?_) | with_reducible exact State.pend_self _
    | dsimp only | split)

theorem State.dispatchEntry_canon {s : State} (hs : s.canon) (core : Nat) :
    ((State.dispatchEntry s core)).canon := by
  unfold State.dispatchEntry
  try dsimp only
  repeat' (first
    | with_reducible assumption | (simp only [State.canon_mk]; with_reducible refine State.canon_eta ?_)
    | (with_reducible refine ite_canon ?_ ?_)
    | (with_reducible refine State.canon_of_mems (State.normHead_mems ..) ?_)
    | (with_reducible refine State.gateReads_canon ?_ ..)
    | (with_reducible refine State.gateReads_canon' (by assumption) ?_)
    | (with_reducible refine State.canon_of_mems (State.coreAddrViol_mems ..) ?_)
    | (with_reducible refine State.canon_of_mems (State.viols'_mems ..) ?_)
    | (with_reducible refine State.canon_of_mems (State.updCore_mems ..) ?_)
    | (with_reducible refine forEach_canon (fun _ _ _ => ?_) ?_ ..) | dsimp only | split)

theorem execEntryDispatch_pend {core : Nat} {s : State} {zt : State} (zh : execEntryDispatch core s = .next zt) :
    zt.pend = s.pend := by
  unfold execEntryDispatch at zh
  cases zh
  try dsimp only
  repeat' (first
    | with_reducible assumption | (simp only [State.pend_mk]; with_reducible refine (State.pend_eta _).trans ?_)
    | (with_reducible refine ite_pend ?_ ?_) | (with_reducible refine (State.dispatchEntry_pend ..).trans ?_)
    | with_reducible exact State.pend_self _ | dsimp only | split)

theorem execEntryDispatch_canon {core : Nat} {s : State} {zt : State} (hs : s.canon) (zh : execEntryDispatch core s = .next zt) :
    zt.canon := by
  unfold execEntryDispatch at zh
  cases zh
  try dsimp only
  repeat' (first
    | with_reducible assumption | (simp only [State.canon_mk]; with_reducible refine State.canon_eta ?_)
    | (with_reducible refine ite_canon ?_ ?_) | (with_reducible refine State.dispatchEntry_canon ?_ ..) | dsimp only
    | split)

theorem execTumblerWait_mems {core : Nat} {stream : Nat} {s : State} {zt : State} (zh : execTumblerWait core stream s = .next zt) :
    zt.mems = s.mems := by
  unfold execTumblerWait at zh
  cases zh
  try dsimp only
  repeat' (first
    | with_reducible assumption | (simp only [State.mems_mk]; with_reducible refine (State.mems_eta _).trans ?_)
    | (with_reducible refine ite_mems ?_ ?_) | (with_reducible refine (State.evalTumbler_mems ..).trans ?_)
    | (with_reducible refine (State.normHead_mems ..).trans ?_) | with_reducible exact State.mems_self _ | dsimp only
    | split)

theorem State.amountSeen_mems (s : State) (g : Nat) (m : Nat) (e : Entry) :
    ((State.amountSeen s g m e)).mems = s.mems := by
  unfold State.amountSeen
  try dsimp only
  repeat' (first
    | with_reducible assumption | (simp only [State.mems_mk]; with_reducible refine (State.mems_eta _).trans ?_)
    | (with_reducible refine ite_mems ?_ ?_) | (with_reducible refine (State.viol_mems ..).trans ?_)
    | with_reducible exact State.mems_self _ | dsimp only | split)

theorem execLatchTake_mems {core : Nat} {stream : Nat} {s : State} {zt : State} (zh : execLatchTake core stream s = .next zt) :
    zt.mems = s.mems := by
  unfold execLatchTake at zh
  cases zh
  try dsimp only
  repeat' (first
    | with_reducible assumption | (simp only [State.mems_mk]; with_reducible refine (State.mems_eta _).trans ?_)
    | (with_reducible refine ite_mems ?_ ?_) | (with_reducible refine (State.amountSeen_mems ..).trans ?_)
    | (with_reducible refine (State.latchMoved_mems ..).trans ?_)
    | (with_reducible refine (State.retryTry_mems ..).trans ?_)
    | (with_reducible refine (State.serveTakes_mems ..).trans ?_)
    | (with_reducible refine (State.normHead_mems ..).trans ?_)
    | (with_reducible refine (State.updHead_mems ..).trans ?_)
    | (with_reducible refine (State.trace_mems ..).trans ?_)
    | (with_reducible refine (State.updCore_mems ..).trans ?_) | with_reducible exact State.mems_self _ | dsimp only
    | split)

theorem execLatchTry_mems {core : Nat} {stream : Nat} {s : State} {zt : State} (zh : execLatchTry core stream s = .next zt) :
    zt.mems = s.mems := by
  unfold execLatchTry at zh
  cases zh
  try dsimp only
  repeat' (first
    | with_reducible assumption | (simp only [State.mems_mk]; with_reducible refine (State.mems_eta _).trans ?_)
    | (with_reducible refine ite_mems ?_ ?_) | (with_reducible refine (State.amountSeen_mems ..).trans ?_)
    | (with_reducible refine (State.latchMoved_mems ..).trans ?_)
    | (with_reducible refine (State.serveTakes_mems ..).trans ?_)
    | (with_reducible refine (State.setShort_mems ..).trans ?_)
    | (with_reducible refine (State.setLatch_mems ..).trans ?_)
    | (with_reducible refine (State.satisfyHead_mems ..).trans ?_)
    | (with_reducible refine (State.normHead_mems ..).trans ?_)
    | (with_reducible refine (State.updHead_mems ..).trans ?_)
    | (with_reducible refine (State.queue_mems ..).trans ?_) | (with_reducible refine (State.trace_mems ..).trans ?_)
    | (with_reducible refine (State.bump_mems ..).trans ?_) | with_reducible exact State.mems_self _ | dsimp only
    | split)

theorem State.message_mems (s : State) (core : Nat) (op : Nat) (obj : Nat) (amount : Nat) (path : Nat) (subst : Bool) (dup : Option Nat) :
    ((State.message s core op obj amount path subst dup)).mems = s.mems := by
  unfold State.message
  try dsimp only
  repeat' (first
    | with_reducible assumption | (simp only [State.mems_mk]; with_reducible refine (State.mems_eta _).trans ?_)
    | (with_reducible refine ite_mems ?_ ?_) | (with_reducible refine (State.deliverSig_mems ..).trans ?_)
    | (with_reducible refine (State.setCopy1_mems ..).trans ?_)
    | (with_reducible refine (State.compare_mems ..).trans ?_) | with_reducible exact State.mems_self _ | dsimp only
    | split)

theorem execTumblerAdd_mems {core : Nat} {obj : Nat} {amount : Nat} {path : Nat} {subst : Bool} {dup : Option Nat} {s : State} {zt : State} (zh : execTumblerAdd core obj amount path subst dup s = .next zt) :
    zt.mems = s.mems := by
  unfold execTumblerAdd at zh
  cases zh
  try dsimp only
  repeat' (first
    | with_reducible assumption | (simp only [State.mems_mk]; with_reducible refine (State.mems_eta _).trans ?_)
    | (with_reducible refine ite_mems ?_ ?_) | (with_reducible refine (State.message_mems ..).trans ?_)
    | with_reducible exact State.mems_self _ | dsimp only | split)

theorem execLatchPost_mems {core : Nat} {obj : Nat} {amount : Nat} {path : Nat} {subst : Bool} {dup : Option Nat} {s : State} {zt : State} (zh : execLatchPost core obj amount path subst dup s = .next zt) :
    zt.mems = s.mems := by
  unfold execLatchPost at zh
  cases zh
  try dsimp only
  repeat' (first
    | with_reducible assumption | (simp only [State.mems_mk]; with_reducible refine (State.mems_eta _).trans ?_)
    | (with_reducible refine ite_mems ?_ ?_) | (with_reducible refine (State.message_mems ..).trans ?_)
    | with_reducible exact State.mems_self _ | dsimp only | split)

theorem execSynScrub_mems {core : Nat} {upsets : List (Nat × Nat × Nat × Nat)} {s : State} {zt : State} (zh : execSynScrub core upsets s = .next zt) :
    zt.mems = s.mems := by
  unfold execSynScrub at zh
  cases zh
  try dsimp only
  repeat' (first
    | with_reducible assumption | (simp only [State.mems_mk]; with_reducible refine (State.mems_eta _).trans ?_)
    | (with_reducible refine ite_mems ?_ ?_) | (with_reducible refine (State.setCopy1_mems ..).trans ?_)
    | (with_reducible refine (State.dupMismatch_mems ..).trans ?_)
    | (with_reducible refine (forEach_mems (fun _ _ => ?_) ..).trans ?_) | with_reducible exact State.mems_self _
    | dsimp only | split)

theorem State.performSignal_mems (s : State) (g : Nat) (e : Entry) (mark : Bool) (off : Nat) (w : Nat) :
    ((State.performSignal s g e mark off w)).mems = s.mems := by
  unfold State.performSignal
  try dsimp only
  repeat' (first
    | with_reducible assumption | (simp only [State.mems_mk]; with_reducible refine (State.mems_eta _).trans ?_)
    | (with_reducible refine ite_mems ?_ ?_) | (with_reducible refine (State.remoteSig_mems ..).trans ?_)
    | (with_reducible refine (State.deliverSig_mems ..).trans ?_)
    | (with_reducible refine (State.viol_mems ..).trans ?_) | with_reducible exact State.mems_self _ | dsimp only
    | split)

theorem State.performSignals_mems (s : State) (g : Nat) (e : Entry) (mark : Bool) :
    ((State.performSignals s g e mark)).mems = s.mems := by
  unfold State.performSignals
  try dsimp only
  repeat' (first
    | with_reducible assumption | (simp only [State.mems_mk]; with_reducible refine (State.mems_eta _).trans ?_)
    | (with_reducible refine ite_mems ?_ ?_) | (with_reducible refine (State.performSignal_mems ..).trans ?_)
    | (with_reducible refine (forEach_mems (fun _ _ => ?_) ..).trans ?_) | with_reducible exact State.mems_self _
    | dsimp only | split)

theorem State.skipEnd_mems (s : State) (g : Nat) (e : Entry) :
    ((State.skipEnd s g e)).mems = s.mems := by
  unfold State.skipEnd
  try dsimp only
  repeat' (first
    | with_reducible assumption | (simp only [State.mems_mk]; with_reducible refine (State.mems_eta _).trans ?_)
    | (with_reducible refine ite_mems ?_ ?_) | (with_reducible refine (State.selfTmb_mems ..).trans ?_)
    | (with_reducible refine (State.viol_mems ..).trans ?_) | (with_reducible refine (State.bump_mems ..).trans ?_)
    | with_reducible exact State.mems_self _ | dsimp only | split)

theorem execEntryComplete_pend {core : Nat} {stream : Nat} {s : State} {zt : State} (zh : execEntryComplete core stream s = .next zt) :
    zt.pend = s.pend := by
  unfold execEntryComplete at zh
  cases zh
  try dsimp only
  repeat' (first
    | with_reducible assumption | (simp only [State.pend_mk]; with_reducible refine (State.pend_eta _).trans ?_)
    | (with_reducible refine ite_pend ?_ ?_)
    | (with_reducible refine (State.pend_of_mems (State.skipEnd_mems ..)).trans ?_)
    | (with_reducible refine (State.pend_of_mems (State.performSignals_mems ..)).trans ?_)
    | (with_reducible refine (State.foldCensus_pend ..).trans ?_)
    | (with_reducible refine (State.pend_of_mems (State.trace_mems ..)).trans ?_)
    | (with_reducible refine (State.pend_of_mems (State.updCore_mems ..)).trans ?_)
    | with_reducible exact State.pend_self _ | dsimp only | split)

theorem execEntryComplete_canon {core : Nat} {stream : Nat} {s : State} {zt : State} (hs : s.canon) (zh : execEntryComplete core stream s = .next zt) :
    zt.canon := by
  unfold execEntryComplete at zh
  cases zh
  try dsimp only
  repeat' (first
    | with_reducible assumption | (simp only [State.canon_mk]; with_reducible refine State.canon_eta ?_)
    | (with_reducible refine ite_canon ?_ ?_) | (with_reducible refine State.canon_of_mems (State.skipEnd_mems ..) ?_)
    | (with_reducible refine State.canon_of_mems (State.performSignals_mems ..) ?_)
    | (with_reducible refine State.foldCensus_canon ?_ ..)
    | (with_reducible refine State.canon_of_mems (State.trace_mems ..) ?_)
    | (with_reducible refine State.canon_of_mems (State.updCore_mems ..) ?_) | dsimp only | split)

theorem State.stepPowers_mems (s : State) (g : Nat) :
    ((State.stepPowers s g)).mems = s.mems := by
  unfold State.stepPowers
  try dsimp only
  repeat' (first
    | with_reducible assumption | (simp only [State.mems_mk]; with_reducible refine (State.mems_eta _).trans ?_)
    | (with_reducible refine ite_mems ?_ ?_) | (with_reducible refine (State.wrF_mems ..).trans ?_)
    | (with_reducible refine (State.wr_mems ..).trans ?_) | with_reducible exact State.mems_self _ | dsimp only
    | split)

theorem State.judgeLoss_mems (s : State) (l : Nat) (tr : Nat) (st : Nat) :
    ((State.judgeLoss s l tr st)).mems = s.mems := by
  unfold State.judgeLoss
  try dsimp only
  repeat' (first
    | with_reducible assumption | (simp only [State.mems_mk]; with_reducible refine (State.mems_eta _).trans ?_)
    | (with_reducible refine ite_mems ?_ ?_) | (with_reducible refine (State.queue_mems ..).trans ?_)
    | with_reducible exact State.mems_self _ | dsimp only | split)

theorem State.verifyLoss_mems (s : State) :
    ((State.verifyLoss s)).mems = s.mems := by
  unfold State.verifyLoss
  try dsimp only
  repeat' (first
    | with_reducible assumption | (simp only [State.mems_mk]; with_reducible refine (State.mems_eta _).trans ?_)
    | (with_reducible refine ite_mems ?_ ?_) | (with_reducible refine (State.judgeLoss_mems ..).trans ?_)
    | (with_reducible refine (State.tellLead_mems ..).trans ?_) | with_reducible exact State.mems_self _ | dsimp only
    | split)

theorem State.tellLoss_mems (s : State) (st : Nat) (l : Nat) :
    ((State.tellLoss s st l)).mems = s.mems := by
  unfold State.tellLoss
  try dsimp only
  repeat' (first
    | with_reducible assumption | (simp only [State.mems_mk]; with_reducible refine (State.mems_eta _).trans ?_)
    | (with_reducible refine ite_mems ?_ ?_) | (with_reducible refine (State.verifyLoss_mems ..).trans ?_)
    | with_reducible exact State.mems_self _ | dsimp only | split)

theorem State.advanceStep_mems (s : State) (core : Nat) (n : Nat) :
    ((State.advanceStep s core n)).mems = s.mems := by
  unfold State.advanceStep
  try dsimp only
  repeat' (first
    | with_reducible assumption | (simp only [State.mems_mk]; with_reducible refine (State.mems_eta _).trans ?_)
    | (with_reducible refine ite_mems ?_ ?_) | (with_reducible refine (State.stepPowers_mems ..).trans ?_)
    | (with_reducible refine (State.updCore_mems ..).trans ?_) | (with_reducible refine (State.wrF_mems ..).trans ?_)
    | with_reducible exact State.mems_self _ | dsimp only | split)

theorem State.skipClosing_mems (s : State) (core : Nat) (e : Entry) :
    ((State.skipClosing s core e)).mems = s.mems := by
  unfold State.skipClosing
  try dsimp only
  repeat' (first
    | with_reducible assumption | (simp only [State.mems_mk]; with_reducible refine (State.mems_eta _).trans ?_)
    | (with_reducible refine ite_mems ?_ ?_) | (with_reducible refine (State.skipEnd_mems ..).trans ?_)
    | (with_reducible refine (State.performSignals_mems ..).trans ?_)
    | (with_reducible refine (State.updCore_mems ..).trans ?_) | with_reducible exact State.mems_self _ | dsimp only
    | split)

theorem execStepAdv_mems {core : Nat} {s : State} {zt : State} (zh : execStepAdv core s = .next zt) :
    zt.mems = s.mems := by
  unfold execStepAdv at zh
  cases zh
  try dsimp only
  repeat' (first
    | with_reducible assumption | (simp only [State.mems_mk]; with_reducible refine (State.mems_eta _).trans ?_)
    | (with_reducible refine ite_mems ?_ ?_) | (with_reducible refine (State.skipClosing_mems ..).trans ?_)
    | (with_reducible refine (State.advanceStep_mems ..).trans ?_)
    | (with_reducible refine (State.verifyLoss_mems ..).trans ?_)
    | (with_reducible refine (State.performSignals_mems ..).trans ?_)
    | (with_reducible refine (State.updCore_mems ..).trans ?_) | with_reducible exact State.mems_self _ | dsimp only
    | split)

theorem execEvalEnd_mems {core : Nat} {s : State} {zt : State} (zh : execEvalEnd core s = .next zt) :
    zt.mems = s.mems := by
  unfold execEvalEnd at zh
  cases zh
  try dsimp only
  repeat' (first
    | with_reducible assumption | (simp only [State.mems_mk]; with_reducible refine (State.mems_eta _).trans ?_)
    | (with_reducible refine ite_mems ?_ ?_) | (with_reducible refine (State.skipClosing_mems ..).trans ?_)
    | (with_reducible refine (State.performSignals_mems ..).trans ?_)
    | (with_reducible refine (State.updCore_mems ..).trans ?_) | with_reducible exact State.mems_self _ | dsimp only
    | split)

theorem execLendEnter_mems {core : Nat} {times : List (Nat × Nat)} {s : State} {zt : State} (zh : execLendEnter core times s = .next zt) :
    zt.mems = s.mems := by
  unfold execLendEnter at zh
  cases zh
  try dsimp only
  repeat' (first
    | with_reducible assumption | (simp only [State.mems_mk]; with_reducible refine (State.mems_eta _).trans ?_)
    | (with_reducible refine ite_mems ?_ ?_) | (with_reducible refine (State.lendGrant_mems ..).trans ?_)
    | (with_reducible refine (State.setCoreState_mems ..).trans ?_)
    | (with_reducible refine (State.updCore_mems ..).trans ?_) | (with_reducible refine (State.bump_mems ..).trans ?_)
    | with_reducible exact State.mems_self _ | dsimp only | split)

theorem execLendExit_mems {core : Nat} {cycles : Nat} {s : State} {zt : State} (zh : execLendExit core cycles s = .next zt) :
    zt.mems = s.mems := by
  unfold execLendExit at zh
  cases zh
  try dsimp only
  repeat' (first
    | with_reducible assumption | (simp only [State.mems_mk]; with_reducible refine (State.mems_eta _).trans ?_)
    | (with_reducible refine ite_mems ?_ ?_) | (with_reducible refine (State.askGrant_mems ..).trans ?_)
    | (with_reducible refine (State.setCoreState_mems ..).trans ?_)
    | (with_reducible refine (State.updCore_mems ..).trans ?_) | (with_reducible refine (State.bump_mems ..).trans ?_)
    | with_reducible exact State.mems_self _ | dsimp only | split)

theorem execCoreHeartbeat_mems {core : Nat} {waitCycles : Nat} {s : State} {zt : State} (zh : execCoreHeartbeat core waitCycles s = .next zt) :
    zt.mems = s.mems := by
  unfold execCoreHeartbeat at zh
  cases zh
  try dsimp only
  repeat' (first
    | with_reducible assumption | (simp only [State.mems_mk]; with_reducible refine (State.mems_eta _).trans ?_)
    | (with_reducible refine ite_mems ?_ ?_) | (with_reducible refine (State.updCore_mems ..).trans ?_)
    | (with_reducible refine (State.bump_mems ..).trans ?_) | with_reducible exact State.mems_self _ | dsimp only
    | split)

theorem execHeartbeatMiss_mems {core : Nat} {s : State} {zt : State} (zh : execHeartbeatMiss core s = .next zt) :
    zt.mems = s.mems := by
  unfold execHeartbeatMiss at zh
  cases zh
  try dsimp only
  repeat' (first
    | with_reducible assumption | (simp only [State.mems_mk]; with_reducible refine (State.mems_eta _).trans ?_)
    | (with_reducible refine ite_mems ?_ ?_) | (with_reducible refine (State.queue_mems ..).trans ?_)
    | (with_reducible refine (State.updCore_mems ..).trans ?_) | with_reducible exact State.mems_self _ | dsimp only
    | split)

end Sys2Proof.Machine
end

