-- ==== Sys2Proof/Laws/FrameTraining.lean ====
section
/-! SUPPORT. Frames of Machine/Training.lean: what each operation and command leaves alone of the memories and the queue. -/

set_option linter.all false

namespace Sys2Proof.Machine

theorem State.updFabJob_mems (s : State) (g : Nat) (pos : Nat) (f : FabJob → FabJob) :
    ((State.updFabJob s g pos f)).mems = s.mems := by
  unfold State.updFabJob
  try dsimp only
  repeat' (first
    | with_reducible assumption | (simp only [State.mems_mk]; with_reducible refine (State.mems_eta _).trans ?_)
    | (with_reducible refine ite_mems ?_ ?_) | (with_reducible refine (State.updPrg_mems ..).trans ?_)
    | with_reducible exact State.mems_self _ | dsimp only | split)

theorem State.takeFab_mems (s : State) (g : Nat) (op : Nat) :
    ((State.takeFab s g op)).mems = s.mems := by
  unfold State.takeFab
  try dsimp only
  repeat' (first
    | with_reducible assumption | (simp only [State.mems_mk]; with_reducible refine (State.mems_eta _).trans ?_)
    | (with_reducible refine ite_mems ?_ ?_) | (with_reducible refine (State.updPrg_mems ..).trans ?_)
    | (with_reducible refine (State.takeEntry_mems ..).trans ?_) | with_reducible exact State.mems_self _ | dsimp only
    | split)

theorem State.fabDone_mems (s : State) (g : Nat) (pos : Nat) (cs : List CensusSet) :
    ((State.fabDone s g pos cs)).mems = s.mems := by
  unfold State.fabDone
  try dsimp only
  repeat' (first
    | with_reducible assumption | (simp only [State.mems_mk]; with_reducible refine (State.mems_eta _).trans ?_)
    | (with_reducible refine ite_mems ?_ ?_) | (with_reducible refine (State.updPrg_mems ..).trans ?_)
    | (with_reducible refine (State.descDoneAt_mems ..).trans ?_) | with_reducible exact State.mems_self _
    | dsimp only | split)

theorem State.islViol_mems (s : State) (d : Nat) (op : Nat) (seq : Nat) (field : Nat) (value : Nat) :
    ((State.islViol s d op seq field value)).mems = s.mems := by
  unfold State.islViol
  try dsimp only
  repeat' (first
    | with_reducible assumption | (simp only [State.mems_mk]; with_reducible refine (State.mems_eta _).trans ?_)
    | (with_reducible refine ite_mems ?_ ?_) | (with_reducible refine (State.viol_mems ..).trans ?_)
    | with_reducible exact State.mems_self _ | dsimp only | split)

theorem State.gatherSignal_mems (s : State) (g : Nat) (x : Gather) :
    ((State.gatherSignal s g x)).mems = s.mems := by
  unfold State.gatherSignal
  try dsimp only
  repeat' (first
    | with_reducible assumption | (simp only [State.mems_mk]; with_reducible refine (State.mems_eta _).trans ?_)
    | (with_reducible refine ite_mems ?_ ?_) | (with_reducible refine (State.selfTmb_mems ..).trans ?_)
    | with_reducible exact State.mems_self _ | dsimp only | split)

theorem State.gatherTiles_pend (s : State) (g : Nat) (pos : Nat) (tag : Nat) (x : Gather) (t : Nat) (x6 : Nat) :
    ((State.gatherTiles s g pos tag x t x6)).pend = s.pend := by
  induction x6 generalizing s g pos tag x t with
  | zero =>
    unfold State.gatherTiles
    try dsimp only
    repeat' (first
      | with_reducible assumption | (simp only [State.pend_mk]; with_reducible refine (State.pend_eta _).trans ?_)
      | (with_reducible refine ite_pend ?_ ?_)
      | (with_reducible refine (State.pend_of_mems (State.gatherSignal_mems ..)).trans ?_)
      | (with_reducible refine (State.pend_of_mems (State.fabDone_mems ..)).trans ?_)
      | (with_reducible refine (State.pend_of_mems (State.updFabJob_mems ..)).trans ?_)
      | (with_reducible refine (State.writeAt_pend ..).trans ?_)
      | (with_reducible refine (State.gateReads_pend ..).trans ?_)
      | (with_reducible refine (State.gateReads_pend' (by assumption)).trans ?_)
      | (with_reducible refine (State.pend_of_mems (State.queue_mems ..)).trans ?_)
      | (with_reducible refine (State.pend_of_mems (State.bump_mems ..)).trans ?_)
      | with_reducible exact State.pend_self _ | dsimp only | split)
  | succ x6 ih =>
    unfold State.gatherTiles
    try dsimp only
    repeat' (first
      | with_reducible assumption | (with_reducible refine (ih ..).trans ?_)
      | (simp only [State.pend_mk]; with_reducible refine (State.pend_eta _).trans ?_)
      | (with_reducible refine ite_pend ?_ ?_)
      | (with_reducible refine (State.pend_of_mems (State.gatherSignal_mems ..)).trans ?_)
      | (with_reducible refine (State.pend_of_mems (State.fabDone_mems ..)).trans ?_)
      | (with_reducible refine (State.pend_of_mems (State.updFabJob_mems ..)).trans ?_)
      | (with_reducible refine (State.writeAt_pend ..).trans ?_)
      | (with_reducible refine (State.gateReads_pend ..).trans ?_)
      | (with_reducible refine (State.gateReads_pend' (by assumption)).trans ?_)
      | (with_reducible refine (State.pend_of_mems (State.queue_mems ..)).trans ?_)
      | (with_reducible refine (State.pend_of_mems (State.bump_mems ..)).trans ?_)
      | with_reducible exact State.pend_self _ | dsimp only | split)

theorem State.gatherTiles_canon {s : State} (hs : s.canon) (g : Nat) (pos : Nat) (tag : Nat) (x : Gather) (t : Nat) (x6 : Nat) :
    ((State.gatherTiles s g pos tag x t x6)).canon := by
  induction x6 generalizing s g pos tag x t with
  | zero =>
    unfold State.gatherTiles
    try dsimp only
    repeat' (first
      | with_reducible assumption | (simp only [State.canon_mk]; with_reducible refine State.canon_eta ?_)
      | (with_reducible refine ite_canon ?_ ?_)
      | (with_reducible refine State.canon_of_mems (State.gatherSignal_mems ..) ?_)
      | (with_reducible refine State.canon_of_mems (State.fabDone_mems ..) ?_)
      | (with_reducible refine State.canon_of_mems (State.updFabJob_mems ..) ?_)
      | (with_reducible refine State.writeAt_canon ?_ ..) | (with_reducible refine State.gateReads_canon ?_ ..)
      | (with_reducible refine State.gateReads_canon' (by assumption) ?_)
      | (with_reducible refine State.canon_of_mems (State.queue_mems ..) ?_)
      | (with_reducible refine State.canon_of_mems (State.bump_mems ..) ?_) | dsimp only | split)
  | succ x6 ih =>
    unfold State.gatherTiles
    try dsimp only
    repeat' (first
      | with_reducible assumption | (with_reducible refine ih ?_ ..)
      | (simp only [State.canon_mk]; with_reducible refine State.canon_eta ?_)
      | (with_reducible refine ite_canon ?_ ?_)
      | (with_reducible refine State.canon_of_mems (State.gatherSignal_mems ..) ?_)
      | (with_reducible refine State.canon_of_mems (State.fabDone_mems ..) ?_)
      | (with_reducible refine State.canon_of_mems (State.updFabJob_mems ..) ?_)
      | (with_reducible refine State.writeAt_canon ?_ ..) | (with_reducible refine State.gateReads_canon ?_ ..)
      | (with_reducible refine State.gateReads_canon' (by assumption) ?_)
      | (with_reducible refine State.canon_of_mems (State.queue_mems ..) ?_)
      | (with_reducible refine State.canon_of_mems (State.bump_mems ..) ?_) | dsimp only | split)

theorem execMasterGather_pend {core : Nat} {s : State} {zt : State} (zh : execMasterGather core s = .next zt) :
    zt.pend = s.pend := by
  unfold execMasterGather at zh
  cases zh
  try dsimp only
  repeat' (first
    | with_reducible assumption | (simp only [State.pend_mk]; with_reducible refine (State.pend_eta _).trans ?_)
    | (with_reducible refine ite_pend ?_ ?_) | (with_reducible refine (State.gatherTiles_pend ..).trans ?_)
    | (with_reducible refine (State.pend_of_mems (State.gatherSignal_mems ..)).trans ?_)
    | (with_reducible refine (State.pend_of_mems (State.fabDone_mems ..)).trans ?_)
    | (with_reducible refine (State.pend_of_mems (State.takeFab_mems ..)).trans ?_)
    | (with_reducible refine (State.pend_of_mems (State.updFabJob_mems ..)).trans ?_)
    | (with_reducible refine (State.pend_of_mems (State.viols'_mems ..)).trans ?_)
    | with_reducible exact State.pend_self _ | dsimp only | split)

theorem execMasterGather_canon {core : Nat} {s : State} {zt : State} (hs : s.canon) (zh : execMasterGather core s = .next zt) :
    zt.canon := by
  unfold execMasterGather at zh
  cases zh
  try dsimp only
  repeat' (first
    | with_reducible assumption | (simp only [State.canon_mk]; with_reducible refine State.canon_eta ?_)
    | (with_reducible refine ite_canon ?_ ?_) | (with_reducible refine State.gatherTiles_canon ?_ ..)
    | (with_reducible refine State.canon_of_mems (State.gatherSignal_mems ..) ?_)
    | (with_reducible refine State.canon_of_mems (State.fabDone_mems ..) ?_)
    | (with_reducible refine State.canon_of_mems (State.takeFab_mems ..) ?_)
    | (with_reducible refine State.canon_of_mems (State.updFabJob_mems ..) ?_)
    | (with_reducible refine State.canon_of_mems (State.viols'_mems ..) ?_) | dsimp only | split)

theorem State.takeNorm_mems (s : State) (g : Nat) (n2 : Nat) (tmb : Nat) :
    ((State.takeNorm s g n2 tmb)).mems = s.mems := by
  unfold State.takeNorm
  try dsimp only
  repeat' (first
    | with_reducible assumption | (simp only [State.mems_mk]; with_reducible refine (State.mems_eta _).trans ?_)
    | (with_reducible refine ite_mems ?_ ?_) | (with_reducible refine (State.deliverSig_mems ..).trans ?_)
    | (with_reducible refine (State.queue_mems ..).trans ?_) | (with_reducible refine (State.viol_mems ..).trans ?_)
    | (with_reducible refine (State.updCore_mems ..).trans ?_) | (with_reducible refine (State.bump_mems ..).trans ?_)
    | (with_reducible refine (State.wrF_mems ..).trans ?_) | with_reducible exact State.mems_self _ | dsimp only
    | split)

theorem State.normArrive_mems (s : State) (g : Nat) (n2 : Nat) (tmb : Nat) :
    ((State.normArrive s g n2 tmb)).mems = s.mems := by
  unfold State.normArrive
  try dsimp only
  repeat' (first
    | with_reducible assumption | (simp only [State.mems_mk]; with_reducible refine (State.mems_eta _).trans ?_)
    | (with_reducible refine ite_mems ?_ ?_) | (with_reducible refine (State.takeNorm_mems ..).trans ?_)
    | with_reducible exact State.mems_self _ | dsimp only | split)

end Sys2Proof.Machine
end

