-- ==== Sys2Proof/Laws/FrameVector.lean ====
section
/-! SUPPORT. Frames of Machine/Vector.lean: what each operation and command leaves alone of the memories and the queue. -/

set_option linter.all false

namespace Sys2Proof.Machine

theorem State.veFlush_pend (s : State) (m : State) (g : Nat) (ov : SMap (List (Option Nat))) (rcmp : Bool) :
    ((State.veFlush s m g ov rcmp)).pend = s.pend := by
  unfold State.veFlush
  try dsimp only
  repeat' (first
    | with_reducible assumption | (simp only [State.pend_mk]; with_reducible refine (State.pend_eta _).trans ?_)
    | (with_reducible refine ite_pend ?_ ?_) | (with_reducible refine (State.writeAt_pend ..).trans ?_)
    | (with_reducible refine (forEach_pend (fun _ _ => ?_) ..).trans ?_) | with_reducible exact State.pend_self _
    | dsimp only | split)

theorem State.veFlush_canon {s : State} (hs : s.canon) (m : State) (g : Nat) (ov : SMap (List (Option Nat))) (rcmp : Bool) :
    ((State.veFlush s m g ov rcmp)).canon := by
  unfold State.veFlush
  try dsimp only
  repeat' (first
    | with_reducible assumption | (simp only [State.canon_mk]; with_reducible refine State.canon_eta ?_)
    | (with_reducible refine ite_canon ?_ ?_) | (with_reducible refine State.writeAt_canon ?_ ..)
    | (with_reducible refine forEach_canon (fun _ _ _ => ?_) ?_ ..) | dsimp only | split)

theorem State.veViols_mems (s : State) (g : Nat) (op : Nat) (seq : Nat) (x : VeDesc) :
    ((State.veViols s g op seq x)).mems = s.mems := by
  unfold State.veViols
  try dsimp only
  repeat' (first
    | with_reducible assumption | (simp only [State.mems_mk]; with_reducible refine (State.mems_eta _).trans ?_)
    | (with_reducible refine ite_mems ?_ ?_) | (with_reducible refine (State.coreAddrViol_mems ..).trans ?_)
    | (with_reducible refine (State.viols'_mems ..).trans ?_)
    | (with_reducible refine (forEach_mems (fun _ _ => ?_) ..).trans ?_) | with_reducible exact State.mems_self _
    | dsimp only | split)

theorem State.veResult_pend (s : State) (g : Nat) (x : VeDesc) (j : VeJob) (k : Nat) (vs : List Num) :
    ((State.veResult s g x j k vs).1).pend = s.pend := by
  unfold State.veResult
  try dsimp only
  repeat' (first
    | with_reducible assumption | (simp only [State.pend_mk]; with_reducible refine (State.pend_eta _).trans ?_)
    | (with_reducible refine ite_pend ?_ ?_)
    | (with_reducible refine (State.pend_of_mems (State.slotAddAll_mems ..)).trans ?_)
    | (with_reducible refine (State.pend_of_mems (State.slotAddAll_mems' (by assumption))).trans ?_)
    | (with_reducible refine (State.writeAt_pend ..).trans ?_)
    | (with_reducible refine (foldl_pend (fun _ _ => ?_) ..).trans ?_)
    | (with_reducible refine (foldl1_pend (fun _ _ => ?_) ..).trans ?_) | with_reducible exact State.pend_self _
    | dsimp only | split)
theorem State.veResult_pend' {s : State} {g : Nat} {x : VeDesc} {j : VeJob} {k : Nat} {vs : List Num} {zr} {zq : State}
    (zh : (State.veResult s g x j k vs) = (zq, zr)) : zq.pend = s.pend := by
  have := (State.veResult_pend s g x j k vs)
  rw [zh] at this
  exact this

theorem State.veResult_canon {s : State} (hs : s.canon) (g : Nat) (x : VeDesc) (j : VeJob) (k : Nat) (vs : List Num) :
    ((State.veResult s g x j k vs).1).canon := by
  unfold State.veResult
  try dsimp only
  repeat' (first
    | with_reducible assumption | (simp only [State.canon_mk]; with_reducible refine State.canon_eta ?_)
    | (with_reducible refine ite_canon ?_ ?_)
    | (with_reducible refine State.canon_of_mems (State.slotAddAll_mems ..) ?_)
    | (with_reducible refine State.canon_of_mems (State.slotAddAll_mems' (by assumption)) ?_)
    | (with_reducible refine State.writeAt_canon ?_ ..) | (with_reducible refine foldl_canon (fun _ _ _ => ?_) ?_ ..)
    | (with_reducible refine foldl1_canon (fun _ _ _ => ?_) ?_ ..) | dsimp only | split)
theorem State.veResult_canon' {s : State} {g : Nat} {x : VeDesc} {j : VeJob} {k : Nat} {vs : List Num} {zr} {zq : State} (zh : (State.veResult s g x j k vs) = (zq, zr)) (hs : s.canon) : zq.canon := by
  have := (State.veResult_canon hs g x j k vs)
  rw [zh] at this
  exact this

theorem State.updVe_mems (s : State) (g : Nat) (f : Ve → Ve) :
    ((State.updVe s g f)).mems = s.mems := by
  unfold State.updVe
  try dsimp only
  repeat' (first
    | with_reducible assumption | (simp only [State.mems_mk]; with_reducible refine (State.mems_eta _).trans ?_)
    | (with_reducible refine ite_mems ?_ ?_) | (with_reducible refine (State.updCore_mems ..).trans ?_)
    | with_reducible exact State.mems_self _ | dsimp only | split)

theorem State.veFinish_mems (s : State) (g : Nat) (j : VeJob) (x : VeDesc) :
    ((State.veFinish s g j x)).mems = s.mems := by
  unfold State.veFinish
  try dsimp only
  repeat' (first
    | with_reducible assumption | (simp only [State.mems_mk]; with_reducible refine (State.mems_eta _).trans ?_)
    | (with_reducible refine ite_mems ?_ ?_) | (with_reducible refine (State.updVe_mems ..).trans ?_)
    | (with_reducible refine (State.selfTmb_mems ..).trans ?_)
    | (with_reducible refine (State.descDone_mems ..).trans ?_)
    | (with_reducible refine (State.rcmpDone_mems ..).trans ?_) | with_reducible exact State.mems_self _ | dsimp only
    | split)

theorem State.veCarry_mems (s : State) (g : Nat) (x : VeDesc) (j : VeJob) (counts : List Census) :
    ((State.veCarry s g x j counts)).mems = s.mems := by
  unfold State.veCarry
  try dsimp only
  repeat' (first
    | with_reducible assumption | (simp only [State.mems_mk]; with_reducible refine (State.mems_eta _).trans ?_)
    | (with_reducible refine ite_mems ?_ ?_) | (with_reducible refine (State.carryTotals_mems ..).trans ?_)
    | with_reducible exact State.mems_self _ | dsimp only | split)

theorem State.veSettle_mems (s : State) (g : Nat) (j : VeJob) (x : VeDesc) :
    ((State.veSettle s g j x).1).mems = s.mems := by
  unfold State.veSettle
  try dsimp only
  repeat' (first
    | with_reducible assumption | (simp only [State.mems_mk]; with_reducible refine (State.mems_eta _).trans ?_)
    | (with_reducible refine ite_mems ?_ ?_) | (with_reducible refine (State.updVe_mems ..).trans ?_)
    | (with_reducible refine (State.selfTmb_mems ..).trans ?_)
    | (with_reducible refine (forUpTo_mems (fun _ _ => ?_) ..).trans ?_) | with_reducible exact State.mems_self _
    | dsimp only | split)
theorem State.veSettle_mems' {s : State} {g : Nat} {j : VeJob} {x : VeDesc} {zr} {zq : State}
    (zh : (State.veSettle s g j x) = (zq, zr)) : zq.mems = s.mems := by
  have := (State.veSettle_mems s g j x)
  rw [zh] at this
  exact this

theorem State.veCount_mems (s : State) (g : Nat) (x : VeDesc) (p : VePos) (a : VeAcc) :
    ((State.veCount s g x p a)).mems = s.mems := by
  unfold State.veCount
  try dsimp only
  repeat' (first
    | with_reducible assumption | (simp only [State.mems_mk]; with_reducible refine (State.mems_eta _).trans ?_)
    | (with_reducible refine ite_mems ?_ ?_) | (with_reducible refine (State.bump_mems ..).trans ?_)
    | with_reducible exact State.mems_self _ | dsimp only | split)

theorem State.veVecDone_pend (s : State) (w : State) (g : Nat) (j : VeJob) (x : VeDesc) (sup : Supply) :
    ((State.veVecDone s w g j x sup)).pend = s.pend := by
  unfold State.veVecDone
  try dsimp only
  repeat' (first
    | with_reducible assumption | (simp only [State.pend_mk]; with_reducible refine (State.pend_eta _).trans ?_)
    | (with_reducible refine ite_pend ?_ ?_)
    | (with_reducible refine (State.pend_of_mems (State.veCount_mems ..)).trans ?_)
    | (with_reducible refine (State.pend_of_mems (State.veCarry_mems ..)).trans ?_)
    | (with_reducible refine (State.pend_of_mems (State.updVe_mems ..)).trans ?_)
    | (with_reducible refine (State.veResult_pend ..).trans ?_)
    | (with_reducible refine (State.veResult_pend' (by assumption)).trans ?_)
    | (with_reducible refine (State.veFlush_pend ..).trans ?_)
    | (with_reducible refine (State.pend_of_mems (State.updHng_mems ..)).trans ?_)
    | (with_reducible refine (State.pend_of_mems (State.bump_mems ..)).trans ?_)
    | with_reducible exact State.pend_self _ | dsimp only | split)

theorem State.veVecDone_canon {s : State} (hs : s.canon) (w : State) (g : Nat) (j : VeJob) (x : VeDesc) (sup : Supply) :
    ((State.veVecDone s w g j x sup)).canon := by
  unfold State.veVecDone
  try dsimp only
  repeat' (first
    | with_reducible assumption | (simp only [State.canon_mk]; with_reducible refine State.canon_eta ?_)
    | (with_reducible refine ite_canon ?_ ?_) | (with_reducible refine State.canon_of_mems (State.veCount_mems ..) ?_)
    | (with_reducible refine State.canon_of_mems (State.veCarry_mems ..) ?_)
    | (with_reducible refine State.canon_of_mems (State.updVe_mems ..) ?_)
    | (with_reducible refine State.veResult_canon ?_ ..)
    | (with_reducible refine State.veResult_canon' (by assumption) ?_)
    | (with_reducible refine State.veFlush_canon ?_ ..)
    | (with_reducible refine State.canon_of_mems (State.updHng_mems ..) ?_)
    | (with_reducible refine State.canon_of_mems (State.bump_mems ..) ?_) | dsimp only | split)

theorem State.veStep_pend (s : State) (g : Nat) (j : VeJob) (x : VeDesc) :
    ((State.veStep s g j x).1).pend = s.pend := by
  unfold State.veStep
  try dsimp only
  repeat' (first
    | with_reducible assumption | (simp only [State.pend_mk]; with_reducible refine (State.pend_eta _).trans ?_)
    | (with_reducible refine ite_pend ?_ ?_) | (with_reducible refine (State.veVecDone_pend ..).trans ?_)
    | (with_reducible refine (State.gateReads_pend ..).trans ?_)
    | (with_reducible refine (State.gateReads_pend' (by assumption)).trans ?_)
    | (with_reducible refine (State.view_pend ..).trans ?_)
    | (with_reducible refine (State.unitWait_pend ..).trans ?_) | with_reducible exact State.pend_self _ | dsimp only
    | split)
theorem State.veStep_pend' {s : State} {g : Nat} {j : VeJob} {x : VeDesc} {zr} {zq : State}
    (zh : (State.veStep s g j x) = (zq, zr)) : zq.pend = s.pend := by
  have := (State.veStep_pend s g j x)
  rw [zh] at this
  exact this

theorem State.veStep_canon {s : State} (hs : s.canon) (g : Nat) (j : VeJob) (x : VeDesc) :
    ((State.veStep s g j x).1).canon := by
  unfold State.veStep
  try dsimp only
  repeat' (first
    | with_reducible assumption | (simp only [State.canon_mk]; with_reducible refine State.canon_eta ?_)
    | (with_reducible refine ite_canon ?_ ?_) | (with_reducible refine State.veVecDone_canon ?_ ..)
    | (with_reducible refine State.gateReads_canon ?_ ..)
    | (with_reducible refine State.gateReads_canon' (by assumption) ?_)
    | (with_reducible refine State.view_canon ?_ ..) | (with_reducible refine State.unitWait_canon ?_ ..) | dsimp only
    | split)
theorem State.veStep_canon' {s : State} {g : Nat} {j : VeJob} {x : VeDesc} {zr} {zq : State} (zh : (State.veStep s g j x) = (zq, zr)) (hs : s.canon) : zq.canon := by
  have := (State.veStep_canon hs g j x)
  rw [zh] at this
  exact this

theorem State.veRun_pend (s : State) (g : Nat) (x2 : Nat) :
    ((State.veRun s g x2)).pend = s.pend := by
  induction x2 generalizing s g with
  | zero =>
    unfold State.veRun
    try dsimp only
    repeat' (first
      | with_reducible assumption | (simp only [State.pend_mk]; with_reducible refine (State.pend_eta _).trans ?_)
      | (with_reducible refine ite_pend ?_ ?_) | (with_reducible refine (State.veStep_pend ..).trans ?_)
      | (with_reducible refine (State.veStep_pend' (by assumption)).trans ?_)
      | (with_reducible refine (State.pend_of_mems (State.veSettle_mems ..)).trans ?_)
      | (with_reducible refine (State.pend_of_mems (State.veSettle_mems' (by assumption))).trans ?_)
      | (with_reducible refine (State.pend_of_mems (State.veFinish_mems ..)).trans ?_)
      | with_reducible exact State.pend_self _ | dsimp only | split)
  | succ x2 ih =>
    unfold State.veRun
    try dsimp only
    repeat' (first
      | with_reducible assumption | (with_reducible refine (ih ..).trans ?_)
      | (simp only [State.pend_mk]; with_reducible refine (State.pend_eta _).trans ?_)
      | (with_reducible refine ite_pend ?_ ?_) | (with_reducible refine (State.veStep_pend ..).trans ?_)
      | (with_reducible refine (State.veStep_pend' (by assumption)).trans ?_)
      | (with_reducible refine (State.pend_of_mems (State.veSettle_mems ..)).trans ?_)
      | (with_reducible refine (State.pend_of_mems (State.veSettle_mems' (by assumption))).trans ?_)
      | (with_reducible refine (State.pend_of_mems (State.veFinish_mems ..)).trans ?_)
      | with_reducible exact State.pend_self _ | dsimp only | split)

theorem State.veRun_canon {s : State} (hs : s.canon) (g : Nat) (x2 : Nat) :
    ((State.veRun s g x2)).canon := by
  induction x2 generalizing s g with
  | zero =>
    unfold State.veRun
    try dsimp only
    repeat' (first
      | with_reducible assumption | (simp only [State.canon_mk]; with_reducible refine State.canon_eta ?_)
      | (with_reducible refine ite_canon ?_ ?_) | (with_reducible refine State.veStep_canon ?_ ..)
      | (with_reducible refine State.veStep_canon' (by assumption) ?_)
      | (with_reducible refine State.canon_of_mems (State.veSettle_mems ..) ?_)
      | (with_reducible refine State.canon_of_mems (State.veSettle_mems' (by assumption)) ?_)
      | (with_reducible refine State.canon_of_mems (State.veFinish_mems ..) ?_) | dsimp only | split)
  | succ x2 ih =>
    unfold State.veRun
    try dsimp only
    repeat' (first
      | with_reducible assumption | (with_reducible refine ih ?_ ..)
      | (simp only [State.canon_mk]; with_reducible refine State.canon_eta ?_)
      | (with_reducible refine ite_canon ?_ ?_) | (with_reducible refine State.veStep_canon ?_ ..)
      | (with_reducible refine State.veStep_canon' (by assumption) ?_)
      | (with_reducible refine State.canon_of_mems (State.veSettle_mems ..) ?_)
      | (with_reducible refine State.canon_of_mems (State.veSettle_mems' (by assumption)) ?_)
      | (with_reducible refine State.canon_of_mems (State.veFinish_mems ..) ?_) | dsimp only | split)

theorem State.veDrain_pend (s : State) (g : Nat) :
    ((State.veDrain s g)).pend = s.pend := by
  unfold State.veDrain
  try dsimp only
  repeat' (first
    | with_reducible assumption | (simp only [State.pend_mk]; with_reducible refine (State.pend_eta _).trans ?_)
    | (with_reducible refine ite_pend ?_ ?_)
    | (with_reducible refine (State.pend_of_mems (State.updVe_mems ..)).trans ?_)
    | (with_reducible refine (State.veFlush_pend ..).trans ?_)
    | (with_reducible refine (State.gateReads_pend ..).trans ?_)
    | (with_reducible refine (State.gateReads_pend' (by assumption)).trans ?_)
    | with_reducible exact State.pend_self _ | dsimp only | split)

theorem State.veDrain_canon {s : State} (hs : s.canon) (g : Nat) :
    ((State.veDrain s g)).canon := by
  unfold State.veDrain
  try dsimp only
  repeat' (first
    | with_reducible assumption | (simp only [State.canon_mk]; with_reducible refine State.canon_eta ?_)
    | (with_reducible refine ite_canon ?_ ?_) | (with_reducible refine State.canon_of_mems (State.updVe_mems ..) ?_)
    | (with_reducible refine State.veFlush_canon ?_ ..) | (with_reducible refine State.gateReads_canon ?_ ..)
    | (with_reducible refine State.gateReads_canon' (by assumption) ?_) | dsimp only | split)

theorem State.veStart_mems (s : State) (g : Nat) (d : Nat) (pos : Nat) (eval : Bool) (rcmp : Bool) :
    ((State.veStart s g d pos eval rcmp)).mems = s.mems := by
  unfold State.veStart
  try dsimp only
  repeat' (first
    | with_reducible assumption | (simp only [State.mems_mk]; with_reducible refine (State.mems_eta _).trans ?_)
    | (with_reducible refine ite_mems ?_ ?_) | (with_reducible refine (State.updVe_mems ..).trans ?_)
    | (with_reducible refine (State.veViols_mems ..).trans ?_) | (with_reducible refine (State.bump_mems ..).trans ?_)
    | (with_reducible refine (State.wr_mems ..).trans ?_) | with_reducible exact State.mems_self _ | dsimp only
    | split)

theorem State.veStalls_mems (s : State) (g : Nat) (n : Nat) :
    ((State.veStalls s g n)).mems = s.mems := by
  unfold State.veStalls
  try dsimp only
  repeat' (first
    | with_reducible assumption | (simp only [State.mems_mk]; with_reducible refine (State.mems_eta _).trans ?_)
    | (with_reducible refine ite_mems ?_ ?_) | (with_reducible refine (State.bump_mems ..).trans ?_)
    | with_reducible exact State.mems_self _ | dsimp only | split)

theorem State.veExec_pend (s : State) (g : Nat) (ops : Nat → Bool) (work : Nat × Nat) :
    ((State.veExec s g ops work)).pend = s.pend := by
  unfold State.veExec
  try dsimp only
  repeat' (first
    | with_reducible assumption | (simp only [State.pend_mk]; with_reducible refine (State.pend_eta _).trans ?_)
    | (with_reducible refine ite_pend ?_ ?_)
    | (with_reducible refine (State.pend_of_mems (State.veStalls_mems ..)).trans ?_)
    | (with_reducible refine (State.pend_of_mems (State.veStart_mems ..)).trans ?_)
    | (with_reducible refine (State.veRun_pend ..).trans ?_) | with_reducible exact State.pend_self _ | dsimp only
    | split)

theorem State.veExec_canon {s : State} (hs : s.canon) (g : Nat) (ops : Nat → Bool) (work : Nat × Nat) :
    ((State.veExec s g ops work)).canon := by
  unfold State.veExec
  try dsimp only
  repeat' (first
    | with_reducible assumption | (simp only [State.canon_mk]; with_reducible refine State.canon_eta ?_)
    | (with_reducible refine ite_canon ?_ ?_)
    | (with_reducible refine State.canon_of_mems (State.veStalls_mems ..) ?_)
    | (with_reducible refine State.canon_of_mems (State.veStart_mems ..) ?_)
    | (with_reducible refine State.veRun_canon ?_ ..) | dsimp only | split)

theorem execElem_pend {core : Nat} {work : Nat × Nat} {s : State} {zt : State} (zh : execElem core work s = .next zt) :
    zt.pend = s.pend := by
  unfold execElem at zh
  cases zh
  try dsimp only
  repeat' (first
    | with_reducible assumption | (simp only [State.pend_mk]; with_reducible refine (State.pend_eta _).trans ?_)
    | (with_reducible refine ite_pend ?_ ?_) | (with_reducible refine (State.veExec_pend ..).trans ?_)
    | with_reducible exact State.pend_self _ | dsimp only | split)

theorem execElem_canon {core : Nat} {work : Nat × Nat} {s : State} {zt : State} (hs : s.canon) (zh : execElem core work s = .next zt) :
    zt.canon := by
  unfold execElem at zh
  cases zh
  try dsimp only
  repeat' (first
    | with_reducible assumption | (simp only [State.canon_mk]; with_reducible refine State.canon_eta ?_)
    | (with_reducible refine ite_canon ?_ ?_) | (with_reducible refine State.veExec_canon ?_ ..) | dsimp only | split)

theorem execReduce_pend {core : Nat} {work : Nat × Nat} {s : State} {zt : State} (zh : execReduce core work s = .next zt) :
    zt.pend = s.pend := by
  unfold execReduce at zh
  cases zh
  try dsimp only
  repeat' (first
    | with_reducible assumption | (simp only [State.pend_mk]; with_reducible refine (State.pend_eta _).trans ?_)
    | (with_reducible refine ite_pend ?_ ?_) | (with_reducible refine (State.veExec_pend ..).trans ?_)
    | with_reducible exact State.pend_self _ | dsimp only | split)

theorem execReduce_canon {core : Nat} {work : Nat × Nat} {s : State} {zt : State} (hs : s.canon) (zh : execReduce core work s = .next zt) :
    zt.canon := by
  unfold execReduce at zh
  cases zh
  try dsimp only
  repeat' (first
    | with_reducible assumption | (simp only [State.canon_mk]; with_reducible refine State.canon_eta ?_)
    | (with_reducible refine ite_canon ?_ ?_) | (with_reducible refine State.veExec_canon ?_ ..) | dsimp only | split)

theorem execScan_pend {core : Nat} {work : Nat × Nat} {s : State} {zt : State} (zh : execScan core work s = .next zt) :
    zt.pend = s.pend := by
  unfold execScan at zh
  cases zh
  try dsimp only
  repeat' (first
    | with_reducible assumption | (simp only [State.pend_mk]; with_reducible refine (State.pend_eta _).trans ?_)
    | (with_reducible refine ite_pend ?_ ?_) | (with_reducible refine (State.veExec_pend ..).trans ?_)
    | with_reducible exact State.pend_self _ | dsimp only | split)

theorem execScan_canon {core : Nat} {work : Nat × Nat} {s : State} {zt : State} (hs : s.canon) (zh : execScan core work s = .next zt) :
    zt.canon := by
  unfold execScan at zh
  cases zh
  try dsimp only
  repeat' (first
    | with_reducible assumption | (simp only [State.canon_mk]; with_reducible refine State.canon_eta ?_)
    | (with_reducible refine ite_canon ?_ ?_) | (with_reducible refine State.veExec_canon ?_ ..) | dsimp only | split)

theorem execPermute_pend {core : Nat} {work : Nat × Nat} {s : State} {zt : State} (zh : execPermute core work s = .next zt) :
    zt.pend = s.pend := by
  unfold execPermute at zh
  cases zh
  try dsimp only
  repeat' (first
    | with_reducible assumption | (simp only [State.pend_mk]; with_reducible refine (State.pend_eta _).trans ?_)
    | (with_reducible refine ite_pend ?_ ?_) | (with_reducible refine (State.veExec_pend ..).trans ?_)
    | with_reducible exact State.pend_self _ | dsimp only | split)

theorem execPermute_canon {core : Nat} {work : Nat × Nat} {s : State} {zt : State} (hs : s.canon) (zh : execPermute core work s = .next zt) :
    zt.canon := by
  unfold execPermute at zh
  cases zh
  try dsimp only
  repeat' (first
    | with_reducible assumption | (simp only [State.canon_mk]; with_reducible refine State.canon_eta ?_)
    | (with_reducible refine ite_canon ?_ ?_) | (with_reducible refine State.veExec_canon ?_ ..) | dsimp only | split)

theorem execNorm_pend {core : Nat} {work : Nat × Nat} {s : State} {zt : State} (zh : execNorm core work s = .next zt) :
    zt.pend = s.pend := by
  unfold execNorm at zh
  cases zh
  try dsimp only
  repeat' (first
    | with_reducible assumption | (simp only [State.pend_mk]; with_reducible refine (State.pend_eta _).trans ?_)
    | (with_reducible refine ite_pend ?_ ?_) | (with_reducible refine (State.veExec_pend ..).trans ?_)
    | with_reducible exact State.pend_self _ | dsimp only | split)

theorem execNorm_canon {core : Nat} {work : Nat × Nat} {s : State} {zt : State} (hs : s.canon) (zh : execNorm core work s = .next zt) :
    zt.canon := by
  unfold execNorm at zh
  cases zh
  try dsimp only
  repeat' (first
    | with_reducible assumption | (simp only [State.canon_mk]; with_reducible refine State.canon_eta ?_)
    | (with_reducible refine ite_canon ?_ ?_) | (with_reducible refine State.veExec_canon ?_ ..) | dsimp only | split)

theorem execSoftmax_pend {core : Nat} {work : Nat × Nat} {s : State} {zt : State} (zh : execSoftmax core work s = .next zt) :
    zt.pend = s.pend := by
  unfold execSoftmax at zh
  cases zh
  try dsimp only
  repeat' (first
    | with_reducible assumption | (simp only [State.pend_mk]; with_reducible refine (State.pend_eta _).trans ?_)
    | (with_reducible refine ite_pend ?_ ?_) | (with_reducible refine (State.veExec_pend ..).trans ?_)
    | with_reducible exact State.pend_self _ | dsimp only | split)

theorem execSoftmax_canon {core : Nat} {work : Nat × Nat} {s : State} {zt : State} (hs : s.canon) (zh : execSoftmax core work s = .next zt) :
    zt.canon := by
  unfold execSoftmax at zh
  cases zh
  try dsimp only
  repeat' (first
    | with_reducible assumption | (simp only [State.canon_mk]; with_reducible refine State.canon_eta ?_)
    | (with_reducible refine ite_canon ?_ ?_) | (with_reducible refine State.veExec_canon ?_ ..) | dsimp only | split)

theorem execRowRecompute_pend {core : Nat} {work : Nat × Nat} {s : State} {zt : State} (zh : execRowRecompute core work s = .next zt) :
    zt.pend = s.pend := by
  unfold execRowRecompute at zh
  cases zh
  try dsimp only
  repeat' (first
    | with_reducible assumption | (simp only [State.pend_mk]; with_reducible refine (State.pend_eta _).trans ?_)
    | (with_reducible refine ite_pend ?_ ?_) | (with_reducible refine (State.veExec_pend ..).trans ?_)
    | with_reducible exact State.pend_self _ | dsimp only | split)

theorem execRowRecompute_canon {core : Nat} {work : Nat × Nat} {s : State} {zt : State} (hs : s.canon) (zh : execRowRecompute core work s = .next zt) :
    zt.canon := by
  unfold execRowRecompute at zh
  cases zh
  try dsimp only
  repeat' (first
    | with_reducible assumption | (simp only [State.canon_mk]; with_reducible refine State.canon_eta ?_)
    | (with_reducible refine ite_canon ?_ ?_) | (with_reducible refine State.veExec_canon ?_ ..) | dsimp only | split)

end Sys2Proof.Machine
end

