-- ==== Sys2Proof/Laws/FrameRecovery.lean ====
section
/-! SUPPORT. Frames of Machine/Recovery.lean: what each operation and command leaves alone of the memories and the queue. -/

set_option linter.all false

namespace Sys2Proof.Machine

theorem State.updFlt_mems (s : State) (f : FltSt → FltSt) :
    ((State.updFlt s f)).mems = s.mems := by
  unfold State.updFlt
  try dsimp only
  repeat' (first
    | with_reducible assumption | (simp only [State.mems_mk]; with_reducible refine (State.mems_eta _).trans ?_)
    | (with_reducible refine ite_mems ?_ ?_) | with_reducible exact State.mems_self _ | dsimp only | split)

theorem State.clearRegs_mems (s : State) (p : Nat → Bool) :
    ((State.clearRegs s p)).mems = s.mems := by
  unfold State.clearRegs
  try dsimp only
  repeat' (first
    | with_reducible assumption | (simp only [State.mems_mk]; with_reducible refine (State.mems_eta _).trans ?_)
    | (with_reducible refine ite_mems ?_ ?_) | with_reducible exact State.mems_self _ | dsimp only | split)

theorem State.putRegs_mems (s : State) (g : Nat) (es : List (Nat × BitVec 64)) :
    ((State.putRegs s g es)).mems = s.mems := by
  unfold State.putRegs
  try dsimp only
  repeat' (first
    | with_reducible assumption | (simp only [State.mems_mk]; with_reducible refine (State.mems_eta _).trans ?_)
    | (with_reducible refine ite_mems ?_ ?_) | (with_reducible refine (forEach_mems (fun _ _ => ?_) ..).trans ?_)
    | with_reducible exact State.mems_self _ | dsimp only | split)

theorem State.takeSave_pend (s : State) (g : Nat) (gen : Nat) :
    ((State.takeSave s g gen)).pend = s.pend := by
  unfold State.takeSave
  try dsimp only
  repeat' (first
    | with_reducible assumption | (simp only [State.pend_mk]; with_reducible refine (State.pend_eta _).trans ?_)
    | (with_reducible refine ite_pend ?_ ?_) | (with_reducible refine (State.writeAt_pend ..).trans ?_)
    | (with_reducible refine (forEach_pend (fun _ _ => ?_) ..).trans ?_) | with_reducible exact State.pend_self _
    | dsimp only | split)

theorem State.takeSave_canon {s : State} (hs : s.canon) (g : Nat) (gen : Nat) :
    ((State.takeSave s g gen)).canon := by
  unfold State.takeSave
  try dsimp only
  repeat' (first
    | with_reducible assumption | (simp only [State.canon_mk]; with_reducible refine State.canon_eta ?_)
    | (with_reducible refine ite_canon ?_ ?_) | (with_reducible refine State.writeAt_canon ?_ ..)
    | (with_reducible refine forEach_canon (fun _ _ _ => ?_) ?_ ..) | dsimp only | split)

theorem State.sendFlush_mems (s : State) (g : Nat) (pos : Nat) (gw : Nat) :
    ((State.sendFlush s g pos gw)).mems = s.mems := by
  unfold State.sendFlush
  try dsimp only
  repeat' (first
    | with_reducible assumption | (simp only [State.mems_mk]; with_reducible refine (State.mems_eta _).trans ?_)
    | (with_reducible refine ite_mems ?_ ?_) | (with_reducible refine (State.request_mems ..).trans ?_)
    | with_reducible exact State.mems_self _ | dsimp only | split)

theorem State.saveAt_pend (s : State) (g : Nat) (gen : Nat) (f : Core → Core) :
    ((State.saveAt s g gen f)).pend = s.pend := by
  unfold State.saveAt
  try dsimp only
  repeat' (first
    | with_reducible assumption | (simp only [State.pend_mk]; with_reducible refine (State.pend_eta _).trans ?_)
    | (with_reducible refine ite_pend ?_ ?_) | (with_reducible refine (State.takeSave_pend ..).trans ?_)
    | (with_reducible refine (State.veDrain_pend ..).trans ?_)
    | (with_reducible refine (State.pend_of_mems (State.dropDelivered_mems ..)).trans ?_)
    | (with_reducible refine (State.pend_of_mems (State.updCore_mems ..)).trans ?_)
    | with_reducible exact State.pend_self _ | dsimp only | split)

theorem State.saveAt_canon {s : State} (hs : s.canon) (g : Nat) (gen : Nat) (f : Core → Core) :
    ((State.saveAt s g gen f)).canon := by
  unfold State.saveAt
  try dsimp only
  repeat' (first
    | with_reducible assumption | (simp only [State.canon_mk]; with_reducible refine State.canon_eta ?_)
    | (with_reducible refine ite_canon ?_ ?_) | (with_reducible refine State.takeSave_canon ?_ ..)
    | (with_reducible refine State.veDrain_canon ?_ ..)
    | (with_reducible refine State.canon_of_mems (State.dropDelivered_mems ..) ?_)
    | (with_reducible refine State.canon_of_mems (State.updCore_mems ..) ?_) | dsimp only | split)

theorem State.reflag_mems (s : State) (g : Nat) (h : HaspRun) :
    ((State.reflag s g h)).mems = s.mems := by
  unfold State.reflag
  try dsimp only
  repeat' (first
    | with_reducible assumption | (simp only [State.mems_mk]; with_reducible refine (State.mems_eta _).trans ?_)
    | (with_reducible refine ite_mems ?_ ?_) | (with_reducible refine (State.updCore_mems ..).trans ?_)
    | with_reducible exact State.mems_self _ | dsimp only | split)

theorem State.thaw_mems (s : State) (g : Nat) :
    ((State.thaw s g)).mems = s.mems := by
  unfold State.thaw
  try dsimp only
  repeat' (first
    | with_reducible assumption | (simp only [State.mems_mk]; with_reducible refine (State.mems_eta _).trans ?_)
    | (with_reducible refine ite_mems ?_ ?_) | (with_reducible refine (State.reflag_mems ..).trans ?_)
    | (with_reducible refine (State.sendFlush_mems ..).trans ?_)
    | (with_reducible refine (State.drainHeld_mems ..).trans ?_)
    | (with_reducible refine (State.resend_mems ..).trans ?_)
    | (with_reducible refine (State.applySig_mems ..).trans ?_)
    | (with_reducible refine (State.evalTumbler_mems ..).trans ?_)
    | (with_reducible refine (State.setWaiters_mems ..).trans ?_)
    | (with_reducible refine (State.serveTakes_mems ..).trans ?_)
    | (with_reducible refine (State.updCore_mems ..).trans ?_)
    | (with_reducible refine (forEach_mems (fun _ _ => ?_) ..).trans ?_)
    | (with_reducible refine (forUpTo_mems (fun _ _ => ?_) ..).trans ?_) | with_reducible exact State.mems_self _
    | dsimp only | split)

theorem State.moveBases_mems (s : State) (g : Nat) (old : Nat) :
    ((State.moveBases s g old)).mems = s.mems := by
  unfold State.moveBases
  try dsimp only
  repeat' (first
    | with_reducible assumption | (simp only [State.mems_mk]; with_reducible refine (State.mems_eta _).trans ?_)
    | (with_reducible refine ite_mems ?_ ?_) | (with_reducible refine (State.updCore_mems ..).trans ?_)
    | (with_reducible refine (State.wr_mems ..).trans ?_)
    | (with_reducible refine (foldl_mems (fun _ _ => ?_) ..).trans ?_)
    | (with_reducible refine (foldl1_mems (fun _ _ => ?_) ..).trans ?_) | with_reducible exact State.mems_self _
    | dsimp only | split)

theorem State.loadSave_mems (s : State) (g : Nat) (v : Save) (redo : Bool) :
    ((State.loadSave s g v redo)).mems = s.mems := by
  unfold State.loadSave
  try dsimp only
  repeat' (first
    | with_reducible assumption | (simp only [State.mems_mk]; with_reducible refine (State.mems_eta _).trans ?_)
    | (with_reducible refine ite_mems ?_ ?_) | (with_reducible refine (State.moveBases_mems ..).trans ?_)
    | (with_reducible refine (State.putRegs_mems ..).trans ?_)
    | (with_reducible refine (State.clearRegs_mems ..).trans ?_)
    | (with_reducible refine (State.askGrant_mems ..).trans ?_)
    | (with_reducible refine (State.setCoreState_mems ..).trans ?_)
    | (with_reducible refine (State.updCore_mems ..).trans ?_)
    | (with_reducible refine (State.setCore_mems ..).trans ?_) | with_reducible exact State.mems_self _ | dsimp only
    | split)

theorem execContextSaveRequest_mems {core : Nat} {s : State} {zt : State} (zh : execContextSaveRequest core s = .next zt) :
    zt.mems = s.mems := by
  unfold execContextSaveRequest at zh
  cases zh
  try dsimp only
  repeat' (first
    | with_reducible assumption | (simp only [State.mems_mk]; with_reducible refine (State.mems_eta _).trans ?_)
    | (with_reducible refine ite_mems ?_ ?_) | (with_reducible refine (State.updCore_mems ..).trans ?_)
    | with_reducible exact State.mems_self _ | dsimp only | split)

theorem execFreezePoint_pend {core : Nat} {s : State} {zt : State} (zh : execFreezePoint core s = .next zt) :
    zt.pend = s.pend := by
  unfold execFreezePoint at zh
  cases zh
  try dsimp only
  repeat' (first
    | with_reducible assumption | (simp only [State.pend_mk]; with_reducible refine (State.pend_eta _).trans ?_)
    | (with_reducible refine ite_pend ?_ ?_) | (with_reducible refine (State.saveAt_pend ..).trans ?_)
    | with_reducible exact State.pend_self _ | dsimp only | split)

theorem execFreezePoint_canon {core : Nat} {s : State} {zt : State} (hs : s.canon) (zh : execFreezePoint core s = .next zt) :
    zt.canon := by
  unfold execFreezePoint at zh
  cases zh
  try dsimp only
  repeat' (first
    | with_reducible assumption | (simp only [State.canon_mk]; with_reducible refine State.canon_eta ?_)
    | (with_reducible refine ite_canon ?_ ?_) | (with_reducible refine State.saveAt_canon ?_ ..) | dsimp only | split)

theorem State.refuseInbound_mems (s : State) (g : Nat) :
    ((State.refuseInbound s g)).mems = s.mems := by
  unfold State.refuseInbound
  try dsimp only
  repeat' (first
    | with_reducible assumption | (simp only [State.mems_mk]; with_reducible refine (State.mems_eta _).trans ?_)
    | (with_reducible refine ite_mems ?_ ?_) | (with_reducible refine (State.updCore_mems ..).trans ?_)
    | (with_reducible refine (State.bump_mems ..).trans ?_) | with_reducible exact State.mems_self _ | dsimp only
    | split)

theorem execContextRestore_mems {core : Nat} {owner : Nat} {gen : Nat} {step : Nat} {s : State} {zt : State} (zh : execContextRestore core owner gen step s = .next zt) :
    zt.mems = s.mems := by
  unfold execContextRestore at zh
  cases zh
  try dsimp only
  repeat' (first
    | with_reducible assumption | (simp only [State.mems_mk]; with_reducible refine (State.mems_eta _).trans ?_)
    | (with_reducible refine ite_mems ?_ ?_) | (with_reducible refine (State.refuseInbound_mems ..).trans ?_)
    | (with_reducible refine (State.loadSave_mems ..).trans ?_)
    | (with_reducible refine (State.thaw_mems ..).trans ?_) | with_reducible exact State.mems_self _ | dsimp only
    | split)

theorem State.noteHeld_mems (s : State) (p : Nat) (gen : Nat) (step : Nat) :
    ((State.noteHeld s p gen step)).mems = s.mems := by
  unfold State.noteHeld
  try dsimp only
  repeat' (first
    | with_reducible assumption | (simp only [State.mems_mk]; with_reducible refine (State.mems_eta _).trans ?_)
    | (with_reducible refine ite_mems ?_ ?_) | (with_reducible refine (State.updFlt_mems ..).trans ?_)
    | with_reducible exact State.mems_self _ | dsimp only | split)

theorem State.tellHeld_mems (s : State) (gen : Nat) (step : Nat) :
    ((State.tellHeld s gen step)).mems = s.mems := by
  unfold State.tellHeld
  try dsimp only
  repeat' (first
    | with_reducible assumption | (simp only [State.mems_mk]; with_reducible refine (State.mems_eta _).trans ?_)
    | (with_reducible refine ite_mems ?_ ?_) | (with_reducible refine (State.tellAll_mems ..).trans ?_)
    | with_reducible exact State.mems_self _ | dsimp only | split)

theorem execStartSave_pend {core : Nat} {s : State} {zt : State} (zh : execStartSave core s = .next zt) :
    zt.pend = s.pend := by
  unfold execStartSave at zh
  cases zh
  try dsimp only
  repeat' (first
    | with_reducible assumption | (simp only [State.pend_mk]; with_reducible refine (State.pend_eta _).trans ?_)
    | (with_reducible refine ite_pend ?_ ?_)
    | (with_reducible refine (State.pend_of_mems (State.tellHeld_mems ..)).trans ?_)
    | (with_reducible refine (State.saveAt_pend ..).trans ?_)
    | (with_reducible refine (State.pend_of_mems (State.normHead_mems ..)).trans ?_)
    | with_reducible exact State.pend_self _ | dsimp only | split)

theorem execStartSave_canon {core : Nat} {s : State} {zt : State} (hs : s.canon) (zh : execStartSave core s = .next zt) :
    zt.canon := by
  unfold execStartSave at zh
  cases zh
  try dsimp only
  repeat' (first
    | with_reducible assumption | (simp only [State.canon_mk]; with_reducible refine State.canon_eta ?_)
    | (with_reducible refine ite_canon ?_ ?_)
    | (with_reducible refine State.canon_of_mems (State.tellHeld_mems ..) ?_)
    | (with_reducible refine State.saveAt_canon ?_ ..)
    | (with_reducible refine State.canon_of_mems (State.normHead_mems ..) ?_) | dsimp only | split)

theorem execDerivationSave_pend {core : Nat} {s : State} {zt : State} (zh : execDerivationSave core s = .next zt) :
    zt.pend = s.pend := by
  unfold execDerivationSave at zh
  cases zh
  try dsimp only
  repeat' (first
    | with_reducible assumption | (simp only [State.pend_mk]; with_reducible refine (State.pend_eta _).trans ?_)
    | (with_reducible refine ite_pend ?_ ?_)
    | (with_reducible refine (State.pend_of_mems (State.tellHeld_mems ..)).trans ?_)
    | (with_reducible refine (State.saveAt_pend ..).trans ?_)
    | (with_reducible refine (State.pend_of_mems (State.tellLead_mems ..)).trans ?_)
    | with_reducible exact State.pend_self _ | dsimp only | split)

theorem execDerivationSave_canon {core : Nat} {s : State} {zt : State} (hs : s.canon) (zh : execDerivationSave core s = .next zt) :
    zt.canon := by
  unfold execDerivationSave at zh
  cases zh
  try dsimp only
  repeat' (first
    | with_reducible assumption | (simp only [State.canon_mk]; with_reducible refine State.canon_eta ?_)
    | (with_reducible refine ite_canon ?_ ?_)
    | (with_reducible refine State.canon_of_mems (State.tellHeld_mems ..) ?_)
    | (with_reducible refine State.saveAt_canon ?_ ..)
    | (with_reducible refine State.canon_of_mems (State.tellLead_mems ..) ?_) | dsimp only | split)

theorem execDerivationPoint_mems {step : Nat} {ready : List (Nat × List (Nat × Nat))} {s : State} {zt : State} (zh : execDerivationPoint step ready s = .next zt) :
    zt.mems = s.mems := by
  unfold execDerivationPoint at zh
  cases zh
  try dsimp only
  repeat' (first
    | with_reducible assumption | (simp only [State.mems_mk]; with_reducible refine (State.mems_eta _).trans ?_)
    | (with_reducible refine ite_mems ?_ ?_) | (with_reducible refine (State.updFlt_mems ..).trans ?_)
    | (with_reducible refine (State.remoteSig_mems ..).trans ?_)
    | (with_reducible refine (State.deliverSig_mems ..).trans ?_)
    | (with_reducible refine (forEach_mems (fun _ _ => ?_) ..).trans ?_) | with_reducible exact State.mems_self _
    | dsimp only | split)

theorem State.moveRanks_mems (s : State) (pkg : Nat) (old : Nat) (new : Nat) :
    ((State.moveRanks s pkg old new)).mems = s.mems := by
  unfold State.moveRanks
  try dsimp only
  repeat' (first
    | with_reducible assumption | (simp only [State.mems_mk]; with_reducible refine (State.mems_eta _).trans ?_)
    | (with_reducible refine ite_mems ?_ ?_) | (with_reducible refine (State.updImg_mems ..).trans ?_)
    | with_reducible exact State.mems_self _ | dsimp only | split)

theorem State.restoreStatus_mems (s : State) (step : Nat) (gen : Nat) (phase : Nat) :
    ((State.restoreStatus s step gen phase)).mems = s.mems := by
  unfold State.restoreStatus
  try dsimp only
  repeat' (first
    | with_reducible assumption | (simp only [State.mems_mk]; with_reducible refine (State.mems_eta _).trans ?_)
    | (with_reducible refine ite_mems ?_ ?_) | (with_reducible refine (State.wr_mems ..).trans ?_)
    | with_reducible exact State.mems_self _ | dsimp only | split)

theorem State.dropFabric_mems (s : State) :
    ((State.dropFabric s)).mems = s.mems := by
  unfold State.dropFabric
  try dsimp only
  repeat' (first
    | with_reducible assumption | (simp only [State.mems_mk]; with_reducible refine (State.mems_eta _).trans ?_)
    | (with_reducible refine ite_mems ?_ ?_) | (with_reducible refine (State.startReset_mems ..).trans ?_)
    | (with_reducible refine (State.updPrg_mems ..).trans ?_)
    | (with_reducible refine (State.updCore_mems ..).trans ?_)
    | (with_reducible refine (forEach_mems (fun _ _ => ?_) ..).trans ?_)
    | (with_reducible refine (forUpTo_mems (fun _ _ => ?_) ..).trans ?_) | with_reducible exact State.mems_self _
    | dsimp only | split)

theorem State.dropSums_mems (s : State) :
    ((State.dropSums s)).mems = s.mems := by
  unfold State.dropSums
  try dsimp only
  repeat' (first
    | with_reducible assumption | (simp only [State.mems_mk]; with_reducible refine (State.mems_eta _).trans ?_)
    | (with_reducible refine ite_mems ?_ ?_) | (with_reducible refine (State.updPrg_mems ..).trans ?_)
    | with_reducible exact State.mems_self _ | dsimp only | split)

theorem State.restartWindows_mems (s : State) (vs : List Save) :
    ((State.restartWindows s vs)).mems = s.mems := by
  unfold State.restartWindows
  try dsimp only
  repeat' (first
    | with_reducible assumption | (simp only [State.mems_mk]; with_reducible refine (State.mems_eta _).trans ?_)
    | (with_reducible refine ite_mems ?_ ?_) | (with_reducible refine (State.updTier_mems ..).trans ?_)
    | with_reducible exact State.mems_self _ | dsimp only | split)

theorem State.restartStep_mems (s : State) :
    ((State.restartStep s)).mems = s.mems := by
  unfold State.restartStep
  try dsimp only
  repeat' (first
    | with_reducible assumption | (simp only [State.mems_mk]; with_reducible refine (State.mems_eta _).trans ?_)
    | (with_reducible refine ite_mems ?_ ?_) | (with_reducible refine (State.hostRead_mems ..).trans ?_)
    | (with_reducible refine (State.updHost_mems ..).trans ?_) | with_reducible exact State.mems_self _ | dsimp only
    | split)

theorem State.loadAll_mems (s : State) (vs : List Save) (redo : Bool) :
    ((State.loadAll s vs redo)).mems = s.mems := by
  unfold State.loadAll
  try dsimp only
  repeat' (first
    | with_reducible assumption | (simp only [State.mems_mk]; with_reducible refine (State.mems_eta _).trans ?_)
    | (with_reducible refine ite_mems ?_ ?_) | (with_reducible refine (State.loadSave_mems ..).trans ?_)
    | (with_reducible refine (State.updFlt_mems ..).trans ?_)
    | (with_reducible refine (forEach_mems (fun _ _ => ?_) ..).trans ?_) | with_reducible exact State.mems_self _
    | dsimp only | split)

theorem State.stopUnits_mems (s : State) :
    ((State.stopUnits s)).mems = s.mems := by
  unfold State.stopUnits
  try dsimp only
  repeat' (first
    | with_reducible assumption | (simp only [State.mems_mk]; with_reducible refine (State.mems_eta _).trans ?_)
    | (with_reducible refine ite_mems ?_ ?_) | (with_reducible refine (State.updCore_mems ..).trans ?_)
    | (with_reducible refine (forEach_mems (fun _ _ => ?_) ..).trans ?_) | with_reducible exact State.mems_self _
    | dsimp only | split)

theorem State.orderRestore_mems (s : State) (gen : Nat) (step : Nat) :
    ((State.orderRestore s gen step)).mems = s.mems := by
  unfold State.orderRestore
  try dsimp only
  repeat' (first
    | with_reducible assumption | (simp only [State.mems_mk]; with_reducible refine (State.mems_eta _).trans ?_)
    | (with_reducible refine ite_mems ?_ ?_) | (with_reducible refine (State.restoreStatus_mems ..).trans ?_)
    | (with_reducible refine (State.tellAll_mems ..).trans ?_) | with_reducible exact State.mems_self _ | dsimp only
    | split)

theorem State.restoreDue_mems (s : State) (lost : Bool) :
    ((State.restoreDue s lost)).mems = s.mems := by
  unfold State.restoreDue
  try dsimp only
  repeat' (first
    | with_reducible assumption | (simp only [State.mems_mk]; with_reducible refine (State.mems_eta _).trans ?_)
    | (with_reducible refine ite_mems ?_ ?_) | (with_reducible refine (State.orderRestore_mems ..).trans ?_)
    | with_reducible exact State.mems_self _ | dsimp only | split)

theorem State.stopRun_mems (s : State) (cls : Nat) :
    ((State.stopRun s cls)).mems = s.mems := by
  unfold State.stopRun
  try dsimp only
  repeat' (first
    | with_reducible assumption | (simp only [State.mems_mk]; with_reducible refine (State.mems_eta _).trans ?_)
    | (with_reducible refine ite_mems ?_ ?_) | (with_reducible refine (State.tellAll_mems ..).trans ?_)
    | with_reducible exact State.mems_self _ | dsimp only | split)

theorem State.dropSnap_pend (s : State) :
    ((State.dropSnap s)).pend = s.pend := by
  unfold State.dropSnap
  try dsimp only
  repeat' (first
    | with_reducible assumption | (simp only [State.pend_mk]; with_reducible refine (State.pend_eta _).trans ?_)
    | (with_reducible refine ite_pend ?_ ?_) | (with_reducible refine (State.releaseWrites_pend ..).trans ?_)
    | (with_reducible refine (State.pend_of_mems (State.wrF_mems ..)).trans ?_)
    | (with_reducible refine (forEach_pend (fun _ _ => ?_) ..).trans ?_) | with_reducible exact State.pend_self _
    | dsimp only | split)

theorem State.dropSnap_canon {s : State} (hs : s.canon) :
    ((State.dropSnap s)).canon := by
  unfold State.dropSnap
  try dsimp only
  repeat' (first
    | with_reducible assumption | (simp only [State.canon_mk]; with_reducible refine State.canon_eta ?_)
    | (with_reducible refine ite_canon ?_ ?_) | (with_reducible refine State.releaseWrites_canon ?_ ..)
    | (with_reducible refine State.canon_of_mems (State.wrF_mems ..) ?_)
    | (with_reducible refine forEach_canon (fun _ _ _ => ?_) ?_ ..) | dsimp only | split)

theorem State.fallback_pend (s : State) (c : Ckpt) :
    ((State.fallback s c)).pend = s.pend := by
  unfold State.fallback
  try dsimp only
  repeat' (first
    | with_reducible assumption | (simp only [State.pend_mk]; with_reducible refine (State.pend_eta _).trans ?_)
    | (with_reducible refine ite_pend ?_ ?_) | (with_reducible refine (State.dropSnap_pend ..).trans ?_)
    | (with_reducible refine (State.pend_of_mems (State.stopUnits_mems ..)).trans ?_)
    | (with_reducible refine (State.pend_of_mems (State.dropFabric_mems ..)).trans ?_)
    | (with_reducible refine (State.pend_of_mems (State.restoreStatus_mems ..)).trans ?_)
    | (with_reducible refine (State.pend_of_mems (State.request_mems ..)).trans ?_)
    | (with_reducible refine (forEach_pend (fun _ _ => ?_) ..).trans ?_)
    | (with_reducible refine (forUpTo_pend (fun _ _ => ?_) ..).trans ?_) | with_reducible exact State.pend_self _
    | dsimp only | split)

theorem State.fallback_canon {s : State} (hs : s.canon) (c : Ckpt) :
    ((State.fallback s c)).canon := by
  unfold State.fallback
  try dsimp only
  repeat' (first
    | with_reducible assumption | (simp only [State.canon_mk]; with_reducible refine State.canon_eta ?_)
    | (with_reducible refine ite_canon ?_ ?_) | (with_reducible refine State.dropSnap_canon ?_ ..)
    | (with_reducible refine State.canon_of_mems (State.stopUnits_mems ..) ?_)
    | (with_reducible refine State.canon_of_mems (State.dropFabric_mems ..) ?_)
    | (with_reducible refine State.canon_of_mems (State.restoreStatus_mems ..) ?_)
    | (with_reducible refine State.canon_of_mems (State.request_mems ..) ?_)
    | (with_reducible refine forEach_canon (fun _ _ _ => ?_) ?_ ..)
    | (with_reducible refine forUpTo_canon (fun _ _ _ => ?_) ?_ ..) | dsimp only | split)

theorem State.fallBack_pend (s : State) (x1 : List Ckpt) :
    ((State.fallBack s x1)).pend = s.pend := by
  unfold State.fallBack
  try dsimp only
  repeat' (first
    | with_reducible assumption | (simp only [State.pend_mk]; with_reducible refine (State.pend_eta _).trans ?_)
    | (with_reducible refine ite_pend ?_ ?_) | (with_reducible refine (State.fallback_pend ..).trans ?_)
    | (with_reducible refine (State.pend_of_mems (State.stopRun_mems ..)).trans ?_)
    | (with_reducible refine (State.pend_of_mems (State.updFlt_mems ..)).trans ?_)
    | (with_reducible refine (State.pend_of_mems (State.tellAll_mems ..)).trans ?_)
    | with_reducible exact State.pend_self _ | dsimp only | split)

theorem State.fallBack_canon {s : State} (hs : s.canon) (x1 : List Ckpt) :
    ((State.fallBack s x1)).canon := by
  unfold State.fallBack
  try dsimp only
  repeat' (first
    | with_reducible assumption | (simp only [State.canon_mk]; with_reducible refine State.canon_eta ?_)
    | (with_reducible refine ite_canon ?_ ?_) | (with_reducible refine State.fallback_canon ?_ ..)
    | (with_reducible refine State.canon_of_mems (State.stopRun_mems ..) ?_)
    | (with_reducible refine State.canon_of_mems (State.updFlt_mems ..) ?_)
    | (with_reducible refine State.canon_of_mems (State.tellAll_mems ..) ?_) | dsimp only | split)

theorem execRestore_pend {step : Nat} {gen : Nat} {moves : List (Nat × Nat × Nat)} {s : State} {zt : State} (zh : execRestore step gen moves s = .next zt) :
    zt.pend = s.pend := by
  unfold execRestore at zh
  cases zh
  try dsimp only
  repeat' (first
    | with_reducible assumption | (simp only [State.pend_mk]; with_reducible refine (State.pend_eta _).trans ?_)
    | (with_reducible refine ite_pend ?_ ?_) | (with_reducible refine (State.fallBack_pend ..).trans ?_)
    | (with_reducible refine (State.fallback_pend ..).trans ?_)
    | (with_reducible refine (State.pend_of_mems (State.stopUnits_mems ..)).trans ?_)
    | (with_reducible refine (State.pend_of_mems (State.loadAll_mems ..)).trans ?_)
    | (with_reducible refine (State.pend_of_mems (State.restartStep_mems ..)).trans ?_)
    | (with_reducible refine (State.pend_of_mems (State.restartWindows_mems ..)).trans ?_)
    | (with_reducible refine (State.pend_of_mems (State.dropSums_mems ..)).trans ?_)
    | (with_reducible refine (State.pend_of_mems (State.dropFabric_mems ..)).trans ?_)
    | (with_reducible refine (State.pend_of_mems (State.restoreStatus_mems ..)).trans ?_)
    | (with_reducible refine (State.pend_of_mems (State.moveRanks_mems ..)).trans ?_)
    | (with_reducible refine (State.pend_of_mems (State.updFlt_mems ..)).trans ?_)
    | (with_reducible refine (State.pend_of_mems (State.tellAll_mems ..)).trans ?_)
    | (with_reducible refine (State.pend_of_mems (State.tellLead_mems ..)).trans ?_)
    | (with_reducible refine (State.pend_of_mems (State.bump_mems ..)).trans ?_)
    | (with_reducible refine (forEach_pend (fun _ _ => ?_) ..).trans ?_) | with_reducible exact State.pend_self _
    | dsimp only | split)

theorem execRestore_canon {step : Nat} {gen : Nat} {moves : List (Nat × Nat × Nat)} {s : State} {zt : State} (hs : s.canon) (zh : execRestore step gen moves s = .next zt) :
    zt.canon := by
  unfold execRestore at zh
  cases zh
  try dsimp only
  repeat' (first
    | with_reducible assumption | (simp only [State.canon_mk]; with_reducible refine State.canon_eta ?_)
    | (with_reducible refine ite_canon ?_ ?_) | (with_reducible refine State.fallBack_canon ?_ ..)
    | (with_reducible refine State.fallback_canon ?_ ..)
    | (with_reducible refine State.canon_of_mems (State.stopUnits_mems ..) ?_)
    | (with_reducible refine State.canon_of_mems (State.loadAll_mems ..) ?_)
    | (with_reducible refine State.canon_of_mems (State.restartStep_mems ..) ?_)
    | (with_reducible refine State.canon_of_mems (State.restartWindows_mems ..) ?_)
    | (with_reducible refine State.canon_of_mems (State.dropSums_mems ..) ?_)
    | (with_reducible refine State.canon_of_mems (State.dropFabric_mems ..) ?_)
    | (with_reducible refine State.canon_of_mems (State.restoreStatus_mems ..) ?_)
    | (with_reducible refine State.canon_of_mems (State.moveRanks_mems ..) ?_)
    | (with_reducible refine State.canon_of_mems (State.updFlt_mems ..) ?_)
    | (with_reducible refine State.canon_of_mems (State.tellAll_mems ..) ?_)
    | (with_reducible refine State.canon_of_mems (State.tellLead_mems ..) ?_)
    | (with_reducible refine State.canon_of_mems (State.bump_mems ..) ?_)
    | (with_reducible refine forEach_canon (fun _ _ _ => ?_) ?_ ..) | dsimp only | split)

theorem State.closeWindows_mems (s : State) :
    ((State.closeWindows s)).mems = s.mems := by
  unfold State.closeWindows
  try dsimp only
  repeat' (first
    | with_reducible assumption | (simp only [State.mems_mk]; with_reducible refine (State.mems_eta _).trans ?_)
    | (with_reducible refine ite_mems ?_ ?_) | (with_reducible refine (State.closeRecords_mems ..).trans ?_)
    | with_reducible exact State.mems_self _ | dsimp only | split)

theorem execResume_mems {ready : List Nat} {s : State} {zt : State} (zh : execResume ready s = .next zt) :
    zt.mems = s.mems := by
  unfold execResume at zh
  cases zh
  try dsimp only
  repeat' (first
    | with_reducible assumption | (simp only [State.mems_mk]; with_reducible refine (State.mems_eta _).trans ?_)
    | (with_reducible refine ite_mems ?_ ?_) | (with_reducible refine (State.closeWindows_mems ..).trans ?_)
    | (with_reducible refine (State.thaw_mems ..).trans ?_) | (with_reducible refine (State.tellAll_mems ..).trans ?_)
    | (with_reducible refine (State.updCore_mems ..).trans ?_) | (with_reducible refine (State.wrF_mems ..).trans ?_)
    | (with_reducible refine (forEach_mems (fun _ _ => ?_) ..).trans ?_) | with_reducible exact State.mems_self _
    | dsimp only | split)

end Sys2Proof.Machine
end

