-- ==== Sys2Proof/Laws/FrameFaults.lean ====
section
/-! SUPPORT. Frames of Machine/Faults.lean: what each operation and command leaves alone of the memories and the queue. -/

set_option linter.all false

namespace Sys2Proof.Machine

theorem State.fltEnter_mems (s : State) (r : FaultRec) :
    ((State.fltEnter s r)).mems = s.mems := by
  unfold State.fltEnter
  try dsimp only
  repeat' (first
    | with_reducible assumption | (simp only [State.mems_mk]; with_reducible refine (State.mems_eta _).trans ?_)
    | (with_reducible refine ite_mems ?_ ?_) | (with_reducible refine (State.tellGateways_mems ..).trans ?_)
    | (with_reducible refine (State.eventEntry_mems ..).trans ?_)
    | (with_reducible refine (State.faultPin_mems ..).trans ?_) | with_reducible exact State.mems_self _ | dsimp only
    | split)

theorem State.fltMerge_mems (s : State) (r : FaultRec) :
    ((State.fltMerge s r)).mems = s.mems := by
  unfold State.fltMerge
  try dsimp only
  repeat' (first
    | with_reducible assumption | (simp only [State.mems_mk]; with_reducible refine (State.mems_eta _).trans ?_)
    | (with_reducible refine ite_mems ?_ ?_) | (with_reducible refine (State.bump_mems ..).trans ?_)
    | with_reducible exact State.mems_self _ | dsimp only | split)

theorem State.dropLoad_mems (s : State) :
    ((State.dropLoad s)).mems = s.mems := by
  unfold State.dropLoad
  try dsimp only
  repeat' (first
    | with_reducible assumption | (simp only [State.mems_mk]; with_reducible refine (State.mems_eta _).trans ?_)
    | (with_reducible refine ite_mems ?_ ?_) | (with_reducible refine (State.updImg_mems ..).trans ?_)
    | (with_reducible refine (State.wrF_mems ..).trans ?_) | with_reducible exact State.mems_self _ | dsimp only
    | split)

theorem State.holdRefusal_mems (s : State) (code : Nat) :
    ((State.holdRefusal s code)).mems = s.mems := by
  unfold State.holdRefusal
  try dsimp only
  repeat' (first
    | with_reducible assumption | (simp only [State.mems_mk]; with_reducible refine (State.mems_eta _).trans ?_)
    | (with_reducible refine ite_mems ?_ ?_) | (with_reducible refine (State.bump_mems ..).trans ?_)
    | (with_reducible refine (State.wrF_mems ..).trans ?_) | with_reducible exact State.mems_self _ | dsimp only
    | split)

theorem State.abortLoad_mems (s : State) (code : Nat) (pkg : Nat) :
    ((State.abortLoad s code pkg)).mems = s.mems := by
  unfold State.abortLoad
  try dsimp only
  repeat' (first
    | with_reducible assumption | (simp only [State.mems_mk]; with_reducible refine (State.mems_eta _).trans ?_)
    | (with_reducible refine ite_mems ?_ ?_) | (with_reducible refine (State.holdRefusal_mems ..).trans ?_)
    | (with_reducible refine (State.dropLoad_mems ..).trans ?_)
    | (with_reducible refine (State.finishJob_mems ..).trans ?_)
    | (with_reducible refine (State.updImg_mems ..).trans ?_) | (with_reducible refine (State.send_mems ..).trans ?_)
    | with_reducible exact State.mems_self _ | dsimp only | split)

theorem State.adoptStatus_mems (s : State) (state : Nat) (fenced : Nat) (adopter : Nat) (source : Nat) (left : Nat) :
    ((State.adoptStatus s state fenced adopter source left)).mems = s.mems := by
  unfold State.adoptStatus
  try dsimp only
  repeat' (first
    | with_reducible assumption | (simp only [State.mems_mk]; with_reducible refine (State.mems_eta _).trans ?_)
    | (with_reducible refine ite_mems ?_ ?_) | (with_reducible refine (State.wr_mems ..).trans ?_)
    | with_reducible exact State.mems_self _ | dsimp only | split)

theorem State.deadbolt_mems (s : State) (g : Nat) :
    ((State.deadbolt s g)).mems = s.mems := by
  unfold State.deadbolt
  try dsimp only
  repeat' (first
    | with_reducible assumption | (simp only [State.mems_mk]; with_reducible refine (State.mems_eta _).trans ?_)
    | (with_reducible refine ite_mems ?_ ?_) | (with_reducible refine (State.adoptStatus_mems ..).trans ?_)
    | (with_reducible refine (State.abortLoad_mems ..).trans ?_)
    | (with_reducible refine (State.updFlt_mems ..).trans ?_) | (with_reducible refine (State.send_mems ..).trans ?_)
    | (with_reducible refine (State.updCore_mems ..).trans ?_) | with_reducible exact State.mems_self _ | dsimp only
    | split)

theorem State.fenceOff_mems (s : State) (g : Nat) :
    ((State.fenceOff s g)).mems = s.mems := by
  unfold State.fenceOff
  try dsimp only
  repeat' (first
    | with_reducible assumption | (simp only [State.mems_mk]; with_reducible refine (State.mems_eta _).trans ?_)
    | (with_reducible refine ite_mems ?_ ?_) | (with_reducible refine (State.adoptStatus_mems ..).trans ?_)
    | (with_reducible refine (State.updVlt_mems ..).trans ?_)
    | (with_reducible refine (State.updCore_mems ..).trans ?_) | with_reducible exact State.mems_self _ | dsimp only
    | split)

theorem State.repairGo_mems (s : State) :
    ((State.repairGo s)).mems = s.mems := by
  unfold State.repairGo
  try dsimp only
  repeat' (first
    | with_reducible assumption | (simp only [State.mems_mk]; with_reducible refine (State.mems_eta _).trans ?_)
    | (with_reducible refine ite_mems ?_ ?_) | (with_reducible refine (State.updFlt_mems ..).trans ?_)
    | (with_reducible refine (State.request_mems ..).trans ?_)
    | (with_reducible refine (forEach_mems (fun _ _ => ?_) ..).trans ?_) | with_reducible exact State.mems_self _
    | dsimp only | split)

theorem State.addRepairs_mems (s : State) (rs : List (Nat × Nat × Nat × Nat)) :
    ((State.addRepairs s rs)).mems = s.mems := by
  unfold State.addRepairs
  try dsimp only
  repeat' (first
    | with_reducible assumption | (simp only [State.mems_mk]; with_reducible refine (State.mems_eta _).trans ?_)
    | (with_reducible refine ite_mems ?_ ?_) | (with_reducible refine (State.repairGo_mems ..).trans ?_)
    | (with_reducible refine (State.updFlt_mems ..).trans ?_) | with_reducible exact State.mems_self _ | dsimp only
    | split)

theorem State.dropRepairs_mems (s : State) (p : Nat × Nat × Nat × Nat → Bool) :
    ((State.dropRepairs s p)).mems = s.mems := by
  unfold State.dropRepairs
  try dsimp only
  repeat' (first
    | with_reducible assumption | (simp only [State.mems_mk]; with_reducible refine (State.mems_eta _).trans ?_)
    | (with_reducible refine ite_mems ?_ ?_) | (with_reducible refine (State.repairGo_mems ..).trans ?_)
    | (with_reducible refine (State.updFlt_mems ..).trans ?_) | with_reducible exact State.mems_self _ | dsimp only
    | split)

theorem State.refillFrom_mems (s : State) (a : Nat) (i : Nat) (v : Nat) (src : Option Nat) :
    ((State.refillFrom s a i v src)).mems = s.mems := by
  unfold State.refillFrom
  try dsimp only
  repeat' (first
    | with_reducible assumption | (simp only [State.mems_mk]; with_reducible refine (State.mems_eta _).trans ?_)
    | (with_reducible refine ite_mems ?_ ?_) | (with_reducible refine (State.addRepairs_mems ..).trans ?_)
    | (with_reducible refine (State.updFlt_mems ..).trans ?_) | (with_reducible refine (State.wrF_mems ..).trans ?_)
    | with_reducible exact State.mems_self _ | dsimp only | split)

theorem State.copyLines_pend (s : State) (f : Nat) (a : Nat) (ls : List Nat) :
    ((State.copyLines s f a ls)).pend = s.pend := by
  unfold State.copyLines
  try dsimp only
  repeat' (first
    | with_reducible assumption | (simp only [State.pend_mk]; with_reducible refine (State.pend_eta _).trans ?_)
    | (with_reducible refine ite_pend ?_ ?_) | (with_reducible refine (State.putRaw_pend ..).trans ?_)
    | (with_reducible refine (forEach_pend (fun _ _ => ?_) ..).trans ?_) | with_reducible exact State.pend_self _
    | dsimp only | split)

theorem State.copyLines_canon {s : State} (hs : s.canon) (f : Nat) (a : Nat) (ls : List Nat) :
    ((State.copyLines s f a ls)).canon := by
  unfold State.copyLines
  try dsimp only
  repeat' (first
    | with_reducible assumption | (simp only [State.canon_mk]; with_reducible refine State.canon_eta ?_)
    | (with_reducible refine ite_canon ?_ ?_) | (with_reducible refine State.putRaw_canon ?_ ..)
    | (with_reducible refine forEach_canon (fun _ _ _ => ?_) ?_ ..) | dsimp only | split)

theorem State.copyVault_pend (s : State) (f : Nat) (a : Nat) (shards : List Nat) :
    ((State.copyVault s f a shards)).pend = s.pend := by
  unfold State.copyVault
  try dsimp only
  repeat' (first
    | with_reducible assumption | (simp only [State.pend_mk]; with_reducible refine (State.pend_eta _).trans ?_)
    | (with_reducible refine ite_pend ?_ ?_) | (with_reducible refine (State.copyLines_pend ..).trans ?_)
    | with_reducible exact State.pend_self _ | dsimp only | split)

theorem State.copyVault_canon {s : State} (hs : s.canon) (f : Nat) (a : Nat) (shards : List Nat) :
    ((State.copyVault s f a shards)).canon := by
  unfold State.copyVault
  try dsimp only
  repeat' (first
    | with_reducible assumption | with_reducible exact State.reset_canon
    | (simp only [State.canon_mk]; with_reducible refine State.canon_resetStage ?_)
    | (simp only [State.canon_mk]; with_reducible refine State.canon_none)
    | (simp only [State.canon_mk]; with_reducible refine State.canon_noVault ?_)
    | (simp only [State.canon_mk]; with_reducible refine State.canon_noStage ?_)
    | (simp only [State.canon_mk]; with_reducible refine State.canon_clearVault ?_)
    | (simp only [State.canon_mk]; with_reducible refine State.canon_clearStage ?_)
    | (simp only [State.canon_mk]; with_reducible refine State.canon_eta ?_) | (with_reducible refine ite_canon ?_ ?_)
    | (with_reducible refine State.copyLines_canon ?_ ..) | dsimp only | split)

theorem State.refill_pend (s : State) (f : Nat) (a : Nat) :
    ((State.refill s f a)).pend = s.pend := by
  unfold State.refill
  try dsimp only
  repeat' (first
    | with_reducible assumption | (simp only [State.pend_mk]; with_reducible refine (State.pend_eta _).trans ?_)
    | (with_reducible refine ite_pend ?_ ?_) | (with_reducible refine (State.copyVault_pend ..).trans ?_)
    | (with_reducible refine (State.pend_of_mems (State.refillFrom_mems ..)).trans ?_)
    | (with_reducible refine (State.pend_of_mems (State.updFlt_mems ..)).trans ?_)
    | (with_reducible refine (State.pend_of_mems (State.bump_mems ..)).trans ?_)
    | (with_reducible refine (forEach_pend (fun _ _ => ?_) ..).trans ?_) | with_reducible exact State.pend_self _
    | dsimp only | split)

theorem State.refill_canon {s : State} (hs : s.canon) (f : Nat) (a : Nat) :
    ((State.refill s f a)).canon := by
  unfold State.refill
  try dsimp only
  repeat' (first
    | with_reducible assumption | (simp only [State.canon_mk]; with_reducible refine State.canon_eta ?_)
    | (with_reducible refine ite_canon ?_ ?_) | (with_reducible refine State.copyVault_canon ?_ ..)
    | (with_reducible refine State.canon_of_mems (State.refillFrom_mems ..) ?_)
    | (with_reducible refine State.canon_of_mems (State.updFlt_mems ..) ?_)
    | (with_reducible refine State.canon_of_mems (State.bump_mems ..) ?_)
    | (with_reducible refine forEach_canon (fun _ _ _ => ?_) ?_ ..) | dsimp only | split)

theorem State.adopt_pend (s : State) (g : Nat) (a : Nat) :
    ((State.adopt s g a)).pend = s.pend := by
  unfold State.adopt
  try dsimp only
  repeat' (first
    | with_reducible assumption | (simp only [State.pend_mk]; with_reducible refine (State.pend_eta _).trans ?_)
    | (with_reducible refine ite_pend ?_ ?_) | (with_reducible refine (State.refill_pend ..).trans ?_)
    | (with_reducible refine (State.pend_of_mems (State.adoptStatus_mems ..)).trans ?_)
    | (with_reducible refine (State.pend_of_mems (State.moveRanks_mems ..)).trans ?_)
    | (with_reducible refine (State.pend_of_mems (State.updFlt_mems ..)).trans ?_)
    | (with_reducible refine (State.pend_of_mems (State.tellAll_mems ..)).trans ?_)
    | (with_reducible refine (State.pend_of_mems (State.askGrant_mems ..)).trans ?_)
    | (with_reducible refine (State.pend_of_mems (State.setCoreState_mems ..)).trans ?_)
    | (with_reducible refine (State.pend_of_mems (State.updCore_mems ..)).trans ?_)
    | with_reducible exact State.pend_self _ | dsimp only | split)

theorem State.adopt_canon {s : State} (hs : s.canon) (g : Nat) (a : Nat) :
    ((State.adopt s g a)).canon := by
  unfold State.adopt
  try dsimp only
  repeat' (first
    | with_reducible assumption | (simp only [State.canon_mk]; with_reducible refine State.canon_eta ?_)
    | (with_reducible refine ite_canon ?_ ?_) | (with_reducible refine State.refill_canon ?_ ..)
    | (with_reducible refine State.canon_of_mems (State.adoptStatus_mems ..) ?_)
    | (with_reducible refine State.canon_of_mems (State.moveRanks_mems ..) ?_)
    | (with_reducible refine State.canon_of_mems (State.updFlt_mems ..) ?_)
    | (with_reducible refine State.canon_of_mems (State.tellAll_mems ..) ?_)
    | (with_reducible refine State.canon_of_mems (State.askGrant_mems ..) ?_)
    | (with_reducible refine State.canon_of_mems (State.setCoreState_mems ..) ?_)
    | (with_reducible refine State.canon_of_mems (State.updCore_mems ..) ?_) | dsimp only | split)

theorem State.exhausted_mems (s : State) (g : Nat) :
    ((State.exhausted s g)).mems = s.mems := by
  unfold State.exhausted
  try dsimp only
  repeat' (first
    | with_reducible assumption | (simp only [State.mems_mk]; with_reducible refine (State.mems_eta _).trans ?_)
    | (with_reducible refine ite_mems ?_ ?_) | (with_reducible refine (State.updFlt_mems ..).trans ?_)
    | (with_reducible refine (State.queue_mems ..).trans ?_) | with_reducible exact State.mems_self _ | dsimp only
    | split)

theorem State.adoptWalk_pend (s : State) (x1 : List Nat) :
    ((State.adoptWalk s x1)).pend = s.pend := by
  induction x1 generalizing s with
  | nil =>
    unfold State.adoptWalk
    try dsimp only
    repeat' (first
      | with_reducible assumption | (simp only [State.pend_mk]; with_reducible refine (State.pend_eta _).trans ?_)
      | (with_reducible refine ite_pend ?_ ?_)
      | (with_reducible refine (State.pend_of_mems (State.exhausted_mems ..)).trans ?_)
      | (with_reducible refine (State.adopt_pend ..).trans ?_) | with_reducible exact State.pend_self _ | dsimp only
      | split)
  | cons x0 x1 ih =>
    unfold State.adoptWalk
    try dsimp only
    repeat' (first
      | with_reducible assumption | (with_reducible refine (ih ..).trans ?_)
      | (simp only [State.pend_mk]; with_reducible refine (State.pend_eta _).trans ?_)
      | (with_reducible refine ite_pend ?_ ?_)
      | (with_reducible refine (State.pend_of_mems (State.exhausted_mems ..)).trans ?_)
      | (with_reducible refine (State.adopt_pend ..).trans ?_) | with_reducible exact State.pend_self _ | dsimp only
      | split)

theorem State.adoptWalk_canon {s : State} (hs : s.canon) (x1 : List Nat) :
    ((State.adoptWalk s x1)).canon := by
  induction x1 generalizing s with
  | nil =>
    unfold State.adoptWalk
    try dsimp only
    repeat' (first
      | with_reducible assumption | (simp only [State.canon_mk]; with_reducible refine State.canon_eta ?_)
      | (with_reducible refine ite_canon ?_ ?_)
      | (with_reducible refine State.canon_of_mems (State.exhausted_mems ..) ?_)
      | (with_reducible refine State.adopt_canon ?_ ..) | dsimp only | split)
  | cons x0 x1 ih =>
    unfold State.adoptWalk
    try dsimp only
    repeat' (first
      | with_reducible assumption | (with_reducible refine ih ?_ ..)
      | (simp only [State.canon_mk]; with_reducible refine State.canon_eta ?_)
      | (with_reducible refine ite_canon ?_ ?_)
      | (with_reducible refine State.canon_of_mems (State.exhausted_mems ..) ?_)
      | (with_reducible refine State.adopt_canon ?_ ..) | dsimp only | split)

theorem State.adoptNext_pend (s : State) :
    ((State.adoptNext s)).pend = s.pend := by
  unfold State.adoptNext
  try dsimp only
  repeat' (first
    | with_reducible assumption | (simp only [State.pend_mk]; with_reducible refine (State.pend_eta _).trans ?_)
    | (with_reducible refine ite_pend ?_ ?_) | (with_reducible refine (State.adoptWalk_pend ..).trans ?_)
    | with_reducible exact State.pend_self _ | dsimp only | split)

theorem State.adoptNext_canon {s : State} (hs : s.canon) :
    ((State.adoptNext s)).canon := by
  unfold State.adoptNext
  try dsimp only
  repeat' (first
    | with_reducible assumption | (simp only [State.canon_mk]; with_reducible refine State.canon_eta ?_)
    | (with_reducible refine ite_canon ?_ ?_) | (with_reducible refine State.adoptWalk_canon ?_ ..) | dsimp only
    | split)

theorem State.gateCore_pend (s : State) (g : Nat) :
    ((State.gateCore s g)).pend = s.pend := by
  unfold State.gateCore
  try dsimp only
  repeat' (first
    | with_reducible assumption | (simp only [State.pend_mk]; with_reducible refine (State.pend_eta _).trans ?_)
    | (with_reducible refine ite_pend ?_ ?_)
    | (with_reducible refine (State.pend_of_mems (State.clearRegs_mems ..)).trans ?_)
    | (with_reducible refine (State.pend_of_mems (State.setCore_mems ..)).trans ?_)
    | with_reducible exact State.pend_self _ | dsimp only | split)

theorem State.gateCore_canon {s : State} (hs : s.canon) (g : Nat) :
    ((State.gateCore s g)).canon := by
  unfold State.gateCore
  try dsimp only
  repeat' (first
    | with_reducible assumption | with_reducible exact State.reset_canon
    | (simp only [State.canon_mk]; with_reducible refine State.canon_resetStage ?_)
    | (simp only [State.canon_mk]; with_reducible refine State.canon_none)
    | (simp only [State.canon_mk]; with_reducible refine State.canon_noVault ?_)
    | (simp only [State.canon_mk]; with_reducible refine State.canon_noStage ?_)
    | (simp only [State.canon_mk]; with_reducible refine State.canon_clearVault ?_)
    | (simp only [State.canon_mk]; with_reducible refine State.canon_clearStage ?_)
    | (simp only [State.canon_mk]; with_reducible refine State.canon_eta ?_) | (with_reducible refine ite_canon ?_ ?_)
    | (with_reducible refine State.canon_of_mems (State.clearRegs_mems ..) ?_)
    | (with_reducible refine State.canon_of_mems (State.setCore_mems ..) ?_) | dsimp only | split)

theorem execDeadboltDark_pend {core : Nat} {s : State} {zt : State} (zh : execDeadboltDark core s = .next zt) :
    zt.pend = s.pend := by
  unfold execDeadboltDark at zh
  cases zh
  try dsimp only
  repeat' (first
    | with_reducible assumption | (simp only [State.pend_mk]; with_reducible refine (State.pend_eta _).trans ?_)
    | (with_reducible refine ite_pend ?_ ?_) | (with_reducible refine (State.gateCore_pend ..).trans ?_)
    | (with_reducible refine (State.adoptNext_pend ..).trans ?_)
    | (with_reducible refine (State.pend_of_mems (State.dropRepairs_mems ..)).trans ?_)
    | (with_reducible refine (State.pend_of_mems (State.fenceOff_mems ..)).trans ?_)
    | (with_reducible refine (State.pend_of_mems (State.adoptStatus_mems ..)).trans ?_)
    | (with_reducible refine (State.pend_of_mems (State.restoreDue_mems ..)).trans ?_)
    | (with_reducible refine (State.pend_of_mems (State.updFlt_mems ..)).trans ?_)
    | (with_reducible refine (State.pend_of_mems (State.tellLead_mems ..)).trans ?_)
    | (with_reducible refine (State.pend_of_mems (State.returnGrant_mems ..)).trans ?_)
    | (with_reducible refine (State.pend_of_mems (State.setCoreState_mems ..)).trans ?_)
    | (with_reducible refine (State.pend_of_mems (State.updCore_mems ..)).trans ?_)
    | (with_reducible refine (State.pend_of_mems (State.bump_mems ..)).trans ?_)
    | (with_reducible refine (State.pend_of_mems (State.wr_mems ..)).trans ?_)
    | with_reducible exact State.pend_self _ | dsimp only | split)

theorem execDeadboltDark_canon {core : Nat} {s : State} {zt : State} (hs : s.canon) (zh : execDeadboltDark core s = .next zt) :
    zt.canon := by
  unfold execDeadboltDark at zh
  cases zh
  try dsimp only
  repeat' (first
    | with_reducible assumption | (simp only [State.canon_mk]; with_reducible refine State.canon_eta ?_)
    | (with_reducible refine ite_canon ?_ ?_) | (with_reducible refine State.gateCore_canon ?_ ..)
    | (with_reducible refine State.adoptNext_canon ?_ ..)
    | (with_reducible refine State.canon_of_mems (State.dropRepairs_mems ..) ?_)
    | (with_reducible refine State.canon_of_mems (State.fenceOff_mems ..) ?_)
    | (with_reducible refine State.canon_of_mems (State.adoptStatus_mems ..) ?_)
    | (with_reducible refine State.canon_of_mems (State.restoreDue_mems ..) ?_)
    | (with_reducible refine State.canon_of_mems (State.updFlt_mems ..) ?_)
    | (with_reducible refine State.canon_of_mems (State.tellLead_mems ..) ?_)
    | (with_reducible refine State.canon_of_mems (State.returnGrant_mems ..) ?_)
    | (with_reducible refine State.canon_of_mems (State.setCoreState_mems ..) ?_)
    | (with_reducible refine State.canon_of_mems (State.updCore_mems ..) ?_)
    | (with_reducible refine State.canon_of_mems (State.bump_mems ..) ?_)
    | (with_reducible refine State.canon_of_mems (State.wr_mems ..) ?_) | dsimp only | split)

theorem State.writeProt_mems (s : State) :
    ((State.writeProt s)).mems = s.mems := by
  unfold State.writeProt
  try dsimp only
  repeat' (first
    | with_reducible assumption | (simp only [State.mems_mk]; with_reducible refine (State.mems_eta _).trans ?_)
    | (with_reducible refine ite_mems ?_ ?_) | (with_reducible refine (State.gwEvent_mems ..).trans ?_)
    | (with_reducible refine (State.send_mems ..).trans ?_) | with_reducible exact State.mems_self _ | dsimp only
    | split)

theorem State.shardsLost_pend (s : State) (is : List Nat) :
    ((State.shardsLost s is)).pend = s.pend := by
  unfold State.shardsLost
  try dsimp only
  repeat' (first
    | with_reducible assumption | (simp only [State.pend_mk]; with_reducible refine (State.pend_eta _).trans ?_)
    | (with_reducible refine ite_pend ?_ ?_) | (with_reducible refine (State.fallBack_pend ..).trans ?_)
    | (with_reducible refine (State.pend_of_mems (State.updImg_mems ..)).trans ?_)
    | (with_reducible refine (State.pend_of_mems (State.queue_mems ..)).trans ?_)
    | (with_reducible refine (forEach_pend (fun _ _ => ?_) ..).trans ?_) | with_reducible exact State.pend_self _
    | dsimp only | split)

theorem State.shardsLost_canon {s : State} (hs : s.canon) (is : List Nat) :
    ((State.shardsLost s is)).canon := by
  unfold State.shardsLost
  try dsimp only
  repeat' (first
    | with_reducible assumption | (simp only [State.canon_mk]; with_reducible refine State.canon_eta ?_)
    | (with_reducible refine ite_canon ?_ ?_) | (with_reducible refine State.fallBack_canon ?_ ..)
    | (with_reducible refine State.canon_of_mems (State.updImg_mems ..) ?_)
    | (with_reducible refine State.canon_of_mems (State.queue_mems ..) ?_)
    | (with_reducible refine forEach_canon (fun _ _ _ => ?_) ?_ ..) | dsimp only | split)

theorem State.repaired_mems (s : State) (step : Nat) :
    ((State.repaired s step)).mems = s.mems := by
  unfold State.repaired
  try dsimp only
  repeat' (first
    | with_reducible assumption | (simp only [State.mems_mk]; with_reducible refine (State.mems_eta _).trans ?_)
    | (with_reducible refine ite_mems ?_ ?_) | (with_reducible refine (State.restoreDue_mems ..).trans ?_)
    | (with_reducible refine (State.tellLead_mems ..).trans ?_) | with_reducible exact State.mems_self _ | dsimp only
    | split)

theorem State.repairFail_pend (s : State) (g : Nat) (l : Nat) (src : Nat) :
    ((State.repairFail s g l src)).pend = s.pend := by
  unfold State.repairFail
  try dsimp only
  repeat' (first
    | with_reducible assumption | (simp only [State.pend_mk]; with_reducible refine (State.pend_eta _).trans ?_)
    | (with_reducible refine ite_pend ?_ ?_) | (with_reducible refine (State.shardsLost_pend ..).trans ?_)
    | (with_reducible refine (State.pend_of_mems (State.refillFrom_mems ..)).trans ?_)
    | (with_reducible refine (State.pend_of_mems (State.dropRepairs_mems ..)).trans ?_)
    | (with_reducible refine (State.pend_of_mems (State.repairGo_mems ..)).trans ?_)
    | (with_reducible refine (State.pend_of_mems (State.updFlt_mems ..)).trans ?_)
    | (with_reducible refine (State.pend_of_mems (State.bump_mems ..)).trans ?_)
    | with_reducible exact State.pend_self _ | dsimp only | split)

theorem State.repairFail_canon {s : State} (hs : s.canon) (g : Nat) (l : Nat) (src : Nat) :
    ((State.repairFail s g l src)).canon := by
  unfold State.repairFail
  try dsimp only
  repeat' (first
    | with_reducible assumption | (simp only [State.canon_mk]; with_reducible refine State.canon_eta ?_)
    | (with_reducible refine ite_canon ?_ ?_) | (with_reducible refine State.shardsLost_canon ?_ ..)
    | (with_reducible refine State.canon_of_mems (State.refillFrom_mems ..) ?_)
    | (with_reducible refine State.canon_of_mems (State.dropRepairs_mems ..) ?_)
    | (with_reducible refine State.canon_of_mems (State.repairGo_mems ..) ?_)
    | (with_reducible refine State.canon_of_mems (State.updFlt_mems ..) ?_)
    | (with_reducible refine State.canon_of_mems (State.bump_mems ..) ?_) | dsimp only | split)

theorem State.repairData_pend (s : State) (g : Nat) (l : Nat) (src : Nat) (body : List Nat) :
    ((State.repairData s g l src body)).pend = s.pend := by
  unfold State.repairData
  try dsimp only
  repeat' (first
    | with_reducible assumption | (simp only [State.pend_mk]; with_reducible refine (State.pend_eta _).trans ?_)
    | (with_reducible refine ite_pend ?_ ?_) | (with_reducible refine (State.repairFail_pend ..).trans ?_)
    | (with_reducible refine (State.pend_of_mems (State.repaired_mems ..)).trans ?_)
    | (with_reducible refine (State.pend_of_mems (State.repairGo_mems ..)).trans ?_)
    | (with_reducible refine (State.pend_of_mems (State.updFlt_mems ..)).trans ?_)
    | (with_reducible refine (State.putLine_pend ..).trans ?_)
    | (with_reducible refine (State.pend_of_mems (State.bump_mems ..)).trans ?_)
    | (with_reducible refine (forUpTo_pend (fun _ _ => ?_) ..).trans ?_) | with_reducible exact State.pend_self _
    | dsimp only | split)

theorem State.repairData_canon {s : State} (hs : s.canon) (g : Nat) (l : Nat) (src : Nat) (body : List Nat) :
    ((State.repairData s g l src body)).canon := by
  unfold State.repairData
  try dsimp only
  repeat' (first
    | with_reducible assumption | (simp only [State.canon_mk]; with_reducible refine State.canon_eta ?_)
    | (with_reducible refine ite_canon ?_ ?_) | (with_reducible refine State.repairFail_canon ?_ ..)
    | (with_reducible refine State.canon_of_mems (State.repaired_mems ..) ?_)
    | (with_reducible refine State.canon_of_mems (State.repairGo_mems ..) ?_)
    | (with_reducible refine State.canon_of_mems (State.updFlt_mems ..) ?_)
    | (with_reducible refine State.putLine_canon ?_ ..)
    | (with_reducible refine State.canon_of_mems (State.bump_mems ..) ?_)
    | (with_reducible refine forUpTo_canon (fun _ _ _ => ?_) ?_ ..) | dsimp only | split)

theorem State.repairLine_pend (s : State) (r : FaultRec) (lines : List (Nat × Nat × Nat × List Nat)) :
    ((State.repairLine s r lines)).pend = s.pend := by
  unfold State.repairLine
  try dsimp only
  repeat' (first
    | with_reducible assumption | (simp only [State.pend_mk]; with_reducible refine (State.pend_eta _).trans ?_)
    | (with_reducible refine ite_pend ?_ ?_)
    | (with_reducible refine (State.pend_of_mems (State.repaired_mems ..)).trans ?_)
    | (with_reducible refine (State.shardsLost_pend ..).trans ?_)
    | (with_reducible refine (State.pend_of_mems (State.addRepairs_mems ..)).trans ?_)
    | (with_reducible refine (State.storePage_pend ..).trans ?_)
    | (with_reducible refine (State.pend_of_mems (State.setObj_mems ..)).trans ?_)
    | with_reducible exact State.pend_self _ | dsimp only | split)

theorem State.repairLine_canon {s : State} (hs : s.canon) (r : FaultRec) (lines : List (Nat × Nat × Nat × List Nat)) :
    ((State.repairLine s r lines)).canon := by
  unfold State.repairLine
  try dsimp only
  repeat' (first
    | with_reducible assumption | (simp only [State.canon_mk]; with_reducible refine State.canon_eta ?_)
    | (with_reducible refine ite_canon ?_ ?_)
    | (with_reducible refine State.canon_of_mems (State.repaired_mems ..) ?_)
    | (with_reducible refine State.shardsLost_canon ?_ ..)
    | (with_reducible refine State.canon_of_mems (State.addRepairs_mems ..) ?_)
    | (with_reducible refine State.storePage_canon ?_ ..)
    | (with_reducible refine State.canon_of_mems (State.setObj_mems ..) ?_) | dsimp only | split)

theorem State.holdRepair_mems (s : State) (r : FaultRec) :
    ((State.holdRepair s r)).mems = s.mems := by
  unfold State.holdRepair
  try dsimp only
  repeat' (first
    | with_reducible assumption | (simp only [State.mems_mk]; with_reducible refine (State.mems_eta _).trans ?_)
    | (with_reducible refine ite_mems ?_ ?_) | (with_reducible refine (State.pageWait_mems ..).trans ?_)
    | (with_reducible refine (State.setObj_mems ..).trans ?_) | with_reducible exact State.mems_self _ | dsimp only
    | split)

theorem State.minorityHere_mems (s : State) (i : Nat) (g : Nat) (src : Nat) (twice : Bool) :
    ((State.minorityHere s i g src twice)).mems = s.mems := by
  unfold State.minorityHere
  try dsimp only
  repeat' (first
    | with_reducible assumption | (simp only [State.mems_mk]; with_reducible refine (State.mems_eta _).trans ?_)
    | (with_reducible refine ite_mems ?_ ?_) | (with_reducible refine (State.addRepairs_mems ..).trans ?_)
    | (with_reducible refine (State.deadbolt_mems ..).trans ?_) | with_reducible exact State.mems_self _ | dsimp only
    | split)

theorem State.minorityCopy_mems (s : State) (i : Nat) (step : Nat) (src : Nat) (v : Nat) :
    ((State.minorityCopy s i step src v)).mems = s.mems := by
  unfold State.minorityCopy
  try dsimp only
  repeat' (first
    | with_reducible assumption | (simp only [State.mems_mk]; with_reducible refine (State.mems_eta _).trans ?_)
    | (with_reducible refine ite_mems ?_ ?_) | (with_reducible refine (State.minorityHere_mems ..).trans ?_)
    | (with_reducible refine (State.updFlt_mems ..).trans ?_) | (with_reducible refine (State.send_mems ..).trans ?_)
    | with_reducible exact State.mems_self _ | dsimp only | split)

theorem State.digestAct_pend (s : State) (i : Nat) (step : Nat) (rs : List (Nat × List Nat)) :
    ((State.digestAct s i step rs)).pend = s.pend := by
  unfold State.digestAct
  try dsimp only
  repeat' (first
    | with_reducible assumption | (simp only [State.pend_mk]; with_reducible refine (State.pend_eta _).trans ?_)
    | (with_reducible refine ite_pend ?_ ?_)
    | (with_reducible refine (State.pend_of_mems (State.minorityCopy_mems ..)).trans ?_)
    | (with_reducible refine (State.shardsLost_pend ..).trans ?_)
    | (with_reducible refine (forEach_pend (fun _ _ => ?_) ..).trans ?_) | with_reducible exact State.pend_self _
    | dsimp only | split)

theorem State.digestAct_canon {s : State} (hs : s.canon) (i : Nat) (step : Nat) (rs : List (Nat × List Nat)) :
    ((State.digestAct s i step rs)).canon := by
  unfold State.digestAct
  try dsimp only
  repeat' (first
    | with_reducible assumption | (simp only [State.canon_mk]; with_reducible refine State.canon_eta ?_)
    | (with_reducible refine ite_canon ?_ ?_)
    | (with_reducible refine State.canon_of_mems (State.minorityCopy_mems ..) ?_)
    | (with_reducible refine State.shardsLost_canon ?_ ..)
    | (with_reducible refine forEach_canon (fun _ _ _ => ?_) ?_ ..) | dsimp only | split)

theorem State.actLater_pend (s : State) (l : Later) :
    ((State.actLater s l)).pend = s.pend := by
  unfold State.actLater
  try dsimp only
  repeat' (first
    | with_reducible assumption | (simp only [State.pend_mk]; with_reducible refine (State.pend_eta _).trans ?_)
    | (with_reducible refine ite_pend ?_ ?_) | (with_reducible refine (State.digestAct_pend ..).trans ?_)
    | (with_reducible refine (State.pend_of_mems (State.deadbolt_mems ..)).trans ?_)
    | with_reducible exact State.pend_self _ | dsimp only | split)

theorem State.actLater_canon {s : State} (hs : s.canon) (l : Later) :
    ((State.actLater s l)).canon := by
  unfold State.actLater
  try dsimp only
  repeat' (first
    | with_reducible assumption | (simp only [State.canon_mk]; with_reducible refine State.canon_eta ?_)
    | (with_reducible refine ite_canon ?_ ?_) | (with_reducible refine State.digestAct_canon ?_ ..)
    | (with_reducible refine State.canon_of_mems (State.deadbolt_mems ..) ?_) | dsimp only | split)

theorem State.act_pend (s : State) (r : FaultRec) (lines : List (Nat × Nat × Nat × List Nat)) :
    ((State.act s r lines)).pend = s.pend := by
  unfold State.act
  try dsimp only
  repeat' (first
    | with_reducible assumption | (simp only [State.pend_mk]; with_reducible refine (State.pend_eta _).trans ?_)
    | (with_reducible refine ite_pend ?_ ?_) | (with_reducible refine (State.repairLine_pend ..).trans ?_)
    | (with_reducible refine (State.pend_of_mems (State.deadbolt_mems ..)).trans ?_)
    | (with_reducible refine (State.fallBack_pend ..).trans ?_)
    | (with_reducible refine (State.pend_of_mems (State.stopRun_mems ..)).trans ?_)
    | (with_reducible refine (State.pend_of_mems (State.updFlt_mems ..)).trans ?_)
    | (with_reducible refine (State.pend_of_mems (State.updVlt_mems ..)).trans ?_)
    | with_reducible exact State.pend_self _ | dsimp only | split)

theorem State.act_canon {s : State} (hs : s.canon) (r : FaultRec) (lines : List (Nat × Nat × Nat × List Nat)) :
    ((State.act s r lines)).canon := by
  unfold State.act
  try dsimp only
  repeat' (first
    | with_reducible assumption | (simp only [State.canon_mk]; with_reducible refine State.canon_eta ?_)
    | (with_reducible refine ite_canon ?_ ?_) | (with_reducible refine State.repairLine_canon ?_ ..)
    | (with_reducible refine State.canon_of_mems (State.deadbolt_mems ..) ?_)
    | (with_reducible refine State.fallBack_canon ?_ ..)
    | (with_reducible refine State.canon_of_mems (State.stopRun_mems ..) ?_)
    | (with_reducible refine State.canon_of_mems (State.updFlt_mems ..) ?_)
    | (with_reducible refine State.canon_of_mems (State.updVlt_mems ..) ?_) | dsimp only | split)

theorem State.hubTold_pend (s : State) (x1 : List Nat) :
    ((State.hubTold s x1)).pend = s.pend := by
  unfold State.hubTold
  try dsimp only
  repeat' (first
    | with_reducible assumption | (simp only [State.pend_mk]; with_reducible refine (State.pend_eta _).trans ?_)
    | (with_reducible refine ite_pend ?_ ?_)
    | (with_reducible refine (State.pend_of_mems (State.minorityHere_mems ..)).trans ?_)
    | (with_reducible refine (State.pend_of_mems (State.writeProt_mems ..)).trans ?_)
    | (with_reducible refine (State.fallback_pend ..).trans ?_)
    | (with_reducible refine (State.dropSnap_pend ..).trans ?_)
    | (with_reducible refine (State.pend_of_mems (State.restoreDue_mems ..)).trans ?_)
    | (with_reducible refine (State.pend_of_mems (State.moveRanks_mems ..)).trans ?_)
    | (with_reducible refine (State.pend_of_mems (State.noteHeld_mems ..)).trans ?_)
    | (with_reducible refine (State.pend_of_mems (State.updFlt_mems ..)).trans ?_)
    | (with_reducible refine (State.pend_of_mems (State.tellLoss_mems ..)).trans ?_)
    | (with_reducible refine (State.pend_of_mems (State.updImg_mems ..)).trans ?_)
    | with_reducible exact State.pend_self _ | dsimp only | split)

theorem State.hubTold_canon {s : State} (hs : s.canon) (x1 : List Nat) :
    ((State.hubTold s x1)).canon := by
  unfold State.hubTold
  try dsimp only
  repeat' (first
    | with_reducible assumption | (simp only [State.canon_mk]; with_reducible refine State.canon_eta ?_)
    | (with_reducible refine ite_canon ?_ ?_)
    | (with_reducible refine State.canon_of_mems (State.minorityHere_mems ..) ?_)
    | (with_reducible refine State.canon_of_mems (State.writeProt_mems ..) ?_)
    | (with_reducible refine State.fallback_canon ?_ ..) | (with_reducible refine State.dropSnap_canon ?_ ..)
    | (with_reducible refine State.canon_of_mems (State.restoreDue_mems ..) ?_)
    | (with_reducible refine State.canon_of_mems (State.moveRanks_mems ..) ?_)
    | (with_reducible refine State.canon_of_mems (State.noteHeld_mems ..) ?_)
    | (with_reducible refine State.canon_of_mems (State.updFlt_mems ..) ?_)
    | (with_reducible refine State.canon_of_mems (State.tellLoss_mems ..) ?_)
    | (with_reducible refine State.canon_of_mems (State.updImg_mems ..) ?_) | dsimp only | split)

theorem execFaultRecord_pend {remote : List Nat} {lines : List (Nat × Nat × Nat × List Nat)} {s : State} {zt : State} (zh : execFaultRecord remote lines s = .next zt) :
    zt.pend = s.pend := by
  unfold execFaultRecord at zh
  cases zh
  try dsimp only
  repeat' (first
    | with_reducible assumption | (simp only [State.pend_mk]; with_reducible refine (State.pend_eta _).trans ?_)
    | (with_reducible refine ite_pend ?_ ?_) | (with_reducible refine (State.hubTold_pend ..).trans ?_)
    | (with_reducible refine (State.act_pend ..).trans ?_) | (with_reducible refine (State.actLater_pend ..).trans ?_)
    | (with_reducible refine (State.pend_of_mems (State.holdRepair_mems ..)).trans ?_)
    | (with_reducible refine (State.pend_of_mems (State.fltMerge_mems ..)).trans ?_)
    | (with_reducible refine (State.pend_of_mems (State.fltEnter_mems ..)).trans ?_)
    | (with_reducible refine (State.pend_of_mems (State.updFlt_mems ..)).trans ?_)
    | (with_reducible refine (State.pend_of_mems (State.pushEntry_mems ..)).trans ?_)
    | (with_reducible refine (State.pend_of_mems (State.trace_mems ..)).trans ?_)
    | with_reducible exact State.pend_self _ | dsimp only | split)

theorem execFaultRecord_canon {remote : List Nat} {lines : List (Nat × Nat × Nat × List Nat)} {s : State} {zt : State} (hs : s.canon) (zh : execFaultRecord remote lines s = .next zt) :
    zt.canon := by
  unfold execFaultRecord at zh
  cases zh
  try dsimp only
  repeat' (first
    | with_reducible assumption | (simp only [State.canon_mk]; with_reducible refine State.canon_eta ?_)
    | (with_reducible refine ite_canon ?_ ?_) | (with_reducible refine State.hubTold_canon ?_ ..)
    | (with_reducible refine State.act_canon ?_ ..) | (with_reducible refine State.actLater_canon ?_ ..)
    | (with_reducible refine State.canon_of_mems (State.holdRepair_mems ..) ?_)
    | (with_reducible refine State.canon_of_mems (State.fltMerge_mems ..) ?_)
    | (with_reducible refine State.canon_of_mems (State.fltEnter_mems ..) ?_)
    | (with_reducible refine State.canon_of_mems (State.updFlt_mems ..) ?_)
    | (with_reducible refine State.canon_of_mems (State.pushEntry_mems ..) ?_)
    | (with_reducible refine State.canon_of_mems (State.trace_mems ..) ?_) | dsimp only | split)

theorem State.putLines_pend (s : State) (a : Nat) (ls : List (Nat × Nat × Nat × List Nat)) :
    ((State.putLines s a ls)).pend = s.pend := by
  unfold State.putLines
  try dsimp only
  repeat' (first
    | with_reducible assumption | (simp only [State.pend_mk]; with_reducible refine (State.pend_eta _).trans ?_)
    | (with_reducible refine ite_pend ?_ ?_) | (with_reducible refine (State.storeLine_pend ..).trans ?_)
    | (with_reducible refine (forEach_pend (fun _ _ => ?_) ..).trans ?_) | with_reducible exact State.pend_self _
    | dsimp only | split)

theorem State.putLines_canon {s : State} (hs : s.canon) (a : Nat) (ls : List (Nat × Nat × Nat × List Nat)) :
    ((State.putLines s a ls)).canon := by
  unfold State.putLines
  try dsimp only
  repeat' (first
    | with_reducible assumption | (simp only [State.canon_mk]; with_reducible refine State.canon_eta ?_)
    | (with_reducible refine ite_canon ?_ ?_) | (with_reducible refine State.storeLine_canon ?_ ..)
    | (with_reducible refine forEach_canon (fun _ _ _ => ?_) ?_ ..) | dsimp only | split)

theorem State.moveVault_mems (s : State) (f : Nat) (a : Nat) :
    ((State.moveVault s f a)).mems = s.mems := by
  unfold State.moveVault
  try dsimp only
  repeat' (first
    | with_reducible assumption | (simp only [State.mems_mk]; with_reducible refine (State.mems_eta _).trans ?_)
    | (with_reducible refine ite_mems ?_ ?_) | (with_reducible refine (State.updTier_mems ..).trans ?_)
    | (with_reducible refine (State.wr_mems ..).trans ?_)
    | (with_reducible refine (forUpTo_mems (fun _ _ => ?_) ..).trans ?_) | with_reducible exact State.mems_self _
    | dsimp only | split)

theorem State.promoteAgain_pend (s : State) (f : Nat) (a : Nat) (o : Nat) (x : TierObj) (bad : List Nat) (objs : List FoundPage) :
    ((State.promoteAgain s f a o x bad objs)).pend = s.pend := by
  unfold State.promoteAgain
  try dsimp only
  repeat' (first
    | with_reducible assumption | (simp only [State.pend_mk]; with_reducible refine (State.pend_eta _).trans ?_)
    | (with_reducible refine ite_pend ?_ ?_) | (with_reducible refine (State.storePage_pend ..).trans ?_)
    | (with_reducible refine (forUpTo_pend (fun _ _ => ?_) ..).trans ?_) | with_reducible exact State.pend_self _
    | dsimp only | split)

theorem State.promoteAgain_canon {s : State} (hs : s.canon) (f : Nat) (a : Nat) (o : Nat) (x : TierObj) (bad : List Nat) (objs : List FoundPage) :
    ((State.promoteAgain s f a o x bad objs)).canon := by
  unfold State.promoteAgain
  try dsimp only
  repeat' (first
    | with_reducible assumption | (simp only [State.canon_mk]; with_reducible refine State.canon_eta ?_)
    | (with_reducible refine ite_canon ?_ ?_) | (with_reducible refine State.storePage_canon ?_ ..)
    | (with_reducible refine forUpTo_canon (fun _ _ _ => ?_) ?_ ..) | dsimp only | split)

theorem execRefillDone_pend {lost : List Nat} {remote : List (Nat × Nat × Nat × List Nat)} {objs : List FoundPage} {s : State} {zt : State} (zh : execRefillDone lost remote objs s = .next zt) :
    zt.pend = s.pend := by
  unfold execRefillDone at zh
  cases zh
  try dsimp only
  repeat' (first
    | with_reducible assumption | (simp only [State.pend_mk]; with_reducible refine (State.pend_eta _).trans ?_)
    | (with_reducible refine ite_pend ?_ ?_) | (with_reducible refine (State.promoteAgain_pend ..).trans ?_)
    | (with_reducible refine (State.pend_of_mems (State.moveVault_mems ..)).trans ?_)
    | (with_reducible refine (State.putLines_pend ..).trans ?_)
    | (with_reducible refine (State.shardsLost_pend ..).trans ?_)
    | (with_reducible refine (State.pend_of_mems (State.writeProt_mems ..)).trans ?_)
    | (with_reducible refine (State.adoptNext_pend ..).trans ?_)
    | (with_reducible refine (State.copyLines_pend ..).trans ?_)
    | (with_reducible refine (State.pend_of_mems (State.adoptStatus_mems ..)).trans ?_)
    | (with_reducible refine (State.pend_of_mems (State.loadSave_mems ..)).trans ?_)
    | (with_reducible refine (State.pend_of_mems (State.thaw_mems ..)).trans ?_)
    | (with_reducible refine (State.pend_of_mems (State.updFlt_mems ..)).trans ?_)
    | (with_reducible refine (State.pend_of_mems (State.tellLead_mems ..)).trans ?_)
    | (with_reducible refine (State.pend_of_mems (State.resend_mems ..)).trans ?_)
    | (with_reducible refine (State.pend_of_mems (State.updCore_mems ..)).trans ?_)
    | (with_reducible refine (forEach_pend (fun _ _ => ?_) ..).trans ?_) | with_reducible exact State.pend_self _
    | dsimp only | split)

theorem execRefillDone_canon {lost : List Nat} {remote : List (Nat × Nat × Nat × List Nat)} {objs : List FoundPage} {s : State} {zt : State} (hs : s.canon) (zh : execRefillDone lost remote objs s = .next zt) :
    zt.canon := by
  unfold execRefillDone at zh
  cases zh
  try dsimp only
  repeat' (first
    | with_reducible assumption | (simp only [State.canon_mk]; with_reducible refine State.canon_eta ?_)
    | (with_reducible refine ite_canon ?_ ?_) | (with_reducible refine State.promoteAgain_canon ?_ ..)
    | (with_reducible refine State.canon_of_mems (State.moveVault_mems ..) ?_)
    | (with_reducible refine State.putLines_canon ?_ ..) | (with_reducible refine State.shardsLost_canon ?_ ..)
    | (with_reducible refine State.canon_of_mems (State.writeProt_mems ..) ?_)
    | (with_reducible refine State.adoptNext_canon ?_ ..) | (with_reducible refine State.copyLines_canon ?_ ..)
    | (with_reducible refine State.canon_of_mems (State.adoptStatus_mems ..) ?_)
    | (with_reducible refine State.canon_of_mems (State.loadSave_mems ..) ?_)
    | (with_reducible refine State.canon_of_mems (State.thaw_mems ..) ?_)
    | (with_reducible refine State.canon_of_mems (State.updFlt_mems ..) ?_)
    | (with_reducible refine State.canon_of_mems (State.tellLead_mems ..) ?_)
    | (with_reducible refine State.canon_of_mems (State.resend_mems ..) ?_)
    | (with_reducible refine State.canon_of_mems (State.updCore_mems ..) ?_)
    | (with_reducible refine forEach_canon (fun _ _ _ => ?_) ?_ ..) | dsimp only | split)

theorem State.sendPage_mems (s : State) (v : State) (g : Nat) (src : Nat) (page : Nat) :
    ((State.sendPage s v g src page)).mems = s.mems := by
  unfold State.sendPage
  try dsimp only
  repeat' (first
    | with_reducible assumption | (simp only [State.mems_mk]; with_reducible refine (State.mems_eta _).trans ?_)
    | (with_reducible refine ite_mems ?_ ?_) | (with_reducible refine (State.request_mems ..).trans ?_)
    | (with_reducible refine (forUpTo_mems (fun _ _ => ?_) ..).trans ?_) | with_reducible exact State.mems_self _
    | dsimp only | split)

theorem State.streamNext_pend (s : State) :
    ((State.streamNext s)).pend = s.pend := by
  unfold State.streamNext
  try dsimp only
  repeat' (first
    | with_reducible assumption | (simp only [State.pend_mk]; with_reducible refine (State.pend_eta _).trans ?_)
    | (with_reducible refine ite_pend ?_ ?_)
    | (with_reducible refine (State.pend_of_mems (State.sendPage_mems ..)).trans ?_)
    | (with_reducible refine (State.gateReads_pend ..).trans ?_)
    | (with_reducible refine (State.gateReads_pend' (by assumption)).trans ?_)
    | with_reducible exact State.pend_self _ | dsimp only | split)

theorem State.streamNext_canon {s : State} (hs : s.canon) :
    ((State.streamNext s)).canon := by
  unfold State.streamNext
  try dsimp only
  repeat' (first
    | with_reducible assumption | (simp only [State.canon_mk]; with_reducible refine State.canon_eta ?_)
    | (with_reducible refine ite_canon ?_ ?_)
    | (with_reducible refine State.canon_of_mems (State.sendPage_mems ..) ?_)
    | (with_reducible refine State.gateReads_canon ?_ ..)
    | (with_reducible refine State.gateReads_canon' (by assumption) ?_) | dsimp only | split)

theorem State.durable_mems (s : State) (loss : Nat) :
    ((State.durable s loss)).mems = s.mems := by
  unfold State.durable
  try dsimp only
  repeat' (first
    | with_reducible assumption | (simp only [State.mems_mk]; with_reducible refine (State.mems_eta _).trans ?_)
    | (with_reducible refine ite_mems ?_ ?_) | (with_reducible refine (State.updFlt_mems ..).trans ?_)
    | (with_reducible refine (State.wr_mems ..).trans ?_) | with_reducible exact State.mems_self _ | dsimp only
    | split)

theorem State.ckptAck_pend (s : State) (v : Nat) (p : Nat) :
    ((State.ckptAck s v p)).pend = s.pend := by
  unfold State.ckptAck
  try dsimp only
  repeat' (first
    | with_reducible assumption | (simp only [State.pend_mk]; with_reducible refine (State.pend_eta _).trans ?_)
    | (with_reducible refine ite_pend ?_ ?_)
    | (with_reducible refine (State.pend_of_mems (State.tellLead_mems ..)).trans ?_)
    | (with_reducible refine (State.releaseWrites_pend ..).trans ?_) | with_reducible exact State.pend_self _
    | dsimp only | split)

theorem State.ckptAck_canon {s : State} (hs : s.canon) (v : Nat) (p : Nat) :
    ((State.ckptAck s v p)).canon := by
  unfold State.ckptAck
  try dsimp only
  repeat' (first
    | with_reducible assumption | (simp only [State.canon_mk]; with_reducible refine State.canon_eta ?_)
    | (with_reducible refine ite_canon ?_ ?_)
    | (with_reducible refine State.canon_of_mems (State.tellLead_mems ..) ?_)
    | (with_reducible refine State.releaseWrites_canon ?_ ..) | dsimp only | split)

theorem execSnapshotEpoch_pend {done : List Nat} {loss : Option Nat} {durable : Option Nat} {s : State} {zt : State} (zh : execSnapshotEpoch done loss durable s = .next zt) :
    zt.pend = s.pend := by
  unfold execSnapshotEpoch at zh
  cases zh
  try dsimp only
  repeat' (first
    | with_reducible assumption | (simp only [State.pend_mk]; with_reducible refine (State.pend_eta _).trans ?_)
    | (with_reducible refine ite_pend ?_ ?_)
    | (with_reducible refine (State.pend_of_mems (State.durable_mems ..)).trans ?_)
    | (with_reducible refine (State.streamNext_pend ..).trans ?_)
    | (with_reducible refine (State.pend_of_mems (State.updFlt_mems ..)).trans ?_)
    | (with_reducible refine (State.pend_of_mems (State.tellAll_mems ..)).trans ?_)
    | (with_reducible refine (State.pend_of_mems (State.request_mems ..)).trans ?_)
    | (with_reducible refine (State.gateReads_pend ..).trans ?_)
    | (with_reducible refine (State.gateReads_pend' (by assumption)).trans ?_)
    | (with_reducible refine (State.pend_of_mems (State.bump_mems ..)).trans ?_)
    | (with_reducible refine (State.pend_of_mems (State.wrF_mems ..)).trans ?_)
    | with_reducible exact State.pend_self _ | dsimp only | split)

theorem execSnapshotEpoch_canon {done : List Nat} {loss : Option Nat} {durable : Option Nat} {s : State} {zt : State} (hs : s.canon) (zh : execSnapshotEpoch done loss durable s = .next zt) :
    zt.canon := by
  unfold execSnapshotEpoch at zh
  cases zh
  try dsimp only
  repeat' (first
    | with_reducible assumption | (simp only [State.canon_mk]; with_reducible refine State.canon_eta ?_)
    | (with_reducible refine ite_canon ?_ ?_) | (with_reducible refine State.canon_of_mems (State.durable_mems ..) ?_)
    | (with_reducible refine State.streamNext_canon ?_ ..)
    | (with_reducible refine State.canon_of_mems (State.updFlt_mems ..) ?_)
    | (with_reducible refine State.canon_of_mems (State.tellAll_mems ..) ?_)
    | (with_reducible refine State.canon_of_mems (State.request_mems ..) ?_)
    | (with_reducible refine State.gateReads_canon ?_ ..)
    | (with_reducible refine State.gateReads_canon' (by assumption) ?_)
    | (with_reducible refine State.canon_of_mems (State.bump_mems ..) ?_)
    | (with_reducible refine State.canon_of_mems (State.wrF_mems ..) ?_) | dsimp only | split)

theorem State.ckptData_pend (s : State) (v : Nat) (l : Nat) (body : List Nat) :
    ((State.ckptData s v l body)).pend = s.pend := by
  unfold State.ckptData
  try dsimp only
  repeat' (first
    | with_reducible assumption | (simp only [State.pend_mk]; with_reducible refine (State.pend_eta _).trans ?_)
    | (with_reducible refine ite_pend ?_ ?_) | (with_reducible refine (State.putLine_pend ..).trans ?_)
    | (with_reducible refine (forUpTo_pend (fun _ _ => ?_) ..).trans ?_) | with_reducible exact State.pend_self _
    | dsimp only | split)

theorem State.ckptData_canon {s : State} (hs : s.canon) (v : Nat) (l : Nat) (body : List Nat) :
    ((State.ckptData s v l body)).canon := by
  unfold State.ckptData
  try dsimp only
  repeat' (first
    | with_reducible assumption | (simp only [State.canon_mk]; with_reducible refine State.canon_eta ?_)
    | (with_reducible refine ite_canon ?_ ?_) | (with_reducible refine State.putLine_canon ?_ ..)
    | (with_reducible refine forUpTo_canon (fun _ _ _ => ?_) ?_ ..) | dsimp only | split)

theorem State.ckptFail_pend (s : State) :
    ((State.ckptFail s)).pend = s.pend := by
  unfold State.ckptFail
  try dsimp only
  repeat' (first
    | with_reducible assumption | (simp only [State.pend_mk]; with_reducible refine (State.pend_eta _).trans ?_)
    | (with_reducible refine ite_pend ?_ ?_) | (with_reducible refine (State.fallBack_pend ..).trans ?_)
    | with_reducible exact State.pend_self _ | dsimp only | split)

theorem State.ckptFail_canon {s : State} (hs : s.canon) :
    ((State.ckptFail s)).canon := by
  unfold State.ckptFail
  try dsimp only
  repeat' (first
    | with_reducible assumption | (simp only [State.canon_mk]; with_reducible refine State.canon_eta ?_)
    | (with_reducible refine ite_canon ?_ ?_) | (with_reducible refine State.fallBack_canon ?_ ..) | dsimp only
    | split)

theorem execSnapshotReadbackDone_pend {lines : List (Nat × Nat × Nat × Nat × List Nat)} {s : State} {zt : State} (zh : execSnapshotReadbackDone lines s = .next zt) :
    zt.pend = s.pend := by
  unfold execSnapshotReadbackDone at zh
  cases zh
  try dsimp only
  repeat' (first
    | with_reducible assumption | (simp only [State.pend_mk]; with_reducible refine (State.pend_eta _).trans ?_)
    | (with_reducible refine ite_pend ?_ ?_) | (with_reducible refine (State.putLines_pend ..).trans ?_)
    | (with_reducible refine (State.dropSnap_pend ..).trans ?_)
    | (with_reducible refine (State.pend_of_mems (State.loadAll_mems ..)).trans ?_)
    | (with_reducible refine (State.pend_of_mems (State.restartWindows_mems ..)).trans ?_)
    | (with_reducible refine (State.pend_of_mems (State.dropSums_mems ..)).trans ?_)
    | (with_reducible refine (State.pend_of_mems (State.dropFabric_mems ..)).trans ?_)
    | (with_reducible refine (State.pend_of_mems (State.restoreStatus_mems ..)).trans ?_)
    | (with_reducible refine (State.pend_of_mems (State.updFlt_mems ..)).trans ?_)
    | (with_reducible refine (State.pend_of_mems (State.tellLead_mems ..)).trans ?_)
    | (with_reducible refine (State.pend_of_mems (State.bump_mems ..)).trans ?_)
    | (with_reducible refine (forEach_pend (fun _ _ => ?_) ..).trans ?_) | with_reducible exact State.pend_self _
    | dsimp only | split)

theorem execSnapshotReadbackDone_canon {lines : List (Nat × Nat × Nat × Nat × List Nat)} {s : State} {zt : State} (hs : s.canon) (zh : execSnapshotReadbackDone lines s = .next zt) :
    zt.canon := by
  unfold execSnapshotReadbackDone at zh
  cases zh
  try dsimp only
  repeat' (first
    | with_reducible assumption | (simp only [State.canon_mk]; with_reducible refine State.canon_eta ?_)
    | (with_reducible refine ite_canon ?_ ?_) | (with_reducible refine State.putLines_canon ?_ ..)
    | (with_reducible refine State.dropSnap_canon ?_ ..)
    | (with_reducible refine State.canon_of_mems (State.loadAll_mems ..) ?_)
    | (with_reducible refine State.canon_of_mems (State.restartWindows_mems ..) ?_)
    | (with_reducible refine State.canon_of_mems (State.dropSums_mems ..) ?_)
    | (with_reducible refine State.canon_of_mems (State.dropFabric_mems ..) ?_)
    | (with_reducible refine State.canon_of_mems (State.restoreStatus_mems ..) ?_)
    | (with_reducible refine State.canon_of_mems (State.updFlt_mems ..) ?_)
    | (with_reducible refine State.canon_of_mems (State.tellLead_mems ..) ?_)
    | (with_reducible refine State.canon_of_mems (State.bump_mems ..) ?_)
    | (with_reducible refine forEach_canon (fun _ _ _ => ?_) ?_ ..) | dsimp only | split)

theorem execCoreParity_mems {core : Nat} {cause : Nat} {s : State} {zt : State} (zh : execCoreParity core cause s = .next zt) :
    zt.mems = s.mems := by
  unfold execCoreParity at zh
  cases zh
  try dsimp only
  repeat' (first
    | with_reducible assumption | (simp only [State.mems_mk]; with_reducible refine (State.mems_eta _).trans ?_)
    | (with_reducible refine ite_mems ?_ ?_) | (with_reducible refine (State.queue_mems ..).trans ?_)
    | with_reducible exact State.mems_self _ | dsimp only | split)

theorem execCoreRail_mems {core : Nat} {cause : Nat} {measured : Nat} {s : State} {zt : State} (zh : execCoreRail core cause measured s = .next zt) :
    zt.mems = s.mems := by
  unfold execCoreRail at zh
  cases zh
  try dsimp only
  repeat' (first
    | with_reducible assumption | (simp only [State.mems_mk]; with_reducible refine (State.mems_eta _).trans ?_)
    | (with_reducible refine ite_mems ?_ ?_) | (with_reducible refine (State.queue_mems ..).trans ?_)
    | with_reducible exact State.mems_self _ | dsimp only | split)

theorem execH1LockstepMismatch_mems {s : State} {zt : State} (zh : execH1LockstepMismatch s = .next zt) :
    zt.mems = s.mems := by
  unfold execH1LockstepMismatch at zh
  cases zh
  try dsimp only
  repeat' (first
    | with_reducible assumption | (simp only [State.mems_mk]; with_reducible refine (State.mems_eta _).trans ?_)
    | (with_reducible refine ite_mems ?_ ?_) | (with_reducible refine (State.abortLoad_mems ..).trans ?_)
    | (with_reducible refine (State.send_mems ..).trans ?_) | with_reducible exact State.mems_self _ | dsimp only
    | split)

theorem execH1RestartDone_mems {s : State} {zt : State} (zh : execH1RestartDone s = .next zt) :
    zt.mems = s.mems := by
  unfold execH1RestartDone at zh
  cases zh
  try dsimp only
  repeat' (first
    | with_reducible assumption | (simp only [State.mems_mk]; with_reducible refine (State.mems_eta _).trans ?_)
    | (with_reducible refine ite_mems ?_ ?_) | (with_reducible refine (State.fetchMore_mems ..).trans ?_)
    | (with_reducible refine (State.queue_mems ..).trans ?_) | with_reducible exact State.mems_self _ | dsimp only
    | split)

theorem execWardLockstep_mems {s : State} {zt : State} (zh : execWardLockstep s = .next zt) :
    zt.mems = s.mems := by
  unfold execWardLockstep at zh
  cases zh
  try dsimp only
  repeat' (first
    | with_reducible assumption | (simp only [State.mems_mk]; with_reducible refine (State.mems_eta _).trans ?_)
    | (with_reducible refine ite_mems ?_ ?_) | (with_reducible refine (State.queue_mems ..).trans ?_)
    | (with_reducible refine (State.bump_mems ..).trans ?_) | with_reducible exact State.mems_self _ | dsimp only
    | split)

end Sys2Proof.Machine
end

