-- ==== Sys2Proof/Laws/FrameWard.lean ====
section
/-! SUPPORT. Frames of Machine/Ward.lean: what each operation and command leaves alone of the memories and the queue. -/

set_option linter.all false

namespace Sys2Proof.Machine

theorem State.updWard_mems (s : State) (f : Ward → Ward) :
    ((State.updWard s f)).mems = s.mems := by
  unfold State.updWard
  try dsimp only
  repeat' (first
    | with_reducible assumption | (simp only [State.mems_mk]; with_reducible refine (State.mems_eta _).trans ?_)
    | (with_reducible refine ite_mems ?_ ?_) | with_reducible exact State.mems_self _ | dsimp only | split)

theorem State.updHub_mems (s : State) (f : Hub → Hub) :
    ((State.updHub s f)).mems = s.mems := by
  unfold State.updHub
  try dsimp only
  repeat' (first
    | with_reducible assumption | (simp only [State.mems_mk]; with_reducible refine (State.mems_eta _).trans ?_)
    | (with_reducible refine ite_mems ?_ ?_) | with_reducible exact State.mems_self _ | dsimp only | split)

theorem State.rejected_mems (s : State) (r : Nat) :
    ((State.rejected s r)).mems = s.mems := by
  unfold State.rejected
  try dsimp only
  repeat' (first
    | with_reducible assumption | (simp only [State.mems_mk]; with_reducible refine (State.mems_eta _).trans ?_)
    | (with_reducible refine ite_mems ?_ ?_) | (with_reducible refine (State.updWard_mems ..).trans ?_)
    | (with_reducible refine (State.bump_mems ..).trans ?_) | with_reducible exact State.mems_self _ | dsimp only
    | split)

theorem State.verify_mems (s : State) (slot : Nat) (digest : List Nat) (r : Nat) (sg : Nat) :
    ((State.verify s slot digest r sg).1).mems = s.mems := by
  unfold State.verify
  try dsimp only
  repeat' (first
    | with_reducible assumption | (simp only [State.mems_mk]; with_reducible refine (State.mems_eta _).trans ?_)
    | (with_reducible refine ite_mems ?_ ?_) | (with_reducible refine (State.rejected_mems ..).trans ?_)
    | (with_reducible refine (State.updWard_mems ..).trans ?_) | (with_reducible refine (State.bump_mems ..).trans ?_)
    | with_reducible exact State.mems_self _ | dsimp only | split)
theorem State.verify_mems' {s : State} {slot : Nat} {digest : List Nat} {r : Nat} {sg : Nat} {zr} {zq : State}
    (zh : (State.verify s slot digest r sg) = (zq, zr)) : zq.mems = s.mems := by
  have := (State.verify_mems s slot digest r sg)
  rw [zh] at this
  exact this

theorem State.draw_mems (s : State) (bits : Nat) :
    ((State.draw s bits).1).mems = s.mems := by
  unfold State.draw
  try dsimp only
  repeat' (first
    | with_reducible assumption | (simp only [State.mems_mk]; with_reducible refine (State.mems_eta _).trans ?_)
    | (with_reducible refine ite_mems ?_ ?_) | (with_reducible refine (State.fresh_mems ..).trans ?_)
    | with_reducible exact State.mems_self _ | dsimp only | split)
theorem State.draw_mems' {s : State} {bits : Nat} {zr} {zq : State}
    (zh : (State.draw s bits) = (zq, zr)) : zq.mems = s.mems := by
  have := (State.draw_mems s bits)
  rw [zh] at this
  exact this

theorem State.drawScalar_mems (s : State) :
    ((State.drawScalar s).1).mems = s.mems := by
  unfold State.drawScalar
  try dsimp only
  repeat' (first
    | with_reducible assumption | (simp only [State.mems_mk]; with_reducible refine (State.mems_eta _).trans ?_)
    | (with_reducible refine ite_mems ?_ ?_) | (with_reducible refine (State.draw_mems ..).trans ?_)
    | (with_reducible refine (State.draw_mems' (by assumption)).trans ?_) | with_reducible exact State.mems_self _
    | dsimp only | split)
theorem State.drawScalar_mems' {s : State} {zr} {zq : State}
    (zh : (State.drawScalar s) = (zq, zr)) : zq.mems = s.mems := by
  have := (State.drawScalar_mems s)
  rw [zh] at this
  exact this

theorem State.setHalted_mems (s : State) :
    ((State.setHalted s)).mems = s.mems := by
  unfold State.setHalted
  try dsimp only
  repeat' (first
    | with_reducible assumption | (simp only [State.mems_mk]; with_reducible refine (State.mems_eta _).trans ?_)
    | (with_reducible refine ite_mems ?_ ?_) | (with_reducible refine (State.wrF_mems ..).trans ?_)
    | with_reducible exact State.mems_self _ | dsimp only | split)

theorem State.unhalt_mems (s : State) (g : Nat) :
    ((State.unhalt s g)).mems = s.mems := by
  unfold State.unhalt
  try dsimp only
  repeat' (first
    | with_reducible assumption | (simp only [State.mems_mk]; with_reducible refine (State.mems_eta _).trans ?_)
    | (with_reducible refine ite_mems ?_ ?_) | (with_reducible refine (State.setHalted_mems ..).trans ?_)
    | (with_reducible refine (State.updCore_mems ..).trans ?_) | with_reducible exact State.mems_self _ | dsimp only
    | split)

theorem State.closeD2_mems (s : State) :
    ((State.closeD2 s)).mems = s.mems := by
  unfold State.closeD2
  try dsimp only
  repeat' (first
    | with_reducible assumption | (simp only [State.mems_mk]; with_reducible refine (State.mems_eta _).trans ?_)
    | (with_reducible refine ite_mems ?_ ?_) | (with_reducible refine (State.unhalt_mems ..).trans ?_)
    | (with_reducible refine (State.wrF_mems ..).trans ?_)
    | (with_reducible refine (forEach_mems (fun _ _ => ?_) ..).trans ?_) | with_reducible exact State.mems_self _
    | dsimp only | split)

theorem State.unseal_mems (s : State) :
    ((State.unseal s)).mems = s.mems := by
  unfold State.unseal
  try dsimp only
  repeat' (first
    | with_reducible assumption | (simp only [State.mems_mk]; with_reducible refine (State.mems_eta _).trans ?_)
    | (with_reducible refine ite_mems ?_ ?_) | (with_reducible refine (State.updImg_mems ..).trans ?_)
    | (with_reducible refine (State.updHost_mems ..).trans ?_) | (with_reducible refine (State.wrF_mems ..).trans ?_)
    | with_reducible exact State.mems_self _ | dsimp only | split)

theorem State.wardResult_mems (s : State) (r : Nat) :
    ((State.wardResult s r)).mems = s.mems := by
  unfold State.wardResult
  try dsimp only
  repeat' (first
    | with_reducible assumption | (simp only [State.mems_mk]; with_reducible refine (State.mems_eta _).trans ?_)
    | (with_reducible refine ite_mems ?_ ?_) | (with_reducible refine (State.wrF_mems ..).trans ?_)
    | with_reducible exact State.mems_self _ | dsimp only | split)

theorem State.wardRefuse_mems (s : State) (r : Nat) :
    ((State.wardRefuse s r)).mems = s.mems := by
  unfold State.wardRefuse
  try dsimp only
  repeat' (first
    | with_reducible assumption | (simp only [State.mems_mk]; with_reducible refine (State.mems_eta _).trans ?_)
    | (with_reducible refine ite_mems ?_ ?_) | (with_reducible refine (State.wardResult_mems ..).trans ?_)
    | (with_reducible refine (State.bump_mems ..).trans ?_) | with_reducible exact State.mems_self _ | dsimp only
    | split)

theorem State.wardCheck_mems (s : State) (b : List Nat) :
    ((State.wardCheck s b).1).mems = s.mems := by
  unfold State.wardCheck
  try dsimp only
  repeat' (first
    | with_reducible assumption | (simp only [State.mems_mk]; with_reducible refine (State.mems_eta _).trans ?_)
    | (with_reducible refine ite_mems ?_ ?_) | (with_reducible refine (State.verify_mems ..).trans ?_)
    | (with_reducible refine (State.verify_mems' (by assumption)).trans ?_) | with_reducible exact State.mems_self _
    | dsimp only | split)
theorem State.wardCheck_mems' {s : State} {b : List Nat} {zr} {zq : State}
    (zh : (State.wardCheck s b) = (zq, zr)) : zq.mems = s.mems := by
  have := (State.wardCheck_mems s b)
  rw [zh] at this
  exact this

theorem State.fuseKeys_mems (s : State) (p : List Nat) :
    ((State.fuseKeys s p)).mems = s.mems := by
  unfold State.fuseKeys
  try dsimp only
  repeat' (first
    | with_reducible assumption | (simp only [State.mems_mk]; with_reducible refine (State.mems_eta _).trans ?_)
    | (with_reducible refine ite_mems ?_ ?_) | (with_reducible refine (State.updWard_mems ..).trans ?_)
    | (with_reducible refine (forUpTo_mems (fun _ _ => ?_) ..).trans ?_) | with_reducible exact State.mems_self _
    | dsimp only | split)

theorem State.svnCommit_mems (s : State) :
    ((State.svnCommit s)).mems = s.mems := by
  unfold State.svnCommit
  try dsimp only
  repeat' (first
    | with_reducible assumption | (simp only [State.mems_mk]; with_reducible refine (State.mems_eta _).trans ?_)
    | (with_reducible refine ite_mems ?_ ?_) | (with_reducible refine (State.wrF_mems ..).trans ?_)
    | (with_reducible refine (forUpTo_mems (fun _ _ => ?_) ..).trans ?_) | with_reducible exact State.mems_self _
    | dsimp only | split)

theorem State.writeChain_mems (s : State) :
    ((State.writeChain s)).mems = s.mems := by
  unfold State.writeChain
  try dsimp only
  repeat' (first
    | with_reducible assumption | (simp only [State.mems_mk]; with_reducible refine (State.mems_eta _).trans ?_)
    | (with_reducible refine ite_mems ?_ ?_) | (with_reducible refine (State.fresh_mems ..).trans ?_)
    | with_reducible exact State.mems_self _ | dsimp only | split)

theorem State.provision_mems (s : State) :
    ((State.provision s)).mems = s.mems := by
  unfold State.provision
  try dsimp only
  repeat' (first
    | with_reducible assumption | (simp only [State.mems_mk]; with_reducible refine (State.mems_eta _).trans ?_)
    | (with_reducible refine ite_mems ?_ ?_) | (with_reducible refine (State.writeChain_mems ..).trans ?_)
    | (with_reducible refine (State.drawScalar_mems ..).trans ?_)
    | (with_reducible refine (State.drawScalar_mems' (by assumption)).trans ?_)
    | (with_reducible refine (State.updWard_mems ..).trans ?_) | (with_reducible refine (State.wr_mems ..).trans ?_)
    | (with_reducible refine (forUpTo_mems (fun _ _ => ?_) ..).trans ?_) | with_reducible exact State.mems_self _
    | dsimp only | split)

theorem State.wardEffect_mems (s : State) (x : WardBlk) :
    ((State.wardEffect s x)).mems = s.mems := by
  unfold State.wardEffect
  try dsimp only
  repeat' (first
    | with_reducible assumption | (simp only [State.mems_mk]; with_reducible refine (State.mems_eta _).trans ?_)
    | (with_reducible refine ite_mems ?_ ?_) | (with_reducible refine (State.provision_mems ..).trans ?_)
    | (with_reducible refine (State.svnCommit_mems ..).trans ?_)
    | (with_reducible refine (State.fuseKeys_mems ..).trans ?_)
    | (with_reducible refine (State.unseal_mems ..).trans ?_)
    | (with_reducible refine (State.closeD2_mems ..).trans ?_)
    | (with_reducible refine (State.updWard_mems ..).trans ?_) | (with_reducible refine (State.wrF_mems ..).trans ?_)
    | with_reducible exact State.mems_self _ | dsimp only | split)

theorem State.wardRun_mems (s : State) (b : List Nat) :
    ((State.wardRun s b)).mems = s.mems := by
  unfold State.wardRun
  try dsimp only
  repeat' (first
    | with_reducible assumption | (simp only [State.mems_mk]; with_reducible refine (State.mems_eta _).trans ?_)
    | (with_reducible refine ite_mems ?_ ?_) | (with_reducible refine (State.wardEffect_mems ..).trans ?_)
    | (with_reducible refine (State.wardCheck_mems ..).trans ?_)
    | (with_reducible refine (State.wardCheck_mems' (by assumption)).trans ?_)
    | (with_reducible refine (State.wardRefuse_mems ..).trans ?_)
    | (with_reducible refine (State.wardResult_mems ..).trans ?_)
    | (with_reducible refine (State.updWard_mems ..).trans ?_) | with_reducible exact State.mems_self _ | dsimp only
    | split)

theorem State.wardViol_mems (s : State) (value : Nat) :
    ((State.wardViol s value)).mems = s.mems := by
  unfold State.wardViol
  try dsimp only
  repeat' (first
    | with_reducible assumption | (simp only [State.mems_mk]; with_reducible refine (State.mems_eta _).trans ?_)
    | (with_reducible refine ite_mems ?_ ?_) | (with_reducible refine (State.viol_mems ..).trans ?_)
    | with_reducible exact State.mems_self _ | dsimp only | split)

theorem State.wardGo_mems (s : State) (b : List Nat) (v : Nat) :
    ((State.wardGo s b v)).mems = s.mems := by
  unfold State.wardGo
  try dsimp only
  repeat' (first
    | with_reducible assumption | (simp only [State.mems_mk]; with_reducible refine (State.mems_eta _).trans ?_)
    | (with_reducible refine ite_mems ?_ ?_) | (with_reducible refine (State.wardViol_mems ..).trans ?_)
    | (with_reducible refine (State.updWard_mems ..).trans ?_) | (with_reducible refine (State.wrF_mems ..).trans ?_)
    | with_reducible exact State.mems_self _ | dsimp only | split)

theorem State.wardServe_mems (s : State) :
    ((State.wardServe s)).mems = s.mems := by
  unfold State.wardServe
  try dsimp only
  repeat' (first
    | with_reducible assumption | (simp only [State.mems_mk]; with_reducible refine (State.mems_eta _).trans ?_)
    | (with_reducible refine ite_mems ?_ ?_) | (with_reducible refine (State.wardRun_mems ..).trans ?_)
    | (with_reducible refine (State.updWard_mems ..).trans ?_) | (with_reducible refine (State.wrF_mems ..).trans ?_)
    | with_reducible exact State.mems_self _ | dsimp only | split)

theorem State.wardTake_mems (s : State) (b : List Nat) :
    ((State.wardTake s b)).mems = s.mems := by
  unfold State.wardTake
  try dsimp only
  repeat' (first
    | with_reducible assumption | (simp only [State.mems_mk]; with_reducible refine (State.mems_eta _).trans ?_)
    | (with_reducible refine ite_mems ?_ ?_) | (with_reducible refine (State.wardViol_mems ..).trans ?_)
    | (with_reducible refine (State.wardRun_mems ..).trans ?_) | with_reducible exact State.mems_self _ | dsimp only
    | split)

theorem State.wardCommand_mems (s : State) (code : Nat) (b : List Nat) :
    ((State.wardCommand s code b)).mems = s.mems := by
  unfold State.wardCommand
  try dsimp only
  repeat' (first
    | with_reducible assumption | (simp only [State.mems_mk]; with_reducible refine (State.mems_eta _).trans ?_)
    | (with_reducible refine ite_mems ?_ ?_) | (with_reducible refine (State.wardTake_mems ..).trans ?_)
    | with_reducible exact State.mems_self _ | dsimp only | split)

theorem execProvision_mems {block : List Nat} {s : State} {zt : State} (zh : execProvision block s = .next zt) :
    zt.mems = s.mems := by
  unfold execProvision at zh
  cases zh
  try dsimp only
  repeat' (first
    | with_reducible assumption | (simp only [State.mems_mk]; with_reducible refine (State.mems_eta _).trans ?_)
    | (with_reducible refine ite_mems ?_ ?_) | (with_reducible refine (State.wardCommand_mems ..).trans ?_)
    | with_reducible exact State.mems_self _ | dsimp only | split)

theorem execFieldKeys_mems {block : List Nat} {s : State} {zt : State} (zh : execFieldKeys block s = .next zt) :
    zt.mems = s.mems := by
  unfold execFieldKeys at zh
  cases zh
  try dsimp only
  repeat' (first
    | with_reducible assumption | (simp only [State.mems_mk]; with_reducible refine (State.mems_eta _).trans ?_)
    | (with_reducible refine ite_mems ?_ ?_) | (with_reducible refine (State.wardCommand_mems ..).trans ?_)
    | with_reducible exact State.mems_self _ | dsimp only | split)

theorem execReturn_mems {block : List Nat} {s : State} {zt : State} (zh : execReturn block s = .next zt) :
    zt.mems = s.mems := by
  unfold execReturn at zh
  cases zh
  try dsimp only
  repeat' (first
    | with_reducible assumption | (simp only [State.mems_mk]; with_reducible refine (State.mems_eta _).trans ?_)
    | (with_reducible refine ite_mems ?_ ?_) | (with_reducible refine (State.wardCommand_mems ..).trans ?_)
    | with_reducible exact State.mems_self _ | dsimp only | split)

theorem execReturnAuth_mems {block : List Nat} {s : State} {zt : State} (zh : execReturnAuth block s = .next zt) :
    zt.mems = s.mems := by
  unfold execReturnAuth at zh
  cases zh
  try dsimp only
  repeat' (first
    | with_reducible assumption | (simp only [State.mems_mk]; with_reducible refine (State.mems_eta _).trans ?_)
    | (with_reducible refine ite_mems ?_ ?_) | (with_reducible refine (State.wardCommand_mems ..).trans ?_)
    | with_reducible exact State.mems_self _ | dsimp only | split)

theorem execReprovision_mems {block : List Nat} {s : State} {zt : State} (zh : execReprovision block s = .next zt) :
    zt.mems = s.mems := by
  unfold execReprovision at zh
  cases zh
  try dsimp only
  repeat' (first
    | with_reducible assumption | (simp only [State.mems_mk]; with_reducible refine (State.mems_eta _).trans ?_)
    | (with_reducible refine ite_mems ?_ ?_) | (with_reducible refine (State.wardCommand_mems ..).trans ?_)
    | with_reducible exact State.mems_self _ | dsimp only | split)

theorem execSvnCommit_mems {block : List Nat} {s : State} {zt : State} (zh : execSvnCommit block s = .next zt) :
    zt.mems = s.mems := by
  unfold execSvnCommit at zh
  cases zh
  try dsimp only
  repeat' (first
    | with_reducible assumption | (simp only [State.mems_mk]; with_reducible refine (State.mems_eta _).trans ?_)
    | (with_reducible refine ite_mems ?_ ?_) | (with_reducible refine (State.wardCommand_mems ..).trans ?_)
    | with_reducible exact State.mems_self _ | dsimp only | split)

theorem execOpenD2_mems {block : List Nat} {s : State} {zt : State} (zh : execOpenD2 block s = .next zt) :
    zt.mems = s.mems := by
  unfold execOpenD2 at zh
  cases zh
  try dsimp only
  repeat' (first
    | with_reducible assumption | (simp only [State.mems_mk]; with_reducible refine (State.mems_eta _).trans ?_)
    | (with_reducible refine ite_mems ?_ ?_) | (with_reducible refine (State.wardCommand_mems ..).trans ?_)
    | with_reducible exact State.mems_self _ | dsimp only | split)

theorem execOpenD3_mems {block : List Nat} {s : State} {zt : State} (zh : execOpenD3 block s = .next zt) :
    zt.mems = s.mems := by
  unfold execOpenD3 at zh
  cases zh
  try dsimp only
  repeat' (first
    | with_reducible assumption | (simp only [State.mems_mk]; with_reducible refine (State.mems_eta _).trans ?_)
    | (with_reducible refine ite_mems ?_ ?_) | (with_reducible refine (State.wardCommand_mems ..).trans ?_)
    | with_reducible exact State.mems_self _ | dsimp only | split)

theorem State.newNonce_mems (s : State) :
    ((State.newNonce s)).mems = s.mems := by
  unfold State.newNonce
  try dsimp only
  repeat' (first
    | with_reducible assumption | (simp only [State.mems_mk]; with_reducible refine (State.mems_eta _).trans ?_)
    | (with_reducible refine ite_mems ?_ ?_) | (with_reducible refine (State.wardServe_mems ..).trans ?_)
    | (with_reducible refine (State.wardRefuse_mems ..).trans ?_)
    | (with_reducible refine (State.draw_mems ..).trans ?_)
    | (with_reducible refine (State.draw_mems' (by assumption)).trans ?_)
    | (with_reducible refine (State.updWard_mems ..).trans ?_) | (with_reducible refine (State.wr_mems ..).trans ?_)
    | with_reducible exact State.mems_self _ | dsimp only | split)

theorem execNonceReq_mems {s : State} {zt : State} (zh : execNonceReq s = .next zt) :
    zt.mems = s.mems := by
  unfold execNonceReq at zh
  cases zh
  try dsimp only
  repeat' (first
    | with_reducible assumption | (simp only [State.mems_mk]; with_reducible refine (State.mems_eta _).trans ?_)
    | (with_reducible refine ite_mems ?_ ?_) | (with_reducible refine (State.newNonce_mems ..).trans ?_)
    | with_reducible exact State.mems_self _ | dsimp only | split)

theorem execRngHealthFail_mems {cause : Nat} {s : State} {zt : State} (zh : execRngHealthFail cause s = .next zt) :
    zt.mems = s.mems := by
  unfold execRngHealthFail at zh
  cases zh
  try dsimp only
  repeat' (first
    | with_reducible assumption | (simp only [State.mems_mk]; with_reducible refine (State.mems_eta _).trans ?_)
    | (with_reducible refine ite_mems ?_ ?_) | (with_reducible refine (State.updWard_mems ..).trans ?_)
    | (with_reducible refine (State.queue_mems ..).trans ?_) | (with_reducible refine (State.bump_mems ..).trans ?_)
    | with_reducible exact State.mems_self _ | dsimp only | split)

theorem State.setLevel_mems (s : State) (v : Nat) :
    ((State.setLevel s v)).mems = s.mems := by
  unfold State.setLevel
  try dsimp only
  repeat' (first
    | with_reducible assumption | (simp only [State.mems_mk]; with_reducible refine (State.mems_eta _).trans ?_)
    | (with_reducible refine ite_mems ?_ ?_) | (with_reducible refine (State.wardViol_mems ..).trans ?_)
    | (with_reducible refine (State.wrF_mems ..).trans ?_) | (with_reducible refine (State.wr_mems ..).trans ?_)
    | with_reducible exact State.mems_self _ | dsimp only | split)

theorem execDebugLevelSet_mems {level : Nat} {s : State} {zt : State} (zh : execDebugLevelSet level s = .next zt) :
    zt.mems = s.mems := by
  unfold execDebugLevelSet at zh
  cases zh
  try dsimp only
  repeat' (first
    | with_reducible assumption | (simp only [State.mems_mk]; with_reducible refine (State.mems_eta _).trans ?_)
    | (with_reducible refine ite_mems ?_ ?_) | (with_reducible refine (State.setLevel_mems ..).trans ?_)
    | with_reducible exact State.mems_self _ | dsimp only | split)

theorem execClose_mems {s : State} {zt : State} (zh : execClose s = .next zt) :
    zt.mems = s.mems := by
  unfold execClose at zh
  cases zh
  try dsimp only
  repeat' (first
    | with_reducible assumption | (simp only [State.mems_mk]; with_reducible refine (State.mems_eta _).trans ?_)
    | (with_reducible refine ite_mems ?_ ?_) | (with_reducible refine (State.closeD2_mems ..).trans ?_)
    | with_reducible exact State.mems_self _ | dsimp only | split)

theorem execDebugHalt_mems {core : Nat} {s : State} {zt : State} (zh : execDebugHalt core s = .next zt) :
    zt.mems = s.mems := by
  unfold execDebugHalt at zh
  cases zh
  try dsimp only
  repeat' (first
    | with_reducible assumption | (simp only [State.mems_mk]; with_reducible refine (State.mems_eta _).trans ?_)
    | (with_reducible refine ite_mems ?_ ?_) | (with_reducible refine (State.setHalted_mems ..).trans ?_)
    | (with_reducible refine (State.updCore_mems ..).trans ?_) | with_reducible exact State.mems_self _ | dsimp only
    | split)

theorem execDebugResume_mems {core : Nat} {s : State} {zt : State} (zh : execDebugResume core s = .next zt) :
    zt.mems = s.mems := by
  unfold execDebugResume at zh
  cases zh
  try dsimp only
  repeat' (first
    | with_reducible assumption | (simp only [State.mems_mk]; with_reducible refine (State.mems_eta _).trans ?_)
    | (with_reducible refine ite_mems ?_ ?_) | (with_reducible refine (State.unhalt_mems ..).trans ?_)
    | with_reducible exact State.mems_self _ | dsimp only | split)

theorem execDebugStep_pend {core : Nat} {s : State} {zt : State} (zh : execDebugStep core s = .next zt) :
    zt.pend = s.pend := by
  unfold execDebugStep at zh
  cases zh
  try dsimp only
  repeat' (first
    | with_reducible assumption | (simp only [State.pend_mk]; with_reducible refine (State.pend_eta _).trans ?_)
    | (with_reducible refine ite_pend ?_ ?_) | (with_reducible refine (State.dispatchEntry_pend ..).trans ?_)
    | with_reducible exact State.pend_self _ | dsimp only | split)

theorem execDebugStep_canon {core : Nat} {s : State} {zt : State} (hs : s.canon) (zh : execDebugStep core s = .next zt) :
    zt.canon := by
  unfold execDebugStep at zh
  cases zh
  try dsimp only
  repeat' (first
    | with_reducible assumption | (simp only [State.canon_mk]; with_reducible refine State.canon_eta ?_)
    | (with_reducible refine ite_canon ?_ ?_) | (with_reducible refine State.dispatchEntry_canon ?_ ..) | dsimp only
    | split)

theorem State.taint_mems (s : State) :
    ((State.taint s)).mems = s.mems := by
  unfold State.taint
  try dsimp only
  repeat' (first
    | with_reducible assumption | (simp only [State.mems_mk]; with_reducible refine (State.mems_eta _).trans ?_)
    | (with_reducible refine ite_mems ?_ ?_) | (with_reducible refine (State.wrF_mems ..).trans ?_)
    | with_reducible exact State.mems_self _ | dsimp only | split)

theorem execDebugVaultRead_pend {vault : Nat} {line : Nat} {s : State} {zt : State} (zh : execDebugVaultRead vault line s = .next zt) :
    zt.pend = s.pend := by
  unfold execDebugVaultRead at zh
  cases zh
  try dsimp only
  repeat' (first
    | with_reducible assumption | (simp only [State.pend_mk]; with_reducible refine (State.pend_eta _).trans ?_)
    | (with_reducible refine ite_pend ?_ ?_) | (with_reducible refine (State.vltRequest_pend ..).trans ?_)
    | with_reducible exact State.pend_self _ | dsimp only | split)

theorem execDebugVaultRead_canon {vault : Nat} {line : Nat} {s : State} {zt : State} (hs : s.canon) (zh : execDebugVaultRead vault line s = .next zt) :
    zt.canon := by
  unfold execDebugVaultRead at zh
  cases zh
  try dsimp only
  repeat' (first
    | with_reducible assumption | (simp only [State.canon_mk]; with_reducible refine State.canon_eta ?_)
    | (with_reducible refine ite_canon ?_ ?_) | (with_reducible refine State.vltRequest_canon ?_ ..) | dsimp only
    | split)

theorem execDebugVaultWrite_pend {vault : Nat} {line : Nat} {data : List Nat} {s : State} {zt : State} (zh : execDebugVaultWrite vault line data s = .next zt) :
    zt.pend = s.pend := by
  unfold execDebugVaultWrite at zh
  cases zh
  try dsimp only
  repeat' (first
    | with_reducible assumption | (simp only [State.pend_mk]; with_reducible refine (State.pend_eta _).trans ?_)
    | (with_reducible refine ite_pend ?_ ?_)
    | (with_reducible refine (State.pend_of_mems (State.taint_mems ..)).trans ?_)
    | (with_reducible refine (State.vltRequest_pend ..).trans ?_) | with_reducible exact State.pend_self _
    | dsimp only | split)

theorem execDebugVaultWrite_canon {vault : Nat} {line : Nat} {data : List Nat} {s : State} {zt : State} (hs : s.canon) (zh : execDebugVaultWrite vault line data s = .next zt) :
    zt.canon := by
  unfold execDebugVaultWrite at zh
  cases zh
  try dsimp only
  repeat' (first
    | with_reducible assumption | (simp only [State.canon_mk]; with_reducible refine State.canon_eta ?_)
    | (with_reducible refine ite_canon ?_ ?_) | (with_reducible refine State.canon_of_mems (State.taint_mems ..) ?_)
    | (with_reducible refine State.vltRequest_canon ?_ ..) | dsimp only | split)

theorem State.scan_mems (s : State) (ir : Nat) (dr : List Nat) (tdi : List Nat) :
    ((State.scan s ir dr tdi)).mems = s.mems := by
  unfold State.scan
  try dsimp only
  repeat' (first
    | with_reducible assumption | (simp only [State.mems_mk]; with_reducible refine (State.mems_eta _).trans ?_)
    | (with_reducible refine ite_mems ?_ ?_) | (with_reducible refine (State.updHub_mems ..).trans ?_)
    | (with_reducible refine (State.send_mems ..).trans ?_) | with_reducible exact State.mems_self _ | dsimp only
    | split)

theorem State.bypass_mems (s : State) (tdi : List Nat) :
    ((State.bypass s tdi)).mems = s.mems := by
  unfold State.bypass
  try dsimp only
  repeat' (first
    | with_reducible assumption | (simp only [State.mems_mk]; with_reducible refine (State.mems_eta _).trans ?_)
    | (with_reducible refine ite_mems ?_ ?_) | (with_reducible refine (State.scan_mems ..).trans ?_)
    | with_reducible exact State.mems_self _ | dsimp only | split)

theorem execBypass_mems {tdi : List Nat} {s : State} {zt : State} (zh : execBypass tdi s = .next zt) :
    zt.mems = s.mems := by
  unfold execBypass at zh
  cases zh
  try dsimp only
  repeat' (first
    | with_reducible assumption | (simp only [State.mems_mk]; with_reducible refine (State.mems_eta _).trans ?_)
    | (with_reducible refine ite_mems ?_ ?_) | (with_reducible refine (State.bypass_mems ..).trans ?_)
    | with_reducible exact State.mems_self _ | dsimp only | split)

theorem execIdcode_mems {tdi : List Nat} {s : State} {zt : State} (zh : execIdcode tdi s = .next zt) :
    zt.mems = s.mems := by
  unfold execIdcode at zh
  cases zh
  try dsimp only
  repeat' (first
    | with_reducible assumption | (simp only [State.mems_mk]; with_reducible refine (State.mems_eta _).trans ?_)
    | (with_reducible refine ite_mems ?_ ?_) | (with_reducible refine (State.scan_mems ..).trans ?_)
    | with_reducible exact State.mems_self _ | dsimp only | split)

theorem execSamplePreload_mems {pins : List Nat} {tdi : List Nat} {s : State} {zt : State} (zh : execSamplePreload pins tdi s = .next zt) :
    zt.mems = s.mems := by
  unfold execSamplePreload at zh
  cases zh
  try dsimp only
  repeat' (first
    | with_reducible assumption | (simp only [State.mems_mk]; with_reducible refine (State.mems_eta _).trans ?_)
    | (with_reducible refine ite_mems ?_ ?_) | (with_reducible refine (State.scan_mems ..).trans ?_)
    | (with_reducible refine (State.updHub_mems ..).trans ?_) | with_reducible exact State.mems_self _ | dsimp only
    | split)

theorem execExtest_mems {pins : List Nat} {tdi : List Nat} {s : State} {zt : State} (zh : execExtest pins tdi s = .next zt) :
    zt.mems = s.mems := by
  unfold execExtest at zh
  cases zh
  try dsimp only
  repeat' (first
    | with_reducible assumption | (simp only [State.mems_mk]; with_reducible refine (State.mems_eta _).trans ?_)
    | (with_reducible refine ite_mems ?_ ?_) | (with_reducible refine (State.bypass_mems ..).trans ?_)
    | (with_reducible refine (State.scan_mems ..).trans ?_)
    | (with_reducible refine (State.wardViol_mems ..).trans ?_)
    | (with_reducible refine (State.updHub_mems ..).trans ?_) | (with_reducible refine (State.send_mems ..).trans ?_)
    | (with_reducible refine (forUpTo_mems (fun _ _ => ?_) ..).trans ?_) | with_reducible exact State.mems_self _
    | dsimp only | split)

theorem execInternalChain_mems {tdi : List Nat} {s : State} {zt : State} (zh : execInternalChain tdi s = .next zt) :
    zt.mems = s.mems := by
  unfold execInternalChain at zh
  split at zh
  · cases zh; rfl
  · split at zh
    · cases zh
    · cases zh
      repeat' (first
        | with_reducible assumption | (simp only [State.mems_mk]; with_reducible refine (State.mems_eta _).trans ?_)
        | (with_reducible refine ite_mems ?_ ?_) | (with_reducible refine (State.bypass_mems ..).trans ?_)
        | (with_reducible refine (State.wardViol_mems ..).trans ?_) | with_reducible exact State.mems_self _
        | dsimp only | split)

end Sys2Proof.Machine
end

