-- ==== Sys2Proof/Laws/FramePower.lean ====
section
/-! SUPPORT. Frames of Machine/Power.lean: what each operation and command leaves alone of the memories and the queue. -/

set_option linter.all false

namespace Sys2Proof.Machine

theorem State.coldState_pend (s : State) :
    ((State.coldState s)).pend = s.pend := by
  unfold State.coldState
  try dsimp only
  repeat' (first
    | with_reducible assumption | (simp only [State.pend_mk]; with_reducible refine (State.pend_eta _).trans ?_)
    | (with_reducible refine ite_pend ?_ ?_)
    | (with_reducible refine (State.pend_of_mems (State.wrF_mems ..)).trans ?_)
    | with_reducible exact State.pend_self _ | dsimp only | split)

theorem State.coldState_canon {s : State} (hs : s.canon) :
    ((State.coldState s)).canon := by
  unfold State.coldState
  try dsimp only
  repeat' (first
    | with_reducible assumption | with_reducible exact State.reset_canon
    | (simp only [State.canon_mk]; with_reducible refine State.canon_resetStage ?_)
    | (simp only [State.canon_mk]; with_reducible refine State.canon_none)
    | (simp only [State.canon_mk]; with_reducible refine State.canon_noVault ?_)
    | (simp only [State.canon_mk]; with_reducible refine State.canon_noStage ?_)
    | (simp only [State.canon_mk]; with_reducible refine State.canon_clearVault ?_)
    | (simp only [State.canon_mk]; with_reducible refine State.canon_clearStage ?_)
    | (simp only [State.canon_mk]; with_reducible refine State.canon_eta ?_) | (with_reducible refine ite_canon ?_ ?_)
    | (with_reducible refine State.canon_of_mems (State.wrF_mems ..) ?_) | dsimp only | split)

theorem State.warmState_pend (s : State) :
    ((State.warmState s)).pend = s.pend := by
  unfold State.warmState
  try dsimp only
  repeat' (first
    | with_reducible assumption | (simp only [State.pend_mk]; with_reducible refine (State.pend_eta _).trans ?_)
    | (with_reducible refine ite_pend ?_ ?_)
    | (with_reducible refine (State.pend_of_mems (State.wrF_mems ..)).trans ?_)
    | with_reducible exact State.pend_self _ | dsimp only | split)

theorem State.warmState_canon {s : State} (hs : s.canon) :
    ((State.warmState s)).canon := by
  unfold State.warmState
  try dsimp only
  repeat' (first
    | with_reducible assumption | with_reducible exact State.reset_canon
    | (simp only [State.canon_mk]; with_reducible refine State.canon_resetStage ?_)
    | (simp only [State.canon_mk]; with_reducible refine State.canon_none)
    | (simp only [State.canon_mk]; with_reducible refine State.canon_noVault ?_)
    | (simp only [State.canon_mk]; with_reducible refine State.canon_noStage ?_)
    | (simp only [State.canon_mk]; with_reducible refine State.canon_clearVault ?_)
    | (simp only [State.canon_mk]; with_reducible refine State.canon_clearStage ?_)
    | (simp only [State.canon_mk]; with_reducible refine State.canon_eta ?_) | (with_reducible refine ite_canon ?_ ?_)
    | (with_reducible refine State.canon_of_mems (State.wrF_mems ..) ?_) | dsimp only | split)

theorem State.packageOff_pend (s : State) (cause : Nat) :
    ((State.packageOff s cause)).pend = s.pend := by
  unfold State.packageOff
  try dsimp only
  repeat' (first
    | with_reducible assumption | (simp only [State.pend_mk]; with_reducible refine (State.pend_eta _).trans ?_)
    | (with_reducible refine ite_pend ?_ ?_) | (with_reducible refine (State.coldState_pend ..).trans ?_)
    | (with_reducible refine (State.pend_of_mems (State.wrF_mems ..)).trans ?_)
    | (with_reducible refine (State.pend_of_mems (State.wr_mems ..)).trans ?_)
    | with_reducible exact State.pend_self _ | dsimp only | split)

theorem State.packageOff_canon {s : State} (hs : s.canon) (cause : Nat) :
    ((State.packageOff s cause)).canon := by
  unfold State.packageOff
  try dsimp only
  repeat' (first
    | with_reducible assumption | (simp only [State.canon_mk]; with_reducible refine State.canon_eta ?_)
    | (with_reducible refine ite_canon ?_ ?_) | (with_reducible refine State.coldState_canon ?_ ..)
    | (with_reducible refine State.canon_of_mems (State.wrF_mems ..) ?_)
    | (with_reducible refine State.canon_of_mems (State.wr_mems ..) ?_) | dsimp only | split)

theorem State.pwrRefuse_mems (s : State) :
    ((State.pwrRefuse s)).mems = s.mems := by
  unfold State.pwrRefuse
  try dsimp only
  repeat' (first
    | with_reducible assumption | (simp only [State.mems_mk]; with_reducible refine (State.mems_eta _).trans ?_)
    | (with_reducible refine ite_mems ?_ ?_) | (with_reducible refine (State.bump_mems ..).trans ?_)
    | with_reducible exact State.mems_self _ | dsimp only | split)

theorem State.setPend_mems (s : State) (p : Nat) (w : Nat) :
    ((State.setPend s p w)).mems = s.mems := by
  unfold State.setPend
  try dsimp only
  repeat' (first
    | with_reducible assumption | (simp only [State.mems_mk]; with_reducible refine (State.mems_eta _).trans ?_)
    | (with_reducible refine ite_mems ?_ ?_) | (with_reducible refine (State.wrF_mems ..).trans ?_)
    | with_reducible exact State.mems_self _ | dsimp only | split)

theorem State.keepAlive_mems (s : State) :
    ((State.keepAlive s)).mems = s.mems := by
  unfold State.keepAlive
  try dsimp only
  repeat' (first
    | with_reducible assumption | (simp only [State.mems_mk]; with_reducible refine (State.mems_eta _).trans ?_)
    | (with_reducible refine ite_mems ?_ ?_) | (with_reducible refine (State.sendIdle_mems ..).trans ?_)
    | (with_reducible refine (State.setPLane_mems ..).trans ?_)
    | (with_reducible refine (forUpTo_mems (fun _ _ => ?_) ..).trans ?_) | with_reducible exact State.mems_self _
    | dsimp only | split)

theorem State.retrainAll_mems (s : State) :
    ((State.retrainAll s)).mems = s.mems := by
  unfold State.retrainAll
  try dsimp only
  repeat' (first
    | with_reducible assumption | (simp only [State.mems_mk]; with_reducible refine (State.mems_eta _).trans ?_)
    | (with_reducible refine ite_mems ?_ ?_) | (with_reducible refine (State.trainSealed_mems ..).trans ?_)
    | (with_reducible refine (State.setPLane_mems ..).trans ?_)
    | (with_reducible refine (forUpTo_mems (fun _ _ => ?_) ..).trans ?_) | with_reducible exact State.mems_self _
    | dsimp only | split)

theorem State.holdCore_mems (s : State) (g : Nat) :
    ((State.holdCore s g)).mems = s.mems := by
  unfold State.holdCore
  try dsimp only
  repeat' (first
    | with_reducible assumption | (simp only [State.mems_mk]; with_reducible refine (State.mems_eta _).trans ?_)
    | (with_reducible refine ite_mems ?_ ?_) | (with_reducible refine (State.returnGrant_mems ..).trans ?_)
    | (with_reducible refine (State.setCoreState_mems ..).trans ?_)
    | (with_reducible refine (State.setCore_mems ..).trans ?_) | with_reducible exact State.mems_self _ | dsimp only
    | split)

theorem State.gateAll_mems (s : State) :
    ((State.gateAll s)).mems = s.mems := by
  unfold State.gateAll
  try dsimp only
  repeat' (first
    | with_reducible assumption | (simp only [State.mems_mk]; with_reducible refine (State.mems_eta _).trans ?_)
    | (with_reducible refine ite_mems ?_ ?_) | (with_reducible refine (State.holdCore_mems ..).trans ?_)
    | (with_reducible refine (State.keepAlive_mems ..).trans ?_)
    | (with_reducible refine (forUpTo_mems (fun _ _ => ?_) ..).trans ?_) | with_reducible exact State.mems_self _
    | dsimp only | split)

theorem State.noStage_pend (s : State) :
    ((State.noStage s)).pend = s.pend := by
  unfold State.noStage
  try dsimp only
  repeat' (first
    | with_reducible assumption | (simp only [State.pend_mk]; with_reducible refine (State.pend_eta _).trans ?_)
    | (with_reducible refine ite_pend ?_ ?_) | with_reducible exact State.pend_self _ | dsimp only | split)

theorem State.noStage_canon {s : State} (hs : s.canon) :
    ((State.noStage s)).canon := by
  unfold State.noStage
  try dsimp only
  repeat' (first
    | with_reducible assumption | with_reducible exact State.reset_canon
    | (simp only [State.canon_mk]; with_reducible refine State.canon_resetStage ?_)
    | (simp only [State.canon_mk]; with_reducible refine State.canon_none)
    | (simp only [State.canon_mk]; with_reducible refine State.canon_noVault ?_)
    | (simp only [State.canon_mk]; with_reducible refine State.canon_noStage ?_)
    | (simp only [State.canon_mk]; with_reducible refine State.canon_clearVault ?_)
    | (simp only [State.canon_mk]; with_reducible refine State.canon_clearStage ?_)
    | (simp only [State.canon_mk]; with_reducible refine State.canon_eta ?_) | (with_reducible refine ite_canon ?_ ?_)
    | dsimp only | split)

theorem State.enterHold_pend (s : State) :
    ((State.enterHold s)).pend = s.pend := by
  unfold State.enterHold
  try dsimp only
  repeat' (first
    | with_reducible assumption | (simp only [State.pend_mk]; with_reducible refine (State.pend_eta _).trans ?_)
    | (with_reducible refine ite_pend ?_ ?_) | (with_reducible refine (State.noStage_pend ..).trans ?_)
    | (with_reducible refine (State.pend_of_mems (State.gateAll_mems ..)).trans ?_)
    | (with_reducible refine (State.pend_of_mems (State.setPend_mems ..)).trans ?_)
    | (with_reducible refine (State.pend_of_mems (State.bump_mems ..)).trans ?_)
    | (with_reducible refine (State.pend_of_mems (State.wrF_mems ..)).trans ?_)
    | with_reducible exact State.pend_self _ | dsimp only | split)

theorem State.enterHold_canon {s : State} (hs : s.canon) :
    ((State.enterHold s)).canon := by
  unfold State.enterHold
  try dsimp only
  repeat' (first
    | with_reducible assumption | (simp only [State.canon_mk]; with_reducible refine State.canon_eta ?_)
    | (with_reducible refine ite_canon ?_ ?_) | (with_reducible refine State.noStage_canon ?_ ..)
    | (with_reducible refine State.canon_of_mems (State.gateAll_mems ..) ?_)
    | (with_reducible refine State.canon_of_mems (State.setPend_mems ..) ?_)
    | (with_reducible refine State.canon_of_mems (State.bump_mems ..) ?_)
    | (with_reducible refine State.canon_of_mems (State.wrF_mems ..) ?_) | dsimp only | split)

theorem State.enterStandby_pend (s : State) :
    ((State.enterStandby s)).pend = s.pend := by
  unfold State.enterStandby
  try dsimp only
  repeat' (first
    | with_reducible assumption | (simp only [State.pend_mk]; with_reducible refine (State.pend_eta _).trans ?_)
    | (with_reducible refine ite_pend ?_ ?_)
    | (with_reducible refine (State.pend_of_mems (State.setPend_mems ..)).trans ?_)
    | (with_reducible refine (State.pend_of_mems (State.unseal_mems ..)).trans ?_)
    | (with_reducible refine (State.pend_of_mems (State.setPLane_mems ..)).trans ?_)
    | (with_reducible refine (State.pend_of_mems (State.returnGrant_mems ..)).trans ?_)
    | (with_reducible refine (State.pend_of_mems (State.wrF_mems ..)).trans ?_)
    | (with_reducible refine (forUpTo_pend (fun _ _ => ?_) ..).trans ?_) | with_reducible exact State.pend_self _
    | dsimp only | split)

theorem State.enterStandby_canon {s : State} (hs : s.canon) :
    ((State.enterStandby s)).canon := by
  unfold State.enterStandby
  try dsimp only
  repeat' (first
    | with_reducible assumption | with_reducible exact State.reset_canon
    | (simp only [State.canon_mk]; with_reducible refine State.canon_resetStage ?_)
    | (simp only [State.canon_mk]; with_reducible refine State.canon_none)
    | (simp only [State.canon_mk]; with_reducible refine State.canon_noVault ?_)
    | (simp only [State.canon_mk]; with_reducible refine State.canon_noStage ?_)
    | (simp only [State.canon_mk]; with_reducible refine State.canon_clearVault ?_)
    | (simp only [State.canon_mk]; with_reducible refine State.canon_clearStage ?_)
    | (simp only [State.canon_mk]; with_reducible refine State.canon_eta ?_) | (with_reducible refine ite_canon ?_ ?_)
    | (with_reducible refine State.canon_of_mems (State.setPend_mems ..) ?_)
    | (with_reducible refine State.canon_of_mems (State.unseal_mems ..) ?_)
    | (with_reducible refine State.canon_of_mems (State.setPLane_mems ..) ?_)
    | (with_reducible refine State.canon_of_mems (State.returnGrant_mems ..) ?_)
    | (with_reducible refine State.canon_of_mems (State.wrF_mems ..) ?_)
    | (with_reducible refine forUpTo_canon (fun _ _ _ => ?_) ?_ ..) | dsimp only | split)

theorem State.leaveHold_mems (s : State) :
    ((State.leaveHold s)).mems = s.mems := by
  unfold State.leaveHold
  try dsimp only
  repeat' (first
    | with_reducible assumption | (simp only [State.mems_mk]; with_reducible refine (State.mems_eta _).trans ?_)
    | (with_reducible refine ite_mems ?_ ?_) | (with_reducible refine (State.retrainAll_mems ..).trans ?_)
    | (with_reducible refine (State.setPend_mems ..).trans ?_)
    | (with_reducible refine (State.loadSave_mems ..).trans ?_)
    | (with_reducible refine (State.thaw_mems ..).trans ?_)
    | (with_reducible refine (State.askGrant_mems ..).trans ?_)
    | (with_reducible refine (State.setCoreState_mems ..).trans ?_)
    | (with_reducible refine (State.updVlt_mems ..).trans ?_)
    | (with_reducible refine (State.updCore_mems ..).trans ?_) | (with_reducible refine (State.wrF_mems ..).trans ?_)
    | (with_reducible refine (forEach_mems (fun _ _ => ?_) ..).trans ?_)
    | (with_reducible refine (forUpTo_mems (fun _ _ => ?_) ..).trans ?_) | with_reducible exact State.mems_self _
    | dsimp only | split)

theorem State.requestRun_mems (s : State) :
    ((State.requestRun s)).mems = s.mems := by
  unfold State.requestRun
  try dsimp only
  repeat' (first
    | with_reducible assumption | (simp only [State.mems_mk]; with_reducible refine (State.mems_eta _).trans ?_)
    | (with_reducible refine ite_mems ?_ ?_) | (with_reducible refine (State.leaveHold_mems ..).trans ?_)
    | (with_reducible refine (State.setPend_mems ..).trans ?_)
    | (with_reducible refine (State.pwrRefuse_mems ..).trans ?_) | with_reducible exact State.mems_self _ | dsimp only
    | split)

theorem execPowerRun_mems {s : State} {zt : State} (zh : execPowerRun s = .next zt) :
    zt.mems = s.mems := by
  unfold execPowerRun at zh
  cases zh
  try dsimp only
  repeat' (first
    | with_reducible assumption | (simp only [State.mems_mk]; with_reducible refine (State.mems_eta _).trans ?_)
    | (with_reducible refine ite_mems ?_ ?_) | (with_reducible refine (State.requestRun_mems ..).trans ?_)
    | with_reducible exact State.mems_self _ | dsimp only | split)

theorem State.requestHold_mems (s : State) :
    ((State.requestHold s)).mems = s.mems := by
  unfold State.requestHold
  try dsimp only
  repeat' (first
    | with_reducible assumption | (simp only [State.mems_mk]; with_reducible refine (State.mems_eta _).trans ?_)
    | (with_reducible refine ite_mems ?_ ?_) | (with_reducible refine (State.setPend_mems ..).trans ?_)
    | (with_reducible refine (State.pwrRefuse_mems ..).trans ?_)
    | (with_reducible refine (State.closeD2_mems ..).trans ?_) | with_reducible exact State.mems_self _ | dsimp only
    | split)

theorem execPowerHold_mems {s : State} {zt : State} (zh : execPowerHold s = .next zt) :
    zt.mems = s.mems := by
  unfold execPowerHold at zh
  cases zh
  try dsimp only
  repeat' (first
    | with_reducible assumption | (simp only [State.mems_mk]; with_reducible refine (State.mems_eta _).trans ?_)
    | (with_reducible refine ite_mems ?_ ?_) | (with_reducible refine (State.requestHold_mems ..).trans ?_)
    | with_reducible exact State.mems_self _ | dsimp only | split)

theorem execHoldEntry_pend {s : State} {zt : State} (zh : execHoldEntry s = .next zt) :
    zt.pend = s.pend := by
  unfold execHoldEntry at zh
  cases zh
  try dsimp only
  repeat' (first
    | with_reducible assumption | (simp only [State.pend_mk]; with_reducible refine (State.pend_eta _).trans ?_)
    | (with_reducible refine ite_pend ?_ ?_) | (with_reducible refine (State.enterStandby_pend ..).trans ?_)
    | (with_reducible refine (State.enterHold_pend ..).trans ?_) | with_reducible exact State.pend_self _ | dsimp only
    | split)

theorem execHoldEntry_canon {s : State} {zt : State} (hs : s.canon) (zh : execHoldEntry s = .next zt) :
    zt.canon := by
  unfold execHoldEntry at zh
  cases zh
  try dsimp only
  repeat' (first
    | with_reducible assumption | (simp only [State.canon_mk]; with_reducible refine State.canon_eta ?_)
    | (with_reducible refine ite_canon ?_ ?_) | (with_reducible refine State.enterStandby_canon ?_ ..)
    | (with_reducible refine State.enterHold_canon ?_ ..) | dsimp only | split)

theorem State.requestStandby_pend (s : State) (discard : Bool) :
    ((State.requestStandby s discard)).pend = s.pend := by
  unfold State.requestStandby
  try dsimp only
  repeat' (first
    | with_reducible assumption | (simp only [State.pend_mk]; with_reducible refine (State.pend_eta _).trans ?_)
    | (with_reducible refine ite_pend ?_ ?_) | (with_reducible refine (State.enterStandby_pend ..).trans ?_)
    | (with_reducible refine (State.pend_of_mems (State.setPend_mems ..)).trans ?_)
    | (with_reducible refine (State.pend_of_mems (State.pwrRefuse_mems ..)).trans ?_)
    | (with_reducible refine (State.pend_of_mems (State.closeD2_mems ..)).trans ?_)
    | (with_reducible refine (State.pend_of_mems (State.updPwr_mems ..)).trans ?_)
    | with_reducible exact State.pend_self _ | dsimp only | split)

theorem State.requestStandby_canon {s : State} (hs : s.canon) (discard : Bool) :
    ((State.requestStandby s discard)).canon := by
  unfold State.requestStandby
  try dsimp only
  repeat' (first
    | with_reducible assumption | (simp only [State.canon_mk]; with_reducible refine State.canon_eta ?_)
    | (with_reducible refine ite_canon ?_ ?_) | (with_reducible refine State.enterStandby_canon ?_ ..)
    | (with_reducible refine State.canon_of_mems (State.setPend_mems ..) ?_)
    | (with_reducible refine State.canon_of_mems (State.pwrRefuse_mems ..) ?_)
    | (with_reducible refine State.canon_of_mems (State.closeD2_mems ..) ?_)
    | (with_reducible refine State.canon_of_mems (State.updPwr_mems ..) ?_) | dsimp only | split)

theorem execPowerStandby_pend {discard : Bool} {s : State} {zt : State} (zh : execPowerStandby discard s = .next zt) :
    zt.pend = s.pend := by
  unfold execPowerStandby at zh
  cases zh
  try dsimp only
  repeat' (first
    | with_reducible assumption | (simp only [State.pend_mk]; with_reducible refine (State.pend_eta _).trans ?_)
    | (with_reducible refine ite_pend ?_ ?_) | (with_reducible refine (State.requestStandby_pend ..).trans ?_)
    | with_reducible exact State.pend_self _ | dsimp only | split)

theorem execPowerStandby_canon {discard : Bool} {s : State} {zt : State} (hs : s.canon) (zh : execPowerStandby discard s = .next zt) :
    zt.canon := by
  unfold execPowerStandby at zh
  cases zh
  try dsimp only
  repeat' (first
    | with_reducible assumption | (simp only [State.canon_mk]; with_reducible refine State.canon_eta ?_)
    | (with_reducible refine ite_canon ?_ ?_) | (with_reducible refine State.requestStandby_canon ?_ ..) | dsimp only
    | split)

theorem State.requestOff_pend (s : State) :
    ((State.requestOff s)).pend = s.pend := by
  unfold State.requestOff
  try dsimp only
  repeat' (first
    | with_reducible assumption | (simp only [State.pend_mk]; with_reducible refine (State.pend_eta _).trans ?_)
    | (with_reducible refine ite_pend ?_ ?_)
    | (with_reducible refine (State.pend_of_mems (State.pwrRefuse_mems ..)).trans ?_)
    | (with_reducible refine (State.packageOff_pend ..).trans ?_)
    | (with_reducible refine (State.pend_of_mems (State.closeD2_mems ..)).trans ?_)
    | with_reducible exact State.pend_self _ | dsimp only | split)

theorem State.requestOff_canon {s : State} (hs : s.canon) :
    ((State.requestOff s)).canon := by
  unfold State.requestOff
  try dsimp only
  repeat' (first
    | with_reducible assumption | (simp only [State.canon_mk]; with_reducible refine State.canon_eta ?_)
    | (with_reducible refine ite_canon ?_ ?_)
    | (with_reducible refine State.canon_of_mems (State.pwrRefuse_mems ..) ?_)
    | (with_reducible refine State.packageOff_canon ?_ ..)
    | (with_reducible refine State.canon_of_mems (State.closeD2_mems ..) ?_) | dsimp only | split)

theorem execPowerOff_pend {s : State} {zt : State} (zh : execPowerOff s = .next zt) :
    zt.pend = s.pend := by
  unfold execPowerOff at zh
  cases zh
  try dsimp only
  repeat' (first
    | with_reducible assumption | (simp only [State.pend_mk]; with_reducible refine (State.pend_eta _).trans ?_)
    | (with_reducible refine ite_pend ?_ ?_) | (with_reducible refine (State.requestOff_pend ..).trans ?_)
    | with_reducible exact State.pend_self _ | dsimp only | split)

theorem execPowerOff_canon {s : State} {zt : State} (hs : s.canon) (zh : execPowerOff s = .next zt) :
    zt.canon := by
  unfold execPowerOff at zh
  cases zh
  try dsimp only
  repeat' (first
    | with_reducible assumption | (simp only [State.canon_mk]; with_reducible refine State.canon_eta ?_)
    | (with_reducible refine ite_canon ?_ ?_) | (with_reducible refine State.requestOff_canon ?_ ..) | dsimp only
    | split)

theorem execPowerGood_pend {input : Nat × Bool} {s : State} {zt : State} (zh : execPowerGood input s = .next zt) :
    zt.pend = s.pend := by
  unfold execPowerGood at zh
  cases zh
  try dsimp only
  repeat' (first
    | with_reducible assumption | (simp only [State.pend_mk]; with_reducible refine (State.pend_eta _).trans ?_)
    | (with_reducible refine ite_pend ?_ ?_) | (with_reducible refine (State.coldState_pend ..).trans ?_)
    | (with_reducible refine (State.pend_of_mems (State.send_mems ..)).trans ?_)
    | (with_reducible refine (State.pend_of_mems (State.wrF_mems ..)).trans ?_)
    | (with_reducible refine (State.pend_of_mems (State.wr_mems ..)).trans ?_)
    | with_reducible exact State.pend_self _ | dsimp only | split)

theorem execPowerGood_canon {input : Nat × Bool} {s : State} {zt : State} (hs : s.canon) (zh : execPowerGood input s = .next zt) :
    zt.canon := by
  unfold execPowerGood at zh
  cases zh
  try dsimp only
  repeat' (first
    | with_reducible assumption | (simp only [State.canon_mk]; with_reducible refine State.canon_eta ?_)
    | (with_reducible refine ite_canon ?_ ?_) | (with_reducible refine State.coldState_canon ?_ ..)
    | (with_reducible refine State.canon_of_mems (State.send_mems ..) ?_)
    | (with_reducible refine State.canon_of_mems (State.wrF_mems ..) ?_)
    | (with_reducible refine State.canon_of_mems (State.wr_mems ..) ?_) | dsimp only | split)

theorem execPwrenLow_pend {s : State} {zt : State} (zh : execPwrenLow s = .next zt) :
    zt.pend = s.pend := by
  unfold execPwrenLow at zh
  cases zh
  try dsimp only
  repeat' (first
    | with_reducible assumption | (simp only [State.pend_mk]; with_reducible refine (State.pend_eta _).trans ?_)
    | (with_reducible refine ite_pend ?_ ?_) | (with_reducible refine (State.packageOff_pend ..).trans ?_)
    | with_reducible exact State.pend_self _ | dsimp only | split)

theorem execPwrenLow_canon {s : State} {zt : State} (hs : s.canon) (zh : execPwrenLow s = .next zt) :
    zt.canon := by
  unfold execPwrenLow at zh
  cases zh
  try dsimp only
  repeat' (first
    | with_reducible assumption | (simp only [State.canon_mk]; with_reducible refine State.canon_eta ?_)
    | (with_reducible refine ite_canon ?_ ?_) | (with_reducible refine State.packageOff_canon ?_ ..) | dsimp only
    | split)

theorem execUnderVoltage_pend {s : State} {zt : State} (zh : execUnderVoltage s = .next zt) :
    zt.pend = s.pend := by
  unfold execUnderVoltage at zh
  cases zh
  try dsimp only
  repeat' (first
    | with_reducible assumption | (simp only [State.pend_mk]; with_reducible refine (State.pend_eta _).trans ?_)
    | (with_reducible refine ite_pend ?_ ?_) | (with_reducible refine (State.packageOff_pend ..).trans ?_)
    | with_reducible exact State.pend_self _ | dsimp only | split)

theorem execUnderVoltage_canon {s : State} {zt : State} (hs : s.canon) (zh : execUnderVoltage s = .next zt) :
    zt.canon := by
  unfold execUnderVoltage at zh
  cases zh
  try dsimp only
  repeat' (first
    | with_reducible assumption | (simp only [State.canon_mk]; with_reducible refine State.canon_eta ?_)
    | (with_reducible refine ite_canon ?_ ?_) | (with_reducible refine State.packageOff_canon ?_ ..) | dsimp only
    | split)

theorem execOverVoltage_pend {s : State} {zt : State} (zh : execOverVoltage s = .next zt) :
    zt.pend = s.pend := by
  unfold execOverVoltage at zh
  cases zh
  try dsimp only
  repeat' (first
    | with_reducible assumption | (simp only [State.pend_mk]; with_reducible refine (State.pend_eta _).trans ?_)
    | (with_reducible refine ite_pend ?_ ?_) | (with_reducible refine (State.packageOff_pend ..).trans ?_)
    | with_reducible exact State.pend_self _ | dsimp only | split)

theorem execOverVoltage_canon {s : State} {zt : State} (hs : s.canon) (zh : execOverVoltage s = .next zt) :
    zt.canon := by
  unfold execOverVoltage at zh
  cases zh
  try dsimp only
  repeat' (first
    | with_reducible assumption | (simp only [State.canon_mk]; with_reducible refine State.canon_eta ?_)
    | (with_reducible refine ite_canon ?_ ?_) | (with_reducible refine State.packageOff_canon ?_ ..) | dsimp only
    | split)

theorem State.setCaps_mems (s : State) (cs : List Nat) :
    ((State.setCaps s cs)).mems = s.mems := by
  unfold State.setCaps
  try dsimp only
  repeat' (first
    | with_reducible assumption | (simp only [State.mems_mk]; with_reducible refine (State.mems_eta _).trans ?_)
    | (with_reducible refine ite_mems ?_ ?_) | (with_reducible refine (State.setCap_mems ..).trans ?_)
    | (with_reducible refine (forUpTo_mems (fun _ _ => ?_) ..).trans ?_) | with_reducible exact State.mems_self _
    | dsimp only | split)

theorem State.setBase_mems (s : State) (cs : List Nat) :
    ((State.setBase s cs)).mems = s.mems := by
  unfold State.setBase
  try dsimp only
  repeat' (first
    | with_reducible assumption | (simp only [State.mems_mk]; with_reducible refine (State.mems_eta _).trans ?_)
    | (with_reducible refine ite_mems ?_ ?_) | (with_reducible refine (State.setCaps_mems ..).trans ?_)
    | (with_reducible refine (State.updPwr_mems ..).trans ?_) | with_reducible exact State.mems_self _ | dsimp only
    | split)

theorem execBrownout_mems {mv4 : Nat} {s : State} {zt : State} (zh : execBrownout mv4 s = .next zt) :
    zt.mems = s.mems := by
  unfold execBrownout at zh
  cases zh
  try dsimp only
  repeat' (first
    | with_reducible assumption | (simp only [State.mems_mk]; with_reducible refine (State.mems_eta _).trans ?_)
    | (with_reducible refine ite_mems ?_ ?_) | (with_reducible refine (State.setCaps_mems ..).trans ?_)
    | (with_reducible refine (State.updPwr_mems ..).trans ?_) | (with_reducible refine (State.bump_mems ..).trans ?_)
    | with_reducible exact State.mems_self _ | dsimp only | split)

theorem execBrownoutEnd_mems {s : State} {zt : State} (zh : execBrownoutEnd s = .next zt) :
    zt.mems = s.mems := by
  unfold execBrownoutEnd at zh
  cases zh
  try dsimp only
  repeat' (first
    | with_reducible assumption | (simp only [State.mems_mk]; with_reducible refine (State.mems_eta _).trans ?_)
    | (with_reducible refine ite_mems ?_ ?_) | (with_reducible refine (State.setCaps_mems ..).trans ?_)
    | (with_reducible refine (State.updPwr_mems ..).trans ?_) | (with_reducible refine (State.queue_mems ..).trans ?_)
    | with_reducible exact State.mems_self _ | dsimp only | split)

theorem State.sizePools_mems (s : State) :
    ((State.sizePools s)).mems = s.mems := by
  unfold State.sizePools
  try dsimp only
  repeat' (first
    | with_reducible assumption | (simp only [State.mems_mk]; with_reducible refine (State.mems_eta _).trans ?_)
    | (with_reducible refine ite_mems ?_ ?_) | (with_reducible refine (State.setBase_mems ..).trans ?_)
    | with_reducible exact State.mems_self _ | dsimp only | split)

theorem State.setLimit_mems (s : State) (v : Nat) :
    ((State.setLimit s v)).mems = s.mems := by
  unfold State.setLimit
  try dsimp only
  repeat' (first
    | with_reducible assumption | (simp only [State.mems_mk]; with_reducible refine (State.mems_eta _).trans ?_)
    | (with_reducible refine ite_mems ?_ ?_) | (with_reducible refine (State.sizePools_mems ..).trans ?_)
    | (with_reducible refine (State.viol_mems ..).trans ?_) | (with_reducible refine (State.wr_mems ..).trans ?_)
    | (with_reducible refine (forUpTo_mems (fun _ _ => ?_) ..).trans ?_) | with_reducible exact State.mems_self _
    | dsimp only | split)

theorem execPwrLimit_mems {value : Nat} {s : State} {zt : State} (zh : execPwrLimit value s = .next zt) :
    zt.mems = s.mems := by
  unfold execPwrLimit at zh
  cases zh
  try dsimp only
  repeat' (first
    | with_reducible assumption | (simp only [State.mems_mk]; with_reducible refine (State.mems_eta _).trans ?_)
    | (with_reducible refine ite_mems ?_ ?_) | (with_reducible refine (State.setLimit_mems ..).trans ?_)
    | with_reducible exact State.mems_self _ | dsimp only | split)

theorem execConverterFault_pend {conv : Nat} {cause : Nat} {s : State} {zt : State} (zh : execConverterFault conv cause s = .next zt) :
    zt.pend = s.pend := by
  unfold execConverterFault at zh
  cases zh
  try dsimp only
  repeat' (first
    | with_reducible assumption | (simp only [State.pend_mk]; with_reducible refine (State.pend_eta _).trans ?_)
    | (with_reducible refine ite_pend ?_ ?_)
    | (with_reducible refine (State.pend_of_mems (State.sizePools_mems ..)).trans ?_)
    | (with_reducible refine (State.packageOff_pend ..).trans ?_)
    | (with_reducible refine (State.pend_of_mems (State.queue_mems ..)).trans ?_)
    | (with_reducible refine (State.pend_of_mems (State.bump_mems ..)).trans ?_)
    | (with_reducible refine (State.pend_of_mems (State.wrF_mems ..)).trans ?_)
    | with_reducible exact State.pend_self _ | dsimp only | split)

theorem execConverterFault_canon {conv : Nat} {cause : Nat} {s : State} {zt : State} (hs : s.canon) (zh : execConverterFault conv cause s = .next zt) :
    zt.canon := by
  unfold execConverterFault at zh
  cases zh
  try dsimp only
  repeat' (first
    | with_reducible assumption | (simp only [State.canon_mk]; with_reducible refine State.canon_eta ?_)
    | (with_reducible refine ite_canon ?_ ?_)
    | (with_reducible refine State.canon_of_mems (State.sizePools_mems ..) ?_)
    | (with_reducible refine State.packageOff_canon ?_ ..)
    | (with_reducible refine State.canon_of_mems (State.queue_mems ..) ?_)
    | (with_reducible refine State.canon_of_mems (State.bump_mems ..) ?_)
    | (with_reducible refine State.canon_of_mems (State.wrF_mems ..) ?_) | dsimp only | split)

theorem execGrantRequest_mems {island : Nat} {units : Nat} {s : State} {zt : State} (zh : execGrantRequest island units s = .next zt) :
    zt.mems = s.mems := by
  unfold execGrantRequest at zh
  cases zh
  try dsimp only
  repeat' (first
    | with_reducible assumption | (simp only [State.mems_mk]; with_reducible refine (State.mems_eta _).trans ?_)
    | (with_reducible refine ite_mems ?_ ?_) | (with_reducible refine (State.askGrant_mems ..).trans ?_)
    | with_reducible exact State.mems_self _ | dsimp only | split)

theorem State.lowerPools_mems (s : State) (cut : Nat) :
    ((State.lowerPools s cut)).mems = s.mems := by
  unfold State.lowerPools
  try dsimp only
  repeat' (first
    | with_reducible assumption | (simp only [State.mems_mk]; with_reducible refine (State.mems_eta _).trans ?_)
    | (with_reducible refine ite_mems ?_ ?_) | (with_reducible refine (State.setBase_mems ..).trans ?_)
    | (with_reducible refine (State.updPwr_mems ..).trans ?_) | (with_reducible refine (State.bump_mems ..).trans ?_)
    | (with_reducible refine (foldl_mems (fun _ _ => ?_) ..).trans ?_)
    | (with_reducible refine (foldl1_mems (fun _ _ => ?_) ..).trans ?_) | with_reducible exact State.mems_self _
    | dsimp only | split)

theorem State.raisePools_mems (s : State) :
    ((State.raisePools s)).mems = s.mems := by
  unfold State.raisePools
  try dsimp only
  repeat' (first
    | with_reducible assumption | (simp only [State.mems_mk]; with_reducible refine (State.mems_eta _).trans ?_)
    | (with_reducible refine ite_mems ?_ ?_) | (with_reducible refine (State.setCap_mems ..).trans ?_)
    | (with_reducible refine (State.updPwr_mems ..).trans ?_)
    | (with_reducible refine (forUpTo_mems (fun _ _ => ?_) ..).trans ?_) | with_reducible exact State.mems_self _
    | dsimp only | split)

theorem execPowerSample_mems {mv4 : Nat} {centiamp : Nat} {watt10 : Nat} {watt1s : Nat} {cut : Nat} {s : State} {zt : State} (zh : execPowerSample mv4 centiamp watt10 watt1s cut s = .next zt) :
    zt.mems = s.mems := by
  unfold execPowerSample at zh
  cases zh
  try dsimp only
  repeat' (first
    | with_reducible assumption | (simp only [State.mems_mk]; with_reducible refine (State.mems_eta _).trans ?_)
    | (with_reducible refine ite_mems ?_ ?_) | (with_reducible refine (State.raisePools_mems ..).trans ?_)
    | (with_reducible refine (State.lowerPools_mems ..).trans ?_)
    | (with_reducible refine (State.updPwr_mems ..).trans ?_) | (with_reducible refine (State.bump_mems ..).trans ?_)
    | (with_reducible refine (State.wr_mems ..).trans ?_) | with_reducible exact State.mems_self _ | dsimp only
    | split)

theorem execThrottleLine_mems {conv : Nat} {centiamp : Nat} {cut : Nat} {s : State} {zt : State} (zh : execThrottleLine conv centiamp cut s = .next zt) :
    zt.mems = s.mems := by
  unfold execThrottleLine at zh
  cases zh
  try dsimp only
  repeat' (first
    | with_reducible assumption | (simp only [State.mems_mk]; with_reducible refine (State.mems_eta _).trans ?_)
    | (with_reducible refine ite_mems ?_ ?_) | (with_reducible refine (State.lowerPools_mems ..).trans ?_)
    | (with_reducible refine (State.updPwr_mems ..).trans ?_) | (with_reducible refine (State.queue_mems ..).trans ?_)
    | (with_reducible refine (State.bump_mems ..).trans ?_)
    | (with_reducible refine (forUpTo_mems (fun _ _ => ?_) ..).trans ?_) | with_reducible exact State.mems_self _
    | dsimp only | split)

theorem State.readTemp_mems (s : State) (loc : Nat) (ix : Nat) (t : Nat) :
    ((State.readTemp s loc ix t)).mems = s.mems := by
  unfold State.readTemp
  try dsimp only
  repeat' (first
    | with_reducible assumption | (simp only [State.mems_mk]; with_reducible refine (State.mems_eta _).trans ?_)
    | (with_reducible refine ite_mems ?_ ?_) | (with_reducible refine (State.updPwr_mems ..).trans ?_)
    | (with_reducible refine (State.queue_mems ..).trans ?_) | with_reducible exact State.mems_self _ | dsimp only
    | split)

theorem execThermalSample_pend {dies : List Nat} {lid : List Nat} {others : List (Nat × Nat × Nat)} {s : State} {zt : State} (zh : execThermalSample dies lid others s = .next zt) :
    zt.pend = s.pend := by
  unfold execThermalSample at zh
  cases zh
  try dsimp only
  repeat' (first
    | with_reducible assumption | (simp only [State.pend_mk]; with_reducible refine (State.pend_eta _).trans ?_)
    | (with_reducible refine ite_pend ?_ ?_)
    | (with_reducible refine (State.pend_of_mems (State.readTemp_mems ..)).trans ?_)
    | (with_reducible refine (State.pend_of_mems (State.setBase_mems ..)).trans ?_)
    | (with_reducible refine (State.packageOff_pend ..).trans ?_)
    | (with_reducible refine (State.pend_of_mems (State.updPwr_mems ..)).trans ?_)
    | (with_reducible refine (State.pend_of_mems (State.send_mems ..)).trans ?_)
    | (with_reducible refine (State.pend_of_mems (State.bump_mems ..)).trans ?_)
    | (with_reducible refine (State.pend_of_mems (State.wr_mems ..)).trans ?_)
    | (with_reducible refine (forEach_pend (fun _ _ => ?_) ..).trans ?_)
    | (with_reducible refine (forUpTo_pend (fun _ _ => ?_) ..).trans ?_) | with_reducible exact State.pend_self _
    | dsimp only | split)

theorem execThermalSample_canon {dies : List Nat} {lid : List Nat} {others : List (Nat × Nat × Nat)} {s : State} {zt : State} (hs : s.canon) (zh : execThermalSample dies lid others s = .next zt) :
    zt.canon := by
  unfold execThermalSample at zh
  cases zh
  try dsimp only
  repeat' (first
    | with_reducible assumption | (simp only [State.canon_mk]; with_reducible refine State.canon_eta ?_)
    | (with_reducible refine ite_canon ?_ ?_)
    | (with_reducible refine State.canon_of_mems (State.readTemp_mems ..) ?_)
    | (with_reducible refine State.canon_of_mems (State.setBase_mems ..) ?_)
    | (with_reducible refine State.packageOff_canon ?_ ..)
    | (with_reducible refine State.canon_of_mems (State.updPwr_mems ..) ?_)
    | (with_reducible refine State.canon_of_mems (State.send_mems ..) ?_)
    | (with_reducible refine State.canon_of_mems (State.bump_mems ..) ?_)
    | (with_reducible refine State.canon_of_mems (State.wr_mems ..) ?_)
    | (with_reducible refine forEach_canon (fun _ _ _ => ?_) ?_ ..)
    | (with_reducible refine forUpTo_canon (fun _ _ _ => ?_) ?_ ..) | dsimp only | split)

theorem execRetune_mems {island : Nat} {mhz : Nat} {s : State} {zt : State} (zh : execRetune island mhz s = .next zt) :
    zt.mems = s.mems := by
  unfold execRetune at zh
  cases zh
  try dsimp only
  repeat' (first
    | with_reducible assumption | (simp only [State.mems_mk]; with_reducible refine (State.mems_eta _).trans ?_)
    | (with_reducible refine ite_mems ?_ ?_) | (with_reducible refine (State.updPwr_mems ..).trans ?_)
    | with_reducible exact State.mems_self _ | dsimp only | split)

end Sys2Proof.Machine
end

