-- ==== Sys2Proof/Laws/FrameBoot.lean ====
section
/-! SUPPORT. Frames of Machine/Boot.lean: what each operation and command leaves alone of the memories and the queue. -/

set_option linter.all false

namespace Sys2Proof.Machine

theorem State.updBoot_mems (s : State) (f : BootSt → BootSt) :
    ((State.updBoot s f)).mems = s.mems := by
  unfold State.updBoot
  try dsimp only
  repeat' (first
    | with_reducible assumption | (simp only [State.mems_mk]; with_reducible refine (State.mems_eta _).trans ?_)
    | (with_reducible refine ite_mems ?_ ?_) | with_reducible exact State.mems_self _ | dsimp only | split)

theorem State.setStage_mems (s : State) (n : Nat) :
    ((State.setStage s n)).mems = s.mems := by
  unfold State.setStage
  try dsimp only
  repeat' (first
    | with_reducible assumption | (simp only [State.mems_mk]; with_reducible refine (State.mems_eta _).trans ?_)
    | (with_reducible refine ite_mems ?_ ?_) | (with_reducible refine (State.wrF_mems ..).trans ?_)
    | with_reducible exact State.mems_self _ | dsimp only | split)

theorem State.resetReject_mems (s : State) :
    ((State.resetReject s)).mems = s.mems := by
  unfold State.resetReject
  try dsimp only
  repeat' (first
    | with_reducible assumption | (simp only [State.mems_mk]; with_reducible refine (State.mems_eta _).trans ?_)
    | (with_reducible refine ite_mems ?_ ?_) | (with_reducible refine (State.regReject_mems ..).trans ?_)
    | with_reducible exact State.mems_self _ | dsimp only | split)

theorem State.coldReset_pend (s : State) :
    ((State.coldReset s)).pend = s.pend := by
  unfold State.coldReset
  try dsimp only
  repeat' (first
    | with_reducible assumption | (simp only [State.pend_mk]; with_reducible refine (State.pend_eta _).trans ?_)
    | (with_reducible refine ite_pend ?_ ?_) | (with_reducible refine (State.coldState_pend ..).trans ?_)
    | (with_reducible refine (State.pend_of_mems (State.wrF_mems ..)).trans ?_)
    | with_reducible exact State.pend_self _ | dsimp only | split)

theorem State.coldReset_canon {s : State} (hs : s.canon) :
    ((State.coldReset s)).canon := by
  unfold State.coldReset
  try dsimp only
  repeat' (first
    | with_reducible assumption | (simp only [State.canon_mk]; with_reducible refine State.canon_eta ?_)
    | (with_reducible refine ite_canon ?_ ?_) | (with_reducible refine State.coldState_canon ?_ ..)
    | (with_reducible refine State.canon_of_mems (State.wrF_mems ..) ?_) | dsimp only | split)

theorem State.requestCold_pend (s : State) :
    ((State.requestCold s)).pend = s.pend := by
  unfold State.requestCold
  try dsimp only
  repeat' (first
    | with_reducible assumption | (simp only [State.pend_mk]; with_reducible refine (State.pend_eta _).trans ?_)
    | (with_reducible refine ite_pend ?_ ?_) | (with_reducible refine (State.coldReset_pend ..).trans ?_)
    | (with_reducible refine (State.pend_of_mems (State.updBoot_mems ..)).trans ?_)
    | (with_reducible refine (State.pend_of_mems (State.abortLoad_mems ..)).trans ?_)
    | with_reducible exact State.pend_self _ | dsimp only | split)

theorem State.requestCold_canon {s : State} (hs : s.canon) :
    ((State.requestCold s)).canon := by
  unfold State.requestCold
  try dsimp only
  repeat' (first
    | with_reducible assumption | (simp only [State.canon_mk]; with_reducible refine State.canon_eta ?_)
    | (with_reducible refine ite_canon ?_ ?_) | (with_reducible refine State.coldReset_canon ?_ ..)
    | (with_reducible refine State.canon_of_mems (State.updBoot_mems ..) ?_)
    | (with_reducible refine State.canon_of_mems (State.abortLoad_mems ..) ?_) | dsimp only | split)

theorem State.requestWarm_pend (s : State) :
    ((State.requestWarm s)).pend = s.pend := by
  unfold State.requestWarm
  try dsimp only
  repeat' (first
    | with_reducible assumption | (simp only [State.pend_mk]; with_reducible refine (State.pend_eta _).trans ?_)
    | (with_reducible refine ite_pend ?_ ?_)
    | (with_reducible refine (State.pend_of_mems (State.resetReject_mems ..)).trans ?_)
    | (with_reducible refine (State.pend_of_mems (State.setStage_mems ..)).trans ?_)
    | (with_reducible refine (State.warmState_pend ..).trans ?_)
    | (with_reducible refine (State.pend_of_mems (State.closeD2_mems ..)).trans ?_)
    | (with_reducible refine (State.pend_of_mems (State.abortLoad_mems ..)).trans ?_)
    | (with_reducible refine (State.pend_of_mems (State.detach_mems ..)).trans ?_)
    | (with_reducible refine (State.pend_of_mems (State.updVlt_mems ..)).trans ?_)
    | (with_reducible refine (State.pend_of_mems (State.bump_mems ..)).trans ?_)
    | (with_reducible refine (State.pend_of_mems (State.wrF_mems ..)).trans ?_)
    | (with_reducible refine (forUpTo_pend (fun _ _ => ?_) ..).trans ?_) | with_reducible exact State.pend_self _
    | dsimp only | split)

theorem State.requestWarm_canon {s : State} (hs : s.canon) :
    ((State.requestWarm s)).canon := by
  unfold State.requestWarm
  try dsimp only
  repeat' (first
    | with_reducible assumption | (simp only [State.canon_mk]; with_reducible refine State.canon_eta ?_)
    | (with_reducible refine ite_canon ?_ ?_)
    | (with_reducible refine State.canon_of_mems (State.resetReject_mems ..) ?_)
    | (with_reducible refine State.canon_of_mems (State.setStage_mems ..) ?_)
    | (with_reducible refine State.warmState_canon ?_ ..)
    | (with_reducible refine State.canon_of_mems (State.closeD2_mems ..) ?_)
    | (with_reducible refine State.canon_of_mems (State.abortLoad_mems ..) ?_)
    | (with_reducible refine State.canon_of_mems (State.detach_mems ..) ?_)
    | (with_reducible refine State.canon_of_mems (State.updVlt_mems ..) ?_)
    | (with_reducible refine State.canon_of_mems (State.bump_mems ..) ?_)
    | (with_reducible refine State.canon_of_mems (State.wrF_mems ..) ?_)
    | (with_reducible refine forUpTo_canon (fun _ _ _ => ?_) ?_ ..) | dsimp only | split)

theorem execWarmReset_pend {key : Nat} {s : State} {zt : State} (zh : execWarmReset key s = .next zt) :
    zt.pend = s.pend := by
  unfold execWarmReset at zh
  cases zh
  try dsimp only
  repeat' (first
    | with_reducible assumption | (simp only [State.pend_mk]; with_reducible refine (State.pend_eta _).trans ?_)
    | (with_reducible refine ite_pend ?_ ?_) | (with_reducible refine (State.requestWarm_pend ..).trans ?_)
    | (with_reducible refine (State.pend_of_mems (State.resetReject_mems ..)).trans ?_)
    | with_reducible exact State.pend_self _ | dsimp only | split)

theorem execWarmReset_canon {key : Nat} {s : State} {zt : State} (hs : s.canon) (zh : execWarmReset key s = .next zt) :
    zt.canon := by
  unfold execWarmReset at zh
  cases zh
  try dsimp only
  repeat' (first
    | with_reducible assumption | (simp only [State.canon_mk]; with_reducible refine State.canon_eta ?_)
    | (with_reducible refine ite_canon ?_ ?_) | (with_reducible refine State.requestWarm_canon ?_ ..)
    | (with_reducible refine State.canon_of_mems (State.resetReject_mems ..) ?_) | dsimp only | split)

theorem execColdReset_pend {key : Nat} {s : State} {zt : State} (zh : execColdReset key s = .next zt) :
    zt.pend = s.pend := by
  unfold execColdReset at zh
  cases zh
  try dsimp only
  repeat' (first
    | with_reducible assumption | (simp only [State.pend_mk]; with_reducible refine (State.pend_eta _).trans ?_)
    | (with_reducible refine ite_pend ?_ ?_) | (with_reducible refine (State.requestCold_pend ..).trans ?_)
    | (with_reducible refine (State.pend_of_mems (State.resetReject_mems ..)).trans ?_)
    | with_reducible exact State.pend_self _ | dsimp only | split)

theorem execColdReset_canon {key : Nat} {s : State} {zt : State} (hs : s.canon) (zh : execColdReset key s = .next zt) :
    zt.canon := by
  unfold execColdReset at zh
  cases zh
  try dsimp only
  repeat' (first
    | with_reducible assumption | (simp only [State.canon_mk]; with_reducible refine State.canon_eta ?_)
    | (with_reducible refine ite_canon ?_ ?_) | (with_reducible refine State.requestCold_canon ?_ ..)
    | (with_reducible refine State.canon_of_mems (State.resetReject_mems ..) ?_) | dsimp only | split)

theorem execMctpReset_pend {warm : Bool} {s : State} {zt : State} (zh : execMctpReset warm s = .next zt) :
    zt.pend = s.pend := by
  unfold execMctpReset at zh
  cases zh
  try dsimp only
  repeat' (first
    | with_reducible assumption | (simp only [State.pend_mk]; with_reducible refine (State.pend_eta _).trans ?_)
    | (with_reducible refine ite_pend ?_ ?_) | (with_reducible refine (State.requestWarm_pend ..).trans ?_)
    | (with_reducible refine (State.requestCold_pend ..).trans ?_) | with_reducible exact State.pend_self _
    | dsimp only | split)

theorem execMctpReset_canon {warm : Bool} {s : State} {zt : State} (hs : s.canon) (zh : execMctpReset warm s = .next zt) :
    zt.canon := by
  unfold execMctpReset at zh
  cases zh
  try dsimp only
  repeat' (first
    | with_reducible assumption | (simp only [State.canon_mk]; with_reducible refine State.canon_eta ?_)
    | (with_reducible refine ite_canon ?_ ?_) | (with_reducible refine State.requestWarm_canon ?_ ..)
    | (with_reducible refine State.requestCold_canon ?_ ..) | dsimp only | split)

theorem State.writeReset_pend (s : State) (v : Nat) :
    ((State.writeReset s v)).pend = s.pend := by
  unfold State.writeReset
  try dsimp only
  repeat' (first
    | with_reducible assumption | (simp only [State.pend_mk]; with_reducible refine (State.pend_eta _).trans ?_)
    | (with_reducible refine ite_pend ?_ ?_) | (with_reducible refine (State.requestWarm_pend ..).trans ?_)
    | (with_reducible refine (State.requestCold_pend ..).trans ?_)
    | (with_reducible refine (State.pend_of_mems (State.resetReject_mems ..)).trans ?_)
    | with_reducible exact State.pend_self _ | dsimp only | split)

theorem State.writeReset_canon {s : State} (hs : s.canon) (v : Nat) :
    ((State.writeReset s v)).canon := by
  unfold State.writeReset
  try dsimp only
  repeat' (first
    | with_reducible assumption | (simp only [State.canon_mk]; with_reducible refine State.canon_eta ?_)
    | (with_reducible refine ite_canon ?_ ?_) | (with_reducible refine State.requestWarm_canon ?_ ..)
    | (with_reducible refine State.requestCold_canon ?_ ..)
    | (with_reducible refine State.canon_of_mems (State.resetReject_mems ..) ?_) | dsimp only | split)

theorem State.putBoot_mems (s : State) (a : Nat) (bs : List Nat) :
    ((State.putBoot s a bs)).mems = s.mems := by
  unfold State.putBoot
  try dsimp only
  repeat' (first
    | with_reducible assumption | (simp only [State.mems_mk]; with_reducible refine (State.mems_eta _).trans ?_)
    | (with_reducible refine ite_mems ?_ ?_) | (with_reducible refine (State.updBoot_mems ..).trans ?_)
    | with_reducible exact State.mems_self _ | dsimp only | split)

theorem State.readCcb_mems (s : State) :
    ((State.readCcb s)).mems = s.mems := by
  unfold State.readCcb
  try dsimp only
  repeat' (first
    | with_reducible assumption | (simp only [State.mems_mk]; with_reducible refine (State.mems_eta _).trans ?_)
    | (with_reducible refine ite_mems ?_ ?_) | (with_reducible refine (State.updBoot_mems ..).trans ?_)
    | (with_reducible refine (State.queue_mems ..).trans ?_) | (with_reducible refine (State.wrF_mems ..).trans ?_)
    | (with_reducible refine (State.wr_mems ..).trans ?_) | with_reducible exact State.mems_self _ | dsimp only
    | split)

theorem State.bootObj_mems (s : State) (typ : Nat) :
    ((State.bootObj s typ).1).mems = s.mems := by
  unfold State.bootObj
  try dsimp only
  repeat' (first
    | with_reducible assumption | (simp only [State.mems_mk]; with_reducible refine (State.mems_eta _).trans ?_)
    | (with_reducible refine ite_mems ?_ ?_) | (with_reducible refine (State.updBoot_mems ..).trans ?_)
    | (with_reducible refine (State.verify_mems ..).trans ?_)
    | (with_reducible refine (State.verify_mems' (by assumption)).trans ?_)
    | (with_reducible refine (State.rejected_mems ..).trans ?_)
    | (with_reducible refine (State.updWard_mems ..).trans ?_) | (with_reducible refine (State.bump_mems ..).trans ?_)
    | (with_reducible refine (State.wr_mems ..).trans ?_) | with_reducible exact State.mems_self _ | dsimp only
    | split)
theorem State.bootObj_mems' {s : State} {typ : Nat} {zr} {zq : State}
    (zh : (State.bootObj s typ) = (zq, zr)) : zq.mems = s.mems := by
  have := (State.bootObj_mems s typ)
  rw [zh] at this
  exact this

theorem State.setFails_mems (s : State) :
    ((State.setFails s)).mems = s.mems := by
  unfold State.setFails
  try dsimp only
  repeat' (first
    | with_reducible assumption | (simp only [State.mems_mk]; with_reducible refine (State.mems_eta _).trans ?_)
    | (with_reducible refine ite_mems ?_ ?_) | (with_reducible refine (State.setStage_mems ..).trans ?_)
    | (with_reducible refine (State.updBoot_mems ..).trans ?_) | (with_reducible refine (State.send_mems ..).trans ?_)
    | (with_reducible refine (State.bump_mems ..).trans ?_) | (with_reducible refine (State.wrF_mems ..).trans ?_)
    | with_reducible exact State.mems_self _ | dsimp only | split)

theorem State.bootSet_mems (s : State) (n : Nat) (sfdpBad : Bool) :
    ((State.bootSet s n sfdpBad)).mems = s.mems := by
  unfold State.bootSet
  try dsimp only
  repeat' (first
    | with_reducible assumption | (simp only [State.mems_mk]; with_reducible refine (State.mems_eta _).trans ?_)
    | (with_reducible refine ite_mems ?_ ?_) | (with_reducible refine (State.setFails_mems ..).trans ?_)
    | (with_reducible refine (State.bootObj_mems ..).trans ?_)
    | (with_reducible refine (State.bootObj_mems' (by assumption)).trans ?_)
    | (with_reducible refine (State.setStage_mems ..).trans ?_) | (with_reducible refine (State.wrF_mems ..).trans ?_)
    | (with_reducible refine (foldl_mems (fun _ _ => ?_) ..).trans ?_)
    | (with_reducible refine (foldl1_mems (fun _ _ => ?_) ..).trans ?_) | with_reducible exact State.mems_self _
    | dsimp only | split)

theorem State.reachStandby_mems (s : State) :
    ((State.reachStandby s)).mems = s.mems := by
  unfold State.reachStandby
  try dsimp only
  repeat' (first
    | with_reducible assumption | (simp only [State.mems_mk]; with_reducible refine (State.mems_eta _).trans ?_)
    | (with_reducible refine ite_mems ?_ ?_) | (with_reducible refine (State.setStage_mems ..).trans ?_)
    | (with_reducible refine (State.updBoot_mems ..).trans ?_)
    | (with_reducible refine (State.setPend_mems ..).trans ?_) | (with_reducible refine (State.wrF_mems ..).trans ?_)
    | with_reducible exact State.mems_self _ | dsimp only | split)

theorem State.bootStep_mems (s : State) (n : Nat) (feed : Nat) (sfdpBad : Bool) :
    ((State.bootStep s n feed sfdpBad)).mems = s.mems := by
  unfold State.bootStep
  try dsimp only
  repeat' (first
    | with_reducible assumption | (simp only [State.mems_mk]; with_reducible refine (State.mems_eta _).trans ?_)
    | (with_reducible refine ite_mems ?_ ?_) | (with_reducible refine (State.reachStandby_mems ..).trans ?_)
    | (with_reducible refine (State.bootSet_mems ..).trans ?_)
    | (with_reducible refine (State.readCcb_mems ..).trans ?_)
    | (with_reducible refine (State.setStage_mems ..).trans ?_)
    | (with_reducible refine (State.updWard_mems ..).trans ?_)
    | (with_reducible refine (State.trainRate_mems ..).trans ?_)
    | (with_reducible refine (State.wrF_mems ..).trans ?_)
    | (with_reducible refine (foldl_mems (fun _ _ => ?_) ..).trans ?_)
    | (with_reducible refine (foldl1_mems (fun _ _ => ?_) ..).trans ?_) | with_reducible exact State.mems_self _
    | dsimp only | split)

theorem execBootStage_pend {feed : Nat} {sfdpBad : Bool} {s : State} {zt : State} (zh : execBootStage feed sfdpBad s = .next zt) :
    zt.pend = s.pend := by
  unfold execBootStage at zh
  cases zh
  try dsimp only
  repeat' (first
    | with_reducible assumption | (simp only [State.pend_mk]; with_reducible refine (State.pend_eta _).trans ?_)
    | (with_reducible refine ite_pend ?_ ?_)
    | (with_reducible refine (State.pend_of_mems (State.bootStep_mems ..)).trans ?_)
    | (with_reducible refine (State.coldReset_pend ..).trans ?_) | with_reducible exact State.pend_self _ | dsimp only
    | split)

theorem execBootStage_canon {feed : Nat} {sfdpBad : Bool} {s : State} {zt : State} (hs : s.canon) (zh : execBootStage feed sfdpBad s = .next zt) :
    zt.canon := by
  unfold execBootStage at zh
  cases zh
  try dsimp only
  repeat' (first
    | with_reducible assumption | (simp only [State.canon_mk]; with_reducible refine State.canon_eta ?_)
    | (with_reducible refine ite_canon ?_ ?_)
    | (with_reducible refine State.canon_of_mems (State.bootStep_mems ..) ?_)
    | (with_reducible refine State.coldReset_canon ?_ ..) | dsimp only | split)

theorem State.fenceBoot_mems (s : State) (g : Nat) (cause : Nat) :
    ((State.fenceBoot s g cause)).mems = s.mems := by
  unfold State.fenceBoot
  try dsimp only
  repeat' (first
    | with_reducible assumption | (simp only [State.mems_mk]; with_reducible refine (State.mems_eta _).trans ?_)
    | (with_reducible refine ite_mems ?_ ?_) | (with_reducible refine (State.queue_mems ..).trans ?_)
    | (with_reducible refine (State.setCoreState_mems ..).trans ?_)
    | (with_reducible refine (State.updCore_mems ..).trans ?_) | (with_reducible refine (State.wrF_mems ..).trans ?_)
    | (with_reducible refine (State.wr_mems ..).trans ?_) | with_reducible exact State.mems_self _ | dsimp only
    | split)

theorem State.bootLine_mems (s : State) (g : Nat) (l : Nat) :
    ((State.bootLine s g l)).mems = s.mems := by
  unfold State.bootLine
  try dsimp only
  repeat' (first
    | with_reducible assumption | (simp only [State.mems_mk]; with_reducible refine (State.mems_eta _).trans ?_)
    | (with_reducible refine ite_mems ?_ ?_) | (with_reducible refine (State.fenceBoot_mems ..).trans ?_)
    | (with_reducible refine (State.freeRemaps_mems ..).trans ?_)
    | (with_reducible refine (State.queue_mems ..).trans ?_) | (with_reducible refine (State.updVlt_mems ..).trans ?_)
    | (with_reducible refine (State.wr_mems ..).trans ?_) | with_reducible exact State.mems_self _ | dsimp only
    | split)

theorem State.bootVaults_pend (s : State) (lines : List (Nat × Nat)) :
    ((State.bootVaults s lines)).pend = s.pend := by
  unfold State.bootVaults
  try dsimp only
  repeat' (first
    | with_reducible assumption | (simp only [State.pend_mk]; with_reducible refine (State.pend_eta _).trans ?_)
    | (with_reducible refine ite_pend ?_ ?_)
    | (with_reducible refine (State.pend_of_mems (State.bootLine_mems ..)).trans ?_)
    | (with_reducible refine (State.pend_of_mems (State.updBoot_mems ..)).trans ?_)
    | (with_reducible refine (forEach_pend (fun _ _ => ?_) ..).trans ?_) | with_reducible exact State.pend_self _
    | dsimp only | split)

theorem State.bootVaults_canon {s : State} (hs : s.canon) (lines : List (Nat × Nat)) :
    ((State.bootVaults s lines)).canon := by
  unfold State.bootVaults
  try dsimp only
  repeat' (first
    | with_reducible assumption | with_reducible exact State.reset_canon
    | (simp only [State.canon_mk]; with_reducible refine State.canon_resetStage ?_)
    | (simp only [State.canon_mk]; with_reducible refine State.canon_none)
    | (simp only [State.canon_mk]; with_reducible refine State.canon_noVault ?_)
    | (simp only [State.canon_mk]; with_reducible refine State.canon_noStage ?_)
    | (simp only [State.canon_mk]; with_reducible refine State.canon_clearVault ?_)
    | (simp only [State.canon_mk]; with_reducible refine State.canon_clearStage ?_)
    | (simp only [State.canon_mk]; with_reducible refine State.canon_eta ?_) | (with_reducible refine ite_canon ?_ ?_)
    | (with_reducible refine State.canon_of_mems (State.bootLine_mems ..) ?_)
    | (with_reducible refine State.canon_of_mems (State.updBoot_mems ..) ?_)
    | (with_reducible refine forEach_canon (fun _ _ _ => ?_) ?_ ..) | dsimp only | split)

theorem State.trainStaging_mems (s : State) (port : Nat) (lane : Nat) :
    ((State.trainStaging s port lane)).mems = s.mems := by
  unfold State.trainStaging
  try dsimp only
  repeat' (first
    | with_reducible assumption | (simp only [State.mems_mk]; with_reducible refine (State.mems_eta _).trans ?_)
    | (with_reducible refine ite_mems ?_ ?_) | (with_reducible refine (State.trainLane_mems ..).trans ?_)
    | with_reducible exact State.mems_self _ | dsimp only | split)

theorem State.bootPorts_mems (s : State) :
    ((State.bootPorts s)).mems = s.mems := by
  unfold State.bootPorts
  try dsimp only
  repeat' (first
    | with_reducible assumption | (simp only [State.mems_mk]; with_reducible refine (State.mems_eta _).trans ?_)
    | (with_reducible refine ite_mems ?_ ?_) | (with_reducible refine (State.trainStaging_mems ..).trans ?_)
    | (with_reducible refine (forUpTo_mems (fun _ _ => ?_) ..).trans ?_) | with_reducible exact State.mems_self _
    | dsimp only | split)

theorem State.reachRun_mems (s : State) :
    ((State.reachRun s)).mems = s.mems := by
  unfold State.reachRun
  try dsimp only
  repeat' (first
    | with_reducible assumption | (simp only [State.mems_mk]; with_reducible refine (State.mems_eta _).trans ?_)
    | (with_reducible refine ite_mems ?_ ?_) | (with_reducible refine (State.updBoot_mems ..).trans ?_)
    | (with_reducible refine (State.setPend_mems ..).trans ?_)
    | (with_reducible refine (State.setCoreState_mems ..).trans ?_)
    | (with_reducible refine (State.wrF_mems ..).trans ?_) | (with_reducible refine (State.wr_mems ..).trans ?_)
    | (with_reducible refine (forUpTo_mems (fun _ _ => ?_) ..).trans ?_) | with_reducible exact State.mems_self _
    | dsimp only | split)

theorem State.historyLost_mems (s : State) (es : List (Nat × Nat × Nat)) :
    ((State.historyLost s es)).mems = s.mems := by
  unfold State.historyLost
  try dsimp only
  repeat' (first
    | with_reducible assumption | (simp only [State.mems_mk]; with_reducible refine (State.mems_eta _).trans ?_)
    | (with_reducible refine ite_mems ?_ ?_) | (with_reducible refine (State.updBoot_mems ..).trans ?_)
    | (with_reducible refine (State.queue_mems ..).trans ?_)
    | (with_reducible refine (forEach_mems (fun _ _ => ?_) ..).trans ?_) | with_reducible exact State.mems_self _
    | dsimp only | split)

theorem execBringupStage_pend {bad : List (Nat × Nat)} {vaults : List (Nat × Nat) × List (Nat × Nat × Nat)} {s : State} {zt : State} (zh : execBringupStage bad vaults s = .next zt) :
    zt.pend = s.pend := by
  unfold execBringupStage at zh
  cases zh
  try dsimp only
  repeat' (first
    | with_reducible assumption | (simp only [State.pend_mk]; with_reducible refine (State.pend_eta _).trans ?_)
    | (with_reducible refine ite_pend ?_ ?_)
    | (with_reducible refine (State.pend_of_mems (State.historyLost_mems ..)).trans ?_)
    | (with_reducible refine (State.pend_of_mems (State.reachRun_mems ..)).trans ?_)
    | (with_reducible refine (State.pend_of_mems (State.bootPorts_mems ..)).trans ?_)
    | (with_reducible refine (State.bootVaults_pend ..).trans ?_)
    | (with_reducible refine (State.pend_of_mems (State.fenceBoot_mems ..)).trans ?_)
    | (with_reducible refine (State.pend_of_mems (State.setStage_mems ..)).trans ?_)
    | (with_reducible refine (State.pend_of_mems (State.updVlt_mems ..)).trans ?_)
    | (with_reducible refine (forEach_pend (fun _ _ => ?_) ..).trans ?_)
    | (with_reducible refine (forUpTo_pend (fun _ _ => ?_) ..).trans ?_) | with_reducible exact State.pend_self _
    | dsimp only | split)

theorem execBringupStage_canon {bad : List (Nat × Nat)} {vaults : List (Nat × Nat) × List (Nat × Nat × Nat)} {s : State} {zt : State} (hs : s.canon) (zh : execBringupStage bad vaults s = .next zt) :
    zt.canon := by
  unfold execBringupStage at zh
  cases zh
  try dsimp only
  repeat' (first
    | with_reducible assumption | (simp only [State.canon_mk]; with_reducible refine State.canon_eta ?_)
    | (with_reducible refine ite_canon ?_ ?_)
    | (with_reducible refine State.canon_of_mems (State.historyLost_mems ..) ?_)
    | (with_reducible refine State.canon_of_mems (State.reachRun_mems ..) ?_)
    | (with_reducible refine State.canon_of_mems (State.bootPorts_mems ..) ?_)
    | (with_reducible refine State.bootVaults_canon ?_ ..)
    | (with_reducible refine State.canon_of_mems (State.fenceBoot_mems ..) ?_)
    | (with_reducible refine State.canon_of_mems (State.setStage_mems ..) ?_)
    | (with_reducible refine State.canon_of_mems (State.updVlt_mems ..) ?_)
    | (with_reducible refine forEach_canon (fun _ _ _ => ?_) ?_ ..)
    | (with_reducible refine forUpTo_canon (fun _ _ _ => ?_) ?_ ..) | dsimp only | split)

end Sys2Proof.Machine
end

