-- ==== Sys2Proof/Laws/FrameRegAccess.lean ====
section
/-! SUPPORT. Frames of Machine/RegAccess.lean: what each operation and command leaves alone of the memories and the queue. -/

set_option linter.all false

namespace Sys2Proof.Machine

theorem State.unmapped_mems (s : State) (path : Nat) (off : Nat) :
    ((State.unmapped s path off)).mems = s.mems := by
  unfold State.unmapped
  try dsimp only
  repeat' (first
    | with_reducible assumption | (simp only [State.mems_mk]; with_reducible refine (State.mems_eta _).trans ?_)
    | (with_reducible refine ite_mems ?_ ?_) | (with_reducible refine (State.hostViol_mems ..).trans ?_)
    | (with_reducible refine (State.hubAddrViol_mems ..).trans ?_) | with_reducible exact State.mems_self _
    | dsimp only | split)

theorem State.clearRead_mems (s : State) (r : Reg) (inst : Nat) (idx : Nat) :
    ((State.clearRead s r inst idx)).mems = s.mems := by
  unfold State.clearRead
  try dsimp only
  repeat' (first
    | with_reducible assumption | (simp only [State.mems_mk]; with_reducible refine (State.mems_eta _).trans ?_)
    | (with_reducible refine ite_mems ?_ ?_) | (with_reducible refine (State.wr_mems ..).trans ?_)
    | with_reducible exact State.mems_self _ | dsimp only | split)

theorem State.recSlot_mems (s : State) (idx : Nat) :
    ((State.recSlot s idx).1).mems = s.mems := by
  unfold State.recSlot
  try dsimp only
  repeat' (first
    | with_reducible assumption | (simp only [State.mems_mk]; with_reducible refine (State.mems_eta _).trans ?_)
    | (with_reducible refine ite_mems ?_ ?_) | (with_reducible refine (State.updHub_mems ..).trans ?_)
    | with_reducible exact State.mems_self _ | dsimp only | split)
theorem State.recSlot_mems' {s : State} {idx : Nat} {zr} {zq : State}
    (zh : (State.recSlot s idx) = (zq, zr)) : zq.mems = s.mems := by
  have := (State.recSlot_mems s idx)
  rw [zh] at this
  exact this

theorem State.readSlot_mems (s : State) (r : Reg) (inst : Nat) (idx : Nat) :
    ((State.readSlot s r inst idx).1).mems = s.mems := by
  unfold State.readSlot
  try dsimp only
  repeat' (first
    | with_reducible assumption | (simp only [State.mems_mk]; with_reducible refine (State.mems_eta _).trans ?_)
    | (with_reducible refine ite_mems ?_ ?_) | (with_reducible refine (State.recSlot_mems ..).trans ?_)
    | (with_reducible refine (State.recSlot_mems' (by assumption)).trans ?_)
    | (with_reducible refine (State.clearRead_mems ..).trans ?_) | with_reducible exact State.mems_self _ | dsimp only
    | split)
theorem State.readSlot_mems' {s : State} {r : Reg} {inst : Nat} {idx : Nat} {zr} {zq : State}
    (zh : (State.readSlot s r inst idx) = (zq, zr)) : zq.mems = s.mems := by
  have := (State.readSlot_mems s r inst idx)
  rw [zh] at this
  exact this

theorem State.dropHalf_mems (s : State) (path : Nat) (off : Nat) :
    ((State.dropHalf s path off)).mems = s.mems := by
  unfold State.dropHalf
  try dsimp only
  repeat' (first
    | with_reducible assumption | (simp only [State.mems_mk]; with_reducible refine (State.mems_eta _).trans ?_)
    | (with_reducible refine ite_mems ?_ ?_) | (with_reducible refine (State.updHub_mems ..).trans ?_)
    | with_reducible exact State.mems_self _ | dsimp only | split)

theorem State.readReg_mems (s : State) (path : Nat) (off : Nat) (bytes : Nat) :
    ((State.readReg s path off bytes).1).mems = s.mems := by
  unfold State.readReg
  try dsimp only
  repeat' (first
    | with_reducible assumption | (simp only [State.mems_mk]; with_reducible refine (State.mems_eta _).trans ?_)
    | (with_reducible refine ite_mems ?_ ?_) | (with_reducible refine (State.dropHalf_mems ..).trans ?_)
    | (with_reducible refine (State.readSlot_mems ..).trans ?_)
    | (with_reducible refine (State.readSlot_mems' (by assumption)).trans ?_)
    | (with_reducible refine (State.unmapped_mems ..).trans ?_)
    | (with_reducible refine (State.updHub_mems ..).trans ?_) | with_reducible exact State.mems_self _ | dsimp only
    | split)
theorem State.readReg_mems' {s : State} {path : Nat} {off : Nat} {bytes : Nat} {zr} {zq : State}
    (zh : (State.readReg s path off bytes) = (zq, zr)) : zq.mems = s.mems := by
  have := (State.readReg_mems s path off bytes)
  rw [zh] at this
  exact this

theorem State.answerReg_mems (s : State) (path : Nat) (off : Nat) (bytes : Nat) :
    ((State.answerReg s path off bytes)).mems = s.mems := by
  unfold State.answerReg
  try dsimp only
  repeat' (first
    | with_reducible assumption | (simp only [State.mems_mk]; with_reducible refine (State.mems_eta _).trans ?_)
    | (with_reducible refine ite_mems ?_ ?_) | (with_reducible refine (State.readReg_mems ..).trans ?_)
    | (with_reducible refine (State.readReg_mems' (by assumption)).trans ?_)
    | (with_reducible refine (State.linkSeen_mems ..).trans ?_)
    | (with_reducible refine (State.send_mems ..).trans ?_) | with_reducible exact State.mems_self _ | dsimp only
    | split)

theorem execRcRead_mems {path : Nat} {off : Nat} {s : State} {zt : State} (zh : execRcRead path off s = .next zt) :
    zt.mems = s.mems := by
  unfold execRcRead at zh
  cases zh
  try dsimp only
  repeat' (first
    | with_reducible assumption | (simp only [State.mems_mk]; with_reducible refine (State.mems_eta _).trans ?_)
    | (with_reducible refine ite_mems ?_ ?_) | (with_reducible refine (State.answerReg_mems ..).trans ?_)
    | with_reducible exact State.mems_self _ | dsimp only | split)

theorem execHalfReadLatch_mems {path : Nat} {off : Nat} {s : State} {zt : State} (zh : execHalfReadLatch path off s = .next zt) :
    zt.mems = s.mems := by
  unfold execHalfReadLatch at zh
  cases zh
  try dsimp only
  repeat' (first
    | with_reducible assumption | (simp only [State.mems_mk]; with_reducible refine (State.mems_eta _).trans ?_)
    | (with_reducible refine ite_mems ?_ ?_) | (with_reducible refine (State.answerReg_mems ..).trans ?_)
    | with_reducible exact State.mems_self _ | dsimp only | split)

theorem execFltqRecLatch_mems {path : Nat} {entry : Nat} {slot : Nat} {s : State} {zt : State} (zh : execFltqRecLatch path entry slot s = .next zt) :
    zt.mems = s.mems := by
  unfold execFltqRecLatch at zh
  cases zh
  try dsimp only
  repeat' (first
    | with_reducible assumption | (simp only [State.mems_mk]; with_reducible refine (State.mems_eta _).trans ?_)
    | (with_reducible refine ite_mems ?_ ?_) | (with_reducible refine (State.answerReg_mems ..).trans ?_)
    | with_reducible exact State.mems_self _ | dsimp only | split)

theorem State.bothCopies_mems (s : State) (r : Reg) (inst : Nat) (idx : Nat) :
    ((State.bothCopies s r inst idx)).mems = s.mems := by
  unfold State.bothCopies
  try dsimp only
  repeat' (first
    | with_reducible assumption | (simp only [State.mems_mk]; with_reducible refine (State.mems_eta _).trans ?_)
    | (with_reducible refine ite_mems ?_ ?_) | (with_reducible refine (State.updCore_mems ..).trans ?_)
    | with_reducible exact State.mems_self _ | dsimp only | split)

theorem State.raiseTimeout_mems (s : State) (r : Reg) :
    ((State.raiseTimeout s r)).mems = s.mems := by
  unfold State.raiseTimeout
  try dsimp only
  repeat' (first
    | with_reducible assumption | (simp only [State.mems_mk]; with_reducible refine (State.mems_eta _).trans ?_)
    | (with_reducible refine ite_mems ?_ ?_) | (with_reducible refine (State.viol_mems ..).trans ?_)
    | (with_reducible refine (State.wrF_mems ..).trans ?_) | with_reducible exact State.mems_self _ | dsimp only
    | split)

theorem State.storeReg_mems (s : State) (r : Reg) (inst : Nat) (idx : Nat) (v : Nat) :
    ((State.storeReg s r inst idx v)).mems = s.mems := by
  unfold State.storeReg
  try dsimp only
  repeat' (first
    | with_reducible assumption | (simp only [State.mems_mk]; with_reducible refine (State.mems_eta _).trans ?_)
    | (with_reducible refine ite_mems ?_ ?_) | (with_reducible refine (State.raiseTimeout_mems ..).trans ?_)
    | (with_reducible refine (State.bothCopies_mems ..).trans ?_)
    | (with_reducible refine (State.viol_mems ..).trans ?_) | (with_reducible refine (State.wr_mems ..).trans ?_)
    | (with_reducible refine (forUpTo_mems (fun _ _ => ?_) ..).trans ?_) | with_reducible exact State.mems_self _
    | dsimp only | split)

theorem State.sweep_pend (s : State) (clear : Bool) :
    ((State.sweep s clear)).pend = s.pend := by
  unfold State.sweep
  try dsimp only
  repeat' (first
    | with_reducible assumption | (simp only [State.pend_mk]; with_reducible refine (State.pend_eta _).trans ?_)
    | (with_reducible refine ite_pend ?_ ?_) | (with_reducible refine (State.writeAt_pend ..).trans ?_)
    | (with_reducible refine (State.pend_of_mems (State.wr_mems ..)).trans ?_)
    | (with_reducible refine (forEach_pend (fun _ _ => ?_) ..).trans ?_) | with_reducible exact State.pend_self _
    | dsimp only | split)

theorem State.sweep_canon {s : State} (hs : s.canon) (clear : Bool) :
    ((State.sweep s clear)).canon := by
  unfold State.sweep
  try dsimp only
  repeat' (first
    | with_reducible assumption | (simp only [State.canon_mk]; with_reducible refine State.canon_eta ?_)
    | (with_reducible refine ite_canon ?_ ?_) | (with_reducible refine State.writeAt_canon ?_ ..)
    | (with_reducible refine State.canon_of_mems (State.wr_mems ..) ?_)
    | (with_reducible refine forEach_canon (fun _ _ _ => ?_) ?_ ..) | dsimp only | split)

theorem State.sweepFree_mems {serve : State → State} (hserve : ∀ y0, (serve y0).mems = y0.mems) (s : State) :
    ((State.sweepFree s serve)).mems = s.mems := by
  unfold State.sweepFree
  try dsimp only
  repeat' (first
    | with_reducible assumption | (with_reducible refine (hserve ..).trans ?_)
    | (simp only [State.mems_mk]; with_reducible refine (State.mems_eta _).trans ?_)
    | (with_reducible refine ite_mems ?_ ?_) | (with_reducible refine (State.regReject_mems ..).trans ?_)
    | with_reducible exact State.mems_self _ | dsimp only | split)

theorem State.sweepFree_pend {serve : State → State} (hserve : ∀ y0, (serve y0).pend = y0.pend) (s : State) :
    ((State.sweepFree s serve)).pend = s.pend := by
  unfold State.sweepFree
  try dsimp only
  repeat' (first
    | with_reducible assumption | (with_reducible refine (hserve ..).trans ?_)
    | (simp only [State.pend_mk]; with_reducible refine (State.pend_eta _).trans ?_)
    | (with_reducible refine ite_pend ?_ ?_)
    | (with_reducible refine (State.pend_of_mems (State.regReject_mems ..)).trans ?_)
    | with_reducible exact State.pend_self _ | dsimp only | split)

theorem State.sweepFree_canon {s : State} {serve : State → State} (hserve : ∀ y0, y0.canon → (serve y0).canon) (hs : s.canon) :
    ((State.sweepFree s serve)).canon := by
  unfold State.sweepFree
  try dsimp only
  repeat' (first
    | with_reducible assumption | (with_reducible refine hserve _ ?_)
    | (simp only [State.canon_mk]; with_reducible refine State.canon_eta ?_) | (with_reducible refine ite_canon ?_ ?_)
    | (with_reducible refine State.canon_of_mems (State.regReject_mems ..) ?_) | dsimp only | split)

theorem State.sweepGo_pend (s : State) (clear : Bool) :
    ((State.sweepGo s clear)).pend = s.pend := by
  unfold State.sweepGo
  try dsimp only
  repeat' (first
    | with_reducible assumption | (simp only [State.pend_mk]; with_reducible refine (State.pend_eta _).trans ?_)
    | (with_reducible refine ite_pend ?_ ?_)
    | (with_reducible refine (State.sweepFree_pend (fun _ => ?_) ..).trans ?_)
    | (with_reducible refine (State.sweep_pend ..).trans ?_)
    | (with_reducible refine (State.pend_of_mems (State.updHub_mems ..)).trans ?_)
    | (with_reducible refine (State.pend_of_mems (State.wr_mems ..)).trans ?_)
    | with_reducible exact State.pend_self _ | dsimp only | split)

theorem State.sweepGo_canon {s : State} (hs : s.canon) (clear : Bool) :
    ((State.sweepGo s clear)).canon := by
  unfold State.sweepGo
  try dsimp only
  repeat' (first
    | with_reducible assumption | (simp only [State.canon_mk]; with_reducible refine State.canon_eta ?_)
    | (with_reducible refine ite_canon ?_ ?_) | (with_reducible refine State.sweepFree_canon (fun _ _ => ?_) ?_ ..)
    | (with_reducible refine State.sweep_canon ?_ ..)
    | (with_reducible refine State.canon_of_mems (State.updHub_mems ..) ?_)
    | (with_reducible refine State.canon_of_mems (State.wr_mems ..) ?_) | dsimp only | split)

theorem State.sweepEnd_pend (s : State) :
    ((State.sweepEnd s)).pend = s.pend := by
  unfold State.sweepEnd
  try dsimp only
  repeat' (first
    | with_reducible assumption | (simp only [State.pend_mk]; with_reducible refine (State.pend_eta _).trans ?_)
    | (with_reducible refine ite_pend ?_ ?_) | (with_reducible refine (State.sweep_pend ..).trans ?_)
    | (with_reducible refine (State.pend_of_mems (State.updHub_mems ..)).trans ?_)
    | with_reducible exact State.pend_self _ | dsimp only | split)

theorem State.sweepEnd_canon {s : State} (hs : s.canon) :
    ((State.sweepEnd s)).canon := by
  unfold State.sweepEnd
  try dsimp only
  repeat' (first
    | with_reducible assumption | (simp only [State.canon_mk]; with_reducible refine State.canon_eta ?_)
    | (with_reducible refine ite_canon ?_ ?_) | (with_reducible refine State.sweep_canon ?_ ..)
    | (with_reducible refine State.canon_of_mems (State.updHub_mems ..) ?_) | dsimp only | split)

theorem execSweep_pend {clear : Bool} {s : State} {zt : State} (zh : execSweep clear s = .next zt) :
    zt.pend = s.pend := by
  unfold execSweep at zh
  cases zh
  try dsimp only
  repeat' (first
    | with_reducible assumption | (simp only [State.pend_mk]; with_reducible refine (State.pend_eta _).trans ?_)
    | (with_reducible refine ite_pend ?_ ?_)
    | (with_reducible refine (State.sweepFree_pend (fun _ => ?_) ..).trans ?_)
    | (with_reducible refine (State.sweep_pend ..).trans ?_) | with_reducible exact State.pend_self _ | dsimp only
    | split)

theorem execSweep_canon {clear : Bool} {s : State} {zt : State} (hs : s.canon) (zh : execSweep clear s = .next zt) :
    zt.canon := by
  unfold execSweep at zh
  cases zh
  try dsimp only
  repeat' (first
    | with_reducible assumption | (simp only [State.canon_mk]; with_reducible refine State.canon_eta ?_)
    | (with_reducible refine ite_canon ?_ ?_) | (with_reducible refine State.sweepFree_canon (fun _ _ => ?_) ?_ ..)
    | (with_reducible refine State.sweep_canon ?_ ..) | dsimp only | split)

theorem State.logEntry_pend (s : State) (v : OpenViol) :
    ((State.logEntry s v)).pend = s.pend := by
  unfold State.logEntry
  try dsimp only
  repeat' (first
    | with_reducible assumption | (simp only [State.pend_mk]; with_reducible refine (State.pend_eta _).trans ?_)
    | (with_reducible refine ite_pend ?_ ?_) | (with_reducible refine (State.writeAt_pend ..).trans ?_)
    | (with_reducible refine (State.pend_of_mems (State.bump_mems ..)).trans ?_)
    | (with_reducible refine (State.pend_of_mems (State.wr_mems ..)).trans ?_)
    | with_reducible exact State.pend_self _ | dsimp only | split)

theorem State.logEntry_canon {s : State} (hs : s.canon) (v : OpenViol) :
    ((State.logEntry s v)).canon := by
  unfold State.logEntry
  try dsimp only
  repeat' (first
    | with_reducible assumption | (simp only [State.canon_mk]; with_reducible refine State.canon_eta ?_)
    | (with_reducible refine ite_canon ?_ ?_) | (with_reducible refine State.writeAt_canon ?_ ..)
    | (with_reducible refine State.canon_of_mems (State.bump_mems ..) ?_)
    | (with_reducible refine State.canon_of_mems (State.wr_mems ..) ?_) | dsimp only | split)

theorem execVlogEntryClose_pend {counter : Nat} {island : Nat} {s : State} {zt : State} (zh : execVlogEntryClose counter island s = .next zt) :
    zt.pend = s.pend := by
  unfold execVlogEntryClose at zh
  cases zh
  try dsimp only
  repeat' (first
    | with_reducible assumption | (simp only [State.pend_mk]; with_reducible refine (State.pend_eta _).trans ?_)
    | (with_reducible refine ite_pend ?_ ?_) | (with_reducible refine (State.logEntry_pend ..).trans ?_)
    | with_reducible exact State.pend_self _ | dsimp only | split)

theorem execVlogEntryClose_canon {counter : Nat} {island : Nat} {s : State} {zt : State} (hs : s.canon) (zh : execVlogEntryClose counter island s = .next zt) :
    zt.canon := by
  unfold execVlogEntryClose at zh
  cases zh
  try dsimp only
  repeat' (first
    | with_reducible assumption | (simp only [State.canon_mk]; with_reducible refine State.canon_eta ?_)
    | (with_reducible refine ite_canon ?_ ?_) | (with_reducible refine State.logEntry_canon ?_ ..) | dsimp only
    | split)

theorem State.writeVlog_mems (s : State) (r : Reg) (v : Nat) :
    ((State.writeVlog s r v)).mems = s.mems := by
  unfold State.writeVlog
  try dsimp only
  repeat' (first
    | with_reducible assumption | (simp only [State.mems_mk]; with_reducible refine (State.mems_eta _).trans ?_)
    | (with_reducible refine ite_mems ?_ ?_) | (with_reducible refine (State.storeReg_mems ..).trans ?_)
    | (with_reducible refine (State.regReject_mems ..).trans ?_) | with_reducible exact State.mems_self _ | dsimp only
    | split)

theorem execHubVlogTail_mems {value : Nat} {s : State} {zt : State} (zh : execHubVlogTail value s = .next zt) :
    zt.mems = s.mems := by
  unfold execHubVlogTail at zh
  cases zh
  try dsimp only
  repeat' (first
    | with_reducible assumption | (simp only [State.mems_mk]; with_reducible refine (State.mems_eta _).trans ?_)
    | (with_reducible refine ite_mems ?_ ?_) | (with_reducible refine (State.wr_mems ..).trans ?_)
    | with_reducible exact State.mems_self _ | dsimp only | split)

theorem execCnsRingTail_mems {core : Nat} {value : Nat} {s : State} {zt : State} (zh : execCnsRingTail core value s = .next zt) :
    zt.mems = s.mems := by
  unfold execCnsRingTail at zh
  cases zh
  try dsimp only
  repeat' (first
    | with_reducible assumption | (simp only [State.mems_mk]; with_reducible refine (State.mems_eta _).trans ?_)
    | (with_reducible refine ite_mems ?_ ?_) | (with_reducible refine (State.wr_mems ..).trans ?_)
    | with_reducible exact State.mems_self _ | dsimp only | split)

theorem State.corrIsland_mems (s : State) (island : Nat) :
    ((State.corrIsland s island)).mems = s.mems := by
  unfold State.corrIsland
  try dsimp only
  repeat' (first
    | with_reducible assumption | (simp only [State.mems_mk]; with_reducible refine (State.mems_eta _).trans ?_)
    | (with_reducible refine ite_mems ?_ ?_) | (with_reducible refine (State.regReject_mems ..).trans ?_)
    | (with_reducible refine (State.wrF_mems ..).trans ?_) | with_reducible exact State.mems_self _ | dsimp only
    | split)

theorem State.corrGo_mems (s : State) (island : Nat) :
    ((State.corrGo s island)).mems = s.mems := by
  unfold State.corrGo
  try dsimp only
  repeat' (first
    | with_reducible assumption | (simp only [State.mems_mk]; with_reducible refine (State.mems_eta _).trans ?_)
    | (with_reducible refine ite_mems ?_ ?_) | (with_reducible refine (State.corrIsland_mems ..).trans ?_)
    | (with_reducible refine (State.updHub_mems ..).trans ?_)
    | (with_reducible refine (State.regReject_mems ..).trans ?_)
    | (with_reducible refine (State.wrF_mems ..).trans ?_) | (with_reducible refine (State.wr_mems ..).trans ?_)
    | with_reducible exact State.mems_self _ | dsimp only | split)

theorem State.writeCorr_mems (s : State) (v : Nat) :
    ((State.writeCorr s v)).mems = s.mems := by
  unfold State.writeCorr
  try dsimp only
  repeat' (first
    | with_reducible assumption | (simp only [State.mems_mk]; with_reducible refine (State.mems_eta _).trans ?_)
    | (with_reducible refine ite_mems ?_ ?_) | (with_reducible refine (State.corrGo_mems ..).trans ?_)
    | (with_reducible refine (State.corrIsland_mems ..).trans ?_) | with_reducible exact State.mems_self _
    | dsimp only | split)

theorem State.writeMbox_mems (s : State) (v : Nat) :
    ((State.writeMbox s v)).mems = s.mems := by
  unfold State.writeMbox
  try dsimp only
  repeat' (first
    | with_reducible assumption | (simp only [State.mems_mk]; with_reducible refine (State.mems_eta _).trans ?_)
    | (with_reducible refine ite_mems ?_ ?_) | (with_reducible refine (State.newNonce_mems ..).trans ?_)
    | (with_reducible refine (State.wardGo_mems ..).trans ?_) | (with_reducible refine (State.wrF_mems ..).trans ?_)
    | with_reducible exact State.mems_self _ | dsimp only | split)

theorem State.writePwr_pend (s : State) (v : Nat) :
    ((State.writePwr s v)).pend = s.pend := by
  unfold State.writePwr
  try dsimp only
  repeat' (first
    | with_reducible assumption | (simp only [State.pend_mk]; with_reducible refine (State.pend_eta _).trans ?_)
    | (with_reducible refine ite_pend ?_ ?_) | (with_reducible refine (State.requestOff_pend ..).trans ?_)
    | (with_reducible refine (State.requestStandby_pend ..).trans ?_)
    | (with_reducible refine (State.pend_of_mems (State.requestHold_mems ..)).trans ?_)
    | (with_reducible refine (State.pend_of_mems (State.requestRun_mems ..)).trans ?_)
    | (with_reducible refine (State.pend_of_mems (State.viol_mems ..)).trans ?_)
    | with_reducible exact State.pend_self _ | dsimp only | split)

theorem State.writePwr_canon {s : State} (hs : s.canon) (v : Nat) :
    ((State.writePwr s v)).canon := by
  unfold State.writePwr
  try dsimp only
  repeat' (first
    | with_reducible assumption | (simp only [State.canon_mk]; with_reducible refine State.canon_eta ?_)
    | (with_reducible refine ite_canon ?_ ?_) | (with_reducible refine State.requestOff_canon ?_ ..)
    | (with_reducible refine State.requestStandby_canon ?_ ..)
    | (with_reducible refine State.canon_of_mems (State.requestHold_mems ..) ?_)
    | (with_reducible refine State.canon_of_mems (State.requestRun_mems ..) ?_)
    | (with_reducible refine State.canon_of_mems (State.viol_mems ..) ?_) | dsimp only | split)

theorem State.writeSession_mems (s : State) (v : Nat) :
    ((State.writeSession s v)).mems = s.mems := by
  unfold State.writeSession
  try dsimp only
  repeat' (first
    | with_reducible assumption | (simp only [State.mems_mk]; with_reducible refine (State.mems_eta _).trans ?_)
    | (with_reducible refine ite_mems ?_ ?_) | (with_reducible refine (State.attachCmd_mems ..).trans ?_)
    | (with_reducible refine (State.detach_mems ..).trans ?_)
    | (with_reducible refine (State.hostViol_mems ..).trans ?_) | with_reducible exact State.mems_self _ | dsimp only
    | split)

theorem State.special_pend (s : State) (r : Reg) (idx : Nat) (v : Nat) :
    ((State.special s r idx v).1).pend = s.pend := by
  unfold State.special
  try dsimp only
  repeat' (first
    | with_reducible assumption | (simp only [State.pend_mk]; with_reducible refine (State.pend_eta _).trans ?_)
    | (with_reducible refine ite_pend ?_ ?_)
    | (with_reducible refine (State.pend_of_mems (State.writeSession_mems ..)).trans ?_)
    | (with_reducible refine (State.writePwr_pend ..).trans ?_)
    | (with_reducible refine (State.pend_of_mems (State.writeMbox_mems ..)).trans ?_)
    | (with_reducible refine (State.pend_of_mems (State.writeCorr_mems ..)).trans ?_)
    | (with_reducible refine (State.pend_of_mems (State.writeVlog_mems ..)).trans ?_)
    | (with_reducible refine (State.sweepGo_pend ..).trans ?_)
    | (with_reducible refine (State.writeReset_pend ..).trans ?_)
    | (with_reducible refine (State.pend_of_mems (State.setLimit_mems ..)).trans ?_)
    | (with_reducible refine (State.pend_of_mems (State.setLevel_mems ..)).trans ?_)
    | (with_reducible refine (State.pend_of_mems (State.closeD2_mems ..)).trans ?_)
    | (with_reducible refine (State.pend_of_mems (State.writeRing_mems ..)).trans ?_)
    | (with_reducible refine (State.pend_of_mems (State.writeWin_mems ..)).trans ?_)
    | (with_reducible refine (State.pend_of_mems (State.cqPost_mems ..)).trans ?_)
    | (with_reducible refine (State.pend_of_mems (State.writeHead_mems ..)).trans ?_)
    | (with_reducible refine (State.pend_of_mems (State.writeTail_mems ..)).trans ?_)
    | (with_reducible refine (State.pend_of_mems (State.writeTail_mems' (by assumption))).trans ?_)
    | (with_reducible refine (State.pend_of_mems (State.tierQuery_mems ..)).trans ?_)
    | with_reducible exact State.pend_self _ | dsimp only | split)
theorem State.special_pend' {s : State} {r : Reg} {idx : Nat} {v : Nat} {zr} {zq : State}
    (zh : (State.special s r idx v) = (zq, zr)) : zq.pend = s.pend := by
  have := (State.special_pend s r idx v)
  rw [zh] at this
  exact this

theorem State.special_canon {s : State} (hs : s.canon) (r : Reg) (idx : Nat) (v : Nat) :
    ((State.special s r idx v).1).canon := by
  unfold State.special
  try dsimp only
  repeat' (first
    | with_reducible assumption | (simp only [State.canon_mk]; with_reducible refine State.canon_eta ?_)
    | (with_reducible refine ite_canon ?_ ?_)
    | (with_reducible refine State.canon_of_mems (State.writeSession_mems ..) ?_)
    | (with_reducible refine State.writePwr_canon ?_ ..)
    | (with_reducible refine State.canon_of_mems (State.writeMbox_mems ..) ?_)
    | (with_reducible refine State.canon_of_mems (State.writeCorr_mems ..) ?_)
    | (with_reducible refine State.canon_of_mems (State.writeVlog_mems ..) ?_)
    | (with_reducible refine State.sweepGo_canon ?_ ..) | (with_reducible refine State.writeReset_canon ?_ ..)
    | (with_reducible refine State.canon_of_mems (State.setLimit_mems ..) ?_)
    | (with_reducible refine State.canon_of_mems (State.setLevel_mems ..) ?_)
    | (with_reducible refine State.canon_of_mems (State.closeD2_mems ..) ?_)
    | (with_reducible refine State.canon_of_mems (State.writeRing_mems ..) ?_)
    | (with_reducible refine State.canon_of_mems (State.writeWin_mems ..) ?_)
    | (with_reducible refine State.canon_of_mems (State.cqPost_mems ..) ?_)
    | (with_reducible refine State.canon_of_mems (State.writeHead_mems ..) ?_)
    | (with_reducible refine State.canon_of_mems (State.writeTail_mems ..) ?_)
    | (with_reducible refine State.canon_of_mems (State.writeTail_mems' (by assumption)) ?_)
    | (with_reducible refine State.canon_of_mems (State.tierQuery_mems ..) ?_) | dsimp only | split)
theorem State.special_canon' {s : State} {r : Reg} {idx : Nat} {v : Nat} {zr} {zq : State} (zh : (State.special s r idx v) = (zq, zr)) (hs : s.canon) : zq.canon := by
  have := (State.special_canon hs r idx v)
  rw [zh] at this
  exact this

theorem State.writeSlot_pend (s : State) (who : Writer) (r : Reg) (inst : Nat) (idx : Nat) (v : Nat) :
    ((State.writeSlot s who r inst idx v)).pend = s.pend := by
  unfold State.writeSlot
  try dsimp only
  repeat' (first
    | with_reducible assumption | (simp only [State.pend_mk]; with_reducible refine (State.pend_eta _).trans ?_)
    | (with_reducible refine ite_pend ?_ ?_) | (with_reducible refine (State.special_pend ..).trans ?_)
    | (with_reducible refine (State.special_pend' (by assumption)).trans ?_)
    | (with_reducible refine (State.pend_of_mems (State.storeReg_mems ..)).trans ?_)
    | (with_reducible refine (State.pend_of_mems (State.regReject_mems ..)).trans ?_)
    | with_reducible exact State.pend_self _ | dsimp only | split)

theorem State.writeSlot_canon {s : State} (hs : s.canon) (who : Writer) (r : Reg) (inst : Nat) (idx : Nat) (v : Nat) :
    ((State.writeSlot s who r inst idx v)).canon := by
  unfold State.writeSlot
  try dsimp only
  repeat' (first
    | with_reducible assumption | (simp only [State.canon_mk]; with_reducible refine State.canon_eta ?_)
    | (with_reducible refine ite_canon ?_ ?_) | (with_reducible refine State.special_canon ?_ ..)
    | (with_reducible refine State.special_canon' (by assumption) ?_)
    | (with_reducible refine State.canon_of_mems (State.storeReg_mems ..) ?_)
    | (with_reducible refine State.canon_of_mems (State.regReject_mems ..) ?_) | dsimp only | split)

theorem State.writeReg_pend (s : State) (path : Nat) (off : Nat) (bytes : Nat) (v : Nat) :
    ((State.writeReg s path off bytes v).1).pend = s.pend := by
  unfold State.writeReg
  try dsimp only
  repeat' (first
    | with_reducible assumption | (simp only [State.pend_mk]; with_reducible refine (State.pend_eta _).trans ?_)
    | (with_reducible refine ite_pend ?_ ?_) | (with_reducible refine (State.writeSlot_pend ..).trans ?_)
    | (with_reducible refine (State.pend_of_mems (State.unmapped_mems ..)).trans ?_)
    | (with_reducible refine (State.pend_of_mems (State.regReject_mems ..)).trans ?_)
    | with_reducible exact State.pend_self _ | dsimp only | split)
theorem State.writeReg_pend' {s : State} {path : Nat} {off : Nat} {bytes : Nat} {v : Nat} {zr} {zq : State}
    (zh : (State.writeReg s path off bytes v) = (zq, zr)) : zq.pend = s.pend := by
  have := (State.writeReg_pend s path off bytes v)
  rw [zh] at this
  exact this

theorem State.writeReg_canon {s : State} (hs : s.canon) (path : Nat) (off : Nat) (bytes : Nat) (v : Nat) :
    ((State.writeReg s path off bytes v).1).canon := by
  unfold State.writeReg
  try dsimp only
  repeat' (first
    | with_reducible assumption | (simp only [State.canon_mk]; with_reducible refine State.canon_eta ?_)
    | (with_reducible refine ite_canon ?_ ?_) | (with_reducible refine State.writeSlot_canon ?_ ..)
    | (with_reducible refine State.canon_of_mems (State.unmapped_mems ..) ?_)
    | (with_reducible refine State.canon_of_mems (State.regReject_mems ..) ?_) | dsimp only | split)
theorem State.writeReg_canon' {s : State} {path : Nat} {off : Nat} {bytes : Nat} {v : Nat} {zr} {zq : State} (zh : (State.writeReg s path off bytes v) = (zq, zr)) (hs : s.canon) : zq.canon := by
  have := (State.writeReg_canon hs path off bytes v)
  rw [zh] at this
  exact this

end Sys2Proof.Machine
end

