-- ==== Sys2Proof/Laws/FrameReduce.lean ====
section
/-! SUPPORT. Frames of Machine/Reduce.lean: what each operation and command leaves alone of the memories and the queue. -/

set_option linter.all false

namespace Sys2Proof.Machine

theorem State.jobRequest_mems (s : State) (j : FabJob) (t : Todo) :
    ((State.jobRequest s j t)).mems = s.mems := by
  unfold State.jobRequest
  try dsimp only
  repeat' (first
    | with_reducible assumption | (simp only [State.mems_mk]; with_reducible refine (State.mems_eta _).trans ?_)
    | (with_reducible refine ite_mems ?_ ?_) | (with_reducible refine (State.updFabJob_mems ..).trans ?_)
    | (with_reducible refine (State.request_mems ..).trans ?_) | with_reducible exact State.mems_self _ | dsimp only
    | split)

theorem State.pumpTodo_mems (s : State) (g : Nat) (x2 : Nat) :
    ((State.pumpTodo s g x2)).mems = s.mems := by
  induction x2 generalizing s g with
  | zero =>
    unfold State.pumpTodo
    try dsimp only
    repeat' (first
      | with_reducible assumption | (simp only [State.mems_mk]; with_reducible refine (State.mems_eta _).trans ?_)
      | (with_reducible refine ite_mems ?_ ?_) | (with_reducible refine (State.jobRequest_mems ..).trans ?_)
      | (with_reducible refine (State.updFabJob_mems ..).trans ?_) | with_reducible exact State.mems_self _
      | dsimp only | split)
  | succ x2 ih =>
    unfold State.pumpTodo
    try dsimp only
    repeat' (first
      | with_reducible assumption | (with_reducible refine (ih ..).trans ?_)
      | (simp only [State.mems_mk]; with_reducible refine (State.mems_eta _).trans ?_)
      | (with_reducible refine ite_mems ?_ ?_) | (with_reducible refine (State.jobRequest_mems ..).trans ?_)
      | (with_reducible refine (State.updFabJob_mems ..).trans ?_) | with_reducible exact State.mems_self _
      | dsimp only | split)

theorem State.clearSlot_mems (s : State) (d : Nat) (n : Nat) :
    ((State.clearSlot s d n)).mems = s.mems := by
  unfold State.clearSlot
  try dsimp only
  repeat' (first
    | with_reducible assumption | (simp only [State.mems_mk]; with_reducible refine (State.mems_eta _).trans ?_)
    | (with_reducible refine ite_mems ?_ ?_) | with_reducible exact State.mems_self _ | dsimp only | split)

theorem State.sendLeaves_mems (s : State) (j : FabJob) (gi : Nat) (g : Group) (x : RedDesc) (rank : Nat) (pos : Nat) :
    ((State.sendLeaves s j gi g x rank pos)).mems = s.mems := by
  unfold State.sendLeaves
  try dsimp only
  repeat' (first
    | with_reducible assumption | (simp only [State.mems_mk]; with_reducible refine (State.mems_eta _).trans ?_)
    | (with_reducible refine ite_mems ?_ ?_) | (with_reducible refine (State.clearSlot_mems ..).trans ?_)
    | (with_reducible refine (State.jobRequest_mems ..).trans ?_)
    | (with_reducible refine (State.islViol_mems ..).trans ?_)
    | (with_reducible refine (State.updFabJob_mems ..).trans ?_)
    | (with_reducible refine (State.updPrg_mems ..).trans ?_)
    | (with_reducible refine (forUpTo_mems (fun _ _ => ?_) ..).trans ?_) | with_reducible exact State.mems_self _
    | dsimp only | split)

theorem execRed_mems {core : Nat} {s : State} {zt : State} (zh : execRed core s = .next zt) :
    zt.mems = s.mems := by
  unfold execRed at zh
  cases zh
  try dsimp only
  repeat' (first
    | with_reducible assumption | (simp only [State.mems_mk]; with_reducible refine (State.mems_eta _).trans ?_)
    | (with_reducible refine ite_mems ?_ ?_) | (with_reducible refine (State.sendLeaves_mems ..).trans ?_)
    | (with_reducible refine (State.islViol_mems ..).trans ?_)
    | (with_reducible refine (State.fabDone_mems ..).trans ?_)
    | (with_reducible refine (State.takeFab_mems ..).trans ?_)
    | (with_reducible refine (State.viols'_mems ..).trans ?_) | with_reducible exact State.mems_self _ | dsimp only
    | split)

theorem State.redFinish_mems (s : State) (j : FabJob) :
    ((State.redFinish s j)).mems = s.mems := by
  unfold State.redFinish
  try dsimp only
  repeat' (first
    | with_reducible assumption | (simp only [State.mems_mk]; with_reducible refine (State.mems_eta _).trans ?_)
    | (with_reducible refine ite_mems ?_ ?_) | (with_reducible refine (State.fabDone_mems ..).trans ?_)
    | (with_reducible refine (State.selfTmb_mems ..).trans ?_) | with_reducible exact State.mems_self _ | dsimp only
    | split)

theorem State.sendNorm_mems (s : State) (d : Nat) (tag : Nat) (g : Group) (n2 : Nat) (seq : Nat) :
    ((State.sendNorm s d tag g n2 seq)).mems = s.mems := by
  unfold State.sendNorm
  try dsimp only
  repeat' (first
    | with_reducible assumption | (simp only [State.mems_mk]; with_reducible refine (State.mems_eta _).trans ?_)
    | (with_reducible refine ite_mems ?_ ?_) | (with_reducible refine (State.islViol_mems ..).trans ?_)
    | (with_reducible refine (State.request_mems ..).trans ?_) | with_reducible exact State.mems_self _ | dsimp only
    | split)

theorem State.sendN2_mems (s : State) (d : Nat) (n2 : Nat) (tmb : Nat) :
    ((State.sendN2 s d n2 tmb)).mems = s.mems := by
  unfold State.sendN2
  try dsimp only
  repeat' (first
    | with_reducible assumption | (simp only [State.mems_mk]; with_reducible refine (State.mems_eta _).trans ?_)
    | (with_reducible refine ite_mems ?_ ?_) | (with_reducible refine (State.request_mems ..).trans ?_)
    | (with_reducible refine (forEach_mems (fun _ _ => ?_) ..).trans ?_) | with_reducible exact State.mems_self _
    | dsimp only | split)

theorem State.redCensus_pend (s : State) (d : Nat) (tag : Nat) (seq : Nat) (g : Group) (k : CensusSet) :
    ((State.redCensus s d tag seq g k)).pend = s.pend := by
  unfold State.redCensus
  try dsimp only
  repeat' (first
    | with_reducible assumption | (simp only [State.pend_mk]; with_reducible refine (State.pend_eta _).trans ?_)
    | (with_reducible refine ite_pend ?_ ?_) | (with_reducible refine (State.writeRecord_pend ..).trans ?_)
    | (with_reducible refine (State.pend_of_mems (State.carryTotals_mems ..)).trans ?_)
    | (with_reducible refine (State.pend_of_mems (State.foldTotals_mems ..)).trans ?_)
    | (with_reducible refine (State.pend_of_mems (State.send_mems ..)).trans ?_)
    | with_reducible exact State.pend_self _ | dsimp only | split)

theorem State.redCensus_canon {s : State} (hs : s.canon) (d : Nat) (tag : Nat) (seq : Nat) (g : Group) (k : CensusSet) :
    ((State.redCensus s d tag seq g k)).canon := by
  unfold State.redCensus
  try dsimp only
  repeat' (first
    | with_reducible assumption | (simp only [State.canon_mk]; with_reducible refine State.canon_eta ?_)
    | (with_reducible refine ite_canon ?_ ?_) | (with_reducible refine State.writeRecord_canon ?_ ..)
    | (with_reducible refine State.canon_of_mems (State.carryTotals_mems ..) ?_)
    | (with_reducible refine State.canon_of_mems (State.foldTotals_mems ..) ?_)
    | (with_reducible refine State.canon_of_mems (State.send_mems ..) ?_) | dsimp only | split)

theorem State.rootOut_pend (s : State) (d : Nat) (gi : Nat) (tag : Nat) (desc : Nat) (diffs : Nat) (g : Group) (vs : List Nat) (ftz : Nat) :
    ((State.rootOut s d gi tag desc diffs g vs ftz)).pend = s.pend := by
  unfold State.rootOut
  try dsimp only
  repeat' (first
    | with_reducible assumption | (simp only [State.pend_mk]; with_reducible refine (State.pend_eta _).trans ?_)
    | (with_reducible refine ite_pend ?_ ?_) | (with_reducible refine (State.redCensus_pend ..).trans ?_)
    | (with_reducible refine (State.pend_of_mems (State.sendNorm_mems ..)).trans ?_)
    | (with_reducible refine (State.pend_of_mems (State.islViol_mems ..)).trans ?_)
    | (with_reducible refine (State.pend_of_mems (State.request_mems ..)).trans ?_)
    | (with_reducible refine (State.pend_of_mems (State.updPrg_mems ..)).trans ?_)
    | (with_reducible refine (forEach_pend (fun _ _ => ?_) ..).trans ?_)
    | (with_reducible refine (forUpTo_pend (fun _ _ => ?_) ..).trans ?_) | with_reducible exact State.pend_self _
    | dsimp only | split)

theorem State.rootOut_canon {s : State} (hs : s.canon) (d : Nat) (gi : Nat) (tag : Nat) (desc : Nat) (diffs : Nat) (g : Group) (vs : List Nat) (ftz : Nat) :
    ((State.rootOut s d gi tag desc diffs g vs ftz)).canon := by
  unfold State.rootOut
  try dsimp only
  repeat' (first
    | with_reducible assumption | (simp only [State.canon_mk]; with_reducible refine State.canon_eta ?_)
    | (with_reducible refine ite_canon ?_ ?_) | (with_reducible refine State.redCensus_canon ?_ ..)
    | (with_reducible refine State.canon_of_mems (State.sendNorm_mems ..) ?_)
    | (with_reducible refine State.canon_of_mems (State.islViol_mems ..) ?_)
    | (with_reducible refine State.canon_of_mems (State.request_mems ..) ?_)
    | (with_reducible refine State.canon_of_mems (State.updPrg_mems ..) ?_)
    | (with_reducible refine forEach_canon (fun _ _ _ => ?_) ?_ ..)
    | (with_reducible refine forUpTo_canon (fun _ _ _ => ?_) ?_ ..) | dsimp only | split)

theorem State.rootStored_mems (s : State) (d : Nat) (gi : Nat) (tag : Nat) (ix : Nat) :
    ((State.rootStored s d gi tag ix)).mems = s.mems := by
  unfold State.rootStored
  try dsimp only
  repeat' (first
    | with_reducible assumption | (simp only [State.mems_mk]; with_reducible refine (State.mems_eta _).trans ?_)
    | (with_reducible refine ite_mems ?_ ?_) | (with_reducible refine (State.signalTo_mems ..).trans ?_)
    | (with_reducible refine (State.updPrg_mems ..).trans ?_) | with_reducible exact State.mems_self _ | dsimp only
    | split)

theorem State.rootChunk_pend (s : State) (d : Nat) (gi : Nat) (tag : Nat) (chunk : Nat) (g : Group) (v : List Nat × Nat) (rdesc : Option Nat) (diffs : Nat) :
    ((State.rootChunk s d gi tag chunk g v rdesc diffs)).pend = s.pend := by
  unfold State.rootChunk
  try dsimp only
  repeat' (first
    | with_reducible assumption | (simp only [State.pend_mk]; with_reducible refine (State.pend_eta _).trans ?_)
    | (with_reducible refine ite_pend ?_ ?_) | (with_reducible refine (State.rootOut_pend ..).trans ?_)
    | (with_reducible refine (State.pend_of_mems (State.sendN2_mems ..)).trans ?_)
    | (with_reducible refine (State.pend_of_mems (State.updPrg_mems ..)).trans ?_)
    | with_reducible exact State.pend_self _ | dsimp only | split)

theorem State.rootChunk_canon {s : State} (hs : s.canon) (d : Nat) (gi : Nat) (tag : Nat) (chunk : Nat) (g : Group) (v : List Nat × Nat) (rdesc : Option Nat) (diffs : Nat) :
    ((State.rootChunk s d gi tag chunk g v rdesc diffs)).canon := by
  unfold State.rootChunk
  try dsimp only
  repeat' (first
    | with_reducible assumption | (simp only [State.canon_mk]; with_reducible refine State.canon_eta ?_)
    | (with_reducible refine ite_canon ?_ ?_) | (with_reducible refine State.rootOut_canon ?_ ..)
    | (with_reducible refine State.canon_of_mems (State.sendN2_mems ..) ?_)
    | (with_reducible refine State.canon_of_mems (State.updPrg_mems ..) ?_) | dsimp only | split)

theorem State.redValue_pend (s : State) (d : Nat) (gi : Nat) (tag : Nat) (level : Nat) (ix : Nat) (chunk : Nat) (g : Group) (compress : Bool) (v : List Nat × Nat) (rdesc : Option Nat) (diffs : Nat) :
    ((State.redValue s d gi tag level ix chunk g compress v rdesc diffs)).pend = s.pend := by
  unfold State.redValue
  try dsimp only
  repeat' (first
    | with_reducible assumption | (simp only [State.pend_mk]; with_reducible refine (State.pend_eta _).trans ?_)
    | (with_reducible refine ite_pend ?_ ?_) | (with_reducible refine (State.rootChunk_pend ..).trans ?_)
    | (with_reducible refine (State.pend_of_mems (State.request_mems ..)).trans ?_)
    | (with_reducible refine (State.pend_of_mems (State.updPrg_mems ..)).trans ?_)
    | with_reducible exact State.pend_self _ | dsimp only | split)

theorem State.redValue_canon {s : State} (hs : s.canon) (d : Nat) (gi : Nat) (tag : Nat) (level : Nat) (ix : Nat) (chunk : Nat) (g : Group) (compress : Bool) (v : List Nat × Nat) (rdesc : Option Nat) (diffs : Nat) :
    ((State.redValue s d gi tag level ix chunk g compress v rdesc diffs)).canon := by
  unfold State.redValue
  try dsimp only
  repeat' (first
    | with_reducible assumption | (simp only [State.canon_mk]; with_reducible refine State.canon_eta ?_)
    | (with_reducible refine ite_canon ?_ ?_) | (with_reducible refine State.rootChunk_canon ?_ ..)
    | (with_reducible refine State.canon_of_mems (State.request_mems ..) ?_)
    | (with_reducible refine State.canon_of_mems (State.updPrg_mems ..) ?_) | dsimp only | split)

end Sys2Proof.Machine
end

