-- ==== Sys2Proof/Laws/FrameCopy.lean ====
section
/-! SUPPORT. Frames of Machine/Copy.lean: what each operation and command leaves alone of the memories and the queue. -/

set_option linter.all false

namespace Sys2Proof.Machine

theorem State.storeLines_pend (s : State) (a : Nat) (ls : List (List Nat × Nat × Bool)) :
    ((State.storeLines s a ls)).pend = s.pend := by
  unfold State.storeLines
  try dsimp only
  repeat' (first
    | with_reducible assumption | (simp only [State.pend_mk]; with_reducible refine (State.pend_eta _).trans ?_)
    | (with_reducible refine ite_pend ?_ ?_) | (with_reducible refine (State.putLine_pend ..).trans ?_)
    | (with_reducible refine (State.putStg_pend ..).trans ?_)
    | (with_reducible refine (forEach_pend (fun _ _ => ?_) ..).trans ?_) | with_reducible exact State.pend_self _
    | dsimp only | split)

theorem State.storeLines_canon {s : State} (hs : s.canon) (a : Nat) (ls : List (List Nat × Nat × Bool)) :
    ((State.storeLines s a ls)).canon := by
  unfold State.storeLines
  try dsimp only
  repeat' (first
    | with_reducible assumption | (simp only [State.canon_mk]; with_reducible refine State.canon_eta ?_)
    | (with_reducible refine ite_canon ?_ ?_) | (with_reducible refine State.putLine_canon ?_ ..)
    | (with_reducible refine State.putStg_canon ?_ ..) | (with_reducible refine forEach_canon (fun _ _ _ => ?_) ?_ ..)
    | dsimp only | split)

theorem State.moveAck_mems (s : State) (g : Nat) (pos : Nat) (x : MoveRd) (q : Nat) (k : Nat) :
    ((State.moveAck s g pos x q k)).mems = s.mems := by
  unfold State.moveAck
  try dsimp only
  repeat' (first
    | with_reducible assumption | (simp only [State.mems_mk]; with_reducible refine (State.mems_eta _).trans ?_)
    | (with_reducible refine ite_mems ?_ ?_) | (with_reducible refine (State.updFabJob_mems ..).trans ?_)
    | (with_reducible refine (State.signalTo_mems ..).trans ?_)
    | (with_reducible refine (forUpTo_mems (fun _ _ => ?_) ..).trans ?_) | with_reducible exact State.mems_self _
    | dsimp only | split)

theorem State.moveOut_pend (s : State) (g : Nat) (pos : Nat) (x : MoveRd) (p : Nat) (ls : List (List Nat × Nat × Bool)) :
    ((State.moveOut s g pos x p ls)).pend = s.pend := by
  unfold State.moveOut
  try dsimp only
  repeat' (first
    | with_reducible assumption | (simp only [State.pend_mk]; with_reducible refine (State.pend_eta _).trans ?_)
    | (with_reducible refine ite_pend ?_ ?_)
    | (with_reducible refine (State.pend_of_mems (State.moveAck_mems ..)).trans ?_)
    | (with_reducible refine (State.storeLines_pend ..).trans ?_)
    | (with_reducible refine (State.pend_of_mems (State.jobRequest_mems ..)).trans ?_)
    | (with_reducible refine (State.pend_of_mems (State.pathOr_mems ..)).trans ?_)
    | (with_reducible refine (forEach_pend (fun _ _ => ?_) ..).trans ?_) | with_reducible exact State.pend_self _
    | dsimp only | split)

theorem State.moveOut_canon {s : State} (hs : s.canon) (g : Nat) (pos : Nat) (x : MoveRd) (p : Nat) (ls : List (List Nat × Nat × Bool)) :
    ((State.moveOut s g pos x p ls)).canon := by
  unfold State.moveOut
  try dsimp only
  repeat' (first
    | with_reducible assumption | (simp only [State.canon_mk]; with_reducible refine State.canon_eta ?_)
    | (with_reducible refine ite_canon ?_ ?_) | (with_reducible refine State.canon_of_mems (State.moveAck_mems ..) ?_)
    | (with_reducible refine State.storeLines_canon ?_ ..)
    | (with_reducible refine State.canon_of_mems (State.jobRequest_mems ..) ?_)
    | (with_reducible refine State.canon_of_mems (State.pathOr_mems ..) ?_)
    | (with_reducible refine forEach_canon (fun _ _ _ => ?_) ?_ ..) | dsimp only | split)

theorem State.moveGo_pend (s : State) (g : Nat) (pos : Nat) (x : MoveRd) (p : Nat) (x5 : Nat) :
    ((State.moveGo s g pos x p x5)).pend = s.pend := by
  induction x5 generalizing s g pos x p with
  | zero =>
    unfold State.moveGo
    try dsimp only
    repeat' (first
      | with_reducible assumption | (simp only [State.pend_mk]; with_reducible refine (State.pend_eta _).trans ?_)
      | (with_reducible refine ite_pend ?_ ?_) | (with_reducible refine (State.moveOut_pend ..).trans ?_)
      | (with_reducible refine (State.pend_of_mems (State.jobRequest_mems ..)).trans ?_)
      | (with_reducible refine (State.pend_of_mems (State.updFabJob_mems ..)).trans ?_)
      | (with_reducible refine (State.gateReads_pend ..).trans ?_)
      | (with_reducible refine (State.gateReads_pend' (by assumption)).trans ?_)
      | with_reducible exact State.pend_self _ | dsimp only | split)
  | succ x5 ih =>
    unfold State.moveGo
    try dsimp only
    repeat' (first
      | with_reducible assumption | (with_reducible refine (ih ..).trans ?_)
      | (simp only [State.pend_mk]; with_reducible refine (State.pend_eta _).trans ?_)
      | (with_reducible refine ite_pend ?_ ?_) | (with_reducible refine (State.moveOut_pend ..).trans ?_)
      | (with_reducible refine (State.pend_of_mems (State.jobRequest_mems ..)).trans ?_)
      | (with_reducible refine (State.pend_of_mems (State.updFabJob_mems ..)).trans ?_)
      | (with_reducible refine (State.gateReads_pend ..).trans ?_)
      | (with_reducible refine (State.gateReads_pend' (by assumption)).trans ?_)
      | with_reducible exact State.pend_self _ | dsimp only | split)

theorem State.moveGo_canon {s : State} (hs : s.canon) (g : Nat) (pos : Nat) (x : MoveRd) (p : Nat) (x5 : Nat) :
    ((State.moveGo s g pos x p x5)).canon := by
  induction x5 generalizing s g pos x p with
  | zero =>
    unfold State.moveGo
    try dsimp only
    repeat' (first
      | with_reducible assumption | (simp only [State.canon_mk]; with_reducible refine State.canon_eta ?_)
      | (with_reducible refine ite_canon ?_ ?_) | (with_reducible refine State.moveOut_canon ?_ ..)
      | (with_reducible refine State.canon_of_mems (State.jobRequest_mems ..) ?_)
      | (with_reducible refine State.canon_of_mems (State.updFabJob_mems ..) ?_)
      | (with_reducible refine State.gateReads_canon ?_ ..)
      | (with_reducible refine State.gateReads_canon' (by assumption) ?_) | dsimp only | split)
  | succ x5 ih =>
    unfold State.moveGo
    try dsimp only
    repeat' (first
      | with_reducible assumption | (with_reducible refine ih ?_ ..)
      | (simp only [State.canon_mk]; with_reducible refine State.canon_eta ?_)
      | (with_reducible refine ite_canon ?_ ?_) | (with_reducible refine State.moveOut_canon ?_ ..)
      | (with_reducible refine State.canon_of_mems (State.jobRequest_mems ..) ?_)
      | (with_reducible refine State.canon_of_mems (State.updFabJob_mems ..) ?_)
      | (with_reducible refine State.gateReads_canon ?_ ..)
      | (with_reducible refine State.gateReads_canon' (by assumption) ?_) | dsimp only | split)

theorem State.settleFab_mems (s : State) (g : Nat) (pos : Nat) :
    ((State.settleFab s g pos)).mems = s.mems := by
  unfold State.settleFab
  try dsimp only
  repeat' (first
    | with_reducible assumption | (simp only [State.mems_mk]; with_reducible refine (State.mems_eta _).trans ?_)
    | (with_reducible refine ite_mems ?_ ?_) | (with_reducible refine (State.redFinish_mems ..).trans ?_)
    | (with_reducible refine (State.fabDone_mems ..).trans ?_) | with_reducible exact State.mems_self _ | dsimp only
    | split)

theorem State.moveStart_pend (s : State) (g : Nat) (j : FabJob) :
    ((State.moveStart s g j)).pend = s.pend := by
  unfold State.moveStart
  try dsimp only
  repeat' (first
    | with_reducible assumption | (simp only [State.pend_mk]; with_reducible refine (State.pend_eta _).trans ?_)
    | (with_reducible refine ite_pend ?_ ?_)
    | (with_reducible refine (State.pend_of_mems (State.settleFab_mems ..)).trans ?_)
    | (with_reducible refine (State.moveGo_pend ..).trans ?_)
    | (with_reducible refine (State.pend_of_mems (State.fabDone_mems ..)).trans ?_)
    | (with_reducible refine (State.pend_of_mems (State.coreAddrViol_mems ..)).trans ?_)
    | (with_reducible refine (State.pend_of_mems (State.viols'_mems ..)).trans ?_)
    | (with_reducible refine (State.pend_of_mems (State.viol_mems ..)).trans ?_)
    | (with_reducible refine (forEach_pend (fun _ _ => ?_) ..).trans ?_) | with_reducible exact State.pend_self _
    | dsimp only | split)

theorem State.moveStart_canon {s : State} (hs : s.canon) (g : Nat) (j : FabJob) :
    ((State.moveStart s g j)).canon := by
  unfold State.moveStart
  try dsimp only
  repeat' (first
    | with_reducible assumption | (simp only [State.canon_mk]; with_reducible refine State.canon_eta ?_)
    | (with_reducible refine ite_canon ?_ ?_)
    | (with_reducible refine State.canon_of_mems (State.settleFab_mems ..) ?_)
    | (with_reducible refine State.moveGo_canon ?_ ..)
    | (with_reducible refine State.canon_of_mems (State.fabDone_mems ..) ?_)
    | (with_reducible refine State.canon_of_mems (State.coreAddrViol_mems ..) ?_)
    | (with_reducible refine State.canon_of_mems (State.viols'_mems ..) ?_)
    | (with_reducible refine State.canon_of_mems (State.viol_mems ..) ?_)
    | (with_reducible refine forEach_canon (fun _ _ _ => ?_) ?_ ..) | dsimp only | split)

theorem execMove_pend {core : Nat} {s : State} {zt : State} (zh : execMove core s = .next zt) :
    zt.pend = s.pend := by
  unfold execMove at zh
  cases zh
  try dsimp only
  repeat' (first
    | with_reducible assumption | (simp only [State.pend_mk]; with_reducible refine (State.pend_eta _).trans ?_)
    | (with_reducible refine ite_pend ?_ ?_) | (with_reducible refine (State.moveStart_pend ..).trans ?_)
    | (with_reducible refine (State.pend_of_mems (State.settleFab_mems ..)).trans ?_)
    | (with_reducible refine (State.moveGo_pend ..).trans ?_)
    | (with_reducible refine (State.pend_of_mems (State.takeFab_mems ..)).trans ?_)
    | with_reducible exact State.pend_self _ | dsimp only | split)

theorem execMove_canon {core : Nat} {s : State} {zt : State} (hs : s.canon) (zh : execMove core s = .next zt) :
    zt.canon := by
  unfold execMove at zh
  cases zh
  try dsimp only
  repeat' (first
    | with_reducible assumption | (simp only [State.canon_mk]; with_reducible refine State.canon_eta ?_)
    | (with_reducible refine ite_canon ?_ ?_) | (with_reducible refine State.moveStart_canon ?_ ..)
    | (with_reducible refine State.canon_of_mems (State.settleFab_mems ..) ?_)
    | (with_reducible refine State.moveGo_canon ?_ ..)
    | (with_reducible refine State.canon_of_mems (State.takeFab_mems ..) ?_) | dsimp only | split)

theorem State.dcmpStart_pend (s : State) (g : Nat) (j : FabJob) :
    ((State.dcmpStart s g j)).pend = s.pend := by
  unfold State.dcmpStart
  try dsimp only
  repeat' (first
    | with_reducible assumption | (simp only [State.pend_mk]; with_reducible refine (State.pend_eta _).trans ?_)
    | (with_reducible refine ite_pend ?_ ?_)
    | (with_reducible refine (State.pend_of_mems (State.jobRequest_mems ..)).trans ?_)
    | (with_reducible refine (State.pend_of_mems (State.islViol_mems ..)).trans ?_)
    | (with_reducible refine (State.pend_of_mems (State.fabDone_mems ..)).trans ?_)
    | (with_reducible refine (State.pend_of_mems (State.updFabJob_mems ..)).trans ?_)
    | (with_reducible refine (State.gateReads_pend ..).trans ?_)
    | (with_reducible refine (State.gateReads_pend' (by assumption)).trans ?_)
    | with_reducible exact State.pend_self _ | dsimp only | split)

theorem State.dcmpStart_canon {s : State} (hs : s.canon) (g : Nat) (j : FabJob) :
    ((State.dcmpStart s g j)).canon := by
  unfold State.dcmpStart
  try dsimp only
  repeat' (first
    | with_reducible assumption | (simp only [State.canon_mk]; with_reducible refine State.canon_eta ?_)
    | (with_reducible refine ite_canon ?_ ?_)
    | (with_reducible refine State.canon_of_mems (State.jobRequest_mems ..) ?_)
    | (with_reducible refine State.canon_of_mems (State.islViol_mems ..) ?_)
    | (with_reducible refine State.canon_of_mems (State.fabDone_mems ..) ?_)
    | (with_reducible refine State.canon_of_mems (State.updFabJob_mems ..) ?_)
    | (with_reducible refine State.gateReads_canon ?_ ..)
    | (with_reducible refine State.gateReads_canon' (by assumption) ?_) | dsimp only | split)

theorem execDcmp_pend {core : Nat} {s : State} {zt : State} (zh : execDcmp core s = .next zt) :
    zt.pend = s.pend := by
  unfold execDcmp at zh
  cases zh
  try dsimp only
  repeat' (first
    | with_reducible assumption | (simp only [State.pend_mk]; with_reducible refine (State.pend_eta _).trans ?_)
    | (with_reducible refine ite_pend ?_ ?_) | (with_reducible refine (State.dcmpStart_pend ..).trans ?_)
    | (with_reducible refine (State.pend_of_mems (State.takeFab_mems ..)).trans ?_)
    | with_reducible exact State.pend_self _ | dsimp only | split)

theorem execDcmp_canon {core : Nat} {s : State} {zt : State} (hs : s.canon) (zh : execDcmp core s = .next zt) :
    zt.canon := by
  unfold execDcmp at zh
  cases zh
  try dsimp only
  repeat' (first
    | with_reducible assumption | (simp only [State.canon_mk]; with_reducible refine State.canon_eta ?_)
    | (with_reducible refine ite_canon ?_ ?_) | (with_reducible refine State.dcmpStart_canon ?_ ..)
    | (with_reducible refine State.canon_of_mems (State.takeFab_mems ..) ?_) | dsimp only | split)

theorem State.haspDone_mems (s : State) (g : Nat) (pos : Nat) (gw : Option Nat) :
    ((State.haspDone s g pos gw)).mems = s.mems := by
  unfold State.haspDone
  try dsimp only
  repeat' (first
    | with_reducible assumption | (simp only [State.mems_mk]; with_reducible refine (State.mems_eta _).trans ?_)
    | (with_reducible refine ite_mems ?_ ?_) | (with_reducible refine (State.pathOr_mems ..).trans ?_)
    | (with_reducible refine (State.descDoneAt_mems ..).trans ?_)
    | (with_reducible refine (State.updCore_mems ..).trans ?_) | (with_reducible refine (State.bump_mems ..).trans ?_)
    | with_reducible exact State.mems_self _ | dsimp only | split)

theorem State.tornPost_mems (s : State) (tag : Nat) :
    ((State.tornPost s tag)).mems = s.mems := by
  unfold State.tornPost
  try dsimp only
  repeat' (first
    | with_reducible assumption | (simp only [State.mems_mk]; with_reducible refine (State.mems_eta _).trans ?_)
    | (with_reducible refine ite_mems ?_ ?_) | (with_reducible refine (State.tornAdd_mems ..).trans ?_)
    | (with_reducible refine (State.fresh_mems ..).trans ?_) | with_reducible exact State.mems_self _ | dsimp only
    | split)

theorem State.spoolFlag_mems (s : State) (dest : HeldTo) (body : List Nat) (tag : Nat) :
    ((State.spoolFlag s dest body tag).1).mems = s.mems := by
  unfold State.spoolFlag
  try dsimp only
  repeat' (first
    | with_reducible assumption | (simp only [State.mems_mk]; with_reducible refine (State.mems_eta _).trans ?_)
    | (with_reducible refine ite_mems ?_ ?_) | (with_reducible refine (State.tornPost_mems ..).trans ?_)
    | (with_reducible refine (State.pushEntry_mems ..).trans ?_) | with_reducible exact State.mems_self _ | dsimp only
    | split)
theorem State.spoolFlag_mems' {s : State} {dest : HeldTo} {body : List Nat} {tag : Nat} {zr} {zq : State}
    (zh : (State.spoolFlag s dest body tag) = (zq, zr)) : zq.mems = s.mems := by
  have := (State.spoolFlag_mems s dest body tag)
  rw [zh] at this
  exact this

theorem State.tornFlag_mems (s : State) (addr : Nat) (host : Option Nat) (mark : Bool) (flag : List Nat) (tag : Nat) :
    ((State.tornFlag s addr host mark flag tag).1).mems = s.mems := by
  unfold State.tornFlag
  try dsimp only
  repeat' (first
    | with_reducible assumption | (simp only [State.mems_mk]; with_reducible refine (State.mems_eta _).trans ?_)
    | (with_reducible refine ite_mems ?_ ?_) | (with_reducible refine (State.spoolFlag_mems ..).trans ?_)
    | (with_reducible refine (State.spoolFlag_mems' (by assumption)).trans ?_)
    | (with_reducible refine (State.tornPost_mems ..).trans ?_)
    | (with_reducible refine (State.cqPost_mems ..).trans ?_)
    | (with_reducible refine (State.hostBound_mems ..).trans ?_)
    | (with_reducible refine (State.hostBound_mems' (by assumption)).trans ?_)
    | (with_reducible refine (State.winViol_mems ..).trans ?_) | with_reducible exact State.mems_self _ | dsimp only
    | split)
theorem State.tornFlag_mems' {s : State} {addr : Nat} {host : Option Nat} {mark : Bool} {flag : List Nat} {tag : Nat} {zr} {zq : State}
    (zh : (State.tornFlag s addr host mark flag tag) = (zq, zr)) : zq.mems = s.mems := by
  have := (State.tornFlag_mems s addr host mark flag tag)
  rw [zh] at this
  exact this

theorem State.flagViols_mems (s : State) (g : Nat) (pos : Nat) (a : Nat) :
    ((State.flagViols s g pos a)).mems = s.mems := by
  unfold State.flagViols
  try dsimp only
  repeat' (first
    | with_reducible assumption | (simp only [State.mems_mk]; with_reducible refine (State.mems_eta _).trans ?_)
    | (with_reducible refine ite_mems ?_ ?_) | (with_reducible refine (State.coreAddrViol_mems ..).trans ?_)
    | (with_reducible refine (State.viol_mems ..).trans ?_) | with_reducible exact State.mems_self _ | dsimp only
    | split)

theorem State.flagPath_mems (s : State) (g : Nat) (x : HaspRd) :
    ((State.flagPath s g x)).mems = s.mems := by
  unfold State.flagPath
  try dsimp only
  repeat' (first
    | with_reducible assumption | (simp only [State.mems_mk]; with_reducible refine (State.mems_eta _).trans ?_)
    | (with_reducible refine ite_mems ?_ ?_) | (with_reducible refine (State.pathOr_mems ..).trans ?_)
    | with_reducible exact State.mems_self _ | dsimp only | split)

theorem State.haspFlag_mems (s : State) (g : Nat) (h : HaspRun) :
    ((State.haspFlag s g h)).mems = s.mems := by
  unfold State.haspFlag
  try dsimp only
  repeat' (first
    | with_reducible assumption | (simp only [State.mems_mk]; with_reducible refine (State.mems_eta _).trans ?_)
    | (with_reducible refine ite_mems ?_ ?_) | (with_reducible refine (State.flagPath_mems ..).trans ?_)
    | (with_reducible refine (State.flagViols_mems ..).trans ?_)
    | (with_reducible refine (State.tornFlag_mems ..).trans ?_)
    | (with_reducible refine (State.tornFlag_mems' (by assumption)).trans ?_)
    | (with_reducible refine (State.haspDone_mems ..).trans ?_)
    | (with_reducible refine (State.hostBound_mems ..).trans ?_)
    | (with_reducible refine (State.hostBound_mems' (by assumption)).trans ?_)
    | (with_reducible refine (State.request_mems ..).trans ?_)
    | (with_reducible refine (State.winViol_mems ..).trans ?_)
    | (with_reducible refine (State.updCore_mems ..).trans ?_) | with_reducible exact State.mems_self _ | dsimp only
    | split)

theorem State.haspFlushed_mems (s : State) (g : Nat) (pos : Nat) (gw : Nat) (torn : Bool) (failed : Bool) :
    ((State.haspFlushed s g pos gw torn failed)).mems = s.mems := by
  unfold State.haspFlushed
  try dsimp only
  repeat' (first
    | with_reducible assumption | (simp only [State.mems_mk]; with_reducible refine (State.mems_eta _).trans ?_)
    | (with_reducible refine ite_mems ?_ ?_) | (with_reducible refine (State.haspFlag_mems ..).trans ?_)
    | (with_reducible refine (State.haspDone_mems ..).trans ?_)
    | (with_reducible refine (State.updCore_mems ..).trans ?_) | with_reducible exact State.mems_self _ | dsimp only
    | split)

theorem execHasp_mems {core : Nat} {s : State} {zt : State} (zh : execHasp core s = .next zt) :
    zt.mems = s.mems := by
  unfold execHasp at zh
  cases zh
  try dsimp only
  repeat' (first
    | with_reducible assumption | (simp only [State.mems_mk]; with_reducible refine (State.mems_eta _).trans ?_)
    | (with_reducible refine ite_mems ?_ ?_) | (with_reducible refine (State.haspFlag_mems ..).trans ?_)
    | (with_reducible refine (State.sendFlush_mems ..).trans ?_)
    | (with_reducible refine (State.pathClear_mems ..).trans ?_)
    | (with_reducible refine (State.takeEntry_mems ..).trans ?_)
    | (with_reducible refine (State.viols'_mems ..).trans ?_)
    | (with_reducible refine (State.updCore_mems ..).trans ?_)
    | (with_reducible refine (forEach_mems (fun _ _ => ?_) ..).trans ?_) | with_reducible exact State.mems_self _
    | dsimp only | split)

end Sys2Proof.Machine
end

