-- ==== Sys2Proof/Laws/FrameFabric.lean ====
section
/-! SUPPORT. Frames of Machine/Fabric.lean: what each operation and command leaves alone of the memories and the queue. -/

set_option linter.all false

namespace Sys2Proof.Machine

theorem State.vdmAnswer_mems (s : State) (b : Nat) (cmd : Nat) (code : Nat) (payload : List Nat) :
    ((State.vdmAnswer s b cmd code payload)).mems = s.mems := by
  unfold State.vdmAnswer
  try dsimp only
  repeat' (first
    | with_reducible assumption | (simp only [State.mems_mk]; with_reducible refine (State.mems_eta _).trans ?_)
    | (with_reducible refine ite_mems ?_ ?_) | (with_reducible refine (State.send_mems ..).trans ?_)
    | with_reducible exact State.mems_self _ | dsimp only | split)

theorem State.relayEnd_mems (s : State) (who : Nat) (code : Nat) (data : Nat) :
    ((State.relayEnd s who code data)).mems = s.mems := by
  unfold State.relayEnd
  try dsimp only
  repeat' (first
    | with_reducible assumption | (simp only [State.mems_mk]; with_reducible refine (State.mems_eta _).trans ?_)
    | (with_reducible refine ite_mems ?_ ?_) | (with_reducible refine (State.vdmAnswer_mems ..).trans ?_)
    | (with_reducible refine (State.updHub_mems ..).trans ?_) | (with_reducible refine (State.wr_mems ..).trans ?_)
    | with_reducible exact State.mems_self _ | dsimp only | split)

theorem State.slotAddr_mems (s : State) (a : Nat) :
    ((State.slotAddr s a)).mems = s.mems := by
  unfold State.slotAddr
  try dsimp only
  repeat' (first
    | with_reducible assumption | (simp only [State.mems_mk]; with_reducible refine (State.mems_eta _).trans ?_)
    | (with_reducible refine ite_mems ?_ ?_) | (with_reducible refine (State.hubAddrViol_mems ..).trans ?_)
    | with_reducible exact State.mems_self _ | dsimp only | split)

theorem State.relayRun_pend (s : State) (who : Nat) (a : Nat) (w : Bool) (v : Nat) (x5 : Nat) :
    ((State.relayRun s who a w v x5)).pend = s.pend := by
  induction x5 generalizing s who a w v with
  | zero =>
    unfold State.relayRun
    try dsimp only
    repeat' (first
      | with_reducible assumption | (simp only [State.pend_mk]; with_reducible refine (State.pend_eta _).trans ?_)
      | (with_reducible refine ite_pend ?_ ?_)
      | (with_reducible refine (State.pend_of_mems (State.relayEnd_mems ..)).trans ?_)
      | (with_reducible refine (State.writeReg_pend ..).trans ?_)
      | (with_reducible refine (State.writeReg_pend' (by assumption)).trans ?_)
      | (with_reducible refine (State.pend_of_mems (State.readReg_mems ..)).trans ?_)
      | (with_reducible refine (State.pend_of_mems (State.readReg_mems' (by assumption))).trans ?_)
      | (with_reducible refine (State.pend_of_mems (State.updHub_mems ..)).trans ?_)
      | (with_reducible refine (State.pend_of_mems (State.hostViol_mems ..)).trans ?_)
      | (with_reducible refine (State.pend_of_mems (State.request_mems ..)).trans ?_)
      | (with_reducible refine (State.pend_of_mems (State.regReject_mems ..)).trans ?_)
      | (with_reducible refine (State.pend_of_mems (State.hubAddrViol_mems ..)).trans ?_)
      | (with_reducible refine (State.pend_of_mems (State.wr_mems ..)).trans ?_)
      | with_reducible exact State.pend_self _ | dsimp only | split)
  | succ x5 ih =>
    unfold State.relayRun
    try dsimp only
    repeat' (first
      | with_reducible assumption | (with_reducible refine (ih ..).trans ?_)
      | (simp only [State.pend_mk]; with_reducible refine (State.pend_eta _).trans ?_)
      | (with_reducible refine ite_pend ?_ ?_)
      | (with_reducible refine (State.pend_of_mems (State.relayEnd_mems ..)).trans ?_)
      | (with_reducible refine (State.writeReg_pend ..).trans ?_)
      | (with_reducible refine (State.writeReg_pend' (by assumption)).trans ?_)
      | (with_reducible refine (State.pend_of_mems (State.readReg_mems ..)).trans ?_)
      | (with_reducible refine (State.pend_of_mems (State.readReg_mems' (by assumption))).trans ?_)
      | (with_reducible refine (State.pend_of_mems (State.updHub_mems ..)).trans ?_)
      | (with_reducible refine (State.pend_of_mems (State.hostViol_mems ..)).trans ?_)
      | (with_reducible refine (State.pend_of_mems (State.request_mems ..)).trans ?_)
      | (with_reducible refine (State.pend_of_mems (State.regReject_mems ..)).trans ?_)
      | (with_reducible refine (State.pend_of_mems (State.hubAddrViol_mems ..)).trans ?_)
      | (with_reducible refine (State.pend_of_mems (State.wr_mems ..)).trans ?_)
      | with_reducible exact State.pend_self _ | dsimp only | split)

theorem State.relayRun_canon {s : State} (hs : s.canon) (who : Nat) (a : Nat) (w : Bool) (v : Nat) (x5 : Nat) :
    ((State.relayRun s who a w v x5)).canon := by
  induction x5 generalizing s who a w v with
  | zero =>
    unfold State.relayRun
    try dsimp only
    repeat' (first
      | with_reducible assumption | (simp only [State.canon_mk]; with_reducible refine State.canon_eta ?_)
      | (with_reducible refine ite_canon ?_ ?_)
      | (with_reducible refine State.canon_of_mems (State.relayEnd_mems ..) ?_)
      | (with_reducible refine State.writeReg_canon ?_ ..)
      | (with_reducible refine State.writeReg_canon' (by assumption) ?_)
      | (with_reducible refine State.canon_of_mems (State.readReg_mems ..) ?_)
      | (with_reducible refine State.canon_of_mems (State.readReg_mems' (by assumption)) ?_)
      | (with_reducible refine State.canon_of_mems (State.updHub_mems ..) ?_)
      | (with_reducible refine State.canon_of_mems (State.hostViol_mems ..) ?_)
      | (with_reducible refine State.canon_of_mems (State.request_mems ..) ?_)
      | (with_reducible refine State.canon_of_mems (State.regReject_mems ..) ?_)
      | (with_reducible refine State.canon_of_mems (State.hubAddrViol_mems ..) ?_)
      | (with_reducible refine State.canon_of_mems (State.wr_mems ..) ?_) | dsimp only | split)
  | succ x5 ih =>
    unfold State.relayRun
    try dsimp only
    repeat' (first
      | with_reducible assumption | (with_reducible refine ih ?_ ..)
      | (simp only [State.canon_mk]; with_reducible refine State.canon_eta ?_)
      | (with_reducible refine ite_canon ?_ ?_)
      | (with_reducible refine State.canon_of_mems (State.relayEnd_mems ..) ?_)
      | (with_reducible refine State.writeReg_canon ?_ ..)
      | (with_reducible refine State.writeReg_canon' (by assumption) ?_)
      | (with_reducible refine State.canon_of_mems (State.readReg_mems ..) ?_)
      | (with_reducible refine State.canon_of_mems (State.readReg_mems' (by assumption)) ?_)
      | (with_reducible refine State.canon_of_mems (State.updHub_mems ..) ?_)
      | (with_reducible refine State.canon_of_mems (State.hostViol_mems ..) ?_)
      | (with_reducible refine State.canon_of_mems (State.request_mems ..) ?_)
      | (with_reducible refine State.canon_of_mems (State.regReject_mems ..) ?_)
      | (with_reducible refine State.canon_of_mems (State.hubAddrViol_mems ..) ?_)
      | (with_reducible refine State.canon_of_mems (State.wr_mems ..) ?_) | dsimp only | split)

theorem State.relayGo_pend (s : State) (v : Nat) :
    ((State.relayGo s v)).pend = s.pend := by
  unfold State.relayGo
  try dsimp only
  repeat' (first
    | with_reducible assumption | (simp only [State.pend_mk]; with_reducible refine (State.pend_eta _).trans ?_)
    | (with_reducible refine ite_pend ?_ ?_) | (with_reducible refine (State.relayRun_pend ..).trans ?_)
    | (with_reducible refine (State.pend_of_mems (State.hostViol_mems ..)).trans ?_)
    | with_reducible exact State.pend_self _ | dsimp only | split)

theorem State.relayGo_canon {s : State} (hs : s.canon) (v : Nat) :
    ((State.relayGo s v)).canon := by
  unfold State.relayGo
  try dsimp only
  repeat' (first
    | with_reducible assumption | (simp only [State.canon_mk]; with_reducible refine State.canon_eta ?_)
    | (with_reducible refine ite_canon ?_ ?_) | (with_reducible refine State.relayRun_canon ?_ ..)
    | (with_reducible refine State.canon_of_mems (State.hostViol_mems ..) ?_) | dsimp only | split)

theorem State.regWrite_pend (s : State) (path : Nat) (off : Nat) (bytes : Nat) (v : Nat) :
    ((State.regWrite s path off bytes v).1).pend = s.pend := by
  unfold State.regWrite
  try dsimp only
  repeat' (first
    | with_reducible assumption | (simp only [State.pend_mk]; with_reducible refine (State.pend_eta _).trans ?_)
    | (with_reducible refine ite_pend ?_ ?_) | (with_reducible refine (State.relayGo_pend ..).trans ?_)
    | (with_reducible refine (State.writeReg_pend ..).trans ?_)
    | (with_reducible refine (State.writeReg_pend' (by assumption)).trans ?_) | with_reducible exact State.pend_self _
    | dsimp only | split)
theorem State.regWrite_pend' {s : State} {path : Nat} {off : Nat} {bytes : Nat} {v : Nat} {zr} {zq : State}
    (zh : (State.regWrite s path off bytes v) = (zq, zr)) : zq.pend = s.pend := by
  have := (State.regWrite_pend s path off bytes v)
  rw [zh] at this
  exact this

theorem State.regWrite_canon {s : State} (hs : s.canon) (path : Nat) (off : Nat) (bytes : Nat) (v : Nat) :
    ((State.regWrite s path off bytes v).1).canon := by
  unfold State.regWrite
  try dsimp only
  repeat' (first
    | with_reducible assumption | (simp only [State.canon_mk]; with_reducible refine State.canon_eta ?_)
    | (with_reducible refine ite_canon ?_ ?_) | (with_reducible refine State.relayGo_canon ?_ ..)
    | (with_reducible refine State.writeReg_canon ?_ ..)
    | (with_reducible refine State.writeReg_canon' (by assumption) ?_) | dsimp only | split)
theorem State.regWrite_canon' {s : State} {path : Nat} {off : Nat} {bytes : Nat} {v : Nat} {zr} {zq : State} (zh : (State.regWrite s path off bytes v) = (zq, zr)) (hs : s.canon) : zq.canon := by
  have := (State.regWrite_canon hs path off bytes v)
  rw [zh] at this
  exact this

theorem State.unreachable_mems (s : State) (k : Nat) (t : Txn) :
    ((State.unreachable s k t)).mems = s.mems := by
  unfold State.unreachable
  try dsimp only
  repeat' (first
    | with_reducible assumption | (simp only [State.mems_mk]; with_reducible refine (State.mems_eta _).trans ?_)
    | (with_reducible refine ite_mems ?_ ?_) | (with_reducible refine (State.queueAs_mems ..).trans ?_)
    | with_reducible exact State.mems_self _ | dsimp only | split)

theorem State.hostAnswer_mems (s : State) (id : Nat) (status : Nat) :
    ((State.hostAnswer s id status)).mems = s.mems := by
  unfold State.hostAnswer
  try dsimp only
  repeat' (first
    | with_reducible assumption | (simp only [State.mems_mk]; with_reducible refine (State.mems_eta _).trans ?_)
    | (with_reducible refine ite_mems ?_ ?_) | (with_reducible refine (State.stepGo_mems ..).trans ?_)
    | (with_reducible refine (State.updStep_mems ..).trans ?_)
    | (with_reducible refine (State.settleCopy_mems ..).trans ?_)
    | (with_reducible refine (State.updJob_mems ..).trans ?_) | with_reducible exact State.mems_self _ | dsimp only
    | split)

theorem State.hostLines_mems (s : State) (id : Nat) (t : Txn) (body : List Nat) :
    ((State.hostLines s id t body).1).mems = s.mems := by
  unfold State.hostLines
  try dsimp only
  repeat' (first
    | with_reducible assumption | (simp only [State.mems_mk]; with_reducible refine (State.mems_eta _).trans ?_)
    | (with_reducible refine ite_mems ?_ ?_) | (with_reducible refine (State.copyOutPut_mems ..).trans ?_)
    | (with_reducible refine (State.copyOutPut_mems' (by assumption)).trans ?_)
    | (with_reducible refine (State.updJob_mems ..).trans ?_) | with_reducible exact State.mems_self _ | dsimp only
    | split)
theorem State.hostLines_mems' {s : State} {id : Nat} {t : Txn} {body : List Nat} {zr} {zq : State}
    (zh : (State.hostLines s id t body) = (zq, zr)) : zq.mems = s.mems := by
  have := (State.hostLines_mems s id t body)
  rw [zh] at this
  exact this

theorem State.jobEnd_pend (s : State) (g : Nat) (pos : Nat) (part : Nat) (status : Nat) (body : List Nat) :
    ((State.jobEnd s g pos part status body)).pend = s.pend := by
  unfold State.jobEnd
  try dsimp only
  repeat' (first
    | with_reducible assumption | (simp only [State.pend_mk]; with_reducible refine (State.pend_eta _).trans ?_)
    | (with_reducible refine ite_pend ?_ ?_)
    | (with_reducible refine (State.pend_of_mems (State.settleFab_mems ..)).trans ?_)
    | (with_reducible refine (State.moveOut_pend ..).trans ?_)
    | (with_reducible refine (State.pend_of_mems (State.moveAck_mems ..)).trans ?_)
    | (with_reducible refine (State.pend_of_mems (State.pumpTodo_mems ..)).trans ?_)
    | (with_reducible refine (State.pend_of_mems (State.islViol_mems ..)).trans ?_)
    | (with_reducible refine (State.pend_of_mems (State.updFabJob_mems ..)).trans ?_)
    | with_reducible exact State.pend_self _ | dsimp only | split)

theorem State.jobEnd_canon {s : State} (hs : s.canon) (g : Nat) (pos : Nat) (part : Nat) (status : Nat) (body : List Nat) :
    ((State.jobEnd s g pos part status body)).canon := by
  unfold State.jobEnd
  try dsimp only
  repeat' (first
    | with_reducible assumption | (simp only [State.canon_mk]; with_reducible refine State.canon_eta ?_)
    | (with_reducible refine ite_canon ?_ ?_)
    | (with_reducible refine State.canon_of_mems (State.settleFab_mems ..) ?_)
    | (with_reducible refine State.moveOut_canon ?_ ..)
    | (with_reducible refine State.canon_of_mems (State.moveAck_mems ..) ?_)
    | (with_reducible refine State.canon_of_mems (State.pumpTodo_mems ..) ?_)
    | (with_reducible refine State.canon_of_mems (State.islViol_mems ..) ?_)
    | (with_reducible refine State.canon_of_mems (State.updFabJob_mems ..) ?_) | dsimp only | split)

theorem State.txnEnd_pend (s : State) (k : Nat) (t : Txn) (status : Nat) (body : List Nat) :
    ((State.txnEnd s k t status body)).pend = s.pend := by
  unfold State.txnEnd
  try dsimp only
  repeat' (first
    | with_reducible assumption | (simp only [State.pend_mk]; with_reducible refine (State.pend_eta _).trans ?_)
    | (with_reducible refine ite_pend ?_ ?_) | (with_reducible refine (State.jobEnd_pend ..).trans ?_)
    | (with_reducible refine (State.pend_of_mems (State.hostAnswer_mems ..)).trans ?_)
    | (with_reducible refine (State.pend_of_mems (State.relayEnd_mems ..)).trans ?_)
    | (with_reducible refine (State.pend_of_mems (State.haspFlushed_mems ..)).trans ?_)
    | (with_reducible refine (State.pend_of_mems (State.haspDone_mems ..)).trans ?_)
    | (with_reducible refine (State.pend_of_mems (State.rootStored_mems ..)).trans ?_)
    | (with_reducible refine (State.ckptFail_pend ..).trans ?_)
    | (with_reducible refine (State.ckptData_pend ..).trans ?_)
    | (with_reducible refine (State.ckptAck_pend ..).trans ?_)
    | (with_reducible refine (State.repairData_pend ..).trans ?_)
    | (with_reducible refine (State.repairFail_pend ..).trans ?_)
    | (with_reducible refine (State.pend_of_mems (State.islViol_mems ..)).trans ?_)
    | (with_reducible refine (State.pend_of_mems (State.request_mems ..)).trans ?_)
    | (with_reducible refine (State.pend_of_mems (State.setTxn_mems ..)).trans ?_)
    | with_reducible exact State.pend_self _ | dsimp only | split)

theorem State.txnEnd_canon {s : State} (hs : s.canon) (k : Nat) (t : Txn) (status : Nat) (body : List Nat) :
    ((State.txnEnd s k t status body)).canon := by
  unfold State.txnEnd
  try dsimp only
  repeat' (first
    | with_reducible assumption | (simp only [State.canon_mk]; with_reducible refine State.canon_eta ?_)
    | (with_reducible refine ite_canon ?_ ?_) | (with_reducible refine State.jobEnd_canon ?_ ..)
    | (with_reducible refine State.canon_of_mems (State.hostAnswer_mems ..) ?_)
    | (with_reducible refine State.canon_of_mems (State.relayEnd_mems ..) ?_)
    | (with_reducible refine State.canon_of_mems (State.haspFlushed_mems ..) ?_)
    | (with_reducible refine State.canon_of_mems (State.haspDone_mems ..) ?_)
    | (with_reducible refine State.canon_of_mems (State.rootStored_mems ..) ?_)
    | (with_reducible refine State.ckptFail_canon ?_ ..) | (with_reducible refine State.ckptData_canon ?_ ..)
    | (with_reducible refine State.ckptAck_canon ?_ ..) | (with_reducible refine State.repairData_canon ?_ ..)
    | (with_reducible refine State.repairFail_canon ?_ ..)
    | (with_reducible refine State.canon_of_mems (State.islViol_mems ..) ?_)
    | (with_reducible refine State.canon_of_mems (State.request_mems ..) ?_)
    | (with_reducible refine State.canon_of_mems (State.setTxn_mems ..) ?_) | dsimp only | split)

theorem State.reissue_pend (s : State) (k : Nat) (t : Txn) :
    ((State.reissue s k t)).pend = s.pend := by
  unfold State.reissue
  try dsimp only
  repeat' (first
    | with_reducible assumption | (simp only [State.pend_mk]; with_reducible refine (State.pend_eta _).trans ?_)
    | (with_reducible refine ite_pend ?_ ?_) | (with_reducible refine (State.txnEnd_pend ..).trans ?_)
    | (with_reducible refine (State.pend_of_mems (State.unreachable_mems ..)).trans ?_)
    | (with_reducible refine (State.pend_of_mems (State.sendTxn_mems ..)).trans ?_)
    | with_reducible exact State.pend_self _ | dsimp only | split)

theorem State.reissue_canon {s : State} (hs : s.canon) (k : Nat) (t : Txn) :
    ((State.reissue s k t)).canon := by
  unfold State.reissue
  try dsimp only
  repeat' (first
    | with_reducible assumption | (simp only [State.canon_mk]; with_reducible refine State.canon_eta ?_)
    | (with_reducible refine ite_canon ?_ ?_) | (with_reducible refine State.txnEnd_canon ?_ ..)
    | (with_reducible refine State.canon_of_mems (State.unreachable_mems ..) ?_)
    | (with_reducible refine State.canon_of_mems (State.sendTxn_mems ..) ?_) | dsimp only | split)

theorem State.onRequest_mems {f : InMsg → State → State} (hf : ∀ y0 y1, (f y0 y1).mems = y1.mems) (s : State) (src : Nat) (kind : Nat) (bit : Nat) :
    ((State.onRequest s src kind bit f)).mems = s.mems := by
  unfold State.onRequest
  try dsimp only
  repeat' (first
    | with_reducible assumption | (with_reducible refine (hf ..).trans ?_)
    | (simp only [State.mems_mk]; with_reducible refine (State.mems_eta _).trans ?_)
    | (with_reducible refine ite_mems ?_ ?_) | (with_reducible refine (State.refuseMsg_mems ..).trans ?_)
    | (with_reducible refine (State.popMsg_mems ..).trans ?_) | with_reducible exact State.mems_self _ | dsimp only
    | split)

theorem State.onRequest_pend {f : InMsg → State → State} (hf : ∀ y0 y1, (f y0 y1).pend = y1.pend) (s : State) (src : Nat) (kind : Nat) (bit : Nat) :
    ((State.onRequest s src kind bit f)).pend = s.pend := by
  unfold State.onRequest
  try dsimp only
  repeat' (first
    | with_reducible assumption | (with_reducible refine (hf ..).trans ?_)
    | (simp only [State.pend_mk]; with_reducible refine (State.pend_eta _).trans ?_)
    | (with_reducible refine ite_pend ?_ ?_)
    | (with_reducible refine (State.pend_of_mems (State.refuseMsg_mems ..)).trans ?_)
    | (with_reducible refine (State.pend_of_mems (State.popMsg_mems ..)).trans ?_)
    | with_reducible exact State.pend_self _ | dsimp only | split)

theorem State.onRequest_canon {s : State} {f : InMsg → State → State} (hf : ∀ y0 y1, y1.canon → (f y0 y1).canon) (hs : s.canon) (src : Nat) (kind : Nat) (bit : Nat) :
    ((State.onRequest s src kind bit f)).canon := by
  unfold State.onRequest
  try dsimp only
  repeat' (first
    | with_reducible assumption | (with_reducible refine hf _ _ ?_)
    | (simp only [State.canon_mk]; with_reducible refine State.canon_eta ?_) | (with_reducible refine ite_canon ?_ ?_)
    | (with_reducible refine State.canon_of_mems (State.refuseMsg_mems ..) ?_)
    | (with_reducible refine State.canon_of_mems (State.popMsg_mems ..) ?_) | dsimp only | split)

theorem State.onResponse_mems {f : Nat → Txn → InMsg → State → State} (hf : ∀ y0 y1 y2 y3, (f y0 y1 y2 y3).mems = y3.mems) (s : State) (src : Nat) (kind : Nat) :
    ((State.onResponse s src kind f)).mems = s.mems := by
  unfold State.onResponse
  try dsimp only
  repeat' (first
    | with_reducible assumption | (with_reducible refine (hf ..).trans ?_)
    | (simp only [State.mems_mk]; with_reducible refine (State.mems_eta _).trans ?_)
    | (with_reducible refine ite_mems ?_ ?_) | (with_reducible refine (State.popMsg_mems ..).trans ?_)
    | (with_reducible refine (State.peerViol_mems ..).trans ?_)
    | (with_reducible refine (State.bump_mems ..).trans ?_) | with_reducible exact State.mems_self _ | dsimp only
    | split)

theorem State.onResponse_pend {f : Nat → Txn → InMsg → State → State} (hf : ∀ y0 y1 y2 y3, (f y0 y1 y2 y3).pend = y3.pend) (s : State) (src : Nat) (kind : Nat) :
    ((State.onResponse s src kind f)).pend = s.pend := by
  unfold State.onResponse
  try dsimp only
  repeat' (first
    | with_reducible assumption | (with_reducible refine (hf ..).trans ?_)
    | (simp only [State.pend_mk]; with_reducible refine (State.pend_eta _).trans ?_)
    | (with_reducible refine ite_pend ?_ ?_)
    | (with_reducible refine (State.pend_of_mems (State.popMsg_mems ..)).trans ?_)
    | (with_reducible refine (State.pend_of_mems (State.peerViol_mems ..)).trans ?_)
    | (with_reducible refine (State.pend_of_mems (State.bump_mems ..)).trans ?_)
    | with_reducible exact State.pend_self _ | dsimp only | split)

theorem State.onResponse_canon {s : State} {f : Nat → Txn → InMsg → State → State} (hf : ∀ y0 y1 y2 y3, y3.canon → (f y0 y1 y2 y3).canon) (hs : s.canon) (src : Nat) (kind : Nat) :
    ((State.onResponse s src kind f)).canon := by
  unfold State.onResponse
  try dsimp only
  repeat' (first
    | with_reducible assumption | (with_reducible refine hf _ _ _ _ ?_)
    | (simp only [State.canon_mk]; with_reducible refine State.canon_eta ?_) | (with_reducible refine ite_canon ?_ ?_)
    | (with_reducible refine State.canon_of_mems (State.popMsg_mems ..) ?_)
    | (with_reducible refine State.canon_of_mems (State.peerViol_mems ..) ?_)
    | (with_reducible refine State.canon_of_mems (State.bump_mems ..) ?_) | dsimp only | split)

theorem State.onAck_pend (s : State) (src : Nat) (kind : Nat) :
    ((State.onAck s src kind)).pend = s.pend := by
  unfold State.onAck
  try dsimp only
  repeat' (first
    | with_reducible assumption | (simp only [State.pend_mk]; with_reducible refine (State.pend_eta _).trans ?_)
    | (with_reducible refine ite_pend ?_ ?_)
    | (with_reducible refine (State.onResponse_pend (fun _ _ _ _ => ?_) ..).trans ?_)
    | (with_reducible refine (State.txnEnd_pend ..).trans ?_)
    | (with_reducible refine (State.pend_of_mems (State.popMsg_mems ..)).trans ?_)
    | with_reducible exact State.pend_self _ | dsimp only | split)

theorem State.onAck_canon {s : State} (hs : s.canon) (src : Nat) (kind : Nat) :
    ((State.onAck s src kind)).canon := by
  unfold State.onAck
  try dsimp only
  repeat' (first
    | with_reducible assumption | (simp only [State.canon_mk]; with_reducible refine State.canon_eta ?_)
    | (with_reducible refine ite_canon ?_ ?_)
    | (with_reducible refine State.onResponse_canon (fun _ _ _ _ _ => ?_) ?_ ..)
    | (with_reducible refine State.txnEnd_canon ?_ ..)
    | (with_reducible refine State.canon_of_mems (State.popMsg_mems ..) ?_) | dsimp only | split)

theorem State.handBack_mems (s : State) (src : Nat) (i : InMsg) :
    ((State.handBack s src i)).mems = s.mems := by
  unfold State.handBack
  try dsimp only
  repeat' (first
    | with_reducible assumption | (simp only [State.mems_mk]; with_reducible refine (State.mems_eta _).trans ?_)
    | (with_reducible refine ite_mems ?_ ?_) | (with_reducible refine (State.popMsg_mems ..).trans ?_)
    | (with_reducible refine (State.reply_mems ..).trans ?_) | with_reducible exact State.mems_self _ | dsimp only
    | split)

theorem State.readReq_pend (s : State) (src : Nat) (i : InMsg) :
    ((State.readReq s src i)).pend = s.pend := by
  unfold State.readReq
  try dsimp only
  repeat' (first
    | with_reducible assumption | (simp only [State.pend_mk]; with_reducible refine (State.pend_eta _).trans ?_)
    | (with_reducible refine ite_pend ?_ ?_)
    | (with_reducible refine (State.pend_of_mems (State.handBack_mems ..)).trans ?_)
    | (with_reducible refine (State.pend_of_mems (State.slotAddr_mems ..)).trans ?_)
    | (with_reducible refine (State.pend_of_mems (State.readReg_mems ..)).trans ?_)
    | (with_reducible refine (State.pend_of_mems (State.readReg_mems' (by assumption))).trans ?_)
    | (with_reducible refine (State.pend_of_mems (State.refuseMsg_mems ..)).trans ?_)
    | (with_reducible refine (State.pend_of_mems (State.popMsg_mems ..)).trans ?_)
    | (with_reducible refine (State.pend_of_mems (State.hostRead_mems ..)).trans ?_)
    | (with_reducible refine (State.pend_of_mems (State.reply_mems ..)).trans ?_)
    | (with_reducible refine (State.gateReads_pend ..).trans ?_)
    | (with_reducible refine (State.gateReads_pend' (by assumption)).trans ?_)
    | (with_reducible refine (State.pend_of_mems (State.winViol_mems ..)).trans ?_)
    | (with_reducible refine (State.pend_of_mems (State.hubAddrViol_mems ..)).trans ?_)
    | with_reducible exact State.pend_self _ | dsimp only | split)

theorem State.readReq_canon {s : State} (hs : s.canon) (src : Nat) (i : InMsg) :
    ((State.readReq s src i)).canon := by
  unfold State.readReq
  try dsimp only
  repeat' (first
    | with_reducible assumption | (simp only [State.canon_mk]; with_reducible refine State.canon_eta ?_)
    | (with_reducible refine ite_canon ?_ ?_)
    | (with_reducible refine State.canon_of_mems (State.handBack_mems ..) ?_)
    | (with_reducible refine State.canon_of_mems (State.slotAddr_mems ..) ?_)
    | (with_reducible refine State.canon_of_mems (State.readReg_mems ..) ?_)
    | (with_reducible refine State.canon_of_mems (State.readReg_mems' (by assumption)) ?_)
    | (with_reducible refine State.canon_of_mems (State.refuseMsg_mems ..) ?_)
    | (with_reducible refine State.canon_of_mems (State.popMsg_mems ..) ?_)
    | (with_reducible refine State.canon_of_mems (State.hostRead_mems ..) ?_)
    | (with_reducible refine State.canon_of_mems (State.reply_mems ..) ?_)
    | (with_reducible refine State.gateReads_canon ?_ ..)
    | (with_reducible refine State.gateReads_canon' (by assumption) ?_)
    | (with_reducible refine State.canon_of_mems (State.winViol_mems ..) ?_)
    | (with_reducible refine State.canon_of_mems (State.hubAddrViol_mems ..) ?_) | dsimp only | split)

theorem execReadReq_pend {src : Nat} {s : State} {zt : State} (zh : execReadReq src s = .next zt) :
    zt.pend = s.pend := by
  unfold execReadReq at zh
  cases zh
  try dsimp only
  repeat' (first
    | with_reducible assumption | (simp only [State.pend_mk]; with_reducible refine (State.pend_eta _).trans ?_)
    | (with_reducible refine ite_pend ?_ ?_) | (with_reducible refine (State.readReq_pend ..).trans ?_)
    | (with_reducible refine (State.onRequest_pend (fun _ _ => ?_) ..).trans ?_)
    | with_reducible exact State.pend_self _ | dsimp only | split)

theorem execReadReq_canon {src : Nat} {s : State} {zt : State} (hs : s.canon) (zh : execReadReq src s = .next zt) :
    zt.canon := by
  unfold execReadReq at zh
  cases zh
  try dsimp only
  repeat' (first
    | with_reducible assumption | (simp only [State.canon_mk]; with_reducible refine State.canon_eta ?_)
    | (with_reducible refine ite_canon ?_ ?_) | (with_reducible refine State.readReq_canon ?_ ..)
    | (with_reducible refine State.onRequest_canon (fun _ _ _ => ?_) ?_ ..) | dsimp only | split)

theorem State.holdMsg_mems (s : State) (src : Nat) (i : InMsg) (a : Nat) (n : Nat) :
    ((State.holdMsg s src i a n)).mems = s.mems := by
  unfold State.holdMsg
  try dsimp only
  repeat' (first
    | with_reducible assumption | (simp only [State.mems_mk]; with_reducible refine (State.mems_eta _).trans ?_)
    | (with_reducible refine ite_mems ?_ ?_) | (with_reducible refine (State.updPrg_mems ..).trans ?_)
    | (with_reducible refine (State.bump_mems ..).trans ?_) | with_reducible exact State.mems_self _ | dsimp only
    | split)

theorem execReadRsp_pend {src : Nat} {s : State} {zt : State} (zh : execReadRsp src s = .next zt) :
    zt.pend = s.pend := by
  unfold execReadRsp at zh
  cases zh
  try dsimp only
  repeat' (first
    | with_reducible assumption | (simp only [State.pend_mk]; with_reducible refine (State.pend_eta _).trans ?_)
    | (with_reducible refine ite_pend ?_ ?_)
    | (with_reducible refine (State.pend_of_mems (State.holdMsg_mems ..)).trans ?_)
    | (with_reducible refine (State.onResponse_pend (fun _ _ _ _ => ?_) ..).trans ?_)
    | (with_reducible refine (State.txnEnd_pend ..).trans ?_)
    | (with_reducible refine (State.pend_of_mems (State.hostLines_mems ..)).trans ?_)
    | (with_reducible refine (State.pend_of_mems (State.hostLines_mems' (by assumption))).trans ?_)
    | (with_reducible refine (State.pend_of_mems (State.popMsg_mems ..)).trans ?_)
    | with_reducible exact State.pend_self _ | dsimp only | split)

theorem execReadRsp_canon {src : Nat} {s : State} {zt : State} (hs : s.canon) (zh : execReadRsp src s = .next zt) :
    zt.canon := by
  unfold execReadRsp at zh
  cases zh
  try dsimp only
  repeat' (first
    | with_reducible assumption | (simp only [State.canon_mk]; with_reducible refine State.canon_eta ?_)
    | (with_reducible refine ite_canon ?_ ?_) | (with_reducible refine State.canon_of_mems (State.holdMsg_mems ..) ?_)
    | (with_reducible refine State.onResponse_canon (fun _ _ _ _ _ => ?_) ?_ ..)
    | (with_reducible refine State.txnEnd_canon ?_ ..)
    | (with_reducible refine State.canon_of_mems (State.hostLines_mems ..) ?_)
    | (with_reducible refine State.canon_of_mems (State.hostLines_mems' (by assumption)) ?_)
    | (with_reducible refine State.canon_of_mems (State.popMsg_mems ..) ?_) | dsimp only | split)

theorem State.bound_mems (s : State) (src : Nat) (i : InMsg) (w : Nat) (off : Nat) (bytes : List Nat) (tag : Nat) (data : Bool) :
    ((State.bound s src i w off bytes tag data)).mems = s.mems := by
  unfold State.bound
  try dsimp only
  repeat' (first
    | with_reducible assumption | (simp only [State.mems_mk]; with_reducible refine (State.mems_eta _).trans ?_)
    | (with_reducible refine ite_mems ?_ ?_) | (with_reducible refine (State.popMsg_mems ..).trans ?_)
    | (with_reducible refine (State.hostBound_mems ..).trans ?_)
    | (with_reducible refine (State.hostBound_mems' (by assumption)).trans ?_)
    | (with_reducible refine (State.reply_mems ..).trans ?_) | with_reducible exact State.mems_self _ | dsimp only
    | split)

theorem State.writeReq_pend (s : State) (src : Nat) (i : InMsg) :
    ((State.writeReq s src i)).pend = s.pend := by
  unfold State.writeReq
  try dsimp only
  repeat' (first
    | with_reducible assumption | (simp only [State.pend_mk]; with_reducible refine (State.pend_eta _).trans ?_)
    | (with_reducible refine ite_pend ?_ ?_)
    | (with_reducible refine (State.pend_of_mems (State.bound_mems ..)).trans ?_)
    | (with_reducible refine (State.pend_of_mems (State.holdMsg_mems ..)).trans ?_)
    | (with_reducible refine (State.pend_of_mems (State.handBack_mems ..)).trans ?_)
    | (with_reducible refine (State.regWrite_pend ..).trans ?_)
    | (with_reducible refine (State.regWrite_pend' (by assumption)).trans ?_)
    | (with_reducible refine (State.pend_of_mems (State.slotAddr_mems ..)).trans ?_)
    | (with_reducible refine (State.pend_of_mems (State.tornFlag_mems ..)).trans ?_)
    | (with_reducible refine (State.pend_of_mems (State.tornFlag_mems' (by assumption))).trans ?_)
    | (with_reducible refine (State.storeLines_pend ..).trans ?_)
    | (with_reducible refine (State.pend_of_mems (State.refuseMsg_mems ..)).trans ?_)
    | (with_reducible refine (State.pend_of_mems (State.popMsg_mems ..)).trans ?_)
    | (with_reducible refine (State.pend_of_mems (State.cqPost_mems ..)).trans ?_)
    | (with_reducible refine (State.pend_of_mems (State.tierViol_mems ..)).trans ?_)
    | (with_reducible refine (State.pend_of_mems (State.reply_mems ..)).trans ?_)
    | (with_reducible refine (State.vltRequest_pend ..).trans ?_)
    | (with_reducible refine (State.putStg_pend ..).trans ?_)
    | (with_reducible refine (State.pend_of_mems (State.winViol_mems ..)).trans ?_)
    | (with_reducible refine (State.pend_of_mems (State.hubAddrViol_mems ..)).trans ?_)
    | with_reducible exact State.pend_self _ | dsimp only | split)

theorem State.writeReq_canon {s : State} (hs : s.canon) (src : Nat) (i : InMsg) :
    ((State.writeReq s src i)).canon := by
  unfold State.writeReq
  try dsimp only
  repeat' (first
    | with_reducible assumption | (simp only [State.canon_mk]; with_reducible refine State.canon_eta ?_)
    | (with_reducible refine ite_canon ?_ ?_) | (with_reducible refine State.canon_of_mems (State.bound_mems ..) ?_)
    | (with_reducible refine State.canon_of_mems (State.holdMsg_mems ..) ?_)
    | (with_reducible refine State.canon_of_mems (State.handBack_mems ..) ?_)
    | (with_reducible refine State.regWrite_canon ?_ ..)
    | (with_reducible refine State.regWrite_canon' (by assumption) ?_)
    | (with_reducible refine State.canon_of_mems (State.slotAddr_mems ..) ?_)
    | (with_reducible refine State.canon_of_mems (State.tornFlag_mems ..) ?_)
    | (with_reducible refine State.canon_of_mems (State.tornFlag_mems' (by assumption)) ?_)
    | (with_reducible refine State.storeLines_canon ?_ ..)
    | (with_reducible refine State.canon_of_mems (State.refuseMsg_mems ..) ?_)
    | (with_reducible refine State.canon_of_mems (State.popMsg_mems ..) ?_)
    | (with_reducible refine State.canon_of_mems (State.cqPost_mems ..) ?_)
    | (with_reducible refine State.canon_of_mems (State.tierViol_mems ..) ?_)
    | (with_reducible refine State.canon_of_mems (State.reply_mems ..) ?_)
    | (with_reducible refine State.vltRequest_canon ?_ ..) | (with_reducible refine State.putStg_canon ?_ ..)
    | (with_reducible refine State.canon_of_mems (State.winViol_mems ..) ?_)
    | (with_reducible refine State.canon_of_mems (State.hubAddrViol_mems ..) ?_) | dsimp only | split)

theorem execWrite_pend {src : Nat} {s : State} {zt : State} (zh : execWrite src s = .next zt) :
    zt.pend = s.pend := by
  unfold execWrite at zh
  cases zh
  try dsimp only
  repeat' (first
    | with_reducible assumption | (simp only [State.pend_mk]; with_reducible refine (State.pend_eta _).trans ?_)
    | (with_reducible refine ite_pend ?_ ?_) | (with_reducible refine (State.writeReq_pend ..).trans ?_)
    | (with_reducible refine (State.onRequest_pend (fun _ _ => ?_) ..).trans ?_)
    | with_reducible exact State.pend_self _ | dsimp only | split)

theorem execWrite_canon {src : Nat} {s : State} {zt : State} (hs : s.canon) (zh : execWrite src s = .next zt) :
    zt.canon := by
  unfold execWrite at zh
  cases zh
  try dsimp only
  repeat' (first
    | with_reducible assumption | (simp only [State.canon_mk]; with_reducible refine State.canon_eta ?_)
    | (with_reducible refine ite_canon ?_ ?_) | (with_reducible refine State.writeReq_canon ?_ ..)
    | (with_reducible refine State.onRequest_canon (fun _ _ _ => ?_) ?_ ..) | dsimp only | split)

theorem execWriteAck_pend {src : Nat} {s : State} {zt : State} (zh : execWriteAck src s = .next zt) :
    zt.pend = s.pend := by
  unfold execWriteAck at zh
  cases zh
  try dsimp only
  repeat' (first
    | with_reducible assumption | (simp only [State.pend_mk]; with_reducible refine (State.pend_eta _).trans ?_)
    | (with_reducible refine ite_pend ?_ ?_) | (with_reducible refine (State.onAck_pend ..).trans ?_)
    | with_reducible exact State.pend_self _ | dsimp only | split)

theorem execWriteAck_canon {src : Nat} {s : State} {zt : State} (hs : s.canon) (zh : execWriteAck src s = .next zt) :
    zt.canon := by
  unfold execWriteAck at zh
  cases zh
  try dsimp only
  repeat' (first
    | with_reducible assumption | (simp only [State.canon_mk]; with_reducible refine State.canon_eta ?_)
    | (with_reducible refine ite_canon ?_ ?_) | (with_reducible refine State.onAck_canon ?_ ..) | dsimp only | split)

theorem State.signalMsg_mems (s : State) (src : Nat) (i : InMsg) :
    ((State.signalMsg s src i)).mems = s.mems := by
  unfold State.signalMsg
  try dsimp only
  repeat' (first
    | with_reducible assumption | (simp only [State.mems_mk]; with_reducible refine (State.mems_eta _).trans ?_)
    | (with_reducible refine ite_mems ?_ ?_) | (with_reducible refine (State.refuseMsg_mems ..).trans ?_)
    | (with_reducible refine (State.popMsg_mems ..).trans ?_) | (with_reducible refine (State.reply_mems ..).trans ?_)
    | (with_reducible refine (State.updKw_mems ..).trans ?_)
    | (with_reducible refine (State.deliverSig_mems ..).trans ?_)
    | (with_reducible refine (State.bump_mems ..).trans ?_) | with_reducible exact State.mems_self _ | dsimp only
    | split)

theorem execSignal_mems {src : Nat} {s : State} {zt : State} (zh : execSignal src s = .next zt) :
    zt.mems = s.mems := by
  unfold execSignal at zh
  cases zh
  try dsimp only
  repeat' (first
    | with_reducible assumption | (simp only [State.mems_mk]; with_reducible refine (State.mems_eta _).trans ?_)
    | (with_reducible refine ite_mems ?_ ?_) | (with_reducible refine (State.signalMsg_mems ..).trans ?_)
    | (with_reducible refine (State.onRequest_mems (fun _ _ => ?_) ..).trans ?_)
    | with_reducible exact State.mems_self _ | dsimp only | split)

theorem execSigAck_pend {src : Nat} {s : State} {zt : State} (zh : execSigAck src s = .next zt) :
    zt.pend = s.pend := by
  unfold execSigAck at zh
  cases zh
  try dsimp only
  repeat' (first
    | with_reducible assumption | (simp only [State.pend_mk]; with_reducible refine (State.pend_eta _).trans ?_)
    | (with_reducible refine ite_pend ?_ ?_) | (with_reducible refine (State.onAck_pend ..).trans ?_)
    | with_reducible exact State.pend_self _ | dsimp only | split)

theorem execSigAck_canon {src : Nat} {s : State} {zt : State} (hs : s.canon) (zh : execSigAck src s = .next zt) :
    zt.canon := by
  unfold execSigAck at zh
  cases zh
  try dsimp only
  repeat' (first
    | with_reducible assumption | (simp only [State.canon_mk]; with_reducible refine State.canon_eta ?_)
    | (with_reducible refine ite_canon ?_ ?_) | (with_reducible refine State.onAck_canon ?_ ..) | dsimp only | split)

theorem State.redPart_pend (s : State) (src : Nat) (i : InMsg) (rdesc : Option Nat) (diffs : Nat) :
    ((State.redPart s src i rdesc diffs)).pend = s.pend := by
  unfold State.redPart
  try dsimp only
  repeat' (first
    | with_reducible assumption | (simp only [State.pend_mk]; with_reducible refine (State.pend_eta _).trans ?_)
    | (with_reducible refine ite_pend ?_ ?_) | (with_reducible refine (State.redValue_pend ..).trans ?_)
    | (with_reducible refine (State.pend_of_mems (State.refuseMsg_mems ..)).trans ?_)
    | (with_reducible refine (State.pend_of_mems (State.popMsg_mems ..)).trans ?_)
    | (with_reducible refine (State.pend_of_mems (State.reply_mems ..)).trans ?_)
    | (with_reducible refine (State.pend_of_mems (State.updPrg_mems ..)).trans ?_)
    | (with_reducible refine (State.pend_of_mems (State.bump_mems ..)).trans ?_)
    | with_reducible exact State.pend_self _ | dsimp only | split)

theorem State.redPart_canon {s : State} (hs : s.canon) (src : Nat) (i : InMsg) (rdesc : Option Nat) (diffs : Nat) :
    ((State.redPart s src i rdesc diffs)).canon := by
  unfold State.redPart
  try dsimp only
  repeat' (first
    | with_reducible assumption | (simp only [State.canon_mk]; with_reducible refine State.canon_eta ?_)
    | (with_reducible refine ite_canon ?_ ?_) | (with_reducible refine State.redValue_canon ?_ ..)
    | (with_reducible refine State.canon_of_mems (State.refuseMsg_mems ..) ?_)
    | (with_reducible refine State.canon_of_mems (State.popMsg_mems ..) ?_)
    | (with_reducible refine State.canon_of_mems (State.reply_mems ..) ?_)
    | (with_reducible refine State.canon_of_mems (State.updPrg_mems ..) ?_)
    | (with_reducible refine State.canon_of_mems (State.bump_mems ..) ?_) | dsimp only | split)

theorem execRedPart_pend {src : Nat} {desc : Option Nat} {diffs : Nat} {s : State} {zt : State} (zh : execRedPart src desc diffs s = .next zt) :
    zt.pend = s.pend := by
  unfold execRedPart at zh
  cases zh
  try dsimp only
  repeat' (first
    | with_reducible assumption | (simp only [State.pend_mk]; with_reducible refine (State.pend_eta _).trans ?_)
    | (with_reducible refine ite_pend ?_ ?_) | (with_reducible refine (State.redPart_pend ..).trans ?_)
    | (with_reducible refine (State.onRequest_pend (fun _ _ => ?_) ..).trans ?_)
    | with_reducible exact State.pend_self _ | dsimp only | split)

theorem execRedPart_canon {src : Nat} {desc : Option Nat} {diffs : Nat} {s : State} {zt : State} (hs : s.canon) (zh : execRedPart src desc diffs s = .next zt) :
    zt.canon := by
  unfold execRedPart at zh
  cases zh
  try dsimp only
  repeat' (first
    | with_reducible assumption | (simp only [State.canon_mk]; with_reducible refine State.canon_eta ?_)
    | (with_reducible refine ite_canon ?_ ?_) | (with_reducible refine State.redPart_canon ?_ ..)
    | (with_reducible refine State.onRequest_canon (fun _ _ _ => ?_) ?_ ..) | dsimp only | split)

theorem execRedAck_pend {src : Nat} {s : State} {zt : State} (zh : execRedAck src s = .next zt) :
    zt.pend = s.pend := by
  unfold execRedAck at zh
  cases zh
  try dsimp only
  repeat' (first
    | with_reducible assumption | (simp only [State.pend_mk]; with_reducible refine (State.pend_eta _).trans ?_)
    | (with_reducible refine ite_pend ?_ ?_) | (with_reducible refine (State.onAck_pend ..).trans ?_)
    | with_reducible exact State.pend_self _ | dsimp only | split)

theorem execRedAck_canon {src : Nat} {s : State} {zt : State} (hs : s.canon) (zh : execRedAck src s = .next zt) :
    zt.canon := by
  unfold execRedAck at zh
  cases zh
  try dsimp only
  repeat' (first
    | with_reducible assumption | (simp only [State.canon_mk]; with_reducible refine State.canon_eta ?_)
    | (with_reducible refine ite_canon ?_ ?_) | (with_reducible refine State.onAck_canon ?_ ..) | dsimp only | split)

theorem execFlushRsp_pend {src : Nat} {s : State} {zt : State} (zh : execFlushRsp src s = .next zt) :
    zt.pend = s.pend := by
  unfold execFlushRsp at zh
  cases zh
  try dsimp only
  repeat' (first
    | with_reducible assumption | (simp only [State.pend_mk]; with_reducible refine (State.pend_eta _).trans ?_)
    | (with_reducible refine ite_pend ?_ ?_)
    | (with_reducible refine (State.onResponse_pend (fun _ _ _ _ => ?_) ..).trans ?_)
    | (with_reducible refine (State.txnEnd_pend ..).trans ?_)
    | (with_reducible refine (State.pend_of_mems (State.popMsg_mems ..)).trans ?_)
    | with_reducible exact State.pend_self _ | dsimp only | split)

theorem execFlushRsp_canon {src : Nat} {s : State} {zt : State} (hs : s.canon) (zh : execFlushRsp src s = .next zt) :
    zt.canon := by
  unfold execFlushRsp at zh
  cases zh
  try dsimp only
  repeat' (first
    | with_reducible assumption | (simp only [State.canon_mk]; with_reducible refine State.canon_eta ?_)
    | (with_reducible refine ite_canon ?_ ?_)
    | (with_reducible refine State.onResponse_canon (fun _ _ _ _ _ => ?_) ?_ ..)
    | (with_reducible refine State.txnEnd_canon ?_ ..)
    | (with_reducible refine State.canon_of_mems (State.popMsg_mems ..) ?_) | dsimp only | split)

theorem State.digestDone_mems (s : State) (dg : Nat) (g : Group) :
    ((State.digestDone s dg g)).mems = s.mems := by
  unfold State.digestDone
  try dsimp only
  repeat' (first
    | with_reducible assumption | (simp only [State.mems_mk]; with_reducible refine (State.mems_eta _).trans ?_)
    | (with_reducible refine ite_mems ?_ ?_) | (with_reducible refine (State.queue_mems ..).trans ?_)
    | (with_reducible refine (State.bump_mems ..).trans ?_)
    | (with_reducible refine (foldl_mems (fun _ _ => ?_) ..).trans ?_)
    | (with_reducible refine (foldl1_mems (fun _ _ => ?_) ..).trans ?_) | with_reducible exact State.mems_self _
    | dsimp only | split)

theorem State.digestMsg_mems (s : State) (src : Nat) (i : InMsg) :
    ((State.digestMsg s src i)).mems = s.mems := by
  unfold State.digestMsg
  try dsimp only
  repeat' (first
    | with_reducible assumption | (simp only [State.mems_mk]; with_reducible refine (State.mems_eta _).trans ?_)
    | (with_reducible refine ite_mems ?_ ?_) | (with_reducible refine (State.digestDone_mems ..).trans ?_)
    | (with_reducible refine (State.refuseMsg_mems ..).trans ?_)
    | (with_reducible refine (State.popMsg_mems ..).trans ?_) | (with_reducible refine (State.reply_mems ..).trans ?_)
    | (with_reducible refine (State.updPrg_mems ..).trans ?_) | (with_reducible refine (State.bump_mems ..).trans ?_)
    | with_reducible exact State.mems_self _ | dsimp only | split)

theorem execDigestMessage_mems {src : Nat} {s : State} {zt : State} (zh : execDigestMessage src s = .next zt) :
    zt.mems = s.mems := by
  unfold execDigestMessage at zh
  cases zh
  try dsimp only
  repeat' (first
    | with_reducible assumption | (simp only [State.mems_mk]; with_reducible refine (State.mems_eta _).trans ?_)
    | (with_reducible refine ite_mems ?_ ?_) | (with_reducible refine (State.digestMsg_mems ..).trans ?_)
    | (with_reducible refine (State.onRequest_mems (fun _ _ => ?_) ..).trans ?_)
    | with_reducible exact State.mems_self _ | dsimp only | split)

theorem execDigestAck_pend {src : Nat} {s : State} {zt : State} (zh : execDigestAck src s = .next zt) :
    zt.pend = s.pend := by
  unfold execDigestAck at zh
  cases zh
  try dsimp only
  repeat' (first
    | with_reducible assumption | (simp only [State.pend_mk]; with_reducible refine (State.pend_eta _).trans ?_)
    | (with_reducible refine ite_pend ?_ ?_) | (with_reducible refine (State.onAck_pend ..).trans ?_)
    | with_reducible exact State.pend_self _ | dsimp only | split)

theorem execDigestAck_canon {src : Nat} {s : State} {zt : State} (hs : s.canon) (zh : execDigestAck src s = .next zt) :
    zt.canon := by
  unfold execDigestAck at zh
  cases zh
  try dsimp only
  repeat' (first
    | with_reducible assumption | (simp only [State.canon_mk]; with_reducible refine State.canon_eta ?_)
    | (with_reducible refine ite_canon ?_ ?_) | (with_reducible refine State.onAck_canon ?_ ..) | dsimp only | split)

theorem execNormMessage_mems {src : Nat} {s : State} {zt : State} (zh : execNormMessage src s = .next zt) :
    zt.mems = s.mems := by
  unfold execNormMessage at zh
  cases zh
  try dsimp only
  repeat' (first
    | with_reducible assumption | (simp only [State.mems_mk]; with_reducible refine (State.mems_eta _).trans ?_)
    | (with_reducible refine ite_mems ?_ ?_)
    | (with_reducible refine (State.onRequest_mems (fun _ _ => ?_) ..).trans ?_)
    | (with_reducible refine (State.normArrive_mems ..).trans ?_)
    | (with_reducible refine (State.popMsg_mems ..).trans ?_) | (with_reducible refine (State.reply_mems ..).trans ?_)
    | with_reducible exact State.mems_self _ | dsimp only | split)

theorem execNormAck_pend {src : Nat} {s : State} {zt : State} (zh : execNormAck src s = .next zt) :
    zt.pend = s.pend := by
  unfold execNormAck at zh
  cases zh
  try dsimp only
  repeat' (first
    | with_reducible assumption | (simp only [State.pend_mk]; with_reducible refine (State.pend_eta _).trans ?_)
    | (with_reducible refine ite_pend ?_ ?_) | (with_reducible refine (State.onAck_pend ..).trans ?_)
    | with_reducible exact State.pend_self _ | dsimp only | split)

theorem execNormAck_canon {src : Nat} {s : State} {zt : State} (hs : s.canon) (zh : execNormAck src s = .next zt) :
    zt.canon := by
  unfold execNormAck at zh
  cases zh
  try dsimp only
  repeat' (first
    | with_reducible assumption | (simp only [State.canon_mk]; with_reducible refine State.canon_eta ?_)
    | (with_reducible refine ite_canon ?_ ?_) | (with_reducible refine State.onAck_canon ?_ ..) | dsimp only | split)

theorem State.nakEnd_pend (s : State) (k : Nat) (t : Txn) (code : Nat) :
    ((State.nakEnd s k t code)).pend = s.pend := by
  unfold State.nakEnd
  try dsimp only
  repeat' (first
    | with_reducible assumption | (simp only [State.pend_mk]; with_reducible refine (State.pend_eta _).trans ?_)
    | (with_reducible refine ite_pend ?_ ?_) | (with_reducible refine (State.reissue_pend ..).trans ?_)
    | (with_reducible refine (State.txnEnd_pend ..).trans ?_)
    | (with_reducible refine (State.pend_of_mems (State.unreachable_mems ..)).trans ?_)
    | with_reducible exact State.pend_self _ | dsimp only | split)

theorem State.nakEnd_canon {s : State} (hs : s.canon) (k : Nat) (t : Txn) (code : Nat) :
    ((State.nakEnd s k t code)).canon := by
  unfold State.nakEnd
  try dsimp only
  repeat' (first
    | with_reducible assumption | (simp only [State.canon_mk]; with_reducible refine State.canon_eta ?_)
    | (with_reducible refine ite_canon ?_ ?_) | (with_reducible refine State.reissue_canon ?_ ..)
    | (with_reducible refine State.txnEnd_canon ?_ ..)
    | (with_reducible refine State.canon_of_mems (State.unreachable_mems ..) ?_) | dsimp only | split)

theorem execNakMessage_pend {src : Nat} {s : State} {zt : State} (zh : execNakMessage src s = .next zt) :
    zt.pend = s.pend := by
  unfold execNakMessage at zh
  cases zh
  try dsimp only
  repeat' (first
    | with_reducible assumption | (simp only [State.pend_mk]; with_reducible refine (State.pend_eta _).trans ?_)
    | (with_reducible refine ite_pend ?_ ?_) | (with_reducible refine (State.nakEnd_pend ..).trans ?_)
    | (with_reducible refine (State.onResponse_pend (fun _ _ _ _ => ?_) ..).trans ?_)
    | (with_reducible refine (State.pend_of_mems (State.popMsg_mems ..)).trans ?_)
    | with_reducible exact State.pend_self _ | dsimp only | split)

theorem execNakMessage_canon {src : Nat} {s : State} {zt : State} (hs : s.canon) (zh : execNakMessage src s = .next zt) :
    zt.canon := by
  unfold execNakMessage at zh
  cases zh
  try dsimp only
  repeat' (first
    | with_reducible assumption | (simp only [State.canon_mk]; with_reducible refine State.canon_eta ?_)
    | (with_reducible refine ite_canon ?_ ?_) | (with_reducible refine State.nakEnd_canon ?_ ..)
    | (with_reducible refine State.onResponse_canon (fun _ _ _ _ _ => ?_) ?_ ..)
    | (with_reducible refine State.canon_of_mems (State.popMsg_mems ..) ?_) | dsimp only | split)

theorem execTxnTimeout_pend {die : Nat} {txn : Nat} {s : State} {zt : State} (zh : execTxnTimeout die txn s = .next zt) :
    zt.pend = s.pend := by
  unfold execTxnTimeout at zh
  cases zh
  try dsimp only
  repeat' (first
    | with_reducible assumption | (simp only [State.pend_mk]; with_reducible refine (State.pend_eta _).trans ?_)
    | (with_reducible refine ite_pend ?_ ?_) | (with_reducible refine (State.reissue_pend ..).trans ?_)
    | (with_reducible refine (State.txnEnd_pend ..).trans ?_)
    | (with_reducible refine (State.pend_of_mems (State.unreachable_mems ..)).trans ?_)
    | (with_reducible refine (State.pend_of_mems (State.setTxn_mems ..)).trans ?_)
    | (with_reducible refine (State.pend_of_mems (State.bump_mems ..)).trans ?_)
    | with_reducible exact State.pend_self _ | dsimp only | split)

theorem execTxnTimeout_canon {die : Nat} {txn : Nat} {s : State} {zt : State} (hs : s.canon) (zh : execTxnTimeout die txn s = .next zt) :
    zt.canon := by
  unfold execTxnTimeout at zh
  cases zh
  try dsimp only
  repeat' (first
    | with_reducible assumption | (simp only [State.canon_mk]; with_reducible refine State.canon_eta ?_)
    | (with_reducible refine ite_canon ?_ ?_) | (with_reducible refine State.reissue_canon ?_ ..)
    | (with_reducible refine State.txnEnd_canon ?_ ..)
    | (with_reducible refine State.canon_of_mems (State.unreachable_mems ..) ?_)
    | (with_reducible refine State.canon_of_mems (State.setTxn_mems ..) ?_)
    | (with_reducible refine State.canon_of_mems (State.bump_mems ..) ?_) | dsimp only | split)

theorem State.rspDone_mems (s : State) (r : HostRd) (src : Nat) (txn : Nat) (gen : Nat) (data : Option (List Nat)) :
    ((State.rspDone s r src txn gen data)).mems = s.mems := by
  unfold State.rspDone
  try dsimp only
  repeat' (first
    | with_reducible assumption | (simp only [State.mems_mk]; with_reducible refine (State.mems_eta _).trans ?_)
    | (with_reducible refine ite_mems ?_ ?_) | (with_reducible refine (State.updHost_mems ..).trans ?_)
    | (with_reducible refine (State.reply_mems ..).trans ?_) | with_reducible exact State.mems_self _ | dsimp only
    | split)

theorem execDmaReadCompletion_pend {serial : Nat} {status : Nat} {data : List Nat} {s : State} {zt : State} (zh : execDmaReadCompletion serial status data s = .next zt) :
    zt.pend = s.pend := by
  unfold execDmaReadCompletion at zh
  cases zh
  try dsimp only
  repeat' (first
    | with_reducible assumption | (simp only [State.pend_mk]; with_reducible refine (State.pend_eta _).trans ?_)
    | (with_reducible refine ite_pend ?_ ?_)
    | (with_reducible refine (State.pend_of_mems (State.rspDone_mems ..)).trans ?_)
    | (with_reducible refine (State.readData_pend ..).trans ?_)
    | (with_reducible refine (State.pend_of_mems (State.readFail_mems ..)).trans ?_)
    | (with_reducible refine (State.pend_of_mems (State.readDone_mems ..)).trans ?_)
    | (with_reducible refine (State.pend_of_mems (State.dmaErr_mems ..)).trans ?_)
    | with_reducible exact State.pend_self _ | dsimp only | split)

theorem execDmaReadCompletion_canon {serial : Nat} {status : Nat} {data : List Nat} {s : State} {zt : State} (hs : s.canon) (zh : execDmaReadCompletion serial status data s = .next zt) :
    zt.canon := by
  unfold execDmaReadCompletion at zh
  cases zh
  try dsimp only
  repeat' (first
    | with_reducible assumption | (simp only [State.canon_mk]; with_reducible refine State.canon_eta ?_)
    | (with_reducible refine ite_canon ?_ ?_) | (with_reducible refine State.canon_of_mems (State.rspDone_mems ..) ?_)
    | (with_reducible refine State.readData_canon ?_ ..)
    | (with_reducible refine State.canon_of_mems (State.readFail_mems ..) ?_)
    | (with_reducible refine State.canon_of_mems (State.readDone_mems ..) ?_)
    | (with_reducible refine State.canon_of_mems (State.dmaErr_mems ..) ?_) | dsimp only | split)

theorem execDmaReadTimeout_mems {serial : Nat} {s : State} {zt : State} (zh : execDmaReadTimeout serial s = .next zt) :
    zt.mems = s.mems := by
  unfold execDmaReadTimeout at zh
  cases zh
  try dsimp only
  repeat' (first
    | with_reducible assumption | (simp only [State.mems_mk]; with_reducible refine (State.mems_eta _).trans ?_)
    | (with_reducible refine ite_mems ?_ ?_) | (with_reducible refine (State.rspDone_mems ..).trans ?_)
    | (with_reducible refine (State.readFail_mems ..).trans ?_)
    | (with_reducible refine (State.dmaErr_mems ..).trans ?_)
    | (with_reducible refine (State.updHost_mems ..).trans ?_) | (with_reducible refine (State.send_mems ..).trans ?_)
    | with_reducible exact State.mems_self _ | dsimp only | split)

end Sys2Proof.Machine
end

