-- ==== Sys2Proof/Laws/FrameLinks.lean ====
section
/-! SUPPORT. Frames of Machine/Links.lean: what each operation and command leaves alone of the memories and the queue. -/

set_option linter.all false

namespace Sys2Proof.Machine

theorem State.requeue_mems (s : State) (port : Nat) (x2 : List Flit) :
    ((State.requeue s port x2)).mems = s.mems := by
  induction x2 generalizing s port with
  | nil =>
    unfold State.requeue
    try dsimp only
    repeat' (first
      | with_reducible assumption | (simp only [State.mems_mk]; with_reducible refine (State.mems_eta _).trans ?_)
      | (with_reducible refine ite_mems ?_ ?_) | (with_reducible refine (State.updKw_mems ..).trans ?_)
      | with_reducible exact State.mems_self _ | dsimp only | split)
  | cons x0 x2 ih =>
    unfold State.requeue
    try dsimp only
    repeat' (first
      | with_reducible assumption | (with_reducible refine (ih ..).trans ?_)
      | (simp only [State.mems_mk]; with_reducible refine (State.mems_eta _).trans ?_)
      | (with_reducible refine ite_mems ?_ ?_) | (with_reducible refine (State.updKw_mems ..).trans ?_)
      | with_reducible exact State.mems_self _ | dsimp only | split)

theorem State.linkCredits_mems (s : State) (l : Nat) :
    ((State.linkCredits s l)).mems = s.mems := by
  unfold State.linkCredits
  try dsimp only
  repeat' (first
    | with_reducible assumption | (simp only [State.mems_mk]; with_reducible refine (State.mems_eta _).trans ?_)
    | (with_reducible refine ite_mems ?_ ?_) | (with_reducible refine (State.updKw_mems ..).trans ?_)
    | (with_reducible refine (forEach_mems (fun _ _ => ?_) ..).trans ?_) | with_reducible exact State.mems_self _
    | dsimp only | split)

theorem State.reroute_pend (s : State) (r : Nat) (k : Nat) :
    ((State.reroute s r k)).pend = s.pend := by
  unfold State.reroute
  try dsimp only
  repeat' (first
    | with_reducible assumption | (simp only [State.pend_mk]; with_reducible refine (State.pend_eta _).trans ?_)
    | (with_reducible refine ite_pend ?_ ?_) | (with_reducible refine (State.reissue_pend ..).trans ?_)
    | (with_reducible refine (State.txnEnd_pend ..).trans ?_)
    | (with_reducible refine (State.pend_of_mems (State.unreachable_mems ..)).trans ?_)
    | (with_reducible refine (State.pend_of_mems (State.startReset_mems ..)).trans ?_)
    | (with_reducible refine (State.pend_of_mems (State.clearKw_mems ..)).trans ?_)
    | (with_reducible refine (State.pend_of_mems (State.pump_mems ..)).trans ?_)
    | (with_reducible refine (State.pend_of_mems (State.updKw_mems ..)).trans ?_)
    | (with_reducible refine (State.pend_of_mems (State.updPrg_mems ..)).trans ?_)
    | (with_reducible refine (forEach_pend (fun _ _ => ?_) ..).trans ?_) | with_reducible exact State.pend_self _
    | dsimp only | split)

theorem State.reroute_canon {s : State} (hs : s.canon) (r : Nat) (k : Nat) :
    ((State.reroute s r k)).canon := by
  unfold State.reroute
  try dsimp only
  repeat' (first
    | with_reducible assumption | (simp only [State.canon_mk]; with_reducible refine State.canon_eta ?_)
    | (with_reducible refine ite_canon ?_ ?_) | (with_reducible refine State.reissue_canon ?_ ..)
    | (with_reducible refine State.txnEnd_canon ?_ ..)
    | (with_reducible refine State.canon_of_mems (State.unreachable_mems ..) ?_)
    | (with_reducible refine State.canon_of_mems (State.startReset_mems ..) ?_)
    | (with_reducible refine State.canon_of_mems (State.clearKw_mems ..) ?_)
    | (with_reducible refine State.canon_of_mems (State.pump_mems ..) ?_)
    | (with_reducible refine State.canon_of_mems (State.updKw_mems ..) ?_)
    | (with_reducible refine State.canon_of_mems (State.updPrg_mems ..) ?_)
    | (with_reducible refine forEach_canon (fun _ _ _ => ?_) ?_ ..) | dsimp only | split)

theorem State.linkLoss_pend (s : State) (l : Nat) :
    ((State.linkLoss s l)).pend = s.pend := by
  unfold State.linkLoss
  try dsimp only
  repeat' (first
    | with_reducible assumption | (simp only [State.pend_mk]; with_reducible refine (State.pend_eta _).trans ?_)
    | (with_reducible refine ite_pend ?_ ?_) | (with_reducible refine (State.reroute_pend ..).trans ?_)
    | (with_reducible refine (State.pend_of_mems (State.linkCredits_mems ..)).trans ?_)
    | (with_reducible refine (State.pend_of_mems (State.requeue_mems ..)).trans ?_)
    | (with_reducible refine (State.pend_of_mems (State.updLink_mems ..)).trans ?_)
    | (with_reducible refine (forEach_pend (fun _ _ => ?_) ..).trans ?_) | with_reducible exact State.pend_self _
    | dsimp only | split)

theorem State.linkLoss_canon {s : State} (hs : s.canon) (l : Nat) :
    ((State.linkLoss s l)).canon := by
  unfold State.linkLoss
  try dsimp only
  repeat' (first
    | with_reducible assumption | (simp only [State.canon_mk]; with_reducible refine State.canon_eta ?_)
    | (with_reducible refine ite_canon ?_ ?_) | (with_reducible refine State.reroute_canon ?_ ..)
    | (with_reducible refine State.canon_of_mems (State.linkCredits_mems ..) ?_)
    | (with_reducible refine State.canon_of_mems (State.requeue_mems ..) ?_)
    | (with_reducible refine State.canon_of_mems (State.updLink_mems ..) ?_)
    | (with_reducible refine forEach_canon (fun _ _ _ => ?_) ?_ ..) | dsimp only | split)

theorem State.linkFail_pend (s : State) (l : Nat) :
    ((State.linkFail s l)).pend = s.pend := by
  unfold State.linkFail
  try dsimp only
  repeat' (first
    | with_reducible assumption | (simp only [State.pend_mk]; with_reducible refine (State.pend_eta _).trans ?_)
    | (with_reducible refine ite_pend ?_ ?_) | (with_reducible refine (State.linkLoss_pend ..).trans ?_)
    | (with_reducible refine (State.pend_of_mems (State.sendCtrl_mems ..)).trans ?_)
    | (with_reducible refine (State.pend_of_mems (State.bump_mems ..)).trans ?_)
    | with_reducible exact State.pend_self _ | dsimp only | split)

theorem State.linkFail_canon {s : State} (hs : s.canon) (l : Nat) :
    ((State.linkFail s l)).canon := by
  unfold State.linkFail
  try dsimp only
  repeat' (first
    | with_reducible assumption | (simp only [State.canon_mk]; with_reducible refine State.canon_eta ?_)
    | (with_reducible refine ite_canon ?_ ?_) | (with_reducible refine State.linkLoss_canon ?_ ..)
    | (with_reducible refine State.canon_of_mems (State.sendCtrl_mems ..) ?_)
    | (with_reducible refine State.canon_of_mems (State.bump_mems ..) ?_) | dsimp only | split)

theorem State.trainNow_mems (s : State) (port : Nat) (lane : Nat) :
    ((State.trainNow s port lane)).mems = s.mems := by
  unfold State.trainNow
  try dsimp only
  repeat' (first
    | with_reducible assumption | (simp only [State.mems_mk]; with_reducible refine (State.mems_eta _).trans ?_)
    | (with_reducible refine ite_mems ?_ ?_) | (with_reducible refine (State.trainStaging_mems ..).trans ?_)
    | (with_reducible refine (State.trainSealed_mems ..).trans ?_) | with_reducible exact State.mems_self _
    | dsimp only | split)

theorem State.linkRetrain_pend (s : State) (l : Nat) :
    ((State.linkRetrain s l)).pend = s.pend := by
  unfold State.linkRetrain
  try dsimp only
  repeat' (first
    | with_reducible assumption | (simp only [State.pend_mk]; with_reducible refine (State.pend_eta _).trans ?_)
    | (with_reducible refine ite_pend ?_ ?_)
    | (with_reducible refine (State.pend_of_mems (State.trainNow_mems ..)).trans ?_)
    | (with_reducible refine (State.linkLoss_pend ..).trans ?_)
    | (with_reducible refine (State.pend_of_mems (State.sendCtrl_mems ..)).trans ?_)
    | (with_reducible refine (forEach_pend (fun _ _ => ?_) ..).trans ?_) | with_reducible exact State.pend_self _
    | dsimp only | split)

theorem State.linkRetrain_canon {s : State} (hs : s.canon) (l : Nat) :
    ((State.linkRetrain s l)).canon := by
  unfold State.linkRetrain
  try dsimp only
  repeat' (first
    | with_reducible assumption | (simp only [State.canon_mk]; with_reducible refine State.canon_eta ?_)
    | (with_reducible refine ite_canon ?_ ?_)
    | (with_reducible refine State.canon_of_mems (State.trainNow_mems ..) ?_)
    | (with_reducible refine State.linkLoss_canon ?_ ..)
    | (with_reducible refine State.canon_of_mems (State.sendCtrl_mems ..) ?_)
    | (with_reducible refine forEach_canon (fun _ _ _ => ?_) ?_ ..) | dsimp only | split)

theorem State.sendCredits_mems (s : State) (l : Nat) :
    ((State.sendCredits s l)).mems = s.mems := by
  unfold State.sendCredits
  try dsimp only
  repeat' (first
    | with_reducible assumption | (simp only [State.mems_mk]; with_reducible refine (State.mems_eta _).trans ?_)
    | (with_reducible refine ite_mems ?_ ?_) | (with_reducible refine (State.sendIdle_mems ..).trans ?_)
    | (with_reducible refine (State.updKw_mems ..).trans ?_)
    | (with_reducible refine (forEach_mems (fun _ _ => ?_) ..).trans ?_) | with_reducible exact State.mems_self _
    | dsimp only | split)

theorem State.stagingKw_mems (s : State) (l : Nat) :
    ((State.stagingKw s l)).mems = s.mems := by
  unfold State.stagingKw
  try dsimp only
  repeat' (first
    | with_reducible assumption | (simp only [State.mems_mk]; with_reducible refine (State.mems_eta _).trans ?_)
    | (with_reducible refine ite_mems ?_ ?_) | (with_reducible refine (State.updPrg_mems ..).trans ?_)
    | with_reducible exact State.mems_self _ | dsimp only | split)

theorem State.linkUpNow_mems (s : State) (l : Nat) :
    ((State.linkUpNow s l)).mems = s.mems := by
  unfold State.linkUpNow
  try dsimp only
  repeat' (first
    | with_reducible assumption | (simp only [State.mems_mk]; with_reducible refine (State.mems_eta _).trans ?_)
    | (with_reducible refine ite_mems ?_ ?_) | (with_reducible refine (State.stagingKw_mems ..).trans ?_)
    | (with_reducible refine (State.sendCredits_mems ..).trans ?_)
    | (with_reducible refine (State.pump_mems ..).trans ?_) | (with_reducible refine (State.updKw_mems ..).trans ?_)
    | (with_reducible refine (State.updLink_mems ..).trans ?_)
    | (with_reducible refine (forEach_mems (fun _ _ => ?_) ..).trans ?_) | with_reducible exact State.mems_self _
    | dsimp only | split)

theorem State.sendLaneset_mems (s : State) (l : Nat) :
    ((State.sendLaneset s l)).mems = s.mems := by
  unfold State.sendLaneset
  try dsimp only
  repeat' (first
    | with_reducible assumption | (simp only [State.mems_mk]; with_reducible refine (State.mems_eta _).trans ?_)
    | (with_reducible refine ite_mems ?_ ?_) | (with_reducible refine (State.sendCtrl_mems ..).trans ?_)
    | (with_reducible refine (foldl_mems (fun _ _ => ?_) ..).trans ?_)
    | (with_reducible refine (foldl1_mems (fun _ _ => ?_) ..).trans ?_) | with_reducible exact State.mems_self _
    | dsimp only | split)

theorem State.joinSpare_mems (s : State) (port : Nat) :
    ((State.joinSpare s port)).mems = s.mems := by
  unfold State.joinSpare
  try dsimp only
  repeat' (first
    | with_reducible assumption | (simp only [State.mems_mk]; with_reducible refine (State.mems_eta _).trans ?_)
    | (with_reducible refine ite_mems ?_ ?_) | (with_reducible refine (State.setPLane_mems ..).trans ?_)
    | with_reducible exact State.mems_self _ | dsimp only | split)

theorem State.failLane_pend (s : State) (port : Nat) (lane : Nat) (cause : Nat) :
    ((State.failLane s port lane cause)).pend = s.pend := by
  unfold State.failLane
  try dsimp only
  repeat' (first
    | with_reducible assumption | (simp only [State.pend_mk]; with_reducible refine (State.pend_eta _).trans ?_)
    | (with_reducible refine ite_pend ?_ ?_)
    | (with_reducible refine (State.pend_of_mems (State.joinSpare_mems ..)).trans ?_)
    | (with_reducible refine (State.pend_of_mems (State.sendLaneset_mems ..)).trans ?_)
    | (with_reducible refine (State.linkFail_pend ..).trans ?_)
    | (with_reducible refine (State.pend_of_mems (State.setPLane_mems ..)).trans ?_)
    | (with_reducible refine (State.pend_of_mems (State.queue_mems ..)).trans ?_)
    | (with_reducible refine (State.pend_of_mems (State.bump_mems ..)).trans ?_)
    | with_reducible exact State.pend_self _ | dsimp only | split)

theorem State.failLane_canon {s : State} (hs : s.canon) (port : Nat) (lane : Nat) (cause : Nat) :
    ((State.failLane s port lane cause)).canon := by
  unfold State.failLane
  try dsimp only
  repeat' (first
    | with_reducible assumption | (simp only [State.canon_mk]; with_reducible refine State.canon_eta ?_)
    | (with_reducible refine ite_canon ?_ ?_)
    | (with_reducible refine State.canon_of_mems (State.joinSpare_mems ..) ?_)
    | (with_reducible refine State.canon_of_mems (State.sendLaneset_mems ..) ?_)
    | (with_reducible refine State.linkFail_canon ?_ ..)
    | (with_reducible refine State.canon_of_mems (State.setPLane_mems ..) ?_)
    | (with_reducible refine State.canon_of_mems (State.queue_mems ..) ?_)
    | (with_reducible refine State.canon_of_mems (State.bump_mems ..) ?_) | dsimp only | split)

theorem State.setOma_mems (s : State) (port : Nat) (lane : Nat) (v : Nat) :
    ((State.setOma s port lane v)).mems = s.mems := by
  unfold State.setOma
  try dsimp only
  repeat' (first
    | with_reducible assumption | (simp only [State.mems_mk]; with_reducible refine (State.mems_eta _).trans ?_)
    | (with_reducible refine ite_mems ?_ ?_) | (with_reducible refine (State.updPrg_mems ..).trans ?_)
    | with_reducible exact State.mems_self _ | dsimp only | split)

theorem State.setLaser_mems (s : State) (engine : Nat) (lane : Nat) (v : Nat) :
    ((State.setLaser s engine lane v)).mems = s.mems := by
  unfold State.setLaser
  try dsimp only
  repeat' (first
    | with_reducible assumption | (simp only [State.mems_mk]; with_reducible refine (State.mems_eta _).trans ?_)
    | (with_reducible refine ite_mems ?_ ?_) | (with_reducible refine (State.updPrg_mems ..).trans ?_)
    | with_reducible exact State.mems_self _ | dsimp only | split)

theorem execLaneFail_pend {port : Nat} {lane : Nat} {cause : Nat} {reading : Nat} {s : State} {zt : State} (zh : execLaneFail port lane cause reading s = .next zt) :
    zt.pend = s.pend := by
  unfold execLaneFail at zh
  cases zh
  try dsimp only
  repeat' (first
    | with_reducible assumption | (simp only [State.pend_mk]; with_reducible refine (State.pend_eta _).trans ?_)
    | (with_reducible refine ite_pend ?_ ?_)
    | (with_reducible refine (State.pend_of_mems (State.setLaser_mems ..)).trans ?_)
    | (with_reducible refine (State.pend_of_mems (State.setOma_mems ..)).trans ?_)
    | (with_reducible refine (State.failLane_pend ..).trans ?_)
    | (with_reducible refine (State.pend_of_mems (State.queue_mems ..)).trans ?_)
    | with_reducible exact State.pend_self _ | dsimp only | split)

theorem execLaneFail_canon {port : Nat} {lane : Nat} {cause : Nat} {reading : Nat} {s : State} {zt : State} (hs : s.canon) (zh : execLaneFail port lane cause reading s = .next zt) :
    zt.canon := by
  unfold execLaneFail at zh
  cases zh
  try dsimp only
  repeat' (first
    | with_reducible assumption | (simp only [State.canon_mk]; with_reducible refine State.canon_eta ?_)
    | (with_reducible refine ite_canon ?_ ?_)
    | (with_reducible refine State.canon_of_mems (State.setLaser_mems ..) ?_)
    | (with_reducible refine State.canon_of_mems (State.setOma_mems ..) ?_)
    | (with_reducible refine State.failLane_canon ?_ ..)
    | (with_reducible refine State.canon_of_mems (State.queue_mems ..) ?_) | dsimp only | split)

theorem execLaneset_mems {port : Nat} {lane : Nat} {mask : Nat} {s : State} {zt : State} (zh : execLaneset port lane mask s = .next zt) :
    zt.mems = s.mems := by
  unfold execLaneset at zh
  cases zh
  try dsimp only
  repeat' (first
    | with_reducible assumption | (simp only [State.mems_mk]; with_reducible refine (State.mems_eta _).trans ?_)
    | (with_reducible refine ite_mems ?_ ?_) | (with_reducible refine (State.updLink_mems ..).trans ?_)
    | with_reducible exact State.mems_self _ | dsimp only | split)

theorem execLaneRetrain_mems {port : Nat} {lane : Nat} {s : State} {zt : State} (zh : execLaneRetrain port lane s = .next zt) :
    zt.mems = s.mems := by
  unfold execLaneRetrain at zh
  cases zh
  try dsimp only
  repeat' (first
    | with_reducible assumption | (simp only [State.mems_mk]; with_reducible refine (State.mems_eta _).trans ?_)
    | (with_reducible refine ite_mems ?_ ?_) | (with_reducible refine (State.trainNow_mems ..).trans ?_)
    | with_reducible exact State.mems_self _ | dsimp only | split)

theorem execLaneTrainingDone_mems {port : Nat} {lane : Nat} {pkg : Nat} {pport : Nat} {mode : Nat} {digest : Nat} {s : State} {zt : State} (zh : execLaneTrainingDone port lane pkg pport mode digest s = .next zt) :
    zt.mems = s.mems := by
  unfold execLaneTrainingDone at zh
  cases zh
  try dsimp only
  repeat' (first
    | with_reducible assumption | (simp only [State.mems_mk]; with_reducible refine (State.mems_eta _).trans ?_)
    | (with_reducible refine ite_mems ?_ ?_) | (with_reducible refine (State.sendLaneset_mems ..).trans ?_)
    | (with_reducible refine (State.linkUpNow_mems ..).trans ?_)
    | (with_reducible refine (State.pump_mems ..).trans ?_)
    | (with_reducible refine (State.sendIdle_mems ..).trans ?_)
    | (with_reducible refine (State.setPLane_mems ..).trans ?_)
    | (with_reducible refine (State.queue_mems ..).trans ?_) | with_reducible exact State.mems_self _ | dsimp only
    | split)

theorem State.spendBudget_pend (s : State) (l : Nat) :
    ((State.spendBudget s l)).pend = s.pend := by
  unfold State.spendBudget
  try dsimp only
  repeat' (first
    | with_reducible assumption | (simp only [State.pend_mk]; with_reducible refine (State.pend_eta _).trans ?_)
    | (with_reducible refine ite_pend ?_ ?_) | (with_reducible refine (State.failLane_pend ..).trans ?_)
    | (with_reducible refine (State.pend_of_mems (State.clearEpisode_mems ..)).trans ?_)
    | (with_reducible refine (State.pend_of_mems (State.updLink_mems ..)).trans ?_)
    | (with_reducible refine (forEach_pend (fun _ _ => ?_) ..).trans ?_) | with_reducible exact State.pend_self _
    | dsimp only | split)

theorem State.spendBudget_canon {s : State} (hs : s.canon) (l : Nat) :
    ((State.spendBudget s l)).canon := by
  unfold State.spendBudget
  try dsimp only
  repeat' (first
    | with_reducible assumption | (simp only [State.canon_mk]; with_reducible refine State.canon_eta ?_)
    | (with_reducible refine ite_canon ?_ ?_) | (with_reducible refine State.failLane_canon ?_ ..)
    | (with_reducible refine State.canon_of_mems (State.clearEpisode_mems ..) ?_)
    | (with_reducible refine State.canon_of_mems (State.updLink_mems ..) ?_)
    | (with_reducible refine forEach_canon (fun _ _ _ => ?_) ?_ ..) | dsimp only | split)

theorem State.replay_pend (s : State) (l : Nat) :
    ((State.replay s l)).pend = s.pend := by
  unfold State.replay
  try dsimp only
  repeat' (first
    | with_reducible assumption | (simp only [State.pend_mk]; with_reducible refine (State.pend_eta _).trans ?_)
    | (with_reducible refine ite_pend ?_ ?_) | (with_reducible refine (State.spendBudget_pend ..).trans ?_)
    | (with_reducible refine (State.pend_of_mems (State.putOut_mems ..)).trans ?_)
    | (with_reducible refine (State.pend_of_mems (State.clearEpisode_mems ..)).trans ?_)
    | (with_reducible refine (State.pend_of_mems (State.updLink_mems ..)).trans ?_)
    | (with_reducible refine (State.pend_of_mems (State.bump_mems ..)).trans ?_)
    | (with_reducible refine (forEach_pend (fun _ _ => ?_) ..).trans ?_) | with_reducible exact State.pend_self _
    | dsimp only | split)

theorem State.replay_canon {s : State} (hs : s.canon) (l : Nat) :
    ((State.replay s l)).canon := by
  unfold State.replay
  try dsimp only
  repeat' (first
    | with_reducible assumption | (simp only [State.canon_mk]; with_reducible refine State.canon_eta ?_)
    | (with_reducible refine ite_canon ?_ ?_) | (with_reducible refine State.spendBudget_canon ?_ ..)
    | (with_reducible refine State.canon_of_mems (State.putOut_mems ..) ?_)
    | (with_reducible refine State.canon_of_mems (State.clearEpisode_mems ..) ?_)
    | (with_reducible refine State.canon_of_mems (State.updLink_mems ..) ?_)
    | (with_reducible refine State.canon_of_mems (State.bump_mems ..) ?_)
    | (with_reducible refine forEach_canon (fun _ _ _ => ?_) ?_ ..) | dsimp only | split)

theorem State.answerResync_mems (s : State) (k : Nat) :
    ((State.answerResync s k)).mems = s.mems := by
  unfold State.answerResync
  try dsimp only
  repeat' (first
    | with_reducible assumption | (simp only [State.mems_mk]; with_reducible refine (State.mems_eta _).trans ?_)
    | (with_reducible refine ite_mems ?_ ?_) | (with_reducible refine (State.sendKwCtl_mems ..).trans ?_)
    | (with_reducible refine (State.updKw_mems ..).trans ?_) | with_reducible exact State.mems_self _ | dsimp only
    | split)

theorem State.badAckAt_pend (s : State) (l : Nat) (kw : Nat) :
    ((State.badAckAt s l kw)).pend = s.pend := by
  unfold State.badAckAt
  try dsimp only
  repeat' (first
    | with_reducible assumption | (simp only [State.pend_mk]; with_reducible refine (State.pend_eta _).trans ?_)
    | (with_reducible refine ite_pend ?_ ?_) | (with_reducible refine (State.linkRetrain_pend ..).trans ?_)
    | (with_reducible refine (State.pend_of_mems (State.peerViol_mems ..)).trans ?_)
    | (with_reducible refine (State.pend_of_mems (State.updLink_mems ..)).trans ?_)
    | with_reducible exact State.pend_self _ | dsimp only | split)

theorem State.badAckAt_canon {s : State} (hs : s.canon) (l : Nat) (kw : Nat) :
    ((State.badAckAt s l kw)).canon := by
  unfold State.badAckAt
  try dsimp only
  repeat' (first
    | with_reducible assumption | (simp only [State.canon_mk]; with_reducible refine State.canon_eta ?_)
    | (with_reducible refine ite_canon ?_ ?_) | (with_reducible refine State.linkRetrain_canon ?_ ..)
    | (with_reducible refine State.canon_of_mems (State.peerViol_mems ..) ?_)
    | (with_reducible refine State.canon_of_mems (State.updLink_mems ..) ?_) | dsimp only | split)

theorem State.dropAcked_mems (s : State) (l : Nat) (n : Nat) :
    ((State.dropAcked s l n)).mems = s.mems := by
  unfold State.dropAcked
  try dsimp only
  repeat' (first
    | with_reducible assumption | (simp only [State.mems_mk]; with_reducible refine (State.mems_eta _).trans ?_)
    | (with_reducible refine ite_mems ?_ ?_) | (with_reducible refine (State.updLink_mems ..).trans ?_)
    | with_reducible exact State.mems_self _ | dsimp only | split)

theorem State.eventOver_mems (s : State) (l : Nat) :
    ((State.eventOver s l)).mems = s.mems := by
  unfold State.eventOver
  try dsimp only
  repeat' (first
    | with_reducible assumption | (simp only [State.mems_mk]; with_reducible refine (State.mems_eta _).trans ?_)
    | (with_reducible refine ite_mems ?_ ?_) | (with_reducible refine (State.updPrg_mems ..).trans ?_)
    | with_reducible exact State.mems_self _ | dsimp only | split)

theorem State.afterAck_mems (s : State) (l : Nat) :
    ((State.afterAck s l)).mems = s.mems := by
  unfold State.afterAck
  try dsimp only
  repeat' (first
    | with_reducible assumption | (simp only [State.mems_mk]; with_reducible refine (State.mems_eta _).trans ?_)
    | (with_reducible refine ite_mems ?_ ?_) | (with_reducible refine (State.eventOver_mems ..).trans ?_)
    | (with_reducible refine (State.answerResync_mems ..).trans ?_)
    | (with_reducible refine (State.pump_mems ..).trans ?_)
    | (with_reducible refine (forEach_mems (fun _ _ => ?_) ..).trans ?_) | with_reducible exact State.mems_self _
    | dsimp only | split)

theorem State.ackTo_pend (s : State) (l : Nat) (ack : Nat) (kw : Nat) :
    ((State.ackTo s l ack kw)).pend = s.pend := by
  unfold State.ackTo
  try dsimp only
  repeat' (first
    | with_reducible assumption | (simp only [State.pend_mk]; with_reducible refine (State.pend_eta _).trans ?_)
    | (with_reducible refine ite_pend ?_ ?_)
    | (with_reducible refine (State.pend_of_mems (State.afterAck_mems ..)).trans ?_)
    | (with_reducible refine (State.pend_of_mems (State.dropAcked_mems ..)).trans ?_)
    | (with_reducible refine (State.badAckAt_pend ..).trans ?_) | with_reducible exact State.pend_self _ | dsimp only
    | split)

theorem State.ackTo_canon {s : State} (hs : s.canon) (l : Nat) (ack : Nat) (kw : Nat) :
    ((State.ackTo s l ack kw)).canon := by
  unfold State.ackTo
  try dsimp only
  repeat' (first
    | with_reducible assumption | (simp only [State.canon_mk]; with_reducible refine State.canon_eta ?_)
    | (with_reducible refine ite_canon ?_ ?_)
    | (with_reducible refine State.canon_of_mems (State.afterAck_mems ..) ?_)
    | (with_reducible refine State.canon_of_mems (State.dropAcked_mems ..) ?_)
    | (with_reducible refine State.badAckAt_canon ?_ ..) | dsimp only | split)

theorem State.nakFrom_pend (s : State) (l : Nat) (seq : Nat) :
    ((State.nakFrom s l seq)).pend = s.pend := by
  unfold State.nakFrom
  try dsimp only
  repeat' (first
    | with_reducible assumption | (simp only [State.pend_mk]; with_reducible refine (State.pend_eta _).trans ?_)
    | (with_reducible refine ite_pend ?_ ?_)
    | (with_reducible refine (State.pend_of_mems (State.afterAck_mems ..)).trans ?_)
    | (with_reducible refine (State.pend_of_mems (State.dropAcked_mems ..)).trans ?_)
    | (with_reducible refine (State.badAckAt_pend ..).trans ?_)
    | (with_reducible refine (State.replay_pend ..).trans ?_) | with_reducible exact State.pend_self _ | dsimp only
    | split)

theorem State.nakFrom_canon {s : State} (hs : s.canon) (l : Nat) (seq : Nat) :
    ((State.nakFrom s l seq)).canon := by
  unfold State.nakFrom
  try dsimp only
  repeat' (first
    | with_reducible assumption | (simp only [State.canon_mk]; with_reducible refine State.canon_eta ?_)
    | (with_reducible refine ite_canon ?_ ?_)
    | (with_reducible refine State.canon_of_mems (State.afterAck_mems ..) ?_)
    | (with_reducible refine State.canon_of_mems (State.dropAcked_mems ..) ?_)
    | (with_reducible refine State.badAckAt_canon ?_ ..) | (with_reducible refine State.replay_canon ?_ ..)
    | dsimp only | split)

theorem execNak_pend {port : Nat} {lane : Nat} {seq : Nat} {s : State} {zt : State} (zh : execNak port lane seq s = .next zt) :
    zt.pend = s.pend := by
  unfold execNak at zh
  cases zh
  try dsimp only
  repeat' (first
    | with_reducible assumption | (simp only [State.pend_mk]; with_reducible refine (State.pend_eta _).trans ?_)
    | (with_reducible refine ite_pend ?_ ?_) | (with_reducible refine (State.nakFrom_pend ..).trans ?_)
    | with_reducible exact State.pend_self _ | dsimp only | split)

theorem execNak_canon {port : Nat} {lane : Nat} {seq : Nat} {s : State} {zt : State} (hs : s.canon) (zh : execNak port lane seq s = .next zt) :
    zt.canon := by
  unfold execNak at zh
  cases zh
  try dsimp only
  repeat' (first
    | with_reducible assumption | (simp only [State.canon_mk]; with_reducible refine State.canon_eta ?_)
    | (with_reducible refine ite_canon ?_ ?_) | (with_reducible refine State.nakFrom_canon ?_ ..) | dsimp only | split)

theorem execAckTimeout_pend {port : Nat} {lane : Nat} {s : State} {zt : State} (zh : execAckTimeout port lane s = .next zt) :
    zt.pend = s.pend := by
  unfold execAckTimeout at zh
  cases zh
  try dsimp only
  repeat' (first
    | with_reducible assumption | (simp only [State.pend_mk]; with_reducible refine (State.pend_eta _).trans ?_)
    | (with_reducible refine ite_pend ?_ ?_) | (with_reducible refine (State.replay_pend ..).trans ?_)
    | with_reducible exact State.pend_self _ | dsimp only | split)

theorem execAckTimeout_canon {port : Nat} {lane : Nat} {s : State} {zt : State} (hs : s.canon) (zh : execAckTimeout port lane s = .next zt) :
    zt.canon := by
  unfold execAckTimeout at zh
  cases zh
  try dsimp only
  repeat' (first
    | with_reducible assumption | (simp only [State.canon_mk]; with_reducible refine State.canon_eta ?_)
    | (with_reducible refine ite_canon ?_ ?_) | (with_reducible refine State.replay_canon ?_ ..) | dsimp only | split)

theorem execReplayBudgetExpiry_pend {port : Nat} {lane : Nat} {s : State} {zt : State} (zh : execReplayBudgetExpiry port lane s = .next zt) :
    zt.pend = s.pend := by
  unfold execReplayBudgetExpiry at zh
  cases zh
  try dsimp only
  repeat' (first
    | with_reducible assumption | (simp only [State.pend_mk]; with_reducible refine (State.pend_eta _).trans ?_)
    | (with_reducible refine ite_pend ?_ ?_) | (with_reducible refine (State.replay_pend ..).trans ?_)
    | (with_reducible refine (State.spendBudget_pend ..).trans ?_) | with_reducible exact State.pend_self _
    | dsimp only | split)

theorem execReplayBudgetExpiry_canon {port : Nat} {lane : Nat} {s : State} {zt : State} (hs : s.canon) (zh : execReplayBudgetExpiry port lane s = .next zt) :
    zt.canon := by
  unfold execReplayBudgetExpiry at zh
  cases zh
  try dsimp only
  repeat' (first
    | with_reducible assumption | (simp only [State.canon_mk]; with_reducible refine State.canon_eta ?_)
    | (with_reducible refine ite_canon ?_ ?_) | (with_reducible refine State.replay_canon ?_ ..)
    | (with_reducible refine State.spendBudget_canon ?_ ..) | dsimp only | split)

theorem execLinkDown_pend {port : Nat} {lane : Nat} {s : State} {zt : State} (zh : execLinkDown port lane s = .next zt) :
    zt.pend = s.pend := by
  unfold execLinkDown at zh
  cases zh
  try dsimp only
  repeat' (first
    | with_reducible assumption | (simp only [State.pend_mk]; with_reducible refine (State.pend_eta _).trans ?_)
    | (with_reducible refine ite_pend ?_ ?_) | (with_reducible refine (State.linkRetrain_pend ..).trans ?_)
    | with_reducible exact State.pend_self _ | dsimp only | split)

theorem execLinkDown_canon {port : Nat} {lane : Nat} {s : State} {zt : State} (hs : s.canon) (zh : execLinkDown port lane s = .next zt) :
    zt.canon := by
  unfold execLinkDown at zh
  cases zh
  try dsimp only
  repeat' (first
    | with_reducible assumption | (simp only [State.canon_mk]; with_reducible refine State.canon_eta ?_)
    | (with_reducible refine ite_canon ?_ ?_) | (with_reducible refine State.linkRetrain_canon ?_ ..) | dsimp only
    | split)

theorem execCreditReturnSend_mems {port : Nat} {lane : Nat} {s : State} {zt : State} (zh : execCreditReturnSend port lane s = .next zt) :
    zt.mems = s.mems := by
  unfold execCreditReturnSend at zh
  cases zh
  try dsimp only
  repeat' (first
    | with_reducible assumption | (simp only [State.mems_mk]; with_reducible refine (State.mems_eta _).trans ?_)
    | (with_reducible refine ite_mems ?_ ?_) | (with_reducible refine (State.sendCredits_mems ..).trans ?_)
    | with_reducible exact State.mems_self _ | dsimp only | split)

theorem State.takeCredits_mems (s : State) (k : Nat) (n : Nat) :
    ((State.takeCredits s k n)).mems = s.mems := by
  unfold State.takeCredits
  try dsimp only
  repeat' (first
    | with_reducible assumption | (simp only [State.mems_mk]; with_reducible refine (State.mems_eta _).trans ?_)
    | (with_reducible refine ite_mems ?_ ?_) | (with_reducible refine (State.startResync_mems ..).trans ?_)
    | (with_reducible refine (State.peerViol_mems ..).trans ?_)
    | (with_reducible refine (State.pump_mems ..).trans ?_) | (with_reducible refine (State.updKw_mems ..).trans ?_)
    | with_reducible exact State.mems_self _ | dsimp only | split)

theorem State.takeResync_mems (s : State) (k : Nat) (epoch : Nat) :
    ((State.takeResync s k epoch)).mems = s.mems := by
  unfold State.takeResync
  try dsimp only
  repeat' (first
    | with_reducible assumption | (simp only [State.mems_mk]; with_reducible refine (State.mems_eta _).trans ?_)
    | (with_reducible refine ite_mems ?_ ?_) | (with_reducible refine (State.answerResync_mems ..).trans ?_)
    | (with_reducible refine (State.updKw_mems ..).trans ?_) | with_reducible exact State.mems_self _ | dsimp only
    | split)

theorem State.takeResyncAck_mems (s : State) (k : Nat) (epoch : Nat) :
    ((State.takeResyncAck s k epoch)).mems = s.mems := by
  unfold State.takeResyncAck
  try dsimp only
  repeat' (first
    | with_reducible assumption | (simp only [State.mems_mk]; with_reducible refine (State.mems_eta _).trans ?_)
    | (with_reducible refine ite_mems ?_ ?_) | (with_reducible refine (State.sendKwCtl_mems ..).trans ?_)
    | (with_reducible refine (State.updKw_mems ..).trans ?_) | with_reducible exact State.mems_self _ | dsimp only
    | split)

theorem State.takeResyncSet_mems (s : State) (k : Nat) (epoch : Nat) (n : Nat) :
    ((State.takeResyncSet s k epoch n)).mems = s.mems := by
  unfold State.takeResyncSet
  try dsimp only
  repeat' (first
    | with_reducible assumption | (simp only [State.mems_mk]; with_reducible refine (State.mems_eta _).trans ?_)
    | (with_reducible refine ite_mems ?_ ?_) | (with_reducible refine (State.pump_mems ..).trans ?_)
    | (with_reducible refine (State.updKw_mems ..).trans ?_) | with_reducible exact State.mems_self _ | dsimp only
    | split)

theorem State.resetCredits_mems (s : State) (k : Nat) (epoch : Nat) :
    ((State.resetCredits s k epoch)).mems = s.mems := by
  unfold State.resetCredits
  try dsimp only
  repeat' (first
    | with_reducible assumption | (simp only [State.mems_mk]; with_reducible refine (State.mems_eta _).trans ?_)
    | (with_reducible refine ite_mems ?_ ?_) | (with_reducible refine (State.sendKwCtl_mems ..).trans ?_)
    | (with_reducible refine (State.updKw_mems ..).trans ?_) | (with_reducible refine (State.bump_mems ..).trans ?_)
    | with_reducible exact State.mems_self _ | dsimp only | split)

theorem State.takeReset_mems (s : State) (k : Nat) (epoch : Nat) :
    ((State.takeReset s k epoch)).mems = s.mems := by
  unfold State.takeReset
  try dsimp only
  repeat' (first
    | with_reducible assumption | (simp only [State.mems_mk]; with_reducible refine (State.mems_eta _).trans ?_)
    | (with_reducible refine ite_mems ?_ ?_) | (with_reducible refine (State.resetCredits_mems ..).trans ?_)
    | (with_reducible refine (State.reissueKw_mems ..).trans ?_)
    | (with_reducible refine (State.clearKw_mems ..).trans ?_)
    | (with_reducible refine (State.sendKwCtl_mems ..).trans ?_)
    | (with_reducible refine (State.updKw_mems ..).trans ?_) | (with_reducible refine (State.bump_mems ..).trans ?_)
    | with_reducible exact State.mems_self _ | dsimp only | split)

theorem State.takeResetAck_mems (s : State) (k : Nat) (epoch : Nat) :
    ((State.takeResetAck s k epoch)).mems = s.mems := by
  unfold State.takeResetAck
  try dsimp only
  repeat' (first
    | with_reducible assumption | (simp only [State.mems_mk]; with_reducible refine (State.mems_eta _).trans ?_)
    | (with_reducible refine ite_mems ?_ ?_) | (with_reducible refine (State.resetCredits_mems ..).trans ?_)
    | (with_reducible refine (State.updKw_mems ..).trans ?_) | with_reducible exact State.mems_self _ | dsimp only
    | split)

theorem State.takeKwNak_pend (s : State) (k : Nat) (code : Nat) (txn : Nat) :
    ((State.takeKwNak s k code txn)).pend = s.pend := by
  unfold State.takeKwNak
  try dsimp only
  repeat' (first
    | with_reducible assumption | (simp only [State.pend_mk]; with_reducible refine (State.pend_eta _).trans ?_)
    | (with_reducible refine ite_pend ?_ ?_) | (with_reducible refine (State.nakEnd_pend ..).trans ?_)
    | with_reducible exact State.pend_self _ | dsimp only | split)

theorem State.takeKwNak_canon {s : State} (hs : s.canon) (k : Nat) (code : Nat) (txn : Nat) :
    ((State.takeKwNak s k code txn)).canon := by
  unfold State.takeKwNak
  try dsimp only
  repeat' (first
    | with_reducible assumption | (simp only [State.canon_mk]; with_reducible refine State.canon_eta ?_)
    | (with_reducible refine ite_canon ?_ ?_) | (with_reducible refine State.nakEnd_canon ?_ ..) | dsimp only | split)

theorem State.kwControl_pend (s : State) (k : Nat) (payload : List Nat) :
    ((State.kwControl s k payload)).pend = s.pend := by
  unfold State.kwControl
  try dsimp only
  repeat' (first
    | with_reducible assumption | (simp only [State.pend_mk]; with_reducible refine (State.pend_eta _).trans ?_)
    | (with_reducible refine ite_pend ?_ ?_) | (with_reducible refine (State.takeKwNak_pend ..).trans ?_)
    | (with_reducible refine (State.pend_of_mems (State.takeResetAck_mems ..)).trans ?_)
    | (with_reducible refine (State.pend_of_mems (State.takeReset_mems ..)).trans ?_)
    | (with_reducible refine (State.pend_of_mems (State.takeResyncSet_mems ..)).trans ?_)
    | (with_reducible refine (State.pend_of_mems (State.takeResyncAck_mems ..)).trans ?_)
    | (with_reducible refine (State.pend_of_mems (State.takeResync_mems ..)).trans ?_)
    | (with_reducible refine (State.pend_of_mems (State.peerViol_mems ..)).trans ?_)
    | (with_reducible refine (State.pend_of_mems (State.sendKwCtl_mems ..)).trans ?_)
    | with_reducible exact State.pend_self _ | dsimp only | split)

theorem State.kwControl_canon {s : State} (hs : s.canon) (k : Nat) (payload : List Nat) :
    ((State.kwControl s k payload)).canon := by
  unfold State.kwControl
  try dsimp only
  repeat' (first
    | with_reducible assumption | (simp only [State.canon_mk]; with_reducible refine State.canon_eta ?_)
    | (with_reducible refine ite_canon ?_ ?_) | (with_reducible refine State.takeKwNak_canon ?_ ..)
    | (with_reducible refine State.canon_of_mems (State.takeResetAck_mems ..) ?_)
    | (with_reducible refine State.canon_of_mems (State.takeReset_mems ..) ?_)
    | (with_reducible refine State.canon_of_mems (State.takeResyncSet_mems ..) ?_)
    | (with_reducible refine State.canon_of_mems (State.takeResyncAck_mems ..) ?_)
    | (with_reducible refine State.canon_of_mems (State.takeResync_mems ..) ?_)
    | (with_reducible refine State.canon_of_mems (State.peerViol_mems ..) ?_)
    | (with_reducible refine State.canon_of_mems (State.sendKwCtl_mems ..) ?_) | dsimp only | split)

theorem execResync_pend {port : Nat} {kw : Nat} {epoch : Nat} {s : State} {zt : State} (zh : execResync port kw epoch s = .next zt) :
    zt.pend = s.pend := by
  unfold execResync at zh
  cases zh
  try dsimp only
  repeat' (first
    | with_reducible assumption | (simp only [State.pend_mk]; with_reducible refine (State.pend_eta _).trans ?_)
    | (with_reducible refine ite_pend ?_ ?_) | (with_reducible refine (State.kwControl_pend ..).trans ?_)
    | with_reducible exact State.pend_self _ | dsimp only | split)

theorem execResync_canon {port : Nat} {kw : Nat} {epoch : Nat} {s : State} {zt : State} (hs : s.canon) (zh : execResync port kw epoch s = .next zt) :
    zt.canon := by
  unfold execResync at zh
  cases zh
  try dsimp only
  repeat' (first
    | with_reducible assumption | (simp only [State.canon_mk]; with_reducible refine State.canon_eta ?_)
    | (with_reducible refine ite_canon ?_ ?_) | (with_reducible refine State.kwControl_canon ?_ ..) | dsimp only
    | split)

theorem execResyncAck_pend {port : Nat} {kw : Nat} {epoch : Nat} {credits : Nat} {s : State} {zt : State} (zh : execResyncAck port kw epoch credits s = .next zt) :
    zt.pend = s.pend := by
  unfold execResyncAck at zh
  cases zh
  try dsimp only
  repeat' (first
    | with_reducible assumption | (simp only [State.pend_mk]; with_reducible refine (State.pend_eta _).trans ?_)
    | (with_reducible refine ite_pend ?_ ?_) | (with_reducible refine (State.kwControl_pend ..).trans ?_)
    | with_reducible exact State.pend_self _ | dsimp only | split)

theorem execResyncAck_canon {port : Nat} {kw : Nat} {epoch : Nat} {credits : Nat} {s : State} {zt : State} (hs : s.canon) (zh : execResyncAck port kw epoch credits s = .next zt) :
    zt.canon := by
  unfold execResyncAck at zh
  cases zh
  try dsimp only
  repeat' (first
    | with_reducible assumption | (simp only [State.canon_mk]; with_reducible refine State.canon_eta ?_)
    | (with_reducible refine ite_canon ?_ ?_) | (with_reducible refine State.kwControl_canon ?_ ..) | dsimp only
    | split)

theorem execResyncSet_pend {port : Nat} {kw : Nat} {epoch : Nat} {credits : Nat} {s : State} {zt : State} (zh : execResyncSet port kw epoch credits s = .next zt) :
    zt.pend = s.pend := by
  unfold execResyncSet at zh
  cases zh
  try dsimp only
  repeat' (first
    | with_reducible assumption | (simp only [State.pend_mk]; with_reducible refine (State.pend_eta _).trans ?_)
    | (with_reducible refine ite_pend ?_ ?_) | (with_reducible refine (State.kwControl_pend ..).trans ?_)
    | with_reducible exact State.pend_self _ | dsimp only | split)

theorem execResyncSet_canon {port : Nat} {kw : Nat} {epoch : Nat} {credits : Nat} {s : State} {zt : State} (hs : s.canon) (zh : execResyncSet port kw epoch credits s = .next zt) :
    zt.canon := by
  unfold execResyncSet at zh
  cases zh
  try dsimp only
  repeat' (first
    | with_reducible assumption | (simp only [State.canon_mk]; with_reducible refine State.canon_eta ?_)
    | (with_reducible refine ite_canon ?_ ?_) | (with_reducible refine State.kwControl_canon ?_ ..) | dsimp only
    | split)

theorem execReset_pend {port : Nat} {kw : Nat} {epoch : Nat} {s : State} {zt : State} (zh : execReset port kw epoch s = .next zt) :
    zt.pend = s.pend := by
  unfold execReset at zh
  cases zh
  try dsimp only
  repeat' (first
    | with_reducible assumption | (simp only [State.pend_mk]; with_reducible refine (State.pend_eta _).trans ?_)
    | (with_reducible refine ite_pend ?_ ?_) | (with_reducible refine (State.kwControl_pend ..).trans ?_)
    | with_reducible exact State.pend_self _ | dsimp only | split)

theorem execReset_canon {port : Nat} {kw : Nat} {epoch : Nat} {s : State} {zt : State} (hs : s.canon) (zh : execReset port kw epoch s = .next zt) :
    zt.canon := by
  unfold execReset at zh
  cases zh
  try dsimp only
  repeat' (first
    | with_reducible assumption | (simp only [State.canon_mk]; with_reducible refine State.canon_eta ?_)
    | (with_reducible refine ite_canon ?_ ?_) | (with_reducible refine State.kwControl_canon ?_ ..) | dsimp only
    | split)

theorem execResetAck_pend {port : Nat} {kw : Nat} {epoch : Nat} {s : State} {zt : State} (zh : execResetAck port kw epoch s = .next zt) :
    zt.pend = s.pend := by
  unfold execResetAck at zh
  cases zh
  try dsimp only
  repeat' (first
    | with_reducible assumption | (simp only [State.pend_mk]; with_reducible refine (State.pend_eta _).trans ?_)
    | (with_reducible refine ite_pend ?_ ?_) | (with_reducible refine (State.kwControl_pend ..).trans ?_)
    | with_reducible exact State.pend_self _ | dsimp only | split)

theorem execResetAck_canon {port : Nat} {kw : Nat} {epoch : Nat} {s : State} {zt : State} (hs : s.canon) (zh : execResetAck port kw epoch s = .next zt) :
    zt.canon := by
  unfold execResetAck at zh
  cases zh
  try dsimp only
  repeat' (first
    | with_reducible assumption | (simp only [State.canon_mk]; with_reducible refine State.canon_eta ?_)
    | (with_reducible refine ite_canon ?_ ?_) | (with_reducible refine State.kwControl_canon ?_ ..) | dsimp only
    | split)

theorem execKwNak_pend {port : Nat} {kw : Nat} {code : Nat} {txn : Nat} {gen : Nat} {s : State} {zt : State} (zh : execKwNak port kw code txn gen s = .next zt) :
    zt.pend = s.pend := by
  unfold execKwNak at zh
  cases zh
  try dsimp only
  repeat' (first
    | with_reducible assumption | (simp only [State.pend_mk]; with_reducible refine (State.pend_eta _).trans ?_)
    | (with_reducible refine ite_pend ?_ ?_) | (with_reducible refine (State.kwControl_pend ..).trans ?_)
    | with_reducible exact State.pend_self _ | dsimp only | split)

theorem execKwNak_canon {port : Nat} {kw : Nat} {code : Nat} {txn : Nat} {gen : Nat} {s : State} {zt : State} (hs : s.canon) (zh : execKwNak port kw code txn gen s = .next zt) :
    zt.canon := by
  unfold execKwNak at zh
  cases zh
  try dsimp only
  repeat' (first
    | with_reducible assumption | (simp only [State.canon_mk]; with_reducible refine State.canon_eta ?_)
    | (with_reducible refine ite_canon ?_ ?_) | (with_reducible refine State.kwControl_canon ?_ ..) | dsimp only
    | split)

theorem State.assemble_mems (s : State) (o : Nat) (c : Nat) (x3 : Nat) :
    ((State.assemble s o c x3)).mems = s.mems := by
  induction x3 generalizing s o c with
  | zero =>
    unfold State.assemble
    try dsimp only
    repeat' (first
      | with_reducible assumption | (simp only [State.mems_mk]; with_reducible refine (State.mems_eta _).trans ?_)
      | (with_reducible refine ite_mems ?_ ?_) | (with_reducible refine (State.startReset_mems ..).trans ?_)
      | (with_reducible refine (State.clearKw_mems ..).trans ?_)
      | (with_reducible refine (State.peerViol_mems ..).trans ?_)
      | (with_reducible refine (State.pushIn_mems ..).trans ?_)
      | (with_reducible refine (State.updKw_mems ..).trans ?_) | with_reducible exact State.mems_self _ | dsimp only
      | split)
  | succ x3 ih =>
    unfold State.assemble
    try dsimp only
    repeat' (first
      | with_reducible assumption | (with_reducible refine (ih ..).trans ?_)
      | (simp only [State.mems_mk]; with_reducible refine (State.mems_eta _).trans ?_)
      | (with_reducible refine ite_mems ?_ ?_) | (with_reducible refine (State.startReset_mems ..).trans ?_)
      | (with_reducible refine (State.clearKw_mems ..).trans ?_)
      | (with_reducible refine (State.peerViol_mems ..).trans ?_)
      | (with_reducible refine (State.pushIn_mems ..).trans ?_)
      | (with_reducible refine (State.updKw_mems ..).trans ?_) | with_reducible exact State.mems_self _ | dsimp only
      | split)

theorem State.freeSlot_mems (s : State) (k : Nat) :
    ((State.freeSlot s k)).mems = s.mems := by
  unfold State.freeSlot
  try dsimp only
  repeat' (first
    | with_reducible assumption | (simp only [State.mems_mk]; with_reducible refine (State.mems_eta _).trans ?_)
    | (with_reducible refine ite_mems ?_ ?_) | (with_reducible refine (State.updKw_mems ..).trans ?_)
    | with_reducible exact State.mems_self _ | dsimp only | split)

theorem State.takeData_mems (s : State) (l : Nat) (k : Nat) (kseq : Nat) (payload : List Nat) :
    ((State.takeData s l k kseq payload)).mems = s.mems := by
  unfold State.takeData
  try dsimp only
  repeat' (first
    | with_reducible assumption | (simp only [State.mems_mk]; with_reducible refine (State.mems_eta _).trans ?_)
    | (with_reducible refine ite_mems ?_ ?_) | (with_reducible refine (State.freeSlot_mems ..).trans ?_)
    | (with_reducible refine (State.assemble_mems ..).trans ?_)
    | (with_reducible refine (State.startResync_mems ..).trans ?_)
    | (with_reducible refine (State.peerViol_mems ..).trans ?_)
    | (with_reducible refine (State.pump_mems ..).trans ?_) | (with_reducible refine (State.sendSeq_mems ..).trans ?_)
    | (with_reducible refine (State.updKw_mems ..).trans ?_) | (with_reducible refine (State.bump_mems ..).trans ?_)
    | with_reducible exact State.mems_self _ | dsimp only | split)

theorem State.takeSeq_pend (s : State) (l : Nat) (typ : Nat) (seq : Nat) (kw : Nat) (kseq : Nat) (payload : List Nat) :
    ((State.takeSeq s l typ seq kw kseq payload)).pend = s.pend := by
  unfold State.takeSeq
  try dsimp only
  repeat' (first
    | with_reducible assumption | (simp only [State.pend_mk]; with_reducible refine (State.pend_eta _).trans ?_)
    | (with_reducible refine ite_pend ?_ ?_)
    | (with_reducible refine (State.pend_of_mems (State.takeData_mems ..)).trans ?_)
    | (with_reducible refine (State.kwControl_pend ..).trans ?_)
    | (with_reducible refine (State.pend_of_mems (State.eventOver_mems ..)).trans ?_)
    | (with_reducible refine (State.linkRetrain_pend ..).trans ?_)
    | (with_reducible refine (State.pend_of_mems (State.peerViol_mems ..)).trans ?_)
    | (with_reducible refine (State.pend_of_mems (State.sendNak_mems ..)).trans ?_)
    | (with_reducible refine (State.pend_of_mems (State.updLink_mems ..)).trans ?_)
    | (with_reducible refine (State.pend_of_mems (State.bump_mems ..)).trans ?_)
    | with_reducible exact State.pend_self _ | dsimp only | split)

theorem State.takeSeq_canon {s : State} (hs : s.canon) (l : Nat) (typ : Nat) (seq : Nat) (kw : Nat) (kseq : Nat) (payload : List Nat) :
    ((State.takeSeq s l typ seq kw kseq payload)).canon := by
  unfold State.takeSeq
  try dsimp only
  repeat' (first
    | with_reducible assumption | (simp only [State.canon_mk]; with_reducible refine State.canon_eta ?_)
    | (with_reducible refine ite_canon ?_ ?_)
    | (with_reducible refine State.canon_of_mems (State.takeData_mems ..) ?_)
    | (with_reducible refine State.kwControl_canon ?_ ..)
    | (with_reducible refine State.canon_of_mems (State.eventOver_mems ..) ?_)
    | (with_reducible refine State.linkRetrain_canon ?_ ..)
    | (with_reducible refine State.canon_of_mems (State.peerViol_mems ..) ?_)
    | (with_reducible refine State.canon_of_mems (State.sendNak_mems ..) ?_)
    | (with_reducible refine State.canon_of_mems (State.updLink_mems ..) ?_)
    | (with_reducible refine State.canon_of_mems (State.bump_mems ..) ?_) | dsimp only | split)

theorem State.takeCtrl_pend (s : State) (l : Nat) (payload : List Nat) :
    ((State.takeCtrl s l payload)).pend = s.pend := by
  unfold State.takeCtrl
  try dsimp only
  repeat' (first
    | with_reducible assumption | (simp only [State.pend_mk]; with_reducible refine (State.pend_eta _).trans ?_)
    | (with_reducible refine ite_pend ?_ ?_) | (with_reducible refine (State.linkRetrain_pend ..).trans ?_)
    | (with_reducible refine (State.pend_of_mems (State.peerViol_mems ..)).trans ?_)
    | (with_reducible refine (State.pend_of_mems (State.updLink_mems ..)).trans ?_)
    | with_reducible exact State.pend_self _ | dsimp only | split)

theorem State.takeCtrl_canon {s : State} (hs : s.canon) (l : Nat) (payload : List Nat) :
    ((State.takeCtrl s l payload)).canon := by
  unfold State.takeCtrl
  try dsimp only
  repeat' (first
    | with_reducible assumption | (simp only [State.canon_mk]; with_reducible refine State.canon_eta ?_)
    | (with_reducible refine ite_canon ?_ ?_) | (with_reducible refine State.linkRetrain_canon ?_ ..)
    | (with_reducible refine State.canon_of_mems (State.peerViol_mems ..) ?_)
    | (with_reducible refine State.canon_of_mems (State.updLink_mems ..) ?_) | dsimp only | split)

theorem State.takeFlit_pend (s : State) (l : Nat) (b : List Nat) :
    ((State.takeFlit s l b)).pend = s.pend := by
  unfold State.takeFlit
  try dsimp only
  repeat' (first
    | with_reducible assumption | (simp only [State.pend_mk]; with_reducible refine (State.pend_eta _).trans ?_)
    | (with_reducible refine ite_pend ?_ ?_) | (with_reducible refine (State.takeCtrl_pend ..).trans ?_)
    | (with_reducible refine (State.takeSeq_pend ..).trans ?_)
    | (with_reducible refine (State.pend_of_mems (State.takeCredits_mems ..)).trans ?_)
    | (with_reducible refine (State.nakFrom_pend ..).trans ?_)
    | (with_reducible refine (State.ackTo_pend ..).trans ?_)
    | (with_reducible refine (State.badAckAt_pend ..).trans ?_)
    | (with_reducible refine (State.pend_of_mems (State.peerViol_mems ..)).trans ?_)
    | (with_reducible refine (State.pend_of_mems (State.sendNak_mems ..)).trans ?_)
    | (with_reducible refine (State.pend_of_mems (State.bump_mems ..)).trans ?_)
    | with_reducible exact State.pend_self _ | dsimp only | split)

theorem State.takeFlit_canon {s : State} (hs : s.canon) (l : Nat) (b : List Nat) :
    ((State.takeFlit s l b)).canon := by
  unfold State.takeFlit
  try dsimp only
  repeat' (first
    | with_reducible assumption | (simp only [State.canon_mk]; with_reducible refine State.canon_eta ?_)
    | (with_reducible refine ite_canon ?_ ?_) | (with_reducible refine State.takeCtrl_canon ?_ ..)
    | (with_reducible refine State.takeSeq_canon ?_ ..)
    | (with_reducible refine State.canon_of_mems (State.takeCredits_mems ..) ?_)
    | (with_reducible refine State.nakFrom_canon ?_ ..) | (with_reducible refine State.ackTo_canon ?_ ..)
    | (with_reducible refine State.badAckAt_canon ?_ ..)
    | (with_reducible refine State.canon_of_mems (State.peerViol_mems ..) ?_)
    | (with_reducible refine State.canon_of_mems (State.sendNak_mems ..) ?_)
    | (with_reducible refine State.canon_of_mems (State.bump_mems ..) ?_) | dsimp only | split)

theorem execFlitReceive_pend {port : Nat} {lane : Nat} {bytes : List Nat} {s : State} {zt : State} (zh : execFlitReceive port lane bytes s = .next zt) :
    zt.pend = s.pend := by
  unfold execFlitReceive at zh
  cases zh
  try dsimp only
  repeat' (first
    | with_reducible assumption | (simp only [State.pend_mk]; with_reducible refine (State.pend_eta _).trans ?_)
    | (with_reducible refine ite_pend ?_ ?_) | (with_reducible refine (State.takeFlit_pend ..).trans ?_)
    | with_reducible exact State.pend_self _ | dsimp only | split)

theorem execFlitReceive_canon {port : Nat} {lane : Nat} {bytes : List Nat} {s : State} {zt : State} (hs : s.canon) (zh : execFlitReceive port lane bytes s = .next zt) :
    zt.canon := by
  unfold execFlitReceive at zh
  cases zh
  try dsimp only
  repeat' (first
    | with_reducible assumption | (simp only [State.canon_mk]; with_reducible refine State.canon_eta ?_)
    | (with_reducible refine ite_canon ?_ ?_) | (with_reducible refine State.takeFlit_canon ?_ ..) | dsimp only
    | split)

theorem execFrameReceive_pend {port : Nat} {lane : Nat} {corrected : Nat} {flits : List (List Nat)} {uncorrectable : Bool} {s : State} {zt : State} (zh : execFrameReceive port lane corrected flits uncorrectable s = .next zt) :
    zt.pend = s.pend := by
  unfold execFrameReceive at zh
  cases zh
  try dsimp only
  repeat' (first
    | with_reducible assumption | (simp only [State.pend_mk]; with_reducible refine (State.pend_eta _).trans ?_)
    | (with_reducible refine ite_pend ?_ ?_) | (with_reducible refine (State.takeFlit_pend ..).trans ?_)
    | (with_reducible refine (State.failLane_pend ..).trans ?_)
    | (with_reducible refine (State.pend_of_mems (State.sendNak_mems ..)).trans ?_)
    | (with_reducible refine (State.pend_of_mems (State.openEpisode_mems ..)).trans ?_)
    | (with_reducible refine (State.pend_of_mems (State.setPLane_mems ..)).trans ?_)
    | (with_reducible refine (State.pend_of_mems (State.bump_mems ..)).trans ?_)
    | (with_reducible refine (forEach_pend (fun _ _ => ?_) ..).trans ?_) | with_reducible exact State.pend_self _
    | dsimp only | split)

theorem execFrameReceive_canon {port : Nat} {lane : Nat} {corrected : Nat} {flits : List (List Nat)} {uncorrectable : Bool} {s : State} {zt : State} (hs : s.canon) (zh : execFrameReceive port lane corrected flits uncorrectable s = .next zt) :
    zt.canon := by
  unfold execFrameReceive at zh
  cases zh
  try dsimp only
  repeat' (first
    | with_reducible assumption | (simp only [State.canon_mk]; with_reducible refine State.canon_eta ?_)
    | (with_reducible refine ite_canon ?_ ?_) | (with_reducible refine State.takeFlit_canon ?_ ..)
    | (with_reducible refine State.failLane_canon ?_ ..)
    | (with_reducible refine State.canon_of_mems (State.sendNak_mems ..) ?_)
    | (with_reducible refine State.canon_of_mems (State.openEpisode_mems ..) ?_)
    | (with_reducible refine State.canon_of_mems (State.setPLane_mems ..) ?_)
    | (with_reducible refine State.canon_of_mems (State.bump_mems ..) ?_)
    | (with_reducible refine forEach_canon (fun _ _ _ => ?_) ?_ ..) | dsimp only | split)

theorem execRefclkLoss_pend {offset : Nat} {s : State} {zt : State} (zh : execRefclkLoss offset s = .next zt) :
    zt.pend = s.pend := by
  unfold execRefclkLoss at zh
  cases zh
  try dsimp only
  repeat' (first
    | with_reducible assumption | (simp only [State.pend_mk]; with_reducible refine (State.pend_eta _).trans ?_)
    | (with_reducible refine ite_pend ?_ ?_) | (with_reducible refine (State.linkFail_pend ..).trans ?_)
    | (with_reducible refine (State.pend_of_mems (State.updTier_mems ..)).trans ?_)
    | (with_reducible refine (State.pend_of_mems (State.setPLane_mems ..)).trans ?_)
    | (with_reducible refine (State.pend_of_mems (State.queue_mems ..)).trans ?_)
    | (with_reducible refine (State.pend_of_mems (State.wrF_mems ..)).trans ?_)
    | (with_reducible refine (forUpTo_pend (fun _ _ => ?_) ..).trans ?_) | with_reducible exact State.pend_self _
    | dsimp only | split)

theorem execRefclkLoss_canon {offset : Nat} {s : State} {zt : State} (hs : s.canon) (zh : execRefclkLoss offset s = .next zt) :
    zt.canon := by
  unfold execRefclkLoss at zh
  cases zh
  try dsimp only
  repeat' (first
    | with_reducible assumption | (simp only [State.canon_mk]; with_reducible refine State.canon_eta ?_)
    | (with_reducible refine ite_canon ?_ ?_) | (with_reducible refine State.linkFail_canon ?_ ..)
    | (with_reducible refine State.canon_of_mems (State.updTier_mems ..) ?_)
    | (with_reducible refine State.canon_of_mems (State.setPLane_mems ..) ?_)
    | (with_reducible refine State.canon_of_mems (State.queue_mems ..) ?_)
    | (with_reducible refine State.canon_of_mems (State.wrF_mems ..) ?_)
    | (with_reducible refine forUpTo_canon (fun _ _ _ => ?_) ?_ ..) | dsimp only | split)

theorem execCtrlPlaneScrub_pend {port : Nat} {causes : List Nat} {s : State} {zt : State} (zh : execCtrlPlaneScrub port causes s = .next zt) :
    zt.pend = s.pend := by
  unfold execCtrlPlaneScrub at zh
  cases zh
  try dsimp only
  repeat' (first
    | with_reducible assumption | (simp only [State.pend_mk]; with_reducible refine (State.pend_eta _).trans ?_)
    | (with_reducible refine ite_pend ?_ ?_) | (with_reducible refine (State.linkRetrain_pend ..).trans ?_)
    | (with_reducible refine (State.pend_of_mems (State.queueAs_mems ..)).trans ?_)
    | (with_reducible refine (State.pend_of_mems (State.bump_mems ..)).trans ?_)
    | (with_reducible refine (forEach_pend (fun _ _ => ?_) ..).trans ?_) | with_reducible exact State.pend_self _
    | dsimp only | split)

theorem execCtrlPlaneScrub_canon {port : Nat} {causes : List Nat} {s : State} {zt : State} (hs : s.canon) (zh : execCtrlPlaneScrub port causes s = .next zt) :
    zt.canon := by
  unfold execCtrlPlaneScrub at zh
  cases zh
  try dsimp only
  repeat' (first
    | with_reducible assumption | (simp only [State.canon_mk]; with_reducible refine State.canon_eta ?_)
    | (with_reducible refine ite_canon ?_ ?_) | (with_reducible refine State.linkRetrain_canon ?_ ..)
    | (with_reducible refine State.canon_of_mems (State.queueAs_mems ..) ?_)
    | (with_reducible refine State.canon_of_mems (State.bump_mems ..) ?_)
    | (with_reducible refine forEach_canon (fun _ _ _ => ?_) ?_ ..) | dsimp only | split)

end Sys2Proof.Machine
end

