-- ==== Sys2Proof/Laws/FrameImage.lean ====
section
/-! SUPPORT. Frames of Machine/Image.lean: what each operation and command leaves alone of the memories and the queue. -/

set_option linter.all false

namespace Sys2Proof.Machine

theorem State.checkImage_mems (s : State) (h : List Nat) (secs : List (List Nat)) (announced : List Nat) :
    ((State.checkImage s h secs announced).1).mems = s.mems := by
  unfold State.checkImage
  try dsimp only
  repeat' (first
    | with_reducible assumption | (simp only [State.mems_mk]; with_reducible refine (State.mems_eta _).trans ?_)
    | (with_reducible refine ite_mems ?_ ?_) | (with_reducible refine (State.verify_mems ..).trans ?_)
    | (with_reducible refine (State.verify_mems' (by assumption)).trans ?_)
    | (with_reducible refine (State.rejected_mems ..).trans ?_) | with_reducible exact State.mems_self _ | dsimp only
    | split)
theorem State.checkImage_mems' {s : State} {h : List Nat} {secs : List (List Nat)} {announced : List Nat} {zr} {zq : State}
    (zh : (State.checkImage s h secs announced) = (zq, zr)) : zq.mems = s.mems := by
  have := (State.checkImage_mems s h secs announced)
  rw [zh] at this
  exact this

theorem State.placeBytes_pend (s : State) (a : Nat) (bs : List Nat) (tag : Nat) :
    ((State.placeBytes s a bs tag)).pend = s.pend := by
  unfold State.placeBytes
  try dsimp only
  repeat' (first
    | with_reducible assumption | (simp only [State.pend_mk]; with_reducible refine (State.pend_eta _).trans ?_)
    | (with_reducible refine ite_pend ?_ ?_) | (with_reducible refine (State.writeReg_pend ..).trans ?_)
    | (with_reducible refine (State.writeReg_pend' (by assumption)).trans ?_)
    | (with_reducible refine (State.pend_of_mems (State.hostBound_mems ..)).trans ?_)
    | (with_reducible refine (State.pend_of_mems (State.hostBound_mems' (by assumption))).trans ?_)
    | (with_reducible refine (State.writeAt_pend ..).trans ?_)
    | (with_reducible refine (State.pend_of_mems (State.hubAddrViol_mems ..)).trans ?_)
    | (with_reducible refine (forUpTo_pend (fun _ _ => ?_) ..).trans ?_) | with_reducible exact State.pend_self _
    | dsimp only | split)

theorem State.placeBytes_canon {s : State} (hs : s.canon) (a : Nat) (bs : List Nat) (tag : Nat) :
    ((State.placeBytes s a bs tag)).canon := by
  unfold State.placeBytes
  try dsimp only
  repeat' (first
    | with_reducible assumption | (simp only [State.canon_mk]; with_reducible refine State.canon_eta ?_)
    | (with_reducible refine ite_canon ?_ ?_) | (with_reducible refine State.writeReg_canon ?_ ..)
    | (with_reducible refine State.writeReg_canon' (by assumption) ?_)
    | (with_reducible refine State.canon_of_mems (State.hostBound_mems ..) ?_)
    | (with_reducible refine State.canon_of_mems (State.hostBound_mems' (by assumption)) ?_)
    | (with_reducible refine State.writeAt_canon ?_ ..)
    | (with_reducible refine State.canon_of_mems (State.hubAddrViol_mems ..) ?_)
    | (with_reducible refine forUpTo_canon (fun _ _ _ => ?_) ?_ ..) | dsimp only | split)

theorem State.regLoad_pend (s : State) (reset : Bool) (b : List Nat) :
    ((State.regLoad s reset b)).pend = s.pend := by
  unfold State.regLoad
  try dsimp only
  repeat' (first
    | with_reducible assumption | (simp only [State.pend_mk]; with_reducible refine (State.pend_eta _).trans ?_)
    | (with_reducible refine ite_pend ?_ ?_) | (with_reducible refine (State.writeSlot_pend ..).trans ?_)
    | (with_reducible refine (State.pend_of_mems (State.viol_mems ..)).trans ?_)
    | (with_reducible refine (forUpTo_pend (fun _ _ => ?_) ..).trans ?_) | with_reducible exact State.pend_self _
    | dsimp only | split)

theorem State.regLoad_canon {s : State} (hs : s.canon) (reset : Bool) (b : List Nat) :
    ((State.regLoad s reset b)).canon := by
  unfold State.regLoad
  try dsimp only
  repeat' (first
    | with_reducible assumption | (simp only [State.canon_mk]; with_reducible refine State.canon_eta ?_)
    | (with_reducible refine ite_canon ?_ ?_) | (with_reducible refine State.writeSlot_canon ?_ ..)
    | (with_reducible refine State.canon_of_mems (State.viol_mems ..) ?_)
    | (with_reducible refine forUpTo_canon (fun _ _ _ => ?_) ?_ ..) | dsimp only | split)

theorem State.kwLoad_mems (s : State) (port : Nat) :
    ((State.kwLoad s port)).mems = s.mems := by
  unfold State.kwLoad
  try dsimp only
  repeat' (first
    | with_reducible assumption | (simp only [State.mems_mk]; with_reducible refine (State.mems_eta _).trans ?_)
    | (with_reducible refine ite_mems ?_ ?_) | (with_reducible refine (State.updPrg_mems ..).trans ?_)
    | (with_reducible refine (State.viol_mems ..).trans ?_)
    | (with_reducible refine (forUpTo_mems (fun _ _ => ?_) ..).trans ?_)
    | (with_reducible refine (foldl_mems (fun _ _ => ?_) ..).trans ?_)
    | (with_reducible refine (foldl1_mems (fun _ _ => ?_) ..).trans ?_) | with_reducible exact State.mems_self _
    | dsimp only | split)

theorem State.routeLoad_mems (s : State) :
    ((State.routeLoad s)).mems = s.mems := by
  unfold State.routeLoad
  try dsimp only
  repeat' (first
    | with_reducible assumption | (simp only [State.mems_mk]; with_reducible refine (State.mems_eta _).trans ?_)
    | (with_reducible refine ite_mems ?_ ?_) | (with_reducible refine (State.islViol_mems ..).trans ?_)
    | (with_reducible refine (State.updPrg_mems ..).trans ?_)
    | (with_reducible refine (forEach_mems (fun _ _ => ?_) ..).trans ?_)
    | (with_reducible refine (forUpTo_mems (fun _ _ => ?_) ..).trans ?_) | with_reducible exact State.mems_self _
    | dsimp only | split)

theorem State.tierReload_mems (s : State) :
    ((State.tierReload s)).mems = s.mems := by
  unfold State.tierReload
  try dsimp only
  repeat' (first
    | with_reducible assumption | (simp only [State.mems_mk]; with_reducible refine (State.mems_eta _).trans ?_)
    | (with_reducible refine ite_mems ?_ ?_) | (with_reducible refine (State.tierLoad_mems ..).trans ?_)
    | (with_reducible refine (State.setObj_mems ..).trans ?_)
    | (with_reducible refine (State.setFrame_mems ..).trans ?_)
    | (with_reducible refine (forEach_mems (fun _ _ => ?_) ..).trans ?_) | with_reducible exact State.mems_self _
    | dsimp only | split)

theorem State.retagShard_pend (s : State) (tag : Nat) (x : Shard) :
    ((State.retagShard s tag x)).pend = s.pend := by
  unfold State.retagShard
  try dsimp only
  repeat' (first
    | with_reducible assumption | (simp only [State.pend_mk]; with_reducible refine (State.pend_eta _).trans ?_)
    | (with_reducible refine ite_pend ?_ ?_) | (with_reducible refine (State.putRaw_pend ..).trans ?_)
    | (with_reducible refine (forEach_pend (fun _ _ => ?_) ..).trans ?_)
    | (with_reducible refine (forUpTo_pend (fun _ _ => ?_) ..).trans ?_) | with_reducible exact State.pend_self _
    | dsimp only | split)

theorem State.retagShard_canon {s : State} (hs : s.canon) (tag : Nat) (x : Shard) :
    ((State.retagShard s tag x)).canon := by
  unfold State.retagShard
  try dsimp only
  repeat' (first
    | with_reducible assumption | (simp only [State.canon_mk]; with_reducible refine State.canon_eta ?_)
    | (with_reducible refine ite_canon ?_ ?_) | (with_reducible refine State.putRaw_canon ?_ ..)
    | (with_reducible refine forEach_canon (fun _ _ _ => ?_) ?_ ..)
    | (with_reducible refine forUpTo_canon (fun _ _ _ => ?_) ?_ ..) | dsimp only | split)

theorem State.sealPower_pend (s : State) :
    ((State.sealPower s)).pend = s.pend := by
  unfold State.sealPower
  try dsimp only
  repeat' (first
    | with_reducible assumption | (simp only [State.pend_mk]; with_reducible refine (State.pend_eta _).trans ?_)
    | (with_reducible refine ite_pend ?_ ?_) | (with_reducible refine (State.gateCore_pend ..).trans ?_)
    | (with_reducible refine (State.pend_of_mems (State.returnGrant_mems ..)).trans ?_)
    | (with_reducible refine (State.pend_of_mems (State.askGrant_mems ..)).trans ?_)
    | (with_reducible refine (State.pend_of_mems (State.setCoreState_mems ..)).trans ?_)
    | (with_reducible refine (forUpTo_pend (fun _ _ => ?_) ..).trans ?_) | with_reducible exact State.pend_self _
    | dsimp only | split)

theorem State.sealPower_canon {s : State} (hs : s.canon) :
    ((State.sealPower s)).canon := by
  unfold State.sealPower
  try dsimp only
  repeat' (first
    | with_reducible assumption | (simp only [State.canon_mk]; with_reducible refine State.canon_eta ?_)
    | (with_reducible refine ite_canon ?_ ?_) | (with_reducible refine State.gateCore_canon ?_ ..)
    | (with_reducible refine State.canon_of_mems (State.returnGrant_mems ..) ?_)
    | (with_reducible refine State.canon_of_mems (State.askGrant_mems ..) ?_)
    | (with_reducible refine State.canon_of_mems (State.setCoreState_mems ..) ?_)
    | (with_reducible refine forUpTo_canon (fun _ _ _ => ?_) ?_ ..) | dsimp only | split)

theorem State.sealPorts_mems (s : State) :
    ((State.sealPorts s)).mems = s.mems := by
  unfold State.sealPorts
  try dsimp only
  repeat' (first
    | with_reducible assumption | (simp only [State.mems_mk]; with_reducible refine (State.mems_eta _).trans ?_)
    | (with_reducible refine ite_mems ?_ ?_) | (with_reducible refine (State.trainSealed_mems ..).trans ?_)
    | (with_reducible refine (State.setPLane_mems ..).trans ?_)
    | (with_reducible refine (State.updPrg_mems ..).trans ?_)
    | (with_reducible refine (forUpTo_mems (fun _ _ => ?_) ..).trans ?_) | with_reducible exact State.mems_self _
    | dsimp only | split)

theorem State.sealShare_mems (s : State) (n : Nat) :
    ((State.sealShare s n)).mems = s.mems := by
  unfold State.sealShare
  try dsimp only
  repeat' (first
    | with_reducible assumption | (simp only [State.mems_mk]; with_reducible refine (State.mems_eta _).trans ?_)
    | (with_reducible refine ite_mems ?_ ?_) | (with_reducible refine (State.wrF_mems ..).trans ?_)
    | (with_reducible refine (forUpTo_mems (fun _ _ => ?_) ..).trans ?_) | with_reducible exact State.mems_self _
    | dsimp only | split)

theorem State.sealRegs_mems (s : State) (h : List Nat) (lead : Nat) :
    ((State.sealRegs s h lead)).mems = s.mems := by
  unfold State.sealRegs
  try dsimp only
  repeat' (first
    | with_reducible assumption | (simp only [State.mems_mk]; with_reducible refine (State.mems_eta _).trans ?_)
    | (with_reducible refine ite_mems ?_ ?_) | (with_reducible refine (State.wrF_mems ..).trans ?_)
    | (with_reducible refine (State.wr_mems ..).trans ?_)
    | (with_reducible refine (forUpTo_mems (fun _ _ => ?_) ..).trans ?_) | with_reducible exact State.mems_self _
    | dsimp only | split)

theorem State.sealNow_pend (s : State) (t : Staged) (lead : Nat) (slots : List (Nat × Nat × SlotDecl)) (sweep : List Nat) :
    ((State.sealNow s t lead slots sweep)).pend = s.pend := by
  unfold State.sealNow
  try dsimp only
  repeat' (first
    | with_reducible assumption | (simp only [State.pend_mk]; with_reducible refine (State.pend_eta _).trans ?_)
    | (with_reducible refine ite_pend ?_ ?_)
    | (with_reducible refine (State.pend_of_mems (State.sealRegs_mems ..)).trans ?_)
    | (with_reducible refine (State.pend_of_mems (State.sealShare_mems ..)).trans ?_)
    | (with_reducible refine (State.pend_of_mems (State.sealPorts_mems ..)).trans ?_)
    | (with_reducible refine (State.sealPower_pend ..).trans ?_)
    | (with_reducible refine (State.retagShard_pend ..).trans ?_)
    | (with_reducible refine (State.pend_of_mems (State.tierReload_mems ..)).trans ?_)
    | (with_reducible refine (State.pend_of_mems (State.routeLoad_mems ..)).trans ?_)
    | (with_reducible refine (State.pend_of_mems (State.kwLoad_mems ..)).trans ?_)
    | (with_reducible refine (State.regLoad_pend ..).trans ?_)
    | (with_reducible refine (State.placeBytes_pend ..).trans ?_)
    | (with_reducible refine (State.pend_of_mems (State.updBoot_mems ..)).trans ?_)
    | (with_reducible refine (State.dropSnap_pend ..).trans ?_)
    | (with_reducible refine (State.pend_of_mems (State.clearRegs_mems ..)).trans ?_)
    | (with_reducible refine (State.pend_of_mems (State.updImg_mems ..)).trans ?_)
    | (with_reducible refine (State.pend_of_mems (State.updHost_mems ..)).trans ?_)
    | (with_reducible refine (State.pend_of_mems (State.closeRecords_mems ..)).trans ?_)
    | (with_reducible refine (State.pend_of_mems (State.bump_mems ..)).trans ?_)
    | (with_reducible refine (State.pend_of_mems (State.wrF_mems ..)).trans ?_)
    | (with_reducible refine (State.pend_of_mems (State.wr_mems ..)).trans ?_)
    | (with_reducible refine (forEach_pend (fun _ _ => ?_) ..).trans ?_)
    | (with_reducible refine (forUpTo_pend (fun _ _ => ?_) ..).trans ?_)
    | (with_reducible refine (foldl_pend (fun _ _ => ?_) ..).trans ?_)
    | (with_reducible refine (foldl1_pend (fun _ _ => ?_) ..).trans ?_) | with_reducible exact State.pend_self _
    | dsimp only | split)

theorem State.sealNow_canon {s : State} (hs : s.canon) (t : Staged) (lead : Nat) (slots : List (Nat × Nat × SlotDecl)) (sweep : List Nat) :
    ((State.sealNow s t lead slots sweep)).canon := by
  unfold State.sealNow
  try dsimp only
  repeat' (first
    | with_reducible assumption | (simp only [State.canon_mk]; with_reducible refine State.canon_eta ?_)
    | (with_reducible refine ite_canon ?_ ?_)
    | (with_reducible refine State.canon_of_mems (State.sealRegs_mems ..) ?_)
    | (with_reducible refine State.canon_of_mems (State.sealShare_mems ..) ?_)
    | (with_reducible refine State.canon_of_mems (State.sealPorts_mems ..) ?_)
    | (with_reducible refine State.sealPower_canon ?_ ..) | (with_reducible refine State.retagShard_canon ?_ ..)
    | (with_reducible refine State.canon_of_mems (State.tierReload_mems ..) ?_)
    | (with_reducible refine State.canon_of_mems (State.routeLoad_mems ..) ?_)
    | (with_reducible refine State.canon_of_mems (State.kwLoad_mems ..) ?_)
    | (with_reducible refine State.regLoad_canon ?_ ..) | (with_reducible refine State.placeBytes_canon ?_ ..)
    | (with_reducible refine State.canon_of_mems (State.updBoot_mems ..) ?_)
    | (with_reducible refine State.dropSnap_canon ?_ ..)
    | (with_reducible refine State.canon_of_mems (State.clearRegs_mems ..) ?_)
    | (with_reducible refine State.canon_of_mems (State.updImg_mems ..) ?_)
    | (with_reducible refine State.canon_of_mems (State.updHost_mems ..) ?_)
    | (with_reducible refine State.canon_of_mems (State.closeRecords_mems ..) ?_)
    | (with_reducible refine State.canon_of_mems (State.bump_mems ..) ?_)
    | (with_reducible refine State.canon_of_mems (State.wrF_mems ..) ?_)
    | (with_reducible refine State.canon_of_mems (State.wr_mems ..) ?_)
    | (with_reducible refine forEach_canon (fun _ _ _ => ?_) ?_ ..)
    | (with_reducible refine forUpTo_canon (fun _ _ _ => ?_) ?_ ..)
    | (with_reducible refine foldl_canon (fun _ _ _ => ?_) ?_ ..)
    | (with_reducible refine foldl1_canon (fun _ _ _ => ?_) ?_ ..) | dsimp only | split)

theorem State.takeReady_mems (s : State) (p : Nat) (report : Nat) :
    ((State.takeReady s p report)).mems = s.mems := by
  unfold State.takeReady
  try dsimp only
  repeat' (first
    | with_reducible assumption | (simp only [State.mems_mk]; with_reducible refine (State.mems_eta _).trans ?_)
    | (with_reducible refine ite_mems ?_ ?_) | (with_reducible refine (State.abortLoad_mems ..).trans ?_)
    | (with_reducible refine (State.updImg_mems ..).trans ?_) | (with_reducible refine (State.send_mems ..).trans ?_)
    | (with_reducible refine (forEach_mems (fun _ _ => ?_) ..).trans ?_) | with_reducible exact State.mems_self _
    | dsimp only | split)

theorem State.stage'_mems (s : State) (ring : Nat) (jid : Nat) (lead : Nat) (h : List Nat) (secs : List (List Nat)) (digest : List Nat) :
    ((State.stage' s ring jid lead h secs digest)).mems = s.mems := by
  unfold State.stage'
  try dsimp only
  repeat' (first
    | with_reducible assumption | (simp only [State.mems_mk]; with_reducible refine (State.mems_eta _).trans ?_)
    | (with_reducible refine ite_mems ?_ ?_) | (with_reducible refine (State.takeReady_mems ..).trans ?_)
    | (with_reducible refine (State.checkImage_mems ..).trans ?_)
    | (with_reducible refine (State.checkImage_mems' (by assumption)).trans ?_)
    | (with_reducible refine (State.abortLoad_mems ..).trans ?_)
    | (with_reducible refine (State.updImg_mems ..).trans ?_) | (with_reducible refine (State.send_mems ..).trans ?_)
    | (with_reducible refine (State.wrF_mems ..).trans ?_)
    | (with_reducible refine (forEach_mems (fun _ _ => ?_) ..).trans ?_) | with_reducible exact State.mems_self _
    | dsimp only | split)

theorem State.beginLoad_mems (s : State) (j : HostJob) (head : List Nat) (secs : List (List Nat)) :
    ((State.beginLoad s j head secs)).mems = s.mems := by
  unfold State.beginLoad
  try dsimp only
  repeat' (first
    | with_reducible assumption | (simp only [State.mems_mk]; with_reducible refine (State.mems_eta _).trans ?_)
    | (with_reducible refine ite_mems ?_ ?_) | (with_reducible refine (State.stage'_mems ..).trans ?_)
    | (with_reducible refine (State.abortLoad_mems ..).trans ?_)
    | (with_reducible refine (State.updImg_mems ..).trans ?_) | with_reducible exact State.mems_self _ | dsimp only
    | split)

theorem execImageLoad_mems {head : List Nat} {secs : List (List Nat)} {s : State} {zt : State} (zh : execImageLoad head secs s = .next zt) :
    zt.mems = s.mems := by
  unfold execImageLoad at zh
  cases zh
  try dsimp only
  repeat' (first
    | with_reducible assumption | (simp only [State.mems_mk]; with_reducible refine (State.mems_eta _).trans ?_)
    | (with_reducible refine ite_mems ?_ ?_) | (with_reducible refine (State.beginLoad_mems ..).trans ?_)
    | (with_reducible refine (State.holdRefusal_mems ..).trans ?_)
    | (with_reducible refine (State.finishJob_mems ..).trans ?_)
    | (with_reducible refine (State.updJob_mems ..).trans ?_)
    | (with_reducible refine (State.updImg_mems ..).trans ?_)
    | (with_reducible refine (State.hostViol_mems ..).trans ?_) | with_reducible exact State.mems_self _ | dsimp only
    | split)

theorem execReady_mems {report : Option (Nat × Nat)} {lead : Nat} {digest : List Nat} {head : List Nat} {secs : List (List Nat)} {s : State} {zt : State} (zh : execReady report lead digest head secs s = .next zt) :
    zt.mems = s.mems := by
  unfold execReady at zh
  cases zh
  try dsimp only
  repeat' (first
    | with_reducible assumption | (simp only [State.mems_mk]; with_reducible refine (State.mems_eta _).trans ?_)
    | (with_reducible refine ite_mems ?_ ?_) | (with_reducible refine (State.stage'_mems ..).trans ?_)
    | (with_reducible refine (State.takeReady_mems ..).trans ?_) | with_reducible exact State.mems_self _ | dsimp only
    | split)

theorem State.sealDone_mems (s : State) (jid : Nat) :
    ((State.sealDone s jid)).mems = s.mems := by
  unfold State.sealDone
  try dsimp only
  repeat' (first
    | with_reducible assumption | (simp only [State.mems_mk]; with_reducible refine (State.mems_eta _).trans ?_)
    | (with_reducible refine ite_mems ?_ ?_) | (with_reducible refine (State.writeProt_mems ..).trans ?_)
    | (with_reducible refine (State.finishJob_mems ..).trans ?_) | with_reducible exact State.mems_self _ | dsimp only
    | split)

theorem State.takeSealed_mems (s : State) (p : Nat) :
    ((State.takeSealed s p)).mems = s.mems := by
  unfold State.takeSealed
  try dsimp only
  repeat' (first
    | with_reducible assumption | (simp only [State.mems_mk]; with_reducible refine (State.mems_eta _).trans ?_)
    | (with_reducible refine ite_mems ?_ ?_) | (with_reducible refine (State.sealDone_mems ..).trans ?_)
    | (with_reducible refine (State.updImg_mems ..).trans ?_) | with_reducible exact State.mems_self _ | dsimp only
    | split)

theorem execSeal_pend {ack : Option Nat} {lead : Nat} {slots : List (Nat × Nat × SlotDecl)} {sweep : List Nat} {s : State} {zt : State} (zh : execSeal ack lead slots sweep s = .next zt) :
    zt.pend = s.pend := by
  unfold execSeal at zh
  cases zh
  try dsimp only
  repeat' (first
    | with_reducible assumption | (simp only [State.pend_mk]; with_reducible refine (State.pend_eta _).trans ?_)
    | (with_reducible refine ite_pend ?_ ?_)
    | (with_reducible refine (State.pend_of_mems (State.takeSealed_mems ..)).trans ?_)
    | (with_reducible refine (State.sealNow_pend ..).trans ?_)
    | (with_reducible refine (State.pend_of_mems (State.updImg_mems ..)).trans ?_)
    | (with_reducible refine (State.pend_of_mems (State.send_mems ..)).trans ?_)
    | with_reducible exact State.pend_self _ | dsimp only | split)

theorem execSeal_canon {ack : Option Nat} {lead : Nat} {slots : List (Nat × Nat × SlotDecl)} {sweep : List Nat} {s : State} {zt : State} (hs : s.canon) (zh : execSeal ack lead slots sweep s = .next zt) :
    zt.canon := by
  unfold execSeal at zh
  cases zh
  try dsimp only
  repeat' (first
    | with_reducible assumption | (simp only [State.canon_mk]; with_reducible refine State.canon_eta ?_)
    | (with_reducible refine ite_canon ?_ ?_)
    | (with_reducible refine State.canon_of_mems (State.takeSealed_mems ..) ?_)
    | (with_reducible refine State.sealNow_canon ?_ ..)
    | (with_reducible refine State.canon_of_mems (State.updImg_mems ..) ?_)
    | (with_reducible refine State.canon_of_mems (State.send_mems ..) ?_) | dsimp only | split)

theorem execAbort_mems {code : Nat} {pkg : Nat} {s : State} {zt : State} (zh : execAbort code pkg s = .next zt) :
    zt.mems = s.mems := by
  unfold execAbort at zh
  cases zh
  try dsimp only
  repeat' (first
    | with_reducible assumption | (simp only [State.mems_mk]; with_reducible refine (State.mems_eta _).trans ?_)
    | (with_reducible refine ite_mems ?_ ?_) | (with_reducible refine (State.abortLoad_mems ..).trans ?_)
    | (with_reducible refine (State.holdRefusal_mems ..).trans ?_)
    | (with_reducible refine (State.dropLoad_mems ..).trans ?_) | with_reducible exact State.mems_self _ | dsimp only
    | split)

theorem execStagingTimeout_mems {pkg : Nat} {s : State} {zt : State} (zh : execStagingTimeout pkg s = .next zt) :
    zt.mems = s.mems := by
  unfold execStagingTimeout at zh
  cases zh
  try dsimp only
  repeat' (first
    | with_reducible assumption | (simp only [State.mems_mk]; with_reducible refine (State.mems_eta _).trans ?_)
    | (with_reducible refine ite_mems ?_ ?_) | (with_reducible refine (State.abortLoad_mems ..).trans ?_)
    | with_reducible exact State.mems_self _ | dsimp only | split)

theorem State.cleanAll_mems (s : State) :
    ((State.cleanAll s)).mems = s.mems := by
  unfold State.cleanAll
  try dsimp only
  repeat' (first
    | with_reducible assumption | (simp only [State.mems_mk]; with_reducible refine (State.mems_eta _).trans ?_)
    | (with_reducible refine ite_mems ?_ ?_) | (with_reducible refine (State.setObj_mems ..).trans ?_)
    | (with_reducible refine (forEach_mems (fun _ _ => ?_) ..).trans ?_) | with_reducible exact State.mems_self _
    | dsimp only | split)

theorem State.quiesceStart_mems (s : State) (lead : Nat) :
    ((State.quiesceStart s lead)).mems = s.mems := by
  unfold State.quiesceStart
  try dsimp only
  repeat' (first
    | with_reducible assumption | (simp only [State.mems_mk]; with_reducible refine (State.mems_eta _).trans ?_)
    | (with_reducible refine ite_mems ?_ ?_) | (with_reducible refine (State.cleanAll_mems ..).trans ?_)
    | (with_reducible refine (State.updImg_mems ..).trans ?_) | (with_reducible refine (State.wrF_mems ..).trans ?_)
    | with_reducible exact State.mems_self _ | dsimp only | split)

theorem execQuiesce_mems {order : Nat × Nat} {s : State} {zt : State} (zh : execQuiesce order s = .next zt) :
    zt.mems = s.mems := by
  unfold execQuiesce at zh
  cases zh
  try dsimp only
  repeat' (first
    | with_reducible assumption | (simp only [State.mems_mk]; with_reducible refine (State.mems_eta _).trans ?_)
    | (with_reducible refine ite_mems ?_ ?_) | (with_reducible refine (State.quiesceStart_mems ..).trans ?_)
    | (with_reducible refine (State.finishJob_mems ..).trans ?_)
    | (with_reducible refine (State.updJob_mems ..).trans ?_)
    | (with_reducible refine (State.tellAll_mems ..).trans ?_)
    | (with_reducible refine (State.updImg_mems ..).trans ?_) | (with_reducible refine (State.wrF_mems ..).trans ?_)
    | with_reducible exact State.mems_self _ | dsimp only | split)

theorem State.takeQuiet_mems (s : State) (p : Nat) :
    ((State.takeQuiet s p)).mems = s.mems := by
  unfold State.takeQuiet
  try dsimp only
  repeat' (first
    | with_reducible assumption | (simp only [State.mems_mk]; with_reducible refine (State.mems_eta _).trans ?_)
    | (with_reducible refine ite_mems ?_ ?_) | (with_reducible refine (State.finishJob_mems ..).trans ?_)
    | (with_reducible refine (State.tellAll_mems ..).trans ?_)
    | (with_reducible refine (State.updImg_mems ..).trans ?_) | with_reducible exact State.mems_self _ | dsimp only
    | split)

theorem execQuiet_mems {arrived : Option Nat} {s : State} {zt : State} (zh : execQuiet arrived s = .next zt) :
    zt.mems = s.mems := by
  unfold execQuiet at zh
  cases zh
  try dsimp only
  repeat' (first
    | with_reducible assumption | (simp only [State.mems_mk]; with_reducible refine (State.mems_eta _).trans ?_)
    | (with_reducible refine ite_mems ?_ ?_) | (with_reducible refine (State.takeQuiet_mems ..).trans ?_)
    | (with_reducible refine (State.cleanAll_mems ..).trans ?_)
    | (with_reducible refine (State.tellLead_mems ..).trans ?_)
    | (with_reducible refine (State.backToPrimary_mems ..).trans ?_)
    | (with_reducible refine (State.queue_mems ..).trans ?_) | (with_reducible refine (State.wrF_mems ..).trans ?_)
    | (with_reducible refine (forEach_mems (fun _ _ => ?_) ..).trans ?_) | with_reducible exact State.mems_self _
    | dsimp only | split)

theorem execLeadTakeover_mems {announced : Option Nat} {reach : List Nat} {others : List Nat} {s : State} {zt : State} (zh : execLeadTakeover announced reach others s = .next zt) :
    zt.mems = s.mems := by
  unfold execLeadTakeover at zh
  cases zh
  try dsimp only
  repeat' (first
    | with_reducible assumption | (simp only [State.mems_mk]; with_reducible refine (State.mems_eta _).trans ?_)
    | (with_reducible refine ite_mems ?_ ?_) | (with_reducible refine (State.tellAll_mems ..).trans ?_)
    | (with_reducible refine (State.send_mems ..).trans ?_) | (with_reducible refine (State.wrF_mems ..).trans ?_)
    | (with_reducible refine (forEach_mems (fun _ _ => ?_) ..).trans ?_) | with_reducible exact State.mems_self _
    | dsimp only | split)

theorem execHubHeartbeat_mems {arrived : Option Nat} {s : State} {zt : State} (zh : execHubHeartbeat arrived s = .next zt) :
    zt.mems = s.mems := by
  unfold execHubHeartbeat at zh
  cases zh
  try dsimp only
  repeat' (first
    | with_reducible assumption | (simp only [State.mems_mk]; with_reducible refine (State.mems_eta _).trans ?_)
    | (with_reducible refine ite_mems ?_ ?_) | (with_reducible refine (State.tellLead_mems ..).trans ?_)
    | (with_reducible refine (State.send_mems ..).trans ?_) | with_reducible exact State.mems_self _ | dsimp only
    | split)

theorem State.loseSnap_pend (s : State) (p : Nat) :
    ((State.loseSnap s p)).pend = s.pend := by
  unfold State.loseSnap
  try dsimp only
  repeat' (first
    | with_reducible assumption | (simp only [State.pend_mk]; with_reducible refine (State.pend_eta _).trans ?_)
    | (with_reducible refine ite_pend ?_ ?_) | (with_reducible refine (State.dropSnap_pend ..).trans ?_)
    | (with_reducible refine (State.pend_of_mems (State.tellAll_mems ..)).trans ?_)
    | with_reducible exact State.pend_self _ | dsimp only | split)

theorem State.loseSnap_canon {s : State} (hs : s.canon) (p : Nat) :
    ((State.loseSnap s p)).canon := by
  unfold State.loseSnap
  try dsimp only
  repeat' (first
    | with_reducible assumption | (simp only [State.canon_mk]; with_reducible refine State.canon_eta ?_)
    | (with_reducible refine ite_canon ?_ ?_) | (with_reducible refine State.dropSnap_canon ?_ ..)
    | (with_reducible refine State.canon_of_mems (State.tellAll_mems ..) ?_) | dsimp only | split)

theorem State.loseNow_pend (s : State) (p : Nat) :
    ((State.loseNow s p)).pend = s.pend := by
  unfold State.loseNow
  try dsimp only
  repeat' (first
    | with_reducible assumption | (simp only [State.pend_mk]; with_reducible refine (State.pend_eta _).trans ?_)
    | (with_reducible refine ite_pend ?_ ?_) | (with_reducible refine (State.loseSnap_pend ..).trans ?_)
    | (with_reducible refine (State.pend_of_mems (State.updFlt_mems ..)).trans ?_)
    | (with_reducible refine (State.pend_of_mems (State.updImg_mems ..)).trans ?_)
    | with_reducible exact State.pend_self _ | dsimp only | split)

theorem State.loseNow_canon {s : State} (hs : s.canon) (p : Nat) :
    ((State.loseNow s p)).canon := by
  unfold State.loseNow
  try dsimp only
  repeat' (first
    | with_reducible assumption | (simp only [State.canon_mk]; with_reducible refine State.canon_eta ?_)
    | (with_reducible refine ite_canon ?_ ?_) | (with_reducible refine State.loseSnap_canon ?_ ..)
    | (with_reducible refine State.canon_of_mems (State.updFlt_mems ..) ?_)
    | (with_reducible refine State.canon_of_mems (State.updImg_mems ..) ?_) | dsimp only | split)

theorem execPackageLost_pend {pkg : Nat} {announced : Bool} {reach : List Nat} {s : State} {zt : State} (zh : execPackageLost pkg announced reach s = .next zt) :
    zt.pend = s.pend := by
  unfold execPackageLost at zh
  cases zh
  try dsimp only
  repeat' (first
    | with_reducible assumption | (simp only [State.pend_mk]; with_reducible refine (State.pend_eta _).trans ?_)
    | (with_reducible refine ite_pend ?_ ?_) | (with_reducible refine (State.loseNow_pend ..).trans ?_)
    | (with_reducible refine (State.pend_of_mems (State.tellAll_mems ..)).trans ?_)
    | (with_reducible refine (State.pend_of_mems (State.updImg_mems ..)).trans ?_)
    | (with_reducible refine (State.pend_of_mems (State.queue_mems ..)).trans ?_)
    | (with_reducible refine (State.pend_of_mems (State.send_mems ..)).trans ?_)
    | (with_reducible refine (forEach_pend (fun _ _ => ?_) ..).trans ?_) | with_reducible exact State.pend_self _
    | dsimp only | split)

theorem execPackageLost_canon {pkg : Nat} {announced : Bool} {reach : List Nat} {s : State} {zt : State} (hs : s.canon) (zh : execPackageLost pkg announced reach s = .next zt) :
    zt.canon := by
  unfold execPackageLost at zh
  cases zh
  try dsimp only
  repeat' (first
    | with_reducible assumption | (simp only [State.canon_mk]; with_reducible refine State.canon_eta ?_)
    | (with_reducible refine ite_canon ?_ ?_) | (with_reducible refine State.loseNow_canon ?_ ..)
    | (with_reducible refine State.canon_of_mems (State.tellAll_mems ..) ?_)
    | (with_reducible refine State.canon_of_mems (State.updImg_mems ..) ?_)
    | (with_reducible refine State.canon_of_mems (State.queue_mems ..) ?_)
    | (with_reducible refine State.canon_of_mems (State.send_mems ..) ?_)
    | (with_reducible refine forEach_canon (fun _ _ _ => ?_) ?_ ..) | dsimp only | split)

end Sys2Proof.Machine
end

