-- ==== Sys2Proof/Laws/FrameHub.lean ====
section
/-! SUPPORT. Frames of Machine/Hub.lean: what each operation and command leaves alone of the memories and the queue. -/

set_option linter.all false

namespace Sys2Proof.Machine

theorem execRegisterWrite_pend {path : Nat} {off : Nat} {bytes : Nat} {value : Nat} {s : State} {zt : State} (zh : execRegisterWrite path off bytes value s = .next zt) :
    zt.pend = s.pend := by
  unfold execRegisterWrite at zh
  cases zh
  try dsimp only
  repeat' (first
    | with_reducible assumption | (simp only [State.pend_mk]; with_reducible refine (State.pend_eta _).trans ?_)
    | (with_reducible refine ite_pend ?_ ?_) | (with_reducible refine (State.regWrite_pend ..).trans ?_)
    | (with_reducible refine (State.regWrite_pend' (by assumption)).trans ?_) | with_reducible exact State.pend_self _
    | dsimp only | split)

theorem execRegisterWrite_canon {path : Nat} {off : Nat} {bytes : Nat} {value : Nat} {s : State} {zt : State} (hs : s.canon) (zh : execRegisterWrite path off bytes value s = .next zt) :
    zt.canon := by
  unfold execRegisterWrite at zh
  cases zh
  try dsimp only
  repeat' (first
    | with_reducible assumption | (simp only [State.canon_mk]; with_reducible refine State.canon_eta ?_)
    | (with_reducible refine ite_canon ?_ ?_) | (with_reducible refine State.regWrite_canon ?_ ..)
    | (with_reducible refine State.regWrite_canon' (by assumption) ?_) | dsimp only | split)

theorem execRelayGo_pend {write : Bool} {s : State} {zt : State} (zh : execRelayGo write s = .next zt) :
    zt.pend = s.pend := by
  unfold execRelayGo at zh
  cases zh
  try dsimp only
  repeat' (first
    | with_reducible assumption | (simp only [State.pend_mk]; with_reducible refine (State.pend_eta _).trans ?_)
    | (with_reducible refine ite_pend ?_ ?_) | (with_reducible refine (State.relayGo_pend ..).trans ?_)
    | with_reducible exact State.pend_self _ | dsimp only | split)

theorem execRelayGo_canon {write : Bool} {s : State} {zt : State} (hs : s.canon) (zh : execRelayGo write s = .next zt) :
    zt.canon := by
  unfold execRelayGo at zh
  cases zh
  try dsimp only
  repeat' (first
    | with_reducible assumption | (simp only [State.canon_mk]; with_reducible refine State.canon_eta ?_)
    | (with_reducible refine ite_canon ?_ ?_) | (with_reducible refine State.relayGo_canon ?_ ..) | dsimp only | split)

theorem execDebugRegWrite_pend {core : Nat} {off : Nat} {value : Nat} {stage : Bool} {s : State} {zt : State} (zh : execDebugRegWrite core off value stage s = .next zt) :
    zt.pend = s.pend := by
  unfold execDebugRegWrite at zh
  cases zh
  try dsimp only
  repeat' (first
    | with_reducible assumption | (simp only [State.pend_mk]; with_reducible refine (State.pend_eta _).trans ?_)
    | (with_reducible refine ite_pend ?_ ?_) | (with_reducible refine (State.writeSlot_pend ..).trans ?_)
    | (with_reducible refine (State.pend_of_mems (State.taint_mems ..)).trans ?_)
    | (with_reducible refine (State.putStg_pend ..).trans ?_) | with_reducible exact State.pend_self _ | dsimp only
    | split)

theorem execDebugRegWrite_canon {core : Nat} {off : Nat} {value : Nat} {stage : Bool} {s : State} {zt : State} (hs : s.canon) (zh : execDebugRegWrite core off value stage s = .next zt) :
    zt.canon := by
  unfold execDebugRegWrite at zh
  cases zh
  try dsimp only
  repeat' (first
    | with_reducible assumption | (simp only [State.canon_mk]; with_reducible refine State.canon_eta ?_)
    | (with_reducible refine ite_canon ?_ ?_) | (with_reducible refine State.writeSlot_canon ?_ ..)
    | (with_reducible refine State.canon_of_mems (State.taint_mems ..) ?_)
    | (with_reducible refine State.putStg_canon ?_ ..) | dsimp only | split)

theorem execTsCorrGo_mems {island : Nat} {s : State} {zt : State} (zh : execTsCorrGo island s = .next zt) :
    zt.mems = s.mems := by
  unfold execTsCorrGo at zh
  cases zh
  try dsimp only
  repeat' (first
    | with_reducible assumption | (simp only [State.mems_mk]; with_reducible refine (State.mems_eta _).trans ?_)
    | (with_reducible refine ite_mems ?_ ?_) | (with_reducible refine (State.corrGo_mems ..).trans ?_)
    | with_reducible exact State.mems_self _ | dsimp only | split)

theorem State.corrEnd_mems (s : State) (island : Nat) (t0 : Nat) (count : Nat) :
    ((State.corrEnd s island t0 count)).mems = s.mems := by
  unfold State.corrEnd
  try dsimp only
  repeat' (first
    | with_reducible assumption | (simp only [State.mems_mk]; with_reducible refine (State.mems_eta _).trans ?_)
    | (with_reducible refine ite_mems ?_ ?_) | (with_reducible refine (State.updHub_mems ..).trans ?_)
    | (with_reducible refine (State.wrF_mems ..).trans ?_) | (with_reducible refine (State.wr_mems ..).trans ?_)
    | with_reducible exact State.mems_self _ | dsimp only | split)

theorem execTsCorrSample_mems {count : Nat} {s : State} {zt : State} (zh : execTsCorrSample count s = .next zt) :
    zt.mems = s.mems := by
  unfold execTsCorrSample at zh
  cases zh
  try dsimp only
  repeat' (first
    | with_reducible assumption | (simp only [State.mems_mk]; with_reducible refine (State.mems_eta _).trans ?_)
    | (with_reducible refine ite_mems ?_ ?_) | (with_reducible refine (State.corrEnd_mems ..).trans ?_)
    | with_reducible exact State.mems_self _ | dsimp only | split)

theorem execTlmCorrelation_mems {counts : List Nat} {s : State} {zt : State} (zh : execTlmCorrelation counts s = .next zt) :
    zt.mems = s.mems := by
  unfold execTlmCorrelation at zh
  cases zh
  try dsimp only
  repeat' (first
    | with_reducible assumption | (simp only [State.mems_mk]; with_reducible refine (State.mems_eta _).trans ?_)
    | (with_reducible refine ite_mems ?_ ?_) | (with_reducible refine (State.updHub_mems ..).trans ?_)
    | (with_reducible refine (forUpTo_mems (fun _ _ => ?_) ..).trans ?_) | with_reducible exact State.mems_self _
    | dsimp only | split)

theorem execClkMeasWindow_mems {means : List Nat} {s : State} {zt : State} (zh : execClkMeasWindow means s = .next zt) :
    zt.mems = s.mems := by
  unfold execClkMeasWindow at zh
  cases zh
  try dsimp only
  repeat' (first
    | with_reducible assumption | (simp only [State.mems_mk]; with_reducible refine (State.mems_eta _).trans ?_)
    | (with_reducible refine ite_mems ?_ ?_) | (with_reducible refine (State.wr_mems ..).trans ?_)
    | (with_reducible refine (forUpTo_mems (fun _ _ => ?_) ..).trans ?_) | with_reducible exact State.mems_self _
    | dsimp only | split)

theorem State.mctpDrop_mems (s : State) (b : Nat) :
    ((State.mctpDrop s b)).mems = s.mems := by
  unfold State.mctpDrop
  try dsimp only
  repeat' (first
    | with_reducible assumption | (simp only [State.mems_mk]; with_reducible refine (State.mems_eta _).trans ?_)
    | (with_reducible refine ite_mems ?_ ?_) | (with_reducible refine (State.viol_mems ..).trans ?_)
    | with_reducible exact State.mems_self _ | dsimp only | split)

theorem State.mctpTake_mems {serve : State → State} (hserve : ∀ y0, (serve y0).mems = y0.mems) (s : State) (b : Nat) (control : Bool) (inRec : Bool) :
    ((State.mctpTake s b control inRec serve)).mems = s.mems := by
  unfold State.mctpTake
  try dsimp only
  repeat' (first
    | with_reducible assumption | (with_reducible refine (hserve ..).trans ?_)
    | (simp only [State.mems_mk]; with_reducible refine (State.mems_eta _).trans ?_)
    | (with_reducible refine ite_mems ?_ ?_) | (with_reducible refine (State.mctpDrop_mems ..).trans ?_)
    | with_reducible exact State.mems_self _ | dsimp only | split)

theorem State.mctpTake_pend {serve : State → State} (hserve : ∀ y0, (serve y0).pend = y0.pend) (s : State) (b : Nat) (control : Bool) (inRec : Bool) :
    ((State.mctpTake s b control inRec serve)).pend = s.pend := by
  unfold State.mctpTake
  try dsimp only
  repeat' (first
    | with_reducible assumption | (with_reducible refine (hserve ..).trans ?_)
    | (simp only [State.pend_mk]; with_reducible refine (State.pend_eta _).trans ?_)
    | (with_reducible refine ite_pend ?_ ?_)
    | (with_reducible refine (State.pend_of_mems (State.mctpDrop_mems ..)).trans ?_)
    | with_reducible exact State.pend_self _ | dsimp only | split)

theorem State.mctpTake_canon {s : State} {serve : State → State} (hserve : ∀ y0, y0.canon → (serve y0).canon) (hs : s.canon) (b : Nat) (control : Bool) (inRec : Bool) :
    ((State.mctpTake s b control inRec serve)).canon := by
  unfold State.mctpTake
  try dsimp only
  repeat' (first
    | with_reducible assumption | (with_reducible refine hserve _ ?_)
    | (simp only [State.canon_mk]; with_reducible refine State.canon_eta ?_) | (with_reducible refine ite_canon ?_ ?_)
    | (with_reducible refine State.canon_of_mems (State.mctpDrop_mems ..) ?_) | dsimp only | split)

theorem State.ctlAnswer_mems (s : State) (b : Nat) (cmd : Nat) (code : Nat) (data : List Nat) :
    ((State.ctlAnswer s b cmd code data)).mems = s.mems := by
  unfold State.ctlAnswer
  try dsimp only
  repeat' (first
    | with_reducible assumption | (simp only [State.mems_mk]; with_reducible refine (State.mems_eta _).trans ?_)
    | (with_reducible refine ite_mems ?_ ?_) | (with_reducible refine (State.send_mems ..).trans ?_)
    | with_reducible exact State.mems_self _ | dsimp only | split)

theorem execSetEndpointId_mems {b : Nat} {op : Nat} {eid : Nat} {s : State} {zt : State} (zh : execSetEndpointId b op eid s = .next zt) :
    zt.mems = s.mems := by
  unfold execSetEndpointId at zh
  cases zh
  try dsimp only
  repeat' (first
    | with_reducible assumption | (simp only [State.mems_mk]; with_reducible refine (State.mems_eta _).trans ?_)
    | (with_reducible refine ite_mems ?_ ?_) | (with_reducible refine (State.ctlAnswer_mems ..).trans ?_)
    | (with_reducible refine (State.mctpTake_mems (fun _ => ?_) ..).trans ?_)
    | (with_reducible refine (State.wrF_mems ..).trans ?_) | with_reducible exact State.mems_self _ | dsimp only
    | split)

theorem execGetEndpointId_mems {b : Nat} {s : State} {zt : State} (zh : execGetEndpointId b s = .next zt) :
    zt.mems = s.mems := by
  unfold execGetEndpointId at zh
  cases zh
  try dsimp only
  repeat' (first
    | with_reducible assumption | (simp only [State.mems_mk]; with_reducible refine (State.mems_eta _).trans ?_)
    | (with_reducible refine ite_mems ?_ ?_) | (with_reducible refine (State.ctlAnswer_mems ..).trans ?_)
    | (with_reducible refine (State.mctpTake_mems (fun _ => ?_) ..).trans ?_) | with_reducible exact State.mems_self _
    | dsimp only | split)

theorem execGetMctpVersionSupport_mems {b : Nat} {typ : Nat} {s : State} {zt : State} (zh : execGetMctpVersionSupport b typ s = .next zt) :
    zt.mems = s.mems := by
  unfold execGetMctpVersionSupport at zh
  cases zh
  try dsimp only
  repeat' (first
    | with_reducible assumption | (simp only [State.mems_mk]; with_reducible refine (State.mems_eta _).trans ?_)
    | (with_reducible refine ite_mems ?_ ?_) | (with_reducible refine (State.ctlAnswer_mems ..).trans ?_)
    | (with_reducible refine (State.mctpTake_mems (fun _ => ?_) ..).trans ?_) | with_reducible exact State.mems_self _
    | dsimp only | split)

theorem execGetMessageTypeSupport_mems {b : Nat} {s : State} {zt : State} (zh : execGetMessageTypeSupport b s = .next zt) :
    zt.mems = s.mems := by
  unfold execGetMessageTypeSupport at zh
  cases zh
  try dsimp only
  repeat' (first
    | with_reducible assumption | (simp only [State.mems_mk]; with_reducible refine (State.mems_eta _).trans ?_)
    | (with_reducible refine ite_mems ?_ ?_) | (with_reducible refine (State.ctlAnswer_mems ..).trans ?_)
    | (with_reducible refine (State.mctpTake_mems (fun _ => ?_) ..).trans ?_) | with_reducible exact State.mems_self _
    | dsimp only | split)

theorem execGetVendorDefinedMsgSupport_mems {b : Nat} {sel : Nat} {s : State} {zt : State} (zh : execGetVendorDefinedMsgSupport b sel s = .next zt) :
    zt.mems = s.mems := by
  unfold execGetVendorDefinedMsgSupport at zh
  cases zh
  try dsimp only
  repeat' (first
    | with_reducible assumption | (simp only [State.mems_mk]; with_reducible refine (State.mems_eta _).trans ?_)
    | (with_reducible refine ite_mems ?_ ?_) | (with_reducible refine (State.ctlAnswer_mems ..).trans ?_)
    | (with_reducible refine (State.mctpTake_mems (fun _ => ?_) ..).trans ?_) | with_reducible exact State.mems_self _
    | dsimp only | split)

theorem State.vdmTake_mems {serve : State → State} (hserve : ∀ y0, (serve y0).mems = y0.mems) (s : State) (b : Nat) (cmd : Nat) (inRec : Bool) :
    ((State.vdmTake s b cmd inRec serve)).mems = s.mems := by
  unfold State.vdmTake
  try dsimp only
  repeat' (first
    | with_reducible assumption | (with_reducible refine (hserve ..).trans ?_)
    | (simp only [State.mems_mk]; with_reducible refine (State.mems_eta _).trans ?_)
    | (with_reducible refine ite_mems ?_ ?_) | (with_reducible refine (State.mctpTake_mems (fun _ => ?_) ..).trans ?_)
    | (with_reducible refine (State.vdmAnswer_mems ..).trans ?_) | with_reducible exact State.mems_self _ | dsimp only
    | split)

theorem State.vdmTake_pend {serve : State → State} (hserve : ∀ y0, (serve y0).pend = y0.pend) (s : State) (b : Nat) (cmd : Nat) (inRec : Bool) :
    ((State.vdmTake s b cmd inRec serve)).pend = s.pend := by
  unfold State.vdmTake
  try dsimp only
  repeat' (first
    | with_reducible assumption | (with_reducible refine (hserve ..).trans ?_)
    | (simp only [State.pend_mk]; with_reducible refine (State.pend_eta _).trans ?_)
    | (with_reducible refine ite_pend ?_ ?_) | (with_reducible refine (State.mctpTake_pend (fun _ => ?_) ..).trans ?_)
    | (with_reducible refine (State.pend_of_mems (State.vdmAnswer_mems ..)).trans ?_)
    | with_reducible exact State.pend_self _ | dsimp only | split)

theorem State.vdmTake_canon {s : State} {serve : State → State} (hserve : ∀ y0, y0.canon → (serve y0).canon) (hs : s.canon) (b : Nat) (cmd : Nat) (inRec : Bool) :
    ((State.vdmTake s b cmd inRec serve)).canon := by
  unfold State.vdmTake
  try dsimp only
  repeat' (first
    | with_reducible assumption | (with_reducible refine hserve _ ?_)
    | (simp only [State.canon_mk]; with_reducible refine State.canon_eta ?_) | (with_reducible refine ite_canon ?_ ?_)
    | (with_reducible refine State.mctpTake_canon (fun _ _ => ?_) ?_ ..)
    | (with_reducible refine State.canon_of_mems (State.vdmAnswer_mems ..) ?_) | dsimp only | split)

theorem execRegRead_pend {b : Nat} {addr : Nat} {s : State} {zt : State} (zh : execRegRead b addr s = .next zt) :
    zt.pend = s.pend := by
  unfold execRegRead at zh
  cases zh
  try dsimp only
  repeat' (first
    | with_reducible assumption | (simp only [State.pend_mk]; with_reducible refine (State.pend_eta _).trans ?_)
    | (with_reducible refine ite_pend ?_ ?_) | (with_reducible refine (State.vdmTake_pend (fun _ => ?_) ..).trans ?_)
    | (with_reducible refine (State.relayRun_pend ..).trans ?_) | with_reducible exact State.pend_self _ | dsimp only
    | split)

theorem execRegRead_canon {b : Nat} {addr : Nat} {s : State} {zt : State} (hs : s.canon) (zh : execRegRead b addr s = .next zt) :
    zt.canon := by
  unfold execRegRead at zh
  cases zh
  try dsimp only
  repeat' (first
    | with_reducible assumption | (simp only [State.canon_mk]; with_reducible refine State.canon_eta ?_)
    | (with_reducible refine ite_canon ?_ ?_) | (with_reducible refine State.vdmTake_canon (fun _ _ => ?_) ?_ ..)
    | (with_reducible refine State.relayRun_canon ?_ ..) | dsimp only | split)

theorem execRegWrite_pend {b : Nat} {addr : Nat} {value : Nat} {s : State} {zt : State} (zh : execRegWrite b addr value s = .next zt) :
    zt.pend = s.pend := by
  unfold execRegWrite at zh
  cases zh
  try dsimp only
  repeat' (first
    | with_reducible assumption | (simp only [State.pend_mk]; with_reducible refine (State.pend_eta _).trans ?_)
    | (with_reducible refine ite_pend ?_ ?_) | (with_reducible refine (State.vdmTake_pend (fun _ => ?_) ..).trans ?_)
    | (with_reducible refine (State.relayRun_pend ..).trans ?_) | with_reducible exact State.pend_self _ | dsimp only
    | split)

theorem execRegWrite_canon {b : Nat} {addr : Nat} {value : Nat} {s : State} {zt : State} (hs : s.canon) (zh : execRegWrite b addr value s = .next zt) :
    zt.canon := by
  unfold execRegWrite at zh
  cases zh
  try dsimp only
  repeat' (first
    | with_reducible assumption | (simp only [State.canon_mk]; with_reducible refine State.canon_eta ?_)
    | (with_reducible refine ite_canon ?_ ?_) | (with_reducible refine State.vdmTake_canon (fun _ _ => ?_) ?_ ..)
    | (with_reducible refine State.relayRun_canon ?_ ..) | dsimp only | split)

theorem execWardSubmit_mems {b : Nat} {block : List Nat} {s : State} {zt : State} (zh : execWardSubmit b block s = .next zt) :
    zt.mems = s.mems := by
  unfold execWardSubmit at zh
  cases zh
  try dsimp only
  repeat' (first
    | with_reducible assumption | (simp only [State.mems_mk]; with_reducible refine (State.mems_eta _).trans ?_)
    | (with_reducible refine ite_mems ?_ ?_) | (with_reducible refine (State.vdmTake_mems (fun _ => ?_) ..).trans ?_)
    | (with_reducible refine (State.vdmAnswer_mems ..).trans ?_)
    | (with_reducible refine (State.wardTake_mems ..).trans ?_) | with_reducible exact State.mems_self _ | dsimp only
    | split)

theorem execWardResult_mems {b : Nat} {s : State} {zt : State} (zh : execWardResult b s = .next zt) :
    zt.mems = s.mems := by
  unfold execWardResult at zh
  cases zh
  try dsimp only
  repeat' (first
    | with_reducible assumption | (simp only [State.mems_mk]; with_reducible refine (State.mems_eta _).trans ?_)
    | (with_reducible refine ite_mems ?_ ?_) | (with_reducible refine (State.vdmTake_mems (fun _ => ?_) ..).trans ?_)
    | (with_reducible refine (State.vdmAnswer_mems ..).trans ?_) | with_reducible exact State.mems_self _ | dsimp only
    | split)

theorem execNonce_mems {b : Nat} {s : State} {zt : State} (zh : execNonce b s = .next zt) :
    zt.mems = s.mems := by
  unfold execNonce at zh
  cases zh
  try dsimp only
  repeat' (first
    | with_reducible assumption | (simp only [State.mems_mk]; with_reducible refine (State.mems_eta _).trans ?_)
    | (with_reducible refine ite_mems ?_ ?_) | (with_reducible refine (State.vdmTake_mems (fun _ => ?_) ..).trans ?_)
    | (with_reducible refine (State.vdmAnswer_mems ..).trans ?_)
    | (with_reducible refine (State.newNonce_mems ..).trans ?_) | with_reducible exact State.mems_self _ | dsimp only
    | split)

theorem State.flipDir_mems (s : State) :
    ((State.flipDir s)).mems = s.mems := by
  unfold State.flipDir
  try dsimp only
  repeat' (first
    | with_reducible assumption | (simp only [State.mems_mk]; with_reducible refine (State.mems_eta _).trans ?_)
    | (with_reducible refine ite_mems ?_ ?_) | (with_reducible refine (State.putBoot_mems ..).trans ?_)
    | with_reducible exact State.mems_self _ | dsimp only | split)

theorem execRecoveryWrite_mems {b : Nat} {off : Nat} {data : List Nat} {s : State} {zt : State} (zh : execRecoveryWrite b off data s = .next zt) :
    zt.mems = s.mems := by
  unfold execRecoveryWrite at zh
  cases zh
  try dsimp only
  repeat' (first
    | with_reducible assumption | (simp only [State.mems_mk]; with_reducible refine (State.mems_eta _).trans ?_)
    | (with_reducible refine ite_mems ?_ ?_) | (with_reducible refine (State.flipDir_mems ..).trans ?_)
    | (with_reducible refine (State.vdmTake_mems (fun _ => ?_) ..).trans ?_)
    | (with_reducible refine (State.vdmAnswer_mems ..).trans ?_)
    | (with_reducible refine (State.putBoot_mems ..).trans ?_) | with_reducible exact State.mems_self _ | dsimp only
    | split)

theorem State.setSpdm_mems (s : State) (p : Nat) (x : Spdm) :
    ((State.setSpdm s p x)).mems = s.mems := by
  unfold State.setSpdm
  try dsimp only
  repeat' (first
    | with_reducible assumption | (simp only [State.mems_mk]; with_reducible refine (State.mems_eta _).trans ?_)
    | (with_reducible refine ite_mems ?_ ?_) | (with_reducible refine (State.updHub_mems ..).trans ?_)
    | with_reducible exact State.mems_self _ | dsimp only | split)

theorem State.spdmSend_mems (s : State) (p : Nat) (msg : List Nat) :
    ((State.spdmSend s p msg)).mems = s.mems := by
  unfold State.spdmSend
  try dsimp only
  repeat' (first
    | with_reducible assumption | (simp only [State.mems_mk]; with_reducible refine (State.mems_eta _).trans ?_)
    | (with_reducible refine ite_mems ?_ ?_) | (with_reducible refine (State.send_mems ..).trans ?_)
    | with_reducible exact State.mems_self _ | dsimp only | split)

theorem State.spdmError_mems (s : State) (p : Nat) (code : Nat) (data : Nat) :
    ((State.spdmError s p code data)).mems = s.mems := by
  unfold State.spdmError
  try dsimp only
  repeat' (first
    | with_reducible assumption | (simp only [State.mems_mk]; with_reducible refine (State.mems_eta _).trans ?_)
    | (with_reducible refine ite_mems ?_ ?_) | (with_reducible refine (State.spdmSend_mems ..).trans ?_)
    | with_reducible exact State.mems_self _ | dsimp only | split)

theorem State.spdmServe_mems {answer : State → Spdm → State} (hanswer : ∀ y0 y1, (answer y0 y1).mems = y0.mems) (s : State) (p : Nat) (code : Nat) (need : Nat) (req : List Nat) :
    ((State.spdmServe s p code need req answer)).mems = s.mems := by
  unfold State.spdmServe
  try dsimp only
  repeat' (first
    | with_reducible assumption | (with_reducible refine (hanswer ..).trans ?_)
    | (simp only [State.mems_mk]; with_reducible refine (State.mems_eta _).trans ?_)
    | (with_reducible refine ite_mems ?_ ?_) | (with_reducible refine (State.spdmError_mems ..).trans ?_)
    | (with_reducible refine (State.mctpTake_mems (fun _ => ?_) ..).trans ?_) | with_reducible exact State.mems_self _
    | dsimp only | split)

theorem State.spdmServe_pend {answer : State → Spdm → State} (hanswer : ∀ y0 y1, (answer y0 y1).pend = y0.pend) (s : State) (p : Nat) (code : Nat) (need : Nat) (req : List Nat) :
    ((State.spdmServe s p code need req answer)).pend = s.pend := by
  unfold State.spdmServe
  try dsimp only
  repeat' (first
    | with_reducible assumption | (with_reducible refine (hanswer ..).trans ?_)
    | (simp only [State.pend_mk]; with_reducible refine (State.pend_eta _).trans ?_)
    | (with_reducible refine ite_pend ?_ ?_)
    | (with_reducible refine (State.pend_of_mems (State.spdmError_mems ..)).trans ?_)
    | (with_reducible refine (State.mctpTake_pend (fun _ => ?_) ..).trans ?_) | with_reducible exact State.pend_self _
    | dsimp only | split)

theorem State.spdmServe_canon {s : State} {answer : State → Spdm → State} (hanswer : ∀ y0 y1, y0.canon → (answer y0 y1).canon) (hs : s.canon) (p : Nat) (code : Nat) (need : Nat) (req : List Nat) :
    ((State.spdmServe s p code need req answer)).canon := by
  unfold State.spdmServe
  try dsimp only
  repeat' (first
    | with_reducible assumption | (with_reducible refine hanswer _ _ ?_)
    | (simp only [State.canon_mk]; with_reducible refine State.canon_eta ?_) | (with_reducible refine ite_canon ?_ ?_)
    | (with_reducible refine State.canon_of_mems (State.spdmError_mems ..) ?_)
    | (with_reducible refine State.mctpTake_canon (fun _ _ => ?_) ?_ ..) | dsimp only | split)

theorem execGetVersion_mems {p : Nat} {req : List Nat} {s : State} {zt : State} (zh : execGetVersion p req s = .next zt) :
    zt.mems = s.mems := by
  unfold execGetVersion at zh
  cases zh
  try dsimp only
  repeat' (first
    | with_reducible assumption | (simp only [State.mems_mk]; with_reducible refine (State.mems_eta _).trans ?_)
    | (with_reducible refine ite_mems ?_ ?_)
    | (with_reducible refine (State.spdmServe_mems (fun _ _ => ?_) ..).trans ?_)
    | (with_reducible refine (State.spdmSend_mems ..).trans ?_)
    | (with_reducible refine (State.setSpdm_mems ..).trans ?_) | with_reducible exact State.mems_self _ | dsimp only
    | split)

theorem execGetCapabilities_mems {p : Nat} {req : List Nat} {s : State} {zt : State} (zh : execGetCapabilities p req s = .next zt) :
    zt.mems = s.mems := by
  unfold execGetCapabilities at zh
  cases zh
  try dsimp only
  repeat' (first
    | with_reducible assumption | (simp only [State.mems_mk]; with_reducible refine (State.mems_eta _).trans ?_)
    | (with_reducible refine ite_mems ?_ ?_)
    | (with_reducible refine (State.spdmServe_mems (fun _ _ => ?_) ..).trans ?_)
    | (with_reducible refine (State.spdmSend_mems ..).trans ?_)
    | (with_reducible refine (State.setSpdm_mems ..).trans ?_) | with_reducible exact State.mems_self _ | dsimp only
    | split)

theorem execNegotiateAlgorithms_mems {p : Nat} {req : List Nat} {s : State} {zt : State} (zh : execNegotiateAlgorithms p req s = .next zt) :
    zt.mems = s.mems := by
  unfold execNegotiateAlgorithms at zh
  cases zh
  try dsimp only
  repeat' (first
    | with_reducible assumption | (simp only [State.mems_mk]; with_reducible refine (State.mems_eta _).trans ?_)
    | (with_reducible refine ite_mems ?_ ?_)
    | (with_reducible refine (State.spdmServe_mems (fun _ _ => ?_) ..).trans ?_)
    | (with_reducible refine (State.spdmSend_mems ..).trans ?_)
    | (with_reducible refine (State.setSpdm_mems ..).trans ?_) | with_reducible exact State.mems_self _ | dsimp only
    | split)

theorem execGetDigests_mems {p : Nat} {req : List Nat} {s : State} {zt : State} (zh : execGetDigests p req s = .next zt) :
    zt.mems = s.mems := by
  unfold execGetDigests at zh
  cases zh
  try dsimp only
  repeat' (first
    | with_reducible assumption | (simp only [State.mems_mk]; with_reducible refine (State.mems_eta _).trans ?_)
    | (with_reducible refine ite_mems ?_ ?_)
    | (with_reducible refine (State.spdmServe_mems (fun _ _ => ?_) ..).trans ?_)
    | (with_reducible refine (State.spdmError_mems ..).trans ?_)
    | (with_reducible refine (State.spdmSend_mems ..).trans ?_)
    | (with_reducible refine (State.setSpdm_mems ..).trans ?_) | with_reducible exact State.mems_self _ | dsimp only
    | split)

theorem execGetCertificate_mems {p : Nat} {req : List Nat} {s : State} {zt : State} (zh : execGetCertificate p req s = .next zt) :
    zt.mems = s.mems := by
  unfold execGetCertificate at zh
  cases zh
  try dsimp only
  repeat' (first
    | with_reducible assumption | (simp only [State.mems_mk]; with_reducible refine (State.mems_eta _).trans ?_)
    | (with_reducible refine ite_mems ?_ ?_)
    | (with_reducible refine (State.spdmServe_mems (fun _ _ => ?_) ..).trans ?_)
    | (with_reducible refine (State.spdmError_mems ..).trans ?_)
    | (with_reducible refine (State.spdmSend_mems ..).trans ?_)
    | (with_reducible refine (State.setSpdm_mems ..).trans ?_) | with_reducible exact State.mems_self _ | dsimp only
    | split)

theorem State.spdmSign_mems (s : State) (context : String) (msgs : List Nat) :
    ((State.spdmSign s context msgs).1).mems = s.mems := by
  unfold State.spdmSign
  try dsimp only
  repeat' (first
    | with_reducible assumption | (simp only [State.mems_mk]; with_reducible refine (State.mems_eta _).trans ?_)
    | (with_reducible refine ite_mems ?_ ?_) | (with_reducible refine (State.drawScalar_mems ..).trans ?_)
    | (with_reducible refine (State.drawScalar_mems' (by assumption)).trans ?_)
    | with_reducible exact State.mems_self _ | dsimp only | split)
theorem State.spdmSign_mems' {s : State} {context : String} {msgs : List Nat} {zr} {zq : State}
    (zh : (State.spdmSign s context msgs) = (zq, zr)) : zq.mems = s.mems := by
  have := (State.spdmSign_mems s context msgs)
  rw [zh] at this
  exact this

theorem State.drawNonce_mems (s : State) :
    ((State.drawNonce s).1).mems = s.mems := by
  unfold State.drawNonce
  try dsimp only
  repeat' (first
    | with_reducible assumption | (simp only [State.mems_mk]; with_reducible refine (State.mems_eta _).trans ?_)
    | (with_reducible refine ite_mems ?_ ?_) | (with_reducible refine (State.draw_mems ..).trans ?_)
    | (with_reducible refine (State.draw_mems' (by assumption)).trans ?_) | with_reducible exact State.mems_self _
    | dsimp only | split)
theorem State.drawNonce_mems' {s : State} {zr} {zq : State}
    (zh : (State.drawNonce s) = (zq, zr)) : zq.mems = s.mems := by
  have := (State.drawNonce_mems s)
  rw [zh] at this
  exact this

theorem execChallenge_mems {p : Nat} {req : List Nat} {s : State} {zt : State} (zh : execChallenge p req s = .next zt) :
    zt.mems = s.mems := by
  unfold execChallenge at zh
  cases zh
  try dsimp only
  repeat' (first
    | with_reducible assumption | (simp only [State.mems_mk]; with_reducible refine (State.mems_eta _).trans ?_)
    | (with_reducible refine ite_mems ?_ ?_) | (with_reducible refine (State.drawNonce_mems ..).trans ?_)
    | (with_reducible refine (State.drawNonce_mems' (by assumption)).trans ?_)
    | (with_reducible refine (State.spdmSign_mems ..).trans ?_)
    | (with_reducible refine (State.spdmSign_mems' (by assumption)).trans ?_)
    | (with_reducible refine (State.spdmServe_mems (fun _ _ => ?_) ..).trans ?_)
    | (with_reducible refine (State.spdmError_mems ..).trans ?_)
    | (with_reducible refine (State.spdmSend_mems ..).trans ?_)
    | (with_reducible refine (State.setSpdm_mems ..).trans ?_) | with_reducible exact State.mems_self _ | dsimp only
    | split)

theorem execGetMeasurements_mems {p : Nat} {req : List Nat} {s : State} {zt : State} (zh : execGetMeasurements p req s = .next zt) :
    zt.mems = s.mems := by
  unfold execGetMeasurements at zh
  cases zh
  try dsimp only
  repeat' (first
    | with_reducible assumption | (simp only [State.mems_mk]; with_reducible refine (State.mems_eta _).trans ?_)
    | (with_reducible refine ite_mems ?_ ?_) | (with_reducible refine (State.drawNonce_mems ..).trans ?_)
    | (with_reducible refine (State.drawNonce_mems' (by assumption)).trans ?_)
    | (with_reducible refine (State.spdmSign_mems ..).trans ?_)
    | (with_reducible refine (State.spdmSign_mems' (by assumption)).trans ?_)
    | (with_reducible refine (State.spdmServe_mems (fun _ _ => ?_) ..).trans ?_)
    | (with_reducible refine (State.spdmError_mems ..).trans ?_)
    | (with_reducible refine (State.spdmSend_mems ..).trans ?_)
    | (with_reducible refine (State.setSpdm_mems ..).trans ?_) | with_reducible exact State.mems_self _ | dsimp only
    | split)

theorem execSpdmBusyTimeout_mems {p : Nat} {s : State} {zt : State} (zh : execSpdmBusyTimeout p s = .next zt) :
    zt.mems = s.mems := by
  unfold execSpdmBusyTimeout at zh
  cases zh
  try dsimp only
  repeat' (first
    | with_reducible assumption | (simp only [State.mems_mk]; with_reducible refine (State.mems_eta _).trans ?_)
    | (with_reducible refine ite_mems ?_ ?_) | (with_reducible refine (State.spdmError_mems ..).trans ?_)
    | with_reducible exact State.mems_self _ | dsimp only | split)

theorem State.setLevelOf_mems (s : State) (id : Nat) (n : Nat) :
    ((State.setLevelOf s id n)).mems = s.mems := by
  unfold State.setLevelOf
  try dsimp only
  repeat' (first
    | with_reducible assumption | (simp only [State.mems_mk]; with_reducible refine (State.mems_eta _).trans ?_)
    | (with_reducible refine ite_mems ?_ ?_) | (with_reducible refine (State.updHub_mems ..).trans ?_)
    | with_reducible exact State.mems_self _ | dsimp only | split)

theorem State.pldmAnswer_mems (s : State) (b : Nat) (typ : Nat) (cmd : Nat) (code : Nat) (data : List Nat) :
    ((State.pldmAnswer s b typ cmd code data)).mems = s.mems := by
  unfold State.pldmAnswer
  try dsimp only
  repeat' (first
    | with_reducible assumption | (simp only [State.mems_mk]; with_reducible refine (State.mems_eta _).trans ?_)
    | (with_reducible refine ite_mems ?_ ?_) | (with_reducible refine (State.send_mems ..).trans ?_)
    | with_reducible exact State.mems_self _ | dsimp only | split)

theorem State.alert_mems (s : State) (before : State) :
    ((State.alert s before)).mems = s.mems := by
  unfold State.alert
  try dsimp only
  repeat' (first
    | with_reducible assumption | (simp only [State.mems_mk]; with_reducible refine (State.mems_eta _).trans ?_)
    | (with_reducible refine ite_mems ?_ ?_) | (with_reducible refine (State.send_mems ..).trans ?_)
    | with_reducible exact State.mems_self _ | dsimp only | split)

theorem State.pldmEvent_mems (s : State) (e : PldmEvent) :
    ((State.pldmEvent s e)).mems = s.mems := by
  unfold State.pldmEvent
  try dsimp only
  repeat' (first
    | with_reducible assumption | (simp only [State.mems_mk]; with_reducible refine (State.mems_eta _).trans ?_)
    | (with_reducible refine ite_mems ?_ ?_) | (with_reducible refine (State.alert_mems ..).trans ?_)
    | (with_reducible refine (State.mctpDrop_mems ..).trans ?_)
    | (with_reducible refine (State.updHub_mems ..).trans ?_) | (with_reducible refine (State.send_mems ..).trans ?_)
    | with_reducible exact State.mems_self _ | dsimp only | split)

theorem State.scanNum_mems (s : State) (id : Nat) :
    ((State.scanNum s id)).mems = s.mems := by
  unfold State.scanNum
  try dsimp only
  repeat' (first
    | with_reducible assumption | (simp only [State.mems_mk]; with_reducible refine (State.mems_eta _).trans ?_)
    | (with_reducible refine ite_mems ?_ ?_) | (with_reducible refine (State.pldmEvent_mems ..).trans ?_)
    | (with_reducible refine (State.setLevelOf_mems ..).trans ?_)
    | (with_reducible refine (forEach_mems (fun _ _ => ?_) ..).trans ?_) | with_reducible exact State.mems_self _
    | dsimp only | split)

theorem State.scanState_mems (s : State) (id : Nat) :
    ((State.scanState s id)).mems = s.mems := by
  unfold State.scanState
  try dsimp only
  repeat' (first
    | with_reducible assumption | (simp only [State.mems_mk]; with_reducible refine (State.mems_eta _).trans ?_)
    | (with_reducible refine ite_mems ?_ ?_) | (with_reducible refine (State.pldmEvent_mems ..).trans ?_)
    | (with_reducible refine (State.setLevelOf_mems ..).trans ?_) | with_reducible exact State.mems_self _
    | dsimp only | split)

theorem State.pldmScan_mems (s : State) :
    ((State.pldmScan s)).mems = s.mems := by
  unfold State.pldmScan
  try dsimp only
  repeat' (first
    | with_reducible assumption | (simp only [State.mems_mk]; with_reducible refine (State.mems_eta _).trans ?_)
    | (with_reducible refine ite_mems ?_ ?_) | (with_reducible refine (State.scanState_mems ..).trans ?_)
    | (with_reducible refine (State.scanNum_mems ..).trans ?_)
    | (with_reducible refine (forEach_mems (fun _ _ => ?_) ..).trans ?_) | with_reducible exact State.mems_self _
    | dsimp only | split)

theorem execGetTid_mems {b : Nat} {s : State} {zt : State} (zh : execGetTid b s = .next zt) :
    zt.mems = s.mems := by
  unfold execGetTid at zh
  cases zh
  try dsimp only
  repeat' (first
    | with_reducible assumption | (simp only [State.mems_mk]; with_reducible refine (State.mems_eta _).trans ?_)
    | (with_reducible refine ite_mems ?_ ?_) | (with_reducible refine (State.pldmAnswer_mems ..).trans ?_)
    | (with_reducible refine (State.mctpTake_mems (fun _ => ?_) ..).trans ?_) | with_reducible exact State.mems_self _
    | dsimp only | split)

theorem execGetPldmVersion_mems {b : Nat} {typ : Nat} {s : State} {zt : State} (zh : execGetPldmVersion b typ s = .next zt) :
    zt.mems = s.mems := by
  unfold execGetPldmVersion at zh
  cases zh
  try dsimp only
  repeat' (first
    | with_reducible assumption | (simp only [State.mems_mk]; with_reducible refine (State.mems_eta _).trans ?_)
    | (with_reducible refine ite_mems ?_ ?_) | (with_reducible refine (State.pldmAnswer_mems ..).trans ?_)
    | (with_reducible refine (State.mctpTake_mems (fun _ => ?_) ..).trans ?_) | with_reducible exact State.mems_self _
    | dsimp only | split)

theorem execGetPldmTypes_mems {b : Nat} {s : State} {zt : State} (zh : execGetPldmTypes b s = .next zt) :
    zt.mems = s.mems := by
  unfold execGetPldmTypes at zh
  cases zh
  try dsimp only
  repeat' (first
    | with_reducible assumption | (simp only [State.mems_mk]; with_reducible refine (State.mems_eta _).trans ?_)
    | (with_reducible refine ite_mems ?_ ?_) | (with_reducible refine (State.pldmAnswer_mems ..).trans ?_)
    | (with_reducible refine (State.mctpTake_mems (fun _ => ?_) ..).trans ?_) | with_reducible exact State.mems_self _
    | dsimp only | split)

theorem execGetPldmCommands_mems {b : Nat} {typ : Nat} {s : State} {zt : State} (zh : execGetPldmCommands b typ s = .next zt) :
    zt.mems = s.mems := by
  unfold execGetPldmCommands at zh
  cases zh
  try dsimp only
  repeat' (first
    | with_reducible assumption | (simp only [State.mems_mk]; with_reducible refine (State.mems_eta _).trans ?_)
    | (with_reducible refine ite_mems ?_ ?_) | (with_reducible refine (State.pldmAnswer_mems ..).trans ?_)
    | (with_reducible refine (State.mctpTake_mems (fun _ => ?_) ..).trans ?_) | with_reducible exact State.mems_self _
    | dsimp only | split)

theorem execGetPdrRepositoryInfo_mems {b : Nat} {s : State} {zt : State} (zh : execGetPdrRepositoryInfo b s = .next zt) :
    zt.mems = s.mems := by
  unfold execGetPdrRepositoryInfo at zh
  cases zh
  try dsimp only
  repeat' (first
    | with_reducible assumption | (simp only [State.mems_mk]; with_reducible refine (State.mems_eta _).trans ?_)
    | (with_reducible refine ite_mems ?_ ?_) | (with_reducible refine (State.pldmAnswer_mems ..).trans ?_)
    | (with_reducible refine (State.mctpTake_mems (fun _ => ?_) ..).trans ?_)
    | (with_reducible refine (foldl_mems (fun _ _ => ?_) ..).trans ?_)
    | (with_reducible refine (foldl1_mems (fun _ _ => ?_) ..).trans ?_) | with_reducible exact State.mems_self _
    | dsimp only | split)

theorem execGetPdr_mems {b : Nat} {handle : Nat} {s : State} {zt : State} (zh : execGetPdr b handle s = .next zt) :
    zt.mems = s.mems := by
  unfold execGetPdr at zh
  cases zh
  try dsimp only
  repeat' (first
    | with_reducible assumption | (simp only [State.mems_mk]; with_reducible refine (State.mems_eta _).trans ?_)
    | (with_reducible refine ite_mems ?_ ?_) | (with_reducible refine (State.pldmAnswer_mems ..).trans ?_)
    | (with_reducible refine (State.mctpTake_mems (fun _ => ?_) ..).trans ?_) | with_reducible exact State.mems_self _
    | dsimp only | split)

theorem execGetSensorReading_mems {b : Nat} {sensor : Nat} {s : State} {zt : State} (zh : execGetSensorReading b sensor s = .next zt) :
    zt.mems = s.mems := by
  unfold execGetSensorReading at zh
  cases zh
  try dsimp only
  repeat' (first
    | with_reducible assumption | (simp only [State.mems_mk]; with_reducible refine (State.mems_eta _).trans ?_)
    | (with_reducible refine ite_mems ?_ ?_) | (with_reducible refine (State.pldmAnswer_mems ..).trans ?_)
    | (with_reducible refine (State.mctpTake_mems (fun _ => ?_) ..).trans ?_) | with_reducible exact State.mems_self _
    | dsimp only | split)

theorem execGetStateSensorReadings_mems {b : Nat} {sensor : Nat} {s : State} {zt : State} (zh : execGetStateSensorReadings b sensor s = .next zt) :
    zt.mems = s.mems := by
  unfold execGetStateSensorReadings at zh
  cases zh
  try dsimp only
  repeat' (first
    | with_reducible assumption | (simp only [State.mems_mk]; with_reducible refine (State.mems_eta _).trans ?_)
    | (with_reducible refine ite_mems ?_ ?_) | (with_reducible refine (State.pldmAnswer_mems ..).trans ?_)
    | (with_reducible refine (State.mctpTake_mems (fun _ => ?_) ..).trans ?_) | with_reducible exact State.mems_self _
    | dsimp only | split)

theorem execSetNumericSensorEnable_mems {b : Nat} {sensor : Nat} {op : Nat} {s : State} {zt : State} (zh : execSetNumericSensorEnable b sensor op s = .next zt) :
    zt.mems = s.mems := by
  unfold execSetNumericSensorEnable at zh
  cases zh
  try dsimp only
  repeat' (first
    | with_reducible assumption | (simp only [State.mems_mk]; with_reducible refine (State.mems_eta _).trans ?_)
    | (with_reducible refine ite_mems ?_ ?_) | (with_reducible refine (State.pldmAnswer_mems ..).trans ?_)
    | (with_reducible refine (State.mctpTake_mems (fun _ => ?_) ..).trans ?_)
    | (with_reducible refine (State.updHub_mems ..).trans ?_) | with_reducible exact State.mems_self _ | dsimp only
    | split)

theorem State.baseline_mems (s : State) :
    ((State.baseline s)).mems = s.mems := by
  unfold State.baseline
  try dsimp only
  repeat' (first
    | with_reducible assumption | (simp only [State.mems_mk]; with_reducible refine (State.mems_eta _).trans ?_)
    | (with_reducible refine ite_mems ?_ ?_) | (with_reducible refine (State.setLevelOf_mems ..).trans ?_)
    | (with_reducible refine (forEach_mems (fun _ _ => ?_) ..).trans ?_) | with_reducible exact State.mems_self _
    | dsimp only | split)

theorem execSetEventReceiver_mems {b : Nat} {enable : Nat} {eid : Nat} {s : State} {zt : State} (zh : execSetEventReceiver b enable eid s = .next zt) :
    zt.mems = s.mems := by
  unfold execSetEventReceiver at zh
  cases zh
  try dsimp only
  repeat' (first
    | with_reducible assumption | (simp only [State.mems_mk]; with_reducible refine (State.mems_eta _).trans ?_)
    | (with_reducible refine ite_mems ?_ ?_) | (with_reducible refine (State.baseline_mems ..).trans ?_)
    | (with_reducible refine (State.pldmAnswer_mems ..).trans ?_)
    | (with_reducible refine (State.mctpTake_mems (fun _ => ?_) ..).trans ?_)
    | (with_reducible refine (State.updHub_mems ..).trans ?_) | with_reducible exact State.mems_self _ | dsimp only
    | split)

theorem execPldmEventAck_mems {n : Nat} {s : State} {zt : State} (zh : execPldmEventAck n s = .next zt) :
    zt.mems = s.mems := by
  unfold execPldmEventAck at zh
  cases zh
  try dsimp only
  repeat' (first
    | with_reducible assumption | (simp only [State.mems_mk]; with_reducible refine (State.mems_eta _).trans ?_)
    | (with_reducible refine ite_mems ?_ ?_) | (with_reducible refine (State.alert_mems ..).trans ?_)
    | (with_reducible refine (State.updHub_mems ..).trans ?_) | with_reducible exact State.mems_self _ | dsimp only
    | split)

end Sys2Proof.Machine
end

