-- ==== Sys2Proof/Laws/FrameRecompute.lean ====
section
/-! SUPPORT. Frames of Machine/Recompute.lean: what each operation and command leaves alone of the memories and the queue. -/

set_option linter.all false

namespace Sys2Proof.Machine

theorem State.rcmpStart_pend (s : State) (m : State) (g : Nat) (q : RcmpReq) :
    ((State.rcmpStart s m g q)).pend = s.pend := by
  unfold State.rcmpStart
  try dsimp only
  repeat' (first
    | with_reducible assumption | (simp only [State.pend_mk]; with_reducible refine (State.pend_eta _).trans ?_)
    | (with_reducible refine ite_pend ?_ ?_)
    | (with_reducible refine (State.pend_of_mems (State.veStart_mems ..)).trans ?_)
    | (with_reducible refine (State.pend_of_mems (State.updVe_mems ..)).trans ?_)
    | (with_reducible refine (State.pend_of_mems (State.hngStart_mems ..)).trans ?_)
    | (with_reducible refine (State.pend_of_mems (State.updHng_mems ..)).trans ?_)
    | (with_reducible refine (State.laneStart_pend ..).trans ?_)
    | (with_reducible refine (State.pend_of_mems (State.dropUnit_mems ..)).trans ?_)
    | (with_reducible refine (State.pend_of_mems (State.rcmpDone_mems ..)).trans ?_)
    | (with_reducible refine (State.pend_of_mems (State.updLane_mems ..)).trans ?_)
    | with_reducible exact State.pend_self _ | dsimp only | split)

theorem State.rcmpStart_canon {s : State} (hs : s.canon) (m : State) (g : Nat) (q : RcmpReq) :
    ((State.rcmpStart s m g q)).canon := by
  unfold State.rcmpStart
  try dsimp only
  repeat' (first
    | with_reducible assumption | (simp only [State.canon_mk]; with_reducible refine State.canon_eta ?_)
    | (with_reducible refine ite_canon ?_ ?_) | (with_reducible refine State.canon_of_mems (State.veStart_mems ..) ?_)
    | (with_reducible refine State.canon_of_mems (State.updVe_mems ..) ?_)
    | (with_reducible refine State.canon_of_mems (State.hngStart_mems ..) ?_)
    | (with_reducible refine State.canon_of_mems (State.updHng_mems ..) ?_)
    | (with_reducible refine State.laneStart_canon ?_ ..)
    | (with_reducible refine State.canon_of_mems (State.dropUnit_mems ..) ?_)
    | (with_reducible refine State.canon_of_mems (State.rcmpDone_mems ..) ?_)
    | (with_reducible refine State.canon_of_mems (State.updLane_mems ..) ?_) | dsimp only | split)

theorem execRecompute_pend {core : Nat} {s : State} {zt : State} (zh : execRecompute core s = .next zt) :
    zt.pend = s.pend := by
  unfold execRecompute at zh
  cases zh
  try dsimp only
  repeat' (first
    | with_reducible assumption | (simp only [State.pend_mk]; with_reducible refine (State.pend_eta _).trans ?_)
    | (with_reducible refine ite_pend ?_ ?_) | (with_reducible refine (State.rcmpStart_pend ..).trans ?_)
    | (with_reducible refine (State.gateReads_pend ..).trans ?_)
    | (with_reducible refine (State.gateReads_pend' (by assumption)).trans ?_)
    | (with_reducible refine (State.pend_of_mems (State.updCore_mems ..)).trans ?_)
    | with_reducible exact State.pend_self _ | dsimp only | split)

theorem execRecompute_canon {core : Nat} {s : State} {zt : State} (hs : s.canon) (zh : execRecompute core s = .next zt) :
    zt.canon := by
  unfold execRecompute at zh
  cases zh
  try dsimp only
  repeat' (first
    | with_reducible assumption | (simp only [State.canon_mk]; with_reducible refine State.canon_eta ?_)
    | (with_reducible refine ite_canon ?_ ?_) | (with_reducible refine State.rcmpStart_canon ?_ ..)
    | (with_reducible refine State.gateReads_canon ?_ ..)
    | (with_reducible refine State.gateReads_canon' (by assumption) ?_)
    | (with_reducible refine State.canon_of_mems (State.updCore_mems ..) ?_) | dsimp only | split)

end Sys2Proof.Machine
end

