-- ==== Sys2Proof/Laws/FrameTick.lean ====
section
/-! SUPPORT. Frames of Machine/Tick.lean: what each operation and command leaves alone of the memories and the queue. -/

set_option linter.all false

namespace Sys2Proof.Machine

theorem State.freeNotes_mems (s : State) :
    ((State.freeNotes s)).mems = s.mems := by
  unfold State.freeNotes
  try dsimp only
  repeat' (first
    | with_reducible assumption | (simp only [State.mems_mk]; with_reducible refine (State.mems_eta _).trans ?_)
    | (with_reducible refine ite_mems ?_ ?_) | with_reducible exact State.mems_self _ | dsimp only | split)

theorem State.closeMisuse_mems (s : State) :
    ((State.closeMisuse s)).mems = s.mems := by
  unfold State.closeMisuse
  try dsimp only
  repeat' (first
    | with_reducible assumption | (simp only [State.mems_mk]; with_reducible refine (State.mems_eta _).trans ?_)
    | (with_reducible refine ite_mems ?_ ?_) | (with_reducible refine (State.gwEvent_mems ..).trans ?_)
    | (with_reducible refine (State.updHost_mems ..).trans ?_) | with_reducible exact State.mems_self _ | dsimp only
    | split)

theorem State.traceWrite_pend (s : State) (e : Nat × Nat) :
    ((State.traceWrite s e)).pend = s.pend := by
  unfold State.traceWrite
  try dsimp only
  repeat' (first
    | with_reducible assumption | (simp only [State.pend_mk]; with_reducible refine (State.pend_eta _).trans ?_)
    | (with_reducible refine ite_pend ?_ ?_) | (with_reducible refine (State.writeAt_pend ..).trans ?_)
    | (with_reducible refine (State.pend_of_mems (State.fresh_mems ..)).trans ?_)
    | (with_reducible refine (State.pend_of_mems (State.bump_mems ..)).trans ?_)
    | (with_reducible refine (State.pend_of_mems (State.wr_mems ..)).trans ?_)
    | with_reducible exact State.pend_self _ | dsimp only | split)

theorem State.traceWrite_canon {s : State} (hs : s.canon) (e : Nat × Nat) :
    ((State.traceWrite s e)).canon := by
  unfold State.traceWrite
  try dsimp only
  repeat' (first
    | with_reducible assumption | (simp only [State.canon_mk]; with_reducible refine State.canon_eta ?_)
    | (with_reducible refine ite_canon ?_ ?_) | (with_reducible refine State.writeAt_canon ?_ ..)
    | (with_reducible refine State.canon_of_mems (State.fresh_mems ..) ?_)
    | (with_reducible refine State.canon_of_mems (State.bump_mems ..) ?_)
    | (with_reducible refine State.canon_of_mems (State.wr_mems ..) ?_) | dsimp only | split)

theorem State.traceOut_pend (s : State) :
    ((State.traceOut s)).pend = s.pend := by
  unfold State.traceOut
  try dsimp only
  repeat' (first
    | with_reducible assumption | (simp only [State.pend_mk]; with_reducible refine (State.pend_eta _).trans ?_)
    | (with_reducible refine ite_pend ?_ ?_) | (with_reducible refine (State.traceWrite_pend ..).trans ?_)
    | (with_reducible refine (State.pend_of_mems (State.updHub_mems ..)).trans ?_)
    | (with_reducible refine (forEach_pend (fun _ _ => ?_) ..).trans ?_) | with_reducible exact State.pend_self _
    | dsimp only | split)

theorem State.traceOut_canon {s : State} (hs : s.canon) :
    ((State.traceOut s)).canon := by
  unfold State.traceOut
  try dsimp only
  repeat' (first
    | with_reducible assumption | (simp only [State.canon_mk]; with_reducible refine State.canon_eta ?_)
    | (with_reducible refine ite_canon ?_ ?_) | (with_reducible refine State.traceWrite_canon ?_ ..)
    | (with_reducible refine State.canon_of_mems (State.updHub_mems ..) ?_)
    | (with_reducible refine forEach_canon (fun _ _ _ => ?_) ?_ ..) | dsimp only | split)

theorem State.tick_pend (s : State) :
    ((State.tick s)).pend = s.pend := by
  unfold State.tick
  try dsimp only
  repeat' (first
    | with_reducible assumption | (simp only [State.pend_mk]; with_reducible refine (State.pend_eta _).trans ?_)
    | (with_reducible refine ite_pend ?_ ?_) | (with_reducible refine (State.traceOut_pend ..).trans ?_)
    | (with_reducible refine (State.pend_of_mems (State.closeMisuse_mems ..)).trans ?_)
    | (with_reducible refine (State.pend_of_mems (State.freeNotes_mems ..)).trans ?_)
    | (with_reducible refine (State.pend_of_mems (State.pldmScan_mems ..)).trans ?_)
    | (with_reducible refine (State.sweepEnd_pend ..).trans ?_)
    | (with_reducible refine (State.pend_of_mems (State.wardServe_mems ..)).trans ?_)
    | (with_reducible refine (State.pend_of_mems (State.tierAnswers_mems ..)).trans ?_)
    | (with_reducible refine (State.pend_of_mems (State.sendAcks_mems ..)).trans ?_)
    | (with_reducible refine (State.pend_of_mems (State.wr_mems ..)).trans ?_)
    | with_reducible exact State.pend_self _ | dsimp only | split)

theorem State.tick_canon {s : State} (hs : s.canon) :
    ((State.tick s)).canon := by
  unfold State.tick
  try dsimp only
  repeat' (first
    | with_reducible assumption | (simp only [State.canon_mk]; with_reducible refine State.canon_eta ?_)
    | (with_reducible refine ite_canon ?_ ?_) | (with_reducible refine State.traceOut_canon ?_ ..)
    | (with_reducible refine State.canon_of_mems (State.closeMisuse_mems ..) ?_)
    | (with_reducible refine State.canon_of_mems (State.freeNotes_mems ..) ?_)
    | (with_reducible refine State.canon_of_mems (State.pldmScan_mems ..) ?_)
    | (with_reducible refine State.sweepEnd_canon ?_ ..)
    | (with_reducible refine State.canon_of_mems (State.wardServe_mems ..) ?_)
    | (with_reducible refine State.canon_of_mems (State.tierAnswers_mems ..) ?_)
    | (with_reducible refine State.canon_of_mems (State.sendAcks_mems ..) ?_)
    | (with_reducible refine State.canon_of_mems (State.wr_mems ..) ?_) | dsimp only | split)

end Sys2Proof.Machine
end

