-- ==== Sys2Proof/Laws/State.lean ====
section
/-! SUPPORT. The small lemmas of State: what each plain update leaves in each field, and read after write of registers and
cores. -/

namespace Sys2Proof.Machine

/-! ## One lemma per field per update -/

@[simp] theorem State.wr_vmem (s : State) (r : Reg) (i k v : Nat) : (s.wr r i k v).vmem = s.vmem := rfl
@[simp] theorem State.wr_stg (s : State) (r : Reg) (i k v : Nat) : (s.wr r i k v).stg = s.stg := rfl
@[simp] theorem State.wr_cores (s : State) (r : Reg) (i k v : Nat) : (s.wr r i k v).cores = s.cores := rfl
@[simp] theorem State.wr_saves (s : State) (r : Reg) (i k v : Nat) : (s.wr r i k v).saves = s.saves := rfl
@[simp] theorem State.wr_sigRetry (s : State) (r : Reg) (i k v : Nat) : (s.wr r i k v).sigRetry = s.sigRetry := rfl
@[simp] theorem State.wr_fltq (s : State) (r : Reg) (i k v : Nat) : (s.wr r i k v).fltq = s.fltq := rfl
@[simp] theorem State.wr_fltIn (s : State) (r : Reg) (i k v : Nat) : (s.wr r i k v).fltIn = s.fltIn := rfl
@[simp] theorem State.wr_fltSeq (s : State) (r : Reg) (i k v : Nat) : (s.wr r i k v).fltSeq = s.fltSeq := rfl
@[simp] theorem State.wr_viols (s : State) (r : Reg) (i k v : Nat) : (s.wr r i k v).viols = s.viols := rfl
@[simp] theorem State.wr_slots (s : State) (r : Reg) (i k v : Nat) : (s.wr r i k v).slots = s.slots := rfl
@[simp] theorem State.wr_frames (s : State) (r : Reg) (i k v : Nat) : (s.wr r i k v).frames = s.frames := rfl
@[simp] theorem State.wr_tier (s : State) (r : Reg) (i k v : Nat) : (s.wr r i k v).tier = s.tier := rfl
@[simp] theorem State.wr_snap (s : State) (r : Reg) (i k v : Nat) : (s.wr r i k v).snap = s.snap := rfl
@[simp] theorem State.wr_host (s : State) (r : Reg) (i k v : Nat) : (s.wr r i k v).host = s.host := rfl
@[simp] theorem State.wr_img (s : State) (r : Reg) (i k v : Nat) : (s.wr r i k v).img = s.img := rfl
@[simp] theorem State.wr_prg (s : State) (r : Reg) (i k v : Nat) : (s.wr r i k v).prg = s.prg := rfl
@[simp] theorem State.wr_flt (s : State) (r : Reg) (i k v : Nat) : (s.wr r i k v).flt = s.flt := rfl
@[simp] theorem State.wr_ward (s : State) (r : Reg) (i k v : Nat) : (s.wr r i k v).ward = s.ward := rfl
@[simp] theorem State.wr_boot (s : State) (r : Reg) (i k v : Nat) : (s.wr r i k v).boot = s.boot := rfl
@[simp] theorem State.wr_pwr (s : State) (r : Reg) (i k v : Nat) : (s.wr r i k v).pwr = s.pwr := rfl
@[simp] theorem State.wr_hub (s : State) (r : Reg) (i k v : Nat) : (s.wr r i k v).hub = s.hub := rfl
@[simp] theorem State.wr_runStop (s : State) (r : Reg) (i k v : Nat) : (s.wr r i k v).runStop = s.runStop := rfl
@[simp] theorem State.wr_outbox (s : State) (r : Reg) (i k v : Nat) : (s.wr r i k v).outbox = s.outbox := rfl
@[simp] theorem State.wr_freeIx (s : State) (r : Reg) (i k v : Nat) : (s.wr r i k v).freeIx = s.freeIx := rfl
@[simp] theorem State.wr_pending (s : State) (r : Reg) (i k v : Nat) : (s.wr r i k v).pending = s.pending := rfl

@[simp] theorem State.wrF_vmem (s : State) (r : Reg) (i k lo w v : Nat) : (s.wrF r i k lo w v).vmem = s.vmem := rfl
@[simp] theorem State.wrF_stg (s : State) (r : Reg) (i k lo w v : Nat) : (s.wrF r i k lo w v).stg = s.stg := rfl
@[simp] theorem State.wrF_cores (s : State) (r : Reg) (i k lo w v : Nat) : (s.wrF r i k lo w v).cores = s.cores := rfl
@[simp] theorem State.wrF_saves (s : State) (r : Reg) (i k lo w v : Nat) : (s.wrF r i k lo w v).saves = s.saves := rfl
@[simp] theorem State.wrF_sigRetry (s : State) (r : Reg) (i k lo w v : Nat) : (s.wrF r i k lo w v).sigRetry = s.sigRetry := rfl
@[simp] theorem State.wrF_fltq (s : State) (r : Reg) (i k lo w v : Nat) : (s.wrF r i k lo w v).fltq = s.fltq := rfl
@[simp] theorem State.wrF_fltIn (s : State) (r : Reg) (i k lo w v : Nat) : (s.wrF r i k lo w v).fltIn = s.fltIn := rfl
@[simp] theorem State.wrF_fltSeq (s : State) (r : Reg) (i k lo w v : Nat) : (s.wrF r i k lo w v).fltSeq = s.fltSeq := rfl
@[simp] theorem State.wrF_viols (s : State) (r : Reg) (i k lo w v : Nat) : (s.wrF r i k lo w v).viols = s.viols := rfl
@[simp] theorem State.wrF_slots (s : State) (r : Reg) (i k lo w v : Nat) : (s.wrF r i k lo w v).slots = s.slots := rfl
@[simp] theorem State.wrF_frames (s : State) (r : Reg) (i k lo w v : Nat) : (s.wrF r i k lo w v).frames = s.frames := rfl
@[simp] theorem State.wrF_tier (s : State) (r : Reg) (i k lo w v : Nat) : (s.wrF r i k lo w v).tier = s.tier := rfl
@[simp] theorem State.wrF_snap (s : State) (r : Reg) (i k lo w v : Nat) : (s.wrF r i k lo w v).snap = s.snap := rfl
@[simp] theorem State.wrF_host (s : State) (r : Reg) (i k lo w v : Nat) : (s.wrF r i k lo w v).host = s.host := rfl
@[simp] theorem State.wrF_img (s : State) (r : Reg) (i k lo w v : Nat) : (s.wrF r i k lo w v).img = s.img := rfl
@[simp] theorem State.wrF_prg (s : State) (r : Reg) (i k lo w v : Nat) : (s.wrF r i k lo w v).prg = s.prg := rfl
@[simp] theorem State.wrF_flt (s : State) (r : Reg) (i k lo w v : Nat) : (s.wrF r i k lo w v).flt = s.flt := rfl
@[simp] theorem State.wrF_ward (s : State) (r : Reg) (i k lo w v : Nat) : (s.wrF r i k lo w v).ward = s.ward := rfl
@[simp] theorem State.wrF_boot (s : State) (r : Reg) (i k lo w v : Nat) : (s.wrF r i k lo w v).boot = s.boot := rfl
@[simp] theorem State.wrF_pwr (s : State) (r : Reg) (i k lo w v : Nat) : (s.wrF r i k lo w v).pwr = s.pwr := rfl
@[simp] theorem State.wrF_hub (s : State) (r : Reg) (i k lo w v : Nat) : (s.wrF r i k lo w v).hub = s.hub := rfl
@[simp] theorem State.wrF_runStop (s : State) (r : Reg) (i k lo w v : Nat) : (s.wrF r i k lo w v).runStop = s.runStop := rfl
@[simp] theorem State.wrF_outbox (s : State) (r : Reg) (i k lo w v : Nat) : (s.wrF r i k lo w v).outbox = s.outbox := rfl
@[simp] theorem State.wrF_freeIx (s : State) (r : Reg) (i k lo w v : Nat) : (s.wrF r i k lo w v).freeIx = s.freeIx := rfl
@[simp] theorem State.wrF_pending (s : State) (r : Reg) (i k lo w v : Nat) : (s.wrF r i k lo w v).pending = s.pending := rfl

@[simp] theorem State.bump_vmem (s : State) (r : Reg) (i n : Nat) : (s.bump r i n).vmem = s.vmem := rfl
@[simp] theorem State.bump_stg (s : State) (r : Reg) (i n : Nat) : (s.bump r i n).stg = s.stg := rfl
@[simp] theorem State.bump_cores (s : State) (r : Reg) (i n : Nat) : (s.bump r i n).cores = s.cores := rfl
@[simp] theorem State.bump_saves (s : State) (r : Reg) (i n : Nat) : (s.bump r i n).saves = s.saves := rfl
@[simp] theorem State.bump_sigRetry (s : State) (r : Reg) (i n : Nat) : (s.bump r i n).sigRetry = s.sigRetry := rfl
@[simp] theorem State.bump_fltq (s : State) (r : Reg) (i n : Nat) : (s.bump r i n).fltq = s.fltq := rfl
@[simp] theorem State.bump_fltIn (s : State) (r : Reg) (i n : Nat) : (s.bump r i n).fltIn = s.fltIn := rfl
@[simp] theorem State.bump_fltSeq (s : State) (r : Reg) (i n : Nat) : (s.bump r i n).fltSeq = s.fltSeq := rfl
@[simp] theorem State.bump_viols (s : State) (r : Reg) (i n : Nat) : (s.bump r i n).viols = s.viols := rfl
@[simp] theorem State.bump_slots (s : State) (r : Reg) (i n : Nat) : (s.bump r i n).slots = s.slots := rfl
@[simp] theorem State.bump_frames (s : State) (r : Reg) (i n : Nat) : (s.bump r i n).frames = s.frames := rfl
@[simp] theorem State.bump_tier (s : State) (r : Reg) (i n : Nat) : (s.bump r i n).tier = s.tier := rfl
@[simp] theorem State.bump_snap (s : State) (r : Reg) (i n : Nat) : (s.bump r i n).snap = s.snap := rfl
@[simp] theorem State.bump_host (s : State) (r : Reg) (i n : Nat) : (s.bump r i n).host = s.host := rfl
@[simp] theorem State.bump_img (s : State) (r : Reg) (i n : Nat) : (s.bump r i n).img = s.img := rfl
@[simp] theorem State.bump_prg (s : State) (r : Reg) (i n : Nat) : (s.bump r i n).prg = s.prg := rfl
@[simp] theorem State.bump_flt (s : State) (r : Reg) (i n : Nat) : (s.bump r i n).flt = s.flt := rfl
@[simp] theorem State.bump_ward (s : State) (r : Reg) (i n : Nat) : (s.bump r i n).ward = s.ward := rfl
@[simp] theorem State.bump_boot (s : State) (r : Reg) (i n : Nat) : (s.bump r i n).boot = s.boot := rfl
@[simp] theorem State.bump_pwr (s : State) (r : Reg) (i n : Nat) : (s.bump r i n).pwr = s.pwr := rfl
@[simp] theorem State.bump_hub (s : State) (r : Reg) (i n : Nat) : (s.bump r i n).hub = s.hub := rfl
@[simp] theorem State.bump_runStop (s : State) (r : Reg) (i n : Nat) : (s.bump r i n).runStop = s.runStop := rfl
@[simp] theorem State.bump_outbox (s : State) (r : Reg) (i n : Nat) : (s.bump r i n).outbox = s.outbox := rfl
@[simp] theorem State.bump_freeIx (s : State) (r : Reg) (i n : Nat) : (s.bump r i n).freeIx = s.freeIx := rfl
@[simp] theorem State.bump_pending (s : State) (r : Reg) (i n : Nat) : (s.bump r i n).pending = s.pending := rfl

@[simp] theorem State.setCoreState_vmem (s : State) (g v : Nat) : (s.setCoreState g v).vmem = s.vmem := rfl
@[simp] theorem State.setCoreState_stg (s : State) (g v : Nat) : (s.setCoreState g v).stg = s.stg := rfl
@[simp] theorem State.setCoreState_cores (s : State) (g v : Nat) : (s.setCoreState g v).cores = s.cores := rfl
@[simp] theorem State.setCoreState_saves (s : State) (g v : Nat) : (s.setCoreState g v).saves = s.saves := rfl
@[simp] theorem State.setCoreState_sigRetry (s : State) (g v : Nat) : (s.setCoreState g v).sigRetry = s.sigRetry := rfl
@[simp] theorem State.setCoreState_fltq (s : State) (g v : Nat) : (s.setCoreState g v).fltq = s.fltq := rfl
@[simp] theorem State.setCoreState_fltIn (s : State) (g v : Nat) : (s.setCoreState g v).fltIn = s.fltIn := rfl
@[simp] theorem State.setCoreState_fltSeq (s : State) (g v : Nat) : (s.setCoreState g v).fltSeq = s.fltSeq := rfl
@[simp] theorem State.setCoreState_viols (s : State) (g v : Nat) : (s.setCoreState g v).viols = s.viols := rfl
@[simp] theorem State.setCoreState_slots (s : State) (g v : Nat) : (s.setCoreState g v).slots = s.slots := rfl
@[simp] theorem State.setCoreState_frames (s : State) (g v : Nat) : (s.setCoreState g v).frames = s.frames := rfl
@[simp] theorem State.setCoreState_tier (s : State) (g v : Nat) : (s.setCoreState g v).tier = s.tier := rfl
@[simp] theorem State.setCoreState_snap (s : State) (g v : Nat) : (s.setCoreState g v).snap = s.snap := rfl
@[simp] theorem State.setCoreState_host (s : State) (g v : Nat) : (s.setCoreState g v).host = s.host := rfl
@[simp] theorem State.setCoreState_img (s : State) (g v : Nat) : (s.setCoreState g v).img = s.img := rfl
@[simp] theorem State.setCoreState_prg (s : State) (g v : Nat) : (s.setCoreState g v).prg = s.prg := rfl
@[simp] theorem State.setCoreState_flt (s : State) (g v : Nat) : (s.setCoreState g v).flt = s.flt := rfl
@[simp] theorem State.setCoreState_ward (s : State) (g v : Nat) : (s.setCoreState g v).ward = s.ward := rfl
@[simp] theorem State.setCoreState_boot (s : State) (g v : Nat) : (s.setCoreState g v).boot = s.boot := rfl
@[simp] theorem State.setCoreState_pwr (s : State) (g v : Nat) : (s.setCoreState g v).pwr = s.pwr := rfl
@[simp] theorem State.setCoreState_hub (s : State) (g v : Nat) : (s.setCoreState g v).hub = s.hub := rfl
@[simp] theorem State.setCoreState_runStop (s : State) (g v : Nat) : (s.setCoreState g v).runStop = s.runStop := rfl
@[simp] theorem State.setCoreState_outbox (s : State) (g v : Nat) : (s.setCoreState g v).outbox = s.outbox := rfl
@[simp] theorem State.setCoreState_freeIx (s : State) (g v : Nat) : (s.setCoreState g v).freeIx = s.freeIx := rfl
@[simp] theorem State.setCoreState_pending (s : State) (g v : Nat) : (s.setCoreState g v).pending = s.pending := rfl

@[simp] theorem State.setCore_regs (s : State) (g : Nat) (c : Core) : (s.setCore g c).regs = s.regs := rfl
@[simp] theorem State.setCore_vmem (s : State) (g : Nat) (c : Core) : (s.setCore g c).vmem = s.vmem := rfl
@[simp] theorem State.setCore_stg (s : State) (g : Nat) (c : Core) : (s.setCore g c).stg = s.stg := rfl
@[simp] theorem State.setCore_saves (s : State) (g : Nat) (c : Core) : (s.setCore g c).saves = s.saves := rfl
@[simp] theorem State.setCore_sigRetry (s : State) (g : Nat) (c : Core) : (s.setCore g c).sigRetry = s.sigRetry := rfl
@[simp] theorem State.setCore_fltq (s : State) (g : Nat) (c : Core) : (s.setCore g c).fltq = s.fltq := rfl
@[simp] theorem State.setCore_fltIn (s : State) (g : Nat) (c : Core) : (s.setCore g c).fltIn = s.fltIn := rfl
@[simp] theorem State.setCore_fltSeq (s : State) (g : Nat) (c : Core) : (s.setCore g c).fltSeq = s.fltSeq := rfl
@[simp] theorem State.setCore_viols (s : State) (g : Nat) (c : Core) : (s.setCore g c).viols = s.viols := rfl
@[simp] theorem State.setCore_slots (s : State) (g : Nat) (c : Core) : (s.setCore g c).slots = s.slots := rfl
@[simp] theorem State.setCore_frames (s : State) (g : Nat) (c : Core) : (s.setCore g c).frames = s.frames := rfl
@[simp] theorem State.setCore_tier (s : State) (g : Nat) (c : Core) : (s.setCore g c).tier = s.tier := rfl
@[simp] theorem State.setCore_snap (s : State) (g : Nat) (c : Core) : (s.setCore g c).snap = s.snap := rfl
@[simp] theorem State.setCore_host (s : State) (g : Nat) (c : Core) : (s.setCore g c).host = s.host := rfl
@[simp] theorem State.setCore_img (s : State) (g : Nat) (c : Core) : (s.setCore g c).img = s.img := rfl
@[simp] theorem State.setCore_prg (s : State) (g : Nat) (c : Core) : (s.setCore g c).prg = s.prg := rfl
@[simp] theorem State.setCore_flt (s : State) (g : Nat) (c : Core) : (s.setCore g c).flt = s.flt := rfl
@[simp] theorem State.setCore_ward (s : State) (g : Nat) (c : Core) : (s.setCore g c).ward = s.ward := rfl
@[simp] theorem State.setCore_boot (s : State) (g : Nat) (c : Core) : (s.setCore g c).boot = s.boot := rfl
@[simp] theorem State.setCore_pwr (s : State) (g : Nat) (c : Core) : (s.setCore g c).pwr = s.pwr := rfl
@[simp] theorem State.setCore_hub (s : State) (g : Nat) (c : Core) : (s.setCore g c).hub = s.hub := rfl
@[simp] theorem State.setCore_runStop (s : State) (g : Nat) (c : Core) : (s.setCore g c).runStop = s.runStop := rfl
@[simp] theorem State.setCore_outbox (s : State) (g : Nat) (c : Core) : (s.setCore g c).outbox = s.outbox := rfl
@[simp] theorem State.setCore_freeIx (s : State) (g : Nat) (c : Core) : (s.setCore g c).freeIx = s.freeIx := rfl
@[simp] theorem State.setCore_pending (s : State) (g : Nat) (c : Core) : (s.setCore g c).pending = s.pending := rfl

@[simp] theorem State.updCore_regs (s : State) (g : Nat) (f : Core → Core) : (s.updCore g f).regs = s.regs := rfl
@[simp] theorem State.updCore_vmem (s : State) (g : Nat) (f : Core → Core) : (s.updCore g f).vmem = s.vmem := rfl
@[simp] theorem State.updCore_stg (s : State) (g : Nat) (f : Core → Core) : (s.updCore g f).stg = s.stg := rfl
@[simp] theorem State.updCore_saves (s : State) (g : Nat) (f : Core → Core) : (s.updCore g f).saves = s.saves := rfl
@[simp] theorem State.updCore_sigRetry (s : State) (g : Nat) (f : Core → Core) : (s.updCore g f).sigRetry = s.sigRetry := rfl
@[simp] theorem State.updCore_fltq (s : State) (g : Nat) (f : Core → Core) : (s.updCore g f).fltq = s.fltq := rfl
@[simp] theorem State.updCore_fltIn (s : State) (g : Nat) (f : Core → Core) : (s.updCore g f).fltIn = s.fltIn := rfl
@[simp] theorem State.updCore_fltSeq (s : State) (g : Nat) (f : Core → Core) : (s.updCore g f).fltSeq = s.fltSeq := rfl
@[simp] theorem State.updCore_viols (s : State) (g : Nat) (f : Core → Core) : (s.updCore g f).viols = s.viols := rfl
@[simp] theorem State.updCore_slots (s : State) (g : Nat) (f : Core → Core) : (s.updCore g f).slots = s.slots := rfl
@[simp] theorem State.updCore_frames (s : State) (g : Nat) (f : Core → Core) : (s.updCore g f).frames = s.frames := rfl
@[simp] theorem State.updCore_tier (s : State) (g : Nat) (f : Core → Core) : (s.updCore g f).tier = s.tier := rfl
@[simp] theorem State.updCore_snap (s : State) (g : Nat) (f : Core → Core) : (s.updCore g f).snap = s.snap := rfl
@[simp] theorem State.updCore_host (s : State) (g : Nat) (f : Core → Core) : (s.updCore g f).host = s.host := rfl
@[simp] theorem State.updCore_img (s : State) (g : Nat) (f : Core → Core) : (s.updCore g f).img = s.img := rfl
@[simp] theorem State.updCore_prg (s : State) (g : Nat) (f : Core → Core) : (s.updCore g f).prg = s.prg := rfl
@[simp] theorem State.updCore_flt (s : State) (g : Nat) (f : Core → Core) : (s.updCore g f).flt = s.flt := rfl
@[simp] theorem State.updCore_ward (s : State) (g : Nat) (f : Core → Core) : (s.updCore g f).ward = s.ward := rfl
@[simp] theorem State.updCore_boot (s : State) (g : Nat) (f : Core → Core) : (s.updCore g f).boot = s.boot := rfl
@[simp] theorem State.updCore_pwr (s : State) (g : Nat) (f : Core → Core) : (s.updCore g f).pwr = s.pwr := rfl
@[simp] theorem State.updCore_hub (s : State) (g : Nat) (f : Core → Core) : (s.updCore g f).hub = s.hub := rfl
@[simp] theorem State.updCore_runStop (s : State) (g : Nat) (f : Core → Core) : (s.updCore g f).runStop = s.runStop := rfl
@[simp] theorem State.updCore_outbox (s : State) (g : Nat) (f : Core → Core) : (s.updCore g f).outbox = s.outbox := rfl
@[simp] theorem State.updCore_freeIx (s : State) (g : Nat) (f : Core → Core) : (s.updCore g f).freeIx = s.freeIx := rfl
@[simp] theorem State.updCore_pending (s : State) (g : Nat) (f : Core → Core) : (s.updCore g f).pending = s.pending := rfl

@[simp] theorem State.updVlt_regs (s : State) (g : Nat) (f : Vlt → Vlt) : (s.updVlt g f).regs = s.regs := rfl
@[simp] theorem State.updVlt_vmem (s : State) (g : Nat) (f : Vlt → Vlt) : (s.updVlt g f).vmem = s.vmem := rfl
@[simp] theorem State.updVlt_stg (s : State) (g : Nat) (f : Vlt → Vlt) : (s.updVlt g f).stg = s.stg := rfl
@[simp] theorem State.updVlt_saves (s : State) (g : Nat) (f : Vlt → Vlt) : (s.updVlt g f).saves = s.saves := rfl
@[simp] theorem State.updVlt_sigRetry (s : State) (g : Nat) (f : Vlt → Vlt) : (s.updVlt g f).sigRetry = s.sigRetry := rfl
@[simp] theorem State.updVlt_fltq (s : State) (g : Nat) (f : Vlt → Vlt) : (s.updVlt g f).fltq = s.fltq := rfl
@[simp] theorem State.updVlt_fltIn (s : State) (g : Nat) (f : Vlt → Vlt) : (s.updVlt g f).fltIn = s.fltIn := rfl
@[simp] theorem State.updVlt_fltSeq (s : State) (g : Nat) (f : Vlt → Vlt) : (s.updVlt g f).fltSeq = s.fltSeq := rfl
@[simp] theorem State.updVlt_viols (s : State) (g : Nat) (f : Vlt → Vlt) : (s.updVlt g f).viols = s.viols := rfl
@[simp] theorem State.updVlt_slots (s : State) (g : Nat) (f : Vlt → Vlt) : (s.updVlt g f).slots = s.slots := rfl
@[simp] theorem State.updVlt_frames (s : State) (g : Nat) (f : Vlt → Vlt) : (s.updVlt g f).frames = s.frames := rfl
@[simp] theorem State.updVlt_tier (s : State) (g : Nat) (f : Vlt → Vlt) : (s.updVlt g f).tier = s.tier := rfl
@[simp] theorem State.updVlt_snap (s : State) (g : Nat) (f : Vlt → Vlt) : (s.updVlt g f).snap = s.snap := rfl
@[simp] theorem State.updVlt_host (s : State) (g : Nat) (f : Vlt → Vlt) : (s.updVlt g f).host = s.host := rfl
@[simp] theorem State.updVlt_img (s : State) (g : Nat) (f : Vlt → Vlt) : (s.updVlt g f).img = s.img := rfl
@[simp] theorem State.updVlt_prg (s : State) (g : Nat) (f : Vlt → Vlt) : (s.updVlt g f).prg = s.prg := rfl
@[simp] theorem State.updVlt_flt (s : State) (g : Nat) (f : Vlt → Vlt) : (s.updVlt g f).flt = s.flt := rfl
@[simp] theorem State.updVlt_ward (s : State) (g : Nat) (f : Vlt → Vlt) : (s.updVlt g f).ward = s.ward := rfl
@[simp] theorem State.updVlt_boot (s : State) (g : Nat) (f : Vlt → Vlt) : (s.updVlt g f).boot = s.boot := rfl
@[simp] theorem State.updVlt_pwr (s : State) (g : Nat) (f : Vlt → Vlt) : (s.updVlt g f).pwr = s.pwr := rfl
@[simp] theorem State.updVlt_hub (s : State) (g : Nat) (f : Vlt → Vlt) : (s.updVlt g f).hub = s.hub := rfl
@[simp] theorem State.updVlt_runStop (s : State) (g : Nat) (f : Vlt → Vlt) : (s.updVlt g f).runStop = s.runStop := rfl
@[simp] theorem State.updVlt_outbox (s : State) (g : Nat) (f : Vlt → Vlt) : (s.updVlt g f).outbox = s.outbox := rfl
@[simp] theorem State.updVlt_freeIx (s : State) (g : Nat) (f : Vlt → Vlt) : (s.updVlt g f).freeIx = s.freeIx := rfl
@[simp] theorem State.updVlt_pending (s : State) (g : Nat) (f : Vlt → Vlt) : (s.updVlt g f).pending = s.pending := rfl

@[simp] theorem State.send_regs (s : State) (o : Out) : (s.send o).regs = s.regs := rfl
@[simp] theorem State.send_vmem (s : State) (o : Out) : (s.send o).vmem = s.vmem := rfl
@[simp] theorem State.send_stg (s : State) (o : Out) : (s.send o).stg = s.stg := rfl
@[simp] theorem State.send_cores (s : State) (o : Out) : (s.send o).cores = s.cores := rfl
@[simp] theorem State.send_saves (s : State) (o : Out) : (s.send o).saves = s.saves := rfl
@[simp] theorem State.send_sigRetry (s : State) (o : Out) : (s.send o).sigRetry = s.sigRetry := rfl
@[simp] theorem State.send_fltq (s : State) (o : Out) : (s.send o).fltq = s.fltq := rfl
@[simp] theorem State.send_fltIn (s : State) (o : Out) : (s.send o).fltIn = s.fltIn := rfl
@[simp] theorem State.send_fltSeq (s : State) (o : Out) : (s.send o).fltSeq = s.fltSeq := rfl
@[simp] theorem State.send_viols (s : State) (o : Out) : (s.send o).viols = s.viols := rfl
@[simp] theorem State.send_slots (s : State) (o : Out) : (s.send o).slots = s.slots := rfl
@[simp] theorem State.send_frames (s : State) (o : Out) : (s.send o).frames = s.frames := rfl
@[simp] theorem State.send_tier (s : State) (o : Out) : (s.send o).tier = s.tier := rfl
@[simp] theorem State.send_snap (s : State) (o : Out) : (s.send o).snap = s.snap := rfl
@[simp] theorem State.send_host (s : State) (o : Out) : (s.send o).host = s.host := rfl
@[simp] theorem State.send_img (s : State) (o : Out) : (s.send o).img = s.img := rfl
@[simp] theorem State.send_prg (s : State) (o : Out) : (s.send o).prg = s.prg := rfl
@[simp] theorem State.send_flt (s : State) (o : Out) : (s.send o).flt = s.flt := rfl
@[simp] theorem State.send_ward (s : State) (o : Out) : (s.send o).ward = s.ward := rfl
@[simp] theorem State.send_boot (s : State) (o : Out) : (s.send o).boot = s.boot := rfl
@[simp] theorem State.send_pwr (s : State) (o : Out) : (s.send o).pwr = s.pwr := rfl
@[simp] theorem State.send_hub (s : State) (o : Out) : (s.send o).hub = s.hub := rfl
@[simp] theorem State.send_runStop (s : State) (o : Out) : (s.send o).runStop = s.runStop := rfl
@[simp] theorem State.send_freeIx (s : State) (o : Out) : (s.send o).freeIx = s.freeIx := rfl
@[simp] theorem State.send_pending (s : State) (o : Out) : (s.send o).pending = s.pending := rfl

@[simp] theorem State.fresh_regs (s : State) (n : Nat) : (s.fresh n).regs = s.regs := rfl
@[simp] theorem State.fresh_vmem (s : State) (n : Nat) : (s.fresh n).vmem = s.vmem := rfl
@[simp] theorem State.fresh_stg (s : State) (n : Nat) : (s.fresh n).stg = s.stg := rfl
@[simp] theorem State.fresh_cores (s : State) (n : Nat) : (s.fresh n).cores = s.cores := rfl
@[simp] theorem State.fresh_saves (s : State) (n : Nat) : (s.fresh n).saves = s.saves := rfl
@[simp] theorem State.fresh_sigRetry (s : State) (n : Nat) : (s.fresh n).sigRetry = s.sigRetry := rfl
@[simp] theorem State.fresh_fltq (s : State) (n : Nat) : (s.fresh n).fltq = s.fltq := rfl
@[simp] theorem State.fresh_fltIn (s : State) (n : Nat) : (s.fresh n).fltIn = s.fltIn := rfl
@[simp] theorem State.fresh_fltSeq (s : State) (n : Nat) : (s.fresh n).fltSeq = s.fltSeq := rfl
@[simp] theorem State.fresh_viols (s : State) (n : Nat) : (s.fresh n).viols = s.viols := rfl
@[simp] theorem State.fresh_slots (s : State) (n : Nat) : (s.fresh n).slots = s.slots := rfl
@[simp] theorem State.fresh_frames (s : State) (n : Nat) : (s.fresh n).frames = s.frames := rfl
@[simp] theorem State.fresh_tier (s : State) (n : Nat) : (s.fresh n).tier = s.tier := rfl
@[simp] theorem State.fresh_snap (s : State) (n : Nat) : (s.fresh n).snap = s.snap := rfl
@[simp] theorem State.fresh_host (s : State) (n : Nat) : (s.fresh n).host = s.host := rfl
@[simp] theorem State.fresh_img (s : State) (n : Nat) : (s.fresh n).img = s.img := rfl
@[simp] theorem State.fresh_prg (s : State) (n : Nat) : (s.fresh n).prg = s.prg := rfl
@[simp] theorem State.fresh_flt (s : State) (n : Nat) : (s.fresh n).flt = s.flt := rfl
@[simp] theorem State.fresh_ward (s : State) (n : Nat) : (s.fresh n).ward = s.ward := rfl
@[simp] theorem State.fresh_boot (s : State) (n : Nat) : (s.fresh n).boot = s.boot := rfl
@[simp] theorem State.fresh_pwr (s : State) (n : Nat) : (s.fresh n).pwr = s.pwr := rfl
@[simp] theorem State.fresh_hub (s : State) (n : Nat) : (s.fresh n).hub = s.hub := rfl
@[simp] theorem State.fresh_runStop (s : State) (n : Nat) : (s.fresh n).runStop = s.runStop := rfl
@[simp] theorem State.fresh_outbox (s : State) (n : Nat) : (s.fresh n).outbox = s.outbox := rfl
@[simp] theorem State.fresh_pending (s : State) (n : Nat) : (s.fresh n).pending = s.pending := rfl

@[simp] theorem State.putRaw_regs (s : State) (k : Nat) (r : RawLine) : (s.putRaw k r).regs = s.regs := rfl
@[simp] theorem State.putRaw_stg (s : State) (k : Nat) (r : RawLine) : (s.putRaw k r).stg = s.stg := rfl
@[simp] theorem State.putRaw_cores (s : State) (k : Nat) (r : RawLine) : (s.putRaw k r).cores = s.cores := rfl
@[simp] theorem State.putRaw_saves (s : State) (k : Nat) (r : RawLine) : (s.putRaw k r).saves = s.saves := rfl
@[simp] theorem State.putRaw_sigRetry (s : State) (k : Nat) (r : RawLine) : (s.putRaw k r).sigRetry = s.sigRetry := rfl
@[simp] theorem State.putRaw_fltq (s : State) (k : Nat) (r : RawLine) : (s.putRaw k r).fltq = s.fltq := rfl
@[simp] theorem State.putRaw_fltIn (s : State) (k : Nat) (r : RawLine) : (s.putRaw k r).fltIn = s.fltIn := rfl
@[simp] theorem State.putRaw_fltSeq (s : State) (k : Nat) (r : RawLine) : (s.putRaw k r).fltSeq = s.fltSeq := rfl
@[simp] theorem State.putRaw_viols (s : State) (k : Nat) (r : RawLine) : (s.putRaw k r).viols = s.viols := rfl
@[simp] theorem State.putRaw_slots (s : State) (k : Nat) (r : RawLine) : (s.putRaw k r).slots = s.slots := rfl
@[simp] theorem State.putRaw_frames (s : State) (k : Nat) (r : RawLine) : (s.putRaw k r).frames = s.frames := rfl
@[simp] theorem State.putRaw_tier (s : State) (k : Nat) (r : RawLine) : (s.putRaw k r).tier = s.tier := rfl
@[simp] theorem State.putRaw_snap (s : State) (k : Nat) (r : RawLine) : (s.putRaw k r).snap = s.snap := rfl
@[simp] theorem State.putRaw_host (s : State) (k : Nat) (r : RawLine) : (s.putRaw k r).host = s.host := rfl
@[simp] theorem State.putRaw_img (s : State) (k : Nat) (r : RawLine) : (s.putRaw k r).img = s.img := rfl
@[simp] theorem State.putRaw_prg (s : State) (k : Nat) (r : RawLine) : (s.putRaw k r).prg = s.prg := rfl
@[simp] theorem State.putRaw_flt (s : State) (k : Nat) (r : RawLine) : (s.putRaw k r).flt = s.flt := rfl
@[simp] theorem State.putRaw_ward (s : State) (k : Nat) (r : RawLine) : (s.putRaw k r).ward = s.ward := rfl
@[simp] theorem State.putRaw_boot (s : State) (k : Nat) (r : RawLine) : (s.putRaw k r).boot = s.boot := rfl
@[simp] theorem State.putRaw_pwr (s : State) (k : Nat) (r : RawLine) : (s.putRaw k r).pwr = s.pwr := rfl
@[simp] theorem State.putRaw_hub (s : State) (k : Nat) (r : RawLine) : (s.putRaw k r).hub = s.hub := rfl
@[simp] theorem State.putRaw_runStop (s : State) (k : Nat) (r : RawLine) : (s.putRaw k r).runStop = s.runStop := rfl
@[simp] theorem State.putRaw_outbox (s : State) (k : Nat) (r : RawLine) : (s.putRaw k r).outbox = s.outbox := rfl
@[simp] theorem State.putRaw_freeIx (s : State) (k : Nat) (r : RawLine) : (s.putRaw k r).freeIx = s.freeIx := rfl
@[simp] theorem State.putRaw_pending (s : State) (k : Nat) (r : RawLine) : (s.putRaw k r).pending = s.pending := rfl

@[simp] theorem State.putStg_regs (s : State) (g b : Nat) (bs : List Nat) : (s.putStg g b bs).regs = s.regs := rfl
@[simp] theorem State.putStg_vmem (s : State) (g b : Nat) (bs : List Nat) : (s.putStg g b bs).vmem = s.vmem := rfl
@[simp] theorem State.putStg_cores (s : State) (g b : Nat) (bs : List Nat) : (s.putStg g b bs).cores = s.cores := rfl
@[simp] theorem State.putStg_saves (s : State) (g b : Nat) (bs : List Nat) : (s.putStg g b bs).saves = s.saves := rfl
@[simp] theorem State.putStg_sigRetry (s : State) (g b : Nat) (bs : List Nat) : (s.putStg g b bs).sigRetry = s.sigRetry := rfl
@[simp] theorem State.putStg_fltq (s : State) (g b : Nat) (bs : List Nat) : (s.putStg g b bs).fltq = s.fltq := rfl
@[simp] theorem State.putStg_fltIn (s : State) (g b : Nat) (bs : List Nat) : (s.putStg g b bs).fltIn = s.fltIn := rfl
@[simp] theorem State.putStg_fltSeq (s : State) (g b : Nat) (bs : List Nat) : (s.putStg g b bs).fltSeq = s.fltSeq := rfl
@[simp] theorem State.putStg_viols (s : State) (g b : Nat) (bs : List Nat) : (s.putStg g b bs).viols = s.viols := rfl
@[simp] theorem State.putStg_slots (s : State) (g b : Nat) (bs : List Nat) : (s.putStg g b bs).slots = s.slots := rfl
@[simp] theorem State.putStg_frames (s : State) (g b : Nat) (bs : List Nat) : (s.putStg g b bs).frames = s.frames := rfl
@[simp] theorem State.putStg_tier (s : State) (g b : Nat) (bs : List Nat) : (s.putStg g b bs).tier = s.tier := rfl
@[simp] theorem State.putStg_snap (s : State) (g b : Nat) (bs : List Nat) : (s.putStg g b bs).snap = s.snap := rfl
@[simp] theorem State.putStg_host (s : State) (g b : Nat) (bs : List Nat) : (s.putStg g b bs).host = s.host := rfl
@[simp] theorem State.putStg_img (s : State) (g b : Nat) (bs : List Nat) : (s.putStg g b bs).img = s.img := rfl
@[simp] theorem State.putStg_prg (s : State) (g b : Nat) (bs : List Nat) : (s.putStg g b bs).prg = s.prg := rfl
@[simp] theorem State.putStg_flt (s : State) (g b : Nat) (bs : List Nat) : (s.putStg g b bs).flt = s.flt := rfl
@[simp] theorem State.putStg_ward (s : State) (g b : Nat) (bs : List Nat) : (s.putStg g b bs).ward = s.ward := rfl
@[simp] theorem State.putStg_boot (s : State) (g b : Nat) (bs : List Nat) : (s.putStg g b bs).boot = s.boot := rfl
@[simp] theorem State.putStg_pwr (s : State) (g b : Nat) (bs : List Nat) : (s.putStg g b bs).pwr = s.pwr := rfl
@[simp] theorem State.putStg_hub (s : State) (g b : Nat) (bs : List Nat) : (s.putStg g b bs).hub = s.hub := rfl
@[simp] theorem State.putStg_runStop (s : State) (g b : Nat) (bs : List Nat) : (s.putStg g b bs).runStop = s.runStop := rfl
@[simp] theorem State.putStg_outbox (s : State) (g b : Nat) (bs : List Nat) : (s.putStg g b bs).outbox = s.outbox := rfl
@[simp] theorem State.putStg_freeIx (s : State) (g b : Nat) (bs : List Nat) : (s.putStg g b bs).freeIx = s.freeIx := rfl
@[simp] theorem State.putStg_pending (s : State) (g b : Nat) (bs : List Nat) : (s.putStg g b bs).pending = s.pending := rfl

@[simp] theorem State.updHost_regs (s : State) (f : HostSt → HostSt) : (s.updHost f).regs = s.regs := rfl
@[simp] theorem State.updHost_vmem (s : State) (f : HostSt → HostSt) : (s.updHost f).vmem = s.vmem := rfl
@[simp] theorem State.updHost_stg (s : State) (f : HostSt → HostSt) : (s.updHost f).stg = s.stg := rfl
@[simp] theorem State.updHost_cores (s : State) (f : HostSt → HostSt) : (s.updHost f).cores = s.cores := rfl
@[simp] theorem State.updHost_saves (s : State) (f : HostSt → HostSt) : (s.updHost f).saves = s.saves := rfl
@[simp] theorem State.updHost_sigRetry (s : State) (f : HostSt → HostSt) : (s.updHost f).sigRetry = s.sigRetry := rfl
@[simp] theorem State.updHost_fltq (s : State) (f : HostSt → HostSt) : (s.updHost f).fltq = s.fltq := rfl
@[simp] theorem State.updHost_fltIn (s : State) (f : HostSt → HostSt) : (s.updHost f).fltIn = s.fltIn := rfl
@[simp] theorem State.updHost_fltSeq (s : State) (f : HostSt → HostSt) : (s.updHost f).fltSeq = s.fltSeq := rfl
@[simp] theorem State.updHost_viols (s : State) (f : HostSt → HostSt) : (s.updHost f).viols = s.viols := rfl
@[simp] theorem State.updHost_slots (s : State) (f : HostSt → HostSt) : (s.updHost f).slots = s.slots := rfl
@[simp] theorem State.updHost_frames (s : State) (f : HostSt → HostSt) : (s.updHost f).frames = s.frames := rfl
@[simp] theorem State.updHost_tier (s : State) (f : HostSt → HostSt) : (s.updHost f).tier = s.tier := rfl
@[simp] theorem State.updHost_snap (s : State) (f : HostSt → HostSt) : (s.updHost f).snap = s.snap := rfl
@[simp] theorem State.updHost_img (s : State) (f : HostSt → HostSt) : (s.updHost f).img = s.img := rfl
@[simp] theorem State.updHost_prg (s : State) (f : HostSt → HostSt) : (s.updHost f).prg = s.prg := rfl
@[simp] theorem State.updHost_flt (s : State) (f : HostSt → HostSt) : (s.updHost f).flt = s.flt := rfl
@[simp] theorem State.updHost_ward (s : State) (f : HostSt → HostSt) : (s.updHost f).ward = s.ward := rfl
@[simp] theorem State.updHost_boot (s : State) (f : HostSt → HostSt) : (s.updHost f).boot = s.boot := rfl
@[simp] theorem State.updHost_pwr (s : State) (f : HostSt → HostSt) : (s.updHost f).pwr = s.pwr := rfl
@[simp] theorem State.updHost_hub (s : State) (f : HostSt → HostSt) : (s.updHost f).hub = s.hub := rfl
@[simp] theorem State.updHost_runStop (s : State) (f : HostSt → HostSt) : (s.updHost f).runStop = s.runStop := rfl
@[simp] theorem State.updHost_outbox (s : State) (f : HostSt → HostSt) : (s.updHost f).outbox = s.outbox := rfl
@[simp] theorem State.updHost_freeIx (s : State) (f : HostSt → HostSt) : (s.updHost f).freeIx = s.freeIx := rfl
@[simp] theorem State.updHost_pending (s : State) (f : HostSt → HostSt) : (s.updHost f).pending = s.pending := rfl

@[simp] theorem State.updHub_regs (s : State) (f : Hub → Hub) : (s.updHub f).regs = s.regs := rfl
@[simp] theorem State.updHub_vmem (s : State) (f : Hub → Hub) : (s.updHub f).vmem = s.vmem := rfl
@[simp] theorem State.updHub_stg (s : State) (f : Hub → Hub) : (s.updHub f).stg = s.stg := rfl
@[simp] theorem State.updHub_cores (s : State) (f : Hub → Hub) : (s.updHub f).cores = s.cores := rfl
@[simp] theorem State.updHub_saves (s : State) (f : Hub → Hub) : (s.updHub f).saves = s.saves := rfl
@[simp] theorem State.updHub_sigRetry (s : State) (f : Hub → Hub) : (s.updHub f).sigRetry = s.sigRetry := rfl
@[simp] theorem State.updHub_fltq (s : State) (f : Hub → Hub) : (s.updHub f).fltq = s.fltq := rfl
@[simp] theorem State.updHub_fltIn (s : State) (f : Hub → Hub) : (s.updHub f).fltIn = s.fltIn := rfl
@[simp] theorem State.updHub_fltSeq (s : State) (f : Hub → Hub) : (s.updHub f).fltSeq = s.fltSeq := rfl
@[simp] theorem State.updHub_viols (s : State) (f : Hub → Hub) : (s.updHub f).viols = s.viols := rfl
@[simp] theorem State.updHub_slots (s : State) (f : Hub → Hub) : (s.updHub f).slots = s.slots := rfl
@[simp] theorem State.updHub_frames (s : State) (f : Hub → Hub) : (s.updHub f).frames = s.frames := rfl
@[simp] theorem State.updHub_tier (s : State) (f : Hub → Hub) : (s.updHub f).tier = s.tier := rfl
@[simp] theorem State.updHub_snap (s : State) (f : Hub → Hub) : (s.updHub f).snap = s.snap := rfl
@[simp] theorem State.updHub_host (s : State) (f : Hub → Hub) : (s.updHub f).host = s.host := rfl
@[simp] theorem State.updHub_img (s : State) (f : Hub → Hub) : (s.updHub f).img = s.img := rfl
@[simp] theorem State.updHub_prg (s : State) (f : Hub → Hub) : (s.updHub f).prg = s.prg := rfl
@[simp] theorem State.updHub_flt (s : State) (f : Hub → Hub) : (s.updHub f).flt = s.flt := rfl
@[simp] theorem State.updHub_ward (s : State) (f : Hub → Hub) : (s.updHub f).ward = s.ward := rfl
@[simp] theorem State.updHub_boot (s : State) (f : Hub → Hub) : (s.updHub f).boot = s.boot := rfl
@[simp] theorem State.updHub_pwr (s : State) (f : Hub → Hub) : (s.updHub f).pwr = s.pwr := rfl
@[simp] theorem State.updHub_runStop (s : State) (f : Hub → Hub) : (s.updHub f).runStop = s.runStop := rfl
@[simp] theorem State.updHub_outbox (s : State) (f : Hub → Hub) : (s.updHub f).outbox = s.outbox := rfl
@[simp] theorem State.updHub_freeIx (s : State) (f : Hub → Hub) : (s.updHub f).freeIx = s.freeIx := rfl
@[simp] theorem State.updHub_pending (s : State) (f : Hub → Hub) : (s.updHub f).pending = s.pending := rfl

@[simp] theorem State.updWard_regs (s : State) (f : Ward → Ward) : (s.updWard f).regs = s.regs := rfl
@[simp] theorem State.updWard_vmem (s : State) (f : Ward → Ward) : (s.updWard f).vmem = s.vmem := rfl
@[simp] theorem State.updWard_stg (s : State) (f : Ward → Ward) : (s.updWard f).stg = s.stg := rfl
@[simp] theorem State.updWard_cores (s : State) (f : Ward → Ward) : (s.updWard f).cores = s.cores := rfl
@[simp] theorem State.updWard_saves (s : State) (f : Ward → Ward) : (s.updWard f).saves = s.saves := rfl
@[simp] theorem State.updWard_sigRetry (s : State) (f : Ward → Ward) : (s.updWard f).sigRetry = s.sigRetry := rfl
@[simp] theorem State.updWard_fltq (s : State) (f : Ward → Ward) : (s.updWard f).fltq = s.fltq := rfl
@[simp] theorem State.updWard_fltIn (s : State) (f : Ward → Ward) : (s.updWard f).fltIn = s.fltIn := rfl
@[simp] theorem State.updWard_fltSeq (s : State) (f : Ward → Ward) : (s.updWard f).fltSeq = s.fltSeq := rfl
@[simp] theorem State.updWard_viols (s : State) (f : Ward → Ward) : (s.updWard f).viols = s.viols := rfl
@[simp] theorem State.updWard_slots (s : State) (f : Ward → Ward) : (s.updWard f).slots = s.slots := rfl
@[simp] theorem State.updWard_frames (s : State) (f : Ward → Ward) : (s.updWard f).frames = s.frames := rfl
@[simp] theorem State.updWard_tier (s : State) (f : Ward → Ward) : (s.updWard f).tier = s.tier := rfl
@[simp] theorem State.updWard_snap (s : State) (f : Ward → Ward) : (s.updWard f).snap = s.snap := rfl
@[simp] theorem State.updWard_host (s : State) (f : Ward → Ward) : (s.updWard f).host = s.host := rfl
@[simp] theorem State.updWard_img (s : State) (f : Ward → Ward) : (s.updWard f).img = s.img := rfl
@[simp] theorem State.updWard_prg (s : State) (f : Ward → Ward) : (s.updWard f).prg = s.prg := rfl
@[simp] theorem State.updWard_flt (s : State) (f : Ward → Ward) : (s.updWard f).flt = s.flt := rfl
@[simp] theorem State.updWard_boot (s : State) (f : Ward → Ward) : (s.updWard f).boot = s.boot := rfl
@[simp] theorem State.updWard_pwr (s : State) (f : Ward → Ward) : (s.updWard f).pwr = s.pwr := rfl
@[simp] theorem State.updWard_hub (s : State) (f : Ward → Ward) : (s.updWard f).hub = s.hub := rfl
@[simp] theorem State.updWard_runStop (s : State) (f : Ward → Ward) : (s.updWard f).runStop = s.runStop := rfl
@[simp] theorem State.updWard_outbox (s : State) (f : Ward → Ward) : (s.updWard f).outbox = s.outbox := rfl
@[simp] theorem State.updWard_freeIx (s : State) (f : Ward → Ward) : (s.updWard f).freeIx = s.freeIx := rfl
@[simp] theorem State.updWard_pending (s : State) (f : Ward → Ward) : (s.updWard f).pending = s.pending := rfl

@[simp] theorem State.updPwr_regs (s : State) (f : Pwr → Pwr) : (s.updPwr f).regs = s.regs := rfl
@[simp] theorem State.updPwr_vmem (s : State) (f : Pwr → Pwr) : (s.updPwr f).vmem = s.vmem := rfl
@[simp] theorem State.updPwr_stg (s : State) (f : Pwr → Pwr) : (s.updPwr f).stg = s.stg := rfl
@[simp] theorem State.updPwr_cores (s : State) (f : Pwr → Pwr) : (s.updPwr f).cores = s.cores := rfl
@[simp] theorem State.updPwr_saves (s : State) (f : Pwr → Pwr) : (s.updPwr f).saves = s.saves := rfl
@[simp] theorem State.updPwr_sigRetry (s : State) (f : Pwr → Pwr) : (s.updPwr f).sigRetry = s.sigRetry := rfl
@[simp] theorem State.updPwr_fltq (s : State) (f : Pwr → Pwr) : (s.updPwr f).fltq = s.fltq := rfl
@[simp] theorem State.updPwr_fltIn (s : State) (f : Pwr → Pwr) : (s.updPwr f).fltIn = s.fltIn := rfl
@[simp] theorem State.updPwr_fltSeq (s : State) (f : Pwr → Pwr) : (s.updPwr f).fltSeq = s.fltSeq := rfl
@[simp] theorem State.updPwr_viols (s : State) (f : Pwr → Pwr) : (s.updPwr f).viols = s.viols := rfl
@[simp] theorem State.updPwr_slots (s : State) (f : Pwr → Pwr) : (s.updPwr f).slots = s.slots := rfl
@[simp] theorem State.updPwr_frames (s : State) (f : Pwr → Pwr) : (s.updPwr f).frames = s.frames := rfl
@[simp] theorem State.updPwr_tier (s : State) (f : Pwr → Pwr) : (s.updPwr f).tier = s.tier := rfl
@[simp] theorem State.updPwr_snap (s : State) (f : Pwr → Pwr) : (s.updPwr f).snap = s.snap := rfl
@[simp] theorem State.updPwr_host (s : State) (f : Pwr → Pwr) : (s.updPwr f).host = s.host := rfl
@[simp] theorem State.updPwr_img (s : State) (f : Pwr → Pwr) : (s.updPwr f).img = s.img := rfl
@[simp] theorem State.updPwr_prg (s : State) (f : Pwr → Pwr) : (s.updPwr f).prg = s.prg := rfl
@[simp] theorem State.updPwr_flt (s : State) (f : Pwr → Pwr) : (s.updPwr f).flt = s.flt := rfl
@[simp] theorem State.updPwr_ward (s : State) (f : Pwr → Pwr) : (s.updPwr f).ward = s.ward := rfl
@[simp] theorem State.updPwr_boot (s : State) (f : Pwr → Pwr) : (s.updPwr f).boot = s.boot := rfl
@[simp] theorem State.updPwr_hub (s : State) (f : Pwr → Pwr) : (s.updPwr f).hub = s.hub := rfl
@[simp] theorem State.updPwr_runStop (s : State) (f : Pwr → Pwr) : (s.updPwr f).runStop = s.runStop := rfl
@[simp] theorem State.updPwr_outbox (s : State) (f : Pwr → Pwr) : (s.updPwr f).outbox = s.outbox := rfl
@[simp] theorem State.updPwr_freeIx (s : State) (f : Pwr → Pwr) : (s.updPwr f).freeIx = s.freeIx := rfl
@[simp] theorem State.updPwr_pending (s : State) (f : Pwr → Pwr) : (s.updPwr f).pending = s.pending := rfl

@[simp] theorem State.updBoot_regs (s : State) (f : BootSt → BootSt) : (s.updBoot f).regs = s.regs := rfl
@[simp] theorem State.updBoot_vmem (s : State) (f : BootSt → BootSt) : (s.updBoot f).vmem = s.vmem := rfl
@[simp] theorem State.updBoot_stg (s : State) (f : BootSt → BootSt) : (s.updBoot f).stg = s.stg := rfl
@[simp] theorem State.updBoot_cores (s : State) (f : BootSt → BootSt) : (s.updBoot f).cores = s.cores := rfl
@[simp] theorem State.updBoot_saves (s : State) (f : BootSt → BootSt) : (s.updBoot f).saves = s.saves := rfl
@[simp] theorem State.updBoot_sigRetry (s : State) (f : BootSt → BootSt) : (s.updBoot f).sigRetry = s.sigRetry := rfl
@[simp] theorem State.updBoot_fltq (s : State) (f : BootSt → BootSt) : (s.updBoot f).fltq = s.fltq := rfl
@[simp] theorem State.updBoot_fltIn (s : State) (f : BootSt → BootSt) : (s.updBoot f).fltIn = s.fltIn := rfl
@[simp] theorem State.updBoot_fltSeq (s : State) (f : BootSt → BootSt) : (s.updBoot f).fltSeq = s.fltSeq := rfl
@[simp] theorem State.updBoot_viols (s : State) (f : BootSt → BootSt) : (s.updBoot f).viols = s.viols := rfl
@[simp] theorem State.updBoot_slots (s : State) (f : BootSt → BootSt) : (s.updBoot f).slots = s.slots := rfl
@[simp] theorem State.updBoot_frames (s : State) (f : BootSt → BootSt) : (s.updBoot f).frames = s.frames := rfl
@[simp] theorem State.updBoot_tier (s : State) (f : BootSt → BootSt) : (s.updBoot f).tier = s.tier := rfl
@[simp] theorem State.updBoot_snap (s : State) (f : BootSt → BootSt) : (s.updBoot f).snap = s.snap := rfl
@[simp] theorem State.updBoot_host (s : State) (f : BootSt → BootSt) : (s.updBoot f).host = s.host := rfl
@[simp] theorem State.updBoot_img (s : State) (f : BootSt → BootSt) : (s.updBoot f).img = s.img := rfl
@[simp] theorem State.updBoot_prg (s : State) (f : BootSt → BootSt) : (s.updBoot f).prg = s.prg := rfl
@[simp] theorem State.updBoot_flt (s : State) (f : BootSt → BootSt) : (s.updBoot f).flt = s.flt := rfl
@[simp] theorem State.updBoot_ward (s : State) (f : BootSt → BootSt) : (s.updBoot f).ward = s.ward := rfl
@[simp] theorem State.updBoot_pwr (s : State) (f : BootSt → BootSt) : (s.updBoot f).pwr = s.pwr := rfl
@[simp] theorem State.updBoot_hub (s : State) (f : BootSt → BootSt) : (s.updBoot f).hub = s.hub := rfl
@[simp] theorem State.updBoot_runStop (s : State) (f : BootSt → BootSt) : (s.updBoot f).runStop = s.runStop := rfl
@[simp] theorem State.updBoot_outbox (s : State) (f : BootSt → BootSt) : (s.updBoot f).outbox = s.outbox := rfl
@[simp] theorem State.updBoot_freeIx (s : State) (f : BootSt → BootSt) : (s.updBoot f).freeIx = s.freeIx := rfl
@[simp] theorem State.updBoot_pending (s : State) (f : BootSt → BootSt) : (s.updBoot f).pending = s.pending := rfl

@[simp] theorem State.updTier_regs (s : State) (f : Tier → Tier) : (s.updTier f).regs = s.regs := rfl
@[simp] theorem State.updTier_vmem (s : State) (f : Tier → Tier) : (s.updTier f).vmem = s.vmem := rfl
@[simp] theorem State.updTier_stg (s : State) (f : Tier → Tier) : (s.updTier f).stg = s.stg := rfl
@[simp] theorem State.updTier_cores (s : State) (f : Tier → Tier) : (s.updTier f).cores = s.cores := rfl
@[simp] theorem State.updTier_saves (s : State) (f : Tier → Tier) : (s.updTier f).saves = s.saves := rfl
@[simp] theorem State.updTier_sigRetry (s : State) (f : Tier → Tier) : (s.updTier f).sigRetry = s.sigRetry := rfl
@[simp] theorem State.updTier_fltq (s : State) (f : Tier → Tier) : (s.updTier f).fltq = s.fltq := rfl
@[simp] theorem State.updTier_fltIn (s : State) (f : Tier → Tier) : (s.updTier f).fltIn = s.fltIn := rfl
@[simp] theorem State.updTier_fltSeq (s : State) (f : Tier → Tier) : (s.updTier f).fltSeq = s.fltSeq := rfl
@[simp] theorem State.updTier_viols (s : State) (f : Tier → Tier) : (s.updTier f).viols = s.viols := rfl
@[simp] theorem State.updTier_slots (s : State) (f : Tier → Tier) : (s.updTier f).slots = s.slots := rfl
@[simp] theorem State.updTier_frames (s : State) (f : Tier → Tier) : (s.updTier f).frames = s.frames := rfl
@[simp] theorem State.updTier_snap (s : State) (f : Tier → Tier) : (s.updTier f).snap = s.snap := rfl
@[simp] theorem State.updTier_host (s : State) (f : Tier → Tier) : (s.updTier f).host = s.host := rfl
@[simp] theorem State.updTier_img (s : State) (f : Tier → Tier) : (s.updTier f).img = s.img := rfl
@[simp] theorem State.updTier_prg (s : State) (f : Tier → Tier) : (s.updTier f).prg = s.prg := rfl
@[simp] theorem State.updTier_flt (s : State) (f : Tier → Tier) : (s.updTier f).flt = s.flt := rfl
@[simp] theorem State.updTier_ward (s : State) (f : Tier → Tier) : (s.updTier f).ward = s.ward := rfl
@[simp] theorem State.updTier_boot (s : State) (f : Tier → Tier) : (s.updTier f).boot = s.boot := rfl
@[simp] theorem State.updTier_pwr (s : State) (f : Tier → Tier) : (s.updTier f).pwr = s.pwr := rfl
@[simp] theorem State.updTier_hub (s : State) (f : Tier → Tier) : (s.updTier f).hub = s.hub := rfl
@[simp] theorem State.updTier_runStop (s : State) (f : Tier → Tier) : (s.updTier f).runStop = s.runStop := rfl
@[simp] theorem State.updTier_outbox (s : State) (f : Tier → Tier) : (s.updTier f).outbox = s.outbox := rfl
@[simp] theorem State.updTier_freeIx (s : State) (f : Tier → Tier) : (s.updTier f).freeIx = s.freeIx := rfl
@[simp] theorem State.updTier_pending (s : State) (f : Tier → Tier) : (s.updTier f).pending = s.pending := rfl

@[simp] theorem State.updFlt_regs (s : State) (f : FltSt → FltSt) : (s.updFlt f).regs = s.regs := rfl
@[simp] theorem State.updFlt_vmem (s : State) (f : FltSt → FltSt) : (s.updFlt f).vmem = s.vmem := rfl
@[simp] theorem State.updFlt_stg (s : State) (f : FltSt → FltSt) : (s.updFlt f).stg = s.stg := rfl
@[simp] theorem State.updFlt_cores (s : State) (f : FltSt → FltSt) : (s.updFlt f).cores = s.cores := rfl
@[simp] theorem State.updFlt_saves (s : State) (f : FltSt → FltSt) : (s.updFlt f).saves = s.saves := rfl
@[simp] theorem State.updFlt_sigRetry (s : State) (f : FltSt → FltSt) : (s.updFlt f).sigRetry = s.sigRetry := rfl
@[simp] theorem State.updFlt_fltq (s : State) (f : FltSt → FltSt) : (s.updFlt f).fltq = s.fltq := rfl
@[simp] theorem State.updFlt_fltIn (s : State) (f : FltSt → FltSt) : (s.updFlt f).fltIn = s.fltIn := rfl
@[simp] theorem State.updFlt_fltSeq (s : State) (f : FltSt → FltSt) : (s.updFlt f).fltSeq = s.fltSeq := rfl
@[simp] theorem State.updFlt_viols (s : State) (f : FltSt → FltSt) : (s.updFlt f).viols = s.viols := rfl
@[simp] theorem State.updFlt_slots (s : State) (f : FltSt → FltSt) : (s.updFlt f).slots = s.slots := rfl
@[simp] theorem State.updFlt_frames (s : State) (f : FltSt → FltSt) : (s.updFlt f).frames = s.frames := rfl
@[simp] theorem State.updFlt_tier (s : State) (f : FltSt → FltSt) : (s.updFlt f).tier = s.tier := rfl
@[simp] theorem State.updFlt_snap (s : State) (f : FltSt → FltSt) : (s.updFlt f).snap = s.snap := rfl
@[simp] theorem State.updFlt_host (s : State) (f : FltSt → FltSt) : (s.updFlt f).host = s.host := rfl
@[simp] theorem State.updFlt_img (s : State) (f : FltSt → FltSt) : (s.updFlt f).img = s.img := rfl
@[simp] theorem State.updFlt_prg (s : State) (f : FltSt → FltSt) : (s.updFlt f).prg = s.prg := rfl
@[simp] theorem State.updFlt_ward (s : State) (f : FltSt → FltSt) : (s.updFlt f).ward = s.ward := rfl
@[simp] theorem State.updFlt_boot (s : State) (f : FltSt → FltSt) : (s.updFlt f).boot = s.boot := rfl
@[simp] theorem State.updFlt_pwr (s : State) (f : FltSt → FltSt) : (s.updFlt f).pwr = s.pwr := rfl
@[simp] theorem State.updFlt_hub (s : State) (f : FltSt → FltSt) : (s.updFlt f).hub = s.hub := rfl
@[simp] theorem State.updFlt_runStop (s : State) (f : FltSt → FltSt) : (s.updFlt f).runStop = s.runStop := rfl
@[simp] theorem State.updFlt_outbox (s : State) (f : FltSt → FltSt) : (s.updFlt f).outbox = s.outbox := rfl
@[simp] theorem State.updFlt_freeIx (s : State) (f : FltSt → FltSt) : (s.updFlt f).freeIx = s.freeIx := rfl
@[simp] theorem State.updFlt_pending (s : State) (f : FltSt → FltSt) : (s.updFlt f).pending = s.pending := rfl

@[simp] theorem State.updImg_regs (s : State) (f : Img → Img) : (s.updImg f).regs = s.regs := rfl
@[simp] theorem State.updImg_vmem (s : State) (f : Img → Img) : (s.updImg f).vmem = s.vmem := rfl
@[simp] theorem State.updImg_stg (s : State) (f : Img → Img) : (s.updImg f).stg = s.stg := rfl
@[simp] theorem State.updImg_cores (s : State) (f : Img → Img) : (s.updImg f).cores = s.cores := rfl
@[simp] theorem State.updImg_saves (s : State) (f : Img → Img) : (s.updImg f).saves = s.saves := rfl
@[simp] theorem State.updImg_sigRetry (s : State) (f : Img → Img) : (s.updImg f).sigRetry = s.sigRetry := rfl
@[simp] theorem State.updImg_fltq (s : State) (f : Img → Img) : (s.updImg f).fltq = s.fltq := rfl
@[simp] theorem State.updImg_fltIn (s : State) (f : Img → Img) : (s.updImg f).fltIn = s.fltIn := rfl
@[simp] theorem State.updImg_fltSeq (s : State) (f : Img → Img) : (s.updImg f).fltSeq = s.fltSeq := rfl
@[simp] theorem State.updImg_viols (s : State) (f : Img → Img) : (s.updImg f).viols = s.viols := rfl
@[simp] theorem State.updImg_slots (s : State) (f : Img → Img) : (s.updImg f).slots = s.slots := rfl
@[simp] theorem State.updImg_frames (s : State) (f : Img → Img) : (s.updImg f).frames = s.frames := rfl
@[simp] theorem State.updImg_tier (s : State) (f : Img → Img) : (s.updImg f).tier = s.tier := rfl
@[simp] theorem State.updImg_snap (s : State) (f : Img → Img) : (s.updImg f).snap = s.snap := rfl
@[simp] theorem State.updImg_host (s : State) (f : Img → Img) : (s.updImg f).host = s.host := rfl
@[simp] theorem State.updImg_prg (s : State) (f : Img → Img) : (s.updImg f).prg = s.prg := rfl
@[simp] theorem State.updImg_flt (s : State) (f : Img → Img) : (s.updImg f).flt = s.flt := rfl
@[simp] theorem State.updImg_ward (s : State) (f : Img → Img) : (s.updImg f).ward = s.ward := rfl
@[simp] theorem State.updImg_boot (s : State) (f : Img → Img) : (s.updImg f).boot = s.boot := rfl
@[simp] theorem State.updImg_pwr (s : State) (f : Img → Img) : (s.updImg f).pwr = s.pwr := rfl
@[simp] theorem State.updImg_hub (s : State) (f : Img → Img) : (s.updImg f).hub = s.hub := rfl
@[simp] theorem State.updImg_runStop (s : State) (f : Img → Img) : (s.updImg f).runStop = s.runStop := rfl
@[simp] theorem State.updImg_outbox (s : State) (f : Img → Img) : (s.updImg f).outbox = s.outbox := rfl
@[simp] theorem State.updImg_freeIx (s : State) (f : Img → Img) : (s.updImg f).freeIx = s.freeIx := rfl
@[simp] theorem State.updImg_pending (s : State) (f : Img → Img) : (s.updImg f).pending = s.pending := rfl

@[simp] theorem State.updPrg_regs (s : State) (f : Prg → Prg) : (s.updPrg f).regs = s.regs := rfl
@[simp] theorem State.updPrg_vmem (s : State) (f : Prg → Prg) : (s.updPrg f).vmem = s.vmem := rfl
@[simp] theorem State.updPrg_stg (s : State) (f : Prg → Prg) : (s.updPrg f).stg = s.stg := rfl
@[simp] theorem State.updPrg_cores (s : State) (f : Prg → Prg) : (s.updPrg f).cores = s.cores := rfl
@[simp] theorem State.updPrg_saves (s : State) (f : Prg → Prg) : (s.updPrg f).saves = s.saves := rfl
@[simp] theorem State.updPrg_sigRetry (s : State) (f : Prg → Prg) : (s.updPrg f).sigRetry = s.sigRetry := rfl
@[simp] theorem State.updPrg_fltq (s : State) (f : Prg → Prg) : (s.updPrg f).fltq = s.fltq := rfl
@[simp] theorem State.updPrg_fltIn (s : State) (f : Prg → Prg) : (s.updPrg f).fltIn = s.fltIn := rfl
@[simp] theorem State.updPrg_fltSeq (s : State) (f : Prg → Prg) : (s.updPrg f).fltSeq = s.fltSeq := rfl
@[simp] theorem State.updPrg_viols (s : State) (f : Prg → Prg) : (s.updPrg f).viols = s.viols := rfl
@[simp] theorem State.updPrg_slots (s : State) (f : Prg → Prg) : (s.updPrg f).slots = s.slots := rfl
@[simp] theorem State.updPrg_frames (s : State) (f : Prg → Prg) : (s.updPrg f).frames = s.frames := rfl
@[simp] theorem State.updPrg_tier (s : State) (f : Prg → Prg) : (s.updPrg f).tier = s.tier := rfl
@[simp] theorem State.updPrg_snap (s : State) (f : Prg → Prg) : (s.updPrg f).snap = s.snap := rfl
@[simp] theorem State.updPrg_host (s : State) (f : Prg → Prg) : (s.updPrg f).host = s.host := rfl
@[simp] theorem State.updPrg_img (s : State) (f : Prg → Prg) : (s.updPrg f).img = s.img := rfl
@[simp] theorem State.updPrg_flt (s : State) (f : Prg → Prg) : (s.updPrg f).flt = s.flt := rfl
@[simp] theorem State.updPrg_ward (s : State) (f : Prg → Prg) : (s.updPrg f).ward = s.ward := rfl
@[simp] theorem State.updPrg_boot (s : State) (f : Prg → Prg) : (s.updPrg f).boot = s.boot := rfl
@[simp] theorem State.updPrg_pwr (s : State) (f : Prg → Prg) : (s.updPrg f).pwr = s.pwr := rfl
@[simp] theorem State.updPrg_hub (s : State) (f : Prg → Prg) : (s.updPrg f).hub = s.hub := rfl
@[simp] theorem State.updPrg_runStop (s : State) (f : Prg → Prg) : (s.updPrg f).runStop = s.runStop := rfl
@[simp] theorem State.updPrg_outbox (s : State) (f : Prg → Prg) : (s.updPrg f).outbox = s.outbox := rfl
@[simp] theorem State.updPrg_freeIx (s : State) (f : Prg → Prg) : (s.updPrg f).freeIx = s.freeIx := rfl
@[simp] theorem State.updPrg_pending (s : State) (f : Prg → Prg) : (s.updPrg f).pending = s.pending := rfl

@[simp] theorem State.queue_regs (s : State) (k : FaultKind) (i : Nat) (c : Option Nat) (p : Payload) : (s.queue k i c p).regs = s.regs := rfl
@[simp] theorem State.queue_vmem (s : State) (k : FaultKind) (i : Nat) (c : Option Nat) (p : Payload) : (s.queue k i c p).vmem = s.vmem := rfl
@[simp] theorem State.queue_stg (s : State) (k : FaultKind) (i : Nat) (c : Option Nat) (p : Payload) : (s.queue k i c p).stg = s.stg := rfl
@[simp] theorem State.queue_cores (s : State) (k : FaultKind) (i : Nat) (c : Option Nat) (p : Payload) : (s.queue k i c p).cores = s.cores := rfl
@[simp] theorem State.queue_saves (s : State) (k : FaultKind) (i : Nat) (c : Option Nat) (p : Payload) : (s.queue k i c p).saves = s.saves := rfl
@[simp] theorem State.queue_sigRetry (s : State) (k : FaultKind) (i : Nat) (c : Option Nat) (p : Payload) : (s.queue k i c p).sigRetry = s.sigRetry := rfl
@[simp] theorem State.queue_fltq (s : State) (k : FaultKind) (i : Nat) (c : Option Nat) (p : Payload) : (s.queue k i c p).fltq = s.fltq := rfl
@[simp] theorem State.queue_fltSeq (s : State) (k : FaultKind) (i : Nat) (c : Option Nat) (p : Payload) : (s.queue k i c p).fltSeq = s.fltSeq := rfl
@[simp] theorem State.queue_viols (s : State) (k : FaultKind) (i : Nat) (c : Option Nat) (p : Payload) : (s.queue k i c p).viols = s.viols := rfl
@[simp] theorem State.queue_slots (s : State) (k : FaultKind) (i : Nat) (c : Option Nat) (p : Payload) : (s.queue k i c p).slots = s.slots := rfl
@[simp] theorem State.queue_frames (s : State) (k : FaultKind) (i : Nat) (c : Option Nat) (p : Payload) : (s.queue k i c p).frames = s.frames := rfl
@[simp] theorem State.queue_tier (s : State) (k : FaultKind) (i : Nat) (c : Option Nat) (p : Payload) : (s.queue k i c p).tier = s.tier := rfl
@[simp] theorem State.queue_snap (s : State) (k : FaultKind) (i : Nat) (c : Option Nat) (p : Payload) : (s.queue k i c p).snap = s.snap := rfl
@[simp] theorem State.queue_host (s : State) (k : FaultKind) (i : Nat) (c : Option Nat) (p : Payload) : (s.queue k i c p).host = s.host := rfl
@[simp] theorem State.queue_img (s : State) (k : FaultKind) (i : Nat) (c : Option Nat) (p : Payload) : (s.queue k i c p).img = s.img := rfl
@[simp] theorem State.queue_prg (s : State) (k : FaultKind) (i : Nat) (c : Option Nat) (p : Payload) : (s.queue k i c p).prg = s.prg := rfl
@[simp] theorem State.queue_flt (s : State) (k : FaultKind) (i : Nat) (c : Option Nat) (p : Payload) : (s.queue k i c p).flt = s.flt := rfl
@[simp] theorem State.queue_ward (s : State) (k : FaultKind) (i : Nat) (c : Option Nat) (p : Payload) : (s.queue k i c p).ward = s.ward := rfl
@[simp] theorem State.queue_boot (s : State) (k : FaultKind) (i : Nat) (c : Option Nat) (p : Payload) : (s.queue k i c p).boot = s.boot := rfl
@[simp] theorem State.queue_pwr (s : State) (k : FaultKind) (i : Nat) (c : Option Nat) (p : Payload) : (s.queue k i c p).pwr = s.pwr := rfl
@[simp] theorem State.queue_hub (s : State) (k : FaultKind) (i : Nat) (c : Option Nat) (p : Payload) : (s.queue k i c p).hub = s.hub := rfl
@[simp] theorem State.queue_runStop (s : State) (k : FaultKind) (i : Nat) (c : Option Nat) (p : Payload) : (s.queue k i c p).runStop = s.runStop := rfl
@[simp] theorem State.queue_outbox (s : State) (k : FaultKind) (i : Nat) (c : Option Nat) (p : Payload) : (s.queue k i c p).outbox = s.outbox := rfl
@[simp] theorem State.queue_freeIx (s : State) (k : FaultKind) (i : Nat) (c : Option Nat) (p : Payload) : (s.queue k i c p).freeIx = s.freeIx := rfl
@[simp] theorem State.queue_pending (s : State) (k : FaultKind) (i : Nat) (c : Option Nat) (p : Payload) : (s.queue k i c p).pending = s.pending := rfl

@[simp] theorem State.updHost_host (s : State) (f : HostSt → HostSt) : (s.updHost f).host = f s.host := rfl
@[simp] theorem State.updHub_hub (s : State) (f : Hub → Hub) : (s.updHub f).hub = f s.hub := rfl
@[simp] theorem State.updWard_ward (s : State) (f : Ward → Ward) : (s.updWard f).ward = f s.ward := rfl
@[simp] theorem State.updPwr_pwr (s : State) (f : Pwr → Pwr) : (s.updPwr f).pwr = f s.pwr := rfl
@[simp] theorem State.updBoot_boot (s : State) (f : BootSt → BootSt) : (s.updBoot f).boot = f s.boot := rfl
@[simp] theorem State.updTier_tier (s : State) (f : Tier → Tier) : (s.updTier f).tier = f s.tier := rfl
@[simp] theorem State.updFlt_flt (s : State) (f : FltSt → FltSt) : (s.updFlt f).flt = f s.flt := rfl
@[simp] theorem State.updImg_img (s : State) (f : Img → Img) : (s.updImg f).img = f s.img := rfl
@[simp] theorem State.updPrg_prg (s : State) (f : Prg → Prg) : (s.updPrg f).prg = f s.prg := rfl
@[simp] theorem State.send_outbox (s : State) (o : Out) : (s.send o).outbox = s.outbox ++ [o] := rfl
@[simp] theorem State.fresh_freeIx (s : State) (n : Nat) : (s.fresh n).freeIx = s.freeIx + n := rfl

/-! ## Registers are read as they were written -/

/-- Two registers of different names have different keys. -/
theorem regKey_ne {r r' : Reg} (h : r ≠ r') (i k i' k' : Nat) : regKey r i k ≠ regKey r' i' k' := by
  have hc : r.ctorIdx ≠ r'.ctorIdx := by
    intro e
    apply h
    rw [← Reg.ofNat_ctorIdx r, ← Reg.ofNat_ctorIdx r', e]
  unfold regKey
  omega

/-- Keys of one register at different instances or indices differ. -/
theorem regKey_ne_at {r : Reg} {i k i' k' : Nat} (h : i % 256 ≠ i' % 256 ∨ k % 2 ^ 12 ≠ k' % 2 ^ 12) :
    regKey r i k ≠ regKey r i' k' := by
  unfold regKey
  omega

theorem State.rd_wr_self (s : State) (r : Reg) (i k v : Nat) : (s.wr r i k v).rd r i k = v % 2 ^ 64 := by
  unfold State.rd State.wr
  simp

theorem State.rd_wr_key (s : State) {r r' : Reg} {i k i' k' : Nat} (v : Nat) (h : regKey r i k ≠ regKey r' i' k') :
    (s.wr r i k v).rd r' i' k' = s.rd r' i' k' := by
  unfold State.rd State.wr
  rw [SMap.get_set_ne _ _ _ h]

theorem State.rd_wr_ne (s : State) {r r' : Reg} (h : r ≠ r') (i k v i' k' : Nat) :
    (s.wr r i k v).rd r' i' k' = s.rd r' i' k' := s.rd_wr_key v (regKey_ne h i k i' k')

theorem State.rd_wrF_ne (s : State) {r r' : Reg} (h : r ≠ r') (i k lo w v i' k' : Nat) :
    (s.wrF r i k lo w v).rd r' i' k' = s.rd r' i' k' := s.rd_wr_key _ (regKey_ne h i k i' k')

theorem State.rd_bump_ne (s : State) {r r' : Reg} (h : r ≠ r') (i n i' k' : Nat) :
    (s.bump r i n).rd r' i' k' = s.rd r' i' k' := s.rd_wr_key _ (regKey_ne h i 0 i' k')

/-- A register is read back from a table that the frame leaves alone. -/
theorem State.rd_congr {s t : State} (h : t.regs = s.regs) (r : Reg) (i k : Nat) : t.rd r i k = s.rd r i k := by
  unfold State.rd
  rw [h]

@[simp] theorem State.rd_setCore (s : State) (g : Nat) (c : Core) (r : Reg) (i k : Nat) :
    (s.setCore g c).rd r i k = s.rd r i k := rfl
@[simp] theorem State.rd_updCore (s : State) (g : Nat) (f : Core → Core) (r : Reg) (i k : Nat) :
    (s.updCore g f).rd r i k = s.rd r i k := rfl

/-! ## Fields of a register -/

theorem bitsOf_setBits_self {n lo w v : Nat} : bitsOf (setBits n lo w v) lo w = v % 2 ^ w := by
  unfold setBits bitsOf
  have h := Nat.div_add_mod n (2 ^ lo)
  have h2 := Nat.div_add_mod (n / 2 ^ lo) (2 ^ w)
  have e : n - n / 2 ^ lo % 2 ^ w * 2 ^ lo + v % 2 ^ w * 2 ^ lo
      = 2 ^ lo * (2 ^ w * (n / 2 ^ lo / 2 ^ w) + v % 2 ^ w) + n % 2 ^ lo := by
    have e1 : n = 2 ^ lo * (2 ^ w * (n / 2 ^ lo / 2 ^ w)) + n / 2 ^ lo % 2 ^ w * 2 ^ lo + n % 2 ^ lo := by
      conv_lhs => rw [← h, ← h2]
      ring
    have e2 : n - n / 2 ^ lo % 2 ^ w * 2 ^ lo = 2 ^ lo * (2 ^ w * (n / 2 ^ lo / 2 ^ w)) + n % 2 ^ lo := by omega
    rw [e2]
    ring
  have hlt : n % 2 ^ lo < 2 ^ lo := Nat.mod_lt _ (Nat.two_pow_pos _)
  rw [e, Nat.mul_add_div (Nat.two_pow_pos _), Nat.div_eq_of_lt hlt, Nat.add_zero, Nat.mul_add_mod]
  exact Nat.mod_mod _ _

/-! ## Cores are read as they were written -/

@[simp] theorem State.core_setCore_self (s : State) (g : Nat) (c : Core) : (s.setCore g c).core g = c := by
  unfold State.core State.setCore
  simp

theorem State.core_setCore_ne (s : State) {g h : Nat} (c : Core) (hne : g ≠ h) : (s.setCore g c).core h = s.core h := by
  unfold State.core State.setCore
  rw [SMap.get_set_ne _ _ _ hne]

@[simp] theorem State.core_updCore_self (s : State) (g : Nat) (f : Core → Core) : (s.updCore g f).core g = f (s.core g) :=
  s.core_setCore_self g _

theorem State.core_updCore_ne (s : State) {g h : Nat} (f : Core → Core) (hne : g ≠ h) : (s.updCore g f).core h = s.core h :=
  s.core_setCore_ne _ hne

@[simp] theorem State.core_wr (s : State) (r : Reg) (i k v g : Nat) : (s.wr r i k v).core g = s.core g := rfl
@[simp] theorem State.core_wrF (s : State) (r : Reg) (i k lo w v g : Nat) : (s.wrF r i k lo w v).core g = s.core g := rfl
@[simp] theorem State.core_bump (s : State) (r : Reg) (i n g : Nat) : (s.bump r i n).core g = s.core g := rfl

end Sys2Proof.Machine
end

