-- ==== Sys2Proof/WellFormed.lean ====
section
/-! DEFINITION. The operands that a sender of commands may give: indices within the hardware's counts, bytes that are bytes. A
meaning does not rely on it: what the spec says of a value out of range, the meaning does. -/

namespace Sys2Proof

def bytesOk (bs : List Nat) : Bool := bs.all (fun x => decide (x < 256))
def bitsOk (bs : List Nat) : Bool := bs.all (fun x => decide (x < 2))

/-- Well-formed commands. -/
def Instr.wf : Instr → Bool
  | .entryDispatch core => decide (core < 128)
  | .entryComplete core stream => decide (core < 128) && decide (stream < 4)
  | .stepAdv core => decide (core < 128)
  | .evalEnd core => decide (core < 128)
  | .tumblerWait core stream => decide (core < 128) && decide (stream < 4)
  | .tumblerAdd core _ _ _ _ _ => decide (core < 128)
  | .latchTake core stream => decide (core < 128) && decide (stream < 4)
  | .latchTry core stream => decide (core < 128) && decide (stream < 4)
  | .latchPost core _ _ _ _ _ => decide (core < 128)
  | .lendEnter core _ => decide (core < 128)
  | .lendExit core _ => decide (core < 128)
  | .coreHeartbeat core _ => decide (core < 128)
  | .heartbeatMiss core => decide (core < 128)
  | .synScrub core _ => decide (core < 128)
  | .contextSaveRequest core => decide (core < 128)
  | .freezePoint core => decide (core < 128)
  | .contextRestore core _ _ _ => decide (core < 128)
  | .matrixProduct core _ _ _ => decide (core < 128)
  | .tileWriteOut core _ => decide (core < 128)
  | .elem core _ => decide (core < 128)
  | .reduce core _ => decide (core < 128)
  | .scan core _ => decide (core < 128)
  | .permute core _ => decide (core < 128)
  | .norm core _ => decide (core < 128)
  | .softmax core _ => decide (core < 128)
  | .rowRecompute core _ => decide (core < 128)
  | .vltLineRead vault line src _ => decide (vault < 128) && decide (line < 2 ^ 26) && decide (src < 168)
  | .vltLineWrite vault line src tag data => decide (vault < 128) && decide (line < 2 ^ 26) && decide (src < 168) && decide (tag < 2 ^ 16) && bytesOk data
  | .narrowWrite vault line src tag off bytes _ => decide (vault < 128) && decide (line < 2 ^ 26) && decide (src < 168) && decide (tag < 2 ^ 16) && decide (off < 128) && bytesOk bytes
  | .vltRefetch vault line _ => decide (vault < 128) && decide (line < 2 ^ 26)
  | .pageMigrateDone vault _ => decide (vault < 128)
  | .recompute core => decide (core < 128)
  | .vltRecomputeRead vault line _ => decide (vault < 128) && decide (line < 2 ^ 26)
  | .rcmpTimeout vault line => decide (vault < 128) && decide (line < 2 ^ 26)
  | .refreshDue vault bank _ => decide (vault < 128) && decide (bank < 128)
  | .refreshRepay vault bank => decide (vault < 128) && decide (bank < 128)
  | .patrolScrub vault _ => decide (vault < 128)
  | .tempSample vault _ _ _ _ => decide (vault < 128)
  | .bandChange vault => decide (vault < 128)
  | .stgAccess core _ _ _ _ data => decide (core < 128) && bytesOk data
  | .optim core => decide (core < 128)
  | .scale core => decide (core < 128)
  | .digest core => decide (core < 128)
  | .zero core => decide (core < 128)
  | .laneTokenGrant core _ _ => decide (core < 128)
  | .lanePassClaim core bank _ => decide (core < 128) && decide (bank < 128)
  | .lanePassWrite core bank => decide (core < 128) && decide (bank < 128)
  | .lanePassBoundary core bank _ => decide (core < 128) && decide (bank < 128)
  | .masterGather core => decide (core < 128)
  | .red core => decide (core < 128)
  | .move core => decide (core < 128)
  | .dcmp core => decide (core < 128)
  | .promote src => decide (src < 144)
  | .evict src => decide (src < 144)
  | .pin src => decide (src < 144)
  | .unpin src => decide (src < 144)
  | .flush src => decide (src < 144)
  | .promotePageDone obj _ => decide (obj < 8192)
  | .stagingFrameFree obj => decide (obj < 8192)
  | .stagingCopyDone obj => decide (obj < 8192)
  | .flashProgramDone obj _ _ _ _ => decide (obj < 8192)
  | .streamFillStart win => decide (win < 64)
  | .streamFillDone win _ => decide (win < 64)
  | .substitute core stream _ => decide (core < 128) && decide (stream < 4)
  | .space2DmaWrite obj _ _ data => decide (obj < 8192) && bytesOk data
  | .flashUnitRead _ obj _ _ _ _ => decide (obj < 8192)
  | .readRetry _ obj _ _ _ _ => decide (obj < 8192)
  | .relocate _ _ => true
  | .staticWearLevel _ _ => true
  | .readDisturbRelocate _ _ => true
  | .flashFirstInit channel _ _ => decide (channel < 16)
  | .tierQuery obj => decide (obj < 8192)
  | .laneFail port lane _ _ => decide (port < 16) && decide (lane < 8)
  | .laneset port lane _ => decide (port < 16) && decide (lane < 8)
  | .laneRetrain port lane => decide (port < 16) && decide (lane < 8)
  | .laneTrainingDone port lane pkg _ _ _ => decide (port < 16) && decide (lane < 8) && decide (pkg < 64)
  | .flitReceive port lane bytes => decide (port < 16) && decide (lane < 8) && bytesOk bytes
  | .nak port lane _ => decide (port < 16) && decide (lane < 8)
  | .ackTimeout port lane => decide (port < 16) && decide (lane < 8)
  | .replayBudgetExpiry port lane => decide (port < 16) && decide (lane < 8)
  | .linkDown port lane => decide (port < 16) && decide (lane < 8)
  | .creditReturnSend port lane => decide (port < 16) && decide (lane < 8)
  | .resync port kw epoch => decide (port < 16) && decide (kw < 4096) && decide (epoch < 256)
  | .resyncAck port kw epoch _ => decide (port < 16) && decide (kw < 4096) && decide (epoch < 256)
  | .resyncSet port kw epoch _ => decide (port < 16) && decide (kw < 4096) && decide (epoch < 256)
  | .reset port kw epoch => decide (port < 16) && decide (kw < 4096) && decide (epoch < 256)
  | .resetAck port kw epoch => decide (port < 16) && decide (kw < 4096) && decide (epoch < 256)
  | .kwNak port kw _ _ _ => decide (port < 16) && decide (kw < 4096)
  | .readReq _ => true
  | .readRsp _ => true
  | .write _ => true
  | .writeAck _ => true
  | .signal _ => true
  | .sigAck _ => true
  | .redPart _ _ _ => true
  | .redAck _ => true
  | .flushReq _ => true
  | .flushReadDone _ => true
  | .flushRsp _ => true
  | .digestMessage _ => true
  | .digestAck _ => true
  | .normMessage _ => true
  | .normAck _ => true
  | .nakMessage _ => true
  | .txnTimeout die _ => decide (die < 8)
  | .ctrlPlaneScrub port _ => decide (port < 16)
  | .imageLoad _ secs => secs.all bytesOk
  | .ready _ _ _ _ secs => secs.all bytesOk
  | .seal _ _ _ _ => true
  | .abort _ _ => true
  | .quiesce order => decide (order.2 < 4)
  | .quiet _ => true
  | .leadTakeover _ _ _ => true
  | .hubHeartbeat _ => true
  | .packageLost pkg _ _ => decide (pkg < 64)
  | .stagingTimeout pkg => decide (pkg < 64)
  | .hostSqTail ring _ _ => decide (ring < 16)
  | .hostCqHead ring _ => decide (ring < 16)
  | .hostEvqHead _ => true
  | .step => true
  | .copyIn => true
  | .copyOut => true
  | .hostCqPost ring _ _ => decide (ring < 16)
  | .stepGatewaySelect _ _ => true
  | .probe => true
  | .dmaReadTimeout _ => true
  | .detach => true
  | .attach epoch => decide (epoch < 2 ^ 16)
  | .perstN => true
  | .hotReset => true
  | .linkDisable => true
  | .dataLinkDown => true
  | .bmeClear => true
  | .functionLevelReset => true
  | .hostWinCfg win _ _ => decide (win < 64)
  | .hostRingCfg _ ring _ _ => decide (ring < 16)
  | .faultRecord _ _ => true
  | .deadboltDark core => decide (core < 128)
  | .refillDone _ _ _ => true
  | .startSave core => decide (core < 128)
  | .derivationSave core => decide (core < 128)
  | .derivationPoint _ _ => true
  | .restore _ _ _ => true
  | .resume _ => true
  | .snapshotEpoch _ _ _ => true
  | .snapshotReadbackDone _ => true
  | .h1LockstepMismatch => true
  | .h1RestartDone => true
  | .provision block => bytesOk block
  | .fieldKeys block => bytesOk block
  | .returnPart block => bytesOk block
  | .returnAuth block => bytesOk block
  | .reprovision block => bytesOk block
  | .svnCommit block => bytesOk block
  | .openD2 block => bytesOk block
  | .openD3 block => bytesOk block
  | .nonceReq => true
  | .rngHealthFail _ => true
  | .debugLevelSet level => decide (level < 4)
  | .close => true
  | .debugHalt core => decide (core < 128)
  | .debugResume core => decide (core < 128)
  | .debugStep core => decide (core < 128)
  | .debugRegWrite core _ _ _ => decide (core < 128)
  | .debugVaultRead vault line => decide (vault < 128) && decide (line < 2 ^ 26)
  | .debugVaultWrite vault line data => decide (vault < 128) && decide (line < 2 ^ 26) && bytesOk data
  | .bypass tdi => bitsOk tdi
  | .idcode tdi => bitsOk tdi
  | .samplePreload pins tdi => bitsOk pins && bitsOk tdi
  | .extest pins tdi => bitsOk pins && bitsOk tdi
  | .internalChain tdi => bitsOk tdi
  | .getVersion p req => decide (p < 3) && bytesOk req
  | .getCapabilities p req => decide (p < 3) && bytesOk req
  | .negotiateAlgorithms p req => decide (p < 3) && bytesOk req
  | .getDigests p req => decide (p < 3) && bytesOk req
  | .getCertificate p req => decide (p < 3) && bytesOk req
  | .challenge p req => decide (p < 3) && bytesOk req
  | .getMeasurements p req => decide (p < 3) && bytesOk req
  | .spdmBusyTimeout p => decide (p < 3)
  | .powerRun => true
  | .powerHold => true
  | .holdEntry => true
  | .powerStandby _ => true
  | .powerOff => true
  | .powerGood input => decide (input.1 < 16)
  | .pwrenLow => true
  | .underVoltage => true
  | .overVoltage => true
  | .brownout _ => true
  | .brownoutEnd => true
  | .converterFault conv _ => decide (conv < 6)
  | .grantRequest island _ => decide (island < 144)
  | .powerSample _ _ _ _ _ => true
  | .throttleLine conv _ _ => decide (conv < 6)
  | .thermalSample _ _ _ => true
  | .retune island _ => decide (island < 136)
  | .refclkLoss _ => true
  | .pwrLimit _ => true
  | .warmReset _ => true
  | .coldReset _ => true
  | .mctpReset _ => true
  | .bootStage feed _ => decide (feed < 16)
  | .bringupStage _ _ => true
  | .relayGo _ => true
  | .tsCorrGo island => decide (island < 256)
  | .tsCorrSample _ => true
  | .tlmCorrelation _ => true
  | .clkMeasWindow _ => true
  | .setEndpointId b _ _ => decide (b < 2)
  | .getEndpointId b => decide (b < 2)
  | .getMctpVersionSupport b _ => decide (b < 2)
  | .getMessageTypeSupport b => decide (b < 2)
  | .getVendorDefinedMsgSupport b _ => decide (b < 2)
  | .regRead b _ => decide (b < 2)
  | .regWrite b _ _ => decide (b < 2)
  | .wardSubmit b block => decide (b < 2) && bytesOk block
  | .wardResult b => decide (b < 2)
  | .nonce b => decide (b < 2)
  | .recoveryWrite b _ data => decide (b < 2) && bytesOk data
  | .getTid b => decide (b < 2)
  | .getPldmVersion b _ => decide (b < 2)
  | .getPldmTypes b => decide (b < 2)
  | .getPldmCommands b _ => decide (b < 2)
  | .getPdrRepositoryInfo b => decide (b < 2)
  | .getPdr b _ => decide (b < 2)
  | .getSensorReading b _ => decide (b < 2)
  | .getStateSensorReadings b _ => decide (b < 2)
  | .setNumericSensorEnable b _ _ => decide (b < 2)
  | .setEventReceiver b _ _ => decide (b < 2)
  | .rcRead path _ => decide (path < 2)
  | .halfReadLatch path _ => decide (path < 2)
  | .fltqRecLatch path entry slot => decide (path < 2) && decide (entry < 64) && decide (slot < 8)
  | .cnsRingTail core _ => decide (core < 128)
  | .hubVlogTail _ => true
  | .sweep _ => true
  | .vlogEntryClose _ island => decide (island < 168)
  | .registerWrite path _ _ _ => decide (path < 2)
  | .hasp core => decide (core < 128)
  | .coreParity core _ => decide (core < 128)
  | .coreRail core _ _ => decide (core < 128)
  | .wardLockstep => true
  | .frameReceive port lane _ flits _ => decide (port < 16) && decide (lane < 8) && flits.all bytesOk
  | .probeReadDone _ => true
  | .dmaReadCompletion _ _ data => bytesOk data
  | .blockEraseDone _ _ _ => true
  | .pldmEventAck _ => true

end Sys2Proof
end

