-- ==== Sys2Proof/Tests/Slice0.lean ====
section
/-! SUPPORT. Tests of the model: terms that the well-formedness check refuses, and for each statement states and operands that meet
its premises (a premise that needs an image of 8 MB in the boot flash has no witness here). -/

namespace Sys2Proof.Tests

open Machine Claims

set_option Elab.async false

/-! ## Well-formedness: each check refuses a term that breaks it alone, and the least operands pass -/

theorem test_wf_refuses_a :
    ([.entryDispatch 128, .entryComplete 128 0, .entryComplete 0 4, .stepAdv 128, .evalEnd 128, .tumblerWait 128 0,
     .tumblerWait 0 4, .tumblerAdd 128 0 0 0 false none, .latchTake 128 0, .latchTake 0 4, .latchTry 128 0,
     .latchTry 0 4, .latchPost 128 0 0 0 false none, .lendEnter 128 [], .lendExit 128 0, .coreHeartbeat 128 0,
     .heartbeatMiss 128, .synScrub 128 [], .contextSaveRequest 128, .freezePoint 128, .contextRestore 128 0 0 0,
     .matrixProduct 128 0 0 0, .tileWriteOut 128 0, .elem 128 (0, 0), .reduce 128 (0, 0), .scan 128 (0, 0), .permute 128 (0, 0),
     .norm 128 (0, 0), .softmax 128 (0, 0), .rowRecompute 128 (0, 0), .vltLineRead 128 0 0 [], .vltLineRead 0 67108864 0 [],
     .vltLineRead 0 0 168 [], .vltLineWrite 128 0 0 0 [], .vltLineWrite 0 67108864 0 0 [], .vltLineWrite 0 0 168 0 [],
     .vltLineWrite 0 0 0 65536 [], .vltLineWrite 0 0 0 0 [0, 256], .narrowWrite 128 0 0 0 0 [] [],
     .narrowWrite 0 67108864 0 0 0 [] [], .narrowWrite 0 0 168 0 0 [] [], .narrowWrite 0 0 0 65536 0 [] [],
     .narrowWrite 0 0 0 0 128 [] [], .narrowWrite 0 0 0 0 0 [0, 256] [], .vltRefetch 128 0 [], .vltRefetch 0 67108864 [],
     .pageMigrateDone 128 false, .recompute 128, .vltRecomputeRead 128 0 [], .vltRecomputeRead 0 67108864 [],
     .rcmpTimeout 128 0, .rcmpTimeout 0 67108864, .refreshDue 128 0 false, .refreshDue 0 128 false, .refreshRepay 128 0,
     .refreshRepay 0 128, .patrolScrub 128 [], .tempSample 128 0 0 0 0, .bandChange 128, .stgAccess 128 0 0 0 0 []] : List Instr).all (fun i => !i.wf) = true := by decide
theorem test_wf_refuses_b :
    ([.stgAccess 0 0 0 0 0 [0, 256], .optim 128, .scale 128, .digest 128, .zero 128, .laneTokenGrant 128 0 0,
     .lanePassClaim 128 0 [], .lanePassClaim 0 128 [], .lanePassWrite 128 0, .lanePassWrite 0 128,
     .lanePassBoundary 128 0 0, .lanePassBoundary 0 128 0, .masterGather 128, .red 128, .move 128, .dcmp 128,
     .promote 144, .evict 144, .pin 144, .unpin 144, .flush 144, .promotePageDone 8192 [], .stagingFrameFree 8192,
     .stagingCopyDone 8192, .flashProgramDone 8192 0 0 0 false, .streamFillStart 64, .streamFillDone 64 [],
     .substitute 128 0 0, .substitute 0 4 0, .space2DmaWrite 8192 0 0 [], .space2DmaWrite 0 0 0 [0, 256],
     .flashUnitRead 0 8192 0 0 0 [], .readRetry 0 8192 0 0 0 [], .flashFirstInit 16 [] [], .tierQuery 8192,
     .laneFail 16 0 0 0, .laneFail 0 8 0 0, .laneset 16 0 0, .laneset 0 8 0, .laneRetrain 16 0, .laneRetrain 0 8,
     .laneTrainingDone 16 0 0 0 0 0, .laneTrainingDone 0 8 0 0 0 0, .laneTrainingDone 0 0 64 0 0 0, .flitReceive 16 0 [],
     .flitReceive 0 8 [], .flitReceive 0 0 [0, 256], .nak 16 0 0, .nak 0 8 0, .ackTimeout 16 0, .ackTimeout 0 8,
     .replayBudgetExpiry 16 0, .replayBudgetExpiry 0 8, .linkDown 16 0, .linkDown 0 8, .creditReturnSend 16 0,
     .creditReturnSend 0 8, .resync 16 0 0, .resync 0 4096 0, .resync 0 0 256] : List Instr).all (fun i => !i.wf) = true := by decide
theorem test_wf_refuses_c :
    ([.resyncAck 16 0 0 0, .resyncAck 0 4096 0 0, .resyncAck 0 0 256 0, .resyncSet 16 0 0 0, .resyncSet 0 4096 0 0,
     .resyncSet 0 0 256 0, .reset 16 0 0, .reset 0 4096 0, .reset 0 0 256, .resetAck 16 0 0, .resetAck 0 4096 0,
     .resetAck 0 0 256, .kwNak 16 0 0 0 0, .kwNak 0 4096 0 0 0, .txnTimeout 8 0, .ctrlPlaneScrub 16 [],
     .imageLoad [] [[0], [256]], .ready none 0 [] [] [[0], [256]], .quiesce (0, 4), .packageLost 64 false [],
     .stagingTimeout 64, .hostSqTail 16 0 [], .hostCqHead 16 0, .hostCqPost 16 0 false, .attach 65536,
     .hostWinCfg 64 0 false, .hostRingCfg 0 16 0 false, .deadboltDark 128, .startSave 128, .derivationSave 128,
     .provision [0, 256], .fieldKeys [0, 256], .returnPart [0, 256], .returnAuth [0, 256], .reprovision [0, 256],
     .svnCommit [0, 256], .openD2 [0, 256], .openD3 [0, 256], .debugLevelSet 4, .debugHalt 128, .debugResume 128,
     .debugStep 128, .debugRegWrite 128 0 0 false, .debugVaultRead 128 0, .debugVaultRead 0 67108864,
     .debugVaultWrite 128 0 [], .debugVaultWrite 0 67108864 [], .debugVaultWrite 0 0 [0, 256], .bypass [1, 2],
     .idcode [1, 2], .samplePreload [1, 2] [], .samplePreload [] [1, 2], .extest [1, 2] [], .extest [] [1, 2],
     .internalChain [1, 2], .getVersion 3 [], .getVersion 0 [0, 256], .getCapabilities 3 [], .getCapabilities 0 [0, 256],
     .negotiateAlgorithms 3 []] : List Instr).all (fun i => !i.wf) = true := by decide
theorem test_wf_refuses_d :
    ([.negotiateAlgorithms 0 [0, 256], .getDigests 3 [], .getDigests 0 [0, 256], .getCertificate 3 [],
     .getCertificate 0 [0, 256], .challenge 3 [], .challenge 0 [0, 256], .getMeasurements 3 [],
     .getMeasurements 0 [0, 256], .spdmBusyTimeout 3, .powerGood (16, false), .converterFault 6 0, .grantRequest 144 0,
     .throttleLine 6 0 0, .retune 136 0, .bootStage 16 false, .tsCorrGo 256, .setEndpointId 2 0 0, .getEndpointId 2,
     .getMctpVersionSupport 2 0, .getMessageTypeSupport 2, .getVendorDefinedMsgSupport 2 0, .regRead 2 0,
     .regWrite 2 0 0, .wardSubmit 2 [], .wardSubmit 0 [0, 256], .wardResult 2, .nonce 2, .recoveryWrite 2 0 [],
     .recoveryWrite 0 0 [0, 256], .getTid 2, .getPldmVersion 2 0, .getPldmTypes 2, .getPldmCommands 2 0,
     .getPdrRepositoryInfo 2, .getPdr 2 0, .getSensorReading 2 0, .getStateSensorReadings 2 0,
     .setNumericSensorEnable 2 0 0, .setEventReceiver 2 0 0, .rcRead 2 0, .halfReadLatch 2 0, .fltqRecLatch 2 0 0,
     .fltqRecLatch 0 64 0, .fltqRecLatch 0 0 8, .cnsRingTail 128 0, .vlogEntryClose 0 168, .registerWrite 2 0 0 0,
     .hasp 128, .coreParity 128 0, .coreRail 128 0 0, .frameReceive 16 0 0 [] false, .frameReceive 0 8 0 [] false,
     .frameReceive 0 0 0 [[0], [256]] false, .dmaReadCompletion 0 0 [0, 256]] : List Instr).all (fun i => !i.wf) = true := by decide
theorem test_wf_accepts_a :
    ([.entryDispatch 0, .entryComplete 0 0, .stepAdv 0, .evalEnd 0, .tumblerWait 0 0, .tumblerAdd 0 0 0 0 false none,
     .latchTake 0 0, .latchTry 0 0, .latchPost 0 0 0 0 false none, .lendEnter 0 [], .lendExit 0 0, .coreHeartbeat 0 0,
     .heartbeatMiss 0, .synScrub 0 [], .contextSaveRequest 0, .freezePoint 0, .contextRestore 0 0 0 0,
     .matrixProduct 0 0 0 0, .tileWriteOut 0 0, .elem 0 (0, 0), .reduce 0 (0, 0), .scan 0 (0, 0), .permute 0 (0, 0), .norm 0 (0, 0),
     .softmax 0 (0, 0), .rowRecompute 0 (0, 0), .vltLineRead 0 0 0 [], .vltLineWrite 0 0 0 0 [], .narrowWrite 0 0 0 0 0 [] [],
     .vltRefetch 0 0 [], .pageMigrateDone 0 false, .recompute 0, .vltRecomputeRead 0 0 [], .rcmpTimeout 0 0,
     .refreshDue 0 0 false, .refreshRepay 0 0, .patrolScrub 0 [], .tempSample 0 0 0 0 0, .bandChange 0,
     .stgAccess 0 0 0 0 0 [], .optim 0, .scale 0, .digest 0, .zero 0, .laneTokenGrant 0 0 0, .lanePassClaim 0 0 [],
     .lanePassWrite 0 0, .lanePassBoundary 0 0 0, .masterGather 0, .red 0, .move 0, .dcmp 0, .promote 0, .evict 0,
     .pin 0, .unpin 0, .flush 0, .promotePageDone 0 [], .stagingFrameFree 0, .stagingCopyDone 0] : List Instr).all Instr.wf = true := by decide
theorem test_wf_accepts_b :
    ([.flashProgramDone 0 0 0 0 false, .streamFillStart 0, .streamFillDone 0 [], .substitute 0 0 0,
     .space2DmaWrite 0 0 0 [], .flashUnitRead 0 0 0 0 0 [], .readRetry 0 0 0 0 0 [], .relocate 0 0, .staticWearLevel 0 0,
     .readDisturbRelocate 0 0, .flashFirstInit 0 [] [], .tierQuery 0, .laneFail 0 0 0 0, .laneset 0 0 0,
     .laneRetrain 0 0, .laneTrainingDone 0 0 0 0 0 0, .flitReceive 0 0 [], .nak 0 0 0, .ackTimeout 0 0,
     .replayBudgetExpiry 0 0, .linkDown 0 0, .creditReturnSend 0 0, .resync 0 0 0, .resyncAck 0 0 0 0,
     .resyncSet 0 0 0 0, .reset 0 0 0, .resetAck 0 0 0, .kwNak 0 0 0 0 0, .readReq 0, .readRsp 0, .write 0, .writeAck 0,
     .signal 0, .sigAck 0, .redPart 0 none 0, .redAck 0, .flushReq 0, .flushReadDone 0, .flushRsp 0, .digestMessage 0,
     .digestAck 0, .normMessage 0, .normAck 0, .nakMessage 0, .txnTimeout 0 0, .ctrlPlaneScrub 0 [], .imageLoad [] [],
     .ready none 0 [] [] [], .seal none 0 [] [], .abort 0 0, .quiesce (0, 0), .quiet none, .leadTakeover none [] [],
     .hubHeartbeat none, .packageLost 0 false [], .stagingTimeout 0, .hostSqTail 0 0 [], .hostCqHead 0 0, .hostEvqHead 0,
     .step] : List Instr).all Instr.wf = true := by decide
theorem test_wf_accepts_c :
    ([.copyIn, .copyOut, .hostCqPost 0 0 false, .stepGatewaySelect [] none, .probe, .dmaReadTimeout 0, .detach, .attach 0,
     .perstN, .hotReset, .linkDisable, .dataLinkDown, .bmeClear, .functionLevelReset, .hostWinCfg 0 0 false,
     .hostRingCfg 0 0 0 false, .faultRecord [] [], .deadboltDark 0, .refillDone [] [] [], .startSave 0,
     .derivationSave 0, .derivationPoint 0 [], .restore 0 0 [], .resume [], .snapshotEpoch [] none none,
     .snapshotReadbackDone [], .h1LockstepMismatch, .h1RestartDone, .provision [], .fieldKeys [], .returnPart [],
     .returnAuth [], .reprovision [], .svnCommit [], .openD2 [], .openD3 [], .nonceReq, .rngHealthFail 0,
     .debugLevelSet 0, .close, .debugHalt 0, .debugResume 0, .debugStep 0, .debugRegWrite 0 0 0 false,
     .debugVaultRead 0 0, .debugVaultWrite 0 0 [], .bypass [], .idcode [], .samplePreload [] [], .extest [] [],
     .internalChain [], .getVersion 0 [], .getCapabilities 0 [], .negotiateAlgorithms 0 [], .getDigests 0 [],
     .getCertificate 0 [], .challenge 0 [], .getMeasurements 0 [], .spdmBusyTimeout 0, .powerRun] : List Instr).all Instr.wf = true := by decide
theorem test_wf_accepts_d :
    ([.powerHold, .holdEntry, .powerStandby false, .powerOff, .powerGood (0, false), .pwrenLow, .underVoltage, .overVoltage,
     .brownout 0, .brownoutEnd, .converterFault 0 0, .grantRequest 0 0, .powerSample 0 0 0 0 0, .throttleLine 0 0 0,
     .thermalSample [] [] [], .retune 0 0, .refclkLoss 0, .pwrLimit 0, .warmReset 0, .coldReset 0, .mctpReset false,
     .bootStage 0 false, .bringupStage [] ([], []), .relayGo false, .tsCorrGo 0, .tsCorrSample 0, .tlmCorrelation [],
     .clkMeasWindow [], .setEndpointId 0 0 0, .getEndpointId 0, .getMctpVersionSupport 0 0, .getMessageTypeSupport 0,
     .getVendorDefinedMsgSupport 0 0, .regRead 0 0, .regWrite 0 0 0, .wardSubmit 0 [], .wardResult 0, .nonce 0,
     .recoveryWrite 0 0 [], .getTid 0, .getPldmVersion 0 0, .getPldmTypes 0, .getPldmCommands 0 0,
     .getPdrRepositoryInfo 0, .getPdr 0 0, .getSensorReading 0 0, .getStateSensorReadings 0 0,
     .setNumericSensorEnable 0 0 0, .setEventReceiver 0 0 0, .rcRead 0 0, .halfReadLatch 0 0, .fltqRecLatch 0 0 0,
     .cnsRingTail 0 0, .hubVlogTail 0, .sweep false, .vlogEntryClose 0 0, .registerWrite 0 0 0 0, .hasp 0,
     .coreParity 0 0, .coreRail 0 0 0] : List Instr).all Instr.wf = true := by decide
theorem test_wf_accepts_e :
    ([.wardLockstep, .frameReceive 0 0 0 [] false, .probeReadDone 0, .dmaReadCompletion 0 0 [], .blockEraseDone 0 0 false,
     .pldmEventAck 0] : List Instr).all Instr.wf = true := by decide

/-! ## States for the tests -/

/-- A package in Run. -/
def on : State := State.reset.wr .pwrStatus 0 0 3
/-- A schedule-queue entry with nothing in it. -/
def ent : Entry := ⟨0, 0, 0, 0, 0, [0, 0], [0, 0, 0, 0], false, false, 0, none, false, [], false, false, false, false, 0, []⟩
/-- A closing entry of this kind with its waits satisfied. -/
def closer (k : Nat) : Entry := { ent with kind := k, waited := 2 }
/-- An entry whose first wait is this field. -/
def waiter (w : Nat) : Entry := { ent with waits := [w, 0], kind := 1 }
/-- An issued entry with this descriptor. -/
def issued (d : Nat) : Entry := { ent with waited := 2, issued := true, desc := d }
/-- An issued entry whose descriptor has completed. -/
def finished : Entry := { issued 0 with done := true }
/-- A state with these entries in a stream of core 0. -/
def put (s : State) (st : Nat) (es : List Entry) : State := s.updCore 0 (fun c => c.setStream st es)
/-- A sealed image of package 0 alone, which leads as gateway 0, with one rank on core 0. -/
def oneRank : Img := { Img.none with packages := [0], gateways := [(0, 0)], ranks := [⟨0, 0, 0, 0, 0⟩] }
/-- Package 0 in Run with that image sealed. -/
def sealedOn : State := { (on.wrF .hubImageStatus 0 0 0 3 3).wrF .hubImageStatus 0 0 16 5 0 with img := oneRank }
/-- A save of core 0. -/
def save0 (gen : Nat) : Save := ⟨0, 0, gen % 2, 0, gen, Core.reset, [], []⟩

/-! ## Witnesses: states and operands that meet the premises of the statements -/

theorem test_wit_dispatch : DispatchOk on 0 ∧ ((on.core 0).stream (nextEntry on 0).stream).length < 8 := by decide +kernel
theorem test_wit_dispatch_full : DispatchOk (put on (nextEntry on 0).stream (List.replicate 8 ent)) 0 ∧
    8 ≤ (((put on (nextEntry on 0).stream (List.replicate 8 ent)).core 0).stream
      (nextEntry (put on (nextEntry on 0).stream (List.replicate 8 ent)) 0).stream).length := by decide +kernel
theorem test_wit_dispatch_waits : State.reset.running 0 = false := by decide +kernel
theorem test_wit_complete : CompleteOk (put on 0 [finished]) 0 0 finished [] ∧ finished.skip = false ∧ finished.census = [] ∧
    ∀ w ∈ finished.sigs, bitsOf w 0 3 = 0 := by decide +kernel
/-- An entry that signals tumbler 255 of its own core. -/
def signaller : Entry := { finished with kind := 1, sigs := [1 + 8 + 255 * 2 ^ 8 + 2 ^ 20 * 2 ^ 32, 0, 0, 0] }
theorem test_wit_complete_signal : CompleteOk (put on 0 [signaller]) 0 0 signaller [] ∧ SigOk (put on 0 [signaller]) 0 0 ∧
    (put on 0 [signaller]).home 0 = 0 ∧ signaller.skip = false ∧ signaller.census = [] := by decide +kernel
/-- A completed entry of class 2 of layer 3, skipped, in a core of which layer 3 is frozen. -/
def skipper : Entry := { finished with cls := 2, layer := 3, skip := true }
def frozen3 : State := (put on 0 [skipper]).wr .coreFrozenMap 0 0 8
theorem test_wit_skipped : CompleteOk frozen3 0 0 skipper [] ∧ skipper.skip = true ∧ frozen3.wgradSkip 0 skipper.cls skipper.layer = true ∧
    ¬(dfld skipper.desc 0 0 8 = 0x10 ∧ dfld skipper.desc 3 0 8 ≠ 0xFF) ∧ (∀ w ∈ skipper.sigs, bitsOf w 0 3 = 0) := by decide +kernel
theorem test_wit_step_adv : ClosingOk (put on 3 [closer 2]) 0 2 (closer 2) ∧ (put on 3 [closer 2]).mayAdvance 0 = true ∧
    (closer 2).eval = false ∧ (put on 3 [closer 2]).flt.verify = none ∧
    ClosingOk (put on 3 [{ closer 2 with eval := true }]) 0 2 { closer 2 with eval := true } := by decide +kernel
theorem test_wit_step_held : (on.updCore 0 (fun c => { c with withhold := true })).mayAdvance 0 = false ∧
    (on.updCore 0 (fun c => { c with withhold := true })).closingReady 0 2 = none := by decide +kernel
theorem test_wit_eval_end : ClosingOk (put on 3 [closer 3]) 0 3 (closer 3) := by decide +kernel

/-- The closing entry belongs to a frozen layer, and no update of the step is withheld. -/
def closeSkip (k : Nat) : Entry := { closer k with cls := 2, layer := 3, skip := true }
def frozenClose (k : Nat) : State := (put on 3 [closeSkip k]).wr .coreFrozenMap 0 0 8
theorem test_wit_closing_skipped : ∀ k ∈ [2, 3], ClosingOk (frozenClose k) 0 k (closeSkip k) ∧ (closeSkip k).skip = true ∧
    (frozenClose k).wgradSkip 0 (closeSkip k).cls (closeSkip k).layer = true ∧ (closer k).skip = false := by decide +kernel

/-- A core whose stream 1 waits at tumbler 5 for its mark plus `off`. -/
def atTmb (off : Nat) : State := put on 1 [waiter (1 + 5 * 2 ^ 8 + off * 2 ^ 16)]
def atTmbHead (off : Nat) : Entry := waiter (1 + 5 * 2 ^ 8 + off * 2 ^ 16)
theorem test_wit_tumbler_stuck : HeadOk (put on 1 [{ atTmbHead 1 with stuck := true }]) 0 1 1 { atTmbHead 1 with stuck := true } := by
  decide +kernel
theorem test_wit_tumbler_wait : HeadOk (atTmb 0) 0 1 1 (atTmbHead 0) ∧ (atTmbHead 0).stuck = false ∧
    (1 : Nat) ≠ 3 ∧
    tmbReached ((atTmb 0).tmbCount 0 5) (targetOf (atTmb 0) 0 (atTmbHead 0)) = true := by decide +kernel
theorem test_wit_tumbler_hold : HeadOk (atTmb 1) 0 1 1 (atTmbHead 1) ∧ (atTmb 1).substOf 0 5 1 = none ∧
    tmbReached ((atTmb 1).tmbCount 0 5) (targetOf (atTmb 1) 0 (atTmbHead 1)) = false ∧
    tmbAhead ((atTmb 1).tmbCount 0 5) (targetOf (atTmb 1) 0 (atTmbHead 1)) ≤ (atTmb 1).tmbBound 0 5 := by decide +kernel
theorem test_wit_tumbler_bound : HeadOk ((atTmb 2).wrF .synTmbCfg 0 5 0 21 1) 0 1 1 (atTmbHead 2) ∧
    tmbReached (((atTmb 2).wrF .synTmbCfg 0 5 0 21 1).tmbCount 0 5)
      (targetOf ((atTmb 2).wrF .synTmbCfg 0 5 0 21 1) 0 (atTmbHead 2)) = false ∧
    ((atTmb 2).wrF .synTmbCfg 0 5 0 21 1).tmbBound 0 5 < tmbAhead (((atTmb 2).wrF .synTmbCfg 0 5 0 21 1).tmbCount 0 5)
      (targetOf ((atTmb 2).wrF .synTmbCfg 0 5 0 21 1) 0 (atTmbHead 2)) := by decide +kernel
theorem test_wit_deliver : DeliverOk on 127 := by decide +kernel
/-- Core 127 whose inbound buffer is full. -/
def flooded : State := on.updCore 127 (fun c => { c with inbound := List.replicate 64 ⟨1, 0, 1, 0, false, 0⟩ })
theorem test_wit_refused_message : flooded.home 127 = 127 ∧ 64 ≤ (flooded.core 127).inbound.length ∧
    (∀ e ∈ flooded.sigRetry, ¬(e.2.src = 128 + 127 / 16 ∧ flooded.home e.1 = 127)) := by decide +kernel
/-- A message of the same sender has been refused before. -/
def flooded2 : State := { flooded with sigRetry := [(127, ⟨1, 0, 1, 0, false, 135⟩)] }
theorem test_wit_held_back : flooded2.home 127 = 127 ∧ 64 ≤ (flooded2.core 127).inbound.length ∧
    (∃ e ∈ flooded2.sigRetry, e.2.src = 128 + 127 / 16 ∧ flooded2.home e.1 = 127) := by decide +kernel
theorem test_wit_tumbler_copies : (match exec (.tumblerAdd 0 255 1 0 false none) on with
    | .next t => decide (7 ≠ t.tmbCount 0 255) && (t.core 0).dup.isEmpty
    | _ => false) = true ∧ DeliverOk on 0 := by decide +kernel
/-- R287: an amount above 2^20 is added as 2^20. -/
theorem test_tumbler_add : ((match exec (.tumblerAdd 0 255 (2 ^ 21) 0 false none) on with
    | .next t => t.tmbCount 0 255
    | _ => 7) = 2 ^ 20) := by decide +kernel

/-- A core whose stream 1 has a take (`op` 2) or a try (3) of `n` at latch 63. -/
def atLatch (op n cnt : Nat) : State :=
  (put (on.wrF .synLatchCfg 0 63 0 21 4) 1 [waiter (op + 63 * 2 ^ 8 + n * 2 ^ 16)]).wrF .synLatchState 0 63 0 21 cnt
def atLatchHead (op n : Nat) : Entry := waiter (op + 63 * 2 ^ 8 + n * 2 ^ 16)
theorem test_wit_latch_head : (atLatchHead 2 4).arrived = false ∧ (atLatchHead 2 4).target = none ∧ (atLatchHead 3 4).arrived = false ∧
    (atLatchHead 3 4).target = none := by decide
theorem test_wit_latch_take : HeadOk (atLatch 2 4 4) 0 1 2 (atLatchHead 2 4) ∧ LatchQuiet (atLatch 2 4 4) 0 63 ∧
    ((atLatch 2 4 4).latch 0 63).amountViol 4 = false ∧ ((atLatch 2 4 4).latch 0 63).amount 4 ≤ ((atLatch 2 4 4).latch 0 63).count ∧
    HeadOk (atLatch 2 4 3) 0 1 2 (atLatchHead 2 4) ∧ LatchQuiet (atLatch 2 4 3) 0 63 ∧
    ((atLatch 2 4 3).latch 0 63).amountViol 4 = false ∧ ((atLatch 2 4 3).latch 0 63).count < ((atLatch 2 4 3).latch 0 63).amount 4 := by
  decide +kernel
theorem test_wit_latch_try : HeadOk (atLatch 3 4 4) 0 1 3 (atLatchHead 3 4) ∧ LatchQuiet (atLatch 3 4 4) 0 63 ∧
    ((atLatch 3 4 4).latch 0 63).amount 4 ≤ ((atLatch 3 4 4).latch 0 63).count ∧
    HeadOk (atLatch 3 4 3) 0 1 3 (atLatchHead 3 4) ∧ LatchQuiet (atLatch 3 4 3) 0 63 ∧
    ((atLatch 3 4 3).latch 0 63).amountViol 4 = false ∧ ((atLatch 3 4 3).latch 0 63).count < ((atLatch 3 4 3).latch 0 63).amount 4 ∧
    (((atLatch 3 4 3).latch 0 63).short 4).udf ≤ tallyMax := by decide +kernel
theorem test_wit_latch_post : DeliverOk on 0 ∧ LatchQuiet on 0 63 ∧ (on.latch 0 63).ticket = false ∧
    (on.latch 0 63).ovf < ((on.latch 0 63).post (2 ^ 20)).ovf ∧ ((on.latch 0 63).post (2 ^ 20)).ovf ≤ tallyMax ∧
    LatchQuiet (on.wrF .synLatchOvf 0 63 0 48 tallyMax) 0 63 ∧
    tallyMax < (((on.wrF .synLatchOvf 0 63 0 48 tallyMax).latch 0 63).post (2 ^ 20)).ovf := by decide +kernel
theorem test_wit_latch_legal : LatchVal.Legal ⟨4, false, 4, 2, 0⟩ ∧ LatchVal.Legal ⟨4, false, 0, 0, 3⟩ := by decide +kernel

/-- A field of a descriptor: its value at a byte offset. -/
def fld (off v : Nat) : Nat := v * 2 ^ (8 * off)

/-! ### Lend, heartbeats, saves, restores -/

/-- A core whose stream 1 waits at tumbler 5 and may lend. -/
def lendable : State := put on 1 [{ atTmbHead 1 with target := some 1 }]
theorem test_wit_lend_enter : lendable.lendReady 0 [(0, 0), (2 ^ 20, 0)] = true := by decide +kernel
theorem test_wit_lend_enter_not : lendable.lendReady 0 [] = false := by decide +kernel
/-- A lent core one of whose waits has been satisfied. -/
def lent : State := on.updCore 127 (fun c => { c with lent := true, released := true })
theorem test_wit_lend_exit : (lent.core 127).lent = true ∧ lent.lendWake 127 = true := by decide +kernel
theorem test_wit_heartbeat : on.active 0 = true ∧ (on.core 0).fence = .none ∧ (on.core 0).missed ≠ 7 ∧
    (on.updCore 0 (fun c => { c with missed := 7 })).active 0 = true ∧
    ((on.updCore 0 (fun c => { c with missed := 7 })).core 0).fence = .none ∧
    ((on.updCore 0 (fun c => { c with missed := 7 })).core 0).missed = 7 := by decide +kernel
theorem test_wit_syn_scrub : on.active 0 = true ∧ copyField 0 255 1 = true ∧ (7 : Nat) ≠ on.copy0 0 0 255 1 := by decide +kernel
/-- A core that is asked to stop. -/
def stopping : State := on.updCore 0 (fun c => { c with saveReq := true })
/-- Lanes with a pass in hand. -/
def passingJob : LaneJob := ⟨0x40, 0, false, false, 0, [(0, { LaneBank.zero with claimed := some 0 })], []⟩
def withPass (s : State) : State := s.updLane 0 (fun l => { l with job := some passingJob })
theorem test_wit_freeze : stopping.running 0 = true ∧ (stopping.core 0).saveReq = true ∧ (stopping.core 0).halted = false ∧
    (stopping.veDrain 0).settled 0 = true ∧ (withPass stopping).running 0 = true ∧ ((withPass stopping).core 0).saveReq = true ∧
    ((withPass stopping).core 0).halted = false ∧ ((withPass stopping).veDrain 0).settled 0 = false := by decide +kernel
theorem test_wit_context_restore : ({ on with saves := [save0 0] }).active 1 = true ∧
    (({ on with saves := [save0 0] }).core 1).fence = .none ∧ ({ on with saves := [save0 0] }).passing 1 = false ∧
    ({ on with saves := [save0 0] }).saveOf 0 0 0 = some (save0 0) := by decide +kernel
/-- The only working core waits at the step-start tumbler. -/
def starting : State := put sealedOn 3 [waiter 1]
theorem test_wit_start_save : starting.running 0 = true ∧ starting.needsStartSave 0 = true ∧
    (starting.normHead 0 3).atStart 0 = true ∧ SaveOk (startAt starting 0) 0 ∧
    (withPass starting).running 0 = true ∧ (withPass starting).needsStartSave 0 = true ∧
    ((withPass starting).normHead 0 3).atStart 0 = true ∧ ¬ SaveOk (startAt (withPass starting) 0) 0 := by decide +kernel
/-- The only working core has its start save and stands before STEP_ADV; the lead is package 1. -/
def deriving1 : State := { put sealedOn 3 [closer 2] with saves := [save0 1] }
theorem test_wit_derivation_save : DerivationSaveOk deriving1 0 ∧
    ({ deriving1 with img := { deriving1.img with gateways := [(1, 0)] } }).leadPkg = some 1 ∧
    ({ deriving1 with img := { deriving1.img with gateways := [(1, 0)] } }).pkg ≠ 1 ∧
    DerivationSaveOk { deriving1 with img := { deriving1.img with gateways := [(1, 0)] } } 0 := by decide +kernel
/-- Its save area lies in its vault, or, with a base outside the vaults, nowhere. -/
def deriving0 : State := deriving1.wr .coreSaveBase 0 0 (2 ^ 46)
theorem test_wit_save_areas : deriving1.saveAreas 0 0 = [0] ∧ locOf 0 = .vault 0 0 ∧ deriving1.home 0 = 0 ∧
    deriving1.flipArmed 0 (0 / 128) 0 = false ∧ DerivationSaveOk deriving0 0 ∧ deriving0.saveAreas 0 (deriving0.nextSlot 0) = [] ∧
    (starting.wr .coreSaveBase 0 0 (2 ^ 46)).saveAreas 0 ((starting.wr .coreSaveBase 0 0 (2 ^ 46)).nextSlot 0) = [] := by decide +kernel
/-- The only working core has its derivation save. -/
def derived : State := { sealedOn with saves := [save0 1, save0 2] }
theorem test_wit_derivation_point : DerivationPointOk derived 0 [] ∧ derived.workers = [0] ∧ derived.peers = [] ∧
    derived.home 0 = 0 ∧ SigOk derived 0 164 := by decide +kernel
theorem test_wit_restore : RestoreOk derived 0 1 ∧ RestoreOk derived 0 2 ∧ derived.anyPassing = false ∧
    RestoreOk (withPass derived) 0 1 ∧ (withPass derived).anyPassing = true := by decide +kernel
theorem test_wit_resume : (sealedOn.restoreStatus 0 1 7).restorePhase = 7 ∧ (sealedOn.restoreStatus 0 1 7).runStop = false ∧
    (sealedOn.restoreStatus 0 1 7).flt.stopAtGen = false ∧ (sealedOn.restoreStatus 0 1 7).isLead = true ∧
    (sealedOn.restoreStatus 0 1 7).live'.all (fun p => [].contains p) = true := by decide +kernel
/-- A durable checkpoint of step 4 stands behind a newer one. -/
def durable : State := { sealedOn with flt := { on.flt with ckpts := [⟨8, 9, [], []⟩, ⟨4, 9, [], []⟩] } }
theorem test_wit_restore_checkpoint : durable.isSealed = true ∧
    durable.flt.ckpts.dropWhile (fun c => c.step != 4) = [⟨4, 9, [], []⟩] ∧ (4 : Nat) < 2 ^ 48 := by decide +kernel

/-! ### The hinge array and the vector engine -/

/-- A matrix descriptor of one element: M, N and K are 1. -/
def mat1 : Nat := 0x10 + fld 4 1 + fld 8 1 + fld 12 1
/-- A job of the hinge array for descriptor `d`, none of its tiles begun. -/
def matJob (d : Nat) : HngJob := ⟨d, 0, false, false, 0, none, 0, false, false, false, false, false, on.hngCensus 0 (on.hngParse 0 d)⟩
/-- The array with a job in hand and its banks. -/
def matOn (j : HngJob) (bs : List Bank) : State := on.updHng 0 (fun h => { h with job := some j, banks := bs })
/-- Bank 0 as given, the others free. -/
def banks0 (b : Bank) : List Bank := b :: List.replicate 3 Bank.empty
theorem test_wit_matrix_element : 0 < (on.hngParse 0 mat1).rows 0 ∧ 0 < (on.hngParse 0 mat1).cols 0 := by decide +kernel
theorem test_wit_matrix_starts : MatrixStartOk (put on 0 [issued 0x10]) 0 (issued 0x10) ∧
    ((put on 0 [issued 0x10]).hngParse 0 0x10).none = true ∧
    MatrixStartOk (put on 0 [issued mat1]) 0 (issued mat1) ∧ ((put on 0 [issued mat1]).hngParse 0 mat1).none = false := by decide +kernel
def matOpen : State := matOn (matJob mat1) (banks0 Bank.empty)
theorem test_wit_matrix_opens : ArrayOn matOpen 0 ∧ (matOpen.core 0).hng.job = some (matJob mat1) ∧ (matJob mat1).bank = none ∧
    (matJob mat1).nextTile < ((matOpen.hngStalls 0 1).hngParse 0 mat1).tiles ∧
    ((matJob mat1).overlap && decide ((matJob mat1).written < (matJob mat1).nextTile)) = false ∧
    nextBank (matOpen.core 0).hng ((matOpen.hngStalls 0 1).hngParse 0 mat1) 0 0 = some (0, false) ∧
    ((matOpen.hngStalls 0 1).hngParse 0 mat1).accIn = false := by decide +kernel
theorem test_wit_matrix_stalls_after : ArrayOn matOpen 0 ∧ (matOpen.hngStallCause 0).isSome = true ∧
    ArrayOn on 0 ∧ on.hngStallCause 0 = none := by decide +kernel
/-- The same with both operands in stage memory. -/
def matStg : Nat := mat1 + fld 16 (2 ^ 46) + fld 24 (2 ^ 46)
/-- Its only tile is in progress in bank 0. -/
def tileJob (hold : Bool) : HngJob := { matJob matStg with nextTile := 1, bank := some 0, hold := hold }
def tileBank : Bank := ⟨.active, false, 0, 0, 0, 0, 0, []⟩
def matChunk (h : Bool) : State := (matOn (tileJob h) (banks0 tileBank)).hngStalls 0 1
def chunkDesc (h : Bool) : HngDesc := (matChunk h).hngParse 0 matStg
theorem test_no_panel_ahead (h : Bool) : (matChunk h).hngAhead 0 (chunkDesc h) ((matChunk h).opndA 0 (chunkDesc h) (tileJob h))
    ((matChunk h).opndB 0 (chunkDesc h) (tileJob h)) 0 0 0 = matChunk h := by
  have e : ((List.range ((matChunk h).hngPrefetch 0)).map (fun i => 2 * 0 + 2 + i)).filter
      (fun p => decide (32 * p < (chunkDesc h).k)) = [] := by cases h <;> decide +kernel
  unfold State.hngAhead
  simp only [e]
  rfl
theorem test_panels_clear : ∀ h : Bool, LinesClear (matChunk h) (hngUnit 0) ([0, 1].flatMap (fun p => if 32 * p < (chunkDesc h).k then
    (matChunk h).panelLines ((matChunk h).opndA 0 (chunkDesc h) (tileJob h)) ((matChunk h).opndB 0 (chunkDesc h) (tileJob h)) 0 0 p
    else [])) := by decide +kernel
theorem test_wit_matrix_chunk (h : Bool) : ChunkOk (matChunk h) 0 0 (tileJob h) tileBank (chunkDesc h) ∧ (tileJob h).hold = h ∧
    (tileJob h).rcmp = false ∧ (chunkDesc h).chunks ≤ tileBank.next + 1 := by
  refine ⟨⟨?_, ?_, ?_, ?_, ?_, test_panels_clear h, test_no_panel_ahead h⟩, ?_, ?_, ?_⟩ <;> cases h <;> decide +kernel
/-- The same with PIN. -/
def matPin : Nat := matStg + fld 1 64
def pinDesc : HngDesc := (matChunk false).hngParse 0 matPin
theorem test_wit_matrix_pin : pinDesc.pin = true ∧ pinDesc.pinOk = true ∧ tileBank.next = 0 ∧ (tileJob false).rcmp = false := by decide +kernel
/-- The tile has been computed and goes to DEST `d`. -/
def matBank : Bank := ⟨.final, false, 0, 0, 0, 0, 1, []⟩
def doneJob (d : Nat) : HngJob := { matJob (mat1 + fld 2 (8 * d)) with nextTile := 1 }
def matDone (d : Nat) (q : List TqSlot) : State := (matOn (doneJob d) (banks0 matBank)).updHng 0 (fun h => { h with tq := q })
/-- A tile queue without a free slot. -/
def fullTq : List TqSlot := List.replicate 16 ⟨0, 0, 0, 0, 1, 1, 0, false, [], []⟩
theorem test_wit_write_out : (∀ d ∈ [0, 1, 2, 3], WriteOutOk (matDone d []) 0 0 (doneJob d) matBank ∧
      ((matDone d []).hngParse 0 (doneJob d).desc).dest = d ∧ ((matDone d []).hngParse 0 (doneJob d).desc).fc.fmt.isSome = true ∧
      (((matDone d []).hngParse 0 (doneJob d).desc).needsSlot && (matDone d []).tqFree 0 == 0) = false) ∧
    WriteOutOk (matDone 1 fullTq) 0 0 (doneJob 1) matBank ∧ ((matDone 1 fullTq).hngParse 0 (doneJob 1).desc).needsSlot = true ∧
    (matDone 1 fullTq).tqFree 0 = 0 := by decide +kernel
/-- A write of core 0 to line 0 of its vault that a fence holds. -/
def withHeld (s : State) : State := s.updVlt 0 (fun v => { v with heldWrites := [⟨0, 0, true, 0, 0, [], none, false⟩] })
def leaving : State := withHeld (matOn { doneJob 0 with leaving := true } (banks0 Bank.empty))
theorem test_wit_write_out_waits : (leaving.core 0).hng.job = some { doneJob 0 with leaving := true } ∧
    tileStored leaving 0 { doneJob 0 with leaving := true } (leaving.hngParse 0 (doneJob 0).desc) = false := by decide +kernel

/-- The codes of the seven vector commands. -/
def veCodes : List Nat := [0x20, 0x21, 0x22, 0x23, 0x24, 0x25, 0x30]
/-- A vector descriptor of one element. -/
def vec1 (op : Nat) : Nat := op + fld 4 1 + fld 8 1
/-- The engine with a descriptor in hand, its walk at `p`. -/
def vecJob (d : Nat) (p : VePos) : VeJob := { VeJob.start d 0 false false with walk := p }
def vecOn (d : Nat) (p : VePos) : State := on.updVe 0 (fun v => { v with job := some (vecJob d p) })
/-- Before its first vector, and past its last. -/
def first : VePos := ⟨0, 0, 0, 0, 0⟩
def past : VePos := ⟨1, 0, 0, 0, 0⟩
theorem test_wit_vector_nothing : ∀ op ∈ veCodes, VeStartOk (put on 1 [issued op]) 0 (fun o => o == op) (issued op) ∧
    ((put on 1 [issued op]).veParse 0 op).segs = 0 := by decide +kernel
theorem test_wit_vector : ∀ op ∈ veCodes,
    VeHas ((vecOn (vec1 op) first).veStalls 0 1) 0 (fun o => o == op) (vecJob (vec1 op) first) ∧ (vecJob (vec1 op) first).due = 0 ∧
    (((vecOn (vec1 op) first).veStalls 0 1).veParse 0 (vec1 op)).over first = false ∧
    (((vecOn (vec1 op) first).veStalls 0 1).veSupply 0 (((vecOn (vec1 op) first).veStalls 0 1).veParse 0 (vec1 op)) (vecJob (vec1 op) first)
      ((((vecOn (vec1 op) first).veStalls 0 1).veParse 0 (vec1 op)).box first)).isSome = true ∧
    LinesClear ((vecOn (vec1 op) first).veStalls 0 1) (veUnit 0)
      (((vecOn (vec1 op) first).veStalls 0 1).veAuxLines (((vecOn (vec1 op) first).veStalls 0 1).veParse 0 (vec1 op)) first ++
        ((vecOn (vec1 op) first).veStalls 0 1).veLines (((vecOn (vec1 op) first).veStalls 0 1).veParse 0 (vec1 op))
          (((vecOn (vec1 op) first).veStalls 0 1).reader []) first) := by decide +kernel
/-- The lines that its vector merges are there too. -/
def vecS (op : Nat) : State := (vecOn (vec1 op) first).veStalls 0 1
def vecX (op : Nat) : VeDesc := (vecS op).veParse 0 (vec1 op)
theorem test_wit_vector_merges : ∀ op ∈ veCodes,
    (vecS op).veSupply 0 (vecX op) (vecJob (vec1 op) first) ((vecX op).box first) = some ⟨[], 0, 0, false⟩ ∧
    LinesClear (vecS op) (veUnit 0) ((vecS op).veMerges (veLeaving (vecX op) (vecJob (vec1 op) first)
      (veVectorOf (vecS op) 0 (vecJob (vec1 op) first) (vecX op) ⟨[], 0, 0, false⟩))) := by decide +kernel
/-- The same with its source in the tile queue, which is empty. -/
def vecQ (op : Nat) : Nat := vec1 op + fld 1 (if op = 0x30 then 16 else 1)
theorem test_wit_vector_starved : ∀ op ∈ veCodes,
    VeHas ((vecOn (vecQ op) first).veStalls 0 1) 0 (fun o => o == op) (vecJob (vecQ op) first) ∧
    (((vecOn (vecQ op) first).veStalls 0 1).veParse 0 (vecQ op)).over first = false ∧
    (((vecOn (vecQ op) first).veStalls 0 1).veSupply 0 (((vecOn (vecQ op) first).veStalls 0 1).veParse 0 (vecQ op)) (vecJob (vecQ op) first)
      ((((vecOn (vecQ op) first).veStalls 0 1).veParse 0 (vecQ op)).box first)) = none := by decide +kernel
theorem test_wit_vector_ends : ∀ op ∈ veCodes,
    VeHas ((vecOn (vec1 op) past).veStalls 0 1) 0 (fun o => o == op) (vecJob (vec1 op) past) ∧ (vecJob (vec1 op) past).rcmp = false ∧
    (((vecOn (vec1 op) past).veStalls 0 1).veParse 0 (vec1 op)).over past = true ∧
    ((vecOn (vec1 op) past).veStalls 0 1).writesDone 0 (vecJob (vec1 op) past).stores = true ∧
    ((withHeld (vecOn (vec1 op) past)).veStalls 0 1).writesDone 0 [(0, 0)] = false := by decide +kernel

/-- A recompute that waits, its descriptor at the start of the core's stage memory. -/
def rcmp1 : RcmpReq := ⟨2 ^ 46, 0, 0, 0, true⟩
def rcmpOn (desc : List Nat) : State := (on.putStg 0 0 desc).updCore 0 (fun c => { c with rcmpQ := [rcmp1] })
def bytesOf (d n : Nat) : List Nat := leBytes n d
theorem test_wit_recompute : RecomputeOk (rcmpOn (bytesOf mat1 128)) 0 rcmp1 [] ∧
    opStream ((rcmpOn (bytesOf mat1 128)).byteAt ((rcmpOn (bytesOf mat1 128)).adr 0 rcmp1.descAddr)) = some 0 ∧
    ((rcmpOn (bytesOf mat1 128)).hngParse 0 (rcmpDesc (rcmpOn (bytesOf mat1 128)) 0 rcmp1)).none = false ∧
    RecomputeOk (rcmpOn (bytesOf (vec1 0x20) 192)) 0 rcmp1 [] ∧
    opStream ((rcmpOn (bytesOf (vec1 0x20) 192)).byteAt ((rcmpOn (bytesOf (vec1 0x20) 192)).adr 0 rcmp1.descAddr)) = some 1 := by
  decide +kernel

/-- A recompute descriptor of no unit, and one of the fabric; the line that it would restore is locked. -/
def rcmpNone (op : Nat) : State := (rcmpOn [op]).updVlt 0 (fun v => { v with
  locks := [⟨0, ⟨1, 0, false, 0, 0, [], none, false⟩, 0, 0, 0, 0, false, false, .recompute, []⟩] })
theorem test_wit_recompute_none : ∀ op ∈ [0, 0x50], RecomputeOk (rcmpNone op) 0 rcmp1 [] ∧ rcmp1.live = true ∧
    opStream ((rcmpNone op).byteAt ((rcmpNone op).adr 0 rcmp1.descAddr)) = (if op = 0 then none else some 3) ∧
    ((rcmpNone op).lockOf 0 0).isSome = true := by decide +kernel

/-! ### The vaults -/

/-- The lock of a line that island 1 asked for. -/
def lock1 (ph : LockPhase) : LineLock := ⟨5, ⟨1, 5, false, 0, 0, [], none, false⟩, 0, 0, 0, 0, false, false, ph, []⟩
/-- Core 0's vault with that lock. -/
def lockedOn (ph : LockPhase) : State := on.updVlt 0 (fun v => { v with locks := [lock1 ph] })
/-- A line marked POISON. -/
def poisoned : State := on.putRaw (on.lineKey 0 7) (freshLine (List.replicate 128 0) 0 4)
theorem test_wit_line_read : LineOk on 0 (2 ^ 26 - 1) 1 false ∧ on.flipArmed 0 (2 ^ 26 - 1) 1 = false ∧
    ((on.rawLine 0 (2 ^ 26 - 1)).flip []).ok = true ∧ ((on.rawLine 0 (2 ^ 26 - 1)).flip []).poison = false ∧
    ((on.rawLine 0 (2 ^ 26 - 1)).flip [1]).ok = false := by decide +kernel
theorem test_wit_line_read_poison : LineOk poisoned 0 7 1 false ∧ poisoned.flipArmed 0 7 1 = false ∧
    ((poisoned.rawLine 0 7).flip []).ok = true ∧ ((poisoned.rawLine 0 7).flip []).poison = true := by decide +kernel
theorem test_wit_line_read_locked : (lockedOn .refetch).vaultUp 0 = true ∧ (lockedOn .refetch).vaultServes 0 1 false = true ∧
    (lockedOn .refetch).locked 0 5 = true := by decide +kernel
theorem test_wit_line_write : LineOk on 127 (2 ^ 26 - 1) 1 true ∧ WriteFree on 127 (2 ^ 26 - 1) ∧
    on.flipArmed 127 (2 ^ 26 - 1) 0 = false := by decide +kernel
theorem test_wit_narrow_write : LineOk on 127 0 1 true ∧ WriteFree on 127 0 ∧ ((on.rawLine 127 0).flip []).ok = true ∧
    ¬((127 : Nat) = 0 ∧ 128 ≤ (([3].map (· % 256)).take (128 - 127)).length) := by decide +kernel
theorem test_wit_refetch : LockRead (lockedOn .refetch) 0 5 (lock1 .refetch) .refetch ∧
    (((lockedOn .refetch).rawLine 0 5).flip []).ok = true ∧ (((lockedOn .refetch).rawLine 0 5).flip []).poison = false ∧
    (((lockedOn .refetch).rawLine 0 5).flip [1]).ok = false ∧ (((lockedOn .refetch).rawLine 0 5).flip [1]).test = false := by
  decide +kernel
/-- A page retirement in hand. -/
def retiring1 : State := on.updVlt 0 (fun v => { v with retiring := some ⟨3, 4095, []⟩ })
theorem test_wit_migrate_done : (retiring1.vlt 0).retiring = some ⟨3, 4095, []⟩ ∧ (⟨3, 4095, []⟩ : Retiring).waiting = [] ∧
    retiring1.passClear 0 (fun l => linePage (retiring1.retireMap 0 l) == 3) = true ∧ (4095 : Nat) < 2 ^ 12 ∧
    (List.range 4).find? (fun n => !(retiring1.rd .vltRetire 0 n).testBit 0) = some 0 := by decide +kernel
theorem test_wit_recompute_read : LockRead (lockedOn .reread) 0 5 (lock1 .reread) .reread ∧
    (((lockedOn .reread).rawLine 0 5).flip []).ok = true ∧ (((lockedOn .reread).rawLine 0 5).flip []).poison = false := by
  decide +kernel
/-- A lock whose line has been marked POISON. -/
def poisonLocked : State := (lockedOn .recompute).putRaw (on.lineKey 0 5) (freshLine (List.replicate 128 0) 0 4)
theorem test_wit_rcmp_timeout : LockRead poisonLocked 0 5 (lock1 .recompute) .recompute ∧
    (poisonLocked.rawLine 0 5).poison = true ∧ (lock1 .recompute).test = false ∧
    LockRead (lockedOn .recompute) 0 5 (lock1 .recompute) .recompute ∧ ((lockedOn .recompute).rawLine 0 5).ok = true ∧
    ((lockedOn .recompute).rawLine 0 5).poison = false ∧ ((lockedOn .recompute).rawLine 0 5).test = false := by decide +kernel
/-- A vault whose POSTPONE_MAX is 0, one with a debt of one refresh less than its POSTPONE_MAX in bank 127, and one with a pass there. -/
def noPostpone : State := on.wrF .vltCtl 0 0 0 4 0
def indebted : State := on.updVlt 0 (fun v => { v with debt := [(127, on.postponeMax 0 - 1)] })
theorem test_wit_refresh_due : on.vaultUp 0 = true ∧ on.passOn 0 127 = false ∧ 0 < on.postponeMax 0 ∧
    on.debt 0 127 + 1 < on.postponeMax 0 ∧ noPostpone.vaultUp 0 = true ∧ noPostpone.postponeMax 0 = 0 ∧ noPostpone.passOn 0 127 = false ∧
    indebted.vaultUp 0 = true ∧ 0 < indebted.postponeMax 0 ∧ indebted.postponeMax 0 ≤ indebted.debt 0 127 + 1 ∧
    indebted.passOn 0 127 = false ∧ (withPass on).vaultUp 0 = true ∧ (withPass on).passOn 0 0 = true := by decide +kernel
/-- The line that the patrol scrub comes to is locked. -/
def scrubLocked : State := on.updVlt 0 (fun v => { v with locks := [{ lock1 .refetch with line := (on.vlt 0).scrubNext }] })
theorem test_wit_patrol : on.vaultUp 0 = true ∧ (on.rd .vltCtl 0 0).testBit 4 = true ∧
    on.locked 0 (on.vlt 0).scrubNext = false ∧ on.busyBank 0 (on.vlt 0).scrubNext = none ∧
    scrubLocked.vaultUp 0 = true ∧ (scrubLocked.rd .vltCtl 0 0).testBit 4 = true ∧
    scrubLocked.locked 0 (scrubLocked.vlt 0).scrubNext = true := by decide +kernel
theorem test_wit_scrub_returns : ({ Vlt.idle with scrubPos := 2 ^ 26 - 1 }).scrubDue = [] ∧
    (({ Vlt.idle with scrubPos := 2 ^ 26 - 1 }).scrubPos + 1) % 8 = 0 := by decide
theorem test_wit_band_change : ((on.updVlt 0 (fun v => { v with bandNext := some 2 })).vlt 0).bandNext = some 2 ∧
    ((on.updVlt 0 (fun v => { v with bandNext := some 3 })).vlt 0).bandNext = some 3 := by decide +kernel
theorem test_wit_stage : on.active 127 = true ∧ stgBytes ≤ stgBytes ∧ stgBytes - 1 < stgBytes := by decide +kernel

/-! ### The lanes -/

/-- A lane descriptor with one group or line at the start of the core's vault, in formats that every operation takes. -/
def lane1 (op : Nat) : Nat := op + fld 4 1 + fld 64 0 + fld 80 1 + fld 96 1
/-- The entry with that descriptor is at the lanes. -/
def laneAt (d : Nat) : State := put on 2 [issued d]
theorem test_wit_lane_start : ∀ op ∈ [0x40, 0x41, 0x42, 0x43], LaneStartOk (laneAt (lane1 op)) 0 (fun o => o == op) (issued (lane1 op)) ∧
    0 < ((laneGate (laneAt (lane1 op)) 0 (lane1 op)).laneParse 0 (laneIssued (laneAt (lane1 op)) 0 (lane1 op))).items 0 := by
  decide +kernel
theorem test_wit_lane_nothing : ∀ op ∈ [0x40, 0x41, 0x42, 0x43], LaneStartOk (laneAt op) 0 (fun o => o == op) (issued op) ∧
    ((laneGate (laneAt op) 0 op).laneParse 0 (laneIssued (laneAt op) 0 op)).work = false := by decide +kernel
/-- A job of the lanes with bank 0 as given. -/
def laneJob (op : Nat) (k : LaneBank) : LaneJob := ⟨lane1 op, 0, false, false, 0, [(0, k)], [Census.zero, Census.zero, Census.zero]⟩
def lanesOn (op : Nat) (k : LaneBank) : State := on.updLane 0 (fun l => { l with job := some (laneJob op k) })
/-- Bank 0 with a token. -/
def tokenBank : LaneBank := { LaneBank.zero with token := true }
def granted (k : LaneBank) : State := laneGranted (lanesOn 0x43 k) 0 328 5
def allowed (k : LaneBank) : State := laneAllowed (lanesOn 0x43 k) 0 328
theorem test_wit_token : (lanesOn 0x43 LaneBank.zero).running 0 = true ∧ ((lanesOn 0x43 LaneBank.zero).core 0).saveReq = false ∧
    ((lanesOn 0x43 LaneBank.zero).core 0).lane.job = some (laneJob 0x43 LaneBank.zero) ∧
    (laneJob 0x43 LaneBank.zero).tokens < tokenCap (granted LaneBank.zero) 0 ((allowed LaneBank.zero).laneParse 0 (lane1 0x43)) ∧
    ((lanesOn 0x43 LaneBank.zero).core 0).lane.earliest ((allowed LaneBank.zero).laneWaiters 0 (laneJob 0x43 LaneBank.zero)
      ((allowed LaneBank.zero).laneParse 0 (lane1 0x43))) = some 0 ∧
    (allowed tokenBank).laneWaiters 0 (laneJob 0x43 tokenBank) ((allowed tokenBank).laneParse 0 (lane1 0x43)) = [] ∧
    (lanesOn 0x43 tokenBank).running 0 = true ∧ ((lanesOn 0x43 tokenBank).core 0).saveReq = false ∧
    ((lanesOn 0x43 tokenBank).core 0).lane.job = some (laneJob 0x43 tokenBank) := by decide +kernel
/-- Banks 0 and 1 have work, bank 0 holds the token, and LANES_MAX is 1. -/
def lane2 : Nat := 0x43 + fld 4 129 + fld 64 0 + fld 80 1 + fld 96 1
def twoJob : LaneJob := { laneJob 0x43 tokenBank with desc := lane2 }
def oneLane : State := (on.updLane 0 (fun l => { l with job := some twoJob })).wrF .laneCtl 0 0 0 6 1
theorem test_wit_token_none : oneLane.running 0 = true ∧ (oneLane.core 0).saveReq = false ∧ (oneLane.core 0).lane.job = some twoJob ∧
    (laneAllowed oneLane 0 328).laneWaiters 0 twoJob ((laneAllowed oneLane 0 328).laneParse 0 lane2) ≠ [] ∧
    tokenCap (laneGranted oneLane 0 328 5) 0 ((laneAllowed oneLane 0 328).laneParse 0 lane2) ≤ twoJob.tokens := by decide +kernel
theorem test_wit_claim : ∀ op ∈ [0x41, 0x43],
    ClaimOk (lanesOn op tokenBank) 0 0 (laneJob op tokenBank) ((lanesOn op tokenBank).laneParse 0 (lane1 op)) ∧
    (passSet (lanesOn op tokenBank) 0 0 ((lanesOn op tokenBank).laneParse 0 (lane1 op))).all ((lanesOn op tokenBank).mayClaim 0 false)
      = true := by decide +kernel
theorem test_wit_claim_read :
    ((lanesOn 0x41 tokenBank).laneRead 0 [] (passSet (lanesOn 0x41 tokenBank) 0 0 ((lanesOn 0x41 tokenBank).laneParse 0 (lane1 0x41))) 0 []).isLeft
      = true ∧
    ((lanesOn 0x41 tokenBank).laneRead 0 [(0, [1])]
      (passSet (lanesOn 0x41 tokenBank) 0 0 ((lanesOn 0x41 tokenBank).laneParse 0 (lane1 0x41))) 0 []).isRight = true := by decide +kernel
/-- The line of the pass is locked. -/
def lanesBarred : State := (lanesOn 0x43 tokenBank).updVlt 0 (fun v => { v with locks := [{ lock1 .refetch with line := 0 }] })
theorem test_wit_claim_barred : ClaimOk lanesBarred 0 0 (laneJob 0x43 tokenBank) (lanesBarred.laneParse 0 (lane1 0x43)) ∧
    (passSet lanesBarred 0 0 (lanesBarred.laneParse 0 (lane1 0x43))).all (lanesBarred.mayClaim 0 false) = false := by decide +kernel
/-- Bank 0 with its line claimed. -/
def claimBank (w : Bool) : LaneBank := { tokenBank with claimed := some 1, part := 1, written := w }
/-- The line as the bank's first line buffer holds it. -/
def line0 : LaneLine := ⟨0, 0, 0, 0, List.replicate 128 0⟩
theorem test_wit_pass_write : (lanesOn 0x43 (claimBank false)).vaultUp 0 = true ∧
    (lanesOn 0x43 (claimBank false)).claimedSet 0 0 = some [line0] ∧
    ((lanesOn 0x43 (claimBank false)).laneBank 0 0).written = false ∧
    (((lanesOn 0x43 (claimBank false)).passCompute 0 (laneJob 0x43 (claimBank false)) ((lanesOn 0x43 (claimBank false)).laneParse 0 (lane1 0x43))
      0 ((lanesOn 0x43 (claimBank false)).laneBank 0 0) [line0]).outs.filter
        (fun o => (lanesOn 0x43 (claimBank false)).snapHeld 0 (linePage o.line))) = [] := by decide +kernel
/-- R205, R216: ZERO writes 128 zero bytes with the step tag and KIND 1 to the line of its pass. -/
theorem test_zero_line : ((lanesOn 0x43 (claimBank false)).passCompute 0 (laneJob 0x43 (claimBank false))
    ((lanesOn 0x43 (claimBank false)).laneParse 0 (lane1 0x43)) 0 (claimBank false) [line0]).outs
      = [⟨0, List.replicate 128 0, false⟩] := by decide +kernel
theorem test_wit_line_stored : on.guarded 0 (linePage 0) = false ∧ (on.laneParse 0 (lane1 0x43)).noTag = false := by decide +kernel
theorem test_wit_boundary : (lanesOn 0x43 (claimBank true)).claimedSet 0 0 = some [line0] ∧
    ((lanesOn 0x43 (claimBank true)).laneBank 0 0).written = true ∧
    ((lanesOn 0x43 (claimBank true)).laneBank 0 0).waiting = [] := by decide +kernel
theorem test_wit_recompute_lane : RecomputeOk (rcmpOn (bytesOf (lane1 0x43) 128)) 0 rcmp1 [] ∧
    opStream ((rcmpOn (bytesOf (lane1 0x43) 128)).byteAt ((rcmpOn (bytesOf (lane1 0x43) 128)).adr 0 rcmp1.descAddr)) = some 2 ∧
    dfld (rcmpDesc (rcmpOn (bytesOf (lane1 0x43) 128)) 0 rcmp1) 0 0 8 = 0x43 ∧
    0 < ((rcmpOn (bytesOf (lane1 0x43) 128)).laneParse 0 (rcmpDesc (rcmpOn (bytesOf (lane1 0x43) 128)) 0 rcmp1)).items 0 := by
  decide +kernel

/-! ### Descriptors of the fabric island and the hub -/

/-- The descriptor waits in stream 3. -/
def fabAt (s : State) (d : Nat) : State := put s 3 [issued d]
theorem test_wit_gather_none : FabStartOk (fabAt on 0x58) 0 0x58 (issued 0x58) ∧ ((fabAt on 0x58).gatherParse 0 0x58).work = false := by
  decide +kernel
/-- In a vault that nothing has written, every line is the same. -/
theorem test_lem_fresh (s : State) (h : s.vmem = []) (k : Nat) (hk : k % 136 = 0) : s.rawAt k = on.rawAt 0 := by
  have e : ∀ i, i < 136 → vmemDefault (k + i) = vmemDefault (0 + i) := by
    intro i hi
    have : (k + i) % lineBytes = (0 + i) % lineBytes := by unfold lineBytes; omega
    unfold vmemDefault; rw [this]
  have : SMap.getRange vmemDefault s.vmem k 136 = SMap.getRange vmemDefault on.vmem 0 136 := by
    rw [h, show on.vmem = [] from rfl, SMap.getRange_eq, SMap.getRange_eq]
    exact List.map_congr_left (fun i hi => e i (List.mem_range.mp hi))
  unfold State.rawAt; rw [this]
theorem test_lem_key (s : State) (g l : Nat) : s.lineKey g l % 136 = 0 := by
  unfold State.lineKey placeKey lineBytes
  dsimp only
  split <;> exact Nat.mul_mod_left _ _
/-- There a line that nothing locks, holds or arms can be read at once. -/
theorem test_lem_clear (s : State) (r : Nat) (ls : List (Nat × Nat)) (h : s.vmem = [])
    (hl : ls.all (fun p => (s.deliveredTo r p).isNone && !s.locked p.1 p.2 && (s.busyBank p.1 p.2).isNone && !s.flipArmed p.1 p.2 1
      && !s.writeParked r p && !s.recordHeld p.1) = true) : LinesClear s r ls := by
  have f : (on.rawAt 0).ok = true ∧ (on.rawAt 0).poison = false := by decide +kernel
  refine List.all_eq_true.mpr (fun p hp => ?_)
  have := List.all_eq_true.mp hl p hp
  simp only [Bool.and_eq_true] at this
  have k : s.rawLine p.1 p.2 = on.rawAt 0 := test_lem_fresh s h _ (test_lem_key s p.1 p.2)
  unfold State.lineReady
  rw [k, f.1, f.2, this.1.1.1.1.1, this.1.1.1.1.2, this.1.1.1.2, this.1.1.2, this.1.2, this.2]
  simp
theorem test_lem_ready (s : State) (r g l : Nat) (h : s.vmem = []) (hk : (s.vlt g).locks = []) (hj : (s.core g).lane.job = none)
    (hf : (s.rd .vltFlipCtl g 0).testBit 0 = false) (hw : (s.vlt g).heldWrites = []) (hr : (s.vlt g).retiring = none)
    (hh : s.recordHeld g = false) : s.lineReady r (g, l) = true := by
  have f : (on.rawAt 0).ok = true := by decide +kernel
  have k : s.rawLine g l = on.rawAt 0 := test_lem_fresh s h _ (test_lem_key s g l)
  simp [State.lineReady, State.locked, State.lockOf, State.busyBank, State.busySet, State.flipArmed, State.writeParked, k, f, hk, hj, hf,
    hw, hr, hh]
/-- A gather of one tile into the core's stage memory, or into its vault at 64 MB. -/
def gather1 (dst : Nat) : Nat := 0x58 + fld 3 0xFF + fld 4 1 + fld 16 dst
def stg0 : Nat := 2 ^ 46
def far0 : Nat := 2 ^ 26
/-- The gather waits in stream 3 of a core of step 0, or of step 1. -/
def gatherAt (n : Nat) : State := (fabAt on (gather1 stg0)).updCore 0 (fun c => { c with step := n })
theorem test_wit_gather : ∀ n ∈ [0, 1], FabStartOk (gatherAt n) 0 0x58 (issued (gather1 stg0)) ∧ (gatherAt n).stepTag 0 = n ∧
    ((gatherAt n).gatherParse 0 (gather1 stg0)).work = true ∧ ((gatherAt n).gatherParse 0 (gather1 stg0)).tiles = 1 ∧
    ((gatherAt n).gatherParse 0 (gather1 stg0)).tmb = 0xFF := by decide +kernel
theorem test_wit_gather_lines :
    LinesClear (gatherAt 0) (fabUnit 0 0) ((((gatherAt 0).gatherParse 0 (gather1 stg0)).lines 0).map (fun l => (0, l))) ∧
    LinesClear (gatherAt 1) (fabUnit 0 0) ((((gatherAt 1).gatherParse 0 (gather1 stg0)).lines 0).map (fun l => (0, l))) :=
  ⟨test_lem_clear _ _ _ rfl (by decide +kernel), test_lem_clear _ _ _ rfl (by decide +kernel)⟩
theorem test_wit_gather_tags : (gatherAt 0).gatherSkew 0 ((gatherAt 0).gatherParse 0 (gather1 stg0)) 0 0 = none ∧
    (gatherAt 1).gatherSkew 0 ((gatherAt 1).gatherParse 0 (gather1 stg0)) 0 1 = some (0, 0, 0) := by decide +kernel
/-- A gather in hand whose last tile is to be read, or is written and waits. -/
def gatherJob (dst : Nat) (sent : Bool) : FabJob := ⟨0, 0, gather1 dst, 0, 0, [], [], sent, false⟩
def gathering (dst : Nat) (sent : Bool) : State := on.updPrg (fun p => { p with jobs := [gatherJob dst sent] })
/-- The fabric island has a write to the vault that a fence holds. -/
def gatherHeld : State := (gathering far0 true).updVlt 0 (fun v => { v with heldWrites := [⟨128, 2 ^ 19, true, 0, 0, [], none, false⟩] })
theorem test_wit_gather_on : (gathering stg0 false).fabJob 0 0x58 = some (gatherJob stg0 false) ∧ (gathering stg0 false).works 0 = true ∧
    ((gathering stg0 false).gatherParse 0 (gather1 stg0)).tiles = 1 ∧ ((gathering stg0 false).gatherParse 0 (gather1 stg0)).tmb = 0xFF ∧
    (gathering stg0 false).gatherSkew 0 ((gathering stg0 false).gatherParse 0 (gather1 stg0)) 0 0 = none ∧
    (gathering far0 true).fabJob 0 0x58 = some (gatherJob far0 true) ∧ (gathering far0 true).works 0 = true ∧
    (gathering far0 true).gatherStored 0 ((gathering far0 true).gatherParse 0 (gather1 far0)) 0 = true ∧
    gatherHeld.fabJob 0 0x58 = some (gatherJob far0 true) ∧ gatherHeld.works 0 = true ∧
    gatherHeld.gatherStored 0 (gatherHeld.gatherParse 0 (gather1 far0)) 0 = false := by decide +kernel
theorem test_wit_gather_on_lines :
    LinesClear (gathering stg0 false) (fabUnit 0 0) ((((gathering stg0 false).gatherParse 0 (gather1 stg0)).lines 0).map (fun l => (0, l))) :=
  test_lem_clear _ _ _ rfl (by decide +kernel)
/-- A RED descriptor of a group that no image holds. -/
theorem test_wit_red_none : FabStartOk (fabAt on 0x50) 0 0x50 (issued 0x50) ∧ (fabAt on 0x50).redGroup ((fabAt on 0x50).redRead 0x50).group = none := by
  decide +kernel
/-- One reduction group of one element with core 0 as its contributor and its only destination: its table, then the lists. -/
def redTable : List Nat := leBytes 4 1 ++ leBytes 2 1 ++ leBytes 2 1 ++ leBytes 4 32 ++ leBytes 4 34 ++ leBytes 4 48 ++ List.replicate 12 0
  ++ List.replicate 16 0 ++ List.replicate 16 0
def redImg : State := { sealedOn.wrF .hubExpertMask 0 0 10 1 1 with img := { oneRank with red := redTable } }
def redDesc : Nat := 0x50 + fld 1 4 + fld 32 1
theorem test_wit_red : FabStartOk (fabAt redImg redDesc) 0 0x50 (issued redDesc) ∧
    ((fabAt redImg redDesc).redGroup ((fabAt redImg redDesc).redRead redDesc).group).map (fun q => (q.elems, q.contribN)) = some (1, 1) ∧
    ((fabAt redImg redDesc).redGroup 0).bind (fun q => (fabAt redImg redDesc).contributorOf 0 0 ((fabAt redImg redDesc).stepTag 0) q) = some (0, 0) ∧
    ((fabAt redImg redDesc).redGroup 0).map (fun q => (q.parentHost (fabAt redImg redDesc).img.red 0 0).getD ((fabAt redImg redDesc).pkg, 0 / 16)) = some (0, 0) ∧
    ((fabAt redImg redDesc).redRead redDesc).compress = 1 ∧ (fabAt redImg redDesc).inFlight 0 < 128 := by decide +kernel
theorem test_wit_move_none : FabStartOk (fabAt on 0x51) 0 0x51 (issued 0x51) ∧
    (((fabAt on 0x51).takeFab 0 0x51).moveRead 0 0x51).lines = 0 := by decide +kernel
/-- A move of one line from stage memory to the vault's line 1. -/
def move1 : Nat := 0x51 + fld 3 0xFF + fld 4 1 + fld 8 (2 ^ 46) + fld 16 128
theorem test_wit_move : FabStartOk (fabAt on move1) 0 0x51 (issued move1) ∧
    (((fabAt on move1).takeFab 0 0x51).moveRead 0 move1) = { (((fabAt on move1).takeFab 0 0x51).moveRead 0 move1) with
      work := true, lines := 1, src := 2 ^ 46, dests := [128], tmb := 0xFF, one := false, viols := [] } ∧
    (fabAt on move1).fabOpen 0 0 = false ∧ (destCore (2 ^ 46)).isSome = true ∧ (destCore 128).isSome = true ∧
    ((fabAt on move1).takeFab 0 0x51).canStore 128 1 = true ∧ LinesClear (fabAt on move1) (fabUnit 0 1) ((fabAt on move1).linesOf (2 ^ 46) 128) := by
  decide +kernel
theorem test_wit_dcmp_none : FabStartOk (fabAt on 0x53) 0 0x53 (issued 0x53) ∧ groupAt (fabAt on 0x53).img.dig false (dfld 0x53 4 0 32) = none := by
  decide +kernel
/-- The same group as a digest group. -/
def digImg : State := { sealedOn with img := { oneRank with dig := redTable } }
theorem test_wit_dcmp : FabStartOk (fabAt digImg 0x53) 0 0x53 (issued 0x53) ∧
    ((groupAt digImg.img.dig false 0).map (fun q => ((q.dests digImg.img.dig).find? (fun p => digImg.rankAt p.1 == some (digImg.pkg, 0))).isSome)) = some true ∧
    ((groupAt digImg.img.dig false 0).bind (fun q => ((q.dests digImg.img.dig).head?).bind (fun p => digImg.rankAt p.1))) = some (0, 0) ∧
    locOf ((fabAt digImg 0x53).adr 0 0) = .vault 0 0 ∧ LinesClear (fabAt digImg 0x53) (fabUnit 0 2) ((fabAt digImg 0x53).linesOf 0 32) ∧
    (fabAt digImg 0x53).inFlight 0 < 128 ∧ addrPkg ((fabAt digImg 0x53).adr 0 0) = (fabAt digImg 0x53).pkg := by decide +kernel
/-- Its result lies in package 1. -/
def dcmpFar : Nat := 0x53 + fld 8 (2 ^ 50)
theorem test_wit_dcmp_far : FabStartOk (fabAt digImg dcmpFar) 0 0x53 (issued dcmpFar) ∧ dfld dcmpFar 4 0 32 = 0 ∧
    addrPkg ((fabAt digImg dcmpFar).adr 0 (dfld dcmpFar 8 0 64 % 2 ^ 56)) = 1 ∧ (fabAt digImg dcmpFar).pkg = 0 := by decide +kernel
/-- A core with a store to gateway 0 on its path. -/
def hasping (p : Nat) : State := fabAt (sealedOn.wrF .synPathSet 0 0 0 4 p) 0x70
theorem test_wit_hasp : (hasping 1).works 0 = true ∧ (hasping 0).works 0 = true ∧ (hasping 1).active 0 = true ∧ ((hasping 1).core 0).hasp = none ∧ ((hasping 1).core 0).nextFor 0x70 = some (issued 0x70) ∧
    ((hasping 1).haspRead 0 0x70).noFlush = false ∧ haspGateways (hasping 1) 0 = [0] ∧ haspGateways (hasping 0) 0 = [] ∧
    ((hasping 0).haspRead 0 0x70).host = false ∧ locOf ((hasping 0).haspRead 0 0x70).addr = .vault 0 0 ∧
    addrPkg ((hasping 0).haspRead 0 0x70).addr = (hasping 0).pkg := by decide +kernel
/-- The same with NO_FLUSH, which the image allows. -/
def haspNow : State := fabAt ((sealedOn.wrF .synPathSet 0 0 0 4 1).wrF .hubExpertMask 0 0 0 10 0x200) (0x70 + fld 1 1)
theorem test_wit_hasp_now : haspNow.works 0 = true ∧ (haspNow.core 0).hasp = none ∧ (haspNow.core 0).nextFor 0x70 = some (issued (0x70 + fld 1 1)) ∧
    (haspNow.haspRead 0 (0x70 + fld 1 1)).noFlush = true ∧ (haspNow.haspRead 0 (0x70 + fld 1 1)).host = false ∧
    locOf (haspNow.haspRead 0 (0x70 + fld 1 1)).addr = .vault 0 0 ∧ addrPkg (haspNow.haspRead 0 (0x70 + fld 1 1)).addr = haspNow.pkg := by
  decide +kernel

/-! ### The tiers -/

/-- A state object of two pages at home in flash, resident from page 16 of vault 0. -/
def obj1 (st : ObjState) : TierObj := ⟨1, 0, 0, 2, some (0, 16), 0, 0, st, 0, [], [], [], [], 0, false, false, 0⟩
/-- Object 5 is that one, and core 0 asks for `req` of it. -/
def tierAsk (req : Nat) (x : TierObj) : State := fabAt (on.setObj 5 x) (0x60 + fld 1 req + fld 4 5)
theorem test_wit_tier : ∀ req ∈ [0, 1, 2, 3, 4], TierOk (tierAsk req (obj1 .resident)) 0 req (issued (0x60 + fld 1 req + fld 4 5)) ∧
    (tierAsk req (obj1 .resident)).obj (dfld (0x60 + fld 1 req + fld 4 5) 4 0 32) = some (obj1 .resident) := by decide +kernel
theorem test_wit_promote : (tierAsk 0 (obj1 .cold)).obj 5 = some (obj1 .cold) ∧ (obj1 .cold).res.isSome = true ∧
    dfld (0x60 + fld 1 0 + fld 4 5) 1 3 1 = 0 ∧ TierOk (fabAt on 0x60) 0 0 (issued 0x60) ∧ (fabAt on 0x60).obj 0 = none := by
  decide +kernel
/-- Nothing holds the status word, which goes to the start of the core's vault. -/
theorem test_wit_status_open : ∀ req ∈ [0, 1, 2, 3, 4], StatusOpen (tierAsk req (obj1 .resident)) 0 (issued (0x60 + fld 1 req + fld 4 5)) := by
  have h : ∀ req ∈ [0, 1, 2, 3, 4], (tierAsk req (obj1 .resident)).canStore (tierReq (tierAsk req (obj1 .resident)) 0
        (issued (0x60 + fld 1 req + fld 4 5))).status 1 = true ∧
      (tierAsk req (obj1 .resident)).writesDone islandH3 ((tierAsk req (obj1 .resident)).linesOf (tierReq (tierAsk req (obj1 .resident)) 0
        (issued (0x60 + fld 1 req + fld 4 5))).status 8) = true ∧
      (((tierAsk req (obj1 .resident)).linesOf (tierReq (tierAsk req (obj1 .resident)) 0 (issued (0x60 + fld 1 req + fld 4 5))).status 8).all
        (fun p => ((tierAsk req (obj1 .resident)).rawLine p.1 p.2).ok)) = true := by decide +kernel
  exact fun req hr _ _ _ => h req hr
/-- Object 5 alone, a page of it dirty, and with a pin. -/
def evictable : State := (tierAsk 1 (obj1 .resident)).setFrame 0 17 .dirty
def pinned : TierObj := { obj1 .resident with pins := 1 }
theorem test_wit_evict_completes : TierOk evictable 0 1 (issued (0x60 + fld 1 1 + fld 4 5)) ∧ evictable.obj 5 = some (obj1 .resident) ∧
    evictable.tier.objs = [(5, some (obj1 .resident))] ∧ (obj1 .resident).pins = 0 ∧ (obj1 .resident).flushed = [] ∧
    evictable.dirtyPages (obj1 .resident) ≠ [] ∧ dfld (0x60 + fld 1 1 + fld 4 5) 4 0 32 = 5 := by decide +kernel
theorem test_wit_unpin_completes : ∀ req ∈ [1, 3], TierOk (tierAsk req pinned) 0 req (issued (0x60 + fld 1 req + fld 4 5)) ∧
    (tierAsk req pinned).obj 5 = some pinned ∧ 0 < pinned.pins ∧
    (tierAsk req pinned).canStore (tierReq (tierAsk req pinned) 0 (issued (0x60 + fld 1 req + fld 4 5))).status 1 = true ∧
    (tierAsk req pinned).writesDone islandH3 ((tierAsk req pinned).linesOf (tierReq (tierAsk req pinned) 0
      (issued (0x60 + fld 1 req + fld 4 5))).status 8) = true := by decide +kernel
theorem test_wit_flush_dirty : ((tierAsk 4 (obj1 .resident)).setFrame 0 17 .dirty).dirtyPages (obj1 .resident) = [1] ∧
    (tierAsk 4 (obj1 .resident)).dirtyPages (obj1 .resident) = [] := by decide +kernel
/-- Units of a page all delivered. -/
def allUnits : SMap (Option FetchUnit) := (List.range 132).map (fun u => (u, some ⟨0, [], true⟩))
/-- Object 5 in promotion, its page `p` next and read from flash. -/
def promoting (p : Nat) : State := (on.setObj 5 { obj1 .promoting with next := p }).updTier (fun t => { t with fetch := [⟨0, 5, p, allUnits⟩] })
theorem test_wit_page_done : PageOk (promoting 0) 5 { obj1 .promoting with next := 0 } ∧
    PageOk (promoting 1) 5 { obj1 .promoting with next := 1 } := by decide +kernel
/-- The same where a pass of core 0 is on the page's frame. -/
def promoHeld (w : Bool) : State := (promoting 0).updLane 0 (fun l => { l with
  units := [(0, { LaneUnit.zero with lb := [⟨16 * 2 ^ 14, 0, 0, 0, []⟩] })]
  job := some { passingJob with banks := [(0, { LaneBank.zero with claimed := some 1 })] } }) |>.setObj 5 { obj1 .promoting with waits := w }
theorem test_wit_page_waits : ∀ w ∈ [true, false], (promoHeld w).obj 5 = some { obj1 .promoting with waits := w } ∧ (promoHeld w).tierUp = true ∧
    (((promoHeld w).fetchOf 0 5 0).map Fetch.complete).getD false = true ∧ (promoHeld w).pageOpen 0 16 = false := by decide +kernel
/-- Object 5 is being cleaned; its page 1 is dirty. -/
def cleaning : State := (on.setObj 5 (obj1 .cleaning)).setFrame 0 17 .dirty
theorem test_wit_staging_free : cleaning.obj 5 = some (obj1 .cleaning) ∧
    (cleaning.dirtyPages (obj1 .cleaning)).find? (fun p => decide (0 ≤ p)) = some 1 ∧ cleaning.freeStaging 0 = some 0 ∧
    cleaning.tier.staging.any (fun t => t.obj == 5 && !t.copied) = false ∧ cleaning.pageQuiet 0 17 = true := by decide +kernel
/-- Page 1 is in staging frame 0 with these units to program. -/
def stagingOf (c : Bool) (l : List Nat) : Staging := ⟨0, 0, 5, 1, c, l, some 0⟩
def staged1 (c : Bool) (l : List Nat) : State := cleaning.updTier (fun t => { t with staging := [stagingOf c l] })
theorem test_wit_staging_copy : (staged1 false [0]).tier.staging.find? (fun t => t.obj == 5 && !t.copied) = some (stagingOf false [0]) ∧
    ((staged1 false [0]).vlt 0).heldWrites = [] := by decide +kernel
theorem test_wit_staging_lines : ∀ i, i < 2 ^ 14 → (staged1 false [0]).lineReady islandH3 (0, 17 * 2 ^ 14 + i) = true :=
  fun i _ => test_lem_ready _ _ _ _ rfl rfl rfl (by decide +kernel) rfl rfl (by decide +kernel)
/-- LUN 64, the first of channel 4, with four blocks and as many spares, of the highest numbers, as said; its table is in block 1. -/
def programming (sp : Nat) (l : List Nat) : State := (staged1 true l).updTier (fun t => { t with
  luns := [(64, some ⟨[64 * 2 ^ 16 + 3, 64 * 2 ^ 16 + 2].take sp, 2, 64 * 2 ^ 16 + 1, 3000, 4, 10⟩)] })
theorem test_wit_program : ∀ sp ∈ [0, 1], ∀ l ∈ [[0, 1], [0]], (programming sp l).obj 5 = some (obj1 .cleaning) ∧ (obj1 .cleaning).home = 0 ∧
    (programming sp l).tier.staging.find? (fun t => t.obj == 5 && t.page == 1 && t.copied) = some (stagingOf true l) ∧
    l.contains 0 = true ∧ (programming sp l).tier.stopped = false ∧
    (programming sp l).blockTakes (unitChannel 1 0) (64 * 2 ^ 16) = true ∧
    (programming sp l).programTurn (stagingOf true l) 0 = true ∧
    (((programming sp l).lun (blockLun (64 * 2 ^ 16))).map (fun l => l.spares)).getD 0 = sp := by decide +kernel
theorem test_wit_program_lines : ∀ sp ∈ [0, 1], ∀ l ∈ [[0, 1], [0]], LinesClear (programming sp l) islandH2 ((unitLines 0).map (fun i =>
    (0, (programming sp l).stagingPage 0 0 * 2 ^ 14 + i))) := fun sp hs l hl =>
  test_lem_clear _ _ _ rfl (by revert l; revert sp; decide +kernel)
theorem test_wit_program_last : [0, 1].filter (· != 0) ≠ [] ∧ [0].filter (· != 0) = [] := by decide
/-- The object is at home in another package. -/
def remoteHome (st : ObjState) : TierObj := { obj1 st with home := 1 }
theorem test_wit_program_remote : ((staged1 true [0, 1]).setObj 5 (remoteHome .cleaning)).obj 5 = some (remoteHome .cleaning) ∧
    ((staged1 true [0, 1]).setObj 5 (remoteHome .cleaning)).tier.staging.find? (fun t => t.obj == 5 && t.page == 1 && t.copied)
      = some (stagingOf true [0, 1]) ∧ ((staged1 true [0, 1]).setObj 5 (remoteHome .cleaning)).tier.stopped = false ∧
    (remoteHome .cleaning).home = 1 := by decide +kernel

/-- A stream window of one slot at page 32 of vault 0, of instances listed from stage memory, read by core 1. -/
def win1 (f : Bool) : Window := ⟨true, 1, 0, 0, 5, 2, 6, 1, 2, 2 ^ 46, 32, 10, 0, f, 0, false, if f then 5 else 0⟩
/-- The window's first instance is object 5, frozen and streamed. -/
def obj5 : TierObj := { obj1 .cold with kind := 0, res := none, shadow := 1 }
def windowed (f : Bool) : State := ((on.putStg 0 0 [5, 0]).setObj 5 obj5).updTier (fun t => { t with
  wins := [win1 f], fetch := [⟨1, 5, 0, allUnits⟩, ⟨1, 5, 1, allUnits⟩] })
theorem test_wit_fill_start : FillOk (windowed false) 0 (win1 false) ∧ (windowed false).winSkips (win1 false) ((windowed false).winObj (win1 false) 0) = false ∧
    FillOk (on.updTier (fun t => { t with wins := [win1 false] })) 0 (win1 false) ∧
    (on.updTier (fun t => { t with wins := [win1 false] })).winSkips (win1 false)
      ((on.updTier (fun t => { t with wins := [win1 false] })).winObj (win1 false) 0) = true := by decide +kernel
theorem test_wit_fill_done : (windowed true).win 0 = some (win1 true) ∧ (windowed true).obj (win1 true).obj = some obj5 ∧
    (∀ p, p < 2 → (((windowed true).fetchOf 1 (win1 true).obj p).map Fetch.complete).getD false = true) ∧
    (∀ p, p < 2 → (windowed true).pageOpen 0 (32 + p) = true) := by decide +kernel
theorem test_wit_fill_remote : ((windowed true).setObj 5 { obj5 with home := 1 }).win 0 = some (win1 true) ∧
    ((windowed true).setObj 5 { obj5 with home := 1 }).obj (win1 true).obj = some { obj5 with home := 1 } ∧
    (∀ p, p < 2 → ((windowed true).setObj 5 { obj5 with home := 1 }).pageOpen 0 (32 + p) = true) := by decide +kernel
/-- Core 1 waits at tumbler 5 for the first instance. -/
def fillHead : Entry := { atTmbHead 1 with target := some 1 }
def substOn : State := (windowed true).updCore 1 (fun c => c.setStream 1 [fillHead])
theorem test_wit_substitute : HeadOk substOn 1 1 1 fillHead ∧ substOn.fillWin 1 (waitObj fillHead.wait) = some (0, win1 true) ∧
    (win1 true).subst = true ∧ fillHead.target = some 1 ∧ fillHead.stuck = false ∧ (win1 true).wait ≤ 10 ∧
    substOn.winShadow (win1 true) (tmbAhead 1 1) ≠ 0 ∧ LinesClear substOn islandH3 (substOn.winLines (win1 true) (tmbAhead 1 1)) := by
  decide +kernel
/-- Its window has a SUBST_WAIT of 0. -/
def atOnce : State := substOn.updTier (fun t => { t with wins := [{ win1 true with wait := 0 }] })
theorem test_wit_takes_shadow : HeadOk atOnce 1 1 1 fillHead ∧ fillHead.stuck = false ∧ atOnce.substOf 1 5 1 = none ∧
    tmbReached (atOnce.tmbCount 1 5) (targetOf atOnce 1 fillHead) = false ∧ takesShadow atOnce 1 5 (targetOf atOnce 1 fillHead) = true ∧
    takesShadow (atTmb 1) 0 5 (targetOf (atTmb 1) 0 (atTmbHead 1)) = false := by decide +kernel
/-- The window's slot has been filled and its only reader has released it. -/
def refilling : State := ((windowed false).updTier (fun t => { t with wins := [{ win1 false with u := 1 }] })).wrF .synTmbCount 0 6 0 48 1
theorem test_wit_fill_again : FillOk refilling 0 { win1 false with u := 1 } ∧ ((win1 false).depth, (win1 false).readerCores) = (1, [1]) ∧
    refilling.winSkips { win1 false with u := 1 } (refilling.winObj { win1 false with u := 1 } 1) = false := by decide +kernel
theorem test_wit_space2 : (on.setObj 5 { obj1 .cold with home := 1 }).obj 5 = some { obj1 .cold with home := 1 } ∧
    (on.setObj 5 (obj1 .cold)).obj 5 = some (obj1 .cold) ∧ (obj1 .cold).home = 0 ∧ 128 * (2 ^ 15 - 1) + 128 ≤ (obj1 .cold).pages * 2 ^ 21 ∧
    on.obj 5 = none := by decide +kernel

/-! ### Flash -/

/-- Object 5 in promotion with every channel in use. -/
def reading1 : State := ((on.setObj 5 (obj1 .promoting)).wrF .tierStatus 0 0 0 16 0xFFFF).updTier (fun t => { t with arrivals := [5] })
theorem test_wit_unit_read : reading1.channelUp 3 = true ∧ reading1.tier.stopped = false ∧ unitChannel 0 3 = 3 ∧ unitChannel 1 131 = 7 ∧
    reading1.nextRead 3 = some (0, 5, 0, 3) ∧ reading1.nextRead 7 ≠ some (0, 5, 1, 131) ∧ reading1.channelUp 7 = true := by decide +kernel
/-- Unit 131 of page 1 has failed at this retry level. -/
def retrying (l : Nat) : State := reading1.updTier (fun t => { t with fetch := [⟨0, 5, 1, [(131, some ⟨l, [3], false⟩)]⟩] })
theorem test_wit_retry : ∀ l ∈ [0, 6], ((retrying l).fetchOf 0 5 1).bind (fun f => SMap.get (fun _ => none) f.units 131) = some ⟨l, [3], false⟩ ∧
    (retrying l).tier.stopped = false ∧ [3].filter (· < 4) ≠ [] := by decide +kernel
/-- Block 1 holds a unit and is to be rewritten, read often, and little worn beside block 3; block 2 is fresh. -/
def blocks : State := (on.wrF .tierCtl 0 0 3 2 3).updTier (fun t => { t with
  dir := [(0, 1)], heads := [(1, [(0, 1)])], moves := [(.retry, 1), (.disturb, 1), (.wear, 1)], reads := [(1, 500000)],
  erases := [(2, 1), (3, 1001)], luns := [(0, some ⟨[5], 2, 4, 3000, 6, 10⟩)] })
/-- Its move is due for another reason alone. -/
def movesFor (w : MoveWhy) : State := blocks.updTier (fun t => { t with moves := [(w, 1)] })
theorem test_wit_blocks : BlockOk blocks 1 2 ∧ blocks.moveNext (blockLun 1 / 16) = some (.retry, 1) ∧
    (blocks.lunBlocks (blockLun 1)).contains 1 = true ∧ BlockOk (movesFor .disturb) 1 2 ∧ BlockOk (movesFor .wear) 1 2 ∧
    (movesFor .disturb).moveNext (blockLun 1 / 16) = some (.disturb, 1) ∧
    ((movesFor .wear).noteMove .wear 1).moveNext (blockLun 1 / 16) = some (.wear, 1) ∧ (blocks.rd .tierCtl 0 0).testBit 3 = true ∧
    (blocks.rd .tierCtl 0 0).testBit 4 = true ∧ blocks.eraseCount 1 + 1000 < blocks.lunWorst (blockLun 1) ∧
    blocks.eraseCount 1 < blocks.eraseCount 2 ∧ blocks.moveNext (blockLun 2 / 16) ≠ some (.retry, 2) := by decide +kernel
theorem test_wit_erase : blocks.tier.badBlocks.contains 0 = false ∧ blocks.tier.stopped = false ∧ (blocks.lunBlocks (blockLun 0)).contains 0 = true ∧
    blocks.eraseNext 0 = true := by decide +kernel
theorem test_wit_first_init : on.tier.tables.contains 15 = false ∧ on.pwrState ≠ 0 := by decide +kernel
theorem test_wit_query : (on.setObj 5 (obj1 .cold)).obj 5 = some (obj1 .cold) ∧ (obj1 .cold).pins < 2 ^ 16 := by decide +kernel

/-! ### Messages at their endpoint -/

/-- A message from island 0 to core 0 at island 0. -/
def msg (kind addr : Nat) (body : List Nat) : InMsg := ⟨localSrc 0, 0, kind, 0, 7, 0, addr, body⟩
/-- It is the oldest. -/
def got (s : State) (m : InMsg) : State := s.updPrg (fun p => { p with inbox := [m] })
/-- A state whose oldest message is this request of island 0. -/
def asked (s : State) (kind addr : Nat) (body : List Nat) : State := got s (msg kind addr body)
/-- A transaction of island 0 with this owner and kind. -/
def txn0 (o : TxnFor) (kind pkg : Nat) : Txn := ⟨o, pkg, 1, noKw, ⟨kind, 0, 0, []⟩, 0, false, false⟩
def withTxn (s : State) (x : Txn) : State := s.setTxn (txnKey 0 7) (some x)
theorem test_wit_requests : ∀ p ∈ [(1, 2), (3, 3), (5, 0), (7, 1), (9, 0), (0x0B, 1), (0x0D, 1)],
    RequestOk (got on (msg p.1 0 [])) (localSrc 0) p.1 p.2 (msg p.1 0 []) := by decide +kernel
theorem test_wit_responses : ∀ k ∈ [2, 4, 6, 8, 0x0A, 0x0C, 0x0E],
    ResponseOk (withTxn (got on (msg k 0 [])) (txn0 .post (k - 1) 0)) (localSrc 0) k (msg k 0 []) (txn0 .post (k - 1) 0) := by
  decide +kernel
/-- A message from a keyway that carries no requests. -/
def kw0 (access cls : Nat) : Kw := ⟨cls, access, 1, 0, 0, 8, 0, 0, 4, 4, 3, 1, 2, [], [], 0, 0, [], 5, 0, true, true, 0, 9, none, 0⟩
def keyed (access cls : Nat) : State := on.updPrg (fun p => { p with kws := [(1, some (kw0 access cls))] })
theorem test_wit_refused : ∀ p ∈ [(1, 2), (3, 3), (5, 0), (7, 1), (9, 0), (0x0B, 1), (0x0D, 1)],
    (got (keyed 0 0) { msg p.1 0 [] with src := 1 }).nextMsg 1 p.1 = some { msg p.1 0 [] with src := 1 } ∧
    (got (keyed 0 0) { msg p.1 0 [] with src := 1 }).allowed 1 [p.2] = false := by decide +kernel
/-- READ_REQ of `n` lines: one of the vault, 32 of stage memory. -/
def reading (s : State) (a n : Nat) : State := asked s 1 a (leBytes 8 n)
theorem test_wit_read_lines : ∀ p ∈ [(128 * 5 + 64, 1), (2 ^ 46, 32)],
    RequestOk (reading on p.1 p.2) (localSrc 0) 1 2 (msg 1 p.1 (leBytes 8 p.2)) ∧ addrPkg p.1 = 0 ∧ leNat ((leBytes 8 p.2).take 8) = p.2 ∧
    isMemory p.1 = true ∧ destCore (p.1 / 128 * 128 + 128 * (p.2 - 1)) = destCore (p.1 / 128 * 128) ∧
    (reading on p.1 p.2).canStore (p.1 / 128 * 128) 0 = true ∧
    LinesClear (reading on p.1 p.2) (msgUnit 0 (localSrc 0)) ((reading on p.1 p.2).linesOf (p.1 / 128 * 128) (128 * p.2)) := by decide +kernel
/-- Control registers are in space 3, host windows above bit 45 of it. -/
def ctrlAt : Nat := 3 * 2 ^ 46 + 64
def winAt : Nat := 3 * 2 ^ 46 + 2 ^ 45 + 2 ^ 39 + 128
theorem test_wit_read_ctrl : RequestOk (reading on ctrlAt 1) (localSrc 0) 1 2 (msg 1 ctrlAt (leBytes 8 1)) ∧ addrPkg ctrlAt = 0 ∧
    locOf ctrlAt = .ctrl 64 := by decide +kernel
/-- Core 0 is going dark. -/
def fencing0 : State := on.updCore 0 (fun c => { c with fence := .fencing })
theorem test_wit_read_fenced : RequestOk (reading fencing0 (2 ^ 46) 32) (localSrc 0) 1 2 (msg 1 (2 ^ 46) (leBytes 8 32)) ∧
    addrPkg (2 ^ 46) = 0 ∧ isStage (2 ^ 46) = true ∧ fencing0.fencedOff (2 ^ 46) = true ∧
    destCore (2 ^ 46 / 128 * 128 + 128 * (32 - 1)) = destCore (2 ^ 46 / 128 * 128) := by decide +kernel
/-- The gateway with its host attached. -/
def attachedOn : State := sealedOn.wrF .hostSession 0 0 0 2 0
/-- Window 1 open for reads and writes, a page long, at a gateway. -/
def window1 : State := (attachedOn.wr .hostWinAddr 0 1 0x10000).wr .hostWinCfg 0 1 (7 + 2 ^ 12)
theorem test_wit_read_window : RequestOk (reading window1 winAt 31) (localSrc 0) 1 2 (msg 1 winAt (leBytes 8 31)) ∧ addrPkg winAt = 0 ∧
    locOf winAt = .window 1 128 ∧ window1.gateway.isSome = true ∧ window1.attached = true ∧
    window1.winOk 1 (128 / 128 * 128) (128 * 31) 2 = true := by decide +kernel
/-- A response of kind 2 to a post, to the relay, and to nothing. -/
def relayed : State := withTxn (got { on with hub := { on.hub with relays := [(0, 64, false)] } } (msg 2 0 [])) (txn0 (.relay 0) 1 0)
theorem test_wit_read_rsp : (∀ id, (txn0 .post 1 0).owner ≠ .host id) ∧
    ResponseOk relayed (localSrc 0) 2 (msg 2 0 []) (txn0 (.relay 0) 1 0) ∧
    (relayed.hub.relays.find? (fun r => r.1 == 0)) = some (0, 64, false) ∧
    (got on (msg 2 0 [])).nextMsg (localSrc 0) 2 = some (msg 2 0 []) ∧ (got on (msg 2 0 [])).txn (txnKey 0 7) = none := by
  exact ⟨fun _ h => (by cases h), by decide +kernel⟩
/-- A response for a line repair, and for a line of a checkpoint; nothing holds the line. -/
theorem test_wit_read_rsp_repair : ∀ o ∈ [TxnFor.repair 0 5 0, .ckptRead 0 5],
    ResponseOk (withTxn (got on (msg 2 0 [])) (txn0 o 1 0)) (localSrc 0) 2 (msg 2 0 []) (txn0 o 1 0) ∧
    (withTxn (got on (msg 2 0 [])) (txn0 o 1 0)).canStore (vaultAddr 0 0 (128 * 5)) 32 = true := by decide +kernel
/-- The body of a WRITE of `n` lines. -/
def linesBody (n : Nat) : List Nat := List.replicate (136 * n) 0
theorem test_wit_write_lines : ∀ n ∈ [1, 4], RequestOk (asked on 3 (128 * 5) (linesBody n)) (localSrc 0) 3 3 (msg 3 (128 * 5) (linesBody n)) ∧
    addrPkg (128 * 5) = 0 ∧ isMemory (128 * 5) = true ∧ (linesBody n).length ≠ 16 ∧ (linesBody n).length ≠ 24 ∧
    (bodyLines (linesBody n)).length = n ∧ destCore (128 * 5 + 128 * (n - 1)) = destCore (128 * 5) ∧
    (asked on 3 (128 * 5) (linesBody n)).canStore (128 * 5) n = true := by decide +kernel
theorem test_wit_write_ctrl : RequestOk (asked on 3 ctrlAt (leBytes 8 1)) (localSrc 0) 3 3 (msg 3 ctrlAt (leBytes 8 1)) ∧
    locOf ctrlAt = .ctrl 64 ∧ (regSlot 64).map (fun p => p.1) ≠ some .hostCqPost := by decide +kernel
theorem test_wit_write_fenced : RequestOk (asked fencing0 3 0 (linesBody 1)) (localSrc 0) 3 3 (msg 3 0 (linesBody 1)) ∧ isMemory 0 = true ∧
    (asked fencing0 3 0 (linesBody 1)).fencedOff 0 = true := by decide +kernel
theorem test_wit_write_tier : RequestOk (asked on 3 (2 * 2 ^ 46) (linesBody 1)) (localSrc 0) 3 3 (msg 3 (2 * 2 ^ 46) (linesBody 1)) ∧
    addrPkg (2 * 2 ^ 46) = 0 ∧ locOf (2 * 2 ^ 46) = .tier 0 0 := by decide +kernel
theorem test_wit_write_flag : RequestOk (asked on 3 (2 ^ 46 + 8) (leBytes 16 1)) (localSrc 0) 3 3 (msg 3 (2 ^ 46 + 8) (leBytes 16 1)) ∧
    addrPkg (2 ^ 46 + 8) = 0 ∧ locOf (2 ^ 46 + 8) = .stage 0 8 ∧ (leBytes 16 1).length = 16 ∧
    (asked on 3 (2 ^ 46 + 8) (leBytes 16 1)).canStore (2 ^ 46 + 8) 0 = true := by decide +kernel
theorem test_wit_write_window : RequestOk (asked window1 3 winAt (leBytes 8 1)) (localSrc 0) 3 3 (msg 3 winAt (leBytes 8 1)) ∧
    locOf winAt = .window 1 128 ∧ (leBytes 8 1).length = 8 ∧ window1.gateway.isSome = true ∧
    ((asked window1 3 winAt (leBytes 8 1)).hostBound 1 (128 / 8 * 8) ((leBytes 8 1).take 8) 0 false).2 = .ok := by decide +kernel
/-- A line at an address of the vault. -/
theorem test_wit_stored_line : locOf (128 * 5 + 128 * 0) = .vault 0 640 := by decide
/-- A tumbler signal of 1 to tumbler 5, with serial 9: from island 0, and from a keyway that has seen serial 9. -/
def sigBody : List Nat := leBytes 8 (1 + 5 * 2 ^ 8 + 2 ^ 32) ++ leBytes 4 9
def kwSig (access : Nat) : State := got ((keyed access 0).updKw 1 (fun q => { q with sigRx := 9 })) { msg 5 0 sigBody with src := 1 }
theorem test_wit_signal : RequestOk (asked on 5 0 sigBody) (localSrc 0) 5 0 (msg 5 0 sigBody) ∧
    SigOk (asked on 5 0 sigBody) 0 (sigSender (asked on 5 0 sigBody) (localSrc 0)) ∧ (asked on 5 0 sigBody).home 0 = 0 ∧
    bitsOf (leNat (sigBody.take 8)) 0 3 = 1 ∧
    RequestOk (kwSig 1) 1 5 0 { msg 5 0 sigBody with src := 1 } ∧ 1 < localSrc 0 ∧
    leNat ((sigBody.drop 8).take 4) ≤ (((kwSig 1).kw ((kwSig 1).streamKw 1)).map (fun q => q.sigRx)).getD 0 := by decide +kernel
/-- A DCMP whose only transaction is answered. -/
def dcmpJob : FabJob := ⟨0, 0, 0x53, 0, 1, [], [], true, false⟩
def dcmpWaits : State := withTxn (got (on.updPrg (fun p => { p with jobs := [dcmpJob] })) (msg 0x0C 0 [])) (txn0 (.job 0 0 0) 0x0B 0)
theorem test_wit_descriptor_acked : ResponseOk dcmpWaits (localSrc 0) 0x0C (msg 0x0C 0 []) (txn0 (.job 0 0 0) 0x0B 0) ∧
    dcmpWaits.fabJobAt 0 0 = some dcmpJob ∧ dcmpWaits.prg.jobs.all (fun j => j.todo.isEmpty) = true ∧
    ((dcmpWaits.popMsg (localSrc 0)).setTxn (txnKey 0 7) none).fabOpen 0 0 = false := by decide +kernel
/-- A reduction group of two contributors whose node this package hosts. -/
def redTable2 : List Nat := leBytes 4 1 ++ leBytes 2 2 ++ leBytes 2 1 ++ leBytes 4 32 ++ leBytes 4 36 ++ leBytes 4 48 ++ List.replicate 12 0
  ++ [0, 0, 1, 0] ++ List.replicate 12 0 ++ List.replicate 16 0
def chunk1 : InMsg := msg 7 (2 ^ 36) []
def redImg2 (seen : Bool) : State := got { (sealedOn.updPrg (fun p => { p with accepted := if seen then [chunkKey chunk1] else [] })) with
  img := { oneRank with red := redTable2 } } chunk1
theorem test_wit_red_part : ∀ seen ∈ [true, false], RequestOk (redImg2 seen) (localSrc 0) 7 1 chunk1 ∧
    ((redImg2 seen).redGroup (bitsOf chunk1.addr 16 16)).map (fun g => (g.contribN,
      treeParent g.contribN (bitsOf chunk1.addr 32 4) (bitsOf chunk1.addr 36 13))) = some (2, some (1, 0, true)) ∧
    (redImg2 seen).prg.accepted.contains (chunkKey chunk1) = seen ∧ (redImg2 seen).prg.nodes.all (fun n => n.group != 0) = true := by
  decide +kernel
/-- A group of three contributors: the node of the first two has a parent. -/
def redTable3 : List Nat := leBytes 4 1 ++ leBytes 2 3 ++ leBytes 2 1 ++ leBytes 4 32 ++ leBytes 4 38 ++ leBytes 4 48 ++ List.replicate 12 0
  ++ [0, 0, 1, 0, 2, 0] ++ List.replicate 10 0 ++ List.replicate 16 0
/-- Its node has its left child, or its right one. -/
def redNode3 (right : Bool) : RedNode := (⟨0, 0, 1, 0, 0, false, none, none⟩ : RedNode).fill right ([0], 0)
def redImg3 (right : Bool) : State := { sealedOn.updPrg (fun p => { p with nodes := [redNode3 right] }) with img := { oneRank with red := redTable3 } }
theorem test_wit_node_sum : ∀ right ∈ [true, false], treeParent (groupRaw redTable3 0).contribN 0 (if right then 1 else 0) = some (1, 0, right) ∧
    (redImg3 (!right)).prg.nodes.find? (fun n => n.group == 0 && n.tag == 0 && n.level == 1 && n.ix == 0 && n.chunk == 0)
      = some (redNode3 (!right)) ∧
    ((groupRaw redTable3 0).parentHost (redImg3 (!right)).img.red 1 0) = some (0, 0) ∧
    ((redNode3 (!right)).fill right ([0], 0)).left = some ([0], 0) ∧ ((redNode3 (!right)).fill right ([0], 0)).right = some ([0], 0) := by
  decide +kernel
/-- A flush at a gateway of this session state. -/
def flushing (st : Nat) : State := asked (sealedOn.wrF .hostSession 0 0 0 2 st) 9 0 []
theorem test_wit_flush : (∀ st ∈ [0, 1, 2], RequestOk (flushing st) (localSrc 0) 9 0 (msg 9 0 []) ∧ (flushing st).gateway.isSome = true ∧
    (flushing st).session = st) ∧ (flushing 0).attached = true := by decide +kernel
/-- A hasp waits for gateways 0 and 1. -/
def haspRun : HaspRun := ⟨0, [0, 1], [], 0x70, false, false⟩
def haspWaits : State := withTxn (got (on.updCore 0 (fun c => { c with hasp := some haspRun })) (msg 0x0A 1 [])) (txn0 (.flush 0 0 0) 9 0)
theorem test_wit_flush_rsp : ResponseOk haspWaits (localSrc 0) 0x0A (msg 0x0A 1 []) (txn0 (.flush 0 0 0) 9 0) ∧
    (haspWaits.core 0).hasp = some haspRun ∧ [0, 1].filter (· != 0) ≠ [] := by decide +kernel
/-- A digest group of two members and one of one member. -/
def digTable2 : List Nat := leBytes 4 0 ++ leBytes 2 0 ++ leBytes 2 2 ++ leBytes 8 0 ++ leBytes 4 32 ++ List.replicate 12 0
  ++ List.replicate 16 0 ++ 1 :: List.replicate 15 0
def digImg2 : State := { sealedOn with img := { oneRank with dig := digTable2 } }
theorem test_wit_digest : RequestOk (asked digImg2 0x0B 0 []) (localSrc 0) 0x0B 1 (msg 0x0B 0 []) ∧
    RequestOk (asked digImg 0x0B 0 []) (localSrc 0) 0x0B 1 (msg 0x0B 0 []) ∧
    (groupAt digImg2.img.dig false 0).map (fun g => g.destN) = some 2 ∧
    (groupAt digImg.img.dig false 0).map (fun g => (g.destN, (g.dests digImg.img.dig).head?)) = some (1, some (0, 0)) ∧
    digImg2.prg.digests.all (fun e => e.1 != 0) = true ∧ digImg.prg.digests.all (fun e => e.1 != 0) = true ∧
    digImg.rankAt 0 = some (0, 0) ∧ (digImg.core 0).fence ≠ .adopted := by decide +kernel
/-- Both results have arrived and differ. -/
def digDiffer : State := digImg2.updPrg (fun p => { p with digests := [(0, 0, 0, [1]), (0, 0, 1, [2])] })
theorem test_wit_digests_differ : ((groupRaw digTable2 0).dests digDiffer.img.dig).head? = some (0, 0) ∧ digDiffer.rankAt 0 = some (0, 0) ∧
    (digDiffer.core 0).fence ≠ .adopted ∧
    (digDiffer.prg.digests.filter (fun e => e.1 == 0)).find? (fun e => e.2.2.1 == 0) = some (0, 0, 0, [1]) ∧
    (0, 0, 1, [2]) ∈ digDiffer.prg.digests ∧ ([2] : List Nat) ≠ [1] := by decide +kernel
def normSeen : State := on.updCore 0 (fun c => { c with normAt := some 0 })
theorem test_wit_norm : RequestOk (asked on 0x0D 0 []) (localSrc 0) 0x0D 1 (msg 0x0D 0 []) ∧ (on.core 0).fence ≠ .adopted ∧
    (on.core 0).normAt ≠ some (on.core 0).step ∧
    RequestOk (asked normSeen 0x0D 0 []) (localSrc 0) 0x0D 1 (msg 0x0D 0 []) ∧ (normSeen.core 0).fence ≠ .adopted ∧
    (normSeen.core 0).normAt = some (normSeen.core 0).step := by decide +kernel
/-- A NAK for a transaction within the package. -/
def naked (code : Nat) (o : TxnFor) : State := withTxn (got on (msg 0x0F 0 (leBytes 8 code))) (txn0 o 5 0)
theorem test_wit_nak : (naked 1 .post).nextMsg (localSrc 0) 0x0F = some (msg 0x0F 0 (leBytes 8 1)) ∧
    (naked 1 .post).txn (txnKey 0 7) = some (txn0 .post 5 0) ∧
    (naked 6 .post).nextMsg (localSrc 0) 0x0F = some (msg 0x0F 0 (leBytes 8 6)) ∧ (txn0 .post 5 0).pkg = (naked 6 .post).pkg ∧
    (naked 6 .post).txn (txnKey 0 7) = some (txn0 .post 5 0) ∧
    ∀ o ∈ [TxnFor.norm, TxnFor.sig], (naked 4 o).nextMsg (localSrc 0) 0x0F = some (msg 0x0F 0 (leBytes 8 4)) ∧
      (naked 4 o).txn (txnKey 0 7) = some (txn0 o 5 0) := by decide +kernel
/-- A transaction to package 1 with its route on keyway 1. -/
def txn1 (expired : Bool) : Txn := { txn0 .post 5 1 with expired := expired }
def remote (expired : Bool) : State := (withTxn (got (keyed 0xF 0) { msg 0x0F 0 [6] with src := 1 }) (txn1 expired)).updPrg (fun p => { p with
  routes := [(4 * 1 + 1, [1])] })
theorem test_wit_nak_remote : (remote false).nextMsg 1 0x0F = some { msg 0x0F 0 [6] with src := 1 } ∧
    (remote false).txn (txnKey 0 7) = some (txn1 false) ∧ leNat ([6].take 8) = 6 ∧
    (txn1 false).pkg ≠ (remote false).pkg ∧ (remote false).ownKw (txn1 false) = some 1 := by decide +kernel
/-- The keyway's link has an event pending. -/
def remoteBusy : State := (remote false).updPrg (fun p => { p with links := [(0, { Link.down with up := true, episode := some 1 })] })
theorem test_wit_timeout : (∀ e ∈ [true, false], (remote e).txn (txnKey 0 7) = some (txn1 e) ∧ (remote e).routeBusy (txn1 e) = false ∧
      (txn1 e).pkg ≠ (remote e).pkg) ∧
    remoteBusy.txn (txnKey 0 7) = some (txn1 false) ∧ remoteBusy.routeBusy (txn1 false) = true ∧ (txn1 false).waits = false ∧
    (remote false).ownKw (txn1 false) = some 1 ∧ (txn1 true).owner = .post := by decide +kernel

/-! ### Lanes and links -/

/-- Lanes 0 and 1 of port 0 in use and its link up, with what is given. -/
def upLane : PLane := { PLane.dark with state := .up }
def linked (l : Link) : State := on.updPrg (fun p => { p with lanes := [(0, { upLane with uncorr := List.replicate 65 0, corr := [(0, 42501)], epUncorr := 1 }), (1, upLane)], links := [(0, { l with up := true })] })
theorem test_wit_lane_fail : (linked Link.down).pwrState = 3 ∧ ((linked Link.down).plane 0 0).state = .up ∧ LaneShows (linked Link.down) 0 0 2 0 ∧
    LaneShows (linked Link.down) 0 0 3 0 ∧ OtherLane (linked Link.down) 0 0 := by decide +kernel
theorem test_wit_lane_oma : LaneShows (linked Link.down) 0 0 0 59 ∧ 60 ≤ 60 % 2 ^ 8 ∧ ((linked Link.down).plane 0 0).state.carries = true ∧
    190 ≤ 190 % 2 ^ 8 ∧ 189 % 2 ^ 8 < 190 := by decide +kernel
theorem test_wit_laser : (on.plane 0 7).state ≠ .up ∧ (on.plane 1 7).state ≠ .up ∧ (on.plane 0 7).joined = false ∧ (on.plane 1 7).joined = false := by
  decide +kernel
/-- A lane of port 15 in a state. -/
def laneIn (st : PLaneState) (s : State) : State := s.updPrg (fun p => { p with lanes := [(15 * 8 + 7, { PLane.dark with state := st })] })
theorem test_wit_retrain : ((laneIn .failed on).plane 15 7).state = .failed ∧ (laneIn .failed on).tier.stopped = false := by decide +kernel
theorem test_wit_training : ((laneIn .training sealedOn).plane 15 7).state = .training ∧
    (laneIn .training sealedOn).trainOk 15 7 1 0 2 0 = false ∧ (laneIn .training sealedOn).trainOk 15 7 1 0 0 0 = true ∧
    staysSpare (laneIn .training sealedOn) 15 7 = false := by decide +kernel
/-- Lane 7 of that port is its spare. -/
def spareIn : State := (laneIn .training sealedOn).wrF .prgPortCfg 15 0 1 4 15
theorem test_wit_training_spare : (spareIn.plane 15 7).state = .training ∧ spareIn.trainOk 15 7 1 0 0 0 = true ∧ staysSpare spareIn 15 7 = true := by
  decide +kernel
/-- Package 0 as one of the first 33 of its partition. -/
def partition33 : State := { on with img := { oneRank with packages := List.range 33 } }
theorem test_wit_ctrl_scrub : 2 ≤ partition33.pwrState ∧ partition33.ward.d3 = false ∧ 32 < partition33.img.packages.length ∧ 2 ≤ sealedOn.pwrState ∧
    sealedOn.ward.d3 = false ∧ State.reset.pwrState < 2 ∧ ({ on with ward := { Ward.reset with d3 := true } }).ward.d3 = true ∧
    sealedOn.img.packages.length ≤ 32 ∧ (∀ w, w < 8 → (sealedOn.link (sealedOn.linkOf 15 w)).up = false) := by decide +kernel
/-- A flit not yet acknowledged. -/
def outFlit : Flit := ⟨0, 0, false, 0, [], 1⟩
def unacked : State := linked { Link.down with unacked := [outFlit], txSeq := 1 }
theorem test_wit_replay : ReplayOk unacked (unacked.linkOf 0 0) ∧
    (0 + (unacked.link (unacked.linkOf 0 0)).unacked.length) % 2 ^ 16 = (unacked.link (unacked.linkOf 0 0)).txSeq % 2 ^ 16 := by decide +kernel
theorem test_wit_budget : ((linked { Link.down with episode := some 0 }).link 0).inEpisode = true ∧
    ((linked { Link.down with rxEpisode := some 3 }).link 0).inEpisode = true ∧
    (linked { Link.down with rxEpisode := some 3 }).budgetLanes 0 = [0] ∧ OtherLane (linked { Link.down with rxEpisode := some 3 }) 0 0 ∧
    (linked { Link.down with episode := some 0 }).budgetLanes 0 = [0] ∧ OtherLane (linked { Link.down with episode := some 0 }) 0 0 := by
  decide +kernel
theorem test_wit_link_down : (linked Link.down).linkOf 0 0 = 0 ∧ ((linked Link.down).link 0).up = true ∧ NoRouteOn (linked Link.down) 0 := by
  decide +kernel
/-- An up link none of whose lanes carries flits, and one with lanes. -/
def noLane : State := on.updPrg (fun p => { p with links := [(0, { Link.down with up := true })] })
theorem test_wit_credit_return : noLane.linkOf 0 0 = 0 ∧ (noLane.link 0).up = true ∧ noLane.ctlLanes 0 = [] ∧
    ((linked Link.down).link 0).up = true ∧ (linked Link.down).ctlLanes 0 ≠ [] := by decide +kernel
/-- Keyway 1 of port 0 leads to a link that is up; it is the second alternate of route 6 and all of route 5. -/
def routed : State := (linked Link.down).updPrg (fun p => { p with kws := [(1, some (kw0 0xF 0))], routes := [(5, [1]), (6, [9, 1])] })
theorem test_wit_reroute : (List.range (SMap.get (fun _ => []) routed.prg.routes 6).length).find?
    (fun i => i != 0 && routed.kwUp ((SMap.get (fun _ => []) routed.prg.routes 6).getD i 0)) = some 1 ∧
    routed.prg.txns.all (fun e => (e.2.map (fun x => !(x.kw == 9 && x.waits))).getD true) = true := by decide +kernel
theorem test_wit_refclk : on.pwrState ≠ 0 ∧ on.tier.stopped = false ∧ ∀ l, l < 128 → (on.link l).up = false := by decide +kernel
theorem test_wit_flit_bad : ((linked Link.down).plane 0 0).state.carries = true ∧ ¬ FlitOk [] := by decide +kernel
/-- A lane with 63, and with 64, uncorrectable frames in the last millisecond. -/
def noisy (n : Nat) : State := (linked Link.down).updPrg (fun p => { p with lanes := [(0, { upLane with uncorr := List.replicate n 0 }), (1, upLane)] })
theorem test_wit_frame : ((noisy 63).plane 0 0).state.carries = true ∧ ((noisy 63).badFrames ((noisy 63).plane 0 0)).length < 64 ∧
    ((noisy 64).plane 0 0).state = .up ∧ 64 ≤ ((noisy 64).badFrames ((noisy 64).plane 0 0)).length ∧ OtherLane (noisy 64) 0 0 := by decide +kernel
/-- A frame that opens the receiver's episode, and one within an episode. -/
def noisyIn : State := (noisy 0).updPrg (fun p => { p with links := [(0, { Link.down with up := true, rxEpisode := some 3 })] })
theorem test_wit_frame_episode : ((noisy 0).link 0).up = true ∧ ((noisy 0).link 0).inEpisode = false ∧
    ((noisy 0).linkLanes 0).contains 0 = true ∧ (noisy 0).linkOf 0 0 = 0 ∧ (noisyIn.link 0).inEpisode = true ∧
    (noisyIn.plane 0 0).state.carries = true ∧ (noisyIn.badFrames (noisyIn.plane 0 0)).length < 64 := by decide +kernel
/-- A DATA flit on keyway 1 with one message that has no body. -/
def flit1 : List Nat := flitBytes 1 1 0 0 1 0 0 0 (5 :: List.replicate 15 0)
theorem test_wit_flit : FlitOk flit1 ∧ flit1.map (· % 256) = flit1 ∧ flit1.getD 0 0 % 16 = 1 ∧ leNat ((flit1.drop 1).take 2) = 0 ∧
    leNat ((flit1.drop 9).take 3) = 0 ∧ leNat ((flit1.drop 3).take 2) = 0 ∧ kwKey 0 (leNat ((flit1.drop 5).take 2) % 4096) = 1 ∧
    leNat ((flit1.drop 7).take 2) = 0 ∧ headerLen ((flit1.drop 12).take (16 * (flit1.getD 0 0 / 16))) = some 16 := by decide +kernel
theorem test_wit_flit_keyway : routed.kw 1 = some (kw0 0xF 0) ∧ routed.streamKw 1 = 1 ∧ (kw0 0xF 0).out ≠ 0 ∧ (routed.link 0).rxSeq = 0 ∧
    (routed.link 0).txSeq = 0 ∧ (routed.link 0).unacked = [] := by decide +kernel
theorem test_wit_keyway : KwOk (keyed 0 0) 0 1 (kw0 0 0) ∧ (kw0 0 0).epoch = 5 % 2 ^ 16 ∧ (kw0 0 0).epoch ≠ 6 % 2 ^ 16 ∧
    (keyed 0 3).kw (kwKey 0 1) = some (kw0 0 3) ∧ KwOk (withTxn (keyed 0 0) (txn0 .post 5 1)) 0 1 (kw0 0 0) ∧
    (withTxn (keyed 0 0) (txn0 .post 5 1)).txn (txnKey (kw0 0 0).die 7) = some (txn0 .post 5 1) ∧
    (kw0 0 0).resync = true ∧ (kw0 0 0).reset = true ∧ (kw0 0 0).txq = [] ∧ (kw0 0 0).ctlq = [] := by decide +kernel

/-! ### The structure image and the partition -/

/-- A job of ring 0, with its bytes, fetched by the attached gateway; window 1 is open for it. -/
def hjob (raw : Nat) : HostJob := ⟨0, raw, 3, false, 0, 0, 0⟩
def jobbed (s : State) (raw : Nat) : State := s.updHost (fun h => { h with jobs := [hjob raw] })
/-- Window 1 open, at a gateway without an image. -/
def plain1 : State := { window1 with img := { oneRank with packages := [] } }
/-- An IMAGE_LOAD job of nothing at the window's start. -/
def loadRaw : Nat := 0x81 + fld 8 0x10000
/-- R355: a staged image in hand, led by ring 0 or by another package. -/
def stagedAt (r : Nat) (sealing : Bool) : Staged := ⟨r, 3, [], [], [], [], sealing, 0, 0⟩
def withStaged (s : State) (x : Staged) : State := { s with img := { s.img with staged := some x } }
theorem test_wit_load : LoadOk (jobbed plain1 loadRaw) (hjob loadRaw) ∧ (jobbed plain1 loadRaw).isSealed = false ∧
    dfld loadRaw 16 0 64 = secNat [] 16 8 ∧ LoadOk (jobbed window1 loadRaw) (hjob loadRaw) ∧ (jobbed window1 loadRaw).isSealed = true ∧
    (jobbed window1 loadRaw).atQuiesce = false := by decide +kernel
theorem test_wit_load_refused : verdict (jobbed plain1 loadRaw) (hjob loadRaw) [] [] ≠ 0 := by decide +kernel
theorem test_wit_load_busy : (withStaged (jobbed plain1 loadRaw) (stagedAt 0 false)).nextJob jobImage = some (hjob loadRaw) ∧
    (withStaged (jobbed plain1 loadRaw) (stagedAt 0 false)).img.held = none ∧ plain1.hub.h1Down = false ∧ plain1.pwrState = 3 := by decide +kernel
theorem test_wit_ready : plain1.pwrState = 3 ∧ plain1.loading = false ∧ plain1.isSealed = false ∧ (plain1.checkImage [] [] []).2 ≠ 0 ∧
    (withStaged plain1 (stagedAt 0 false)).img.staged = some (stagedAt 0 false) := by decide +kernel
theorem test_wit_seal : (withStaged plain1 (stagedAt 16 false)).img.staged = some (stagedAt 16 false) ∧
    secBytes [] [] plain1.pkg 0x10 0 = none ∧ SMap.wf (fun _ => Core.reset) plain1.cores = true := by decide +kernel
/-- A partition of packages 0 and 1 whose lead has a quiesce job in hand. -/
def two : State := { window1 with img := { oneRank with packages := [0, 1], quiesce := some (0, 3) } }
theorem test_wit_sealed : two.img.quiesce = some (0, 3) ∧ two.imageState = 3 ∧ (∃ q ∈ two.img.packages, q ≠ 0 ∧ q ∉ two.img.sealed) ∧
    (∀ q ∈ two.img.packages, q = 0 ∨ q ∈ { two.img with sealed := [1] }.sealed) ∧
    (∀ q ∈ two.img.packages, q = 0 ∨ q ∈ { two.img with quiet := [1] }.quiet) := by decide +kernel
/-- A staged image of package 0 alone. -/
def stagedOne : Staged := { stagedAt 0 false with head := List.replicate 24 0 ++ [1] }
theorem test_wit_timeout_staging : stagedOne.ring < 16 ∧ stagedOne.sealing = false ∧ 0 ∈ (withStaged plain1 stagedOne).stagedPkgs stagedOne := by
  decide +kernel
/-- A quiesce job. -/
def quiesceRaw : Nat := 0x82
theorem test_wit_quiesce : (jobbed window1 quiesceRaw).nextJob jobQuiesce = some (hjob quiesceRaw) ∧ (jobbed window1 quiesceRaw).img.quiesce = none ∧
    (jobbed window1 quiesceRaw).hub.h1Down = false ∧ (jobbed window1 quiesceRaw).isSealed = true ∧ (jobbed window1 quiesceRaw).imageState = 3 ∧
    (jobbed plain1 quiesceRaw).nextJob jobQuiesce = some (hjob quiesceRaw) ∧ (jobbed plain1 quiesceRaw).isSealed = false ∧
    (window1.wrF .hubImageStatus 0 0 0 3 5).imageState = 5 := by decide +kernel
/-- A quiesce job at a package that is quiet; the partition is at its quiesce point, or not yet. -/
def quiet1 (p : Bool) : State :=
  let s := jobbed (window1.wrF .hubImageStatus 0 0 0 3 5) quiesceRaw
  { s with img := { s.img with point := p } }
theorem test_wit_quiesce_waits : ∀ p ∈ [true, false], (quiet1 p).nextJob jobQuiesce = some (hjob quiesceRaw) ∧ (quiet1 p).imageState = 5 ∧
    (quiet1 p).img.point = p ∧ (quiet1 p).img.quiesce = none ∧ (quiet1 p).hub.h1Down = false := by decide +kernel
/-- The only working core waits at step start; the package is quiescing. -/
def quiescing : State := { starting.wrF .hubImageStatus 0 0 0 3 4 with saves := [save0 1] }
theorem test_wit_quiet : quiescing.imageState = 4 ∧ quiescing.quiesced = true := by decide +kernel
/-- A partition of two gateways in which this one does not lead. -/
def follower : State := { sealedOn.wrF .hubImageStatus 0 0 16 2 1 with img := { oneRank with packages := [0, 1], gateways := [(0, 0), (1, 1)] } }
theorem test_wit_takeover : follower.isSealed = true ∧ follower.gateway = some 0 ∧ follower.isLead = false ∧ follower.mostly [1] = true ∧
    (∀ g ∈ [1], (0 : Nat) ≤ g) ∧ follower.img.gateways.any (fun p => p.2 == 1) = true := by decide +kernel
theorem test_wit_hub_heartbeat : follower.leadPkg = some 1 ∧ (1 : Nat) ≠ follower.pkg ∧ sealedOn.isLead = true := by decide +kernel
/-- A partition of three in which package 2 answers no more. -/
def snap0 (step : Nat) : Snap := ⟨step, [], [], [], none, [], [], [], []⟩
def three : State := { sealedOn with img := { oneRank with packages := [0, 1, 2] } }
theorem test_wit_package_lost : 2 ∈ three.img.packages ∧ (2 : Nat) ≠ three.pkg ∧ 2 ∉ three.img.lost ∧ three.isLead = true ∧ 2 ∉ [1] ∧
    three.linksDown 2 = true ∧ three.mostly [1] = true ∧ three.snap = none ∧
    ({ three with snap := some (snap0 0) }).snap = some (snap0 0) := by decide +kernel
/-- The lost package has stored its pages of the snapshot. -/
def storedSnap : Snap := { snap0 0 with stored := [2] }
theorem test_wit_package_lost_snap : ({ three with snap := some storedSnap }).snap = some storedSnap ∧ 2 ∈ storedSnap.stored ∧
    2 ∉ (snap0 0).stored ∧ ({ three with snap := some (snap0 0) }).isLead = true ∧ ({ three with snap := some (snap0 0) }).linksDown 2 = true ∧
    ({ three with snap := some (snap0 0) }).mostly [1] = true := by decide +kernel

/-! ### The host -/

/-- The attached gateway with its rings on, of 16 entries. -/
def rings : State := ((window1.wr .hostCqCfg 0 0 0x324).wr .hostSqCfg 0 0 0x24).wr .hostEvqCfg 0 0 0x24
theorem test_wit_completion : rings.attached = true ∧ rings.host.held = [] ∧ rings.ringRoom (cqRegs 0) = true ∧
    (rings.wr .hostCqHead 0 0 1).ringRoom (cqRegs 0) = false ∧ ((rings.wr .hostCqTail 0 0 15).ringRoom (cqRegs 0)) = false := by decide +kernel
theorem test_wit_sq_tail : (rings.rd .hostSqCfg 0 0).testBit 5 = true ∧ 15 < rings.ringEntries .hostSqCfg 0 ∧ rings.hub.h1Down = false ∧
    rings.rdF .hostSqHead 0 0 0 16 % rings.ringEntries .hostSqCfg 0 ≠ 15 ∧ 0x81 ≤ dfld 0x83 0 0 8 ∧ rings.ringEntries .hostSqCfg 0 ≤ 16 ∧
    (rings.rd .hostSqCfg 0 15).testBit 5 = false ∧ rings.attached = true ∧ rings.hub.h1Down = false := by decide +kernel
/-- The same with the host away, and with H1 down. -/
def ringsOff : State := rings.wrF .hostSession 0 0 0 2 1
def ringsDown : State := { rings with hub := { rings.hub with h1Down := true } }
theorem test_wit_sq_tail_waits : (ringsOff.rd .hostSqCfg 0 0).testBit 5 = true ∧ 15 < ringsOff.ringEntries .hostSqCfg 0 ∧ ringsOff.attached = false ∧
    (ringsDown.rd .hostSqCfg 0 0).testBit 5 = true ∧ 15 < ringsDown.ringEntries .hostSqCfg 0 ∧ ringsDown.hub.h1Down = true := by decide +kernel
theorem test_wit_heads : ∀ r ∈ [cqRegs 0, evqRegs], ((rings.wr r.tail 0 r.ix 15).rd r.cfg 0 r.ix).testBit 5 = true ∧
    15 < (rings.wr r.tail 0 r.ix 15).ringEntries r.cfg r.ix ∧
    ringUsed ((rings.wr r.tail 0 r.ix 15).ringEntries r.cfg r.ix) ((rings.wr r.tail 0 r.ix 15).rdF r.head 0 r.ix 0 16) 15
      ≤ ringUsed ((rings.wr r.tail 0 r.ix 15).ringEntries r.cfg r.ix) ((rings.wr r.tail 0 r.ix 15).rdF r.head 0 r.ix 0 16)
        ((rings.wr r.tail 0 r.ix 15).rdF r.tail 0 r.ix 0 16) := by decide +kernel
theorem test_wit_win_cfg : (rings.rd .hostWinCfg 0 63).testBit 0 = false ∧ (rings.rd .hostWinCfg 0 1).testBit 0 = true ∧ rings.session ≠ 1 := by
  decide +kernel
theorem test_wit_ring_cfg : ∀ k ∈ [0, 1, 2], (rings.rd (ringKind k 0).1 0 (ringKind k 0).2.2.2.2).testBit 5 = true ∧
    (window1.rd (ringKind k 0).1 0 (ringKind k 0).2.2.2.2).testBit 5 = false := by decide +kernel
/-- The step gateway, sealed, with a STEP job. -/
def stepRaw (n : Nat) : Nat := 0x80 + fld 20 n + fld 24 0x10000
def stepping (s : State) (raw : Nat) : State := (jobbed s raw).updHost (fun h => { h with stepGw := some 0 })
theorem test_wit_step : StepTake (stepping window1 (stepRaw 0)) (hjob (stepRaw 0)) ∧ (stepping window1 (stepRaw 0)).stepCheck (stepRaw 0) = none ∧
    (stepping window1 (stepRaw 1)).stepCheck (stepRaw 1) = none ∧ (stepping window1 (stepRaw 0)).img.packages = [(stepping window1 (stepRaw 0)).pkg] ∧
    (stepping window1 (stepRaw 0)).workers = [0] ∧ (stepping window1 (stepRaw 0)).home 0 = 0 ∧ SigOk (stepping window1 (stepRaw 0)) 0 160 ∧
    StepTake (stepping window1 (stepRaw 1)) (hjob (stepRaw 1)) ∧ dfld (stepRaw 1) 20 0 32 ≠ 0 ∧ dfld (stepRaw 0) 20 0 32 = 0 ∧
    (stepping window1 (stepRaw 0)).jobOpenTo 3 0 = false := by decide +kernel
theorem test_wit_step_refused : StepTake (stepping plain1 (stepRaw 0)) (hjob (stepRaw 0)) ∧ (stepping plain1 (stepRaw 0)).stepCheck (stepRaw 0) = some (0x47, 0) := by
  decide +kernel
theorem test_wit_step_waits : ((stepping window1 (stepRaw 0)).updHost (fun h => { h with holder := some 1 })).waitsHolder = true ∧
    (stepping (window1.wrF .hubImageStatus 0 0 0 3 4) (stepRaw 0)).imageState = 4 ∧
    (stepping (window1.wrF .hubImageStatus 0 0 0 3 5) (stepRaw 0)).imageState = 5 ∧ window1.img.point = false ∧
    (withStaged (stepping window1 (stepRaw 0)) (stagedAt 0 false)).loading = true ∧ (stepping window1 (stepRaw 0)).host.step = none ∧
    (stepping window1 (stepRaw 0)).host.jobs.find? (fun j => dfld j.raw 0 0 8 == jobStep) = some (hjob (stepRaw 0)) := by decide +kernel
/-- COPY jobs of `n` lines between the window's start and line 5 of core 0's vault, and of a place that is none. -/
def copyRaw (op n : Nat) : Nat := op + fld 8 0x10000 + fld 16 640 + fld 24 n
/-- A COPY job at a device address that is none. -/
def badRaw (op : Nat) : Nat := copyRaw op 1 + fld 16 (15 * 2 ^ 46)
def copyOn (raw : Nat) : State := jobbed window1 raw
theorem test_wit_copy_in : (∀ raw ∈ [copyRaw 0x83 1, copyRaw 0x83 0, badRaw 0x83], (copyOn raw).nextJob 0x83 = some (hjob raw) ∧
      (copyOn raw).attached = true ∧ (copyOn raw).hub.h1Down = false) ∧ copyLines (copyRaw 0x83 1) = 1 ∧
    (copyOn (copyRaw 0x83 1)).copyCheck (copyRaw 0x83 1) 2 = .ok 640 ∧ copyLines (copyRaw 0x83 0) = 0 ∧ copyLines (badRaw 0x83) = 1 ∧
    (copyOn (badRaw 0x83)).copyCheck (badRaw 0x83) 2 = .error stInvalid := by decide +kernel
theorem test_wit_copy_out_ends : (∀ raw ∈ [copyRaw 0x84 0, badRaw 0x84],
      (copyOn raw).host.jobs.find? (fun j => dfld j.raw 0 0 8 == 0x84) = some (hjob raw) ∧ (copyOn raw).hub.h1Down = false) ∧
    copyLines (copyRaw 0x84 0) = 0 ∧ copyLines (badRaw 0x84) = 1 ∧ (copyOn (badRaw 0x84)).copyCheck (badRaw 0x84) 1 = .error stInvalid := by
  decide +kernel
theorem test_wit_copy_out : (jobbed window1 (copyRaw 0x84 1)).hostJob 3 = some (hjob (copyRaw 0x84 1)) ∧
    (jobbed window1 (copyRaw 0x84 1)).host.jobs.find? (fun j => dfld j.raw 0 0 8 == 0x84) = some (hjob (copyRaw 0x84 1)) ∧
    copyLines (copyRaw 0x84 1) = 1 ∧ (jobbed window1 (copyRaw 0x84 1)).attached = true ∧ (jobbed window1 (copyRaw 0x84 1)).hub.h1Down = false ∧
    addrPkg 640 = (jobbed window1 (copyRaw 0x84 1)).pkg ∧ (jobbed window1 (copyRaw 0x84 1)).host.reads = [] ∧
    (jobbed window1 (copyRaw 0x84 1)).copyCheck (copyRaw 0x84 1) 1 = .ok 640 ∧
    LinesClear (jobbed window1 (copyRaw 0x84 1)) (jobUnit 3) ((jobbed window1 (copyRaw 0x84 1)).linesOf 640 (128 * 1)) ∧
    (jobbed window1 (copyRaw 0x84 1)).winFor 0x10000 128 1 = some 1 ∧ (window1.winOf 1).2.testBit 3 = false ∧
    (jobbed window1 (copyRaw 0x84 1)).winOk 1 0 128 1 = true ∧ (jobbed window1 (copyRaw 0x84 1)).jobOpen 3 = false := by decide +kernel
/-- A STEP job in progress for step 7. -/
def stepJob7 : StepJob := ⟨0, 0x80 + fld 8 7, 3, true, [], 0, 0, true, [0]⟩
def posting (j : Option StepJob) (g : Option Nat) : State := window1.updHost (fun h => { h with step := j, holder := g })
theorem test_wit_cq_post : (posting (some stepJob7) none).gateway.isSome = true ∧ (posting (some stepJob7) none).host.step = some stepJob7 ∧
    dfld stepJob7.raw 8 0 48 = bitsOf 7 0 48 ∧ dfld stepJob7.raw 8 0 48 ≠ bitsOf 8 0 48 ∧ bitsOf 7 56 8 = 0 ∧ bitsOf 8 56 8 = 0 ∧
    (posting none none).host.step = none ∧ (posting none none).host.holder = none ∧ (posting none (some 0)).host.holder = some 0 ∧
    (posting none (some 0)).img.gateways.find? (fun x => x.2 == 0) = some (0, 0) ∧
    bitsOf (7 + 2 ^ 56) 56 8 = 1 ∧ bitsOf (7 + 2 ^ 57) 56 8 = 2 ∧ bitsOf (2 ^ 64 - 1) 56 8 = 255 ∧ window1.gateway.isSome = true := by decide +kernel
theorem test_wit_post_open : window1.postWaits = false := by decide +kernel
/-- The host is away and the spool's completion area is full. -/
def spooled (n : Nat) : State := sealedOn.updHost (fun h => { h with held := [⟨.cq 0, List.replicate n 0, [], false, true, false⟩] })
def spoolFull : State := spooled (3 * 2 ^ 20)
theorem test_lem_spooled (n : Nat) : (spooled n).heldBytes = n := by simp [State.heldBytes, spooled, State.updHost]
theorem test_wit_post_waits : spoolFull.postWaits = true ∧ spoolFull.gateway.isSome = true := by
  have g : spoolFull.gateway.isSome = true := by decide +kernel
  have a : spoolFull.attached = false := by decide +kernel
  have h : spoolFull.heldBytes = 3 * 2 ^ 20 := test_lem_spooled _
  exact ⟨by simp [State.postWaits, g, a, h], g⟩
/-- The step gateway has a STEP job in progress. -/
def stepGwBusy : State := window1.updHost (fun h => { h with step := some stepJob7, stepGw := some 0 })
theorem test_wit_step_gateway_stays : stepGwBusy.gateway = some 0 ∧ stepGwBusy.host.stepGw = some 0 ∧ 0 ∈ attachedGateways stepGwBusy 0 [] ∧
    stepGwBusy.host.step.isSome = true := by decide +kernel
theorem test_wit_step_gateway : window1.gateway = some 0 ∧ attachedGateways window1 0 [] = [0] ∧ attachedGateways sealedOn 0 [] = [] := by decide +kernel
/-- Gateway 1 of package 1 holds the STEP job, and its package is lost; the partition has not stopped, or has. -/
def lostHolder (stop : Bool) : State := { posting none (some 1) with
  img := { oneRank with packages := [0, 1], gateways := [(0, 0), (1, 1)], lost := [1] }, runStop := stop }
theorem test_wit_holder_lost : HolderLost (lostHolder false) 1 ∧ ¬ HolderLost (lostHolder true) 1 ∧ (lostHolder false).host.holder = some 1 ∧
    (lostHolder false).gateway = some 0 ∧ (lostHolder true).gateway = some 0 ∧ (lostHolder true).host.step = none ∧
    stepGwBusy.host.holder = none := by decide +kernel
/-- Writes in doubt and reads of every kind. -/
def wr1 : HostWr := ⟨5, 1, 0, [1], 0, false, false, false⟩
def rdOf (k : RdKind) : HostRd := ⟨6, k, 0x10000, 128, 640, 0, 5, false⟩
def doubting (k : List RdKind) : State := window1.updHost (fun h => { h with serial := 6, doubt := [wr1], reads := k.map rdOf })
theorem test_wit_probe : (doubting []).attached = true ∧ (doubting []).host.doubt ≠ [] ∧
    (doubting []).host.reads.all (fun r => decide (r.upto < (doubting []).host.doubt.foldl (fun m w => max m w.serial) 0)) = true := by decide +kernel
theorem test_wit_reads : ∀ k ∈ [RdKind.probe, .flush (localSrc 0) 7 0 0, .rsp (localSrc 0) 7 0, .copyIn 3, .list],
    (doubting [k]).hostRd 6 = some (rdOf k) ∧ (doubting [k]).session ≠ 1 ∧ (rdOf k).retried = false := by decide +kernel
/-- A reattach in progress, a STEP job that waits for its list, and reads that have been sent twice. -/
def reattaching : State := (doubting [.attach]).wrF .hostSession 0 0 0 2 2
def listing : State := (doubting [.list]).updHost (fun h => { h with step := some stepJob7 })
def again (k : RdKind) : State := window1.updHost (fun h => { h with reads := [{ rdOf k with retried := true }] })
theorem test_wit_reads_end : reattaching.hostRd 6 = some (rdOf .attach) ∧ reattaching.session = 2 ∧ listing.hostRd 6 = some (rdOf .list) ∧
    listing.session ≠ 1 ∧ listing.host.step = some stepJob7 ∧ (rdOf .list).left = 128 ∧ addrPkg (rdOf (.copyIn 3)).dst = (doubting [.copyIn 3]).pkg ∧
    ∀ k ∈ [RdKind.copyIn 3, .rsp (localSrc 0) 7 0], (again k).hostRd 6 = some { rdOf k with retried := true } := by decide +kernel
theorem test_wit_detach : window1.session ≠ 1 ∧ sealedOn.session = 1 ∧ 0 = sealedOn.rdF .hostSession 0 0 32 16 ∧
    2 ^ 16 - 1 ≠ sealedOn.rdF .hostSession 0 0 32 16 := by decide +kernel

/-! ### Faults, refill, checkpoints -/

/-- A record of a class, with the core it concerns. -/
def recOf (k : FaultKind) (cls : Nat) (c : Option Nat) : FaultRec := ⟨k, cls, false, 0, 1, 0, 0, 0, .gen 0 0 0 0 0 0, c⟩
def incoming (r : FaultRec) : State := { on with fltIn := [r] }
/-- A queue without room for NOTE records. -/
def fullOf (k : FaultKind) : List FltEntry := List.replicate 64 ⟨recOf k 0 none, false, true⟩
theorem test_wit_fault_record : ∀ r ∈ [recOf .vltTransient 0 none, recOf .coreHang 2 (some 0), recOf .pwrBrownout 3 none],
    RecordOk (incoming r) r [] ∧ (incoming r).fltRoom r.cls = true ∧ ((incoming r).core 0).fence = .none ∧
    (r.cls = 2 ∨ (incoming r).escalates r = none) := by decide +kernel
def note : FaultRec := recOf .vltTransient 0 none
def crowded (k : FaultKind) : State := { incoming note with fltq := fullOf k }
theorem test_wit_fault_full : ∀ k ∈ [FaultKind.vltTransient, .vltHot], RecordOk (crowded k) note [] ∧ (crowded k).fltRoom 0 = false ∧
    (crowded k).fltq.any (fun e => e.record.kind == note.kind && e.record.island == note.island && e.record.cls == 0)
      = decide (k = .vltTransient) := by decide +kernel
/-- A fault of class STEP of core 0, and one that waits for the restore generation. -/
def stepFault : FaultRec := recOf .vltLasting 1 (some 0)
def lateFault : FaultRec := recOf .stgCeRepeat 1 (some 0)
/-- The handling window of a first fault of core 0 is open. -/
def secondFault : State := { incoming stepFault with fltq := [⟨stepFault, true, true⟩] }
theorem test_wit_second_fault : RecordOk secondFault stepFault [] ∧ secondFault.fltRoom 1 = true ∧
    secondFault.fltq.any (fun e => e.openWin && e.record.core == stepFault.core) = true ∧ (secondFault.core 0).fence = .none := by decide +kernel
/-- The generation for which a record waits has come. -/
def lateDue : State := { derived with flt := { derived.flt with later := [⟨lateFault, 2, 0, []⟩] } }
theorem test_wit_record_waits : (incoming lateFault).flt.later.find? (incoming lateFault).genAfter = none ∧ (incoming lateFault).fltIn = [lateFault] ∧
    lateFault.waits = true ∧ (incoming lateFault).fltRoom lateFault.cls = true ∧
    (incoming lateFault).fltq.any (fun e => e.openWin && e.record.core == lateFault.core) = false ∧
    lateDue.flt.later.find? lateDue.genAfter = some ⟨lateFault, 2, 0, []⟩ ∧ (lateDue.core 0).fence = .none := by decide +kernel
/-- Another hub's record: of class PACKAGE, and of a mismatch after a restore, here with an older checkpoint to follow. -/
def remoteRec (k : FaultKind) : List Nat := (recOf k 3 none).bytes 1
theorem test_wit_remote_record : (remoteRec .pwrBrownout).length = 64 ∧ (remoteRec .fltRestoreMismatch).length = 64 ∧
    leNat ((remoteRec .pwrBrownout).take 2) ≠ FaultKind.code .fltRestoreMismatch ∧
    leNat ((remoteRec .fltRestoreMismatch).take 2) = FaultKind.code .fltRestoreMismatch ∧ 2 ≤ durable.flt.ckpts.length ∧
    on.flt.ckpts.length < 2 := by decide +kernel
theorem test_wit_hub_messages : ({ three with snap := some storedSnap }).snap = some storedSnap ∧
    (window1.wrF .hubImageStatus 0 0 0 3 5).imageState = 5 := by decide +kernel
/-- Core 127 on its way to Dark. -/
def fencing1 : State := on.updCore 127 (fun c => { c with fence := .fencing })
theorem test_wit_dark : Boltable fencing1 127 ∧ fencing1.passing 127 = false ∧ fencing1.flt.waitAdopt = [] := by decide +kernel
/-- Core 0 is SUSPECT, with a pass in progress or not; it waits for its adopter, core 1 being the reserve or none. -/
def suspect0 : State := sealedOn.updCore 0 (fun c => { c with fence := .suspect })
def adoptable (n : Nat) : State := { suspect0 with img := { oneRank with adopt := [1], reserved := n }, flt := { on.flt with waitAdopt := [0] } }
theorem test_wit_dark_adopts : Boltable suspect0 0 ∧ Boltable (withPass suspect0) 0 ∧ (withPass suspect0).passing 0 = true ∧
    (∀ n ∈ [0, 1], Boltable (adoptable n) 0 ∧ (adoptable n).passing 0 = false ∧ (adoptable n).flt.adopting = none ∧
      (adoptable n).flt.waitAdopt = [0]) ∧ (adoptable 1).chooseAdopter 0 = some 1 ∧ (adoptable 0).chooseAdopter 0 = none ∧
    (adoptable 1).img.shards = [] ∧ (adoptable 1).flt.ownBad.contains (((adoptable 1).core 0).adopts.getD 0) = false := by decide +kernel
/-- Core 1 adopts core 0; a stream window fills a slot of core 0's vault, or none does. -/
def adopting1 (f : Bool) : State := { (windowed f) with flt := { on.flt with adopting := some (0, 1) } }
theorem test_wit_refill : (adopting1 true).flt.adopting = some (0, 1) ∧
    (adopting1 true).tier.wins.any (fun w => w.filling && w.fillHome == ((adopting1 true).core 1).adopts.getD 0) = true ∧
    (adopting1 false).flt.adopting = some (0, 1) ∧
    (adopting1 false).tier.wins.any (fun w => w.filling && w.fillHome == ((adopting1 false).core 1).adopts.getD 0) = false ∧
    (adopting1 false).flt.waitAdopt = [] ∧ (adopting1 false).flt.repairs = [] ∧ (adopting1 false).flt.gone = [] ∧
    ({ (adopting1 false).flt with repairs := [(1, 0, 0, 0)] }).repairs.any (fun r => r.1 == 1) = true ∧
    ({ on with flt := { on.flt with adopting := some (0, 1) } }).tier.objs = [] ∧
    on.tier.wins.all (fun w => w.fillHome != ((on.core 1).adopts.getD 0)) = true ∧
    (adopting1 false).flt.loads.contains 1 = false ∧ SavesOk [save0 1] := by decide +kernel
/-- Checkpoints on, every step; the only working core has its start save. -/
def ckpting : State := { starting.wrF .hubImageStatus 0 0 21 1 1 with saves := [save0 1], img := { oneRank with ckptInt := 1 } }
/-- A snapshot of step 7 is not yet durable. -/
def snapping : State := { ckpting with snap := some (snap0 7) }
theorem test_wit_epoch : ckpting.snap = none ∧ ckpting.epochDue = some 0 ∧ on.snap = none ∧ on.epochDue = none ∧
    snapping.snap = some (snap0 7) ∧ snapping.epochDue = some 0 ∧ 0 % snapping.img.ckptInt = 0 ∧ snapping.flt.defer ≠ some 0 := by
  decide +kernel
theorem test_wit_epoch_lines : LinesClear ckpting hubIsland (ckpting.workers.flatMap ckpting.mapLines) ∧ ckpting.workers.flatMap ckpting.snapMarks = [] :=
  ⟨test_lem_clear _ _ _ rfl (by decide +kernel), by decide +kernel⟩
/-- A snapshot with page 5 of vault 0 to be streamed. -/
def streaming : State := { on with snap := some { snap0 7 with guarded := [(0, 5)] } }
theorem test_wit_streaming : streaming.epochDue = none ∧
    streaming.streamPick { snap0 7 with guarded := [(0, 5)], stored := ([] ++ []).eraseDups } = some (0, 5, 5) := by decide +kernel
theorem test_wit_streaming_lines : LinesClear streaming hubIsland ((List.range (2 ^ 14)).map (fun i => (0, 5 * 2 ^ 14 + i))) := by
  have f : (on.rawAt 0).poison = false := by decide +kernel
  refine List.all_eq_true.mpr (fun p hp => ?_)
  obtain ⟨i, _, rfl⟩ := List.mem_map.mp hp
  have r := test_lem_ready streaming hubIsland 0 (5 * 2 ^ 14 + i) rfl rfl rfl (by decide +kernel) rfl rfl (by decide +kernel)
  have k : streaming.rawLine 0 (5 * 2 ^ 14 + i) = on.rawAt 0 := test_lem_fresh streaming rfl _ (test_lem_key streaming 0 _)
  have d : streaming.deliveredTo hubIsland (0, 5 * 2 ^ 14 + i) = none := rfl
  rw [r, k, f, d]
  rfl
/-- A checkpoint that is being restored. -/
def restoring : State := { (sealedOn.restoreStatus 0 3 1) with flt := { on.flt with ckpts := [⟨4, 9, [], []⟩] } }
theorem test_wit_readback : restoring.flt.ckpts = [⟨4, 9, [], []⟩] ∧ restoring.rdF .hubRestoreStatus 0 0 48 2 = 3 ∧ restoring.restorePhase = 1 ∧
    restoring.anyPassing = false ∧ restoring.readingBack = false ∧ (withTxn restoring (txn0 (.ckptRead 0 5) 1 0)).readingBack = true ∧
    (withTxn restoring (txn0 (.ckptRead 0 5) 1 0)).restorePhase = 1 := by decide +kernel
theorem test_wit_h1 : ({ on with hub := { on.hub with h1Down := true } }).hub.h1Down = true ∧ on.host.queued = [] ∧ window1.hub.h1Down = false ∧
    on.hub.h1Down = false ∧ window1.img.staged = none ∧ window1.hosted = true ∧ window1.attached = true ∧ window1.pwrState ≠ 0 ∧
    window1.ward.d3 = false ∧ (State.reset.wr .pwrStatus 0 0 0).pwrState = 0 := by decide +kernel

/-! ### Signed objects. A signature whose number is the digest itself, under a key chosen for it: both scalars of the check are 1 -/

/-- A command block (R424) without its signature. -/
def blkBody (code slot nonce : Nat) (payload : List Nat) : List Nat :=
  leBytes 2 code ++ [slot, 0] ++ leBytes 4 payload.length ++ List.replicate 32 0 ++ leBytes 16 nonce ++ List.replicate 8 0 ++ payload
def selfSigned (b : List Nat) : List Nat := b ++ sha256 b ++ sha256 b
/-- A ward whose field slot 9 holds a key, in a lifecycle state, with an outstanding nonce. -/
def keyedWard (life slot key nonce : Nat) (s : State) : State :=
  { (s.wrF .wardLifecycle 0 0 0 6 life) with ward := { Ward.reset with slots := [(slot, key)], nonce := some nonce } }
/-- R422, R423, R427: RETURN and OPEN_D2 by the operator's key of slot 9; SVN_COMMIT and OPEN_D3 unsigned. -/
theorem test_wit_return : WardOk (keyedWard 2 9 0x395764b5aaa0279b9b07a6148475992bb4e2328b158e89a90590063c48c16ec92d43da27d5dd9539f0f1ce1586c1bad0fd89da0d5175496a09954b33093150e4 1 on) 3
    (selfSigned (blkBody 3 9 1 [])) := by decide +kernel
theorem test_wit_open_d2 : WardOk (keyedWard 2 9 0x269841795748efe7e5e9e2c7a951f4ffecf27e0cbf9005430fe48ef6757d6087d59df72369fff583459771967f4ec79fab56c63188735c800ca8b18ada0af49c 0 on) 0x10
    (selfSigned (blkBody 0x10 9 0 [15, 0, 0, 0, 0, 0, 0, 0])) := by decide +kernel
theorem test_wit_unsigned : WardOk (keyedWard 2 9 1 5 on) 6 (blkBody 6 0xFF 5 []) ∧
    WardOk (keyedWard 0 9 1 5 State.reset) 0x11 (blkBody 0x11 0xFF 5 []) ∧
    WardOk (keyedWard (3 + 16) 9 1 5 State.reset) 0x11 (blkBody 0x11 0xFF 5 []) := by decide +kernel
/-- The commands that Vymal's slots sign: their keys are open in the model (log entry 2), so the witness names the key. -/
def vymalOk (life slot code nonce key : Nat) (payload : List Nat) : Prop :=
  (wardBlk (selfSigned (blkBody code slot nonce payload))).code = code ∧
  (keyedWard life 9 1 nonce on).wardUp = true ∧ (keyedWard life 9 1 nonce on).wardAllows code = resOk ∧
  (keyedWard life 9 1 nonce on).signer code = slot ∧ wardLenOk code payload.length = true ∧
  ecdsaVerify (key / 2 ^ 256) (key % 2 ^ 256) (beNat (sha256 (blkBody code slot nonce payload)))
    (beNat (sha256 (blkBody code slot nonce payload))) (beNat (sha256 (blkBody code slot nonce payload))) = true
theorem test_wit_vymal_signed :
    vymalOk 0 1 1 1 0x2dac6e44ee98efd394495451e29d648deee5e2a5595c6f8efeaf956b888690860085c729b9d58442c9820499988b63f173046f7d4dffe73fbaabae41f9192eda [] ∧
    vymalOk 1 1 2 1 0x4807a80dde9218deebd87bdd5227c4d04b626fc9f143f7a0b6f726eec5a99ba2b1d62353f0699c15126dd483086e43b5937176fae65bcf2b221cb600104ef01c (List.replicate 8 1) ∧
    vymalOk 3 4 4 0 0x9299889e1696d44539e897071a96ee25c0696cbbb5ca054d7327380bf99665d9ff73a259094eaa6965271a78976dd5eb5385994a0b85aa7d1050a6c30240dfea [] ∧
    vymalOk (3 + 32) 1 5 0 0xe9ef348896da6d7c866f2983eca1ae9dd4cded8f189256801d015cc26ce9ac9d01b03576f23fc0d29c77b36e339851c55d829a0d436a981eab5d9db3c76a52d5 [] := by
  unfold vymalOk; decide +kernel
theorem test_wit_ward_refused : ∀ c ∈ [1, 2, 3, 4, 5, 6, 0x10, 0x11], State.reset.wardUp = true ∧ (wardBlk (blkBody c 0 0 [])).code = c ∧
    (State.reset.wardCheck (blkBody c 0 0 [])).2 ≠ 0 := by decide +kernel

/-- A structure image of package 0: its domain table, one rank and the adoption order. -/
def goodSecs : List (List Nat) := [List.replicate 64 0, List.replicate 64 0, (List.range 128).reverse]
def goodDir (typ : Nat) (b : List Nat) : List Nat :=
  leBytes 2 typ ++ [0xFF, 0, 0, 0, 0, 0] ++ leBytes 8 0 ++ leBytes 8 b.length ++ leBytes 8 0 ++ sha256 b
def goodHead : List Nat :=
  leBytes 4 0x4953584B ++ leBytes 2 1 ++ leBytes 2 0 ++ leBytes 8 2 ++ leBytes 8 1024 ++ [1, 0] ++ leBytes 2 3 ++ List.replicate 24 0
    ++ leBytes 2 1 ++ [1, 0] ++ List.replicate 200 0 ++ goodDir 1 (List.replicate 64 0) ++ goodDir 2 (List.replicate 64 0)
    ++ goodDir 0x15 (List.range 128).reverse
def goodImage : List Nat := goodHead ++ [5] ++ List.replicate 31 0 ++ sha256 goodHead ++ sha256 goodHead
/-- The key that signs it, in slot 5 of a part in the field (R422). -/
def trusting (s : State) : State := keyedWard 2 5 0x51f545e684723360a7c2da1a3a1ec655b69dc9c5defb1bf6c4fe13f1a58ec29b06568dce6ee234be29c42899ea53e98d17737df7d2279f76079672b07c69fe7e 0 s
theorem test_wit_image_verifies : (trusting plain1).verify 5 (sha256 goodHead) (beNat (sha256 goodHead)) (beNat (sha256 goodHead))
    = ((trusting plain1).bump .wardVerifyCnt 0 1, 0) := by decide +kernel
theorem test_wit_image_good : ((trusting plain1).checkImage goodImage goodSecs (imgDigest goodImage)).2 = 0 ∧
    (trusting plain1).pwrState = 3 ∧ (trusting plain1).loading = false ∧ (trusting plain1).isSealed = false := by decide +kernel
def goodRaw : Nat := loadRaw + fld 16 1024
theorem test_wit_load_good : LoadOk (jobbed (trusting plain1) goodRaw) (hjob goodRaw) ∧ (jobbed (trusting plain1) goodRaw).isSealed = false ∧
    dfld goodRaw 16 0 64 = secNat goodImage 16 8 ∧ verdict (jobbed (trusting plain1) goodRaw) (hjob goodRaw) goodImage goodSecs = 0 := by decide +kernel
/-- The partition is at its quiesce point, and the job was held until then; or it comes now. -/
def atPoint (h : Option (Nat × Nat)) : State :=
  let s := jobbed (trusting (window1.wrF .hubImageStatus 0 0 0 3 5)) goodRaw
  { s with img := { s.img with point := true, held := h } }
theorem test_wit_load_held : (atPoint (some (0, 3))).atQuiesce = true ∧ (atPoint (some (0, 3))).hub.h1Down = false ∧
    (atPoint (some (0, 3))).pwrState = 3 ∧ (atPoint (some (0, 3))).img.staged = none ∧ (atPoint (some (0, 3))).hostJob 3 = some (hjob goodRaw) ∧
    (hjob goodRaw).ring = 0 ∧ LoadOk (atPoint none) (hjob goodRaw) ∧ (atPoint none).isSealed = true ∧ (atPoint none).atQuiesce = true := by
  decide +kernel
theorem test_wit_load_held_good : ((atPoint (some (0, 3))).checkImage goodImage goodSecs (imgDigest goodImage)).2 = 0 := by decide +kernel
theorem test_wit_load_point_bad : verdict (atPoint none) (hjob goodRaw) [] [] ≠ 0 := by decide +kernel

/-- A gateway with endpoint IDs 9 and 8. -/
def managed : State := attachedOn.wr .hubMctpEid 0 0 0x0809

/-! ### Debug -/

/-- The ward has a block in hand. -/
def wardBusy : State := { managed with ward := { Ward.reset with block := some (blkBody 1 0 0 []) } }
theorem test_wit_ward_busy : wardBusy.wardUp = true ∧ wardBusy.ward.block.isSome = true ∧ wardBusy.ward.block ≠ none ∧
    (∀ b ∈ [0, 1], VdmOk wardBusy b) ∧ ∀ c ∈ [1, 2, 3, 4, 5, 6, 0x10, 0x11], (wardBlk (blkBody c 0 0 [])).code = c := by decide +kernel
theorem test_wit_ward_up : State.reset.wardUp = true ∧ State.reset.ward.rngBad = false ∧ State.reset.ward.block = none ∧
    ({ on with ward := { Ward.reset with rngBad := true } }).wardUp = true := by decide +kernel
/-- An open D2 session of full scope in which cores 0 and 127 are halted. -/
def session2 : State := (((on.wrF .wardDebugStatus 0 0 0 8 0xF6).updCore 0 (fun c => { c with halted := true })).updCore 127
  (fun c => { c with halted := true }))
theorem test_wit_close : session2.d2Open = true ∧ on.d2Open = false ∧ session2.dbgLevel = 2 ∧ on.dbgLevel ≤ 1 := by decide +kernel
theorem test_wit_debug_run : session2.scope 0 = true ∧ session2.running 1 = true ∧ (session2.core 127).halted = true ∧
    session2.running 127 = true ∧ (session2.core 127).closingPending = false ∧
    LinesClear session2 127 (session2.entryLines 127 (session2.rdF .synSqBase 127 0 6 50 * 64 + 64 * (session2.core 127).pos)) ∧
    ((session2.core 127).stream (nextEntry session2 127).stream).length < 8 := by decide +kernel
theorem test_wit_debug_reg : session2.scope 1 = true ∧ (session2.core 0).halted = true ∧ session2.running 0 = true ∧
    8 ≤ stgBytes ∧ regSlot (Reg.offset .hngCtl 0 0 / 8 * 8) = some (.hngCtl, 0, 0) ∧ debugWritable 0 (.hngCtl, 0, 0) = true := by
  decide +kernel
theorem test_wit_debug_vault : session2.active 127 = true ∧ session2.locked 127 (2 ^ 26 - 1) = false ∧
    session2.busyBank 127 (2 ^ 26 - 1) = none ∧ session2.scope 2 = true ∧ session2.flipArmed 127 (2 ^ 26 - 1) 1 = false ∧
    ((session2.rawLine 127 (2 ^ 26 - 1)).flip []).ok = true ∧ ((session2.rawLine 127 (2 ^ 26 - 1)).flip []).poison = false ∧
    session2.scope 3 = true ∧ (session2.core 127).halted = true ∧ WriteFree session2 127 (2 ^ 26 - 1) ∧
    session2.flipArmed 127 (2 ^ 26 - 1) 0 = false := by decide +kernel
theorem test_wit_scans : State.reset.pwrState = 1 ∧ State.reset.dbgLevel ≤ 1 ∧ on.wardUp = true ∧ on.pwrState ≠ 1 ∧
    on.ward.d3 = false ∧ ({ State.reset with ward := { Ward.reset with d3 := true } }).wardUp = true := by decide +kernel

/-! ### Power -/

/-- Standby with the chain done, Hold, and a package that waits for its quiesce point with `p` pending. -/
def standby : State := State.reset.wrF .hubResetStatus 0 0 14 5 8
def held : State := State.reset.wr .pwrStatus 0 0 2
def waiting (p : Nat) : State := on.wr .pwrStatus 0 0 (3 + p * 8 + 64)
theorem test_wit_power_run : standby.pwrState = 1 ∧ standby.booting = false ∧ standby.boot.recovery = false ∧
    State.reset.pwrState = 1 ∧ State.reset.booting = true ∧
    ({ standby with boot := { BootSt.reset with recovery := true } }).booting = false ∧
    ({ standby with boot := { BootSt.reset with recovery := true } }).pwrState = 1 ∧ held.pwrState = 2 ∧ on.pwrState = 3 := by decide +kernel
theorem test_wit_hold_entry : ∀ p ∈ [2, 3], (waiting p).pwrState = 3 ∧ pend (waiting p) = (p, 1) ∧ (waiting p).quiesced = true := by
  decide +kernel
theorem test_wit_standby : sealedOn.pwrState = 3 ∧ sealedOn.isSealed = true ∧ ({ held with img := oneRank }).pwrState = 2 ∧
    ({ held with img := oneRank }).isSealed = true ∧ held.isSealed = false ∧ on.isSealed = false := by decide +kernel
theorem test_wit_off : (State.reset.wr .pwrStatus 0 0 0).pwrState = 0 ∧ State.reset.pwrState ≠ 0 := by decide +kernel
theorem test_wit_brownout : on.pwr.brown = none ∧
    ({ on with pwr := { on.pwr with brown := some (on.caps, 0, 100) } }).pwr.brown = some (on.caps, 0, 100) := by decide +kernel
theorem test_wit_converter : (on.rd .pwrConvStatus 0 0).testBit 5 = true ∧ on.inService = 6 ∧
    ((on.wr .pwrConvStatus 0 0 0x3E).rd .pwrConvStatus 0 0).testBit 5 = true ∧ (on.wr .pwrConvStatus 0 0 0x3E).inService = 5 ∧
    ((on.wr .pwrConvStatus 0 0 0x3C).rd .pwrConvStatus 0 0).testBit 5 = true ∧ (on.wr .pwrConvStatus 0 0 0x3C).inService ≤ 4 := by decide +kernel
theorem test_wit_pwr_limit : clampTo 1000 (if on.inService ≤ 4 then 2240 else 2800) (bitsOf 999 0 16) = (1000, 1) ∧
    clampTo 1000 (if on.inService ≤ 4 then 2240 else 2800) (bitsOf 2800 0 16) = (2800, 0) := by decide +kernel
theorem test_wit_grant : on.active 0 = true ∧ on.pwr.asks = [] ∧ on.grant 0 ≤ min 216 (fullGrant 0) ∧
    min 216 (fullGrant 0) ≤ on.grant 0 + (on.poolCap (islandDie 0) - on.poolIssued (islandDie 0)) ∧
    ((on.wr .pwrPool 0 0 100).grant 0 + ((on.wr .pwrPool 0 0 100).poolCap (islandDie 0) - (on.wr .pwrPool 0 0 100).poolIssued (islandDie 0))
      < min 216 (fullGrant 0)) ∧ (on.wr .pwrPool 0 0 100).pwrState = 3 ∧ (on.wr .pwrPool 0 0 100).pwr.asks = [] := by decide +kernel
theorem test_wit_power_sample : on.sustained ≤ on.peakW ∧ on.pwr.exc = [] ∧ on.pwr.capped = false ∧ on.peakW < 3301 := by decide +kernel
theorem test_wit_thermal : VaultsCool on ∧ (∀ r ∈ readings [94] [67] [(5, 0, 79)], r.2.2 < hotAt r.1) ∧ 95 ≤ [109].getD 0 0 ∧ [109].getD 0 0 < 110 ∧
    (∀ r ∈ readings [109] [67] [], r.1 ≠ 1 ∨ r.2.1 ≠ 0 → r.2.2 < hotAt r.1) ∧
    (∃ r ∈ readings [110] [] [], tripAt r.1 ≤ r.2.2) := by decide +kernel
theorem test_wit_retune : on.pwrState = 3 ∧ on.active 0 = true ∧ (128 : Nat) ≤ 135 := by decide +kernel
theorem test_wit_resets : standby.pwrState ≠ 0 ∧ standby.booting = false ∧
    ({ State.reset with boot := { BootSt.reset with recovery := true } }).boot.recovery = true ∧
    State.reset.pwrState ≠ 0 ∧ State.reset.booting = true ∧ State.reset.boot.recovery = false := by decide +kernel
/-- The boot chain at a stage, with a configuration block that passes. -/
def atStage (n : Nat) : State := State.reset.wrF .hubResetStatus 0 0 14 5 n
def ccbCrc : Nat := 1229727684
def ccbFlash : List (Nat × Nat) :=
  [(0x2000, 0x4B), (0x2001, 0x58), (0x2002, 0x43), (0x2003, 0x43)] ++
    (List.range 4).map (fun i => (0x2110 + i, (leBytes 4 ccbCrc).getD i 0))
def withCcb (s : State) : State := { s with boot := { s.boot with flash := ccbFlash } }
theorem test_wit_boot_stages : (∀ n ∈ [1, 2, 3, 4, 5, 6, 7], BootOk (atStage n) n) ∧ State.reset.boot.tried = false ∧
    ccbBad (atStage 3).ccb = some 0 ∧ BootOk (withCcb (atStage 3)) 3 := by decide +kernel
/-- A cold request waits in a warm reset; the chain has tried both sets. -/
def coldWaits : State := { State.reset with boot := { BootSt.reset with warm := true, cold := true } }
def triedBoth (n : Nat) : State := { atStage n with boot := { BootSt.reset with tried := true } }
theorem test_wit_boot_tried : coldWaits.pwrState ≠ 0 ∧ coldWaits.booting = true ∧ coldWaits.boot.recovery = false ∧ coldWaits.boot.cold = true ∧
    ∀ n ∈ [4, 5], BootOk (triedBoth n) n ∧ (triedBoth n).boot.tried = true := by decide +kernel
theorem test_crc_append (a b : List Nat) (c m n : Nat) (h1 : crcStep c a = m) (h2 : crcStep m b = n) : crcStep c (a ++ b) = n := by
  induction a generalizing c with
  | nil => subst h1; exact h2
  | cons x xs ih => exact ih _ h1
theorem test_crc_of (bs : List Nat) (n : Nat) (h : crcStep 0xFFFFFFFF bs = n) : crc32c bs = n ^^^ 0xFFFFFFFF := by
  rw [crc32c, h]
def ccbParts : List Nat := [0x4B, 0x58, 0x43, 0x43] ++ List.replicate 48 255 ++ List.replicate 44 255 ++ List.replicate 44 255
  ++ List.replicate 44 255 ++ List.replicate 44 255 ++ List.replicate 44 255
theorem test_ccb_crc : crc32c ccbParts = 3065239611 ^^^ 0xFFFFFFFF := by
  have h0 : crcStep 0xFFFFFFFF ([0x4B, 0x58, 0x43, 0x43] ++ List.replicate 48 255) = 1010471549 := by decide +kernel
  have h1 : crcStep 1010471549 (List.replicate 44 255) = 2688537312 := by decide +kernel
  have h2 : crcStep 2688537312 (List.replicate 44 255) = 4129369561 := by decide +kernel
  have h3 : crcStep 4129369561 (List.replicate 44 255) = 4013870628 := by decide +kernel
  have h4 : crcStep 4013870628 (List.replicate 44 255) = 3989769175 := by decide +kernel
  have h5 : crcStep 3989769175 (List.replicate 44 255) = 3065239611 := by decide +kernel
  exact test_crc_of _ _ (test_crc_append _ _ _ _ _ (test_crc_append _ _ _ _ _ (test_crc_append _ _ _ _ _
    (test_crc_append _ _ _ _ _ (test_crc_append _ _ _ _ _ h0 h1) h2) h3) h4) h5)
theorem test_wit_boot_ccb : ccbBad (withCcb (atStage 3)).ccb = none := by
  have h0 : leNat ((withCcb (atStage 3)).ccb.take 4) = 0x4343584B := by decide +kernel
  have h1 : (withCcb (atStage 3)).ccb.take 272 = ccbParts := by decide +kernel
  have h2 : leNat (((withCcb (atStage 3)).ccb.drop 272).take 4) = 3065239611 ^^^ 0xFFFFFFFF := by decide +kernel
  unfold ccbBad
  rw [h0, h1, h2, test_ccb_crc, if_neg (fun h => h rfl), if_neg (fun h => h rfl)]
def bringing (n : Nat) : State := { atStage n with boot := { BootSt.reset with bringup := true } }
theorem test_wit_bringup : (∀ n ∈ [8, 9, 10, 11, 12, 13, 14, 15], BringOk (bringing n) n) ∧ ((bringing 10).core 127).fence = .none ∧
    (bringing 13).ccbIsBad = false ∧ (bringing 13).tier.stopped = false ∧ ((bringing 13).wrF .hubResetStatus 0 0 5 1 1).ccbIsBad = true ∧
    BringOk ((bringing 13).wrF .hubResetStatus 0 0 5 1 1) 13 ∧ (bringing 14).boot.tested = false := by decide +kernel
/-- The vaults have been tested before. -/
def bringAgain : State := { bringing 14 with boot := { BootSt.reset with bringup := true, tested := true } }
theorem test_wit_bringup_again : BringOk bringAgain 14 ∧ bringAgain.boot.tested = true := by decide +kernel

/-! ### Management -/

/-- Its bindings are closed. -/
def closedMctp : State := managed.wr .hubMctpCtl 0 0 0
theorem test_wit_mctp : (∀ b ∈ [0, 1], MctpOk managed b true ∧ MctpOk attachedOn b true ∧ MctpOk managed b false ∧ VdmOk managed b) ∧
    MctpOk State.reset 0 true ∧ closedMctp.pwrState ≠ 0 ∧ closedMctp.mctpHas 1 = true ∧ closedMctp.mctpOpen 1 = false ∧
    attachedOn.eid 1 = 0 ∧ attachedOn.mctpHas 1 = true := by decide +kernel
def relaying (b : Nat) : State := { managed with hub := { managed.hub with relays := [(b + 1, 0, false)] } }
theorem test_wit_vdm_busy : ∀ b ∈ [0, 1], MctpOk (relaying b) b false ∧ (relaying b).vdmBusy b = true := by decide +kernel
/-- The register address of an offset in the control space of a package. -/
def ctrl (pkg off : Nat) : Nat := 3 * 2 ^ 46 + pkg * 2 ^ 50 + off
theorem test_wit_reg_read : (∀ r ∈ [Reg.hubId, .hubMctpViolCnt], ctrlOff (ctrl 0 (r.offset 0 0)) = some (r.offset 0 0) ∧
      addrPkg (ctrl 0 (r.offset 0 0)) = managed.pkg ∧ r.offset 0 0 % 8 = 0 ∧ regSlot (r.offset 0 0) = some (r, 0, 0) ∧ pathOk 1 r false = true) ∧
    Reg.hubMctpViolCnt.desc.fields.any (fun f => f.acc == .rc) = true ∧ managed.gone .hubMctpViolCnt 0 = false ∧
    Reg.hubId.desc.fields.any (fun f => f.acc == .rc) = false ∧ pathOk 1 .hostSqTail false = false ∧ ctrlOff 0 = none ∧
    locOf 0 ≠ .bad ∧ locOf (15 * 2 ^ 46) = .bad ∧ locOf (3 * 2 ^ 46 + 2 ^ 44) = .bad := by decide +kernel
theorem test_wit_reg_remote : ctrlOff (ctrl 5 64) = some 64 ∧ addrPkg (ctrl 5 64) ≠ (State.reset.wr .hubMctpEid 0 0 9).pkg ∧
    VdmOk (State.reset.wr .hubMctpEid 0 0 9) 0 ∧ (State.reset.wr .hubMctpEid 0 0 9).isSealed = false := by decide +kernel
theorem test_wit_reg_write : ctrlOff (ctrl 0 (Reg.offset .hubScratch 0 0)) = some (Reg.offset .hubScratch 0 0) ∧
    ctrlOff (ctrl 0 (Reg.offset .hostSqTail 0 0)) = some (Reg.offset .hostSqTail 0 0) ∧ Reg.offset .hostSqTail 0 0 % 8 = 0 ∧
    regSlot (Reg.offset .hostSqTail 0 0) = some (.hostSqTail, 0, 0) ∧ pathOk 1 .hostSqTail true = false := by decide +kernel
theorem test_wit_ward_mctp : 64 ≤ (blkBody 1 1 0 []).length ∧ (blkBody 1 1 0 []).length ≤ 576 ∧ (blkBody 1 1 0 []).all (· < 256) = true ∧
    managed.wardUp = true ∧ (wardBlk (blkBody 1 1 0 [])).code = 1 ∧ (wardBlk (blkBody 0x10 9 0 [])).code = 0x10 ∧
    managed.ward.rngBad = false := by decide +kernel
/-- The package in recovery, with an SMBus endpoint ID. -/
def recovering : State := { State.reset.wr .hubMctpEid 0 0 9 with boot := { BootSt.reset with recovery := true } }
theorem test_wit_recovery : recovering.vdmBusy 0 = false ∧ recovering.pwrState ≠ 0 ∧ recovering.mctpOpen 0 = true ∧ recovering.eid 0 ≠ 0 ∧
    recovering.boot.recovery = true ∧ (setBytes - 961) + 960 < setBytes ∧ 960 < (List.replicate 961 0).length ∧
    setBytes < setBytes + [7].length ∧ setBytes - 960 + (List.replicate 960 0).length = setBytes ∧ (State.reset.wr .hubMctpEid 0 0 9).boot.recovery = false := by decide +kernel
/-- A request of SPDM 1.2 (R429) of `n` bytes. -/
def spdmReq (code p1 p2 n : Nat) : List Nat := [0x12, code, p1, p2] ++ List.replicate (n - 4) 0
/-- The exchange of every path at a stage; with an identity. -/
def exchanges (n : Nat) : List (Nat × Spdm) := [(0, ⟨n, [], [], []⟩), (1, ⟨n, [], [], []⟩), (2, ⟨n, [], [], []⟩)]
def spdmAt (n priv : Nat) : State :=
  { managed with ward := { Ward.reset with priv := priv }, hub := { managed.hub with spdm := exchanges n } }
theorem test_wit_spdm : (∀ p ∈ [0, 1, 2], SpdmOk (spdmAt 3 1) p ∧ SpdmOk managed p ∧ (managed.spdmOf p).stage = 0 ∧
      ∀ n ∈ [1, 2, 3], ((spdmAt n 0).spdmOf p).stage = n ∧ SpdmOk (spdmAt n 0) p) ∧
    (∀ c ∈ [0x84, 0xE1, 0xE3, 0x81, 0x82, 0x83, 0xE0], SpdmReq c (spdmReq c 0 0 4)) ∧ (spdmReq 0xFF 0 0 4).getD 1 0 ∉ spdmCodes ∧
    managed.provisioned = false ∧ (spdmAt 3 1).provisioned = true ∧ (spdmAt 3 0).provisioned = false := by decide +kernel
/-- A certificate chain of 16 bytes in the boot flash, its length first. -/
def certified : State := { spdmAt 3 1 with boot := { BootSt.reset with flash := [(0x10000, 16), (0x10001, 0)] } }
theorem test_wit_certificate : (∀ p ∈ [0, 1, 2], SpdmOk certified p) ∧ certified.certChain.length = 16 ∧
    SpdmReq 0x82 ([0x12, 0x82, 0, 0] ++ leBytes 2 15 ++ leBytes 2 1) ∧ 15 + 1 ≤ certified.certChain.length ∧
    leNat ((([0x12, 0x82, 0, 0] ++ leBytes 2 15 ++ leBytes 2 1).drop 4).take 2) = 15 ∧ certified.certChain.length ≤ 16 := by decide +kernel
theorem test_wit_challenge : SpdmReq 0x83 (spdmReq 0x83 0 0 36) ∧ (spdmReq 0x83 0 0 36).getD 2 0 = 0 ∧ 36 ≤ (spdmReq 0x83 0 0 36).length ∧
    (spdmReq 0x83 1 0 36).getD 2 0 ≠ 0 := by decide +kernel
/-- Its generator has failed. -/
def noEntropy : State := { spdmAt 3 1 with ward := { Ward.reset with priv := 1, rngBad := true } }
theorem test_wit_no_entropy : (∀ p ∈ [0, 1, 2], SpdmOk noEntropy p ∧ 3 ≤ (noEntropy.spdmOf p).stage) ∧ noEntropy.provisioned = true ∧
    noEntropy.ward.rngBad = true ∧ (spdmAt 3 1).ward.rngBad = false := by decide +kernel
theorem test_wit_measurements : SpdmReq 0xE0 (spdmReq 0xE0 0 0xFF 4) ∧ (spdmReq 0xE0 0 0xFF 4).getD 3 0 = 0xFF ∧
    ((spdmReq 0xE0 0 0xFF 4).getD 2 0).testBit 0 = false ∧ SpdmReq 0xE0 (spdmReq 0xE0 1 6 37) ∧ (spdmReq 0xE0 1 6 37).getD 3 0 = 6 ∧
    ((spdmReq 0xE0 1 6 37).getD 2 0).testBit 0 = true ∧ 37 ≤ (spdmReq 0xE0 1 6 37).length ∧ (spdmReq 0xE0 1 6 37).getD 36 0 = 0 := by decide +kernel
theorem test_wit_pldm_readings : 0x82 ∈ numSensors ∧ (1 : Nat) ∈ numSensors ∧ managed.numReading 1 = some 0xA1 ∧ managed.hub.disabled.contains 1 = false ∧
    (State.reset.wr .hubMctpEid 0 0 9).numReading 0x30 = none ∧ MctpOk (State.reset.wr .hubMctpEid 0 0 9) 0 false ∧
    ({ managed with hub := { managed.hub with disabled := [1] } }).hub.disabled.contains 1 = true ∧ (2 : Nat) ∉ numSensors ∧
    (State.reset.wr .hubMctpEid 0 0 9).gateway = none ∧ (0x107 : Nat) ∉ stateSensors := by decide +kernel
/-- One event waits for its acknowledgement. -/
def alerted : State := { managed with hub := { managed.hub with receiver := some (0, 9), events := [⟨0x100, false, []⟩] } }
theorem test_wit_pldm_ack : MctpOk alerted 0 false ∧ 0 < alerted.hub.events.length ∧ alerted.hub.events.length = 1 := by decide +kernel

/-! ### Registers, logs, time -/

theorem test_wit_rc_read : State.reset.pwrState ≠ 0 ∧ regSlot (Reg.offset .hubMctpViolCnt 0 0) = some (.hubMctpViolCnt, 0, 0) ∧
    (∀ p ∈ [0, 1], pathOk p .hubMctpViolCnt false = true ∧ pathOk p .hubId false = true) ∧
    Reg.hubMctpViolCnt.desc.fields.any (fun f => f.acc == .rc) = true ∧ State.reset.gone .hubMctpViolCnt 0 = false ∧
    Reg.hubId.desc.fields.any (fun f => f.acc == .rc) = false ∧ pathOk 1 .hostSqTail false = false ∧ regSlot 0x18 = none := by decide +kernel
theorem test_wit_link_seen : ((on.wr .hostLink 0 0 (2 ^ 10)).rd .hostLink 0 0).testBit 10 = true ∧ (on.rd .hostLink 0 0).testBit 10 = false ∧
    seenBy on 1 = on := by decide +kernel
theorem test_wit_halves : Reg.hngStallPwrCnt.desc.wide = true ∧ Reg.offset .hngStallPwrCnt 0 0 % 8 = 0 ∧
    regSlot (Reg.offset .hngStallPwrCnt 0 0) = some (.hngStallPwrCnt, 0, 0) ∧ pathOk 0 .hngStallPwrCnt false = true ∧
    on.hub.halves.find? (fun x => x.1 == 0 && x.2.1 == 64) = none ∧
    ({ on with hub := { on.hub with halves := [(0, 64, 7)] } }).hub.halves.find? (fun x => x.1 == 0 && x.2.1 == 64) = some (0, 64, 7) := by decide +kernel
theorem test_wit_fltq_rec : ({ on with hub := { on.hub with recLatch := some (63, [1, 2]) } }).hub.recLatch = some (63, [1, 2]) ∧
    on.fltq.length ≤ 63 ∧ (({ on with fltq := [⟨note, false, true⟩] }).fltq[0]?).isSome = true := by decide +kernel
theorem test_wit_relay : on.relayBusy = false ∧ on.hub.relays.any (fun r => r.1 == 0) = false ∧
    ctrlOff ((on.wr .hubRelayAddr 0 0 (ctrl 0 (Reg.offset .hubScratch 0 0))).rd .hubRelayAddr 0 0) = some (Reg.offset .hubScratch 0 0) ∧
    addrPkg ((on.wr .hubRelayAddr 0 0 (ctrl 0 (Reg.offset .hubScratch 0 0))).rd .hubRelayAddr 0 0) = on.pkg ∧
    ctrlOff (on.rd .hubRelayAddr 0 0) = none ∧ addrPkg ((on.wr .hubRelayAddr 0 0 (ctrl 5 64)).rd .hubRelayAddr 0 0) ≠ on.pkg ∧
    (on.wr .hubRelayStatus 0 0 1).relayBusy = true ∧ locOf (on.rd .hubRelayAddr 0 0) ≠ .bad ∧ ctrl 5 64 % 8 = 0 ∧ on.isSealed = false ∧
    locOf ((on.wr .hubRelayAddr 0 0 (15 * 2 ^ 46)).rd .hubRelayAddr 0 0) = .bad ∧
    locOf ((on.wr .hubRelayAddr 0 0 (3 * 2 ^ 46 + 2 ^ 44)).rd .hubRelayAddr 0 0) = .bad ∧
    (((on.updHub (fun h => { h with relays := h.relays ++ [(0, ctrl 0 (Reg.offset .hubScratch 0 0), false)] })).wr .hubRelayStatus 0 0 1).readReg 2
      (Reg.offset .hubScratch 0 0) 8).2 = some 0 := by decide +kernel
theorem test_wit_register_write : regSlot (Reg.offset .hubTs 0 0) = some (.hubTs, 0, 0) ∧ Reg.offset .hubTs 0 0 % 8 = 0 ∧
    pathOk 0 .hubTs true = true ∧ Reg.hubTs.desc.fields.all (fun f => f.acc == .ro) = true ∧ Reg.hubTs.desc.wide = true ∧
    (∃ f ∈ Reg.hubTs.desc.fields, bitsOf 1 f.lo f.width ≠ bitsOf (on.shown .hubTs 0 0) f.lo f.width) ∧
    (on.special .hubTs 0 1).2 = false ∧ regSlot 0x18 = none ∧ on.pwrState ≠ 0 := by decide +kernel
theorem test_wit_sweep : on.hub.sweeping = none ∧ ({ on.hub with sweeping := some true }).sweeping ≠ none ∧ locOf (on.rd .hubSweepAddr 0 0) = .vault 0 0 ∧ addrPkg (on.rd .hubSweepAddr 0 0) = on.pkg ∧
    0 + 64 + 16 * 32768 ≤ 2 ^ 33 ∧ addrPkg ((on.wr .hubSweepAddr 0 0 (2 ^ 50)).rd .hubSweepAddr 0 0) ≠ on.pkg ∧
    locOf ((on.wr .hubSweepAddr 0 0 (2 ^ 33 - 128)).rd .hubSweepAddr 0 0) = .vault 0 (2 ^ 33 - 128) := by decide +kernel
/-- A log of 2 entries with an open entry of counter 5. -/
def viol1 : OpenViol := ⟨5, 0, 0, 1, 0, 0, 0, 0⟩
def logging : State := { on.wr .hubVlogSize 0 0 2 with viols := [viol1] }
theorem test_wit_vlog : logging.viols.find? (fun x => x.counter == 5 && x.island == 0) = some viol1 ∧ logging.rdF .hubVlogSize 0 0 0 17 = 2 ∧
    (logging.rdF .hubVlogHead 0 0 0 16 + 1) % 2 ≠ logging.rdF .hubVlogTail 0 0 0 16 ∧
    ((logging.wr .hubVlogTail 0 0 1).rdF .hubVlogHead 0 0 0 16 + 1) % 2 = (logging.wr .hubVlogTail 0 0 1).rdF .hubVlogTail 0 0 0 16 := by decide +kernel
/-- A correlation of an island in progress; core 0 is Dark. -/
def corring : State := (({ on with hub := { on.hub with corr := some (0, 5) } }).wr .hubTsCorrCtl 0 0 (2 ^ 9)).setCoreState 0 3
theorem test_wit_ts_corr : (on.rd .hubTsCorrCtl 0 0).testBit 9 = false ∧ (corring.rd .hubTsCorrCtl 0 0).testBit 9 = true ∧ corring.pwrState ≠ 0 ∧
    corring.hub.corr = some (0, 5) ∧ corring.islandDark 0 = true ∧ on.islandDark 0 = false ∧ on.islandDark 167 = false := by decide +kernel

/-! ### The whole package -/

theorem test_wit_keeps_memory : State.reset.memOk = true ∧ State.reset.pending = [] ∧ on.memOk = true ∧
    Claims.stores .detach = false := by decide +kernel
theorem test_wit_step_answers : (match step { State.reset with pending := [.step] } with
    | .next t => t.memOk && t.pending.isEmpty
    | _ => false) = true := by decide +kernel
theorem test_wit_tick : (State.reset.wr .pwrStatus 0 0 0).pwrState = 0 ∧ on.pwrState ≠ 0 ∧ on.hub.receiver = none ∧ on.host.misuse = none ∧
    on.hub.traceIn = [] ∧ on.prg.links.all (fun e => !(e.2.up && e.2.ackDue)) = true ∧ on.tier.answers = [] ∧ on.ward.block = none ∧
    on.hub.sweeping = none := by decide +kernel
/-- Core 0 has been granted nothing, and its pool has units. -/
theorem test_wit_completes : on.active 0 = true ∧ 216 ≤ on.poolCap (islandDie 0) - on.poolIssued (islandDie 0) ∧ on.pwr.asks = [] ∧ on.grant 0 = 0 ∧
    on.wardUp = true ∧ on.ward.rngBad = false ∧ on.ward.d3 = false ∧ on.ward.block = none ∧ on.flt.waitAdopt = [] ∧
    window1.postWaits = false ∧ window1.host.holder = none ∧ standby.booting = false ∧ standby.pwrState ≠ 0 ∧ on.host.step = none ∧ window1.attached = true ∧ window1.gateway = some 0 := by
  decide +kernel
theorem test_wit_reset_other : Reg.hubScratch ≠ .pwrFmax ∧ Reg.hubScratch ∉ Claims.resetValues.map (fun p => p.1) := by decide +kernel

end Sys2Proof.Tests
end

section
/-! ## Registers, counters and frames

What a write, a violation and a read of the register map leave, said once for the statements about the map, the vendor-defined
commands and the rings of the host. -/

namespace Sys2Proof.Claims

open Machine

/-! ### Frames of the register table -/

theorem regsBut_refl (L : List Nat) (s : State) : regsBut L s s := fun _ _ => rfl

theorem regsBut.trans {L : List Nat} {s t u : State} (h : regsBut L s t) (h' : regsBut L t u) : regsBut L s u :=
  fun k hk => (h' k hk).trans (h k hk)

theorem regsBut.mono {K L : List Nat} {s t : State} (h : regsBut K s t) (hKL : K ⊆ L) : regsBut L s t :=
  fun k hk => h k (fun hm => hk (hKL hm))

/-- A frame of the registers looks at the registers alone. -/
theorem regsBut.of_regs {L : List Nat} {s t u : State} (h : regsBut L s t) (he : u.regs = t.regs) : regsBut L s u := by
  intro k hk
  rw [he]
  exact h k hk

theorem regsBut_wr (s : State) (r : Reg) (i k v : Nat) : regsBut [regKey r i k] s (s.wr r i k v) := by
  intro x hx
  exact SMap.get_set_ne _ _ _ (fun h => hx (by simp [h]))

/-- A further write inside the frame stays inside it. -/
theorem regsBut.wr {L : List Nat} {s t : State} (h : regsBut L s t) {r : Reg} {i k : Nat} (v : Nat) (hm : regKey r i k ∈ L) :
    regsBut L s (t.wr r i k v) :=
  h.trans ((regsBut_wr t r i k v).mono (by simpa using hm))

theorem regsBut.rd {L : List Nat} {s t : State} (h : regsBut L s t) {r : Reg} {i k : Nat} (hk : regKey r i k ∉ L) :
    t.rd r i k = s.rd r i k := congrArg BitVec.toNat (h _ hk)

/-- A register of another name than the one in the frame is read as it was. -/
theorem regsBut.rd_ne {s t : State} {r : Reg} {i k : Nat} (h : regsBut [regKey r i k] s t) {r' : Reg} (hne : r ≠ r')
    (i' k' : Nat) : t.rd r' i' k' = s.rd r' i' k' :=
  h.rd (by simpa using (regKey_ne hne i k i' k').symm)

theorem onlyRegs_refl (L : List Nat) (s : State) : onlyRegs L s s := ⟨rfl, regsBut_refl L s⟩

theorem onlyRegs_wr (s : State) (r : Reg) (i k v : Nat) : onlyRegs [regKey r i k] s (s.wr r i k v) :=
  ⟨rfl, regsBut_wr s r i k v⟩

end Sys2Proof.Claims

namespace Sys2Proof.Machine

open Claims

/-! ### Values of registers -/

theorem State.rd_lt (s : State) (r : Reg) (i k : Nat) : s.rd r i k < 2 ^ 64 :=
  (SMap.get regDefault s.regs (regKey r i k)).isLt

theorem State.rd_wr_of_lt (s : State) (r : Reg) (i k : Nat) {v : Nat} (h : v < 2 ^ 64) : (s.wr r i k v).rd r i k = v := by
  rw [State.rd_wr_self, Nat.mod_eq_of_lt h]

/-! ### Violations (R509, R520) -/

theorem State.violEvent_eq (s : State) (c i op q f v : Nat) :
    s.violEvent c i op q f v = { s with viols := (s.violEvent c i op q f v).viols } := by
  unfold State.violEvent
  split
  · rfl
  · split <;> rfl

/-- A violation counts, and beside its counter changes the log of violations alone. -/
theorem State.viol_eq (s : State) (r : Reg) (i op q f v : Nat) :
    s.viol r i op q f v = { s.bump r i 1 with viols := (s.viol r i op q f v).viols } :=
  State.violEvent_eq ..

theorem State.viol_regs (s : State) (r : Reg) (i op q f v : Nat) : (s.viol r i op q f v).regs = (s.bump r i 1).regs := by
  rw [State.viol_eq]

theorem counted_bump (s : State) (r : Reg) (i n : Nat) : counted r i n s (s.bump r i n) := by
  unfold counted count32 State.bump
  rw [State.rd_wr_self]
  split <;> omega

theorem counted_viol (s : State) (r : Reg) (i op q f v : Nat) : counted r i 1 s (s.viol r i op q f v) := by
  unfold counted
  rw [State.rd_congr (State.viol_regs s r i op q f v)]
  exact counted_bump s r i 1

theorem regsBut_viol (s : State) (r : Reg) (i op q f v : Nat) : regsBut [regKey r i 0] s (s.viol r i op q f v) := by
  intro k hk
  rw [State.viol_regs]
  exact regsBut_wr s r i 0 _ k hk

theorem State.viol_cores (s : State) (r : Reg) (i op q f v : Nat) : (s.viol r i op q f v).cores = s.cores := by
  rw [State.viol_eq]; rfl
theorem State.viol_outbox (s : State) (r : Reg) (i op q f v : Nat) : (s.viol r i op q f v).outbox = s.outbox := by
  rw [State.viol_eq]; rfl
theorem State.viol_hub (s : State) (r : Reg) (i op q f v : Nat) : (s.viol r i op q f v).hub = s.hub := by
  rw [State.viol_eq]; rfl
theorem State.viol_host (s : State) (r : Reg) (i op q f v : Nat) : (s.viol r i op q f v).host = s.host := by
  rw [State.viol_eq]; rfl
theorem State.viol_ward (s : State) (r : Reg) (i op q f v : Nat) : (s.viol r i op q f v).ward = s.ward := by
  rw [State.viol_eq]; rfl

theorem memKept_viol (s : State) (r : Reg) (i op q f v : Nat) : memKept s (s.viol r i op q f v) := by
  rw [State.viol_eq]; exact ⟨rfl, rfl⟩

/-- All that the statements say of a counted violation. -/
theorem viol_counts (s : State) (r : Reg) (i op q f v : Nat) :
    counted r i 1 s (s.viol r i op q f v) ∧ regsBut [regKey r i 0] s (s.viol r i op q f v) ∧
      (s.viol r i op q f v).cores = s.cores ∧ memKept s (s.viol r i op q f v) :=
  ⟨counted_viol s r i op q f v, regsBut_viol s r i op q f v, State.viol_cores s r i op q f v, memKept_viol s r i op q f v⟩

/-! ### Addresses of the map (R491 to R493) -/

theorem regSlot_hubScratch : regSlot (Reg.offset .hubScratch 0 0) = some (.hubScratch, 0, 0) := by decide +kernel
theorem regSlot_relayCtl : regSlot relayCtl = some (.hubRelayCtl, 0, 0) := by decide +kernel

/-- The first offset above every place of a register. -/
def Reg.spanEnd (r : Reg) : Nat :=
  r.desc.sub.place.1 + r.desc.off + (r.desc.sub.place.2.2 - 1) * r.desc.sub.place.2.1
    + (if r.desc.sub.place.2.1 = 0 then r.desc.count * r.desc.stride else r.desc.sub.place.2.1)

theorem Reg.locate_below {r : Reg} {o : Nat} (h : o < r.desc.sub.place.1 + r.desc.off) : r.locate o = none := by
  unfold Reg.locate
  exact if_pos h

theorem Reg.stride_pos (r : Reg) : 0 < r.desc.stride := by
  unfold RegDesc.stride
  split <;> omega

theorem Reg.locate_beyond {r : Reg} {o : Nat} (h : r.spanEnd ≤ o) : r.locate o = none := by
  unfold Reg.spanEnd at h
  simp only [Reg.locate]
  split
  · rfl
  · refine if_neg (fun hin => ?_)
    obtain ⟨hn, hc, _⟩ := hin
    by_cases h0 : r.desc.sub.place.2.1 = 0
    · rw [if_pos h0] at hc h
      have hrel := (Nat.div_lt_iff_lt_mul r.stride_pos).mp hc
      omega
    · rw [if_neg h0] at hn h
      have hrel := (Nat.div_lt_iff_lt_mul (Nat.pos_of_ne_zero h0)).mp hn
      have hlast : (r.desc.sub.place.2.2 - 1) * r.desc.sub.place.2.1 + r.desc.sub.place.2.1
          = r.desc.sub.place.2.2 * r.desc.sub.place.2.1 := by
        rw [← Nat.succ_mul, Nat.succ_eq_add_one, Nat.sub_add_cancel (Nat.zero_lt_of_lt hn)]
      rw [← hlast] at hrel
      omega

/-- The window on the fault queue lies clear of every other register. -/
theorem others_clear_of_fltqRec :
    (allRegs.dropLast.all fun r =>
      decide (Reg.offset .hubFltqRec 0 512 ≤ r.desc.sub.place.1 + r.desc.off ∨ r.spanEnd ≤ Reg.offset .hubFltqRec 0 0)) = true := by
  decide +kernel

theorem allRegs_eq : allRegs = allRegs.dropLast ++ [.hubFltqRec] := by decide +kernel

theorem regSlot_fltqRec {m : Nat} (h : m < 512) : regSlot (Reg.offset .hubFltqRec 0 m) = some (.hubFltqRec, 0, m) := by
  have hoff : ∀ j, Reg.offset .hubFltqRec 0 j = 0x28000 + 8 * j := fun j => by
    simp [Reg.offset, Reg.desc, SubBlock.place, RegDesc.stride, Nat.mul_comm]
  have hself : Reg.locate .hubFltqRec (Reg.offset .hubFltqRec 0 m) = some (0, m) := by
    rw [hoff]
    simp [Reg.locate, Reg.desc, SubBlock.place, RegDesc.stride]
    omega
  have hother : ∀ r ∈ allRegs.dropLast, ((r.locate (Reg.offset .hubFltqRec 0 m)).map fun p => (r, p.1, p.2)) = none := by
    intro r hr
    have hclear := List.all_eq_true.mp others_clear_of_fltqRec r hr
    simp only [decide_eq_true_eq, hoff] at hclear
    rw [hoff]
    rcases hclear with hlow | hhigh
    · rw [Reg.locate_below (by omega)]; rfl
    · rw [Reg.locate_beyond (by omega)]; rfl
  have hat : regAt (Reg.offset .hubFltqRec 0 m) = some (.hubFltqRec, 0, m) := by
    unfold regAt
    rw [allRegs_eq, List.findSome?_append, List.findSome?_eq_none_iff.mpr hother]
    simp [hself]
  unfold regSlot
  rw [hat]
  rfl

/-! ### Reads (R16 to R19) -/

@[simp] theorem State.updHub_live (s : State) (f : Hub → Hub) (r : Reg) (i k : Nat) :
    (s.updHub f).live r i k = s.live r i k := by
  unfold State.live
  split <;> rfl

@[simp] theorem State.updHub_gone (s : State) (f : Hub → Hub) (r : Reg) (i : Nat) : (s.updHub f).gone r i = s.gone r i := rfl

@[simp] theorem State.updHub_shown (s : State) (f : Hub → Hub) (r : Reg) (i k : Nat) :
    (s.updHub f).shown r i k = s.shown r i k := by
  unfold State.shown
  rw [State.updHub_live, State.updHub_gone]

/-- A register without a clearing field is not cleared by a read. -/
theorem State.clearRead_of_not_rc {s : State} {r : Reg} (h : r.desc.fields.any (fun f => f.acc == .rc) = false) (i k : Nat) :
    s.clearRead r i k = s := by
  unfold State.clearRead
  simp [h]

theorem State.clearRead_of_rc {s : State} {r : Reg} {i : Nat} (h : r.desc.fields.any (fun f => f.acc == .rc) = true)
    (hg : s.gone r i = false) (k : Nat) : s.clearRead r i k = s.wr r i k 0 := by
  unfold State.clearRead
  simp [h, hg]

theorem State.rd_clearRead {s : State} {r : Reg} {i : Nat} (h : r.desc.fields.any (fun f => f.acc == .rc) = true)
    (hg : s.gone r i = false) (k : Nat) : (s.clearRead r i k).rd r i k = 0 := by
  rw [State.clearRead_of_rc h hg, State.rd_wr_self, Nat.zero_mod]

theorem onlyRegs_clearRead (s : State) (r : Reg) (i k : Nat) : onlyRegs [regKey r i k] s (s.clearRead r i k) := by
  unfold State.clearRead
  split
  · exact onlyRegs_wr ..
  · exact onlyRegs_refl ..

theorem State.readSlot_eq {s : State} {r : Reg} (h : r ≠ .hubFltqRec) (i k : Nat) :
    s.readSlot r i k = (s.clearRead r i k, s.shown r i k) := if_neg h

theorem State.readReg_width {s : State} {path off w : Nat} (h4 : w ≠ 4) (h8 : w ≠ 8) :
    s.readReg path off w = (s.unmapped path off, some 0) := by
  unfold State.readReg
  simp [h4, h8]

section Slot
variable {s : State} {path off i k : Nat} {r : Reg} (h8 : off % 8 = 0)
include h8

theorem slot_low : off / 8 * 8 = off := by omega
theorem slot_high : (off + 4) / 8 * 8 = off := by omega

theorem State.readReg_unmapped (hslot : regSlot off = none) : s.readReg path off 8 = (s.unmapped path off, some 0) := by
  unfold State.readReg
  simp only [slot_low h8, hslot, h8]
  simp

theorem State.readReg_refused (hslot : regSlot off = some (r, i, k)) (hp : pathOk path r false = false) :
    s.readReg path off 8 = (s, none) := by
  unfold State.readReg
  simp [slot_low h8, hslot, h8, hp]

theorem State.readReg_whole (hslot : regSlot off = some (r, i, k)) (hp : pathOk path r false = true) :
    s.readReg path off 8 = ((s.readSlot r i k).1, some (s.readSlot r i k).2) := by
  unfold State.readReg
  simp [slot_low h8, hslot, h8, hp]

/-- The low half latches the high one. -/
theorem State.readReg_low (hslot : regSlot off = some (r, i, k)) (hp : pathOk path r false = true) (hr : r ≠ .hubFltqRec)
    (hw : r.desc.wide = true) : s.readReg path off 4
      = (((s.clearRead r i k).dropHalf path off).updHub
          (fun h => { h with halves := h.halves ++ [(path, off, s.shown r i k / 2 ^ 32)] }), some (s.shown r i k % 2 ^ 32)) := by
  have h4 : off % 4 = 0 := by omega
  unfold State.readReg
  simp [slot_low h8, hslot, h8, h4, hp, hw, State.readSlot_eq hr]

/-- The high half is the latched one where there is one, which is then forgotten. -/
theorem State.readReg_high_latched (hslot : regSlot off = some (r, i, k)) (hp : pathOk path r false = true)
    (hw : r.desc.wide = true) {x : Nat × Nat × Nat} (hx : s.hub.halves.find? (fun x => x.1 == path && x.2.1 == off) = some x) :
    s.readReg path (off + 4) 4 = (s.dropHalf path off, some x.2.2) := by
  have h4 : (off + 4) % 4 = 0 := by omega
  have hodd : (off + 4) % 8 ≠ 0 := by omega
  unfold State.readReg
  simp [slot_high h8, hslot, h4, hodd, hp, hw, hx]

/-- With no half latched the high half is live. -/
theorem State.readReg_high_live (hslot : regSlot off = some (r, i, k)) (hp : pathOk path r false = true)
    (hw : r.desc.wide = true) (hx : s.hub.halves.find? (fun x => x.1 == path && x.2.1 == off) = none) :
    s.readReg path (off + 4) 4 = (s, some (s.shown r i k / 2 ^ 32)) := by
  have h4 : (off + 4) % 4 = 0 := by omega
  have hodd : (off + 4) % 8 ≠ 0 := by omega
  unfold State.readReg
  simp [slot_high h8, hslot, h4, hodd, hp, hw, hx]

end Slot

end Sys2Proof.Machine
end

section
namespace Sys2Proof.Claims

open Machine

/-! ### Reads over BAR0 and MCTP (R386, R496) -/

/-- What HOST_LINK takes from a link that has trained: its speed and width below DL_UP. -/
def trainedLink (s : State) : Nat :=
  4 + Config.freeByte 3 s.freeIx 0 % 3 + 2 ^ (Config.freeByte 3 s.freeIx 1 % 5) * 2 ^ 4 + 2 ^ 10

theorem linkUp_eq (s : State) : s.linkUp = (s.wr .hostLink 0 0 (trainedLink s)).fresh 1 := rfl

/-- Speed and width of a link lie below DL_UP. -/
theorem trainedLink_fields (s : State) : ∃ x, x < 2 ^ 10 ∧ trainedLink s = 2 ^ 10 + x := by
  have hw : 2 ^ (Config.freeByte 3 s.freeIx 1 % 5) ≤ 2 ^ 4 := Nat.pow_le_pow_right (by omega) (by omega)
  refine ⟨4 + Config.freeByte 3 s.freeIx 0 % 3 + 2 ^ (Config.freeByte 3 s.freeIx 1 % 5) * 2 ^ 4, by omega, ?_⟩
  unfold trainedLink
  omega

theorem rd_linkUp (s : State) : s.linkUp.rd .hostLink 0 0 = trainedLink s := by
  obtain ⟨x, hx, heq⟩ := trainedLink_fields s
  rw [linkUp_eq, State.rd_congr (State.fresh_regs ..), s.rd_wr_of_lt .hostLink 0 0 (by omega)]

theorem linkSeen_of_up {s : State} (h : (s.rd .hostLink 0 0).testBit 10 = true) : s.linkSeen = s := if_pos h

theorem linkSeen_up (s : State) : (s.linkSeen.rd .hostLink 0 0).testBit 10 = true := by
  unfold State.linkSeen
  split
  · assumption
  · obtain ⟨x, hx, heq⟩ := trainedLink_fields s
    rw [rd_linkUp, heq, Nat.testBit_two_pow_add_eq, Nat.testBit_lt_two_pow hx]
    rfl

/-- A read finds the package as it is, or with its link trained. -/
theorem seenBy_cases (s : State) (path : Nat) :
    seenBy s path = s ∨ seenBy s path = (s.wr .hostLink 0 0 (trainedLink s)).fresh 1 := by
  rw [← linkUp_eq]
  unfold seenBy State.linkSeen
  split
  · exact (ite_eq_or_eq ..)
  · exact .inl rfl

theorem seenBy_frame (s : State) (path : Nat) : regsBut [regKey .hostLink 0 0] s (seenBy s path) := by
  rcases seenBy_cases s path with h | h <;> rw [h]
  · exact regsBut_refl _ s
  · exact (regsBut_wr s .hostLink 0 0 _).of_regs (State.fresh_regs ..)

theorem seenBy_eq (s : State) (path : Nat) :
    seenBy s path = { s with regs := (seenBy s path).regs, freeIx := (seenBy s path).freeIx } := by
  rcases seenBy_cases s path with h | h <;> rw [h]
  · generalize trainedLink s = v
    rfl

/-- A package that has been seen over a path is found as it is over it. -/
theorem seenBy_of_up {s : State} {path : Nat} (h : path = 0 → (s.rd .hostLink 0 0).testBit 10 = true) : seenBy s path = s := by
  unfold seenBy
  split
  · exact linkSeen_of_up (h ‹_›)
  · rfl

theorem seenBy_up (s : State) {path : Nat} (h : path = 0) : ((seenBy s path).rd .hostLink 0 0).testBit 10 = true := by
  rw [h]
  exact linkSeen_up s

/-- The power state is found in PWR_STATUS alone. -/
theorem pwrState_of_frame {s t : State} {r : Reg} {i k : Nat} (h : regsBut [regKey r i k] s t) (hne : r ≠ .pwrStatus) :
    t.pwrState = s.pwrState := by
  unfold State.pwrState State.rdF
  rw [h.rd_ne hne]

theorem seenBy_pwrState (s : State) (path : Nat) : (seenBy s path).pwrState = s.pwrState :=
  pwrState_of_frame (seenBy_frame s path) (by decide)

theorem answerReg_eq {s t : State} {path off n : Nat} {x : Option Nat} (h : (seenBy s path).readReg path off n = (t, x)) :
    s.answerReg path off n = t.send (.regData path (x.getD 0)) := by
  have hdef : s.answerReg path off n = ((seenBy s path).readReg path off n).1.send
      (.regData path (((seenBy s path).readReg path off n).2.getD 0)) := rfl
  rw [hdef, h]

section Exec
variable {s : State} {path : Nat} (hpwr : s.pwrState ≠ 0) (hpath : path < 2)
include hpwr hpath

theorem exec_rcRead (off : Nat) : exec (.rcRead path off) s = .next (s.answerReg path off 8) := by
  have hmod : path % 16 = path := Nat.mod_eq_of_lt (by omega)
  show execRcRead path off s = _
  unfold execRcRead
  rw [if_neg (by rw [hmod]; omega), if_pos (by omega), hmod]

theorem exec_rcRead_width {w : Nat} (hw : w ≠ 0) (off : Nat) :
    exec (.rcRead (path + 16 * w) off) s = .next (s.answerReg path off w) := by
  have hmod : (path + 16 * w) % 16 = path := by omega
  have hdiv : (path + 16 * w) / 16 = w := by omega
  show execRcRead (path + 16 * w) off s = _
  unfold execRcRead
  rw [if_neg (by rw [hmod]; omega), if_neg (by omega), hmod, hdiv]

theorem exec_halfReadLatch (off : Nat) : exec (.halfReadLatch path off) s = .next (s.answerReg path off 4) := by
  show execHalfReadLatch path off s = _
  unfold execHalfReadLatch
  rw [if_neg (by omega)]

theorem exec_fltqRecLatch {e n : Nat} (he : e < 64) (hn : n < 8) :
    exec (.fltqRecLatch path e n) s = .next (s.answerReg path (Reg.hubFltqRec.offset 0 (8 * e + n)) 8) := by
  show execFltqRecLatch path e n s = _
  unfold execFltqRecLatch
  rw [if_neg (by omega), Nat.mod_eq_of_lt he, Nat.mod_eq_of_lt hn]

end Exec

/-- An access where no register is counts on its path. -/
theorem unmapped_counts (s : State) (path off : Nat) :
    counted (if path = 0 then .hostViolCnt else .hubAddrViolCnt) 0 1 s (s.unmapped path off) ∧
      regsBut [regKey (if path = 0 then .hostViolCnt else .hubAddrViolCnt) 0 0] s (s.unmapped path off) ∧
      (s.unmapped path off).cores = s.cores ∧ memKept s (s.unmapped path off) := by
  unfold State.unmapped
  split <;> exact viol_counts ..

theorem unmapped_outbox (s : State) (path off : Nat) : (s.unmapped path off).outbox = s.outbox := by
  unfold State.unmapped
  split <;> exact State.viol_outbox ..

/-! ## What a read leaves (R16 to R19, R364, R491, R496) -/

theorem linkSeen : LinkSeen := fun s =>
  ⟨fun h => seenBy_of_up (fun _ => h), seenBy_up s rfl, seenBy_frame s 0, seenBy_eq s 0, rfl⟩

theorem rcRead : RcRead := by
  intro s0 s path off i k w r hpwr hpath h8 hs
  subst hs
  have hread := exec_rcRead hpwr hpath off
  refine ⟨fun h0 h4 h8' => ?_, ⟨?_, ?_⟩, fun hslot hr hp => ?_, fun hslot hp => ?_, fun hslot => ?_⟩
  · refine ⟨_, exec_rcRead_width hpwr hpath h0 off, ?_⟩
    rw [answerReg_eq (State.readReg_width h4 h8')]
    exact ⟨congrArg (· ++ _) (unmapped_outbox ..), unmapped_counts ..⟩
  · rw [exec_rcRead_width hpwr hpath (by omega), hread]
  · rw [exec_rcRead_width hpwr hpath (by omega), exec_halfReadLatch hpwr hpath]
  · rw [answerReg_eq (State.readReg_whole h8 hslot hp), State.readSlot_eq hr] at hread
    obtain ⟨heq, hframe⟩ := onlyRegs_clearRead (seenBy s0 path) r i k
    refine ⟨_, hread, ?_, hframe, fun hrc hg => State.rd_clearRead hrc hg k, fun hrc => ?_⟩
    · rw [heq]; rfl
    · rw [State.clearRead_of_not_rc hrc]; rfl
  · rw [hread, answerReg_eq (State.readReg_refused h8 hslot hp)]
    rfl
  · rw [answerReg_eq (State.readReg_unmapped h8 hslot)] at hread
    exact ⟨_, hread, congrArg (· ++ _) (unmapped_outbox ..), unmapped_counts ..⟩

/-- A half that is dropped is not found. -/
theorem find?_dropped (l : List (Nat × Nat × Nat)) (path off : Nat) :
    (l.filter (fun x => !(x.1 == path && x.2.1 == off))).find? (fun x => x.1 == path && x.2.1 == off) = none := by
  rw [List.find?_eq_none]
  intro x hx
  have hkept := (List.mem_filter.mp hx).2
  rwa [Bool.not_eq_true', ← Bool.not_eq_true] at hkept

/-- The half that is latched last is found. -/
theorem find?_latched (l : List (Nat × Nat × Nat)) (path off v : Nat) :
    ((l.filter (fun x => !(x.1 == path && x.2.1 == off))) ++ [(path, off, v)]).find? (fun x => x.1 == path && x.2.1 == off)
      = some (path, off, v) := by
  rw [List.find?_append, find?_dropped]
  simp

theorem halfReadLatch : HalfReadLatch := by
  intro s0 s path off i k v r hpwr hpath h8 hs hslot hr hp hw
  subst hs
  refine ⟨?_, fun hlatched => ?_, fun hnone => ?_⟩
  · obtain ⟨heq, hframe⟩ := onlyRegs_clearRead (seenBy s0 path) r i k
    have hread := exec_halfReadLatch hpwr hpath off
    rw [answerReg_eq (State.readReg_low h8 hslot hp hr hw), heq] at hread
    exact ⟨_, hread, rfl, find?_latched .., hframe, fun hrc hg => State.rd_clearRead hrc hg k, rfl⟩
  · have hread := answerReg_eq (State.readReg_high_latched h8 hslot hp hw hlatched)
    exact ⟨_, (exec_halfReadLatch hpwr hpath (off + 4)).trans (congrArg _ hread), rfl, find?_dropped .., rfl⟩
  · rw [exec_halfReadLatch hpwr hpath, answerReg_eq (State.readReg_high_live h8 hslot hp hw hnone)]
    rfl

theorem fltqRecLatch : FltqRecLatch := by
  intro s0 s path e n bs hpwr hpath he hn hs
  subst hs
  have hread : ∀ j, j < 8 → exec (.fltqRecLatch path e j) s0
      = .next (((seenBy s0 path).recSlot (8 * e + j)).1.send (.regData path ((seenBy s0 path).recSlot (8 * e + j)).2)) := by
    intro j hj
    rw [exec_fltqRecLatch hpwr hpath he hj]
    have hwhole := State.readReg_whole (s := seenBy s0 path) (path := path) (by simp [Reg.offset, Reg.desc, SubBlock.place, RegDesc.stride])
      (regSlot_fltqRec (m := 8 * e + j) (by omega)) (by unfold pathOk; rfl)
    rw [answerReg_eq hwhole]
    rfl
  have hdiv : (8 * e + n) / 8 = e := by omega
  have hmod : (8 * e + n) % 8 = n := by omega
  have hdiv0 : (8 * e + 0) / 8 = e := by omega
  have hmod0 : (8 * e + 0) % 8 = 0 := by omega
  refine ⟨fun hlen => ?_, fun hrec => ?_, fun h0 hlatch => ?_⟩
  · have hnone : (seenBy s0 path).fltq[e]? = none := List.getElem?_eq_none hlen
    rw [hread 0 (by omega)]
    simp only [State.recSlot, hdiv0, hmod0, hnone]
    rfl
  · obtain ⟨x, hx, rfl⟩ := Option.map_eq_some_iff.mp hrec
    rw [hread 0 (by omega)]
    simp only [State.recSlot, hdiv0, hmod0, hx]
    rfl
  · rw [hread n hn]
    simp only [State.recSlot, hdiv, hmod, h0, hlatch]
    rfl

end Sys2Proof.Claims
end

section
namespace Sys2Proof.Claims

open Machine

/-! ## The halves of a register -/

/-- A package that has just been read over a path, no narrow register cleared, is found as it is by the next read. -/
theorem seenBy_after_read {s0 t : State} {path i k : Nat} {r : Reg} (hw : r.desc.wide = true)
    (hframe : regsBut [regKey r i k] (seenBy s0 path) t) : seenBy t path = t ∧ t.pwrState = s0.pwrState := by
  have hne : ∀ {r' : Reg}, r'.desc.wide = false → r ≠ r' := by
    rintro r' hnarrow rfl
    exact absurd hw (by simp [hnarrow])
  refine ⟨seenBy_of_up fun hp => ?_, (pwrState_of_frame hframe (hne rfl)).trans (seenBy_pwrState s0 path)⟩
  rw [hframe.rd_ne (hne rfl)]
  exact seenBy_up s0 hp

end Sys2Proof.Claims

namespace Sys2Proof.Certificates

open Machine Claims

/-- Settles O59: the first half of HALF_READ_LATCH, then its second half on the state that the first leaves. -/
theorem halvesOfARegisterAgree : Obligations.HalvesOfARegisterAgree := by
  intro s0 s path off i k r hpwr hpath h8 hs hslot hr hp hw
  obtain ⟨⟨t, hlow, hout, hlatch, hframe, hclear, _⟩, -, hlive⟩ :=
    halfReadLatch s0 s path off i k 0 r hpwr hpath h8 hs hslot hr hp hw
  obtain ⟨-, -, hwhole, -, -⟩ := rcRead s0 s path off i k 0 r hpwr hpath h8 hs
  obtain ⟨hseen, hpwr'⟩ := seenBy_after_read hw (hs ▸ hframe)
  obtain ⟨-, hhigh, -⟩ := halfReadLatch t t path off i k (s.shown r i k / 2 ^ 32) r (hpwr' ▸ hpwr) hpath h8 hseen.symm hslot hr hp hw
  obtain ⟨u, hsecond, hout', -, hu⟩ := hhigh hlatch
  refine ⟨⟨t, u, hlow, hsecond, ?_, fun hrc hg => ?_⟩, fun hnone => hlive (by rw [hnone]; rfl), ?_⟩
  · rw [hout', hout, List.append_assoc]
    rfl
  · have hregs : u.regs = t.regs := by rw [hu]
    rw [State.rd_congr hregs]
    exact hclear hrc hg
  · obtain ⟨v, hread, hv, -, hclear', -⟩ := hwhole hslot hr hp
    exact ⟨v, hread, by rw [hv], hclear'⟩

end Sys2Proof.Certificates
end

section
namespace Sys2Proof.Machine

open Claims

/-! ## Writes of the register map (R19, R20, R364, R491) -/

section Slot
variable {s : State} {path off i k : Nat} {r : Reg} (h8 : off % 8 = 0)
include h8

theorem State.writeReg_unmapped (hslot : regSlot off = none) (v : Nat) :
    s.writeReg path off 8 v = (s.unmapped path off, true) := by
  unfold State.writeReg
  simp only [slot_low h8, hslot, h8]
  simp

theorem State.writeReg_refused (hslot : regSlot off = some (r, i, k)) (hp : pathOk path r true = false) (v : Nat) :
    s.writeReg path off 8 v = (s.regReject off, false) := by
  unfold State.writeReg
  simp [slot_low h8, hslot, h8, hp]

theorem State.writeReg_whole (hslot : regSlot off = some (r, i, k)) (hp : pathOk path r true = true) (hw : r.desc.wide = true)
    (v : Nat) : s.writeReg path off 8 v = (s.writeSlot s.writer r i k (v % 2 ^ 64), true) := by
  unfold State.writeReg
  simp [slot_low h8, hslot, h8, hp, hw]

theorem State.writeReg_low (hslot : regSlot off = some (r, i, k)) (hp : pathOk path r true = true) (hw : r.desc.wide = true)
    (v : Nat) : s.writeReg path off 4 v
      = (s.writeSlot s.writer r i k (setBits (s.shown r i k) 0 32 v % 2 ^ 64), true) := by
  have h4 : off % 4 = 0 := by omega
  unfold State.writeReg
  simp [slot_low h8, hslot, h8, h4, hp, hw]

theorem State.writeReg_high (hslot : regSlot off = some (r, i, k)) (hp : pathOk path r true = true) (hw : r.desc.wide = true)
    (v : Nat) : s.writeReg path (off + 4) 4 v
      = (s.writeSlot s.writer r i k (setBits (s.shown r i k) 32 32 v % 2 ^ 64), true) := by
  have h4 : (off + 4) % 4 = 0 := by omega
  have hodd : (off + 4) % 8 = 4 := by omega
  unfold State.writeReg
  simp [slot_high h8, hslot, h4, hodd, hp, hw]

end Slot

/-! ### HUB_SCRATCH: one field of 64 bits, free to every writer -/

theorem State.shown_hubScratch (s : State) : s.shown .hubScratch 0 0 = s.rd .hubScratch 0 0 := by
  have hlt := s.rd_lt .hubScratch 0 0
  have hshown : s.shown .hubScratch 0 0 = 0 + bitsOf (s.rd .hubScratch 0 0) 0 64 * 2 ^ 0 := rfl
  rw [hshown]
  unfold bitsOf
  omega

theorem State.taken_hubScratch (s : State) (who : Writer) (v : Nat) : s.taken who .hubScratch 0 0 v = v % 2 ^ 64 := by
  have hlt := s.rd_lt .hubScratch 0 0
  have htaken : s.taken who .hubScratch 0 0 v = setBits (s.rd .hubScratch 0 0) 0 64 (bitsOf v 0 64) := rfl
  rw [htaken]
  unfold setBits bitsOf
  omega

theorem State.storeReg_hubScratch (s : State) (v : Nat) : s.storeReg .hubScratch 0 0 v = s.wr .hubScratch 0 0 (v / 1 * 1) := rfl

/-- A write of HUB_SCRATCH sets it and changes nothing else. -/
theorem State.writeSlot_hubScratch (s : State) (who : Writer) (v : Nat) :
    (s.writeSlot who .hubScratch 0 0 v).rd .hubScratch 0 0 = v % 2 ^ 64 ∧
      onlyRegs [regKey .hubScratch 0 0] s (s.writeSlot who .hubScratch 0 0 v) := by
  have hwrite : s.writeSlot who .hubScratch 0 0 v = if s.taken who .hubScratch 0 0 v = s.rd .hubScratch 0 0 then s
      else s.storeReg .hubScratch 0 0 (s.taken who .hubScratch 0 0 v) := rfl
  rw [hwrite, s.taken_hubScratch]
  split
  · exact ⟨Eq.symm ‹_›, onlyRegs_refl ..⟩
  · rw [State.storeReg_hubScratch, Nat.div_one, Nat.mul_one]
    exact ⟨by rw [State.rd_wr_self, Nat.mod_mod], onlyRegs_wr ..⟩

/-! ### Registers that are read-only throughout -/

theorem State.fieldOpen_ro (s : State) (who : Writer) (r : Reg) (k : Nat) {f : Field} (h : f.acc = .ro) :
    s.fieldOpen who r k f = false := by
  unfold State.fieldOpen
  rw [h]
  rfl

/-- Whether a register has behaviour of its own does not depend on the state. -/
theorem State.special_own (s t : State) (r : Reg) (k v : Nat) : (s.special r k v).2 = (t.special r k v).2 := by
  unfold State.special
  split <;> rfl

section ReadOnly
variable {s : State} {r : Reg} (hro : r.desc.fields.all (fun f => f.acc == .ro) = true)
include hro

theorem Reg.acc_of_ro {f : Field} (hf : f ∈ r.desc.fields) : f.acc = .ro := by
  simpa using List.all_eq_true.mp hro f hf

theorem State.refusesWhole_ro (v : Nat) : s.refusesWhole r v = false := by
  unfold State.refusesWhole
  split
  · exact absurd hro (by decide)
  · exact absurd hro (by decide)
  · exact absurd hro (by decide)
  · rfl

theorem State.taken_ro (who : Writer) (i k v : Nat) : s.taken who r i k v = s.rd r i k := by
  unfold State.taken
  rw [List.foldl_ext _ (fun a _ => a) _ (fun a f hf => by simp [s.fieldOpen_ro who r k (Reg.acc_of_ro hro hf)]), List.foldl_fixed]

theorem State.writeSlot_ro {who : Writer} {i k v : Nat} (hown : (s.special r k v).2 = false)
    (hne : ∃ f ∈ r.desc.fields, bitsOf v f.lo f.width ≠ bitsOf (s.shown r i k) f.lo f.width) :
    s.writeSlot who r i k v = s.regReject (r.offset i k) := by
  have hrefuse : s.refusesAny who r i k v = true := by
    obtain ⟨f, hf, hdiff⟩ := hne
    unfold State.refusesAny
    rw [List.any_eq_true]
    exact ⟨f, hf, by simpa [s.fieldOpen_ro who r k (Reg.acc_of_ro hro hf)] using hdiff⟩
  obtain ⟨x, hspecial⟩ : ∃ x, (s.regReject (r.offset i k)).special r k v = (x, false) :=
    ⟨_, Prod.ext rfl ((State.special_own _ s r k v).trans hown)⟩
  unfold State.writeSlot
  simp [hrefuse, State.refusesWhole_ro hro, hspecial, State.taken_ro hro]

end ReadOnly

/-! ## The relay (R495, R498, R504) -/

/-- An access for a requester has started: it is among those in progress, and the relay window is busy with its own. -/
def State.relayOpen (s : State) (who a : Nat) (w : Bool) : State :=
  let s1 := s.updHub (fun h => { h with relays := h.relays ++ [(who, a, w)] })
  if who = 0 then s1.wr .hubRelayStatus 0 0 1 else s1

theorem State.relayOpen_relays (s : State) (who a : Nat) (w : Bool) :
    (s.relayOpen who a w).hub.relays = s.hub.relays ++ [(who, a, w)] := by
  unfold State.relayOpen
  split <;> rfl

/-- The path of an access: that of the domain for the relay window, else that of MCTP. -/
def relayPath (who : Nat) : Nat := if who = 0 then 2 else 1

theorem relayPath_mctp (b : Nat) : relayPath (b + 1) = 1 := if_neg (Nat.succ_ne_zero b)

/-- The relays in progress but for the one that ends. -/
def State.relayClosed (s : State) (rs : List (Nat × Nat × Bool)) : State := s.updHub (fun h => { h with relays := rs })

theorem State.relayRun_elsewhere {s : State} {a : Nat} (who : Nat) (w : Bool) (v n : Nat) (h : ctrlOff a = none)
    (hok : locOf a ≠ .bad) : s.relayRun who a w v (n + 1) = (s.relayOpen who a w).relayEnd who 7 0 := by
  have hbad : badCtrl a = false := by simp [badCtrl, hok]
  unfold State.relayRun
  simp only [h, hok, hbad]
  rfl

theorem ctrlOff_of_bad {a : Nat} (h : locOf a = .bad) : ctrlOff a = none := by
  unfold ctrlOff
  rw [h]

theorem State.relayRun_reserved {s : State} {a : Nat} (who : Nat) (w : Bool) (v n : Nat) (hbad : locOf a = .bad) :
    s.relayRun who a w v (n + 1)
      = ((s.relayOpen who a w).hubAddrViol a).relayEnd who (if addrSpace a = 3 then 0 else 7) 0 := by
  have hctrl : badCtrl a = decide (addrSpace a = 3) := by simp [badCtrl, hbad]
  unfold State.relayRun
  simp only [ctrlOff_of_bad hbad, hbad, hctrl, decide_eq_true_eq]
  rfl

theorem offset_of_locOf_ctrl {a o : Nat} (h : locOf a = .ctrl o) : bitsOf (bitsOf a 0 46) 0 26 = o := by
  unfold locOf at h
  dsimp only at h
  split at h
  · split at h <;> cases h
  · split at h <;> cases h
  · cases h
  · split at h
    · cases h
    · split at h
      · exact Loc.ctrl.inj h
      · cases h
  · cases h

section Aligned
variable {s : State} {a off : Nat} (hoff : ctrlOff a = some off) (h8 : a % 8 = 0)
include hoff

theorem locOf_of_ctrlOff : locOf a = .ctrl off := by
  unfold ctrlOff at hoff
  split at hoff
  · rename_i hloc
    rw [hloc, Option.some.inj hoff]
  · cases hoff

/-- A register address of a package and the register offset agree in their low bits. -/
theorem ctrlOff_mod8 : off % 8 = a % 8 := by
  rw [← offset_of_locOf_ctrl (locOf_of_ctrlOff hoff)]
  unfold bitsOf
  omega

theorem ctrlOff_not_bad : locOf a ≠ .bad := by
  rw [locOf_of_ctrlOff hoff]
  exact Loc.noConfusion

include h8

theorem State.relayRun_unsealed (who : Nat) (w : Bool) (v n : Nat) (hpkg : addrPkg a ≠ s.pkg) (hseal : s.isSealed = false) :
    s.relayRun who a w v (n + 1) = (s.relayOpen who a w).relayEnd who 5 0 := by
  unfold State.relayRun
  simp only [hoff, ctrlOff_not_bad hoff, h8, hpkg, hseal]
  simp
  rfl

theorem State.relayRun_read (who : Nat) (v n : Nat) (hpkg : addrPkg a = s.pkg) :
    s.relayRun who a false v (n + 1)
      = ((s.relayOpen who a false).readReg (relayPath who) off 8).1.relayEnd who
          (if ((s.relayOpen who a false).readReg (relayPath who) off 8).2.isSome then 0 else 4)
          (((s.relayOpen who a false).readReg (relayPath who) off 8).2.getD 0) := by
  have hlow : off / 8 * 8 = off := slot_low ((ctrlOff_mod8 hoff).trans h8)
  rcases hread : (s.relayOpen who a false).readReg (relayPath who) off 8 with ⟨t, _ | x⟩
  all_goals
    unfold State.relayOpen relayPath at hread
    unfold State.relayRun
    simp [hoff, ctrlOff_not_bad hoff, h8, hpkg, hlow, hread]

theorem State.relayRun_write (who : Nat) (v n : Nat) (hpkg : addrPkg a = s.pkg) (hne : off ≠ relayCtl) :
    s.relayRun who a true v (n + 1)
      = ((s.relayOpen who a true).writeReg (relayPath who) off 8 v).1.relayEnd who
          (if ((s.relayOpen who a true).writeReg (relayPath who) off 8 v).2 then 0 else 4) 0 := by
  have hlow : off / 8 * 8 = off := slot_low ((ctrlOff_mod8 hoff).trans h8)
  unfold State.relayRun
  simp only [hoff, ctrlOff_not_bad hoff, h8, hpkg, hlow, hne]
  simp
  rfl

end Aligned

/-! ### The end of an access -/

section End
variable {t : State} {rs : List (Nat × Nat × Bool)} {who a : Nat} {w : Bool}
variable (hopen : t.hub.relays = rs ++ [(who, a, w)]) (hfree : rs.any (fun r => r.1 == who) = false)
include hopen hfree

theorem find?_relay : t.hub.relays.find? (fun r => r.1 == who) = some (who, a, w) := by
  have hnone : rs.find? (fun r => r.1 == who) = none := by
    rw [List.find?_eq_none]
    exact fun r hr => by simpa using List.any_eq_false.mp hfree r hr
  rw [hopen, List.find?_append, hnone]
  simp

theorem filter_relay : t.hub.relays.filter (fun r => r.1 != who) = rs := by
  have hall : rs.filter (fun r => r.1 != who) = rs := by
    rw [List.filter_eq_self]
    exact fun r hr => by simpa using List.any_eq_false.mp hfree r hr
  rw [hopen, List.filter_append, hall]
  simp

theorem State.relayEnd_eq (code data : Nat) : t.relayEnd who code data =
    (if who = 0 then
      ((if !w ∧ relayResult code = 0 then (t.relayClosed rs).wr .hubRelayData 0 0 data else t.relayClosed rs).wr
        .hubRelayStatus 0 0 (2 * relayResult code))
    else (t.relayClosed rs).vdmAnswer (who - 1) (if w then 2 else 1) (vdmCode (relayResult code))
      (if w then [] else leBytes 8 (if relayResult code = 0 then data else 0))) := by
  have hclosed : t.updHub (fun h => { h with relays := h.relays.filter (fun r => r.1 != who) }) = t.relayClosed rs := by
    conv_rhs => rw [← filter_relay hopen hfree]
    rfl
  unfold State.relayEnd
  rw [find?_relay hopen hfree]
  dsimp only
  rw [hclosed]

end End

end Sys2Proof.Machine
end

section
namespace Sys2Proof.Claims

open Machine

/-! ## What a register write leaves -/

theorem registerWrite_eq {s : State} {path off : Nat} (hpwr : s.pwrState ≠ 0) (hpath : path < 2) (hne : off ≠ relayCtl)
    (bytes v : Nat) : exec (.registerWrite path off bytes v) s = .next (s.writeReg path off bytes (v % 2 ^ 64)).1 := by
  show execRegisterWrite path off bytes v s = _
  unfold execRegisterWrite State.regWrite
  rw [if_neg (by omega), if_neg (fun h => hne h.1)]

/-- A slot that holds another register, or none, is not that of HUB_RELAY_CTL. -/
theorem ne_relayCtl {off : Nat} (h : regSlot off ≠ some (.hubRelayCtl, 0, 0)) : off ≠ relayCtl := by
  rintro rfl
  exact h regSlot_relayCtl

theorem hubScratch_ne_relayCtl : Reg.offset .hubScratch 0 0 ≠ relayCtl := ne_relayCtl (by rw [regSlot_hubScratch]; decide)

theorem registerWrite : RegisterWrite := by
  intro s path off v i k r hpwr hpath
  have h8 : Reg.offset .hubScratch 0 0 % 8 = 0 := rfl
  have hp : pathOk path .hubScratch true = true := by unfold pathOk; rfl
  have hlt := s.rd_lt .hubScratch 0 0
  refine ⟨?_, fun hv => ?_, fun hv => ?_, fun ho hslot hpath' hro hw hne hv hown => ?_, fun ho hslot => ?_⟩
  · obtain ⟨hrd, hframe⟩ := s.writeSlot_hubScratch s.writer (v % 2 ^ 64 % 2 ^ 64)
    refine ⟨_, (registerWrite_eq hpwr hpath hubScratch_ne_relayCtl 8 v).trans ?_, hrd.trans (by omega), hframe⟩
    rw [State.writeReg_whole h8 regSlot_hubScratch hp rfl]
  · obtain ⟨hrd, hframe⟩ := s.writeSlot_hubScratch s.writer (setBits (s.shown .hubScratch 0 0) 0 32 (v % 2 ^ 64) % 2 ^ 64)
    refine ⟨_, (registerWrite_eq hpwr hpath hubScratch_ne_relayCtl 4 v).trans ?_, hrd.trans ?_, hframe⟩
    · rw [State.writeReg_low h8 regSlot_hubScratch hp rfl]
    · rw [s.shown_hubScratch]
      unfold setBits bitsOf
      omega
  · obtain ⟨hrd, hframe⟩ := s.writeSlot_hubScratch s.writer (setBits (s.shown .hubScratch 0 0) 32 32 (v % 2 ^ 64) % 2 ^ 64)
    refine ⟨_, (registerWrite_eq hpwr hpath (by decide) 4 v).trans ?_, hrd.trans ?_, hframe⟩
    · rw [State.writeReg_high h8 regSlot_hubScratch hp rfl]
    · rw [s.shown_hubScratch]
      unfold setBits bitsOf
      omega
  · have hctl : off ≠ relayCtl := ne_relayCtl (by
      rw [hslot]
      rintro ⟨⟩
      exact absurd hro (by decide))
    have hmod : v % 2 ^ 64 % 2 ^ 64 = v := by omega
    have hrun := registerWrite_eq hpwr hpath hctl 8 v
    rw [State.writeReg_whole ho hslot hpath' hw, hmod, State.writeSlot_ro hro hown hne] at hrun
    exact ⟨_, hrun, viol_counts ..⟩
  · have hrun := registerWrite_eq hpwr hpath (ne_relayCtl (by rw [hslot]; simp)) 8 v
    rw [State.writeReg_unmapped ho hslot] at hrun
    exact ⟨_, hrun, unmapped_counts ..⟩

/-! ## The relay window (R495, R498) -/

theorem relayGo_busy {s : State} (hpwr : s.pwrState ≠ 0) (hbusy : s.relayBusy = true) (w : Bool) :
    exec (.relayGo w) s = .next (s.hostViol 0xFF (1 + 2 * oneIf w)) := by
  show execRelayGo w s = _
  unfold execRelayGo State.relayGo
  cases w <;> simp [hpwr, hbusy, oneIf]

theorem relayGo_run {s : State} (hpwr : s.pwrState ≠ 0) (hbusy : s.relayBusy = false) (w : Bool) :
    exec (.relayGo w) s = .next (s.relayRun 0 (s.rd .hubRelayAddr 0 0) w (s.rd .hubRelayData 0 0) 2) := by
  show execRelayGo w s = _
  unfold execRelayGo State.relayGo
  cases w <;> simp [hpwr, hbusy, oneIf, Nat.testBit]

theorem readReg_relays (s : State) (path : Nat) {off : Nat} (h8 : off % 8 = 0) :
    (s.readReg path off 8).1.hub.relays = s.hub.relays := by
  rcases hslot : regSlot off with _ | ⟨r, i, k⟩
  · rw [State.readReg_unmapped h8 hslot]
    unfold State.unmapped
    split
    · exact congrArg Hub.relays (State.viol_hub ..)
    · exact congrArg Hub.relays (State.viol_hub ..)
  · rcases hp : pathOk path r false with _ | _
    · rw [State.readReg_refused h8 hslot hp]
    · rw [State.readReg_whole h8 hslot hp]
      by_cases hr : r = .hubFltqRec
      · subst hr
        show ((s.recSlot k).1).hub.relays = s.hub.relays
        unfold State.recSlot
        dsimp only
        split
        · split <;> rfl
        · split <;> rfl
      · rw [State.readSlot_eq hr]
        show (s.clearRead r i k).hub.relays = s.hub.relays
        rw [(onlyRegs_clearRead s r i k).1]

/-- An access of the relay window has ended: beside HUB_RELAY_STATUS and HUB_RELAY_DATA only the relays in progress change. -/
theorem relayEnd_leaves {t : State} {rs : List (Nat × Nat × Bool)} {a : Nat} {w : Bool} (hopen : t.hub.relays = rs ++ [(0, a, w)])
    (hfree : rs.any (fun r => r.1 == 0) = false) (code data : Nat) :
    (t.relayEnd 0 code data).rd .hubRelayStatus 0 0 = 2 * relayResult code ∧
      regsBut [regKey .hubRelayData 0 0, regKey .hubRelayStatus 0 0] t (t.relayEnd 0 code data) ∧
      (t.relayEnd 0 code data).cores = t.cores ∧ memKept t (t.relayEnd 0 code data) ∧
      (t.relayEnd 0 code data).hub.relays = rs ∧ (t.relayEnd 0 code data).outbox = t.outbox := by
  have hres : relayResult code < 8 := by
    unfold relayResult
    repeat' split
    all_goals omega
  have hclosed : regsBut [regKey .hubRelayData 0 0, regKey .hubRelayStatus 0 0] t (t.relayClosed rs) := fun _ _ => rfl
  rw [State.relayEnd_eq hopen hfree, if_pos rfl]
  split
  · exact ⟨State.rd_wr_of_lt _ _ _ _ (by omega), (hclosed.wr data (by simp)).wr _ (by simp), rfl, ⟨rfl, rfl⟩, rfl, rfl⟩
  · exact ⟨State.rd_wr_of_lt _ _ _ _ (by omega), hclosed.wr _ (by simp), rfl, ⟨rfl, rfl⟩, rfl, rfl⟩

/-- An access of the relay window that moved no data has ended with RESULT. -/
theorem relayEnd_window {s t : State} {a : Nat} {w : Bool} (hopen : t.hub.relays = s.hub.relays ++ [(0, a, w)])
    (hfree : s.hub.relays.any (fun r => r.1 == 0) = false) {code : Nat} (hdata : w = true ∨ relayResult code ≠ 0) (data : Nat) :
    t.relayEnd 0 code data = (t.relayClosed s.hub.relays).wr .hubRelayStatus 0 0 (2 * relayResult code) := by
  rw [State.relayEnd_eq hopen hfree, if_pos rfl, if_neg]
  rintro ⟨hw, hr⟩
  rcases hdata with rfl | hdata
  · cases hw
  · exact hdata hr

/-- An access that ends as soon as it has started leaves RESULT in HUB_RELAY_STATUS and nothing else. -/
theorem relayEnd_opened {s : State} {a : Nat} {w : Bool} (hfree : s.hub.relays.any (fun r => r.1 == 0) = false) {code res : Nat}
    (hres : relayResult code = res) (hpos : res ≠ 0) (hlt : res < 8) :
    (((s.relayOpen 0 a w).relayEnd 0 code 0).rd .hubRelayStatus 0 0 = 2 * res) ∧
      onlyRegs [regKey .hubRelayStatus 0 0] s ((s.relayOpen 0 a w).relayEnd 0 code 0) := by
  rw [relayEnd_window (s.relayOpen_relays 0 a w) hfree (.inr (hres ▸ hpos)), hres]
  refine ⟨State.rd_wr_of_lt _ _ _ _ (by omega), rfl, ?_⟩
  have hopen : regsBut [regKey .hubRelayStatus 0 0] s (s.relayOpen 0 a w) := regsBut_wr s .hubRelayStatus 0 0 1
  exact (hopen.of_regs rfl).wr _ (List.mem_singleton_self _)

theorem relayGo : RelayGo := by
  intro s u off x a hpwr ha
  subst ha
  refine ⟨fun hbusy hfree hoff hpkg h8 hread => ?_, fun hbusy hfree hoff hpkg => ?_, fun hbusy hfree hoff hok w => ?_,
    fun hbusy hfree hbad w => ?_, fun hbusy hfree hoff h8 hpkg hseal w => ?_, fun hbusy w => ?_⟩
  · have hread' : (s.relayOpen 0 (s.rd .hubRelayAddr 0 0) false).readReg (relayPath 0) off 8 = (u, some x) := hread
    have hrelays := readReg_relays (s.relayOpen 0 (s.rd .hubRelayAddr 0 0) false) (relayPath 0) ((ctrlOff_mod8 hoff).trans h8)
    rw [hread', State.relayOpen_relays] at hrelays
    have hrun := relayGo_run hpwr hbusy false
    rw [State.relayRun_read hoff h8 0 _ 1 hpkg, hread'] at hrun
    obtain ⟨hstatus, hframe, -, -, hclosed, hout⟩ := relayEnd_leaves hrelays hfree 0 x
    refine ⟨_, hrun, ?_, hstatus, hframe, hclosed, hout⟩
    show (u.relayEnd 0 0 x).rd .hubRelayData 0 0 = _
    rw [State.relayEnd_eq hrelays hfree]
    exact (State.rd_wr_ne _ (by decide) ..).trans (State.rd_wr_self ..)
  · have h8 : s.rd .hubRelayAddr 0 0 % 8 = 0 := (ctrlOff_mod8 hoff).symm
    have hrun := relayGo_run hpwr hbusy true
    rw [State.relayRun_write hoff h8 0 _ 1 hpkg hubScratch_ne_relayCtl,
      State.writeReg_whole rfl regSlot_hubScratch rfl rfl] at hrun
    obtain ⟨hrd, heq, hframe⟩ := (s.relayOpen 0 (s.rd .hubRelayAddr 0 0) true).writeSlot_hubScratch
      (s.relayOpen 0 (s.rd .hubRelayAddr 0 0) true).writer (s.rd .hubRelayData 0 0 % 2 ^ 64)
    generalize (s.relayOpen 0 (s.rd .hubRelayAddr 0 0) true).writeSlot _ _ _ _ _ = t at hrun hrd heq hframe
    have hrelays : t.hub.relays = s.hub.relays ++ [(0, s.rd .hubRelayAddr 0 0, true)] := by
      rw [heq]
      exact s.relayOpen_relays ..
    rw [relayEnd_window hrelays hfree (.inl rfl)] at hrun
    have hdata := s.rd_lt .hubRelayData 0 0
    have hopen : regsBut [regKey .hubScratch 0 0, regKey .hubRelayStatus 0 0] s (s.relayOpen 0 (s.rd .hubRelayAddr 0 0) true) :=
      (regsBut_wr s .hubRelayStatus 0 0 1).mono (by simp)
    refine ⟨_, hrun, (State.rd_wr_ne _ (by decide) ..).trans (hrd.trans (by omega)), State.rd_wr_self .., ?_, ?_⟩
    · rw [heq]
      rfl
    · exact ((hopen.trans (hframe.mono (by simp))).of_regs rfl).wr _ (by simp)
  · obtain ⟨hrd, hframe⟩ := relayEnd_opened (a := s.rd .hubRelayAddr 0 0) (w := w) hfree (code := 7) (res := 3) rfl
      (by omega) (by omega)
    refine ⟨_, relayGo_run hpwr hbusy w, ?_⟩
    rw [State.relayRun_elsewhere 0 w _ 1 hoff hok]
    exact ⟨hrd, hframe⟩
  · have hrun := relayGo_run hpwr hbusy w
    rw [State.relayRun_reserved 0 w _ 1 hbad] at hrun
    obtain ⟨hcount, hframe, hcores, hmem⟩ := viol_counts (s.relayOpen 0 (s.rd .hubRelayAddr 0 0) w) .hubAddrViolCnt 0 0xFF 0xFFFFFFFF
      0xFF (s.rd .hubRelayAddr 0 0)
    have hrelays : ((s.relayOpen 0 (s.rd .hubRelayAddr 0 0) w).hubAddrViol (s.rd .hubRelayAddr 0 0)).hub.relays
        = s.hub.relays ++ [(0, s.rd .hubRelayAddr 0 0, w)] :=
      (congrArg Hub.relays (State.viol_hub ..)).trans (s.relayOpen_relays ..)
    obtain ⟨hstatus, hframe', hcores', hmem', -, -⟩ := relayEnd_leaves hrelays hfree
      (if addrSpace (s.rd .hubRelayAddr 0 0) = 3 then 0 else 7) 0
    have hopen : regsBut [regKey .hubRelayStatus 0 0] s (s.relayOpen 0 (s.rd .hubRelayAddr 0 0) w) := regsBut_wr s .hubRelayStatus 0 0 1
    refine ⟨_, hrun, hstatus.trans (by split <;> rfl), ?_, ?_, hcores'.trans hcores, hmem'.1.trans hmem.1, hmem'.2.trans hmem.2⟩
    · unfold counted at hcount ⊢
      rw [hframe'.rd (by decide)]
      exact hcount.trans (by rw [hopen.rd_ne (by decide)])
    · exact ((hopen.mono (by simp)).trans (hframe.mono (by simp))).trans (hframe'.mono (by simp))
  · obtain ⟨hrd, hframe⟩ := relayEnd_opened (a := s.rd .hubRelayAddr 0 0) (w := w) hfree (code := 5) (res := 2) rfl
      (by omega) (by omega)
    refine ⟨_, relayGo_run hpwr hbusy w, ?_⟩
    rw [State.relayRun_unsealed hoff h8 0 w _ 1 hpkg hseal]
    exact ⟨hrd, hframe⟩
  · refine ⟨_, relayGo_busy hpwr hbusy w, ?_⟩
    obtain ⟨hcount, hframe, hcores, hmem⟩ := viol_counts s .hostViolCnt 0 0xFF 0xFFFFFFFF 0xFF (1 + 2 * oneIf w)
    exact ⟨hcount, hframe, State.viol_hub .., hcores, hmem⟩

end Sys2Proof.Claims

namespace Sys2Proof.Certificates

/-- Settles O48, one lemma for each of its statements. -/
theorem registerCommands : Obligations.RegisterCommands :=
  ⟨Claims.linkSeen, Claims.rcRead, Claims.halfReadLatch, Claims.fltqRecLatch, Claims.registerWrite, Claims.relayGo⟩

end Sys2Proof.Certificates
end

section
namespace Sys2Proof.Claims

open Machine

/-! ## The vendor-defined commands of MCTP (R503, R504) -/

theorem mctpTake_serve {s : State} {b : Nat} {control : Bool} (h : MctpOk s b control) (inRec : Bool) (serve : State → State) :
    s.mctpTake b control inRec serve = serve s := by
  obtain ⟨hpwr, hhas, hopen, hid, hrec⟩ := h
  unfold State.mctpTake
  rcases hid with rfl | hid <;> simp [*]

theorem vdmTake_serve {s : State} {b : Nat} (h : VdmOk s b) (cmd : Nat) (inRec : Bool) (serve : State → State) :
    s.vdmTake b cmd inRec serve = serve s := by
  unfold State.vdmTake
  rw [mctpTake_serve h.1, h.2]
  rfl

theorem vdmAnswer_nil (s : State) (b cmd code : Nat) :
    s.vdmAnswer b cmd code [] = s.send (.mctp b (vdmHead ++ [cmd, code])) := by
  unfold State.vdmAnswer
  rw [List.append_nil]

theorem vdmTake_busy {s : State} {b : Nat} (h : MctpOk s b false) (hbusy : s.vdmBusy b = true) (cmd : Nat) (inRec : Bool)
    (serve : State → State) : s.vdmTake b cmd inRec serve = s.send (.mctp b (vdmHead ++ [cmd, 3])) := by
  unfold State.vdmTake
  rw [mctpTake_serve h, hbusy, ← vdmAnswer_nil]
  rfl

theorem vdmBusy : VdmBusy := fun _ _ _ _ _ h hbusy =>
  ⟨congrArg _ (vdmTake_busy h hbusy 1 false _), congrArg _ (vdmTake_busy h hbusy 2 false _),
    congrArg _ (vdmTake_busy h hbusy 3 false _), congrArg _ (vdmTake_busy h hbusy 4 false _),
    congrArg _ (vdmTake_busy h hbusy 5 false _)⟩

/-! ### Register accesses -/

theorem exec_regRead {s : State} {b : Nat} (h : VdmOk s b) (addr : Nat) :
    exec (.regRead b addr) s = .next (s.relayRun (b + 1) addr false 0 2) := congrArg _ (vdmTake_serve h 1 false _)

theorem exec_regWrite {s : State} {b : Nat} (h : VdmOk s b) (addr value : Nat) :
    exec (.regWrite b addr value) s = .next (s.relayRun (b + 1) addr true (value % 2 ^ 64) 2) :=
  congrArg _ (vdmTake_serve h 2 false _)

/-- A request over MCTP changes nothing but the accesses in progress while it is open. -/
theorem relayOpen_mctp (s : State) (b a : Nat) (w : Bool) :
    s.relayOpen (b + 1) a w = s.relayClosed (s.hub.relays ++ [(b + 1, a, w)]) := by
  rw [State.relayOpen, if_neg (Nat.succ_ne_zero b)]
  rfl

/-- The answer to a register access over MCTP (R504). -/
theorem relayEnd_mctp {s t : State} {b a : Nat} {w : Bool} (hfree : s.vdmBusy b = false)
    (hopen : t.hub.relays = s.hub.relays ++ [(b + 1, a, w)]) (code data : Nat) :
    t.relayEnd (b + 1) code data = (t.relayClosed s.hub.relays).vdmAnswer b (if w then 2 else 1) (vdmCode (relayResult code))
      (if w then [] else leBytes 8 (if relayResult code = 0 then data else 0)) := by
  rw [State.relayEnd_eq hopen hfree, if_neg (Nat.succ_ne_zero b), Nat.add_sub_cancel]

/-- A read that has ended with its value. -/
theorem relayEnd_value {s t : State} {b a : Nat} (hfree : s.vdmBusy b = false)
    (hopen : t.hub.relays = s.hub.relays ++ [(b + 1, a, false)]) (x : Nat) :
    t.relayEnd (b + 1) 0 x = (t.relayClosed s.hub.relays).send (.mctp b (vdmHead ++ [1, 0] ++ leBytes 8 x)) :=
  relayEnd_mctp hfree hopen 0 x

/-- A write that has ended. -/
theorem relayEnd_written {s t : State} {b a : Nat} (hfree : s.vdmBusy b = false)
    (hopen : t.hub.relays = s.hub.relays ++ [(b + 1, a, true)]) (code : Nat) :
    t.relayEnd (b + 1) code 0
      = (t.relayClosed s.hub.relays).send (.mctp b (vdmHead ++ [2, vdmCode (relayResult code)])) := by
  rw [relayEnd_mctp hfree hopen code 0, if_pos rfl, if_pos rfl, vdmAnswer_nil]

/-- A read that ends without a value is answered with its completion byte and zeros. -/
theorem relayEnd_zeros {s t : State} {b a : Nat} (hfree : s.vdmBusy b = false)
    (hopen : t.hub.relays = s.hub.relays ++ [(b + 1, a, false)]) (code : Nat) :
    t.relayEnd (b + 1) code 0
      = (t.relayClosed s.hub.relays).send (.mctp b (vdmHead ++ [1, vdmCode (relayResult code)] ++ List.replicate 8 0)) := by
  rw [relayEnd_mctp hfree hopen code 0, if_neg (by decide), if_neg (by decide), ite_self]
  rfl

/-- A read that fails as soon as it has started. -/
theorem answers_failed {s : State} {b : Nat} (hfree : s.vdmBusy b = false) (a code : Nat) :
    (s.relayOpen (b + 1) a false).relayEnd (b + 1) code 0
      = s.send (.mctp b (vdmHead ++ [1, vdmCode (relayResult code)] ++ List.replicate 8 0)) := by
  rw [relayEnd_zeros hfree (s.relayOpen_relays ..), relayOpen_mctp]
  rfl

/-- What a violation during an access counts and leaves is not touched by the start and the end of the access. -/
theorem access_counts {s t : State} {r : Reg} {rs : List (Nat × Nat × Bool)}
    (h : counted r 0 1 (s.relayClosed rs) t ∧ regsBut [regKey r 0 0] (s.relayClosed rs) t ∧ t.cores = (s.relayClosed rs).cores ∧
      memKept (s.relayClosed rs) t) (rs' : List (Nat × Nat × Bool)) (o : Out) :
    counted r 0 1 s ((t.relayClosed rs').send o) ∧ regsBut [regKey r 0 0] s ((t.relayClosed rs').send o) ∧
      ((t.relayClosed rs').send o).cores = s.cores ∧ memKept s ((t.relayClosed rs').send o) := h

theorem access_outbox {s t : State} {rs : List (Nat × Nat × Bool)} (h : t.outbox = (s.relayClosed rs).outbox)
    (rs' : List (Nat × Nat × Bool)) (o : Out) : ((t.relayClosed rs').send o).outbox = s.outbox ++ [o] := congrArg (· ++ [o]) h

/-- The accesses in progress are those of the state after a violation too. -/
theorem viol_relays (s : State) (rs : List (Nat × Nat × Bool)) (r : Reg) (i op q f v : Nat) :
    ((s.relayClosed rs).viol r i op q f v).hub.relays = rs := congrArg Hub.relays (State.viol_hub ..)

theorem regRead : RegRead := by
  intro s b addr off i k r _ hok
  have hfree := hok.2
  have hrun := exec_regRead hok addr
  refine ⟨fun hoff hpkg h8 hslot hr => ⟨fun hp => ?_, fun hp => ?_⟩, fun hnone hloc => ?_, fun hbad => ?_,
    fun hoff h8 hpkg hseal => ?_⟩
  · have ha := (ctrlOff_mod8 hoff).symm.trans h8
    rw [State.relayRun_read hoff ha (b + 1) 0 1 hpkg, relayOpen_mctp, relayPath_mctp, State.readReg_whole h8 hslot hp,
      State.readSlot_eq hr] at hrun
    have hshown : (s.relayClosed (s.hub.relays ++ [(b + 1, addr, false)])).shown r i k = s.shown r i k := State.updHub_shown ..
    obtain ⟨heq, hframe⟩ := onlyRegs_clearRead (s.relayClosed (s.hub.relays ++ [(b + 1, addr, false)])) r i k
    have hclear : r.desc.fields.any (fun f => f.acc == .rc) = true → s.gone r i = false →
        ((s.relayClosed (s.hub.relays ++ [(b + 1, addr, false)])).clearRead r i k).rd r i k = 0 :=
      fun hrc hg => State.rd_clearRead (s := s.relayClosed (s.hub.relays ++ [(b + 1, addr, false)])) hrc hg k
    have hkept : r.desc.fields.any (fun f => f.acc == .rc) = false →
        ((s.relayClosed (s.hub.relays ++ [(b + 1, addr, false)])).clearRead r i k).regs = s.regs := fun hrc => by
      rw [State.clearRead_of_not_rc hrc]
      rfl
    rw [hshown] at hrun
    generalize (s.relayClosed (s.hub.relays ++ [(b + 1, addr, false)])).clearRead r i k = t at hrun heq hframe hclear hkept
    have hrelays : t.hub.relays = s.hub.relays ++ [(b + 1, addr, false)] := by
      rw [heq]
      rfl
    refine ⟨_, hrun.trans (congrArg _ (relayEnd_value hfree hrelays (s.shown r i k))), ?_, hframe, hclear, hkept⟩
    rw [heq]
    rfl
  · have ha := (ctrlOff_mod8 hoff).symm.trans h8
    rw [State.relayRun_read hoff ha (b + 1) 0 1 hpkg, relayPath_mctp, State.readReg_refused h8 hslot hp] at hrun
    exact hrun.trans (congrArg _ (answers_failed hfree addr 4))
  · rw [State.relayRun_elsewhere (b + 1) false 0 1 hnone hloc] at hrun
    exact hrun.trans (congrArg _ (answers_failed hfree addr 7))
  · rw [State.relayRun_reserved (b + 1) false 0 1 hbad, relayOpen_mctp, State.hubAddrViol,
      relayEnd_zeros hfree (viol_relays ..)] at hrun
    obtain ⟨hcount, hframe, hcores, hmem⟩ := access_counts (viol_counts (s.relayClosed (s.hub.relays ++ [(b + 1, addr, false)]))
      .hubAddrViolCnt 0 0xFF 0xFFFFFFFF 0xFF addr) s.hub.relays
      (.mctp b (vdmHead ++ [1, vdmCode (relayResult (if addrSpace addr = 3 then 0 else 7))] ++ List.replicate 8 0))
    refine ⟨_, hrun, hcount, ?_, hframe, hcores, hmem⟩
    refine (access_outbox (State.viol_outbox (s.relayClosed _) ..) _ _).trans ?_
    by_cases hspace : addrSpace addr = 3 <;> simp only [hspace] <;> rfl
  · rw [State.relayRun_unsealed hoff h8 (b + 1) false 0 1 hpkg hseal] at hrun
    exact hrun.trans (congrArg _ (answers_failed hfree addr 5))

theorem regWrite : RegWrite := by
  intro s b addr value off i k r _ hok hoff hpkg
  have hfree := hok.2
  have hrun := exec_regWrite hok addr value
  refine ⟨fun hscratch => ?_, fun h8 hslot hp => ?_⟩
  · subst hscratch
    rw [State.relayRun_write hoff (ctrlOff_mod8 hoff).symm (b + 1) _ 1 hpkg hubScratch_ne_relayCtl,
      State.writeReg_whole rfl regSlot_hubScratch rfl rfl, relayOpen_mctp] at hrun
    obtain ⟨hrd, heq, hframe⟩ := (s.relayClosed (s.hub.relays ++ [(b + 1, addr, true)])).writeSlot_hubScratch
      (s.relayClosed (s.hub.relays ++ [(b + 1, addr, true)])).writer (value % 2 ^ 64 % 2 ^ 64)
    generalize (s.relayClosed (s.hub.relays ++ [(b + 1, addr, true)])).writeSlot _ _ _ _ _ = t at hrun hrd heq hframe
    have hrelays : t.hub.relays = s.hub.relays ++ [(b + 1, addr, true)] := by
      rw [heq]
      rfl
    refine ⟨_, hrun.trans (congrArg _ (relayEnd_written hfree hrelays 0)), hrd.trans (by omega), ?_, hframe⟩
    rw [heq]
    rfl
  · have hctl : off ≠ relayCtl := ne_relayCtl (by
      rw [hslot]
      rintro ⟨⟩
      exact absurd hp (by decide))
    rw [State.relayRun_write hoff ((ctrlOff_mod8 hoff).symm.trans h8) (b + 1) _ 1 hpkg hctl, relayPath_mctp,
      State.writeReg_refused h8 hslot hp, relayOpen_mctp, State.regReject, relayEnd_written hfree (viol_relays ..)] at hrun
    obtain ⟨hcount, hframe, hcores, hmem⟩ := access_counts (viol_counts (s.relayClosed (s.hub.relays ++ [(b + 1, addr, true)]))
      .hubRegWriteRejCnt 0 0xFF 0xFFFFFFFF 0xFF off) s.hub.relays (.mctp b (vdmHead ++ [2, 1]))
    exact ⟨_, hrun, hcount, hframe, access_outbox (State.viol_outbox (s.relayClosed _) ..) _ _, hcores, hmem⟩

/-! ### The ward over MCTP (R425) -/

theorem map_bytes {bs : List Nat} (h : bs.all (· < 256) = true) : bs.map (· % 256) = bs := by
  have hid : bs.map (· % 256) = bs.map id :=
    List.map_congr_left fun x hx => Nat.mod_eq_of_lt (by simpa using List.all_eq_true.mp h x hx)
  rw [hid, List.map_id]

theorem exec_wardSubmit {s : State} {b : Nat} (h : VdmOk s b) {block : List Nat} (hlen : 64 ≤ block.length)
    (hlen' : block.length ≤ 576) (hbytes : block.all (· < 256) = true) :
    exec (.wardSubmit b block) s = .next (s.wardTake block) := by
  refine congrArg _ ((vdmTake_serve h 3 false _).trans ?_)
  rw [if_neg (by omega), map_bytes hbytes]

/-- A block over MCTP is the mailbox's command of its code. -/
theorem wardCommand_eq {s : State} {code : Nat} {block : List Nat} (hup : s.wardUp = true) (hcode : (wardBlk block).code = code) :
    s.wardCommand code block = s.wardTake block := by
  unfold State.wardCommand
  simp [hup, hcode]

/-- The nonce that the ward draws next. -/
def nextNonce (s : State) : Nat := Config.randomBits s.freeIx % 2 ^ 128

theorem newNonce_eq {s : State} (hrng : s.ward.rngBad = false) (hblock : s.ward.block = none) :
    s.newNonce = ((((s.fresh 1).updWard (fun w => { w with nonce := some (nextNonce s) })).wr .wardDbgNonce 0 0
      (nextNonce s % 2 ^ 64)).wr .wardDbgNonce 0 1 (nextNonce s / 2 ^ 64)) := by
  have hserve : s.wardServe = s := by
    unfold State.wardServe
    rw [hblock]
  unfold State.newNonce
  rw [hserve]
  simp only [hrng]
  rfl

theorem nonce_answer {s : State} {b : Nat} (hok : VdmOk s b) (hrng : s.ward.rngBad = false) (hblock : s.ward.block = none) :
    ∃ t n, exec (.nonce b) s = .next t ∧ t.ward.nonce = some n ∧ n < 2 ^ 128 ∧
      t.outbox = s.outbox ++ [.mctp b (vdmHead ++ [5, 0] ++ leBytes 8 (n % 2 ^ 64) ++ leBytes 8 (n / 2 ^ 64))] ∧
      regsBut [regKey .wardDbgNonce 0 0, regKey .wardDbgNonce 0 1] s t ∧ t.cores = s.cores ∧ memKept s t := by
  have hlt : nextNonce s < 2 ^ 128 := Nat.mod_lt _ (by decide)
  have hrun : exec (.nonce b) s = .next (s.newNonce.vdmAnswer b 5 0
      (leBytes 8 (s.newNonce.rd .wardDbgNonce 0 0) ++ leBytes 8 (s.newNonce.rd .wardDbgNonce 0 1))) := by
    refine congrArg _ ((vdmTake_serve hok 5 false _).trans ?_)
    simp only [hrng]
    rfl
  have hlow : s.newNonce.rd .wardDbgNonce 0 0 = nextNonce s % 2 ^ 64 := by
    rw [newNonce_eq hrng hblock, State.rd_wr_key _ _ (by decide), State.rd_wr_of_lt _ _ _ _ (Nat.mod_lt _ (by decide))]
  have hhigh : s.newNonce.rd .wardDbgNonce 0 1 = nextNonce s / 2 ^ 64 := by
    rw [newNonce_eq hrng hblock, State.rd_wr_of_lt _ _ _ _ (by omega)]
  rw [hlow, hhigh] at hrun
  refine ⟨_, nextNonce s, hrun, ?_, hlt, ?_, ?_, ?_, ?_⟩
  · rw [newNonce_eq hrng hblock]
    rfl
  · rw [newNonce_eq hrng hblock, List.append_assoc]
    rfl
  · rw [newNonce_eq hrng hblock]
    have hdrawn : regsBut [regKey .wardDbgNonce 0 0, regKey .wardDbgNonce 0 1] s
        ((s.fresh 1).updWard (fun w => { w with nonce := some (nextNonce s) })) := fun _ _ => rfl
    exact (hdrawn.wr _ (by simp)).wr _ (by simp)
  · rw [newNonce_eq hrng hblock]
    rfl
  · rw [newNonce_eq hrng hblock]
    exact ⟨rfl, rfl⟩

theorem wardOverMctp : WardOverMctp := by
  intro s b block hok
  refine ⟨fun hlen hlen' hbytes hup => ?_, fun hlen => ?_, ?_, nonce_answer hok⟩
  · have hrun := exec_wardSubmit hok hlen hlen' hbytes
    refine ⟨fun hnone => ⟨_, hrun, ?_⟩, fun hbusy => ⟨_, hrun, ?_⟩, fun hcode => ?_, fun hcode => ?_⟩
    · unfold State.wardTake
      rw [hnone]
      rfl
    · have htake : s.wardTake block = s.wardViol (wardBlk block).code := if_pos (Option.isSome_iff_ne_none.mpr hbusy)
      obtain ⟨hcount, hframe, hcores, hmem⟩ := viol_counts s .wardViolCnt 0 0xFF 0xFFFFFFFF 0xFF (wardBlk block).code
      rw [htake]
      exact ⟨hcount, State.viol_ward .., hframe, hcores, hmem⟩
    · exact hrun.trans (congrArg _ (wardCommand_eq hup hcode).symm)
    · exact hrun.trans (congrArg _ (wardCommand_eq hup hcode).symm)
  · refine congrArg _ ((vdmTake_serve hok 3 false _).trans ?_)
    rw [if_pos hlen, vdmAnswer_nil]
  · refine congrArg _ ((vdmTake_serve hok 4 false _).trans ?_)
    unfold State.vdmAnswer
    rw [← List.append_assoc]

/-! ### Recovery writes (R474, R478) -/

theorem flashAt_putBoot_same (s : State) (a : Nat) (bs : List Nat) :
    (s.putBoot a bs).flashAt a bs.length = bs.map (· % 256) := by
  have hlen : (bs.map (· % 256)).length = bs.length := List.length_map ..
  show SMap.getRange _ (SMap.setRange _ s.boot.flash a (bs.map (· % 256))) a bs.length = _
  rw [SMap.getRange_eq, ← hlen]
  refine List.ext_getElem (by simp) fun i _ hi => ?_
  rw [List.getElem_map, List.getElem_range, SMap.get_setRange_in _ _ _ _ _ hi]

theorem flashAt_putBoot_out (s : State) {a x : Nat} {bs : List Nat} (h : x < a ∨ a + bs.length ≤ x) :
    (s.putBoot a bs).flashAt x 1 = s.flashAt x 1 := by
  show SMap.getRange _ (SMap.setRange _ s.boot.flash a (bs.map (· % 256))) x 1 = SMap.getRange _ s.boot.flash x 1
  rw [SMap.getRange_eq, SMap.getRange_eq]
  refine List.map_congr_left fun i hi => SMap.get_setRange_out _ _ _ _ _ ?_
  have hi' := List.mem_range.mp hi
  rw [List.length_map]
  omega

/-- The directory lies in the boot flash. -/
theorem flipDir_eq (s : State) : s.flipDir = { s with boot := s.flipDir.boot } := by
  unfold State.flipDir
  dsimp only
  split
  · split <;> rfl
  · rfl
  · rfl
  · rfl

theorem recoveryWrite : RecoveryWrite := by
  intro s off data hfree hpwr hopen hid
  have htake : ∀ serve : State → State, s.vdmTake 0 6 true serve = serve s := by
    intro serve
    unfold State.vdmTake State.mctpTake
    simp [hpwr, hopen, hid, hfree, State.mctpHas]
  refine ⟨fun hrec hlen hend => ?_, fun hrec hlen hend => ?_, fun hrec hlong => ?_, fun hrec => ?_⟩
  · have hrun : exec (.recoveryWrite 0 off data) s
        = .next ((s.putBoot ((objPlace (1 - s.activeSet) 1).1 + off) data).send (.mctp 0 (vdmHead ++ [6, 0]))) := by
      refine congrArg _ ((htake _).trans ?_)
      simp only [hrec]
      rw [if_neg (by decide), if_neg (by omega), if_neg (by omega), vdmAnswer_nil]
    exact ⟨_, hrun, flashAt_putBoot_same .., fun a ha => flashAt_putBoot_out s ha, rfl⟩
  · have hrun : exec (.recoveryWrite 0 off data) s
        = .next ((s.putBoot ((objPlace (1 - s.activeSet) 1).1 + off) data).flipDir.send (.mctp 0 (vdmHead ++ [6, 0]))) := by
      refine congrArg _ ((htake _).trans ?_)
      simp only [hrec]
      rw [if_neg (by decide), if_neg (by omega), if_pos hend, vdmAnswer_nil]
    refine ⟨_, hrun, ?_⟩
    rw [flipDir_eq]
    rfl
  · refine congrArg _ ((htake _).trans ?_)
    simp only [hrec]
    rw [if_neg (by decide), if_pos hlong, vdmAnswer_nil]
  · refine congrArg _ ((htake _).trans ?_)
    simp only [hrec]
    rw [if_pos (by decide), vdmAnswer_nil]

end Sys2Proof.Claims

namespace Sys2Proof.Certificates

/-- Settles O45, one lemma for each of its statements. -/
theorem vendorCommands : Obligations.VendorCommands :=
  ⟨Claims.vdmBusy, Claims.regRead, Claims.regWrite, Claims.wardOverMctp, Claims.recoveryWrite⟩

end Sys2Proof.Certificates
end

section
/-! ## What the gateway's rings touch

An entry that leaves a ring may go to the domain, and so through the fabric. -/

namespace Sys2Proof.Machine

open Claims

/-- Of the registers only those of the names in `L` may have changed, and no core has. -/
def Touches (L : List Reg) (s t : State) : Prop := t.cores = s.cores ∧ ∀ r, r ∉ L → ∀ i k, t.rd r i k = s.rd r i k

theorem Touches.refl (L : List Reg) (s : State) : Touches L s s := ⟨rfl, fun _ _ _ _ => rfl⟩

theorem Touches.trans {L : List Reg} {s t u : State} (h : Touches L s t) (h' : Touches L t u) : Touches L s u :=
  ⟨h'.1.trans h.1, fun r hr i k => (h'.2 r hr i k).trans (h.2 r hr i k)⟩

theorem Touches.mono {K L : List Reg} {s t : State} (h : Touches K s t) (hKL : K ⊆ L) : Touches L s t :=
  ⟨h.1, fun r hr => h.2 r (fun hm => hr (hKL hm))⟩

theorem Touches.of_eq {L : List Reg} {s t : State} (hr : t.regs = s.regs) (hc : t.cores = s.cores) : Touches L s t :=
  ⟨hc, fun r _ i k => State.rd_congr hr r i k⟩

theorem touches_wr {L : List Reg} {r : Reg} (hr : r ∈ L) (s : State) (i k v : Nat) : Touches L s (s.wr r i k v) :=
  ⟨rfl, fun r' hr' i' k' => State.rd_wr_ne s (by rintro rfl; exact hr' hr) i k v i' k'⟩

theorem touches_viol {L : List Reg} {r : Reg} (hr : r ∈ L) (s : State) (i op q f v : Nat) : Touches L s (s.viol r i op q f v) :=
  (touches_wr hr s i 0 _).trans (Touches.of_eq (State.viol_regs ..) (State.viol_cores ..))

theorem touches_forEach {α : Type} {L : List Reg} {f : α → State → State} (h : ∀ a s, Touches L s (f a s)) (l : List α)
    (s : State) : Touches L s (forEach l f s) := by
  induction l generalizing s with
  | nil => exact Touches.refl ..
  | cons a l ih => exact (h a s).trans (ih _)

/-! ### The fabric on its way out (R316 to R320) -/

/-- The registers that sending over the fabric changes. -/
def fabricRegs : List Reg := [.prgPortStatus, .prgFlitTxCnt]

theorem updPrg_touches (L : List Reg) (s : State) (f : Prg → Prg) : Touches L s (s.updPrg f) := Touches.of_eq rfl rfl

theorem updLink_touches (s : State) (k : Nat) (f : Link → Link) : Touches fabricRegs s (s.updLink k f) :=
  (updPrg_touches _ s _).trans (touches_wr (by decide) ..)

theorem sendFlit_touches (s : State) (l : Nat) (ls bytes : List Nat) : Touches fabricRegs s (s.sendFlit l ls bytes) := by
  unfold State.sendFlit
  split
  · exact (updLink_touches ..).trans (Touches.of_eq rfl rfl)
  · exact Touches.refl ..

theorem sendSeq_touches (s : State) (l kw : Nat) (ctl : Bool) (kseq : Nat) (payload : List Nat) :
    Touches fabricRegs s (s.sendSeq l kw ctl kseq payload) :=
  ((updLink_touches ..).trans (sendFlit_touches ..)).trans (touches_wr (by decide) ..)

theorem sendNext_touches (s : State) (k : Nat) : Touches fabricRegs s (s.sendNext k) := by
  unfold State.sendNext
  split
  · exact Touches.refl ..
  · dsimp only
    split
    · exact (sendSeq_touches ..).trans (updPrg_touches ..)
    · exact (sendSeq_touches ..).trans (updPrg_touches ..)
    · exact Touches.refl ..

theorem pumpPort_touches (port n : Nat) (s : State) : Touches fabricRegs s (s.pumpPort port n) := by
  induction n generalizing s with
  | zero => exact Touches.refl ..
  | succ n ih =>
    unfold State.pumpPort
    split
    · exact Touches.refl ..
    · exact ((sendNext_touches ..).trans (updPrg_touches ..)).trans (ih _)

theorem sendOnKw_touches (s : State) (k : Nat) (m : Msg) (txn gen : Nat) : Touches fabricRegs s (s.sendOnKw k m txn gen) :=
  ((updPrg_touches ..).trans (updPrg_touches ..)).trans (pumpPort_touches ..)

theorem sendTxn_touches (s : State) (k die : Nat) (t : Txn) : Touches fabricRegs s (s.sendTxn k die t) := by
  unfold State.sendTxn
  split
  · exact (updPrg_touches ..).trans (updPrg_touches ..)
  · split
    · exact (updPrg_touches ..).trans (sendOnKw_touches ..)
    · exact updPrg_touches ..

theorem request_touches (s : State) (d : Nat) (owner : TxnFor) (pkg cls : Nat) (m : Msg) (die : Nat) :
    Touches fabricRegs s (s.request d owner pkg cls m die) :=
  (updPrg_touches ..).trans (sendTxn_touches ..)

/-! ### Entries that leave (R368, R374, R381) -/

/-- The registers that draining the rings changes. -/
def drainRegs : List Reg := fabricRegs ++ [.hostCqTail, .hostEvqTail, .hostWinViolCnt, .hostRingFullCnt]

theorem HeldTo.ring_tail {d : HeldTo} {r : RingRegs} (h : d.ring = some r) : r.tail ∈ drainRegs := by
  cases d <;> cases h <;> simp [drainRegs]

theorem writeEntry_touches (s : State) (h : Held) : Touches drainRegs s (s.writeEntry h) := by
  have hsent : ∀ (s : State) (d owner pkg cls m die), Touches drainRegs s (s.request d owner pkg cls m die) :=
    fun s d owner pkg cls m die => (request_touches s d owner pkg cls m die).mono (by decide)
  unfold State.writeEntry
  split
  next r hr =>
    dsimp only
    refine Touches.trans ?_ (touches_forEach (f := fun v s => s.send (.msix v)) (fun _ _ => Touches.of_eq rfl rfl) _ _)
    have hwr : ∀ u v, Touches drainRegs s u → Touches drainRegs s (u.wr r.tail 0 r.ix v) :=
      fun u v h => h.trans (touches_wr (HeldTo.ring_tail hr) ..)
    split
    · exact (hwr _ _ (Touches.of_eq rfl rfl)).trans (Touches.of_eq rfl rfl)
    · exact hwr _ _ (Touches.of_eq rfl rfl)
  · split
    · split
      · exact Touches.of_eq rfl rfl
      · exact touches_viol (by decide) ..
    · exact hsent ..
    · split
      · exact hsent ..
      · exact Touches.refl ..
    · exact Touches.refl ..

theorem drainRings_touches (l : List Held) (s : State) (stopped : List Nat) (keep : List Held) :
    Touches drainRegs s (s.drainRings l stopped keep) := by
  induction l generalizing s stopped keep with
  | nil => exact Touches.of_eq rfl rfl
  | cons h l ih =>
    unfold State.drainRings
    split
    · exact (writeEntry_touches ..).trans (ih ..)
    · split
      · exact (writeEntry_touches ..).trans (ih ..)
      · refine Touches.trans ?_ (ih ..)
        have hbump : Touches drainRegs s (s.bump .hostRingFullCnt 0 1) := touches_wr (by decide) ..
        split
        · exact Touches.refl ..
        · split
          · exact hbump
          · exact hbump.trans (Touches.of_eq rfl rfl)

theorem drain_touches (s : State) : Touches drainRegs s s.drain := by
  unfold State.drain
  split
  · exact drainRings_touches ..
  · exact Touches.refl ..

/-- With nothing held back there is nothing to drain. -/
theorem drain_idle {s : State} (h : s.host.held = []) : s.drain = s := by
  unfold State.drain
  rw [h]
  split
  · show { s with host := { s.host with held := [] } } = s
    rw [← h]
  · rfl

theorem memKept_of_mems {s t : State} (h : t.mems = s.mems) : memKept s t := ⟨State.vmem_of_mems h, State.stg_of_mems h⟩

/-! ### Sizes and fields -/

theorem ringEntries_pos (s : State) (r : Reg) (n : Nat) : 0 < s.ringEntries r n := Nat.two_pow_pos _

theorem ringEntries_le (s : State) (r : Reg) (n : Nat) : s.ringEntries r n ≤ 2 ^ 16 :=
  Nat.pow_le_pow_right (by omega) (Nat.min_le_right ..)

/-- A field below bit `m` does not see the bits from `m` on. -/
theorem bitsOf_mod (n : Nat) {lo w m : Nat} (h : lo + w ≤ m) : bitsOf (n % 2 ^ m) lo w = bitsOf n lo w := by
  unfold bitsOf
  obtain ⟨d, rfl⟩ := Nat.exists_eq_add_of_le h
  rw [Nat.add_assoc, Nat.pow_add, Nat.mod_mul_right_div_self, Nat.mod_mod_of_dvd _ (Nat.pow_dvd_pow 2 (Nat.le_add_right w d))]

theorem State.rdF_wrF_self (s : State) (r : Reg) (i k : Nat) {lo w : Nat} (h : lo + w ≤ 64) (v : Nat) :
    (s.wrF r i k lo w v).rdF r i k lo w = v % 2 ^ w := by
  unfold State.rdF State.wrF
  rw [State.rd_wr_self, bitsOf_mod _ h, bitsOf_setBits_self]

theorem bitsOf_lt (n lo w : Nat) : bitsOf n lo w < 2 ^ w := Nat.mod_lt _ (Nat.two_pow_pos w)

end Sys2Proof.Machine
end

section
/-! ## The rings of the host: completions, tails, heads, windows and their configuration -/

namespace Sys2Proof.Claims

open Machine

/-! ### Events that count (R385) -/

theorem hostViol_counts (s : State) (f v : Nat) :
    counted .hostViolCnt 0 1 s (s.hostViol f v) ∧ regsBut [regKey .hostViolCnt 0 0] s (s.hostViol f v) ∧
      (s.hostViol f v).cores = s.cores ∧ memKept s (s.hostViol f v) :=
  viol_counts ..

/-- What the gateway keeps for itself is nothing that a count or a frame speaks of. -/
theorem counts_updHost {s t : State} {r : Reg} {L : List Nat} (f : HostSt → HostSt)
    (h : counted r 0 1 s t ∧ regsBut L s t ∧ t.cores = s.cores ∧ memKept s t) :
    counted r 0 1 s (t.updHost f) ∧ regsBut L s (t.updHost f) ∧ (t.updHost f).cores = s.cores ∧ memKept s (t.updHost f) := h

theorem misuse_counts (s : State) (row : Nat) :
    counted .hostViolCnt 0 1 s (s.misuse row) ∧ regsBut [regKey .hostViolCnt 0 0] s (s.misuse row) ∧
      (s.misuse row).cores = s.cores ∧ memKept s (s.misuse row) := by
  unfold State.misuse State.misuseSeen
  exact counts_updHost _ (hostViol_counts ..)

/-! ### A completion (R374, R375) -/

theorem leBytes_length (n v : Nat) : (leBytes n v).length = n := by
  induction n generalizing v with
  | zero => rfl
  | succ n ih => simp [leBytes, ih]

/-- One entry held for a ring that has room is written, and nothing is held any more. -/
theorem drainRings_room {s : State} {h : Held} {r : RingRegs} (hr : h.dest.ring = some r) (hroom : s.ringRoom r = true) :
    s.drainRings [h] [] [] = (s.writeEntry h).updHost (fun q => { q with held := [] }) := by
  simp [State.drainRings, hr, hroom]

/-- One entry held for a ring without room stays held, and counts once. -/
theorem drainRings_full {s : State} {h : Held} {r : RingRegs} (hr : h.dest.ring = some r) (hroom : s.ringRoom r = false)
    (hnew : h.counted = false) (hev : h.isMisuse = false) :
    s.drainRings [h] [] [] = ((s.bump .hostRingFullCnt 0 1).misuseSeen 9).updHost
      (fun q => { q with held := [{ h with counted := true }] }) := by
  simp [State.drainRings, hr, hroom, hnew, hev]

/-- A state that holds this entry alone for the rings. -/
def holding (s : State) (h : Held) : State := s.updHost (fun q => { q with held := [h] })

/-- A completion is one new entry of 32 bytes, drained at once. -/
theorem complete_held {s : State} (hatt : s.attached = true) (hheld : s.host.held = []) (n jid status op value sq : Nat) (subst : Bool) :
    ∃ h : Held, h.dest = .cq n ∧ h.bytes.length = 32 ∧ h.counted = false ∧
      s.complete n jid status op value subst sq = (holding s h).drainRings [h] [] [] := by
  have hone : ∀ h : Held, s.updHost (fun q => { q with held := q.held ++ [h] }) = holding s h := fun h => by
    simp [holding, State.updHost, hheld]
  unfold State.complete State.pushEntry
  refine ⟨_, ?_, ?_, ?_, (congrArg State.drain (hone _)).trans (if_pos hatt)⟩
  · rfl
  · simp [leBytes_length]
  · rfl

/-- The entry, its vector and the tail, as they leave. -/
theorem entryWritten_sent (s : State) (n : Nat) {b : List Nat} (hlen : b.length = 32) : entryWritten n s
    (((s.send (.pcieWrite (s.rd .hostCqBase 0 n + 32 * (s.rdF .hostCqTail 0 n 0 16 % s.ringEntries .hostCqCfg n)) b false false)).wr
      .hostCqTail 0 n ((s.rdF .hostCqTail 0 n 0 16 % s.ringEntries .hostCqCfg n + 1) % s.ringEntries .hostCqCfg n)).send
      (.msix (max 3 (s.rdF .hostCqCfg 0 n 8 6)))) := by
  have hval : (s.rdF .hostCqTail 0 n 0 16 % s.ringEntries .hostCqCfg n + 1) % s.ringEntries .hostCqCfg n < 2 ^ 64 :=
    (Nat.mod_lt _ (ringEntries_pos ..)).trans_le ((ringEntries_le ..).trans (by decide))
  exact ⟨⟨b, hlen, by simp [State.send]⟩, State.rd_wr_of_lt _ _ _ _ hval, regsBut_wr _ _ _ _ _, rfl, rfl, rfl⟩

theorem writeEntry_cq {s : State} {h : Held} {n : Nat} (hd : h.dest = .cq n) (hlen : h.bytes.length = 32) :
    entryWritten n s (s.writeEntry h) := by
  have hr : h.dest.ring = some (cqRegs n) := by rw [hd]; rfl
  unfold State.writeEntry
  rw [hr]
  dsimp only [cqRegs]
  simp only [if_true, and_true, forEach]
  split
  · refine entryWritten_sent s n ?_
    split <;> simp [hlen]
  · refine entryWritten_sent s n ?_
    split <;> simp [hlen]

theorem completion : Completion := by
  intro s n jid status op value sq subst hatt hheld
  obtain ⟨h, hd, hlen, hnew, heq⟩ := complete_held hatt hheld n jid status op value sq subst
  have hr : h.dest.ring = some (cqRegs n) := by rw [hd]; rfl
  have hsame : (holding s h).ringRoom (cqRegs n) = s.ringRoom (cqRegs n) := rfl
  rw [heq]
  refine ⟨fun hroom => ?_, fun hroom => ?_⟩
  · rw [drainRings_room hr (hsame.trans hroom)]
    exact writeEntry_cq (s := holding s h) hd hlen
  · rw [drainRings_full hr (hsame.trans hroom) hnew (by simp [Held.isMisuse, hd])]
    exact ⟨rfl, counted_bump s .hostRingFullCnt 0 1, rfl⟩

/-! ### Submission tails (R364, R368, R369, R385) -/

theorem attached_of_frame {s t : State} {r : Reg} {i k : Nat} (h : regsBut [regKey r i k] s t) (hne : r ≠ .hostSession) :
    t.attached = s.attached := by
  unfold State.attached State.session State.rdF
  rw [h.rd_ne hne]

theorem ringEntries_of_frame {s t : State} {r c : Reg} {i k : Nat} (h : regsBut [regKey r i k] s t) (hne : r ≠ c) (n : Nat) :
    t.ringEntries c n = s.ringEntries c n := by
  unfold State.ringEntries State.rdF
  rw [h.rd_ne hne]

theorem misuse_jobs (s : State) (row : Nat) :
    (s.misuse row).host.jobs = s.host.jobs ∧ (s.misuse row).host.serial = s.host.serial := by
  unfold State.misuse State.misuseSeen State.hostViol
  rw [State.updHost_host, State.viol_host]
  exact ⟨rfl, rfl⟩

theorem exec_hostSqTail_high (s : State) (n value high : Nat) (jobs : List Nat) :
    exec (.hostSqTail n (value + 2 ^ 16 * high) jobs) s = exec (.hostSqTail n value jobs) s := by
  show execHostSqTail .. = execHostSqTail ..
  unfold execHostSqTail
  rw [Nat.add_mul_mod_self_left]

section Tail
variable {s : State} {n value : Nat} (hn : n < 16) (hv : value % 65536 = value)
include hn hv

/-- A tail that an enabled ring takes: its jobs are fetched where H0 may fetch, and else wait in host memory. -/
theorem exec_hostSqTail_taken (hon : (s.rd .hostSqCfg 0 n).testBit 5 = true)
    (hin : value < s.ringEntries .hostSqCfg n) (jobs : List Nat) : exec (.hostSqTail n value jobs) s
      = .next (if s.mayFetch then (s.wr .hostSqTail 0 n value).fetchJobs n jobs else (s.wr .hostSqTail 0 n value).setQueued n jobs) := by
  have hfetch : (s.wr .hostSqTail 0 n value).mayFetch = s.mayFetch :=
    congrArg (· && !s.hub.h1Down) (attached_of_frame (regsBut_wr s .hostSqTail 0 n value) (by decide))
  show execHostSqTail .. = _
  simp [execHostSqTail, State.writeTail, Nat.mod_eq_of_lt hn, hv, hon, Nat.not_le.mpr hin, hfetch]

theorem exec_hostSqTail_off (hoff : (s.rd .hostSqCfg 0 n).testBit 5 = false) (jobs : List Nat) :
    exec (.hostSqTail n value jobs) s = .next (s.hostViol 0xFF value) := by
  show execHostSqTail .. = _
  simp [execHostSqTail, State.writeTail, Nat.mod_eq_of_lt hn, hv, hoff]

theorem exec_hostSqTail_outside (hon : (s.rd .hostSqCfg 0 n).testBit 5 = true) (hout : s.ringEntries .hostSqCfg n ≤ value)
    (jobs : List Nat) : exec (.hostSqTail n value jobs) s = .next (s.misuse 1) := by
  show execHostSqTail .. = _
  simp [execHostSqTail, State.writeTail, Nat.mod_eq_of_lt hn, hv, hon, hout]

end Tail

/-- The head of a submission ring has advanced by one. -/
def headTaken (s : State) (n : Nat) : State :=
  s.wrF .hostSqHead 0 n 0 16 ((s.rdF .hostSqHead 0 n 0 16 % s.ringEntries .hostSqCfg n + 1) % s.ringEntries .hostSqCfg n)

/-- A reserved field of a job that is set counts (R385). -/
def reservedSeen (s : State) (raw : Nat) : State := if jobReserved raw then s.misuse 4 else s

/-- A job has joined those that the gateway holds. -/
def jobTaken (s : State) (n raw : Nat) : State :=
  s.updHost (fun q => { q with serial := s.host.serial + 1, jobs := q.jobs ++ [⟨n, raw, s.host.serial + 1, false, 0, 0, 0⟩] })

theorem fetchJobs_one {s : State} {n raw : Nat}
    (hne : s.rdF .hostSqHead 0 n 0 16 % s.ringEntries .hostSqCfg n ≠ s.rdF .hostSqTail 0 n 0 16 % s.ringEntries .hostSqCfg n)
    (hlo : 0x81 ≤ dfld raw 0 0 8) (hhi : dfld raw 0 0 8 ≤ 0x84) :
    s.fetchJobs n [raw] = (jobTaken (reservedSeen (headTaken s n) raw) n raw).setQueued n [] := by
  have hstep : dfld raw 0 0 8 ≠ jobStep := by unfold jobStep; omega
  have hknown : dfld raw 0 0 8 = 0x60 ∨ (0x80 ≤ dfld raw 0 0 8 ∧ dfld raw 0 0 8 ≤ 0x84) := by omega
  simp only [State.fetchJobs]
  rw [if_neg hne, if_neg (fun h => hstep h.1), if_pos hknown]
  rfl

/-- A reserved field changes the count of misuse, and nothing else that a fetch speaks of. -/
theorem reservedSeen_keeps (s : State) (raw : Nat) :
    regsBut [regKey .hostViolCnt 0 0] s (reservedSeen s raw) ∧ (reservedSeen s raw).cores = s.cores ∧
      memKept s (reservedSeen s raw) ∧ (reservedSeen s raw).host.jobs = s.host.jobs ∧
      (reservedSeen s raw).host.serial = s.host.serial := by
  unfold reservedSeen
  split
  · obtain ⟨_, hregs, hcores, hmem⟩ := misuse_counts s 4
    exact ⟨hregs, hcores, hmem, misuse_jobs s 4⟩
  · exact ⟨regsBut_refl _ s, rfl, ⟨rfl, rfl⟩, rfl, rfl⟩

theorem setQueued_queued (s : State) (n : Nat) (jobs : List Nat) :
    SMap.get (fun _ => []) (s.setQueued n jobs).host.queued n = jobs := by
  unfold State.setQueued
  rw [State.updHost_host]
  exact SMap.get_set_self ..

/-- A tail that is written, whose jobs wait in host memory. -/
theorem tailQueued (s : State) (n : Nat) {value : Nat} (hv : value < 2 ^ 64) (jobs : List Nat) :
    ((s.wr .hostSqTail 0 n value).setQueued n jobs).rd .hostSqTail 0 n = value ∧
    SMap.get (fun _ => []) ((s.wr .hostSqTail 0 n value).setQueued n jobs).host.queued n = jobs ∧
    regsBut [regKey .hostSqTail 0 n] s ((s.wr .hostSqTail 0 n value).setQueued n jobs) ∧
    (s.wr .hostSqTail 0 n value).setQueued n jobs = { s with
      regs := ((s.wr .hostSqTail 0 n value).setQueued n jobs).regs,
      host := { s.host with queued := ((s.wr .hostSqTail 0 n value).setQueued n jobs).host.queued } } := by
  refine ⟨?_, setQueued_queued .., ?_, ?_⟩
  · exact State.rd_wr_of_lt s _ _ _ hv
  · exact regsBut_wr s _ _ _ _
  · rfl

theorem headTaken_frame (s : State) (n : Nat) : regsBut [regKey .hostSqHead 0 n] s (headTaken s n) := regsBut_wr _ _ _ _ _

theorem jobTaken_leaves (s : State) (n raw : Nat) : ∃ t, t = (jobTaken s n raw).setQueued n [] ∧ t.regs = s.regs ∧
    t.cores = s.cores ∧ memKept s t ∧ t.host.jobs = s.host.jobs ++ [⟨n, raw, s.host.serial + 1, false, 0, 0, 0⟩] :=
  ⟨_, rfl, rfl, rfl, ⟨rfl, rfl⟩, rfl⟩

/-- What the fetch of one job leaves (R368, R369). -/
theorem jobTaken_fetched (s : State) (n raw : Nat) : ∃ t, t = (jobTaken (reservedSeen (headTaken s n) raw) n raw).setQueued n [] ∧
    t.rd .hostSqTail 0 n = s.rd .hostSqTail 0 n ∧ t.host.jobs = s.host.jobs ++ [⟨n, raw, s.host.serial + 1, false, 0, 0, 0⟩] ∧
    t.rdF .hostSqHead 0 n 0 16
      = (s.rdF .hostSqHead 0 n 0 16 % s.ringEntries .hostSqCfg n + 1) % s.ringEntries .hostSqCfg n % 2 ^ 16 ∧
    t.cores = s.cores ∧ memKept s t := by
  obtain ⟨hregs, hcores, hmem, hjobs, hserial⟩ := reservedSeen_keeps (headTaken s n) raw
  obtain ⟨t, ht, htregs, htcores, htmem, htjobs⟩ := jobTaken_leaves (reservedSeen (headTaken s n) raw) n raw
  replace hregs := hregs.of_regs htregs
  have hwritten := State.rdF_wrF_self s .hostSqHead 0 n (lo := 0) (w := 16) (by decide)
    ((s.rdF .hostSqHead 0 n 0 16 % s.ringEntries .hostSqCfg n + 1) % s.ringEntries .hostSqCfg n)
  refine ⟨t, ht, ?_, ?_, ?_, htcores.trans hcores, htmem.1.trans hmem.1, htmem.2.trans hmem.2⟩
  · exact (hregs.rd_ne (by decide) 0 n).trans ((headTaken_frame s n).rd_ne (by decide) 0 n)
  · rw [htjobs, hjobs, hserial]
    rfl
  · exact (congrArg (bitsOf · 0 16) (hregs.rd_ne (by decide) 0 n)).trans hwritten

theorem hostSqTail : HostSqTail := by
  intro s n value raw hn hlt
  have hv : value % 65536 = value := Nat.mod_eq_of_lt hlt
  have hsize : value < 2 ^ 64 := hlt.trans (by decide)
  refine ⟨fun high jobs => exec_hostSqTail_high .., fun hon hin => ⟨?_, fun hwait => ?_, fun hatt hup hne hlo hhi => ?_⟩,
    fun hout => ?_⟩
  · obtain ⟨hrd, hq, hregs, heq⟩ := tailQueued s n hsize []
    refine ⟨_, ?_, hrd, hregs, heq⟩
    rw [exec_hostSqTail_taken hn hv hon hin]
    exact congrArg Host.Outcome.next (ite_self _)
  · obtain ⟨hrd, hq, hregs, heq⟩ := tailQueued s n hsize [raw]
    refine ⟨_, ?_, hrd, hq, hregs, heq⟩
    have hno : s.mayFetch = false := by
      rcases hwait with h | h <;> simp [State.mayFetch, h]
    rw [exec_hostSqTail_taken hn hv hon hin, hno]
    rfl
  · have hframe := regsBut_wr s .hostSqTail 0 n value
    have hentries := ringEntries_of_frame hframe (c := .hostSqCfg) (by decide) n
    have htail : (s.wr .hostSqTail 0 n value).rdF .hostSqTail 0 n 0 16 = value := by
      unfold State.rdF
      rw [State.rd_wr_of_lt _ _ _ _ hsize]
      simp [bitsOf, hv]
    have hhead : (s.wr .hostSqTail 0 n value).rdF .hostSqHead 0 n 0 16 = s.rdF .hostSqHead 0 n 0 16 := by
      unfold State.rdF
      rw [hframe.rd_ne (by decide)]
    have hmay : s.mayFetch = true := by simp [State.mayFetch, hatt, hup]
    have hfetch := fetchJobs_one (s := s.wr .hostSqTail 0 n value) (n := n) (raw := raw)
      (by rw [hentries, hhead, htail, Nat.mod_eq_of_lt hin]; exact hne) hlo hhi
    obtain ⟨t, ht, hrd, hjobs, hnew, hcores, hmem⟩ := jobTaken_fetched (s.wr .hostSqTail 0 n value) n raw
    rw [hhead, hentries] at hnew
    refine ⟨t, ?_, hrd.trans (State.rd_wr_of_lt _ _ _ _ hsize), hjobs, hnew, hcores, hmem⟩
    rw [exec_hostSqTail_taken hn hv hon hin, hmay, if_pos rfl, hfetch, ht]
  · by_cases hon : (s.rd .hostSqCfg 0 n).testBit 5 = true
    · obtain ⟨hc, hregs, hcores, hmem⟩ := misuse_counts s 1
      exact ⟨_, exec_hostSqTail_outside hn hv hon (hout.resolve_left (by simp [hon])) _, hc, hregs, (misuse_jobs s 1).1, hcores, hmem⟩
    · have hoff : (s.rd .hostSqCfg 0 n).testBit 5 = false := by simpa using hon
      obtain ⟨hc, hregs, hcores, hmem⟩ := hostViol_counts s 0xFF value
      exact ⟨_, exec_hostSqTail_off hn hv hoff _, hc, hregs, congrArg HostSt.jobs (State.viol_host ..), hcores, hmem⟩

/-! ### Heads (R17, R368, R385) -/

section Head
variable {s : State} {r : RingRegs} {value : Nat} (hv : value % 65536 = value)
include hv

theorem writeHead_taken (hon : (s.rd r.cfg 0 r.ix).testBit 5 = true) (hin : value < s.ringEntries r.cfg r.ix)
    (hused : ringUsed (s.ringEntries r.cfg r.ix) (s.rdF r.head 0 r.ix 0 16) value
      ≤ ringUsed (s.ringEntries r.cfg r.ix) (s.rdF r.head 0 r.ix 0 16) (s.rdF r.tail 0 r.ix 0 16)) :
    s.writeHead r value = (s.wr r.head 0 r.ix value).drain := by
  simp [State.writeHead, hon, hv, Nat.not_le.mpr hin, Nat.not_lt.mpr hused]

omit hv in
theorem writeHead_off (hoff : (s.rd r.cfg 0 r.ix).testBit 5 = false) : s.writeHead r value = s.hostViol 0xFF value := by
  simp [State.writeHead, hoff]

omit hv in
theorem writeHead_outside (hon : (s.rd r.cfg 0 r.ix).testBit 5 = true) (hout : s.ringEntries r.cfg r.ix ≤ value) :
    s.writeHead r value = s.misuse 2 := by
  simp [State.writeHead, hon, hout]

/-- The head of a ring whose head no entry touches: its write drains what its ring held back. -/
theorem headWrite_of_writeHead {c : Nat → Instr} (hc : ∀ v, exec (c v) s = .next (s.writeHead r (v % 2 ^ 16)))
    (hhead : r.head ∉ drainRegs) : headWrite c r value s := by
  have hexec : exec (c value) s = .next (s.writeHead r value) := by rw [hc]; exact congrArg _ (congrArg _ hv)
  refine ⟨fun high => by rw [hc, hc, Nat.add_mul_mod_self_left], fun hon hin hused => ?_, fun hout => ?_⟩
  · obtain ⟨hcores, hregs⟩ := drain_touches (s.wr r.head 0 r.ix value)
    refine ⟨_, hexec.trans (congrArg _ (writeHead_taken hv hon hin hused)), ?_, hcores, ?_, fun hheld => ?_⟩
    · rw [hregs _ hhead, State.rd_wr_of_lt _ _ _ _ (by omega)]
    · exact memKept_of_mems (State.drain_mems _)
    · rw [drain_idle (s := s.wr r.head 0 r.ix value) hheld]
      exact onlyRegs_wr ..
  · rw [hexec]
    by_cases hon : (s.rd r.cfg 0 r.ix).testBit 5 = true
    · rw [writeHead_outside hon (hout.resolve_left (by simp [hon]))]
      exact ⟨_, rfl, misuse_counts s 2⟩
    · rw [writeHead_off (by simpa using hon)]
      exact ⟨_, rfl, hostViol_counts s 0xFF value⟩

end Head

theorem heads : Heads := by
  intro s n value hn hlt
  have hv : value % 65536 = value := Nat.mod_eq_of_lt hlt
  constructor
  · refine headWrite_of_writeHead hv (fun v => ?_) (by simp [cqRegs, drainRegs, fabricRegs])
    show execHostCqHead .. = _
    rw [execHostCqHead, Nat.mod_eq_of_lt hn]
  · exact headWrite_of_writeHead hv (fun v => rfl) (by simp [evqRegs, drainRegs, fabricRegs])

/-! ### Windows (R365) -/

theorem hostWinCfg : HostWinCfg := by
  intro s w value cfg hw hv
  have hexec : exec (.hostWinCfg w value cfg) s = .next (s.writeWin w cfg value) := by
    show execHostWinCfg .. = _
    rw [execHostWinCfg, Nat.mod_eq_of_lt hw, Nat.mod_eq_of_lt hv]
  rw [hexec]
  refine ⟨fun hfree => ?_, fun hvalid hsess hkeep => ?_⟩
  · have hput : s.writeWin w cfg value = if cfg then s.wr .hostWinCfg 0 w (bitsOf value 0 4 + bitsOf value 12 27 * 2 ^ 12)
        else s.wr .hostWinAddr 0 w (bitsOf value 12 52 * 2 ^ 12) := by
      unfold State.writeWin
      rcases hfree with h | h | ⟨h, h'⟩
      · simp [h]
      · simp [h]
      · simp [h, h']
    have hcfgLow := bitsOf_lt value 0 4
    have hcfgHigh := bitsOf_lt value 12 27
    have haddr := bitsOf_lt value 12 52
    rw [hput]
    cases cfg
    · exact ⟨_, rfl, by simp, fun _ => State.rd_wr_of_lt _ _ _ _ (by omega), onlyRegs_wr ..⟩
    · exact ⟨_, rfl, fun _ => State.rd_wr_of_lt _ _ _ _ (by omega), by simp, onlyRegs_wr ..⟩
  · have hrefused : s.writeWin w cfg value = s.hostViol 0xFF value := by
      unfold State.writeWin
      cases cfg
      · simp [hvalid, hsess]
      · have hset : value.testBit 0 = true := by simpa using hkeep
        simp [hvalid, hsess, hset]
    rw [hrefused]
    exact ⟨_, rfl, hostViol_counts s 0xFF value⟩

/-! ### Bases and configurations of rings (R368, R386) -/

/-- What a ring's configuration register takes of a value. -/
def ringTaken (kind v : Nat) : Nat := ringLog v + bitsOf v 5 1 * 32 + (if kind = 1 then max 3 (bitsOf v 8 6) * 256 else 0)

/-- The fields of a configuration that the gateway cannot take count. -/
def ringWarned (s : State) (kind v : Nat) : State :=
  let t := if ringLog v = bitsOf v 0 5 then s else s.hostViol 0xFF v
  if kind = 1 ∧ bitsOf v 8 6 < 3 then t.hostViol 0xFF v else t

/-- A ring whose entries start with the phase they had at first. -/
def unwrapped (id : Nat) (h : HostSt) : HostSt := { h with wraps := h.wraps.filter (fun w => w != id) }

theorem ringWarned_cores (s : State) (kind v : Nat) : (ringWarned s kind v).cores = s.cores := by
  have hlog : (if ringLog v = bitsOf v 0 5 then s else s.hostViol 0xFF v).cores = s.cores := by
    split
    · rfl
    · exact State.viol_cores ..
  unfold ringWarned
  dsimp only
  split
  · exact (State.viol_cores ..).trans hlog
  · exact hlog

theorem ringLog_le (v : Nat) : ringLog v ≤ 16 := Nat.min_le_right ..

theorem ringTaken_lt (kind v : Nat) : ringTaken kind v < 2 ^ 64 := by
  have hlog := ringLog_le v
  have hon := bitsOf_lt v 5 1
  have hvec := bitsOf_lt v 8 6
  unfold ringTaken
  split <;> omega

/-- A configuration that turns its ring off leaves it off. -/
theorem ringTaken_off (kind : Nat) {v : Nat} (h : v.testBit 5 = false) : (ringTaken kind v).testBit 5 = false := by
  have hlog := ringLog_le v
  have hbit : bitsOf v 5 1 = 0 := by
    rw [Nat.testBit_eq_decide_div_mod_eq] at h
    simp only [decide_eq_false_iff_not] at h
    unfold bitsOf
    omega
  rw [Nat.testBit_eq_decide_div_mod_eq, ringTaken, hbit]
  simp only [decide_eq_false_iff_not]
  split <;> omega

/-- Configuration, head and tail of a ring are three registers, and no entry touches its configuration. -/
theorem ringKind_apart (kind n : Nat) : (ringKind kind n).1 ∉ drainRegs ∧ (ringKind kind n).1 ≠ (ringKind kind n).2.2.1 ∧
    (ringKind kind n).1 ≠ (ringKind kind n).2.2.2.1 ∧ (ringKind kind n).2.2.1 ≠ (ringKind kind n).2.2.2.1 := by
  unfold ringKind
  split
  · simp [drainRegs, fabricRegs]
  · split <;> simp [drainRegs, fabricRegs]

/-- Three registers of a ring, written one after the other. -/
theorem rd_three_written {s t : State} {r₁ r₂ r₃ : Reg} (h₁₂ : r₁ ≠ r₂) (h₁₃ : r₁ ≠ r₃) (h₂₃ : r₂ ≠ r₃) {ix x : Nat}
    (hx : x < 2 ^ 64)
    (h : t.regs = (((s.wr r₁ 0 ix x).wr r₂ 0 ix 0).wr r₃ 0 ix 0).regs) :
    t.rd r₁ 0 ix = x ∧ t.rd r₂ 0 ix = 0 ∧ t.rd r₃ 0 ix = 0 := by
  refine ⟨?_, ?_, ?_⟩
  · rw [State.rd_congr h, State.rd_wr_ne _ h₁₃.symm, State.rd_wr_ne _ h₁₂.symm, State.rd_wr_of_lt _ _ _ _ hx]
  · rw [State.rd_congr h, State.rd_wr_ne _ h₂₃.symm, State.rd_wr_of_lt _ _ _ _ (by decide)]
  · rw [State.rd_congr h, State.rd_wr_of_lt _ _ _ _ (by decide)]

section Ring
variable {s : State} {kind n v ix : Nat} {cfg base head tail : Reg} (hr : ringKind kind n = (cfg, base, head, tail, ix))
include hr

theorem writeRing_base (hoff : (s.rd cfg 0 ix).testBit 5 = false) :
    s.writeRing kind n true v = s.wr base 0 ix (bitsOf v 12 52 * 2 ^ 12) := by
  simp [State.writeRing, hr, hoff]

theorem writeRing_cfg (hoff : (s.rd cfg 0 ix).testBit 5 = false) :
    s.writeRing kind n false v = ((ringWarned s kind v).wr cfg 0 ix (ringTaken kind v)).drain := by
  simp [State.writeRing, hr, hoff, ringWarned, ringTaken]

theorem writeRing_turnedOff (hon : (s.rd cfg 0 ix).testBit 5 = true) (hv : v.testBit 5 = false) :
    s.writeRing kind n false v
      = ((((ringWarned s kind v).wr cfg 0 ix (ringTaken kind v)).wr head 0 ix 0).wr tail 0 ix 0).updHost
          (unwrapped (if kind = 1 then n else if kind = 2 then 16 else 17)) := by
  unfold State.writeRing
  rw [hr]
  dsimp only
  rw [if_neg (by decide), if_neg (by simp [hv]), if_pos hon]
  rfl

/-- A ring that is turned off starts anew. -/
theorem writeRing_anew {t : State} (ht : s.writeRing kind n false v = t) (hon : (s.rd cfg 0 ix).testBit 5 = true)
    (hv : v.testBit 5 = false) (hhead : cfg ≠ head) (htail : cfg ≠ tail) (hheadTail : head ≠ tail) :
    t.rd cfg 0 ix = ringTaken kind v ∧ t.rd head 0 ix = 0 ∧ t.rd tail 0 ix = 0 ∧ t.cores = s.cores := by
  have heq := ht.symm.trans (writeRing_turnedOff hr hon hv)
  have hregs := (congrArg State.regs heq).trans (State.updHost_regs ..)
  have hcores := congrArg State.cores heq
  rw [State.updHost_cores, State.wr_cores, State.wr_cores, State.wr_cores, ringWarned_cores] at hcores
  obtain ⟨hcfg, hzero, hzero'⟩ := rd_three_written hhead htail hheadTail (ringTaken_lt kind v) hregs
  exact ⟨hcfg, hzero, hzero', hcores⟩

theorem writeRing_kept {b : Bool} (hon : (s.rd cfg 0 ix).testBit 5 = true) (hv : v.testBit 5 = true ∨ b = true) :
    s.writeRing kind n b v = s.misuse 3 := by
  cases b
  · simp [State.writeRing, hr, hon, hv.resolve_right (by simp)]
  · simp [State.writeRing, hr, hon]

end Ring

theorem hostRingCfg : HostRingCfg := by
  rintro s kind n value ⟨cfg, base, head, tail, ix⟩ hkind hn hv hr
  obtain ⟨hdrain, hhead, htail, hheadTail⟩ := ringKind_apart kind n
  rw [← hr] at hdrain hhead htail hheadTail
  have hexec : ∀ b, exec (.hostRingCfg kind n value b) s = .next (s.writeRing kind n b value) := fun b => by
    show execHostRingCfg .. = _
    rw [execHostRingCfg, Nat.mod_eq_of_lt hkind, Nat.mod_eq_of_lt hn, Nat.mod_eq_of_lt hv]
  have hmem : ∀ b, memKept s (s.writeRing kind n b value) := fun b => memKept_of_mems (State.writeRing_mems ..)
  have hcores := ringWarned_cores s kind value
  have htaken := ringTaken_lt kind value
  have hbase := bitsOf_lt value 12 52
  simp only [hexec]
  dsimp only at *
  refine ⟨fun hoff => ?_, fun hoff => ⟨_, rfl, ?_, ?_, hmem false⟩, fun hon hbit => ?_, fun b hon hkeep => ?_⟩
  · rw [writeRing_base hr.symm hoff]
    exact ⟨_, rfl, State.rd_wr_of_lt _ _ _ _ (by omega), onlyRegs_wr ..⟩
  · rw [writeRing_cfg hr.symm hoff, (drain_touches _).2 cfg hdrain]
    exact State.rd_wr_of_lt _ _ _ _ htaken
  · rw [writeRing_cfg hr.symm hoff]
    exact (drain_touches _).1.trans hcores
  · obtain ⟨hcfg, hzero, hzero', hkept⟩ := writeRing_anew hr.symm rfl hon hbit hhead htail hheadTail
    refine ⟨_, rfl, ?_, hzero, hzero', hkept, hmem false⟩
    rw [hcfg]
    exact ringTaken_off kind hbit
  · rw [writeRing_kept hr.symm hon hkeep]
    exact ⟨_, rfl, misuse_counts s 3⟩

end Sys2Proof.Claims

namespace Sys2Proof.Certificates

open Claims

/-- Settles O31, one lemma for each of its statements. -/
theorem hostRingCommands : Obligations.HostRingCommands :=
  ⟨completion, hostSqTail, heads, hostWinCfg, hostRingCfg⟩

end Sys2Proof.Certificates
end


section
/-! ## A skipped closing entry that carries a matrix descriptor -/

namespace Sys2Proof.Claims

open Machine

/-- A class-2 STEP_ADV entry whose descriptor field holds a matrix product of one tile with TILE_TMB 0. -/
def tiledClosing : Entry :=
  { pos := 0, kind := 2, cls := 2, layer := 0, addr := 0, waits := [0, 0], sigs := [], skip := true, eval := false, waited := 2,
    target := none, stuck := false, subst := [], arrived := false, issued := false, taken := false, done := false,
    desc := 0x10 + 2 ^ 32 + 2 ^ 64 + 2 ^ 96, census := [] }

/-- Core 0 runs, layer 0 is frozen and SKIP_EN is set; the entry stands alone in stream 3. -/
def tiledClosingState : State :=
  ((((State.reset.wr .pwrStatus 0 0 3).wr .pwrCoreState 0 0 0).wr .coreFrozenMap 0 0 1).wr .coreBwdCtl 0 0 1).setCore 0
    { Core.reset with streams := [[], [], [], [tiledClosing]] }

theorem tiledClosing_closingOk : ClosingOk tiledClosingState 0 2 tiledClosing := by decide +kernel
theorem tiledClosing_wgradSkip : tiledClosingState.wgradSkip 0 tiledClosing.cls tiledClosing.layer = true := by decide +kernel

theorem synSigCnt_skipClosing :
    (tiledClosingState.skipClosing 0 tiledClosing).rd .synSigCnt 0 0 = tiledClosingState.rd .synSigCnt 0 0 + 1 := by decide +kernel

theorem exec_stepAdv_skipped {s : State} {g : Nat} {e : Entry} (hok : ClosingOk s g 2 e) (hskip : e.skip = true) :
    exec (.stepAdv g) s = .next (s.skipClosing g e) := by
  obtain ⟨hrun, hready, -⟩ := hok
  show execStepAdv g s = _
  simp [execStepAdv, hrun, hready, hskip]

/-- The entry's TILE_TMB is signalled (R110 step 4), and SYN_SIG_CNT counts the signal, which the frame does not name. -/
theorem not_closingSkipped : ¬ ClosingSkipped := by
  intro h
  obtain ⟨t, hadv, -, -, -, -, -, -, -, hregs, -⟩ := h tiledClosingState 0 tiledClosing rfl tiledClosing_wgradSkip
    (.inl tiledClosing_closingOk)
  obtain rfl := Host.Outcome.next.inj ((hadv tiledClosing_closingOk).symm.trans (exec_stepAdv_skipped tiledClosing_closingOk rfl))
  have hkept := hregs.rd_ne (show Reg.coreWgradSkipCnt ≠ .synSigCnt by decide) 0 0
  have hcounted := synSigCnt_skipClosing
  omega

end Sys2Proof.Claims

namespace Sys2Proof.Certificates

open Claims

/-- Refutes O1: in ClosingSkipped the STEP_ADV entry of `tiledClosingState` is skipped as R110 says, but its descriptor is a matrix
product of one tile, whose TILE_TMB the model signals; so SYN_SIG_CNT goes from 0 to 1, outside the frame of the statement. -/
theorem not_sequencerCommands : ¬ Obligations.SequencerCommands := by
  rintro ⟨-, -, -, -, -, -, -, -, -, hskipped⟩
  exact not_closingSkipped hskipped

end Sys2Proof.Certificates
end


section
/-! ## A scrub without disagreements -/

namespace Sys2Proof.Claims

open Machine

/-- A package in Hold whose PRG_CTRL_MISMATCH_CNT of port 0 holds one more than a 32-bit counter can. -/
def overfullMismatch : State := (State.reset.wr .pwrStatus 0 0 2).wr .prgCtrlMismatchCnt 0 0 (2 ^ 32)

theorem exec_ctrlPlaneScrub_nil {s : State} (hpwr : 2 ≤ s.pwrState) (hd3 : s.ward.d3 = false) (port : Nat) :
    exec (.ctrlPlaneScrub port []) s = .next s := by
  show execCtrlPlaneScrub port [] s = _
  simp [execCtrlPlaneScrub, forEach, hd3, Nat.not_lt.mpr hpwr]

theorem overfullMismatch_rd : overfullMismatch.rd .prgCtrlMismatchCnt 0 0 = 2 ^ 32 := by decide +kernel

/-- No disagreement leaves the counter as it is, while R509's saturation would lower it to 2^32 - 1. -/
theorem not_ctrlPlaneScrub : ¬ CtrlPlaneScrub := by
  intro h
  have hpwr : 2 ≤ overfullMismatch.pwrState := by decide +kernel
  obtain ⟨-, hscrub⟩ := h overfullMismatch 0 [] (by decide)
  obtain ⟨t, hrun, hcount, -⟩ := hscrub hpwr rfl (.inr fun _ _ => rfl)
  obtain rfl := Host.Outcome.next.inj ((exec_ctrlPlaneScrub_nil hpwr rfl 0).symm.trans hrun)
  have hsaturated : overfullMismatch.rd .prgCtrlMismatchCnt 0 0 = count32 (overfullMismatch.rd .prgCtrlMismatchCnt 0 0) 0 := hcount
  rw [overfullMismatch_rd] at hsaturated
  exact absurd hsaturated (by decide)

end Sys2Proof.Claims

namespace Sys2Proof.Certificates

open Claims

/-- Refutes O27: in CtrlPlaneScrub a scrub that finds no disagreement (`causes` empty) must leave the counter at `count32 v 0`, which
is 2^32 - 1 where `overfullMismatch` holds 2^32; the model leaves 2^32, since it counts nothing. -/
theorem not_linkRecoveryCommands : ¬ Obligations.LinkRecoveryCommands := by
  rintro ⟨-, -, -, -, -, -, hscrub⟩
  exact not_ctrlPlaneScrub hscrub

end Sys2Proof.Certificates
end

section
/-! ## What an operation leaves alone

An operation that only sends, drains a ring or serves a vault changes a few parts of the state. `State.sansLinks`, `State.sansRings`
are the state without those parts, so that one equation says what stays; a list of register names says which registers may change. -/

namespace Sys2Proof.Machine

open Claims

/-- The state without what sending over the fabric changes. -/
def State.sansLinks (s : State) : State := { s with regs := [], prg := Prg.none, outbox := [] }

/-- The state without what draining the host's rings changes. -/
def State.sansRings (s : State) : State :=
  { s with regs := [], prg := Prg.none, outbox := [], viols := [], host := { s.host with held := [], wraps := [], misuse := none } }

/-- The map of the cores is in its canonical form. -/
abbrev State.coresWf (s : State) : Prop := SMap.wf (fun _ => Core.reset) s.cores = true

/-- From `s` to `t` the view `e` of the state stays, of the registers only those of the names in `L` may have changed, what had left
the package has left it, and the map of the cores keeps its canonical form. -/
structure Stays {α : Type} (e : State → α) (L : List Reg) (s t : State) : Prop where
  seen : e t = e s
  regs : ∀ r, r ∉ L → ∀ i k, t.rd r i k = s.rd r i k
  told : s.outbox <+: t.outbox
  coresWf : s.coresWf → t.coresWf

section
variable {α β : Type} {e : State → α} {L : List Reg} {s t u : State}

theorem Stays.refl (e : State → α) (L : List Reg) (s : State) : Stays e L s s := ⟨rfl, fun _ _ _ _ => rfl, List.prefix_rfl, id⟩

theorem Stays.trans (h : Stays e L s t) (h' : Stays e L t u) : Stays e L s u :=
  ⟨h'.seen.trans h.seen, fun r hr i k => (h'.regs r hr i k).trans (h.regs r hr i k), h.told.trans h'.told, h'.coresWf ∘ h.coresWf⟩

theorem Stays.mono {K : List Reg} (h : Stays e K s t) (hKL : K ⊆ L) : Stays e L s t :=
  { h with regs := fun r hr => h.regs r (fun hm => hr (hKL hm)) }

/-- A coarser view stays where a finer one does. -/
theorem Stays.view {e' : State → β} (h : Stays e L s t) (f : α → β) (he : ∀ s, e' s = f (e s)) : Stays e' L s t :=
  { h with seen := by rw [he, he, h.seen] }

theorem Stays.of_eq (he : e t = e s) (hr : t.regs = s.regs) (ho : t.outbox = s.outbox) (hc : t.cores = s.cores) : Stays e L s t :=
  ⟨he, fun r _ i k => State.rd_congr hr r i k, ho ▸ List.prefix_rfl, fun h => by rwa [State.coresWf, hc]⟩

/-- A view that sees neither the registers nor what has left the package. -/
def Blind {α : Type} (e : State → α) : Prop := ∀ (s : State) rs os, e { s with regs := rs, outbox := os } = e s

theorem Stays.wr (h : Stays e L s t) (he : Blind e) {r : Reg} (hr : r ∈ L) {i k v : Nat} : Stays e L s (t.wr r i k v) :=
  h.trans ⟨he t _ _, fun r' hr' i' k' => State.rd_wr_ne t (by rintro rfl; exact hr' hr) i k v i' k', List.prefix_rfl, id⟩

theorem Stays.send (h : Stays e L s t) (he : Blind e) {o : Out} : Stays e L s (t.send o) :=
  h.trans ⟨he t _ _, fun _ _ _ _ => rfl, List.prefix_append .., id⟩

theorem Stays.then (h : Stays e L s t) (he : e u = e t) (hr : u.regs = t.regs) (ho : u.outbox = t.outbox) (hc : u.cores = t.cores) :
    Stays e L s u := h.trans (.of_eq he hr ho hc)

/-- What a view shows of the parts that stay is the same. -/
theorem Stays.get {e : State → State} (h : Stays e L s t) (f : State → β) (hf : ∀ s, f (e s) = f s) : f t = f s := by
  rw [← hf, h.seen, hf]

theorem Stays.rd (h : Stays e L s t) (r : Reg) (i k : Nat) (hr : r ∉ L) : t.rd r i k = s.rd r i k := h.regs r hr i k

theorem Stays.rdF (h : Stays e L s t) (r : Reg) (i k lo w : Nat) (hr : r ∉ L) : t.rdF r i k lo w = s.rdF r i k lo w := by
  unfold State.rdF
  rw [h.rd r i k hr]

theorem Stays.memKept {e : State → State} (h : Stays e L s t) (hm : ∀ s, (e s).mems = s.mems) : memKept s t :=
  memKept_of_mems (h.get State.mems hm)

theorem stays_forEach {β : Type} {f : β → State → State} (h : ∀ a s, Stays e L s (f a s)) (l : List β) (s : State) :
    Stays e L s (forEach l f s) := by
  induction l generalizing s with
  | nil => exact .refl ..
  | cons a l ih => exact (h a s).trans (ih _)

theorem stays_forUpTo {f : Nat → State → State} (h : ∀ i s, Stays e L s (f i s)) (n : Nat) (s : State) :
    Stays e L s (forUpTo n f s) := by
  induction n with
  | zero => exact .refl ..
  | succ n ih => exact ih.trans (h n _)

end

/-! ### Fields of a register -/

/-- A number cut at a field: what lies above it, the field, what lies below it. -/
theorem setBits_split (n lo w v : Nat) :
    setBits n lo w v = (n / 2 ^ (lo + w) * 2 ^ w + v % 2 ^ w) * 2 ^ lo + n % 2 ^ lo := by
  unfold setBits bitsOf
  have hlow := Nat.div_add_mod n (2 ^ lo)
  have hhigh := Nat.div_add_mod (n / 2 ^ lo) (2 ^ w)
  rw [Nat.div_div_eq_div_mul, ← Nat.pow_add] at hhigh
  have h : n - n / 2 ^ lo % 2 ^ w * 2 ^ lo = n / 2 ^ (lo + w) * 2 ^ w * 2 ^ lo + n % 2 ^ lo := by
    apply Nat.sub_eq_of_eq_add
    calc n = (2 ^ w * (n / 2 ^ (lo + w)) + n / 2 ^ lo % 2 ^ w) * 2 ^ lo + n % 2 ^ lo := by rw [hhigh, Nat.mul_comm]; exact hlow.symm
      _ = _ := by ring
  rw [h]
  ring

/-- Writing a field leaves every field beside it. -/
theorem bitsOf_setBits_ne (n v : Nat) {lo w lo' w' : Nat} (h : lo' + w' ≤ lo ∨ lo + w ≤ lo') :
    bitsOf (setBits n lo w v) lo' w' = bitsOf n lo' w' := by
  rw [setBits_split]
  rcases h with h | h
  · rw [← bitsOf_mod _ h, ← bitsOf_mod n h, Nat.mul_add_mod', Nat.mod_mod]
  · unfold bitsOf
    obtain ⟨d, rfl⟩ := Nat.exists_eq_add_of_le h
    have hlow : n % 2 ^ lo < 2 ^ lo := Nat.mod_lt _ (Nat.two_pow_pos lo)
    have hv : v % 2 ^ w < 2 ^ w := Nat.mod_lt _ (Nat.two_pow_pos w)
    rw [Nat.pow_add _ (lo + w), ← Nat.div_div_eq_div_mul, ← Nat.div_div_eq_div_mul]
    congr 2
    rw [Nat.pow_add, ← Nat.div_div_eq_div_mul, Nat.mul_comm _ (2 ^ lo), Nat.mul_add_div (Nat.two_pow_pos lo), Nat.div_eq_of_lt hlow,
      Nat.add_zero, Nat.mul_comm _ (2 ^ w), Nat.mul_add_div (Nat.two_pow_pos w), Nat.div_eq_of_lt hv, Nat.add_zero]

theorem State.rdF_wrF_ne (s : State) (r : Reg) (i k : Nat) {lo w lo' w' : Nat} (v : Nat) (h : lo' + w' ≤ lo ∨ lo + w ≤ lo')
    (h64 : lo' + w' ≤ 64) : (s.wrF r i k lo w v).rdF r i k lo' w' = s.rdF r i k lo' w' := by
  unfold State.rdF State.wrF
  rw [State.rd_wr_self, bitsOf_mod _ h64, bitsOf_setBits_ne _ _ h]

/-! ### The fabric on its way out -/

theorem sansLinks_blind : Blind State.sansLinks := fun _ _ _ => rfl
theorem sansRings_blind : Blind State.sansRings := fun _ _ _ => rfl

theorem updPrg_stays (s : State) (f : Prg → Prg) : Stays State.sansLinks fabricRegs s (s.updPrg f) := .of_eq rfl rfl rfl rfl

theorem updLink_stays (s : State) (k : Nat) (f : Link → Link) : Stays State.sansLinks fabricRegs s (s.updLink k f) :=
  (updPrg_stays ..).wr sansLinks_blind (by decide)

theorem sendFlit_stays (s : State) (l : Nat) (ls bytes : List Nat) : Stays State.sansLinks fabricRegs s (s.sendFlit l ls bytes) := by
  unfold State.sendFlit
  split
  · exact ((updLink_stays ..).trans (updPrg_stays ..)).send sansLinks_blind
  · exact .refl ..

theorem sendSeq_stays (s : State) (l kw : Nat) (ctl : Bool) (kseq : Nat) (payload : List Nat) :
    Stays State.sansLinks fabricRegs s (s.sendSeq l kw ctl kseq payload) :=
  ((updLink_stays ..).trans (sendFlit_stays ..)).wr sansLinks_blind (by decide)

theorem sendNext_stays (s : State) (k : Nat) : Stays State.sansLinks fabricRegs s (s.sendNext k) := by
  unfold State.sendNext
  split
  · exact .refl ..
  · dsimp only
    split
    · exact (sendSeq_stays ..).trans (updPrg_stays ..)
    · exact (sendSeq_stays ..).trans (updPrg_stays ..)
    · exact .refl ..

theorem pumpPort_stays (port n : Nat) (s : State) : Stays State.sansLinks fabricRegs s (s.pumpPort port n) := by
  induction n generalizing s with
  | zero => exact .refl ..
  | succ n ih =>
    unfold State.pumpPort
    split
    · exact .refl ..
    · exact ((sendNext_stays ..).trans (updPrg_stays ..)).trans (ih _)

theorem sendOnKw_stays (s : State) (k : Nat) (m : Msg) (txn gen : Nat) :
    Stays State.sansLinks fabricRegs s (s.sendOnKw k m txn gen) :=
  ((updPrg_stays ..).trans (updPrg_stays ..)).trans (pumpPort_stays ..)

theorem sendKwCtl_stays (s : State) (k : Nat) (payload : List Nat) : Stays State.sansLinks fabricRegs s (s.sendKwCtl k payload) :=
  (updPrg_stays ..).trans (pumpPort_stays ..)

theorem reply_stays (s : State) (i : InMsg) (m : Msg) : Stays State.sansLinks fabricRegs s (s.reply i m) := by
  unfold State.reply
  split
  · exact updPrg_stays ..
  · exact sendOnKw_stays ..

theorem sendTxn_stays (s : State) (k die : Nat) (t : Txn) : Stays State.sansLinks fabricRegs s (s.sendTxn k die t) := by
  unfold State.sendTxn
  split
  · exact (updPrg_stays ..).trans (updPrg_stays ..)
  · split
    · exact (updPrg_stays ..).trans (sendOnKw_stays ..)
    · exact updPrg_stays ..

theorem request_stays (s : State) (d : Nat) (owner : TxnFor) (pkg cls : Nat) (m : Msg) (die : Nat) :
    Stays State.sansLinks fabricRegs s (s.request d owner pkg cls m die) :=
  (updPrg_stays ..).trans (sendTxn_stays ..)

/-! ### Entries that leave the host's rings -/

/-- What sending leaves alone, draining a ring does too. -/
theorem Stays.toRings {s t : State} (h : Stays State.sansLinks fabricRegs s t) : Stays State.sansRings drainRegs s t :=
  (h.view State.sansRings fun _ => rfl).mono (by decide)

theorem viol_stays {α : Type} {e : State → α} {L : List Reg} {r : Reg} (hr : r ∈ L) (s : State) (i op q f v : Nat)
    (he : e (s.viol r i op q f v) = e s) : Stays e L s (s.viol r i op q f v) :=
  ⟨he, (touches_viol hr s i op q f v).2, (State.viol_outbox s r i op q f v) ▸ List.prefix_rfl, fun h => by
    rw [State.viol_eq]
    exact h⟩

theorem viol_sansRings (s : State) (r : Reg) (i op q f v : Nat) : (s.viol r i op q f v).sansRings = s.sansRings := by
  rw [State.viol_eq]; rfl

theorem updHost_stays {α : Type} {e : State → α} (L : List Reg) (s : State) (f : HostSt → HostSt)
    (he : ∀ h, e { s with host := f h } = e { s with host := h }) : Stays e L s (s.updHost f) := .of_eq (he s.host) rfl rfl rfl

theorem writeEntry_stays (s : State) (h : Held) : Stays State.sansRings drainRegs s (s.writeEntry h) := by
  unfold State.writeEntry
  split
  next r hr =>
    dsimp only
    refine Stays.trans ?_ (stays_forEach (f := fun v s => s.send (.msix v)) (fun _ s => (Stays.refl _ _ s).send sansRings_blind) _ _)
    have hwr : ∀ v o, Stays State.sansRings drainRegs s ((s.send o).wr r.tail 0 r.ix v) :=
      fun v o => ((Stays.refl _ _ s).send sansRings_blind).wr sansRings_blind (HeldTo.ring_tail hr)
    split
    · exact (hwr ..).trans (updHost_stays _ _ _ fun _ => rfl)
    · exact hwr ..
  · split
    · split
      · exact (Stays.refl _ _ s).send sansRings_blind
      · exact viol_stays (by decide) _ _ _ _ _ _ (viol_sansRings ..)
    · exact (request_stays ..).toRings
    · split
      · exact (request_stays ..).toRings
      · exact .refl ..
    · exact .refl ..

theorem drainRings_stays (l : List Held) (s : State) (stopped : List Nat) (keep : List Held) :
    Stays State.sansRings drainRegs s (s.drainRings l stopped keep) := by
  induction l generalizing s stopped keep with
  | nil => exact .of_eq rfl rfl rfl rfl
  | cons h l ih =>
    unfold State.drainRings
    split
    · exact (writeEntry_stays ..).trans (ih ..)
    · split
      · exact (writeEntry_stays ..).trans (ih ..)
      · refine Stays.trans ?_ (ih ..)
        have hbump : Stays State.sansRings drainRegs s (s.bump .hostRingFullCnt 0 1) := (Stays.refl _ _ s).wr sansRings_blind (by decide)
        split
        · exact .refl ..
        · split
          · exact hbump
          · exact hbump.trans (updHost_stays _ _ _ fun _ => rfl)

theorem drain_stays (s : State) : Stays State.sansRings drainRegs s s.drain := by
  unfold State.drain
  split
  · exact drainRings_stays ..
  · exact .refl ..

theorem pushEntry_stays (s : State) (dest : HeldTo) (bytes vecs : List Nat) :
    Stays State.sansRings drainRegs s (s.pushEntry dest bytes vecs) := by
  refine Stays.trans ?_ (drain_stays _)
  exact .of_eq rfl rfl rfl rfl

theorem complete_stays (s : State) (n jid status op value : Nat) (subst : Bool) (sq : Nat) :
    Stays State.sansRings drainRegs s (s.complete n jid status op value subst sq) := pushEntry_stays ..

/-- What draining a ring leaves alone, but for the jobs of the gateway. -/
def State.sansJobs (s : State) : State := { s.sansRings with host := { s.sansRings.host with jobs := [] } }

theorem finishJob_stays (s : State) (id status value : Nat) : Stays State.sansJobs drainRegs s (s.finishJob id status value) := by
  unfold State.finishJob
  split
  · refine Stays.trans ?_ ((complete_stays ..).view (fun s => { s with host := { s.host with jobs := [] } }) fun _ => rfl)
    exact .of_eq rfl rfl rfl rfl
  · exact .refl ..

theorem finishJob_jobs (s : State) (id status value : Nat) :
    (s.finishJob id status value).host.jobs = s.host.jobs.filter (fun k => k.id != id) := by
  unfold State.finishJob
  split
  next j hj => exact (complete_stays ..).get (fun s => s.host.jobs) fun _ => rfl
  next hnone => 
    refine (List.filter_eq_self.mpr fun k hk => ?_).symm
    simpa using List.find?_eq_none.mp hnone k hk

/-- A job that has ended is no job of the gateway's any more. -/
theorem finishJob_gone (s : State) (id status value : Nat) : ∀ k ∈ (s.finishJob id status value).host.jobs, k.id ≠ id := by
  intro k hk
  rw [finishJob_jobs] at hk
  simpa using (List.mem_filter.mp hk).2

end Sys2Proof.Machine
end

section
/-! ## What a vault's service of a request leaves alone -/

namespace Sys2Proof.Machine

open Claims

/-- A core without what its vault controller, its lanes and a POISON line change. -/
def Core.sansVault (c : Core) : Core := { c with vlt := Vlt.idle, lane := Lane.idle, withhold := false }

/-- The state without what the service of requests to the vaults changes. -/
def State.sansVault (s : State) : State :=
  { s with regs := [], cores := [], vmem := [], frames := [], fltIn := [], snap := none, outbox := [] }

/-- What the service of requests leaves: most of the state, whether a snapshot is open, most of every core. -/
def vaultView (s : State) : State × Bool × (Nat → Core) := (s.sansVault, s.snap.isSome, fun g => (s.core g).sansVault)

theorem vaultView_blind : Blind vaultView := fun _ _ _ => rfl

/-- The registers that the service of requests changes. -/
def vltRegs : List Reg := [.vltPoisonReadCnt, .vltCrcMismatchCnt, .vltTransientCnt, .vltLastingCnt, .hubSnapCowCnt, .tierStrayWriteCnt,
  .tierWbWaitCnt, .hubSnapWaitCnt, .vltMigrateWaitCnt, .vltRmwCnt, .vltFlipCtl, .laneBusyWaitCnt]

theorem view_updCore {γ : Type} (p : Core → γ) (s : State) (g : Nat) (f : Core → Core) (hf : ∀ c, p (f c) = p c) (h : Nat) :
    p ((s.updCore g f).core h) = p (s.core h) := by
  by_cases hg : h = g
  · subst hg
    rw [State.core_updCore_self, hf]
  · rw [State.core_updCore_ne _ _ (Ne.symm hg)]

theorem updCore_stays (L : List Reg) (s : State) (g : Nat) (f : Core → Core) (hf : ∀ c, (f c).sansVault = c.sansVault) :
    Stays vaultView L s (s.updCore g f) :=
  ⟨congrArg (fun cs => (s.sansVault, s.snap.isSome, cs)) (funext (view_updCore Core.sansVault s g f hf)), fun _ _ _ _ => rfl,
    List.prefix_rfl, fun h => SMap.wf_set _ g _ h⟩

theorem updVlt_stays (L : List Reg) (s : State) (g : Nat) (f : Vlt → Vlt) : Stays vaultView L s (s.updVlt g f) :=
  updCore_stays _ _ _ _ fun _ => rfl

theorem queue_stays (L : List Reg) (s : State) (k : FaultKind) (i : Nat) (c : Option Nat) (p : Payload) :
    Stays vaultView L s (s.queue k i c p) := .of_eq rfl rfl rfl rfl

theorem bump_stays {r : Reg} (hr : r ∈ vltRegs) (s : State) (i n : Nat) : Stays vaultView vltRegs s (s.bump r i n) :=
  (Stays.refl ..).wr vaultView_blind hr

theorem putRaw_stays (L : List Reg) (s : State) (k : Nat) (r : RawLine) : Stays vaultView L s (s.putRaw k r) := .of_eq rfl rfl rfl rfl

theorem ctrlStore_stays (s : State) (g l k : Nat) (r : RawLine) : Stays vaultView vltRegs s (s.ctrlStore g l k r) := by
  unfold State.ctrlStore
  split
  · exact (putRaw_stays ..).wr vaultView_blind (by decide)
  · exact putRaw_stays ..

theorem ctrlRead_stays (s : State) (g l : Nat) : Stays vaultView vltRegs s (s.ctrlRead g l).1 := by
  unfold State.ctrlRead
  split
  · exact (Stays.refl ..).wr vaultView_blind (by decide)
  · exact .refl ..

theorem lineRecord_stays (L : List Reg) (s : State) (g : Nat) (k : LineLock) (kind : FaultKind) (o e : Nat) :
    Stays vaultView L s (s.lineRecord g k kind o e) := queue_stays ..

theorem checkedRead_stays (s : State) (g l : Nat) : Stays vaultView vltRegs s (s.checkedRead g l).1 := by
  have hread := ctrlRead_stays s g l
  unfold State.checkedRead
  dsimp only
  split
  · exact hread
  · split
    · exact ((hread.trans (bump_stays (by decide) ..)).trans (bump_stays (by decide) ..)).trans (lineRecord_stays ..)
    · exact hread.trans (bump_stays (by decide) ..)

theorem copyPage_stays (s : State) (g p q : Nat) : Stays vaultView vltRegs s (s.copyPage g p q) := by
  unfold State.copyPage
  refine stays_forUpTo (fun i s => ?_) ..
  have hread := checkedRead_stays s g (p * 2 ^ 14 + i)
  dsimp only
  split
  · exact hread.trans (ctrlStore_stays ..)
  · exact (hread.trans (bump_stays (by decide) ..)).trans (ctrlStore_stays ..)

theorem notePageCopied_stays (L : List Reg) (s : State) (g p n : Nat) : Stays vaultView L s (s.notePageCopied g p n) :=
  .of_eq (congrArg (fun b => (s.sansVault, b, fun g => (s.core g).sansVault)) (Option.isSome_map ..)) rfl rfl rfl

theorem snapCopy_stays (s : State) (g p : Nat) : Stays vaultView vltRegs s (s.snapCopy g p) := by
  unfold State.snapCopy
  split
  · exact ((copyPage_stays ..).trans (bump_stays (by decide) ..)).trans (notePageCopied_stays ..)
  · exact .refl ..

theorem frameWrite_stays (s : State) (g p : Nat) : Stays vaultView vltRegs s (s.frameWrite g p) := by
  have hframe : ∀ f, Stays vaultView vltRegs s (s.setFrame g p f) := fun _ => .of_eq rfl rfl rfl rfl
  unfold State.frameWrite
  split
  · exact hframe _
  · exact hframe _
  · exact bump_stays (by decide) ..
  · exact bump_stays (by decide) ..
  · exact bump_stays (by decide) ..
  · exact bump_stays (by decide) ..
  · exact .refl ..

theorem noteWrite_stays (s : State) (g l : Nat) : Stays vaultView vltRegs s (s.noteWrite g l) :=
  (snapCopy_stays ..).trans (frameWrite_stays ..)

theorem storeLine_stays (s : State) (g l : Nat) (data : List Nat) (tag flags : Nat) :
    Stays vaultView vltRegs s (s.storeLine g l data tag flags) := ctrlStore_stays ..

theorem putLine_stays (s : State) (g l : Nat) (data : List Nat) (tag flags : Nat) :
    Stays vaultView vltRegs s (s.putLine g l data tag flags) := (noteWrite_stays ..).trans (storeLine_stays ..)

theorem mergeLine_stays (s : State) (g : Nat) (req : VltReq) (r : RawLine) : Stays vaultView vltRegs s (s.mergeLine g req r) :=
  (putLine_stays ..).trans (bump_stays (by decide) ..)

theorem parkWrite_stays (s : State) (g : Nat) (req : VltReq) : Stays vaultView vltRegs s (s.parkWrite g req) := by
  unfold State.parkWrite
  split
  · unfold State.holdWrite
    split
    · exact (updVlt_stays ..).trans (bump_stays (by decide) ..)
    · exact (updVlt_stays ..).trans (bump_stays (by decide) ..)
  · exact (updVlt_stays ..).trans (bump_stays (by decide) ..)

theorem answerRead_stays (s : State) (g : Nat) (req : VltReq) (r : RawLine) (st : Nat) :
    Stays vaultView vltRegs s (s.answerRead g req r st) := by
  unfold State.answerRead
  split
  · exact .refl ..
  · split
    · exact updVlt_stays ..
    · exact (Stays.refl ..).send vaultView_blind

theorem withhold_stays (L : List Reg) (s : State) (island : Nat) : Stays vaultView L s (s.withhold island) := by
  unfold State.withhold
  split
  · exact updCore_stays _ _ _ _ fun _ => rfl
  · exact .refl ..

theorem poisonRead_stays (s : State) (g : Nat) (req : VltReq) (r : RawLine) : Stays vaultView vltRegs s (s.poisonRead g req r) :=
  ((bump_stays (by decide) ..).trans (lineRecord_stays ..)).trans (withhold_stays ..)

theorem finishWrite_stays (s : State) (g : Nat) (req : VltReq) (r : RawLine) : Stays vaultView vltRegs s (s.finishWrite g req r) := by
  unfold State.finishWrite
  split
  · exact parkWrite_stays ..
  · split
    · exact putLine_stays ..
    · exact mergeLine_stays ..

theorem finishReq_stays (s : State) (g : Nat) (req : VltReq) (r : RawLine) : Stays vaultView vltRegs s (s.finishReq g req r) := by
  unfold State.finishReq
  split
  · exact finishWrite_stays ..
  · split
    · exact .refl ..
    · split
      · exact (poisonRead_stays ..).trans (answerRead_stays ..)
      · exact answerRead_stays ..

theorem lineFail_stays (s : State) (g : Nat) (req : VltReq) (r : RawLine) (lane : Bool) :
    Stays vaultView vltRegs s (s.lineFail g req r lane) := (updVlt_stays ..).trans (bump_stays (by decide) ..)

/-- A read that the flip mask of MODE 1 falls on disarms it (R181). -/
def State.disarmed (s : State) (g : Nat) (armed : Bool) : State := if armed then s.wrF .vltFlipCtl g 0 0 1 0 else s

theorem disarmed_stays (s : State) (g : Nat) (armed : Bool) : Stays vaultView vltRegs s (s.disarmed g armed) := by
  unfold State.disarmed
  split
  · exact (Stays.refl ..).wr vaultView_blind (by decide)
  · exact .refl ..

theorem serveHead_cases (s : State) (g : Nat) (req : VltReq) (err : List Nat) :
    s.serveHead g req err = s.putLine g req.line req.bytes req.tag 0 ∨ ∃ armed r,
      s.serveHead g req err = (s.disarmed g armed).finishReq g req r ∨
      s.serveHead g req err = (s.disarmed g armed).lineFail g req r false := by
  unfold State.serveHead
  split
  · exact .inl rfl
  · right
    dsimp only
    generalize (!req.write && s.flipArmed g req.line 1) = armed
    generalize (if armed = true then RawLine.flip _ _ else _) = r
    refine ⟨armed, r, ?_⟩
    by_cases hok : r.ok = true
    · exact .inl (if_pos hok)
    · exact .inr (if_neg hok)

theorem serveHead_stays (s : State) (g : Nat) (req : VltReq) (err : List Nat) : Stays vaultView vltRegs s (s.serveHead g req err) := by
  rcases serveHead_cases s g req err with h | ⟨armed, r, h | h⟩ <;> rw [h]
  · exact putLine_stays ..
  · exact (disarmed_stays ..).trans (finishReq_stays ..)
  · exact (disarmed_stays ..).trans (lineFail_stays ..)

theorem updLane_stays (L : List Reg) (s : State) (g : Nat) (f : Lane → Lane) : Stays vaultView L s (s.updLane g f) := by
  unfold State.updLane
  exact updCore_stays _ _ _ _ fun _ => rfl

theorem busyWait_stays (s : State) (g b : Nat) (req : VltReq) : Stays vaultView vltRegs s (s.busyWait g b req) :=
  (updLane_stays ..).trans (bump_stays (by decide) ..)

theorem vltAdmit_stays (s : State) (g : Nat) (req : VltReq) (err : List Nat) : Stays vaultView vltRegs s (s.vltAdmit g req err) := by
  unfold State.vltAdmit
  split
  · exact busyWait_stays ..
  · split
    · exact parkWrite_stays ..
    · exact serveHead_stays ..

theorem vltRequest_stays (s : State) (g : Nat) (req : VltReq) (err : List Nat) : Stays vaultView vltRegs s (s.vltRequest g req err) := by
  unfold State.vltRequest
  split
  · exact updVlt_stays ..
  · exact vltAdmit_stays ..

theorem releaseWrites_stays (s : State) (g : Nat) : Stays vaultView vltRegs s (s.releaseWrites g) := by
  refine Stays.trans (updVlt_stays ..) (stays_forEach (fun r s => ?_) ..)
  split
  · exact updVlt_stays ..
  · exact vltRequest_stays ..

section
variable {L : List Reg} {s t : State}

theorem Stays.snapOpen (h : Stays vaultView L s t) : t.snap.isSome = s.snap.isSome := congrArg (fun v => v.2.1) h.seen

theorem Stays.noSnap (h : Stays vaultView L s t) (hs : s.snap = none) : t.snap = none := by
  rw [← Option.not_isSome_iff_eq_none, h.snapOpen, hs]
  exact Bool.false_ne_true

theorem Stays.toVault (h : Stays vaultView L s t) : Stays State.sansVault L s t := { h with seen := congrArg (fun v => v.1) h.seen }

theorem Stays.core (h : Stays vaultView L s t) (g : Nat) : (t.core g).sansVault = (s.core g).sansVault := congrArg (fun v => v.2.2 g) h.seen

end

/-- A snapshot is no longer open, which HUB_CKPT_STATUS shows. -/
def State.snapOff (s : State) : State := ({ s with snap := none } : State).wrF .hubCkptStatus 0 0 48 1 0

/-- Dropping a snapshot (R409) closes it and serves the writes that waited for it. -/
theorem dropSnap_stays (s : State) : s.snap = none ∧ s.dropSnap = s ∨ Stays vaultView vltRegs s.snapOff s.dropSnap := by
  unfold State.dropSnap
  split
  next h => exact .inl ⟨h, rfl⟩
  next q h => exact .inr (stays_forEach (fun _ _ => releaseWrites_stays ..) ..)

theorem dropSnap_snap (s : State) : s.dropSnap.snap = none := by
  rcases dropSnap_stays s with ⟨h, heq⟩ | h
  · rw [heq, h]
  · exact h.noSnap (State.wrF_snap ..)

end Sys2Proof.Machine
end

section
/-! ## The partition: quiesce points, the lead, lost packages -/

namespace Sys2Proof.Machine

open Claims

theorem view_forEach {α β : Type} {e : State → α} {f : β → State → State} (h : ∀ a s, e (f a s) = e s) (l : List β) (s : State) :
    e (forEach l f s) = e s := by
  induction l generalizing s with
  | nil => rfl
  | cons a l ih => exact (ih _).trans (h a s)

/-! ### What hubs tell one another -/

/-- Several things leave the package one after another. -/
def State.sends (s : State) (os : List Out) : State := { s with outbox := s.outbox ++ os }

theorem forEach_send {α : Type} (f : α → Out) (l : List α) (s : State) :
    forEach l (fun a s => s.send (f a)) s = s.sends (l.map f) := by
  induction l generalizing s with
  | nil => simp [forEach, State.sends]
  | cons a l ih =>
    rw [forEach, ih]
    simp [State.send, State.sends]

theorem tellAll_eq (s : State) (kind : Nat) (args : List Nat) :
    s.tellAll kind args = s.sends (s.peers.map (fun p => .hub kind p args)) :=
  forEach_send ..

theorem sends_stays {α : Type} {e : State → α} (L : List Reg) (s : State) (os : List Out) (he : Blind e) :
    Stays e L s (s.sends os) := ⟨he s _ _, fun _ _ _ _ => rfl, List.prefix_append .., id⟩

theorem tellAll_stays {α : Type} {e : State → α} (L : List Reg) (s : State) (kind : Nat) (args : List Nat)
    (he : Blind e) : Stays e L s (s.tellAll kind args) :=
  tellAll_eq s kind args ▸ sends_stays L s _ he

theorem tellLead_stays {α : Type} {e : State → α} (L : List Reg) (s : State) (kind : Nat) (args : List Nat)
    (he : Blind e) : Stays e L s (s.tellLead kind args) := by
  unfold State.tellLead
  split
  · split
    · exact .refl ..
    · exact (Stays.refl ..).send he
  · exact .refl ..

/-! ### Fault records -/

/-- Records are queued at their source. -/
def State.records (s : State) (rs : List FaultRec) : State := { s with fltIn := s.fltIn ++ rs }

/-- Records of one kind that are queued one after another. -/
theorem forEach_queue {α : Type} (k : FaultKind) (island : Nat) (c : Option Nat) (p : α → State → Payload) (l : List α) (s : State) :
    ∃ rs, forEach l (fun a s => s.queue k island c (p a s)) s = s.records rs ∧ rs.length = l.length ∧ ∀ r ∈ rs, r.kind = k := by
  induction l generalizing s with
  | nil => exact ⟨[], by simp [forEach, State.records]⟩
  | cons a l ih =>
    obtain ⟨rs, hrun, hlen, hkind⟩ := ih (s.queue k island c (p a s))
    refine ⟨⟨k, k.cls, k.masked, island, 1, 0, (s.core (c.getD s.lowCore)).step, 0, p a s, c⟩ :: rs, ?_, congrArg (· + 1) hlen,
      List.forall_mem_cons.mpr ⟨rfl, hkind⟩⟩
    rw [forEach, hrun]
    simp [State.queue, State.records]

/-! ### Objects that are cleaned -/

/-- The state without the tier manager's tables. -/
def State.sansTier (s : State) : State := { s with tier := Tier.empty }

theorem setObj_sansTier (s : State) (o : Nat) (x : TierObj) : (s.setObj o x).sansTier = s.sansTier := rfl

/-- Cleaning objects changes the tier manager's tables alone. -/
theorem cleanAll_sansTier (s : State) : s.cleanAll.sansTier = s.sansTier := by
  unfold State.cleanAll
  refine view_forEach (fun e s => ?_) ..
  split
  · split
    · exact setObj_sansTier ..
    · rfl
  · rfl

/-- What a view of the state that does not see the tier manager shows is the same after objects are cleaned. -/
theorem view_cleanAll {α : Type} (f : State → α) (s : State) (hf : ∀ s : State, f s.sansTier = f s) : f s.cleanAll = f s := by
  rw [← hf, cleanAll_sansTier, hf]

end Sys2Proof.Machine

namespace Sys2Proof.Claims

open Machine

theorem imageState_wrF (s : State) (v : Nat) : (s.wrF .hubImageStatus 0 0 0 3 v).imageState = v % 8 :=
  State.rdF_wrF_self s _ 0 0 (by decide) v

theorem quiesceStart_eq {s : State} (h : s.imageState = 3) (lead : Nat) :
    s.quiesceStart lead = (((s.wrF .hubImageStatus 0 0 0 3 4).wrF .hubImageStatus 0 0 16 2 lead).updImg
      (fun i => { i with point := false })).cleanAll := if_pos h

theorem peers_congr {s t : State} (hr : t.rd .hubPkgNum 0 0 = s.rd .hubPkgNum 0 0) (hp : t.img.packages = s.img.packages) :
    t.peers = s.peers := by
  unfold State.peers State.pkg State.rdF
  rw [hr, hp]

/-- What beginning to quiesce leaves alone, but for the register of its state. -/
def sansStart (s : State) : State := { s.sansTier with regs := [], outbox := [], img := Img.none }

theorem sansStart_blind : Blind sansStart := fun _ _ _ => rfl

theorem quiesceStart_stays {s : State} (h : s.imageState = 3) (lead : Nat) :
    Stays sansStart [.hubImageStatus] s (s.quiesceStart lead) := by
  rw [quiesceStart_eq h]
  have hreg : ∀ u lo w v, Stays sansStart [.hubImageStatus] u (u.wrF .hubImageStatus 0 0 lo w v) := fun u _ _ _ =>
    (Stays.refl _ _ u).wr sansStart_blind (List.mem_singleton_self _)
  have himg : ∀ u f, Stays sansStart [.hubImageStatus] u (u.updImg f) := fun _ _ => .of_eq rfl rfl rfl rfl
  have hclean : ∀ u, Stays sansStart [.hubImageStatus] u u.cleanAll := fun u =>
    .of_eq (view_cleanAll sansStart u fun _ => rfl) (view_cleanAll State.regs u fun _ => rfl) (view_cleanAll State.outbox u fun _ => rfl)
      (view_cleanAll State.cores u fun _ => rfl)
  exact (((hreg ..).trans (hreg ..)).trans (himg ..)).trans (hclean _)

theorem updImg_regs (s : State) (f : Img → Img) : (s.updImg f).regs = s.regs := rfl
theorem updImg_rdF (s : State) (f : Img → Img) (r : Reg) (i k lo w : Nat) : (s.updImg f).rdF r i k lo w = s.rdF r i k lo w := rfl
theorem updImg_img (s : State) (f : Img → Img) : (s.updImg f).img = f s.img := rfl
theorem updImg_outbox (s : State) (f : Img → Img) : (s.updImg f).outbox = s.outbox := rfl

/-- A package that begins to quiesce (R339, R361): its state, the lead, and nothing else beside the tables of the tier manager. -/
theorem quiesceStart_spec {s : State} (h : s.imageState = 3) (lead : Nat) :
    (s.quiesceStart lead).imageState = 4 ∧ (s.quiesceStart lead).rdF .hubImageStatus 0 0 16 2 = lead % 4 ∧
      regsBut [regKey .hubImageStatus 0 0] s (s.quiesceStart lead) ∧
      (s.quiesceStart lead).img = { s.img with point := false } ∧ (s.quiesceStart lead).outbox = s.outbox := by
  rw [quiesceStart_eq h]
  refine ⟨?_, ?_, ?_, ?_, ?_⟩
  · rw [view_cleanAll State.imageState _ fun _ => rfl, State.imageState, updImg_rdF]
    exact (State.rdF_wrF_ne _ _ 0 0 lead (.inl (by decide)) (by decide)).trans (imageState_wrF s 4)
  · rw [view_cleanAll (fun s => s.rdF .hubImageStatus 0 0 16 2) _ fun _ => rfl, updImg_rdF]
    exact State.rdF_wrF_self _ _ 0 0 (by decide) lead
  · intro k hk
    rw [view_cleanAll State.regs _ fun _ => rfl, updImg_regs]
    exact (regsBut_wr _ _ 0 0 _ k hk).trans (regsBut_wr s _ 0 0 _ k hk)
  · rw [view_cleanAll State.img _ fun _ => rfl, updImg_img, State.wrF_img, State.wrF_img]
  · rw [view_cleanAll State.outbox _ fun _ => rfl, updImg_outbox, State.wrF_outbox, State.wrF_outbox]

/-- The job of a QUIESCE that is taken in hand (R359). -/
def quiesceTaken (s : State) (j : HostJob) : State :=
  (s.updJob j.id (fun k => { k with begun := true })).updImg (fun i => { i with quiesce := some (j.ring, j.id), quiet := [] })

theorem execQuiesce_taken {s : State} {j : HostJob} (g : Nat) (hj : s.nextJob jobQuiesce = some j) (hq : s.img.quiesce = none)
    (hdown : s.hub.h1Down = false) (hsealed : s.isSealed = true) (hst : s.imageState = 3) :
    exec (.quiesce (0, g)) s = .next (((quiesceTaken s j).quiesceStart (s.gateway.getD 0)).tellAll 38 [s.gateway.getD 0]) := by
  show Host.Outcome.next _ = _
  simp [hj, hq, hdown, hsealed, hst, quiesceTaken]

theorem execQuiesce_done {s : State} {j : HostJob} (g : Nat) (hj : s.nextJob jobQuiesce = some j) (hq : s.img.quiesce = none)
    (hdown : s.hub.h1Down = false) (hno : s.isSealed = false ∨ s.imageState = 5) (hpoint : s.imageState = 5 → s.img.point = true) :
    exec (.quiesce (0, g)) s = .next (s.finishJob j.id stDone (s.core s.lowCore).step) := by
  show Host.Outcome.next _ = _
  have hwaits : ¬ (s.imageState = 5 ∧ s.img.point = false) := fun h => by simp [hpoint h.1] at h
  simp [hj, hq, hdown, hno, hwaits]

theorem quiesce : Quiesce := by
  intro s j g
  refine ⟨fun hj hq hdown hsealed hst => ?_, fun hj hst hp => ?_, fun hj hq hdown hno hpoint => ?_, fun hst => ?_, fun hst => ?_⟩
  · obtain ⟨hstate, -, hregs, himg, hout⟩ := quiesceStart_spec (s := quiesceTaken s j) hst (s.gateway.getD 0)
    have hstays := quiesceStart_stays (s := quiesceTaken s j) hst (s.gateway.getD 0)
    refine ⟨_, execQuiesce_taken g hj hq hdown hsealed hst, ?_⟩
    rw [tellAll_eq, peers_congr (s := s)]
    · exact ⟨hstate, congrArg Img.quiesce himg, congrArg Img.quiet himg, congrArg (· ++ _) hout, hregs,
        hstays.get State.cores fun _ => rfl, hstays.memKept fun _ => rfl⟩
    · exact congrArg BitVec.toNat (hregs _ (by decide))
    · exact (congrArg Img.packages himg :)
  · show Host.Outcome.next _ = _
    simp [hj, hst, hp]
  · have hstays := finishJob_stays s j.id stDone (s.core s.lowCore).step
    exact ⟨_, execQuiesce_done g hj hq hdown hno hpoint, finishJob_gone _ _ _ _, hstays.get State.img fun _ => rfl,
      hstays.get State.cores fun _ => rfl, hstays.memKept fun _ => rfl⟩
  · obtain ⟨hstate, hlead, hregs, -, -⟩ := quiesceStart_spec hst (g % 4)
    have hstays := quiesceStart_stays hst (g % 4)
    exact ⟨_, rfl, hstate, hlead.trans (Nat.mod_mod ..), hregs, hstays.get State.cores fun _ => rfl, hstays.memKept fun _ => rfl⟩
  · refine ⟨(s.wrF .hubImageStatus 0 0 0 3 3).updImg (fun i => { i with point := false }), ?_, imageState_wrF s 3, rfl,
      regsBut_wr _ _ _ _ _, rfl, rfl, rfl⟩
    show Host.Outcome.next _ = _
    simp [hst]

/-! ### Quiet packages -/

/-- What draining a ring leaves alone, but for the jobs of the gateway and the image. -/
def sansImg (s : State) : State := { s.sansJobs with img := Img.none }

theorem sansImg_blind : Blind sansImg := fun _ _ _ => rfl

theorem finishJob_sansImg (s : State) (id status value : Nat) : Stays sansImg drainRegs s (s.finishJob id status value) :=
  (finishJob_stays s id status value).view (fun s => { s with img := Img.none }) fun _ => rfl

theorem updImg_stays (L : List Reg) (s : State) (f : Img → Img) : Stays sansImg L s (s.updImg f) := .of_eq rfl rfl rfl rfl

/-- The lead notes that a package is quiet, and that all are: the partition is at its quiesce point. -/
def noteQuiet (s : State) (p : Nat) : State := s.updImg (fun i => { i with quiet := i.quiet.filter (· != p) ++ [p] })
def notePoint (s : State) : State := s.updImg (fun i => { i with quiesce := none, quiet := [], point := true })

/-- The lead has heard of every package: the job of the quiesce point ends (R359). -/
def allQuiet (s : State) (jid : Nat) : State := ((notePoint s).tellAll 52 []).finishJob jid stDone (s.core s.lowCore).step

theorem allQuiet_stays (s : State) (jid : Nat) : Stays sansImg drainRegs s (allQuiet s jid) := by
  have hpoint : Stays sansImg drainRegs s (notePoint s) := updImg_stays ..
  have htold : Stays sansImg drainRegs (notePoint s) ((notePoint s).tellAll 52 []) := tellAll_stays _ _ _ _ sansImg_blind
  exact (hpoint.trans htold).trans (finishJob_sansImg ..)

theorem allQuiet_img (s : State) (jid : Nat) : (allQuiet s jid).img = (notePoint s).img :=
  ((finishJob_stays ..).get State.img fun _ => rfl).trans (congrArg State.img (tellAll_eq (notePoint s) 52 []) :)

theorem allQuiet_told (s : State) (jid : Nat) : ∀ q ∈ s.peers, .hub 52 q [] ∈ (allQuiet s jid).outbox := by
  intro q hq
  refine (finishJob_stays ..).told.subset ?_
  rw [tellAll_eq]
  exact List.mem_append_right _ (List.mem_map_of_mem hq)

theorem takeQuiet_stays (s : State) (p : Nat) : Stays sansImg drainRegs s (s.takeQuiet p) := by
  unfold State.takeQuiet
  dsimp only
  split
  · split
    · exact (updImg_stays ..).trans (allQuiet_stays ..)
    · exact updImg_stays ..
  · exact updImg_stays ..

theorem takeQuiet_last {s : State} {p r jid : Nat} (hq : s.img.quiesce = some (r, jid))
    (hall : ∀ q ∈ s.img.packages, q = p ∨ q ∈ s.img.quiet) : s.takeQuiet p = allQuiet (noteQuiet s p) jid := by
  unfold State.takeQuiet
  simp only [hq]
  refine if_pos (List.all_eq_true.mpr fun q hmem => ?_)
  rcases hall q hmem with rfl | hquiet
  · simp [State.updImg]
  · by_cases h : q = p <;> simp [State.updImg, hquiet, h]

/-- The package at its quiesce point: its routes are back at their primaries, and its ledgers are checked (R39, R358). -/
def checkedQuiet (s : State) : State :=
  forEach s.ledgers (fun l s => s.queue .hubConservation hubIsland none (.gen l.1 l.2.1 0 0 l.2.2.1 l.2.2.2))
    (s.wrF .hubImageStatus 0 0 0 3 5).backToPrimary

theorem checkedQuiet_eq (s : State) : ∃ rs, checkedQuiet s = (s.wrF .hubImageStatus 0 0 0 3 5).backToPrimary.records rs ∧
    rs.length = s.ledgers.length ∧ ∀ r ∈ rs, r.kind = .hubConservation :=
  forEach_queue _ _ _ (fun (l : Nat × Nat × Nat × Nat) _ => Payload.gen l.1 l.2.1 0 0 l.2.2.1 l.2.2.2) ..

theorem execQuiet_own {s : State} (hst : s.imageState = 4) (hq : s.quiesced = true) :
    ∃ t, exec (.quiet none) s = .next t ∧ Stays sansImg drainRegs (checkedQuiet s) t := by
  have hrun : exec (.quiet none) s = .next (if (checkedQuiet s).img.quiesce.isSome then (checkedQuiet s).takeQuiet (checkedQuiet s).pkg
      else (checkedQuiet s).tellLead 39 [(checkedQuiet s).pkg]) := by
    show Host.Outcome.next _ = _
    simp only [hst, hq]
    rfl
  refine ⟨_, hrun, ?_⟩
  split
  · exact takeQuiet_stays ..
  · exact tellLead_stays _ _ _ _ sansImg_blind

theorem quiet : Quiet := by
  intro s
  refine ⟨fun hst hq => ?_, fun p r jid hq hall => ?_⟩
  · obtain ⟨t, hrun, hstays⟩ := execQuiet_own hst hq
    obtain ⟨rs, hchecked, hlen, hkind⟩ := checkedQuiet_eq s
    rw [hchecked] at hstays
    have hstate : t.imageState = _ := hstays.rdF .hubImageStatus 0 0 0 3 (by decide)
    exact ⟨t, rs, hrun, hstate.trans (imageState_wrF s 5), hstays.get State.fltIn fun _ => rfl, hlen, hkind, hstays.get State.cores fun _ => rfl,
      hstays.memKept fun _ => rfl⟩
  · have hstays : Stays sansImg drainRegs s (allQuiet (noteQuiet s p) jid) := (updImg_stays ..).trans (allQuiet_stays ..)
    have himg := allQuiet_img (noteQuiet s p) jid
    exact ⟨_, congrArg Host.Outcome.next (takeQuiet_last hq hall), (congrArg Img.quiesce himg :), (congrArg Img.quiet himg :), (congrArg Img.point himg :),
      allQuiet_told (noteQuiet s p) jid, finishJob_gone _ _ _ _, hstays.get State.cores fun _ => rfl, hstays.memKept fun _ => rfl⟩

/-! ### The lead -/

/-- The gateways that this one reaches hear that the lead has not answered (R339). -/
def tellsReached (s : State) (me : Nat) (reach : List Nat) : State :=
  forEach (s.img.gateways.filter (fun p => p.1 != s.pkg && reach.contains p.1)) (fun p s => s.send (.hub 48 p.1 [me])) s

theorem execLeadTakeover_taken {s : State} {me : Nat} {reach others : List Nat} (hsealed : s.isSealed = true)
    (hme : s.gateway = some me) (hlead : s.isLead = false) (hmost : s.mostly reach = true) (hlow : ∀ g ∈ others, me ≤ g) :
    exec (.leadTakeover none reach others) s = .next (((tellsReached s me reach).wrF .hubImageStatus 0 0 16 2 me).tellAll 32 [me]) := by
  show Host.Outcome.next _ = _
  have hall : others.all (fun g => decide (me ≤ g)) = true := by simpa using hlow
  simp only [hsealed, hme, hlead, hmost, hall, tellsReached]
  rfl

theorem peers_lead (s : State) (v : Nat) : (s.wrF .hubImageStatus 0 0 16 2 v).peers = s.peers :=
  peers_congr (State.rd_wrF_ne s (by decide) ..) (congrArg Img.packages (State.wrF_img ..))

theorem leadTakeover : LeadTakeover := by
  intro s reach others hsealed
  refine ⟨fun me hme hlead hmost hlow hlt => ?_, fun g hg => ?_⟩
  · refine ⟨_, execLeadTakeover_taken hsealed hme hlead hmost hlow, ?_⟩
    rw [tellAll_eq, tellsReached, forEach_send, peers_lead]
    have hstays : ∀ os os', Stays State.sansLinks [.hubImageStatus] s (((s.sends os).wrF .hubImageStatus 0 0 16 2 me).sends os') :=
      fun os os' => ((sends_stays _ _ os sansLinks_blind).wr sansLinks_blind (List.mem_singleton_self _)).trans
        (sends_stays _ _ os' sansLinks_blind)
    exact ⟨(State.rdF_wrF_self _ _ 0 0 (by decide) me).trans (Nat.mod_eq_of_lt hlt), congrArg (· ++ _) (State.wrF_outbox ..),
      regsBut_wr s _ _ _ _, (hstays ..).get State.cores fun _ => rfl, (hstays ..).memKept fun _ => rfl⟩
  · refine ⟨s.wrF .hubImageStatus 0 0 16 2 g, ?_, State.rdF_wrF_self s _ 0 0 (by decide) g, onlyRegs_wr ..⟩
    show Host.Outcome.next _ = _
    simp only [hsealed, hg]
    rfl

theorem hubHeartbeat : HubHeartbeat := by
  intro s hsealed
  refine ⟨fun p hp hother => ?_, fun p hlead => ?_⟩
  · show Host.Outcome.next _ = _
    simp [hsealed, State.isLead, State.tellLead, hp, hother]
  · show Host.Outcome.next _ = _
    simp [hsealed, hlead]

end Sys2Proof.Claims

end

section
/-! ## A lost package -/
namespace Sys2Proof.Claims

open Machine

/-- The state without what the loss of a package writes. -/
def sansLoss (s : State) : State := { s with outbox := [], fltIn := [], img := Img.none, flt := FltSt.none }

/-- The loss of a package is noted, and the partition stops at its restore generation (R411). -/
def lostNoted (s : State) (p : Nat) : State :=
  (s.updImg (fun i => { i with lost := i.lost ++ [p] })).updFlt (fun f => { f with stopAtGen := true })

theorem loseNow_eq {s : State} {p : Nat} (h : p ∉ s.img.lost) : s.loseNow p = lostNoted (s.loseSnap p) p := by
  unfold State.loseNow
  rw [if_neg (by simpa using h)]
  rfl

/-- A snapshot stays when none is open, when the package does not lead, or when the lost package has stored its pages. -/
theorem loseSnap_kept {s : State} {p : Nat} (h : ∀ q, s.snap = some q → s.isLead = false ∨ p ∈ q.stored) : s.loseSnap p = s := by
  unfold State.loseSnap
  split
  next q hq =>
    refine if_pos ?_
    rcases h q hq with hlead | hstored
    · simp [hlead]
    · simp [hstored]
  · rfl

theorem loseSnap_dropped {s : State} {p : Nat} {q : Snap} (hq : s.snap = some q) (hlead : s.isLead = true) (hp : p ∉ q.stored) :
    s.loseSnap p = s.dropSnap.tellAll 51 [q.step] := by
  unfold State.loseSnap
  simp [hq, hlead, hp]

/-- The shards of which no package that is not lost holds a copy. -/
def goneShards (s s1 : State) : List Nat :=
  (List.range s.img.shards.length).filter (fun i => (s.img.shards[i]?).any (fun x =>
    (x.ranks.filterMap s.rankAt).all (fun q => s1.img.lost.contains q.1)))
def leftShards (s s1 : State) : List Nat := (List.range s.img.shards.length).filter (fun i => !(goneShards s s1).contains i)

/-- Outside checkpoint mode the lead lists the shards that still have a copy, and records the others (R411). -/
def shardsTold (s s1 : State) : State :=
  if s.ckptMode then s1 else forEach (goneShards s s1) (fun i s => s.queue .fltShardLost hubIsland none
    (.gen 0 0 (((s.img.shards[i]?).map (fun x => x.owner)).getD 0) i 0 0)) (s1.send (.shardsLeft (leftShards s s1)))

/-- What follows at the lead that has found a loss: `s1` holds its record. -/
def lossTold (s s1 : State) (p : Nat) : State :=
  ((shardsTold s s1).updImg (fun i => { i with lostRep := (i.lostRep ++ goneShards s s1).eraseDups })).tellAll 43 [p]

/-- The record of a lost package (R517). -/
def lossQueued (s : State) (p : Nat) : State := s.queue .fltPackageLost hubIsland none (.gen 0 p 0 0 0 0)

theorem exec_packageLost_announced {s : State} {p : Nat} (reach : List Nat) (hmem : p ∈ s.img.packages) (hother : p ≠ s.pkg) :
    exec (.packageLost p true reach) s = .next (s.loseNow p) := by
  show execPackageLost p true reach s = _
  simp [execPackageLost, hmem, hother]

theorem exec_packageLost_found {s : State} {p : Nat} {reach : List Nat} (hmem : p ∈ s.img.packages) (hother : p ≠ s.pkg)
    (hnew : p ∉ s.img.lost) (hlead : s.isLead = true) (hreach : p ∉ reach) (hdown : s.linksDown p = true) (hmost : s.mostly reach = true) :
    exec (.packageLost p false reach) s = .next (lossTold s (lossQueued (s.loseNow p) p) p) := by
  show execPackageLost p false reach s = _
  have hin : ¬ (!s.img.packages.contains p ∨ p = s.pkg) := by simp [hmem, hother]
  have hfound : ¬ (!s.isLead ∨ s.img.lost.contains p ∨ reach.contains p ∨ !s.linksDown p ∨ !s.mostly reach) := by
    simp [hlead, hnew, hreach, hdown, hmost]
  unfold execPackageLost
  rw [if_neg hin, if_neg Bool.false_ne_true, if_neg hfound]
  rfl

/-- What the shards' report adds: outside checkpoint mode the list of the shards left, and records. -/
theorem shardsTold_eq (s s1 : State) : ∃ os rs, shardsTold s s1 = (s1.sends os).records rs ∧ (∀ r ∈ rs, r.kind = .fltShardLost) ∧
    (s.ckptMode = false → os = [.shardsLeft (leftShards s s1)]) := by
  unfold shardsTold
  split
  next h => exact ⟨[], [], by simp [State.sends, State.records], by simp, by simp [h]⟩
  next h =>
    obtain ⟨rs, hrun, -, hkind⟩ := forEach_queue .fltShardLost hubIsland none (fun i s => Payload.gen 0 0
      (((s.img.shards[i]?).map (fun x => x.owner)).getD 0) i 0 0) (goneShards s s1) (s1.send (.shardsLeft (leftShards s s1)))
    exact ⟨[_], rs, hrun, hkind, fun _ => rfl⟩

theorem sansLoss_sends (s : State) (os : List Out) : sansLoss (s.sends os) = sansLoss s := rfl
theorem sansLoss_records (s : State) (rs : List FaultRec) : sansLoss (s.records rs) = sansLoss s := rfl
theorem sansLoss_updImg (s : State) (f : Img → Img) : sansLoss (s.updImg f) = sansLoss s := rfl

/-- What a view that is the same without a loss shows. -/
theorem of_sansLoss {s t : State} (h : sansLoss t = sansLoss s) :
    t.regs = s.regs ∧ t.cores = s.cores ∧ t.vmem = s.vmem ∧ t.stg = s.stg ∧ t.snap = s.snap :=
  ⟨(congrArg State.regs h :), (congrArg State.cores h :), (congrArg State.vmem h :), (congrArg State.stg h :), (congrArg State.snap h :)⟩

/-- What the lead does on a loss that it has found, after its record: messages leave, and records of lost shards are queued. -/
theorem lossTold_spec (s s1 : State) (p : Nat) : sansLoss (lossTold s s1 p) = sansLoss s1 ∧ (lossTold s s1 p).flt = s1.flt ∧
    (lossTold s s1 p).img.lost = s1.img.lost ∧ s1.outbox ⊆ (lossTold s s1 p).outbox ∧
    (∃ rs, (lossTold s s1 p).fltIn = s1.fltIn ++ rs ∧ ∀ r ∈ rs, r.kind = .fltShardLost) ∧
    (s.ckptMode = false → .shardsLeft (leftShards s s1) ∈ (lossTold s s1 p).outbox) := by
  obtain ⟨os, rs, htold, hkind, hleft⟩ := shardsTold_eq s s1
  unfold lossTold
  rw [tellAll_eq, htold]
  refine ⟨?_, rfl, rfl, ?_, ⟨rs, rfl, hkind⟩, fun h => ?_⟩
  · rw [sansLoss_sends, sansLoss_updImg, sansLoss_records, sansLoss_sends]
  · exact List.subset_append_of_subset_left _ (List.subset_append_left ..)
  · refine List.mem_append_left _ (List.mem_append_right _ ?_)
    rw [hleft h]
    exact List.mem_singleton_self _

/-- A shard is left where some copy of it stands in a package that is not lost. -/
theorem mem_leftShards (s s1 : State) (i : Nat) : i ∈ leftShards s s1 ↔ ∃ x, s.img.shards[i]? = some x ∧
    ∃ q ∈ x.ranks.filterMap s.rankAt, q.1 ∉ s1.img.lost := by
  unfold leftShards goneShards
  cases hx : s.img.shards[i]? with
  | none => simp [Nat.not_lt.mpr (List.getElem?_eq_none_iff.mp hx)]
  | some x =>
    have hi : i < s.img.shards.length := (List.getElem?_eq_some_iff.mp hx).1
    have hany : (x.ranks.filterMap s.rankAt).all (fun q => s1.img.lost.contains q.1) = false ↔
        ∃ q ∈ x.ranks.filterMap s.rankAt, q.1 ∉ s1.img.lost := by
      rw [List.all_eq_false]
      simp only [List.contains_iff_mem]
    simp only [List.mem_filter, List.mem_range, hi, true_and, List.contains_eq_mem, Bool.not_eq_true', decide_eq_false_iff_not, hx,
      Option.any_some, Bool.not_eq_true, Option.some.injEq, exists_eq_left']
    simpa only [List.contains_eq_mem] using hany

theorem lossQueued_eq (s : State) (p : Nat) : ∃ r, lossQueued s p = s.records [r] ∧ r.kind = .fltPackageLost := ⟨_, rfl, rfl⟩

/-- Of a package whose loss is being noted no copy counts. -/
theorem mem_leftShards_noted (s s1 : State) (p i : Nat) (hlost : s1.img.lost = s.img.lost ++ [p]) : i ∈ leftShards s s1 ↔
    ∃ x, s.img.shards[i]? = some x ∧ ∃ q ∈ x.ranks.filterMap s.rankAt, q.1 ≠ p ∧ q.1 ∉ s.img.lost := by
  have hiff : ∀ q : Nat × Nat, q.1 ∉ s1.img.lost ↔ q.1 ≠ p ∧ q.1 ∉ s.img.lost := fun q => by
    rw [hlost, List.mem_append, List.mem_singleton, not_or, and_comm]
  simp only [mem_leftShards, hiff]

/-- A dropped snapshot (R409): none is open, as HUB_CKPT_STATUS shows; the image and the package's number stay. -/
theorem dropSnap_spec {s : State} {q : Snap} (hq : s.snap = some q) : s.dropSnap.snap = none ∧ s.dropSnap.img = s.img ∧
    s.dropSnap.rdF .hubCkptStatus 0 0 48 1 = 0 ∧ s.dropSnap.peers = s.peers := by
  have hstays : Stays vaultView vltRegs s.snapOff s.dropSnap := (dropSnap_stays s).resolve_left fun h => by simp [hq] at h
  have himg : s.dropSnap.img = s.img := (hstays.toVault.get State.img fun _ => rfl).trans (State.wrF_img ..)
  refine ⟨dropSnap_snap s, himg, ?_, peers_congr ?_ (congrArg Img.packages himg)⟩
  · exact (hstays.rdF .hubCkptStatus 0 0 48 1 (by decide)).trans (State.rdF_wrF_self _ _ 0 0 (by decide) 0)
  · exact (hstays.rd .hubPkgNum 0 0 (by decide)).trans (State.rd_wrF_ne _ (by decide) ..)

/-- What the record and the note of a loss leave of the state before them. -/
theorem lossNoted_spec (s : State) (p : Nat) : (lossQueued (lostNoted s p) p).snap = s.snap ∧
    (lossQueued (lostNoted s p) p).regs = s.regs ∧ (lossQueued (lostNoted s p) p).outbox = s.outbox ∧
    (lossQueued (lostNoted s p) p).img.lost = s.img.lost ++ [p] ∧ (lossQueued (lostNoted s p) p).flt.stopAtGen = true :=
  ⟨rfl, rfl, rfl, rfl, rfl⟩

theorem packageLost : PackageLost := by
  intro s p reach hmem hother hnew
  have hkept : (∀ q, s.snap = some q → s.isLead = false ∨ p ∈ q.stored) → s.loseNow p = lostNoted s p := fun h => by
    rw [loseNow_eq hnew, loseSnap_kept h]
  refine ⟨fun hsnap => ?_, fun hsnap hlead hreach hdown hmost => ?_, fun q hsnap hkeep => ?_, fun q hsnap hlead hp hreach hdown hmost => ?_⟩
  · refine ⟨lostNoted s p, ?_, rfl, rfl, rfl, rfl, rfl, rfl⟩
    rw [exec_packageLost_announced reach hmem hother, hkept fun q hq => by simp [hsnap] at hq]
  · have hrun := exec_packageLost_found hmem hother hnew hlead hreach hdown hmost
    obtain ⟨r, hrec, hr⟩ := lossQueued_eq (lostNoted s p) p
    rw [hkept fun q hq => by simp [hsnap] at hq, hrec] at hrun
    obtain ⟨hview, hflt, hlost, -, ⟨rs, hrecs, hkind⟩, hleft⟩ := lossTold_spec s ((lostNoted s p).records [r]) p
    obtain ⟨hregs, hcores, hvmem, hstg, -⟩ := of_sansLoss hview
    exact ⟨_, r, rs, hrun, hlost, (congrArg FltSt.stopAtGen hflt :), hrecs.trans (List.append_assoc ..), hr, hkind,
      fun hckpt => ⟨_, hleft hckpt, fun i => mem_leftShards_noted _ _ _ _ rfl⟩, hregs, hcores, hvmem, hstg⟩
  · refine ⟨lostNoted s p, ?_, rfl, rfl, rfl, rfl, rfl, rfl, rfl⟩
    rw [exec_packageLost_announced reach hmem hother, hkept fun q' hq => ?_]
    rwa [← Option.some.inj (hsnap.symm.trans hq)]
  · have hrun := exec_packageLost_found hmem hother hnew hlead hreach hdown hmost
    obtain ⟨hgone, himg, hoff, hpeers⟩ := dropSnap_spec hsnap
    rw [loseNow_eq hnew, loseSnap_dropped hsnap hlead hp, tellAll_eq, hpeers] at hrun
    obtain ⟨hsnap', hregs, hsent, hadd, hstop⟩ := lossNoted_spec (s.dropSnap.sends (s.peers.map (fun k => .hub 51 k [q.step]))) p
    obtain ⟨hview, hflt, hlost, hout, -, -⟩ := lossTold_spec s
      (lossQueued (lostNoted (s.dropSnap.sends (s.peers.map (fun k => .hub 51 k [q.step]))) p) p) p
    obtain ⟨hregs', -, -, -, hsnap''⟩ := of_sansLoss hview
    refine ⟨_, hrun, ?_, ?_, fun k hk => hout ?_, ?_, (congrArg FltSt.stopAtGen hflt :)⟩
    · exact (hsnap''.trans hsnap').trans hgone
    · exact (congrArg (bitsOf · 48 1) (State.rd_congr (hregs'.trans hregs) ..)).trans hoff
    · rw [hsent]
      exact List.mem_append_right _ (List.mem_map_of_mem hk)
    · rw [hlost, hadd]
      exact congrArg (fun i => i.lost ++ [p]) himg

end Sys2Proof.Claims
namespace Sys2Proof.Certificates

/-- Settles O30, one lemma for each of its commands. -/
theorem partitionCommands : Obligations.PartitionCommands :=
  ⟨Claims.quiesce, Claims.quiet, Claims.leadTakeover, Claims.hubHeartbeat, Claims.packageLost⟩

end Sys2Proof.Certificates
end

section
/-! ## Messages at their endpoint (R324, R325, R332) -/

namespace Sys2Proof.Machine

open Claims

/-! ### The line of an address -/

/-- The fields of an address above its line are those of the line's first byte. -/
theorem bitsOf_line (a w : Nat) {lo : Nat} (h : 7 ≤ lo) : bitsOf (a / 128 * 128) lo w = bitsOf a lo w := by
  unfold bitsOf
  obtain ⟨d, rfl⟩ := Nat.exists_eq_add_of_le h
  rw [Nat.pow_add, ← Nat.div_div_eq_div_mul, ← Nat.div_div_eq_div_mul, show 2 ^ 7 = 128 from rfl, Nat.mul_div_cancel _ (by decide)]

theorem addrSpace_line (a : Nat) : addrSpace (a / 128 * 128) = addrSpace a := bitsOf_line a 4 (by decide)

/-- The place of an address by its fields. -/
theorem locOf_fields (a : Nat) : locOf a = match addrSpace a with
    | 0 => if bitsOf a 40 6 = 0 then .vault (bitsOf a 33 7) (bitsOf a 0 33) else .bad
    | 1 => if bitsOf a 40 6 = 0 ∧ bitsOf a 0 33 < 0x1800000 then .stage (bitsOf a 33 7) (bitsOf a 0 33) else .bad
    | 2 => .tier (bitsOf a 33 13) (bitsOf a 0 33)
    | 3 => if (a % 2 ^ 46).testBit 45 then .window (bitsOf a 39 6) (bitsOf a 0 39)
           else if bitsOf a 26 19 = 0 then .ctrl (bitsOf a 0 26) else .bad
    | _ => .bad := by
  have hlow : bitsOf a 0 46 = a % 2 ^ 46 := by simp [bitsOf]
  unfold locOf
  rw [hlow]
  simp only [bitsOf_mod a (m := 46) (lo := 40) (w := 6) (by decide), bitsOf_mod a (m := 46) (lo := 33) (w := 7) (by decide),
    bitsOf_mod a (m := 46) (lo := 0) (w := 33) (by decide), bitsOf_mod a (m := 46) (lo := 33) (w := 13) (by decide),
    bitsOf_mod a (m := 46) (lo := 39) (w := 6) (by decide), bitsOf_mod a (m := 46) (lo := 0) (w := 39) (by decide),
    bitsOf_mod a (m := 46) (lo := 26) (w := 19) (by decide), bitsOf_mod a (m := 46) (lo := 0) (w := 26) (by decide)] <;> rfl

theorem locOf_vault_iff {a g b : Nat} : locOf a = .vault g b ↔
    addrSpace a = 0 ∧ bitsOf a 40 6 = 0 ∧ bitsOf a 33 7 = g ∧ bitsOf a 0 33 = b := by
  rw [locOf_fields]
  constructor
  · split <;> grind
  · rintro ⟨hs, h0, rfl, rfl⟩
    simp [hs, h0]

theorem locOf_stage_iff {a g b : Nat} : locOf a = .stage g b ↔
    addrSpace a = 1 ∧ bitsOf a 40 6 = 0 ∧ bitsOf a 33 7 = g ∧ bitsOf a 0 33 = b ∧ b < 0x1800000 := by
  rw [locOf_fields]
  constructor
  · split <;> grind
  · rintro ⟨hs, h0, rfl, rfl, hb⟩
    simp [hs, h0, hb]

theorem locOf_vault_line {a g b : Nat} (h : locOf a = .vault g b) : ∃ c, locOf (a / 128 * 128) = .vault g c := by
  obtain ⟨hs, h0, hg, -⟩ := locOf_vault_iff.mp h
  exact ⟨_, locOf_vault_iff.mpr ⟨(addrSpace_line a).trans hs, (bitsOf_line a 6 (by decide)).trans h0,
    (bitsOf_line a 7 (by decide)).trans hg, rfl⟩⟩

theorem locOf_stage_line {a g b : Nat} (h : locOf a = .stage g b) : ∃ c, locOf (a / 128 * 128) = .stage g c := by
  obtain ⟨hs, h0, hg, hb, hlt⟩ := locOf_stage_iff.mp h
  refine ⟨_, locOf_stage_iff.mpr ⟨(addrSpace_line a).trans hs, (bitsOf_line a 6 (by decide)).trans h0,
    (bitsOf_line a 7 (by decide)).trans hg, rfl, ?_⟩⟩
  unfold bitsOf at hb ⊢
  omega

/-- Memory lies at a vault byte or at a byte of stage memory. -/
theorem isMemory_cases {a : Nat} (h : isMemory a = true) : (∃ g b, locOf a = .vault g b) ∨ ∃ g b, locOf a = .stage g b := by
  unfold isMemory at h
  split at h
  · exact .inl ⟨_, _, ‹_›⟩
  · exact .inr ⟨_, _, ‹_›⟩
  · cases h

theorem isStage_loc {a : Nat} (h : isStage a = true) : ∃ g b, locOf a = .stage g b := by
  unfold isStage at h
  split at h
  · exact ⟨_, _, ‹_›⟩
  · cases h

theorem fencedOff_line (s : State) {a : Nat} (h : isMemory a = true) : s.fencedOff (a / 128 * 128) = s.fencedOff a := by
  rcases isMemory_cases h with ⟨g, b, hl⟩ | ⟨g, b, hl⟩
  · obtain ⟨c, hc⟩ := locOf_vault_line hl
    simp only [State.fencedOff, hl, hc]
  · obtain ⟨c, hc⟩ := locOf_stage_line hl
    simp only [State.fencedOff, hl, hc]

theorem fencedOff_canStore {s : State} {a n : Nat} (h : s.canStore a n = true) : s.fencedOff a = false := by
  unfold State.canStore at h
  simpa using (Bool.and_eq_true_iff.mp h).1

/-- Nothing holds a place of stage memory of a core that serves. -/
theorem canStore_stage {s : State} {a g b : Nat} (h : locOf a = .stage g b) (hf : s.fencedOff a = false) (n : Nat) : s.canStore a n = true := by
  have hl : s.linesOf a (128 * n) = [] := by
    unfold State.linesOf
    rw [h]
    split <;> rfl
  simp [State.canStore, hf, hl]

/-! ### Reads that need not wait -/

theorem forEach_id {σ α : Type} {f : α → σ → σ} {l : List α} {s : σ} (h : ∀ a ∈ l, f a s = s) : forEach l f s = s := by
  induction l with
  | nil => rfl
  | cons a l ih =>
    rw [forEach, h a (List.mem_cons_self ..)]
    exact ih fun b hb => h b (List.mem_cons_of_mem _ hb)

/-- A unit whose lines are clear sees memory as it is, and nothing changes. -/
theorem gateReads_clear {s : State} {reader : Nat} {ls : List (Nat × Nat)} (h : LinesClear s reader ls) :
    s.gateReads reader ls = (s, some s) := by
  have hclear : ∀ p ∈ ls, s.lineReady reader p = true ∧ (s.rawLine p.1 p.2).poison = false ∧ s.deliveredTo reader p = none := by
    simpa [LinesClear, List.all_eq_true, and_assoc] using h
  have hfind : ls.find? (fun p => !s.lineReady reader p) = none := by
    rw [List.find?_eq_none]
    intro p hp
    simp [(hclear p hp).1]
  have hpoison : ls.filter (fun p => (s.rawLine p.1 p.2).poison && (s.deliveredTo reader p).isNone) = [] := by
    rw [List.filter_eq_nil_iff]
    intro p hp
    simp [(hclear p hp).2.1]
  have hview : s.view reader ls = s := forEach_id fun p hp => by simp [(hclear p hp).2.2]
  unfold State.gateReads
  rw [hfind]
  dsimp only
  rw [hpoison]
  refine Prod.ext (forEach_id fun p hp => ?_) (congrArg some hview)
  show s.takeDelivered reader p = s
  simp [State.takeDelivered, (hclear p hp).2.2]

/-! ### Requests and responses -/

theorem onRequest_ok {s : State} {src kind bit : Nat} {i : InMsg} (f : InMsg → State → State) (h : RequestOk s src kind bit i) :
    s.onRequest src kind bit f = f i s := by
  unfold State.onRequest
  rw [h.1]
  exact if_pos h.2

theorem onResponse_ok {s : State} {src kind : Nat} {i : InMsg} {x : Txn} (f : Nat → Txn → InMsg → State → State)
    (h : ResponseOk s src kind i x) : s.onResponse src kind f = f (txnKey i.die i.txn) x i s := by
  unfold State.onResponse
  rw [h.1]
  dsimp only
  rw [h.2.1]
  exact if_pos (.inr h.2.2)

theorem onResponse_stray {s : State} {src kind : Nat} {i : InMsg} (f : Nat → Txn → InMsg → State → State) (h : s.nextMsg src kind = some i)
    (hx : s.txn (txnKey i.die i.txn) = none) (hsrc : localSrc 0 ≤ src) :
    s.onResponse src kind f = (s.popMsg src).bump .prgDupDiscardCnt i.die 1 := by
  unfold State.onResponse
  rw [h]
  dsimp only
  rw [hx]
  exact if_pos hsrc

theorem execReadReq_ok {s : State} {src : Nat} {i : InMsg} (h : RequestOk s src 1 2 i) : exec (.readReq src) s = .next (s.readReq src i) :=
  congrArg Host.Outcome.next (onRequest_ok _ h)

theorem execWrite_ok {s : State} {src : Nat} {i : InMsg} (h : RequestOk s src 3 3 i) : exec (.write src) s = .next (s.writeReq src i) :=
  congrArg Host.Outcome.next (onRequest_ok _ h)

end Sys2Proof.Machine

namespace Sys2Proof.Claims

open Machine

theorem replies : Replies := by
  intro s i m
  have h := reply_stays s i m
  refine ⟨fun hl => ?_, h.get State.cores fun _ => rfl, h.memKept fun _ => rfl⟩
  rw [State.reply, if_pos hl]
  exact ⟨rfl, rfl⟩

theorem requestRefused : RequestRefused := by
  intro s src kind bit i f hm ha
  unfold State.onRequest
  rw [hm]
  exact if_neg (by simp [ha])

/-- A READ_REQ of lines that are clear. -/
theorem readReq_lines {s : State} {src : Nat} {i : InMsg} (hp : addrPkg i.addr = s.pkg) (hm : isMemory i.addr = true)
    (h0 : 0 < leNat (i.body.take 8)) (h32 : leNat (i.body.take 8) ≤ 32)
    (hd : destCore (i.addr / 128 * 128 + 128 * (leNat (i.body.take 8) - 1)) = destCore (i.addr / 128 * 128))
    (hs : s.fencedOff (i.addr / 128 * 128) = false)
    (hl : LinesClear s (msgUnit i.die i.src) (s.linesOf (i.addr / 128 * 128) (128 * leNat (i.body.take 8)))) :
    s.readReq src i = (s.popMsg src).reply i ⟨2, i.core, i.addr, readBody s (i.addr / 128 * 128) (leNat (i.body.take 8))⟩ := by
  unfold State.readReq
  rcases isMemory_cases hm with ⟨g, b, hloc⟩ | ⟨g, b, hloc⟩ <;>
  · simp only [hloc]
    rw [if_neg (by simp [hp]), if_neg (by simp [hd]; omega), if_neg (by simp [hs]), gateReads_clear hl]
    rfl

/-- A READ_REQ of stage memory of a core that is going dark. -/
theorem readReq_fenced {s : State} {src : Nat} {i : InMsg} (hp : addrPkg i.addr = s.pkg) (hm : isStage i.addr = true)
    (hs : s.fencedOff i.addr = true) (h0 : 0 < leNat (i.body.take 8)) (h32 : leNat (i.body.take 8) ≤ 32)
    (hd : destCore (i.addr / 128 * 128 + 128 * (leNat (i.body.take 8) - 1)) = destCore (i.addr / 128 * 128)) :
    s.readReq src i = (s.popMsg src).reply i ⟨0x0F, i.core, i.addr, leBytes 8 6⟩ := by
  obtain ⟨g, b, hloc⟩ := isStage_loc hm
  have hmem : isMemory i.addr = true := by simp [isMemory, hloc]
  have hspace : addrSpace (i.addr / 128 * 128) = 1 := (addrSpace_line _).trans (locOf_stage_iff.mp hloc).1
  unfold State.readReq
  simp only [hloc]
  rw [if_neg (by simp [hp]), if_neg (by simp [hd]; omega), if_pos ⟨(fencedOff_line s hmem).trans hs, hspace⟩]
  rfl

theorem readReq_ctrl {s : State} {src : Nat} {i : InMsg} {off : Nat} (hp : addrPkg i.addr = s.pkg) (hloc : locOf i.addr = .ctrl off) :
    s.readReq src i = ((((s.slotAddr i.addr).readReg 2 (off / 8 * 8) 8).1.popMsg src).reply i
      (match ((s.slotAddr i.addr).readReg 2 (off / 8 * 8) 8).2 with
      | some v => ⟨2, i.core, i.addr, slotLine v⟩
      | none => ⟨0x0F, i.core, i.addr, leBytes 8 4⟩)) := by
  unfold State.readReq
  simp only [hloc]
  rw [if_neg (by simp [hp])]
  rcases (s.slotAddr i.addr).readReg 2 (off / 8 * 8) 8 with ⟨t, _ | v⟩ <;> rfl

theorem readReq_window {s : State} {src : Nat} {i : InMsg} {w b : Nat} (hp : addrPkg i.addr = s.pkg) (hloc : locOf i.addr = .window w b)
    (hg : s.gateway.isSome = true) (ha : s.attached = true)
    (hw : s.winOk w (b / 128 * 128) (128 * leNat (i.body.take 8)) 2 = true) (h0 : 0 < leNat (i.body.take 8))
    (h32 : leNat (i.body.take 8) ≤ 32) :
    s.readReq src i = (s.popMsg src).hostRead (.rsp i.src i.txn i.gen) ((s.winOf w).1 + b / 128 * 128) (128 * leNat (i.body.take 8))
      (16 * i.die + i.core) 0 := by
  unfold State.readReq
  simp only [hloc]
  rw [if_neg (by simp [hp]), if_neg (by cases hgw : s.gateway <;> simp_all), if_pos ha, if_pos ⟨hw, h0, h32⟩]

theorem readReq : ReadReq := by
  intro s src i hok hp
  rw [execReadReq_ok hok]
  refine ⟨?_, ?_, ?_, ?_⟩
  · rintro n rfl hm h0 h32 hd hs hl
    rw [readReq_lines hp hm h0 h32 hd (fencedOff_canStore hs) hl]
  · rintro off r hloc rfl
    exact congrArg Host.Outcome.next (readReq_ctrl hp hloc)
  · intro hm hs h0 h32 hd
    rw [readReq_fenced hp hm hs h0 h32 hd]
  · rintro w b n rfl hloc hg ha hw h0 h32
    rw [readReq_window hp hloc hg ha hw h0 h32]
    exact ⟨_, _, rfl, rfl, rfl, rfl, rfl, rfl, rfl, rfl, rfl, rfl⟩

end Sys2Proof.Claims

namespace Sys2Proof.Claims

open Machine

/-! ### READ_RSP -/

/-- The answer to a read through the relay window: its data in HUB_RELAY_DATA, RESULT 0. -/
theorem relayEnd_data {s : State} {a : Nat} (h : s.hub.relays.find? (fun r => r.1 == 0) = some (0, a, false)) (data : Nat) :
    (s.relayEnd 0 0 data).prg = s.prg ∧ (s.relayEnd 0 0 data).rd .hubRelayData 0 0 = data % 2 ^ 64 ∧
      (s.relayEnd 0 0 data).rd .hubRelayStatus 0 0 = 0 ∧
      regsBut [regKey .hubRelayData 0 0, regKey .hubRelayStatus 0 0] s (s.relayEnd 0 0 data) ∧
      (s.relayEnd 0 0 data).cores = s.cores ∧ memKept s (s.relayEnd 0 0 data) := by
  have heq : s.relayEnd 0 0 data = ((s.updHub (fun h => { h with relays := h.relays.filter (fun x => x.1 != 0) })).wr .hubRelayData 0 0 data).wr
      .hubRelayStatus 0 0 0 := by
    unfold State.relayEnd
    rw [h]
    rfl
  rw [heq]
  refine ⟨rfl, ?_, State.rd_wr_of_lt _ _ _ _ (by decide), ?_, rfl, rfl, rfl⟩
  · rw [State.rd_wr_ne _ (by decide), State.rd_wr_self]
  · exact ((regsBut_refl [regKey .hubRelayData 0 0, regKey .hubRelayStatus 0 0] s).wr data (by simp)).wr _ (by simp)

theorem readRsp : ReadRsp := by
  intro s src i
  refine ⟨fun x hok hhost hrepair hckpt => ?_, fun x a hok how hrel => ?_, fun hm hx hsrc => ?_⟩
  · refine congrArg Host.Outcome.next ((onResponse_ok _ hok).trans ?_)
    cases how : x.owner with
    | host id => exact absurd how (hhost id)
    | repair g l k => exact if_pos (hrepair g l k how)
    | ckptRead v l => exact if_pos (hckpt v l how)
    | _ => rfl
  · obtain ⟨hprg, hdata, hst, hregs, hcores, hmem⟩ :=
      relayEnd_data (s := (s.popMsg src).setTxn (txnKey i.die i.txn) none) (a := a) hrel (leNat (i.body.take 8))
    refine ⟨_, congrArg Host.Outcome.next ((onResponse_ok _ hok).trans ?_), ?_, hdata, hst, hregs, hcores, hmem⟩
    · rw [how]
      dsimp only
      unfold State.txnEnd
      rw [how]
      rfl
    · unfold State.txn
      rw [hprg]
      exact SMap.get_set_self (fun _ => none) s.prg.txns (txnKey i.die i.txn) none
  · refine ⟨_, congrArg Host.Outcome.next (onResponse_stray _ hm hx hsrc), ?_, rfl, ?_, rfl, rfl, rfl⟩
    · exact counted_bump (s.popMsg src) .prgDupDiscardCnt i.die 1
    · exact (regsBut_refl _ (s.popMsg src)).wr _ (List.mem_singleton_self _)

/-! ### WRITE -/

section
variable {s : State} {src : Nat} {i : InMsg} (hp : addrPkg i.addr = s.pkg) (h24 : i.body.length ≠ 24)
include hp h24

theorem writeReq_fenced (hs : s.fencedOff i.addr = true) : s.writeReq src i = (s.popMsg src).reply i ⟨0x0F, i.core, i.addr, leBytes 8 6⟩ := by
  unfold State.writeReq
  rw [if_neg h24, if_neg (by simp [hp]), if_pos hs]
  rfl

/-- Lines that nothing holds. -/
theorem writeReq_lines (hm : isMemory i.addr = true) (h16 : i.body.length ≠ 16) (hne : bodyLines i.body ≠ []) (h32 : (bodyLines i.body).length ≤ 32)
    (hd : destCore (i.addr / 128 * 128 + 128 * ((bodyLines i.body).length - 1)) = destCore i.addr)
    (hs : s.canStore (i.addr / 128 * 128) (bodyLines i.body).length = true) :
    s.writeReq src i = ((s.storeLines (i.addr / 128 * 128) (bodyLines i.body)).popMsg src).reply i ⟨4, i.core, i.addr, []⟩ := by
  have hf : s.fencedOff i.addr = false := (fencedOff_line s hm).symm.trans (fencedOff_canStore hs)
  have hshape : ¬ ((bodyLines i.body).isEmpty = true ∨ 32 < (bodyLines i.body).length ∨
      destCore (i.addr / 128 * 128 + 128 * ((bodyLines i.body).length - 1)) ≠ destCore i.addr) := by simp [hne, hd, h32]
  unfold State.writeReq
  rw [if_neg h24, if_neg (by simp [hp]), if_neg (by simp [hf])]
  rcases isMemory_cases hm with ⟨g, b, hloc⟩ | ⟨g, b, hloc⟩
  · simp only [hloc]
    rw [if_neg h16, if_neg hshape, if_pos hs]
  · simp only [hloc]
    rw [if_neg h16, if_neg hshape, if_pos (canStore_stage hloc hf 0)]

theorem writeReq_ctrl {off : Nat} (hloc : locOf i.addr = .ctrl off) (hpost : ∀ e k, regSlot (off / 8 * 8) ≠ some (.hostCqPost, e, k)) :
    s.writeReq src i = ((((s.slotAddr i.addr).regWrite 2 (off / 8 * 8) 8 (leNat (i.body.take 8))).1.popMsg src).reply i
      (if ((s.slotAddr i.addr).regWrite 2 (off / 8 * 8) 8 (leNat (i.body.take 8))).2 then ⟨4, i.core, i.addr, []⟩
        else ⟨0x0F, i.core, i.addr, leBytes 8 4⟩)) := by
  unfold State.writeReq
  rw [if_neg h24, if_neg (by simp [hp]), if_neg (by simp [State.fencedOff, hloc])]
  simp only [hloc]
  rcases (s.slotAddr i.addr).regWrite 2 (off / 8 * 8) 8 (leNat (i.body.take 8)) with ⟨t, _ | _⟩ <;> rfl

theorem writeReq_tier {o b : Nat} (hloc : locOf i.addr = .tier o b) :
    s.writeReq src i = ((s.tierViol 0xFF 0xFFFFFFFF 0xFF i.addr).popMsg src).reply i ⟨0x0F, i.core, i.addr, leBytes 8 4⟩ := by
  unfold State.writeReq
  rw [if_neg h24, if_neg (by simp [hp]), if_neg (by simp [State.fencedOff, hloc])]
  simp only [hloc]

theorem writeReq_stageFlag {g b : Nat} (hloc : locOf i.addr = .stage g b) (h16 : i.body.length = 16) (hs : s.canStore i.addr 0 = true) :
    s.writeReq src i = ((s.putStg (s.home g) (b / 8 * 8) (i.body.take 8)).popMsg src).reply i ⟨4, i.core, i.addr, []⟩ := by
  unfold State.writeReq
  rw [if_neg h24, if_neg (by simp [hp]), if_neg (by simp [fencedOff_canStore hs])]
  simp only [hloc]
  rw [if_pos h16, if_pos hs]

theorem writeReq_window {w b : Nat} {t : State} (hloc : locOf i.addr = .window w b) (h8 : i.body.length = 8) (hg : s.gateway.isSome = true)
    (hb : s.hostBound w (b / 8 * 8) (i.body.take 8) 0 false = (t, .ok)) :
    s.writeReq src i = (t.popMsg src).reply i ⟨4, i.core, i.addr, []⟩ := by
  unfold State.writeReq
  rw [if_neg h24, if_neg (by simp [hp]), if_neg (by simp [State.fencedOff, hloc])]
  simp only [hloc]
  rw [if_neg (by cases hgw : s.gateway <;> simp_all), if_pos h8, State.bound, hb]

end

theorem write : Write := by
  intro s src i hok hp h24
  rw [execWrite_ok hok]
  refine ⟨?_, ?_, fun hm hf => ?_, fun o b hloc => ?_, fun g b hloc h16 hs => ?_, fun w b t hloc h8 hg hb => ?_⟩
  · rintro ls rfl hm h16 hne h32 hd hs
    rw [writeReq_lines hp h24 hm h16 hne h32 hd hs]
  · rintro off r hloc hpost rfl
    rw [writeReq_ctrl hp h24 hloc hpost]
  · rw [writeReq_fenced hp h24 hf]
  · have hcnt := counted_viol s .tierViolCnt 0 0xFF 0xFFFFFFFF 0xFF i.addr
    have hcores := State.viol_cores s .tierViolCnt 0 0xFF 0xFFFFFFFF 0xFF i.addr
    have hmem : (s.tierViol 0xFF 0xFFFFFFFF 0xFF i.addr).mems = s.mems := State.tierViol_mems ..
    have hrun := writeReq_tier (src := src) hp h24 hloc
    rw [State.tierViol] at hrun hmem
    generalize s.viol .tierViolCnt 0 0xFF 0xFFFFFFFF 0xFF i.addr = t at hcnt hcores hmem hrun
    have h := reply_stays (t.popMsg src) i ⟨0x0F, i.core, i.addr, leBytes 8 4⟩
    exact ⟨_, congrArg Host.Outcome.next hrun, (h.rd .tierViolCnt 0 0 (by decide)).trans hcnt,
      (h.get State.cores fun _ => rfl).trans hcores, memKept_of_mems ((h.get State.mems fun _ => rfl).trans ((State.popMsg_mems ..).trans hmem))⟩
  · rw [writeReq_stageFlag hp h24 hloc h16 hs]
  · rw [writeReq_window hp h24 hloc h8 hg hb]

theorem storedLine : StoredLine := by
  intro s a g b data tag p hloc
  show (match locOf (a + 128 * 0) with
    | .vault g b => s.putLine (s.home g) (b / 128) data tag (if p then 4 else 0)
    | .stage g b => s.putStg (s.home g) b data
    | _ => s) = _
  rw [hloc]

end Sys2Proof.Claims

namespace Sys2Proof.Certificates

/-- Settles O21, from what a request and a response do once their message is known: the branch that its address takes, and the frame of
the answer. -/
theorem memoryMessages : Obligations.MemoryMessages :=
  ⟨Claims.replies, Claims.requestRefused, Claims.readReq, Claims.readRsp, Claims.write, Claims.storedLine⟩

end Sys2Proof.Certificates
end

section
/-! ## Checkpoints and the faults that units report (R40, R41, R391, R407 to R410, R413) -/

namespace Sys2Proof.Machine

open Claims

/-! ### Reads by units leave an open snapshot as it is -/

/-- The service of a request that reads: its line fails the check, or the request is answered. -/
theorem serveHead_reads (s : State) (g : Nat) {req : VltReq} (h : req.write = false) (err : List Nat) : ∃ armed r,
    s.serveHead g req err = (s.disarmed g armed).finishReq g req r ∨ s.serveHead g req err = (s.disarmed g armed).lineFail g req r false := by
  unfold State.serveHead
  rw [if_neg (by simp [h])]
  dsimp only
  generalize (!req.write && s.flipArmed g req.line 1) = armed
  generalize (if armed = true then RawLine.flip _ _ else _) = r
  refine ⟨armed, r, ?_⟩
  by_cases hok : r.ok = true
  · exact .inl (if_pos hok)
  · exact .inr (if_neg hok)

theorem poisonRead_snap (s : State) (g : Nat) (req : VltReq) (r : RawLine) : (s.poisonRead g req r).snap = s.snap := by
  unfold State.poisonRead State.withhold
  split <;> rfl

theorem answerRead_snap (s : State) (g : Nat) (req : VltReq) (r : RawLine) (n : Nat) : (s.answerRead g req r n).snap = s.snap := by
  unfold State.answerRead
  split
  · rfl
  · split <;> rfl

theorem finishReq_read_snap (s : State) (g : Nat) {req : VltReq} (h : req.write = false) (r : RawLine) :
    (s.finishReq g req r).snap = s.snap := by
  unfold State.finishReq
  rw [if_neg (by simp [h])]
  split
  · rfl
  · split
    · exact (answerRead_snap ..).trans (poisonRead_snap ..)
    · exact answerRead_snap ..

theorem disarmed_snap (s : State) (g : Nat) (armed : Bool) : (s.disarmed g armed).snap = s.snap := by
  unfold State.disarmed
  split <;> rfl

/-- A request that reads copies no page to a snapshot frame. -/
theorem vltRequest_read_snap (s : State) (g : Nat) {req : VltReq} (h : req.write = false) (err : List Nat) :
    (s.vltRequest g req err).snap = s.snap := by
  unfold State.vltRequest
  split
  · rfl
  · unfold State.vltAdmit
    split
    · rfl
    · rw [if_neg (by simp [h])]
      obtain ⟨armed, r, hs | hs⟩ := serveHead_reads s g h err
      · rw [hs]
        exact (finishReq_read_snap _ g h r).trans (disarmed_snap ..)
      · rw [hs]
        exact disarmed_snap ..

theorem unitWait_snap (s : State) (reader g l : Nat) : (s.unitWait reader g l).snap = s.snap := by
  unfold State.unitWait
  split
  · rfl
  · exact vltRequest_read_snap s g rfl []

theorem takeDelivered_snap (s : State) (reader : Nat) (p : Nat × Nat) : (s.takeDelivered reader p).snap = s.snap := by
  unfold State.takeDelivered
  split <;> rfl

theorem gateReads_snap (s : State) (reader : Nat) (ls : List (Nat × Nat)) : (s.gateReads reader ls).1.snap = s.snap := by
  unfold State.gateReads
  split
  · exact unitWait_snap ..
  · exact (view_forEach (e := State.snap) (fun _ _ => takeDelivered_snap ..) ..).trans
      (view_forEach (e := State.snap) (fun _ _ => poisonRead_snap ..) ..)

theorem unitWait_stays (s : State) (reader g l : Nat) : Stays vaultView vltRegs s (s.unitWait reader g l) := by
  unfold State.unitWait
  split
  · exact .refl ..
  · exact vltRequest_stays ..

theorem takeDelivered_stays (L : List Reg) (s : State) (reader : Nat) (p : Nat × Nat) : Stays vaultView L s (s.takeDelivered reader p) := by
  unfold State.takeDelivered
  split
  · exact updVlt_stays ..
  · exact .refl ..

theorem gateReads_stays (s : State) (reader : Nat) (ls : List (Nat × Nat)) : Stays vaultView vltRegs s (s.gateReads reader ls).1 := by
  unfold State.gateReads
  split
  · exact unitWait_stays ..
  · exact (stays_forEach (fun _ _ => poisonRead_stays ..) ..).trans (stays_forEach (fun _ _ => takeDelivered_stays ..) ..)

/-! ### Streaming a page to the store -/

/-- What streaming a page leaves alone, and the registers that it changes. -/
def streamView (s : State) : State := s.sansVault.sansLinks
def streamRegs : List Reg := vltRegs ++ fabricRegs

theorem sendPage_stays (s v : State) (g src page : Nat) : Stays State.sansLinks fabricRegs s (s.sendPage v g src page) :=
  stays_forUpTo (fun _ _ => request_stays ..) ..

theorem Stays.toStream {s t : State} (h : Stays State.sansLinks fabricRegs s t) : Stays streamView streamRegs s t :=
  (h.view State.sansVault fun _ => rfl).mono (List.subset_append_right ..)

theorem snapSet_stays (s : State) (q : Option Snap) : Stays streamView streamRegs s { s with snap := q } := .of_eq rfl rfl rfl rfl

theorem streamNext_stays (s : State) : Stays streamView streamRegs s s.streamNext := by
  have hgate : ∀ ls, Stays streamView streamRegs s (s.gateReads hubIsland ls).1 := fun ls =>
    ((gateReads_stays s hubIsland ls).view (fun v => v.1.sansLinks) fun _ => rfl).mono (List.subset_append_left ..)
  unfold State.streamNext
  split
  · exact .refl ..
  · split
    · exact .refl ..
    · next q _ _ g src p _ =>
      have h := hgate ((List.range (2 ^ 14)).map (fun i => (g, src * 2 ^ 14 + i)))
      split
      · next heq => rwa [heq] at h
      · next s1 v heq =>
        rw [heq] at h
        exact (h.trans (snapSet_stays s1 _)).trans (sendPage_stays _ v g src p).toStream

/-- Streaming changes of an open snapshot only which pages are marked as sent. -/
theorem streamNext_snap {s : State} {q : Snap} (hq : s.snap = some q) : ∃ sent, s.streamNext.snap = some { q with sent := sent } := by
  unfold State.streamNext
  rw [hq]
  dsimp only
  split
  · exact ⟨q.sent, hq⟩
  · next g src p _ =>
    have h := gateReads_snap s hubIsland ((List.range (2 ^ 14)).map (fun i => (g, src * 2 ^ 14 + i)))
    split
    · next heq =>
      rw [heq] at h
      exact ⟨q.sent, h.trans hq⟩
    · exact ⟨_, (sendPage_stays ..).get State.snap fun _ => rfl⟩

/-- With no page left to stream nothing happens. -/
theorem streamNext_none {s : State} {q : Snap} (hq : s.snap = some q) (hg : q.guarded = []) (hc : q.copied = []) : s.streamNext = s := by
  unfold State.streamNext
  rw [hq]
  simp [State.streamPick, hg, hc]

theorem streamNext_clear {s : State} {q : Snap} {g src p : Nat} (hq : s.snap = some q) (hp : s.streamPick q = some (g, src, p))
    (hl : LinesClear s hubIsland ((List.range (2 ^ 14)).map (fun i => (g, src * 2 ^ 14 + i)))) :
    s.streamNext = ({ s with snap := some { q with sent := q.sent ++ [(g, p)] } } : State).sendPage s g src p := by
  unfold State.streamNext
  rw [hq]
  dsimp only
  rw [hp]
  dsimp only
  rw [gateReads_clear hl]

/-! ### SNAPSHOT_EPOCH -/

/-- An epoch opens: the snapshot of step `st`, whose pages those are that memory marks. -/
def epochOpened (s : State) (st : Nat) : State :=
  ((({ s with snap := some ⟨st, s.workers.flatMap s.snapMarks, [], [], none, s.saves.filter (fun v => v.gen == 1 && v.step == st),
    s.workers.map (fun g => (g, s.snapArea g)), s.workers.flatMap s.snapMarks, []⟩ } : State).updFlt
      (fun f => { f with defer := none })).wrF .hubCkptStatus 0 0 48 1 1)

theorem execSnapshotEpoch_opens {s : State} {st : Nat} (done : List Nat) (loss durable : Option Nat) (hs : s.snap = none)
    (hd : s.epochDue = some st) (hl : LinesClear s hubIsland (s.workers.flatMap s.mapLines)) :
    exec (.snapshotEpoch done loss durable) s = .next (epochOpened s st).streamNext := by
  show execSnapshotEpoch done loss durable s = _
  unfold execSnapshotEpoch
  rw [hs]
  dsimp only
  rw [hd]
  dsimp only
  rw [gateReads_clear hl]
  rfl

/-- The state in which an open snapshot has heard that packages have stored their pages. -/
def storedNoted (s : State) (q : Snap) (done : List Nat) : State :=
  { s with snap := some { q with stored := (q.stored ++ done).eraseDups } }

/-- What SNAPSHOT_EPOCH goes on to do for an open snapshot. -/
def epochGoesOn (s : State) (q : Snap) (loss : Option Nat) : State :=
  if !(q.guarded.isEmpty && q.copied.isEmpty) then s.streamNext
  else if !s.isLead || s.workers.any (fun g => decide ((s.core g).step ≤ q.step)) then s
  else match q.loss with
    | none => match s.lossHere.or loss with
      | some l => ({ s with snap := some { q with loss := some l } } : State).request 0 (.ckpt 128 0) 64 2
          ⟨3, 0, q.step, lineBody (leBytes 4 l) 0 0⟩ 0
      | none => s
    | some l => if s.ckptOpen 128 0 || !s.peers.all (fun p => q.stored.contains p) then s
        else (s.durable l).tellAll 41 [q.step, l]

/-- An epoch that falls due while a snapshot is open is put off and counted. -/
def epochPutOff (s : State) (st : Nat) : State := (s.updFlt (fun f => { f with defer := some st })).bump .hubSnapDeferCnt 0 1

/-- An open snapshot notes the epoch that falls due. -/
def dueNoted (s : State) (q : Snap) : State := match s.epochDue with
  | some st => if st = q.step ∨ st % s.img.ckptInt ≠ 0 ∨ s.flt.defer = some st then s else epochPutOff s st
  | none => s

theorem dueNoted_putOff {s : State} {q : Snap} {st : Nat} (hd : s.epochDue = some st) (hst : st ≠ q.step) (hi : st % s.img.ckptInt = 0)
    (hnew : s.flt.defer ≠ some st) : dueNoted s q = epochPutOff s st := by
  unfold dueNoted
  rw [hd]
  exact if_neg (by simp [hst, hi, hnew])

theorem dueNoted_none {s : State} {q : Snap} (hd : s.epochDue = none) : dueNoted s q = s := by
  unfold dueNoted
  rw [hd]

theorem execSnapshotEpoch_open {s : State} {q : Snap} (done : List Nat) (loss : Option Nat) (hq : s.snap = some q) :
    exec (.snapshotEpoch done loss none) s = .next (epochGoesOn (dueNoted (storedNoted s q done) q)
      { q with stored := (q.stored ++ done).eraseDups } loss) := by
  show execSnapshotEpoch done loss none s = _
  unfold execSnapshotEpoch
  rw [hq]
  rfl

/-- What SNAPSHOT_EPOCH leaves of the state with an open snapshot. -/
def epochView (s : State) : State × Option Nat := ({ streamView s with flt := FltSt.none }, s.flt.defer)

theorem durable_stays (s : State) (l : Nat) : Stays epochView [.hubCkptStatus] s (s.durable l) := by
  unfold State.durable
  split
  · exact .refl ..
  · refine Stays.wr ?_ (fun _ _ _ => rfl) (by decide)
    exact .of_eq rfl rfl rfl rfl

theorem epochGoesOn_stays (s : State) (q : Snap) (loss : Option Nat) :
    Stays epochView (.hubCkptStatus :: streamRegs) s (epochGoesOn s q loss) := by
  have hview : ∀ t, Stays streamView streamRegs s t → Stays epochView (.hubCkptStatus :: streamRegs) s t := fun t h =>
    (h.view (fun v => ({ v with flt := FltSt.none }, v.flt.defer)) fun _ => rfl).mono (List.subset_cons_self ..)
  unfold epochGoesOn
  split
  · exact hview _ (streamNext_stays s)
  · split
    · exact .refl ..
    · split
      · split
        · exact hview _ ((snapSet_stays s _).trans (request_stays ..).toStream)
        · exact .refl ..
      · split
        · exact .refl ..
        · exact ((durable_stays ..).mono (by simp)).trans (tellAll_stays _ _ _ _ fun _ _ _ => rfl)

/-- With every page of the snapshot stored no memory and no core takes part. -/
theorem epochGoesOn_own {s : State} {q : Snap} (loss : Option Nat) (hg : q.guarded = []) (hc : q.copied = []) :
    (epochGoesOn s q loss).cores = s.cores ∧ memKept s (epochGoesOn s q loss) := by
  unfold epochGoesOn
  rw [if_neg (by simp [hg, hc])]
  split
  · exact ⟨rfl, rfl, rfl⟩
  · split
    · split
      · next l _ =>
        have h := request_stays ({ s with snap := some { q with loss := some l } } : State) 0 (.ckpt 128 0) 64 2
          ⟨3, 0, q.step, lineBody (leBytes 4 l) 0 0⟩ 0
        exact ⟨h.get State.cores fun _ => rfl, h.get State.vmem fun _ => rfl, h.get State.stg fun _ => rfl⟩
      · exact ⟨rfl, rfl, rfl⟩
    · split
      · exact ⟨rfl, rfl, rfl⟩
      · next l _ _ =>
        have hd : (s.durable l).cores = s.cores ∧ memKept s (s.durable l) := by
          unfold State.durable
          split <;> exact ⟨rfl, rfl, rfl⟩
        rw [tellAll_eq]
        exact hd

end Sys2Proof.Machine

namespace Sys2Proof.Claims

open Machine

theorem snapshotEpoch : SnapshotEpoch := by
  intro s done loss
  refine ⟨fun st hs hd hl => ?_, fun q st hq hd hst hi hnew => ?_, fun q g src p hq hd hown hp hl => ?_, fun hs hd => ?_, fun q l hq => ?_⟩
  · have h := streamNext_stays (epochOpened s st)
    have hq : (epochOpened s st).snap = some _ := State.wrF_snap ..
    obtain ⟨sent, hsent⟩ := streamNext_snap hq
    refine ⟨_, execSnapshotEpoch_opens done loss none hs hd hl, ?_, ?_, ?_, fun hm => ?_⟩
    · rw [hsent]
      rfl
    · rw [h.rdF .hubCkptStatus 0 0 48 1 (by decide)]
      exact State.rdF_wrF_self _ _ _ _ (by decide) _
    · rw [h.get State.flt fun _ => rfl]
      rfl
    · rw [streamNext_none hq hm rfl]
      exact ⟨State.wrF_cores .., State.wrF_vmem .., State.wrF_stg ..⟩
  · have hnoted : dueNoted (storedNoted s q done) q = epochPutOff (storedNoted s q done) st := dueNoted_putOff hd hst hi hnew
    have h := epochGoesOn_stays (epochPutOff (storedNoted s q done) st) { q with stored := (q.stored ++ done).eraseDups } loss
    refine ⟨_, (execSnapshotEpoch_open done loss hq).trans (by rw [hnoted]), congrArg Prod.snd h.1, ?_, fun hg hc => ?_⟩
    · unfold counted
      rw [h.rd .hubSnapDeferCnt 0 0 (by decide)]
      exact counted_bump ((storedNoted s q done).updFlt fun f => { f with defer := some st }) .hubSnapDeferCnt 0 1
    · exact epochGoesOn_own loss hg hc
  · have hpick : (storedNoted s q done).streamPick { q with stored := (q.stored ++ done).eraseDups } = some (g, src, p) := by
      rw [← hp]
      simp [State.streamPick, State.snapPage, storedNoted, hq]
      rfl
    have heq := streamNext_clear (s := storedNoted s q done) rfl hpick hl
    have h := sendPage_stays ({ storedNoted s q done with snap := some { q with
      stored := (q.stored ++ done).eraseDups, sent := q.sent ++ [(g, p)] } } : State) (storedNoted s q done) g src p
    have hgo : epochGoesOn (dueNoted (storedNoted s q done) q) { q with stored := (q.stored ++ done).eraseDups } loss =
        (storedNoted s q done).streamNext := by
      rw [dueNoted_none (s := storedNoted s q done) hd]
      exact if_pos (by rcases not_and_or.mp hown with h | h <;> simp [h])
    refine ⟨_, (execSnapshotEpoch_open done loss hq).trans (by rw [hgo, heq]), ?_⟩
    exact ⟨congrArg _ (h.get State.snap fun _ => rfl), h.get State.cores fun _ => rfl, h.get State.vmem fun _ => rfl, h.get State.stg fun _ => rfl⟩
  · show execSnapshotEpoch done loss none s = _
    unfold execSnapshotEpoch
    rw [hs]
    dsimp only
    rw [hd]
  · have heq : exec (.snapshotEpoch done loss (some l)) s = .next ((storedNoted s q done).durable l) := by
      show execSnapshotEpoch done loss (some l) s = _
      unfold execSnapshotEpoch
      rw [hq]
      rfl
    refine ⟨_, heq, rfl, rfl, ?_, ?_, rfl, rfl, rfl⟩
    · exact State.rd_wr_of_lt _ _ _ _ (Nat.lt_of_lt_of_le (Nat.mod_lt _ (by decide)) (by decide))
    · exact (regsBut_refl _ (storedNoted s q done)).wr _ (List.mem_singleton_self _)

end Sys2Proof.Claims
end

section
/-! ## Grants, saves and their frames -/

namespace Sys2Proof.Machine

open Claims

/-! ### Grants (R451) -/

/-- The state without what a change of grants changes, and the registers that it changes. -/
def State.sansPower (s : State) : State := { s with regs := [], outbox := [], pwr := Pwr.off }
def powerRegs : List Reg := [.pwrPool, .pwrCoreState]

theorem sansPower_blind : Blind State.sansPower := fun _ _ _ => rfl

theorem updPwr_stays (L : List Reg) (s : State) (f : Pwr → Pwr) : Stays State.sansPower L s (s.updPwr f) := .of_eq rfl rfl rfl rfl

theorem setCoreState_stays (s : State) (g v : Nat) : Stays State.sansPower powerRegs s (s.setCoreState g v) :=
  (Stays.refl ..).wr sansPower_blind (by decide)

theorem setGrant_stays (s : State) (i n : Nat) : Stays State.sansPower powerRegs s (s.setGrant i n) := by
  unfold State.setGrant
  dsimp only
  have hpool : ∀ f v, Stays State.sansPower powerRegs s ((s.updPwr f).wrF .pwrPool 0 (islandDie i) 12 12 v) := fun f v =>
    (updPwr_stays ..).wr sansPower_blind (by decide)
  split
  · exact (hpool ..).trans (setCoreState_stays ..)
  · exact hpool ..

theorem serveAsks_stays (s : State) (d n : Nat) : Stays State.sansPower powerRegs s (s.serveAsks d n) := by
  induction n generalizing s with
  | zero => exact .refl ..
  | succ n ih =>
    unfold State.serveAsks
    split
    · exact .refl ..
    · next a _ =>
      dsimp only
      generalize max (s.grant a.1) (min a.2 (s.grant a.1 + (s.poolCap d - s.poolIssued d))) = grant
      have hset : Stays State.sansPower powerRegs s (if grant = s.grant a.1 then s else s.setGrant a.1 grant) := by
        split
        · exact .refl ..
        · exact setGrant_stays ..
      split
      · exact hset.trans ((updPwr_stays ..).trans (ih _))
      · exact hset

theorem askGrant_stays (s : State) (i n : Nat) : Stays State.sansPower powerRegs s (s.askGrant i n) :=
  (updPwr_stays ..).trans (serveAsks_stays ..)

theorem returnGrant_stays (s : State) (i : Nat) : Stays State.sansPower powerRegs s (s.returnGrant i) :=
  (setGrant_stays ..).trans ((updPwr_stays ..).trans (serveAsks_stays ..))

/-! ### Registers of a save (R302, R303) -/

theorem keyReg_regKey (r : Reg) (i k : Nat) : keyReg (regKey r i k) = r := by
  have h : regKey r i k / 2 ^ 20 = r.ctorIdx := by unfold regKey; omega
  rw [keyReg, h, Reg.ofNat_ctorIdx]

/-- Clearing registers leaves those that it does not name. -/
theorem State.rd_clearRegs (s : State) {p : Nat → Bool} {r : Reg} {i k : Nat} (h : p (regKey r i k) = false) :
    (s.clearRegs p).rd r i k = s.rd r i k := by
  unfold State.rd State.clearRegs
  dsimp only
  rw [SMap.get_filter regDefault s.regs (fun k => !p k), h]
  rfl

theorem savedKey_of_not_saved {r : Reg} (h : savedReg r = false) (g i k : Nat) : savedKey g (regKey r i k) = false := by
  simp [savedKey, keyReg_regKey, h]

/-- Registers of a save, put back into a core, leave the registers that no save holds. -/
theorem State.rd_putRegs {es : List (Nat × BitVec 64)} (hes : ∀ e ∈ es, savedReg (keyReg e.1) = true) (s : State) (g : Nat) {r : Reg}
    (h : savedReg r = false) (i k : Nat) : (s.putRegs g es).rd r i k = s.rd r i k := by
  unfold State.putRegs
  induction es generalizing s with
  | nil => rfl
  | cons e es ih =>
    rw [forEach]
    refine (ih (fun x hx => hes x (List.mem_cons_of_mem _ hx)) _).trans ?_
    have hne : e.1 / 2 ^ 20 * 2 ^ 20 + g % 256 * 2 ^ 12 + e.1 % 2 ^ 12 ≠ regKey r i k := by
      intro heq
      have hkey : keyReg (regKey r i k) = keyReg e.1 := by
        rw [← heq, keyReg, keyReg]
        congr 1
        omega
      rw [keyReg_regKey] at hkey
      rw [hkey, hes e (List.mem_cons_self ..)] at h
      cases h
    exact congrArg BitVec.toNat (SMap.get_set_ne regDefault s.regs e.2 hne)

/-! ### SNAPSHOT_READBACK_DONE -/

/-- What loading a checkpoint leaves until it is counted: whether a snapshot is open, and HUB_RESTORE_CNT. -/
def restoreView (s : State) : Bool × Nat := (s.snap.isSome, s.rd .hubRestoreCnt 0 0)

theorem Stays.toRestore {s t : State} {e : State → State} {L : List Reg} (h : Stays e L s t) (hL : Reg.hubRestoreCnt ∉ L)
    (he : ∀ s, (e s).snap = s.snap) : restoreView t = restoreView s :=
  Prod.ext (congrArg Option.isSome (h.get State.snap he)) (h.rd .hubRestoreCnt 0 0 hL)

theorem Stays.vaultRestore {s t : State} (h : Stays vaultView vltRegs s t) : restoreView t = restoreView s :=
  Prod.ext h.snapOpen (h.rd .hubRestoreCnt 0 0 (by decide))

theorem dropSnap_restoreCnt (s : State) : s.dropSnap.rd .hubRestoreCnt 0 0 = s.rd .hubRestoreCnt 0 0 := by
  rcases dropSnap_stays s with ⟨-, h⟩ | h
  · rw [h]
  · rw [h.rd .hubRestoreCnt 0 0 (by decide), State.snapOff, State.rd_wrF_ne _ (by decide)]
    rfl

theorem updKw_stays (s : State) (k : Nat) (f : Kw → Kw) : Stays State.sansLinks fabricRegs s (s.updKw k f) := updPrg_stays ..

theorem clearKw_stays (s : State) (k : Nat) : Stays State.sansLinks fabricRegs s (s.clearKw k) := updKw_stays ..

theorem updCore_restore (s : State) (g : Nat) (f : Core → Core) : restoreView (s.updCore g f) = restoreView s := rfl

theorem startReset_restore (s : State) (k : Nat) : restoreView (s.startReset k false) = restoreView s := by
  unfold State.startReset
  split
  · rfl
  · next q _ =>
    have h : ∀ f b, Stays State.sansLinks (.prgKwResetCnt :: fabricRegs) s (((s.clearKw k).updKw k f).sendKwCtl k b) := fun f b =>
      ((clearKw_stays s k).trans ((updKw_stays ..).trans (sendKwCtl_stays ..))).mono (List.subset_cons_self ..)
    rw [if_neg Bool.false_ne_true]
    exact ((h _ _).wr sansLinks_blind (List.mem_cons_self ..)).toRestore (by decide) fun _ => rfl

theorem view_forUpTo {α : Type} {e : State → α} {f : Nat → State → State} (h : ∀ i s, e (f i s) = e s) (n : Nat) (s : State) :
    e (forUpTo n f s) = e s := by
  induction n with
  | zero => rfl
  | succ n ih => exact (h n _).trans ih

theorem dropFabric_restore (s : State) : restoreView s.dropFabric = restoreView s := by
  unfold State.dropFabric
  refine (view_forUpTo (e := restoreView) (fun _ _ => updCore_restore ..) ..).trans ?_
  exact view_forEach (e := restoreView) (fun _ _ => startReset_restore ..) ..

theorem putLines_restore (s : State) (a : Nat) (ls : List (Nat × Nat × Nat × List Nat)) : restoreView (s.putLines a ls) = restoreView s :=
  view_forEach (fun _ _ => (storeLine_stays ..).vaultRestore) ..

theorem moveBases_restore (s : State) (g old : Nat) : restoreView (s.moveBases g old) = restoreView s := by
  have hwr : ∀ (r : Reg) (s : State) v, r ≠ .hubRestoreCnt → restoreView (s.wr r g 0 v) = restoreView s := fun r s v h =>
    Prod.ext rfl (State.rd_wr_ne s h g 0 v 0 0)
  unfold State.moveBases
  show restoreView (List.foldl _ s _) = _
  simp only [List.foldl]
  rw [hwr _ _ _ (by decide), hwr _ _ _ (by decide), hwr _ _ _ (by decide), hwr _ _ _ (by decide)]

theorem putRegs_snap (s : State) (g : Nat) (es : List (Nat × BitVec 64)) : (s.putRegs g es).snap = s.snap := by
  have hput : ∀ k (e : Nat × BitVec 64) (s : State), ({ s with regs := SMap.set regDefault s.regs k e.2 } : State).snap = s.snap :=
    fun _ _ _ => rfl
  unfold State.putRegs
  exact view_forEach (fun e s => hput _ e s) es s

theorem loadSave_restore {v : Save} (hv : ∀ e ∈ v.regs, savedReg (keyReg e.1) = true) (s : State) (g : Nat) (redo : Bool) :
    restoreView (s.loadSave g v redo) = restoreView s := by
  have hregs : ∀ c, restoreView (((s.clearRegs (savedKey g)).putRegs g v.regs).setCore g c) = restoreView s := by
    intro c
    refine Prod.ext ?_ ?_
    · exact congrArg Option.isSome (putRegs_snap (s.clearRegs (savedKey g)) g v.regs)
    · exact (State.rd_putRegs hv _ g (by decide) 0 0).trans (State.rd_clearRegs s (savedKey_of_not_saved (by decide) g 0 0))
  unfold State.loadSave
  dsimp only
  generalize hs2 : (if v.home = g then _ else _) = s2
  have hs2' : restoreView s2 = restoreView s := by
    rw [← hs2]
    split
    · exact hregs _
    · exact (moveBases_restore ..).trans (hregs _)
  have hquiet : restoreView (s2.updCore g fun c => { c with lane := c.lane.quiet }) = restoreView s := (updCore_restore ..).trans hs2'
  split
  · exact (((setCoreState_stays _ g 1).trans (askGrant_stays ..)).toRestore (by decide) fun _ => rfl).trans hquiet
  · exact hquiet

theorem loadAll_restore {vs : List Save} (hvs : SavesOk vs) (s : State) (redo : Bool) : restoreView (s.loadAll vs redo) = restoreView s := by
  unfold State.loadAll
  induction vs generalizing s with
  | nil => rfl
  | cons v vs ih =>
    rw [forEach, ih (fun x hx => hvs x (List.mem_cons_of_mem _ hx))]
    split
    · rfl
    · split
      · exact loadSave_restore (hvs v (List.mem_cons_self ..)) ..
      · rfl

/-- The lines of a checkpoint that the store gives by another way, in the vaults of a state. -/
def linesLoaded (s : State) (lines : List (Nat × Nat × Nat × Nat × List Nat)) : State :=
  forEach lines (fun x s => s.putLines (s.home (x.1 % 128)) [x.2]) s

theorem linesLoaded_restore (s : State) (lines : List (Nat × Nat × Nat × Nat × List Nat)) : restoreView (linesLoaded s lines) = restoreView s :=
  view_forEach (fun _ _ => putLines_restore ..) ..

/-- The saves of a checkpoint, for the cores that now work for them. -/
def ckptSaves (s : State) (c : Ckpt) : List Save := c.saves.map (fun v => { v with core := s.home v.core })

theorem ckptSaves_ok (s : State) {c : Ckpt} (hc : SavesOk c.saves) : SavesOk (ckptSaves s c) := by
  intro v hv
  obtain ⟨w, hw, rfl⟩ := List.mem_map.mp hv
  exact hc w hw

/-- The state in which the saves of a checkpoint have been loaded. -/
def savesLoaded (s : State) (c : Ckpt) : State :=
  (({ s with saves := s.saves.filter (fun v => v.gen == 0) ++ ckptSaves s c } : State).loadAll (ckptSaves s c) true).restartWindows
    (ckptSaves s c)

theorem restartWindows_restore (s : State) (vs : List Save) : restoreView (s.restartWindows vs) = restoreView s := rfl

theorem savesLoaded_restore (s : State) {c : Ckpt} (hc : SavesOk c.saves) : restoreView (savesLoaded s c) = restoreView s := by
  have hsaves : ∀ vs, restoreView { s with saves := vs } = restoreView s := fun _ => rfl
  exact (restartWindows_restore ..).trans ((loadAll_restore (ckptSaves_ok s hc) ..).trans (hsaves _))

/-- The package with a checkpoint loaded. -/
def ckptLoaded (s : State) (c : Ckpt) (lines : List (Nat × Nat × Nat × Nat × List Nat)) : State :=
  savesLoaded (linesLoaded s.dropSnap.dropFabric.dropSums lines) c

theorem dropSums_restore (s : State) : restoreView s.dropSums = restoreView s := rfl

theorem ckptLoaded_restore (s : State) {c : Ckpt} (hc : SavesOk c.saves) (lines : List (Nat × Nat × Nat × Nat × List Nat)) :
    restoreView (ckptLoaded s c lines) = restoreView s.dropSnap :=
  (savesLoaded_restore _ hc).trans ((linesLoaded_restore ..).trans ((dropSums_restore _).trans (dropFabric_restore _)))

theorem ckptLoaded_snap (s : State) {c : Ckpt} (hc : SavesOk c.saves) (lines : List (Nat × Nat × Nat × Nat × List Nat)) :
    (ckptLoaded s c lines).snap = none := by
  have h := congrArg Prod.fst (ckptLoaded_restore s hc lines)
  rw [restoreView, restoreView, dropSnap_snap] at h
  simpa using h

theorem ckptLoaded_restoreCnt (s : State) {c : Ckpt} (hc : SavesOk c.saves) (lines : List (Nat × Nat × Nat × Nat × List Nat)) :
    (ckptLoaded s c lines).rd .hubRestoreCnt 0 0 = s.rd .hubRestoreCnt 0 0 :=
  (congrArg Prod.snd (ckptLoaded_restore s hc lines)).trans (dropSnap_restoreCnt s)

/-- A checkpoint that has been loaded is counted; its loss stands for the verify step. -/
def ckptCounted (s : State) (c : Ckpt) : State :=
  ((s.bump .hubRestoreCnt 0 1).restoreStatus c.step 3 7).updFlt (fun f =>
    { f with verify := some (c.step, c.loss), verifyLoss := none, derived := none })

theorem rd_restoreStatus_ne (s : State) (step gen phase : Nat) {r : Reg} (h : .hubRestoreStatus ≠ r) (i k : Nat) :
    (s.restoreStatus step gen phase).rd r i k = s.rd r i k := State.rd_wr_ne s h ..

theorem rdF_restoreStatus (s : State) (step gen phase lo w : Nat) (h : lo + w ≤ 64) :
    (s.restoreStatus step gen phase).rdF .hubRestoreStatus 0 0 lo w = bitsOf (step % m48 + gen % 4 * 2 ^ 48 + phase % 8 * 2 ^ 50) lo w := by
  unfold State.rdF State.restoreStatus
  rw [State.rd_wr_self, bitsOf_mod _ h]

theorem restoreStatus_snap (s : State) (step gen phase : Nat) : (s.restoreStatus step gen phase).snap = s.snap := State.wr_snap s ..

theorem ckptCounted_snap (s : State) (c : Ckpt) : (ckptCounted s c).snap = s.snap := by
  unfold ckptCounted
  rw [State.updFlt_snap, restoreStatus_snap]
  exact State.wr_snap s ..

theorem ckptCounted_restoreCnt (s : State) (c : Ckpt) : counted .hubRestoreCnt 0 1 s (ckptCounted s c) := by
  unfold ckptCounted counted
  rw [State.rd_congr (State.updFlt_regs ..), rd_restoreStatus_ne _ _ _ _ (by decide)]
  exact counted_bump s .hubRestoreCnt 0 1

theorem ckptCounted_status (s : State) (c : Ckpt) (lo w : Nat) (h : lo + w ≤ 64) :
    (ckptCounted s c).rdF .hubRestoreStatus 0 0 lo w = bitsOf (c.step % m48 + 3 % 4 * 2 ^ 48 + 7 % 8 * 2 ^ 50) lo w := by
  unfold ckptCounted
  rw [State.rdF, State.rd_congr (State.updFlt_regs ..)]
  exact rdF_restoreStatus (s.bump .hubRestoreCnt 0 1) c.step 3 7 lo w h

end Sys2Proof.Machine

namespace Sys2Proof.Claims

open Machine

theorem snapshotReadbackDone : SnapshotReadbackDone := by
  intro s c cs lines hc hsaves hgen hphase hpass
  have hexec : exec (.snapshotReadbackDone lines) s =
      .next (if s.readingBack then s else (ckptCounted (ckptLoaded s c lines) c).tellLead 25 [c.step, 3]) := by
    show execSnapshotReadbackDone lines s = _
    unfold execSnapshotReadbackDone
    rw [hc]
    simp only [hgen, hphase, hpass]
    rfl
  refine ⟨fun hr => by rw [hexec, if_pos hr], fun hr => ⟨_, by rw [hexec, if_neg (by simp [hr])], ?_⟩⟩
  have hloaded := ckptLoaded_restoreCnt s hsaves lines
  have hsnap := ckptLoaded_snap s hsaves lines
  generalize ckptLoaded s c lines = u at hloaded hsnap ⊢
  have htell := tellLead_stays (e := fun s : State => (s.flt, s.snap)) [] (ckptCounted u c) 25 [c.step, 3] fun _ _ _ => rfl
  refine ⟨?_, ?_, ?_, congrArg (fun v => v.1.verify) htell.1, (congrArg Prod.snd htell.1).trans ((ckptCounted_snap u c).trans hsnap)⟩
  · rw [State.restorePhase, htell.rdF .hubRestoreStatus 0 0 50 3 (by decide), ckptCounted_status u c 50 3 (by decide)]
    unfold bitsOf m48
    omega
  · rw [htell.rdF .hubRestoreStatus 0 0 0 48 (by decide), ckptCounted_status u c 0 48 (by decide)]
    unfold bitsOf m48
    omega
  · unfold counted
    rw [htell.rd .hubRestoreCnt 0 0 (by decide), ← hloaded]
    exact ckptCounted_restoreCnt u c

theorem coreFaults : CoreFaults := by
  intro s g cause m hact
  refine ⟨⟨s.queue .coreParity g (some g) (.gen (cause % 3) 0 0 0 0 0), ?_, rfl, _, rfl, rfl, rfl, rfl⟩,
    ⟨s.queue .coreRail 167 (some g) (.gen (cause % 2) (g % 128) 0 (m % 2 ^ 32) 0 0), ?_, rfl, _, rfl, rfl, rfl, rfl⟩⟩
  · exact congrArg Host.Outcome.next (if_pos hact)
  · exact congrArg Host.Outcome.next (if_pos hact)

theorem wardLockstep : WardLockstep := by
  intro s
  refine ⟨fun hp hd => ⟨(s.bump .wardLockstepCorrCnt 0 1).queue .wardLockstep 166 none
    (.gen 0 0 0 ((s.bump .wardLockstepCorrCnt 0 1).rd .wardLockstepCorrCnt 0 0) 0 0), ?_, ?_, ⟨_, rfl, rfl, rfl, rfl⟩, ?_, rfl, rfl, rfl⟩, fun h => ?_⟩
  · exact congrArg Host.Outcome.next (if_neg (by simp [hp, hd]))
  · exact counted_bump s .wardLockstepCorrCnt 0 1
  · exact (regsBut_refl _ s).wr _ (List.mem_singleton_self _)
  · exact congrArg Host.Outcome.next (if_pos h)

end Sys2Proof.Claims
end

section
/-! ## A load that ends, and H1 (R41, R355 to R357, R413) -/

namespace Sys2Proof.Claims

open Machine

/-! ### A load that ends before SEAL -/

/-- The registers that the end of a load changes. -/
def loadRegs : List Reg := .hubImageStatus :: .hubImageRefuseCnt :: drainRegs

theorem dropLoad_staged (s : State) : s.dropLoad.img.staged = none := by
  unfold State.dropLoad
  split
  · assumption
  · rw [State.wrF_img, State.wrF_img]
    rfl

theorem dropLoad_stays (s : State) : Stays sansImg [.hubImageStatus] s s.dropLoad := by
  unfold State.dropLoad
  split
  · exact .refl ..
  · exact ((updImg_stays ..).wr sansImg_blind (by decide)).wr sansImg_blind (by decide)

theorem holdRefusal_stays {α : Type} {e : State → α} (he : Blind e) (s : State) (code : Nat) :
    Stays e [.hubImageStatus, .hubImageRefuseCnt] s (s.holdRefusal code) :=
  ((Stays.refl ..).wr he (by decide)).wr he (by decide)

/-- The refusal that a package holds itself when a load ends. -/
def ownRefusal (s : State) (code pkg : Nat) : State := if pkg = s.pkg then s.dropLoad.holdRefusal code else s.dropLoad

theorem ownRefusal_stays (s : State) (code pkg : Nat) : Stays sansImg [.hubImageStatus, .hubImageRefuseCnt] s (ownRefusal s code pkg) := by
  have hdrop := (dropLoad_stays s).mono (L := [.hubImageStatus, .hubImageRefuseCnt]) (by decide)
  unfold ownRefusal
  split
  · exact hdrop.trans (holdRefusal_stays sansImg_blind ..)
  · exact hdrop

theorem ownRefusal_staged (s : State) (code pkg : Nat) : (ownRefusal s code pkg).img.staged = none := by
  unfold ownRefusal
  split
  · rw [show (s.dropLoad.holdRefusal code).img = s.dropLoad.img from (State.wr_img ..).trans (State.wrF_img ..)]
    exact dropLoad_staged s
  · exact dropLoad_staged s

/-- What the lead does when a load ends: its job completes. -/
def leadEnds (s : State) (t : Staged) (code pkg : Nat) : State :=
  (s.updImg (fun i => { i with refusedId := some (secNat t.head 8 8) })).finishJob t.jid 0x46 (code + pkg * 256)

theorem leadEnds_stays (s : State) (t : Staged) (code pkg : Nat) : Stays sansImg drainRegs s (leadEnds s t code pkg) :=
  (updImg_stays ..).trans (finishJob_sansImg ..)

theorem leadEnds_staged (s : State) (t : Staged) (code pkg : Nat) : (leadEnds s t code pkg).img.staged = s.img.staged := by
  unfold leadEnds
  rw [(finishJob_stays _ t.jid 0x46 (code + pkg * 256)).get State.img fun _ => rfl]
  rfl

theorem abortLoad_lead {s : State} {t : Staged} (h : s.img.staged = some t) (hr : t.ring < 16) (code pkg : Nat) :
    s.abortLoad code pkg = ((leadEnds (ownRefusal s code pkg) t code pkg).send (.imageRefused pkg code (secNat t.head 8 8))).send
      (.hub 36 64 [code, pkg]) := by
  unfold State.abortLoad
  rw [h]
  exact if_pos hr

theorem abortLoad_other {s : State} {t : Staged} (h : s.img.staged = some t) (hr : ¬ t.ring < 16) (code pkg : Nat) :
    s.abortLoad code pkg = (ownRefusal s code pkg).send (.hub 34 t.lead [s.pkg, code]) := by
  unfold State.abortLoad
  rw [h]
  exact if_neg hr

theorem abortLoad_staged (s : State) (code pkg : Nat) : (s.abortLoad code pkg).img.staged = none := by
  cases h : s.img.staged with
  | none =>
    unfold State.abortLoad
    rw [h]
    exact h
  | some t =>
    by_cases hr : t.ring < 16
    · rw [abortLoad_lead h hr, State.send_img, State.send_img, leadEnds_staged, ownRefusal_staged]
    · rw [abortLoad_other h hr, State.send_img, ownRefusal_staged]

theorem abortLoad_stays (s : State) (code pkg : Nat) : Stays sansImg loadRegs s (s.abortLoad code pkg) := by
  have hown := (ownRefusal_stays s code pkg).mono (L := loadRegs) (by decide)
  cases h : s.img.staged with
  | none =>
    unfold State.abortLoad
    rw [h]
    exact .refl ..
  | some t =>
    by_cases hr : t.ring < 16
    · rw [abortLoad_lead h hr]
      exact ((hown.trans ((leadEnds_stays ..).mono (by decide))).send sansImg_blind).send sansImg_blind
    · rw [abortLoad_other h hr]
      exact hown.send sansImg_blind

/-! ### Jobs that the gateway fetches -/

/-- The state without what the gateway's jobs and rings change, and the registers that fetching jobs changes. -/
def sansHost (s : State) : State := { s.sansRings with host := HostSt.empty }
def fetchRegs : List Reg := .hostSqHead :: .hostViolCnt :: drainRegs

theorem sansHost_blind : Blind sansHost := fun _ _ _ => rfl

theorem misuseSeen_stays (s : State) (row : Nat) : Stays sansHost fetchRegs s (s.misuseSeen row) := .of_eq rfl rfl rfl rfl

theorem hostViol_stays (s : State) (f v : Nat) : Stays sansHost fetchRegs s (s.hostViol f v) :=
  viol_stays (by decide) s 0 0xFF 0xFFFFFFFF f v (congrArg (fun s : State => { s with host := HostSt.empty }) (viol_sansRings ..))

theorem misuse_stays (s : State) (row : Nat) : Stays sansHost fetchRegs s (s.misuse row) :=
  (hostViol_stays s 0xFF row).trans (misuseSeen_stays _ row)

theorem finishJob_sansHost (s : State) (id status value : Nat) : Stays sansHost fetchRegs s (s.finishJob id status value) :=
  ((finishJob_stays ..).view (fun s => { s with host := HostSt.empty }) fun _ => rfl).mono (by decide)

theorem fetchJobs_stays (n : Nat) (l : List Nat) (s : State) : Stays sansHost fetchRegs s (s.fetchJobs n l) := by
  induction l generalizing s with
  | nil => exact .of_eq rfl rfl rfl rfl
  | cons raw rest ih =>
    have hhead : ∀ v, Stays sansHost fetchRegs s (s.wrF .hostSqHead 0 n 0 16 v) := fun v => (Stays.refl ..).wr sansHost_blind (by decide)
    unfold State.fetchJobs
    dsimp only
    split
    · exact .of_eq rfl rfl rfl rfl
    · split
      · exact .of_eq rfl rfl rfl rfl
      · refine Stays.trans ?_ (ih _)
        generalize hs2 : (if jobReserved raw = true then State.misuse _ 4 else _) = s2
        have h2 : Stays sansHost fetchRegs s s2 := by
          rw [← hs2]
          split
          · exact (hhead _).trans (misuse_stays ..)
          · exact hhead _
        have h3 : ∀ f, Stays sansHost fetchRegs s (s2.updHost f) := fun f => h2.then rfl rfl rfl rfl
        split
        · exact h3 _
        · exact (h3 _).trans ((misuse_stays ..).trans (finishJob_sansHost ..))

theorem fetchMore_stays (s : State) : Stays sansHost fetchRegs s s.fetchMore := by
  unfold State.fetchMore
  split
  · exact stays_forEach (fun _ _ => fetchJobs_stays ..) ..
  · exact .refl ..

/-- With nothing queued in host memory there is nothing to fetch. -/
theorem fetchMore_none {s : State} (h : s.host.queued = []) : s.fetchMore = s := by
  unfold State.fetchMore
  rw [h]
  split <;> rfl

/-! ### H1 -/

/-- H1 is held in reset, and the host is told. -/
def h1Held (s : State) : State :=
  if s.hosted && s.attached then ({ s with hub := { s.hub with h1Down := true } } : State).send (.msix 0)
  else { s with hub := { s.hub with h1Down := true } }

theorem h1Held_kept (s : State) : (h1Held s).hub = { s.hub with h1Down := true } ∧ (h1Held s).img = s.img ∧
    (h1Held s).cores = s.cores ∧ memKept s (h1Held s) := by
  unfold h1Held
  split <;> exact ⟨rfl, rfl, rfl, rfl, rfl⟩

/-- H1 runs again, and a record is queued. -/
def h1Runs (s : State) : State := ({ s with hub := { s.hub with h1Down := false } } : State).queue .hubH1Lockstep hubIsland none
  (.gen 0 0 0 (s.hubTime % 2 ^ 32) 0 0)

/-- A load that this gateway leads ends. -/
def ledLoadEnds (s : State) : State :=
  if (s.img.staged.map (fun t => !t.sealing && decide (t.ring < 16))).getD false then s.abortLoad 0x0E s.pkg else s

theorem ledLoadEnds_stays (s : State) : Stays sansImg loadRegs s (ledLoadEnds s) := by
  unfold ledLoadEnds
  split
  · exact abortLoad_stays ..
  · exact .refl ..

theorem h1 : H1 := by
  intro s
  refine ⟨fun h => ?_, fun hp hd hup => ?_, fun hdown => ?_⟩
  · exact congrArg Host.Outcome.next (if_pos (h.imp_right .inl))
  · have hexec : exec .h1LockstepMismatch s = .next (ledLoadEnds (h1Held s)) :=
      congrArg Host.Outcome.next (if_neg (by simp [hp, hd, hup]))
    obtain ⟨hhub, himg, hcores, hmem⟩ := h1Held_kept s
    have h := ledLoadEnds_stays (h1Held s)
    refine ⟨_, hexec, ?_, fun hst hh ha => ?_, fun x hx hs hr => ?_, (h.get State.cores fun _ => rfl).trans hcores, ?_⟩
    · rw [h.get State.hub fun _ => rfl, hhub]
    · rw [ledLoadEnds, himg, hst]
      simp [h1Held, hh, ha]
    · rw [ledLoadEnds, himg, hx]
      simp only [Option.map_some, hs, hr, decide_true, Bool.not_false, Bool.and_self, Option.getD_some, if_true]
      exact abortLoad_staged ..
    · exact ⟨(h.get State.vmem fun _ => rfl).trans hmem.1, (h.get State.stg fun _ => rfl).trans hmem.2⟩
  · have h := fetchMore_stays (h1Runs s)
    refine ⟨_, congrArg Host.Outcome.next (if_pos hdown), h.get State.hub fun _ => rfl, ⟨_, h.get State.fltIn fun _ => rfl, rfl, rfl, rfl⟩, fun hq => ?_,
      h.get State.cores fun _ => rfl, h.get State.vmem fun _ => rfl, h.get State.stg fun _ => rfl⟩
    show (h1Runs s).fetchMore.regs = s.regs
    rw [fetchMore_none (s := h1Runs s) hq]
    rfl

end Sys2Proof.Claims

namespace Sys2Proof.Certificates

/-- Settles O36: an epoch opens, streams and is put off without a read that changes the snapshot; a checkpoint is counted once its saves, which
hold no register of the hub, are loaded; what H1 holds back it fetches without touching a core. -/
theorem checkpointAndUnitFaultCommands : Obligations.CheckpointAndUnitFaultCommands :=
  ⟨Claims.snapshotEpoch, Claims.snapshotReadbackDone, Claims.coreFaults, Claims.wardLockstep, Claims.h1⟩

end Sys2Proof.Certificates
end

section
/-! ## The structure image: loads that are staged, refused and ended (R31, R355 to R359, R370, R482) -/

namespace Sys2Proof.Claims

open Machine

/-! ### Registers of a load -/

theorem imageState_wrF_ne (s : State) (lo w v : Nat) (h : 3 ≤ lo) : (s.wrF .hubImageStatus 0 0 lo w v).imageState = s.imageState :=
  State.rdF_wrF_ne s _ _ _ v (.inl (by omega)) (by omega)

/-- The code of a refusal that a package holds. -/
abbrev refusalCode (s : State) : Nat := s.rdF .hubImageStatus 0 0 8 8

theorem stays_pkg {α : Type} {e : State → α} {L : List Reg} {s t : State} (h : Stays e L s t)
    (hr : Reg.hubPkgNum ∉ L) : t.pkg = s.pkg := h.rdF .hubPkgNum 0 0 0 6 hr

theorem dropLoad_imageState {s : State} {t : Staged} (h : s.img.staged = some t) :
    s.dropLoad.imageState = if s.isSealed = true then 5 else 0 := by
  unfold State.dropLoad
  rw [h]
  dsimp only
  rw [imageState_wrF_ne _ _ _ _ (by decide), imageState_wrF]
  split <;> rfl

theorem dropLoad_code (s : State) : refusalCode s.dropLoad = refusalCode s := by
  unfold State.dropLoad
  split
  · rfl
  · rw [refusalCode, State.rdF_wrF_ne _ _ _ _ _ (by decide) (by decide), State.rdF_wrF_ne _ _ _ _ _ (by decide) (by decide)]
    rfl

theorem dropLoad_refuseCnt (s : State) : s.dropLoad.rd .hubImageRefuseCnt 0 0 = s.rd .hubImageRefuseCnt 0 0 :=
  (dropLoad_stays s).rd .hubImageRefuseCnt 0 0 (by decide)

theorem rdF_bump_ne (s : State) {r r' : Reg} (h : r ≠ r') (i n i' k lo w : Nat) : (s.bump r i n).rdF r' i' k lo w = s.rdF r' i' k lo w := by
  unfold State.rdF
  rw [State.rd_bump_ne _ h]

theorem holdRefusal_imageState (s : State) (code : Nat) : (s.holdRefusal code).imageState = s.imageState :=
  (rdF_bump_ne (s.wrF .hubImageStatus 0 0 8 8 code) (by decide) ..).trans (imageState_wrF_ne s _ _ _ (by decide))

theorem holdRefusal_code (s : State) (code : Nat) : refusalCode (s.holdRefusal code) = code % 2 ^ 8 :=
  (rdF_bump_ne (s.wrF .hubImageStatus 0 0 8 8 code) (by decide) ..).trans (State.rdF_wrF_self s _ _ _ (by decide) code)

theorem holdRefusal_counted (s : State) (code : Nat) : counted .hubImageRefuseCnt 0 1 s (s.holdRefusal code) := by
  have h := counted_bump (s.wrF .hubImageStatus 0 0 8 8 code) .hubImageRefuseCnt 0 1
  unfold counted at h ⊢
  rw [State.rd_wrF_ne s (by decide)] at h
  exact h

/-! ### A load that ends -/

/-- What the end of a load leaves in the registers of a package: the refusal is its own, or another package's. -/
def refusedAs (own : Prop) (code : Nat) (s t : State) : Prop :=
  t.imageState = (if s.isSealed = true then 5 else 0) ∧ (own → refusalCode t = code % 2 ^ 8 ∧ counted .hubImageRefuseCnt 0 1 s t) ∧
    (¬ own → refusalCode t = refusalCode s ∧ t.rd .hubImageRefuseCnt 0 0 = s.rd .hubImageRefuseCnt 0 0)

theorem refusedAs.of_eq {own : Prop} {code : Nat} {s t u : State} (h : refusedAs own code s t)
    (hst : ∀ lo w, u.rdF .hubImageStatus 0 0 lo w = t.rdF .hubImageStatus 0 0 lo w)
    (hcnt : u.rd .hubImageRefuseCnt 0 0 = t.rd .hubImageRefuseCnt 0 0) : refusedAs own code s u := by
  obtain ⟨hstate, hown, hother⟩ := h
  refine ⟨(hst 0 3).trans hstate, fun ho => ⟨(hst 8 8).trans (hown ho).1, ?_⟩, fun ho => ⟨(hst 8 8).trans (hother ho).1, hcnt.trans (hother ho).2⟩⟩
  unfold counted
  rw [hcnt]
  exact (hown ho).2

theorem refusedAs.send {own : Prop} {code : Nat} {s t : State} (h : refusedAs own code s t) (o : Out) : refusedAs own code s (t.send o) :=
  h.of_eq (fun _ _ => rfl) rfl

theorem refusedAs_dropLoad {s : State} {t : Staged} (h : s.img.staged = some t) (code : Nat) : refusedAs False code s s.dropLoad :=
  ⟨dropLoad_imageState h, False.elim, fun _ => ⟨dropLoad_code s, dropLoad_refuseCnt s⟩⟩

theorem refusedAs_holdRefusal {s : State} {t : Staged} (h : s.img.staged = some t) (code : Nat) :
    refusedAs True code s (s.dropLoad.holdRefusal code) := by
  refine ⟨(holdRefusal_imageState ..).trans (dropLoad_imageState h), fun _ => ⟨holdRefusal_code .., ?_⟩, fun ho => absurd trivial ho⟩
  have hc := holdRefusal_counted s.dropLoad code
  unfold counted at hc ⊢
  rwa [dropLoad_refuseCnt] at hc

theorem refusedAs_ownRefusal {s : State} {t : Staged} (h : s.img.staged = some t) (code pkg : Nat) :
    refusedAs (pkg = s.pkg) code s (ownRefusal s code pkg) := by
  unfold ownRefusal
  by_cases hp : pkg = s.pkg
  · simpa [if_pos hp, hp] using refusedAs_holdRefusal h code
  · simpa [if_neg hp, hp] using refusedAs_dropLoad h code

theorem refusedAs_abortLoad {s : State} {t : Staged} (h : s.img.staged = some t) (code pkg : Nat) :
    refusedAs (pkg = s.pkg) code s (s.abortLoad code pkg) := by
  have hown := refusedAs_ownRefusal h code pkg
  by_cases hr : t.ring < 16
  · rw [abortLoad_lead h hr]
    have hlead := leadEnds_stays (ownRefusal s code pkg) t code pkg
    exact ((hown.of_eq (fun lo w => hlead.rdF .hubImageStatus 0 0 lo w (by decide)) (hlead.rd .hubImageRefuseCnt 0 0 (by decide))).send _).send _
  · rw [abortLoad_other h hr]
    exact hown.send _

/-- The lead tells the host and the packages of the load, and its job is over. -/
theorem abortLoad_tells {s : State} {t : Staged} (h : s.img.staged = some t) (hr : t.ring < 16) (code pkg : Nat) :
    tellsRefusal pkg code t.head (s.abortLoad code pkg) ∧ ∀ k ∈ (s.abortLoad code pkg).host.jobs, k.id ≠ t.jid := by
  rw [abortLoad_lead h hr]
  refine ⟨⟨(leadEnds (ownRefusal s code pkg) t code pkg).outbox, ?_⟩, ?_⟩
  · simp [State.send_outbox]
  · rw [State.send_host, State.send_host]
    exact finishJob_gone _ t.jid 0x46 (code + pkg * 256)

theorem abortLoad_kept (s : State) (code pkg : Nat) : (s.abortLoad code pkg).cores = s.cores ∧ memKept s (s.abortLoad code pkg) :=
  ⟨(abortLoad_stays ..).get State.cores fun _ => rfl, (abortLoad_stays ..).memKept fun _ => rfl⟩

/-- A load that ends, as its command states it. -/
theorem loadEnds_of_refusedAs {c : Instr} {s t : State} {own : Prop} {code : Nat} (hexec : exec c s = .next t) (hst : t.img.staged = none)
    (h : refusedAs own code s t) (hcode : code < 2 ^ 8) (hk : t.cores = s.cores ∧ memKept s t) : loadEnds c s own code := by
  obtain ⟨hstate, hown, hother⟩ := h
  rw [Nat.mod_eq_of_lt hcode] at hown
  exact ⟨t, hexec, hst, hstate, hown, hother, hk.1, hk.2⟩

theorem abortAndTimeout : AbortAndTimeout := by
  intro s x code pkg hx hs
  refine ⟨?_, fun hr hp hready => ?_⟩
  · have hlt : code % 2 ^ 8 < 2 ^ 8 := Nat.mod_lt _ (by decide)
    have hexec : exec (.abort code pkg) s = .next (if x.ring < 16 then s.abortLoad (code % 2 ^ 8) (pkg % 64)
        else if pkg % 64 = s.pkg then s.dropLoad.holdRefusal (code % 2 ^ 8) else s.dropLoad) := by
      show execAbort code pkg s = _
      unfold execAbort
      rw [hx]
      dsimp only
      rw [if_neg (by simp [hs])]
    by_cases hr : x.ring < 16
    · rw [if_pos hr] at hexec
      exact loadEnds_of_refusedAs hexec (abortLoad_staged ..) (refusedAs_abortLoad hx ..) hlt (abortLoad_kept ..)
    · rw [if_neg hr] at hexec
      have hk := (ownRefusal_stays s (code % 2 ^ 8) (pkg % 64))
      exact loadEnds_of_refusedAs hexec (ownRefusal_staged ..) (refusedAs_ownRefusal hx ..) hlt ⟨hk.get State.cores fun _ => rfl, hk.memKept fun _ => rfl⟩
  · have hexec : exec (.stagingTimeout pkg) s = .next (s.abortLoad 0x0E pkg) := by
      show execStagingTimeout pkg s = _
      unfold execStagingTimeout
      rw [hx]
      dsimp only
      rw [if_pos (by simpa [hr, hs, hp] using hready)]
    exact loadEnds_of_refusedAs hexec (abortLoad_staged ..) (refusedAs_abortLoad hx ..) (by decide) (abortLoad_kept ..)

/-! ### The checks of an image -/

/-- The ward has accepted a signature. -/
def accepted (s : State) : State := (s.bump .wardVerifyCnt 0 1).updWard (fun w => { w with cause := 0 })

/-- Of the state the checks of an image change only what the ward counts and reports. -/
theorem checkImage_cases (s : State) (h : List Nat) (secs : List (List Nat)) (d : List Nat) :
    (s.checkImage h secs d).1 = s ∨ (∃ r, (s.checkImage h secs d).1 = s.rejected r) ∨ (s.checkImage h secs d).1 = accepted s := by
  have hverify : ∀ slot dg r sg, (∃ c, (s.verify slot dg r sg).1 = s.rejected c) ∨ (s.verify slot dg r sg).1 = accepted s := by
    intro slot dg r sg
    unfold State.verify
    split
    · exact .inl ⟨_, rfl⟩
    · split
      · exact .inr rfl
      · exact .inl ⟨_, rfl⟩
  unfold State.checkImage
  dsimp only
  split
  · exact .inl rfl
  · split
    · exact .inl rfl
    · split
      · exact .inr (.inl ⟨_, rfl⟩)
      · split
        · exact .inr (.inl ⟨_, rfl⟩)
        · generalize hv : s.verify _ _ _ _ = v
          have hv1 := hv ▸ hverify _ _ _ _
          obtain ⟨s1, _ | n⟩ := v
          · exact .inr hv1
          · exact .inr hv1

/-- The state without what a load changes before SEAL, and the registers that it changes. -/
def sansLoad (s : State) : State := { sansImg s with ward := { s.ward with cause := 0 } }
def stageRegs : List Reg := .wardVerifyCnt :: .wardSigFailCnt :: loadRegs

theorem sansLoad_blind : Blind sansLoad := fun _ _ _ => rfl

theorem stays_sansLoad {L : List Reg} {s t : State} (h : Stays sansImg L s t) : Stays sansLoad L s t :=
  h.view (fun s => { s with ward := { s.ward with cause := 0 } }) fun _ => rfl

theorem updWard_cause_stays (L : List Reg) (s : State) (c : Nat) : Stays sansLoad L s (s.updWard fun w => { w with cause := c }) :=
  .of_eq rfl rfl rfl rfl

theorem checkImage_stays (s : State) (h : List Nat) (secs : List (List Nat)) (d : List Nat) :
    Stays sansLoad stageRegs s (s.checkImage h secs d).1 := by
  rcases checkImage_cases s h secs d with hc | ⟨r, hc⟩ | hc <;> rw [hc]
  · exact .refl ..
  · exact (((Stays.refl ..).wr sansLoad_blind (by decide)).wr sansLoad_blind (by decide)).trans (updWard_cause_stays ..)
  · exact ((Stays.refl ..).wr sansLoad_blind (by decide)).trans (updWard_cause_stays ..)

/-- The image, what has left the package, and the registers of a load are as they were. -/
def sameLoad (s t : State) : Prop := t.img = s.img ∧ t.outbox = s.outbox ∧ t.imageState = s.imageState ∧
  t.rd .hubImageRefuseCnt 0 0 = s.rd .hubImageRefuseCnt 0 0

theorem sameLoad.bump {s t : State} (h : sameLoad s t) {r : Reg} (hr : r ∉ loadRegs) (i n : Nat) : sameLoad s (t.bump r i n) := by
  obtain ⟨himg, hout, hst, hcnt⟩ := h
  have hst' : r ≠ .hubImageStatus := by rintro rfl; exact hr (by decide)
  have hcnt' : r ≠ .hubImageRefuseCnt := by rintro rfl; exact hr (by decide)
  exact ⟨(State.wr_img ..).trans himg, (State.wr_outbox ..).trans hout, (rdF_bump_ne t hst' ..).trans hst, (State.rd_bump_ne t hcnt' ..).trans hcnt⟩

theorem sameLoad.updWard {s t : State} (h : sameLoad s t) (f : Ward → Ward) : sameLoad s (t.updWard f) := h

theorem checkImage_sameLoad (s : State) (h : List Nat) (secs : List (List Nat)) (d : List Nat) : sameLoad s (s.checkImage h secs d).1 := by
  have hrefl : sameLoad s s := ⟨rfl, rfl, rfl, rfl⟩
  rcases checkImage_cases s h secs d with hc | ⟨r, hc⟩ | hc <;> rw [hc]
  · exact hrefl
  · exact ((hrefl.bump (by decide) ..).bump (by decide) ..).updWard _
  · exact (hrefl.bump (by decide) ..).updWard _

/-! ### Staging -/

/-- An image as a package stages it. -/
def newStaged (s : State) (ring jid lead : Nat) (h : List Nat) (secs : List (List Nat)) (digest : List Nat) : Staged :=
  ⟨ring, jid, h, secs, digest, [], false, lead, s.rdF .hubImageStatus 0 0 16 2⟩

/-- The package holds a staged image, STATE `st`, from a lead. -/
def stagedAt (s : State) (t : Staged) (st lead : Nat) : State :=
  ((s.updImg (fun i => { i with held := none, staged := some t, refusedId := none })).wrF .hubImageStatus 0 0 0 3 st).wrF
    .hubImageStatus 0 0 16 2 lead

theorem stagedAt_stays (s : State) (t : Staged) (st lead : Nat) : Stays sansImg [.hubImageStatus] s (stagedAt s t st lead) :=
  ((updImg_stays ..).wr sansImg_blind (by decide)).wr sansImg_blind (by decide)

theorem stagedAt_img (s : State) (t : Staged) (st lead : Nat) :
    (stagedAt s t st lead).img = { s.img with held := none, staged := some t, refusedId := none } :=
  (State.wrF_img ..).trans (State.wrF_img ..)

theorem stagedAt_outbox (s : State) (t : Staged) (st lead : Nat) : (stagedAt s t st lead).outbox = s.outbox :=
  (State.wrF_outbox ..).trans (State.wrF_outbox ..)

theorem stagedAt_imageState (s : State) (t : Staged) (st lead : Nat) : (stagedAt s t st lead).imageState = st % 8 :=
  (imageState_wrF_ne _ _ _ _ (by decide)).trans (imageState_wrF ..)

theorem sends_nil (s : State) : s.sends [] = s := by
  unfold State.sends
  rw [List.append_nil]

theorem sends_img (s : State) (os : List Out) : (s.sends os).img = s.img := rfl

theorem sends_outbox (s : State) (os : List Out) : (s.sends os).outbox = s.outbox ++ os := rfl

theorem sends_rd (s : State) (os : List Out) (r : Reg) (i k : Nat) : (s.sends os).rd r i k = s.rd r i k := rfl

theorem sends_imageState (s : State) (os : List Out) : (s.sends os).imageState = s.imageState := rfl

/-- Messages that do not depend on what has left the package, sent in order. -/
theorem forEach_send_state {α : Type} {f : α → State → Out} (hf : ∀ a s o, f a (s.send o) = f a s) (l : List α) (s : State) :
    forEach l (fun a s => s.send (f a s)) s = s.sends (l.map (fun a => f a s)) := by
  induction l generalizing s with
  | nil => exact (sends_nil s).symm
  | cons a l ih =>
    rw [forEach, ih, List.map_cons]
    simp only [hf]
    simp only [State.sends, State.send, List.append_assoc, List.singleton_append]

/-- The staged image before its verdict counts, and what the lead has announced of it. -/
def stagedHeard (s : State) (ring jid lead : Nat) (h : List Nat) (secs : List (List Nat)) (digest : List Nat) (os : List Out) : State :=
  (stagedAt (s.checkImage h secs digest).1 (newStaged s ring jid lead h secs digest)
    (if (s.checkImage h secs digest).2 = 0 then 2 else 1)
    ((s.checkImage h secs digest).1.stagedGw (newStaged s ring jid lead h secs digest) lead)).sends os

/-- What the lead announces of a staged image to the other packages of its domain table. -/
def announced (s s1 : State) (t : Staged) (digest : List Nat) : List Out :=
  ((s1.stagedPkgs t).filter (· != s.pkg)).map (fun q => .hub 33 q digest)

/-- Staging (R355 steps 2 to 4): the checks, the announcement of the lead, and what follows the verdict. -/
theorem stage'_eq (s : State) (ring jid lead : Nat) (h : List Nat) (secs : List (List Nat)) (digest : List Nat) :
    ∃ os, (¬ ring < 16 → os = []) ∧ s.stage' ring jid lead h secs digest =
      if (s.checkImage h secs digest).2 ≠ 0 then (stagedHeard s ring jid lead h secs digest os).abortLoad (s.checkImage h secs digest).2 s.pkg
      else if ring < 16 then (stagedHeard s ring jid lead h secs digest os).takeReady s.pkg 0
      else (stagedHeard s ring jid lead h secs digest os).send (.hub 34 lead [s.pkg, 0]) := by
  by_cases ht : ring < 16 ∧ (s.checkImage h secs digest).2 ≠ 1
  · refine ⟨announced s (stagedHeard s ring jid lead h secs digest []) (newStaged s ring jid lead h secs digest) digest,
      fun hr => absurd ht.1 hr, ?_⟩
    unfold State.stage' stagedHeard
    dsimp only
    rw [if_pos ht, forEach_send, sends_nil]
    rfl
  · refine ⟨[], fun _ => rfl, ?_⟩
    unfold State.stage' stagedHeard
    dsimp only
    rw [if_neg ht, sends_nil]
    rfl

section
variable (s : State) (ring jid lead : Nat) (h : List Nat) (secs : List (List Nat)) (digest : List Nat) (os : List Out)

theorem stagedHeard_stays : Stays sansLoad stageRegs s (stagedHeard s ring jid lead h secs digest os) :=
  (checkImage_stays s h secs digest).trans (((stays_sansLoad (stagedAt_stays ..)).mono (by decide)).trans (sends_stays _ _ _ sansLoad_blind))

theorem stagedHeard_img : (stagedHeard s ring jid lead h secs digest os).img =
    { s.img with held := none, staged := some (newStaged s ring jid lead h secs digest), refusedId := none } := by
  obtain ⟨himg, -⟩ := checkImage_sameLoad s h secs digest
  unfold stagedHeard
  rw [sends_img, stagedAt_img, himg]

theorem stagedHeard_outbox : (stagedHeard s ring jid lead h secs digest os).outbox = s.outbox ++ os := by
  obtain ⟨-, hout, -⟩ := checkImage_sameLoad s h secs digest
  unfold stagedHeard
  rw [sends_outbox, stagedAt_outbox, hout]

theorem stagedHeard_imageState (h0 : (s.checkImage h secs digest).2 = 0) : (stagedHeard s ring jid lead h secs digest os).imageState = 2 := by
  unfold stagedHeard
  rw [sends_imageState, stagedAt_imageState, if_pos h0]

theorem stagedHeard_refuseCnt : (stagedHeard s ring jid lead h secs digest os).rd .hubImageRefuseCnt 0 0 = s.rd .hubImageRefuseCnt 0 0 := by
  obtain ⟨-, -, -, hcnt⟩ := checkImage_sameLoad s h secs digest
  unfold stagedHeard
  rw [sends_rd, (stagedAt_stays ..).rd .hubImageRefuseCnt 0 0 (by decide), hcnt]

end

/-! ### Reports that reach the lead -/

/-- A staged image with the READY of a package. -/
def readyNoted (s : State) (x : Staged) (p : Nat) : Staged :=
  let ready := x.ready.filter (fun r : Nat × Nat => r.1 != p) ++ [(p, 0)]
  { x with ready := ready, sealing := x.sealing || (s.stagedPkgs x).all (fun q => ready.any (fun r => r.1 == q)) }

/-- A READY at the lead (R355): it stands with the staged image; the last sends SEAL. -/
theorem takeReady_ready {s : State} {x : Staged} (hx : s.img.staged = some x) (hr : x.ring < 16) (hs : x.sealing = false) (p : Nat) :
    ∃ os, s.takeReady p 0 = (s.updImg (fun i => { i with staged := some (readyNoted s x p) })).sends os := by
  unfold State.takeReady
  rw [if_pos (by decide)]
  simp only [hx, hs]
  rw [if_neg (by simp; omega), if_neg (by simp)]
  by_cases hall : (s.stagedPkgs x).all (fun q => (x.ready.filter (fun r : Nat × Nat => r.1 != p) ++ [(p, 0)]).any (fun r => r.1 == q)) = true
  · rw [if_pos hall, forEach_send_state fun _ _ _ => rfl]
    simp only [readyNoted, hs, hall]
    exact ⟨_, rfl⟩
  · refine ⟨[], ?_⟩
    rw [if_neg hall, sends_nil]
    simp only [readyNoted, hs, Bool.not_eq_true] at hall ⊢
    rw [hall]
    rfl

theorem readyNoted_sealing {s : State} {x : Staged} (hs : x.sealing = false) (p : Nat) :
    (readyNoted s x p).sealing = true ↔ ∀ q ∈ s.stagedPkgs x, q = p ∨ ∃ r ∈ x.ready, r.1 = q := by
  have hq : ∀ q, (x.ready.filter (fun r : Nat × Nat => r.1 != p) ++ [(p, 0)]).any (fun r => r.1 == q) = true ↔ q = p ∨ ∃ r ∈ x.ready, r.1 = q := by
    intro q
    simp only [List.any_append, List.any_filter, List.any_cons, List.any_nil, Bool.or_false, Bool.or_eq_true, List.any_eq_true,
      Bool.and_eq_true, bne_iff_ne, beq_iff_eq]
    constructor
    · rintro (⟨r, hr, -, rfl⟩ | rfl)
      · exact .inr ⟨r, hr, rfl⟩
      · exact .inl rfl
    · rintro (rfl | ⟨r, hr, rfl⟩)
      · exact .inr rfl
      · by_cases hp : r.1 = p
        · exact .inr hp.symm
        · exact .inl ⟨r, hr, hp, rfl⟩
  simp only [readyNoted, hs, Bool.false_or, List.all_eq_true, hq]

theorem readyNoted_mem (s : State) (x : Staged) (p : Nat) : (p, 0) ∈ (readyNoted s x p).ready := by simp [readyNoted]

/-- A refusal at the lead ends the load. -/
theorem takeReady_refusal {s : State} {x : Staged} (hx : s.img.staged = some x) (hr : x.ring < 16) (hs : x.sealing = false) {p code : Nat}
    (h0 : 0 < code) (h256 : code < 256) : s.takeReady p code = s.abortLoad code p := by
  unfold State.takeReady
  rw [if_pos h256]
  simp only [hx, Nat.mod_eq_of_lt h256]
  rw [if_neg (by simp [hs]; omega), if_pos (by omega)]

/-- A refusal with the core that its package has fenced (R357). -/
theorem takeReady_fenced {s : State} {x : Staged} (hx : s.img.staged = some x) (hr : x.ring < 16) (hs : x.sealing = false) {p code : Nat}
    (g : Nat) (h0 : 0 < code) (h256 : code < 256) :
    s.takeReady p (code + 256 * (g + 1)) = (s.send (.fencedCore p g)).abortLoad code p := by
  have hmod : (code + 256 * (g + 1)) % 256 = code := by omega
  have hdiv : (code + 256 * (g + 1)) / 256 - 1 = g := by omega
  have hx' : (s.send (.fencedCore p g)).img.staged = some x := hx
  unfold State.takeReady
  rw [if_neg (by omega), hdiv, hmod]
  simp only [hx']
  rw [if_neg (by simp [hs]; omega), if_pos (by omega)]

end Sys2Proof.Claims
end

section
namespace Sys2Proof.Claims

open Machine

/-! ### The commands of a load -/

theorem ownRefusal_outbox (s : State) (code pkg : Nat) : (ownRefusal s code pkg).outbox = s.outbox := by
  have hdrop : s.dropLoad.outbox = s.outbox := by
    unfold State.dropLoad
    split
    · rfl
    · rw [State.wrF_outbox, State.wrF_outbox]
      rfl
  unfold ownRefusal
  split
  · exact ((State.wr_outbox ..).trans (State.wrF_outbox s.dropLoad ..)).trans hdrop
  · exact hdrop

/-- What every command of a load keeps. -/
theorem coresKept_of_stays {s t : State} (h : Stays sansLoad stageRegs s t) : t.cores = s.cores ∧ memKept s t :=
  ⟨h.get State.cores fun _ => rfl, h.memKept fun _ => rfl⟩

theorem abortLoad_stage (s : State) (code pkg : Nat) : Stays sansLoad stageRegs s (s.abortLoad code pkg) :=
  (stays_sansLoad (abortLoad_stays s code pkg)).mono (by decide)

theorem stagedAs_send (s : State) (o : Out) : stagedAs (s.send o) = stagedAs s := rfl
theorem imageState_send (s : State) (o : Out) : (s.send o).imageState = s.imageState := rfl

/-- A package that does not lead stages the image (R31, R355 steps 3 and 4). -/
theorem exec_ready_told {s : State} (hp : s.pwrState = 3) (hl : s.loading = false) (hs : s.isSealed = false ∨ s.imageState = 5)
    (lead : Nat) (digest head : List Nat) (secs : List (List Nat)) :
    exec (.ready none lead digest head secs) s = .next (s.stage' 16 0 lead head secs digest) := by
  show execReady none lead digest head secs s = _
  unfold execReady
  dsimp only
  rw [if_neg (by rcases hs with hs | hs <;> simp [hp, hl, hs])]

theorem ready : Ready := by
  intro s lead digest head secs
  refine ⟨fun hp hl hs h0 => ?_, fun hp hl hs h0 => ?_, fun x p hx hr hse => ?_, fun x p code g hx hr hse hc h256 => ?_,
    fun x p code hx hr hse hc h256 => ?_⟩
  · obtain ⟨os, hos, hstage⟩ := stage'_eq s 16 0 lead head secs digest
    obtain rfl := hos (by decide)
    rw [if_neg (by simpa using h0), if_neg (by decide)] at hstage
    have hstays := (stagedHeard_stays s 16 0 lead head secs digest []).send sansLoad_blind (o := .hub 34 lead [s.pkg, 0])
    refine ⟨_, (exec_ready_told hp hl hs ..).trans (congrArg _ hstage), ?_, ?_, ?_, coresKept_of_stays hstays⟩
    · rw [stagedAs_send, stagedAs, stagedHeard_img]
      rfl
    · rw [imageState_send]
      exact stagedHeard_imageState s 16 0 lead head secs digest [] h0
    · rw [State.send_outbox, stagedHeard_outbox, List.append_nil]
  · obtain ⟨os, hos, hstage⟩ := stage'_eq s 16 0 lead head secs digest
    obtain rfl := hos (by decide)
    rw [if_pos h0] at hstage
    have hpkg : (stagedHeard s 16 0 lead head secs digest []).pkg = s.pkg := stays_pkg (stagedHeard_stays ..) (by decide)
    have himg := congrArg Img.staged (stagedHeard_img s 16 0 lead head secs digest [])
    obtain ⟨-, hown, -⟩ := refusedAs_abortLoad himg (s.checkImage head secs digest).2 s.pkg
    refine ⟨_, (exec_ready_told hp hl hs ..).trans (congrArg _ hstage), abortLoad_staged .., ?_, ?_,
      coresKept_of_stays ((stagedHeard_stays ..).trans (abortLoad_stage ..))⟩
    · have hcnt := (hown hpkg.symm).2
      unfold counted at hcnt ⊢
      rwa [stagedHeard_refuseCnt] at hcnt
    · rw [abortLoad_other himg (Nat.lt_irrefl 16), State.send_outbox, ownRefusal_outbox, stagedHeard_outbox, hpkg, List.append_nil]
      rfl
  · obtain ⟨os, htake⟩ := takeReady_ready hx hr hse p
    exact ⟨_, readyNoted s x p, congrArg Host.Outcome.next htake, rfl, readyNoted_mem .., readyNoted_sealing hse p, rfl, rfl,
      memKept_of_mems rfl⟩
  · have hstays := (abortLoad_stays (s.send (.fencedCore p g)) code p)
    refine ⟨_, congrArg Host.Outcome.next (takeReady_fenced hx hr hse g hc h256), abortLoad_staged .., ?_,
      (abortLoad_tells (s := s.send (.fencedCore p g)) hx hr code p).1, abortLoad_kept ..⟩
    exact hstays.told.subset (by simp [State.send_outbox])
  · obtain ⟨hstate, hown, hother⟩ := refusedAs_abortLoad hx code p
    exact ⟨_, congrArg Host.Outcome.next (takeReady_refusal hx hr hse hc h256), abortLoad_staged .., hstate, fun hp => (hown hp).2,
      fun hp => (hother hp).2, (abortLoad_tells hx hr code p).1, abortLoad_kept ..⟩

/-- What another staged image, and messages, leave of a load. -/
theorem restaged_spec (x : State) (t : Staged) (os : List Out) :
    stagedAs ((x.updImg fun i => { i with staged := some t }).sends os) = some (t.ring, t.jid, t.head, t.secs) ∧
      ((x.updImg fun i => { i with staged := some t }).sends os).img.held = x.img.held ∧
      ((x.updImg fun i => { i with staged := some t }).sends os).imageState = x.imageState ∧
      ((x.updImg fun i => { i with staged := some t }).sends os).cores = x.cores ∧
      memKept x ((x.updImg fun i => { i with staged := some t }).sends os) := ⟨rfl, rfl, rfl, rfl, rfl, rfl⟩

/-- An image that passes stands staged at the lead, as the report of its own package leaves it (R355). -/
theorem stage'_passes {s : State} {ring : Nat} (hr : ring < 16) (jid lead : Nat) {h : List Nat} {secs : List (List Nat)} {digest : List Nat}
    (h0 : (s.checkImage h secs digest).2 = 0) : ∃ t, s.stage' ring jid lead h secs digest = t ∧
      stagedAs t = some (ring, jid, h, secs) ∧ t.img.held = none ∧ t.imageState = 2 ∧ t.cores = s.cores ∧ memKept s t := by
  obtain ⟨os, -, hstage⟩ := stage'_eq s ring jid lead h secs digest
  rw [if_neg (by simpa using h0), if_pos hr] at hstage
  have himg := stagedHeard_img s ring jid lead h secs digest os
  obtain ⟨os', htake⟩ := takeReady_ready (congrArg Img.staged himg) hr rfl s.pkg
  rw [htake] at hstage
  obtain ⟨hcores, hmem⟩ := coresKept_of_stays (stagedHeard_stays s ring jid lead h secs digest os)
  have hstate := stagedHeard_imageState s ring jid lead h secs digest os h0
  generalize stagedHeard s ring jid lead h secs digest os = x at *
  obtain ⟨hst', hheld', hstate', hcores', hmem'⟩ :=
    restaged_spec x (readyNoted x (newStaged s ring jid lead h secs digest) s.pkg) os'
  exact ⟨_, hstage, hst', hheld'.trans (congrArg Img.held himg), hstate'.trans hstate, hcores'.trans hcores,
    hmem'.1.trans hmem.1, hmem'.2.trans hmem.2⟩

/-- An image that a package which leads refuses (R356): the load ends, and the host and the packages of the load learn it. -/
theorem stage'_refused {s : State} {ring : Nat} (hr : ring < 16) (jid lead : Nat) {h : List Nat} {secs : List (List Nat)} {digest : List Nat}
    (h0 : (s.checkImage h secs digest).2 ≠ 0) : ∃ t, s.stage' ring jid lead h secs digest = t ∧ t.img.staged = none ∧
      t.imageState = (if s.isSealed = true then 5 else 0) ∧ refusalCode t = (s.checkImage h secs digest).2 % 2 ^ 8 ∧
      counted .hubImageRefuseCnt 0 1 s t ∧ (∀ k ∈ t.host.jobs, k.id ≠ jid) ∧ tellsRefusal s.pkg (s.checkImage h secs digest).2 h t ∧
      t.cores = s.cores ∧ memKept s t := by
  obtain ⟨os, -, hstage⟩ := stage'_eq s ring jid lead h secs digest
  rw [if_pos h0] at hstage
  have himg := stagedHeard_img s ring jid lead h secs digest os
  have hpkg : (stagedHeard s ring jid lead h secs digest os).pkg = s.pkg := stays_pkg (stagedHeard_stays ..) (by decide)
  have hsealed : (stagedHeard s ring jid lead h secs digest os).isSealed = s.isSealed := by
    unfold State.isSealed
    rw [himg]
  have hst := congrArg Img.staged himg
  obtain ⟨hstate, hown, -⟩ := refusedAs_abortLoad hst (s.checkImage h secs digest).2 s.pkg
  obtain ⟨hcode, hcnt⟩ := hown hpkg.symm
  obtain ⟨htold, hjobs⟩ := abortLoad_tells hst hr (s.checkImage h secs digest).2 s.pkg
  obtain ⟨hcores, hmem⟩ := coresKept_of_stays ((stagedHeard_stays s ring jid lead h secs digest os).trans
    (abortLoad_stage _ (s.checkImage h secs digest).2 s.pkg))
  unfold counted at hcnt ⊢
  rw [stagedHeard_refuseCnt] at hcnt
  rw [hsealed] at hstate
  exact ⟨_, hstage, abortLoad_staged .., hstate, hcode, hcnt, hjobs, htold, hcores, hmem⟩

/-- The gateway begins a job. -/
def jobBegun (s : State) (j : HostJob) : State := s.updJob j.id (fun k => { k with begun := true })

/-- The gateway takes its next IMAGE_LOAD job (R369, R370). -/
theorem exec_imageLoad_taken {s : State} {j : HostJob} (h : LoadOk s j) (head : List Nat) (secs : List (List Nat)) :
    exec (.imageLoad head secs) s = .next (if s.isSealed && !s.atQuiesce
      then (jobBegun s j).updImg (fun i => { i with held := some (j.ring, j.id) }) else (jobBegun s j).beginLoad j head secs) := by
  obtain ⟨hdown, hpwr, hheld, hj, hst, -, hal, hwin⟩ := h
  have hwin' : (s.winFor (dfld j.raw 8 0 64 / 64 * 64) (dfld j.raw 16 0 64) 2).isNone = false := by
    rw [Nat.div_mul_cancel (Nat.dvd_of_mod_eq_zero hal)]
    simpa using hwin
  show execImageLoad head secs s = _
  unfold execImageLoad
  rw [if_neg (by simp [hdown, hpwr])]
  simp only [hheld, Option.bind_none, ite_self, hj, hal, if_true]
  rw [if_neg (by simp [State.loading, hst, hheld]), if_neg (by simp [hwin'])]
  rfl

/-- A held job is the load at the quiesce point of the partition (R359). -/
theorem exec_imageLoad_held {s : State} {j : HostJob} (hdown : s.hub.h1Down = false) (hpwr : s.pwrState = 3) (hst : s.img.staged = none)
    (hheld : s.img.held = some (j.ring, j.id)) (hj : s.hostJob j.id = some j) (hq : s.atQuiesce = true) (head : List Nat)
    (secs : List (List Nat)) : exec (.imageLoad head secs) s = .next (s.beginLoad j head secs) := by
  show execImageLoad head secs s = _
  unfold execImageLoad
  rw [if_neg (by simp [hdown, hpwr])]
  simp [hq, hst, hheld, hj]

/-- A job whose IMAGE_LEN is the header's is staged. -/
theorem beginLoad_eq (s : State) {j : HostJob} {head : List Nat} (h : dfld j.raw 16 0 64 = secNat head 16 8) (secs : List (List Nat)) :
    s.beginLoad j head secs = s.stage' j.ring j.id s.pkg head secs (imgDigest head) := by
  unfold State.beginLoad
  rw [if_neg (by simpa using h)]

/-- A second load is refused BUSY (R356, R370): the address counts if it is not aligned. -/
def busyLoad (s : State) (j : HostJob) : State :=
  ((if dfld j.raw 8 0 64 % 64 = 0 then s else s.hostViol 8 (dfld j.raw 8 0 64)).holdRefusal 0x0F).finishJob j.id 0x48 (0x0F + 256 * s.pkg)

theorem exec_imageLoad_busy {s : State} {j : HostJob} (hdown : s.hub.h1Down = false) (hpwr : s.pwrState = 3) (hheld : s.img.held = none)
    (hj : s.nextJob jobImage = some j) (hst : s.img.staged.isSome = true) (head : List Nat) (secs : List (List Nat)) :
    exec (.imageLoad head secs) s = .next (busyLoad s j) := by
  show execImageLoad head secs s = _
  unfold execImageLoad
  rw [if_neg (by simp [hdown, hpwr])]
  simp only [hheld, Option.bind_none, ite_self, hj]
  rw [if_pos (by simp [State.loading, hst])]
  rfl

theorem misaligned_stays (s : State) (j : HostJob) :
    Stays sansHost fetchRegs s (if dfld j.raw 8 0 64 % 64 = 0 then s else s.hostViol 8 (dfld j.raw 8 0 64)) := by
  split
  · exact .refl ..
  · exact hostViol_stays ..

theorem busyLoad_spec (s : State) (j : HostJob) : (busyLoad s j).img = s.img ∧ counted .hubImageRefuseCnt 0 1 s (busyLoad s j) ∧
    refusalCode (busyLoad s j) = 0x0F ∧ (∀ k ∈ (busyLoad s j).host.jobs, k.id ≠ j.id) ∧ (busyLoad s j).cores = s.cores ∧
    memKept s (busyLoad s j) := by
  unfold busyLoad
  have hseen := misaligned_stays s j
  generalize (if dfld j.raw 8 0 64 % 64 = 0 then s else s.hostViol 8 (dfld j.raw 8 0 64)) = s0 at hseen ⊢
  have hfinish := finishJob_sansHost (s0.holdRefusal 0x0F) j.id 0x48 (0x0F + 256 * s.pkg)
  have hall : Stays sansHost (.hubImageStatus :: .hubImageRefuseCnt :: fetchRegs) s _ :=
    ((hseen.mono (by decide)).trans ((holdRefusal_stays sansHost_blind s0 0x0F).mono (by decide))).trans (hfinish.mono (by decide))
  refine ⟨hall.get State.img fun _ => rfl, ?_, ?_, finishJob_gone _ j.id 0x48 _, hall.get State.cores fun _ => rfl, hall.memKept fun _ => rfl⟩
  · have hc := holdRefusal_counted s0 0x0F
    unfold counted at hc ⊢
    rwa [hseen.rd .hubImageRefuseCnt 0 0 (by decide), ← hfinish.rd .hubImageRefuseCnt 0 0 (by decide)] at hc
  · exact (hfinish.rdF .hubImageStatus 0 0 8 8 (by decide)).trans (holdRefusal_code s0 0x0F)

theorem loadOk_ring {s : State} {j : HostJob} (h : LoadOk s j) : j.ring < 16 := by
  obtain ⟨-, -, -, -, -, hr, -⟩ := h
  exact hr

theorem imageLoad : ImageLoad := by
  intro s j head secs
  have hbegins : LoadOk s j → s.isSealed = false ∨ s.atQuiesce = true → dfld j.raw 16 0 64 = secNat head 16 8 →
      exec (.imageLoad head secs) s = .next ((jobBegun s j).stage' j.ring j.id s.pkg head secs (imgDigest head)) := by
    intro h hs hlen
    rw [exec_imageLoad_taken h, if_neg (by rcases hs with hs | hs <;> simp [hs]), beginLoad_eq _ hlen]
    rfl
  refine ⟨fun h hs hlen h0 => ?_, fun h hs hlen h0 => ?_, fun h hs hq => ?_, fun hdown hpwr hst hheld hj hr hq hlen h0 => ?_,
    fun hdown hpwr hheld hj hst => ?_⟩
  · have hr := loadOk_ring h
    obtain ⟨t, ht, hst, -, hstate, hcores, hmem⟩ := stage'_passes hr j.id s.pkg h0
    exact ⟨t, (hbegins h hs hlen).trans (congrArg _ ht), hst, hstate, hcores, hmem⟩
  · have hr := loadOk_ring h
    obtain ⟨t, ht, hrest⟩ := stage'_refused hr j.id s.pkg h0
    exact ⟨t, (hbegins h hs hlen).trans (congrArg _ ht), hrest⟩
  · rw [exec_imageLoad_taken h, if_pos (by simp [hs, hq])]
    exact ⟨_, rfl, rfl, rfl, rfl, memKept_of_mems rfl⟩
  · obtain ⟨t, ht, hst', hheld', hstate, hcores, hmem⟩ := stage'_passes hr j.id s.pkg h0
    exact ⟨t, (exec_imageLoad_held hdown hpwr hst hheld hj hq head secs).trans (congrArg _ ((beginLoad_eq s hlen secs).trans ht)),
      hst', hheld', hstate, hcores, hmem⟩
  · obtain ⟨himg, hcnt, hcode, hgone, hcores, hmem⟩ := busyLoad_spec s j
    exact ⟨_, exec_imageLoad_busy hdown hpwr hheld hj hst head secs, himg, hcnt, hcode, hgone, hcores, hmem⟩

end Sys2Proof.Claims
end

section
/-! ### SEAL: what stands once the package has taken its tables -/

namespace Sys2Proof.Claims

open Machine

/-- What a seal sets for good, beside registers: the tables, the saves, the boot state, the step counters. -/
def sealData (s : State) : Img × List Save × BootSt × (Nat → Nat) := (s.img, s.saves, s.boot, fun g => (s.core g).step)

/-- Registers that a seal sets for good. -/
def imageRegs : List Reg := [.hubImageStatus, .hubImageId, .hubImageDigest]

/-- What a seal sets for good: its data, and the three registers. -/
abbrev SealView : Type := (Img × List Save × BootSt × (Nat → Nat)) × Nat × Nat × Nat

def sealView (s : State) : SealView :=
  (sealData s, s.rd .hubImageStatus 0 0, s.rd .hubImageId 0 0, s.rd .hubImageDigest 0 0)

theorem sealView_congr {s t : State} (hd : sealData t = sealData s) (hr : ∀ r ∈ imageRegs, t.rd r 0 0 = s.rd r 0 0) :
    sealView t = sealView s := by
  unfold sealView
  rw [hd, hr .hubImageStatus (by decide), hr .hubImageId (by decide), hr .hubImageDigest (by decide)]

theorem seal_stays {α : Type} {e : State → α} {L : List Reg} {s t : State} (h : Stays e L s t) (hL : ∀ r ∈ imageRegs, r ∉ L)
    (hd : sealData t = sealData s) : sealView t = sealView s := sealView_congr hd fun r hr => h.rd r 0 0 (hL r hr)

theorem seal_of_stays {e : State → State} {L : List Reg} {s t : State} (h : Stays e L s t) (hL : ∀ r ∈ imageRegs, r ∉ L)
    (he : ∀ s, sealData (e s) = sealData s) : sealView t = sealView s := seal_stays h hL (h.get sealData he)

theorem seal_of_vault {s t : State} (h : Stays vaultView vltRegs s t) : sealView t = sealView s := by
  refine seal_stays h (by decide) ?_
  have hdata : ∀ u : State, sealData u = (u.sansVault.img, u.sansVault.saves, u.sansVault.boot, fun g => (u.core g).sansVault.step) :=
    fun _ => rfl
  rw [hdata, hdata, h.toVault.seen, funext fun g => congrArg Core.step (h.core g)]

theorem seal_wr {r : Reg} (hr : r ∉ imageRegs) (s : State) (i k v : Nat) : sealView (s.wr r i k v) = sealView s :=
  sealView_congr rfl fun r' hr' => State.rd_wr_ne s (by rintro rfl; exact hr hr') ..

theorem seal_viol {r : Reg} (hr : r ∉ imageRegs) (s : State) (i op q f v : Nat) : sealView (s.viol r i op q f v) = sealView s := by
  rw [State.viol_eq]
  exact seal_wr hr s i 0 _

theorem seal_send (s : State) (o : Out) : sealView (s.send o) = sealView s := rfl

theorem seal_updHub (s : State) (f : Hub → Hub) : sealView (s.updHub f) = sealView s := rfl

theorem seal_updCore (s : State) (g : Nat) (f : Core → Core) (hf : ∀ c, (f c).step = c.step) : sealView (s.updCore g f) = sealView s :=
  congrArg (fun steps => ((s.img, s.saves, s.boot, steps), s.rd .hubImageStatus 0 0, s.rd .hubImageId 0 0, s.rd .hubImageDigest 0 0))
    (funext (view_updCore Core.step s g f hf))

theorem seal_hubAddrViol (s : State) (a : Nat) : sealView (s.hubAddrViol a) = sealView s := seal_viol (by decide) ..

theorem seal_regReject (s : State) (off : Nat) : sealView (s.regReject off) = sealView s := seal_viol (by decide) ..

/-! ### A register that the image writes (R20, R343, R496) -/

theorem rangeCounter_kept (r : Reg) : r.rangeCounter ∉ imageRegs := by
  unfold Reg.rangeCounter
  split <;> decide

theorem seal_bothCopies (s : State) (r : Reg) (i k : Nat) : sealView (s.bothCopies r i k) = sealView s := by
  unfold State.bothCopies
  dsimp only
  split
  · exact seal_updCore _ _ _ fun _ => rfl
  · exact seal_updCore _ _ _ fun _ => rfl
  · exact seal_updCore _ _ _ fun _ => rfl
  · rfl

theorem seal_raiseTimeout (s : State) (r : Reg) : sealView (s.raiseTimeout r) = sealView s := by
  unfold State.raiseTimeout
  dsimp only
  split
  · exact (seal_viol (by decide) ..).trans (seal_wr (by decide) ..)
  · rfl

theorem seal_storeReg {r : Reg} (hr : r ∉ imageRegs) (s : State) (i k v : Nat) : sealView (s.storeReg r i k v) = sealView s := by
  unfold State.storeReg
  dsimp only
  refine (view_forUpTo (fun _ _ => seal_viol (rangeCounter_kept r) ..) ..).trans ?_
  exact (seal_raiseTimeout ..).trans ((seal_bothCopies ..).trans (seal_wr hr ..))

theorem seal_tellGateways (s : State) (k : Nat) (args : List Nat) : sealView (s.tellGateways k args) = sealView s := by
  unfold State.tellGateways
  exact view_forEach (f := fun (p : Nat × Nat) s => s.send (.hub k p.1 args)) (fun _ _ => rfl) _ _

theorem seal_cqPost (s : State) (n v : Nat) (subst : Bool) : sealView (s.cqPost n v subst) = sealView s := by
  have hcomplete : ∀ u n jid st op v b q, sealView (State.complete u n jid st op v b q) = sealView u := fun u n jid st op v b q =>
    seal_of_stays (complete_stays u n jid st op v b q) (by decide) fun _ => rfl
  have hviol : sealView (if bitsOf v 56 8 ≤ 2 then s else s.hostViol 0 (bitsOf v 56 8)) = sealView s := by
    split
    · rfl
    · exact seal_viol (by decide) ..
  unfold State.cqPost
  dsimp only
  generalize (if bitsOf v 56 8 ≤ 2 then s else s.hostViol 0 (bitsOf v 56 8)) = s0 at hviol ⊢
  refine Eq.trans ?_ hviol
  split
  · split
    · refine (seal_of_stays (fetchMore_stays _) (by decide) fun _ => rfl).trans ?_
      exact (seal_tellGateways ..).trans ((hcomplete ..).trans rfl)
    · split
      · exact seal_of_stays (request_stays ..) (by decide) fun _ => rfl
      · exact hcomplete ..
  · exact hcomplete ..

theorem seal_tierQuery (s : State) (o : Nat) : sealView (s.tierQuery o) = sealView s := by
  unfold State.tierQuery
  split <;> exact seal_wr (by decide) ..

theorem seal_writeCorr (s : State) (v : Nat) : sealView (s.writeCorr v) = sealView s := by
  have hisland : ∀ i, sealView (s.corrIsland i) = sealView s := fun i => by
    unfold State.corrIsland
    refine (seal_wr (by decide) ..).trans ?_
    split
    · exact seal_regReject ..
    · rfl
  unfold State.writeCorr
  split
  · unfold State.corrGo
    dsimp only
    split
    · exact (seal_regReject ..).trans (hisland _)
    · refine (seal_updHub ..).trans ?_
      exact (seal_wr (by decide) ..).trans ((seal_wr (by decide) ..).trans (hisland _))
  · exact hisland _

theorem seal_writeVlog {r : Reg} (hr : r ∉ imageRegs) (s : State) (v : Nat) : sealView (s.writeVlog r v) = sealView s := by
  unfold State.writeVlog
  split
  · split
    · rfl
    · exact seal_regReject ..
  · have hstore := seal_storeReg hr s 0 0 (s.taken .free r 0 0 v)
    dsimp only
    generalize s.storeReg r 0 0 (s.taken .free r 0 0 v) = s1 at hstore ⊢
    split
    · exact hstore
    · exact hstore

theorem seal_sweepGo (s : State) (b : Bool) : sealView (s.sweepGo b) = sealView s := by
  unfold State.sweepGo State.sweepFree
  split
  · exact seal_regReject ..
  · dsimp only
    split
    next hno =>
      unfold State.sweep
      dsimp only
      rw [if_pos hno]
      exact seal_wr (by decide) ..
    · exact seal_wr (r := .hubSweepStatus) (by decide) ..

/-- A register with behaviour of its own, written over the path of the domain. -/
theorem seal_special {r : Reg} (hp : pathOk 2 r true = true) (s : State) (k v : Nat) : sealView (s.special r k v).1 = sealView s := by
  unfold State.special
  split
  case h_4 => 
    dsimp only
    split
    · exact seal_cqPost ..
    · rfl
  case h_15 => exact seal_writeCorr ..
  case h_16 => exact seal_writeVlog (by decide) ..
  case h_17 => exact seal_writeVlog (by decide) ..
  case h_18 =>
    dsimp only
    split
    · exact seal_sweepGo ..
    · rfl
  case h_19 => exact seal_tierQuery ..
  case h_24 => rfl
  all_goals exact absurd hp (by decide)

theorem imageRegs_ro {r : Reg} (hr : r ∈ imageRegs) : r.desc.fields.all (fun f => f.acc == .ro) = true := by
  revert r
  decide

theorem seal_writeSlot {r : Reg} (hp : pathOk 2 r true = true) (s : State) (who : Writer) (i k v : Nat) :
    sealView (s.writeSlot who r i k v) = sealView s := by
  unfold State.writeSlot
  dsimp only
  have hrej : sealView (if s.refusesAny who r i k v && !s.refusesWhole r v then s.regReject (r.offset i k) else s) = sealView s := by
    split
    · exact seal_regReject ..
    · rfl
  generalize (if s.refusesAny who r i k v && !s.refusesWhole r v then s.regReject (r.offset i k) else s) = s1 at hrej ⊢
  refine Eq.trans ?_ hrej
  have hspecial := seal_special hp s1 k v
  split
  next t ht => rw [ht] at hspecial; exact hspecial
  · split
    · rfl
    next hne =>
      refine seal_storeReg (fun hr => hne ?_) ..
      exact State.taken_ro (imageRegs_ro hr) ..

theorem seal_writeReg (s : State) (off bytes v : Nat) : sealView (s.writeReg 2 off bytes v).1 = sealView s := by
  have hunmapped : sealView (s.unmapped 2 off) = sealView s := seal_hubAddrViol ..
  unfold State.writeReg
  dsimp only
  split
  · exact hunmapped
  · split
    · exact hunmapped
    · split
      · exact hunmapped
      · split
        · exact seal_regReject ..
        next hp => exact seal_writeSlot (by simpa using hp) ..

end Sys2Proof.Claims
end

section
/-! ### SEAL: the places, tables and ports of the image -/

namespace Sys2Proof.Claims

open Machine

theorem seal_updPrg (s : State) (f : Prg → Prg) : sealView (s.updPrg f) = sealView s := rfl

theorem seal_tornAdd (s : State) (t : Torn) : sealView (s.tornAdd t) = sealView s := by
  have hbump : sealView (s.bump .hostTornCnt 0 t.len) = sealView s := seal_wr (by decide) ..
  unfold State.tornAdd
  dsimp only
  generalize s.bump .hostTornCnt 0 t.len = s1 at hbump ⊢
  refine Eq.trans ?_ hbump
  split
  · rfl
  · split
    · rfl
    · split <;> split <;> rfl

theorem seal_hostBound (s : State) (w o : Nat) (bs : List Nat) (tag : Nat) (data : Bool) :
    sealView (s.hostBound w o bs tag data).1 = sealView s := by
  have hpush : ∀ dest, sealView (s.pushEntry dest bs []) = sealView s := fun dest =>
    seal_of_stays (pushEntry_stays s dest bs []) (by decide) fun _ => rfl
  unfold State.hostBound
  dsimp only
  split
  · exact seal_viol (by decide) ..
  · split
    · split
      · rfl
      · split
        · exact (seal_tornAdd ..).trans (hpush _)
        · split
          · exact seal_tornAdd ..
          · exact seal_tornAdd ..
    · split
      · rfl
      · split
        · rfl
        · rfl

theorem seal_writeLines (s : State) (src a : Nat) (bs : List Nat) (tag : Nat) (rcmp : Bool) :
    sealView (s.writeLines src a bs tag rcmp) = sealView s := by
  refine view_forEach (fun p u => ?_) _ s
  split
  · exact seal_of_vault (vltRequest_stays ..)
  · split
    · exact seal_hubAddrViol ..
    · rfl

theorem seal_writeAt (s : State) (src a : Nat) (bs : List Nat) (tag : Nat) (rcmp : Bool) :
    sealView (s.writeAt src a bs tag rcmp) = sealView s := by
  unfold State.writeAt
  split
  · rfl
  · split
    · exact seal_writeLines ..
    · rfl
    · exact seal_viol (by decide) ..
    · split
      · exact seal_hubAddrViol ..
      · exact seal_viol (by decide) ..
    · rfl

theorem seal_placeBytes (s : State) (a : Nat) (bs : List Nat) (tag : Nat) : sealView (s.placeBytes a bs tag) = sealView s := by
  unfold State.placeBytes
  split
  · exact view_forUpTo (fun _ _ => seal_writeReg ..) _ s
  · split
    · exact seal_hubAddrViol ..
    · exact seal_hostBound ..
  · exact seal_writeAt ..

theorem seal_sealShare (s : State) (n : Nat) : sealView (s.sealShare n) = sealView s :=
  (view_forUpTo (fun _ _ => seal_wr (by decide) ..) ..).trans (view_forUpTo (fun _ _ => seal_wr (by decide) ..) ..)

/-- A port that reads its keyway table. -/
theorem seal_kwLoad (s : State) (port : Nat) : sealView (s.kwLoad port) = sealView s := by
  have hread : ∀ (f : State × Nat → Nat → State × Nat), (∀ a i, sealView (f a i).1 = sealView a.1) → ∀ (l : List Nat) (a : State × Nat),
      sealView (l.foldl f a).1 = sealView a.1 := by
    intro f hf l
    induction l with
    | nil => exact fun _ => rfl
    | cons i l ih => exact fun a => (ih _).trans (hf a i)
  unfold State.kwLoad
  dsimp only
  refine hread _ (fun a i => ?_) _ (s, 0)
  dsimp only
  have hviols := view_forUpTo (fun _ _ => seal_viol (r := .prgViolCnt) (by decide) _ port 0xFF 0xFFFFFFFF 0xFF i)
    (a.1.kwRead (a.1.natAt (s.rd .prgKwBase port 0 + 16 * i) 16) a.2).2.2 a.1
  split
  · exact hviols
  · exact hviols

theorem seal_routeLoad (s : State) : sealView s.routeLoad = sealView s := by
  have hviols : ∀ n v u, sealView (forUpTo n (fun _ s => forUpTo 8 (fun d s => s.islViol d 0xFF 0xFFFFFFFF 0xFF v) s) u) = sealView u :=
    fun n v u => view_forUpTo (fun _ _ => view_forUpTo (fun _ _ => seal_viol (by decide) ..) ..) n u
  unfold State.routeLoad
  exact view_forEach (fun p u => view_forUpTo (fun c u => (seal_updPrg ..).trans (hviols ..)) 4 u) _ s

theorem seal_tierViol (s : State) (op q f v : Nat) : sealView (s.tierViol op q f v) = sealView s := seal_viol (by decide) ..

theorem seal_countIf {c : Prop} [Decidable c] {s t : State} (h : sealView t = sealView s) (op q f v : Nat) :
    sealView (if c then t.tierViol op q f v else t) = sealView s := by
  split
  · exact (seal_tierViol ..).trans h
  · exact h

theorem seal_setFrames (f : Nat × Nat → Frame) (ps : List (Nat × Nat)) (s : State) :
    sealView (forEach ps (fun p s => s.setFrame p.1 p.2 (f p)) s) = sealView s := by
  refine view_forEach ?_ ps s
  exact fun _ _ => rfl

theorem seal_tierLoad (s : State) : sealView s.tierLoad = sealView s := by
  have hviols : ∀ (vs : List Viol) u, sealView (forEach vs (fun v s => s.tierViol 0xFF 0xFFFFFFFF v.field v.value) u) = sealView u :=
    fun vs u => view_forEach (fun _ _ => seal_tierViol ..) vs u
  unfold State.tierLoad
  dsimp only
  refine (view_forUpTo (fun i u => ?_) ..).trans ((view_forUpTo (fun i u => ?_) ..).trans ?_)
  · split
    · exact (seal_setFrames (fun _ => _) ..).trans (hviols ..)
    · exact hviols ..
  · split
    · exact (seal_setFrames (fun _ => _) ..).trans (hviols ..)
    · exact hviols ..
  · exact seal_countIf (c := 64 < s.rdF .tierWinCount 0 0 0 7) (seal_countIf (c := 8192 < s.rdF .tierObjCount 0 0 0 14)
      (seal_countIf (c := s.rdF .tierCtl 0 0 0 3 = 0 ∨ 4 < s.rdF .tierCtl 0 0 0 3) rfl ..) ..) ..

theorem seal_tierReload (s : State) : sealView s.tierReload = sealView s := by
  unfold State.tierReload
  dsimp only
  refine (view_forEach (fun e u => ?_) ..).trans (seal_tierLoad s)
  split
  · split
    · exact seal_setFrames (fun p : Nat × Nat => SMap.get (fun _ => Frame.none) s.frames (frameKey p.1 p.2)) ..
    · rfl
  · rfl

theorem seal_retagShard (s : State) (tag : Nat) (x : Shard) : sealView (s.retagShard tag x) = sealView s := by
  unfold State.retagShard
  refine view_forEach (fun g u => view_forUpTo (fun i u => view_forUpTo (fun q u => ?_) 8 u) _ u) _ s
  dsimp only
  split
  · rfl
  · rfl

theorem seal_closeRecords (s : State) (p : Nat → Bool) : sealView (s.closeRecords p) = sealView s := by
  unfold State.closeRecords State.faultPin
  split
  · rfl
  · rfl

/-! ### Power and ports -/

theorem seal_power {s t : State} (h : Stays State.sansPower powerRegs s t) : sealView t = sealView s :=
  seal_of_stays h (by decide) fun _ => rfl

theorem imageRegs_sub {r : Reg} (hr : r ∈ imageRegs) : r.desc.sub = .hubImg := by
  revert r
  decide

theorem seal_setCore (s : State) (g : Nat) {c : Core} (hc : c.step = (s.core g).step) : sealView (s.setCore g c) = sealView s := by
  have hsteps : (fun h => ((s.setCore g c).core h).step) = fun h => (s.core h).step := by
    funext h
    by_cases hg : g = h
    · subst hg
      rw [State.core_setCore_self, hc]
    · rw [State.core_setCore_ne _ _ hg]
  exact congrArg (fun steps => ((s.img, s.saves, s.boot, steps), s.rd .hubImageStatus 0 0, s.rd .hubImageId 0 0, s.rd .hubImageDigest 0 0))
    hsteps

theorem seal_gateCore (s : State) (g : Nat) : sealView (s.gateCore g) = sealView s := by
  have hregs : ∀ r ∈ imageRegs, (s.clearRegs (coreReg g)).rd r 0 0 = s.rd r 0 0 := fun r hr =>
    State.rd_clearRegs s (by simp [coreReg, keyReg_regKey, imageRegs_sub hr])
  have hclear : sealView (s.clearRegs (coreReg g)) = sealView s := sealView_congr rfl hregs
  refine Eq.trans ?_ hclear
  have hstep : (s.core g).step = ((s.clearRegs (coreReg g)).core g).step := rfl
  unfold State.gateCore
  dsimp only
  generalize s.clearRegs (coreReg g) = s1 at hstep ⊢
  exact seal_setCore s1 g hstep

theorem seal_sealPower (s : State) : sealView s.sealPower = sealView s := by
  refine view_forUpTo (fun g u => ?_) 128 s
  split
  · split
    · exact (seal_power (askGrant_stays ..)).trans (seal_power (setCoreState_stays ..))
    · rfl
  · split
    · rfl
    · exact (seal_power (setCoreState_stays ..)).trans ((seal_gateCore ..).trans (seal_power (returnGrant_stays ..)))

theorem seal_setPLane (s : State) (k w : Nat) (l : PLane) : sealView (s.setPLane k w l) = sealView s :=
  seal_wr (r := .prgPortStatus) (by decide) ..

theorem seal_trainLane (s : State) (k w m d : Nat) : sealView (s.trainLane k w m d) = sealView s :=
  (seal_send ..).trans ((seal_updPrg ..).trans (seal_setPLane ..))

theorem seal_sealPorts (s : State) : sealView s.sealPorts = sealView s := by
  unfold State.sealPorts
  refine (view_forUpTo (fun k u => view_forUpTo (fun w u => ?_) 8 u) 16 _).trans (seal_updPrg ..)
  split
  · exact seal_trainLane ..
  · exact seal_setPLane ..

end Sys2Proof.Claims
end

section
namespace Sys2Proof.Claims

open Machine

/-! ### SEAL as a whole -/

theorem SMap.get_below {V : Type} [DecidableEq V] (d : Nat → V) {m : SMap V} {lo k : Nat} (h : SMap.wfFrom d lo m = true) (hk : k < lo) :
    SMap.get d m k = d k := by
  induction m generalizing lo with
  | nil => rfl
  | cons e m ih =>
    obtain ⟨a, v⟩ := e
    simp only [SMap.wfFrom, Bool.and_eq_true, decide_eq_true_eq] at h
    obtain ⟨⟨hlo, -⟩, hm⟩ := h
    rw [SMap.get_cons, if_neg (by omega), ih hm (by omega)]

/-- A change of every entry of a table in canonical form, the canonical form restored, changes what is read. -/
theorem SMap.get_mapCanon {V : Type} [DecidableEq V] (d : V) {f : V → V} (hf : f d = d) {m : SMap V} {lo : Nat}
    (h : SMap.wfFrom (fun _ => d) lo m = true) (k : Nat) :
    SMap.get (fun _ => d) ((m.map (fun e => (e.1, f e.2))).filter (fun e => decide (e.2 ≠ d))) k = f (SMap.get (fun _ => d) m k) := by
  induction m generalizing lo with
  | nil => exact hf.symm
  | cons e m ih =>
    obtain ⟨a, v⟩ := e
    simp only [SMap.wfFrom, Bool.and_eq_true, decide_eq_true_eq] at h
    obtain ⟨-, hm⟩ := h
    rw [List.map_cons, List.filter_cons]
    by_cases hv : f v = d
    · rw [if_neg (by simp [hv]), ih hm, SMap.get_cons]
      split
      next hak => rw [SMap.get_below _ hm (by omega), hf, hv]
      · rfl
    · rw [if_pos (by simpa using hv), SMap.get_cons, SMap.get_cons, ih hm]
      split <;> rfl

theorem seal_wrF {r : Reg} (hr : r ∉ imageRegs) (s : State) (i k lo w v : Nat) : sealView (s.wrF r i k lo w v) = sealView s :=
  seal_wr hr ..

theorem seal_dropSnap (s : State) : sealView s.dropSnap = sealView s := by
  rcases dropSnap_stays s with ⟨-, h⟩ | h
  · rw [h]
  · rw [seal_of_vault h, State.snapOff, seal_wrF (by decide)]
    rfl

theorem dropSnap_coresWf {s : State} (h : s.coresWf) : s.dropSnap.coresWf := by
  rcases dropSnap_stays s with ⟨-, hs⟩ | hs
  · rwa [hs]
  · refine hs.coresWf ?_
    rw [State.coresWf, State.snapOff, State.wrF_cores]
    exact h

theorem dropSnap_pkg (s : State) : s.dropSnap.pkg = s.pkg := by
  rcases dropSnap_stays s with ⟨-, h⟩ | h
  · rw [h]
  · exact (h.rdF .hubPkgNum 0 0 0 6 (by decide)).trans (congrArg (bitsOf · 0 6) (State.rd_wrF_ne _ (by decide) ..))

/-- A seal begins: what the package holds of the old image goes (R360). -/
def sealBegun (s : State) (t : Staged) (reset : Bool) (slots : Slots) : State :=
  { s with
    cores := (s.cores.map (fun e => (e.1, e.2.sealed reset))).filter (fun e => decide (e.2 ≠ Core.reset)), saves := [], sigRetry := [],
    slots := slots, snap := none, flt := { FltSt.none with ckpts := s.flt.ckpts, misses := [] }, img := s.sealTables t.head t.secs,
    prg := { Prg.none with nextTxn := s.prg.nextTxn, lanes := s.prg.lanes }, runStop := false }

/-- The image registers are set (R361). -/
def sealStarted (s : State) (t : Staged) (reset : Bool) (slots : Slots) (lead : Nat) : State :=
  (forUpTo 128 (fun g s => s.wr .coreSrSeed g 0 (secNat t.head 40 8))
    (((sealBegun s t reset slots).clearRegs (sealClears reset)).updHost
      (fun q => { q with step := none, holder := none, stepGw := none }))).sealRegs t.head lead

/-- The reduction-buffer slots that the image declares. -/
def declaredSlots (slots : List (Nat × Nat × SlotDecl)) : Slots := slots.foldl (fun a x => { a with
  counts := SMap.set (fun _ => 0) a.counts x.1 (min 2048 (max (SMap.get (fun _ => 0) a.counts x.1) (x.2.1 + 1)))
  decls := SMap.set (fun _ => none) a.decls (slotKey x.1 x.2.1) (some x.2.2) }) Slots.none

/-- The last changes of a seal: the package is no longer warm, and nothing stays staged. -/
def warmOver (v : SealView) : SealView :=
  ((v.1.1, v.1.2.1, { v.1.2.2.1 with warm := false }, v.1.2.2.2), v.2)
def unstaged (v : SealView) : SealView :=
  (({ v.1.1 with staged := none }, v.1.2), v.2)

theorem seal_warmOver (s : State) : sealView (s.updBoot fun b => { b with warm := false }) = warmOver (sealView s) := rfl
theorem seal_unstaged (s : State) : sealView (s.updImg fun i => { i with staged := none }) = unstaged (sealView s) := rfl

theorem seal_headViols (n : Nat) (s : State) : sealView (forUpTo n (fun _ s => s.bump .hubImageViolCnt 0 1) s) = sealView s :=
  view_forUpTo (fun _ _ => seal_wr (by decide) ..) n s

theorem seal_retags (xs : List Shard) (tag : Nat) (s : State) : sealView (forEach xs (fun x s => s.retagShard tag x) s) = sealView s :=
  view_forEach (fun _ _ => seal_retagShard ..) xs s

theorem seal_kwLoads (n : Nat) (s : State) : sealView (forUpTo n (fun k s => s.kwLoad k) s) = sealView s :=
  view_forUpTo (fun _ _ => seal_kwLoad ..) n s

theorem seal_places (own : List (DirEnt × Nat)) (secs : List (List Nat)) (tag : Nat) (s : State) :
    sealView (forEach own (fun e s => s.placeBytes e.1.load ((secs.getD e.2 []).take e.1.len) tag) s) = sealView s :=
  view_forEach (fun _ _ => seal_placeBytes ..) own s

/-- With no REGLOAD section a seal leaves its view as it began. -/
theorem seal_sealNow {s : State} {t : Staged} (h : secBytes t.head t.secs s.pkg 0x10 0 = none) (lead : Nat)
    (slots : List (Nat × Nat × SlotDecl)) (sweep : List Nat) : sealView (s.sealNow t lead slots sweep) = unstaged (warmOver (sealView
      (sealStarted s.dropSnap t (s.boot.warm || (secNat t.head 6 1).testBit 0) (declaredSlots slots) lead))) := by
  rw [← dropSnap_pkg s] at h
  unfold State.sealNow
  dsimp only
  rw [h, seal_unstaged, seal_sealPorts, seal_sealPower, seal_wrF (by decide), seal_warmOver, seal_closeRecords, seal_headViols, seal_retags,
    seal_tierReload, seal_routeLoad, seal_kwLoads, seal_sealShare]
  refine congrArg (fun v => unstaged (warmOver v)) ?_
  exact (seal_places ..).trans rfl

/-! ### What stands after a seal -/

theorem sealData_wr (s : State) (r : Reg) (i k v : Nat) : sealData (s.wr r i k v) = sealData s := rfl
theorem sealData_wrF (s : State) (r : Reg) (i k lo w v : Nat) : sealData (s.wrF r i k lo w v) = sealData s := rfl

theorem sealData_wrs (n : Nat) (r : Reg) (i k v : Nat → Nat) (s : State) :
    sealData (forUpTo n (fun j s => s.wr r (i j) (k j) (v j)) s) = sealData s :=
  view_forUpTo (f := fun j s => s.wr r (i j) (k j) (v j)) (fun _ _ => rfl) n s

theorem sealRegs_data (s : State) (h : List Nat) (lead : Nat) : sealData (s.sealRegs h lead) = sealData s := by
  unfold State.sealRegs
  dsimp only
  rw [sealData_wrF, sealData_wrF, sealData_wrF, sealData_wrF, sealData_wrF,
    sealData_wrs 4 .hubImageDigest (fun _ => 0) (fun i => i) fun i => leNat (((imgDigest h).drop (8 * i)).take 8), sealData_wr, sealData_wr]

theorem sealRegs_imageState (s : State) (h : List Nat) (lead : Nat) : (s.sealRegs h lead).imageState = 3 := by
  unfold State.sealRegs
  exact imageState_wrF ..

theorem sealRegs_id (s : State) (h : List Nat) (lead : Nat) : (s.sealRegs h lead).rd .hubImageId 0 0 = secNat h 8 8 % 2 ^ 64 := by
  unfold State.sealRegs
  dsimp only
  rw [State.rd_wrF_ne _ (by decide), State.rd_wrF_ne _ (by decide), State.rd_wrF_ne _ (by decide), State.rd_wrF_ne _ (by decide),
    State.rd_wrF_ne _ (by decide)]
  refine (view_forUpTo (e := fun s => s.rd .hubImageId 0 0) (fun i u => State.rd_wr_ne u (by decide) ..) 4 _).trans ?_
  rw [State.rd_wr_ne _ (by decide), State.rd_wr_self]

theorem sealRegs_digest (s : State) (h : List Nat) (lead : Nat) :
    (s.sealRegs h lead).rd .hubImageDigest 0 0 = leNat ((imgDigest h).take 8) % 2 ^ 64 := by
  have hne : ∀ (u : State) k v, k % 2 ^ 12 ≠ 0 → (u.wr .hubImageDigest 0 k v).rd .hubImageDigest 0 0 = u.rd .hubImageDigest 0 0 :=
    fun u k v hk => u.rd_wr_key v (regKey_ne_at (.inr hk))
  unfold State.sealRegs
  dsimp only
  rw [State.rd_wrF_ne _ (by decide), State.rd_wrF_ne _ (by decide), State.rd_wrF_ne _ (by decide), State.rd_wrF_ne _ (by decide),
    State.rd_wrF_ne _ (by decide)]
  simp only [forUpTo]
  rw [hne _ 3 _ (by decide), hne _ 2 _ (by decide), hne _ 1 _ (by decide), State.rd_wr_self, Nat.mul_zero, List.drop_zero]

theorem sealStarted_data {s : State} (hwf : s.coresWf) (t : Staged) (reset : Bool) (slots : Slots) (lead : Nat) :
    sealData (sealStarted s t reset slots lead) =
      (s.sealTables t.head t.secs, [], s.boot, fun g => if reset = true then 0 else (s.core g).step) := by
  have hsteps : ∀ g, ((sealBegun s t reset slots).core g).step = if reset = true then 0 else (s.core g).step := by
    intro g
    have hreset : Core.sealed Core.reset reset = Core.reset := by cases reset <;> rfl
    exact congrArg Core.step (SMap.get_mapCanon Core.reset (f := fun c => c.sealed reset) hreset hwf g)
  unfold sealStarted
  rw [sealRegs_data, sealData_wrs 128 .coreSrSeed (fun g => g) (fun _ => 0) fun _ => secNat t.head 40 8]
  exact congrArg (fun steps => (s.sealTables t.head t.secs, [], s.boot, steps)) (funext hsteps)

/-- A package has taken the tables of a staged image (R355 step 6, R360, R361). -/
structure TookTables (s : State) (x : Staged) (t : State) : Prop where
  staged : t.img.staged = none
  state : t.imageState = 3
  ranks : t.img.ranks = rankTable x.head ((secBytes x.head x.secs s.pkg 2 0).getD [])
  warm : t.boot.warm = false
  id : t.rd .hubImageId 0 0 = secNat x.head 8 8 % 2 ^ 64
  digest : t.rd .hubImageDigest 0 0 = leNat ((imgDigest x.head).take 8) % 2 ^ 64
  steps : ∀ g, (t.core g).step = if (s.boot.warm || (secNat x.head 6 1).testBit 0) = true then 0 else (s.core g).step
  saves : t.saves = []

/-- What of the view of a seal a package's tables show. -/
def tablesSeen (v : SealView) :=
  (v.1.1.staged, v.1.1.ranks, v.1.2.1, v.1.2.2.1.warm, v.1.2.2.2, v.2)

theorem TookTables.of_view {s : State} {x : Staged} {t u : State} (h : TookTables s x t)
    (hv : tablesSeen (sealView u) = tablesSeen (sealView t)) : TookTables s x u := by
  obtain ⟨hstaged, hstate, hranks, hwarm, hid, hdigest, hsteps, hsaves⟩ := h
  simp only [tablesSeen, sealView, sealData, Prod.mk.injEq] at hv
  obtain ⟨hv1, hv2, hv3, hv4, hv5, hv6, hv7, hv8⟩ := hv
  exact ⟨hv1.trans hstaged, (congrArg (bitsOf · 0 3) hv6).trans hstate, hv2.trans hranks, hv4.trans hwarm, hv7.trans hid,
    hv8.trans hdigest, fun g => (congrFun hv5 g).trans (hsteps g), hv3.trans hsaves⟩

theorem sealNow_tookTables {s : State} {x : Staged} (hreg : secBytes x.head x.secs s.pkg 0x10 0 = none) (hwf : s.coresWf) (lead : Nat)
    (slots : List (Nat × Nat × SlotDecl)) (sweep : List Nat) : TookTables s x (s.sealNow x lead slots sweep) := by
  have hseal := seal_sealNow hreg lead slots sweep
  have hdrop := congrArg Prod.fst (seal_dropSnap s)
  simp only [sealView, sealData, Prod.mk.injEq] at hdrop
  obtain ⟨-, -, hboot, hsteps⟩ := hdrop
  have hdata := sealStarted_data (dropSnap_coresWf hwf) x (s.boot.warm || (secNat x.head 6 1).testBit 0) (declaredSlots slots) lead
  rw [hboot] at hdata
  simp only [congrFun hsteps] at hdata
  unfold sealView at hseal
  rw [hdata] at hseal
  simp only [sealData, unstaged, warmOver, Prod.mk.injEq] at hseal
  obtain ⟨⟨himg, hsaves, hboot', hsteps'⟩, hst, hid, hdigest⟩ := hseal
  refine ⟨congrArg Img.staged himg, (congrArg (bitsOf · 0 3) hst).trans (sealRegs_imageState ..), ?_, congrArg BootSt.warm hboot',
    hid.trans (sealRegs_id ..), hdigest.trans (sealRegs_digest ..), congrFun hsteps', hsaves⟩
  rw [← dropSnap_pkg]
  exact congrArg Img.ranks himg

end Sys2Proof.Claims
end

section
namespace Sys2Proof.Claims

open Machine

/-! ### The acknowledgements of SEAL -/

theorem writeProt_stays (s : State) : Stays State.sansRings drainRegs s s.writeProt := by
  unfold State.writeProt
  dsimp only
  split
  · unfold State.gwEvent State.eventEntry
    split
    · exact ((Stays.refl ..).send sansRings_blind).trans (pushEntry_stays ..)
    · exact (Stays.refl ..).send sansRings_blind
  · exact .refl ..

theorem sealDone_stays (s : State) (jid : Nat) : Stays State.sansJobs drainRegs s (s.sealDone jid) :=
  (finishJob_stays ..).trans ((writeProt_stays ..).view (fun s => { s with host := { s.host with jobs := [] } }) fun _ => rfl)

theorem sealDone_gone (s : State) (jid : Nat) : ∀ k ∈ (s.sealDone jid).host.jobs, k.id ≠ jid := by
  intro k hk
  exact finishJob_gone s jid stDone 0 k ((writeProt_stays _).get (fun s => s.host.jobs) (fun _ => rfl) ▸ hk)

/-- A package's acknowledgement is noted at the lead, and all of them. -/
def sealedNoted (s : State) (p : Nat) : State := s.updImg (fun i => { i with sealed := i.sealed.filter (· != p) ++ [p] })
def sealsCleared (s : State) : State := s.updImg (fun i => { i with quiesce := none, sealed := [] })

theorem takeSealed_cases (s : State) (p : Nat) : s.takeSealed p = sealedNoted s p ∨
    ∃ jid, s.takeSealed p = (sealsCleared (sealedNoted s p)).sealDone jid := by
  unfold State.takeSealed
  split
  next r jid h =>
    dsimp only
    split
    · exact .inr ⟨jid, rfl⟩
    · exact .inl rfl
  · exact .inl rfl

theorem mem_sealedNoted (s : State) (p q : Nat) : q ∈ (sealedNoted s p).img.sealed ↔ q = p ∨ q ∈ s.img.sealed := by
  simp only [sealedNoted, State.updImg, List.mem_append, List.mem_filter, List.mem_singleton, bne_iff_ne]
  constructor
  · rintro (⟨hq, -⟩ | rfl)
    · exact .inr hq
    · exact .inl rfl
  · rintro (rfl | hq)
    · exact .inr rfl
    · by_cases hp : q = p
      · exact .inr hp
      · exact .inl ⟨hq, hp⟩

/-- An acknowledgement that is not the last. -/
theorem takeSealed_waits {s : State} {p r jid q : Nat} (hq : s.img.quiesce = some (r, jid)) (hmem : q ∈ s.img.packages) (hne : q ≠ p)
    (hno : q ∉ s.img.sealed) : s.takeSealed p = sealedNoted s p := by
  have hall : ¬ (s.img.packages.all (sealedNoted s p).img.sealed.contains = true) := by
    intro h
    have := List.all_eq_true.mp h q hmem
    rw [List.contains_iff_mem, mem_sealedNoted] at this
    exact this.elim hne hno
  unfold State.takeSealed
  rw [hq]
  exact if_neg fun h => hall h.2

/-- The last acknowledgement (R355 step 7). -/
theorem takeSealed_last {s : State} {p r jid : Nat} (hq : s.img.quiesce = some (r, jid)) (hst : s.imageState = 3)
    (hall : ∀ q ∈ s.img.packages, q = p ∨ q ∈ s.img.sealed) : s.takeSealed p = (sealsCleared (sealedNoted s p)).sealDone jid := by
  unfold State.takeSealed
  rw [hq]
  refine if_pos ⟨hst, List.all_eq_true.mpr fun q hmem => ?_⟩
  rw [List.contains_iff_mem]
  exact (mem_sealedNoted s p q).mpr (hall q hmem)

theorem tablesSeen_takeSealed (s : State) (p : Nat) : tablesSeen (sealView (s.takeSealed p)) = tablesSeen (sealView s) := by
  rcases takeSealed_cases s p with h | ⟨jid, h⟩ <;> rw [h]
  · rfl
  · rw [seal_of_stays (sealDone_stays ..) (by decide) fun _ => rfl]
    rfl

theorem sealClause : Seal := by
  intro s lead slots sweep
  refine ⟨fun x hx hring hreg hwf => ?_, fun p jid r hq hst hwait => ?_, fun p jid r hq hst hall => ?_⟩
  · have htaken := fun gw => sealNow_tookTables hreg hwf gw slots sweep
    suffices h : ∃ t, exec (.seal none lead slots sweep) s = .next t ∧ TookTables s x t by
      obtain ⟨t, hexec, hstaged, hstate, hranks, hwarm, hid, hdigest, hsteps, hsaves⟩ := h
      exact ⟨t, hexec, hstaged, hstate, hranks, hwarm, hid, hdigest, hsteps, hsaves⟩
    show ∃ t, execSeal none lead slots sweep s = .next t ∧ _
    unfold execSeal
    dsimp only
    rw [hx]
    dsimp only
    split
    next hlead =>
      rw [if_pos (hring.resolve_left (by omega))]
      refine ⟨_, rfl, (htaken (s.stagedGw x s.pkg)).of_view ((tablesSeen_takeSealed ..).trans rfl)⟩
    · split
      · exact ⟨_, rfl, (htaken (lead % 4)).of_view rfl⟩
      · exact ⟨_, rfl, htaken (lead % 4)⟩
  · obtain ⟨q, hmem, hne, hno⟩ := hwait
    exact ⟨_, congrArg Host.Outcome.next (takeSealed_waits hq hmem hne hno), (mem_sealedNoted s p p).mpr (.inl rfl), rfl, rfl, rfl,
      memKept_of_mems rfl⟩
  · have hstays := sealDone_stays (sealsCleared (sealedNoted s p)) jid
    have himg : _ = (sealsCleared (sealedNoted s p)).img := hstays.get State.img fun _ => rfl
    exact ⟨_, congrArg Host.Outcome.next (takeSealed_last hq hst hall), congrArg Img.quiesce himg, congrArg Img.sealed himg,
      sealDone_gone _ jid, hstays.get State.cores fun _ => rfl, hstays.memKept fun _ => rfl⟩

end Sys2Proof.Claims

namespace Sys2Proof.Certificates

open Claims

/-- Settles O29: a load is a chain of states (checked, staged, heard, refused, sealed); a seal leaves the tables, step counters and image
registers that it sets at its start as they are. -/
theorem imageLoadCommands : Obligations.ImageLoadCommands :=
  ⟨imageLoad, ready, sealClause, abortAndTimeout⟩

end Sys2Proof.Certificates
end

section
/-! ## The bank lanes: tokens, claims, passes (R199 to R216, R234) -/

namespace Sys2Proof.Machine

open Claims

/-! ### A bank is read as it was written -/

theorem State.core_updLane (s : State) (g : Nat) (f : Lane → Lane) :
    (s.updLane g f).core g = { s.core g with lane := f (s.core g).lane } := State.core_updCore_self ..

theorem State.lane_updLane (s : State) (g : Nat) (f : Lane → Lane) : ((s.updLane g f).core g).lane = f (s.core g).lane := by
  rw [State.core_updLane]

theorem State.laneBank_of_job {s : State} {g : Nat} {j : LaneJob} (h : (s.core g).lane.job = some j) (b : Nat) :
    s.laneBank g b = SMap.get (fun _ => LaneBank.zero) j.banks b := by
  unfold State.laneBank
  rw [h]

theorem State.laneBank_of_none {s : State} {g : Nat} (h : (s.core g).lane.job = none) (b : Nat) : s.laneBank g b = LaneBank.zero := by
  unfold State.laneBank
  rw [h]

theorem State.job_updLaneBank {s : State} {g : Nat} {j : LaneJob} (h : (s.core g).lane.job = some j) (b : Nat) (f : LaneBank → LaneBank) :
    ((s.updLaneBank g b f).core g).lane.job = some (j.updBank b f) := by
  unfold State.updLaneBank
  rw [State.lane_updLane, h]
  rfl

theorem LaneJob.bank_updBank_self (j : LaneJob) (b : Nat) (f : LaneBank → LaneBank) :
    SMap.get (fun _ => LaneBank.zero) (j.updBank b f).banks b = f (SMap.get (fun _ => LaneBank.zero) j.banks b) := SMap.get_set_self ..

theorem LaneJob.bank_updBank_ne (j : LaneJob) {b c : Nat} (f : LaneBank → LaneBank) (h : b ≠ c) :
    SMap.get (fun _ => LaneBank.zero) (j.updBank b f).banks c = SMap.get (fun _ => LaneBank.zero) j.banks c := SMap.get_set_ne _ _ _ h

theorem State.laneBank_updLaneBank_self {s : State} {g : Nat} {j : LaneJob} (h : (s.core g).lane.job = some j) (b : Nat)
    (f : LaneBank → LaneBank) : (s.updLaneBank g b f).laneBank g b = f (s.laneBank g b) := by
  rw [State.laneBank_of_job (State.job_updLaneBank h b f), LaneJob.bank_updBank_self, State.laneBank_of_job h]

theorem State.laneBank_updLaneBank_ne {s : State} {g : Nat} {j : LaneJob} (h : (s.core g).lane.job = some j) {b c : Nat}
    (f : LaneBank → LaneBank) (hc : b ≠ c) : (s.updLaneBank g b f).laneBank g c = s.laneBank g c := by
  rw [State.laneBank_of_job (State.job_updLaneBank h b f), LaneJob.bank_updBank_ne _ _ hc, State.laneBank_of_job h]

/-- What does not touch the core leaves its lanes. -/
theorem State.laneBank_congr {s t : State} {g : Nat} (h : (t.core g).lane.job = (s.core g).lane.job) (b : Nat) :
    t.laneBank g b = s.laneBank g b := by
  unfold State.laneBank
  rw [h]

/-! ### What only one core sees -/

theorem onlyCores_updCore (s : State) (g : Nat) (f : Core → Core) : onlyCores [g] s (s.updCore g f) :=
  ⟨rfl, fun _ hh => State.core_updCore_ne s f (fun heq => hh (heq ▸ List.mem_singleton_self g))⟩

theorem onlyCores_updLane (s : State) (g : Nat) (f : Lane → Lane) : onlyCores [g] s (s.updLane g f) := by
  unfold State.updLane
  exact onlyCores_updCore ..

theorem onlyCores_updLaneBank (s : State) (g b : Nat) (f : LaneBank → LaneBank) : onlyCores [g] s (s.updLaneBank g b f) := by
  unfold State.updLaneBank
  exact onlyCores_updLane ..

theorem onlyCores_trans {L : List Nat} {s t u : State} (h : onlyCores L s t) (h' : onlyCores L t u) : onlyCores L s u := by
  obtain ⟨heq, hother⟩ := h
  obtain ⟨heq', hother'⟩ := h'
  refine ⟨?_, fun g hg => (hother' g hg).trans (hother g hg)⟩
  rw [heq', heq]

theorem coresBut_trans {L : List Nat} {s t u : State} (h : coresBut L s t) (h' : coresBut L t u) : coresBut L s u :=
  fun g hg => (h' g hg).trans (h g hg)

end Sys2Proof.Machine

namespace Sys2Proof.Claims

open Machine

/-! ### LANE_TOKEN_GRANT -/

theorem earliest_some {n : Lane} {bs : List Nat} (h : bs ≠ []) : ∃ b, n.earliest bs = some b := by
  have hfold : ∀ (f : Option Nat → Nat → Option Nat), (∀ o b, ∃ c, f o b = some c) → ∀ (l : List Nat) (o : Option Nat), l ≠ [] →
      ∃ c, l.foldl f o = some c := by
    intro f hf l
    induction l with
    | nil => exact fun _ hl => absurd rfl hl
    | cons a l ih =>
      intro o _
      cases l with
      | nil => exact hf o a
      | cons b l => exact ih _ (List.cons_ne_nil b l)
  refine hfold _ (fun o b => ?_) bs none h
  cases o with
  | none => exact ⟨b, rfl⟩
  | some a =>
    dsimp only
    split
    · exact ⟨b, rfl⟩
    · exact ⟨a, rfl⟩

/-- The allowance is in; a free token goes to the bank that waits longest. -/
def grantNext (s0 : State) (g wait : Nat) (j : LaneJob) (x : LaneDesc) : Option Nat → State
  | none => s0
  | some b => if j.tokens < tokenCap (s0.bump .laneGrantWaitCnt g wait) g x
    then (s0.bump .laneGrantWaitCnt g wait).updLaneBank g b (fun k => { k with token := true }) else s0.bump .laneGrantWaitCnt g wait

theorem exec_laneTokenGrant {s : State} {g : Nat} {j : LaneJob} (hrun : s.running g = true) (hsave : (s.core g).saveReq = false)
    (hjob : (s.core g).lane.job = some j) (units wait : Nat) : exec (.laneTokenGrant g units wait) s = .next
      (grantNext (laneAllowed s g units) g wait j ((laneAllowed s g units).laneParse g j.desc)
        ((s.core g).lane.earliest ((laneAllowed s g units).laneWaiters g j ((laneAllowed s g units).laneParse g j.desc)))) := by
  show execLaneTokenGrant g units wait s = _
  unfold execLaneTokenGrant
  rw [if_neg (by simp [hrun, hsave])]
  dsimp only
  split
  next hnone => exact absurd (hjob.symm.trans hnone) (by simp)
  next j' hj' =>
    obtain rfl : j' = j := Option.some.inj (hj'.symm.trans hjob)
    split
    next hb => exact congrArg Host.Outcome.next (congrArg (grantNext (laneAllowed s g units) g wait j' _) hb).symm
    next b hb => exact congrArg Host.Outcome.next (congrArg (grantNext (laneAllowed s g units) g wait j' _) hb).symm

theorem laneTokenGrant : LaneTokenGrant := by
  intro s s1 g units wait j x hrun hsave hjob hs1 hx
  have hexec := exec_laneTokenGrant hrun hsave hjob units wait
  rw [← hx] at hexec
  refine ⟨fun hw => ?_, fun hcap hw => ?_, fun b hcap hb => ?_⟩
  · rw [hexec, hw]
    rfl
  · obtain ⟨b, hb⟩ := earliest_some (n := (s.core g).lane) hw
    rw [hexec, hb, grantNext, if_neg (by rw [← laneGranted, ← hs1]; omega), hs1, laneGranted]
  · rw [hb, grantNext, ← laneGranted, ← hs1, if_pos hcap] at hexec
    have hjob1 : (s1.core g).lane.job = some j := by rw [hs1]; exact hjob
    have hbanks : ∀ c, s1.laneBank g c = s.laneBank g c := fun c => State.laneBank_congr (hjob1.trans hjob.symm) c
    refine ⟨_, hexec, ?_, fun c hc => ?_, ?_, ?_, ?_⟩
    · rw [State.laneBank_updLaneBank_self hjob1, hbanks]
    · rw [State.laneBank_updLaneBank_ne hjob1 _ (Ne.symm hc), hbanks]
    · rw [hs1]
      exact counted_bump (laneAllowed s g units) .laneGrantWaitCnt g wait
    · rw [hs1]
      exact SMap.get_set_self ..
    · exact onlyCores_updLaneBank ..

end Sys2Proof.Claims
end

section
namespace Sys2Proof.Claims

open Machine

/-! ### LANE_PASS_CLAIM -/

/-- The bank's lane claims its next pass set and reads it. -/
def claimNext (s : State) (g b : Nat) (errs : List (Nat × List Nat)) (j : LaneJob) (x : LaneDesc) : State :=
  if !(passSet s g b x).all (s.mayClaim g j.rcmp) then s.returnToken g b
  else if x.op = 0x43 then s.laneClaim g b x (s.passSize g x b (s.laneBank g b)) ((passSet s g b x).map (fun l => ⟨l, 0, 0, 0, List.replicate 128 0⟩))
  else match s.laneRead g errs (passSet s g b x) 0 [] with
    | .inl got =>
      if x.op = 0x42 then (s.laneClaim g b x (s.passSize g x b (s.laneBank g b)) got).boundaryRefresh g b
      else s.laneClaim g b x (s.passSize g x b (s.laneBank g b)) got
    | .inr p => (s.laneReadFail g b p.1 p.2).laneClose g

theorem exec_lanePassClaim {s : State} {g b : Nat} {j : LaneJob} {x : LaneDesc} (hx : x = s.laneParse g j.desc) (h : ClaimOk s g b j x)
    (errs : List (Nat × List Nat)) : exec (.lanePassClaim g b errs) s = .next (claimNext s g b errs j x) := by
  obtain ⟨hrun, hsave, hjob, htoken, hclaimed, hpending⟩ := h
  subst hx
  show execLanePassClaim g b errs s = _
  unfold execLanePassClaim
  rw [hjob]
  dsimp only
  rw [if_neg (by simp [hrun, hsave, htoken, hclaimed, hpending])]
  rfl

section
variable {s : State} {g : Nat} {j : LaneJob} (h : (s.core g).lane.job = some j)
include h

theorem laneClaim_claimedSet (b : Nat) (x : LaneDesc) (n : Nat) (got : List LaneLine) : (s.laneClaim g b x n got).claimedSet g b = some got := by
  have hjob := State.job_updLaneBank h b (fun k => { k with part := n, claimed := some got.length })
  have hbank := State.laneBank_updLaneBank_self h b (fun k => { k with part := n, claimed := some got.length })
  unfold State.laneClaim State.claimedSet
  generalize s.updLaneBank g b (fun k => { k with part := n, claimed := some got.length }) = t at hjob hbank ⊢
  have hlane : ((t.updLaneUnit g b fun u => { u with
      k := if x.op = 0x42 then u.k else packK x.consts, lb := got ++ u.lb.drop got.length }).core g).lane.job = (t.core g).lane.job := by
    unfold State.updLaneUnit
    rw [State.lane_updLane]
  rw [State.laneBank_congr hlane, hbank]
  unfold State.laneUnit State.updLaneUnit
  rw [State.lane_updLane]
  simp [SMap.upd]

end

theorem onlyCores_laneClaim (s : State) (g b : Nat) (x : LaneDesc) (n : Nat) (got : List LaneLine) : onlyCores [g] s (s.laneClaim g b x n got) := by
  unfold State.laneClaim State.updLaneUnit
  exact onlyCores_trans (onlyCores_updLaneBank ..) (onlyCores_updLane ..)

theorem onlyCores_mems {L : List Nat} {s t : State} (h : onlyCores L s t) : memKept s t := by
  obtain ⟨heq, -⟩ := h
  rw [heq]
  exact memKept_of_mems rfl

/-- A core with other refresh debts or locks. -/
theorem lane_updVlt (s : State) (g : Nat) (f : Vlt → Vlt) : ((s.updVlt g f).core g).lane = (s.core g).lane := by
  unfold State.updVlt
  rw [State.core_updCore_self]

theorem coresBut_updVlt (s : State) (g : Nat) (f : Vlt → Vlt) : coresBut [g] s (s.updVlt g f) := (onlyCores_updCore s g _).2

theorem boundaryRefresh_kept (s : State) (g b : Nat) : ((s.boundaryRefresh g b).core g).lane = (s.core g).lane ∧
    coresBut [g] s (s.boundaryRefresh g b) := by
  have hbump : ∀ r i n u, ((State.bump u r i n).core g).lane = (u.core g).lane := fun _ _ _ _ => rfl
  have hdebt : ∀ u n, ((State.setDebt u g b n).core g).lane = (u.core g).lane ∧ coresBut [g] u (State.setDebt u g b n) :=
    fun u n => ⟨lane_updVlt .., fun h hh => coresBut_updVlt u g _ h hh⟩
  unfold State.boundaryRefresh
  dsimp only
  split
  · exact ⟨rfl, fun _ _ => rfl⟩
  · split
    · exact hdebt (s.bump .laneRefreshHoldCnt g 1) 0
    · exact hdebt (s.bump .laneRefreshHoldCnt g 1) _

theorem claimedSet_congr {s t : State} {g : Nat} (h : (t.core g).lane = (s.core g).lane) (b : Nat) : t.claimedSet g b = s.claimedSet g b := by
  unfold State.claimedSet State.laneUnit
  rw [State.laneBank_congr (congrArg Lane.job h), h]

/-! ### A pass that is abandoned -/

/-- The lanes hold a descriptor of the running stream, and bank `b` holds no token. -/
def NoToken (s : State) (g b : Nat) : Prop :=
  ∃ j, (s.core g).lane.job = some j ∧ j.rcmp = false ∧ (SMap.get (fun _ => LaneBank.zero) j.banks b).token = false

theorem NoToken.bank {s : State} {g b : Nat} (h : NoToken s g b) : (s.laneBank g b).token = false := by
  obtain ⟨j, hj, -, htoken⟩ := h
  rwa [State.laneBank_of_job hj]

theorem NoToken.of_lane {s t : State} {g b : Nat} (h : NoToken s g b) (hl : (t.core g).lane.job = (s.core g).lane.job) : NoToken t g b := by
  unfold NoToken
  rwa [hl]

theorem NoToken.updLaneBank {s : State} {g b : Nat} (h : NoToken s g b) {f : LaneBank → LaneBank} (hf : ∀ k, (f k).token = k.token) (c : Nat) :
    NoToken (s.updLaneBank g c f) g b := by
  obtain ⟨j, hj, hr, htoken⟩ := h
  refine ⟨_, State.job_updLaneBank hj c f, hr, ?_⟩
  by_cases hc : c = b
  · subst hc
    rw [LaneJob.bank_updBank_self, hf, htoken]
  · rw [LaneJob.bank_updBank_ne _ _ hc, htoken]

theorem NoToken.wrF {s : State} {g b : Nat} (h : NoToken s g b) (r : Reg) (i k lo w v : Nat) : NoToken (s.wrF r i k lo w v) g b := h
theorem NoToken.bump {s : State} {g b : Nat} (h : NoToken s g b) (r : Reg) (i n : Nat) : NoToken (s.bump r i n) g b := h
theorem NoToken.lineRecord {s : State} {g b : Nat} (h : NoToken s g b) (v : Nat) (k : LineLock) (kind : FaultKind) (o e : Nat) :
    NoToken (s.lineRecord v k kind o e) g b := h

theorem NoToken.withhold {s : State} {g b : Nat} (h : NoToken s g b) (i : Nat) : NoToken (s.withhold i) g b := by
  refine h.of_lane ?_
  unfold State.withhold
  split
  · exact congrArg Lane.job (view_updCore Core.lane s i (fun c => { c with withhold := true }) (fun _ => rfl) g)
  · rfl

theorem NoToken.laneSettle {s : State} {g b : Nat} (h : NoToken s g b) (l : Nat) : NoToken (s.laneSettle g l false) g b := by
  have hset := h.updLaneBank (f := fun k => if k.failed = some l then { k with failed := none, stopped := k.stopped || !false } else k)
    (fun k => by split <;> rfl) (lineBank l)
  unfold State.laneSettle
  dsimp only
  rw [if_neg Bool.false_ne_true]
  refine ((NoToken.of_lane hset ?_).wrF ..).wrF .. |>.withhold g
  unfold State.updLaneBank
  rw [State.lane_updLane, State.lane_updLane]

theorem noToken_returnToken {s : State} {g : Nat} {j : LaneJob} (h : (s.core g).lane.job = some j) (hr : j.rcmp = false) (b : Nat) :
    NoToken (s.returnToken g b) g b := ⟨_, State.job_updLaneBank h b _, hr, by rw [LaneJob.bank_updBank_self]⟩

/-- An abandoned pass leaves its bank without its token (R202, R204). -/
theorem noToken_laneReadFail {s : State} {g : Nat} {j : LaneJob} (h : (s.core g).lane.job = some j) (hr : j.rcmp = false) (b l : Nat) (r : RawLine) :
    NoToken (s.laneReadFail g b l r) g b := by
  have hfailed := (noToken_returnToken h hr b).updLaneBank (f := fun k => { k with failed := some l }) (fun _ => rfl) b
  unfold State.laneReadFail
  dsimp only
  generalize (s.returnToken g b).updLaneBank g b (fun k => { k with failed := some l }) = s1 at hfailed ⊢
  split
  · unfold State.lineFail
    exact (hfailed.of_lane (congrArg Lane.job (lane_updVlt ..))).bump ..
  · split
    · exact (hfailed.lineRecord ..).laneSettle l
    · split
      · unfold State.poisonRead
        exact (((hfailed.bump ..).lineRecord ..).withhold _).laneSettle l
      · exact hfailed.laneSettle l

/-- The end of a descriptor of the running stream leaves the lanes free. -/
theorem laneClose_cases {s : State} {g : Nat} {j : LaneJob} (h : (s.core g).lane.job = some j) (hr : j.rcmp = false) :
    s.laneClose g = s ∨ ((s.laneClose g).core g).lane.job = none := by
  unfold State.laneClose
  rw [h]
  dsimp only
  split
  · right
    rw [if_neg (by simp [hr])]
    generalize (if (s.laneParse g j.desc).work && (s.laneParse g j.desc).op == 0x42 then s.digestResult g j (s.laneParse g j.desc) else s) = s1
    unfold State.descDone State.updInUnit
    rw [State.core_updCore_self]
    show ((s1.updLane g fun l => { l with job := none }).core g).lane.job = none
    rw [State.lane_updLane]
  · exact .inl rfl

theorem lanePassClaim : LanePassClaim := by
  intro s g b errs j x hx hok
  have hexec := exec_lanePassClaim hx hok errs
  obtain ⟨-, -, hjob, -⟩ := hok
  refine ⟨fun hall => ?_, fun hall => ⟨fun hop => ?_, fun got hop hgot => ?_, fun p hop hr hp => ?_⟩⟩
  · rw [claimNext, if_pos (by simp [hall])] at hexec
    refine ⟨_, hexec, ?_, onlyCores_updLaneBank ..⟩
    unfold State.returnToken
    rw [State.laneBank_updLaneBank_self hjob]
  · rw [claimNext, if_neg (by simp [hall]), if_pos hop] at hexec
    exact ⟨_, hexec, laneClaim_claimedSet hjob .., onlyCores_laneClaim ..⟩
  · rw [claimNext, if_neg (by simp [hall]), if_neg hop, hgot] at hexec
    dsimp only at hexec
    have hset := laneClaim_claimedSet hjob b x (s.passSize g x b (s.laneBank g b)) got
    have honly := onlyCores_laneClaim s g b x (s.passSize g x b (s.laneBank g b)) got
    by_cases h42 : x.op = 0x42
    · rw [if_pos h42] at hexec
      generalize s.laneClaim g b x (s.passSize g x b (s.laneBank g b)) got = t at hexec hset honly
      obtain ⟨hlane, hbut⟩ := boundaryRefresh_kept t g b
      obtain ⟨hvmem, hstg⟩ := onlyCores_mems honly
      have hmem := memKept_of_mems (State.boundaryRefresh_mems t g b)
      exact ⟨_, hexec, (claimedSet_congr hlane b).trans hset, coresBut_trans honly.2 hbut, hmem.1.trans hvmem, hmem.2.trans hstg⟩
    · rw [if_neg h42] at hexec
      exact ⟨_, hexec, hset, honly.2, onlyCores_mems honly⟩
  · rw [claimNext, if_neg (by simp [hall]), if_neg hop, hp] at hexec
    have hno := noToken_laneReadFail hjob hr b p.1 p.2
    refine ⟨_, hexec, ?_⟩
    show (((s.laneReadFail g b p.1 p.2).laneClose g).laneBank g b).token = false
    generalize s.laneReadFail g b p.1 p.2 = t at hno ⊢
    obtain ⟨j', hj', hr', -⟩ := id hno
    rcases laneClose_cases hj' hr' with hclose | hclose
    · rw [hclose]
      exact hno.bank
    · rw [State.laneBank_of_none hclose]
      rfl

end Sys2Proof.Claims
end

section
/-! ### Lines stored and read back (R164 to R166) -/

namespace Sys2Proof.Machine

open Claims

theorem leBytes_lt (n v : Nat) : ∀ b ∈ leBytes n v, b < 256 := by
  induction n generalizing v with
  | zero => simp [leBytes]
  | succ n ih =>
    simp only [leBytes, List.mem_cons, forall_eq_or_imp]
    exact ⟨Nat.mod_lt _ (by decide), ih _⟩

theorem leNat_leBytes (n v : Nat) : leNat (leBytes n v) = v % 256 ^ n := by
  induction n generalizing v with
  | zero => simp [leBytes, leNat, Nat.mod_one]
  | succ n ih => rw [leBytes, leNat, ih, Nat.pow_succ', Nat.mod_mul]

theorem bytesNat_natBytes {bs : List Nat} (h : ∀ b ∈ bs, b < 256) : bytesNat (natBytes bs) = bs := by
  unfold bytesNat natBytes
  rw [List.map_map]
  exact (List.map_congr_left fun b hb => by simp [Nat.mod_eq_of_lt (h b hb)]).trans (List.map_id bs)

theorem crcBits_lt (n : Nat) {c : Nat} (h : c < 2 ^ 32) : crcBits n c < 2 ^ 32 := by
  induction n generalizing c with
  | zero => exact h
  | succ n ih =>
    unfold crcBits
    refine ih ?_
    split
    · exact Nat.xor_lt_two_pow (by omega) (by decide)
    · omega

theorem crcStep_lt (bs : List Nat) {c : Nat} (h : c < 2 ^ 32) : crcStep c bs < 2 ^ 32 := by
  induction bs generalizing c with
  | nil => exact h
  | cons b bs ih => exact ih (crcBits_lt 8 (Nat.xor_lt_two_pow h (by omega)))

theorem lineCrc_lt (data : List Nat) (tag : Nat) : lineCrc data tag < 2 ^ 32 :=
  Nat.xor_lt_two_pow (crcStep_lt _ (by decide)) (by decide)

/-- The 136 bytes of a line. -/
def RawLine.bytes (r : RawLine) : List Nat := r.data.take 128 ++ leBytes 4 r.crc ++ leBytes 2 r.tag ++ [r.flags % 256, r.flagsN % 256]

theorem rawAt_putRaw (s : State) (k : Nat) {r : RawLine} (hlen : r.data.length = 128) (hdata : ∀ b ∈ r.data, b < 256) (hcrc : r.crc < 2 ^ 32)
    (htag : r.tag < 2 ^ 16) (hflags : r.flags < 256) (hflagsN : r.flagsN < 256) : (s.putRaw k r).rawAt k = r := by
  have hbytes : r.bytes.length = 136 := by simp [RawLine.bytes, leBytes_length, hlen]
  have hlt : ∀ b ∈ r.bytes, b < 256 := by
    simp only [RawLine.bytes, List.mem_append, List.mem_cons, List.not_mem_nil, or_false]
    rintro b (((hb | hb) | hb) | hb | hb)
    · exact hdata b (List.mem_of_mem_take hb)
    · exact leBytes_lt _ _ b hb
    · exact leBytes_lt _ _ b hb
    · omega
    · omega
  have hrange : SMap.getRange vmemDefault (s.putRaw k r).vmem k 136 = natBytes r.bytes := by
    rw [SMap.getRange_eq]
    refine List.ext_getElem (by simp [natBytes, hbytes]) fun i h1 h2 => ?_
    rw [List.getElem_map, List.getElem_range]
    exact SMap.get_setRange_in _ _ _ _ _ h2
  unfold State.rawAt
  dsimp only
  rw [hrange, bytesNat_natBytes hlt]
  obtain ⟨data, crc, tag, flags, flagsN⟩ := r
  dsimp only at *
  have hshort : (data.take 128).drop 132 = [] := List.drop_eq_nil_of_le (by simp)
  have hcrc' : crc < 4294967296 := hcrc
  have htag' : tag < 65536 := htag
  simp [RawLine.bytes, hlen, List.drop_append, leBytes_length, hshort, leNat_leBytes, hcrc', htag', hflags, hflagsN]

/-- A stored line changes its own bytes. -/
theorem vaultsBut_putRaw (s : State) (k : Nat) {r : RawLine} (hlen : r.data.length = 128) : vaultsBut k 136 s (s.putRaw k r) := by
  have hbytes : (natBytes r.bytes).length = 136 := by simp [natBytes, RawLine.bytes, leBytes_length, hlen]
  intro a ha
  exact SMap.get_setRange_out vmemDefault s.vmem k (natBytes r.bytes) a (by rwa [hbytes])

/-! ### Places of lines (R176, R177) -/

theorem State.rdF_of_rd {s t : State} {r : Reg} {i k : Nat} (h : t.rd r i k = s.rd r i k) (lo w : Nat) : t.rdF r i k lo w = s.rdF r i k lo w := by
  unfold State.rdF
  rw [h]

theorem State.lineKey_congr {s t : State} (hretire : ∀ g n, t.rd .vltRetire g n = s.rd .vltRetire g n)
    (hremap : ∀ g n, t.rd .vltRemap g n = s.rd .vltRemap g n) (g l : Nat) : t.lineKey g l = s.lineKey g l := by
  have hpage : ∀ k p, t.retirePage g k p = s.retirePage g k p := by
    intro k
    induction k with
    | zero => exact fun _ => rfl
    | succ k ih =>
      intro p
      unfold State.retirePage State.rdF
      simp only [hretire, ih]
  have hmap : t.retireMap g l = s.retireMap g l := by
    unfold State.retireMap
    rw [hpage]
  have hentry : ∀ l', t.remapEntry g l' = s.remapEntry g l' := fun l' => by
    unfold State.remapEntry State.rdF
    simp only [hremap]
  unfold State.lineKey
  simp only [hmap, hentry, State.rdF_of_rd (hremap g _)]

/-! ### What a write of a page touches -/

theorem ctrlStore_cores (s : State) (g l k : Nat) (r : RawLine) : (s.ctrlStore g l k r).cores = s.cores := by
  unfold State.ctrlStore
  split <;> rfl

theorem ctrlRead_cores (s : State) (g l : Nat) : (s.ctrlRead g l).1.cores = s.cores := by
  unfold State.ctrlRead
  split <;> rfl

theorem checkedRead_cores (s : State) (g l : Nat) : (s.checkedRead g l).1.cores = s.cores := by
  have hread := ctrlRead_cores s g l
  unfold State.checkedRead
  dsimp only
  split
  · exact hread
  · split
    · rw [State.lineRecord, State.queue_cores, State.bump_cores, State.bump_cores, hread]
    · rw [State.bump_cores, hread]

theorem copyPage_cores (s : State) (g p q : Nat) : (s.copyPage g p q).cores = s.cores := by
  unfold State.copyPage
  refine view_forUpTo (e := State.cores) (fun i s => ?_) ..
  have hread := checkedRead_cores s g (p * 2 ^ 14 + i)
  dsimp only
  split
  · exact (ctrlStore_cores ..).trans hread
  · exact (ctrlStore_cores ..).trans hread

theorem notePageCopied_cores (s : State) (g p n : Nat) : (s.notePageCopied g p n).cores = s.cores := rfl

theorem snapCopy_cores (s : State) (g p : Nat) : (s.snapCopy g p).cores = s.cores := by
  unfold State.snapCopy
  split
  · rw [notePageCopied_cores, State.bump_cores, copyPage_cores]
  · rfl

theorem frameWrite_cores (s : State) (g p : Nat) : (s.frameWrite g p).cores = s.cores := by
  unfold State.frameWrite
  split <;> rfl

theorem noteWrite_cores (s : State) (g l : Nat) : (s.noteWrite g l).cores = s.cores :=
  (frameWrite_cores ..).trans (snapCopy_cores ..)

theorem frameWrite_vmem (s : State) (g p : Nat) : (s.frameWrite g p).vmem = s.vmem := by
  unfold State.frameWrite
  split <;> rfl

theorem snapCopy_unguarded {s : State} {g p : Nat} (h : s.guarded g p = false) : s.snapCopy g p = s := by
  unfold State.snapCopy
  rw [h]

end Sys2Proof.Machine

end

section
namespace Sys2Proof.Claims

open Machine

/-! ### LANE_PASS_WRITE -/

theorem laneLineStored : LaneLineStored := by
  intro s g j x got o hguard hlen hdata htag hno
  have hnote : s.noteWrite g o.line = s.frameWrite g (linePage o.line) := by
    unfold State.noteWrite
    rw [snapCopy_unguarded hguard]
  have hstays := frameWrite_stays s g (linePage o.line)
  have hvmem := frameWrite_vmem s g (linePage o.line)
  have hout : j.outLine x got o = freshLine o.data j.tag (if o.merged then 3 else 1) := by
    unfold LaneJob.outLine
    rw [if_neg (by simp [hno])]
  have hflags : (if o.merged then 3 else 1) < 256 := by split <;> decide
  unfold State.laneStore
  rw [hnote, hout]
  generalize s.frameWrite g (linePage o.line) = t at hstays hvmem ⊢
  generalize hf : (if o.merged then 3 else 1) = flags at hflags ⊢
  have hkey : (t.putRaw (s.lineKey g o.line) (freshLine o.data j.tag flags)).lineKey g o.line = s.lineKey g o.line :=
    State.lineKey_congr (fun g n => hstays.rd .vltRetire g n (by decide)) (fun g n => hstays.rd .vltRemap g n (by decide)) g o.line
  have hread := rawAt_putRaw t (s.lineKey g o.line) (r := freshLine o.data j.tag flags) hlen hdata (lineCrc_lt ..)
    (Nat.mod_lt _ (by decide)) hflags (by show 255 - flags < 256; omega)
  refine ⟨?_, ?_⟩
  · unfold lineHolds State.rawLine
    rw [hkey, hread]
    refine ⟨rfl, Nat.mod_eq_of_lt htag, rfl, ?_⟩
    have htag' : j.tag % 65536 = j.tag := Nat.mod_eq_of_lt htag
    simp [RawLine.ok, freshLine, htag']
  · have hbut := vaultsBut_putRaw t (s.lineKey g o.line) (r := freshLine o.data j.tag flags) hlen
    unfold vaultsBut at hbut ⊢
    rwa [hvmem] at hbut

/-- The write phase after its lines are stored (R205, R213, R234, R235): skews, counts, buffers. -/
def passCounted (s1 : State) (g b : Nat) (j : LaneJob) (x : LaneDesc) (got : List LaneLine) (r : PassOut) (master : Bool) : State :=
  let s2 := forEach r.skews (fun q s => s.tagSkew g j x b master q) (s1.bump .coreTagGateCnt g r.gated)
  let counts := (j.counts.zip (r.counts ++ List.replicate 3 Census.zero)).map (fun p => p.1.add p.2)
  let computes := x.op == 0x40 || x.op == 0x41
  let s3 := { s2.laneCarry g j x counts with freeIx := s2.freeIx + (if computes then 64 else 0) }
  let s4 := s3.updLaneUnit g b (fun u => { u with
    acc := if computes then s2.laneAccs else u.acc
    lb := (u.lb.take got.length).map (j.outBuffer x got r.outs) ++ u.lb.drop got.length })
  s4.updLane g (fun l => { l with job := l.job.map (fun j =>
    { j.updBank b (fun k => { k with written := true }) with counts := counts }) })

theorem exec_lanePassWrite {s : State} {g b : Nat} {j : LaneJob} {x : LaneDesc} {got : List LaneLine} {r : PassOut}
    (hx : x = s.laneParse g j.desc) (hr : r = s.passCompute g j x b (s.laneBank g b) got) (hjob : (s.core g).lane.job = some j)
    (hset : s.claimedSet g b = some got) (hw : (s.laneBank g b).written = false) (hop : x.op ≠ 0x42) (hup : s.vaultUp g = true)
    (hheld : r.outs.filter (fun o => s.snapHeld g (linePage o.line)) = []) : exec (.lanePassWrite g b) s =
      .next (passCounted (forEach r.outs (fun o s => s.laneStore g j x got o) s) g b j x got r (s.laneBank g b).master) := by
  subst hx hr
  show execLanePassWrite g b s = _
  unfold execLanePassWrite
  rw [hjob]
  dsimp only
  rw [hset]
  dsimp only
  rw [if_neg (by simp [hw, hop, hup]), hheld, if_neg (by simp)]
  rfl

/-- Nothing of the state: what is said of it is of registers alone. -/
def noView (_ : State) : Unit := ()
theorem noView_blind : Blind noView := fun _ _ _ => rfl

theorem stays_noView {α : Type} {e : State → α} {L : List Reg} {s t : State} (h : Stays e L s t) : Stays noView L s t :=
  h.view (fun _ => ()) fun _ => rfl

/-- A vault's lanes have a descriptor in hand. -/
def hasJob (s : State) (g : Nat) : Bool := (s.core g).lane.job.isSome

theorem laneStore_stays (s : State) (g : Nat) (j : LaneJob) (x : LaneDesc) (got : List LaneLine) (o : LaneWrite) :
    Stays vaultView vltRegs s (s.laneStore g j x got o) := (noteWrite_stays ..).trans (putRaw_stays ..)

theorem laneStore_cores (s : State) (g : Nat) (j : LaneJob) (x : LaneDesc) (got : List LaneLine) (o : LaneWrite) :
    (s.laneStore g j x got o).cores = s.cores := noteWrite_cores ..

/-- The registers of a tag skew. -/
def skewRegs : List Reg := [.coreTagSkewCnt, .laneStatus]

theorem withhold_hasJob (s : State) (i g : Nat) : hasJob (s.withhold i) g = hasJob s g := by
  unfold State.withhold
  split
  · exact congrArg (fun l : Lane => l.job.isSome) (view_updCore Core.lane s i (fun c => { c with withhold := true }) (fun _ => rfl) g)
  · rfl

theorem hasJob_wr (s : State) (r : Reg) (i k v g : Nat) : hasJob (s.wr r i k v) g = hasJob s g := rfl
theorem hasJob_wrF (s : State) (r : Reg) (i k lo w v g : Nat) : hasJob (s.wrF r i k lo w v) g = hasJob s g := rfl

theorem updLaneBank_hasJob (s : State) (g b : Nat) (f : LaneBank → LaneBank) : hasJob (s.updLaneBank g b f) g = hasJob s g := by
  unfold hasJob State.updLaneBank
  rw [State.lane_updLane, Option.isSome_map]

theorem tagSkew_hasJob (s : State) (g : Nat) (j : LaneJob) (x : LaneDesc) (b : Nat) (m : Bool) (k : Nat × List Nat) :
    hasJob (s.tagSkew g j x b m k) g = hasJob s g := by
  unfold State.tagSkew
  dsimp only
  rw [withhold_hasJob, hasJob_wrF, hasJob_wrF, updLaneBank_hasJob]
  rfl

theorem tagSkew_stays (s : State) (g : Nat) (j : LaneJob) (x : LaneDesc) (b : Nat) (m : Bool) (k : Nat × List Nat) :
    Stays vaultView skewRegs s (s.tagSkew g j x b m k) := by
  unfold State.tagSkew State.updLaneBank
  dsimp only
  have hcount : Stays vaultView skewRegs s (s.bump .coreTagSkewCnt g 1) := (Stays.refl ..).wr vaultView_blind (by decide)
  exact ((((hcount.trans (queue_stays ..)).trans (updLane_stays ..)).wr vaultView_blind (by decide)).wr vaultView_blind (by decide)).trans
    (withhold_stays ..)

theorem carryTotals_stays (s : State) (g : Nat) (eval : Bool) (old : Census) (k : CensusSet) :
    Stays vaultView [.cnsTot] s (s.carryTotals g eval old k) := by
  unfold State.carryTotals
  refine stays_forEach (fun p s => ?_) ..
  split
  · exact .refl ..
  · exact (Stays.refl ..).wr vaultView_blind (by decide)

theorem laneCarry_stays (s : State) (g : Nat) (j : LaneJob) (x : LaneDesc) (counts : List Census) :
    Stays vaultView [.cnsTot] s (s.laneCarry g j x counts) := by
  unfold State.laneCarry
  split
  · exact .refl ..
  · exact stays_forEach (fun _ _ => carryTotals_stays ..) ..

theorem laneCarry_hasJob (s : State) (g : Nat) (j : LaneJob) (x : LaneDesc) (counts : List Census) :
    hasJob (s.laneCarry g j x counts) g = hasJob s g := by
  unfold State.laneCarry State.carryTotals
  split
  · rfl
  · refine view_forEach (e := fun s => hasJob s g) (fun p s => view_forEach (e := fun s => hasJob s g) (fun q s => ?_) ..) ..
    split
    · rfl
    · unfold State.addTot
      exact hasJob_wr ..

/-- A pass stands written, with the counts of its descriptor. -/
def markWritten (s : State) (g b : Nat) (counts : List Census) : State := s.updLane g (fun l => { l with job := l.job.map (fun j =>
  { j.updBank b (fun k => { k with written := true }) with counts := counts }) })

theorem markWritten_written {s : State} {g : Nat} (h : hasJob s g = true) (b : Nat) (counts : List Census) :
    ((markWritten s g b counts).laneBank g b).written = true := by
  obtain ⟨j, hj⟩ := Option.isSome_iff_exists.mp h
  have hjob : ((markWritten s g b counts).core g).lane.job =
      some { j.updBank b (fun k => { k with written := true }) with counts := counts } := by
    unfold markWritten
    rw [State.lane_updLane, hj]
    rfl
  rw [State.laneBank_of_job hjob]
  exact (congrArg LaneBank.written (j.bank_updBank_self b fun k => { k with written := true })).trans rfl

/-- The counts of a pass, and its buffers (R190, R213). -/
def passTotals (s : State) (g b : Nat) (j : LaneJob) (x : LaneDesc) (got : List LaneLine) (outs : List LaneWrite) (counts : List Census) : State :=
  let computes := x.op == 0x40 || x.op == 0x41
  ({ s.laneCarry g j x counts with freeIx := s.freeIx + (if computes then 64 else 0) } : State).updLaneUnit g b (fun u => { u with
    acc := if computes then s.laneAccs else u.acc
    lb := (u.lb.take got.length).map (j.outBuffer x got outs) ++ u.lb.drop got.length })

theorem passTotals_spec (s : State) (g b : Nat) (j : LaneJob) (x : LaneDesc) (got : List LaneLine) (outs : List LaneWrite)
    (counts : List Census) : hasJob (passTotals s g b j x got outs counts) g = hasJob s g ∧ (passTotals s g b j x got outs counts).mems = s.mems ∧
      ∀ r i k, r ≠ .cnsTot → (passTotals s g b j x got outs counts).rd r i k = s.rd r i k := by
  have hjob := laneCarry_hasJob s g j x counts
  have hmem := State.laneCarry_mems s g j x counts
  have hregs := laneCarry_stays s g j x counts
  unfold passTotals State.updLaneUnit hasJob
  dsimp only
  generalize s.laneCarry g j x counts = u at hjob hmem hregs ⊢
  refine ⟨?_, (State.updLane_mems ..).trans hmem, fun r i k hr => hregs.rd r i k (by simpa using hr)⟩
  rw [State.lane_updLane]
  exact hjob

/-- What the write phase leaves beside its lines, its counts and its buffers. -/
theorem passCounted_spec {s1 : State} {g : Nat} (hjob : hasJob s1 g = true) (b : Nat) (j : LaneJob) (x : LaneDesc) (got : List LaneLine)
    (r : PassOut) (master : Bool) : ((passCounted s1 g b j x got r master).laneBank g b).written = true ∧
      (passCounted s1 g b j x got r master).mems = s1.mems ∧ counted .coreTagGateCnt g r.gated s1 (passCounted s1 g b j x got r master) := by
  have hskews := stays_forEach (f := fun q s => s.tagSkew g j x b master q) (fun _ _ => tagSkew_stays ..) r.skews (s1.bump .coreTagGateCnt g r.gated)
  have hjob2 := view_forEach (e := fun s => hasJob s g) (f := fun q s => s.tagSkew g j x b master q) (fun _ _ => tagSkew_hasJob ..) r.skews
    (s1.bump .coreTagGateCnt g r.gated)
  have hmem2 := forEach_mems (f := fun q s => s.tagSkew g j x b master q) (fun _ _ => State.tagSkew_mems ..) r.skews
    (s1.bump .coreTagGateCnt g r.gated)
  have hgate := counted_bump s1 .coreTagGateCnt g r.gated
  obtain ⟨hjob3, hmem3, hregs3⟩ := passTotals_spec (forEach r.skews (fun q s => s.tagSkew g j x b master q) (s1.bump .coreTagGateCnt g r.gated))
    g b j x got r.outs ((j.counts.zip (r.counts ++ List.replicate 3 Census.zero)).map (fun p => p.1.add p.2))
  show ((markWritten (passTotals _ g b j x got r.outs _) g b _).laneBank g b).written = true ∧
    (markWritten (passTotals _ g b j x got r.outs _) g b _).mems = _ ∧
    (markWritten (passTotals _ g b j x got r.outs _) g b _).rd .coreTagGateCnt g 0 = _
  refine ⟨markWritten_written ((hjob3.trans hjob2).trans hjob) .., ?_, ?_⟩
  · exact (State.updLane_mems ..).trans (hmem3.trans (hmem2.trans (State.bump_mems ..)))
  · exact (hregs3 .coreTagGateCnt g 0 (by decide)).trans ((hskews.rd .coreTagGateCnt g 0 (by decide)).trans hgate)

theorem lanePassWrite : LanePassWrite := by
  intro s g b j x got r hx hr hjob hset hw hop hup hheld
  have hexec := exec_lanePassWrite hx hr hjob hset hw hop hup hheld
  have hstores := stays_forEach (f := fun o s => s.laneStore g j x got o) (fun _ _ => laneStore_stays ..) r.outs s
  have hcores := view_forEach (e := State.cores) (f := fun o s => s.laneStore g j x got o) (fun _ _ => laneStore_cores ..) r.outs s
  have hjob1 : hasJob (forEach r.outs (fun o s => s.laneStore g j x got o) s) g = true := by
    unfold hasJob State.core
    rw [hcores]
    exact congrArg Option.isSome hjob
  obtain ⟨hwritten, hmem, hgate⟩ := passCounted_spec hjob1 b j x got r (s.laneBank g b).master
  refine ⟨_, hexec, hwritten, State.vmem_of_mems hmem, ?_, ?_⟩
  · exact (State.stg_of_mems hmem).trans (hstores.toVault.get State.stg fun _ => rfl)
  · unfold counted at hgate ⊢
    rwa [hstores.rd .coreTagGateCnt g 0 (by decide)] at hgate

end Sys2Proof.Claims
end

section
namespace Sys2Proof.Claims

open Machine

/-! ### LANE_PASS_BOUNDARY -/

theorem updCore_noView (L : List Reg) (s : State) (g : Nat) (f : Core → Core) : Stays noView L s (s.updCore g f) :=
  ⟨rfl, fun _ _ _ _ => rfl, List.prefix_rfl, fun h => SMap.wf_set _ g _ h⟩

theorem updVlt_noView (L : List Reg) (s : State) (g : Nat) (f : Vlt → Vlt) : Stays noView L s (s.updVlt g f) := updCore_noView ..

/-- Registers that a descriptor of the lanes may change as it ends: those of its result's write. -/
def closeRegs : List Reg := .hubAddrViolCnt :: .coreAddrViolCnt :: .tierViolCnt :: vltRegs

theorem writeAt_stays (s : State) (src a : Nat) (bs : List Nat) (tag : Nat) (rcmp : Bool) :
    Stays noView closeRegs s (s.writeAt src a bs tag rcmp) := by
  have hlines : Stays noView closeRegs s (s.writeLines src a bs tag rcmp) := by
    unfold State.writeLines
    refine stays_forEach (fun p u => ?_) ..
    split
    · exact (stays_noView (vltRequest_stays ..)).mono (by decide)
    · split
      · exact viol_stays (by decide) _ _ _ _ _ _ rfl
      · exact .refl ..
  unfold State.writeAt
  split
  · exact .refl ..
  · split
    · exact hlines
    · exact .of_eq rfl rfl rfl rfl
    · exact viol_stays (by decide) _ _ _ _ _ _ rfl
    · split
      · exact viol_stays (by decide) _ _ _ _ _ _ rfl
      · exact viol_stays (by decide) _ _ _ _ _ _ rfl
    · exact .refl ..

theorem digestResult_stays (s : State) (g : Nat) (j : LaneJob) (x : LaneDesc) : Stays noView closeRegs s (s.digestResult g j x) := by
  unfold State.digestResult
  split
  · exact .refl ..
  · split
    · exact .refl ..
    · exact writeAt_stays ..

theorem rcmpDone_stays (s : State) (g : Nat) : Stays noView closeRegs s (s.rcmpDone g) := by
  unfold State.rcmpDone
  split
  · refine Stays.trans ?_ (updCore_noView ..)
    split
    · unfold State.updLock
      exact updVlt_noView ..
    · exact .refl ..
  · exact .refl ..

theorem laneClose_stays (s : State) (g : Nat) : Stays noView closeRegs s (s.laneClose g) := by
  unfold State.laneClose
  split
  · exact .refl ..
  next j hj =>
    dsimp only
    split
    · have hresult : Stays noView closeRegs s (if (s.laneParse g j.desc).work && (s.laneParse g j.desc).op == 0x42
          then s.digestResult g j (s.laneParse g j.desc) else s) := by
        split
        · exact digestResult_stays ..
        · exact .refl ..
      split
      · exact (hresult.trans (stays_noView (updLane_stays ..))).trans (rcmpDone_stays ..)
      · unfold State.descDone State.updInUnit
        exact (hresult.trans (stays_noView (updLane_stays ..))).trans (updCore_noView ..)
    · exact .refl ..

theorem boundaryRefresh_stays (s : State) (g b : Nat) :
    Stays noView [.laneRefreshHoldCnt, .vltRefreshForcedCnt] s (s.boundaryRefresh g b) := by
  have hhold : Stays noView [.laneRefreshHoldCnt, .vltRefreshForcedCnt] s (s.bump .laneRefreshHoldCnt g 1) :=
    (Stays.refl ..).wr noView_blind (by decide)
  unfold State.boundaryRefresh State.setDebt
  dsimp only
  split
  · exact .refl ..
  · split
    · exact (hhold.trans (updVlt_noView ..)).wr noView_blind (by decide)
    · exact hhold.trans (updVlt_noView ..)

/-- The pass and the cycles of its token are counted. -/
def passSeen (s : State) (g cyc : Nat) : State := (s.bump .lanePassCnt g 1).bump .laneActCycCnt g cyc

theorem passSeen_counted (s : State) (g cyc : Nat) : counted .lanePassCnt g 1 s (passSeen s g cyc) ∧
    counted .laneActCycCnt g cyc s (passSeen s g cyc) := by
  have hcyc := counted_bump (s.bump .lanePassCnt g 1) .laneActCycCnt g cyc
  have hpass := counted_bump s .lanePassCnt g 1
  have hcyc0 := State.rd_bump_ne s (r := .lanePassCnt) (r' := .laneActCycCnt) (by decide) g 1 g 0
  have hpass1 := State.rd_bump_ne (s.bump .lanePassCnt g 1) (r := .laneActCycCnt) (r' := .lanePassCnt) (by decide) g cyc g 0
  unfold counted passSeen at *
  rw [hcyc0] at hcyc
  exact ⟨hpass1.trans hpass, hcyc⟩

/-- The token returns, the set is released, and the bank stands before its next items (R199, R202, R203). -/
def passReleased (s : State) (g b : Nat) (x : LaneDesc) : State :=
  (((s.updLaneBank g b (fun k => { k.advance x with waiting := [] })).returnToken g b).passEnded g b)

theorem passReleased_job {s : State} {g : Nat} {j : LaneJob} (h : (s.core g).lane.job = some j) (b : Nat) (x : LaneDesc) :
    ∃ j', ((passReleased s g b x).core g).lane.job = some j' ∧ j'.rcmp = j.rcmp ∧
      (SMap.get (fun _ => LaneBank.zero) j'.banks b).token = false ∧ (SMap.get (fun _ => LaneBank.zero) j'.banks b).claimed = none ∧
      (SMap.get (fun _ => LaneBank.zero) j'.banks b).next = ((s.laneBank g b).advance x).next := by
  have hjob := State.job_updLaneBank (State.job_updLaneBank h b (fun k => { k.advance x with waiting := [] })) b
    (fun k => { k with token := false, claimed := none, written := false, waits := false })
  refine ⟨_, (?_ : ((passReleased s g b x).core g).lane.job = _).trans hjob, rfl, ?_⟩
  · unfold passReleased State.passEnded
    rw [State.lane_updLane]
    rfl
  · rw [LaneJob.bank_updBank_self, LaneJob.bank_updBank_self, State.laneBank_of_job h]
    exact ⟨rfl, rfl, rfl⟩

theorem passReleased_stays (s : State) (g b : Nat) (x : LaneDesc) : Stays noView [] s (passReleased s g b x) := by
  unfold passReleased State.passEnded State.returnToken State.updLaneBank
  exact stays_noView (((updLane_stays ..).trans (updLane_stays ..)).trans (updLane_stays [] ..))

/-- What follows a pass of a bank: DIGEST's hash, the release, the debt of refreshes. -/
def passOver (s : State) (g b cyc : Nat) (x : LaneDesc) (h : List Nat) : State :=
  let s1 := if x.op = 0x42 then (passSeen s g cyc).updLaneUnit g b (fun u => { u with k := h }) else passSeen s g cyc
  if x.op = 0x42 then passReleased s1 g b x else (passReleased s1 g b x).boundaryRefresh g b

theorem exec_lanePassBoundary {s : State} {g b : Nat} {j : LaneJob} {x : LaneDesc} {got : List LaneLine} (hx : x = s.laneParse g j.desc)
    (hjob : (s.core g).lane.job = some j) (hset : s.claimedSet g b = some got) (hw : (s.laneBank g b).written = true ∨ x.op = 0x42)
    (hwait : (s.laneBank g b).waiting = []) (cyc : Nat) : ∃ h, exec (.lanePassBoundary g b cyc) s = .next ((passOver s g b cyc x h).laneClose g) := by
  subst hx
  refine ⟨packK (got.foldl (fun h l => hashLine h l.data) (s.bankHash g b)), ?_⟩
  show execLanePassBoundary g b cyc s = _
  unfold execLanePassBoundary
  rw [hjob]
  dsimp only
  rw [hset]
  dsimp only
  rw [if_neg (by rcases hw with hw | hw <;> simp [hw]), hwait]
  rfl

theorem passOver_spec {s : State} {g : Nat} {j : LaneJob} (h : (s.core g).lane.job = some j) (b cyc : Nat) (x : LaneDesc) (hs : List Nat) :
    (∃ j', ((passOver s g b cyc x hs).core g).lane.job = some j' ∧ j'.rcmp = j.rcmp ∧
      (SMap.get (fun _ => LaneBank.zero) j'.banks b).token = false ∧ (SMap.get (fun _ => LaneBank.zero) j'.banks b).claimed = none ∧
      (SMap.get (fun _ => LaneBank.zero) j'.banks b).next = ((s.laneBank g b).advance x).next) ∧
    Stays noView [.laneRefreshHoldCnt, .vltRefreshForcedCnt] (passSeen s g cyc) (passOver s g b cyc x hs) := by
  have hseen : ((passSeen s g cyc).core g).lane.job = some j := h
  have hbank : (passSeen s g cyc).laneBank g b = s.laneBank g b := State.laneBank_congr (hseen.trans h.symm) b
  unfold passOver
  rw [← hbank]
  generalize passSeen s g cyc = u at hseen ⊢
  by_cases hop : x.op = 0x42
  · simp only [hop, if_true]
    have hunit : ((u.updLaneUnit g b fun q => { q with k := hs }).core g).lane.job = some j := by
      unfold State.updLaneUnit
      rw [State.lane_updLane]
      exact hseen
    rw [← State.laneBank_congr (hunit.trans hseen.symm) b]
    refine ⟨passReleased_job hunit b x, ?_⟩
    unfold State.updLaneUnit
    exact ((stays_noView (updLane_stays ..)).trans (passReleased_stays ..)).mono (List.nil_subset _)
  · simp only [hop, if_false]
    obtain ⟨hlane, -⟩ := boundaryRefresh_kept (passReleased u g b x) g b
    rw [hlane]
    exact ⟨passReleased_job hseen b x, ((passReleased_stays u g b x).mono (List.nil_subset _)).trans (boundaryRefresh_stays ..)⟩

theorem lanePassBoundary : LanePassBoundary := by
  intro s g b cyc j x got hx hjob hset hw hwait
  obtain ⟨hs, hexec⟩ := exec_lanePassBoundary hx hjob hset hw hwait cyc
  obtain ⟨⟨j1, hj1, hr1, htoken, hclaimed, hnext⟩, hover⟩ := passOver_spec hjob b cyc x hs
  obtain ⟨hpass, hcyc⟩ := passSeen_counted s g cyc
  generalize passOver s g b cyc x hs = t at hexec hj1 hover
  have hclose := laneClose_stays t g
  refine ⟨_, hexec, ?_, ?_, fun j' hr hj' => ?_⟩
  · exact (hclose.rd .lanePassCnt g 0 (by decide)).trans ((hover.rd .lanePassCnt g 0 (by decide)).trans hpass)
  · exact (hclose.rd .laneActCycCnt g 0 (by decide)).trans ((hover.rd .laneActCycCnt g 0 (by decide)).trans hcyc)
  · rcases laneClose_cases hj1 (hr1.trans hr) with hsame | hnone
    · rw [hsame, State.laneBank_of_job hj1]
      exact ⟨htoken, hclaimed, hnext⟩
    · exact absurd (hj'.symm.trans hnone) (by simp)

end Sys2Proof.Claims

namespace Sys2Proof.Certificates

/-- Settles O15: a bank of the lanes is read as it was written, a stored line is read back, and what ends a pass touches neither its
counters nor the banks of a descriptor that goes on. -/
theorem lanePassCommands : Obligations.LanePassCommands :=
  ⟨Claims.laneTokenGrant, Claims.lanePassClaim, Claims.lanePassWrite, Claims.laneLineStored, Claims.lanePassBoundary⟩

end Sys2Proof.Certificates
end

section
/-! ## Logs of the hub, the sweep and the clocks

The tails of the rings (R76, R521), the sweep (R523), the violation log (R520, R521), correlation and clock measurement (R500, R501). -/

namespace Sys2Proof.Machine

open Claims

/-! ### Registers and runs of bytes -/

/-- A register after a write: the value at the key that was written, what it held at every other key. -/
theorem State.rd_wr (s : State) (r : Reg) (i k v : Nat) (r' : Reg) (i' k' : Nat) :
    (s.wr r i k v).rd r' i' k' = if regKey r i k = regKey r' i' k' then v % 2 ^ 64 else s.rd r' i' k' := by
  unfold State.rd State.wr
  rw [SMap.get_set]
  split
  · exact BitVec.toNat_ofNat v 64
  · rfl

theorem State.rdF_wr_ne (s : State) {r r' : Reg} (h : r ≠ r') (i k v i' k' lo w : Nat) :
    (s.wr r i k v).rdF r' i' k' lo w = s.rdF r' i' k' lo w := congrArg (bitsOf · lo w) (s.rd_wr_ne h i k v i' k')

@[simp] theorem State.rd_updHub (s : State) (f : Hub → Hub) (r : Reg) (i k : Nat) : (s.updHub f).rd r i k = s.rd r i k := rfl
@[simp] theorem State.rdF_updHub (s : State) (f : Hub → Hub) (r : Reg) (i k lo w : Nat) :
    (s.updHub f).rdF r i k lo w = s.rdF r i k lo w := rfl

/-- A field and the bit above it. -/
theorem bitsOf_succ_width (n lo w : Nat) : bitsOf n lo (w + 1) = bitsOf n lo w + 2 ^ w * bitsOf n (lo + w) 1 := by
  unfold bitsOf
  rw [Nat.mod_pow_succ, Nat.div_div_eq_div_mul, ← Nat.pow_add, Nat.pow_one]

/-- Runs of one length, end to end, are found again by their places. -/
theorem flatMap_drop_take {α β : Type} {f : α → List β} {n : Nat} (hf : ∀ a, (f a).length = n) {l : List α} {j : Nat} {a : α}
    (h : l[j]? = some a) : ((l.flatMap f).drop (n * j)).take n = f a := by
  induction l generalizing j with
  | nil => cases h
  | cons b l ih =>
    rw [List.flatMap_cons]
    cases j with
    | zero =>
      obtain rfl : b = a := by simpa using h
      exact List.take_left' (hf b)
    | succ j =>
      rw [Nat.mul_succ, Nat.add_comm, ← List.drop_drop, List.drop_left' (hf b)]
      exact ih (by simpa using h)

theorem flatMap_length {α β : Type} {f : α → List β} {n : Nat} (hf : ∀ a, (f a).length = n) (l : List α) :
    (l.flatMap f).length = n * l.length := by
  simp [List.length_flatMap, hf, Nat.mul_comm]

end Sys2Proof.Machine

namespace Sys2Proof.Claims

open Machine

/-! ### States that differ in registers alone -/

theorem eq_with_regs_trans {s t u : State} (h : t = { s with regs := t.regs }) (h' : u = { t with regs := u.regs }) :
    u = { s with regs := u.regs } := h'.trans (congrArg (fun x : State => { x with regs := u.regs }) h)

theorem updHub_of_eq_with_regs {s t : State} (h : t = { s with regs := t.regs }) (f : Hub → Hub) :
    t.updHub f = { s with regs := t.regs, hub := f s.hub } := congrArg (State.updHub · f) h

theorem onlyRegs.mono {K L : List Nat} {s t : State} (h : onlyRegs K s t) (hKL : K ⊆ L) : onlyRegs L s t := ⟨h.1, h.2.mono hKL⟩

theorem onlyRegs.wr {L : List Nat} {s t : State} (h : onlyRegs L s t) {r : Reg} {i k : Nat} (v : Nat) (hm : regKey r i k ∈ L) :
    onlyRegs L s (t.wr r i k v) := ⟨eq_with_regs_trans h.1 rfl, h.2.wr v hm⟩

theorem onlyRegs.wrF {L : List Nat} {s t : State} (h : onlyRegs L s t) {r : Reg} {i k : Nat} (lo w v : Nat) (hm : regKey r i k ∈ L) :
    onlyRegs L s (t.wrF r i k lo w v) := h.wr _ hm

/-! ### Tails (R76, R521) -/

theorem exec_cnsRingTail {s : State} (hpwr : s.pwrState ≠ 0) {g : Nat} (hg : g < 128) (v : Nat) :
    exec (.cnsRingTail g v) s = .next (s.wr .cnsRingTail g 0 (v % 2 ^ 20)) :=
  congrArg Host.Outcome.next (if_neg (by omega))

theorem exec_hubVlogTail {s : State} (hpwr : s.pwrState ≠ 0) (v : Nat) :
    exec (.hubVlogTail v) s = .next (s.wr .hubVlogTail 0 0 (v % 2 ^ 16)) :=
  congrArg Host.Outcome.next (if_neg hpwr)

theorem ringTails : RingTails := by
  intro s g v hpwr
  refine ⟨fun hg => ⟨_, exec_cnsRingTail hpwr hg v, ?_, onlyRegs_wr ..⟩, _, exec_hubVlogTail hpwr v, ?_, onlyRegs_wr ..⟩
  · exact s.rd_wr_of_lt _ _ _ (by omega)
  · exact s.rd_wr_of_lt _ _ _ (by omega)

/-! ### The sweep (R523) -/

/-- A counter or total that a sweep skips: that of a core in Dark. -/
def sweepSkips (s : State) (p : Nat × Reg × Nat × Nat) : Bool := p.2.1.desc.sub.inCore && s.coreState p.2.2.1 == 3

/-- The counters and totals that a sweep reads. -/
def sweptRegs (s : State) : List (Nat × Reg × Nat × Nat) := sweepRegs.filter (fun p => !sweepSkips s p)

/-- The entry of a counter or total: its offset, zero, its value. -/
def sweepEntry (s : State) (p : Nat × Reg × Nat × Nat) : List Nat :=
  leBytes 4 p.1 ++ [0, 0, 0, 0] ++ leBytes 8 (s.rd p.2.1 p.2.2.1 p.2.2.2)

/-- The header of a sweep that read `n` registers and skipped `skipped`. -/
def sweepHead (s : State) (n skipped : Nat) : List Nat :=
  leBytes 8 s.hubTime ++ leBytes 8 s.hubTime ++ leBytes 8 (s.rd .hubImageId 0 0) ++ leBytes 8 (s.core s.lowCore).step
    ++ leBytes 4 n ++ leBytes 4 skipped ++ [s.pkg] ++ List.replicate 23 0

/-- A counter is cleared, a total is not. -/
def clearCounter (p : Nat × Reg × Nat × Nat) (s : State) : State := if p.2.1.isCnt then s.wr p.2.1 p.2.2.1 p.2.2.2 0 else s

def clearCounters (rs : List (Nat × Reg × Nat × Nat)) (s : State) : State := forEach rs clearCounter s

theorem sweepEntry_length (s : State) (p : Nat × Reg × Nat × Nat) : (sweepEntry s p).length = 16 := by
  simp [sweepEntry, leBytes_length]

theorem sweepHead_length (s : State) (n skipped : Nat) : (sweepHead s n skipped).length = 64 := by
  simp [sweepHead, leBytes_length]

/-- Bytes 32 to 39 of the header count the entries and what was skipped. -/
theorem sweepHead_counts (s : State) (n skipped : Nat) :
    ((sweepHead s n skipped).drop 32).take 8 = leBytes 4 n ++ leBytes 4 skipped := by
  simp [sweepHead, leBytes_length, List.drop_append, List.take_append, List.drop_eq_nil_of_le]

theorem skipped_length (s : State) : (sweepRegs.filter (sweepSkips s)).length = sweepRegs.length - (sweptRegs s).length :=
  (Nat.sub_eq_of_eq_add (List.length_eq_length_filter_add (sweepSkips s))).symm

theorem clearCounters_eq (rs : List (Nat × Reg × Nat × Nat)) (s : State) :
    clearCounters rs s = { s with regs := (clearCounters rs s).regs } := by
  induction rs generalizing s with
  | nil => rfl
  | cons p rs ih =>
    have hstep : clearCounter p s = { s with regs := (clearCounter p s).regs } := by
      unfold clearCounter
      split <;> rfl
    exact eq_with_regs_trans hstep (ih _)

/-- A register that reads zero goes on reading zero. -/
theorem rd_clearCounters_zero {s : State} {r : Reg} {i k : Nat} (h : s.rd r i k = 0) (rs : List (Nat × Reg × Nat × Nat)) :
    (clearCounters rs s).rd r i k = 0 := by
  induction rs generalizing s with
  | nil => exact h
  | cons p rs ih =>
    refine ih ?_
    unfold clearCounter
    split
    · rw [State.rd_wr, h, Nat.zero_mod, ite_self]
    · exact h

theorem rd_clearCounters_cnt {rs : List (Nat × Reg × Nat × Nat)} {p : Nat × Reg × Nat × Nat} (hp : p ∈ rs) (hc : p.2.1.isCnt = true)
    (s : State) : (clearCounters rs s).rd p.2.1 p.2.2.1 p.2.2.2 = 0 := by
  induction rs generalizing s with
  | nil => cases hp
  | cons q rs ih =>
    rcases List.mem_cons.mp hp with rfl | hp
    · refine rd_clearCounters_zero ?_ rs
      rw [clearCounter, if_pos hc, State.rd_wr_self, Nat.zero_mod]
    · exact ih hp _

/-- A total is no counter, and stays. -/
theorem rd_clearCounters_total {r : Reg} (hr : r.isCnt = false) (i k : Nat) (rs : List (Nat × Reg × Nat × Nat)) (s : State) :
    (clearCounters rs s).rd r i k = s.rd r i k := by
  induction rs generalizing s with
  | nil => rfl
  | cons p rs ih =>
    refine (ih _).trans ?_
    unfold clearCounter
    split
    · next hp => exact s.rd_wr_ne (by rintro rfl; exact absurd hp (by simp [hr])) ..
    · rfl

theorem sweepOk_vault {s : State} {g b : Nat} (h : locOf (s.rd .hubSweepAddr 0 0) = .vault g b) :
    s.sweepOk = true ↔ addrPkg (s.rd .hubSweepAddr 0 0) = s.pkg ∧ b + 64 + 16 * 32768 ≤ 2 ^ 33 := by
  unfold State.sweepOk
  rw [Bool.and_eq_true, beq_iff_eq]
  refine and_congr_right fun _ => ?_
  rw [h]
  exact decide_eq_true_iff

theorem sweepOk_elsewhere {s : State} (h : addrPkg (s.rd .hubSweepAddr 0 0) ≠ s.pkg) : s.sweepOk = false :=
  Bool.and_eq_false_iff.mpr (.inl (beq_false_of_ne h))

section Exec
variable {s : State} (hpwr : s.pwrState ≠ 0)
include hpwr

theorem exec_sweep_busy (hbusy : s.hub.sweeping ≠ none) (clear : Bool) :
    exec (.sweep clear) s = .next (s.regReject (Reg.hubSweepCtl.offset 0 0)) :=
  congrArg Host.Outcome.next ((if_neg hpwr).trans (if_pos (Option.isSome_iff_ne_none.mpr hbusy)))

theorem exec_sweep_free (hfree : s.hub.sweeping = none) (clear : Bool) : exec (.sweep clear) s = .next (s.sweep clear) :=
  congrArg Host.Outcome.next ((if_neg hpwr).trans (if_neg (by simp [hfree])))

end Exec

theorem sweep_refused {s : State} (h : s.sweepOk = false) (clear : Bool) : s.sweep clear = s.wr .hubSweepStatus 0 0 6 :=
  if_pos (by rw [h]; rfl)

theorem sweep_taken {s : State} (h : s.sweepOk = true) (clear : Bool) :
    s.sweep clear = (((if clear then clearCounters (sweptRegs s) s else s).writeAt hubIsland (s.rd .hubSweepAddr 0 0 + 64)
      ((sweptRegs s).flatMap (sweepEntry s)) (s.stepTag s.lowCore) false).writeAt hubIsland (s.rd .hubSweepAddr 0 0)
      (sweepHead s (sweptRegs s).length (sweepRegs.length - (sweptRegs s).length)) (s.stepTag s.lowCore) false).wr
      .hubSweepStatus 0 0 2 := by
  rw [← skipped_length]
  exact if_neg (by simp [h])

theorem sweep : Sweep := by
  intro s clear a g b hpwr ha
  subst ha
  refine ⟨fun hbusy => ?_, fun hfree hloc hroom hpkg => ?_, fun hfree hbad => ?_⟩
  · obtain ⟨hcount, hframe, hcores, hmem⟩ := viol_counts s .hubRegWriteRejCnt 0 0xFF 0xFFFFFFFF 0xFF (Reg.hubSweepCtl.offset 0 0)
    exact ⟨_, exec_sweep_busy hpwr hbusy clear, hcount, hframe, State.viol_hub .., hcores, hmem⟩
  · have hok : s.sweepOk = true := (sweepOk_vault hloc).mpr ⟨hpkg, hroom⟩
    refine ⟨_, if clear then clearCounters (sweptRegs s) s else s, sweptRegs s, _, _,
      (exec_sweep_free hpwr hfree clear).trans (congrArg _ (sweep_taken hok clear)), rfl, sweepHead_length .., sweepHead_counts ..,
      flatMap_length (sweepEntry_length s) _, fun j p => flatMap_drop_take (sweepEntry_length s), rfl, ?_, ?_⟩
    · rintro rfl
      rfl
    · rintro rfl
      rw [if_pos rfl]
      refine ⟨clearCounters_eq .., fun p hp => ?_⟩
      split
      · next hc => exact rd_clearCounters_cnt hp hc s
      · next hc => exact rd_clearCounters_total (Bool.eq_false_iff.mpr hc) ..
  · have hok : s.sweepOk = false := by
      rcases hbad with hpkg | ⟨hloc, hlong⟩
      · exact sweepOk_elsewhere hpkg
      · rw [← Bool.not_eq_true, sweepOk_vault hloc]
        omega
    refine ⟨_, (exec_sweep_free hpwr hfree clear).trans (congrArg _ (sweep_refused hok clear)), ?_, onlyRegs_wr ..⟩
    exact s.rd_wr_of_lt _ _ _ (by decide)

/-! ### The violation log (R520, R521) -/

/-- The open entries without that of a counter and an island. -/
def closedViol (s : State) (c i : Nat) : State := { s with viols := s.viols.filter (fun x => !(x.counter == c && x.island == i)) }

theorem exec_vlogEntryClose {s : State} {c i : Nat} {v : OpenViol}
    (hv : s.viols.find? (fun x => x.counter == c && x.island == i) = some v) :
    exec (.vlogEntryClose c i) s = .next ((closedViol s c i).logEntry v) := by
  show execVlogEntryClose c i s = _
  simp only [execVlogEntryClose, hv]
  rfl

section LogEntry
variable {s : State} (v : OpenViol) {n h : Nat} (hn : s.rdF .hubVlogSize 0 0 0 17 = n) (hh : s.rdF .hubVlogHead 0 0 0 16 = h)
  (hsize : n ≠ 0)
include hn hh hsize

theorem logEntry_full (hfull : (h + 1) % n = s.rdF .hubVlogTail 0 0 0 16) : s.logEntry v = s.bump .hubVlogDropCnt 0 1 := by
  subst hn hh
  exact (if_neg hsize).trans (if_pos hfull)

theorem logEntry_room (hroom : (h + 1) % n ≠ s.rdF .hubVlogTail 0 0 0 16) :
    s.logEntry v = (s.writeAt hubIsland (s.rd .hubVlogBase 0 0 + 32 * h) v.bytes (s.stepTag s.lowCore) false).wr
      .hubVlogHead 0 0 ((h + 1) % n) := by
  subst hn hh
  exact (if_neg hsize).trans (if_neg hroom)

end LogEntry

theorem vlogEntryClose : VlogEntryClose := by
  intro s c i n h v hv hn hh hsize
  have hlt : (h + 1) % n < 2 ^ 64 := by
    have hnlt : n < 2 ^ 17 := hn ▸ bitsOf_lt ..
    have := Nat.mod_lt (h + 1) (Nat.pos_of_ne_zero hsize)
    omega
  refine ⟨fun hroom => ?_, fun hfull => ?_⟩
  · refine ⟨_, closedViol s c i, (exec_vlogEntryClose hv).trans
      (congrArg _ (logEntry_room (s := closedViol s c i) v hn.symm hh.symm hsize hroom)), ?_, rfl, rfl⟩
    exact State.rd_wr_of_lt _ _ _ _ hlt
  · exact ⟨_, (exec_vlogEntryClose hv).trans (congrArg _ (logEntry_full (s := closedViol s c i) v hn.symm hh.symm hsize hfull)),
      counted_bump s _ 0 1, regsBut_wr s _ _ _ _, rfl, rfl⟩

/-! ### Correlation (R500) -/

theorem corrIsland_of_lt (s : State) {i : Nat} (hi : i < 168) : s.corrIsland i = s.wrF .hubTsCorrCtl 0 0 0 8 i := by
  unfold State.corrIsland
  rw [if_neg (by omega), Nat.min_eq_right (by omega)]

/-- ISLAND and BUSY set, T0 recorded. -/
def corrAsked (s : State) (i : Nat) : State :=
  ((s.wrF .hubTsCorrCtl 0 0 0 8 i).wrF .hubTsCorrCtl 0 0 9 2 1).wr .hubTsCorrT0 0 0 s.hubTime

theorem onlyRegs_corrAsked (s : State) (i : Nat) :
    onlyRegs [regKey .hubTsCorrCtl 0 0, regKey .hubTsCorrT0 0 0] s (corrAsked s i) :=
  (((onlyRegs_refl _ s).wrF _ _ _ (by simp)).wrF _ _ _ (by simp)).wr _ (by simp)

theorem corrAsked_island (s : State) {i : Nat} (hi : i < 168) : (corrAsked s i).rdF .hubTsCorrCtl 0 0 0 8 = i := by
  rw [corrAsked, State.rdF_wr_ne _ (by decide), State.rdF_wrF_ne _ _ _ _ _ (by decide) (by decide),
    State.rdF_wrF_self _ _ _ _ (by decide)]
  omega

theorem corrAsked_busy (s : State) (i : Nat) : (corrAsked s i).rdF .hubTsCorrCtl 0 0 9 2 = 1 := by
  rw [corrAsked, State.rdF_wr_ne _ (by decide), State.rdF_wrF_self _ _ _ _ (by decide)]
  rfl

theorem corrAsked_t0 (s : State) (i : Nat) : (corrAsked s i).rd .hubTsCorrT0 0 0 = s.hubTime :=
  State.rd_wr_of_lt _ _ _ _ (s.rd_lt ..)

section Go
variable {s : State} (hpwr : s.pwrState ≠ 0) {i : Nat} (hi : i < 168)
include hpwr hi

theorem exec_tsCorrGo : exec (.tsCorrGo i) s = .next (s.corrGo i) := by
  have hcut : exec (.tsCorrGo i) s = .next (s.corrGo (i % 256)) := congrArg Host.Outcome.next (if_neg hpwr)
  rw [hcut, Nat.mod_eq_of_lt (by omega)]

theorem exec_tsCorrGo_free (hfree : (s.rd .hubTsCorrCtl 0 0).testBit 9 = false) :
    exec (.tsCorrGo i) s = .next ((corrAsked s i).updHub (fun h => { h with corr := some (i, s.hubTime) })) := by
  rw [exec_tsCorrGo hpwr hi, State.corrGo, corrIsland_of_lt s hi, Nat.min_eq_right (show i ≤ 167 by omega)]
  exact congrArg Host.Outcome.next (if_neg (by rw [State.corrBusy, hfree]; decide))

theorem exec_tsCorrGo_busy (hbusy : (s.rd .hubTsCorrCtl 0 0).testBit 9 = true) :
    exec (.tsCorrGo i) s = .next ((s.wrF .hubTsCorrCtl 0 0 0 8 i).regReject (Reg.hubTsCorrCtl.offset 0 0)) := by
  rw [exec_tsCorrGo hpwr hi, State.corrGo, corrIsland_of_lt s hi]
  exact congrArg Host.Outcome.next (if_pos hbusy)

end Go

/-- No correlation is in progress. -/
def corrGone (s : State) : State := s.updHub (fun h => { h with corr := none })

/-- The correlation in progress is over, BUSY and VALID clear. -/
def corrOver (s : State) : State := (corrGone s).wrF .hubTsCorrCtl 0 0 9 2 0

theorem onlyRegs_corrOver (s : State) : onlyRegs [regKey .hubTsCorrCtl 0 0] (corrGone s) (corrOver s) := onlyRegs_wr ..

/-- The correlation in progress has taken the island's count, and VALID is set. -/
def corrTaken (s : State) (t0 count : Nat) : State :=
  (((corrOver s).wrF .hubTsCorrCtl 0 0 10 1 1).wr .hubTsCorrIsl 0 0 (count % 2 ^ 64)).wr .hubTsCorrT1 0 0
    (s.hubTime % 2 ^ 48 + min 0xFFFF ((s.hubTime - t0) / 2) * 2 ^ 48)

theorem onlyRegs_corrTaken (s : State) (t0 count : Nat) :
    onlyRegs [regKey .hubTsCorrCtl 0 0, regKey .hubTsCorrIsl 0 0, regKey .hubTsCorrT1 0 0] (corrGone s) (corrTaken s t0 count) :=
  ((((onlyRegs_refl _ (corrGone s)).wrF _ _ _ (by simp)).wrF _ _ _ (by simp)).wr _ (by simp)).wr _ (by simp)

theorem exec_tsCorrSample {s : State} {i t0 : Nat} (h : s.hub.corr = some (i, t0)) (count : Nat) :
    exec (.tsCorrSample count) s = .next (s.corrEnd i t0 count) := by
  show execTsCorrSample count s = _
  rw [execTsCorrSample, h]

theorem corrEnd_dark {s : State} {i : Nat} (hdark : s.islandDark i = true) (t0 count : Nat) : s.corrEnd i t0 count = corrOver s :=
  if_pos hdark

theorem corrEnd_live {s : State} {i : Nat} (hlive : s.islandDark i = false) (t0 count : Nat) :
    s.corrEnd i t0 count = corrTaken s t0 count :=
  if_neg (by simp [hlive])

/-- VALID set on a register whose BUSY and VALID are clear. -/
theorem rdF_valid {s : State} (h : s.rdF .hubTsCorrCtl 0 0 9 2 = 0) :
    (s.wrF .hubTsCorrCtl 0 0 10 1 1).rdF .hubTsCorrCtl 0 0 9 2 = 2 := by
  have hsplit : ∀ t : State, t.rdF .hubTsCorrCtl 0 0 9 2 = t.rdF .hubTsCorrCtl 0 0 9 1 + 2 * t.rdF .hubTsCorrCtl 0 0 10 1 :=
    fun t => bitsOf_succ_width _ 9 1
  have hvalid : (s.wrF .hubTsCorrCtl 0 0 10 1 1).rdF .hubTsCorrCtl 0 0 10 1 = 1 := s.rdF_wrF_self _ _ _ (by decide) 1
  have hbusy : (s.wrF .hubTsCorrCtl 0 0 10 1 1).rdF .hubTsCorrCtl 0 0 9 1 = s.rdF .hubTsCorrCtl 0 0 9 1 :=
    s.rdF_wrF_ne _ _ _ 1 (by decide) (by decide)
  rw [hsplit] at h ⊢
  omega

theorem tsCorr : TsCorr := by
  intro s i t0 count
  refine ⟨fun hpwr hfree hi => ?_, fun hpwr hbusy hi => ?_, fun hcorr => ⟨fun hlive => ?_, fun hdark => ?_⟩⟩
  · obtain ⟨hrest, hframe⟩ := onlyRegs_corrAsked s i
    exact ⟨_, exec_tsCorrGo_free hpwr hi hfree, rfl, (State.rdF_updHub ..).trans (corrAsked_island s hi),
      (State.rdF_updHub ..).trans (corrAsked_busy s i), (State.rd_updHub ..).trans (corrAsked_t0 s i),
      updHub_of_eq_with_regs hrest _, hframe.of_regs rfl⟩
  · obtain ⟨hcount, hframe, hcores, hmem⟩ := viol_counts (s.wrF .hubTsCorrCtl 0 0 0 8 i) .hubRegWriteRejCnt 0 0xFF 0xFFFFFFFF 0xFF
      (Reg.hubTsCorrCtl.offset 0 0)
    have hctl : ∀ lo w, ((s.wrF .hubTsCorrCtl 0 0 0 8 i).regReject (Reg.hubTsCorrCtl.offset 0 0)).rdF .hubTsCorrCtl 0 0 lo w
        = (s.wrF .hubTsCorrCtl 0 0 0 8 i).rdF .hubTsCorrCtl 0 0 lo w :=
      fun lo w => congrArg (bitsOf · lo w) (hframe.rd_ne (by decide) 0 0)
    refine ⟨_, exec_tsCorrGo_busy hpwr hi hbusy, ?_, ?_, ?_, ?_, State.viol_hub .., hcores, hmem⟩
    · rwa [counted, State.rd_wrF_ne _ (by decide)] at hcount
    · rw [hctl, State.rdF_wrF_self _ _ _ _ (by decide)]
      omega
    · rw [hctl, State.rdF_wrF_ne _ _ _ _ _ (by decide) (by decide)]
    · exact ((regsBut_refl _ s).wr _ (by simp)).trans (hframe.mono (by simp))
  · have hover : (corrOver s).rdF .hubTsCorrCtl 0 0 9 2 = 0 := State.rdF_wrF_self _ _ _ _ (by decide) 0
    have hctl : ∀ lo w, (corrTaken s t0 count).rdF .hubTsCorrCtl 0 0 lo w
        = ((corrOver s).wrF .hubTsCorrCtl 0 0 10 1 1).rdF .hubTsCorrCtl 0 0 lo w := fun lo w =>
      (State.rdF_wr_ne _ (by decide) ..).trans (State.rdF_wr_ne _ (by decide) ..)
    obtain ⟨hrest, hframe⟩ := onlyRegs_corrTaken s t0 count
    refine ⟨_, (exec_tsCorrSample hcorr count).trans (congrArg _ (corrEnd_live hlive t0 count)), congrArg (·.hub.corr) hrest,
      ?_, ?_, ?_, ?_, hrest, hframe⟩
    · rw [hctl, rdF_valid hover]
    · rw [hctl, State.rdF_wrF_ne _ _ _ _ _ (by decide) (by decide)]
      exact State.rdF_wrF_ne _ _ _ _ _ (by decide) (by decide)
    · refine (State.rd_wr_ne _ (by decide) ..).trans ?_
      rw [State.rd_wr_self, Nat.mod_mod]
    · exact State.rd_wr_of_lt _ _ _ _ (by omega)
  · obtain ⟨hrest, hframe⟩ := onlyRegs_corrOver s
    exact ⟨_, (exec_tsCorrSample hcorr count).trans (congrArg _ (corrEnd_dark hdark t0 count)), rfl,
      State.rdF_wrF_self _ _ _ _ (by decide) 0, hrest, hframe⟩

/-! ### The islands' clocks (R500, R501) -/

theorem islandDark_of_rd {s t : State} (h : ∀ k, t.rd .pwrCoreState 0 k = s.rd .pwrCoreState 0 k) (i : Nat) :
    t.islandDark i = s.islandDark i := by
  unfold State.islandDark State.coreState State.rdF
  rw [h]

/-- The last two samples of an island once a count arrives. -/
def nextSamples (s : State) (counts : List Nat) (i : Nat) : List (Nat × Nat × Nat) :=
  ((s.hubTime, counts.getD i 0, SMap.get (fun _ => 0) s.pwr.freq i) :: s.samplesOf i).take 2

/-- An island is sampled, a Dark one apart. -/
def sampleIsland (counts : List Nat) (i : Nat) (s : State) : State :=
  if s.islandDark i then s
  else s.updHub (fun h => { h with samples := SMap.set (fun _ => []) h.samples i (nextSamples s counts i) })

theorem exec_tlmCorrelation {s : State} (hpwr : s.pwrState ≠ 0) (counts : List Nat) :
    exec (.tlmCorrelation counts) s = .next (forUpTo 168 (sampleIsland counts) s) :=
  congrArg Host.Outcome.next (if_neg hpwr)

theorem samplesOf_set (s : State) (i : Nat) (x : List (Nat × Nat × Nat)) (j : Nat) :
    (s.updHub (fun h => { h with samples := SMap.set (fun _ => []) h.samples i x })).samplesOf j
      = if i = j then x else s.samplesOf j := SMap.get_set ..

/-- The islands below `n` have been sampled, and nothing but samples has changed. -/
theorem forUpTo_sampleIsland (counts : List Nat) (n : Nat) (s : State) :
    (∀ i, (forUpTo n (sampleIsland counts) s).samplesOf i
      = if i < n ∧ s.islandDark i = false then nextSamples s counts i else s.samplesOf i) ∧
    forUpTo n (sampleIsland counts) s
      = { s with hub := { s.hub with samples := (forUpTo n (sampleIsland counts) s).hub.samples } } := by
  induction n with
  | zero => exact ⟨fun i => (if_neg (by omega)).symm, rfl⟩
  | succ n ih =>
    rw [forUpTo]
    generalize forUpTo n (sampleIsland counts) s = t at ih
    obtain ⟨hsamples, hrest⟩ := ih
    have hdark : t.islandDark n = s.islandDark n := by rw [hrest]; rfl
    have hnext : nextSamples t counts n = nextSamples s counts n := by
      rw [nextSamples, nextSamples, hsamples, if_neg (by omega), hrest]
      rfl
    rw [sampleIsland, hdark, hnext]
    cases h : s.islandDark n with
    | true =>
      refine ⟨fun i => ?_, hrest⟩
      by_cases hi : i = n
      · rw [if_pos rfl, hsamples, hi, h, if_neg (by simp), if_neg (by simp)]
      · have hbelow : i < n + 1 ↔ i < n := by omega
        simp only [if_true, hsamples, hbelow]
    | false =>
      refine ⟨fun i => ?_, ?_⟩
      · rw [if_neg (by decide), samplesOf_set]
        by_cases hi : n = i
        · rw [if_pos hi, ← hi, h, if_pos ⟨by omega, rfl⟩]
        · have hbelow : i < n + 1 ↔ i < n := by omega
          simp only [if_neg hi, hsamples, hbelow]
      · rw [if_neg (by decide), hrest]
        rfl

theorem tlmCorrelation {s : State} (hpwr : s.pwrState ≠ 0) (counts : List Nat) :
    ∃ t : State, exec (.tlmCorrelation counts) s = .next t ∧
    (∀ i, i < 168 → t.samplesOf i = if s.islandDark i then s.samplesOf i else nextSamples s counts i) ∧
    t = { s with hub := { s.hub with samples := t.hub.samples } } := by
  obtain ⟨hsamples, hrest⟩ := forUpTo_sampleIsland counts 168 s
  refine ⟨_, exec_tlmCorrelation hpwr counts, fun i hi => ?_, hrest⟩
  rw [hsamples]
  cases s.islandDark i <;> simp [hi]

/-- The mean frequency that HUB_CLK_MEAS shows of an island. -/
def meanShown (s : State) (means : List Nat) (i : Nat) : Nat := if s.islandDark i then 0 else min 0xFFF (means.getD i 0)

/-- The keys of HUB_CLK_MEAS below an island. -/
def clkKeys (n : Nat) : List Nat := (List.range n).map (fun i => regKey .hubClkMeas 0 i)

theorem meanShown_lt (s : State) (means : List Nat) (i : Nat) : meanShown s means i < 2 ^ 64 := by
  unfold meanShown
  split <;> omega

theorem mem_clkKeys {i n : Nat} (h : i < n) : regKey .hubClkMeas 0 i ∈ clkKeys n :=
  List.mem_map_of_mem (List.mem_range.mpr h)

theorem clkKeys_subset (n : Nat) : clkKeys n ⊆ clkKeys (n + 1) := by
  rw [clkKeys, clkKeys, List.range_succ, List.map_append]
  exact List.subset_append_left ..

theorem coreState_not_clkKeys (n k : Nat) : regKey .pwrCoreState 0 k ∉ clkKeys n := by
  intro h
  obtain ⟨i, -, hi⟩ := List.mem_map.mp h
  exact regKey_ne (by decide) 0 i 0 k hi

theorem exec_clkMeasWindow {s : State} (hpwr : s.pwrState ≠ 0) (means : List Nat) :
    exec (.clkMeasWindow means) s = .next (forUpTo 168 (fun i s => s.wr .hubClkMeas 0 i (meanShown s means i)) s) :=
  congrArg Host.Outcome.next (if_neg hpwr)

/-- The means of the islands below `n` are shown, and no other register has changed. -/
theorem forUpTo_meanShown (means : List Nat) (s : State) {n : Nat} (hn : n ≤ 168) :
    (∀ i, i < n → (forUpTo n (fun i s => s.wr .hubClkMeas 0 i (meanShown s means i)) s).rd .hubClkMeas 0 i = meanShown s means i) ∧
    onlyRegs (clkKeys n) s (forUpTo n (fun i s => s.wr .hubClkMeas 0 i (meanShown s means i)) s) := by
  induction n with
  | zero => exact ⟨fun i hi => absurd hi (by omega), onlyRegs_refl ..⟩
  | succ n ih =>
    rw [forUpTo]
    generalize forUpTo n (fun i s => s.wr .hubClkMeas 0 i (meanShown s means i)) s = t at ih
    obtain ⟨hshown, honly⟩ := ih (by omega)
    have hmean : meanShown t means n = meanShown s means n := by
      rw [meanShown, meanShown, islandDark_of_rd fun k => honly.2.rd (coreState_not_clkKeys n k)]
    rw [hmean]
    refine ⟨fun i hi => ?_, (honly.mono (clkKeys_subset n)).wr _ (mem_clkKeys (by omega))⟩
    by_cases hin : i = n
    · rw [hin, State.rd_wr_of_lt _ _ _ _ (meanShown_lt ..)]
    · rw [State.rd_wr_key _ _ (regKey_ne_at (by omega)), hshown i (by omega)]

theorem clocks : Clocks := by
  intro s vs hpwr
  obtain ⟨hshown, honly⟩ := forUpTo_meanShown vs s (le_refl 168)
  exact ⟨tlmCorrelation hpwr vs, _, exec_clkMeasWindow hpwr vs, hshown, honly⟩

end Sys2Proof.Claims

namespace Sys2Proof.Certificates

/-- Settles O49, one lemma for each of its statements. -/
theorem logAndTimeCommands : Obligations.LogAndTimeCommands :=
  ⟨Claims.ringTails, Claims.sweep, Claims.vlogEntryClose, Claims.tsCorr, Claims.clocks⟩

end Sys2Proof.Certificates
end

section
/-! ## The accumulators of a matrix product (R86, R88, R89, R92) -/

namespace Sys2Proof.Machine

theorem HngDesc.cols_le (x : HngDesc) (tj : Nat) : x.cols tj ≤ 128 := Nat.min_le_left ..

/-- Rows `[0, n)` of a tile, each written as one run of `w` values from key `128 * r` on. -/
def tileRows (w n : Nat) (f : Nat → Nat → Nat) : SMap Nat :=
  (List.range n).foldl (fun m r => SMap.setRange (fun _ => 0) m (128 * r) ((List.range w).map (f r))) []

theorem HngDesc.mapAcc_eq (x : HngDesc) (ti tj : Nat) (acc : SMap Nat) (f : Nat → Nat → Nat → Nat) :
    x.mapAcc ti tj acc f = tileRows (x.cols tj) (x.rows ti) (fun r c => f r c (SMap.get (fun _ => 0) acc (128 * r + c))) := rfl

/-- A row no wider than 128 does not reach into the next one. -/
theorem get_tileRows {w n r l : Nat} (hw : w ≤ 128) (f : Nat → Nat → Nat) (hr : r < n) (hl : l < w) :
    SMap.get (fun _ => 0) (tileRows w n f) (128 * r + l) = f r l := by
  induction n with
  | zero => omega
  | succ n ih =>
    have hlen : ((List.range w).map (f n)).length = w := by simp
    rw [tileRows, List.range_succ, List.foldl_append]
    by_cases hlast : r = n
    · subst hlast
      exact (SMap.get_setRange_in _ _ _ _ l (by omega)).trans (by simp)
    · exact (SMap.get_setRange_out _ _ _ _ _ (.inl (by omega))).trans (ih (by omega))

/-- The element of a bank that was given a new value for each element of its tile. -/
theorem HngDesc.get_mapAcc (x : HngDesc) {ti tj r l : Nat} (acc : SMap Nat) (f : Nat → Nat → Nat → Nat) (hr : r < x.rows ti)
    (hl : l < x.cols tj) :
    SMap.get (fun _ => 0) (x.mapAcc ti tj acc f) (128 * r + l) = f r l (SMap.get (fun _ => 0) acc (128 * r + l)) := by
  rw [HngDesc.mapAcc_eq]
  exact get_tileRows (x.cols_le tj) _ hr hl

end Sys2Proof.Machine

namespace Sys2Proof.Claims

open Machine

theorem matrixElement : MatrixElement := by
  intro s g x j ti tj c r l acc hr hl
  unfold State.computeChunk
  exact x.get_mapAcc acc _ hr hl

theorem matrixElementStart : MatrixElementStart := by
  intro s g x ti tj r l hr hl
  unfold State.loadTile
  split
  · exact x.get_mapAcc [] _ hr hl
  · rfl

end Sys2Proof.Claims

namespace Sys2Proof.Certificates

/-- Settles O9: the rows of a tile lie apart in a bank, so each element of `mapAcc` is read as it was computed. -/
theorem matrixAccumulators : Obligations.MatrixAccumulators := ⟨Claims.matrixElement, Claims.matrixElementStart⟩

end Sys2Proof.Certificates
end

section
/-! ## A save area that does not start at a line -/

namespace Sys2Proof.Claims

open Machine

/-- An entry of stream 3 that waits at tumbler 0, the step-start tumbler of a reset package. -/
def startWaiter : Entry :=
  ⟨0, 0, 0, 0, 0, [1, 0], [0, 0, 0, 0], false, false, 0, none, false, [], false, false, false, false, 0, []⟩

/-- A sealed image of package 0 alone, whose one rank is that of core 0. -/
def soleRank : Img := { Img.none with packages := [0], gateways := [(0, 0)], ranks := [⟨0, 0, 0, 0, 0⟩] }

/-- Core 0 of that package in Run stands at the step-start wait; its save area begins 8 bytes into line 0 of its vault. -/
def shiftedArea : State :=
  { ((State.reset.wr .pwrStatus 0 0 3).wr .coreSaveBase 0 0 8).updCore 0 (fun c => c.setStream 3 [startWaiter]) with img := soleRank }

theorem exec_startSave {s : State} {g : Nat} (hrun : s.running g = true) (hneeds : s.needsStartSave g = true)
    (hat : (s.normHead g 3).atStart g = true) : exec (.startSave g) s =
      .next (((s.normHead g 3).saveAt g 1 (fun c => { c with saveReq := c.halted })).tellHeld 1 (s.core g).step) := by
  show execStartSave g s = _
  unfold execStartSave
  simp [hrun, hneeds, hat]

theorem shiftedArea_startSaveOk : shiftedArea.running 0 = true ∧ shiftedArea.needsStartSave 0 = true ∧
    (shiftedArea.normHead 0 3).atStart 0 = true ∧ SaveOk (startAt shiftedArea 0) 0 := by decide +kernel

theorem shiftedArea_saveArea :
    (startAt shiftedArea 0).saveAreas 0 ((startAt shiftedArea 0).nextSlot 0) = [8] ∧ locOf 8 = .vault 0 8 ∧
    (startAt shiftedArea 0).flipArmed ((startAt shiftedArea 0).home 0) (8 / 128) 0 = false := by decide +kernel

/-- The record begins at byte 8 of the line, so the line is not the record. -/
theorem shiftedArea_line :
    ((((shiftedArea.normHead 0 3).saveAt 0 1 (fun c => { c with saveReq := c.halted })).tellHeld 1 (shiftedArea.core 0).step).rawLine
      ((startAt shiftedArea 0).home 0) (8 / 128)).data ≠ saveRecord 0 1 ((startAt shiftedArea 0).core 0).step := by decide +kernel

theorem not_startSave : ¬ StartSave := by
  intro h
  obtain ⟨hrun, hneeds, hat, hok⟩ := shiftedArea_startSaveOk
  obtain ⟨harea, hloc, hflip⟩ := shiftedArea_saveArea
  obtain ⟨hsaves, -⟩ := h shiftedArea 0 hrun hneeds hat
  obtain ⟨t, v, hexec, -, -, -, -, hrecord⟩ := hsaves hok
  obtain rfl := Host.Outcome.next.inj ((exec_startSave hrun hneeds hat).symm.trans hexec)
  exact shiftedArea_line (hrecord 8 0 8 harea hloc hflip)

end Sys2Proof.Claims

namespace Sys2Proof.Certificates

open Claims

/-- Refutes O6: StartSave says that the line in which the save area begins holds the record, whatever CORE_SAVE_BASE is. In
`shiftedArea` the base is 8 (a write of the register would clear the bits [20:0], but no premise says that they are clear), and the
record fills the line from byte 8 on. -/
theorem not_contextSaveCommands : ¬ Obligations.ContextSaveCommands := by
  rintro ⟨-, -, -, hstart, -⟩
  exact not_startSave hstart

end Sys2Proof.Certificates
end

section
/-! ## The hinge array: what its operations do (R86 to R105) -/

namespace Sys2Proof.Machine

open Claims

/-! ### Stall cycles (R105) -/

theorem State.hngStalls_zero (s : State) (g : Nat) : s.hngStalls g 0 = s := by
  unfold State.hngStalls
  cases s.hngStallCause g <;> rfl

theorem State.hngStalls_of_none {s : State} {g : Nat} (h : s.hngStallCause g = none) (n : Nat) : s.hngStalls g n = s := by
  unfold State.hngStalls
  rw [h]
  cases n <;> rfl

theorem State.hngStallCause_of_none {s : State} {g : Nat} (h : (s.core g).hng.job = none) : s.hngStallCause g = none := by
  unfold State.hngStallCause
  dsimp only
  rw [h]
  rfl

theorem State.hngStalls_of_some {s : State} {g : Nat} {r : Reg} (h : s.hngStallCause g = some r) (n : Nat) :
    s.hngStalls g (n + 1) = s.bump r g (n + 1) := by
  unfold State.hngStalls
  rw [h]
  rfl

/-- Stall cycles leave the state as it is or count under their cause. -/
theorem State.hngStalls_cases (s : State) (g n : Nat) :
    s.hngStalls g n = s ∨ ∃ r, s.hngStallCause g = some r ∧ s.hngStalls g n = s.bump r g n := by
  cases n with
  | zero => exact .inl (s.hngStalls_zero g)
  | succ n =>
    cases h : s.hngStallCause g with
    | none => exact .inl (State.hngStalls_of_none h _)
    | some r => exact .inr ⟨r, rfl, State.hngStalls_of_some h n⟩

/-- The counters of stall cycles. -/
def stallRegs : List Reg := [.hngStallPwrCnt, .hngStallBankCnt, .hngStallQfullCnt, .hngStallOpndCnt]

theorem State.hngStallCause_mem {s : State} {g : Nat} {r : Reg} (h : s.hngStallCause g = some r) : r ∈ stallRegs := by
  unfold State.hngStallCause at h
  obtain ⟨j, -, hj⟩ := Option.bind_eq_some_iff.mp h
  dsimp only at hj
  split at hj
  · cases hj
  · split at hj
    · cases hj; decide
    · split at hj
      · cases hj; decide
      · split at hj <;> cases hj <;> decide

theorem State.hngStalls_cores (s : State) (g n : Nat) : (s.hngStalls g n).cores = s.cores := by
  rcases s.hngStalls_cases g n with h | ⟨r, -, h⟩ <;> rw [h]
  rfl

@[simp] theorem State.core_hngStalls (s : State) (g n h : Nat) : (s.hngStalls g n).core h = s.core h := by
  unfold State.core
  rw [State.hngStalls_cores]

theorem State.rd_hngStalls (s : State) {r : Reg} (hr : r ∉ stallRegs) (g n i k : Nat) :
    (s.hngStalls g n).rd r i k = s.rd r i k := by
  rcases s.hngStalls_cases g n with h | ⟨q, hq, h⟩ <;> rw [h]
  exact State.rd_bump_ne s (fun he : q = r => hr (he ▸ State.hngStallCause_mem hq)) ..

/-- The stall counters have 64 bits, so that nothing counted leaves them as they are. -/
theorem counted_zero_of_mem {r : Reg} (hr : r ∈ stallRegs) (s : State) (g : Nat) : counted r g 0 s s := by
  have hwide : ∀ q ∈ stallRegs, q.desc.wide = true := by decide
  unfold counted
  rw [if_pos (hwide r hr), Nat.add_zero, Nat.mod_eq_of_lt (s.rd_lt ..)]

theorem counted_hngStalls {s : State} {g : Nat} {r : Reg} (h : s.hngStallCause g = some r) (n : Nat) :
    counted r g n s (s.hngStalls g n) := by
  cases n with
  | zero =>
    rw [State.hngStalls_zero]
    exact counted_zero_of_mem (State.hngStallCause_mem h) s g
  | succ n =>
    rw [State.hngStalls_of_some h]
    exact counted_bump ..

theorem memKept_hngStalls (s : State) (g n : Nat) : memKept s (s.hngStalls g n) := memKept_of_mems (State.hngStalls_mems ..)

theorem coresBut_of_cores {s t : State} (h : t.cores = s.cores) (L : List Nat) : coresBut L s t := by
  intro g _
  unfold State.core
  rw [h]

/-- Stall cycles do not change whether the array may work. -/
theorem arrayOn_of_hngStalls {s : State} {g n : Nat} (h : ArrayOn (s.hngStalls g n) g) : ArrayOn s g := by
  obtain ⟨hrun, hsave, hlent, hclock⟩ := h
  refine ⟨?_, ?_, ?_, ?_⟩
  · rw [← hrun]
    have hpwr : (s.hngStalls g n).pwrState = s.pwrState := congrArg (bitsOf · 0 3) (s.rd_hngStalls (by decide) ..)
    have hstate : (s.hngStalls g n).coreState g = s.coreState g := congrArg (bitsOf · _ 2) (s.rd_hngStalls (by decide) ..)
    have hheld : (s.hngStalls g n).recordHeld g = s.recordHeld g := by
      rcases s.hngStalls_cases g n with h | ⟨r, -, h⟩ <;> rw [h]
      rfl
    unfold State.running State.active
    rw [hpwr, hstate, hheld, State.core_hngStalls]
  · rwa [State.core_hngStalls] at hsave
  · rwa [State.core_hngStalls] at hlent
  · rcases s.hngStalls_cases g n with h | ⟨r, -, h⟩ <;> rw [h] at hclock <;> exact hclock

/-! ### The array of one core -/

@[simp] theorem State.core_updHng_self (s : State) (g : Nat) (f : Hng → Hng) :
    (s.updHng g f).core g = { s.core g with hng := f (s.core g).hng } := State.core_updCore_self ..

theorem onlyCores_updHng (s : State) (g : Nat) (f : Hng → Hng) : onlyCores [g] s (s.updHng g f) := onlyCores_updCore ..

/-- From `s` to `t` registers aside only the pinned register of core `g` has changed. -/
def pinOnly (g : Nat) (s t : State) : Prop :=
  t = { s with regs := t.regs, cores := t.cores } ∧ coresBut [g] s t ∧
    ∃ q, t.core g = { s.core g with hng := { (s.core g).hng with pin := q } }

theorem pinOnly_of_regs {s t : State} (h : t = { s with regs := t.regs }) (g : Nat) : pinOnly g s t := by
  have hcores : t.cores = s.cores := by rw [h]
  refine ⟨?_, coresBut_of_cores hcores _, (s.core g).hng.pin, ?_⟩
  · conv_lhs => rw [h]
    rw [hcores]
  · show SMap.get _ t.cores g = _
    rw [hcores]
    rfl

theorem pinOnly_updHng {s t : State} (h : t = { s with regs := t.regs }) (g : Nat) (q : Hng → Option PinReg) :
    pinOnly g s (t.updHng g (fun h => { h with pin := q h })) := by
  obtain ⟨heq, hbut, p, hp⟩ := pinOnly_of_regs h g
  obtain ⟨-, hother⟩ := onlyCores_updHng t g (fun h => { h with pin := q h })
  refine ⟨?_, coresBut_trans hbut hother, ?_⟩
  · exact congrArg (fun x : State => { x with cores := (t.updHng g (fun h => { h with pin := q h })).cores }) heq
  · rw [State.core_updHng_self, hp]
    exact ⟨_, rfl⟩

theorem pinOnly.hng {g : Nat} {s t : State} (h : pinOnly g s t) : ∃ q, (t.core g).hng = { (s.core g).hng with pin := q } := by
  obtain ⟨-, -, q, hq⟩ := h
  exact ⟨q, by rw [hq]⟩

/-- The registers that a TURN counts in. -/
def turnRegs : List Reg := [.hngTurnCnt, .hngTurnCycCnt, .hngTurnMissCnt]

theorem hngTurn_rd (s : State) (g d : Nat) (x : HngDesc) {r : Reg} (hr : r ∉ turnRegs) (i k : Nat) :
    (s.hngTurn g d x).1.rd r i k = s.rd r i k := by
  have hne : ∀ q ∈ turnRegs, q ≠ r := fun q hq h => hr (h ▸ hq)
  have hcnt : ∀ {q : Reg}, q ∈ turnRegs → ∀ (u : State) n, (u.bump q g n).rd r i k = u.rd r i k := fun hq u n =>
    State.rd_bump_ne u (hne _ hq) ..
  unfold State.hngTurn
  dsimp only
  split
  · split
    · rfl
    · split
      · split
        · split
          · rfl
          · exact (hcnt (by decide) ..).trans (hcnt (by decide) ..)
        · exact hcnt (by decide) ..
      · exact hcnt (by decide) ..
  · split <;> rfl

theorem hngTurn_pinOnly (s : State) (g d : Nat) (x : HngDesc) : pinOnly g s (s.hngTurn g d x).1 := by
  unfold State.hngTurn
  dsimp only
  split
  · split
    · exact pinOnly_of_regs rfl g
    · split
      · next p _ =>
        split
        · split
          · exact pinOnly_updHng rfl g fun _ => some { p with role := x.selB }
          · exact pinOnly_updHng rfl g fun _ => some { p with role := x.selB }
        · exact pinOnly_of_regs rfl g
      · exact pinOnly_of_regs rfl g
  · split
    · exact pinOnly_of_regs rfl g
    · exact pinOnly_updHng rfl g fun _ => none

theorem pinTile_regs (s v : State) (g d : Nat) (x : HngDesc) (j : HngJob) (ti tj c : Nat) :
    (s.pinTile v g d x j ti tj c).regs = s.regs := by
  unfold State.pinTile
  dsimp only
  split <;> rfl

theorem pinTile_pinOnly (s v : State) (g d : Nat) (x : HngDesc) (j : HngJob) (ti tj c : Nat) :
    pinOnly g s (s.pinTile v g d x j ti tj c) := by
  unfold State.pinTile
  dsimp only
  split
  · exact pinOnly_updHng rfl g fun h => if c = 0 then _ else _
  · exact pinOnly_of_regs rfl g

/-- With the first chunk of a PIN the register takes the operand's address, format field and role (R102). -/
theorem pinTile_first (s v : State) (g d : Nat) {x : HngDesc} {j : HngJob} (ti tj : Nat) (hpin : x.pin = true) (hok : x.pinOk = true)
    (hr : j.rcmp = false) : (((s.pinTile v g d x j ti tj 0).core g).hng.pin.map (fun p => (p.addr, p.fmt, p.role))) =
      some (x.selAddr, selFmtBits x d, x.selB) := by
  unfold State.pinTile
  rw [if_pos (by simp [hpin, hok, hr]), State.core_updHng_self]
  rfl

/-! ### A descriptor completes (R285) -/

theorem onlyCores_descDone (s : State) (g st : Nat) (cs : List CensusSet) : onlyCores [g] s (s.descDone g st cs) := by
  unfold State.descDone State.updInUnit
  exact onlyCores_updCore ..

@[simp] theorem hng_descDone (s : State) (g st : Nat) (cs : List CensusSet) : ((s.descDone g st cs).core g).hng = (s.core g).hng := by
  unfold State.descDone State.updInUnit
  rw [State.core_updCore_self]
  rfl

theorem Core.stream_setStream (c : Core) {st : Nat} (h : st < c.streams.length) (es : List Entry) : (c.setStream st es).stream st = es := by
  simp [Core.setStream, Core.stream, List.getD, h]

theorem Core.lt_of_inUnit {c : Core} {st : Nat} {e : Entry} (h : c.inUnit st = some e) : st < c.streams.length := by
  by_contra hlt
  have hempty : c.stream st = [] := by
    unfold Core.stream
    rw [List.getD_eq_default _ _ (by omega)]
  simp [Core.inUnit, hempty] at h

/-- What a change of the first matching element shows depends on what the changed element shows. -/
theorem map_updFirst {α β : Type} (p : α → Bool) {f f' : α → α} (q : α → β) (h : ∀ a, q (f a) = q (f' a)) (l : List α) :
    (updFirst p f l).map q = (updFirst p f' l).map q := by
  induction l with
  | nil => rfl
  | cons a l ih =>
    unfold updFirst
    split
    · simp [h]
    · simp [ih]

theorem unitDone_descDone {s u : State} {g st : Nat} {e : Entry} (he : (s.core g).inUnit st = some e)
    (hu : (u.core g).streams = (s.core g).streams) (cs : List CensusSet) : unitDone s (u.descDone g st cs) g st := by
  have hlt := Core.lt_of_inUnit he
  unfold unitDone State.descDone State.updInUnit
  rw [State.core_updCore_self, Core.stream_setStream _ (hu ▸ hlt)]
  have hstream : (u.core g).stream st = (s.core g).stream st := congrArg (·.getD st []) hu
  rw [hstream]
  refine map_updFirst _ (fun e : Entry => (e.pos, e.done)) (fun e => ?_) _
  rfl

end Sys2Proof.Machine
end

section
/-! ## MATRIX_PRODUCT takes up a descriptor (R93 to R97, R102 to R105) -/

namespace Sys2Proof.Machine

open Claims

/-! ### Steps of the array -/

theorem hngSteps_of_none {s : State} {g : Nat} (h : (s.core g).hng.job = none) (n : Nat) : s.hngSteps g n = s := by
  cases n with
  | zero => rfl
  | succ n =>
    unfold State.hngSteps
    rw [h]

theorem hngSteps_one {s : State} {g : Nat} {j : HngJob} (h : (s.core g).hng.job = some j) :
    s.hngSteps g 1 = (s.hngStep g j).1 := by
  unfold State.hngSteps
  rw [h]
  dsimp only
  split <;> rfl

theorem hngClose_of_none {s : State} {g : Nat} (h : (s.core g).hng.job = none) : s.hngClose g = s := by
  unfold State.hngClose
  rw [h]

/-- A descriptor in hand stays there while it is not held, a tile is in progress, or a tile is left to begin. -/
theorem hngClose_of_open {s : State} {g : Nat} {j : HngJob} (h : (s.core g).hng.job = some j)
    (hopen : j.hold = false ∨ j.bank ≠ none ∨ j.nextTile < (s.hngParse g j.desc).tiles) : s.hngClose g = s := by
  unfold State.hngClose
  rw [h]
  refine if_neg ?_
  rintro ⟨hhold, htiles, hbank⟩
  rcases hopen with h | h | h
  · simp [hhold] at h
  · exact h hbank
  · omega

/-- The output tiles of a descriptor are a matter of its own fields. -/
theorem hngParse_tiles (s t : State) (g d : Nat) : (s.hngParse g d).tiles = (t.hngParse g d).tiles := rfl

theorem ceilDiv_pos {n : Nat} (h : n ≠ 0) : 0 < ceilDiv n 128 := by
  unfold ceilDiv
  omega

theorem HngDesc.tiles_pos {x : HngDesc} (h : x.none = false) : 0 < x.tiles := by
  obtain ⟨⟨hm, hn⟩, -⟩ : (x.m ≠ 0 ∧ x.n ≠ 0) ∧ x.k ≠ 0 := by simpa [HngDesc.none] using h
  exact Nat.mul_pos (ceilDiv_pos hm) (ceilDiv_pos hn)

/-! ### MATRIX_PRODUCT as a whole -/

/-- The array accepts the descriptor at the head of stream 0 where it has none in hand. -/
def startNext (s : State) (g : Nat) : State := match (s.core g).hng.job, (s.core g).inUnit 0 with
  | none, some e => if e.kind = 0 ∧ !e.skip then s.hngStart g e.desc e.pos e.eval false else s
  | _, _ => s

theorem exec_matrixProduct {s : State} {g : Nat} (h : ArrayOn s g) (n p q : Nat) : exec (.matrixProduct g n p q) s =
    .next ((((startNext (s.hngStalls g p) g).hngSteps g n).hngClose g).hngStalls g q) := by
  obtain ⟨hrun, hsave, hlent, hclock⟩ := h
  exact congrArg Host.Outcome.next (if_neg (by simp [hrun, hsave, hlent, hclock]))

theorem exec_matrixProduct_job {s : State} {g : Nat} {j : HngJob} (h : ArrayOn s g) (hj : (s.core g).hng.job = some j) (n p : Nat) :
    exec (.matrixProduct g n p 0) s = .next (((s.hngStalls g p).hngSteps g n).hngClose g) := by
  have hstart : startNext (s.hngStalls g p) g = s.hngStalls g p := by
    unfold startNext
    rw [State.core_hngStalls, hj]
  rw [exec_matrixProduct h, hstart, State.hngStalls_zero]

theorem exec_matrixProduct_start {s : State} {g : Nat} {e : Entry} (h : MatrixStartOk s g e) (n p : Nat) :
    exec (.matrixProduct g n p 0) s = .next (((s.hngStart g e.desc e.pos e.eval false).hngSteps g n).hngClose g) := by
  obtain ⟨hon, hjob, hunit, hkind, hskip⟩ := h
  have hstart : startNext s g = s.hngStart g e.desc e.pos e.eval false := by
    unfold startNext
    rw [hjob, hunit]
    exact if_pos ⟨hkind, by simp [hskip]⟩
  rw [exec_matrixProduct hon, State.hngStalls_of_none (State.hngStallCause_of_none hjob), hstart, State.hngStalls_zero]

/-! ### A descriptor is taken up -/

/-- The counters of violations of a matrix descriptor. -/
def hngViolRegs : List Reg := [.hngViolCnt, .coreAddrViolCnt]

theorem hngViols_touches (s : State) (g seq : Nat) (x : HngDesc) : Touches hngViolRegs s (s.hngViols g seq x) :=
  (touches_forEach (fun _ _ => touches_viol (by decide) ..) ..).trans (touches_forEach (fun _ _ => touches_viol (by decide) ..) ..)

/-- The descriptor at position `pos` is read, and its violations are counted, a PIN that spans more than a tile too. -/
def descSeen (s : State) (g pos : Nat) (x : HngDesc) : State :=
  if x.pin && !x.pinOk then ((s.wr .hngDescSeq g 0 pos).hngViols g pos x).viol .hngViolCnt g 0x10 pos 1 1
  else (s.wr .hngDescSeq g 0 pos).hngViols g pos x

theorem descSeen_touches (s : State) (g pos : Nat) (x : HngDesc) : Touches hngViolRegs (s.wr .hngDescSeq g 0 pos) (descSeen s g pos x) := by
  have hviols := hngViols_touches (s.wr .hngDescSeq g 0 pos) g pos x
  unfold descSeen
  split
  · exact hviols.trans (touches_viol (by decide) ..)
  · exact hviols

theorem descSeen_cores (s : State) (g pos : Nat) (x : HngDesc) : (descSeen s g pos x).cores = s.cores := (descSeen_touches s g pos x).1

theorem descSeen_core (s : State) (g pos h : Nat) (x : HngDesc) : (descSeen s g pos x).core h = s.core h := by
  unfold State.core
  rw [descSeen_cores]

theorem descSeen_seq (s : State) (g pos : Nat) (x : HngDesc) : (descSeen s g pos x).rd .hngDescSeq g 0 = pos % 2 ^ 64 := by
  obtain ⟨-, hregs⟩ := descSeen_touches s g pos x
  rw [hregs _ (by decide), State.rd_wr_self]

/-- A descriptor without PIN and TURN empties the pinned register (R102). -/
def pinEmptied (s : State) (g : Nat) (x : HngDesc) : State :=
  if x.pin || x.turn then s else s.updHng g (fun h => { h with pin := none })

theorem pinEmptied_rd (s : State) (g : Nat) (x : HngDesc) (r : Reg) (i k : Nat) : (pinEmptied s g x).rd r i k = s.rd r i k := by
  unfold pinEmptied
  split <;> rfl

theorem pinEmptied_core (s : State) (g : Nat) (x : HngDesc) : (pinEmptied s g x).core g =
    { s.core g with hng := { (s.core g).hng with pin := if x.pin || x.turn then (s.core g).hng.pin else none } } := by
  unfold pinEmptied
  split
  · rfl
  · rw [State.core_updHng_self]

theorem pinEmptied_coresBut (s : State) (g : Nat) (x : HngDesc) : coresBut [g] s (pinEmptied s g x) := by
  unfold pinEmptied
  split
  · exact fun _ _ => rfl
  · exact (onlyCores_updHng ..).2

/-- A descriptor without work completes at once (R97). -/
theorem hngStart_none {s : State} {g d : Nat} (h : (s.hngParse g d).none = true) (pos : Nat) (eval : Bool) :
    s.hngStart g d pos eval false =
      (pinEmptied (descSeen s g pos (s.hngParse g d)) g (s.hngParse g d)).descDone g 0 [] := if_pos h

/-- A HOLD that is not honoured, and an output that overlaps an operand, are counted (R94, R95). -/
def workSeen (s : State) (g pos : Nat) (x : HngDesc) : State :=
  let s1 := descSeen s g pos x
  let s2 := if x.hold && !(x.hold && holdOk (s.core g).hng x) then s1.viol .hngViolCnt g 0x10 pos 1 1 else s1
  if x.overlaps then s2.bump .hngOverlapCnt g 1 else s2

theorem workSeen_touches (s : State) (g pos : Nat) (x : HngDesc) :
    Touches (.hngOverlapCnt :: hngViolRegs) (s.wr .hngDescSeq g 0 pos) (workSeen s g pos x) := by
  have hseen : Touches (.hngOverlapCnt :: hngViolRegs) (s.wr .hngDescSeq g 0 pos) (descSeen s g pos x) :=
    (descSeen_touches s g pos x).mono (List.subset_cons_self ..)
  have hhold : ∀ c : Bool, Touches (.hngOverlapCnt :: hngViolRegs) (s.wr .hngDescSeq g 0 pos)
      (if c then (descSeen s g pos x).viol .hngViolCnt g 0x10 pos 1 1 else descSeen s g pos x) := by
    intro c
    cases c with
    | false => exact hseen
    | true => exact hseen.trans (touches_viol (by decide) ..)
  unfold workSeen
  dsimp only
  split
  · exact (hhold _).trans (touches_wr (by decide) ..)
  · exact hhold _

/-- A descriptor with work stands in hand before its first tile (R93, R94). -/
theorem hngStart_work {s : State} {g d : Nat} (h : (s.hngParse g d).none = false) (pos : Nat) (eval : Bool) : ∃ j,
    s.hngStart g d pos eval false =
      ((workSeen s g pos (s.hngParse g d)).hngTurn g d (s.hngParse g d)).1.updHng g (fun h => { h with job := some j }) ∧
    j.desc = d ∧ j.pos = pos ∧ j.nextTile = 0 ∧ j.bank = none ∧ j.written = 0 ∧ j.overlap = (s.hngParse g d).overlaps := by
  unfold State.hngStart
  dsimp only
  rw [if_neg (by simp [h])]
  exact ⟨_, rfl, rfl, rfl, rfl, rfl, rfl, rfl⟩

end Sys2Proof.Machine

namespace Sys2Proof.Claims

open Machine

theorem matrixNoWork : MatrixNoWork := by
  intro s g n p e hok hnone
  have hexec := exec_matrixProduct_start hok n p
  obtain ⟨-, hjob, hunit, -⟩ := hok
  rw [hngStart_none hnone] at hexec
  have hmems : (s.hngStart g e.desc e.pos e.eval false).mems = s.mems := State.hngStart_mems ..
  rw [hngStart_none hnone] at hmems
  generalize s.hngParse g e.desc = x at *
  have hcore := pinEmptied_core (descSeen s g e.pos x) g x
  rw [descSeen_core] at hcore
  have hseq := (pinEmptied_rd (descSeen s g e.pos x) g x .hngDescSeq g 0).trans (descSeen_seq s g e.pos x)
  have hbut := coresBut_trans (coresBut_of_cores (descSeen_cores s g e.pos x) [g]) (pinEmptied_coresBut _ g x)
  generalize pinEmptied (descSeen s g e.pos x) g x = u at *
  have hidle : ((u.descDone g 0 []).core g).hng.job = none := by rw [hng_descDone, hcore]; exact hjob
  rw [hngSteps_of_none hidle, hngClose_of_none hidle] at hexec
  refine ⟨_, hexec, hseq, ?_, unitDone_descDone hunit (by rw [hcore]) [], coresBut_trans hbut (onlyCores_descDone ..).2,
    memKept_of_mems hmems⟩
  rw [hng_descDone, hcore]

theorem matrixTakesUp : MatrixTakesUp := by
  intro s g p e hok hwork
  have hexec := exec_matrixProduct_start hok 0 p
  have hmems : (s.hngStart g e.desc e.pos e.eval false).mems = s.mems := State.hngStart_mems ..
  obtain ⟨j, hstart, hdesc, hpos, hnext, hbank, hwritten, hoverlap⟩ := hngStart_work hwork e.pos e.eval
  rw [hstart] at hexec hmems
  have htiles := HngDesc.tiles_pos hwork
  rw [hngParse_tiles s (State.updHng _ g _), ← hnext, ← hdesc] at htiles
  rw [State.hngSteps, hngClose_of_open (by rw [State.core_updHng_self]) (.inr (.inr htiles))] at hexec
  have hturn := hngTurn_rd (workSeen s g e.pos (s.hngParse g e.desc)) g e.desc (s.hngParse g e.desc) (r := .hngDescSeq) (by decide) g 0
  have hpin := hngTurn_pinOnly (workSeen s g e.pos (s.hngParse g e.desc)) g e.desc (s.hngParse g e.desc)
  obtain ⟨hcores, hregs⟩ := workSeen_touches s g e.pos (s.hngParse g e.desc)
  obtain ⟨-, hbut, q, hq⟩ := hpin
  have hcore : (workSeen s g e.pos (s.hngParse g e.desc)).core g = s.core g := coresBut_of_cores hcores [] g (by simp)
  rw [hcore] at hq
  refine ⟨_, hexec, ?_, ?_, ?_, ?_, ?_, memKept_of_mems hmems⟩
  · exact hturn.trans ((hregs _ (by decide) g 0).trans (State.rd_wr_self ..))
  · rw [State.core_updHng_self]
    simp [hdesc, hpos, hnext, hbank, hwritten, hoverlap]
  · rw [State.core_updHng_self, hq]
  · rw [State.core_updHng_self, hq]
  · exact coresBut_trans (coresBut_trans (coresBut_of_cores hcores [g]) hbut) (onlyCores_updHng ..).2

end Sys2Proof.Claims
end

section
/-! ## MATRIX_PRODUCT on a tile (R86 to R95, R98, R102, R105) -/

namespace Sys2Proof.Machine

open Claims

/-! ### A tile begins -/

theorem heldBank_some {h : Hng} {tag i : Nat} (hi : heldBank h tag = some i) : ∃ b, h.banks[i]? = some b := by
  have hp := List.find?_some hi
  cases hb : h.banks[i]? with
  | none => simp [hb] at hp
  | some b => exact ⟨b, rfl⟩

/-- The bank that the next tile takes is one of the array's. -/
theorem nextBank_some {h : Hng} {x : HngDesc} {ti tj i : Nat} {cont : Bool} (hi : nextBank h x ti tj = some (i, cont)) :
    ∃ b, h.banks[i]? = some b := by
  unfold nextBank at hi
  split at hi
  · next k hk =>
    obtain ⟨rfl, -⟩ : k = i ∧ true = cont := by simpa using hi
    split at hk
    · exact heldBank_some hk
    · cases hk
  · obtain ⟨k, hk, hki⟩ := Option.map_eq_some_iff.mp hi
    obtain ⟨rfl, -⟩ : k = i ∧ false = cont := by simpa using hki
    have hp := List.find?_some hk
    cases hb : h.banks[k]? with
    | none => simp [hb] at hp
    | some b => exact ⟨b, rfl⟩

/-- The bank of a tile that begins. -/
def openedBank (s : State) (g : Nat) (j : HngJob) (x : HngDesc) (b : Bank) (cont : Bool) : Bank :=
  ⟨.active, b.held, b.tag, j.pos, j.nextTile / x.colTiles, j.nextTile % x.colTiles, 0,
    if cont then b.acc else s.loadTile g x (j.nextTile / x.colTiles) (j.nextTile % x.colTiles)⟩

theorem hngOpen_clear {s : State} {g i : Nat} {cont : Bool} {j : HngJob} {x : HngDesc} {b : Bank} (hx : x = s.hngParse g j.desc)
    (hleft : j.nextTile < x.tiles) (horder : (j.overlap && decide (j.written < j.nextTile)) = false)
    (hbank : nextBank (s.core g).hng x (j.nextTile / x.colTiles) (j.nextTile % x.colTiles) = some (i, cont))
    (hb : (s.core g).hng.banks[i]? = some b) (hclear : LinesClear s (hngUnit g) (if x.accIn ∧ !cont then
      s.runLines ((s.opndCin g x).span (j.nextTile / x.colTiles) (j.nextTile % x.colTiles)) else [])) :
    s.hngOpen g j = (s.updHng g (fun h => { h with
      banks := h.banks.set i (openedBank s g j x b cont)
      job := some { j with nextTile := j.nextTile + 1, bank := some i, contFound := j.contFound || cont } }), true) := by
  subst hx
  unfold State.hngOpen
  dsimp only
  rw [if_neg (by simp [horder, hleft]), hbank]
  dsimp only
  rw [gateReads_clear hclear]
  dsimp only
  rw [hb]
  rfl

/-! ### A chunk -/

/-- The bank of the tile in progress after its next chunk: it goes on, stands ready for its write-out, or is held (R88, R95). -/
def chunkBank (s : State) (g : Nat) (j : HngJob) (x : HngDesc) (b : Bank) : Bank :=
  if b.next + 1 < x.chunks then { b with next := b.next + 1, acc := s.computeChunk g x j b.ti b.tj b.next b.acc }
  else if j.hold then
    { b with use := .held, held := true, tag := x.c, next := b.next + 1, acc := s.computeChunk g x j b.ti b.tj b.next b.acc }
  else { b with use := .final, next := b.next + 1, acc := s.computeChunk g x j b.ti b.tj b.next b.acc }

/-- The array once the chunk's cycles are counted and the pinned register has taken its part. -/
def chunkSeen (s : State) (g : Nat) (j : HngJob) (x : HngDesc) (b : Bank) : State :=
  (s.bump .hngMacCycCnt g (chunkCycles x)).pinTile s g j.desc x j b.ti b.tj b.next

/-- The array after a chunk of the tile in bank `i`. -/
def chunkDone (s : State) (g i : Nat) (j : HngJob) (x : HngDesc) (b : Bank) : State :=
  (chunkSeen s g j x b).updHng g (fun h => { h with
    banks := h.banks.set i (chunkBank s g j x b)
    job := if b.next + 1 < x.chunks then h.job else h.job.map (fun j => { j with bank := none }) })

/-- A pinned register that the operand comes from is still there. -/
theorem hngRepin_pinned {s : State} {g : Nat} {j : HngJob} (h : j.fromReg = true → (s.core g).hng.pin.isSome = true) :
    s.hngRepin g j = s ∧ (j.fromReg && (s.core g).hng.pin.isSome) = j.fromReg := by
  unfold State.hngRepin
  cases hreg : j.fromReg with
  | false => exact ⟨if_neg (by simp), rfl⟩
  | true =>
    have hsome := h hreg
    exact ⟨if_neg fun hlost => by simp [Option.isNone_iff_eq_none.mp hlost.2] at hsome, hsome⟩

theorem hngChunk_clear {s : State} {g i : Nat} {j : HngJob} {b : Bank} {x : HngDesc} (hx : x = s.hngParse g j.desc)
    (h : ChunkOk s g i j b x) : s.hngChunk g j i b = (chunkDone s g i j x b, true) := by
  obtain ⟨-, -, -, -, hpinned, hclear, hahead⟩ := h
  obtain ⟨hrepin, hreg⟩ := hngRepin_pinned hpinned
  subst hx
  have hj : ({ j with fromReg := j.fromReg && (s.core g).hng.pin.isSome } : HngJob) = j := by rw [hreg]
  unfold State.hngChunk
  dsimp only
  rw [hrepin, hj, gateReads_clear hclear]
  dsimp only
  rw [hahead]
  unfold chunkDone chunkBank chunkSeen
  split
  · rfl
  · rfl

theorem chunkSeen_pinOnly (s : State) (g : Nat) (j : HngJob) (x : HngDesc) (b : Bank) :
    pinOnly g (s.bump .hngMacCycCnt g (chunkCycles x)) (chunkSeen s g j x b) := pinTile_pinOnly ..

theorem chunkDone_regs (s : State) (g i : Nat) (j : HngJob) (x : HngDesc) (b : Bank) :
    (chunkDone s g i j x b).regs = (s.bump .hngMacCycCnt g (chunkCycles x)).regs := pinTile_regs ..

/-- What a chunk changes: the count of its cycles, and the array of its core. -/
theorem chunkDone_frame (s : State) (g i : Nat) (j : HngJob) (x : HngDesc) (b : Bank) :
    counted .hngMacCycCnt g (chunkCycles x) s (chunkDone s g i j x b) ∧
      onlyRegsCores [regKey .hngMacCycCnt g 0] [g] s (chunkDone s g i j x b) := by
  obtain ⟨heq, hbut, -⟩ := chunkSeen_pinOnly s g j x b
  have hregs := chunkDone_regs s g i j x b
  refine ⟨?_, ?_, (regsBut_wr s .hngMacCycCnt g 0 _).of_regs hregs, coresBut_trans hbut (onlyCores_updHng ..).2⟩
  · unfold counted
    rw [State.rd_congr hregs]
    exact counted_bump ..
  · exact congrArg (fun u : State => { u with cores := (chunkDone s g i j x b).cores }) heq

/-- What a chunk makes of the array: its bank, its job, and the pinned register as PIN leaves it. -/
theorem chunkDone_hng {s : State} {g i : Nat} {j : HngJob} (x : HngDesc) (b : Bank) (hjob : (s.core g).hng.job = some j) :
    ((chunkDone s g i j x b).core g).hng = { (s.core g).hng with
      banks := (s.core g).hng.banks.set i (chunkBank s g j x b)
      job := some (if b.next + 1 < x.chunks then j else { j with bank := none })
      pin := ((chunkSeen s g j x b).core g).hng.pin } := by
  obtain ⟨q, hq⟩ := (chunkSeen_pinOnly s g j x b).hng
  rw [State.core_bump] at hq
  unfold chunkDone
  rw [State.core_updHng_self, hq]
  dsimp only
  rw [hjob]
  split <;> rfl

/-- A step of the array on the tile in progress. -/
theorem hngSteps_chunk {s : State} {g i : Nat} {j : HngJob} {b : Bank} {x : HngDesc} (hx : x = s.hngParse g j.desc)
    (h : ChunkOk s g i j b x) : s.hngSteps g 1 = chunkDone s g i j x b := by
  have hchunk := hngChunk_clear hx h
  obtain ⟨-, hjob, hbank, hb, -⟩ := h
  rw [hngSteps_one hjob]
  unfold State.hngStep
  rw [hbank]
  dsimp only
  rw [hb]
  exact congrArg Prod.fst hchunk

/-- A HOLD descriptor whose last tile is held completes (R95). -/
theorem hngClose_held {s : State} {g : Nat} {j : HngJob} (h : (s.core g).hng.job = some j) (hhold : j.hold = true)
    (hrcmp : j.rcmp = false) (hbank : j.bank = none) (htiles : (s.hngParse g j.desc).tiles ≤ j.nextTile) :
    ∃ (u : State) (cs : List CensusSet), s.hngClose g = (u.updHng g (fun h => { h with job := none })).descDone g 0 cs ∧ u.cores = s.cores := by
  unfold State.hngClose
  rw [h]
  dsimp only
  rw [if_pos ⟨hhold, htiles, hbank⟩]
  unfold State.hngFinish
  rw [if_neg (by simp [hrcmp])]
  refine ⟨_, _, rfl, ?_⟩
  split
  · exact State.viol_cores ..
  · rfl

end Sys2Proof.Machine

namespace Sys2Proof.Claims

open Machine

theorem matrixOpensTile : MatrixOpensTile := by
  intro s s0 g p i cont j x hs0 hx hon hjob hnone hleft horder hnext hclear
  obtain ⟨b, hb⟩ := nextBank_some hnext
  have hcore : s0.core g = s.core g := hs0 ▸ State.core_hngStalls ..
  have hopen := hngOpen_clear hx hleft horder (hcore ▸ hnext) (hcore ▸ hb) hclear
  have hexec := exec_matrixProduct_job hon hjob 1 p
  rw [← hs0, hngSteps_one (hcore ▸ hjob), State.hngStep, hnone] at hexec
  dsimp only at hexec
  rw [hopen] at hexec
  dsimp only at hexec
  rw [hngClose_of_open (by rw [State.core_updHng_self]) (.inr (.inl (by simp)))] at hexec
  refine ⟨_, b, hexec, hb, ?_, ?_, onlyCores_updHng s0 g _⟩
  · rw [State.core_updHng_self, hcore]
    rfl
  · rw [State.core_updHng_self]

theorem matrixChunk : MatrixChunk := by
  intro s s0 g p i j b x hs0 hx hok
  refine ⟨fun r hr => hs0 ▸ counted_hngStalls hr p, fun hgoes => ?_⟩
  have hsteps := hngSteps_chunk hx hok
  obtain ⟨hon, hjob, hbank, -⟩ := hok
  have hcore : s0.core g = s.core g := hs0 ▸ State.core_hngStalls ..
  have hexec := exec_matrixProduct_job (arrayOn_of_hngStalls (hs0 ▸ hon)) (hcore ▸ hjob) 1 p
  have hhng := chunkDone_hng (i := i) x b hjob
  obtain ⟨hcycles, hframe⟩ := chunkDone_frame s0 g i j x b
  have hstays : (chunkDone s0 g i j x b).hngClose g = chunkDone s0 g i j x b := by
    refine hngClose_of_open (congrArg Hng.job hhng) ?_
    split
    · exact .inr (.inl (by simp [hbank]))
    · next hlast => exact .inl (hgoes.resolve_left hlast)
  rw [← hs0, hsteps, hstays] at hexec
  rw [hcore] at hhng
  refine ⟨_, hexec, ?_, ?_, (congrArg Hng.tq hhng :), hcycles, hframe, fun hpin hpinOk hrcmp hfirst => ?_⟩
  · rw [hhng]
    refine congrArg ((s.core g).hng.banks.set i) ?_
    unfold chunkBank
    split
    · rfl
    · next hlast => rw [if_neg (by simp [hgoes.resolve_left hlast])]
  · rw [hhng]
    refine congrArg some ?_
    split
    · rw [← hbank]
    · rfl
  · rw [hhng]
    unfold chunkSeen
    rw [hfirst]
    exact pinTile_first _ _ _ _ _ _ hpin hpinOk hrcmp

theorem matrixHolds : MatrixHolds := by
  intro s s0 g p i j b x hs0 hx hok hhold hrcmp hlast
  have hsteps := hngSteps_chunk hx hok
  obtain ⟨hon, hjob, -⟩ := hok
  have hcore : s0.core g = s.core g := hs0 ▸ State.core_hngStalls ..
  have hexec := exec_matrixProduct_job (arrayOn_of_hngStalls (hs0 ▸ hon)) (hcore ▸ hjob) 1 p
  have hhng := chunkDone_hng (i := i) x b hjob
  rw [if_neg (by omega), hcore] at hhng
  obtain ⟨-, heq, -, hbut⟩ := chunkDone_frame s0 g i j x b
  have hbank : chunkBank s0 g j x b = { b with
      use := .held, held := true, tag := x.c, next := b.next + 1, acc := s0.computeChunk g x j b.ti b.tj b.next b.acc } := by
    unfold chunkBank
    rw [if_neg (by omega), if_pos hhold]
  have hbut0 : coresBut [g] s (chunkDone s0 g i j x b) :=
    coresBut_trans (hs0 ▸ coresBut_of_cores (State.hngStalls_cores ..) [g]) hbut
  have hkept : memKept s (chunkDone s0 g i j x b) := by
    obtain ⟨hv, hst⟩ := memKept_hngStalls s g p
    rw [heq, hs0]
    exact ⟨hv, hst⟩
  have htiles : ((chunkDone s0 g i j x b).hngParse g j.desc).tiles = x.tiles := hx ▸ hngParse_tiles ..
  rw [← hs0, hsteps] at hexec
  generalize chunkDone s0 g i j x b = u at *
  have hjobU : (u.core g).hng.job = some { j with bank := none } := congrArg Hng.job hhng
  by_cases hleft : j.nextTile < x.tiles
  · rw [hngClose_of_open hjobU (.inr (.inr (htiles.symm ▸ hleft)))] at hexec
    exact ⟨u, hexec, fun h => absurd h (by omega), fun _ => hjobU, by rw [hhng, hbank], hbut0, hkept⟩
  · obtain ⟨w, cs, hclose, hcores⟩ := hngClose_held hjobU hhold hrcmp rfl (htiles.trans_le (Nat.le_of_not_lt hleft))
    have hw : w.core g = u.core g := coresBut_of_cores hcores [] g (by simp)
    have hmems : (u.hngClose g).mems = u.mems := State.hngClose_mems ..
    refine ⟨_, hexec, fun _ => ?_, fun h => absurd h hleft, ?_, ?_, ?_⟩
    · rw [hclose, hng_descDone, State.core_updHng_self]
    · rw [hclose, hng_descDone, State.core_updHng_self, hw, hhng, hbank]
    · rw [hclose]
      exact coresBut_trans (coresBut_trans (coresBut_trans hbut0 (coresBut_of_cores hcores [g])) (onlyCores_updHng ..).2)
        (onlyCores_descDone ..).2
    · obtain ⟨hv, hst⟩ := memKept_of_mems hmems
      exact ⟨hv.trans hkept.1, hst.trans hkept.2⟩

theorem matrixStallsAfter : MatrixStallsAfter := by
  intro s g n p q hon
  refine ⟨_, ?_, exec_matrixProduct hon n p q, fun r hr => counted_hngStalls hr q, fun h => State.hngStalls_of_none h q⟩
  rw [exec_matrixProduct hon, State.hngStalls_zero]

end Sys2Proof.Claims
end

section
/-! ## What a signal of a tumbler leaves of the cores (R284, R287 to R291, R296) -/

namespace Sys2Proof.Machine

open Claims

/-- A core without what its tumblers, its streams and their signals change. -/
def Core.sansSync (c : Core) : Core :=
  { c with streams := [], substs := [], released := false, boundStop := false, dup := [], sigSeen := [], inbound := [] }

/-- What signals of tumblers leave of every core. -/
def syncView (s : State) : Nat → Core := fun g => (s.core g).sansSync

theorem syncView_of_cores {s t : State} (h : t.cores = s.cores) : syncView t = syncView s := by
  unfold syncView State.core
  rw [h]

theorem syncView_updCore (s : State) (g : Nat) (f : Core → Core) (hf : ∀ c, (f c).sansSync = c.sansSync) :
    syncView (s.updCore g f) = syncView s := funext (view_updCore Core.sansSync s g f hf)

theorem syncView_viol (s : State) (r : Reg) (i op q f v : Nat) : syncView (s.viol r i op q f v) = syncView s :=
  syncView_of_cores (State.viol_cores ..)

theorem syncView_trace (s : State) (i k : Nat) : syncView (s.trace i k) = syncView s := by
  refine syncView_of_cores ?_
  unfold State.trace
  split <;> rfl

theorem syncView_updHead (s : State) (g st : Nat) (f : Entry → Entry) : syncView (s.updHead g st f) = syncView s :=
  syncView_updCore _ _ _ fun _ => rfl

theorem syncView_fetchDesc (s : State) (g st : Nat) : syncView (s.fetchDesc g st) = syncView s := by
  unfold State.fetchDesc
  refine view_forEach (fun e s => ?_) ..
  split
  · refine (syncView_updCore _ _ _ fun _ => by rfl).trans ((syncView_trace ..).trans ?_)
    exact view_forUpTo (fun _ _ => syncView_viol ..) ..
  · rfl

theorem syncView_passHead (s : State) (g st : Nat) (f : Entry → Entry) : syncView (s.passHead g st f) = syncView s := by
  unfold State.passHead
  split
  · rfl
  · next e _ =>
    have hfetched : syncView ((s.updHead g st f).fetchDesc g st) = syncView s := (syncView_fetchDesc ..).trans (syncView_updHead ..)
    have htraced : syncView (if e.waited < (f e).waited ∧ waitOp e.wait ≠ 0 then ((s.updHead g st f).fetchDesc g st).trace g 3
        else (s.updHead g st f).fetchDesc g st) = syncView s := by
      split
      · exact (syncView_trace ..).trans hfetched
      · exact hfetched
    dsimp only
    split
    · exact (syncView_updCore _ _ _ fun _ => by rfl).trans htraced
    · exact htraced

theorem syncView_satisfyHead (s : State) (g st : Nat) : syncView (s.satisfyHead g st) = syncView s := by
  refine Eq.trans ?_ (syncView_passHead s g st Entry.satisfy)
  unfold State.satisfyHead State.normHead
  refine view_forUpTo (fun _ s => ?_) ..
  split
  · split
    · exact syncView_passHead ..
    · rfl
  · rfl

theorem syncView_setCopy1 (s : State) (g kind obj field v : Nat) : syncView (s.setCopy1 g kind obj field v) = syncView s :=
  syncView_updCore _ _ _ fun _ => rfl

theorem syncView_copyMove (s : State) (g kind obj field old w : Nat) : syncView (s.copyMove g kind obj field old w) = syncView s := by
  unfold State.copyMove
  split
  · exact syncView_setCopy1 ..
  · rfl

theorem syncView_compare (s : State) (g kind obj : Nat) : syncView (s.compare g kind obj) = syncView s :=
  view_forEach (fun _ _ => syncView_of_cores (by rfl)) ..

theorem syncView_markAdvance (s : State) (g st n target : Nat) (e : Entry) : syncView (s.markAdvance g st n target e) = syncView s := by
  unfold State.markAdvance
  split
  · split
    · exact (syncView_compare ..).trans (syncView_setCopy1 ..)
    · exact syncView_viol ..
  · rfl

theorem syncView_substHead (s : State) (g st : Nat) (p : Nat × Nat × Nat) (e : Entry) (target : Nat) :
    syncView (s.substHead g st p e target) = syncView s :=
  (syncView_satisfyHead ..).trans ((syncView_markAdvance ..).trans (syncView_updHead ..))

theorem syncView_takeShadow (s : State) (g n target : Nat) (p : Nat × Nat × Nat) : syncView (s.takeShadow g n target p) = syncView s :=
  syncView_updCore s g (fun c => { c with substs := c.substs ++ [(n, target, p)] }) fun _ => rfl

/-- A first evaluation of a wait is traced. -/
theorem syncView_tracedOnce (s : State) (c : Prop) [Decidable c] (g : Nat) : syncView (if c then s.trace g 2 else s) = syncView s := by
  split
  · exact syncView_trace ..
  · rfl

/-- A wait beyond the bound is counted and recorded, and its stream is held. -/
theorem syncView_stuck (s : State) (g : Nat) (p : Payload) : syncView (((s.bump .synBoundCnt g 1).updCore g
    (fun c => { c with boundStop := true })).queue .synBound g (some g) p) = syncView s :=
  syncView_updCore (s.bump .synBoundCnt g 1) g (fun c => { c with boundStop := true }) fun _ => rfl

theorem syncView_evalTumbler (s : State) (g st : Nat) (e : Entry) : syncView (s.evalTumbler g st e) = syncView s := by
  unfold State.evalTumbler
  dsimp only
  have hmissed : ∀ c : Bool, syncView (if c then s.bump .tierMissCnt 0 1 else s) = syncView s := fun c => by cases c <;> rfl
  split
  · rfl
  · split
    · exact (syncView_substHead ..).trans (hmissed _)
    · split
      · exact (syncView_satisfyHead ..).trans (syncView_markAdvance ..)
      · split
        · exact (syncView_substHead ..).trans ((syncView_takeShadow ..).trans (hmissed _))
        · have hwaits : ∀ (c : Bool) (f : Entry → Entry), syncView ((if e.target.isNone = true then
              (if c then s.bump .tierMissCnt 0 1 else s).trace g 2 else if c then s.bump .tierMissCnt 0 1 else s).updHead g st f) =
                syncView s := fun c f => (syncView_updHead ..).trans ((syncView_tracedOnce ..).trans (hmissed c))
          split
          · exact (syncView_stuck ..).trans (hwaits _ _)
          · exact hwaits _ _

theorem syncView_wakeHeads (s : State) (g n : Nat) : syncView (s.wakeHeads g n) = syncView s := by
  unfold State.wakeHeads
  refine view_forUpTo (fun st s => ?_) ..
  split
  · split
    · exact syncView_evalTumbler ..
    · rfl
  · rfl

theorem syncView_tmbAdd (s : State) (g n amount : Nat) : syncView (s.tmbAdd g n amount) = syncView s := by
  unfold State.tmbAdd
  exact (syncView_wakeHeads ..).trans ((syncView_updCore _ _ _ fun _ => by rfl).trans ((syncView_compare ..).trans (syncView_copyMove ..)))

theorem syncView_noteSig (s : State) (g : Nat) (x : Sig) : syncView (s.noteSig g x) = syncView s := by
  have hpath : syncView ((s.bump .synSigCnt g 1).pathOr g x.path) = syncView s := (syncView_compare ..).trans (syncView_copyMove ..)
  unfold State.noteSig
  dsimp only
  split
  · exact (syncView_compare ..).trans hpath
  · exact hpath

theorem syncView_deliverSig (s : State) (g : Nat) {x : Sig} (hx : x.op = 1) : syncView (s.deliverSig g x) = syncView s := by
  unfold State.deliverSig
  dsimp only
  split
  · refine syncView_of_cores ?_
    split <;> rfl
  · split
    · exact syncView_updCore _ _ _ fun _ => rfl
    · unfold State.applySig
      rw [if_pos hx]
      exact (syncView_tmbAdd ..).trans (syncView_noteSig ..)

/-- A signal of a core to its own tumbler leaves what is no part of the synchronisation block. -/
theorem syncView_selfTmb (s : State) (g n amount : Nat) : syncView (s.selfTmb g n amount) = syncView s := by
  unfold State.selfTmb
  split
  · rfl
  · exact syncView_deliverSig s g rfl

theorem hng_selfTmb (s : State) (g n amount h : Nat) : ((s.selfTmb g n amount).core h).hng = (s.core h).hng :=
  (congrArg (fun v : Nat → Core => (v h).hng) (syncView_selfTmb s g n amount) :)

end Sys2Proof.Machine
end

section
/-! ## TILE_WRITE_OUT (R84, R94, R96, R97, R99) -/

namespace Sys2Proof.Machine

open Claims

/-! ### What a tile on its way to its destinations leaves -/

/-- What a unit's stores and slot additions leave: most of every core, and the declared slots. -/
def unitView (s : State) : (Nat → Core) × SMap Nat := (fun h => (s.core h).sansVault, s.slots.counts)

theorem unitView_blind : Blind unitView := fun _ _ _ => rfl

theorem unitView_viol (s : State) (r : Reg) (i op q f v : Nat) : unitView (s.viol r i op q f v) = unitView s := by
  rw [State.viol_eq]
  rfl

theorem unitView_vltRequest (s : State) (g : Nat) (req : VltReq) : unitView (s.vltRequest g req []) = unitView s :=
  ((vltRequest_stays s g req []).view (e' := unitView) (fun v => (v.2.2, v.1.slots.counts)) fun _ => by rfl).seen

theorem unitView_writeLines (s : State) (src a : Nat) (bs : List Nat) (tag : Nat) (rcmp : Bool) :
    unitView (s.writeLines src a bs tag rcmp) = unitView s := by
  unfold State.writeLines
  refine view_forEach (fun p s => ?_) ..
  split
  · exact unitView_vltRequest ..
  · split
    · exact unitView_viol ..
    · rfl

theorem unitView_writeAt (s : State) (src a : Nat) (bs : List Nat) (tag : Nat) (rcmp : Bool) :
    unitView (s.writeAt src a bs tag rcmp) = unitView s := by
  unfold State.writeAt
  split
  · rfl
  · split
    · exact unitView_writeLines ..
    · rfl
    · exact unitView_viol ..
    · split
      · exact unitView_viol ..
      · exact unitView_viol ..
    · rfl

/-- The registers that a tile on its way to its destinations may change. -/
def tileRegs : List Reg := .hngViolCnt :: .prgIslViolCnt :: .cnsTot :: closeRegs

theorem storeTile_stays (s : State) (g a : Nat) (f : Fmt) (t : TileOut) (rcmp : Bool) :
    Stays unitView tileRegs s (s.storeTile g a f t rcmp) := by
  unfold State.storeTile
  split
  · exact .refl ..
  · exact { (writeAt_stays s g a (t.bytes f) (s.stepTag g) rcmp).mono (by decide) with seen := unitView_writeAt .. }

theorem stays_foldl_fst {α β γ : Type} {e : State → γ} {L : List Reg} {f : State × β → α → State × β}
    (h : ∀ p a, Stays e L p.1 (f p a).1) (l : List α) (p : State × β) : Stays e L p.1 (l.foldl f p).1 := by
  induction l generalizing p with
  | nil => exact .refl ..
  | cons a l ih => exact (h p a).trans (ih _)

theorem slotAddAll_stays (s : State) (g op seq fo n : Nat) (tiled : Bool) (vs : List (Nat × Nat × Num)) :
    Stays unitView tileRegs s (s.slotAddAll g .hngViolCnt op seq fo n tiled vs).1 := by
  have hviol : ∀ (r : Reg) (u : State) i op seq fo v, r ∈ tileRegs → Stays unitView tileRegs u (u.viol r i op seq fo v) :=
    fun _ _ _ _ _ _ _ hr => viol_stays hr _ _ _ _ _ _ (unitView_viol ..)
  unfold State.slotAddAll
  dsimp only
  split
  · exact hviol _ _ _ _ _ _ _ (by decide)
  · split
    · exact hviol _ _ _ _ _ _ _ (by decide)
    · have hread : ∀ c : Bool, Stays unitView tileRegs s (if c then s.viol .prgIslViolCnt (s.slotDie g) op seq fo n else s) := by
        intro c
        cases c with
        | false => exact .refl ..
        | true => exact hviol _ _ _ _ _ _ _ (by decide)
      refine Stays.trans ?_ (stays_foldl_fst (fun _ _ => by exact .of_eq rfl rfl rfl rfl) ..)
      dsimp only
      split
      · exact (hread _).trans (hviol _ _ _ _ _ _ _ (by decide))
      · exact hread _

theorem carryTotals_staysUnit (s : State) (g : Nat) (eval : Bool) (old : Census) (k : CensusSet) :
    Stays unitView tileRegs s (s.carryTotals g eval old k) :=
  ((carryTotals_stays s g eval old k).mono (by decide)).view (fun v => (v.2.2, v.1.slots.counts)) fun _ => by rfl

theorem carryTotals_cores (s : State) (g : Nat) (eval : Bool) (old : Census) (k : CensusSet) :
    (s.carryTotals g eval old k).cores = s.cores := by
  refine view_forEach (fun p s => ?_) ..
  split
  · rfl
  · exact State.wr_cores ..

/-! ### What the reading of a descriptor depends on -/

/-- What the array reads of the state beside a descriptor: its control register, the expert mask, the package's number, the core that
it stands for, the declared slots. -/
def parseView (s : State) (g : Nat) : Nat × Nat × Nat × Option Nat × SMap Nat :=
  (s.rd .hngCtl g 0, s.rd .hubExpertMask 0 0, s.rd .hubPkgNum 0 0, (s.core g).adopts, s.slots.counts)

theorem hngParse_congr {s t : State} {g : Nat} (h : parseView t g = parseView s g) (d : Nat) : t.hngParse g d = s.hngParse g d := by
  obtain ⟨hctl, hmask, hnum, hadopts, hcounts⟩ : t.rd .hngCtl g 0 = s.rd .hngCtl g 0 ∧ t.rd .hubExpertMask 0 0 = s.rd .hubExpertMask 0 0 ∧
      t.rd .hubPkgNum 0 0 = s.rd .hubPkgNum 0 0 ∧ (t.core g).adopts = (s.core g).adopts ∧ t.slots.counts = s.slots.counts := by
    simpa [parseView] using h
  have hpkg : t.pkg = s.pkg := congrArg (bitsOf · 0 6) hnum
  have hexpert : t.expert = s.expert := funext fun c => congrArg (Nat.testBit · c) hmask
  have haddr : t.addrField g = s.addrField g := by
    funext raw
    unfold State.addrField State.adr
    rw [hadopts, hpkg]
  have hregion : t.regionOk g = s.regionOk g := by
    funext a len
    unfold State.regionOk State.unitAddrOk
    rw [hpkg]
  have hslot : t.slotClamp (t.slotDie g) = s.slotClamp (s.slotDie g) := by
    funext n
    unfold State.slotClamp State.slotCount State.slotDie
    rw [hadopts, hcounts]
  have hprefetch : t.rdF .hngCtl g 0 0 4 = s.rdF .hngCtl g 0 0 4 := congrArg (bitsOf · 0 4) hctl
  unfold State.hngParse State.woExpert
  rw [haddr, hregion, hslot, hexpert, hprefetch]

theorem Stays.parseView {s t : State} (h : Stays unitView tileRegs s t) (g : Nat) : parseView t g = parseView s g := by
  have hadopts : (t.core g).adopts = (s.core g).adopts :=
    (congrArg (fun v : (Nat → Core) × SMap Nat => (v.1 g).adopts) h.seen :)
  have hcounts : t.slots.counts = s.slots.counts := (congrArg Prod.snd h.seen :)
  unfold Machine.parseView
  rw [h.rd .hngCtl g 0 (by decide), h.rd .hubExpertMask 0 0 (by decide), h.rd .hubPkgNum 0 0 (by decide), hadopts, hcounts]

theorem Stays.hng {s t : State} (h : Stays unitView tileRegs s t) (g : Nat) : (t.core g).hng = (s.core g).hng :=
  (congrArg (fun v : (Nat → Core) × SMap Nat => (v.1 g).hng) h.seen :)

theorem parseView_updHng (s : State) (g : Nat) (f : Hng → Hng) : parseView (s.updHng g f) g = parseView s g := by
  unfold parseView
  rw [State.core_updHng_self]
  rfl

/-! ### A tile leaves -/

/-- The tile in the vaults or stage memory, where it goes there (R83, R87). -/
def tileSaved (s : State) (g : Nat) (x : HngDesc) (f : Fmt) (b : Bank) (rcmp : Bool) : State :=
  if x.dest = 0 ∨ x.dest = 2 then s.storeTile g (x.tileAddr b.ti b.tj) f (s.hngConvert g x f b (x.transC && x.dest != 1)) rcmp else s

theorem tileSaved_stays (s : State) (g : Nat) (x : HngDesc) (f : Fmt) (b : Bank) (rcmp : Bool) :
    Stays unitView tileRegs s (tileSaved s g x f b rcmp) := by
  unfold tileSaved
  split
  · exact storeTile_stays ..
  · exact .refl ..

/-- A finished bank goes into its slot, nowhere, or to memory and, where it takes a slot of the tile queue, there (R96, R99). -/
theorem hngDeliver_cases (s : State) (g : Nat) (x : HngDesc) (j : HngJob) (b : Bank) :
    (x.needsSlot = false ∧ x.dest = 3 ∧ ∃ vs, (s.hngDeliver g x j b).1 = (s.slotAddAll g .hngViolCnt 0x10 j.pos 60 x.slot true vs).1) ∨
    (x.needsSlot = false ∧ x.fc.fmt = none ∧ (s.hngDeliver g x j b).1 = s) ∨
    (∃ f, x.fc.fmt = some f ∧ x.needsSlot = false ∧ (s.hngDeliver g x j b).1 = tileSaved s g x f b j.rcmp) ∨
    ∃ f q, x.fc.fmt = some f ∧ x.needsSlot = true ∧ (s.hngDeliver g x j b).1 =
      (tileSaved s g x f b j.rcmp).updHng g (fun h => { h with tq := h.tq ++ [q] }) ∧ (q.pos, q.ti, q.tj) = (j.pos, b.ti, b.tj) := by
  unfold State.hngDeliver HngDesc.needsSlot
  dsimp only
  by_cases h3 : x.dest = 3
  · rw [if_pos h3]
    exact .inl ⟨by simp [h3], h3, _, rfl⟩
  · rw [if_neg h3]
    right
    cases hf : x.fc.fmt with
    | none => exact .inl ⟨by simp, rfl, rfl⟩
    | some f =>
      right
      dsimp only
      by_cases hq : x.dest = 1 ∨ x.dest = 2
      · rw [if_pos hq]
        exact .inr ⟨f, _, rfl, by simpa using hq, rfl, rfl⟩
      · rw [if_neg hq]
        exact .inl ⟨f, rfl, by simpa using hq, rfl⟩

theorem hngDeliver_hng (s : State) (g : Nat) (x : HngDesc) (j : HngJob) (b : Bank) : ∃ qs,
    ((s.hngDeliver g x j b).1.core g).hng = { (s.core g).hng with tq := (s.core g).hng.tq ++ qs } ∧
    qs.map (fun q => (q.pos, q.ti, q.tj)) = if x.needsSlot then [(j.pos, b.ti, b.tj)] else [] := by
  have hsame : ∀ t : State, (t.core g).hng = (s.core g).hng → (t.core g).hng = { (s.core g).hng with tq := (s.core g).hng.tq ++ [] } :=
    fun t ht => by rw [ht, List.append_nil]
  rcases hngDeliver_cases s g x j b with ⟨hslot, -, vs, h⟩ | ⟨hslot, -, h⟩ | ⟨f, -, hslot, h⟩ | ⟨f, q, -, hslot, h, hq⟩ <;> rw [h, hslot]
  · exact ⟨[], hsame _ ((slotAddAll_stays ..).hng g), rfl⟩
  · exact ⟨[], hsame _ rfl, rfl⟩
  · exact ⟨[], hsame _ ((tileSaved_stays ..).hng g), rfl⟩
  · refine ⟨[q], ?_, congrArg (· :: []) hq⟩
    rw [State.core_updHng_self, (tileSaved_stays s g x f b j.rcmp).hng g]

theorem hngDeliver_parseView (s : State) (g : Nat) (x : HngDesc) (j : HngJob) (b : Bank) :
    parseView (s.hngDeliver g x j b).1 g = parseView s g := by
  rcases hngDeliver_cases s g x j b with ⟨-, -, vs, h⟩ | ⟨-, -, h⟩ | ⟨f, -, -, h⟩ | ⟨f, q, -, -, h, -⟩ <;> rw [h]
  · exact (slotAddAll_stays ..).parseView g
  · exact (tileSaved_stays ..).parseView g
  · exact (parseView_updHng ..).trans ((tileSaved_stays ..).parseView g)

/-- A tile that goes to memory is stored there. -/
theorem hngDeliver_mems {s : State} {g : Nat} {x : HngDesc} {f : Fmt} (hf : x.fc.fmt = some f) (hdest : x.dest = 0 ∨ x.dest = 2)
    (j : HngJob) (b : Bank) : (s.hngDeliver g x j b).1.mems =
      (s.storeTile g (x.tileAddr b.ti b.tj) f (s.hngConvert g x f b x.transC) j.rcmp).mems := by
  have hsaved : tileSaved s g x f b j.rcmp = s.storeTile g (x.tileAddr b.ti b.tj) f (s.hngConvert g x f b x.transC) j.rcmp := by
    unfold tileSaved
    rw [if_pos hdest]
    rcases hdest with h | h <;> simp [h]
  rw [← hsaved]
  rcases hngDeliver_cases s g x j b with ⟨-, h3, -⟩ | ⟨-, hnone, -⟩ | ⟨f', hf', -, h⟩ | ⟨f', q, hf', -, h, -⟩
  · omega
  · rw [hf] at hnone
    cases hnone
  · obtain rfl : f = f' := Option.some.inj (hf.symm.trans hf')
    rw [h]
  · obtain rfl : f = f' := Option.some.inj (hf.symm.trans hf')
    rw [h, State.updHng_mems]

/-- A tile that goes to the tile queue or a slot alone leaves the memories. -/
theorem hngDeliver_memKept {s : State} {g : Nat} {x : HngDesc} (hdest : x.dest = 1 ∨ x.dest = 3) (j : HngJob) (b : Bank) :
    (s.hngDeliver g x j b).1.mems = s.mems := by
  have hsaved : ∀ f, tileSaved s g x f b j.rcmp = s := fun f => if_neg (by omega)
  rcases hngDeliver_cases s g x j b with ⟨-, -, vs, h⟩ | ⟨-, -, h⟩ | ⟨f, -, -, h⟩ | ⟨f, q, -, -, h, -⟩ <;> rw [h]
  · exact State.slotAddAll_mems ..
  · rw [hsaved]
  · rw [hsaved, State.updHng_mems]

theorem carryTotals_core (s : State) (g : Nat) (eval : Bool) (old : Census) (k : CensusSet) (h : Nat) :
    (s.carryTotals g eval old k).core h = s.core h := by
  unfold State.core
  rw [carryTotals_cores]

/-- The array once a finished bank has left: the bank is free, and the job notes that its tile leaves. -/
theorem hngLeave_hng (s : State) (g : Nat) {j : HngJob} (hr : j.rcmp = false) (x : HngDesc) (i : Nat) (b : Bank) : ∃ k qs,
    ((s.hngLeave g j x i b).core g).hng = { (s.core g).hng with
      banks := (s.core g).hng.banks.set i Bank.empty
      job := some { j with leaving := true, census := k }
      tq := (s.core g).hng.tq ++ qs } ∧
    qs.map (fun q => (q.pos, q.ti, q.tj)) = if x.needsSlot then [(j.pos, b.ti, b.tj)] else [] := by
  obtain ⟨qs, hhng, hqs⟩ := hngDeliver_hng s g x j b
  refine ⟨{ j.census with counts := j.census.counts.add (s.hngDeliver g x j b).2 }, qs, ?_, hqs⟩
  unfold State.hngLeave
  dsimp only
  rw [if_neg (by simp [hr]), State.core_updHng_self, carryTotals_core, hhng]

theorem hngLeave_parseView (s : State) (g : Nat) {j : HngJob} (hr : j.rcmp = false) (x : HngDesc) (i : Nat) (b : Bank) :
    parseView (s.hngLeave g j x i b) g = parseView s g := by
  unfold State.hngLeave
  dsimp only
  rw [if_neg (by simp [hr]), parseView_updHng, (carryTotals_staysUnit ..).parseView, hngDeliver_parseView]

theorem hngLeave_mems (s : State) (g : Nat) {j : HngJob} (hr : j.rcmp = false) (x : HngDesc) (i : Nat) (b : Bank) :
    (s.hngLeave g j x i b).mems = (s.hngDeliver g x j b).1.mems := by
  unfold State.hngLeave
  dsimp only
  rw [if_neg (by simp [hr]), State.updHng_mems, State.carryTotals_mems]

/-! ### A tile has arrived -/

theorem hngArrive_of_not_leaving {s : State} {g : Nat} {j : HngJob} (h : (s.core g).hng.job = some j) (hl : j.leaving = false) :
    s.hngArrive g = s := by
  unfold State.hngArrive
  rw [h]
  exact if_neg (by simp [hl])

theorem hngArrive_of_not_stored {s : State} {g : Nat} {j : HngJob} (h : (s.core g).hng.job = some j)
    (hs : tileStored s g j (s.hngParse g j.desc) = false) : s.hngArrive g = s := by
  unfold State.hngArrive
  rw [h]
  unfold tileStored at hs
  exact if_neg (by simp [hs])

/-- The job after a tile's arrival goes on, or with the last tile has ended (R97). -/
theorem hngLast_hng (s : State) (g : Nat) {j : HngJob} (hr : j.rcmp = false) (x : HngDesc) :
    ((s.hngLast g j x).core g).hng = { (s.core g).hng with job := if j.written < x.tiles then some j else none } := by
  unfold State.hngLast
  by_cases hleft : j.written < x.tiles
  · rw [if_pos hleft, if_pos hleft, State.core_updHng_self]
  · rw [if_neg hleft, if_neg hleft]
    dsimp only
    unfold State.hngFinish
    rw [if_neg (by simp [hr]), hng_descDone, State.core_updHng_self]
    split
    · unfold State.core
      rw [State.viol_cores]
    · rfl

theorem hngArrive_stored {s : State} {g : Nat} {j : HngJob} (h : (s.core g).hng.job = some j) (hl : j.leaving = true) (hr : j.rcmp = false)
    (hs : tileStored s g j (s.hngParse g j.desc) = true) : ((s.hngArrive g).core g).hng = { (s.core g).hng with
      job := if j.written + 1 < (s.hngParse g j.desc).tiles then some { j with written := j.written + 1, leaving := false } else none } := by
  have hsignalled : ∀ (c : Prop) [Decidable c] n, ((if c then s.selfTmb g n 1 else s).core g).hng = (s.core g).hng := by
    intro c _ n
    split
    · exact hng_selfTmb ..
    · rfl
  unfold State.hngArrive
  rw [h]
  dsimp only
  unfold tileStored at hs
  rw [if_pos (by simp [hl, hs])]
  refine (hngLast_hng _ g (j := { j with written := j.written + 1, leaving := false }) hr _).trans ?_
  rw [hsignalled]

end Sys2Proof.Machine

namespace Sys2Proof.Claims

open Machine

theorem exec_tileWriteOut {s : State} {g i : Nat} {j : HngJob} {b : Bank} (h : WriteOutOk s g i j b) (wait : Nat) :
    exec (.tileWriteOut g wait) s = .next (if (s.hngParse g j.desc).needsSlot && s.tqFree g == 0 then s.hngStalls g wait
      else (s.hngLeave g j (s.hngParse g j.desc) i b).hngArrive g) := by
  obtain ⟨hactive, hfrozen, hheld, hclock, hjob, -, hleaving, hfinal⟩ := h
  show execTileWriteOut g wait s = _
  unfold execTileWriteOut
  rw [if_neg (by simp [hactive, hfrozen, hheld, hclock]), hngArrive_of_not_leaving hjob hleaving]
  dsimp only
  rw [hjob]
  dsimp only
  rw [if_neg (by simp [hleaving]), hfinal]

theorem tileWriteOut : TileWriteOut := by
  intro s g wait i j b x hx hok
  have hexec := exec_tileWriteOut hok wait
  obtain ⟨-, -, -, -, -, hr, -⟩ := hok
  rw [← hx] at hexec
  refine ⟨fun hslot hfull => by rw [hexec, if_pos (by simp [hslot, hfull])], fun hfree => ?_⟩
  rw [if_neg (by simp [hfree])] at hexec
  obtain ⟨k, qs, hhng, hqs⟩ := hngLeave_hng s g hr x i b
  have hparse : (s.hngLeave g j x i b).hngParse g j.desc = x := (hngParse_congr (hngLeave_parseView s g hr x i b) j.desc).trans hx.symm
  have hmems : ((s.hngLeave g j x i b).hngArrive g).mems = (s.hngDeliver g x j b).1.mems :=
    (State.hngArrive_mems ..).trans (hngLeave_mems s g hr x i b)
  generalize s.hngLeave g j x i b = u at *
  have hjob : (u.core g).hng.job = some { j with leaving := true, census := k } := congrArg Hng.job hhng
  have hstored : tileStored u g j x = true → ((u.hngArrive g).core g).hng = { (u.core g).hng with
      job := if j.written + 1 < x.tiles then some { j with written := j.written + 1, leaving := false, census := k } else none } := by
    intro h
    have harrived := hngArrive_stored hjob rfl hr ((congrArg (tileStored u g _) hparse).trans h)
    rwa [hparse] at harrived
  have hwaits : tileStored u g j x = false → u.hngArrive g = u := fun h =>
    hngArrive_of_not_stored hjob ((congrArg (tileStored u g _) hparse).trans h)
  have hkept : ((u.hngArrive g).core g).hng.banks = (u.core g).hng.banks ∧ ((u.hngArrive g).core g).hng.tq = (u.core g).hng.tq := by
    cases h : tileStored u g j x with
    | false => rw [hwaits h]; exact ⟨rfl, rfl⟩
    | true => rw [hstored h]; exact ⟨rfl, rfl⟩
  refine ⟨_, hexec, ?_, fun h => ?_, fun h => ⟨fun hleft => ?_, fun hlast => ?_⟩, ?_, fun f hf hdest => ?_, fun hdest => ?_⟩
  · rw [hkept.1, hhng]
  · rw [hwaits h, hjob]
    rfl
  · rw [hstored h, if_pos hleft]
    rfl
  · rw [hstored h, if_neg (by omega)]
  · rw [hkept.2, hhng, List.map_append, hqs]
  · rw [hngDeliver_mems hf hdest, hr] at hmems
    exact memKept_of_mems hmems
  · rw [hngDeliver_memKept hdest] at hmems
    exact memKept_of_mems hmems

theorem tileWriteOutWaits : TileWriteOutWaits := by
  intro s g wait j hjob hleaving hs
  show execTileWriteOut g wait s = _
  unfold execTileWriteOut
  rw [hngArrive_of_not_stored hjob hs]
  dsimp only
  rw [hjob]
  dsimp only
  rw [if_pos hleaving, ite_self]

end Sys2Proof.Claims

namespace Sys2Proof.Certificates

/-- Settles O8: a step of the array is one equation per case (a tile begins, a chunk enters, a tile leaves, a tile has arrived), and what
stores, slot additions and signals do on the way leaves the array and the reading of its descriptor. -/
theorem matrixCommands : Obligations.MatrixCommands :=
  ⟨Claims.matrixNoWork, Claims.matrixTakesUp, Claims.matrixOpensTile, Claims.matrixChunk, Claims.matrixHolds, Claims.matrixStallsAfter,
    Claims.tileWriteOut, Claims.tileWriteOutWaits⟩

end Sys2Proof.Certificates
end

section
/-! ## A core's signal to itself reaches no other core (R284, R287 to R291) -/

namespace Sys2Proof.Machine

open Claims

/-- Every core but `g`, as a view of the state. -/
def otherCores (g : Nat) (s : State) : Nat → Core := fun h => if h = g then Core.reset else s.core h

theorem coresBut_of_otherCores {g : Nat} {s t : State} (h : otherCores g t = otherCores g s) : coresBut [g] s t := by
  intro k hk
  have hne : k ≠ g := fun he => hk (he ▸ List.mem_singleton_self g)
  simpa [otherCores, hne] using congrFun h k

theorem otherCores_of_cores {g : Nat} {s t : State} (h : t.cores = s.cores) : otherCores g t = otherCores g s := by
  unfold otherCores State.core
  rw [h]

theorem otherCores_updCore (s : State) (g : Nat) (f : Core → Core) : otherCores g (s.updCore g f) = otherCores g s := by
  funext h
  unfold otherCores
  split
  · rfl
  · next hne => exact State.core_updCore_ne s f (Ne.symm hne)

theorem otherCores_viol (k : Nat) (s : State) (r : Reg) (i op q f v : Nat) :
    otherCores k (s.viol r i op q f v) = otherCores k s := otherCores_of_cores (State.viol_cores ..)

theorem otherCores_trace (k : Nat) (s : State) (i e : Nat) : otherCores k (s.trace i e) = otherCores k s := by
  refine otherCores_of_cores ?_
  unfold State.trace
  split <;> rfl

theorem otherCores_fetchDesc (s : State) (g st : Nat) : otherCores g (s.fetchDesc g st) = otherCores g s := by
  unfold State.fetchDesc
  refine view_forEach (fun e s => ?_) ..
  split
  · refine (otherCores_updCore ..).trans ((otherCores_trace ..).trans ?_)
    exact view_forUpTo (fun _ _ => otherCores_viol ..) ..
  · rfl

theorem otherCores_passHead (s : State) (g st : Nat) (f : Entry → Entry) : otherCores g (s.passHead g st f) = otherCores g s := by
  unfold State.passHead
  split
  · rfl
  · next e _ =>
    have hfetched : otherCores g ((s.updHead g st f).fetchDesc g st) = otherCores g s :=
      (otherCores_fetchDesc ..).trans (otherCores_updCore ..)
    have htraced : otherCores g (if e.waited < (f e).waited ∧ waitOp e.wait ≠ 0 then ((s.updHead g st f).fetchDesc g st).trace g 3
        else (s.updHead g st f).fetchDesc g st) = otherCores g s := by
      split
      · exact (otherCores_trace ..).trans hfetched
      · exact hfetched
    dsimp only
    split
    · exact (otherCores_updCore ..).trans htraced
    · exact htraced

theorem otherCores_satisfyHead (s : State) (g st : Nat) : otherCores g (s.satisfyHead g st) = otherCores g s := by
  refine Eq.trans ?_ (otherCores_passHead s g st Entry.satisfy)
  unfold State.satisfyHead State.normHead
  refine view_forUpTo (fun _ s => ?_) ..
  split
  · split
    · exact otherCores_passHead ..
    · rfl
  · rfl

theorem otherCores_copyMove (s : State) (g kind obj field old w : Nat) :
    otherCores g (s.copyMove g kind obj field old w) = otherCores g s := by
  unfold State.copyMove
  split
  · exact otherCores_updCore ..
  · rfl

theorem otherCores_compare (k : Nat) (s : State) (g kind obj : Nat) : otherCores k (s.compare g kind obj) = otherCores k s :=
  view_forEach (fun _ _ => otherCores_of_cores (by rfl)) ..

theorem otherCores_markAdvance (s : State) (g st n target : Nat) (e : Entry) :
    otherCores g (s.markAdvance g st n target e) = otherCores g s := by
  unfold State.markAdvance
  split
  · split
    · exact (otherCores_compare ..).trans (otherCores_updCore ..)
    · exact otherCores_viol ..
  · rfl

theorem otherCores_takeShadow (s : State) (g n target : Nat) (p : Nat × Nat × Nat) :
    otherCores g (s.takeShadow g n target p) = otherCores g s :=
  otherCores_updCore s g (fun c => { c with substs := c.substs ++ [(n, target, p)] })

theorem otherCores_substHead (s : State) (g st : Nat) (p : Nat × Nat × Nat) (e : Entry) (target : Nat) :
    otherCores g (s.substHead g st p e target) = otherCores g s :=
  (otherCores_satisfyHead ..).trans ((otherCores_markAdvance ..).trans (otherCores_updCore ..))

/-- A head whose wait goes on keeps its target; beyond the bound its stream is held and recorded. -/
theorem otherCores_held (s : State) (g st : Nat) (f : Entry → Entry) (stuck : Bool) (p : Payload) :
    otherCores g (if stuck then (((s.updHead g st f).bump .synBoundCnt g 1).updCore g (fun c => { c with boundStop := true })).queue
      .synBound g (some g) p else s.updHead g st f) = otherCores g s := by
  have hmarked : otherCores g (s.updHead g st f) = otherCores g s := otherCores_updCore ..
  split
  · exact (otherCores_updCore ((s.updHead g st f).bump .synBoundCnt g 1) g (fun c => { c with boundStop := true })).trans hmarked
  · exact hmarked

theorem otherCores_evalTumbler (s : State) (g st : Nat) (e : Entry) : otherCores g (s.evalTumbler g st e) = otherCores g s := by
  unfold State.evalTumbler
  dsimp only
  have hmissed : ∀ c : Bool, otherCores g (if c then s.bump .tierMissCnt 0 1 else s) = otherCores g s := fun c => by cases c <;> rfl
  split
  · rfl
  · split
    · exact (otherCores_substHead ..).trans (hmissed _)
    · split
      · exact (otherCores_satisfyHead ..).trans (otherCores_markAdvance ..)
      · split
        · exact (otherCores_substHead ..).trans ((otherCores_takeShadow ..).trans (hmissed _))
        · refine (otherCores_held ..).trans ?_
          split
          · exact (otherCores_trace ..).trans (hmissed _)
          · exact hmissed _

theorem otherCores_wakeHeads (s : State) (g n : Nat) : otherCores g (s.wakeHeads g n) = otherCores g s := by
  unfold State.wakeHeads
  refine view_forUpTo (fun st s => ?_) ..
  split
  · split
    · exact otherCores_evalTumbler ..
    · rfl
  · rfl

theorem otherCores_tmbAdd (s : State) (g n amount : Nat) : otherCores g (s.tmbAdd g n amount) = otherCores g s := by
  unfold State.tmbAdd
  exact (otherCores_wakeHeads ..).trans ((otherCores_updCore ..).trans ((otherCores_compare ..).trans (otherCores_copyMove ..)))

theorem otherCores_noteSig (s : State) (g : Nat) (x : Sig) : otherCores g (s.noteSig g x) = otherCores g s := by
  have hpath : otherCores g ((s.bump .synSigCnt g 1).pathOr g x.path) = otherCores g s :=
    (otherCores_compare ..).trans (otherCores_copyMove ..)
  unfold State.noteSig
  dsimp only
  split
  · exact (otherCores_compare ..).trans hpath
  · exact hpath

/-- A signal of a core to its own tumbler reaches no other core, unless the core has been adopted. -/
theorem otherCores_selfTmb {s : State} {g : Nat} (hg : s.home g = g) (n amount : Nat) :
    otherCores g (s.selfTmb g n amount) = otherCores g s := by
  unfold State.selfTmb State.deliverSig
  dsimp only
  rw [hg]
  split
  · rfl
  · split
    · refine otherCores_of_cores ?_
      split <;> rfl
    · split
      · exact otherCores_updCore ..
      · unfold State.applySig
        rw [if_pos (show (s.sigOf g 1 n amount).op = 1 from rfl)]
        exact (otherCores_tmbAdd ..).trans (otherCores_noteSig ..)

theorem home_of_running {s : State} {g : Nat} (h : s.running g = true) : s.home g = g := by
  have hfence : (s.core g).fence = .none := by
    unfold State.running at h
    simp only [Bool.and_eq_true, decide_eq_true_eq] at h
    exact h.1.1.2
  unfold State.home
  rw [hfence]

theorem home_congr {s t : State} {g : Nat} (hfence : (t.core g).fence = (s.core g).fence)
    (hadopter : (t.core g).adopter = (s.core g).adopter) : t.home g = s.home g := by
  unfold State.home
  rw [hfence, hadopter]

theorem home_of_syncView {s t : State} (h : syncView t = syncView s) (g : Nat) : t.home g = s.home g :=
  home_congr (congrArg (fun v : Nat → Core => (v g).fence) h :) (congrArg (fun v : Nat → Core => (v g).adopter) h :)

end Sys2Proof.Machine
end

section
/-! ## The vector engine: take-up, stalls and the end of a walk (R134 to R138, R155, R157, R159) -/

namespace Sys2Proof.Machine

open Claims

/-! ### Stall cycles (R159) -/

/-- The counters of the engine's stall cycles. -/
def veStallRegs : List Reg := [.veStallPwrCnt, .veStallTqCnt, .veStallSrcCnt, .veStallWrCnt]

theorem veStallCause_mem {s : State} {g : Nat} {r : Reg} (h : s.veStallCause g = some r) : r ∈ veStallRegs := by
  unfold State.veStallCause at h
  obtain ⟨j, -, rfl⟩ := Option.map_eq_some_iff.mp h
  dsimp only
  split
  · decide
  · split
    · decide
    · split <;> decide

theorem veStalls_of_some {s : State} {g : Nat} {r : Reg} (h : s.veStallCause g = some r) (n : Nat) : s.veStalls g n = s.bump r g n := by
  unfold State.veStalls
  rw [h]

/-- Stall cycles leave the state as it is or count under their cause. -/
theorem veStalls_cases (s : State) (g n : Nat) :
    s.veStalls g n = s ∨ ∃ r ∈ veStallRegs, s.veStalls g n = s.bump r g n := by
  cases h : s.veStallCause g with
  | none =>
    unfold State.veStalls
    rw [h]
    exact .inl rfl
  | some r => exact .inr ⟨r, veStallCause_mem h, veStalls_of_some h n⟩

theorem veStalls_cores (s : State) (g n : Nat) : (s.veStalls g n).cores = s.cores := by
  rcases veStalls_cases s g n with h | ⟨r, -, h⟩ <;> rw [h]
  rfl

@[simp] theorem State.core_veStalls (s : State) (g n h : Nat) : (s.veStalls g n).core h = s.core h := by
  unfold State.core
  rw [veStalls_cores]

/-- A counter does not decide whether the units of a core may work. -/
theorem arrayOn_bump {s : State} {r : Reg} (hp : r ≠ .pwrStatus) (hc : r ≠ .pwrCoreState) {i n g : Nat} (h : ArrayOn (s.bump r i n) g) :
    ArrayOn s g := by
  obtain ⟨hrun, hsave, hlent, hclock⟩ := h
  refine ⟨?_, hsave, hlent, hclock⟩
  have hpwr : (s.bump r i n).pwrState = s.pwrState := congrArg (bitsOf · 0 3) (State.rd_bump_ne s hp ..)
  have hstate : (s.bump r i n).coreState g = s.coreState g := congrArg (bitsOf · _ 2) (State.rd_bump_ne s hc ..)
  rw [← hrun]
  unfold State.running State.active
  rw [hpwr, hstate]
  rfl

theorem arrayOn_of_veStalls {s : State} {g n : Nat} (h : ArrayOn (s.veStalls g n) g) : ArrayOn s g := by
  have hne : ∀ r ∈ veStallRegs, r ≠ .pwrStatus ∧ r ≠ .pwrCoreState := by decide
  rcases veStalls_cases s g n with hs | ⟨r, hr, hs⟩ <;> rw [hs] at h
  · exact h
  · exact arrayOn_bump (hne r hr).1 (hne r hr).2 h

/-! ### The engine of one core -/

@[simp] theorem State.core_updVe_self (s : State) (g : Nat) (f : Ve → Ve) :
    (s.updVe g f).core g = { s.core g with ve := f (s.core g).ve } := State.core_updCore_self ..

theorem onlyCores_updVe (s : State) (g : Nat) (f : Ve → Ve) : onlyCores [g] s (s.updVe g f) := onlyCores_updCore ..

theorem ve_descDone (s : State) (g st : Nat) (cs : List CensusSet) : ((s.descDone g st cs).core g).ve = (s.core g).ve := by
  unfold State.descDone State.updInUnit
  rw [State.core_updCore_self]
  rfl

theorem updFirst_of_find?_none {α : Type} {p : α → Bool} {l : List α} (h : l.find? p = none) (f : α → α) : updFirst p f l = l := by
  induction l with
  | nil => rfl
  | cons a l ih =>
    rw [List.find?_cons] at h
    cases hp : p a with
    | true => simp [hp] at h
    | false =>
      simp only [hp] at h
      simp [updFirst, hp, ih h]

/-- A descriptor completes in its stream, also where the stream shows none in its unit. -/
theorem unitDone_descDone_of_streams {s u : State} {g : Nat} (hu : (u.core g).streams = (s.core g).streams) (st : Nat)
    (cs : List CensusSet) : unitDone s (u.descDone g st cs) g st := by
  cases he : (s.core g).inUnit st with
  | some e => exact unitDone_descDone he hu cs
  | none =>
    have hstream : (u.core g).stream st = (s.core g).stream st := congrArg (·.getD st []) hu
    have hfirst : ∀ f : Entry → Entry, updFirst (fun e => e.issued && !e.done) f ((s.core g).stream st) = (s.core g).stream st :=
      updFirst_of_find?_none he
    unfold unitDone State.descDone State.updInUnit
    rw [State.core_updCore_self, hstream, hfirst, hfirst, ← hstream]
    by_cases hlt : st < (u.core g).streams.length
    · rw [Core.stream_setStream _ hlt]
    · simp [Core.setStream, Core.stream, List.getD, Nat.le_of_not_lt hlt]

/-! ### The walk is over (R137, R157) -/

/-- The state once the output tiles that are due have signalled TILE_TMB (R137). -/
def tilesTold (s : State) (g : Nat) (j : VeJob) (x : VeDesc) : State :=
  if x.op = 0x21 ∨ x.tmb = 0xFF ∨ j.rcmp then s else forUpTo j.due (fun _ s => s.selfTmb g x.tmb 1) s

/-- The state once a reduction that has ended has signalled (R137). -/
def resultTold (s : State) (g : Nat) (x : VeDesc) : State :=
  if x.op = 0x21 ∧ !x.void ∧ x.tmb ≠ 0xFF ∧ 0 < x.segs then s.selfTmb g x.tmb 1 else s

/-- What the signals of a core to itself keep: the other cores, and of this one what is no part of the synchronisation block. -/
def Told (g : Nat) (s t : State) : Prop := otherCores g t = otherCores g s ∧ syncView t = syncView s ∧ t.mems = s.mems

theorem told_selfTmb {s : State} {g : Nat} (hg : s.home g = g) (n amount : Nat) : Told g s (s.selfTmb g n amount) :=
  ⟨otherCores_selfTmb hg .., syncView_selfTmb .., State.selfTmb_mems ..⟩

theorem Told.refl (g : Nat) (s : State) : Told g s s := ⟨rfl, rfl, rfl⟩

theorem Told.trans {g : Nat} {s t u : State} (h : Told g s t) (h' : Told g t u) : Told g s u := by
  obtain ⟨ho, hv, hm⟩ := h
  obtain ⟨ho', hv', hm'⟩ := h'
  exact ⟨ho'.trans ho, hv'.trans hv, hm'.trans hm⟩

theorem Told.home {g : Nat} {s t : State} (h : Told g s t) : t.home g = s.home g := by
  obtain ⟨-, hv, -⟩ := h
  exact home_of_syncView hv g

theorem told_signals {s : State} {g : Nat} (hg : s.home g = g) (tmb n : Nat) : Told g s (forUpTo n (fun _ s => s.selfTmb g tmb 1) s) := by
  induction n with
  | zero => exact .refl ..
  | succ n ih =>
    rw [forUpTo]
    exact ih.trans (told_selfTmb (ih.home.trans hg) ..)

theorem told_tilesTold {s : State} {g : Nat} (hg : s.home g = g) (j : VeJob) (x : VeDesc) : Told g s (tilesTold s g j x) := by
  unfold tilesTold
  split
  · exact .refl ..
  · exact told_signals hg ..

theorem told_resultTold {s : State} {g : Nat} (hg : s.home g = g) (x : VeDesc) : Told g s (resultTold s g x) := by
  unfold resultTold
  split
  · exact told_selfTmb hg ..
  · exact .refl ..

/-- The engine with no line of its writes left to wait for. -/
def veStored (s : State) (g : Nat) : State := s.updVe g (fun v => { v with job := v.job.map (fun j => { j with stores := [], due := 0 }) })

theorem veSettle_waits {s : State} {g : Nat} {j : VeJob} (h : s.writesDone g j.stores = false) (x : VeDesc) :
    s.veSettle g j x = (s, false) := by
  unfold State.veSettle
  rw [if_pos (by simp [h])]

theorem veSettle_stored {s : State} {g : Nat} {j : VeJob} (h : s.writesDone g j.stores = true) (x : VeDesc) :
    s.veSettle g j x = (veStored (tilesTold s g j x) g, true) := by
  unfold State.veSettle
  rw [if_neg (by simp [h])]
  rfl

/-- The engine free again, its descriptor's operation noted. -/
def veFreed (s : State) (g d : Nat) : State := s.updVe g (fun v => { v with job := none, lastOp := dfld d 0 0 8 })

theorem veFinish_eq (s : State) (g : Nat) {j : VeJob} (hr : j.rcmp = false) (x : VeDesc) : s.veFinish g j x =
    (veFreed (resultTold s g x) g j.desc).descDone g 1 (if x.segs = 0 then [] else s.veSets g x j.counts) := by
  unfold State.veFinish
  rw [if_neg (by simp [hr])]
  rfl

/-- Whether a stream shows its descriptor as complete does not depend on the rest of the core. -/
theorem unitDone_congr {s s' t : State} {g st : Nat} (h : (s'.core g).streams = (s.core g).streams) (hd : unitDone s' t g st) :
    unitDone s t g st := by
  have hstream : (s'.core g).stream st = (s.core g).stream st := congrArg (·.getD st []) h
  unfold unitDone at hd ⊢
  rwa [hstream] at hd

/-- The state after the end of a walk whose lines have all been stored. -/
def veEnd (s : State) (g : Nat) (j : VeJob) (x : VeDesc) : State := (veStored (tilesTold s g j x) g).veFinish g j x

theorem veEnd_ve (s : State) (g : Nat) {j : VeJob} (hr : j.rcmp = false) (x : VeDesc) :
    ((veEnd s g j x).core g).ve.job = none ∧ ((veEnd s g j x).core g).ve.lastOp = dfld j.desc 0 0 8 := by
  unfold veEnd
  rw [veFinish_eq _ g hr, ve_descDone, veFreed, State.core_updVe_self]
  exact ⟨rfl, rfl⟩

theorem veEnd_frame {s : State} {g : Nat} (hg : s.home g = g) {j : VeJob} (hr : j.rcmp = false) (x : VeDesc) :
    coresBut [g] s (veEnd s g j x) ∧ memKept s (veEnd s g j x) := by
  have htiles := told_tilesTold hg j x
  have hstored : (veStored (tilesTold s g j x) g).home g = g := by
    refine (home_congr ?_ ?_).trans (htiles.home.trans hg) <;> rw [veStored, State.core_updVe_self]
  have hresult := told_resultTold hstored x
  refine ⟨?_, memKept_of_mems ((State.veFinish_mems ..).trans ((State.updVe_mems ..).trans htiles.2.2))⟩
  unfold veEnd
  rw [veFinish_eq _ g hr]
  have htold : coresBut [g] s (resultTold (veStored (tilesTold s g j x) g) g x) :=
    coresBut_of_otherCores (hresult.1.trans ((otherCores_updCore ..).trans htiles.1))
  exact coresBut_trans (coresBut_trans htold (onlyCores_updVe ..).2) (onlyCores_descDone ..).2

theorem tilesTold_silent (s : State) (g : Nat) {j : VeJob} {x : VeDesc} (h : x.tmb = 0xFF ∨ j.due = 0) : tilesTold s g j x = s := by
  unfold tilesTold
  split
  · rfl
  · next hsignals =>
    rw [h.resolve_left fun ht => hsignals (.inr (.inl ht))]
    rfl

theorem resultTold_silent (s : State) (g : Nat) {x : VeDesc} (h : x.tmb = 0xFF ∨ x.segs = 0) : resultTold s g x = s := by
  refine if_neg ?_
  rintro ⟨-, -, htmb, hsegs⟩
  omega

/-- A descriptor that signals nothing ends with its entry. -/
theorem veEnd_silent (s : State) (g : Nat) {j : VeJob} (hr : j.rcmp = false) {x : VeDesc} (h : x.tmb = 0xFF ∨ j.due = 0 ∧ x.segs = 0) :
    (veEnd s g j x).regs = s.regs ∧ unitDone s (veEnd s g j x) g 1 := by
  unfold veEnd
  rw [tilesTold_silent s g (h.imp_right And.left), veFinish_eq _ g hr, resultTold_silent _ g (h.imp_right And.right)]
  refine ⟨rfl, unitDone_descDone_of_streams ?_ ..⟩
  unfold veFreed veStored
  rw [State.core_updVe_self, State.core_updVe_self]

/-! ### Steps of the engine -/

theorem veRun_over {s : State} {g : Nat} {j : VeJob} {x : VeDesc} (hj : (s.core g).ve.job = some j) (hx : x = s.veParse g j.desc)
    (ho : x.over j.walk = true) (n : Nat) :
    s.veRun g n = if s.writesDone g j.stores then veEnd s g j x else s := by
  subst hx
  cases hs : s.writesDone g j.stores with
  | false => cases n <;> simp [State.veRun, hj, ho, veSettle_waits hs]
  | true => cases n <;> simp [State.veRun, hj, ho, veSettle_stored hs, veEnd]

/-- Before a vector the engine takes its step, and stops where it has to wait. -/
theorem veRun_one {s : State} {g : Nat} {j : VeJob} {x : VeDesc} (hj : (s.core g).ve.job = some j) (hx : x = s.veParse g j.desc)
    (hdue : j.due = 0) (ho : x.over j.walk = false) (n : Nat) :
    s.veRun g (n + 1) = if (s.veStep g j x).2 then (s.veStep g j x).1.veRun g n else (s.veStep g j x).1 := by
  subst hx
  simp [State.veRun, hj, hdue, ho]

theorem veRun_zero {s : State} {g : Nat} {j : VeJob} {x : VeDesc} (hj : (s.core g).ve.job = some j) (hx : x = s.veParse g j.desc)
    (hdue : j.due = 0) (ho : x.over j.walk = false) : s.veRun g 0 = s := by
  subst hx
  simp [State.veRun, hj, hdue, ho]

/-- Without the slots of its segment the engine does nothing (R155). -/
theorem veRun_unsupplied {s : State} {g : Nat} {j : VeJob} {x : VeDesc} (hj : (s.core g).ve.job = some j) (hx : x = s.veParse g j.desc)
    (hdue : j.due = 0) (ho : x.over j.walk = false) (hsup : s.veSupply g x j (x.box j.walk) = none) (n : Nat) : s.veRun g n = s := by
  cases n with
  | zero => exact veRun_zero hj hx hdue ho
  | succ n =>
    have hstep : s.veStep g j x = (s, false) := by
      unfold State.veStep
      dsimp only
      rw [hsup]
    rw [veRun_one hj hx hdue ho, hstep]
    rfl

theorem veExec_start {s : State} {g : Nat} {ops : Nat → Bool} {e : Entry} (h : VeStartOk s g ops e) (work : Nat × Nat) :
    s.veExec g ops work = (s.veStart g e.desc e.pos e.eval false).veRun g work.1 := by
  obtain ⟨⟨hrun, hsave, hlent, hclock⟩, hjob, hunit, hkind, hskip, hop⟩ := h
  have hstarted : ((s.veStart g e.desc e.pos e.eval false).core g).ve.job = some (VeJob.start e.desc e.pos e.eval false) := by
    unfold State.veStart
    rw [State.core_updVe_self]
  unfold State.veExec
  rw [if_neg (by simp [hrun, hsave, hlent, hclock]), hjob, hunit]
  dsimp only
  rw [if_pos ⟨hkind, by simp [hskip], hop⟩, hstarted]
  exact if_pos hop

theorem veExec_job {s : State} {g : Nat} {ops : Nat → Bool} {j : VeJob} (hon : ArrayOn s g) (hj : (s.core g).ve.job = some j)
    (hop : ops (dfld j.desc 0 0 8) = true) (work : Nat × Nat) : s.veExec g ops work = (s.veStalls g work.2).veRun g work.1 := by
  obtain ⟨hrun, hsave, hlent, hclock⟩ := hon
  unfold State.veExec
  rw [if_neg (by simp [hrun, hsave, hlent, hclock]), hj]
  dsimp only
  rw [if_pos hop, State.core_veStalls, hj]
  exact if_pos hop

/-- The command of a descriptor in hand, where the stall cycles have been counted. -/
theorem veExec_has {s s0 : State} {g p : Nat} {ops : Nat → Bool} {j : VeJob} (hs0 : s0 = s.veStalls g p) (h : VeHas s0 g ops j)
    (n : Nat) : s.veExec g ops (n, p) = s0.veRun g n := by
  obtain ⟨hon, hjob, hop⟩ := h
  subst hs0
  rw [State.core_veStalls] at hjob
  exact veExec_job (arrayOn_of_veStalls hon) hjob hop _

/-! ### A descriptor is taken up (R134 to R137) -/

theorem segs_ite (c : Bool) {a b b' : VeDesc} (h : b.segs = b'.segs) : (if c then a else b).segs = (if c then a else b').segs := by
  cases c
  · exact h
  · rfl

/-- The segments of a walk are a matter of the descriptor's own fields. -/
theorem veParse_segs (s t : State) (g d : Nat) : (s.veParse g d).segs = (t.veParse g d).segs := by
  unfold State.veParse
  split
  · unfold State.veParse30
    dsimp only
    split <;> rfl
  · exact segs_ite _ rfl

/-- The counters of violations of a vector descriptor. -/
def veViolRegs : List Reg := [.veViolCnt, .coreAddrViolCnt]

theorem veViols_touches (s : State) (g op seq : Nat) (x : VeDesc) : Touches veViolRegs s (s.veViols g op seq x) :=
  (touches_forEach (fun _ _ => touches_viol (by decide) ..) ..).trans (touches_forEach (fun _ _ => touches_viol (by decide) ..) ..)

/-- The descriptor at position `pos` is read, and its violations are counted. -/
def veSeen (s : State) (g d pos : Nat) : State := (s.wr .veDescSeq g 0 pos).veViols g (dfld d 0 0 8) pos (s.veParse g d)

theorem veSeen_cores (s : State) (g d pos : Nat) : (veSeen s g d pos).cores = s.cores := (veViols_touches ..).1

/-- The descriptor stands in hand. -/
def veTaken (s : State) (g d pos : Nat) (eval : Bool) : State :=
  (veSeen s g d pos).updVe g (fun v => { v with job := some (VeJob.start d pos eval false) })

theorem veStart_idle {s : State} {g d : Nat} (h : (s.veParse g d).segs = 0) (pos : Nat) (eval : Bool) :
    s.veStart g d pos eval false = veTaken s g d pos eval := by
  unfold State.veStart
  dsimp only
  rw [if_neg (by simp [h])]
  rfl

theorem veTaken_core (s : State) (g d pos : Nat) (eval : Bool) : (veTaken s g d pos eval).core g =
    { s.core g with ve := { (s.core g).ve with job := some (VeJob.start d pos eval false) } } := by
  have hcore : (veSeen s g d pos).core g = s.core g := coresBut_of_cores (veSeen_cores s g d pos) [] g (by simp)
  rw [veTaken, State.core_updVe_self, hcore]

theorem veTaken_coresBut (s : State) (g d pos : Nat) (eval : Bool) : coresBut [g] s (veTaken s g d pos eval) :=
  coresBut_trans (coresBut_of_cores (veSeen_cores s g d pos) [g]) (onlyCores_updVe ..).2

theorem veTaken_memKept (s : State) (g d pos : Nat) (eval : Bool) : memKept s (veTaken s g d pos eval) :=
  memKept_of_mems ((State.updVe_mems ..).trans ((State.veViols_mems ..).trans (State.wr_mems ..)))

/-- The register that shows the position of the descriptor (R135). -/
theorem veTaken_seq (s : State) (g d pos : Nat) (eval : Bool) : (veTaken s g d pos eval).rd .veDescSeq g 0 = pos % 2 ^ 64 := by
  obtain ⟨-, hregs⟩ := veViols_touches (s.wr .veDescSeq g 0 pos) g (dfld d 0 0 8) pos (s.veParse g d)
  exact (hregs .veDescSeq (by decide) g 0).trans (State.rd_wr_self ..)

theorem VeDesc.over_of_segs {x : VeDesc} (h : x.segs = 0) (p : VePos) : x.over p = true := by
  unfold VeDesc.over
  rw [h]
  exact decide_eq_true (Nat.zero_le _)

/-- A descriptor without segments ends as soon as the engine runs. -/
theorem veRun_taken {s : State} {g d : Nat} (h : (s.veParse g d).segs = 0) (pos : Nat) (eval : Bool) (n : Nat) :
    ∃ x : VeDesc, x.segs = 0 ∧
      (veTaken s g d pos eval).veRun g n = veEnd (veTaken s g d pos eval) g (VeJob.start d pos eval false) x := by
  have hsegs : ((veTaken s g d pos eval).veParse g d).segs = 0 := (veParse_segs ..).trans h
  refine ⟨_, hsegs, ?_⟩
  rw [veRun_over (by rw [veTaken_core]) rfl (VeDesc.over_of_segs hsegs _)]
  rfl

end Sys2Proof.Machine

namespace Sys2Proof.Claims

open Machine

/-- Taken up with nothing to do, a descriptor completes at once (R137). -/
theorem veExec_noWork {s : State} {g : Nat} {ops : Nat → Bool} {e : Entry} (hok : VeStartOk s g ops e)
    (hsegs : (s.veParse g e.desc).segs = 0) (work : Nat × Nat) : ((s.veExec g ops work).core g).ve.job = none ∧ ((s.veExec g ops work).core g).ve.lastOp = dfld e.desc 0 0 8 ∧
      (s.veExec g ops work).rd .veDescSeq g 0 = e.pos % 2 ^ 64 ∧ unitDone s (s.veExec g ops work) g 1 ∧
      coresBut [g] s (s.veExec g ops work) ∧ memKept s (s.veExec g ops work) := by
  have hexec := veExec_start hok work
  obtain ⟨⟨hrun, -⟩, -⟩ := hok
  obtain ⟨x, hx, hends⟩ := veRun_taken hsegs e.pos e.eval work.1
  rw [hexec, veStart_idle hsegs, hends]
  have hcore := veTaken_core s g e.desc e.pos e.eval
  have hhome : (veTaken s g e.desc e.pos e.eval).home g = g :=
    (home_congr (by rw [hcore]) (by rw [hcore])).trans (home_of_running hrun)
  have hr : (VeJob.start e.desc e.pos e.eval false).rcmp = false := rfl
  obtain ⟨hfree, hop⟩ := veEnd_ve (veTaken s g e.desc e.pos e.eval) g hr x
  obtain ⟨hbut, hvmem, hstg⟩ := veEnd_frame hhome hr x
  obtain ⟨hregs, hunit⟩ := veEnd_silent (veTaken s g e.desc e.pos e.eval) g hr (.inr ⟨rfl, hx⟩)
  obtain ⟨hv, hst⟩ := veTaken_memKept s g e.desc e.pos e.eval
  exact ⟨hfree, hop, (State.rd_congr hregs ..).trans (veTaken_seq ..), unitDone_congr (by rw [hcore]) hunit,
    coresBut_trans (veTaken_coresBut s g e.desc e.pos e.eval) hbut, hvmem.trans hv, hstg.trans hst⟩

end Sys2Proof.Claims
end

section
/-! ## The vector engine: one vector enters the chain (R131, R132, R139 to R154, R159) -/

namespace Sys2Proof.Machine

open Claims

/-! ### What the stores and results of a vector leave -/

/-- The registers that the stores and the result of a vector may change. -/
def veRegs : List Reg := .veViolCnt :: tileRegs

/-- A change that some case makes, as far as what stays is the same without it. -/
theorem stays_ite {α : Type} {e : State → α} {L : List Reg} {s t u : State} {c : Prop} [Decidable c] (ht : Stays e L s t)
    (hu : Stays e L s u) : Stays e L s (if c then t else u) := by
  split
  · exact ht
  · exact hu

theorem writeAt_staysVe (s : State) (src a : Nat) (bs : List Nat) (tag : Nat) (rcmp : Bool) :
    Stays unitView veRegs s (s.writeAt src a bs tag rcmp) :=
  { (writeAt_stays s src a bs tag rcmp).mono (by decide) with seen := unitView_writeAt .. }

theorem veFlush_stays (s m : State) (g : Nat) (ov : SMap (List (Option Nat))) (rcmp : Bool) :
    Stays unitView veRegs s (s.veFlush m g ov rcmp) := by
  unfold State.veFlush
  exact stays_forEach (fun _ _ => stays_ite (.refl ..) (writeAt_staysVe ..)) ..

/-- A result's way into a reduction-buffer slot. -/
theorem slotAddAll_staysVe (s : State) (g op seq fo n : Nat) (tiled : Bool) (vs : List (Nat × Nat × Num)) :
    Stays unitView veRegs s (s.slotAddAll g .veViolCnt op seq fo n tiled vs).1 := by
  have hviol : ∀ r ∈ veRegs, ∀ (u : State) i op seq fo v, Stays unitView veRegs u (u.viol r i op seq fo v) :=
    fun _ hr _ _ _ _ _ _ => viol_stays hr _ _ _ _ _ _ (unitView_viol ..)
  unfold State.slotAddAll
  dsimp only
  split
  · exact hviol _ (by decide) ..
  · split
    · exact hviol _ (by decide) ..
    · refine Stays.trans ?_ (stays_foldl_fst (fun _ _ => by exact .of_eq rfl rfl rfl rfl) ..)
      have hreading := stays_ite (c := s.slots.reading.contains (slotKey (s.slotDie g) n)) (hviol .prgIslViolCnt (by decide) s
        (s.slotDie g) op seq fo n) (.refl ..)
      exact stays_ite (hreading.trans (hviol _ (by decide) ..)) hreading

theorem veResult_stays (s : State) (g : Nat) (x : VeDesc) (j : VeJob) (k : Nat) (vs : List Num) :
    Stays unitView veRegs s (s.veResult g x j k vs).1 := by
  unfold State.veResult
  dsimp only
  split
  · refine Stays.trans ?_ (slotAddAll_staysVe ..)
    split
    · exact writeAt_staysVe ..
    · exact .refl ..
  · split
    · exact writeAt_staysVe ..
    · exact .refl ..

theorem veCarry_stays (s : State) (g : Nat) (x : VeDesc) (j : VeJob) (counts : List Census) :
    Stays unitView veRegs s (s.veCarry g x j counts) := by
  have hset : ∀ (u : State) old k, Stays unitView veRegs u (u.carryTotals g j.eval old k) := fun _ _ _ =>
    (carryTotals_staysUnit ..).mono (by decide)
  have hout : ∀ (u : State) n, Stays unitView veRegs u (match x.out.getD n none with
      | some q => u.carryTotals g j.eval (j.counts.getD n Census.zero) ⟨q.fmt.code, 1, false, false, counts.getD n Census.zero⟩
      | none => u) := by
    intro u n
    split
    · exact hset ..
    · exact .refl ..
  unfold State.veCarry
  have hboth := (hout s 0).trans (hout _ 1)
  exact stays_ite (.refl ..) (stays_ite (hboth.trans (hset ..)) hboth)

theorem hng_of_unitView {s t : State} (h : unitView t = unitView s) (g : Nat) : (t.core g).hng = (s.core g).hng :=
  (congrArg (fun v : (Nat → Core) × SMap Nat => (v.1 g).hng) h :)

/-! ### What a vector counts (R142, R152, R155, R159) -/

theorem counted_congr {r : Reg} {i n : Nat} {s s' t t' : State} (h : counted r i n s t) (hs : s'.rd r i 0 = s.rd r i 0)
    (ht : t'.rd r i 0 = t.rd r i 0) : counted r i n s' t' := by
  unfold counted at h ⊢
  rw [hs, ht, h]

/-- Several counters of a core count, one after the other. -/
def bumpAll (s : State) (g : Nat) (ns : List (Reg × Nat)) : State := forEach ns (fun p s => s.bump p.1 g p.2) s

theorem bumpAll_touches (s : State) (g : Nat) (ns : List (Reg × Nat)) : Touches (ns.map Prod.fst) s (bumpAll s g ns) := by
  induction ns generalizing s with
  | nil => exact .refl ..
  | cons p ns ih =>
    have hp : Touches ((p :: ns).map Prod.fst) s (s.bump p.1 g p.2) := touches_wr (List.mem_cons_self ..) ..
    exact hp.trans ((ih _).mono (List.subset_cons_self ..))

/-- Counters that differ count each its part. -/
theorem counted_bumpAll {r : Reg} {n : Nat} {ns : List (Reg × Nat)} (hd : (ns.map Prod.fst).Nodup) (hm : (r, n) ∈ ns) (s : State)
    (g : Nat) : counted r g n s (bumpAll s g ns) := by
  induction ns generalizing s with
  | nil => simp at hm
  | cons p ns ih =>
    obtain ⟨hp, hd⟩ := List.nodup_cons.mp hd
    rcases List.mem_cons.mp hm with rfl | hm
    · obtain ⟨-, hrest⟩ := bumpAll_touches (s.bump r g n) g ns
      exact counted_congr (counted_bump s r g n) rfl (hrest r hp ..)
    · have hne : p.1 ≠ r := fun h => hp (h ▸ List.mem_map_of_mem hm)
      exact counted_congr (ih hd hm (s.bump p.1 g p.2)) (State.rd_bump_ne s hne ..).symm rfl

/-- What the counters take from a vector. -/
def vecCounts (x : VeDesc) (j : VeJob) (sup : Supply) (r : VecOut) : List (Reg × Nat) :=
  [(.veFp32OvfCnt, r.acc.ev.ovf), (.veFp32InvCnt, r.acc.ev.inv), (.vePermOorCnt, r.acc.oor),
    (.veActCycCnt, if x.enters j.walk then 1 else 0), (.veTqMismatchCnt, if veRetires x j then sup.mismatch else 0)]

/-! ### A vector is done -/

/-- The slots of a segment leave the tile queue (R154). -/
def slotsRetired (s : State) (g : Nat) (x : VeDesc) (j : VeJob) (sup : Supply) : State :=
  if veRetires x j then s.updHng g (fun h => { h with tq := h.tq.drop sup.taken }) else s

theorem slotsRetired_tq (s : State) (g : Nat) (x : VeDesc) (j : VeJob) (sup : Supply) : ((slotsRetired s g x j sup).core g).hng.tq =
    (s.core g).hng.tq.drop (if veRetires x j then sup.taken else 0) := by
  unfold slotsRetired
  split
  · rw [State.core_updHng_self]
  · rfl

theorem slotsRetired_rd (s : State) (g : Nat) (x : VeDesc) (j : VeJob) (sup : Supply) (r : Reg) (i k : Nat) :
    (slotsRetired s g x j sup).rd r i k = s.rd r i k := by
  unfold slotsRetired
  split <;> rfl

theorem slotsRetired_mems (s : State) (g : Nat) (x : VeDesc) (j : VeJob) (sup : Supply) : (slotsRetired s g x j sup).mems = s.mems := by
  unfold slotsRetired
  split
  · exact State.updHng_mems ..
  · rfl

/-- The state before the result of a vector: its lines are stored, its events counted, its slots retired. -/
def vecLeft (s : State) (g : Nat) (j : VeJob) (x : VeDesc) (sup : Supply) (r : VecOut) : State :=
  slotsRetired (bumpAll (s.veFlush s g (veLeaving x j r) j.rcmp) g (vecCounts x j sup r)) g x j sup

/-- A result that a vector completes is delivered (R122, R149). -/
def resultStored (s : State) (g : Nat) (j : VeJob) (x : VeDesc) (r : VecOut) : State × Census × Census := match r.deliver with
  | some (k, vs) => s.veResult g x j k vs
  | none => (s, Census.zero, Census.zero)

theorem resultStored_stays (s : State) (g : Nat) (j : VeJob) (x : VeDesc) (r : VecOut) :
    Stays unitView veRegs s (resultStored s g j x r).1 := by
  unfold resultStored
  split
  · exact veResult_stays ..
  · exact .refl ..

theorem veVecDone_eq {s : State} {g : Nat} {j : VeJob} {x : VeDesc} {sup : Supply} {r : VecOut} (hr : r = veVectorOf s g j x sup) :
    ∃ counts k, s.veVecDone s g j x sup = ((resultStored (vecLeft s g j x sup r) g j x r).1.veCarry g x j counts).updVe g
        (fun v => { v with job := some k }) ∧
      (k.desc, k.walk, k.rowState, k.result) =
        (j.desc, (x.next j.walk).1, (if (x.next j.walk).2 then [] else r.rowState), r.result) := by
  subst hr
  exact ⟨_, _, rfl, rfl⟩

end Sys2Proof.Machine

namespace Sys2Proof.Claims

open Machine

theorem veVecDone_job {s : State} {g : Nat} {j : VeJob} {x : VeDesc} {sup : Supply} {r : VecOut} (hr : r = veVectorOf s g j x sup) :
    ((s.veVecDone s g j x sup).core g).ve.job.map (fun k => (k.desc, k.walk, k.rowState, k.result)) =
      some (j.desc, (x.next j.walk).1, (if (x.next j.walk).2 then [] else r.rowState), r.result) := by
  obtain ⟨counts, k, heq, hk⟩ := veVecDone_eq hr
  rw [heq, State.core_updVe_self]
  exact congrArg some hk

/-- The result and the totals of a vector change neither the array nor the engine's counters. -/
theorem veVecDone_left {s : State} {g : Nat} {j : VeJob} {x : VeDesc} {sup : Supply} {r : VecOut} (hr : r = veVectorOf s g j x sup) :
    ((s.veVecDone s g j x sup).core g).hng = ((vecLeft s g j x sup r).core g).hng ∧
      ∀ q ∉ veRegs, ∀ i k, (s.veVecDone s g j x sup).rd q i k = (vecLeft s g j x sup r).rd q i k := by
  obtain ⟨counts, k, heq, -⟩ := veVecDone_eq hr
  have hstays := (resultStored_stays (vecLeft s g j x sup r) g j x r).trans (veCarry_stays _ g x j counts)
  rw [heq]
  refine ⟨?_, fun q hq i k => hstays.rd q i k hq⟩
  rw [State.core_updVe_self]
  exact hng_of_unitView hstays.seen g

theorem veVecDone_tq {s : State} {g : Nat} {j : VeJob} {x : VeDesc} {sup : Supply} {r : VecOut} (hr : r = veVectorOf s g j x sup) :
    ((s.veVecDone s g j x sup).core g).hng.tq = (s.core g).hng.tq.drop (if veRetires x j then sup.taken else 0) := by
  have hcounted : ((bumpAll (s.veFlush s g (veLeaving x j r) j.rcmp) g (vecCounts x j sup r)).core g).hng = (s.core g).hng := by
    unfold State.core
    rw [(bumpAll_touches ..).1]
    exact hng_of_unitView (veFlush_stays ..).seen g
  rw [(veVecDone_left hr).1, vecLeft, slotsRetired_tq, hcounted]

theorem veVecDone_counted {s : State} {g : Nat} {j : VeJob} {x : VeDesc} {sup : Supply} {r : VecOut} (hr : r = veVectorOf s g j x sup)
    {q : Reg} {n : Nat} (hq : (q, n) ∈ vecCounts x j sup r) : counted q g n s (s.veVecDone s g j x sup) := by
  have hout : ∀ p ∈ vecCounts x j sup r, p.1 ∉ veRegs := by
    simp only [vecCounts, List.forall_mem_cons]
    decide
  have hdistinct : ((vecCounts x j sup r).map Prod.fst).Nodup := by
    simp only [vecCounts, List.map_cons, List.map_nil]
    decide
  refine counted_congr (counted_bumpAll hdistinct hq (s.veFlush s g (veLeaving x j r) j.rcmp) g)
    ((veFlush_stays ..).rd q g 0 (hout _ hq)).symm ?_
  exact ((veVecDone_left hr).2 q (hout _ hq) g 0).trans (slotsRetired_rd ..)

theorem veVecDone_mems {s : State} {g : Nat} {j : VeJob} {x : VeDesc} {sup : Supply} {r : VecOut} (hr : r = veVectorOf s g j x sup)
    (hnone : r.deliver = none) : (s.veVecDone s g j x sup).mems = (s.veFlush s g (veLeaving x j r) j.rcmp).mems := by
  obtain ⟨counts, k, heq, -⟩ := veVecDone_eq hr
  have hresult : (resultStored (vecLeft s g j x sup r) g j x r).1 = vecLeft s g j x sup r := by
    unfold resultStored
    rw [hnone]
  rw [heq, State.updVe_mems, State.veCarry_mems, hresult, vecLeft, slotsRetired_mems]
  exact forEach_mems (fun _ _ => State.bump_mems ..) ..

/-! ### The lines of a vector are there -/

theorem linesClear_of_subset {s : State} {reader : Nat} {ls ks : List (Nat × Nat)} (h : LinesClear s reader ls) (hs : ks ⊆ ls) :
    LinesClear s reader ks := List.all_eq_true.mpr fun p hp => List.all_eq_true.mp h p (hs hp)

/-- Clear lines are ready, and none was delivered to the reader. -/
theorem clear_ready {s : State} {reader : Nat} {ls : List (Nat × Nat)} (h : LinesClear s reader ls) :
    ls.find? (fun p => !s.lineReady reader p) = none ∧ s.view reader ls = s := by
  have hclear : ∀ p ∈ ls, s.lineReady reader p = true ∧ s.deliveredTo reader p = none := by
    intro p hp
    have hall := List.all_eq_true.mp h p hp
    simp only [Bool.and_eq_true, Option.isNone_iff_eq_none] at hall
    exact ⟨hall.1.1, hall.2⟩
  refine ⟨List.find?_eq_none.mpr fun p hp => by simp [hclear p hp], forEach_id fun p hp => ?_⟩
  rw [(hclear p hp).2]

theorem veStep_clear {s : State} {g : Nat} {j : VeJob} {x : VeDesc} {sup : Supply} (hsup : s.veSupply g x j (x.box j.walk) = some sup)
    (hclear : LinesClear s (veUnit g) (s.veAuxLines x j.walk ++ s.veLines x (s.reader []) j.walk
      ++ s.veMerges (veLeaving x j (veVectorOf s g j x sup)))) : s.veStep g j x = (s.veVecDone s g j x sup, true) := by
  have hread := linesClear_of_subset hclear (List.subset_append_left ..)
  obtain ⟨hready, hview⟩ := clear_ready (linesClear_of_subset hread (List.subset_append_left ..))
  have hmerged : LinesClear s (veUnit g) (s.veAuxLines x j.walk ++ s.veLines x (s.reader []) j.walk
      ++ s.veMerges (s.veVec s g j x sup).2).eraseDups := linesClear_of_subset hclear fun _ hp => List.mem_eraseDups.mp hp
  unfold State.veStep
  dsimp only
  rw [hsup]
  dsimp only
  rw [hready]
  dsimp only
  rw [hview, gateReads_clear hread]
  dsimp only
  rw [gateReads_clear hmerged]

/-! ### The four cases of a command -/

theorem veExec_unsupplied {s s0 : State} {g p : Nat} {ops : Nat → Bool} {j : VeJob} {x : VeDesc} (hs0 : s0 = s.veStalls g p)
    (hx : x = s0.veParse g j.desc) (hhas : VeHas s0 g ops j) (hdue : j.due = 0) (ho : x.over j.walk = false)
    (hsup : s0.veSupply g x j (x.box j.walk) = none) (n : Nat) :
    s.veExec g ops (n, p) = s0 ∧ ∀ r, s.veStallCause g = some r → counted r g p s s0 := by
  have hexec := veExec_has hs0 hhas n
  obtain ⟨-, hjob, -⟩ := hhas
  refine ⟨hexec.trans (veRun_unsupplied hjob hx hdue ho hsup n), fun r hr => ?_⟩
  rw [hs0, veStalls_of_some hr]
  exact counted_bump ..

theorem veExec_vector {s s0 : State} {g p : Nat} {ops : Nat → Bool} {j : VeJob} {x : VeDesc} {sup : Supply} (hs0 : s0 = s.veStalls g p)
    (hx : x = s0.veParse g j.desc) (hok : VeVectorOk s0 g ops j x sup) :
    s.veExec g ops (1, p) = (s0.veVecDone s0 g j x sup).veRun g 0 := by
  obtain ⟨hhas, hdue, ho, hsup, hclear⟩ := hok
  have hexec := veExec_has hs0 hhas 1
  obtain ⟨-, hjob, -⟩ := hhas
  rw [hexec, veRun_one hjob hx hdue ho, veStep_clear hsup hclear]
  rfl

theorem veExec_over {s s0 : State} {g p : Nat} {ops : Nat → Bool} {j : VeJob} {x : VeDesc} (hs0 : s0 = s.veStalls g p)
    (hx : x = s0.veParse g j.desc) (hhas : VeHas s0 g ops j) (ho : x.over j.walk = true) :
    s.veExec g ops (0, p) = if s0.writesDone g j.stores then veEnd s0 g j x else s0 := by
  have hexec := veExec_has hs0 hhas 0
  obtain ⟨-, hjob, -⟩ := hhas
  exact hexec.trans (veRun_over hjob hx ho 0)

/-- The end of a walk, as the state before the stall cycles shows it. -/
theorem veEnd_stalled {s s0 : State} {g p : Nat} {j : VeJob} (hs0 : s0 = s.veStalls g p) (hrun : s0.running g = true) (hr : j.rcmp = false)
    (x : VeDesc) : coresBut [g] s (veEnd s0 g j x) ∧ memKept s (veEnd s0 g j x) ∧
      (x.tmb = 0xFF → unitDone s (veEnd s0 g j x) g 1) := by
  obtain ⟨hbut, hvmem, hstg⟩ := veEnd_frame (home_of_running hrun) hr x
  obtain ⟨hv, hst⟩ := memKept_of_mems (State.veStalls_mems s g p)
  rw [← hs0] at hv hst
  refine ⟨coresBut_trans (coresBut_of_cores (hs0 ▸ veStalls_cores ..) [g]) hbut, ⟨hvmem.trans hv, hstg.trans hst⟩, fun htmb => ?_⟩
  obtain ⟨-, hunit⟩ := veEnd_silent s0 g hr (.inl htmb)
  exact unitDone_congr (by rw [hs0, State.core_veStalls]) hunit

/-- Any command that runs the engine for some operation codes: what it does in each case does not depend on the codes. -/
theorem vectorCommand {cmd : Nat → Nat × Nat → Instr} {ops : Nat → Bool}
    (hexec : ∀ g work s, exec (cmd g work) s = .next (s.veExec g ops work)) : VectorCommand cmd ops := by
  refine ⟨?_, ?_, ?_, ?_⟩
  · intro s g n p e hok hsegs
    exact ⟨_, hexec .., veExec_noWork hok hsegs (n, p)⟩
  · intro s s0 g n p j x hs0 hx hhas hdue ho hsup
    obtain ⟨heq, hcount⟩ := veExec_unsupplied hs0 hx hhas hdue ho hsup n
    exact ⟨(hexec ..).trans (congrArg _ heq), hcount⟩
  · intro s s0 g p j x sup r hs0 hx hok hr
    have hcore : s0.core g = s.core g := hs0 ▸ State.core_veStalls ..
    have hcounted := fun q n => veVecDone_counted hr (q := q) (n := n)
    refine ⟨_, (hexec ..).trans (congrArg _ (veExec_vector hs0 hx hok)), veVecDone_job hr, hcore ▸ veVecDone_tq hr, hcounted _ _ ?_,
      hcounted _ _ ?_, hcounted _ _ ?_, hcounted _ _ ?_, hcounted _ _ ?_, fun hnone => memKept_of_mems (veVecDone_mems hr hnone)⟩
    all_goals simp [vecCounts]
  · intro s s0 g p j x hs0 hx hhas ho
    have hover := (hexec g (0, p) s).trans (congrArg _ (veExec_over hs0 hx hhas ho))
    obtain ⟨⟨hrun, -⟩, -⟩ := hhas
    refine ⟨fun hwaits => ?_, fun hdone hr => ⟨veEnd s0 g j x, ?_, ?_⟩⟩
    · rw [hover, hwaits]
      rfl
    · rw [hover, hdone]
      rfl
    · obtain ⟨hfree, hop⟩ := veEnd_ve s0 g hr x
      exact ⟨hfree, hop, veEnd_stalled hs0 hrun hr x⟩

end Sys2Proof.Claims

namespace Sys2Proof.Certificates

/-- Settles O10: the seven commands run the engine alike, each for its own operation codes. A signal of a core to its own tumbler reaches
no other core, and what stores, results and totals leave alone holds the tile queue and the engine's counters. -/
theorem vectorCommands : Obligations.VectorCommands :=
  ⟨Claims.vectorCommand fun _ _ _ => rfl, Claims.vectorCommand fun _ _ _ => rfl, Claims.vectorCommand fun _ _ _ => rfl,
    Claims.vectorCommand fun _ _ _ => rfl, Claims.vectorCommand fun _ _ _ => rfl, Claims.vectorCommand fun _ _ _ => rfl,
    Claims.vectorCommand fun _ _ _ => rfl⟩

end Sys2Proof.Certificates
end
